-- ==== Sys2Proof/Word.lean ====
section
/-! DEFINITION. The word and byte types of the HX960 model and their plainest arithmetic: bit tests,
bit fields, clamping, and fixed-length arrays read with a default outside their bounds. -/

namespace Sys2Proof

/-- A byte of host memory or of a frame. -/
abbrev Byte := BitVec 8

/-- A 32-bit register or descriptor word. -/
abbrev Word := BitVec 32

/-- A 64-bit Weave time, tag or mask. -/
abbrev DWord := BitVec 64

/-- A Bool as one bit. -/
def b2n (b : Bool) : Nat := if b then 1 else 0

/-- Entry `i` of an array, and the type's default outside its bounds. -/
def vget {α : Type} {n : Nat} [Inhabited α] (v : Vector α n) (i : Nat) : α :=
  v.toList.getD i default

/-- The array with entry `i` replaced; unchanged outside its bounds. -/
def vset {α : Type} {n : Nat} (v : Vector α n) (i : Nat) (a : α) : Vector α n :=
  v.setIfInBounds i a

/-- The array with entry `i` changed by `f`; unchanged outside its bounds. -/
def vmod {α : Type} {n : Nat} [Inhabited α] (v : Vector α n) (i : Nat) (f : α → α) : Vector α n :=
  vset v i (f (vget v i))

/-- The lower of a value and a bound. -/
def capAt (hi x : Nat) : Nat := if x ≤ hi then x else hi

/-- A value brought into `lo` to `hi`. -/
def clamp (lo hi x : Nat) : Nat := if x < lo then lo else if hi < x then hi else x

end Sys2Proof
end

