-- ==== Sys2Proof/Syntax.lean ====
section
/-! DEFINITION. The commands of the HX960: host commands that arrive in descriptors, and the events, expiries and
register accesses of the table of operations, one constructor per row. -/

namespace Sys2Proof

/-- The twelve power domains of Table 2.6, in their numbers' order. -/
inductive Dom where
  | host | svc | mem | act | led | can | eth | uwb | sec | adc | bezel | aon
  deriving DecidableEq, Repr, Inhabited

/-- The number of a domain in Table 2.6. -/
def Dom.num : Dom → Nat
  | .host => 0 | .svc => 1 | .mem => 2 | .act => 3 | .led => 4 | .can => 5 | .eth => 6 | .uwb => 7
  | .sec => 8 | .adc => 9 | .bezel => 10 | .aon => 11

/-- The device resets of types 1 to 7 of Table 16.2. -/
inductive ResetType where
  | resetN | software | watchdog | escalation | activation | bezel | limpExit
  deriving DecidableEq, Repr

/-- TYPE of Table 16.2. -/
def ResetType.code : ResetType → Nat
  | .resetN => 1 | .software => 2 | .watchdog => 3 | .escalation => 4 | .activation => 5 | .bezel => 6 | .limpExit => 7

/-- What can wake the device or keep it from sleep (Table 2.2, R53). -/
inductive Wake where
  | kl15
  | localNeed
  | net (bus : Fin 10)
  | pin (n : Fin 4)
  | fio (n : Fin 16)
  | token
  deriving DecidableEq, Repr

/-- The service cores that can trap (Table 16.4). -/
inductive SvcCore where
  | sc0 | sc1 | kc
  deriving DecidableEq, Repr

/-- The header of a descriptor (Tables 4.3 and 4.4) with the ring and the ring index it was fetched from. The opcode and
the operands stand in the `HostCmd` beside it. -/
structure Desc where
  /-- Ring that holds the descriptor. -/
  ring : Fin 128 := 0
  /-- Ring index, modulo 65 536; the slot is this number modulo N (R150). -/
  index : BitVec 16 := 0
  /-- TAG, word W1. -/
  tag : BitVec 32 := 0
  /-- DUE, words W2 and W3; 0 is no launch (R109). -/
  due : BitVec 64 := 0
  /-- LATE_EXEC, bit 16 of W0. -/
  lateExec : Bool := false
  /-- SYNC_REQ, bit 17 of W0. -/
  syncReq : Bool := false
  /-- FENCE, bit 18 of W0. -/
  fence : Bool := false
  /-- IRQ, bit 19 of W0. -/
  irq : Bool := false
  /-- PAYLOAD_ADDR, words W12 and W13. -/
  payAddr : BitVec 64 := 0
  /-- PAYLOAD_LEN, bits [23:0] of W14. -/
  payLen : BitVec 24 := 0
  /-- The payload as a headless worker fetched it over the bridge (R543); empty for a local ring. -/
  fetched : List (BitVec 8) := []
  deriving DecidableEq, Repr, Inhabited

/-- A CAN frame, with the fields of Tables 12.5 and 12.12. -/
structure CanFrame where
  /-- Identifier; a base identifier sits in [28:18]. -/
  id : BitVec 29 := 0
  ide : Bool := false
  rtr : Bool := false
  /-- 0 classical, 1 FD, 2 XL. -/
  fmt : BitVec 2 := 0
  brs : Bool := false
  esi : Bool := false
  /-- Data length code; 0 for XL. -/
  dlc : BitVec 4 := 0
  sdt : BitVec 8 := 0
  vcid : BitVec 8 := 0
  sec : Bool := false
  af : BitVec 32 := 0
  data : List (BitVec 8) := []
  deriving DecidableEq, Repr, Inhabited

/-- What a transceiver's wake detection reports (R494 to R497). -/
inductive WakeSignal where
  /-- The wake-up pattern of a dominant-edge wake. -/
  | edge
  /-- A frame that the selective detector decoded. -/
  | frame (f : CanFrame)
  /-- A stuff, CRC or form error. -/
  | error
  deriving DecidableEq, Repr

/-- A frame of the Plait bridge (Table 14.3). -/
structure PlaitFrame where
  cls : BitVec 4 := 0
  kind : BitVec 4 := 0
  src : BitVec 5 := 0
  dst : BitVec 5 := 0
  /-- PREF: a prefetch-tagged read. -/
  pref : Bool := false
  seq : BitVec 12 := 0
  ack : BitVec 12 := 0
  addr : BitVec 36 := 0
  len : BitVec 9 := 0
  tag : BitVec 11 := 0
  status : BitVec 8 := 0
  /-- Credits freed, cumulative modulo 256: P_H, P_D, NP_H, MSG_H, MSG_D. -/
  pH : BitVec 8 := 0
  pD : BitVec 8 := 0
  npH : BitVec 8 := 0
  msgH : BitVec 8 := 0
  msgD : BitVec 8 := 0
  fleetId : BitVec 8 := 0
  payload : List (BitVec 8) := []
  /-- HCRC is right and every reserved bit is 0 (R515). -/
  good : Bool := true
  deriving DecidableEq, Repr, Inhabited

/-- What one response slot of a poll gives (R556 to R559). -/
structure TokenAnswer where
  slot : Fin 8 := 0
  /-- One first-path arrival (R557). -/
  single : Bool := true
  /-- Antennas on which the STS passes the quality check. -/
  sts : BitVec 4 := 0xF
  /-- Ranged distance from each antenna in cm. -/
  d0 : BitVec 12 := 0
  d1 : BitVec 12 := 0
  d2 : BitVec 12 := 0
  d3 : BitVec 12 := 0
  /-- The answer equals AES-128 of the challenge under the slot's key, as KC compares it. -/
  correct : Bool := true
  deriving DecidableEq, Repr, Inhabited

/-- How a pairing ends (Table 15.6). -/
inductive PairOutcome where
  | confirmed | wrong | timeout
  deriving DecidableEq, Repr

/-- The commands the host places in rings: one constructor per opcode of the blocks' opcode tables, with the
operand fields of the table at their stated widths. A block that keeps a descriptor (a launch, a waiting start)
keeps it in this form. -/
inductive HostCmd where
  /-- MODE_SET: block 1, opcode 0x01. -/
  | modeSet (target : BitVec 4)
  /-- PERF_SET: block 1, opcode 0x02. -/
  | perfSet (level : BitVec 3)
  /-- DOMAIN_SET: block 1, opcode 0x03. -/
  | domainSet (domain : BitVec 4) (state : BitVec 2)
  /-- NEED_SET: block 1, opcode 0x04. -/
  | needSet (need : BitVec 1) (source : BitVec 3)
  /-- WALL_SET: block 2, opcode 0x01. -/
  | wallSet (utc : BitVec 64) (at_ : BitVec 64)
  /-- CAPTURE_ARM: block 2, opcode 0x02. -/
  | captureArm (unit : BitVec 3) (timeout : BitVec 24)
  /-- LAUNCH_CANCEL: block 2, opcode 0x03. -/
  | launchCancel (ring : BitVec 7) (index : BitVec 12)
  /-- RX_POST: block 3, opcode 0x01. -/
  | rxPost
  /-- DESC_CANCEL: block 3, opcode 0x02. -/
  | descCancel (ring : BitVec 7) (index : BitVec 12)
  /-- NOP: block 3, opcode 0x03. -/
  | nop
  /-- CONFIG_STAGE: block 4, opcode 0x01. -/
  | configStage
  /-- CONFIG_LOAD: block 4, opcode 0x02. -/
  | configLoad
  /-- STAGE_DISCARD: block 4, opcode 0x03. -/
  | stageDiscard
  /-- COMMIT: block 4, opcode 0x04. -/
  | commit (persist : BitVec 1)
  /-- FLEET_COMMIT: block 4, opcode 0x05. -/
  | fleetCommit (mask : BitVec 32) (persist : BitVec 1)
  /-- FLEET_ABORT: block 4, opcode 0x06. -/
  | fleetAbort
  /-- CONFIG_EXPORT: block 4, opcode 0x07. -/
  | configExport
  /-- HSO_SET: block 5, opcode 0x01. -/
  | hsoSet (ch : BitVec 6) (state : BitVec 2) (duty : BitVec 13)
  /-- HSO_MULTI: block 5, opcode 0x02. -/
  | hsoMulti (mask : BitVec 64) (state : BitVec 2) (duty : BitVec 13)
  /-- HSO_CLEAR: block 5, opcode 0x03. -/
  | hsoClear (ch : BitVec 6)
  /-- HSO_READ: block 5, opcode 0x04. -/
  | hsoRead (ch : BitVec 6)
  /-- HSO_OLTEST: block 5, opcode 0x05. -/
  | hsoOltest (ch : BitVec 6)
  /-- EDGE_PIN: block 6, opcode 0x01. -/
  | edgePin (ch : BitVec 7) (phase : BitVec 13)
  /-- EDGE_UNPIN: block 6, opcode 0x02. -/
  | edgeUnpin (ch : BitVec 7)
  /-- VLV_START: block 7, opcode 0x01. -/
  | vlvStart (ch : BitVec 5) (profile : BitVec 5) (arg : BitVec 16)
  /-- VLV_MULTI: block 7, opcode 0x02. -/
  | vlvMulti (mask : BitVec 32) (profile : BitVec 5) (arg : BitVec 16)
  /-- VLV_STOP: block 7, opcode 0x03. -/
  | vlvStop (ch : BitVec 5)
  /-- VLV_CLEAR: block 7, opcode 0x04. -/
  | vlvClear (ch : BitVec 5) (bank : BitVec 1)
  /-- VLV_READ: block 7, opcode 0x05. -/
  | vlvRead (ch : BitVec 5)
  /-- VLV_OFFTEST: block 7, opcode 0x06. -/
  | vlvOfftest (ch : BitVec 5)
  /-- FACET_LOAD: block 8, opcode 0x01. -/
  | facetLoad (mask : BitVec 8)
  /-- FACET_VERIFY: block 8, opcode 0x02. -/
  | facetVerify (mask : BitVec 8)
  /-- FACET_PEEK: block 8, opcode 0x03. -/
  | facetPeek (ch : BitVec 5) (reg : BitVec 4)
  /-- LED_SET: block 9, opcode 0x01. -/
  | ledSet (ch : BitVec 4) (dim : BitVec 12) (iSet : BitVec 10)
  /-- LED_MULTI: block 9, opcode 0x02. -/
  | ledMulti (mask : BitVec 12) (iSet : BitVec 10) (dim : BitVec 12)
  /-- LED_CLEAR: block 9, opcode 0x03. -/
  | ledClear (ch : BitVec 4)
  /-- LED_READ: block 9, opcode 0x04. -/
  | ledRead (ch : BitVec 4)
  /-- COLOUR_CTL: block 9, opcode 0x05. -/
  | colourCtl (run : BitVec 1)
  /-- MTX_WRITE: block 10, opcode 0x01. -/
  | mtxWrite (offset : BitVec 11)
  /-- MTX_SWAP: block 10, opcode 0x02. -/
  | mtxSwap (when : BitVec 1)
  /-- MTX_BLANK: block 10, opcode 0x03. -/
  | mtxBlank (blank : BitVec 1)
  /-- MTX_CLEAR: block 10, opcode 0x04. -/
  | mtxClear
  /-- FIO_SET: block 11, opcode 0x01. -/
  | fioSet (ch : BitVec 6) (duty : BitVec 13)
  /-- FIO_MULTI: block 11, opcode 0x02. -/
  | fioMulti (mask : BitVec 64) (duty : BitVec 13)
  /-- FIO_CLEAR: block 11, opcode 0x03. -/
  | fioClear (ch : BitVec 6)
  /-- FIO_READ: block 11, opcode 0x04. -/
  | fioRead (ch : BitVec 6)
  /-- CAN_TX: block 12, opcode 0x01. -/
  | canTx (ch : BitVec 4) (fmt : BitVec 2) (brs : BitVec 1) (ide : BitVec 1) (rtr : BitVec 1) (cf : BitVec 3) (useCf : BitVec 1) (rtrDlc : BitVec 4) (id : BitVec 29) (sdt : BitVec 8) (vcid : BitVec 8) (sec : BitVec 1) (af : BitVec 32)
  /-- CAN_TP_TX: block 12, opcode 0x02. -/
  | canTpTx (ch : BitVec 4) (cf : BitVec 3) (da : BitVec 8) (prio : BitVec 3) (pgn : BitVec 18)
  /-- CAN_MODE: block 12, opcode 0x03. -/
  | canMode (ch : BitVec 4) (listen : BitVec 1) (unmute : BitVec 1)
  /-- CAN_RECOVER: block 12, opcode 0x04. -/
  | canRecover (ch : BitVec 4)
  /-- CAN_TT_WRITE: block 12, opcode 0x05. -/
  | canTtWrite (ch : BitVec 4) (fmt : BitVec 2) (brs : BitVec 1) (ide : BitVec 1) (slot : BitVec 5) (clear : BitVec 1) (id : BitVec 29)
  /-- CAN_AC: block 12, opcode 0x06. -/
  | canAc (cf : BitVec 3) (act : BitVec 2) (addr : BitVec 8)
  /-- CAN_READ: block 12, opcode 0x07. -/
  | canRead (ch : BitVec 4)
  /-- NET_HOLD: block 13, opcode 0x01. -/
  | netHold (mask : BitVec 10) (hold : BitVec 1)
  /-- NET_WAKE: block 13, opcode 0x02. -/
  | netWake (mask : BitVec 10)
  /-- NET_BAR_CLEAR: block 13, opcode 0x03. -/
  | netBarClear (mask : BitVec 10)
  /-- NET_READ: block 13, opcode 0x04. -/
  | netRead (ch : BitVec 4)
  /-- PLAIT_COPY: block 15, opcode 0x01. -/
  | plaitCopy (worker : BitVec 5) (dir : BitVec 1) (offset : BitVec 25)
  /-- PLAIT_PING: block 15, opcode 0x02. -/
  | plaitPing (worker : BitVec 5)
  /-- PLAIT_DROP: block 15, opcode 0x03. -/
  | plaitDrop (worker : BitVec 5)
  /-- ACC_PAIR: block 16, opcode 0x01. -/
  | accPair (slot : BitVec 3)
  /-- ACC_UNPAIR: block 16, opcode 0x02. -/
  | accUnpair (slot : BitVec 3)
  /-- ACC_TAKEOVER: block 16, opcode 0x03. -/
  | accTakeover
  /-- ACC_OWNER_LOCK: block 16, opcode 0x04. -/
  | accOwnerLock (lock : BitVec 1)
  /-- ACC_SEARCH: block 16, opcode 0x05. -/
  | accSearch (reason : BitVec 2)
  /-- ACC_READ: block 16, opcode 0x06. -/
  | accRead
  /-- ACC_REL_KEY: block 16, opcode 0x07. -/
  | accRelKey
  /-- BEZEL_RECLAIM: block 17, opcode 0x01. -/
  | bezelReclaim (hso : BitVec 64) (led : BitVec 12) (fioLo : BitVec 32) (fioHi : BitVec 16)
  /-- BEZEL_LOG_READ: block 17, opcode 0x02. -/
  | bezelLogRead
  /-- BEZEL_RESET_REQ: block 17, opcode 0x03. -/
  | bezelResetReq (limp : BitVec 1)
  /-- LOUPE_READ: block 18, opcode 0x01. -/
  | loupeRead (offset : BitVec 25)
  /-- LOUPE_CLEAR: block 18, opcode 0x02. -/
  | loupeClear (lastSeq : BitVec 32)
  /-- LOUPE_MARK: block 18, opcode 0x03. -/
  | loupeMark (trig : BitVec 6)
  /-- UPD_BEGIN: block 19, opcode 0x01. -/
  | updBegin
  /-- UPD_BLOCK: block 19, opcode 0x02. -/
  | updBlock (index : BitVec 10)
  /-- UPD_VERIFY: block 19, opcode 0x03. -/
  | updVerify
  /-- UPD_ACTIVATE: block 19, opcode 0x04. -/
  | updActivate (accDef : BitVec 1)
  /-- UPD_CONFIRM: block 19, opcode 0x05. -/
  | updConfirm
  /-- UPD_ABORT: block 19, opcode 0x06. -/
  | updAbort (keep : BitVec 1)
  /-- UPD_OEM_KEY: block 19, opcode 0x07. -/
  | updOemKey
  /-- SET_WRITE: block 19, opcode 0x08. -/
  | setWrite (key : BitVec 16)
  /-- SET_READ: block 19, opcode 0x09. -/
  | setRead (key : BitVec 16)
  /-- ECC_INJECT: block 21, opcode 0x01. -/
  | eccInject (addr : BitVec 64) (kind : BitVec 2)
  deriving DecidableEq, Repr

/-- The commands of the HX960 as a block: one constructor per row of the table of operations and events. A row that
is a host command carries the descriptor's header and its operand fields; a row that is an event carries what the
event reports (a channel, a measured value, a received frame). -/
inductive Instr where
  /-- POWER_ON (R583): KL30_L rises past the power-on threshold with PD_BEZEL unsupplied, which gives a type 0 reset, and Start begins with the power-on state. -/
  | powerOn (role : BitVec 2)
  /-- SUPPLY_LOSS (R607): KL30_L stays below 2.5 V for 200 µs; Bezel logs the loss, stops NOR writes, switches every output off and mirrors the log if hold-up allows. -/
  | supplyLoss (holdUpLeft : Bool)
  /-- RESET_N_ASSERTED (R585): A low pulse on RESET_N long enough to act holds the device in a type 1 reset while Bezel keeps running. -/
  | resetNAsserted (lowNs : Nat)
  /-- RESET_N_RELEASED (R585): RESET_N rises and Start begins within 100 µs. -/
  | resetNReleased
  /-- DEVICE_RESET (R583): A device reset of types 1 to 7 resets every SoC domain except PD_BEZEL and PD_AON, records Weave time and opens the hold window. -/
  | deviceReset (typ : ResetType) (detail : BitVec 8) (retBad : BitVec 10)
  /-- RAIL_POWER_GOOD (R71): A Start rail reports power-good and the next rail of Table 2.7 is enabled. -/
  | railPowerGood (rail : Fin 6)
  /-- RAIL_TIMEOUT (R72): A rail misses its 5 ms power-good time; it is switched off for 1 ms and retried, or after the third retry Start takes the outcome for that rail. -/
  | railTimeout (rail : Fin 6)
  /-- RAIL_POWER_GOOD_LOST (R72): A rail that had reported power-good loses it for 100 µs, which causes a type 4 device reset. -/
  | railPowerGoodLost (rail : Fin 6)
  /-- KL30_LOW_HOLD (R72): KL30_L below 4.5 V during Start stops further rail enables and freezes the rail timers until it recovers. -/
  | kl30LowHold
  /-- CRYSTAL_RUNNING (R74): The crystal oscillator starts running after V3P3 power-good. -/
  | crystalRunning
  /-- CRYSTAL_TIMEOUT (R74): The crystal is not running 10 ms after V3P3 power-good; the islands are clocked from the RC oscillator and Start ends in Limp. -/
  | crystalTimeout
  /-- START_COMPLETE (R736): Start completes and the device takes Run, Accessory, Listen or Limp under Table 2.2. -/
  | startComplete (bankAOk : Bool) (bankBOk : Bool) (antBad : BitVec 4) (retBad : BitVec 10)
  /-- KL15_ON (R735): KL15 stays above its on threshold for 20 ms and the mode transitions that need KL15 on are evaluated. -/
  | kl15On
  /-- KL15_OFF (R735): KL15 stays below its off threshold for 100 ms and the mode transitions that need KL15 off are evaluated. -/
  | kl15Off
  /-- WAKE_PIN_ASSERTED (R735): A WAKE pin stays above its on threshold for 20 ms and wakes the device from a mode in which it is armed. -/
  | wakePinAsserted (pin : Fin 4)
  /-- WAKE_PIN_RELEASED (R735): A WAKE pin stays below its off threshold for 100 ms. -/
  | wakePinReleased (pin : Fin 4)
  /-- LATE_WAKE_LATCH (R54): Bezel latches a wake that arrives after the point of no return for Park or Guard. -/
  | lateWakeLatch (wake : Wake)
  /-- REGULATORS_OFF (R54): The main regulators report off; if a wake is latched, Start begins within 1 ms. -/
  | regulatorsOff
  /-- GUARD_EXPIRY (R562): 504 h in Guard with no wake end polling and the device enters Park. -/
  | guardExpiry
  /-- MODE_SET (R47): Host command that requests a mode transition of Table 2.2. -/
  | modeSet (d : Desc) (target : BitVec 4)
  /-- PERF_SET (R55): Host command that requests a host performance level. -/
  | perfSet (d : Desc) (level : BitVec 3)
  /-- PL_REQ_WRITE (R55): A write to PWR_PL.REQ requests a host performance level. -/
  | plReqWrite (hart : BitVec 2) (value : BitVec 32)
  /-- PL_CHANGE_DONE (R56): A performance-level change finishes its voltage, bias, assist and frequency steps and PWR_PL.BUSY clears. -/
  | plChangeDone
  /-- PL4_LIMIT_REACHED (R58): The PL4 time allowed in the window is used up; the cap drops to PL3 and the host moves to PL3. -/
  | pl4LimitReached
  /-- PL4_CAP_LIFT (R59): The window allows PL4 again; the cap is removed and the host returns to its requested level. -/
  | pl4CapLift
  /-- DOMAIN_SET (R42): Host command that sets one power domain to a state at or below its entry state. -/
  | domainSet (d : Desc) (domain : BitVec 4) (state : BitVec 2)
  /-- NEED_SET (R85): Host command that asserts or releases one host local-need source. -/
  | needSet (d : Desc) (need : BitVec 1) (source : BitVec 3)
  /-- COMPAT_RUN (R60): A PWR_COMPAT write of RUN sets PL3 and returns the host domains to their entry states. -/
  | compatRun (hart : BitVec 2)
  /-- COMPAT_IDLE (R60): A PWR_COMPAT write of IDLE gates PD_HOST until the next host interrupt. -/
  | compatIdle (hart : BitVec 2)
  /-- COMPAT_SLEEP (R60): A PWR_COMPAT write of SLEEP lowers the host, memory and other domains until the next host interrupt. -/
  | compatSleep (hart : BitVec 2)
  /-- COMPAT_DEEPSLEEP (R60): A PWR_COMPAT write of DEEPSLEEP ends the host's local need, or is refused while KL15 is on. -/
  | compatDeepsleep (hart : BitVec 2)
  /-- COMPAT_OFF (R60): A PWR_COMPAT write of OFF acts as MODE_SET Storage. -/
  | compatOff (hart : BitVec 2)
  /-- HOST_INTERRUPT_WAKE (R60): A host interrupt ends an IDLE or SLEEP request and returns the lowered domains. -/
  | hostInterruptWake
  /-- DOMAIN_READY (R61): A waking domain reports ready and the stalled accesses proceed. -/
  | domainReady (dom : Dom)
  /-- DOMAIN_WAKE_TIMEOUT (R62): A domain does not report ready within its timeout; stalled accesses fail and, at the third failure, the fault goes to Bezel. -/
  | domainWakeTimeout (dom : Dom)
  /-- DRAIN_QUIESCENT (R67): A domain that is being powered down becomes quiescent; pending completions are written and its state changes. -/
  | drainQuiescent (dom : Dom)
  /-- DRAIN_BOUND_EXPIRY (R67): PWR_DRAIN.BOUND passes; unfinished descriptors complete ABORTED_POWER and the domain changes state. -/
  | drainBoundExpiry (dom : Dom)
  /-- GOVERNOR_TICK (R78): Every 10 ms the governor estimates dissipation and takes or releases a derating step. -/
  | governorTick (estimate : BitVec 16) (junction : Int)
  /-- RC_TRIM (R76): The RC oscillator is trimmed against 64 received classical frames, and the trim repeats every 10 s. -/
  | rcTrim
  /-- LAUNCH_FIRE (R110): Weave reaches a launch's fire tick and hands the action to its block, in the firing order of R116. -/
  | launchFire
  /-- SYNC_TX (R93): The manager sends a two-step Sync with Follow_Up at each Sync interval, and then a TIME message. -/
  | syncTx
  /-- SYNC_RX (R96): A worker receives a Sync and Follow_Up, measures its offset, and slews, steps, locks or unlocks. -/
  | syncRx (offset : Int) (interval : Fin 6)
  /-- PDELAY_EXCHANGE (R93): The 1 s peer-delay exchange on a Plait link measures the path delay. -/
  | pdelayExchange (delay : Nat)
  /-- SYNC_MISSED (R94): Three consecutive Sync intervals pass without a Sync and the worker enters HOLDOVER. -/
  | syncMissed
  /-- HOLDOVER_EXPIRY (R94): HOLDOVER lasts HOLD_MAX with no Sync and the worker enters LOST. -/
  | holdoverExpiry
  /-- TIME_MSG_RX (R108): A worker receives a TIME message and takes the wall-clock offset and SET_COUNT from the manager. -/
  | timeMsgRx (wallOffset : BitVec 64) (setCount : BitVec 16)
  /-- WALL_SET (R106): Host command that sets the wall-clock offset from a UTC value and its Weave time. -/
  | wallSet (d : Desc) (utc : BitVec 64) (at_ : BitVec 64)
  /-- CAPTURE_ARM (R132): Host command that arms a capture unit to complete on its next selected edge. -/
  | captureArm (d : Desc) (unit : BitVec 3) (timeout : BitVec 24)
  /-- CAPTURE_EDGE (R129): A selected edge on a capture source records Weave time and completes the oldest armed CAPTURE_ARM. -/
  | captureEdge (source : BitVec 7) (rising : Bool)
  /-- CAPTURE_TIMEOUT (R132): No edge arrives within a CAPTURE_ARM's TIMEOUT and it completes TIMEOUT. -/
  | captureTimeout (unit : Fin 8)
  /-- LAUNCH_CANCEL (R118): Host command that cancels a queued launch before its fire tick. -/
  | launchCancel (d : Desc) (ring : BitVec 7) (index : BitVec 12)
  /-- WEAVE_TIME_READ (R92): A read of WEAVE_TIME_LO latches the upper 32 bits into WEAVE_TIME_HI. -/
  | weaveTimeRead (hart : BitVec 2)
  /-- WALL_OFFSET_READ (R535): A read of WEAVE_WALL_LO latches WEAVE_WALL_HI. -/
  | wallOffsetRead (hart : BitVec 2)
  /-- CAPTURE_READ (R535): A read of WEAVE_CAP_LO_n latches WEAVE_CAP_HI_n. -/
  | captureRead (hart : BitVec 2) (unit : Fin 8)
  /-- RING_ENABLE (R142): A write that sets RING_CFG_n.ENABLE enables the ring if its set-up checks pass, or sets CFG_ERR. -/
  | ringEnable (hart : BitVec 2) (ring : Fin 128) (value : BitVec 32)
  /-- RING_DISABLE (R145): A write that clears RING_CFG_n.ENABLE stops fetching and cancels the posted RX buffers. -/
  | ringDisable (hart : BitVec 2) (ring : Fin 128) (value : BitVec 32)
  /-- DOORBELL_BLOCK_REGISTER (R148): A write of RING_DB_CTL.REG registers the doorbell block, or is ignored with REG_ERR while a ring is enabled. -/
  | doorbellBlockRegister (hart : BitVec 2) (value : BitVec 32)
  /-- DOORBELL_STORE (R149): An aligned host store to the doorbell block updates PI and CCI, or halts the ring on an overrun of N. -/
  | doorbellStore (hart : BitVec 2) (offset : BitVec 10) (size : BitVec 2) (data : BitVec 64)
  /-- DESCRIPTOR_FETCH (R159): The fabric fetches the next descriptor of a served ring, runs the checks of Table 4.5, and passes it to Weave or its block. -/
  | descriptorFetch
  /-- MODERATION_TIMEOUT (R175): The RING_MOD_n.TIME period passes since the first unsignalled completion and the ring vector is raised. -/
  | moderationTimeout (ring : Fin 128)
  /-- RX_POST (R179): Host command that posts an inbound buffer on an RX ring. -/
  | rxPost (d : Desc)
  /-- DESC_CANCEL (R177): Host command that cancels a descriptor by ring and index, with the outcome of Table 4.9. -/
  | descCancel (d : Desc) (ring : BitVec 7) (index : BitVec 12)
  /-- NOP (R186): Host command that does nothing and completes OK. -/
  | nop (d : Desc)
  /-- CONFIG_STAGE (R197): Host command that stages one or more records whole over the running configuration. -/
  | configStage (d : Desc)
  /-- CONFIG_LOAD (R199): Host command that checks a whole image and stages it in place of the running configuration. -/
  | configLoad (d : Desc)
  /-- STAGE_DISCARD (R203): Host command that empties the stage. -/
  | stageDiscard (d : Desc)
  /-- COMMIT (R209): Host command that seals the stage and starts the consistency check. -/
  | commit (d : Desc) (persist : BitVec 1)
  /-- COMMIT_CHECK_DONE (R204): The consistency check ends; a failure is reported and the stage is unsealed, a pass queues the apply, and a fleet member votes. -/
  | commitCheckDone
  /-- PERSIST_DONE (R216): A persist write ends and the COMMIT completes OK or PERSIST_FAILED. -/
  | persistDone (ok : Bool)
  /-- FLEET_COMMIT (R223): Host command on the manager that seals its stage and sends PREPARE to the named workers. -/
  | fleetCommit (d : Desc) (mask : BitVec 32) (persist : BitVec 1)
  /-- FLEET_ABORT (R231): Host command that sends ABORT if APPLY has not yet been sent. -/
  | fleetAbort (d : Desc)
  /-- CONFIG_EXPORT (R231): Host command that writes the running image, with FIELDED set, to the payload buffer. -/
  | configExport (d : Desc)
  /-- FLEET_PREPARE_RX (R223): A worker receives PREPARE, seals its stage and starts its check. -/
  | fleetPrepareRx (id : BitVec 8) (persist : Bool)
  /-- FLEET_VOTE_RX (R223): The manager receives a vote; when every named member has voted yes it sends APPLY, and on a no it sends ABORT. -/
  | fleetVoteRx (worker : Fin 32) (yes : Bool) (detail : BitVec 16)
  /-- FLEET_VOTE_TIMEOUT (R223): VOTE_TO passes with a vote missing and the manager sends ABORT. -/
  | fleetVoteTimeout
  /-- FLEET_APPLY_RX (R225): A prepared worker receives APPLY and acknowledges it; it then applies on DUE, or on the next tick if late. -/
  | fleetApplyRx (id : BitVec 8) (due : BitVec 64)
  /-- FLEET_APPLY_ACK_RX (R227): The manager receives APPLY_ACK, late or on time. -/
  | fleetApplyAckRx (worker : Fin 32) (late : Bool)
  /-- FLEET_ABORT_RX (R225): A prepared worker receives ABORT before DUE and discards the commit. -/
  | fleetAbortRx (id : BitVec 8)
  /-- FLEET_APPLY_RETX (R227): The RETX period passes and the manager resends APPLY to each worker that has not acknowledged. -/
  | fleetApplyRetx
  /-- FLEET_HOLD_EXPIRY (R226): A prepared worker receives neither APPLY nor ABORT within HOLD and discards its stage. -/
  | fleetHoldExpiry
  /-- FLEET_COMMIT_DUE (R228): The manager completes FLEET_COMMIT on DUE with the outcome of Table 5.6. -/
  | fleetCommitDue
  /-- TAKEOVER_EXPIRY (R201): The 10 min takeover authorisation ends and CFG_STATUS.TAKEOVER clears. -/
  | takeoverExpiry
  /-- STAGED_REGISTER_WRITE (R202): A write to a staged register changes the stage, or is lost while the stage is sealed. -/
  | stagedRegisterWrite (hart : BitVec 2) (addr : BitVec 36) (value : BitVec 32)
  /-- REGISTER_WRITE (R713): A host write to a register that has no behaviour of its own acts under its access type. -/
  | registerWrite (hart : BitVec 2) (addr : BitVec 36) (value : BitVec 32)
  /-- HSO_SET (R239): Host command that sets one high-side channel Off, On, PWM or Soft-start. -/
  | hsoSet (d : Desc) (ch : BitVec 6) (state : BitVec 2) (duty : BitVec 13)
  /-- HSO_MULTI (R280): Host command that sets several high-side channels on one tick. -/
  | hsoMulti (d : Desc) (mask : BitVec 64) (state : BitVec 2) (duty : BitVec 13)
  /-- HSO_CLEAR (R271): Host command that clears a channel's latch, retry count and short-to-battery hold. -/
  | hsoClear (d : Desc) (ch : BitVec 6)
  /-- HSO_READ (R280): Host command that returns a channel's sense code, state and flags. -/
  | hsoRead (d : Desc) (ch : BitVec 6)
  /-- HSO_OLTEST (R280): Host command that runs an off-state test now. -/
  | hsoOltest (d : Desc) (ch : BitVec 6)
  /-- PWM_PERIOD_START (R247): A PWM period begins; the lamp-mode duty and any pending duty change are applied. -/
  | pwmPeriodStart (index : BitVec 7)
  /-- SOFT_START_STEP (R243): A soft-start ramp raises the duty by one of its 64 steps. -/
  | softStartStep (ch : Fin 64)
  /-- FEED_MEASURE (R247): Every 100 µs the feed voltage of each group is measured. -/
  | feedMeasure (mv0 : BitVec 16) (mv1 : BitVec 16) (mv2 : BitVec 16) (bst : BitVec 16)
  /-- SENSE_UPDATE (R273): Every 100 µs each channel's sense code and SENSE_MON are updated. -/
  | senseUpdate (ch : Fin 64) (milliamps : Nat) (groupTenMa : BitVec 16) (groupTemp : BitVec 8)
  /-- INRUSH_WINDOW_END (R250): INRUSH_T passes and the overload threshold returns to LIMIT. -/
  | inrushWindowEnd (ch : Fin 64)
  /-- FAST_TRIP (R252): Channel current exceeds the fast-trip threshold and the die switches the channel off. -/
  | fastTrip (ch : Fin 64)
  /-- FAST_TRIP_RETRY (R253): 100 ms after a fast trip the channel makes its one retry. -/
  | fastTripRetry (ch : Fin 64)
  /-- OVERLOAD_TRIP (R251): Current above the active overload threshold for 500 µs of on-time switches the channel off. -/
  | overloadTrip (ch : Fin 64)
  /-- WIRE_MODEL_UPDATE (R254): Every 1 ms the wire model updates ΔT and trips or retries the channel. -/
  | wireModelUpdate (ch : Fin 64) (meanSquare : Nat)
  /-- RETRY_COUNT_RESET (R257): 60 s on without a trip returns the channel's retry count to 0. -/
  | retryCountReset (ch : Fin 64)
  /-- WIRE_MODEL_SAVE (R259): Every 100 ms ΔT is copied to Bezel retention RAM. -/
  | wireModelSave
  /-- JUNCTION_OT_TRIP (R270): A channel junction reaches its over-temperature trip and the channel switches off. -/
  | junctionOtTrip (ch : Fin 64)
  /-- JUNCTION_OT_CLEAR (R270): The junction falls below 155 °C and the channel turns back on, or latches at the fourth trip. -/
  | junctionOtClear (ch : Fin 64)
  /-- OPEN_LOAD_ON_DETECT (R260): The sense code stays below OL_ON_TH for 10 ms of on-time and sets OPEN_LOAD_ON. -/
  | openLoadOnDetect (ch : Fin 64)
  /-- OPEN_LOAD_ON_CLEAR (R260): 10 ms of on-time above the threshold clears OPEN_LOAD_ON. -/
  | openLoadOnClear (ch : Fin 64)
  /-- OFF_STATE_TEST (R261): Every 100 ms an off-state test starts by sourcing 75 µA into the output. -/
  | offStateTest (ch : Fin 64)
  /-- OFF_STATE_TEST_RESULT (R261): At the end of the 2 ms test the output voltage sets the result. -/
  | offStateTestResult (ch : Fin 64) (mv : BitVec 16)
  /-- SHORT_TO_BAT_ON (R262): Reverse current for 1 ms on an on channel detects a short to battery and switches the channel off. -/
  | shortToBatOn (ch : Fin 64)
  /-- REVERSE_FEED (R263): The feed lies more than 1 V below ground and the die drives every channel of the group on. -/
  | reverseFeed (grp : Fin 8)
  /-- GROUP_LIMIT_HIT (R264): The group's instantaneous current exceeds its detection threshold and a group-limit hit begins. -/
  | groupLimitHit (grp : Fin 8)
  /-- GROUP_LIMIT_END (R264): The group current falls below the threshold and the hit ends. -/
  | groupLimitEnd (grp : Fin 8)
  /-- SYMPATHETIC_TAG (R265): 100 µs after a group-limit hit begins, its sympathetic tag becomes final. -/
  | sympatheticTag (grp : Fin 8)
  /-- GROUP_LIMIT_SHED (R266): A hit that is not sympathetic lasts 1 ms and switches off the worst channel, and does so again every 1 ms. -/
  | groupLimitShed (grp : Fin 8)
  /-- FAST_TRIP_HOLDOFF_END (R268): 5 ms after a fast trip, turn-ons from Off in that group may take effect again. -/
  | fastTripHoldoffEnd (grp : Fin 8)
  /-- GROUP_OT (R269): The group sensor reaches 165 °C and channels are shed every 10 ms until it reads 150 °C. -/
  | groupOt (grp : Fin 8)
  /-- GROUP_OT_CLEAR (R269): The group sensor reads below 150 °C and shed channels retry. -/
  | groupOtClear (grp : Fin 8)
  /-- EDGE_PIN (R302): Host command that pins a planner channel's phase. -/
  | edgePin (d : Desc) (ch : BitVec 7) (phase : BitVec 13)
  /-- EDGE_UNPIN (R301): Host command that removes a host pin or a launch pin. -/
  | edgeUnpin (d : Desc) (ch : BitVec 7)
  /-- PLANNER_FRAME_CHECK (R297): At slot 1000 of a frame the planner checks the coming frame and moves unpinned channels to meet its limits. -/
  | plannerFrameCheck
  /-- VLV_START (R326): Host command that starts or restarts a valve profile on one channel. -/
  | vlvStart (d : Desc) (ch : BitVec 5) (profile : BitVec 5) (arg : BitVec 16)
  /-- VLV_MULTI (R345): Host command that starts a profile on several valve channels. -/
  | vlvMulti (d : Desc) (mask : BitVec 32) (profile : BitVec 5) (arg : BitVec 16)
  /-- VLV_STOP (R361): Host command that sends a context to its quench phase or stops it. -/
  | vlvStop (d : Desc) (ch : BitVec 5)
  /-- VLV_CLEAR (R336): Host command that clears a channel latch, and optionally its bank latch. -/
  | vlvClear (d : Desc) (ch : BitVec 5) (bank : BitVec 1)
  /-- VLV_READ (R345): Host command that returns a valve channel's current, state and flags. -/
  | vlvRead (d : Desc) (ch : BitVec 5)
  /-- VLV_OFFTEST (R335): Host command that runs a valve off test now. -/
  | vlvOfftest (d : Desc) (ch : BitVec 5)
  /-- BOOST_WAIT_EXPIRY (R330): A channel waits VLV_DEFER.MAX for the claim and FALLBACK decides its outcome. -/
  | boostWaitExpiry (ch : Fin 32)
  /-- BANK_IDLE_TIMEOUT (R314): No channel of a bank has been active for 1 ms and the bank switch goes OFF. -/
  | bankIdleTimeout (bank : Fin 8)
  /-- BST_REVERSE_START (R319): BST exceeds the set-point by 1.0 V and the converter runs in reverse. -/
  | bstReverseStart
  /-- BST_REVERSE_END (R319): BST falls to the set-point plus 0.5 V and reverse transfer ends. -/
  | bstReverseEnd
  /-- BST_OVERVOLTAGE (R319): The mean clamp power over 100 ms exceeds 5 W; decays act as slow and OV is set. -/
  | bstOvervoltage
  /-- BST_CAP_CHECK (R321): The Start ramp of BST estimates the capacitance and ESR and may set CAP_FAULT. -/
  | bstCapCheck (microfarads : BitVec 12) (esr : BitVec 12)
  /-- VALVE_CHANNEL_OVERCURRENT (R334): A channel current passes its trip and the channel switches off, or latches on a repeat. -/
  | valveChannelOvercurrent (ch : Fin 32)
  /-- BANK_OVERCURRENT (R334): A bank current passes its trip and the bank switch opens, or latches on a repeat. -/
  | bankOvercurrent (bank : Fin 8)
  /-- BANK_CURRENT_MISMATCH (R334): The bank current exceeds the sum of its channel currents by 1 A for 100 µs and the bank latches. -/
  | bankCurrentMismatch (bank : Fin 8)
  /-- OPEN_COIL_ON (R334): The current stays below OPEN_TH 500 µs after a rising phase begins and the channel switches off. -/
  | openCoilOn (ch : Fin 32)
  /-- VALVE_OFF_TEST (R335): Every 100 ms an off test starts on an inactive channel of a bank at OFF. -/
  | valveOffTest (ch : Fin 32)
  /-- VALVE_OFF_TEST_RESULT (R335): The 2 ms valve off test ends and sets open-coil or short-to-battery. -/
  | valveOffTestResult (ch : Fin 32) (mv : BitVec 16)
  /-- VALVE_DIE_OT (R334): The valve die reaches 170 °C; every bank switch opens and starts are refused. -/
  | valveDieOt
  /-- VALVE_DIE_OT_CLEAR (R334): The valve die falls below 155 °C and starts are allowed again. -/
  | valveDieOtClear
  /-- PHASE (R359): Facet instruction that sets PHASE, DECAY and MIX and requests or releases the boost claim. -/
  | phase (ch : Fin 32)
  /-- SETI (R352): Facet instruction that sets the target from an immediate value, clamped. -/
  | seti (ch : Fin 32)
  /-- SETR (R352): Facet instruction that sets the target from a register, clamped. -/
  | setr (ch : Fin 32)
  /-- FREQ (R352): Facet instruction that sets the chopping frequency. -/
  | freq (ch : Fin 32)
  /-- WAIT (R353): Facet instruction that starts a wait for a fixed time. -/
  | wait (ch : Fin 32)
  /-- WAITR (R353): Facet instruction that starts a wait for a register-given time. -/
  | waitr (ch : Fin 32)
  /-- WADD (R352): Facet instruction that adds an immediate time to the Weave mark. -/
  | wadd (ch : Fin 32)
  /-- WADDR (R352): Facet instruction that adds a register time to the Weave mark. -/
  | waddr (ch : Fin 32)
  /-- WAITW (R364): Facet instruction that waits until Weave time reaches W and announces W to the planner. -/
  | waitw (ch : Fin 32)
  /-- WAITC (R353): Facet instruction that waits for a current threshold. -/
  | waitc (ch : Fin 32)
  /-- WAITS (R366): Facet instruction that waits for a slope threshold. -/
  | waits (ch : Fin 32)
  /-- SLOPEW (R352): Facet instruction that sets the slope window. -/
  | slopew (ch : Fin 32)
  /-- TMO (R352): Facet instruction that sets the timeout of conditional waits. -/
  | tmo (ch : Fin 32)
  /-- MOVI (R352): Facet instruction that loads a register with a sign-extended immediate. -/
  | movi (ch : Fin 32)
  /-- MOV (R352): Facet instruction that copies one register to another. -/
  | mov (ch : Fin 32)
  /-- ADD (R352): Facet instruction that adds two registers. -/
  | add (ch : Fin 32)
  /-- ADDI (R352): Facet instruction that adds an immediate to a register. -/
  | addi (ch : Fin 32)
  /-- SUB (R352): Facet instruction that subtracts one register from another. -/
  | sub (ch : Fin 32)
  /-- SHF (R352): Facet instruction that shifts a register. -/
  | shf (ch : Fin 32)
  /-- LDC (R352): Facet instruction that loads a constant word of the bank. -/
  | ldc (ch : Fin 32)
  /-- RD (R352): Facet instruction that reads a source of Table 9.6 into a register. -/
  | rd (ch : Fin 32) (measured : BitVec 32)
  /-- BR (R352): Facet instruction that branches on a condition of Table 9.7. -/
  | br (ch : Fin 32)
  /-- FAULT (R367): Facet instruction that raises a fault and continues, quenches or stops. -/
  | faultOp (ch : Fin 32)
  /-- REPT (R352): Facet instruction that writes FACET_REPORT_n and optionally logs an event. -/
  | rept (ch : Fin 32)
  /-- END (R362): Facet instruction that sets the target to 0 and ends the profile. -/
  | endOp (ch : Fin 32)
  /-- FACET_NOP (R352): Facet instruction that does nothing. -/
  | facetNop (ch : Fin 32)
  /-- TIME_WAIT_END (R353): A WAIT or WAITR reaches its time and the context resumes. -/
  | timeWaitEnd (ch : Fin 32)
  /-- WEAVE_WAIT_END (R127): Weave time reaches W and a WAITW ends, counted by the planner as a valve start. -/
  | weaveWaitEnd (ch : Fin 32)
  /-- CONDITION_WAIT_MET (R365): A WAITC or WAITS meets its condition on the required samples and TO becomes 0. -/
  | conditionWaitMet (ch : Fin 32) (samples : List Int)
  /-- CONDITION_WAIT_TIMEOUT (R365): A conditional wait reaches TMO and TO becomes 1. -/
  | conditionWaitTimeout (ch : Fin 32)
  /-- CONTEXT_END (R362): After END or a stop, the current reads below 20 mA; the context ends and the channel becomes inactive. -/
  | contextEnd (ch : Fin 32)
  /-- RUNAWAY (R368): 256 consecutive instructions without a wait stop the context. -/
  | runaway (ch : Fin 32)
  /-- PEAK_TIME_LIMIT (R355): 20 ms of target above 3 A clamp every target of the context to 3 A. -/
  | peakTimeLimit (ch : Fin 32)
  /-- PROGRAM_CHECK (R373): Every 10 ms each engine recomputes PCRC of its active bank and stops on a mismatch. -/
  | programCheck (eng : Fin 8) (ok : Bool)
  /-- FACET_LOAD (R370): Host command that loads a program into the standby bank of the named engines and switches banks. -/
  | facetLoad (d : Desc) (mask : BitVec 8)
  /-- FACET_VERIFY (R373): Host command that runs the program check on demand. -/
  | facetVerify (d : Desc) (mask : BitVec 8)
  /-- FACET_PEEK (R377): Host command that returns two general registers of a context. -/
  | facetPeek (d : Desc) (ch : BitVec 5) (reg : BitVec 4)
  /-- LED_SET (R384): Host command that sets a string's I_SET and DIM. -/
  | ledSet (d : Desc) (ch : BitVec 4) (dim : BitVec 12) (iSet : BitVec 10)
  /-- LED_MULTI (R413): Host command that sets several strings on one tick. -/
  | ledMulti (d : Desc) (mask : BitVec 12) (iSet : BitVec 10) (dim : BitVec 12)
  /-- LED_CLEAR (R387): Host command that clears a string's latch and retry count. -/
  | ledClear (d : Desc) (ch : BitVec 4)
  /-- LED_READ (R413): Host command that returns a string's measurements and flags. -/
  | ledRead (d : Desc) (ch : BitVec 4)
  /-- COLOUR_CTL (R407): Host command that starts or holds the colour loop. -/
  | colourCtl (d : Desc) (run : BitVec 1)
  /-- LED_GAIN_WRITE (R407): A write to LED_GAIN_c sets a gain while the loop does not run, and is ignored while it runs. -/
  | ledGainWrite (hart : BitVec 2) (gain : Fin 3) (value : BitVec 32)
  /-- COLOUR_STEP (R403): Every 100 ms the loop writes the trigger to the colour sensor. -/
  | colourStep (ack : Bool)
  /-- COLOUR_CONV_DONE (R403): After CONV_MS the loop reads the sensor, computes new gains or counts a failed step. -/
  | colourConvDone (ok : Bool) (c0 : BitVec 16) (c1 : BitVec 16) (c2 : BitVec 16)
  /-- OPEN_STRING (R386): High output voltage with low current for 100 µs switches the string off and latches it. -/
  | openString (ch : Fin 12)
  /-- SHORTED_LEDS (R386): The string voltage stays below V_MIN for 1 ms and sets a flag. -/
  | shortedLeds (ch : Fin 12) (short : Bool) (volts : BitVec 12)
  /-- STRING_OVERCURRENT (R386): The string output current trips; the string is off with one retry and latches on a repeat. -/
  | stringOvercurrent (ch : Fin 12)
  /-- STRING_RETRY (R386): 100 ms after an over-current trip the string retries. -/
  | stringRetry (ch : Fin 12)
  /-- NEIGHBOUR_TEST (R389): One neighbour-pin test runs in a row blank or a string blank; three failures latch both pins. -/
  | neighbourTest (columns : Bool) (test : Fin 94) (failed : Bool)
  /-- CONVERTER_OT (R386): The LED converter overheats and every string switches off until it cools below 155 °C. -/
  | converterOt (hot : Bool)
  /-- MTX_WRITE (R397): Host command that copies pixels into the back buffer. -/
  | mtxWrite (d : Desc) (offset : BitVec 11)
  /-- MTX_SWAP (R398): Host command that exchanges the front and back buffers, launched or armed. -/
  | mtxSwap (d : Desc) (when : BitVec 1)
  /-- MTX_BLANK (R413): Host command that blanks the matrix or resumes the scan. -/
  | mtxBlank (d : Desc) (blank : BitVec 1)
  /-- MTX_CLEAR (R401): Host command that clears the matrix latch and the disabled columns. -/
  | mtxClear (d : Desc)
  /-- MATRIX_FRAME_START (R393): A matrix frame begins and applies an armed swap, new gains and S_m. -/
  | matrixFrameStart
  /-- MX_SYNC_EDGE (R399): A selected MX_SYNC edge starts a frame 2 µs later in input mode. -/
  | mxSyncEdge (rising : Bool)
  /-- MX_SYNC_LOST (R399): No MX_SYNC edge for two frame times; the scan runs free and SYNC_LOST is set. -/
  | mxSyncLost
  /-- ROW_OVERCURRENT (R401): A row trips; the row is off for its row time, and trips on three consecutive frames latch the matrix. -/
  | rowOvercurrent (row : Fin 16)
  /-- MX_VS_OVERCURRENT (R401): MX_VS exceeds 0.8 A for 100 µs and the matrix blanks and latches. -/
  | mxVsOvercurrent
  /-- COLUMN_OPEN (R401): A column sink is out of compliance for three frames with its pixel on and sets a flag. -/
  | columnOpen (col : Fin 48)
  /-- FIO_SET (R424): Host command that sets a field output's duty. -/
  | fioSet (d : Desc) (ch : BitVec 6) (duty : BitVec 13)
  /-- FIO_MULTI (R432): Host command that sets several field outputs on one tick. -/
  | fioMulti (d : Desc) (mask : BitVec 64) (duty : BitVec 13)
  /-- FIO_CLEAR (R425): Host command that clears a field output's latch. -/
  | fioClear (d : Desc) (ch : BitVec 6)
  /-- FIO_READ (R432): Host command that returns a pin's state and flags. -/
  | fioRead (d : Desc) (ch : BitVec 6)
  /-- INPUT_FILTERED_CHANGE (R418): An input level passes the 2 µs glitch filter and the debounce starts. -/
  | inputFilteredChange (pin : Fin 48) (level : Bool)
  /-- INPUT_DEBOUNCE (R418): The filtered level has held for FILT and the new input state is reported, with any local-need change. -/
  | inputDebounce (pin : Fin 48)
  /-- WIRE_BREAK_MEASURE (R421): Every 1 ms the input current sets the wire-break band, with BROKEN after 10 ms. -/
  | wireBreakMeasure (pin : Fin 48) (microamps : Nat)
  /-- OUTPUT_CURRENT_LIMIT_TRIP (R425): An output stays in current limit for 2 ms and switches off, and latches at the third trip. -/
  | outputCurrentLimitTrip (pin : Fin 48)
  /-- OUTPUT_RETRY (R425): 100 ms after a current-limit trip the output retries. -/
  | outputRetry (pin : Fin 48)
  /-- OUTPUT_OT (R422): A field output overheats and switches off until it cools below 155 °C. -/
  | outputOt (pin : Fin 48) (hot : Bool)
  /-- OUTPUT_OPEN_LOAD (R426): Less than 10 mA for 10 ms of on-time sets OPEN_LOAD, and 10 ms above clears it. -/
  | outputOpenLoad (pin : Fin 48) (below : Bool)
  /-- FIO_WAKE_STROBE (R427): Every 20 ms Bezel strobes each armed wake pin; two matching strobes wake the device. -/
  | fioWakeStrobe (level : BitVec 16)
  /-- CAN_TX (R440): Host command that queues a CAN frame, immediately or as a launch. -/
  | canTx (d : Desc) (ch : BitVec 4) (fmt : BitVec 2) (brs : BitVec 1) (ide : BitVec 1) (rtr : BitVec 1) (cf : BitVec 3) (useCf : BitVec 1) (rtrDlc : BitVec 4) (id : BitVec 29) (sdt : BitVec 8) (vcid : BitVec 8) (sec : BitVec 1) (af : BitVec 32)
  /-- CAN_TP_TX (R470): Host command that sends a transport-protocol message. -/
  | canTpTx (d : Desc) (ch : BitVec 4) (cf : BitVec 3) (da : BitVec 8) (prio : BitVec 3) (pgn : BitVec 18)
  /-- CAN_MODE (R465): Host command that sets a channel Listen-only or unmutes it. -/
  | canMode (d : Desc) (ch : BitVec 4) (listen : BitVec 1) (unmute : BitVec 1)
  /-- CAN_RECOVER (R449): Host command that starts bus-off recovery. -/
  | canRecover (d : Desc) (ch : BitVec 4)
  /-- CAN_TT_WRITE (R458): Host command that writes a schedule message slot. -/
  | canTtWrite (d : Desc) (ch : BitVec 4) (fmt : BitVec 2) (brs : BitVec 1) (ide : BitVec 1) (slot : BitVec 5) (clear : BitVec 1) (id : BitVec 29)
  /-- CAN_AC (R467): Host command that claims, releases or re-claims a control function's address. -/
  | canAc (d : Desc) (cf : BitVec 3) (act : BitVec 2) (addr : BitVec 8)
  /-- CAN_READ (R476): Host command that returns a channel's status and error registers. -/
  | canRead (d : Desc) (ch : BitVec 4)
  /-- CAN_SOF_COMMIT (R444): The controller commits to driving the start-of-frame of a frame's first attempt. -/
  | canSofCommit (ch : Fin 10)
  /-- CAN_TX_SUCCESS (R446): A frame completes on the bus with acknowledgement and the CAN_TX completes OK. -/
  | canTxSuccess (ch : Fin 10) (loopDelay : BitVec 7)
  /-- CAN_TX_ERROR (R445): An attempt suffers an error; the frame is retried, or completes NO_ACK or TX_ERROR at the retry limit. -/
  | canTxError (ch : Fin 10) (code : BitVec 3) (dominant : Bool) (loopDelay : BitVec 7)
  /-- CAN_ARB_LOST (R445): A frame loses arbitration and tries again at the next bus idle. -/
  | canArbLost (ch : Fin 10)
  /-- CAN_FRAME_RX (R462): A valid frame is received and passed to the first matching filter's ring or tunnel, and to offloaded services. -/
  | canFrameRx (ch : Fin 10) (frame : CanFrame) (sof : BitVec 64)
  /-- BUS_OFF_WAIT_EXPIRY (R449): BO_WAIT × 10 ms after bus-off, automatic recovery starts. -/
  | busOffWaitExpiry (ch : Fin 10)
  /-- BUS_OFF_RECOVERED (R449): 128 occurrences of 11 recessive bits end recovery and address claims are resent. -/
  | busOffRecovered (ch : Fin 10)
  /-- ALONE_BACKOFF_EXPIRY (R451): The back-off interval after an attempt in ALONE ends and the next attempt may start. -/
  | aloneBackoffExpiry (ch : Fin 10)
  /-- TXD_TIMEOUT (R453): TXD stays dominant for the time-out and the transceiver releases the bus. -/
  | txdTimeout (ch : Fin 10)
  /-- CHANNEL_MUTE (R454): Repeated TXD time-outs, or a frame on the bus for more than 50 ms, make Bezel mute the channel. -/
  | channelMute (ch : Fin 10)
  /-- SCHED_WINDOW_OPEN (R455): A schedule window opens at the controller and loads TB2 or holds TB0 and TB1 per its cell. -/
  | schedWindowOpen (ch : Fin 10)
  /-- SCHED_LATE_MAX (R456): LATE_MAX passes in an Exclusive window and an uncommitted frame is not sent. -/
  | schedLateMax (ch : Fin 10)
  /-- SCHED_WINDOW_CLOSE (R457): A window closes and a missed Exclusive or Expect window is counted. -/
  | schedWindowClose (ch : Fin 10) (began : Bool)
  /-- ADDRESS_CLAIM_TIMEOUT (R467): The address-claim wait of ISO 11783-5 passes and the claimed address is held. -/
  | addressClaimTimeout (cf : Fin 8)
  /-- TP_TIMER (R469): A transport-protocol timer fires; a BAM packet is sent, or the session times out. -/
  | tpTimer (sending : Bool) (session : Fin 32)
  /-- KEEP_ALIVE_TX (R480): KA_PERIOD passes with own need and a keep-alive is queued. -/
  | keepAliveTx (bus : Fin 10)
  /-- SLEEP_TIMEOUT (R484): T_SLEEP passes without own need or a counted keep-alive and the bus becomes READY. -/
  | sleepTimeout (bus : Fin 10)
  /-- GRACE_EXPIRY (R485): T_GRACE passes without a restart; the transceiver goes to Sleep, and the module may leave Listen. -/
  | graceExpiry (bus : Fin 10) (idle : Bool)
  /-- BUS_WAKE (R498): A dominant-edge pattern, a matching selective frame or a detector error count wakes a sleeping bus, or the module. -/
  | busWake (bus : Fin 10) (signal : WakeSignal)
  /-- SOURCE_BAR (R500): A source's sole hold reaches T_MAXAWAKE and the source is barred on that bus. -/
  | sourceBar (bus : Fin 10)
  /-- NET_HOLD (R503): Host command that sets or clears the host need source on buses. -/
  | netHold (d : Desc) (mask : BitVec 10) (hold : BitVec 1)
  /-- NET_WAKE (R503): Host command that wakes sleeping buses. -/
  | netWake (d : Desc) (mask : BitVec 10)
  /-- NET_BAR_CLEAR (R501): Host command that ends every bar on the named buses. -/
  | netBarClear (d : Desc) (mask : BitVec 10)
  /-- NET_READ (R503): Host command that returns a bus's state and bars. -/
  | netRead (d : Desc) (ch : BitVec 4)
  /-- MGR_ANNOUNCE_TX (R506): Every 100 ms a manager sends MGR_ANNOUNCE on each Plait port. -/
  | mgrAnnounceTx
  /-- MGR_ANNOUNCE_RX (R507): A worker answers with JOIN, or a manager runs the contest with another manager. -/
  | mgrAnnounceRx (prio : BitVec 8) (eui : BitVec 48)
  /-- JOIN_RX (R507): The manager receives JOIN and answers ADMIT or REFUSE. -/
  | joinRx (worker : Fin 32) (hops : BitVec 3) (lastApplied : BitVec 8)
  /-- ADMIT_RX (R520): A worker receives ADMIT and the link comes UP with fresh counts. -/
  | admitRx
  /-- REFUSE_RX (R507): A worker receives REFUSE and logs its cause. -/
  | refuseRx (cause : BitVec 8)
  /-- JOIN_RETRY (R507): A refused worker sends JOIN again every 1 s. -/
  | joinRetry
  /-- LEAVE_RX (R517): A LEAVE arrives and the link goes DOWN. -/
  | leaveRx (worker : Fin 32)
  /-- DEAD_TIMEOUT (R517): Nothing arrives from the peer for DEAD and the link goes DOWN. -/
  | deadTimeout (worker : Fin 32)
  /-- PLAIT_RETX_TIMEOUT (R516): RETX passes without ACK progress; unacknowledged frames are resent, or the link goes DOWN after RETRY_MAX. -/
  | plaitRetxTimeout (worker : Fin 32)
  /-- CREDIT_TX (R517): After 10 ms with nothing else to send, a CREDIT frame goes out. -/
  | creditTx (worker : Fin 32)
  /-- RELIABLE_FRAME_RX (R516): A P, NP, CPL, MSG or CREDIT frame is received in order, takes effect, and frees credits and ACK. -/
  | reliableFrameRx (worker : Fin 32) (frame : PlaitFrame)
  /-- WINDOW_ACCESS (R529): A host access to a worker window is sent as bridge transactions, or refused. -/
  | windowAccess (hart : BitVec 2) (worker : Fin 32) (offset : BitVec 25) (size : BitVec 4) (atomic : Bool) (write : Bool) (data : BitVec 64)
  /-- CPL_TIMEOUT (R532): CPL_TO passes without a completion and the core gets an access fault. -/
  | cplTimeout (worker : Fin 32) (tag : BitVec 11)
  /-- PREFETCH_BUFFER_EXPIRY (R534): A read-ahead block is discarded after 10 µs. -/
  | prefetchBufferExpiry (worker : Fin 32) (block : BitVec 19)
  /-- REMOTE_DOORBELL_STORE (R545): A store to the remote doorbell block sends a DOORBELL message. -/
  | remoteDoorbellStore (hart : BitVec 2) (offset : BitVec 12) (size : BitVec 2) (data : BitVec 64)
  /-- REMOTE_DOORBELL_REGISTER (R545): A write of PLAIT_RDB_HI.REG registers the remote doorbell block. -/
  | remoteDoorbellRegister (hart : BitVec 2) (value : BitVec 32)
  /-- MODE_MSG_TX (R510): The manager reports its mode at each change and every 100 ms. -/
  | modeMsgTx
  /-- KL15_MGR_HOLD_EXPIRY (R510): 1 s after the link goes DOWN, a KL15_MGR worker takes KL15 as off. -/
  | kl15MgrHoldExpiry
  /-- TUN_FRAME_RX (R541): The manager delivers a tunnelled CAN frame to its PLAIT_TUN ring, or drops it. -/
  | tunFrameRx (worker : Fin 32) (ch : Fin 10) (frame : CanFrame) (time : BitVec 64)
  /-- ETH_LINK_CHANGE (R511): A PHY link comes up or goes down. -/
  | ethLinkChange (port : Fin 4) (up : Bool) (sqi : BitVec 4)
  /-- PLAIT_COPY (R549): Host command that copies a buffer to or from a worker window. -/
  | plaitCopy (d : Desc) (worker : BitVec 5) (dir : BitVec 1) (offset : BitVec 25)
  /-- PLAIT_PING (R549): Host command that measures the round trip to a worker. -/
  | plaitPing (d : Desc) (worker : BitVec 5)
  /-- PLAIT_DROP (R517): Host command that takes a worker link DOWN. -/
  | plaitDrop (d : Desc) (worker : BitVec 5)
  /-- ACC_PAIR (R553): Host command that pairs a token into a slot. -/
  | accPair (d : Desc) (slot : BitVec 3)
  /-- ACC_UNPAIR (R554): Host command that erases a pairing. -/
  | accUnpair (d : Desc) (slot : BitVec 3)
  /-- ACC_TAKEOVER (R573): Host command that erases pairings, pairs the owner, and authorises takeover. -/
  | accTakeover (d : Desc)
  /-- ACC_OWNER_LOCK (R555): Host command that sets or clears the owner update lock. -/
  | accOwnerLock (d : Desc) (lock : BitVec 1)
  /-- ACC_SEARCH (R563): Host command that starts a test or recovery search. -/
  | accSearch (d : Desc) (reason : BitVec 2)
  /-- ACC_READ (R578): Host command that returns ACC_STATUS and ACC_LOCK. -/
  | accRead (d : Desc)
  /-- ACC_REL_KEY (R578): Host command that loads the engine-release key and starting counter. -/
  | accRelKey (d : Desc)
  /-- PAIR_CONFIRM (R553): The token confirms its new key and it is stored, or the pairing fails or times out after 30 s. -/
  | pairConfirm (outcome : PairOutcome)
  /-- GUARD_POLL (R562): A Guard poll timer starts a poll. -/
  | guardPoll
  /-- SEARCH_BURST (R563): A search burst of four polls starts at the burst period. -/
  | searchBurst
  /-- POLL_DONE (R556): A poll ends; answers are located, authenticated or counted as failures, and sessions or lock-outs begin. -/
  | pollDone (answers : List TokenAnswer) (radioOk : Bool) (copyFails : BitVec 2)
  /-- GUARD_RATE_CHANGE (R562): 72 h after Guard entry the poll rate changes to 2 s. -/
  | guardRateChange
  /-- SEARCH_EXPIRY (R563): A search ends 30 min after it started. -/
  | searchExpiry
  /-- LOCKOUT_END (R566): The lock-out time passes on the PD_AON counter and polling may resume. -/
  | lockoutEnd
  /-- OWNER_SESSION_EXPIRY (R554): 60 s after the owner authenticates, the owner session ends. -/
  | ownerSessionExpiry
  /-- ACCESS_SESSION_END (R561): KL15 off for T_SESSION ends the access session. -/
  | accessSessionEnd
  /-- RELEASE_TX (R568): A release message is sent when the conditions first hold and at its repeat period. -/
  | releaseTx
  /-- RELEASE_ANSWER_RX (R572): The engine controller's answer is checked; a stale answer resets the counter and resends. -/
  | releaseAnswerRx (counter : BitVec 32) (highest : BitVec 32) (status : BitVec 8) (tagOk : Bool)
  /-- BEZEL_RECLAIM (R588): Host command that reclaims held channels as they stand. -/
  | bezelReclaim (d : Desc) (hso : BitVec 64) (led : BitVec 12) (fioLo : BitVec 32) (fioHi : BitVec 16)
  /-- BEZEL_LOG_READ (R609): Host command that copies the Bezel log oldest first. -/
  | bezelLogRead (d : Desc)
  /-- BEZEL_RESET_REQ (R609): Host command that requests a software reset or entry to Limp 1 ms after completion. -/
  | bezelResetReq (d : Desc) (limp : BitVec 1)
  /-- SOFTWARE_RESET_KEY (R583): Writing 0x0B1E to BEZEL_RESET causes a software reset. -/
  | softwareResetKey (hart : BitVec 2) (value : BitVec 32)
  /-- WATCHDOG_KICK (R596): A host write to BEZEL_WDT_KICK restarts watchdog 0, or expires it on a wrong or early kick. -/
  | watchdogKick (hart : BitVec 2) (value : BitVec 32)
  /-- WATCHDOG_EXPIRY (R598): A watchdog expires and Bezel resets, enters Limp or restarts KC. -/
  | watchdogExpiry (watchdog : Fin 4)
  /-- HOLD_WINDOW_EXPIRY (R589): The hold window ends and every channel still held takes its orphan state. -/
  | holdWindowExpiry
  /-- LOCKSTEP_MISMATCH (R581): The BC cores disagree; BC restarts from ROM and issues a Bezel reset. -/
  | lockstepMismatch
  /-- SERVICE_CORE_TRAP (R599): A trap on SC0, SC1 or KC escalates under Table 16.4. -/
  | serviceCoreTrap (core : SvcCore)
  /-- LIMP_MAP_TICK (R601): Every 10 ms in Limp, SC1 evaluates the Limp map and commands its outputs. -/
  | limpMapTick
  /-- LIMP_EXIT (R602): KL15 off for LIMP_EXIT with every bus asleep makes Bezel issue a type 7 reset. -/
  | limpExit
  /-- MIRROR_ERASE_DONE (R606): The background erase of the mirror sector ends. -/
  | mirrorEraseDone
  /-- LOUPE_HOLDOFF_END (R614): A trigger's HOLDOFF passes and its matches record again. -/
  | loupeHoldoffEnd (trigger : Fin 64)
  /-- RECORD_LAND (R620): SC1 takes its SEQ and programs the oldest staged record into the log. -/
  | recordLand
  /-- RECORD_COMMIT (R620): The programmed record verifies and its COMMIT is written, or the sector is marked bad and the record retried. -/
  | recordCommit (verified : Bool)
  /-- LOUPE_CONTROL_TICK (R623): Every 10 s while LOUPE_MISSED differs, a control entry is written. -/
  | loupeControlTick
  /-- CLEAR_SECTOR_ERASED (R629): A record-area sector finishes erasing during a clear, and landing may resume or the clear completes. -/
  | clearSectorErased (ok : Bool)
  /-- LOUPE_READ (R633): Host command that copies record-area bytes from NOR. -/
  | loupeRead (d : Desc) (offset : BitVec 25)
  /-- LOUPE_CLEAR (R628): Host command that clears the log if LAST_SEQ is current. -/
  | loupeClear (d : Desc) (lastSeq : BitVec 32)
  /-- LOUPE_MARK (R612): Host command that fires a KIND 1 trigger. -/
  | loupeMark (d : Desc) (trig : BitVec 6)
  /-- UPD_BEGIN (R647): Host command that checks a manifest and begins or resumes a download. -/
  | updBegin (d : Desc)
  /-- UPD_BLOCK (R648): Host command that lands one image block. -/
  | updBlock (d : Desc) (index : BitVec 10)
  /-- UPD_VERIFY (R649): Host command that verifies the downloaded image whole. -/
  | updVerify (d : Desc)
  /-- UPD_ACTIVATE (R650): Host command that writes the trial boot record and resets into the new image. -/
  | updActivate (d : Desc) (accDef : BitVec 1)
  /-- UPD_CONFIRM (R659): Host command that confirms the image in trial. -/
  | updConfirm (d : Desc)
  /-- UPD_ABORT (R651): Host command that ends the update and returns to the mode before Update. -/
  | updAbort (d : Desc) (keep : BitVec 1)
  /-- UPD_OEM_KEY (R644): Host command that writes the OEM public key into key store slot 9. -/
  | updOemKey (d : Desc)
  /-- SET_WRITE (R662): Host command that writes or deletes a setting. -/
  | setWrite (d : Desc) (key : BitVec 16)
  /-- SET_READ (R662): Host command that reads a setting. -/
  | setRead (d : Desc) (key : BitVec 16)
  /-- ACTIVATION_RESET (R650): 1 ms after UPD_ACTIVATE completes, a type 5 reset is issued. -/
  | activationReset
  /-- TRIAL_TIME_MARK (R658): Each 10 s of trial running programs a time mark, and the sixtieth falls back. -/
  | trialTimeMark
  /-- SETTINGS_MIGRATION_DONE (R663): Migration into the new settings area ends and the area is marked valid. -/
  | settingsMigrationDone
  /-- OVP_BEGIN (R697): A feed pair stays above 36.0 V for 20 µs and its outputs pause. -/
  | ovpBegin (pair : Fin 3)
  /-- OVP_END (R697): A feed pair stays below 34.0 V for 1 ms and channels resume their commanded states. -/
  | ovpEnd (pair : Fin 3)
  /-- SYSV_MISMATCH (R723): The 10 s mean KL30_L lies outside the system-voltage range while KL15 is on and sets the flag, or clears it on return. -/
  | sysvMismatch (meanMv : BitVec 16)
  /-- PLATE_SENSOR_FAULT (R726): A plate reading out of range for 100 ms substitutes the SoC die temperature. -/
  | plateSensorFault (raw : Int)
  /-- PLATE_SENSOR_RECOVER (R726): The plate reading returns to range for 1 s and the substitution ends. -/
  | plateSensorRecover (reading : Int)
  /-- REF_FAULT (R727): V5A out of range for 10 ms sets REF_FAULT, which clears after 1 s in range. -/
  | refFault (v5aMv : BitVec 13)
  /-- SCRUB_WORD (R36): The scrubber reads the next word, writes back a correction or records an uncorrectable address. -/
  | scrubWord
  /-- ECC_INJECT (R731): Host command that writes a word back with an injected fault. -/
  | eccInject (d : Desc) (addr : BitVec 64) (kind : BitVec 2)
  /-- CORRECTABLE_REPORT (R729): At most once per second the correctable-error count is logged. -/
  | correctableReport
  /-- CAN_RX_ERROR (R448): The controller detects a stuff, form, CRC or bit error in a frame sent by another node, raises REC and may move between error active and error passive. -/
  | canRxError (ch : Fin 10) (code : BitVec 3) (dominant : Bool)
  /-- PROTOCOL_EXCEPTION (R434): The controller meets a frame of a format it does not enable, waits for bus idle and sends no error frame. -/
  | protocolException (ch : Fin 10)
  /-- SELECTIVE_DETECTOR_DECODE (R497): The selective wake detector decodes a frame on a READY or ASLEEP bus, counting an error or lowering its count when the frame does not wake the bus. -/
  | selectiveDetectorDecode (bus : Fin 10) (frame : Option CanFrame)
  /-- CORE_ACCESS (R709): A host core load or store to memory or the address map is performed with W256 correction or read-modify-write, or it wakes a domain or faults. -/
  | coreAccess (hart : BitVec 2) (addr : BitVec 36) (size : BitVec 2) (write : Bool) (data : BitVec 64)
  /-- PLANNED_SWITCH (R244): The slot that the planner gave a change without a due time arrives and the single switch takes effect. -/
  | plannedSwitch (index : BitVec 7)
  /-- PLANNER_FRAME_START (R285): A planner frame begins, and the changes that wait for the next frame take effect: shed releases, LED changes on off strings, reclaimed held channels and resumption after an over-voltage pause. -/
  | plannerFrameStart
  /-- KL30_L_RECOVERY (R72): KL30_L reaches 4.5 V during Start, so the rail timers and retry counts resume and the next rail may be enabled. -/
  | kl30LRecovery
  /-- SUPPLY_RETURN (R607): KL30_L rises again after a supply loss while PD_BEZEL is still on its hold-up supply. -/
  | supplyReturn
  /-- RESET_REQ_ACTION (R609): 1 ms after a BEZEL_RESET_REQ completion is written, the requested software reset or entry to Limp takes place. -/
  | resetReqAction
  /-- LOUPE_LANDING_BOUND (R626): 500 ms of landing before the point of no return for Park or Guard pass; the records still staged are counted as missed and entry proceeds. -/
  | loupeLandingBound
  /-- UPD_BLOCK_LANDED (R648): The erase, program and read-back of one update block ends; the bitmap byte is programmed, or the block fails its CRC. -/
  | updBlockLanded
  /-- UPD_VERIFY_DONE (R649): The SHA-256 and signature check of the target bank ends and the download is marked verified, or the check fails. -/
  | updVerifyDone
  /-- BOOT_RECORD_WRITTEN (R654): A boot record write is verified and the written copy becomes the selected copy. -/
  | bootRecordWritten
  deriving DecidableEq, Repr

end Sys2Proof
end

