-- ==== Sys2Proof/Machine/HostWords.lean ====
section
/-! DEFINITION. How a descriptor's words spell a host command: block and opcode numbers, operand words, and the
decoding of operand fields from their stated bits (the opcode tables of each chapter; R155). -/

namespace Sys2Proof

/-- Block index of the opcode (Table 21.2). -/
def HostCmd.block : HostCmd → Nat
  | .modeSet _ => 1
  | .perfSet _ => 1
  | .domainSet _ _ => 1
  | .needSet _ _ => 1
  | .wallSet _ _ => 2
  | .captureArm _ _ => 2
  | .launchCancel _ _ => 2
  | .rxPost => 3
  | .descCancel _ _ => 3
  | .nop => 3
  | .configStage => 4
  | .configLoad => 4
  | .stageDiscard => 4
  | .commit _ => 4
  | .fleetCommit _ _ => 4
  | .fleetAbort => 4
  | .configExport => 4
  | .hsoSet _ _ _ => 5
  | .hsoMulti _ _ _ => 5
  | .hsoClear _ => 5
  | .hsoRead _ => 5
  | .hsoOltest _ => 5
  | .edgePin _ _ => 6
  | .edgeUnpin _ => 6
  | .vlvStart _ _ _ => 7
  | .vlvMulti _ _ _ => 7
  | .vlvStop _ => 7
  | .vlvClear _ _ => 7
  | .vlvRead _ => 7
  | .vlvOfftest _ => 7
  | .facetLoad _ => 8
  | .facetVerify _ => 8
  | .facetPeek _ _ => 8
  | .ledSet _ _ _ => 9
  | .ledMulti _ _ _ => 9
  | .ledClear _ => 9
  | .ledRead _ => 9
  | .colourCtl _ => 9
  | .mtxWrite _ => 10
  | .mtxSwap _ => 10
  | .mtxBlank _ => 10
  | .mtxClear => 10
  | .fioSet _ _ => 11
  | .fioMulti _ _ => 11
  | .fioClear _ => 11
  | .fioRead _ => 11
  | .canTx _ _ _ _ _ _ _ _ _ _ _ _ _ => 12
  | .canTpTx _ _ _ _ _ => 12
  | .canMode _ _ _ => 12
  | .canRecover _ => 12
  | .canTtWrite _ _ _ _ _ _ _ => 12
  | .canAc _ _ _ => 12
  | .canRead _ => 12
  | .netHold _ _ => 13
  | .netWake _ => 13
  | .netBarClear _ => 13
  | .netRead _ => 13
  | .plaitCopy _ _ _ => 15
  | .plaitPing _ => 15
  | .plaitDrop _ => 15
  | .accPair _ => 16
  | .accUnpair _ => 16
  | .accTakeover => 16
  | .accOwnerLock _ => 16
  | .accSearch _ => 16
  | .accRead => 16
  | .accRelKey => 16
  | .bezelReclaim _ _ _ _ => 17
  | .bezelLogRead => 17
  | .bezelResetReq _ => 17
  | .loupeRead _ => 18
  | .loupeClear _ => 18
  | .loupeMark _ => 18
  | .updBegin => 19
  | .updBlock _ => 19
  | .updVerify => 19
  | .updActivate _ => 19
  | .updConfirm => 19
  | .updAbort _ => 19
  | .updOemKey => 19
  | .setWrite _ => 19
  | .setRead _ => 19
  | .eccInject _ _ => 21

/-- Opcode within the block. -/
def HostCmd.opcode : HostCmd → Nat
  | .modeSet _ => 1
  | .perfSet _ => 2
  | .domainSet _ _ => 3
  | .needSet _ _ => 4
  | .wallSet _ _ => 1
  | .captureArm _ _ => 2
  | .launchCancel _ _ => 3
  | .rxPost => 1
  | .descCancel _ _ => 2
  | .nop => 3
  | .configStage => 1
  | .configLoad => 2
  | .stageDiscard => 3
  | .commit _ => 4
  | .fleetCommit _ _ => 5
  | .fleetAbort => 6
  | .configExport => 7
  | .hsoSet _ _ _ => 1
  | .hsoMulti _ _ _ => 2
  | .hsoClear _ => 3
  | .hsoRead _ => 4
  | .hsoOltest _ => 5
  | .edgePin _ _ => 1
  | .edgeUnpin _ => 2
  | .vlvStart _ _ _ => 1
  | .vlvMulti _ _ _ => 2
  | .vlvStop _ => 3
  | .vlvClear _ _ => 4
  | .vlvRead _ => 5
  | .vlvOfftest _ => 6
  | .facetLoad _ => 1
  | .facetVerify _ => 2
  | .facetPeek _ _ => 3
  | .ledSet _ _ _ => 1
  | .ledMulti _ _ _ => 2
  | .ledClear _ => 3
  | .ledRead _ => 4
  | .colourCtl _ => 5
  | .mtxWrite _ => 1
  | .mtxSwap _ => 2
  | .mtxBlank _ => 3
  | .mtxClear => 4
  | .fioSet _ _ => 1
  | .fioMulti _ _ => 2
  | .fioClear _ => 3
  | .fioRead _ => 4
  | .canTx _ _ _ _ _ _ _ _ _ _ _ _ _ => 1
  | .canTpTx _ _ _ _ _ => 2
  | .canMode _ _ _ => 3
  | .canRecover _ => 4
  | .canTtWrite _ _ _ _ _ _ _ => 5
  | .canAc _ _ _ => 6
  | .canRead _ => 7
  | .netHold _ _ => 1
  | .netWake _ => 2
  | .netBarClear _ => 3
  | .netRead _ => 4
  | .plaitCopy _ _ _ => 1
  | .plaitPing _ => 2
  | .plaitDrop _ => 3
  | .accPair _ => 1
  | .accUnpair _ => 2
  | .accTakeover => 3
  | .accOwnerLock _ => 4
  | .accSearch _ => 5
  | .accRead => 6
  | .accRelKey => 7
  | .bezelReclaim _ _ _ _ => 1
  | .bezelLogRead => 2
  | .bezelResetReq _ => 3
  | .loupeRead _ => 1
  | .loupeClear _ => 2
  | .loupeMark _ => 3
  | .updBegin => 1
  | .updBlock _ => 2
  | .updVerify => 3
  | .updActivate _ => 4
  | .updConfirm => 5
  | .updAbort _ => 6
  | .updOemKey => 7
  | .setWrite _ => 8
  | .setRead _ => 9
  | .eccInject _ _ => 1

/-- The eight operand words OP0 to OP7 that spell the command's operands (R155), reserved bits 0. -/
def HostCmd.words : HostCmd → List Nat
  | .modeSet target => [target.toNat, 0, 0, 0, 0, 0, 0, 0]
  | .perfSet level => [level.toNat, 0, 0, 0, 0, 0, 0, 0]
  | .domainSet domain state => [domain.toNat + state.toNat * 16, 0, 0, 0, 0, 0, 0, 0]
  | .needSet need source => [need.toNat + source.toNat * 2, 0, 0, 0, 0, 0, 0, 0]
  | .wallSet utc at_ => [utc.toNat % 4294967296, utc.toNat / 4294967296, at_.toNat % 4294967296, at_.toNat / 4294967296, 0, 0, 0, 0]
  | .captureArm unit timeout => [unit.toNat + timeout.toNat * 256, 0, 0, 0, 0, 0, 0, 0]
  | .launchCancel ring index => [ring.toNat + index.toNat * 65536, 0, 0, 0, 0, 0, 0, 0]
  | .rxPost => [0, 0, 0, 0, 0, 0, 0, 0]
  | .descCancel ring index => [ring.toNat + index.toNat * 65536, 0, 0, 0, 0, 0, 0, 0]
  | .nop => [0, 0, 0, 0, 0, 0, 0, 0]
  | .configStage => [0, 0, 0, 0, 0, 0, 0, 0]
  | .configLoad => [0, 0, 0, 0, 0, 0, 0, 0]
  | .stageDiscard => [0, 0, 0, 0, 0, 0, 0, 0]
  | .commit persist => [persist.toNat, 0, 0, 0, 0, 0, 0, 0]
  | .fleetCommit mask persist => [mask.toNat, persist.toNat, 0, 0, 0, 0, 0, 0]
  | .fleetAbort => [0, 0, 0, 0, 0, 0, 0, 0]
  | .configExport => [0, 0, 0, 0, 0, 0, 0, 0]
  | .hsoSet ch state duty => [ch.toNat + state.toNat * 256 + duty.toNat * 65536, 0, 0, 0, 0, 0, 0, 0]
  | .hsoMulti mask state duty => [mask.toNat % 4294967296, mask.toNat / 4294967296, state.toNat + duty.toNat * 65536, 0, 0, 0, 0, 0]
  | .hsoClear ch => [ch.toNat, 0, 0, 0, 0, 0, 0, 0]
  | .hsoRead ch => [ch.toNat, 0, 0, 0, 0, 0, 0, 0]
  | .hsoOltest ch => [ch.toNat, 0, 0, 0, 0, 0, 0, 0]
  | .edgePin ch phase => [ch.toNat + phase.toNat * 65536, 0, 0, 0, 0, 0, 0, 0]
  | .edgeUnpin ch => [ch.toNat, 0, 0, 0, 0, 0, 0, 0]
  | .vlvStart ch profile arg => [ch.toNat + profile.toNat * 256 + arg.toNat * 65536, 0, 0, 0, 0, 0, 0, 0]
  | .vlvMulti mask profile arg => [mask.toNat, profile.toNat + arg.toNat * 65536, 0, 0, 0, 0, 0, 0]
  | .vlvStop ch => [ch.toNat, 0, 0, 0, 0, 0, 0, 0]
  | .vlvClear ch bank => [ch.toNat + bank.toNat * 256, 0, 0, 0, 0, 0, 0, 0]
  | .vlvRead ch => [ch.toNat, 0, 0, 0, 0, 0, 0, 0]
  | .vlvOfftest ch => [ch.toNat, 0, 0, 0, 0, 0, 0, 0]
  | .facetLoad mask => [mask.toNat, 0, 0, 0, 0, 0, 0, 0]
  | .facetVerify mask => [mask.toNat, 0, 0, 0, 0, 0, 0, 0]
  | .facetPeek ch reg => [ch.toNat + reg.toNat * 256, 0, 0, 0, 0, 0, 0, 0]
  | .ledSet ch dim iSet => [ch.toNat + dim.toNat * 65536, iSet.toNat, 0, 0, 0, 0, 0, 0]
  | .ledMulti mask iSet dim => [mask.toNat, iSet.toNat + dim.toNat * 65536, 0, 0, 0, 0, 0, 0]
  | .ledClear ch => [ch.toNat, 0, 0, 0, 0, 0, 0, 0]
  | .ledRead ch => [ch.toNat, 0, 0, 0, 0, 0, 0, 0]
  | .colourCtl run => [run.toNat, 0, 0, 0, 0, 0, 0, 0]
  | .mtxWrite offset => [offset.toNat, 0, 0, 0, 0, 0, 0, 0]
  | .mtxSwap when => [when.toNat, 0, 0, 0, 0, 0, 0, 0]
  | .mtxBlank blank => [blank.toNat, 0, 0, 0, 0, 0, 0, 0]
  | .mtxClear => [0, 0, 0, 0, 0, 0, 0, 0]
  | .fioSet ch duty => [ch.toNat + duty.toNat * 65536, 0, 0, 0, 0, 0, 0, 0]
  | .fioMulti mask duty => [mask.toNat % 4294967296, mask.toNat / 4294967296, duty.toNat * 65536, 0, 0, 0, 0, 0]
  | .fioClear ch => [ch.toNat, 0, 0, 0, 0, 0, 0, 0]
  | .fioRead ch => [ch.toNat, 0, 0, 0, 0, 0, 0, 0]
  | .canTx ch fmt brs ide rtr cf useCf rtrDlc id sdt vcid sec af => [ch.toNat + fmt.toNat * 16 + brs.toNat * 64 + ide.toNat * 128 + rtr.toNat * 256 + cf.toNat * 512 + useCf.toNat * 4096 + rtrDlc.toNat * 1048576, id.toNat, sdt.toNat + vcid.toNat * 256 + sec.toNat * 65536, af.toNat, 0, 0, 0, 0]
  | .canTpTx ch cf da prio pgn => [ch.toNat + cf.toNat * 16 + da.toNat * 256 + prio.toNat * 65536, pgn.toNat, 0, 0, 0, 0, 0, 0]
  | .canMode ch listen unmute => [ch.toNat + listen.toNat * 16 + unmute.toNat * 32, 0, 0, 0, 0, 0, 0, 0]
  | .canRecover ch => [ch.toNat, 0, 0, 0, 0, 0, 0, 0]
  | .canTtWrite ch fmt brs ide slot clear id => [ch.toNat + fmt.toNat * 16 + brs.toNat * 64 + ide.toNat * 128 + slot.toNat * 65536 + clear.toNat * 16777216, id.toNat, 0, 0, 0, 0, 0, 0]
  | .canAc cf act addr => [cf.toNat + act.toNat * 16 + addr.toNat * 256, 0, 0, 0, 0, 0, 0, 0]
  | .canRead ch => [ch.toNat, 0, 0, 0, 0, 0, 0, 0]
  | .netHold mask hold => [mask.toNat + hold.toNat * 65536, 0, 0, 0, 0, 0, 0, 0]
  | .netWake mask => [mask.toNat, 0, 0, 0, 0, 0, 0, 0]
  | .netBarClear mask => [mask.toNat, 0, 0, 0, 0, 0, 0, 0]
  | .netRead ch => [ch.toNat, 0, 0, 0, 0, 0, 0, 0]
  | .plaitCopy worker dir offset => [worker.toNat + dir.toNat * 256, offset.toNat, 0, 0, 0, 0, 0, 0]
  | .plaitPing worker => [worker.toNat, 0, 0, 0, 0, 0, 0, 0]
  | .plaitDrop worker => [worker.toNat, 0, 0, 0, 0, 0, 0, 0]
  | .accPair slot => [slot.toNat, 0, 0, 0, 0, 0, 0, 0]
  | .accUnpair slot => [slot.toNat, 0, 0, 0, 0, 0, 0, 0]
  | .accTakeover => [0, 0, 0, 0, 0, 0, 0, 0]
  | .accOwnerLock lock => [lock.toNat, 0, 0, 0, 0, 0, 0, 0]
  | .accSearch reason => [reason.toNat, 0, 0, 0, 0, 0, 0, 0]
  | .accRead => [0, 0, 0, 0, 0, 0, 0, 0]
  | .accRelKey => [0, 0, 0, 0, 0, 0, 0, 0]
  | .bezelReclaim hso led fioLo fioHi => [hso.toNat % 4294967296, hso.toNat / 4294967296, led.toNat, fioLo.toNat, fioHi.toNat, 0, 0, 0]
  | .bezelLogRead => [0, 0, 0, 0, 0, 0, 0, 0]
  | .bezelResetReq limp => [limp.toNat, 0, 0, 0, 0, 0, 0, 0]
  | .loupeRead offset => [offset.toNat, 0, 0, 0, 0, 0, 0, 0]
  | .loupeClear lastSeq => [lastSeq.toNat, 0, 0, 0, 0, 0, 0, 0]
  | .loupeMark trig => [trig.toNat, 0, 0, 0, 0, 0, 0, 0]
  | .updBegin => [0, 0, 0, 0, 0, 0, 0, 0]
  | .updBlock index => [index.toNat, 0, 0, 0, 0, 0, 0, 0]
  | .updVerify => [0, 0, 0, 0, 0, 0, 0, 0]
  | .updActivate accDef => [accDef.toNat, 0, 0, 0, 0, 0, 0, 0]
  | .updConfirm => [0, 0, 0, 0, 0, 0, 0, 0]
  | .updAbort keep => [keep.toNat, 0, 0, 0, 0, 0, 0, 0]
  | .updOemKey => [0, 0, 0, 0, 0, 0, 0, 0]
  | .setWrite key => [key.toNat, 0, 0, 0, 0, 0, 0, 0]
  | .setRead key => [key.toNat, 0, 0, 0, 0, 0, 0, 0]
  | .eccInject addr kind => [addr.toNat % 4294967296, addr.toNat / 4294967296, kind.toNat, 0, 0, 0, 0, 0]

/-- The command that an opcode and its operand words spell: every field is taken from its stated bits. None where the
block has no such opcode. -/
def HostCmd.parse (block opcode : Nat) (op : Nat → Nat) : Option HostCmd :=
  match block, opcode with
  | 1, 1 => some (.modeSet (.ofNat 4 (op 0)))
  | 1, 2 => some (.perfSet (.ofNat 3 (op 0)))
  | 1, 3 => some (.domainSet (.ofNat 4 (op 0)) (.ofNat 2 (op 0 / 16)))
  | 1, 4 => some (.needSet (.ofNat 1 (op 0)) (.ofNat 3 (op 0 / 2)))
  | 2, 1 => some (.wallSet (.ofNat 64 (op 0 + op 1 * 4294967296)) (.ofNat 64 (op 2 + op 3 * 4294967296)))
  | 2, 2 => some (.captureArm (.ofNat 3 (op 0)) (.ofNat 24 (op 0 / 256)))
  | 2, 3 => some (.launchCancel (.ofNat 7 (op 0)) (.ofNat 12 (op 0 / 65536)))
  | 3, 1 => some (.rxPost)
  | 3, 2 => some (.descCancel (.ofNat 7 (op 0)) (.ofNat 12 (op 0 / 65536)))
  | 3, 3 => some (.nop)
  | 4, 1 => some (.configStage)
  | 4, 2 => some (.configLoad)
  | 4, 3 => some (.stageDiscard)
  | 4, 4 => some (.commit (.ofNat 1 (op 0)))
  | 4, 5 => some (.fleetCommit (.ofNat 32 (op 0)) (.ofNat 1 (op 1)))
  | 4, 6 => some (.fleetAbort)
  | 4, 7 => some (.configExport)
  | 5, 1 => some (.hsoSet (.ofNat 6 (op 0)) (.ofNat 2 (op 0 / 256)) (.ofNat 13 (op 0 / 65536)))
  | 5, 2 => some (.hsoMulti (.ofNat 64 (op 0 + op 1 * 4294967296)) (.ofNat 2 (op 2)) (.ofNat 13 (op 2 / 65536)))
  | 5, 3 => some (.hsoClear (.ofNat 6 (op 0)))
  | 5, 4 => some (.hsoRead (.ofNat 6 (op 0)))
  | 5, 5 => some (.hsoOltest (.ofNat 6 (op 0)))
  | 6, 1 => some (.edgePin (.ofNat 7 (op 0)) (.ofNat 13 (op 0 / 65536)))
  | 6, 2 => some (.edgeUnpin (.ofNat 7 (op 0)))
  | 7, 1 => some (.vlvStart (.ofNat 5 (op 0)) (.ofNat 5 (op 0 / 256)) (.ofNat 16 (op 0 / 65536)))
  | 7, 2 => some (.vlvMulti (.ofNat 32 (op 0)) (.ofNat 5 (op 1)) (.ofNat 16 (op 1 / 65536)))
  | 7, 3 => some (.vlvStop (.ofNat 5 (op 0)))
  | 7, 4 => some (.vlvClear (.ofNat 5 (op 0)) (.ofNat 1 (op 0 / 256)))
  | 7, 5 => some (.vlvRead (.ofNat 5 (op 0)))
  | 7, 6 => some (.vlvOfftest (.ofNat 5 (op 0)))
  | 8, 1 => some (.facetLoad (.ofNat 8 (op 0)))
  | 8, 2 => some (.facetVerify (.ofNat 8 (op 0)))
  | 8, 3 => some (.facetPeek (.ofNat 5 (op 0)) (.ofNat 4 (op 0 / 256)))
  | 9, 1 => some (.ledSet (.ofNat 4 (op 0)) (.ofNat 12 (op 0 / 65536)) (.ofNat 10 (op 1)))
  | 9, 2 => some (.ledMulti (.ofNat 12 (op 0)) (.ofNat 10 (op 1)) (.ofNat 12 (op 1 / 65536)))
  | 9, 3 => some (.ledClear (.ofNat 4 (op 0)))
  | 9, 4 => some (.ledRead (.ofNat 4 (op 0)))
  | 9, 5 => some (.colourCtl (.ofNat 1 (op 0)))
  | 10, 1 => some (.mtxWrite (.ofNat 11 (op 0)))
  | 10, 2 => some (.mtxSwap (.ofNat 1 (op 0)))
  | 10, 3 => some (.mtxBlank (.ofNat 1 (op 0)))
  | 10, 4 => some (.mtxClear)
  | 11, 1 => some (.fioSet (.ofNat 6 (op 0)) (.ofNat 13 (op 0 / 65536)))
  | 11, 2 => some (.fioMulti (.ofNat 64 (op 0 + op 1 * 4294967296)) (.ofNat 13 (op 2 / 65536)))
  | 11, 3 => some (.fioClear (.ofNat 6 (op 0)))
  | 11, 4 => some (.fioRead (.ofNat 6 (op 0)))
  | 12, 1 => some (.canTx (.ofNat 4 (op 0)) (.ofNat 2 (op 0 / 16)) (.ofNat 1 (op 0 / 64)) (.ofNat 1 (op 0 / 128)) (.ofNat 1 (op 0 / 256)) (.ofNat 3 (op 0 / 512)) (.ofNat 1 (op 0 / 4096)) (.ofNat 4 (op 0 / 1048576)) (.ofNat 29 (op 1)) (.ofNat 8 (op 2)) (.ofNat 8 (op 2 / 256)) (.ofNat 1 (op 2 / 65536)) (.ofNat 32 (op 3)))
  | 12, 2 => some (.canTpTx (.ofNat 4 (op 0)) (.ofNat 3 (op 0 / 16)) (.ofNat 8 (op 0 / 256)) (.ofNat 3 (op 0 / 65536)) (.ofNat 18 (op 1)))
  | 12, 3 => some (.canMode (.ofNat 4 (op 0)) (.ofNat 1 (op 0 / 16)) (.ofNat 1 (op 0 / 32)))
  | 12, 4 => some (.canRecover (.ofNat 4 (op 0)))
  | 12, 5 => some (.canTtWrite (.ofNat 4 (op 0)) (.ofNat 2 (op 0 / 16)) (.ofNat 1 (op 0 / 64)) (.ofNat 1 (op 0 / 128)) (.ofNat 5 (op 0 / 65536)) (.ofNat 1 (op 0 / 16777216)) (.ofNat 29 (op 1)))
  | 12, 6 => some (.canAc (.ofNat 3 (op 0)) (.ofNat 2 (op 0 / 16)) (.ofNat 8 (op 0 / 256)))
  | 12, 7 => some (.canRead (.ofNat 4 (op 0)))
  | 13, 1 => some (.netHold (.ofNat 10 (op 0)) (.ofNat 1 (op 0 / 65536)))
  | 13, 2 => some (.netWake (.ofNat 10 (op 0)))
  | 13, 3 => some (.netBarClear (.ofNat 10 (op 0)))
  | 13, 4 => some (.netRead (.ofNat 4 (op 0)))
  | 15, 1 => some (.plaitCopy (.ofNat 5 (op 0)) (.ofNat 1 (op 0 / 256)) (.ofNat 25 (op 1)))
  | 15, 2 => some (.plaitPing (.ofNat 5 (op 0)))
  | 15, 3 => some (.plaitDrop (.ofNat 5 (op 0)))
  | 16, 1 => some (.accPair (.ofNat 3 (op 0)))
  | 16, 2 => some (.accUnpair (.ofNat 3 (op 0)))
  | 16, 3 => some (.accTakeover)
  | 16, 4 => some (.accOwnerLock (.ofNat 1 (op 0)))
  | 16, 5 => some (.accSearch (.ofNat 2 (op 0)))
  | 16, 6 => some (.accRead)
  | 16, 7 => some (.accRelKey)
  | 17, 1 => some (.bezelReclaim (.ofNat 64 (op 0 + op 1 * 4294967296)) (.ofNat 12 (op 2)) (.ofNat 32 (op 3)) (.ofNat 16 (op 4)))
  | 17, 2 => some (.bezelLogRead)
  | 17, 3 => some (.bezelResetReq (.ofNat 1 (op 0)))
  | 18, 1 => some (.loupeRead (.ofNat 25 (op 0)))
  | 18, 2 => some (.loupeClear (.ofNat 32 (op 0)))
  | 18, 3 => some (.loupeMark (.ofNat 6 (op 0)))
  | 19, 1 => some (.updBegin)
  | 19, 2 => some (.updBlock (.ofNat 10 (op 0)))
  | 19, 3 => some (.updVerify)
  | 19, 4 => some (.updActivate (.ofNat 1 (op 0)))
  | 19, 5 => some (.updConfirm)
  | 19, 6 => some (.updAbort (.ofNat 1 (op 0)))
  | 19, 7 => some (.updOemKey)
  | 19, 8 => some (.setWrite (.ofNat 16 (op 0)))
  | 19, 9 => some (.setRead (.ofNat 16 (op 0)))
  | 21, 1 => some (.eccInject (.ofNat 64 (op 0 + op 1 * 4294967296)) (.ofNat 2 (op 2)))
  | _, _ => none

/-- Whether the opcode uses a due time (the Due time column of the opcode tables): 0 not used, 1 used, 2 required. -/
def HostCmd.dueUse : HostCmd → Nat
  | .modeSet _ => 1
  | .perfSet _ => 0
  | .domainSet _ _ => 0
  | .needSet _ _ => 0
  | .wallSet _ _ => 0
  | .captureArm _ _ => 0
  | .launchCancel _ _ => 0
  | .rxPost => 0
  | .descCancel _ _ => 0
  | .nop => 0
  | .configStage => 0
  | .configLoad => 0
  | .stageDiscard => 0
  | .commit _ => 1
  | .fleetCommit _ _ => 2
  | .fleetAbort => 0
  | .configExport => 0
  | .hsoSet _ _ _ => 1
  | .hsoMulti _ _ _ => 1
  | .hsoClear _ => 0
  | .hsoRead _ => 0
  | .hsoOltest _ => 0
  | .edgePin _ _ => 0
  | .edgeUnpin _ => 0
  | .vlvStart _ _ _ => 1
  | .vlvMulti _ _ _ => 1
  | .vlvStop _ => 1
  | .vlvClear _ _ => 0
  | .vlvRead _ => 0
  | .vlvOfftest _ => 0
  | .facetLoad _ => 0
  | .facetVerify _ => 0
  | .facetPeek _ _ => 0
  | .ledSet _ _ _ => 1
  | .ledMulti _ _ _ => 1
  | .ledClear _ => 0
  | .ledRead _ => 0
  | .colourCtl _ => 0
  | .mtxWrite _ => 0
  | .mtxSwap _ => 1
  | .mtxBlank _ => 1
  | .mtxClear => 0
  | .fioSet _ _ => 1
  | .fioMulti _ _ => 1
  | .fioClear _ => 0
  | .fioRead _ => 0
  | .canTx _ _ _ _ _ _ _ _ _ _ _ _ _ => 1
  | .canTpTx _ _ _ _ _ => 0
  | .canMode _ _ _ => 0
  | .canRecover _ => 0
  | .canTtWrite _ _ _ _ _ _ _ => 0
  | .canAc _ _ _ => 0
  | .canRead _ => 0
  | .netHold _ _ => 0
  | .netWake _ => 0
  | .netBarClear _ => 0
  | .netRead _ => 0
  | .plaitCopy _ _ _ => 0
  | .plaitPing _ => 0
  | .plaitDrop _ => 0
  | .accPair _ => 0
  | .accUnpair _ => 0
  | .accTakeover => 0
  | .accOwnerLock _ => 0
  | .accSearch _ => 0
  | .accRead => 0
  | .accRelKey => 0
  | .bezelReclaim _ _ _ _ => 0
  | .bezelLogRead => 0
  | .bezelResetReq _ => 0
  | .loupeRead _ => 0
  | .loupeClear _ => 0
  | .loupeMark _ => 0
  | .updBegin => 0
  | .updBlock _ => 0
  | .updVerify => 0
  | .updActivate _ => 0
  | .updConfirm => 0
  | .updAbort _ => 0
  | .updOemKey => 0
  | .setWrite _ => 0
  | .setRead _ => 0
  | .eccInject _ _ => 0

end Sys2Proof
end

