-- ==== Sys2Proof/Config.lean ====
section
/-! DEFINITION. What an implementation fixes and the spec does not, and the free values: constants without a body, so
that no proof can see what they are. -/

namespace Sys2Proof.Config

/-- A bit the spec leaves undefined; applied to the state's counter of free values. -/
opaque freeBit : Nat → Bool

/-- A 32-bit value the spec leaves undefined; applied to the state's counter of free values. -/
opaque freeWord : Nat → BitVec 32

/-- A 64-bit value the spec leaves undefined; applied to the state's counter of free values. -/
opaque freeDWord : Nat → BitVec 64

/-- A byte the spec leaves undefined; applied to the state's counter of free values. -/
opaque freeByte : Nat → BitVec 8

/-- A natural number the spec leaves undefined (a measured or random quantity). -/
opaque freeNat : Nat → Nat

/-- RESULT0 of an event: the spec says what event data holds and not how it is packed. Applied to the event code and
to the quantities in the order the event table lists them. -/
opaque eventData0 : Nat → List Nat → BitVec 32

/-- RESULT1 of an event, as `eventData0`. -/
opaque eventData1 : Nat → List Nat → BitVec 32

/-- A quantity that the module measures and whose changes no command of the table reports (a string's current, the
MX_VS voltage): applied to the register's address and to the device time. -/
opaque analog : Nat → Nat → Nat

/-- The worst-case dissipation in nW that check 8 counts for a record of a block for which the spec names no formula. -/
opaque recordDissipation : Nat → Nat → Nat → List (BitVec 32) → Nat

/-- SYS_ISSUE.ISSUE: programmed at manufacture (Table 21.4, Factory). -/
opaque issue : BitVec 16

/-- The module serial of SYS_SERIAL_LO and SYS_SERIAL_HI: programmed at manufacture. -/
opaque serial : BitVec 64

/-- The module's EUI-48: programmed at manufacture (Table 14.17). -/
opaque eui : BitVec 48

/-- AES-128-CCM under a key: sealed bytes and tag from nonce, associated data and payload. The standard the spec names
gives it; no claim needs its values. -/
opaque ccm : List (BitVec 8) → List (BitVec 8) → List (BitVec 8) → List (BitVec 8) → List (BitVec 8)

/-- SHA-256, as the standard gives it. -/
opaque sha256 : List (BitVec 8) → List (BitVec 8)

/-- ECDSA P-256 verification of a signature over bytes with Caerfold public key KEYID of KC ROM. -/
opaque caerfoldSigOk : Nat → List (BitVec 8) → List (BitVec 8) → Bool

/-- ECDSA P-256 verification of a signature over bytes with a given public key. -/
opaque ecdsaOk : List (BitVec 8) → List (BitVec 8) → List (BitVec 8) → Bool

end Sys2Proof.Config
end

