-- ==== Sys2Proof/Machine/State.lean ====
section
/-! DEFINITION. The state of the HX960: every register, buffer, counter, mode and pin that the spec gives the module,
block by block, as plain data, with the queue of waiting commands, and the state right after power-on reset. A
field's default is its reset value; the docstring names the rule or table that gives the field. -/

namespace Sys2Proof.Machine

/-! ## Reasons to stop -/

/-- The model stops with no fault: the spec gives every command an effect. The one constructor is raised by no
meaning; it stands for an access to an address outside the map, which the spec turns into an access fault record. -/
inductive Fault where
  /-- Raised by nobody: safe, since no run ends in it. -/
  | none
  deriving DecidableEq, Repr

/-- Why a command is refused. -/
inductive Refusal where
  /-- Raised by the dispatcher for a command that has no meaning yet: safe, the run stops. -/
  | notModelled (mnemonic : String)
  deriving DecidableEq, Repr

/-! ## Shared data -/

/-- The twelve major modes of Table 2.1. -/
inductive Mode where
  | storage | park | guard | listen | start | accessory | run | field | road | limp | update | service
  deriving DecidableEq, Repr, Inhabited

/-- The mode number of Table 2.1. -/
def Mode.num : Mode → Nat
  | .storage => 0 | .park => 1 | .guard => 2 | .listen => 3 | .start => 4 | .accessory => 5
  | .run => 6 | .field => 7 | .road => 8 | .limp => 9 | .update => 10 | .service => 11

/-- The states of a power domain (Table 2.1, ranked by R42). -/
inductive DomState where
  | off | ret | gated | on
  deriving DecidableEq, Repr, Inhabited

/-- The encoding of PWR_DOM_STATE (Table 2.15), which is also the rank of R42. -/
def DomState.num : DomState → Nat
  | .off => 0 | .ret => 1 | .gated => 2 | .on => 3

/-- A descriptor that its block acts on: the header, and for a launch whether it was late and the TIME its
completion carries (fire tick plus stage delay, R112, R165). -/
structure Act where
  d : Desc := default
  /-- The action was handed over by Weave on a fire tick. -/
  fired : Bool := false
  /-- A late launch with LATE_EXEC set (R112). -/
  late : Bool := false
  /-- Fire tick plus stage delay. -/
  time : BitVec 64 := 0
  /-- The payload as read for this action (R162). -/
  payload : List (BitVec 8) := []
  deriving DecidableEq, Repr, Inhabited

/-- One configuration record (R189). -/
structure Rec where
  block : Nat := 0
  typ : Nat := 0
  inst : Nat := 0
  /-- MODES mask, bit m for mode m. -/
  modes : BitVec 12 := 0
  fieldOnly : Bool := false
  /-- A reserved header bit was not 0 (check 1). -/
  rsvd : Bool := false
  /-- The body, word by word. -/
  body : List (BitVec 32) := []
  deriving DecidableEq, Repr, Inhabited

/-- What a stored W256 word holds besides its data (Table 1.7). -/
inductive WordFault where
  /-- One wrong bit: corrected when read. -/
  | single
  /-- Two wrong bits: uncorrectable. -/
  | double
  /-- Stored under another address's fold: uncorrectable with address cause. -/
  | fold
  deriving DecidableEq, Repr

/-- Host memory (R26, R27): the bytes written, by rising address, none equal to what an unlisted address reads as;
and the 32-byte words whose stored code bits are wrong, by word number. -/
structure Mem where
  cells : List Host.Cell := []
  bad : List (Nat × WordFault) := []
  deriving DecidableEq, Repr, Inhabited

/-- The module's own time base: nanoseconds since the model's start, which the always-on counter and every interval
rule count from. -/
structure Clock where
  ns : Nat := 0
  deriving DecidableEq, Repr, Inhabited

/-- What the module sends to the outside: messages to Plait peers, frames, radio polls. The model keeps what was sent
since the last idle tick, when the peers have taken it. -/
inductive Out where
  /-- Sync and Follow_Up with their interval (R93). -/
  | sync (interval : Nat) (time : Nat)
  /-- TIME message: wall-clock offset and SET_COUNT (R108). -/
  | timeMsg (offset : BitVec 64) (setCount : BitVec 16)
  /-- A CAN frame sent on a channel. -/
  | can (ch : Nat) (frame : CanFrame)
  /-- A frame of the bridge, to a worker or, from a worker, to the manager (0). -/
  | plait (peer : Nat) (frame : PlaitFrame)
  /-- MGR_ANNOUNCE, JOIN, ADMIT and REFUSE (R506, R507). -/
  | announce (prio : Nat) (eui : BitVec 48)
  | join (worker hops lastApplied : Nat)
  | admission (worker : Nat)
  | refuseJoin (worker cause : Nat)
  /-- A tunnelled CAN frame (R540). -/
  | tunnel (ch : Nat) (frame : CanFrame) (time : BitVec 64)
  /-- The POLL frame with its challenge (R556). -/
  | poll (challenge : List (BitVec 8))
  /-- A token key sent under its delivery key (R553). -/
  | tokenKey (serial : BitVec 32) (sealed : List (BitVec 8))
  deriving DecidableEq, Repr

/-! ## SYS, ADC and ECC (chapter 21) -/

/-- SYS block, Table 21.4. -/
structure Sys where
  /-- SYS_CFG.SYSV and SOURCE as they run. -/
  sysv : Bool := false
  source : Bool := false
  mismatch : Bool := false
  /-- SYS_STATUS.OVP, bit k for feed pair k. -/
  ovp : BitVec 3 := 0
  faultCause : BitVec 4 := 0
  faultHart : BitVec 2 := 0
  faultWrite : Bool := false
  faultValid : Bool := false
  faultAddr : BitVec 36 := 0
  stageWrLost : Bool := false
  /-- SYS_SCRATCH_k, kept across device resets. -/
  scratch : Vector (BitVec 32) 4 := .replicate 4 0
  deriving DecidableEq, Repr, Inhabited

/-- ADC block, Table 21.7: the flags. The readings themselves are measured quantities (`Config.analog`). -/
structure Adc where
  plateFault : Bool := false
  subst : Bool := false
  refFault : Bool := false
  deriving DecidableEq, Repr, Inhabited

/-- One entry of the ECC address log (Table 21.10). -/
structure UeEntry where
  addr : BitVec 36 := 0
  finder : BitVec 2 := 0
  fold : Bool := false
  valid : Bool := false
  deriving DecidableEq, Repr, Inhabited

/-- ECC block, Table 21.10. -/
structure Ecc where
  scrubEn : Bool := true
  passH : BitVec 8 := 0x18
  pos : BitVec 26 := 0
  passes : BitVec 16 := 0
  ceDram : BitVec 16 := 0
  ceSram : BitVec 16 := 0
  ueDram : BitVec 8 := 0
  ueSram : BitVec 8 := 0
  ueFold : BitVec 8 := 0
  next : BitVec 3 := 0
  ovf : Bool := false
  log : Vector UeEntry 8 := .replicate 8 {}
  /-- Correctable errors since the last event 0x1501 (R729). -/
  ceSince : Nat := 0
  /-- When event 0x1501 was last logged. -/
  ceReported : Option Nat := none
  deriving DecidableEq, Repr, Inhabited

/-! ## PWR (chapter 2) -/

/-- A core access that waits for a domain (R61). -/
structure CoreAcc where
  hart : BitVec 2 := 0
  addr : BitVec 36 := 0
  size : BitVec 2 := 0
  write : Bool := false
  data : BitVec 64 := 0
  deriving DecidableEq, Repr, Inhabited

/-- One power domain. -/
structure DomCtl where
  st : DomState := .off
  /-- Step 1 of R67 has closed the domain. -/
  closed : Bool := false
  /-- A wake is running towards this state (R61). -/
  waking : Option DomState := none
  /-- Consecutive failed wakes (R63). -/
  fails : Nat := 0
  /-- Handed over to Bezel: every access fails at once until the next reset (R63). -/
  dead : Bool := false
  /-- Left Off by a rail failure until the next Start (Table 2.7). -/
  forced : Bool := false
  deriving DecidableEq, Repr, Inhabited

/-- A domain that is being powered down or lowered (R67), in the order of R70. -/
structure Drain where
  dom : Dom
  target : DomState
  /-- It became quiescent while an earlier domain of the order still drained. -/
  quiet : Bool := false
  deriving DecidableEq, Repr, Inhabited

/-- A DOMAIN_SET that waits for its domain (R42). -/
structure DomWait where
  act : Act
  dom : Dom
  target : DomState
  raise : Bool
  deriving DecidableEq, Repr, Inhabited

/-- A descriptor that waits for its block's domain to wake (R61). -/
structure Stalled where
  dom : Dom
  d : Desc
  cmd : HostCmd
  deriving DecidableEq, Repr

/-- The crystal oscillator during Start (R74). -/
inductive Crystal where
  | off | waiting | running | failed
  deriving DecidableEq, Repr, Inhabited

/-- PWR block, Tables 2.14 to 2.21, and the wake and supply inputs that Bezel watches. -/
structure Pwr where
  mode : Mode := .start
  prev : Mode := .storage
  cause : BitVec 8 := 0x0B
  /-- Cause carried by the present Start (R738). -/
  startCause : BitVec 8 := 0x0B
  dom : Vector DomCtl 12 := (Vector.replicate 12 {}).set 10 { st := .on } |>.set 11 { st := .on }
  domFail : BitVec 12 := 0
  drains : List Drain := []
  domWaits : List DomWait := []
  stalled : List Stalled := []
  stalledCore : List (Dom × CoreAcc) := []
  plReq : BitVec 3 := 2
  plCur : BitVec 3 := 2
  plBusy : Bool := false
  pl4Used : BitVec 8 := 0
  /-- The PL4 time limit caps the level at PL3 (R58). -/
  pl4Capped : Bool := false
  pl4OnMax : BitVec 8 := 0x1E
  pl4Window : BitVec 8 := 0x78
  drainBound : BitVec 15 := 0x07D0
  pMax : BitVec 8 := 0x6E
  govStep : Nat := 0
  pEst : BitVec 16 := 0
  /-- When the estimate first exceeded the limit in the present run (R80). -/
  overSince : Option Nat := none
  /-- When the estimate and every junction last came low enough (R81). -/
  underSince : Option Nat := none
  /-- When the last step was taken (R80). -/
  stepAt : Nat := 0
  /-- In step 5, shed priorities from this number up are shed; 8 when none (Table 2.9). -/
  shedFrom : Nat := 8
  /-- An IDLE or SLEEP request is in force, and the domains it lowered (R60). -/
  idleOn : Bool := false
  sleepOn : Bool := false
  compatLowered : List Dom := []
  compatRefused : Bool := false
  railFail : BitVec 6 := 0
  xtalFail : Bool := false
  rcTrimmed : Bool := false
  retries : BitVec 8 := 0
  /-- Rail of Table 2.7 being brought up, 0 to 5; 6 when all have reported. -/
  rail : Nat := 0
  /-- Retries of that rail so far (R72). -/
  railTries : Nat := 0
  /-- KL30_L lies below 4.5 V during Start (R72). -/
  lowHold : Bool := false
  /-- A start failure makes Start end in Limp (R72, R74, R586). -/
  startLimp : Bool := false
  /-- No Start has completed since PD_BEZEL had no supply: after power-on and after a stay in Storage. -/
  cold : Bool := true
  /-- The outcome Bezel only (R73). -/
  bezelOnly : Bool := false
  crystal : Crystal := .off
  /-- The islands run from the RC oscillator (R74, R75). -/
  rcClock : Bool := false
  /-- KL15 on at this module's own pin, after its hold times (R735). -/
  kl15 : Bool := false
  /-- WAKE0 to WAKE3 asserted (R735). -/
  wake : BitVec 4 := 0
  /-- Host need sources (Table 2.11, NEED_SET). -/
  needs : BitVec 8 := 0
  /-- Entry to Park, Guard or Storage runs and its point of no return is still to come (R53). -/
  entering : Bool := false
  /-- The main regulators have been commanded off and still report on (R54). -/
  regsFalling : Bool := false
  latched : Option Wake := none
  /-- RESET_N is low and holds the device in reset (R585). -/
  inReset : Bool := false
  /-- Supply of PD_BEZEL is lost (R607). -/
  supplyLost : Bool := false
  /-- Mode that an update started from (Table 2.2). -/
  beforeUpdate : Mode := .accessory
  /-- The strap levels ROLE1, ROLE0 sampled at Start (R684). -/
  strap : BitVec 2 := 0
  deriving DecidableEq, Repr

/-! ## WEAVE (chapter 3) -/

/-- The sync states of Table 3.1. -/
inductive SyncState where
  | free | acquiring | locked | holdover | lost
  deriving DecidableEq, Repr, Inhabited

/-- The state number of Table 3.1. -/
def SyncState.num : SyncState → Nat
  | .free => 0 | .acquiring => 1 | .locked => 2 | .holdover => 3 | .lost => 4

/-- An entry of the launch queue (R110 to R119). The apply of a fleet commit on a worker is an entry without a
descriptor. -/
structure Launch where
  /-- The descriptor and its command; none for a fleet APPLY. -/
  host : Option (Desc × HostCmd) := none
  due : BitVec 64 := 0
  /-- Fire tick (R110). -/
  fire : BitVec 64 := 0
  /-- Stage delay in ns (Table 3.2). -/
  stage : Nat := 0
  late : Bool := false
  /-- The payload as it stood at acceptance (R162). -/
  payload : List (BitVec 8) := []
  /-- Its domain was not ready on the fire tick (R65). -/
  waiting : Bool := false
  deriving DecidableEq, Repr

/-- A CAPTURE_ARM that waits for an edge (R132). -/
structure Armed where
  unit : Nat := 0
  act : Act := {}
  /-- Device time at which it times out. -/
  deadline : Nat := 0
  deriving DecidableEq, Repr, Inhabited

/-- WEAVE block, Tables 3.7 to 3.14. -/
structure Weave where
  /-- Weave time; a multiple of 4 (R89). -/
  time : BitVec 64 := 0
  timeHi : BitVec 32 := 0
  sync : SyncState := .free
  hops : BitVec 3 := 0
  offset : BitVec 32 := 0
  /-- Consecutive Syncs within the lock threshold (R96). -/
  lockRun : Nat := 0
  /-- Consecutive Syncs beyond 500 ns (R97). -/
  badRun : Nat := 0
  /-- SYNC_INT carried by the last Sync received (R93). -/
  lastInterval : BitVec 3 := 3
  /-- Device time of the last Sync received. -/
  lastSync : Nat := 0
  /-- Device time from which HOLD_MAX counts in HOLDOVER (R98). -/
  holdFrom : Nat := 0
  /-- The last measured path delay in ns (R93). -/
  pathDelay : Nat := 0
  /-- Offset still to be slewed away, in ns (R101). -/
  slew : Int := 0
  /-- Ticks since the last 4 ns slew step (200 ppm is one in 5000 ticks). -/
  slewTicks : Nat := 0
  syncInt : BitVec 3 := 3
  holdMax : BitVec 8 := 2
  lockTh : BitVec 8 := 0x19
  queue : List Launch := []
  /-- The last tick on which entries fired (R116: at most 16 on one tick). -/
  lastFire : Option (BitVec 64) := none
  peak : BitVec 11 := 0
  lateCount : BitVec 16 := 0
  stepCount : BitVec 16 := 0
  wall : BitVec 64 := 0
  wallHi : BitVec 32 := 0
  setCount : BitVec 16 := 0
  wallValid : Bool := false
  coarse : Bool := false
  wallSource : Bool := false
  capTime : Vector (BitVec 64) 8 := .replicate 8 0
  capHi : Vector (BitVec 32) 8 := .replicate 8 0
  armed : List Armed := []
  deriving DecidableEq, Repr

/-! ## RING (chapter 4) -/

/-- A descriptor that was accepted, or failed a check, and has no completion yet (R166), with the BLOCK and OPCODE its
completion carries. -/
structure Outst where
  d : Desc := default
  block : Nat := 0
  opcode : Nat := 0
  deriving DecidableEq, Repr, Inhabited

/-- One ring: its registers (Tables 4.16 to 4.19), the indices the watcher has seen (R149), and what it has
outstanding. -/
structure Ring where
  dbase : BitVec 36 := 0
  cbase : BitVec 36 := 0
  enable : Bool := false
  cls : BitVec 2 := 0
  remote : Bool := false
  size : BitVec 4 := 4
  prio : BitVec 2 := 0
  hart : BitVec 2 := 0
  targetS : Bool := false
  modTime : BitVec 10 := 0
  modCount : BitVec 8 := 0
  fetch : BitVec 16 := 0
  halt : Bool := false
  cfgErr : Bool := false
  written : BitVec 16 := 0
  lost : BitVec 16 := 0
  pi : BitVec 16 := 0
  cci : BitVec 16 := 0
  outs : List Outst := []
  /-- Posted buffers not yet filled, oldest first (R179). -/
  posted : List Desc := []
  /-- Items or events lost since the last entry that reported the loss (R180, R181). -/
  lostPending : Nat := 0
  /-- Completions since the vector was last raised, and when the first of them was written (R175). -/
  unsignalled : Nat := 0
  firstAt : Nat := 0
  /-- Fetched descriptors that wait behind a FENCE (R158). -/
  held : List (Desc × HostCmd) := []
  /-- Ring indices cancelled before acceptance (R177). -/
  cancels : List (BitVec 16) := []
  deriving DecidableEq, Repr, Inhabited

/-- A completion or event entry that waits for PD_MEM to leave self-refresh (R61, R184). -/
structure StalledWrite where
  addr : Nat
  bytes : List (BitVec 8)
  deriving DecidableEq, Repr

/-- RING block, Tables 4.13 to 4.15, with the 128 rings. -/
structure Rings where
  dbBase : BitVec 36 := 0
  dbReg : Bool := false
  regErr : Bool := false
  sizeErr : Bool := false
  irqPend : BitVec 128 := 0
  irqEn : BitVec 128 := 0
  blkPend : BitVec 64 := 0
  blkEn : BitVec 64 := 0
  blkHart : BitVec 2 := 0
  blkS : Bool := false
  ring : Vector Ring 128 := .replicate 128 {}
  /-- For each priority, the ring whose turn runs and the descriptors fetched in it (R157). -/
  turn : Vector (Nat × Nat) 4 := .replicate 4 (127, 8)
  stalled : List StalledWrite := []
  deriving DecidableEq, Repr

/-! ## CFG (chapter 5) -/

/-- A configuration image as it is held: header fields and records. -/
structure Image where
  format : Nat := 1
  fielded : Bool := false
  seq : BitVec 32 := 0
  machineId : BitVec 64 := 0
  recs : List Rec := []
  deriving DecidableEq, Repr, Inhabited

/-- The stage (R197 to R203). -/
inductive StageSt where
  | empty | opened | sealed | prepared
  deriving DecidableEq, Repr, Inhabited

/-- CFG_STATUS.STAGE. -/
def StageSt.num : StageSt → Nat
  | .empty => 0 | .opened => 1 | .sealed => 2 | .prepared => 3

/-- A COMMIT under way (R209 to R218). -/
structure Commit where
  act : Act := {}
  persist : Bool := false
  /-- The consistency check still runs. -/
  checking : Bool := false
  /-- Part of a fleet commit: the seal of the manager's own stage. -/
  fleet : Bool := false
  deriving DecidableEq, Repr, Inhabited

/-- The FLEET_COMMIT that a manager runs (R223 to R228). -/
structure Fleet where
  act : Act := {}
  mask : BitVec 32 := 0
  persist : Bool := false
  due : BitVec 64 := 0
  /-- Votes received, and the first no vote with its worker and detail. -/
  voted : BitVec 32 := 0
  no : Option (Nat × BitVec 16) := none
  /-- Why the manager sent ABORT: 1 a no vote, 2 a vote missing. -/
  aborted : Nat := 0
  /-- FLEET_COMMIT has completed; APPLY may still be retransmitted (R227). -/
  completed : Bool := false
  deriving DecidableEq, Repr, Inhabited

/-- CFG block, Tables 5.11 to 5.14, the running configuration and the stage. -/
structure Cfg where
  recs : List Rec := []
  machineId : BitVec 64 := 0
  loaded : BitVec 2 := 0
  empty : Bool := false
  dirty : Bool := false
  stageSt : StageSt := .empty
  takeover : Bool := false
  /-- Device time at which TAKEOVER was set (R573). -/
  takeoverAt : Nat := 0
  aValid : Bool := false
  bValid : Bool := false
  persisting : Bool := false
  seqA : BitVec 32 := 0
  seqB : BitVec 32 := 0
  failCheck : BitVec 8 := 0
  failMode : BitVec 4 := 0
  failCount : BitVec 16 := 0
  failA : BitVec 32 := 0
  failB : BitVec 32 := 0
  failResBlock : BitVec 8 := 0
  failRes : BitVec 16 := 0
  /-- Image staged by CONFIG_LOAD: its place in host memory and its length (R199). -/
  load : Option (Nat × Nat) := none
  /-- The staged image as read at acceptance. -/
  loadImage : Image := {}
  /-- Records staged by CONFIG_STAGE and staged register writes, oldest first; an empty body deletes. -/
  stage : List Rec := []
  commit : Option Commit := none
  /-- The COMMIT that waits for its persist to end (R216). -/
  persistAct : Option Act := none
  /-- The running configuration as the persist began to write it, and whether a commit has applied changes since. -/
  persistImage : Image := {}
  persistDirty : Bool := false
  voteTo : BitVec 8 := 0x0A
  hold : BitVec 8 := 0x1E
  retx : BitVec 8 := 0x0A
  fleetPhase : BitVec 3 := 0
  fleetId : BitVec 8 := 0
  lastApplied : BitVec 8 := 0
  yes : BitVec 32 := 0
  ack : BitVec 32 := 0
  fleet : Option Fleet := none
  /-- On a worker: the fleet commit persists, and its DUE once APPLY has come. -/
  fleetPersist : Bool := false
  fleetDue : Option (BitVec 64) := none
  deriving DecidableEq, Repr

/-! ## BEZEL (chapter 16) -/

/-- An entry of the Bezel log (Table 16.6); the CRC follows from the rest. -/
structure BzEntry where
  seq : BitVec 32 := 0
  event : BitVec 16 := 0
  mode : BitVec 4 := 0
  time : BitVec 64 := 0
  boot : BitVec 32 := 0
  data0 : BitVec 32 := 0
  data1 : BitVec 32 := 0
  deriving DecidableEq, Repr, Inhabited

/-- The orphan state of a channel as the retention table holds it: 0 off, 1 keep, 2 limp, whatever code its record's
ORPHAN has for that; with its limp duty and its limp current. -/
structure Orphan where
  kind : BitVec 2 := 0
  duty : Nat := 0
  level : Nat := 0
  deriving DecidableEq, Repr, Inhabited

/-- The orphan table of retention RAM, item 1 of Table 16.1. -/
structure OrphanTable where
  hso : Vector Orphan 64 := .replicate 64 {}
  vlv : Vector Orphan 32 := .replicate 32 {}
  led : Vector Orphan 12 := .replicate 12 {}
  fio : Vector Orphan 48 := .replicate 48 {}
  deriving DecidableEq, Repr, Inhabited

/-- BEZEL block, Tables 16.10 and 16.11, the Bezel log and the retention RAM. -/
structure Bezel where
  resetType : BitVec 4 := 0
  detail : BitVec 8 := 0
  /-- Device times of the resets counted under R586. -/
  storms : List Nat := []
  boot : BitVec 32 := 0
  holdWindow : BitVec 10 := 0x014
  /-- Device time at which the open hold window ends. -/
  holdEnd : Option Nat := none
  wdtTimeout : BitVec 14 := 0x1F4
  wdtMin : BitVec 12 := 0
  wdtAction : Bool := false
  wdtEn : Bool := false
  wdtNext : BitVec 16 := 1
  wdtExpired : BitVec 4 := 0
  /-- Device time from which watchdog 0 counts: the last good kick or restart; and that of the last kick since the
  restart. -/
  lastKick : Nat := 0
  kickAt : Option Nat := none
  stormN : BitVec 4 := 3
  stormWin : BitVec 8 := 0x0A
  limpCause : BitVec 8 := 0
  limpStorm : Bool := false
  domFault : BitVec 12 := 0
  /-- The log, oldest first, at most 32 entries. -/
  log : List BzEntry := []
  logHead : BitVec 5 := 0
  logSeq : BitVec 32 := 0
  mirrorMiss : Bool := false
  /-- Next mirror slot (BEZEL_LOG_STAT.SLOT). -/
  mirrorSlot : BitVec 6 := 0
  mirrorErasing : Bool := false
  retErr : BitVec 10 := 0
  heldHso : BitVec 64 := 0
  heldVlv : BitVec 32 := 0
  heldLed : BitVec 12 := 0
  heldFio : BitVec 48 := 0
  /-- Retention item 1. -/
  orphans : OrphanTable := {}
  /-- Retention item 2, in 100 ms units. -/
  retWindow : BitVec 10 := 0x014
  /-- Retention item 3: ΔT of each high-side channel (R259). -/
  retDt : Vector Nat 64 := .replicate 64 0
  /-- Retention item 4: Weave time and PD_AON count; none after a power-on or a stay in Storage. -/
  retWeave : Option (BitVec 64 × Nat) := none
  /-- KC is held out of service until this device time (R598). -/
  kcSuspended : Option Nat := none
  /-- Last expiry of watchdog 3 (R598). -/
  wdt3At : Option Nat := none
  /-- A BEZEL_RESET_REQ whose action is to come: its device time and LIMP (R609). -/
  resetReq : Option (Nat × Bool) := none
  /-- Flash phase counters of the Limp map, in ticks (R601). -/
  limpTicks : Nat := 0
  /-- A mirror was skipped at the last supply loss (R607). -/
  mirrorSkipped : Bool := false
  /-- Device time at which KL15 last went off. -/
  kl15OffAt : Nat := 0
  deriving DecidableEq, Repr

/-! ## LOUPE (chapter 17) -/

/-- A staged record (R618), before it takes its SEQ. -/
structure LoupeStaged where
  boot : BitVec 16 := 0
  setCount : BitVec 16 := 0
  weave : BitVec 64 := 0
  wall : BitVec 64 := 0
  trig : Nat := 0
  valid : Bool := false
  coarse : Bool := false
  snap : Nat := 0
  synced : Bool := false
  filler : Bool := false
  words : List (BitVec 32) := []
  steps : BitVec 8 := 0
  deriving DecidableEq, Repr, Inhabited

/-- A record of the log in NOR: its offset in the record area, its bytes without COMMIT, and COMMIT. -/
structure LoupeRec where
  off : Nat := 0
  seq : BitVec 32 := 0
  /-- Every byte but COMMIT, in address order. -/
  bytes : List (BitVec 8) := []
  commit : BitVec 32 := 0xFFFFFFFF
  deriving DecidableEq, Repr, Inhabited

/-- LOUPE block, Tables 17.9 and 17.10, staging and the log. -/
structure Loupe where
  full : Bool := false
  clearing : Bool := false
  fault : Bool := false
  mediaNew : Bool := false
  scanning : Bool := true
  staged : List LoupeStaged := []
  nextSeq : BitVec 32 := 0
  baseSeq : BitVec 32 := 0
  writeOff : BitVec 25 := 0
  missed : BitVec 32 := 0
  supp : BitVec 32 := 0
  clears : BitVec 32 := 0
  bad : BitVec 512 := 0
  /-- Triggers in HOLDOFF (R614). -/
  holdoff : BitVec 64 := 0
  /-- The record being programmed, with its retry flag. -/
  programming : Option (LoupeStaged × LoupeRec × Bool) := none
  /-- Sectors below this one are erased by the clear that runs (R629). -/
  eraseFront : Nat := 510
  /-- Clears that complete when the last sector is erased. -/
  clearActs : List Act := []
  /-- A run of losses has been reported (R625). -/
  missRun : Bool := false
  /-- Landing before the point of no return runs (R626). -/
  lastLanding : Bool := false
  deriving DecidableEq, Repr

/-- The contents of the Loupe log in NOR (R621, R622). -/
structure LoupeNor where
  recs : List LoupeRec := []
  cseq : BitVec 32 := 0
  baseSeq : BitVec 32 := 1
  missed : BitVec 32 := 0
  clears : BitVec 32 := 0
  fault : Bool := false
  bad : BitVec 512 := 0
  /-- Entries written into the active control sector, and which sector is active. -/
  slots : Nat := 0
  sector : Nat := 0
  deriving DecidableEq, Repr, Inhabited

/-! ## HSO (chapter 6) -/

/-- HSO_STAT_n.STATE (Table 6.18). -/
inductive HsoSt where
  | off | on | pwm | soft | retry | latched | shed | held | orphan | stb
  deriving DecidableEq, Repr, Inhabited

/-- The encoding of HSO_STAT_n.STATE. -/
def HsoSt.num : HsoSt → Nat
  | .off => 0 | .on => 1 | .pwm => 2 | .soft => 3 | .retry => 4 | .latched => 5 | .shed => 6 | .held => 7
  | .orphan => 8 | .stb => 9

/-- Which rule a retry wait follows. -/
inductive RetryKind where
  | fast | ot | wire | groupOt
  deriving DecidableEq, Repr, Inhabited

/-- One high-side channel. -/
structure HsoCh where
  st : HsoSt := .off
  inrush : Bool := false
  sense : BitVec 12 := 0
  /-- Applied duty. -/
  duty : BitVec 13 := 0
  /-- The commanded STATE (0 Off, 1 On, 2 PWM, 3 Soft-start) and its duty. -/
  cmdSt : BitVec 2 := 0
  cmdDuty : BitVec 13 := 0
  /-- Soft-start steps taken (R243). -/
  soft : Nat := 0
  fast : Bool := false
  ot : Bool := false
  wire : Bool := false
  overload : Bool := false
  groupOt : Bool := false
  olOn : Bool := false
  olOff : Bool := false
  shortBat : Bool := false
  symp : Bool := false
  /-- Modelled rise ΔT of the wire, in 10⁻⁹ K (R254). -/
  dt : Nat := 0
  retries : BitVec 2 := 0
  kind : RetryKind := .fast
  /-- Device time of the last retry after a fast trip (R253). -/
  fastRetryAt : Option Nat := none
  /-- Device time of the last trip. -/
  tripAt : Nat := 0
  /-- Device times of junction over-temperature trips within the last 60 s. -/
  otTrips : List Nat := []
  /-- Device time at which the channel last turned on. -/
  onSince : Nat := 0
  /-- An off-state test runs; inside, the HSO_OLTEST it answers. -/
  test : Option (Option Act) := none
  /-- Short-to-battery hold: a test since the short found a load, and HSO_CLEAR has come (R262). -/
  stbClean : Bool := false
  stbCleared : Bool := false
  /-- The channel takes its commanded state at the next planner frame (R276, R697). -/
  resume : Bool := false
  deriving DecidableEq, Repr, Inhabited

/-- A group-limit hit that lasts (R264 to R266). -/
structure GrpHit where
  at_ : Nat := 0
  symp : Bool := false
  /-- Its tag is final. -/
  tagged : Bool := false
  /-- It ended before its tag was final. -/
  ended : Bool := false
  deriving DecidableEq, Repr, Inhabited

/-- One power group. -/
structure HsoGrp where
  temp : BitVec 8 := 0
  iGrp : BitVec 16 := 0
  hits : BitVec 8 := 0
  hit : Option GrpHit := none
  /-- The last fast trip of the group: device time and channel (R265). -/
  lastFast : Option (Nat × Nat) := none
  /-- Device time at which the 5 ms of R268 end. -/
  holdoff : Option Nat := none
  /-- The die's flag of R263, read at the next Start. -/
  reversed : Bool := false
  deriving DecidableEq, Repr, Inhabited

/-- HSO block, Tables 6.16 to 6.19. -/
structure Hso where
  monCh : BitVec 6 := 0
  monEn : Bool := false
  vfeed : Vector (BitVec 16) 3 := .replicate 3 0
  grp : Vector HsoGrp 8 := .replicate 8 {}
  ch : Vector HsoCh 64 := .replicate 64 {}
  deriving DecidableEq, Repr

/-! ## EDGE (chapter 7) -/

/-- A planner channel (Table 7.10). -/
structure PChan where
  phase : BitVec 13 := 0
  /-- Phase of a host pin (R302). -/
  host : Option (BitVec 13) := none
  /-- Pinned by a launch (R125). -/
  launch : Bool := false
  active : Bool := false
  period : BitVec 3 := 0
  /-- On-time of the applied duty in ns. -/
  onNs : Nat := 0
  /-- An excess of R305 lasts on this channel. -/
  excess : Bool := false
  deriving DecidableEq, Repr, Inhabited

/-- A one-shot edge in the plan: a planned or launched single switch, or a valve start (R292, R293). Slots are counted
from Weave time 0. -/
structure OneShot where
  pair : Nat := 0
  slot : Nat := 0
  rising : Bool := true
  weight : Nat := 0
  /-- Planner index of a planned switch; none for a launch and a valve start. -/
  chan : Option Nat := none
  deriving DecidableEq, Repr, Inhabited

/-- A change without a due time that waits for its slot (R244, R424) or for its channel's next period (R295). `st` is
the STATE operand of HSO; field outputs use `duty` alone. -/
structure Planned where
  act : Act := {}
  /-- Planner indices. -/
  chans : List Nat := []
  st : BitVec 2 := 0
  duty : BitVec 13 := 0
  slot : Nat := 0
  atPeriod : Bool := false
  deriving DecidableEq, Repr, Inhabited

/-- EDGE block, Tables 7.8 to 7.10, and the plan. -/
structure Edge where
  overFixed : Bool := false
  overPlan : Bool := false
  moves : BitVec 16 := 0
  peakR : Vector (BitVec 5) 3 := .replicate 3 0
  peakI : Vector (BitVec 16) 3 := .replicate 3 0
  ch : Vector PChan 128 := .replicate 128 {}
  oneShots : List OneShot := []
  pending : List Planned := []
  /-- An excess of R304 lasts on feed pair k. -/
  fixedOn : Vector Bool 3 := .replicate 3 false
  /-- Channels tried, and moves made, for the frame with this number (R298, R299). -/
  triedFrame : Nat := 0
  tried : List Nat := []
  moved : Nat := 0
  deriving DecidableEq, Repr

/-! ## LED and MTX (chapter 10) -/

/-- LED_STAT_n.STATE (Table 10.12). -/
inductive LedSt where
  | off | on | pwm | retry | latched | shed | held | orphan
  deriving DecidableEq, Repr, Inhabited

/-- The encoding of LED_STAT_n.STATE. -/
def LedSt.num : LedSt → Nat
  | .off => 0 | .on => 1 | .pwm => 2 | .retry => 3 | .latched => 4 | .shed => 5 | .held => 6 | .orphan => 7

/-- One LED string. -/
structure LedCh where
  st : LedSt := .off
  /-- Applied DIM and set current, and the colour gain applied at the last period start (R403). -/
  dim : BitVec 12 := 0
  iSet : BitVec 10 := 0
  gain : BitVec 13 := 0x1000
  /-- Commanded settings. -/
  cmdDim : BitVec 12 := 0
  cmdI : BitVec 10 := 0
  isOpen : Bool := false
  shortLed : Bool := false
  oc : Bool := false
  nbr : Bool := false
  ot : Bool := false
  /-- Device time of the last over-current trip. -/
  ocAt : Option Nat := none
  /-- Off under converter over-temperature; it returns below 155 °C. -/
  hot : Bool := false
  /-- It takes its commanded settings at the next planner frame (R409, R697). -/
  resume : Bool := false
  deriving DecidableEq, Repr, Inhabited

/-- An LED descriptor that waits for a period or a frame (R384). -/
structure LedPend where
  act : Act := {}
  chans : List Nat := []
  iSet : BitVec 10 := 0
  dim : BitVec 12 := 0
  atPeriod : Bool := false
  deriving DecidableEq, Repr, Inhabited

/-- LED block, Tables 10.11 and 10.12, with the colour loop. -/
structure Led where
  x : BitVec 16 := 0
  y : BitVec 16 := 0
  lum : BitVec 20 := 0
  run : Bool := false
  saturated : Bool := false
  sensorFail : Bool := false
  steps : BitVec 16 := 0
  /-- Consecutive failed steps (R406). -/
  failed : Nat := 0
  /-- A conversion runs. -/
  converting : Bool := false
  gain : Vector (BitVec 13) 3 := .replicate 3 0x1000
  ch : Vector LedCh 12 := .replicate 12 {}
  pend : List LedPend := []
  /-- Consecutive failures of each string-pair test (R391). -/
  nbrFails : Vector Nat 34 := .replicate 34 0
  deriving DecidableEq, Repr

/-- MTX block, Table 10.13, the frame memory and the swap. -/
structure Mtx where
  front : Bool := false
  /-- The armed swap and its WHEN (R398). -/
  armed : Option (Act × Bool) := none
  syncLost : Bool := false
  blank : Bool := true
  /-- MTX_BLANK keeps the matrix blank, or the scan resumes at the next frame start. -/
  hostBlank : Bool := false
  latched : Bool := false
  shed : Bool := false
  frames : BitVec 16 := 0
  rowOc : BitVec 16 := 0
  /-- Rows that tripped in this frame, and consecutive frames with a trip. -/
  rowNow : BitVec 16 := 0
  rowRun : Vector Nat 16 := .replicate 16 0
  nbr : BitVec 48 := 0
  nbrFails : Vector Nat 94 := .replicate 94 0
  isOpen : BitVec 48 := 0
  /-- Gains and S_m of the running frame (R395). -/
  gain : Vector (BitVec 13) 3 := .replicate 3 0x1000
  half : Bool := false
  /-- Device time of the last frame start and of the last MX_SYNC edge taken. -/
  frameAt : Nat := 0
  syncAt : Option Nat := none
  /-- Buffers A and B of 2048 bytes, in the canonical form of host memory. -/
  bufA : List Host.Cell := []
  bufB : List Host.Cell := []
  deriving DecidableEq, Repr

/-! ## FIO (chapter 11) -/

/-- One field pin. -/
structure FioCh where
  /-- Input state: 0 inactive, 1 active, 2 BROKEN, 3 OPEN, 4 CLOSED. -/
  inSt : BitVec 3 := 0
  /-- The filtered level, and device time since which it holds (R418). -/
  level : Bool := false
  levelAt : Nat := 0
  /-- Wire-break band of the last measurement (0 gap, 2, 3, 4 as `inSt`), and device time since which it holds. -/
  band : BitVec 3 := 0
  bandAt : Nat := 0
  /-- Output state: 0 off, 1 on or PWM, 5 latched, 6 held, 7 orphan. -/
  outSt : BitVec 3 := 0
  /-- Applied and commanded duty. -/
  duty : BitVec 13 := 0
  cmdDuty : BitVec 13 := 0
  meas : BitVec 12 := 0
  limit : Bool := false
  ot : Bool := false
  broken : Bool := false
  openLoad : Bool := false
  /-- Consecutive current-limit trips, and the wait for the retry (R425). -/
  trips : Nat := 0
  retryAt : Option Nat := none
  /-- Off under over-temperature; it returns below 155 °C. -/
  hot : Bool := false
  /-- It takes its commanded duty at the next planner frame (R697). -/
  resume : Bool := false
  deriving DecidableEq, Repr, Inhabited

/-- FIO block, Tables 11.8 and 11.9. -/
structure Fio where
  wakeSrc : BitVec 16 := 0
  /-- Pins armed for Park or Guard, and pins whose last strobe found the wake level (R427). -/
  armed : BitVec 16 := 0
  strobed : BitVec 16 := 0
  ch : Vector FioCh 48 := .replicate 48 {}
  deriving DecidableEq, Repr

/-! ## VLV (chapter 8) -/

/-- What a valve channel does (Table 8.14); waiting for boost is told by its wait. -/
inductive VlvSt where
  | inactive | running | held | orphan | latched | stb
  deriving DecidableEq, Repr, Inhabited

/-- A start of a profile: the descriptor it answers, if any; whether that is a VLV_MULTI; the Weave time at which the
current is to begin rising and the mark W it sets (R356). -/
structure VStart where
  act : Option Act := none
  multi : Bool := false
  profile : BitVec 5 := 0
  arg : BitVec 16 := 0
  instant : Nat := 0
  mark : BitVec 64 := 0
  /-- It begins at the boost phase of a profile that has one (R327, R697). -/
  restart : Bool := false
  deriving DecidableEq, Repr, Inhabited

/-- A wait for the boost claim: of a start, or of a running profile's own boost phase; device times. -/
structure VWait where
  start : Option VStart := none
  since : Nat := 0
  deadline : Nat := 0
  deriving DecidableEq, Repr, Inhabited

/-- One valve channel. -/
structure VlvCh where
  st : VlvSt := .inactive
  profile : BitVec 5 := 0
  noClaim : Bool := false
  oc : Bool := false
  openOn : Bool := false
  openOff : Bool := false
  stb : Bool := false
  bnr : Bool := false
  deferOut : Bool := false
  pullin : Bool := false
  noMove : Bool := false
  bankFault : Bool := false
  starts : BitVec 16 := 0
  waits : BitVec 16 := 0
  wait : Option VWait := none
  /-- Device time of the last over-current trip. -/
  ocAt : Option Nat := none
  /-- An off test runs; inside, the VLV_OFFTEST it answers. -/
  test : Option (Option Act) := none
  /-- Short-to-battery hold: a clean test since, and VLV_CLEAR given. -/
  stbClean : Bool := false
  stbCleared : Bool := false
  /-- Current in mA that a held or orphaned channel is regulated at (R338, R339). -/
  heldI : BitVec 14 := 0
  /-- The start that follows an over-voltage pause (R697). -/
  resume : Option VStart := none
  deriving DecidableEq, Repr, Inhabited

/-- One valve bank. -/
structure VlvBank where
  /-- The bank switch is closed: FEED, or BOOST while the claim is held (R314). -/
  closed : Bool := false
  claim : Option Nat := none
  /-- Channels that wait for the claim, first served first (R329). -/
  queue : List Nat := []
  latched : Bool := false
  ocAt : Option Nat := none
  /-- Device time since which no channel has been active. -/
  idleAt : Nat := 0
  deriving DecidableEq, Repr, Inhabited

/-- A VLV_MULTI whose channels have not all started or failed. -/
structure VMulti where
  act : Act := {}
  left : List Nat := []
  started : List Nat := []
  noClaim : List Nat := []
  failed : List (Nat × Nat) := []
  time : Nat := 0
  deriving DecidableEq, Repr, Inhabited

/-- VLV block, Tables 8.12 to 8.14. -/
structure Vlv where
  /-- BST as last measured, in 10 mV units. -/
  bst : BitVec 16 := 0
  reverse : Bool := false
  ov : Bool := false
  /-- Fast and mixed decays act as slow (R319). -/
  slowAll : Bool := false
  capFault : Bool := false
  cEst : BitVec 12 := 0
  esrEst : BitVec 12 := 0
  /-- The valve die is above its trip; starts are refused (Table 8.5). -/
  hot : Bool := false
  bank : Vector VlvBank 8 := .replicate 8 {}
  ch : Vector VlvCh 32 := .replicate 32 {}
  multis : List VMulti := []
  deriving DecidableEq, Repr

/-! ## FACET (chapter 9) -/

/-- A program as a bank holds it (Tables 9.2 and 9.4). -/
structure Prog where
  length : BitVec 11 := 0
  constBase : BitVec 11 := 0
  progId : BitVec 16 := 0
  pcrc : BitVec 32 := 0
  words : List (BitVec 32) := []
  deriving DecidableEq, Repr, Inhabited

/-- What a context waits for (FACET_PC_n.WAIT): with the device time of an expiry, and of a conditional wait its
threshold, the samples it needs and whether it waits for a value at or below. -/
inductive FWait where
  | executing
  | time (until_ : Nat)
  | weave
  | current (until_ : Nat) (thr : Int) (count : Nat) (below : Bool)
  | slope (until_ : Nat) (thr : Int) (count : Nat) (below : Bool)
  | claim
  | ending
  | idle
  deriving DecidableEq, Repr, Inhabited

/-- The encoding of FACET_PC_n.WAIT. -/
def FWait.num : FWait → Nat
  | .executing => 0 | .time _ => 1 | .weave => 2 | .current .. => 3 | .slope .. => 4 | .claim => 5 | .ending => 6 | .idle => 7

/-- A context (Table 9.1) and the per-channel registers of Table 9.21. -/
structure FCtx where
  g : Vector (BitVec 32) 16 := .replicate 16 0
  pc : BitVec 10 := 0
  bank : Bool := false
  mark : BitVec 64 := 0
  tmo : BitVec 22 := 0
  timedOut : Bool := false
  target : BitVec 14 := 0
  decay : BitVec 2 := 0
  mix : BitVec 4 := 8
  freq : BitVec 7 := 0x14
  swin : BitVec 7 := 8
  phase : BitVec 3 := 0
  wait : FWait := .idle
  /-- Instructions since the last wait (R368). -/
  run : Nat := 0
  /-- Device times of the start instant and of the last PHASE (Table 9.6). -/
  startAt : Nat := 0
  phaseAt : Nat := 0
  /-- Time spent waiting for the claim at the last start, in µs. -/
  deferUs : Nat := 0
  /-- The claim for the next PHASE 1 is settled (R358). -/
  settled : Bool := false
  /-- Targets are clamped to 3000 mA until the next start (R355). -/
  peak : Bool := false
  report : BitVec 32 := 0
  runaway : Bool := false
  peakTime : Bool := false
  user : Bool := false
  progStop : Bool := false
  userCode : BitVec 8 := 0
  deriving DecidableEq, Repr, Inhabited

/-- An engine: its two program banks, which is active, and Table 9.20. -/
structure FEng where
  bank0 : Option Prog := none
  bank1 : Option Prog := none
  active : Bool := false
  fault : Bool := false
  checks : BitVec 16 := 0
  deriving DecidableEq, Repr, Inhabited

/-- FACET block. -/
structure Facet where
  eng : Vector FEng 8 := .replicate 8 {}
  ctx : Vector FCtx 32 := .replicate 32 {}
  deriving DecidableEq, Repr

/-! ## CAN (chapter 12) -/

/-- What placed a frame in a transmit queue. -/
inductive TxKind where
  /-- CAN_TX, with the control function whose address it takes (R468). -/
  | host (act : Act) (cf : Option Nat)
  | keepAlive
  /-- An address-claim frame (R467). -/
  | claim
  /-- A frame of a transport session (R469); a data packet names its sending session. -/
  | transport (session : Option Nat)
  /-- An engine-release message (R571). -/
  | release
  /-- A message slot that the schedule loaded into TB2 (R456). -/
  | slot
  deriving DecidableEq, Repr

/-- A frame in a transmit queue or buffer (R440 to R447). -/
structure TxFrame where
  frame : CanFrame := {}
  kind : TxKind := .keepAlive
  /-- Attempts that ended in success or an error, those among them without acknowledgement, and whether one had
  another error. -/
  attempts : Nat := 0
  ackErrors : Nat := 0
  other : Bool := false
  /-- A launch may begin its start-of-frame from this Weave time (R443). -/
  from_ : Nat := 0
  /-- Start-of-frame of the last attempt, in Weave time. -/
  sof : BitVec 64 := 0
  /-- Cancels that found the frame on the bus (Table 12.3). -/
  cancels : List Desc := []
  deriving DecidableEq, Repr

/-- One channel. -/
structure CanCh where
  /-- 0 error active, 1 error passive, 2 bus-off, 3 recovering. -/
  conf : BitVec 2 := 0
  alone : Bool := false
  muted : Bool := false
  /-- LISTEN of CAN_MODE (R465). -/
  listen : Bool := false
  /-- Transceiver state of Table 12.6. -/
  xcvr : BitVec 2 := 1
  tec : Nat := 0
  rcv : Nat := 0
  tdcv : BitVec 7 := 0
  lec : BitVec 3 := 0
  ackRun : BitVec 8 := 0
  boCount : BitVec 16 := 0
  noMatch : BitVec 16 := 0
  queue : List TxFrame := []
  tb : Vector (Option TxFrame) 3 := .replicate 3 none
  /-- Buffer to fill next and buffer to send next under POLICY 1 (R441). -/
  fill : Nat := 0
  send : Nat := 0
  /-- Buffer whose frame is on the bus, and the device time of its start-of-frame. -/
  onBus : Option Nat := none
  busAt : Nat := 0
  /-- Device time at which a back-off ends, and its length in ns (R451). -/
  backoff : Option Nat := none
  backoffLen : Nat := 0
  /-- Device time of entry to bus-off. -/
  boAt : Nat := 0
  /-- Device times of the last TXD time-outs (R454). -/
  txdAt : List Nat := []
  /-- The schedule runs, and stops at the end of the current cycle. -/
  sched : Bool := false
  schedEnding : Bool := false
  /-- Basic cycle k and window of the open window, and whether its message went out or its frame was seen. -/
  cycle : Nat := 0
  window : Nat := 0
  windowOpen : Bool := false
  windowDone : Bool := false
  missed : BitVec 16 := 0
  /-- The message slots as last written (R458). -/
  slots : Vector (Option CanFrame) 32 := .replicate 32 none
  /-- Source addresses that other nodes have claimed on the channel (R467). -/
  claimed : List (BitVec 8) := []
  deriving DecidableEq, Repr, Inhabited

/-- A control function (CAN_CF_k). -/
structure CanCf where
  addr : BitVec 8 := 0xFF
  ch : BitVec 4 := 0
  /-- 0 idle, 1 claiming, 2 claimed, 3 cannot claim. -/
  st : BitVec 2 := 0
  /-- The address being claimed. -/
  want : BitVec 8 := 0xFF
  deriving DecidableEq, Repr, Inhabited

/-- What a sending transport session waits for. -/
inductive TpWait where
  /-- The next packet of a broadcast, 50 ms after the last. -/
  | packet
  /-- A CTS, or the end-of-message acknowledgement. -/
  | peer
  deriving DecidableEq, Repr, Inhabited

/-- A sending transport session (R469). -/
structure TpSend where
  id : Nat := 0
  /-- CAN_TP_TX, or none for an engine-release message. -/
  act : Option Act := none
  cf : Nat := 0
  ch : Nat := 0
  da : BitVec 8 := 0
  prio : BitVec 3 := 0
  pgn : BitVec 18 := 0
  data : List (BitVec 8) := []
  /-- Packets sent, and the last one that the running CTS asks for. -/
  sent : Nat := 0
  upTo : Nat := 0
  /-- Packet before the first that the last DPO announced (ETP). -/
  base : Nat := 0
  wait : TpWait := .peer
  /-- Device time of the last packet of a broadcast. -/
  lastAt : Nat := 0
  deriving DecidableEq, Repr, Inhabited

/-- A receiving transport session. -/
structure TpRecv where
  id : Nat := 0
  cf : Nat := 0
  ch : Nat := 0
  sa : BitVec 8 := 0
  da : BitVec 8 := 0
  prio : BitVec 3 := 0
  pgn : BitVec 18 := 0
  etp : Bool := false
  bam : Bool := false
  len : Nat := 0
  /-- Packets received in order, the last one that the running CTS asks for, and the offset of the last DPO. -/
  got : Nat := 0
  upTo : Nat := 0
  dpo : Nat := 0
  data : List (BitVec 8) := []
  deriving DecidableEq, Repr, Inhabited

/-- CAN block, Tables 12.15 to 12.18. -/
structure Can where
  ch : Vector CanCh 10 := .replicate 10 {}
  cf : Vector CanCf 8 := .replicate 8 {}
  tpSend : List TpSend := []
  tpRecv : List TpRecv := []
  /-- The latch of the terminating bias circuit of CAN0 (R466). -/
  tbc : Bool := false
  deriving DecidableEq, Repr

/-! ## NET (chapter 13) -/

/-- Bus states of Table 13.3. -/
inductive BusSt where
  | awake | ready | asleep | standby
  deriving DecidableEq, Repr, Inhabited

/-- The encoding of NET_STATE_n.STATE. -/
def BusSt.num : BusSt → Nat
  | .awake => 0 | .ready => 1 | .asleep => 2 | .standby => 3

/-- A source that has sent a counted keep-alive: its key, the device time since which it has held the bus unbroken, and
that of its last keep-alive (R499). -/
structure NetSrc where
  key : BitVec 29 := 0
  since : Nat := 0
  last : Nat := 0
  deriving DecidableEq, Repr, Inhabited

/-- One bus. -/
structure NetBus where
  st : BusSt := .awake
  /-- Own need, as last evaluated, and the device time at which it last ended. -/
  need : Bool := false
  needEnd : Nat := 0
  /-- A NET_HOLD holds the bus. -/
  host : Bool := false
  /-- A NET_WAKE holds the bus until this device time. -/
  wakeUntil : Option Nat := none
  /-- Device time of the last counted keep-alive. -/
  lastKa : Option Nat := none
  /-- Device time at which the grace interval last began. -/
  graceAt : Nat := 0
  /-- Device time of the last keep-alive sent, and the next sequence count. -/
  kaAt : Nat := 0
  seq : BitVec 8 := 0
  wakePat : BitVec 3 := 0
  wakeCause : BitVec 2 := 0
  srcs : List NetSrc := []
  /-- Device time at which the hold run began. -/
  runAt : Option Nat := none
  /-- The selective detector's frame error counter (R497). -/
  errs : Nat := 0
  /-- Settings the detector was armed with: the NET_BUS record, and the NET_WAKE records by pattern (R493). -/
  armBus : Option Rec := none
  armPats : List (Nat × Rec) := []
  /-- Barred sources, oldest first (R500; item 6 of Table 16.1). -/
  bars : List (BitVec 29) := []
  deriving DecidableEq, Repr, Inhabited

/-- NET block, Tables 13.10 and 13.11. -/
structure Net where
  wakeSrc : BitVec 10 := 0
  bus : Vector NetBus 10 := .replicate 10 {}
  deriving DecidableEq, Repr

/-! ## ETH and PLAIT (chapter 14) -/

/-- One Ethernet port. -/
structure EthPort where
  link : Bool := false
  sqi : BitVec 4 := 0
  downs : BitVec 16 := 0
  deriving DecidableEq, Repr, Inhabited

/-- ETH block, Table 14.17. -/
structure Eth where
  port : Vector EthPort 4 := .replicate 4 {}
  deriving DecidableEq, Repr

/-- What an outstanding read or non-posted write of the bridge is for. -/
inductive NpFor where
  /-- A load or store of a host core, whole. -/
  | core (hart : BitVec 2) (size : Nat) (write : Bool)
  /-- The first half of an 8-byte access to a register page (R529), with the upper word of a store. -/
  | coreLow (hart : BitVec 2) (write : Bool) (high : BitVec 32)
  /-- The second half, after the first half's data. -/
  | coreHigh (hart : BitVec 2) (write : Bool) (low : BitVec 32)
  /-- Part of a PLAIT_COPY; where in its buffer the bytes belong, and how many. -/
  | copy (d : Desc) (at_ : Nat) (size : Nat)
  /-- The read that answers a PLAIT_PING. -/
  | ping (act : Act)
  /-- A headless worker's descriptor fetch (R543). -/
  | fetch (ring : Fin 128) (index : BitVec 16)
  /-- A headless worker's payload read. -/
  | payload (d : Desc) (c : HostCmd)
  deriving DecidableEq, Repr

/-- An outstanding NP (R524). -/
structure NpOut where
  tag : BitVec 11 := 0
  /-- Window offset asked for, and the exclusive-OR of its page's SWAP (R528). -/
  ask : Nat := 0
  swap : Nat := 0
  /-- Address and length of the transaction. -/
  offset : Nat := 0
  len : Nat := 0
  write : Bool := false
  pref : Bool := false
  why : NpFor := .copy {} 0 0
  /-- Device time at which it was sent. -/
  at_ : Nat := 0
  deriving DecidableEq, Repr

/-- A read-ahead block (R534): its 64-byte block number and bytes. -/
structure ReadAhead where
  block : Nat := 0
  bytes : List (BitVec 8) := []
  at_ : Nat := 0
  deriving DecidableEq, Repr, Inhabited

/-- The link to a worker, or, at index 0, a worker's link to its manager. -/
structure PLink where
  up : Bool := false
  hops : BitVec 3 := 0
  lastApplied : BitVec 8 := 0
  rtt : BitVec 16 := 0
  rpend : BitVec 16 := 0
  /-- Next SEQ to send and next SEQ expected (R516). -/
  txSeq : BitVec 12 := 0
  rxSeq : BitVec 12 := 0
  unacked : List PlaitFrame := []
  /-- Transactions that wait for credits, oldest first (R523). -/
  waiting : List PlaitFrame := []
  /-- Resends without progress. -/
  resends : Nat := 0
  /-- Credits left, and freed counts last seen from the peer. -/
  crPH : Nat := 8
  crPD : Nat := 32
  crNP : Nat := 4
  crMH : Nat := 8
  crMD : Nat := 8
  seen : PlaitFrame := {}
  /-- Credits freed to the peer, cumulative. -/
  frPH : BitVec 8 := 0
  frPD : BitVec 8 := 0
  frNP : BitVec 8 := 0
  frMH : BitVec 8 := 0
  frMD : BitVec 8 := 0
  nps : List NpOut := []
  nextTag : BitVec 11 := 0
  ahead : List ReadAhead := []
  /-- Inbound transactions held by a write into a lowered domain (R526), oldest first. -/
  held : List PlaitFrame := []
  /-- Posted writes handed to the link and acknowledged on it, which a PLAIT_COPY counts by. -/
  pSent : Nat := 0
  pAcked : Nat := 0
  deriving DecidableEq, Repr, Inhabited

/-- A PLAIT_COPY that runs. -/
structure PCopy where
  act : Act := {}
  worker : Nat := 0
  len : Nat := 0
  /-- Bytes acknowledged or answered. -/
  done : Nat := 0
  /-- Posted writes not yet acknowledged: their place among those of the link, and their bytes. -/
  posts : List (Nat × Nat) := []
  deriving DecidableEq, Repr, Inhabited

/-- PLAIT block, Tables 14.15 and 14.16. -/
structure Plait where
  /-- The contest was lost (R508). -/
  isolated : Bool := false
  /-- A worker: the EUI-48 of its manager; a JOIN waits for its answer, or has been refused. -/
  mgr : BitVec 48 := 0
  joining : Bool := false
  refused : Bool := false
  errStatus : BitVec 8 := 0
  errWorker : BitVec 5 := 0
  errWrite : Bool := false
  errValid : Bool := false
  errAddr : BitVec 25 := 0
  patPage : BitVec 9 := 0
  patWorker : BitVec 5 := 0
  rdb : BitVec 36 := 0
  rdbReg : Bool := false
  aper : BitVec 12 := 0
  pLost : BitVec 16 := 0
  tunDrop : BitVec 16 := 0
  resendRounds : BitVec 16 := 0
  cplLost : BitVec 16 := 0
  link : Vector PLink 32 := .replicate 32 {}
  copies : List PCopy := []
  /-- KL15 as the manager's mode gives it, and the device time at which the link went DOWN (R510). -/
  kl15 : Bool := false
  kl15DownAt : Option Nat := none
  /-- The mode last reported to the workers. -/
  lastMode : Nat := 4
  deriving DecidableEq, Repr

/-! ## ACC (chapter 15) -/

/-- A pairing slot. -/
structure AccTok where
  paired : Bool := false
  serial : BitVec 32 := 0
  dist : BitVec 12 := 0
  inZone : Bool := false
  /-- Device time of the last answer. -/
  seenAt : Option Nat := none
  deriving DecidableEq, Repr, Inhabited

/-- A search (R563). -/
structure AccSearch where
  /-- 0 start-up, 1 test, 2 recovery. -/
  reason : Nat := 0
  act : Option Act := none
  startAt : Nat := 0
  /-- Device time of the next burst, the present period in ns, and polls of the burst still to come. -/
  nextAt : Nat := 0
  period : Nat := 0
  left : Nat := 0
  deriving DecidableEq, Repr, Inhabited

/-- A pairing that waits for the token (R553). -/
structure AccPairing where
  act : Act := {}
  slot : Nat := 0
  serial : BitVec 32 := 0
  /-- The key that KC drew for the token. -/
  key : List (BitVec 8) := []
  startAt : Nat := 0
  /-- MACHINE_ID of a takeover (R573). -/
  takeover : Option (BitVec 64) := none
  deriving DecidableEq, Repr, Inhabited

/-- One copy of the access and lock-out counters in NOR (R565, R570). -/
structure AccCopy where
  seq : BitVec 32 := 0
  fails : List Nat := []
  level : BitVec 3 := 0
  /-- Length in ns of the lock-out in force; 0 when none is. -/
  lockNs : Nat := 0
  /-- A lock-out has ended with no authentication since (R567). -/
  lockEnded : Bool := false
  /-- First counter value that no reserved block holds. -/
  nextBlock : Nat := 0
  deriving DecidableEq, Repr, Inhabited

/-- ACC block, Tables 15.9 and 15.10. -/
structure Acc where
  /-- The slot of the open access session (item 7 of Table 16.1), and the device time since which KL15 is off. -/
  session : Option Nat := none
  /-- Device time at which the owner session ends. -/
  ownerUntil : Option Nat := none
  updLock : Bool := false
  released : Bool := false
  radioFault : Bool := false
  antOk : BitVec 4 := 0
  tok : Vector AccTok 8 := .replicate 8 {}
  /-- Device times of the failures counted, oldest first. -/
  fails : List Nat := []
  level : BitVec 3 := 0
  /-- Device times at which the lock-out in force began and ends. -/
  lock : Option (Nat × Nat) := none
  /-- A lock-out has ended with no authentication since (R567). -/
  lockEnded : Bool := false
  /-- Counter of the last release message, the next one and the end of the reserved block. -/
  relCnt : BitVec 32 := 0
  relNext : BitVec 32 := 0
  relEnd : Nat := 0
  /-- Device time of the last release message; none while the conditions of R568 do not hold. -/
  relAt : Option Nat := none
  /-- Device time of Guard entry, and the schedule's second part runs (R562). -/
  guardAt : Nat := 0
  slow : Bool := false
  /-- A poll runs. -/
  polling : Bool := false
  search : Option AccSearch := none
  pairing : Option AccPairing := none
  /-- Keys of key store slots 0 to 9; none where a slot is empty. Slot 9 holds the OEM public key (R644). -/
  keys : Vector (Option (List (BitVec 8))) 10 := .replicate 10 none
  deriving DecidableEq, Repr

/-! ## UPD (chapter 18) -/

/-- A boot record (Table 18.5); the CRC follows from the rest. -/
structure BootRec where
  seq : BitVec 32 := 0
  active : Bool := false
  trial : Bool := false
  accDef : Bool := false
  fbValid : Bool := false
  fellBack : Bool := false
  loupeMedia : Bool := false
  sarea : Bool := false
  sareaFb : Bool := false
  sfmt : BitVec 16 := 0
  version : BitVec 32 := 0
  fbVersion : BitVec 32 := 0
  digest : List (BitVec 8) := []
  fbDigest : List (BitVec 8) := []
  fbCause : BitVec 8 := 0
  deriving DecidableEq, Repr, Inhabited

/-- The state of a settings area (R662). -/
inductive AreaSt where
  | empty | migrating | valid
  deriving DecidableEq, Repr, Inhabited

/-- A settings area: its header and its store. -/
structure SetArea where
  st : AreaSt := .empty
  sfmt : BitVec 16 := 0
  items : List (BitVec 16 × List (BitVec 8)) := []
  deriving DecidableEq, Repr, Inhabited

/-- What follows a boot record write (R654). -/
inductive BootWhy where
  | begin_ (act : Act) (manifest : List (BitVec 8))
  | activate (act : Act)
  | confirm (act : Act)
  | fallback
  | media
  deriving DecidableEq, Repr

/-- A boot record write that runs. -/
structure BootWrite where
  record : BootRec := {}
  why : BootWhy := .media
  deriving DecidableEq, Repr

/-- UPD block, Table 18.12. -/
structure Upd where
  stage : BitVec 3 := 0
  refuse : BitVec 4 := 0
  speed : BitVec 16 := 0xFFFF
  /-- Device time at which the speed signal was last received. -/
  speedAt : Option Nat := none
  /-- Device times of the pulses of SRC 2 within the last second. -/
  pulses : List Nat := []
  /-- Samples of the lowest feed voltage within the last second, with their device times. -/
  feed : List (Nat × Nat) := []
  migrating : Bool := false
  /-- SET_READ and SET_WRITE that wait for the migration (R663). -/
  setWaits : List (Act × HostCmd) := []
  oldSfmt : BitVec 16 := 0
  verified : Bool := false
  verifying : Option Act := none
  /-- UPD_BLOCKs that land, oldest first. -/
  landing : List (Act × Nat) := []
  writes : List BootWrite := []
  /-- The selected boot record copy, and the record as selected. -/
  copy1 : Bool := false
  boot : BootRec := {}
  /-- Device time at which the activation's completion was written. -/
  activateAt : Option Nat := none
  /-- Device time from which the running 10 s of trial count. -/
  trialAt : Nat := 0
  deriving DecidableEq, Repr


/-- The serial NOR flash (Table 1.6), by what each region holds. -/
structure Nor where
  cfgA : Option Image := none
  cfgB : Option Image := none
  /-- Mirror slots of the Bezel log written since the sector's last erase, newest last. -/
  mirror : List (List BzEntry) := []
  loupe : LoupeNor := {}
  /-- The two copies of the access and lock-out counters, none where a copy is not valid (R565). -/
  acc0 : Option AccCopy := some {}
  acc1 : Option AccCopy := some {}
  /-- The two boot record copies, none where a copy is not valid (R653). -/
  boot0 : Option BootRec := none
  boot1 : Option BootRec := none
  /-- Manifest copy, none when erased; landed blocks of the bitmap; boot marks and time marks (Table 18.1). -/
  manifest : Option (List (BitVec 8)) := none
  landed : List Nat := []
  bootMarks : Nat := 0
  timeMarks : Nat := 0
  /-- Blocks written into image banks A and B. -/
  bankA : List (Nat × List (BitVec 8)) := []
  bankB : List (Nat × List (BitVec 8)) := []
  area0 : SetArea := {}
  area1 : SetArea := {}
  deriving DecidableEq, Repr

/-- The state of the module. -/
structure State where
  clk : Clock := {}
  sys : Sys := {}
  adc : Adc := {}
  ecc : Ecc := {}
  mem : Mem := {}
  nor : Nor := {}
  pwr : Pwr := {}
  weave : Weave := {}
  rings : Rings := {}
  cfg : Cfg := {}
  bezel : Bezel := {}
  loupe : Loupe := {}
  hso : Hso := {}
  edge : Edge := {}
  led : Led := {}
  mtx : Mtx := {}
  fio : Fio := {}
  vlv : Vlv := {}
  facet : Facet := {}
  can : Can := {}
  net : Net := {}
  eth : Eth := {}
  plait : Plait := {}
  acc : Acc := {}
  upd : Upd := {}
  /-- Data the last load of a core returned, and whether it faulted (the model's own field). -/
  rdata : BitVec 64 := 0
  /-- What was sent since the last idle tick (the model's own field). -/
  out : List Out := []
  /-- Counter of free values: the model's own field, no state of the hardware. -/
  free : Nat := 0
  /-- Commands that wait, first in, first out. -/
  pending : List Instr := []
  deriving DecidableEq, Repr

/-- The module right after power-on reset: Start begins and every domain but PD_BEZEL and PD_AON is Off. -/
def State.reset : State := {}

end Sys2Proof.Machine
end

