-- ==== Sys2Proof/Machine/Ops.lean ====
section
/-! DEFINITION. Named operations that know no block: bit fields, byte order, CRC-32C, host memory in its canonical
form with the W256 outcomes, and the passing of time. -/

namespace Sys2Proof.Machine

/-! ## Bits and bytes -/

/-- Bits [lo + width − 1 : lo] of a number. -/
def bits (x lo width : Nat) : Nat := x / 2 ^ lo % 2 ^ width

/-- Bit `i` of a number. -/
def bitAt (x i : Nat) : Bool := x / 2 ^ i % 2 == 1

/-- A field of a register word, placed at `lo`. -/
def field (lo : Nat) (x : Nat) : Nat := x * 2 ^ lo

/-- A Bool as a field of one bit at `lo`. -/
def flag (lo : Nat) (b : Bool) : Nat := if b then 2 ^ lo else 0

/-- The signed value of a field of `width` bits. -/
def signed (width x : Nat) : Int := if x < 2 ^ (width - 1) then (x : Int) else (x : Int) - 2 ^ width

/-- Bit `i` of a bit vector set or cleared. -/
def setBit {n : Nat} (v : BitVec n) (i : Nat) (b : Bool) : BitVec n :=
  if b then v ||| BitVec.ofNat n (2 ^ i) else v &&& ~~~ BitVec.ofNat n (2 ^ i)

/-- Positions of the 1 bits of a mask, rising. -/
def maskList {n : Nat} (v : BitVec n) : List Nat := (List.range n).filter (fun i => v.getLsbD i)

/-- A counter that stops at its highest value. -/
def satInc {n : Nat} (v : BitVec n) : BitVec n := if v.toNat + 1 < 2 ^ n then v + 1 else v

/-- The `n` bytes of a number, lowest first. -/
def bytesOf : Nat → Nat → List (BitVec 8)
  | 0, _ => []
  | n + 1, x => BitVec.ofNat 8 x :: bytesOf n (x / 256)

/-- The number that bytes spell, lowest first. -/
def ofBytes : List (BitVec 8) → Nat
  | [] => 0
  | b :: bs => b.toNat + 256 * ofBytes bs

/-- Little-endian 32-bit word `k` of a byte list; missing bytes read 0. -/
def wordAt (bs : List (BitVec 8)) (k : Nat) : BitVec 32 := BitVec.ofNat 32 (ofBytes ((bs.drop (4 * k)).take 4))

/-- The 32-bit words of a byte list, in order. -/
def wordsOf : List (BitVec 8) → List (BitVec 32)
  | a :: b :: c :: d :: bs => BitVec.ofNat 32 (ofBytes [a, b, c, d]) :: wordsOf bs
  | _ => []

/-! ## CRC-32C (R156) -/

/-- One bit step of the reflected CRC: a shift right, with the constant 0x82F6_3B78 when a 1 leaves. -/
def crcBit (c : BitVec 32) : BitVec 32 := if c.getLsbD 0 then (c >>> 1) ^^^ 0x82F63B78#32 else c >>> 1

/-- One byte of the CRC. -/
def crcByte (c : BitVec 32) (b : BitVec 8) : BitVec 32 :=
  crcBit (crcBit (crcBit (crcBit (crcBit (crcBit (crcBit (crcBit (c ^^^ b.setWidth 32))))))))

/-- CRC-32C over bytes in address order, from 0xFFFF_FFFF and with that final exclusive-OR (R156). -/
def crc32c (bs : List (BitVec 8)) : BitVec 32 := bs.foldl crcByte 0xFFFFFFFF#32 ^^^ 0xFFFFFFFF#32

/-! ## Host memory -/

/-- What a byte that nothing has written reads as (DESIGN CHOICE, log entry 2). -/
def Mem.unwritten : BitVec 8 := 0

/-- The byte a sorted list holds at an address. -/
def cellAt : List Host.Cell → Nat → BitVec 8
  | [], _ => Mem.unwritten
  | (k, b) :: cs, a => if k = a then b else cellAt cs a

/-- A sorted list with the byte at one address replaced; a byte equal to what an unlisted address reads as is left
out. -/
def cellPut : List Host.Cell → Nat → BitVec 8 → List Host.Cell
  | [], a, b => if b = Mem.unwritten then [] else [(a, b)]
  | (k, c) :: cs, a, b =>
    if a < k then (if b = Mem.unwritten then (k, c) :: cs else (a, b) :: (k, c) :: cs)
    else if a = k then (if b = Mem.unwritten then cs else (a, b) :: cs)
    else (k, c) :: cellPut cs a b

/-- Addresses rise strictly above `lo` and no byte is the unlisted one. -/
def cellsFrom : Nat → List Host.Cell → Bool
  | _, [] => true
  | lo, (k, b) :: cs => lo ≤ k && b != Mem.unwritten && cellsFrom (k + 1) cs

/-- The canonical form of host memory. -/
def Mem.wf (m : Mem) : Bool := cellsFrom 0 m.cells

/-- One byte of host memory as stored. -/
def Mem.byte (m : Mem) (a : Nat) : BitVec 8 := cellAt m.cells a

/-- `n` bytes from an address, as stored. -/
def Mem.bytes (m : Mem) (a : Nat) : Nat → List (BitVec 8)
  | 0 => []
  | n + 1 => m.byte a :: m.bytes (a + 1) n

/-- Bytes stored from an address up; the words' code bits are left as they are. -/
def Mem.store (m : Mem) (a : Nat) : List (BitVec 8) → Mem
  | [] => m
  | b :: bs => ({ m with cells := cellPut m.cells a b }).store (a + 1) bs

/-- The fault of the 32-byte word with this number, if its code bits are wrong. -/
def Mem.faultOf (m : Mem) (w : Nat) : Option WordFault := (m.bad.find? (fun e => e.1 == w)).map (·.2)

/-- The word's code bits made right, as a whole-word write or a correction does. -/
def Mem.clearFault (m : Mem) (w : Nat) : Mem := { m with bad := m.bad.filter (fun e => e.1 != w) }

/-- The word's code bits made wrong (ECC_INJECT). -/
def Mem.setFault (m : Mem) (w : Nat) (f : WordFault) : Mem := { m.clearFault w with bad := (w, f) :: (m.clearFault w).bad }

/-- Word numbers that `n` bytes from an address touch. -/
def wordSpan (a n : Nat) : List Nat :=
  if n = 0 then [] else (List.range ((a + n - 1) / 32 - a / 32 + 1)).map (· + a / 32)

/-- Host-usable DRAM ends below this address (R26). -/
def dramEnd : Nat := 0x78000000

/-- Start and end of host SRAM (Table 1.5). -/
def sramBase : Nat := 0x80000000
def sramEnd : Nat := 0x80700000

/-- A range that lies wholly in host memory (R142, check 5 of Table 4.5). -/
def hostRange (a n : Nat) : Bool :=
  (a + n ≤ dramEnd) || (sramBase ≤ a && a + n ≤ sramEnd)

/-- Whether an address lies in DRAM. -/
def inDram (a : Nat) : Bool := a < sramBase

/-! ## Free values -/

/-- A fresh undefined bit. -/
def State.takeBit (s : State) : Bool × State := (Config.freeBit s.free, { s with free := s.free + 1 })

/-- A fresh undefined word. -/
def State.takeWord (s : State) : BitVec 32 × State := (Config.freeWord s.free, { s with free := s.free + 1 })

/-- A fresh undefined number. -/
def State.takeNat (s : State) : Nat × State := (Config.freeNat s.free, { s with free := s.free + 1 })

/-- Fresh undefined bytes. -/
def State.takeBytes (s : State) : Nat → List (BitVec 8) × State
  | 0 => ([], s)
  | n + 1 =>
    let r := State.takeBytes { s with free := s.free + 1 } n
    (Config.freeByte s.free :: r.1, r.2)

/-! ## Time -/

/-- One period of the always-on counter's 32.768 kHz clock, in units of 1/10⁶ ns (R91). -/
def aonPeriodPs : Nat := 30517578125

/-- Count of the always-on counter at a device time (R91). -/
def aonCount (ns : Nat) : Nat := ns * 1000000 / aonPeriodPs

/-- Weave's slew over a number of ticks: one 4 ns correction in 5000 ticks, which is the 200 ppm of R101, until the
offset is gone. Answers the correction in ns, the offset left and the tick phase. -/
def slewOver (left : Int) (phase ticks : Nat) : Int × Int × Nat :=
  let n := capAt (left.natAbs / 4) ((phase + ticks) / 5000)
  let c : Int := if left < 0 then 4 * n else - (4 * (n : Int))
  (c, left + c, if left.natAbs / 4 ≤ n then 0 else (phase + ticks) % 5000)

/-- PD_ACT is On, so TIM ticks and Weave counts (Table 1.4). -/
def State.timRuns (s : State) : Bool := (vget s.pwr.dom 3).st == .on

/-- `dt` ns of device time pass: Weave counts 4 ns at each TIM tick (R89), slewing under R101. -/
def State.advance (s : State) (dt : Nat) : State :=
  let ns := s.clk.ns + dt
  if s.timRuns then
    let ticks := ns / 4 - s.clk.ns / 4
    let r := slewOver s.weave.slew s.weave.slewTicks ticks
    { s with clk.ns := ns,
             weave.time := s.weave.time + BitVec.ofInt 64 ((4 * ticks : Nat) + r.1),
             weave.slew := r.2.1, weave.slewTicks := r.2.2 }
  else { s with clk.ns := ns }

/-- Device time reaches at least `t` (an expiry is the instant at which its time has passed). -/
def State.reach (s : State) (t : Nat) : State := if s.clk.ns < t then s.advance (t - s.clk.ns) else s

/-- Weave time reaches at least `t`. -/
def State.reachWeave (s : State) (t : BitVec 64) : State :=
  if s.weave.time.toNat < t.toNat then
    { s with clk.ns := s.clk.ns + (t.toNat - s.weave.time.toNat),
             weave.time := BitVec.ofNat 64 (t.toNat - t.toNat % 4 + (if t.toNat % 4 = 0 then 0 else 4)) }
  else s

/-- One microsecond, one millisecond and one second in ns. -/
def us : Nat := 1000
def ms : Nat := 1000000
def sec : Nat := 1000000000

end Sys2Proof.Machine
end

