-- ==== Sys2Proof/Machine/Records.lean ====
section
/-! DEFINITION. Reading the running configuration: which record applies in a mode, and the fields of its body
(R189, R191, R737). -/

namespace Sys2Proof.Machine

/-- Word `k` of a record's body. -/
def Rec.w (r : Rec) (k : Nat) : Nat := (r.body.getD k 0).toNat

/-- A field of word `k` of a record's body. -/
def Rec.f (r : Rec) (k lo width : Nat) : Nat := bits (r.w k) lo width

/-- The record applies in a mode. -/
def Rec.inMode (r : Rec) (m : Mode) : Bool := r.modes.getLsbD m.num

/-- The record of a combination that applies in a mode (at most one, R191). -/
def recOf (rs : List Rec) (m : Mode) (b t i : Nat) : Option Rec :=
  rs.find? (fun r => r.block == b && r.typ == t && r.inst == i && r.inMode m)

/-- The record of a combination that applies in the present mode. -/
def State.rec? (s : State) (b t i : Nat) : Option Rec := recOf s.cfg.recs s.pwr.mode b t i

/-- A field of the record that applies in the present mode, or a default where there is none. -/
def State.recField (s : State) (b t i k lo width dflt : Nat) : Nat :=
  match s.rec? b t i with
  | some r => r.f k lo width
  | none => dflt

/-- The records of one block and type that apply in the present mode. -/
def State.recsOf (s : State) (b t : Nat) : List Rec :=
  s.cfg.recs.filter (fun r => r.block == b && r.typ == t && r.inMode s.pwr.mode)

/-- Some record of a block applies in a mode. -/
def blockInMode (rs : List Rec) (b : Nat) (m : Mode) : Bool := rs.any (fun r => r.block == b && r.inMode m)

end Sys2Proof.Machine
end

