-- ==== Sys2Proof/Machine/Derived.lean ====
section
/-! DEFINITION. Quantities that follow from the state: synchronisation, the performance cap, domain states in a mode,
the compatibility view, and which blocks are reachable (chapters 2 and 3). -/

namespace Sys2Proof.Machine

/-! ## Domains -/

/-- Domain with a number of Table 2.6. -/
def domOf : Nat → Dom
  | 0 => .host | 1 => .svc | 2 => .mem | 3 => .act | 4 => .led | 5 => .can | 6 => .eth | 7 => .uwb
  | 8 => .sec | 9 => .adc | 10 => .bezel | _ => .aon

/-- The control state of a domain. -/
def State.domCtl (s : State) (d : Dom) : DomCtl := vget s.pwr.dom d.num

/-- The present state of a domain. -/
def State.domSt (s : State) (d : Dom) : DomState := (s.domCtl d).st

/-- A domain is On. -/
def State.isOn (s : State) (d : Dom) : Bool := s.domSt d == .on

/-- The control state of a domain changed. -/
def State.modDom (s : State) (d : Dom) (f : DomCtl → DomCtl) : State := { s with pwr.dom := vmod s.pwr.dom d.num f }

/-- The domain that holds a block's registers (Table 21.2). -/
def blockDom : Nat → Dom
  | 2 => .act | 5 => .act | 6 => .act | 7 => .act | 8 => .act | 11 => .act
  | 9 => .led | 10 => .led | 12 => .can | 14 => .eth | 15 => .eth | 17 => .bezel | 20 => .adc
  | _ => .svc

/-- A Cfg entry of Table 2.1: On where the configuration enables a block of the domain in the mode, else Off. PD_ETH
holds ETH and PLAIT, and PD_UWB the radio that the access service uses. -/
def cfgEntry (s : State) (m : Mode) (d : Dom) : DomState :=
  match d with
  | .eth => if blockInMode s.cfg.recs 14 m || blockInMode s.cfg.recs 15 m then .on else .off
  | .uwb => if blockInMode s.cfg.recs 16 m then .on else .off
  | _ => .on

/-- Table 2.1 without the outcome of a rail failure. Poll entries are Off between polls; a domain that Start brings
up (Seq) counts as On once the sequence has reached it. -/
def table21 (s : State) (m : Mode) (d : Dom) : DomState :=
  match d with
  | .aon => .on
  | .bezel => if m == .storage then .off else .on
  | _ =>
    match m with
    | .storage | .park | .guard => .off
    | .listen =>
      match d with
      | .host => .gated | .mem => .ret | .led => .off | .uwb => .off | .sec => .gated
      | .eth => cfgEntry s m d
      | _ => .on
    | .start => .on
    | .limp =>
      match d with
      | .host | .mem | .eth | .uwb => .off
      | _ => .on
    | .update => match d with | .uwb => .off | .eth => cfgEntry s m d | _ => .on
    | .field => match d with | .uwb => cfgEntry s m d | _ => .on
    | .service => .on
    | .accessory | .run | .road => match d with | .eth | .uwb => cfgEntry s m d | _ => .on

/-- The limits of the RC oscillator keep PD_ETH and PD_UWB Off (R75). -/
def State.rcForbids (s : State) (d : Dom) : Bool := s.pwr.rcClock && (d == .eth || d == .uwb)

/-- The state a domain takes on entry to a mode (R41), with the outcome of a rail failure (R72) and of R75. -/
def State.entryState (s : State) (m : Mode) (d : Dom) : DomState :=
  if (s.domCtl d).forced || s.rcForbids d then .off else table21 s m d

/-- The entry state of a domain in the present mode. During Start no domain but PD_BEZEL and PD_AON is reachable
before the sequence has brought its supply up (Table 2.1, Seq). -/
def State.entryNow (s : State) (d : Dom) : DomState :=
  if s.pwr.mode == .start then s.domSt d else s.entryState s.pwr.mode d

/-! ## Synchronisation and time -/

/-- Weave time is synchronised (R94, R95). -/
def State.synced (s : State) : Bool :=
  !s.pwr.rcClock &&
    match s.weave.sync with
    | .free => true | .acquiring => false | .locked => true | .holdover => true | .lost => false

/-- The role the straps give (Table 14.1): the reserved combination acts as standalone. -/
inductive Role where
  | standalone | worker | manager
  deriving DecidableEq, Repr

def State.role (s : State) : Role :=
  if s.plait.isolated then .standalone
  else match s.pwr.strap.toNat with
    | 1 => .worker
    | 2 => .manager
    | _ => .standalone

/-- A field of the PLAIT_ROLE record of the mode; an isolated module treats every PLAIT record as absent (R508). -/
def State.plaitField (s : State) (k lo width dflt : Nat) : Nat :=
  if s.plait.isolated then dflt else s.recField 15 1 0 k lo width dflt

/-- A PLAIT record of the mode, absent on an isolated module (R508). -/
def State.plaitRec (s : State) (t i : Nat) : Option Rec := if s.plait.isolated then none else s.rec? 15 t i

/-- PLAIT_LINK as it runs, with the floors of Table 14.15: RETX in 10 µs units, RETRY_MAX, DEAD in ms, CPL_TO in ms. -/
def State.plaitLink (s : State) (k : Nat) : Nat :=
  match k with
  | 0 => max 1 (s.plaitField 2 0 8 0x14)
  | 1 => max 1 (s.plaitField 2 8 4 0x8)
  | 2 => max 20 (s.plaitField 2 12 8 0x32)
  | _ => max 1 (s.plaitField 2 20 8 0x05)

/-- This worker's number. -/
def State.workerNum (s : State) : Nat := s.plaitField 0 2 5 0

/-- KL15 is on for this module: its own pin, or on a worker with KL15_MGR the manager's mode (R52, R510). -/
def State.kl15On (s : State) : Bool :=
  if s.role == .worker && s.plaitField 0 16 1 0 == 1 then s.plait.kl15 else s.pwr.kl15

/-! ## Performance levels -/

/-- PL_MAX of the PWR_CFG record that applies, 4 where none does (R88). -/
def State.plMax (s : State) : Nat := s.recField 1 1 0 0 0 3 4

/-- PWR_PL.CAP: the governor's cap, the PL4 limit and PL_MAX (R58, R59, R80, R88). -/
def State.plCap (s : State) : Nat :=
  let g := if 3 ≤ s.pwr.govStep then 1 else if 1 ≤ s.pwr.govStep then 3 else 4
  let t := if s.pwr.pl4Capped || s.pwr.pl4OnMax == 0 then 3 else 4
  capAt s.plMax (capAt g t)

/-- The effective level: the lower of REQ and CAP (R59). -/
def State.plEffective (s : State) : Nat := capAt s.plCap (capAt 4 s.pwr.plReq.toNat)

/-- The over-voltage pause holds feed pair `k` (R697). -/
def State.paused (s : State) (k : Nat) : Bool := s.sys.ovp.getLsbD k

/-! ## Planner channels (R286, R287, R301) -/

/-- P of a period code in slots (Table 7.2). -/
def periodSlots (code : Nat) : Nat := 64 * 2 ^ code

/-- The period code that the running configuration gives a channel in the current mode (R287, R302). -/
def State.periodCode (s : State) (i : Nat) : Option Nat :=
  if i < 64 then (s.rec? 5 1 i).map (fun r => 7 - r.f 4 0 3)
  else if i < 76 then (s.rec? 9 1 (i - 64)).map (fun r => r.f 1 9 3)
  else if 80 ≤ i then
    match s.rec? 11 1 (i - 80) with
    | some r => if 2 ≤ r.f 0 0 2 then some (r.f 0 16 3) else none
    | none => none
  else none

/-- The phase that the EDGE_CHAN record of the mode pins, if it pins one (R301). PHASE is used when it is less than P
(Table 7.4). -/
def State.recordPin (s : State) (i : Nat) : Option Nat :=
  match s.rec? 6 2 i, s.periodCode i with
  | some r, some c => if r.f 0 16 1 = 1 ∧ r.f 1 0 13 < periodSlots c then some (r.f 1 0 13) else none
  | _, _ => none

/-- EDGE_CH_n.PIN: a launch pin holds over a host pin, and that over a record pin. -/
def State.pinKind (s : State) (i : Nat) : Nat :=
  let c := vget s.edge.ch i
  if c.launch then 2 else if c.host.isSome then 1 else if (s.recordPin i).isSome then 3 else 0

/-! ## Modes -/

/-- PWR_MODE.COMPAT (Table 2.5). -/
def State.compat (s : State) : Nat :=
  if s.pwr.sleepOn || s.pwr.mode == .listen then 2 else if s.domSt .host == .gated then 1 else 0


/-! ## Host interrupts -/

/-- Whether the external interrupt of a hart is asserted: a pending enabled ring vector whose ring names the hart, or a
pending enabled block vector while RING_BLK_TGT names it (R176). -/
def State.externalIrq (s : State) (hart : BitVec 2) (smode : Bool) : Bool :=
  (List.range 128).any (fun n =>
    let r := vget s.rings.ring n
    s.rings.irqPend.getLsbD n && s.rings.irqEn.getLsbD n && r.hart == hart && r.targetS == smode)
  || ((s.rings.blkPend &&& s.rings.blkEn) != 0 && s.rings.blkHart == hart && s.rings.blkS == smode)

end Sys2Proof.Machine
end

