-- ==== Sys2Proof/Machine/RegRead.lean ====
section
/-! DEFINITION. What a read of each register returns, field by field from the state, with no side effect (the register
tables of every chapter). A read that latches or clears does so in the operation that performs the read. -/

namespace Sys2Proof.Machine

/-! ## SYS, ADC, ECC -/

/-- SYS registers (Table 21.4). -/
def sysRead (s : State) (off : Nat) : Nat :=
  match off with
  | 0x000 => 0x09600041
  | 0x004 => Config.issue.toNat
  | 0x008 => Config.serial.toNat % 2 ^ 32
  | 0x00C => Config.serial.toNat / 2 ^ 32
  | 0x010 => flag 0 s.sys.sysv + flag 1 s.sys.source
  | 0x014 => flag 0 s.sys.mismatch + field 1 s.sys.ovp.toNat
  | 0x018 => s.sys.faultCause.toNat + field 4 s.sys.faultHart.toNat + flag 6 s.sys.faultWrite + flag 7 s.sys.faultValid
  | 0x01C => s.sys.faultAddr.toNat % 2 ^ 32
  | 0x020 => s.sys.faultAddr.toNat / 2 ^ 32
  | 0x024 => flag 0 s.sys.stageWrLost
  | 0x030 => (vget s.sys.scratch 0).toNat
  | 0x034 => (vget s.sys.scratch 1).toNat
  | 0x038 => (vget s.sys.scratch 2).toNat
  | 0x03C => (vget s.sys.scratch 3).toNat
  | _ => 0

/-- A measured quantity of the ADC block: the register's address, held for its period of Table 21.6. -/
def adcSample (s : State) (addr period : Nat) : Nat := Config.analog addr (s.clk.ns / period)

/-- SoC die temperature in °C + 50 (ADC_DIE.SOC). -/
def adcSoc (s : State) : Nat := adcSample s 0xA0140008 10000000 % 256

/-- ADC_PLATE.TEMP: the plate temperature in 0.01 °C, or the SoC die temperature while that is substituted (R726). -/
def adcPlate (s : State) : Nat :=
  if s.adc.subst then (BitVec.ofInt 16 (((adcSoc s : Int) - 50) * 100)).toNat else adcSample s 0xA0140000 10000000 % 65536

/-- ADC registers (Table 21.7). -/
def adcRead (s : State) (off : Nat) : Nat :=
  match off with
  | 0x000 => adcPlate s + flag 16 s.adc.plateFault + flag 17 s.adc.subst
  | 0x004 => adcSample s 0xA0140004 1000000 % 2 ^ 32
  | 0x008 => adcSoc s + field 8 (adcSample s 0xA0140009 10000000 % 256) + field 16 (adcSample s 0xA014000A 10000000 % 256)
  | 0x00C => adcSample s 0xA014000C 10000000 % 8192 + flag 13 s.adc.refFault
  | _ => 0

/-- ECC registers (Table 21.10). -/
def eccRead (s : State) (off : Nat) : Nat :=
  match off with
  | 0x000 => flag 0 s.ecc.scrubEn + field 8 s.ecc.passH.toNat
  | 0x004 => s.ecc.pos.toNat
  | 0x008 => s.ecc.passes.toNat
  | 0x00C => s.ecc.ceDram.toNat + field 16 s.ecc.ceSram.toNat
  | 0x010 => s.ecc.ueDram.toNat + field 8 s.ecc.ueSram.toNat + field 16 s.ecc.ueFold.toNat
  | 0x014 => s.ecc.next.toNat + flag 3 s.ecc.ovf
  | _ =>
    if 0x020 ≤ off ∧ off < 0x060 then
      let e := vget s.ecc.log ((off - 0x020) / 8)
      if off % 8 = 0 then e.addr.toNat % 2 ^ 32
      else e.addr.toNat / 2 ^ 32 + field 4 e.finder.toNat + flag 6 e.fold + flag 7 e.valid
    else 0

/-! ## PWR -/

/-- PWR registers (Tables 2.14 to 2.21). -/
def pwrRead (s : State) (off : Nat) : Nat :=
  match off with
  | 0x000 => s.pwr.mode.num + field 4 s.pwr.prev.num + field 8 s.pwr.cause.toNat + field 16 s.compat
  | 0x004 => ((List.range 12).map (fun d => field (2 * d) (vget s.pwr.dom d).st.num)).sum
  | 0x008 => s.pwr.domFail.toNat
  | 0x00C => capAt 4 s.pwr.plReq.toNat + field 4 s.pwr.plCur.toNat + field 8 s.plCap + flag 12 s.pwr.plBusy
      + field 16 s.pwr.pl4Used.toNat
  | 0x010 => s.pwr.pl4OnMax.toNat + field 8 s.pwr.pl4Window.toNat
  | 0x014 => s.pwr.drainBound.toNat
  | 0x018 => s.pwr.pMax.toNat + field 8 s.pwr.govStep + field 16 s.pwr.pEst.toNat
  | 0x01C => flag 3 s.pwr.compatRefused
  | 0x020 => s.pwr.railFail.toNat + flag 6 s.pwr.xtalFail + flag 7 s.pwr.rcTrimmed + field 8 s.pwr.retries.toNat
  | _ => 0

/-! ## WEAVE -/

/-- WEAVE_CAP_CFG_n as it runs: the WEAVE_CAP record of the mode, or no source (R133). -/
def capCfg (s : State) (n : Nat) : Nat :=
  match s.rec? 2 1 n with
  | some r => r.f 0 0 7 + field 8 (r.f 0 8 2)
  | none => 0

/-- WEAVE registers (Tables 3.7 to 3.14). -/
def weaveRead (s : State) (off : Nat) : Nat :=
  match off with
  | 0x000 => s.weave.time.toNat % 2 ^ 32
  | 0x004 => s.weave.timeHi.toNat
  | 0x008 => s.weave.sync.num + flag 3 s.synced + flag 4 s.pwr.rcClock + field 8 s.weave.hops.toNat
  | 0x00C => s.weave.offset.toNat
  | 0x010 => s.weave.syncInt.toNat + field 8 s.weave.holdMax.toNat + field 16 s.weave.lockTh.toNat
  | 0x014 => s.weave.queue.length + field 16 s.weave.peak.toNat
  | 0x018 => s.weave.wall.toNat % 2 ^ 32
  | 0x01C => s.weave.wallHi.toNat
  | 0x020 => s.weave.setCount.toNat + flag 16 s.weave.wallValid + flag 17 s.weave.coarse + flag 18 s.weave.wallSource
  | 0x024 => s.weave.lateCount.toNat + field 16 s.weave.stepCount.toNat
  | _ =>
    if 0x040 ≤ off ∧ off < 0x060 then capCfg s ((off - 0x040) / 4)
    else if 0x060 ≤ off ∧ off < 0x0A0 then
      let n := (off - 0x060) / 8
      if off % 8 = 0 then (vget s.weave.capTime n).toNat % 2 ^ 32 else (vget s.weave.capHi n).toNat
    else 0

/-! ## RING -/

/-- The ring has no accepted descriptor still to complete (Table 4.19, IDLE). -/
def Ring.idle (r : Ring) : Bool := r.outs.isEmpty

/-- Registers of one ring (Tables 4.16 to 4.19). -/
def ringRead1 (r : Ring) (off : Nat) : Nat :=
  match off with
  | 0x00 => r.dbase.toNat % 2 ^ 32
  | 0x04 => r.dbase.toNat / 2 ^ 32
  | 0x08 => r.cbase.toNat % 2 ^ 32
  | 0x0C => r.cbase.toNat / 2 ^ 32
  | 0x10 => flag 0 r.enable + field 1 r.cls.toNat + flag 3 r.remote + field 4 r.size.toNat + field 8 r.prio.toNat
      + field 10 r.hart.toNat + flag 12 r.targetS
  | 0x14 => r.modTime.toNat + field 16 r.modCount.toNat
  | 0x18 => r.fetch.toNat + flag 16 r.idle + flag 17 r.halt + flag 18 r.cfgErr
  | 0x1C => r.written.toNat + field 16 r.lost.toNat
  | _ => 0

/-- RING registers (Tables 4.13 to 4.19). -/
def ringRead (s : State) (off : Nat) : Nat :=
  if 0x1000 ≤ off ∧ off < 0x2000 then ringRead1 (vget s.rings.ring ((off - 0x1000) / 0x20)) (off % 0x20)
  else
    match off with
    | 0x000 => s.rings.dbBase.toNat % 2 ^ 32
    | 0x004 => s.rings.dbBase.toNat / 2 ^ 32
    | 0x008 => flag 0 s.rings.dbReg + flag 1 s.rings.regErr + flag 2 s.rings.sizeErr
    | 0x030 => s.rings.blkPend.toNat % 2 ^ 32
    | 0x034 => s.rings.blkPend.toNat / 2 ^ 32
    | 0x038 => s.rings.blkEn.toNat % 2 ^ 32
    | 0x03C => s.rings.blkEn.toNat / 2 ^ 32
    | 0x040 => s.rings.blkHart.toNat + flag 2 s.rings.blkS
    | _ =>
      if 0x010 ≤ off ∧ off < 0x020 then bits s.rings.irqPend.toNat (8 * (off - 0x010)) 32
      else if 0x020 ≤ off ∧ off < 0x030 then bits s.rings.irqEn.toNat (8 * (off - 0x020)) 32
      else 0

/-! ## CFG -/

/-- CFG registers (Tables 5.11 to 5.14). -/
def cfgRead (s : State) (off : Nat) : Nat :=
  match off with
  | 0x000 => s.cfg.loaded.toNat + flag 2 s.cfg.empty + flag 3 s.cfg.dirty + field 4 s.cfg.stageSt.num
      + flag 6 s.cfg.takeover + flag 7 s.cfg.aValid + flag 8 s.cfg.bValid + flag 9 s.cfg.persisting + field 16 1
  | 0x004 => s.cfg.seqA.toNat
  | 0x008 => s.cfg.seqB.toNat
  | 0x00C => s.cfg.failCheck.toNat + field 8 s.cfg.failMode.toNat + field 16 s.cfg.failCount.toNat
  | 0x010 => s.cfg.failA.toNat
  | 0x014 => s.cfg.failB.toNat
  | 0x018 => s.cfg.failResBlock.toNat + field 8 s.cfg.failRes.toNat
  | 0x01C => s.cfg.voteTo.toNat + field 8 s.cfg.hold.toNat + field 16 s.cfg.retx.toNat
  | 0x020 => s.cfg.fleetPhase.toNat + field 8 s.cfg.fleetId.toNat + field 16 s.cfg.lastApplied.toNat
  | 0x024 => s.cfg.yes.toNat
  | 0x028 => s.cfg.ack.toNat
  | _ => 0

/-! ## BEZEL -/

/-- 100 ms units left in the hold window. -/
def holdRemain (s : State) : Nat :=
  match s.bezel.holdEnd with
  | some t => capAt 1023 ((t - s.clk.ns + 99999999) / 100000000)
  | none => 0

/-- Resets that still lie in the sliding storm window (R586). -/
def stormCount (s : State) : Nat :=
  (s.bezel.storms.filter (fun t => s.clk.ns < t + max 1 s.bezel.stormWin.toNat * 60 * sec)).length

/-- BEZEL registers (Tables 16.10 and 16.11). -/
def bezelRead (s : State) (off : Nat) : Nat :=
  match off with
  | 0x000 => s.bezel.resetType.toNat + field 8 s.bezel.detail.toNat + field 16 (capAt 255 (stormCount s))
  | 0x004 => s.bezel.boot.toNat
  | 0x00C => s.bezel.holdWindow.toNat + field 16 (holdRemain s) + flag 26 s.bezel.holdEnd.isSome
  | 0x010 => s.bezel.wdtTimeout.toNat + field 16 s.bezel.wdtMin.toNat + flag 28 s.bezel.wdtAction + flag 29 s.bezel.wdtEn
  | 0x018 => s.bezel.wdtNext.toNat + field 16 s.bezel.wdtExpired.toNat
  | 0x01C => s.bezel.stormN.toNat + field 8 s.bezel.stormWin.toNat
  | 0x020 => s.bezel.limpCause.toNat + flag 8 (s.pwr.mode == .limp) + flag 9 s.bezel.limpStorm
  | 0x024 => s.bezel.domFault.toNat
  | 0x028 => s.bezel.logHead.toNat + flag 5 s.bezel.mirrorMiss + field 6 s.bezel.mirrorSlot.toNat
  | 0x02C => s.bezel.logSeq.toNat
  | 0x030 => s.bezel.retErr.toNat
  | 0x040 => s.bezel.heldHso.toNat % 2 ^ 32
  | 0x044 => s.bezel.heldHso.toNat / 2 ^ 32
  | 0x048 => s.bezel.heldVlv.toNat
  | 0x04C => s.bezel.heldLed.toNat
  | 0x050 => s.bezel.heldFio.toNat % 2 ^ 32
  | 0x054 => s.bezel.heldFio.toNat / 2 ^ 32
  | _ => 0

/-! ## LOUPE -/

/-- LOUPE registers (Tables 17.9 and 17.10). -/
def loupeRead (s : State) (off : Nat) : Nat :=
  match off with
  | 0x000 => flag 0 s.loupe.full + flag 1 s.loupe.clearing + flag 2 s.loupe.fault + flag 3 s.loupe.mediaNew
      + flag 4 s.loupe.scanning + field 8 (maskList s.loupe.bad).length + field 16 s.loupe.staged.length
  | 0x004 => s.loupe.nextSeq.toNat
  | 0x008 => s.loupe.baseSeq.toNat
  | 0x00C => s.loupe.writeOff.toNat
  | 0x010 => s.loupe.missed.toNat
  | 0x014 => s.loupe.supp.toNat
  | 0x018 => s.loupe.clears.toNat
  | _ => if 0x040 ≤ off ∧ off < 0x080 then bits s.loupe.bad.toNat (8 * (off - 0x040)) 32 else 0

/-! ## HSO, EDGE -/

/-- HSO_FLAG_n (Table 6.19). -/
def hsoFlags (s : State) (n : Nat) : Nat :=
  let c := vget s.hso.ch n
  flag 0 c.fast + flag 1 c.ot + flag 2 c.wire + flag 3 c.overload + flag 4 c.groupOt + flag 5 c.olOn + flag 6 c.olOff
    + flag 7 c.shortBat + flag 8 c.symp + flag 9 (c.st == .shed)

/-- HSO registers (Tables 6.16 to 6.19). -/
def hsoRead (s : State) (off : Nat) : Nat :=
  match off with
  | 0x000 => s.hso.monCh.toNat + flag 6 s.hso.monEn
  | 0x004 => (vget s.hso.vfeed 0).toNat
  | 0x008 => (vget s.hso.vfeed 1).toNat
  | 0x00C => (vget s.hso.vfeed 2).toNat
  | _ =>
    if 0x040 ≤ off ∧ off < 0x060 then
      let g := vget s.hso.grp ((off - 0x040) / 4)
      g.temp.toNat + field 8 g.iGrp.toNat + field 24 g.hits.toNat
    else if 0x100 ≤ off ∧ off < 0x500 then
      let n := (off - 0x100) / 0x10
      let c := vget s.hso.ch n
      match off % 0x10 with
      | 0x0 => c.st.num + flag 4 c.inrush
      | 0x4 => hsoFlags s n
      | 0x8 => c.sense.toNat + field 16 c.duty.toNat
      | 0xC => capAt 65535 (c.dt / 10000000) + field 16 c.retries.toNat
      | _ => 0
    else 0

/-- SENSE_MON in mV: the sense of the monitored channel (R274); high-impedance, read as 0 here, while PD_ACT is not On
(R686). -/
def senseMon (s : State) : Nat :=
  if s.isOn .act && s.hso.monEn then
    let c := (vget s.hso.ch s.hso.monCh.toNat).sense.toNat
    if c = 4095 then 4500 else 3300 * c / 4000
  else 0

/-- EDGE_CTRL and EDGE_LIMIT_k as they run (R309): the record of the mode, or the reset value. -/
def edgeCtrl (s : State) : Nat :=
  match s.rec? 6 3 0 with
  | some r => r.f 0 0 6 + field 8 (r.f 0 8 4)
  | none => 0x408
def edgeLimit (s : State) (k : Nat) : Nat :=
  match s.rec? 6 1 k with
  | some r => r.f 0 0 5 + field 8 (r.f 0 8 16)
  | none => 0x04 + field 8 (if k = 0 then 0x258 else 0xC8)

/-- EDGE registers (Tables 7.8 to 7.10). -/
def edgeRead (s : State) (off : Nat) : Nat :=
  match off with
  | 0x000 => edgeCtrl s
  | 0x010 => edgeLimit s 0
  | 0x014 => edgeLimit s 1
  | 0x018 => edgeLimit s 2
  | 0x020 => flag 0 s.edge.overFixed + flag 1 s.edge.overPlan + field 16 s.edge.moves.toNat
  | 0x030 => (vget s.edge.peakR 0).toNat + field 8 (vget s.edge.peakI 0).toNat
  | 0x034 => (vget s.edge.peakR 1).toNat + field 8 (vget s.edge.peakI 1).toNat
  | 0x038 => (vget s.edge.peakR 2).toNat + field 8 (vget s.edge.peakI 2).toNat
  | _ =>
    if 0x100 ≤ off ∧ off < 0x300 then
      let n := (off - 0x100) / 4
      let c := vget s.edge.ch n
      c.phase.toNat + field 13 (s.pinKind n) + flag 15 c.active + field 16 c.period.toNat
    else 0

/-! ## LED, MTX, FIO -/

/-- A string scaled by governor step 2 (R381). -/
def ledLimited (s : State) (n : Nat) : Bool := 2 ≤ s.pwr.govStep && s.recField 9 1 n 1 14 1 0 == 0

/-- Applied current of a string in mA (R381): set current by gain and scale, at least 50 mA. -/
def ledApplied (s : State) (n : Nat) : Nat :=
  let c := vget s.led.ch n
  max 50 (c.iSet.toNat * c.gain.toNat * (if ledLimited s n then 7 else 10) / 40960)

/-- LED_MEAS_n: zero of an off string, 0x3FF of one at fault, otherwise measured (Table 10.12, R386). -/
def ledMeas (s : State) (n : Nat) : Nat :=
  let c := vget s.led.ch n
  match c.st with
  | .retry => 0x3FF
  | .latched => 0x3FF
  | .off => 0
  | .shed => 0
  | _ => Config.analog (0xA0090104 + 0x10 * n) s.clk.ns % 1024
      + field 16 (Config.analog (0xA0090104 + 0x10 * n + 1) s.clk.ns % 4096)

/-- LED_FLAG_n (Table 10.12). -/
def ledFlags (s : State) (n : Nat) : Nat :=
  let c := vget s.led.ch n
  flag 0 c.isOpen + flag 1 c.shortLed + flag 2 c.oc + flag 3 c.nbr + flag 4 c.ot + flag 5 (ledLimited s n)

/-- The gains are held under R405: governor step 2 or above, or a matrix that is blank or latched. -/
def colourHeld (s : State) : Bool := 2 ≤ s.pwr.govStep || s.mtx.blank || s.mtx.latched

/-- LED registers (Tables 10.11 and 10.12). -/
def ledReadReg (s : State) (off : Nat) : Nat :=
  match off with
  | 0x000 => s.led.x.toNat + field 16 s.led.y.toNat
  | 0x004 => s.led.lum.toNat
  | 0x008 => flag 0 s.led.run + flag 1 (s.led.run && colourHeld s) + flag 2 s.led.saturated + flag 3 s.led.sensorFail
      + field 16 s.led.steps.toNat
  | 0x010 => (vget s.led.gain 0).toNat
  | 0x014 => (vget s.led.gain 1).toNat
  | 0x018 => (vget s.led.gain 2).toNat
  | _ =>
    if 0x100 ≤ off ∧ off < 0x1C0 then
      let n := (off - 0x100) / 0x10
      match off % 0x10 with
      | 0x0 => (vget s.led.ch n).st.num + field 16 (vget s.led.ch n).dim.toNat
      | 0x4 => ledMeas s n
      | 0x8 => ledFlags s n
      | _ => 0
    else 0

/-- A swap is armed, or queued in Weave (Table 10.13, PENDING). -/
def swapPending (s : State) : Bool :=
  s.mtx.armed.isSome || s.weave.queue.any (fun e => match e.host with | some (_, .mtxSwap _) => true | _ => false)

/-- MTX registers (Table 10.13). -/
def mtxRead (s : State) (off : Nat) : Nat :=
  match off with
  | 0x000 => flag 0 s.mtx.front + flag 1 (swapPending s) + flag 2 s.mtx.syncLost + flag 3 s.mtx.blank
      + flag 4 s.mtx.latched + field 16 s.mtx.frames.toNat
  | 0x004 => s.mtx.rowOc.toNat
  | 0x008 => s.mtx.nbr.toNat % 2 ^ 32
  | 0x00C => s.mtx.nbr.toNat / 2 ^ 32
  | 0x010 => s.mtx.isOpen.toNat % 2 ^ 32
  | 0x014 => s.mtx.isOpen.toNat / 2 ^ 32
  | 0x018 => Config.analog 0xA00A0018 s.clk.ns % 8192 + field 16 (Config.analog 0xA00A0019 s.clk.ns % 1024)
  | _ => 0

/-- Function of a field pin in the current mode (R416). -/
def fioFunc (s : State) (n : Nat) : Nat := s.recField 11 1 n 0 0 2 0

/-- The pin reads active or CLOSED. -/
def fioActive (s : State) (n : Nat) : Bool :=
  fioFunc s n == 1 && ((vget s.fio.ch n).inSt == 1 || (vget s.fio.ch n).inSt == 4)

/-- FIO_STAT_n (Table 11.9). -/
def fioStat (s : State) (n : Nat) : Nat :=
  let c := vget s.fio.ch n
  let f := fioFunc s n
  let st := match f with | 0 => 0 | 1 => c.inSt.toNat | _ => c.outSt.toNat
  let i := if f = 1 then c.meas.toNat
    else if f = 0 ∨ c.duty = 0 then 0 else Config.analog (0xA00B0100 + 8 * n) s.clk.ns % 4096
  st + field 4 f + field 16 i

/-- FIO_FLAG_n (Table 11.9). -/
def fioFlags (s : State) (n : Nat) : Nat :=
  let c := vget s.fio.ch n
  flag 0 c.limit + flag 1 c.ot + flag 2 c.broken + flag 3 c.openLoad

/-- FIO registers (Tables 11.8 and 11.9). -/
def fioRead (s : State) (off : Nat) : Nat :=
  match off with
  | 0x000 => ((List.range 32).map (fun n => flag n (fioActive s n))).sum
  | 0x004 => ((List.range 16).map (fun k => flag k (fioActive s (32 + k)))).sum
  | 0x008 => s.fio.wakeSrc.toNat
  | _ =>
    if 0x100 ≤ off ∧ off < 0x280 then
      if off % 8 = 0 then fioStat s ((off - 0x100) / 8) else if off % 8 = 4 then fioFlags s ((off - 0x100) / 8) else 0
    else 0

/-! ## VLV, FACET -/

/-- VLV_BST_CTRL.SET as it runs, in 0.1 V, clamped to 240–580 (Table 8.12). -/
def bstSet (s : State) : Nat := clamp 240 580 (s.recField 7 3 0 0 0 10 0x1E0)

/-- VLV_BST_CTRL.READY as it runs, in per cent, clamped to 50–100. -/
def bstReadyPct (s : State) : Nat := clamp 50 100 (s.recField 7 3 0 0 16 7 0x5A)

/-- VLV_BST_CTRL.EN as it runs. -/
def bstEnabled (s : State) : Bool := s.recField 7 3 0 0 24 1 0 == 1

/-- VLV_DEFER.MAX as it runs, in µs. -/
def deferMax (s : State) : Nat := s.recField 7 3 0 1 0 10 0x12C

/-- BST is at or above READY per cent of the set-point (R317): 10 mV units against 0.1 V units. -/
def bstReady (s : State) : Bool := bstReadyPct s * bstSet s * 10 ≤ s.vlv.bst.toNat * 100

/-- VLV_STAT_n.STATE (Table 8.14). -/
def vlvState (s : State) (n : Nat) : Nat :=
  let c := vget s.vlv.ch n
  match c.st with
  | .latched => 5
  | .stb => 6
  | x => if c.wait.isSome then 2 else match x with | .running => 1 | .held => 3 | .orphan => 4 | _ => 0

/-- The current code of a channel (R324): 16 383 while it or its bank is latched or it is in short-to-battery hold, else
measured while it carries current. -/
def vlvCur (s : State) (n : Nat) : Nat :=
  let c := vget s.vlv.ch n
  if c.st == .latched || c.st == .stb || (vget s.vlv.bank (n / 4)).latched then 16383
  else if c.st == .inactive then 0
  else capAt 12000 (Config.analog (0xA0070104 + 0x10 * n) s.clk.ns)

/-- VLV_STAT_n. -/
def vlvStat (s : State) (n : Nat) : Nat :=
  vlvState s n + field 4 (vget s.vlv.ch n).profile.toNat + field 9 (vget s.facet.ctx n).phase.toNat
    + flag 12 (vget s.vlv.ch n).noClaim

/-- VLV_FLAG_n. -/
def vlvFlags (s : State) (n : Nat) : Nat :=
  let c := vget s.vlv.ch n
  flag 0 c.oc + flag 1 c.openOn + flag 2 c.openOff + flag 3 c.stb + flag 4 c.bnr + flag 5 c.deferOut + flag 6 c.pullin
    + flag 7 c.noMove + flag 8 c.bankFault

/-- State of a bank switch (R314). -/
def bankState (b : VlvBank) : Nat := if b.claim.isSome then 2 else if b.closed then 1 else 0

/-- VLV registers (Tables 8.12 to 8.14). -/
def vlvRead (s : State) (off : Nat) : Nat :=
  match off with
  | 0x000 => bstSet s + field 16 (bstReadyPct s) + flag 24 (bstEnabled s)
  | 0x004 => deferMax s
  | 0x008 => s.vlv.bst.toNat + flag 16 (bstReady s) + flag 17 (4 ≤ s.pwr.govStep) + flag 18 s.vlv.reverse
      + flag 19 s.vlv.ov + flag 20 s.vlv.capFault
  | 0x00C => s.vlv.cEst.toNat + field 12 s.vlv.esrEst.toNat
  | _ =>
    if 0x020 ≤ off ∧ off < 0x040 then
      let b := vget s.vlv.bank ((off - 0x020) / 4)
      bankState b + flag 2 b.latched + field 3 (b.claim.getD 0) + flag 8 b.claim.isSome + field 9 (capAt 7 b.queue.length)
        + field 16 (if b.closed then Config.analog (0xA0070000 + off) s.clk.ns % 65536 else 0)
    else if 0x100 ≤ off ∧ off < 0x300 then
      let n := (off - 0x100) / 0x10
      match off % 0x10 with
      | 0x0 => vlvStat s n
      | 0x4 => vlvCur s n
      | 0x8 => vlvFlags s n
      | 0xC => (vget s.vlv.ch n).starts.toNat + field 16 (vget s.vlv.ch n).waits.toNat
      | _ => 0
    else 0

/-- Program that a bank of an engine holds. -/
def FEng.bankOf (e : FEng) (b : Bool) : Option Prog := if b then e.bank1 else e.bank0

/-- A context of engine `e` that runs from bank `b`. -/
def ctxOnBank (s : State) (e : Nat) (b : Bool) : Bool :=
  (List.range 4).any (fun c => let x := vget s.facet.ctx (4 * e + c); x.wait != .idle && x.bank == b)

/-- FACET registers (Tables 9.20 and 9.21). -/
def facetRead (s : State) (off : Nat) : Nat :=
  if off < 0x80 then
    let e := vget s.facet.eng (off / 0x10)
    let p := (e.bankOf e.active).getD {}
    match off % 0x10 with
    | 0x0 => flag 0 (e.bankOf e.active).isSome + flag 1 e.active + flag 2 (ctxOnBank s (off / 0x10) (!e.active))
        + flag 3 e.fault + field 16 p.progId.toNat
    | 0x4 => p.pcrc.toNat
    | 0x8 => e.checks.toNat
    | 0xC => p.length.toNat + field 16 p.constBase.toNat
    | _ => 0
  else if 0x100 ≤ off ∧ off < 0x300 then
    let c := vget s.facet.ctx ((off - 0x100) / 0x10)
    match off % 0x10 with
    | 0x0 => c.pc.toNat + flag 10 c.bank + flag 11 c.timedOut + field 12 c.wait.num
    | 0x4 => c.report.toNat
    | 0x8 => flag 0 c.runaway + flag 1 c.peakTime + flag 2 c.user + flag 3 c.progStop + field 8 c.userCode.toNat
    | 0xC => c.target.toNat + field 14 c.decay.toNat + field 16 c.freq.toNat + field 23 c.mix.toNat
    | _ => 0
  else 0

/-! ## CAN and NET -/

/-- CAN_CTRL_n as it runs (Table 12.15). -/
def canCtrl (s : State) (n : Nat) : Nat := s.recField 12 1 n 0 0 32 0x000A1010

/-- The channel is enabled in the current mode (EN). -/
def State.canEnabled (s : State) (n : Nat) : Bool := bitAt (canCtrl s n) 0

/-- CAN_STAT_n (Table 12.17). -/
def canStat (s : State) (n : Nat) : Nat :=
  let c := vget s.can.ch n
  c.conf.toNat + flag 2 c.alone + flag 3 c.muted + field 4 c.xcvr.toNat + flag 6 c.sched + field 8 (capAt 255 c.tec)
    + field 16 (capAt 255 c.rcv) + field 24 c.tdcv.toNat

/-- CAN_ERR_n (Table 12.17). -/
def canErr (s : State) (n : Nat) : Nat :=
  let c := vget s.can.ch n
  c.lec.toNat + field 8 c.ackRun.toNat + field 16 c.boCount.toNat

/-- Matrix rows NCYC of the channel's CAN_SCHED record, 1 where none applies. -/
def State.schedRows (s : State) (n : Nat) : Nat := s.recField 12 3 n 0 0 4 0 + 1

/-- CAN registers (Tables 12.15 to 12.18). -/
def canRead (s : State) (off : Nat) : Nat :=
  let n := off / 0x1000
  let c := vget s.can.ch n
  if 0xA000 ≤ off then
    if off < 0xA020 then
      let f := vget s.can.cf ((off - 0xA000) / 4)
      f.addr.toNat + field 8 f.ch.toNat + field 12 f.st.toNat
    else 0
  else
    match off % 0x1000 with
    | 0x000 => canCtrl s n
    | 0x004 => s.recField 12 1 n 1 0 32 0x04894403
    | 0x008 => s.recField 12 1 n 2 0 32 0x00991C00
    | 0x00C => if 8 ≤ n then s.recField 12 1 n 3 0 32 0x00000100 else 0
    | 0x010 => s.recField 12 1 n 4 0 32 0x00001E01
    | 0x020 => canStat s n
    | 0x024 => canErr s n
    | 0x028 => c.queue.length + field 8 (((List.range 3).map (fun b => flag b (vget c.tb b).isSome)).sum)
        + field 16 c.noMatch.toNat
    | 0x02C => c.cycle % s.schedRows n + field 4 c.window + field 16 c.missed.toNat
    | _ => 0

/-- T_SLEEP of a bus in ns (Table 13.6). -/
def State.netSleep (s : State) (n : Nat) : Nat := s.recField 13 1 n 0 8 8 50 * 100000000

/-- Sources that hold a bus now (R499). -/
def holders (s : State) (n : Nat) : List NetSrc :=
  (vget s.net.bus n).srcs.filter (fun x => s.clk.ns < x.last + s.netSleep n)

/-- The sole holder of a bus in a hold run, and the device time since which it holds alone (R499): the latest of the
run's start, its own first keep-alive and the instant the last other source aged out. -/
def soleHold (s : State) (n : Nat) : Option (BitVec 29 × Nat) :=
  let b := vget s.net.bus n
  match b.runAt, holders s n with
  | some r, [x] =>
    some (x.key, (b.srcs.filter (fun y => y.key != x.key)).foldl (fun t y => max t (y.last + s.netSleep n)) (max r x.since))
  | _, _ => none

/-- NET_STATE_n (Table 13.11). -/
def netState (s : State) (n : Nat) : Nat :=
  let b := vget s.net.bus n
  b.st.num + flag 2 b.need + field 3 b.wakePat.toNat + field 6 b.wakeCause.toNat
    + field 16 (match b.lastKa with | some t => capAt 0xFFFF ((s.clk.ns - t) / 100000000) | none => 0)

/-- NET_BAR_n (Table 13.11). -/
def netBar (s : State) (n : Nat) : Nat :=
  let b := (vget s.net.bus n).bars
  (match b.getLast? with | some k => k.toNat | none => 0) + field 29 b.length

/-- NET registers (Tables 13.10 and 13.11). -/
def netRead (s : State) (off : Nat) : Nat :=
  let mask (p : NetBus → Bool) : Nat := ((List.range 10).map (fun n => flag n (p (vget s.net.bus n)))).sum
  match off with
  | 0x000 => mask (fun b => b.st == .asleep || b.st == .standby) + field 10 (mask (fun b => b.st == .ready))
      + field 20 (mask (fun b => b.need))
  | 0x004 => s.net.wakeSrc.toNat
  | _ =>
    if 0x100 ≤ off ∧ off < 0x1A0 then
      let n := (off - 0x100) / 0x10
      match off % 0x10 with
      | 0x0 => netState s n
      | 0x4 => (match (vget s.net.bus n).runAt with | some t => capAt 0xFFFF ((s.clk.ns - t) / 1000000000) | none => 0)
          + field 16 (match soleHold s n with | some (_, t) => capAt 0xFFFF ((s.clk.ns - t) / 1000000000) | none => 0)
      | 0x8 => match soleHold s n with | some (k, _) => k.toNat + flag 31 true | none => 0
      | 0xC => netBar s n
      | _ => 0
    else 0

/-! ## ETH and PLAIT -/

/-- ETH registers (Table 14.17). The counters of FCS errors and drops are measured quantities. -/
def ethRead (s : State) (off : Nat) : Nat :=
  let p := vget s.eth.port (off / 0x10)
  match off with
  | 0x100 => Config.eui.toNat % 2 ^ 32
  | 0x104 => Config.eui.toNat / 2 ^ 32
  | 0x108 => s.recField 14 2 0 0 0 32 0x001E0002
  | _ =>
    if off < 0x40 then
      match off % 0x10 with
      | 0x0 => s.recField 14 1 (off / 0x10) 0 0 32 0
      | 0x4 => flag 0 p.link + field 1 p.sqi.toNat + field 16 p.downs.toNat
      | 0x8 => Config.analog (0xA00E0000 + off) s.clk.ns % 2 ^ 32
      | _ => 0
    else 0

/-- Attribute of a page of a worker's window (R528): its PLAIT_PAGE record, else the default of its region. -/
def pageAttr (s : State) (w page : Nat) : Nat :=
  match s.plaitRec 3 (512 * w + page) with
  | some r => r.f 0 0 4
  | none =>
    match s.plaitRec 2 w with
    | some r => if page < 128 then r.f 0 0 4 else if page < 256 then r.f 0 4 4 else r.f 0 8 4
    | none => 0

/-- PLAIT_ROLE.ROLE (Table 14.15). -/
def State.roleNum (s : State) : Nat :=
  if s.plait.isolated then 3 else match s.role with | .standalone => 0 | .worker => 1 | .manager => 2

/-- PLAIT registers (Tables 14.15 and 14.16). -/
def plaitRead (s : State) (off : Nat) : Nat :=
  let p := s.plait
  match off with
  | 0x000 => s.pwr.strap.toNat + field 2 s.roleNum + field 4 s.workerNum + field 16 (s.plaitField 0 8 8 0)
      + flag 24 (s.role == .worker && (vget p.link 0).up)
  | 0x004 => p.mgr.toNat % 2 ^ 32
  | 0x008 => p.mgr.toNat / 2 ^ 32
  | 0x00C => s.plaitField 2 0 28 0x00532814
  | 0x010 => ((List.range 32).map (fun w => flag w (vget p.link w).up)).sum
  | 0x014 => p.errStatus.toNat + field 8 p.errWorker.toNat + flag 13 p.errWrite + flag 14 p.errValid
  | 0x018 => p.errAddr.toNat
  | 0x01C => p.patPage.toNat + field 16 p.patWorker.toNat
  | 0x020 => pageAttr s p.patWorker.toNat p.patPage.toNat
  | 0x024 => p.rdb.toNat % 2 ^ 32
  | 0x028 => p.rdb.toNat / 2 ^ 32 + flag 8 p.rdbReg
  | 0x02C => p.aper.toNat
  | 0x030 => p.pLost.toNat + field 16 p.tunDrop.toNat
  | 0x034 => p.resendRounds.toNat + field 16 p.cplLost.toNat
  | _ =>
    if 0x084 ≤ off ∧ off < 0x100 then (vget p.link ((off - 0x080) / 4)).rpend.toNat
    else if 0x104 ≤ off ∧ off < 0x180 then
      let l := vget p.link ((off - 0x100) / 4)
      flag 0 l.up + field 1 l.hops.toNat + field 8 l.lastApplied.toNat + field 16 l.rtt.toNat
    else 0

/-! ## ACC and UPD -/

/-- A lock-out is in force (R566). -/
def State.lockedOut (s : State) : Bool := s.acc.lock.isSome

/-- A field of the ACC_CFG record of the mode. -/
def State.accField (s : State) (k lo width : Nat) : Nat := s.recField 16 1 0 k lo width 0

/-- ACC_STATUS (Table 15.9). -/
def accStatus (s : State) : Nat :=
  let poll := if s.lockedOut then 4 else if s.acc.search.isSome then 3
    else if s.pwr.mode == .guard then (if s.acc.slow then 2 else 1) else 0
  poll + flag 3 s.acc.session.isSome + field 4 (s.acc.session.getD 0) + flag 7 s.acc.updLock
    + field 8 (((List.range 8).map (fun k => flag k (vget s.acc.tok k).paired)).sum)
    + flag 16 s.acc.released + flag 17 s.acc.radioFault + field 18 (s.accField 0 2 4 &&& s.acc.antOk.toNat)

/-- ACC_LOCK (Table 15.9). -/
def accLock (s : State) : Nat :=
  s.acc.fails.length % 8 + field 3 s.acc.level.toNat + flag 6 s.lockedOut
    + field 16 (match s.acc.lock with | some (_, e) => (e - s.clk.ns + 999999999) / 1000000000 % 2 ^ 14 | none => 0)

/-- ACC registers (Tables 15.9 and 15.10). -/
def accRead (s : State) (off : Nat) : Nat :=
  match off with
  | 0x000 => accStatus s
  | 0x004 => accLock s
  | 0x008 => s.acc.relCnt.toNat
  | 0x00C => if s.pwr.mode == .guard then (s.clk.ns - s.acc.guardAt) / 60000000000 % 2 ^ 15 else 0
  | _ =>
    if 0x100 ≤ off ∧ off < 0x180 then
      let k := (off - 0x100) / 0x10
      let t := vget s.acc.tok k
      match off % 0x10 with
      | 0x0 => flag 0 t.paired + flag 1 (k == 0 && t.paired)
      | 0x4 => t.serial.toNat
      | 0x8 => t.dist.toNat + flag 12 t.inZone
          + field 16 (match t.seenAt with | some x => capAt 0xFFFF ((s.clk.ns - x) / 1000000000) | none => 0xFFFF)
      | _ => 0
    else 0

/-- Ground speed in units of 1/256 km/h, 0xFFFF when unknown (R646): a CAN signal that is no older than 1 s, the pulses of
the last second, or without a source 0 while KL15 is off. -/
def updSpeed (s : State) : Nat :=
  match s.recField 19 1 0 0 0 2 0 with
  | 1 => match s.upd.speedAt with
    | some t => if s.clk.ns < t + sec then s.upd.speed.toNat else 0xFFFF
    | none => 0xFFFF
  | 2 =>
    let f := (s.upd.pulses.filter (fun t => s.clk.ns < t + sec)).length
    capAt 0xFFFE (360 * 256 * f / max 1 (s.recField 19 1 0 3 0 16 1))
  | _ => if s.kl15On then 0xFFFF else 0

/-- UPD registers (Table 18.12). -/
def updRead (s : State) (off : Nat) : Nat :=
  let b := s.upd.boot
  match off with
  | 0x000 => s.upd.stage.toNat + flag 3 b.active + flag 4 b.trial + flag 5 b.fellBack + flag 6 b.fbValid
      + flag 7 b.loupeMedia + flag 8 s.upd.migrating + field 16 s.nor.landed.length
  | 0x004 => b.version.toNat
  | 0x008 => b.fbVersion.toNat
  | 0x00C => s.nor.bootMarks + field 8 s.nor.timeMarks + field 16 b.fbCause.toNat
  | 0x010 => b.sfmt.toNat + field 16 s.upd.oldSfmt.toNat
  | 0x014 => s.upd.refuse.toNat + field 16 (updSpeed s)
  | 0x018 => b.seq.toNat
  | _ => 0


/-- First address of the set-up registers (Table 21.1). -/
def regBase : Nat := 0xA0000000

/-- Block of a register address (R710). -/
def blockOfAddr (a : Nat) : Nat := (a - regBase) / 0x10000

/-- What a read of a register returns; an offset that no table names reads 0 (R715). -/
def regValue (s : State) (addr : Nat) : Nat :=
  let off := (addr - regBase) % 0x10000
  match blockOfAddr addr with
  | 0 => sysRead s off
  | 1 => pwrRead s off
  | 2 => weaveRead s off
  | 3 => ringRead s off
  | 4 => cfgRead s off
  | 17 => bezelRead s off
  | 18 => loupeRead s off
  | 20 => adcRead s off
  | 21 => eccRead s off
  | 5 => hsoRead s off
  | 6 => edgeRead s off
  | 9 => ledReadReg s off
  | 10 => mtxRead s off
  | 11 => fioRead s off
  | 7 => vlvRead s off
  | 8 => facetRead s off
  | 12 => canRead s off
  | 13 => netRead s off
  | 14 => ethRead s off
  | 15 => plaitRead s off
  | 16 => accRead s off
  | 19 => updRead s off
  | _ => 0

end Sys2Proof.Machine
end

