-- ==== Sys2Proof/Machine/Bridge.lean ====
section
/-! DEFINITION. Sending over the Plait bridge: sequence numbers, acknowledgements, credits and the passing rules
(R513 to R525). -/

namespace Sys2Proof.Machine

/-- Something is sent to the outside. -/
def State.send (s : State) (o : Out) : State := { s with out := s.out ++ [o] }

/-- The link with an index: a worker's link at the manager, or the manager's at index 0 of a worker. -/
def State.plink (s : State) (w : Nat) : PLink := vget s.plait.link w

/-- A link changed. -/
def State.modLink (s : State) (w : Nat) (f : PLink → PLink) : State := { s with plait.link := vmod s.plait.link w f }

/-- The link is UP. -/
def State.linkUp (s : State) (w : Nat) : Bool := (s.plink w).up

/-- Data credits that a payload uses: 32 bytes each, or part of 32 (R522). -/
def dataCredits (n : Nat) : Nat := (n + 31) / 32

/-- Enough credits of the frame's class remain, fewer than 2048 frames are unacknowledged, and no more than four NPs are
outstanding (R516, R523, R524). -/
def PLink.mayCredit (l : PLink) (f : PlaitFrame) : Bool :=
  let n := dataCredits f.payload.length
  l.unacked.length < 2048 &&
    match f.cls.toNat with
    | 0 => 1 ≤ l.crPH && n ≤ l.crPD
    | 1 => 1 ≤ l.crNP && l.nps.length < 4 + (l.waiting.filter (fun f => f.cls == 1)).length
    | 3 => 1 ≤ l.crMH && n ≤ l.crMD
    | _ => true

/-- A later transaction may pass an earlier one of these classes (Table 14.6). -/
def mayPass (later earlier : Nat) : Bool :=
  match later, earlier with
  | 0, 0 => false
  | 0, _ => true
  | 1, 0 => false
  | 1, 1 => false
  | 1, _ => true
  | 2, 0 => false
  | 2, 2 => false
  | 2, _ => true
  | _, 0 => false
  | _, 3 => false
  | _, _ => true

/-- The first waiting frame that has its credits and passes only what it may, with the frames that stay. -/
def nextToSend (l : PLink) : List PlaitFrame → List PlaitFrame → Option (PlaitFrame × List PlaitFrame)
  | _, [] => none
  | before, f :: fs =>
    if l.mayCredit f && before.all (fun e => mayPass f.cls.toNat e.cls.toNat) then some (f, before ++ fs)
    else nextToSend l (before ++ [f]) fs

/-- Classes P, NP, CPL and MSG are reliable (R516). -/
def plaitReliable (f : PlaitFrame) : Bool := f.cls.toNat ≤ 3

/-- The header fields a frame carries when it leaves: addresses, SEQ, ACK and freed credits (Table 14.3). -/
def State.stamp (s : State) (w : Nat) (f : PlaitFrame) : PlaitFrame :=
  let l := s.plink w
  let me := if s.role == .worker then s.workerNum else 0
  { f with src := BitVec.ofNat 5 me, dst := BitVec.ofNat 5 w, seq := if plaitReliable f then l.txSeq else 0, ack := l.rxSeq,
           pH := l.frPH, pD := l.frPD, npH := l.frNP, msgH := l.frMH, msgD := l.frMD }

/-- A frame leaves: it takes its SEQ and its credits and is kept until acknowledged. -/
def plaitEmit (s : State) (w : Nat) (f : PlaitFrame) : State :=
  let g := s.stamp w f
  let n := dataCredits f.payload.length
  let s := s.modLink w (fun l =>
    if plaitReliable f then
      { l with txSeq := l.txSeq + 1, unacked := l.unacked ++ [g],
               crPH := if f.cls == 0 then l.crPH - 1 else l.crPH, crPD := if f.cls == 0 then l.crPD - n else l.crPD,
               crNP := if f.cls == 1 then l.crNP - 1 else l.crNP,
               crMH := if f.cls == 3 then l.crMH - 1 else l.crMH, crMD := if f.cls == 3 then l.crMD - n else l.crMD,
               nps := if f.cls == 1 then l.nps.map (fun o => if o.tag == f.tag then { o with at_ := s.clk.ns } else o)
                      else l.nps }
    else l)
  s.send (.plait w g)

/-- Waiting frames leave while credits last. -/
def plaitPumpN (s : State) (w : Nat) : Nat → State
  | 0 => s
  | n + 1 =>
    match nextToSend (s.plink w) [] (s.plink w).waiting with
    | none => s
    | some (f, rest) => plaitPumpN (plaitEmit (s.modLink w (fun l => { l with waiting := rest })) w f) w n

/-- Waiting frames leave while credits last. -/
def plaitPump (s : State) (w : Nat) : State := plaitPumpN s w (s.plink w).waiting.length

/-- A reliable transaction is handed to a link; nothing is sent on a link that is DOWN. -/
def plaitSend (s : State) (w : Nat) (f : PlaitFrame) : State :=
  if s.linkUp w then plaitPump (s.modLink w (fun l => { l with waiting := l.waiting ++ [f] })) w else s

/-- MSG of a kind with its payload (Table 14.9). -/
def plaitMsg (s : State) (w kind : Nat) (payload : List (BitVec 8)) (fleetId : BitVec 8 := 0) : State :=
  plaitSend s w { cls := 3, kind := BitVec.ofNat 4 kind, len := BitVec.ofNat 9 payload.length, fleetId := fleetId,
                  payload := payload }

/-- An NP is sent: its tag pairs it with its CPL (R524). A read asks for `len` bytes; a write carries its bytes. -/
def plaitNp (s : State) (w : Nat) (o : NpOut) (bytes : List (BitVec 8)) : State :=
  let t := (s.plink w).nextTag
  let s := s.modLink w (fun l => { l with nextTag := l.nextTag + 1, nps := l.nps ++ [{ o with tag := t }] })
  plaitSend s w { cls := 1, kind := if o.write then 1 else 0, pref := o.pref, addr := BitVec.ofNat 36 o.offset,
                  len := BitVec.ofNat 9 (if o.write then bytes.length else o.len), tag := t, payload := bytes }

/-- A posted write of up to 256 bytes. -/
def plaitPost (s : State) (w : Nat) (addr : Nat) (bytes : List (BitVec 8)) : State :=
  plaitSend (s.modLink w (fun l => { l with pSent := l.pSent + 1 })) w
    { cls := 0, addr := BitVec.ofNat 36 addr, len := BitVec.ofNat 9 bytes.length, payload := bytes }

/-- Bytes written to the manager's memory in posted writes of 256 bytes at most (R543). -/
def remotePutN (s : State) (addr : Nat) (bytes : List (BitVec 8)) : Nat → State
  | 0 => s
  | n + 1 =>
    if bytes.isEmpty then s else remotePutN (plaitPost s 0 addr (bytes.take 256)) (addr + 256) (bytes.drop 256) n

/-- Bytes written to the manager's memory. -/
def remotePut (s : State) (addr : Nat) (bytes : List (BitVec 8)) : State := remotePutN s addr bytes (bytes.length / 256 + 1)

/-- A worker forwards an event of a block of FWD_MASK to its manager (R538); without a link it is dropped (R519). -/
def forwardEvent (s : State) (code : Nat) (d0 d1 : BitVec 32) : State :=
  if s.role == .worker && bitAt (s.plaitField 1 0 22 0) (code / 256) then
    plaitMsg s 0 0 (bytesOf 4 code ++ bytesOf 4 d0.toNat ++ bytesOf 4 d1.toNat)
  else s

end Sys2Proof.Machine
end

