-- ==== Sys2Proof/Machine/Events.lean ====
section
/-! DEFINITION. Logging an event: the block vector, the worker's EVENT message, the Bezel log and the Loupe triggers
(R174, R538, R605, R612 to R616). -/

namespace Sys2Proof.Machine

/-! ## The Bezel log -/

/-- Events that Bezel enters in its log: those of the BEZEL and PWR blocks (R605) and those that another chapter names
(R632, Table 18.10). -/
def bezelLogs (code : Nat) : Bool :=
  code / 256 == 0x11 || code / 256 == 0x01 || [0x1204, 0x1205, 0x1304, 0x1306, 0x1309].contains code

/-- A new entry of the Bezel log; a full log loses its oldest entry (R604). -/
def bezelAppend (s : State) (code : Nat) (d0 d1 : BitVec 32) : State :=
  let e : BzEntry :=
    { seq := s.bezel.logSeq + 1, event := BitVec.ofNat 16 code, mode := BitVec.ofNat 4 s.pwr.mode.num,
      time := s.weave.time, boot := s.bezel.boot, data0 := d0, data1 := d1 }
  let l := s.bezel.log ++ [e]
  { s with bezel.log := l.drop (l.length - 32), bezel.logSeq := s.bezel.logSeq + 1,
           bezel.logHead := s.bezel.logHead + 1 }

/-! ## The part of an event that triggers nothing -/

/-- Block vector `b` is raised (R176). -/
def raiseBlock (s : State) (b : Nat) : State := { s with rings.blkPend := setBit s.rings.blkPend b true }

/-- An event without its Loupe triggers: the block vector while PD_SVC is On (R174; no record of this spec binds a
local event to an EVT ring), a worker's EVENT message (R538), and the Bezel log (R605). -/
def logBase (s : State) (code : Nat) (data : List Nat) : State :=
  let d0 := Config.eventData0 code data
  let d1 := Config.eventData1 code data
  let s := if s.isOn .svc then raiseBlock s (code / 256) else s
  let s := if bezelLogs code && s.isOn .bezel then bezelAppend s code d0 d1 else s
  forwardEvent s code d0 d1

/-! ## Loupe -/

/-- Bytes a record of `n` snapshot words occupies (R618). -/
def loupeSize (n : Nat) : Nat := 32 * ((32 + 4 * n + 31) / 32)

/-- Bytes of the 64 KiB staging area in use (R625). -/
def stagedBytes (l : List LoupeStaged) : Nat := (l.map (fun r => loupeSize r.words.length)).sum

/-- A missed record (R627). -/
def loupeMiss (s : State) : State := { s with loupe.missed := satInc s.loupe.missed }

/-- The snapshot words of a set: each register's value, or 0xFFFF_FFFF with FILLER where its domain is not On
(R615, R616). -/
def snapshot (s : State) : List Nat → List (BitVec 32) × Bool
  | [] => ([], false)
  | a :: as =>
    let r := snapshot s as
    if s.isOn (blockDom (blockOfAddr a)) then (BitVec.ofNat 32 (regValue s a) :: r.1, r.2)
    else (0xFFFFFFFF#32 :: r.1, true)

/-- The record that trigger `t` makes now (Table 17.2). -/
def loupeRecord (s : State) (t set : Nat) : LoupeStaged :=
  let addrs := match s.rec? 18 2 set with
    | some r => (List.range (r.f 0 0 5)).map (fun i => r.w (i + 1))
    | none => []
  let snap := snapshot s addrs
  { boot := s.bezel.boot.setWidth 16, setCount := s.weave.setCount, weave := s.weave.time,
    wall := s.weave.time + s.weave.wall, trig := t, valid := s.weave.wallValid, coarse := s.weave.coarse,
    snap := set, synced := s.synced, filler := snap.2, words := snap.1, steps := s.weave.stepCount.setWidth 8 }

/-- The record of a trigger that matched: suppressed in HOLDOFF (R614), missed when recording has stopped or staging
is full (R625, R627, R631), otherwise staged. The Bool says whether it was staged. -/
def loupeStage (s : State) (t : Nat) (r : Rec) : Bool × State :=
  if s.loupe.holdoff.getLsbD t then (false, { s with loupe.supp := s.loupe.supp + 1 })
  else if s.loupe.full || s.loupe.fault then (false, loupeMiss s)
  else
    let x := loupeRecord s t (r.f 1 0 5)
    if 65536 < stagedBytes s.loupe.staged + loupeSize x.words.length then
      let s' := loupeMiss s
      (false, if s.loupe.missRun then s'
              else logBase { s' with loupe.missRun := true } 0x1207 [s'.loupe.missed.toNat])
    else
      (true, { s with loupe.staged := s.loupe.staged ++ [x], loupe.missRun := false,
                      loupe.holdoff := if r.f 1 16 16 = 0 then s.loupe.holdoff else setBit s.loupe.holdoff t true })

/-- A trigger of KIND 0 that matches an event (R612). -/
def trigMatches (r : Rec) (code : Nat) : Bool :=
  r.f 1 8 2 == 0 && (code &&& r.f 0 16 16) == (r.f 0 0 16 &&& r.f 0 16 16)

/-- Every trigger in number order that an event matches makes its record (R613). Loupe records while PD_SVC is On
(R611, R636), and its own events match nothing (R612). -/
def loupeTriggers (s : State) (code : Nat) : State :=
  if code / 256 = 0x12 || !s.isOn .svc then s
  else (List.range 64).foldl (fun s t =>
    match s.rec? 18 1 t with
    | some r => if trigMatches r code then (loupeStage s t r).2 else s
    | none => s) s

/-- An event: its code and the quantities its data holds, in the order of its event table. -/
def logEvent (s : State) (code : Nat) (data : List Nat) : State := loupeTriggers (logBase s code data) code

end Sys2Proof.Machine
end

