-- ==== Sys2Proof/Machine/Memory.lean ====
section
/-! DEFINITION. Reads and writes of host memory with the outcomes of the W256 code: corrections, uncorrectable words,
read-modify-write (R33 to R37, Table 1.7) and their reports (R728 to R730). -/

namespace Sys2Proof.Machine

/-- Who found an uncorrectable error (ECC_UE_HI_k.FINDER). -/
inductive Finder where
  | read | rmw | scrubber
  deriving DecidableEq, Repr

/-- The FINDER code. -/
def Finder.code : Finder → BitVec 2
  | .read => 0 | .rmw => 1 | .scrubber => 2

/-- An uncorrectable word is counted, entered in the address log and logged (R729, R730); Bezel logs that it does not
escalate (R599). -/
def reportUe (s : State) (w : Nat) (finder : Finder) (fold : Bool) : State :=
  let a := w * 32
  let i := s.ecc.next.toNat
  let e : UeEntry := { addr := BitVec.ofNat 36 a, finder := finder.code, fold := fold, valid := true }
  let s := { s with
    ecc.ovf := s.ecc.ovf || (vget s.ecc.log i).valid,
    ecc.log := vset s.ecc.log i e,
    ecc.next := s.ecc.next + 1,
    ecc.ueDram := if inDram a then satInc s.ecc.ueDram else s.ecc.ueDram,
    ecc.ueSram := if inDram a then s.ecc.ueSram else satInc s.ecc.ueSram,
    ecc.ueFold := if fold then satInc s.ecc.ueFold else s.ecc.ueFold }
  logEvent (logEvent s 0x1502 [a, finder.code.toNat]) 0x1106 [finder.code.toNat, 1]

/-- A corrected word is written back and counted (Table 1.7, R729). -/
def correctWord (s : State) (w : Nat) : State :=
  { s with
    mem := s.mem.clearFault w,
    ecc.ceDram := if inDram (w * 32) then satInc s.ecc.ceDram else s.ecc.ceDram,
    ecc.ceSram := if inDram (w * 32) then s.ecc.ceSram else satInc s.ecc.ceSram,
    ecc.ceSince := s.ecc.ceSince + 1 }

/-- One read of a W256 word (Table 1.7): the Bool says whether data is delivered. -/
def readWord (s : State) (w : Nat) (finder : Finder) : Bool × State :=
  match s.mem.faultOf w with
  | none => (true, s)
  | some .single => (true, correctWord s w)
  | some .double => (false, reportUe s w finder false)
  | some .fold => (false, reportUe s w finder true)

/-- Words read in order until the first uncorrectable one, whose number is answered. -/
def readWords (s : State) : List Nat → Option Nat × State
  | [] => (none, s)
  | w :: ws =>
    let r := readWord s w .read
    if r.1 then readWords r.2 ws else (some w, r.2)

/-- `n` bytes read from an address by the device: the bytes, or the byte offset of the first uncorrectable 32-byte
word (R162). -/
def readMem (s : State) (a n : Nat) : (Nat ⊕ List (BitVec 8)) × State :=
  let r := readWords s (wordSpan a n)
  match r.1 with
  | some w => (.inl (w * 32 - a), r.2)
  | none => (.inr (r.2.mem.bytes a n), r.2)

/-- Bytes written into one word: a whole word clears its fault, part of a word is a read-modify-write that is not
performed on an uncorrectable word (R34, R164). The Bool says whether it was performed. -/
def writeWord (s : State) (a : Nat) (bs : List (BitVec 8)) : Bool × State :=
  let w := a / 32
  if bs.length = 32 ∧ a % 32 = 0 then (true, { s with mem := (s.mem.clearFault w).store a bs })
  else
    let r := readWord s w .rmw
    if r.1 then (true, { r.2 with mem := r.2.mem.store a bs }) else (false, r.2)

/-- Bytes written from an address up, word by word, stopping at a word that cannot be merged: the number of bytes
written (R182), with `fuel` words at most. -/
def writeMemFrom (fuel : Nat) (s : State) (a : Nat) (bs : List (BitVec 8)) (done : Nat) : Nat × State :=
  match fuel with
  | 0 => (done, s)
  | fuel + 1 =>
    match bs with
    | [] => (done, s)
    | _ =>
      let k := 32 - a % 32
      let r := writeWord s a (bs.take k)
      if r.1 then writeMemFrom fuel r.2 (a + k) (bs.drop k) (done + (bs.take k).length) else (done, r.2)

/-- Bytes written from an address up: how many were written. -/
def writeMem (s : State) (a : Nat) (bs : List (BitVec 8)) : Nat × State :=
  writeMemFrom (bs.length / 32 + 2) s a bs 0

/-- Contents of DRAM, SRAM and their code bits are lost (R44). -/
def discardMem (s : State) : State := { s with mem := {} }

end Sys2Proof.Machine
end

