-- ==== Sys2Proof/Machine/Complete.lean ====
section
/-! DEFINITION. Completion entries, event entries and inbound items written into rings, with ring vectors and
moderation (R163 to R176, R179 to R182), and the wake a write to memory in self-refresh starts (R61, R184). -/

namespace Sys2Proof.Machine

/-! ## Status codes (Table 4.7) -/

def stOk : Nat := 0x00
def stLate : Nat := 0x01
def stCancelled : Nat := 0x02
def stCancelTooLate : Nat := 0x03
def stAbortedPower : Nat := 0x04
def stDomainWakeFail : Nat := 0x05
def stCrcControl : Nat := 0x06
def stConflict : Nat := 0x07
def stRefusedState : Nat := 0x08
def stMemUe : Nat := 0x09
def stSizeUnsupported : Nat := 0x0A
def stSideEffectRefused : Nat := 0x0B
def stBankBusy : Nat := 0x0C
def stBoostNotReady : Nat := 0x0D
def stTimeout : Nat := 0x0E
def stNoAck : Nat := 0x0F
def stLockedOut : Nat := 0x10
def stCheckFailed : Nat := 0x11
def stWorkerUnreachable : Nat := 0x12
def stFaultChannel : Nat := 0x13
def stRingOverrun : Nat := 0x14

/-! ## Rings -/

/-- Ring `n` changed. -/
def State.modRing (s : State) (n : Nat) (f : Ring → Ring) : State :=
  { s with rings.ring := vmod s.rings.ring n f }

/-- Ring `n`. -/
def State.ringN (s : State) (n : Nat) : Ring := vget s.rings.ring n

/-- Entries of a ring, N = 2^SIZE (R141). -/
def Ring.n (r : Ring) : Nat := 2 ^ r.size.toNat

/-- Slot of a ring index (R150). -/
def Ring.slot (r : Ring) (i : BitVec 16) : Nat := i.toNat % r.n

/-- The fields of a completion or event entry (Table 4.6) but RING and PHASE. -/
structure Entry where
  status : Nat := 0
  opcode : Nat := 0
  block : Nat := 0
  index : Nat := 0
  detail : Nat := 0
  tag : Nat := 0
  time : Nat := 0
  r0 : Nat := 0
  r1 : Nat := 0
  deriving DecidableEq, Repr

/-- The 32 bytes of an entry (Table 4.6): PHASE is 1 on even passes, and the CRC covers bytes 0 to 27. -/
def Entry.bytes (e : Entry) (ring written n : Nat) : List (BitVec 8) :=
  let phase := if written / n % 2 = 0 then 1 else 0
  let b := bytesOf 4 (e.status % 256 + field 8 (e.opcode % 256) + field 16 (e.block % 256) + field 24 (ring % 128)
              + field 31 phase)
    ++ bytesOf 4 (e.index % 4096 + field 16 (e.detail % 65536))
    ++ bytesOf 4 e.tag ++ bytesOf 8 e.time ++ bytesOf 4 e.r0 ++ bytesOf 4 e.r1
  b ++ bytesOf 4 (crc32c b).toNat

/-- A wake of a domain starts, or the one that runs is shared (R61). -/
def startWake (s : State) (d : Dom) (target : DomState) : State :=
  if (s.domCtl d).waking.isSome then s else s.modDom d (fun c => { c with waking := some target })

/-- A ring vector is raised (R175, R176); that of a REMOTE ring also goes to the manager as an IRQ (R543). -/
def raiseRing (s : State) (n : Nat) : State :=
  let s := { s with rings.irqPend := setBit s.rings.irqPend n true }
  let s := s.modRing n (fun r => { r with unsignalled := 0 })
  if (s.ringN n).remote then plaitMsg s 0 1 (bytesOf 4 n) else s

/-- A completion counts towards the ring's moderation and may raise its vector (R175). -/
def moderate (s : State) (n : Nat) (irq : Bool) : State :=
  let s := s.modRing n (fun r =>
    { r with unsignalled := r.unsignalled + 1, firstAt := if r.unsignalled = 0 then s.clk.ns else r.firstAt })
  let r := s.ringN n
  if irq || r.modTime == 0 || (r.modCount != 0 && r.modCount.toNat ≤ r.unsignalled) then raiseRing s n else s

/-- An entry is written into the next slot of a ring's completion area in one transaction (R164). It is not written at
all while PD_SVC is not On or the memory that holds the area has no supply (R69); in self-refresh the write waits for
the memory's wake (R184). -/
def postEntry (s : State) (n : Nat) (e : Entry) (irq : Bool) : State :=
  let r := s.ringN n
  let a := r.cbase.toNat + r.written.toNat % r.n * 32
  let bs := e.bytes n r.written.toNat r.n
  let count (s : State) : State := moderate (s.modRing n (fun r => { r with written := r.written + 1 })) n irq
  if !s.isOn .svc then s
  else if r.remote then
    if s.linkUp 0 then count (remotePut s a bs) else { s with plait.cplLost := s.plait.cplLost + 1 }
  else if !inDram a || s.isOn .mem then count { s with mem := (s.mem.clearFault (a / 32)).store a bs }
  else if s.domSt .mem == .off || (s.domCtl .mem).dead then s
  else count (startWake { s with rings.stalled := s.rings.stalled ++ [⟨a, bs⟩] } .mem .on)

/-- The completion of an outstanding descriptor: the first call for a descriptor writes its one entry (R166), a later
one finds it gone and writes nothing. -/
def complete (s : State) (d : Desc) (status detail time r0 r1 : Nat) : State :=
  match (s.ringN d.ring).outs.find? (fun o => o.d.index == d.index) with
  | none => s
  | some o =>
    let s := s.modRing d.ring (fun r => { r with outs := r.outs.filter (fun x => x.d.index != d.index) })
    postEntry s d.ring
      { status := status, opcode := o.opcode, block := o.block, index := (s.ringN d.ring).slot d.index,
        detail := detail, tag := d.tag.toNat, time := time, r0 := r0, r1 := r1 } d.irq

/-- A descriptor becomes outstanding (R166). -/
def outstand (s : State) (d : Desc) (block opcode : Nat) : State :=
  s.modRing d.ring (fun r => { r with outs := r.outs ++ [⟨d, block, opcode⟩] })

/-- The descriptor still waits for its completion. -/
def isOut (s : State) (d : Desc) : Bool := (s.ringN d.ring).outs.any (fun o => o.d.index == d.index)

/-- An action that a block has carried out: OK, or LATE for a late launch, with TIME under R112 and R165. -/
def finish (s : State) (a : Act) (detail : Nat := 0) (r0 : Nat := 0) (r1 : Nat := 0) : State :=
  complete s a.d (if a.late then stLate else stOk) detail (if a.fired then a.time.toNat else s.weave.time.toNat) r0 r1

/-- An action that ends with another status although it acted: TIME as for `finish`. -/
def finishAs (s : State) (a : Act) (status : Nat) (detail : Nat := 0) (r0 : Nat := 0) (r1 : Nat := 0) : State :=
  complete s a.d status detail (if a.fired then a.time.toNat else s.weave.time.toNat) r0 r1

/-- An action that was not carried out: TIME 0 for a launch (R165). -/
def refuse (s : State) (a : Act) (status : Nat) (detail : Nat := 0) (r0 : Nat := 0) (r1 : Nat := 0) : State :=
  complete s a.d status detail (if a.fired then 0 else s.weave.time.toNat) r0 r1

/-- Weave time at which a fired action's event lies: its due time, or of a late launch the fire tick and stage delay. -/
def Act.instant (a : Act) : Nat := if a.late then a.time.toNat else a.d.due.toNat

/-! ## Event rings (R181) -/

/-- Free entries of an EVT ring. -/
def Ring.space (r : Ring) : Nat := r.n - (r.written - r.cci).toNat

/-- A lost item or event is counted (Table 4.19, LOST saturates; R180, R181). -/
def loseItem (s : State) (n : Nat) : State :=
  s.modRing n (fun r => { r with lost := satInc r.lost, lostPending := r.lostPending + 1 })

/-- A run of losses is reported: event 0x0306 with the ring and the count (R180, R181). -/
def reportLoss (s : State) (n : Nat) : State :=
  logEvent (s.modRing n (fun r => { r with lostPending := 0 })) 0x0306 [n, (s.ringN n).lostPending]

/-- An event entry (R181): dropped and counted when the area is full or the ring is not enabled. A run of losses is
reported by one RING_OVERRUN entry before the first entry that finds space. -/
def postEvent (s : State) (n : Nat) (block code time d0 d1 : Nat) : State :=
  let r := s.ringN n
  if !r.enable || r.space = 0 then loseItem s n
  else
    let s := if r.lostPending = 0 then s
      else reportLoss (postEntry s n
        { status := stRingOverrun, block := 3, time := s.weave.time.toNat, r1 := r.lostPending } false) n
    if (s.ringN n).space = 0 then loseItem s n
    else postEntry s n { status := stOk, block := block, detail := code, time := time, r0 := d0, r1 := d1 } false

/-! ## Inbound items (R179 to R182) -/

/-- Bytes put into host memory for a descriptor's ring, the manager's memory for a REMOTE one (R543): how many were
written. -/
def putBytes (s : State) (ring : Fin 128) (a : Nat) (bs : List (BitVec 8)) : Nat × State :=
  if (s.ringN ring).remote then (bs.length, remotePut s a bs) else writeMem s a bs

/-- An inbound item fills the oldest posted buffer of an RX ring and completes it, or is dropped and counted. The
completion carries the source block, its source tag and the item's receive timestamp. -/
def inbound (s : State) (n : Nat) (block detail time : Nat) (item : List (BitVec 8)) : State :=
  let r := s.ringN n
  match r.posted with
  | [] => loseItem s n
  | d :: rest =>
    if !r.enable then loseItem s n
    else
      let s := s.modRing n (fun r => { r with posted := rest })
      let len := d.payLen.toNat
      let put := item.take len
      let w := putBytes s d.ring d.payAddr.toNat put
      let cut := if len < item.length then 1 else 0
      let status := if w.1 < put.length then stMemUe else if r.lostPending = 0 then stOk else stRingOverrun
      let s := w.2.modRing n (fun r =>
        { r with outs := r.outs.map (fun o => if o.d.index == d.index then { o with block := block, opcode := 0 } else o) })
      let s := if r.lostPending = 0 then s else reportLoss s n
      complete s d status detail time (w.1 + field 31 (if status = stMemUe then 0 else cut)) r.lostPending

end Sys2Proof.Machine
end

