-- ==== Sys2Proof/Machine/Stage.lean ====
section
/-! DEFINITION. What Weave needs to know of each command: its stage delay (Table 3.2), its group in the firing order
(R116), the channels it names (R117) and whether it reads a payload (R162). -/

namespace Sys2Proof.Machine

/-- Stage delay of one high-side channel, turning on or off (Table 3.2). -/
def hsoStage (on : Bool) (ch : Nat) : Nat :=
  if ch < 8 then (if on then 28000 else 18000)
  else if ch < 32 then (if on then 22000 else 14000)
  else if on then 12000 else 8000

/-- Stage delay of a launch in ns (Table 3.2). A switch that leaves its channel off is a turn-off. An HSO_MULTI acts on
one tick, so it takes the longest delay of its channels. Commands that the table does not name have none. -/
def stageDelay : HostCmd → Nat
  | .hsoSet ch st d => hsoStage (st != 0 && (st == 1 || d != 0)) ch.toNat
  | .hsoMulti m st d => (maskList m).foldl (fun x ch => max x (hsoStage (st != 0 && (st == 1 || d != 0)) ch)) 0
  | .vlvStart .. | .vlvMulti .. => 9600
  | .ledSet .. | .ledMulti .. => 6000
  | .mtxSwap .. => 2000
  | .fioSet .. | .fioMulti .. => 4000
  | .canTx .. => 400
  | _ => 0

/-- Firing group of R116, lowest first. -/
def fireGroup : HostCmd → Nat
  | .commit .. | .fleetCommit .. => 1
  | .modeSet .. => 2
  | .canTx .. => 3
  | _ => 4

/-- The channels a launch names, by block: high-side, valve, LED and field output channels (R117). -/
def namedChannels : HostCmd → Nat × List Nat
  | .hsoSet ch .. => (5, [ch.toNat])
  | .hsoMulti m .. => (5, maskList m)
  | .vlvStart ch .. => (7, [ch.toNat])
  | .vlvMulti m .. => (7, maskList m)
  | .vlvStop ch => (7, [ch.toNat])
  | .ledSet ch .. => (9, [ch.toNat])
  | .ledMulti m .. => (9, maskList m)
  | .fioSet ch .. => (11, [ch.toNat])
  | .fioMulti m .. => (11, maskList m)
  | _ => (0, [])

/-- Two commands name a channel in common (R117). -/
def shareChannel (a b : HostCmd) : Bool :=
  let x := namedChannels a
  let y := namedChannels b
  x.1 == y.1 && x.2.any (fun c => y.2.contains c)

/-- The block reads the payload before it acts (R162). The others have none, fill it, or read it under rules of their
own (CONFIG_LOAD under R733). -/
def readsPayload : HostCmd → Bool
  | .rxPost | .configExport | .bezelLogRead | .setRead .. | .loupeRead .. | .configLoad => false
  | .plaitCopy _ dir _ => dir == 0
  | _ => true

end Sys2Proof.Machine
end

