-- ==== Sys2Proof/WellFormed.lean ====
section
/-! DEFINITION. Well-formedness of a host command: the part of check 4 of Table 4.5 that its descriptor alone decides
(operand ranges, use of the due time, payload alignment and length). A descriptor that breaks it completes
BAD_FIELD. -/

namespace Sys2Proof

/-- Host-usable memory holds a 32-byte-aligned word address (R731). -/
def eccAddrOk (a : Nat) : Bool := a % 32 == 0 && (a < 0x78000000 || (0x80000000 ≤ a && a < 0x80700000))

/-- Each operand lies in its stated range and the payload meets the opcode's rules. -/
def HostCmd.operandsOk (d : Desc) : HostCmd → Bool
  | .modeSet target => target.toNat ≤ 11
  | .perfSet level => level.toNat ≤ 4
  | .domainSet domain _ => domain.toNat ≤ 11
  | .captureArm _ timeout => timeout != 0
  | .rxPost => d.payAddr.toNat % 32 == 0 && 32 ≤ d.payLen.toNat
  | .hsoSet _ _ duty => duty.toNat ≤ 4096
  | .hsoMulti _ _ duty => duty.toNat ≤ 4096
  | .eccInject addr kind => kind.toNat ≤ 2 && eccAddrOk addr.toNat
  | .fioSet ch duty => ch.toNat ≤ 47 && duty.toNat ≤ 4096
  | .fioMulti mask duty => mask.toNat < 2 ^ 48 && duty.toNat ≤ 4096
  | .fioClear ch => ch.toNat ≤ 47
  | .fioRead ch => ch.toNat ≤ 47
  | .ledSet ch _ _ => ch.toNat ≤ 11
  | .ledClear ch => ch.toNat ≤ 11
  | .ledRead ch => ch.toNat ≤ 11
  | .canTx ch fmt _ _ _ _ _ _ _ _ _ _ _ => ch.toNat ≤ 9 && fmt.toNat ≤ 2
  | .canTpTx ch _ _ _ _ => ch.toNat ≤ 9
  | .canMode ch _ _ => ch.toNat ≤ 9
  | .canRecover ch => ch.toNat ≤ 9
  | .canTtWrite ch fmt _ _ _ _ _ => ch.toNat ≤ 9 && fmt.toNat ≤ 2
  | .canAc _ act _ => act.toNat ≤ 2
  | .canRead ch => ch.toNat ≤ 9
  | .netRead ch => ch.toNat ≤ 9
  | .accPair _ => d.payLen.toNat = 20
  | .accTakeover => d.payLen.toNat = 28
  | .accRelKey => d.payLen.toNat = 20
  | .accSearch reason => reason.toNat = 1 || reason.toNat = 2
  | .loupeRead _ => d.payLen.toNat ≤ 65536
  | .updOemKey => d.payLen.toNat = 64
  | .setWrite _ => d.payLen.toNat ≤ 4096
  | _ => true

/-- The due time is used as the opcode table says: not at all, freely, or always. MODE_SET admits one only with TARGET
Run, Field or Road (R50). -/
def HostCmd.dueOk (d : Desc) (c : HostCmd) : Bool :=
  match c with
  | .modeSet target => d.due == 0 || (6 ≤ target.toNat && target.toNat ≤ 8)
  | .mtxSwap when => d.due == 0 || when == 0
  | c => match c.dueUse with
    | 0 => d.due == 0
    | 1 => true
    | _ => d.due != 0

/-- Check 4 of Table 4.5 as far as the descriptor alone decides it. -/
def HostCmd.wf (d : Desc) (c : HostCmd) : Bool := c.operandsOk d && c.dueOk d

end Sys2Proof
end

