-- ==== Sys2Proof/Machine/Accept.lean ====
section
/-! DEFINITION. Acceptance of a descriptor: checks 4 and 5 of Table 4.5, the state of its block's domain, and entry into
the launch queue under R734. -/

namespace Sys2Proof.Machine

/-- The part of check 4 that depends on the state: RX_POST on an RX ring only (Table 4.11). -/
def stateWf (s : State) (d : Desc) : HostCmd → Bool
  | .rxPost => (s.ringN d.ring).cls == 1
  | _ => true

/-- A descriptor that fails a check of Table 4.5: BLOCK 3, OPCODE 0, and the block and opcode as read in DETAIL
(R160). TIME is 0 for a descriptor with a due time, which does not act (R165). -/
def failCheck (s : State) (d : Desc) (status block opcode : Nat) : State :=
  complete s d status (field 8 block + opcode) (if d.due == 0 then s.weave.time.toNat else 0) 0 0

/-- Before it acts, the payload is read whole; an uncorrectable word completes the descriptor MEM_UE (R162). -/
def runAct (s : State) (d : Desc) (c : HostCmd) (act : Act → State → State) : State :=
  if d.payLen == 0 || !readsPayload c then act { d := d } s
  else if (s.ringN d.ring).remote then act { d := d, payload := d.fetched } s
  else
    let r := readMem s d.payAddr.toNat d.payLen.toNat
    match r.1 with
    | .inl off => complete r.2 d stMemUe 0 r.2.weave.time.toNat off 0
    | .inr bs => act { d := d, payload := bs } r.2

/-- The command reaches DRAM: its payload lies there, or ECC_INJECT names a word there. -/
def usesDram (s : State) (d : Desc) (c : HostCmd) : Bool :=
  (d.payLen != 0 && !(s.ringN d.ring).remote && inDram d.payAddr.toNat) ||
    match c with
    | .eccInject addr _ => inDram addr.toNat
    | _ => false

/-- The domain that a descriptor waits for, if one is lowered: its block's, or PD_MEM when it reaches DRAM. -/
def waitsFor (s : State) (d : Desc) (c : HostCmd) : Option Dom :=
  if !s.isOn (blockDom c.block) then some (blockDom c.block)
  else if usesDram s d c && !s.isOn .mem then some .mem
  else none

/-- A descriptor with no due time reaches its block: at once when the domain is On, after the domain's wake when it is
lowered (R61), not at all when the wake has been given up (R63). -/
def toBlock (s : State) (d : Desc) (c : HostCmd) (act : Act → State → State) : State :=
  match waitsFor s d c with
  | none => runAct s d c act
  | some dom =>
    if (s.domCtl dom).dead then complete s d stDomainWakeFail 0 s.weave.time.toNat 0 0
    else startWake { s with pwr.stalled := s.pwr.stalled ++ [⟨dom, d, c⟩] } dom .on

/-- A late launch is counted and logged (R112). -/
def countLate (s : State) (d : Desc) (acted : Bool) : State :=
  logEvent { s with weave.lateCount := s.weave.lateCount + 1 } 0x0202 [d.ring.val, d.index.toNat, b2n acted]

/-- A queued launch completes CANCELLED without acting. -/
def cancelLaunch (s : State) (e : Launch) (status : Nat) : State :=
  match e.host with
  | some (d, _) => complete s d status 0 0 0 0
  | none => s

/-- The latest tick at or before a Weave time. -/
def tickBefore (t : Nat) : Nat := t - t % 4

/-- The lead under which a launch is late: 50 µs, or 2 ms for COMMIT (R111, R210). -/
def lateLead : HostCmd → Nat
  | .commit .. => 2 * ms
  | _ => 50 * us

/-- FLEET_COMMIT is never carried out late (R224). -/
def neverLate : HostCmd → Bool
  | .fleetCommit .. => true
  | _ => false

/-- The launch enters the queue (case 4 of R734): an earlier launch that names the same channel at the same DUE
completes CANCELLED (R117), and the block's lowered domain is woken (R64). -/
def enterQueue (s : State) (d : Desc) (c : HostCmd) (late : Bool) : State :=
  let clash (e : Launch) : Bool := match e.host with
    | some (_, c') => e.due == d.due && shareChannel c c'
    | none => false
  let s := (s.weave.queue.filter clash).foldl (fun s e => cancelLaunch s e stCancelled) s
  let stage := stageDelay c
  let e : Launch :=
    { host := some (d, c), due := d.due, stage := stage, late := late,
      fire := if late then s.weave.time + 4 else BitVec.ofNat 64 (tickBefore (d.due.toNat - stage)),
      payload := if !readsPayload c then [] else if (s.ringN d.ring).remote then d.fetched
        else s.mem.bytes d.payAddr.toNat d.payLen.toNat }
  let q := s.weave.queue.filter (fun e => !clash e) ++ [e]
  let s := { s with weave.queue := q,
                    weave.peak := if s.weave.peak.toNat < q.length then BitVec.ofNat 11 q.length else s.weave.peak }
  if s.isOn (blockDom c.block) then s else startWake s (blockDom c.block) .on

/-- Acceptance of a descriptor with a due time, in the order of R734. `admits` is the block's own judgement at acceptance
(COMMIT under R218): a status other than OK refuses the launch. -/
def launchAccept (s : State) (d : Desc) (c : HostCmd) (admits : State → Nat) (enter : State → State) : State :=
  let now := s.weave.time.toNat
  if d.syncReq && !s.synced then complete s d stRefusedState 0 0 0 0
  else if now + 600 * sec < d.due.toNat then logEvent (complete s d stRefusedState 0 0 0 0) 0x0207 []
  else if 1024 ≤ s.weave.queue.length then logEvent (complete s d stRefusedState 0 0 0 0) 0x0203 []
  else if admits s ≠ stOk then complete s d (admits s) 0 0 0 0
  else if d.due.toNat < now + lateLead c then
    if d.lateExec && !neverLate c then countLate (enter (enterQueue s d c true)) d true
    else
      -- it holds an entry for the instant of its judgement (R734)
      let s := { s with weave.peak :=
        if s.weave.peak.toNat < s.weave.queue.length + 1 then BitVec.ofNat 11 (s.weave.queue.length + 1) else s.weave.peak }
      countLate (complete s d stLate 0 0 0 0) d false
  else enter (enterQueue s d c false)

/-- The block is disabled: in the empty configuration every block but SYS, PWR, WEAVE, RING, CFG and ECC is (R194). -/
def State.blockDisabled (s : State) (b : Nat) : Bool := s.cfg.empty && !([0, 1, 2, 3, 4, 21].contains b)

/-- A descriptor that has passed the checks of Table 4.5 is accepted: refused where its domain is closed (R67), Off for
the mode (R43), its block disabled (R194) or time is unsynchronised and it asks for it (R104); else a launch goes to Weave and any other
descriptor to its block. -/
def acceptNow (s : State) (d : Desc) (c : HostCmd) (act : Act → State → State)
    (admits : State → Nat) (enter : State → State) : State :=
  let dom := blockDom c.block
  let t0 := if d.due == 0 then s.weave.time.toNat else 0
  if (s.domCtl dom).closed then complete s d stAbortedPower 0 t0 0 0
  else if s.entryNow dom == .off || s.blockDisabled c.block then complete s d stRefusedState 0 t0 0 0
  else if d.due != 0 then launchAccept s d c admits enter
  else if d.syncReq && !s.synced then complete s d stRefusedState 0 t0 0 0
  else toBlock s d c act

/-- A descriptor after checks 1 to 3: check 4 and check 5 of Table 4.5 (R159), a cancel that came before acceptance
(R177), the wait behind a FENCE (R158), then acceptance. -/
def acceptWith (d : Desc) (c : HostCmd) (act : Act → State → State) (admits : State → Nat) (enter : State → State)
    (s : State) : State :=
  let s := outstand s d 3 0
  if !c.wf d || !stateWf s d c then failCheck s d 0x81 c.block c.opcode
  else if d.payLen != 0 && !hostRange d.payAddr.toNat d.payLen.toNat then failCheck s d 0x82 c.block c.opcode
  else
    let s := s.modRing d.ring (fun r =>
      { r with outs := r.outs.map (fun o => if o.d.index == d.index then ⟨d, c.block, c.opcode⟩ else o) })
    let r := s.ringN d.ring
    if r.cancels.contains d.index then
      complete (s.modRing d.ring (fun r => { r with cancels := r.cancels.filter (· != d.index) })) d stCancelled 0 0 0 0
    else if !r.held.isEmpty || (d.fence && 1 < r.outs.length) then
      s.modRing d.ring (fun r => { r with held := r.held ++ [(d, c)], outs := r.outs.filter (fun o => o.d.index != d.index) })
    else acceptNow s d c act admits enter

/-- Acceptance of a command that its block does not judge before its fire tick. -/
def accept (d : Desc) (c : HostCmd) (act : Act → State → State) (s : State) : State :=
  acceptWith d c act (fun _ => stOk) id s

end Sys2Proof.Machine
end

