-- ==== Sys2Proof/Machine/FacetProg.lean ====
section
/-! DEFINITION. Facet programs: the instruction encodings of Table 9.5, the profile table, program images and the load
checks of Table 9.10 (R349 to R352, R369). -/

namespace Sys2Proof.Machine

/-! ## Instructions -/

/-- A Facet instruction as its word spells it (Table 9.5). -/
inductive FOp where
  | nop
  | phase (ph : Nat) (decay : BitVec 2) (mix : BitVec 4)
  | seti (i : Nat)
  | setr (a : Nat)
  | freq (khz : BitVec 7)
  | wait (t : Nat)
  | waitr (a : Nat)
  | wadd (t : Nat)
  | waddr (a : Nat)
  | waitw
  | waitc (i count : Nat) (below reg : Bool) (a : Nat)
  | waits (i count : Nat) (below reg : Bool) (a : Nat)
  | slopew (n : BitVec 7)
  | tmo (t : BitVec 22)
  | movi (a : Nat) (k : BitVec 32)
  | mov (a b : Nat)
  | add (a b : Nat)
  | addi (a : Nat) (k : BitVec 32)
  | sub (a b : Nat)
  | shf (a amt : Nat) (right : Bool)
  | ldc (a addr : Nat)
  | rd (a src : Nat)
  | br (a b cond : Nat) (addr : BitVec 10)
  | fault (kind act : Nat) (code : BitVec 8)
  | rept (a : Nat) (evt : Bool)
  | endp
  deriving DecidableEq, Repr

/-- Opcode, bits [31:26] (R352). -/
def fOpcode (w : Nat) : Nat := bits w 26 6

/-- The instruction that a word spells; opcodes 0x1A to 0x3F are undefined. -/
def facetDecode (w : Nat) : Option FOp :=
  let a := bits w 22 4
  let b := bits w 18 4
  match fOpcode w with
  | 0x00 => some .nop
  | 0x01 => some (.phase (bits w 0 3) (BitVec.ofNat 2 (bits w 4 2)) (BitVec.ofNat 4 (bits w 6 4)))
  | 0x02 => some (.seti (bits w 0 14))
  | 0x03 => some (.setr a)
  | 0x04 => some (.freq (BitVec.ofNat 7 w))
  | 0x05 => some (.wait (bits w 0 22))
  | 0x06 => some (.waitr a)
  | 0x07 => some (.wadd (bits w 0 22))
  | 0x08 => some (.waddr a)
  | 0x09 => some .waitw
  | 0x0A => some (.waitc (bits w 0 14) (bits w 14 4) (bitAt w 20) (bitAt w 21) a)
  | 0x0B => some (.waits (bits w 0 14) (bits w 14 4) (bitAt w 20) (bitAt w 21) a)
  | 0x0C => some (.slopew (BitVec.ofNat 7 w))
  | 0x0D => some (.tmo (BitVec.ofNat 22 w))
  | 0x0E => some (.movi a ((BitVec.ofNat 22 w).signExtend 32))
  | 0x0F => some (.mov a b)
  | 0x10 => some (.add a b)
  | 0x11 => some (.addi a ((BitVec.ofNat 18 w).signExtend 32))
  | 0x12 => some (.sub a b)
  | 0x13 => some (.shf a (bits w 0 5) (bitAt w 5))
  | 0x14 => some (.ldc a (bits w 0 10))
  | 0x15 => some (.rd a (bits w 0 4))
  | 0x16 => some (.br a b (bits w 15 3) (BitVec.ofNat 10 w))
  | 0x17 => some (.fault (bits w 0 2) (bits w 4 2) (BitVec.ofNat 8 (bits w 8 8)))
  | 0x18 => some (.rept a (bitAt w 0))
  | 0x19 => some .endp
  | _ => none

/-- The bits below the opcode that an instruction's fields use (Table 9.5); the others are reserved. -/
def fieldMask (opcode : Nat) : Nat :=
  match opcode with
  | 0x01 => 0x3F7 | 0x02 => 0x3FFF | 0x03 => 0x3C00000 | 0x04 => 0x7F | 0x05 => 0x3FFFFF | 0x06 => 0x3C00000
  | 0x07 => 0x3FFFFF | 0x08 => 0x3C00000 | 0x0A => 0x3F3FFFF | 0x0B => 0x3F3FFFF | 0x0C => 0x7F | 0x0D => 0x3FFFFF
  | 0x0E => 0x3FFFFFF | 0x0F => 0x3FC0000 | 0x10 => 0x3FC0000 | 0x11 => 0x3C3FFFF | 0x12 => 0x3FC0000
  | 0x13 => 0x3C0003F | 0x14 => 0x3C003FF | 0x15 => 0x3C0000F | 0x16 => 0x3FF83FF | 0x17 => 0xFF33
  | 0x18 => 0x3C00001 | _ => 0

/-- Check 2 of Table 9.10 on one word: a defined opcode, reserved bits 0, each field in its range. -/
def facetWordOk (w : Nat) : Bool :=
  w % 2 ^ 26 &&& fieldMask (fOpcode w) == w % 2 ^ 26 &&
  match facetDecode w with
  | some (.phase ph d _) => 1 ≤ ph && ph ≤ 5 && d.toNat ≤ 2
  | some (.seti i) => i ≤ 12000
  | some (.freq k) => 1 ≤ k.toNat && k.toNat ≤ 100
  | some (.wait t) => 1 ≤ t
  | some (.slopew n) => 2 ≤ n.toNat && n.toNat ≤ 64
  | some (.tmo t) => 1 ≤ t.toNat
  | some (.rd _ src) => src ≤ 8
  | some (.br _ _ c _) => c ≤ 6
  | some (.fault k act _) => k ≤ 2 && act ≤ 2
  | some _ => true
  | none => false

/-! ## Programs -/

/-- Word of a program; words from LENGTH on read 0, which is NOP (R349). -/
def Prog.word (p : Prog) (a : Nat) : Nat := (p.words.getD a 0).toNat

/-- Profile table entry (Table 9.3). -/
structure Profile where
  entry : BitVec 10 := 0
  boost : BitVec 10 := 0
  quench : BitVec 10 := 0
  valid : Bool := false
  boostEn : Bool := false
  fallback : Bool := false
  quenchEn : Bool := false
  deriving DecidableEq, Repr, Inhabited

/-- Entry `n` of a program's profile table. -/
def Prog.profile (p : Prog) (n : Nat) : Profile :=
  let a := p.word (2 * n)
  let b := p.word (2 * n + 1)
  { entry := BitVec.ofNat 10 (bits a 0 10), boost := BitVec.ofNat 10 (bits a 10 10),
    quench := BitVec.ofNat 10 (bits a 20 10), valid := bitAt a 31, boostEn := bitAt b 0, fallback := bitAt b 1,
    quenchEn := bitAt b 2 }

/-- PCRC of an image: over header bytes 0 to 11 and every program word (Table 9.4). -/
def imageCrc (bs : List (BitVec 8)) : BitVec 32 := crc32c (bs.take 12 ++ bs.drop 16)

/-- The bytes that PCRC covers, of a program as loaded. -/
def Prog.crcBytes (p : Prog) : List (BitVec 8) :=
  bytesOf 4 0x46455443 ++ bytesOf 4 (p.length.toNat + field 16 p.progId.toNat) ++ bytesOf 4 p.constBase.toNat
    ++ p.words.flatMap (fun w => bytesOf 4 w.toNat)

/-- PCRC as recomputed over a bank (R373). -/
def Prog.crc (p : Prog) : BitVec 32 := crc32c p.crcBytes

/-- The first index from `i` on, below `hi`, at which `bad` holds. -/
def firstBad (bad : Nat → Bool) (i : Nat) : Nat → Option Nat
  | 0 => none
  | n + 1 => if bad i then some i else firstBad bad (i + 1) n

/-- An address lies in the code area. -/
def Prog.inCode (p : Prog) (a : Nat) : Bool := 64 ≤ a && a < p.constBase.toNat

/-- Check 3 fails at a code word: a BR outside the code area, or an LDC outside the constants. -/
def Prog.badAddr (p : Prog) (i : Nat) : Bool :=
  match facetDecode (p.word i) with
  | some (.br _ _ _ a) => !p.inCode a.toNat
  | some (.ldc _ a) => !(p.constBase.toNat ≤ a && a < p.length.toNat)
  | _ => false

/-- Check 4 fails at profile `n`. -/
def Prog.badProfile (p : Prog) (n : Nat) : Bool :=
  let e := p.profile n
  let ph1 := match facetDecode (p.word e.boost.toNat) with | some (.phase ph _ _) => ph == 1 | _ => false
  e.valid && (!p.inCode e.entry.toNat || (e.boostEn && !(p.inCode e.boost.toNat && ph1))
    || (e.quenchEn && !p.inCode e.quench.toNat) || bitAt (p.word (2 * n)) 30 || 8 ≤ p.word (2 * n + 1))

/-- Check 5 fails at profile `n`. -/
def Prog.badEmpty (p : Prog) (n : Nat) : Bool := !(p.profile n).valid && (p.word (2 * n) != 0 || p.word (2 * n + 1) != 0)

/-- The load checks of Table 9.10 in order: the program, or the number of the first failed check and the failing word. -/
def progParse (bs : List (BitVec 8)) : (Nat × Nat) ⊕ Prog :=
  let w (k : Nat) : Nat := (wordAt bs k).toNat
  let p : Prog :=
    { length := BitVec.ofNat 11 (bits (w 1) 0 11), constBase := BitVec.ofNat 11 (bits (w 2) 0 11),
      progId := BitVec.ofNat 16 (bits (w 1) 16 16), pcrc := wordAt bs 3, words := wordsOf (bs.drop 16) }
  let len := p.length.toNat
  let cb := p.constBase.toNat
  if w 0 ≠ 0x46455443 ∨ bits (w 1) 11 5 ≠ 0 ∨ bits (w 2) 11 21 ≠ 0 ∨ len < 64 ∨ 1024 < len ∨ cb < 64 ∨ len < cb
      ∨ bs.length ≠ 16 + 4 * len ∨ imageCrc bs ≠ p.pcrc then .inl (1, 0)
  else match firstBad (fun i => !facetWordOk (p.word i)) 64 (cb - 64) with
    | some i => .inl (2, i)
    | none => match firstBad p.badAddr 64 (cb - 64) with
      | some i => .inl (3, i)
      | none => match firstBad p.badProfile 0 32 with
        | some n => .inl (4, 2 * n)
        | none => match firstBad p.badEmpty 0 32 with
          | some n => .inl (5, 2 * n)
          | none => .inr p

/-- The program that a FACET_PROG record's body holds. -/
def Rec.prog (r : Rec) : Option Prog :=
  match progParse (r.body.flatMap (fun w => bytesOf 4 w.toNat)) with
  | .inr p => some p
  | .inl _ => none

end Sys2Proof.Machine
end

