-- ==== Sys2Proof/Machine/Plan.lean ====
section
/-! DEFINITION. The edge planner's plan: slots, edges and their weights, scores, placement, moves and the checks of a
frame (R285 to R300, R304, R305). -/

namespace Sys2Proof.Machine

/-! ## Slots (R285) -/

/-- Start of a slot counted from Weave time 0: the latest tick at or before slot × 4 882.8125 ns. -/
def slotStart (a : Nat) : Nat := a * 78125 / 16 / 4 * 4

/-- The slot that contains a Weave time. -/
def slotOf (t : Nat) : Nat :=
  let a := t * 16 / 78125
  if slotStart (a + 1) ≤ t then a + 1 else a

/-- The present slot and frame. -/
def State.nowSlot (s : State) : Nat := slotOf s.weave.time.toNat
def State.nowFrame (s : State) : Nat := s.weave.time.toNat / 5000000

/-- P of a period code in ns. -/
def periodNs (code : Nat) : Nat := 312500 * 2 ^ code

/-- On-time of a duty code out of 4096, to the nearest 20 ns (R240). -/
def onTime20 (duty code : Nat) : Nat := (duty * periodNs code + 40960) / 81920 * 20

/-- On-time of a DIM code out of 4095, to the nearest 10 ns; codes 1 to 3 are taken as 4 (R382). -/
def onTime10 (dim code : Nat) : Nat :=
  let d := if dim = 0 then 0 else if dim < 4 then 4 else dim
  (2 * d * periodNs code + 40950) / 81900 * 10

/-! ## Planner channels (R286, R287, R290) -/

/-- Feed pair of a planner index (Table 7.1). -/
def pairOf (i : Nat) : Nat := if i < 8 then 0 else if i < 32 then 1 else if i < 64 then 2 else if i < 76 then 1 else 2

/-- Weight of a channel in 10 mA units (R290). -/
def State.weight (s : State) (i : Nat) : Nat :=
  let w := s.recField 6 2 i 0 0 16 0
  if w ≠ 0 then w
  else if i < 64 then s.recField 5 1 i 0 0 16 0
  else if i < 76 then 100 else 50

/-- The phase at which a pinned channel starts (R302). -/
def State.pinPhase (s : State) (i : Nat) : Option Nat :=
  let c := vget s.edge.ch i
  if c.launch then some c.phase.toNat else
  match c.host with
  | some p => some p.toNat
  | none => s.recordPin i

/-- EDGE_MAX of a feed pair as it runs; 0 is taken as 1 (Table 7.8). -/
def State.edgeMax (s : State) (k : Nat) : Nat := max 1 (s.recField 6 1 k 0 0 5 4)

/-- I_MAX of a feed pair as it runs, in 10 mA units; 0 is taken as 1. -/
def State.iMax (s : State) (k : Nat) : Nat := 10 * max 1 (s.recField 6 1 k 0 8 16 (if k = 0 then 0x258 else 0xC8))

/-- MAX_MOVE, MOVES_MAX and VALVE_W as they run (Tables 7.4 and 7.8). -/
def State.maxMove (s : State) : Nat := max 1 (s.recField 6 3 0 0 0 6 8)
def State.movesMax (s : State) : Nat := s.recField 6 3 0 0 8 4 4
def State.valveW (s : State) : Nat := s.recField 6 3 0 1 0 16 1000

/-! ## Edges -/

/-- An edge in a frame. -/
structure FEdge where
  pair : Nat
  slot : Nat
  rising : Bool
  weight : Nat
  deriving DecidableEq, Repr

/-- The edges in one frame of a channel with phase `p`: on edges at p and every period after it, off edges at the slots
that contain the end of the on-time; a period longer than a frame counts once in every frame (R288, R289). -/
def periodEdges (pair weight p code onNs : Nat) : List FEdge :=
  if onNs = 0 ∨ periodNs code ≤ onNs then []
  else
    let off := slotOf (slotStart p + onNs)
    let n := if 4 ≤ code then 1 else 1024 / periodSlots code
    (List.range n).flatMap (fun j =>
      [⟨pair, (p + j * periodSlots code) % 1024, true, weight⟩,
       ⟨pair, (off + j * periodSlots code) % 1024, false, weight⟩])

/-- The edges of planner channel `i` as it stands. -/
def State.chanEdges (s : State) (i : Nat) : List FEdge :=
  let c := vget s.edge.ch i
  if c.active then periodEdges (pairOf i) (s.weight i) c.phase.toNat c.period.toNat c.onNs else []

/-- Periodic edges of the channels that satisfy `f`. -/
def State.periodic (s : State) (f : Nat → Bool) : List FEdge :=
  ((List.range 128).filter f).flatMap s.chanEdges

/-- The edge of a queued launch that leaves its channel Off or On, and of a queued valve start (R293): its slot is that
of DUE. -/
def launchShot (s : State) (e : Launch) : List OneShot :=
  let one (i : Nat) (on : Bool) : OneShot :=
    { pair := pairOf i, slot := slotOf e.due.toNat, rising := on, weight := s.weight i }
  let valve : OneShot := { pair := 2, slot := slotOf e.due.toNat, rising := true, weight := s.valveW }
  match e.host with
  | some (_, .hsoSet ch st d) =>
    if st = 0 ∨ (2 ≤ st.toNat ∧ d = 0) then [one ch.toNat false]
    else if st = 1 ∨ d = 4096 then [one ch.toNat true] else []
  | some (_, .hsoMulti m st d) =>
    if st = 0 ∨ (2 ≤ st.toNat ∧ d = 0) then (maskList m).map (fun i => one i false)
    else if st = 1 ∨ d = 4096 then (maskList m).map (fun i => one i true) else []
  | some (_, .fioSet ch d) =>
    if d = 0 then [one (80 + ch.toNat) false] else if d = 4096 then [one (80 + ch.toNat) true] else []
  | some (_, .fioMulti m d) =>
    if d = 0 then (maskList m).map (fun i => one (80 + i) false)
    else if d = 4096 then (maskList m).map (fun i => one (80 + i) true) else []
  | some (_, .ledSet ch d _) =>
    if d = 0 then [one (64 + ch.toNat) false] else if d = 4095 then [one (64 + ch.toNat) true] else []
  | some (_, .ledMulti m _ d) =>
    if d = 0 then (maskList m).map (fun i => one (64 + i) false)
    else if d = 4095 then (maskList m).map (fun i => one (64 + i) true) else []
  | some (_, .vlvStart ..) => [valve]
  | some (_, .vlvMulti m ..) => (maskList m).map (fun _ => valve)
  | _ => []

/-- Every one-shot edge that the planner knows of. -/
def State.shots (s : State) : List OneShot := s.edge.oneShots ++ s.weave.queue.flatMap (launchShot s)

/-- The one-shot edges of a frame that satisfy `f`. -/
def State.shotEdges (s : State) (frame : Nat) (f : OneShot → Bool) : List FEdge :=
  ((s.shots.filter f).filter (fun o => o.slot / 1024 == frame)).map (fun o => ⟨o.pair, o.slot % 1024, o.rising, o.weight⟩)

/-- R_s and I_s of a slot (R289). -/
def slotCount (es : List FEdge) (k slot : Nat) : Nat × Nat :=
  let e := es.filter (fun e => e.pair == k && e.slot == slot)
  ((e.filter (fun e => e.rising)).length, (e.map (fun e => e.weight)).sum)

/-! ## Scores (R294) -/

/-- max(R / EDGE_MAX, I / I_MAX) as a fraction: its numerator over EDGE_MAX × I_MAX. -/
def State.slotScore (s : State) (es : List FEdge) (k slot : Nat) : Nat × Nat :=
  let c := slotCount es k slot
  (max (c.1 * s.iMax k) (c.2 * s.edgeMax k), s.edgeMax k * s.iMax k)

/-- One fraction is lower than another. -/
def fracLt (a b : Nat × Nat) : Bool := a.1 * b.2 < b.1 * a.2

/-- The highest slot score over the slots that `add` occupies, with `add` included. -/
def State.score (s : State) (base add : List FEdge) : Nat × Nat :=
  add.foldl (fun m e => let x := s.slotScore (base ++ add) e.pair e.slot; if fracLt m x then x else m) (0, 1)

/-- Distance of two slots modulo 1024. -/
def slotDist (a b : Nat) : Nat := let d := (a + 1024 - b % 1024) % 1024; min d (1024 - d)

/-- The least distance from any edge of `add` to any edge of `base` on the same feed pair; 1024 where there is none. -/
def nearest (base add : List FEdge) : Nat :=
  add.foldl (fun m e => base.foldl (fun m b => if b.pair == e.pair then min m (slotDist e.slot b.slot) else m) m) 1024

/-- A better candidate: a lower score, or the same score with edges that lie farther away. -/
def better (a b : (Nat × Nat) × Nat) : Bool := fracLt a.1 b.1 || (!fracLt b.1 a.1 && b.2 < a.2)

/-- The slot that R294 chooses among `cands` for a change whose edges at slot a are `edges a`, counted against every
channel but those in `own`, with its score. -/
def State.choose (s : State) (own : List Nat) (edges : Nat → List FEdge) (cands : List Nat) : Nat × (Nat × Nat) :=
  let per := s.periodic (fun i => !own.contains i)
  let r := cands.foldl (fun (b : Option (Nat × ((Nat × Nat) × Nat))) a =>
    let base := per ++ s.shotEdges (a / 1024) (fun _ => true)
    let v := (s.score base (edges a), nearest base (edges a))
    match b with
    | none => some (a, v)
    | some (a', v') => if better v v' then some (a, v) else some (a', v')) none
  match r with
  | some (a, v) => (a, v.1)
  | none => (s.nowSlot + 2, (0, 1))

/-- The candidates of R294 from a slot on: 2 to 1023 slots after acceptance. -/
def State.candidates (s : State) (from_ : Nat) : List Nat :=
  let now := s.nowSlot
  let c := ((List.range 1022).map (fun j => now + 2 + j)).filter (fun a => from_ ≤ a)
  if c.isEmpty then [from_] else c

/-! ## Limits (R304, R305) -/

/-- Fixed edges of a frame on every feed pair (R293). -/
def State.fixedEdges (s : State) (frame : Nat) : List FEdge :=
  s.periodic (fun i => s.pinKind i != 0) ++ s.shotEdges frame (fun o => o.chan.isNone)

/-- The first slot of a list in which the edges exceed a limit. -/
def State.overSlot (s : State) (es : List FEdge) (k : Nat) : Option Nat :=
  (es.filter (fun e => e.pair == k)).foldl (fun (b : Option Nat) e =>
    let c := s.slotScore es k e.slot
    if c.2 < c.1 then (match b with | some x => some (min x e.slot) | none => some e.slot) else b) none

/-- R304 for one feed pair: an excess of fixed edges is flagged, and logged at its onset. At a frame check an excess that
has ended is forgotten. -/
def fixedCheck1 (frame : Nat) (atFrame : Bool) (s : State) (k : Nat) : State :=
  let es := s.fixedEdges frame
  match s.overSlot es k with
  | some slot =>
    let s := { s with edge.overFixed := true }
    if vget s.edge.fixedOn k then s
    else
      let c := slotCount es k slot
      logEvent { s with edge.fixedOn := vset s.edge.fixedOn k true } 0x0601 [k, slot, c.1, c.2]
  | none => if atFrame then { s with edge.fixedOn := vset s.edge.fixedOn k false } else s

/-- R304 on every feed pair. -/
def fixedCheck (s : State) (frame : Nat) (atFrame : Bool) : State := [0, 1, 2].foldl (fixedCheck1 frame atFrame) s

/-- A planner channel changed. -/
def State.modP (s : State) (i : Nat) (f : PChan → PChan) : State := { s with edge.ch := vmod s.edge.ch i f }

/-- R305: an unpinned edge of channel `i` stays over a limit in a slot. -/
def overPlan (s : State) (i slot : Nat) : State :=
  let s := { s with edge.overPlan := true }
  if (vget s.edge.ch i).excess then s else logEvent (s.modP i (fun c => { c with excess := true })) 0x0602 [i, slot]

/-! ## Moves (R297 to R300) -/

/-- Class minimum on-time and off-time of a planner channel in ns (Tables 6.2 and 11.3). -/
def minTime (i : Nat) : Nat :=
  if i < 8 then 40000 else if i < 32 then 30000 else if i < 64 then 20000 else if i < 76 then 0 else 20000

/-- Phases within ±MAX_MOVE, the nearest first and the later of two before the earlier; an earlier phase only where the
shortened off-time stays long enough (R300). -/
def State.moveCands (s : State) (i : Nat) : List Int :=
  let c := vget s.edge.ch i
  let off := periodNs c.period.toNat - c.onNs
  (0 : Int) :: (List.range s.maxMove).flatMap (fun (j : Nat) =>
    let m : Int := (j : Int) + 1
    if minTime i ≤ off - (j + 1) * 78125 / 16 then [m, -m] else [m])

/-- A phase moved by a number of slots. -/
def movePhase (p code : Nat) (m : Int) : Nat := (((p : Int) + m) % (periodSlots code : Int)).toNat

/-- The move of R298 for one channel, for a coming frame. -/
def moveChan (s : State) (frame i : Nat) : State :=
  let c := vget s.edge.ch i
  let base := s.periodic (fun j => j != i) ++ s.shotEdges frame (fun _ => true)
  let add (m : Int) := periodEdges (pairOf i) (s.weight i) (movePhase c.phase.toNat c.period.toNat m) c.period.toNat c.onNs
  let best := (s.moveCands i).foldl (fun (b : Option (Int × (Nat × Nat))) m =>
    let v := s.score base (add m)
    match b with
    | none => some (m, v)
    | some (m', v') => if fracLt v v' then some (m, v) else some (m', v')) none
  let m := match best with | some (m, _) => m | none => 0
  let s := { s with edge.tried := s.edge.tried ++ [i] }
  if m = 0 then s
  else
    let s := s.modP i (fun c => { c with phase := BitVec.ofNat 13 (movePhase c.phase.toNat c.period.toNat m) })
    { s with edge.moves := satInc s.edge.moves, edge.moved := s.edge.moved + 1 }

/-- The untried unpinned channel with an edge in a slot that has the lowest weight, ties to the lowest index. -/
def State.moveNext (s : State) (k slot : Nat) : Option Nat :=
  ((List.range 128).filter (fun i => s.pinKind i == 0 && !s.edge.tried.contains i && pairOf i == k
      && (s.chanEdges i).any (fun e => e.slot == slot))).foldl (fun (b : Option Nat) i =>
    match b with
    | none => some i
    | some j => if s.weight i < s.weight j then some i else some j) none

/-- One slot is cleared as far as R298 and R299 allow. -/
def clearSlot (frame k slot : Nat) : Nat → State → State
  | 0, s => s
  | n + 1, s =>
    let es := s.periodic (fun _ => true) ++ s.shotEdges frame (fun _ => true)
    let c := s.slotScore es k slot
    if c.1 ≤ c.2 ∨ s.movesMax ≤ s.edge.moved then s
    else match s.moveNext k slot with
      | some i => clearSlot frame k slot n (moveChan s frame i)
      | none => s

/-- Every slot of the coming frame that carries an edge is brought within limits (R297). -/
def clearFrame (s : State) (frame : Nat) : State :=
  let s := if s.edge.triedFrame = frame then s
    else { s with edge.triedFrame := frame, edge.tried := [], edge.moved := 0 }
  [0, 1, 2].foldl (fun s k => (List.range 1024).foldl (fun s slot =>
    let es := s.periodic (fun _ => true) ++ s.shotEdges frame (fun _ => true)
    let c := s.slotScore es k slot
    if c.1 ≤ c.2 then s else clearSlot frame k slot 128 s) s) s

/-- An unpinned channel with an edge in a slot that is over a limit, and the slot. -/
def State.overOf (s : State) (frame i : Nat) : Option Nat :=
  if s.pinKind i != 0 then none
  else
    let es := s.periodic (fun _ => true) ++ s.shotEdges frame (fun _ => true)
    ((s.chanEdges i).find? (fun e => let c := s.slotScore es e.pair e.slot; c.2 < c.1)).map (fun e => e.slot)

/-- R305 for the channels of a frame. -/
def overCheck (s : State) (frame : Nat) : State :=
  (List.range 128).foldl (fun s i =>
    match s.overOf frame i with
    | some slot => overPlan s i slot
    | none => s.modP i (fun c => { c with excess := false })) s

/-- A change has arrived: the planner looks at the coming frame (R297). -/
def replan (s : State) : State :=
  let f := s.nowFrame + 1
  fixedCheck (clearFrame s f) f false

/-! ## Entering and leaving the plan -/

/-- A channel enters the plan, or changes phase and on-time in it. -/
def planOn (s : State) (i phase code onNs : Nat) (launch : Bool) : State :=
  s.modP i (fun c => { c with phase := BitVec.ofNat 13 (phase % periodSlots code), launch := c.launch || launch,
                              active := 0 < onNs && onNs < periodNs code, period := BitVec.ofNat 3 code, onNs := onNs })

/-- The on-time of a channel in the plan changes with its applied duty. -/
def planOnTime (s : State) (i onNs : Nat) : State :=
  s.modP i (fun c => { c with active := 0 < onNs && onNs < periodNs c.period.toNat, onNs := onNs })

/-- A channel leaves the plan. -/
def planOff (s : State) (i : Nat) : State := s.modP i (fun c => { c with active := false, onNs := 0, excess := false })

/-- A one-shot edge is known to the planner. -/
def addShot (s : State) (o : OneShot) : State := { s with edge.oneShots := s.edge.oneShots ++ [o] }

/-- The first slot from `a` on at a phase of a period. -/
def slotAtPhase (a phase code : Nat) : Nat :=
  let p := periodSlots code
  a + (phase % p + p - a % p) % p

/-- The first slot that starts at a Weave time or later. -/
def slotFrom (t : Nat) : Nat := if slotStart (slotOf t) < t then slotOf t + 1 else slotOf t

/-- The slot of a change on one channel without a due time: of a pinned channel the first at its phase, of any other the
choice of R294 (`edges a` are its edges at slot a). Later than the changes of that channel that still wait, and not
before `hold`, the end of a group's 5 ms (R268). Answers the slot and whether the score found is over a limit. -/
def State.place (s : State) (i code hold : Nat) (edges : Nat → List FEdge) : Nat × Bool :=
  let last := (s.edge.pending.filter (fun p => p.chans.contains i && !p.atPeriod)).foldl (fun m p => max m (p.slot + 1)) 0
  match s.pinPhase i with
  | some ph => (slotAtPhase (max (max (s.nowSlot + 2) last) hold) ph code, false)
  | none =>
    let r := s.choose [i] edges (s.candidates last)
    (max r.1 hold, r.2.2 < r.2.1)

end Sys2Proof.Machine
end

