-- ==== Sys2Proof/Machine/ValveOps.lean ====
section
/-! DEFINITION. Valve channels and Facet contexts: targets, stops, the boost claim and its waits, starts of profiles, and
what mode entries, resets and hold do to them (R314 to R340, R354 to R363). -/

namespace Sys2Proof.Machine

/-! ## Accessors -/

/-- The channel, its bank and its context. -/
def State.vlvCh (s : State) (n : Nat) : VlvCh := vget s.vlv.ch n
def State.vlvBank (s : State) (b : Nat) : VlvBank := vget s.vlv.bank b
def State.fctx (s : State) (n : Nat) : FCtx := vget s.facet.ctx n
def State.modVlv (s : State) (n : Nat) (f : VlvCh → VlvCh) : State := { s with vlv.ch := vmod s.vlv.ch n f }
def State.modBank (s : State) (b : Nat) (f : VlvBank → VlvBank) : State := { s with vlv.bank := vmod s.vlv.bank b f }
def State.modCtx (s : State) (n : Nat) (f : FCtx → FCtx) : State := { s with facet.ctx := vmod s.facet.ctx n f }

/-- A field of the channel's VLV_CHAN record in the current mode, or 0. -/
def State.vlvField (s : State) (n k lo width : Nat) : Nat := s.recField 7 2 n k lo width 0

/-- Channels of a bank (R312). -/
def bankChans (b : Nat) : List Nat := [4 * b, 4 * b + 1, 4 * b + 2, 4 * b + 3]

/-- The context runs, waits or ends: its channel is active (R314, R357). -/
def State.vlvActive (s : State) (n : Nat) : Bool := (s.fctx n).wait != .idle

/-- Program of a bank of the channel's engine. -/
def State.progOf (s : State) (n : Nat) (bank : Bool) : Prog := ((vget s.facet.eng (n / 4)).bankOf bank).getD {}

/-- The profile that a channel runs, from the bank its context runs from. -/
def State.runProfile (s : State) (n : Nat) : Profile :=
  (s.progOf n (s.fctx n).bank).profile (s.vlvCh n).profile.toNat

/-- Decay mode that acts: fast and mixed act as slow while the bank is at BOOST (R320) or under R319. -/
def State.actingDecay (s : State) (n : Nat) : BitVec 2 :=
  if (s.vlvBank (n / 4)).claim.isSome || s.vlv.slowAll then 0 else (s.fctx n).decay

/-- A target under the limits of R354 and R355. -/
def State.clampTarget (s : State) (n x : Nat) : BitVec 14 :=
  BitVec.ofNat 14 (min x (min (min (10 * s.vlvField n 0 16 16) 10000) (if (s.fctx n).peak then 3000 else 10000)))

/-- A channel's or bank's event with its current code (Table 8.11). -/
def vlvEvent (s : State) (code n : Nat) : State := logEvent s code [n, vlvCur s n]

/-! ## Completing starts -/

/-- A VLV_MULTI whose last channel is settled completes (Table 8.9). -/
def multiDone (s : State) (m : VMulti) : State :=
  let mask (l : List Nat) : Nat := (l.map (fun n => 2 ^ n)).sum
  let low := m.failed.foldl (fun (b : Option (Nat × Nat)) x =>
    match b with | none => some x | some y => some (if x.1 < y.1 then x else y)) none
  let st := match low with | some (_, x) => x | none => if m.act.late then stLate else stOk
  let t := if !m.started.isEmpty then m.time else if m.act.fired then 0 else s.weave.time.toNat
  complete s m.act.d st (match low with | some (n, _) => n | none => 0) t (mask m.started) (mask m.noClaim)

/-- One channel of a VLV_MULTI is settled. -/
def multiNote (s : State) (a : Act) (f : VMulti → VMulti) : State :=
  match s.vlv.multis.find? (fun m => m.act.d == a.d) with
  | none => s
  | some m =>
    let m' := f m
    let rest := s.vlv.multis.filter (fun x => x.act.d != a.d)
    if m'.left.isEmpty then multiDone { s with vlv.multis := rest } m'
    else { s with vlv.multis := rest ++ [m'] }

/-- A start has not taken place: its descriptor completes with a status (TIME 0 for a launch). -/
def startFails (s : State) (n : Nat) (st : VStart) (status : Nat) : State :=
  match st.act with
  | none => s
  | some a =>
    if st.multi then multiNote s a (fun m => { m with left := m.left.filter (· != n), failed := m.failed ++ [(n, status)] })
    else refuse s a status

/-- A start has taken place: TIME is the instant the current begins rising, RESULT0 the deferral in µs, DETAIL [0] and
[1] tell a start without the claim (R326, R330, R333). -/
def startDone (s : State) (n : Nat) (st : VStart) (instant deferral detail : Nat) : State :=
  match st.act with
  | none => s
  | some a =>
    if st.multi then
      multiNote s a (fun m => { m with
        left := m.left.filter (· != n), started := m.started ++ [n], time := max m.time instant,
        noClaim := if detail = 0 then m.noClaim else m.noClaim ++ [n] })
    else complete s a.d (if a.late then stLate else stOk) detail instant deferral 0

/-! ## The boost claim (R328 to R333) -/

/-- The context begins to execute a start (R356): a first start, on an inactive or a held channel, at ENTRY with the
settings of R356; a restart, on a channel whose profile runs, at BOOST where the profile has one. -/
def beginProfile (s : State) (n : Nat) (st : VStart) (deferUs : Nat) (noClaim : Bool) : State :=
  let bank := (vget s.facet.eng (n / 4)).active
  let p := (s.progOf n bank).profile st.profile.toNat
  let again := st.restart || (s.fctx n).wait != .idle
  let now := s.weave.time.toNat
  let startAt := s.clk.ns + (max st.instant now - now)
  let s := s.modCtx n (fun c => { c with
    g := (Vector.replicate 16 0).set 0 (st.arg.setWidth 32) |>.set 1 (BitVec.ofNat 32 (n % 4)),
    timedOut := false, tmo := 20000, mark := st.mark, bank := bank,
    pc := if again && p.boostEn then p.boost else p.entry,
    freq := if again then c.freq else 20, decay := if again then c.decay else 0, mix := if again then c.mix else 8,
    swin := if again then c.swin else 8, wait := .executing, run := 0, startAt := startAt, phaseAt := startAt,
    deferUs := deferUs, settled := p.boostEn, peak := false })
  let s := s.modVlv n (fun c => { c with
    st := .running, profile := st.profile, noClaim := noClaim, starts := c.starts + 1, wait := none, heldI := 0, resume := none })
  let s := { s with bezel.heldVlv := setBit s.bezel.heldVlv n false }
  s.modBank (n / 4) (fun b => { b with closed := true })

/-- A stop (R361): target 0, decay fast; the context ends when the current has fallen. -/
def stopRunning (s : State) (n : Nat) : State :=
  s.modCtx n (fun c => { c with target := 0, decay := 1, wait := if c.wait == .idle then .idle else .ending, run := 0, settled := false })

/-- BST is checked as a boost phase begins, after the claim is free for the channel (R333). A start, or with none the
boost phase of a running profile, goes on with the claim, without it, or not at all. -/
def boostPhase (s : State) (n : Nat) (st : Option VStart) (since : Nat) : State :=
  let waited := (s.clk.ns - since) / us
  let fallback := match st with
    | some x => ((s.progOf n (vget s.facet.eng (n / 4)).active).profile x.profile.toNat).fallback
    | none => (s.runProfile n).fallback
  let go (s : State) (noClaim : Bool) (detail : Nat) : State :=
    match st with
    | some x =>
      let instant := max x.instant s.weave.time.toNat
      startDone (beginProfile s n x waited noClaim) n x instant waited detail
    | none => (s.modVlv n (fun c => { c with wait := none, noClaim := noClaim })).modCtx n (fun c => { c with
        wait := if c.wait == .claim then .executing else c.wait })
  if bstReady s then go (s.modBank (n / 4) (fun b => { b with claim := some n })) false 0
  else
    let s := logEvent (s.modVlv n (fun c => { c with bnr := true })) 0x0707 [n, s.vlv.bst.toNat]
    if fallback then go s true 2
    else match st with
      | some x => startFails (s.modVlv n (fun c => { c with wait := none })) n x stBoostNotReady
      | none => stopRunning (s.modVlv n (fun c => { c with wait := none })) n

/-- The channels that wait for a free claim are served in their order; one that begins without the claim leaves it to the
next (R329). -/
def serveClaim : Nat → State → Nat → State
  | 0, s, _ => s
  | k + 1, s, b =>
    match (s.vlvBank b).claim, (s.vlvBank b).queue with
    | none, n :: rest =>
      let s := s.modBank b (fun x => { x with queue := rest })
      match (s.vlvCh n).wait with
      | some w => serveClaim k (boostPhase s n w.start w.since) b
      | none => serveClaim k s b
    | _, _ => s

/-- A channel gives up the claim it holds, and the next is served (R328, R359). -/
def releaseClaim (s : State) (n : Nat) : State :=
  if (s.vlvBank (n / 4)).claim = some n then
    serveClaim 5 (s.modBank (n / 4) (fun b => { b with claim := none })) (n / 4)
  else s

/-- A wait ends without its claim at its limit (R330): FALLBACK 1 runs the phase from the bank node, FALLBACK 0 leaves a
start out and stops a profile that reached its own boost phase. -/
def deferOut (s : State) (n : Nat) (w : VWait) : State :=
  let s := (s.modVlv n (fun c => { c with wait := none, deferOut := true })).modBank (n / 4) (fun b =>
    { b with queue := b.queue.filter (· != n) })
  let waited := (s.clk.ns - w.since) / us
  match w.start with
  | some x =>
    let fb := ((s.progOf n (vget s.facet.eng (n / 4)).active).profile x.profile.toNat).fallback
    let s := logEvent s 0x0708 [n, b2n fb]
    if fb then startDone (beginProfile s n x waited true) n x (max x.instant s.weave.time.toNat) waited 1
    else startFails s n x stBankBusy
  | none =>
    let fb := (s.runProfile n).fallback
    let s := logEvent s 0x0708 [n, b2n fb]
    if fb then (s.modVlv n (fun c => { c with noClaim := true })).modCtx n (fun c =>
      { c with wait := if c.wait == .claim then .executing else c.wait })
    else stopRunning s n

/-- A request for the claim (R328, R329, R358, R359): the holder keeps it, a free claim is taken, otherwise the channel
waits, or takes the outcome of the limit at once where VLV_DEFER.MAX is 0. -/
def requestClaim (s : State) (n : Nat) (st : Option VStart) : State :=
  let b := s.vlvBank (n / 4)
  if b.claim = some n then
    match st with
    | some x => startDone (beginProfile s n x 0 false) n x (max x.instant s.weave.time.toNat) 0 0
    | none => s
  else if b.claim.isNone && b.queue.isEmpty then boostPhase s n st s.clk.ns
  else
    let w : VWait := { start := st, since := s.clk.ns, deadline := s.clk.ns + deferMax s * us }
    let s := (s.modVlv n (fun c => { c with wait := some w, waits := c.waits + 1 })).modCtx n (fun c =>
      { c with wait := if st.isNone then .claim else c.wait })
    let s := s.modBank (n / 4) (fun b => { b with queue := b.queue ++ [n] })
    if deferMax s = 0 then deferOut s n w else s

/-- A wait that ends because its start is withdrawn. -/
def dropWait (s : State) (n : Nat) (status : Nat) : State :=
  match (s.vlvCh n).wait with
  | none => s
  | some w =>
    let s := (s.modVlv n (fun c => { c with wait := none })).modBank (n / 4) (fun b =>
      { b with queue := b.queue.filter (· != n) })
    let s := match w.start with | some x => startFails s n x status | none => s
    s.modCtx n (fun c => { c with wait := if c.wait == .claim then .executing else c.wait })

/-! ## Ending a context -/

/-- The channel becomes inactive at once, in a state; its claim and its wait end. -/
def endNow (s : State) (n : Nat) (st : VlvSt) (status : Nat) : State :=
  let s := dropWait s n status
  let s := s.modCtx n (fun c => { c with target := 0, wait := .idle, phase := 0, settled := false, run := 0 })
  let s := s.modVlv n (fun c => { c with st := st, noClaim := false, heldI := 0 })
  let s := { s with bezel.heldVlv := setBit s.bezel.heldVlv n false }
  let s := releaseClaim s n
  s.modBank (n / 4) (fun b => { b with idleAt := s.clk.ns })

/-- A stop under R361. The claim goes at once (R359); a channel that is only held ends. -/
def stopCtx (s : State) (n : Nat) : State :=
  if s.vlvActive n then releaseClaim (stopRunning s n) n
  else if (s.vlvCh n).st == .held || (s.vlvCh n).st == .orphan then endNow s n .inactive stCancelled
  else s

/-- To QUENCH, or a stop where the profile has none (R361, Table 8.9). -/
def quench (s : State) (n : Nat) : State :=
  let p := s.runProfile n
  if s.vlvActive n && p.quenchEn then
    releaseClaim (s.modCtx n (fun c => { c with pc := p.quench, wait := .executing, run := 0, settled := false })) n
  else stopCtx s n

/-- The bank switch opens and every channel of the bank ends at once. -/
def bankOff (s : State) (b : Nat) (status : Nat) : State :=
  let s := (bankChans b).foldl (fun s n =>
    match (s.vlvCh n).st with
    | .latched => dropWait s n status
    | .stb => dropWait s n status
    | _ => endNow s n .inactive status) s
  s.modBank b (fun x => { x with closed := false, claim := none, queue := [] })

/-! ## Starts -/

/-- Status of a start, OK where it may go on (R336, Table 8.10, Table 20.2). -/
def startCheck (s : State) (n : Nat) (profile : Nat) : Nat :=
  let c := s.vlvCh n
  let e := vget s.facet.eng (n / 4)
  if (s.rec? 7 2 n).isNone || (s.pwr.mode == .road && s.vlvField n 1 14 1 == 1) then stRefusedState
  else if c.st == .latched || c.st == .stb || e.fault then stFaultChannel
  else if (s.vlvBank (n / 4)).latched then 0x81
  else if s.vlv.hot || (vget s.hso.vfeed 2).toNat < 6000 then stRefusedState
  else if !((s.progOf n e.active).profile profile).valid then 0x80
  else stOk

/-- A start that passed its checks: it replaces one that waits (R331), waits for the claim where its profile has a boost
phase (R358), or begins at once. During an over-voltage pause it is kept for the pause's end and completes (R697). -/
def startProfile (s : State) (n : Nat) (st : VStart) : State :=
  let p := (s.progOf n (vget s.facet.eng (n / 4)).active).profile st.profile.toNat
  if s.paused 2 then
    startDone (s.modVlv n (fun c => { c with resume := some { st with act := none, multi := false, restart := true } })) n st
      (max st.instant s.weave.time.toNat) 0 0
  else match (s.vlvCh n).wait with
    | some w =>
      if p.boostEn then
        let s := match w.start with | some x => startFails s n x stCancelled | none => s
        s.modVlv n (fun c => { c with wait := some { w with start := some st } })
      else
        let s := dropWait s n stCancelled
        let s := beginProfile s n st 0 false
        startDone s n st (max st.instant s.weave.time.toNat) 0 0
    | none =>
      if p.boostEn then requestClaim s n (some st)
      else
        let s := releaseClaim (beginProfile s n st 0 false) n
        startDone s n st (max st.instant s.weave.time.toNat) 0 0

/-- The start that an action asks for (R356): a launch at DUE, any other 9.6 µs after acceptance. -/
def startOf (s : State) (a : Act) (multi : Bool) (profile : BitVec 5) (arg : BitVec 16) : VStart :=
  let t := if a.fired then a.instant else s.weave.time.toNat + 9600
  { act := some a, multi := multi, profile := profile, arg := arg, instant := t,
    mark := if a.fired then a.d.due else BitVec.ofNat 64 t }

/-! ## Modes, hold, pause -/

/-- Every channel in turn. -/
def eachVlv (s : State) (f : State → Nat → State) : State := (List.range 32).foldl f s

/-- Every channel quenches and every bank switch opens: Park, Guard, Storage (R337), supply loss. -/
def vlvAllOff (s : State) (status : Nat) : State :=
  let s := (List.range 8).foldl (fun s b => bankOff s b status) s
  eachVlv { s with vlv.reverse := false } (fun s n => s.modVlv n (fun c => { c with resume := none }))

/-- A mode begins: a channel that no record of the mode gives to VLV quenches (R220, R592). -/
def vlvClaims (s : State) : State :=
  eachVlv s (fun s n => match s.rec? 7 2 n with
    | some _ => s
    | none => stopCtx (dropWait (s.modVlv n (fun c => { c with resume := none })) n stRefusedState) n)

/-- Entry to Road: an implement channel with ROAD 0 quenches (R337). -/
def vlvRoad (s : State) : State :=
  eachVlv s (fun s n =>
    if s.vlvField n 1 14 1 = 1 ∧ s.vlvField n 1 13 1 = 0 then
      stopCtx (dropWait (s.modVlv n (fun c => { c with resume := none })) n stRefusedState) n
    else s)

/-- A device reset: each channel that carries current is held at the lower of its last target and its I_CONT; its bank
stays at FEED (R338). Engines stop. -/
def vlvHold (s : State) : State :=
  let s := eachVlv s (fun s n =>
    let c := s.vlvCh n
    let x := s.fctx n
    let i := if x.wait == .idle then c.heldI.toNat else min x.target.toNat (10 * s.vlvField n 0 0 16)
    let s := s.modVlv n (fun c => { c with wait := none, test := none, resume := none, noClaim := false })
    let s := s.modCtx n (fun _ => {})
    if c.st == .latched || c.st == .stb then s
    else if 0 < i then
      { s.modVlv n (fun c => { c with st := .held, heldI := BitVec.ofNat 14 i }) with
        bezel.heldVlv := setBit s.bezel.heldVlv n true }
    else s.modVlv n (fun c => { c with st := .inactive }))
  (List.range 8).foldl (fun s b => s.modBank b (fun x => { x with claim := none, queue := [] }))
    { s with vlv.multis := [], vlv.reverse := false }

/-- A channel takes its orphan state (R339). -/
def vlvOrphan1 (s : State) (n : Nat) : State :=
  let o := vget s.bezel.orphans.vlv n
  match (s.vlvCh n).st with
  | .latched => s
  | .stb => s
  | _ =>
    match o.kind.toNat with
    | 0 => endNow s n .inactive stCancelled
    | 1 => if (s.vlvCh n).st == .held then s.modVlv n (fun c => { c with st := .orphan }) else s
    | _ => if o.level = 0 then endNow s n .inactive stCancelled
        else (s.modVlv n (fun c => { c with st := .orphan, heldI := BitVec.ofNat 14 o.level })).modBank (n / 4) (fun b =>
          { b with closed := true })

/-- Over-voltage pause of feed pair 2: channels quench, bank switches open, and a profile that ran restarts from its
boost phase afterwards (R697). -/
def vlvPause (s : State) : State :=
  let s := eachVlv s (fun s n =>
    let c := s.vlvCh n
    let x := s.fctx n
    let again : Option VStart := match c.wait with
      | some ⟨some st, _, _⟩ => some { st with act := none, multi := false, restart := true }
      | _ => if x.wait == .idle || x.wait == .ending then none
          else some { profile := c.profile, arg := (vget x.g 0).setWidth 16, restart := true, mark := x.mark }
    let s := match c.wait with
      | some ⟨some st, _, _⟩ => startDone (s.modVlv n (fun c => { c with wait := none })) n st s.weave.time.toNat 0 0
      | _ => s
    s.modVlv n (fun c => { c with resume := again }))
  (List.range 8).foldl (fun s b => bankOff s b stCancelled) s

/-- A planner frame begins: profiles that waited for the end of a pause restart (R697). -/
def vlvFrame (s : State) : State :=
  eachVlv s (fun s n => match (s.vlvCh n).resume with
    | some st => if s.paused 2 then s
        else startProfile (s.modVlv n (fun c => { c with resume := none })) n
          { st with instant := s.weave.time.toNat + 9600, mark := BitVec.ofNat 64 (s.weave.time.toNat + 9600) }
    | none => s)

/-! ## Programs -/

/-- A program goes into the standby bank of engine `e`, which becomes the active one (R370, R372); a context that still
ran from that bank is stopped. Event 0x0801 with engine, PROG_ID and path (0 descriptor, 1 commit). -/
def loadBank (s : State) (e : Nat) (p : Prog) (path : Nat) : State :=
  let b := !(vget s.facet.eng e).active
  let s := (bankChans e).foldl (fun s n =>
    if (s.fctx n).wait != .idle && (s.fctx n).bank == b then
      logEvent (stopCtx (s.modCtx n (fun c => { c with progStop := true })) n) 0x0806 [n]
    else s) s
  let s := { s with facet.eng := vmod s.facet.eng e (fun x =>
    { x with bank0 := if b then x.bank0 else some p, bank1 := if b then some p else x.bank1, active := b, fault := false }) }
  logEvent s 0x0801 [e, p.progId.toNat, path]

/-- The FACET_PROG record of an engine (R376: it applies in every mode). -/
def facetRec (rs : List Rec) (e : Nat) : Option Rec := rs.find? (fun r => r.block == 8 && r.typ == 1 && r.inst == e)

/-- A commit that changes a FACET_PROG record switches that engine's banks; a record that is gone leaves the engine
without a program (R372). -/
def facetCommit (s : State) (old new : List Rec) : State :=
  (List.range 8).foldl (fun s e =>
    let o := (facetRec old e).map (·.body)
    let n := (facetRec new e).map (·.body)
    if o == n then s
    else match (facetRec new e).bind Rec.prog with
      | some p => loadBank s e p 1
      | none => { s with facet.eng := vmod s.facet.eng e (fun x =>
          { x with bank0 := if x.active then x.bank0 else none, bank1 := if x.active then none else x.bank1 }) }) s

/-- PD_ACT comes up, or Start loads the configuration: every engine holds its program again and every context is idle
(R374). -/
def facetReload (s : State) : State :=
  { s with facet.eng := ⟨((List.range 8).map (fun e =>
      ({ bank0 := (facetRec s.cfg.recs e).bind Rec.prog } : FEng))).toArray, by simp⟩,
           facet.ctx := .replicate 32 {} }

end Sys2Proof.Machine
end

