-- ==== Sys2Proof/Machine/Vlv.lean ====
section
/-! DEFINITION. The VLV block: its descriptors, the boost rail, faults and off tests (chapter 8). -/

namespace Sys2Proof.Machine

/-! ## Commands -/

/-- A launched start leaves its rising edge in the plan of its frame (R292, R293). -/
def valveShot (s : State) (a : Act) : State :=
  if a.fired then addShot s { pair := 2, slot := slotOf a.instant, rising := true, weight := s.valveW } else s

/-- VLV_START acts. -/
def actVlvStart (ch profile : BitVec 5) (arg : BitVec 16) (a : Act) (s : State) : State :=
  let x := startCheck s ch.toNat profile.toNat
  if x ≠ stOk then refuse s a x else startProfile (valveShot s a) ch.toNat (startOf s a false profile arg)

/-- VLV_START. -/
def execVlvStart (d : Desc) (ch profile : BitVec 5) (arg : BitVec 16) (s : State) : Host.Outcome State Fault Refusal :=
  .next (accept d (.vlvStart ch profile arg) (actVlvStart ch profile arg) s)

/-- VLV_MULTI acts: each named channel starts or fails on its own, the lowest first (R332, Table 8.9). -/
def actVlvMulti (mask : BitVec 32) (profile : BitVec 5) (arg : BitVec 16) (a : Act) (s : State) : State :=
  let chans := maskList mask
  if chans.isEmpty then finish s a
  else
    let s := { s with vlv.multis := s.vlv.multis ++ [{ act := a, left := chans }] }
    chans.foldl (fun s n =>
      let x := startCheck s n profile.toNat
      let st := startOf s a true profile arg
      if x ≠ stOk then startFails s n st x else startProfile (valveShot s a) n st) s

/-- VLV_MULTI. -/
def execVlvMulti (d : Desc) (mask : BitVec 32) (profile : BitVec 5) (arg : BitVec 16) (s : State) :
    Host.Outcome State Fault Refusal :=
  .next (accept d (.vlvMulti mask profile arg) (actVlvMulti mask profile arg) s)

/-- A command to this channel is refused: no record of the mode gives it to VLV, or it is an implement channel in Road
(R49, R215). -/
def State.vlvBarred (s : State) (n : Nat) : Bool :=
  (s.rec? 7 2 n).isNone || (s.pwr.mode == .road && s.vlvField n 1 14 1 == 1)

/-- VLV_STOP acts: a waiting start completes CANCELLED; a running profile goes to its quench phase; a held channel is
reclaimed and decays (Table 8.9, R361, R588). -/
def actVlvStop (ch : BitVec 5) (a : Act) (s : State) : State :=
  let n := ch.toNat
  if s.vlvBarred n then refuse s a stRefusedState
  else
    let s := s.modVlv n (fun c => { c with resume := none })
    let s := match (s.vlvCh n).wait with
      | some ⟨some _, _, _⟩ => dropWait s n stCancelled
      | _ => s
    finish (quench s n) a

/-- VLV_STOP. -/
def execVlvStop (d : Desc) (ch : BitVec 5) (s : State) : Host.Outcome State Fault Refusal :=
  .next (accept d (.vlvStop ch) (actVlvStop ch) s)

/-- VLV_CLEAR acts: latch and trip count of the channel, and with BANK of its bank; a short-to-battery hold also needs a
clean test (R336). -/
def actVlvClear (ch : BitVec 5) (bank : BitVec 1) (a : Act) (s : State) : State :=
  let n := ch.toNat
  if s.vlvBarred n then refuse s a stRefusedState
  else
    let s := s.modVlv n (fun c => { c with
      ocAt := none,
      stbCleared := c.stbCleared || c.st == .stb,
      st := match c.st with
        | .latched => .inactive
        | .stb => if c.stbClean then .inactive else .stb
        | x => x })
    finish (if bank == 1 then s.modBank (n / 4) (fun b => { b with latched := false, ocAt := none }) else s) a

/-- VLV_CLEAR. -/
def execVlvClear (d : Desc) (ch : BitVec 5) (bank : BitVec 1) (s : State) : Host.Outcome State Fault Refusal :=
  .next (accept d (.vlvClear ch bank) (actVlvClear ch bank) s)

/-- VLV_READ acts (Table 8.9). -/
def actVlvRead (ch : BitVec 5) (a : Act) (s : State) : State :=
  let n := ch.toNat
  if s.vlvBarred n then refuse s a stRefusedState
  else finish s a 0 (vlvCur s n + field 16 (vlvState s n) + field 20 (s.vlvCh n).profile.toNat
    + field 25 (s.fctx n).phase.toNat) (vlvFlags s n)

/-- VLV_READ. -/
def execVlvRead (d : Desc) (ch : BitVec 5) (s : State) : Host.Outcome State Fault Refusal :=
  .next (accept d (.vlvRead ch) (actVlvRead ch) s)

/-- An off test may run: an inactive channel of a bank at OFF, with the feed at 9 V or more (R335, Table 20.2). -/
def State.vlvTestable (s : State) (n : Nat) : Bool :=
  !s.vlvActive n && (s.vlvCh n).st != .held && (s.vlvCh n).st != .orphan
    && bankState (s.vlvBank (n / 4)) == 0 && 9000 ≤ (vget s.hso.vfeed 2).toNat && (vget s.hso.vfeed 2).toNat ≤ 32000

/-- VLV_OFFTEST acts: the test starts, and its end completes the descriptor. -/
def actVlvOfftest (ch : BitVec 5) (a : Act) (s : State) : State :=
  let n := ch.toNat
  if s.vlvBarred n || !s.vlvTestable n then refuse s a stRefusedState
  else match (s.vlvCh n).test with
    | some (some b) => refuse (s.modVlv n (fun c => { c with test := some (some a) })) b stConflict
    | _ => s.modVlv n (fun c => { c with test := some (some a) })

/-- VLV_OFFTEST. -/
def execVlvOfftest (d : Desc) (ch : BitVec 5) (s : State) : Host.Outcome State Fault Refusal :=
  .next (accept d (.vlvOfftest ch) (actVlvOfftest ch) s)

/-! ## Sharing and switching -/

/-- BOOST_WAIT_EXPIRY: the channel has waited VLV_DEFER.MAX (R330). -/
def execBoostWaitExpiry (ch : Fin 32) (s : State) : Host.Outcome State Fault Refusal :=
  .next (match (s.vlvCh ch).wait with
    | some w => deferOut (s.reach w.deadline) ch w
    | none => s)

/-- BANK_IDLE_TIMEOUT: 1 ms without an active channel opens the bank switch (R314). -/
def execBankIdleTimeout (bank : Fin 8) (s : State) : Host.Outcome State Fault Refusal :=
  let b := s.vlvBank bank
  .next (if b.closed && (bankChans bank).all (fun n => !s.vlvActive n && (s.vlvCh n).heldI == 0) then
    (s.reach (b.idleAt + ms)).modBank bank (fun b => { b with closed := false }) else s)

/-! ## The boost rail -/

/-- The converter runs: enabled, PD_ACT On, no capacitor fault (R321, R322). -/
def State.converterOn (s : State) : Bool := bstEnabled s && s.isOn .act && !s.vlv.capFault

/-- BST_REVERSE_START: BST exceeds the set-point by 1.0 V (R319). -/
def execBstReverseStart (s : State) : Host.Outcome State Fault Refusal :=
  .next (if s.converterOn then { s with vlv.reverse := true } else s)

/-- BST_REVERSE_END: BST has fallen to the set-point plus 0.5 V. -/
def execBstReverseEnd (s : State) : Host.Outcome State Fault Refusal := .next { s with vlv.reverse := false }

/-- BST_OVERVOLTAGE: the clamp's mean power exceeds 5 W; fast and mixed decays act as slow (R319). -/
def execBstOvervoltage (s : State) : Host.Outcome State Fault Refusal :=
  .next (if s.isOn .act then logEvent { s with vlv.ov := true, vlv.slowAll := true } 0x070B [s.vlv.bst.toNat] else s)

/-- BST_CAP_CHECK: the ramp at Start estimates capacitance in µF and ESR in 0.1 mΩ; outside 250–3000 µF or above 100 mΩ
the converter stays off (R321). -/
def execBstCapCheck (microfarads esr : BitVec 12) (s : State) : Host.Outcome State Fault Refusal :=
  let bad := microfarads.toNat < 250 || 3000 < microfarads.toNat || 1000 < esr.toNat
  .next (if bstEnabled s && s.isOn .act then
    let s := { s with vlv.cEst := microfarads, vlv.esrEst := esr, vlv.capFault := bad }
    if bad then logEvent s 0x070C [microfarads.toNat, esr.toNat] else s
    else s)

/-! ## Faults (Table 8.5) -/

/-- A trip within 1 s of the last one. -/
def tripAgain (s : State) (t : Option Nat) : Bool := match t with | some x => decide (s.clk.ns ≤ x + sec) | none => false

/-- VALVE_CHANNEL_OVERCURRENT: the channel is off until its next start, latched at a second trip within 1 s. -/
def execValveChannelOvercurrent (ch : Fin 32) (s : State) : Host.Outcome State Fault Refusal :=
  .next (if !s.vlvActive ch ∧ (s.vlvCh ch).heldI = 0 then s
    else
      let again := tripAgain s (s.vlvCh ch).ocAt
      let s := vlvEvent (s.modVlv ch (fun c => { c with oc := true, ocAt := some s.clk.ns })) 0x0701 ch
      endNow s ch (if again then .latched else .inactive) stFaultChannel)

/-- A bank fault stops every active channel and opens the switch. -/
def bankFault (s : State) (b : Nat) (latch : Bool) (code : Nat) : State :=
  let s := (bankChans b).foldl (fun s n =>
    if s.vlvActive n ∨ (s.vlvCh n).heldI ≠ 0 then s.modVlv n (fun c => { c with bankFault := true }) else s) s
  let s := vlvEvent s code b
  (bankOff s b (if latch then 0x81 else stFaultChannel)).modBank b (fun x =>
    { x with latched := x.latched || latch, ocAt := some s.clk.ns })

/-- BANK_OVERCURRENT. -/
def execBankOvercurrent (bank : Fin 8) (s : State) : Host.Outcome State Fault Refusal :=
  .next (if (s.vlvBank bank).closed then bankFault s bank (tripAgain s (s.vlvBank bank).ocAt) 0x0702 else s)

/-- BANK_CURRENT_MISMATCH. -/
def execBankCurrentMismatch (bank : Fin 8) (s : State) : Host.Outcome State Fault Refusal :=
  .next (if (s.vlvBank bank).closed then bankFault s bank true 0x0703 else s)

/-- OPEN_COIL_ON: tested with OPEN_TH not 0 on a running channel. -/
def execOpenCoilOn (ch : Fin 32) (s : State) : Host.Outcome State Fault Refusal :=
  .next (if s.vlvField ch 1 0 10 = 0 ∨ !s.vlvActive ch ∨ (vget s.hso.vfeed 2).toNat < 9000 then s
    else endNow (vlvEvent (s.modVlv ch (fun c => { c with openOn := true })) 0x0704 ch) ch .inactive stFaultChannel)

/-- VALVE_OFF_TEST: a periodic off test starts (R335). -/
def execValveOffTest (ch : Fin 32) (s : State) : Host.Outcome State Fault Refusal :=
  .next (if s.isOn .act && s.vlvField ch 1 10 1 == 1 && s.vlvTestable ch && (s.vlvCh ch).test.isNone then
    s.modVlv ch (fun c => { c with test := some none }) else s)

/-- VALVE_OFF_TEST_RESULT: the voltage at the end of the test (Table 8.5): 0 present, 1 open, 2 short to battery. -/
def execValveOffTestResult (ch : Fin 32) (mv : BitVec 16) (s : State) : Host.Outcome State Fault Refusal :=
  let c := s.vlvCh ch
  let r := if mv.toNat ≤ 2000 then 0 else if mv.toNat ≤ 6000 then 1 else 2
  .next (match c.test with
    | none => s
    | some by_ =>
      if s.vlvActive ch then
        -- a start during the test leaves it without a result
        let s := s.modVlv ch (fun c => { c with test := none })
        match by_ with | some a => refuse s a stRefusedState | none => s
      else
        let s := s.modVlv ch (fun c => { c with
          test := none, openOff := r == 1, stb := c.stb || r == 2,
          stbClean := if r = 2 then false else c.stbClean || r == 0,
          stbCleared := if r = 2 ∧ c.st ≠ .stb then false else c.stbCleared,
          st := if r = 2 then (if c.st == .latched then .latched else .stb)
            else if c.st == .stb && r == 0 && c.stbCleared then .inactive else c.st })
        let s := if r = 1 ∧ !c.openOff then vlvEvent s 0x0705 ch else s
        let s := if r = 2 ∧ c.st ≠ .stb then vlvEvent s 0x0706 ch else s
        match by_ with | some a => finish s a 0 r | none => s)

/-- VALVE_DIE_OT: every bank switch opens and starts are refused (Table 8.5). -/
def execValveDieOt (s : State) : Host.Outcome State Fault Refusal :=
  .next (if s.vlv.hot then s
    else
      let s := logEvent { s with vlv.hot := true } 0x070D []
      (List.range 8).foldl (fun s b => bankOff s b stFaultChannel) s)

/-- VALVE_DIE_OT_CLEAR: below 155 °C starts are allowed again. -/
def execValveDieOtClear (s : State) : Host.Outcome State Fault Refusal := .next { s with vlv.hot := false }

end Sys2Proof.Machine
end

