-- ==== Sys2Proof/Machine/FacetEngine.lean ====
section
/-! DEFINITION. The FACET block: one definition per Facet instruction, the ends of waits, engine faults, and its
descriptors (chapter 9). A command that names an instruction is the slot of its context in which that instruction is the
next one of its program; it has no effect where the program has another instruction there or the context does not
execute. -/

namespace Sys2Proof.Machine

/-! ## One slot -/

/-- The instruction that the context would execute in its slot: none while it waits, while a restart waits for the claim
(R360), and once a runaway has been reached (R368). -/
def nextOp (s : State) (n : Nat) : Option FOp :=
  let c := s.fctx n
  if c.wait == .executing && (s.vlvCh n).wait.isNone && c.run < 256 && s.isOn .act then
    facetDecode ((s.progOf n c.bank).word c.pc.toNat) else none

/-- The slot passes: PC moves on and the instruction counts towards a runaway. -/
def slotDone (s : State) (n : Nat) : State := s.modCtx n (fun c => { c with pc := c.pc + 1, run := c.run + 1 })

/-- The slot passes and the context waits. -/
def slotWait (s : State) (n : Nat) (w : FWait) : State :=
  s.modCtx n (fun c => { c with pc := c.pc + 1, run := 0, wait := w })

/-- A general register of a context. -/
def State.greg (s : State) (n a : Nat) : BitVec 32 := vget (s.fctx n).g a

/-- A general register written. -/
def setG (s : State) (n a : Nat) (v : BitVec 32) : State := s.modCtx n (fun c => { c with g := vset c.g a v })

/-- The target set, under its clamps. -/
def setTarget (s : State) (n x : Nat) : State := s.modCtx n (fun c => { c with target := s.clampTarget n x })

/-! ## Instructions (Table 9.5) -/

/-- NOP. -/
def execFacetNop (ch : Fin 32) (s : State) : Host.Outcome State Fault Refusal :=
  .next (match nextOp s ch with | some .nop => slotDone s ch | _ => s)

/-- PHASE: PHASE, DECAY and MIX; PH 1 requests the claim unless the start has settled it, any other PH releases it
(R358, R359). -/
def execPhase (ch : Fin 32) (s : State) : Host.Outcome State Fault Refusal :=
  .next (match nextOp s ch with
    | some (.phase ph decay mix) =>
      let settled := (s.fctx ch).settled
      let s := (slotDone s ch).modCtx ch (fun c => { c with
        phase := BitVec.ofNat 3 ph, decay := decay, mix := mix, phaseAt := s.clk.ns, settled := false })
      if ph = 1 then (if settled then s else requestClaim s ch none)
      else releaseClaim (s.modVlv ch (fun c => { c with noClaim := false })) ch
    | _ => s)

/-- SETI: Target ← I, clamped. -/
def execSeti (ch : Fin 32) (s : State) : Host.Outcome State Fault Refusal :=
  .next (match nextOp s ch with | some (.seti i) => slotDone (setTarget s ch i) ch | _ => s)

/-- SETR: Target ← GA, clamped; GA is a two's-complement number, and a negative one is clamped to 0. -/
def execSetr (ch : Fin 32) (s : State) : Host.Outcome State Fault Refusal :=
  .next (match nextOp s ch with | some (.setr a) => slotDone (setTarget s ch (s.greg ch a).toInt.toNat) ch | _ => s)

/-- FREQ: the chopping frequency. -/
def execFreq (ch : Fin 32) (s : State) : Host.Outcome State Fault Refusal :=
  .next (match nextOp s ch with
    | some (.freq k) => slotDone (s.modCtx ch (fun c => { c with freq := k })) ch | _ => s)

/-- WAIT: T µs from the executing slot. -/
def execWait (ch : Fin 32) (s : State) : Host.Outcome State Fault Refusal :=
  .next (match nextOp s ch with | some (.wait t) => slotWait s ch (.time (s.clk.ns + t * us)) | _ => s)

/-- WAITR: GA µs, unsigned, clamped to 4 194 303. -/
def execWaitr (ch : Fin 32) (s : State) : Host.Outcome State Fault Refusal :=
  .next (match nextOp s ch with
    | some (.waitr a) => slotWait s ch (.time (s.clk.ns + min 4194303 (s.greg ch a).toNat * us)) | _ => s)

/-- WADD: W ← W + T × 1000 ns. -/
def execWadd (ch : Fin 32) (s : State) : Host.Outcome State Fault Refusal :=
  .next (match nextOp s ch with
    | some (.wadd t) => slotDone (s.modCtx ch (fun c => { c with mark := c.mark + BitVec.ofNat 64 (t * 1000) })) ch
    | _ => s)

/-- WADDR: W ← W + GA × 1000 ns, GA unsigned. -/
def execWaddr (ch : Fin 32) (s : State) : Host.Outcome State Fault Refusal :=
  .next (match nextOp s ch with
    | some (.waddr a) =>
      slotDone (s.modCtx ch (fun c => { c with mark := c.mark + BitVec.ofNat 64 ((s.greg ch a).toNat * 1000) })) ch
    | _ => s)

/-- WAITW: waits until Weave time reaches W, and announces W to the planner (R364). -/
def execWaitw (ch : Fin 32) (s : State) : Host.Outcome State Fault Refusal :=
  .next (match nextOp s ch with
    | some .waitw =>
      slotWait (addShot s { pair := 2, slot := slotOf (s.fctx ch).mark.toNat, rising := true, weight := s.valveW }) ch .weave
    | _ => s)

/-- Threshold of a conditional wait: the field, or GA when REG is 1. -/
def threshold (s : State) (n : Nat) (k : Int) (reg : Bool) (a : Nat) : Int := if reg then (s.greg n a).toInt else k

/-- WAITC: until the current meets the threshold on COUNT + 1 consecutive samples, or TMO passes. -/
def execWaitc (ch : Fin 32) (s : State) : Host.Outcome State Fault Refusal :=
  .next (match nextOp s ch with
    | some (.waitc i n below reg a) =>
      slotWait s ch (.current (s.clk.ns + (s.fctx ch).tmo.toNat * us) (threshold s ch i reg a) (n + 1) below)
    | _ => s)

/-- WAITS: as WAITC on the slope, with a signed 14-bit threshold. -/
def execWaits (ch : Fin 32) (s : State) : Host.Outcome State Fault Refusal :=
  .next (match nextOp s ch with
    | some (.waits i n below reg a) =>
      slotWait s ch (.slope (s.clk.ns + (s.fctx ch).tmo.toNat * us) (threshold s ch (signed 14 i) reg a) (n + 1) below)
    | _ => s)

/-- SLOPEW: SWIN ← N. -/
def execSlopew (ch : Fin 32) (s : State) : Host.Outcome State Fault Refusal :=
  .next (match nextOp s ch with
    | some (.slopew n) => slotDone (s.modCtx ch (fun c => { c with swin := n })) ch | _ => s)

/-- TMO ← T. -/
def execTmo (ch : Fin 32) (s : State) : Host.Outcome State Fault Refusal :=
  .next (match nextOp s ch with
    | some (.tmo t) => slotDone (s.modCtx ch (fun c => { c with tmo := t })) ch | _ => s)

/-- MOVI: GA ← K, sign-extended. -/
def execMovi (ch : Fin 32) (s : State) : Host.Outcome State Fault Refusal :=
  .next (match nextOp s ch with | some (.movi a k) => slotDone (setG s ch a k) ch | _ => s)

/-- MOV: GA ← GB. -/
def execMov (ch : Fin 32) (s : State) : Host.Outcome State Fault Refusal :=
  .next (match nextOp s ch with | some (.mov a b) => slotDone (setG s ch a (s.greg ch b)) ch | _ => s)

/-- ADD: GA ← GA + GB. -/
def execAdd (ch : Fin 32) (s : State) : Host.Outcome State Fault Refusal :=
  .next (match nextOp s ch with
    | some (.add a b) => slotDone (setG s ch a (s.greg ch a + s.greg ch b)) ch | _ => s)

/-- ADDI: GA ← GA + K, sign-extended. -/
def execAddi (ch : Fin 32) (s : State) : Host.Outcome State Fault Refusal :=
  .next (match nextOp s ch with | some (.addi a k) => slotDone (setG s ch a (s.greg ch a + k)) ch | _ => s)

/-- SUB: GA ← GA − GB. -/
def execSub (ch : Fin 32) (s : State) : Host.Outcome State Fault Refusal :=
  .next (match nextOp s ch with
    | some (.sub a b) => slotDone (setG s ch a (s.greg ch a - s.greg ch b)) ch | _ => s)

/-- SHF: GA shifted by AMT, left or right arithmetic. -/
def execShf (ch : Fin 32) (s : State) : Host.Outcome State Fault Refusal :=
  .next (match nextOp s ch with
    | some (.shf a n right) =>
      slotDone (setG s ch a (if right then (s.greg ch a).sshiftRight n else s.greg ch a <<< n)) ch
    | _ => s)

/-- LDC: GA ← a word of the context's bank. -/
def execLdc (ch : Fin 32) (s : State) : Host.Outcome State Fault Refusal :=
  .next (match nextOp s ch with
    | some (.ldc a addr) =>
      slotDone (setG s ch a (BitVec.ofNat 32 ((s.progOf ch (s.fctx ch).bank).word addr))) ch
    | _ => s)

/-- A source of RD (Table 9.6); the measured ones are the operand of the command. -/
def rdSource (s : State) (n src : Nat) (measured : BitVec 32) : BitVec 32 :=
  let c := s.fctx n
  match src with
  | 2 => c.target.setWidth 32
  | 3 => s.vlv.bst.setWidth 32
  | 5 => BitVec.ofNat 32 (min 0xFFFFFFFF ((s.clk.ns - c.startAt) / us))
  | 6 => BitVec.ofNat 32 (min 0xFFFFFFFF ((s.clk.ns - c.phaseAt) / us))
  | 7 => s.weave.time.setWidth 32
  | 8 => BitVec.ofNat 32 c.deferUs
  | _ => measured

/-- RD: GA ← a source of Table 9.6. -/
def execRd (ch : Fin 32) (measured : BitVec 32) (s : State) : Host.Outcome State Fault Refusal :=
  .next (match nextOp s ch with
    | some (.rd a src) => slotDone (setG s ch a (rdSource s ch src measured)) ch | _ => s)

/-- A branch condition holds (Table 9.7). -/
def brTaken (s : State) (n a b cond : Nat) : Bool :=
  let x := s.greg n a
  let y := s.greg n b
  match cond with
  | 0 => true
  | 1 => x == y
  | 2 => x != y
  | 3 => x.slt y
  | 4 => !x.slt y
  | 5 => (s.fctx n).timedOut
  | 6 => !(s.fctx n).timedOut
  | _ => false

/-- BR: to ADDR when the condition holds. -/
def execBr (ch : Fin 32) (s : State) : Host.Outcome State Fault Refusal :=
  .next (match nextOp s ch with
    | some (.br a b cond addr) =>
      if brTaken s ch a b cond then (slotDone s ch).modCtx ch (fun c => { c with pc := addr }) else slotDone s ch
    | _ => s)

/-- FAULT: raises its fault and goes on, quenches or stops (R367). -/
def execFaultOp (ch : Fin 32) (s : State) : Host.Outcome State Fault Refusal :=
  .next (match nextOp s ch with
    | some (.fault kind act code) =>
      let s := slotDone s ch
      let s := match kind with
        | 1 => vlvEvent (s.modVlv ch (fun c => { c with pullin := true })) 0x0709 ch
        | 2 => vlvEvent (s.modVlv ch (fun c => { c with noMove := true })) 0x070A ch
        | _ => logEvent (s.modCtx ch (fun c => { c with user := true, userCode := code })) 0x0807 [ch.val, code.toNat]
      match act with
      | 0 => s
      | 1 => quench s ch
      | _ => stopCtx s ch
    | _ => s)

/-- REPT: FACET_REPORT_n ← GA, and event 0x0804 with EVT. -/
def execRept (ch : Fin 32) (s : State) : Host.Outcome State Fault Refusal :=
  .next (match nextOp s ch with
    | some (.rept a evt) =>
      let v := s.greg ch a
      let s := slotDone (s.modCtx ch (fun c => { c with report := v })) ch
      if evt then logEvent s 0x0804 [ch.val, v.toNat] else s
    | _ => s)

/-- END: target 0, the decay mode kept; the claim is released; the context ends when the current has fallen (R362). -/
def execEndOp (ch : Fin 32) (s : State) : Host.Outcome State Fault Refusal :=
  .next (match nextOp s ch with
    | some .endp =>
      releaseClaim ((slotWait s ch .ending).modCtx ch (fun c => { c with target := 0, settled := false })) ch
    | _ => s)

/-! ## Ends of waits -/

/-- TIME_WAIT_END (R353). -/
def execTimeWaitEnd (ch : Fin 32) (s : State) : Host.Outcome State Fault Refusal :=
  .next (match (s.fctx ch).wait with
    | .time t => (s.reach t).modCtx ch (fun c => { c with wait := .executing })
    | _ => s)

/-- WEAVE_WAIT_END: on the first tick at or after W (R127); the start was announced when the wait began. -/
def execWeaveWaitEnd (ch : Fin 32) (s : State) : Host.Outcome State Fault Refusal :=
  .next (match (s.fctx ch).wait with
    | .weave => (s.reachWeave (s.fctx ch).mark).modCtx ch (fun c => { c with wait := .executing })
    | _ => s)

/-- The samples meet the condition of a wait: as many as it needs, each at or above, or at or below, the threshold. -/
def samplesMeet (samples : List Int) (thr : Int) (count : Nat) (below : Bool) : Bool :=
  samples.length == count && samples.all (fun x => if below then x ≤ thr else thr ≤ x)

/-- CONDITION_WAIT_MET: the last samples meet the condition, and TO becomes 0 (R365). -/
def execConditionWaitMet (ch : Fin 32) (samples : List Int) (s : State) : Host.Outcome State Fault Refusal :=
  .next (match (s.fctx ch).wait with
    | .current _ thr count below =>
      if samplesMeet samples thr count below then s.modCtx ch (fun c => { c with wait := .executing, timedOut := false }) else s
    | .slope _ thr count below =>
      if samplesMeet samples thr count below then s.modCtx ch (fun c => { c with wait := .executing, timedOut := false }) else s
    | _ => s)

/-- CONDITION_WAIT_TIMEOUT: TMO passes, and TO becomes 1 (R365). -/
def execConditionWaitTimeout (ch : Fin 32) (s : State) : Host.Outcome State Fault Refusal :=
  .next (match (s.fctx ch).wait with
    | .current t .. => (s.reach t).modCtx ch (fun c => { c with wait := .executing, timedOut := true })
    | .slope t .. => (s.reach t).modCtx ch (fun c => { c with wait := .executing, timedOut := true })
    | _ => s)

/-- CONTEXT_END: the current reads below 20 mA after END or a stop; the channel becomes inactive (R361, R362). -/
def execContextEnd (ch : Fin 32) (s : State) : Host.Outcome State Fault Refusal :=
  .next (if (s.fctx ch).wait == .ending then
    let s := s.modCtx ch (fun c => { c with wait := .idle, phase := 0 })
    let s := s.modVlv ch (fun c => { c with st := if c.st == .running then .inactive else c.st, noClaim := false })
    s.modBank (ch / 4) (fun b => { b with idleAt := s.clk.ns })
    else s)

/-! ## Engine faults (Table 9.9) -/

/-- RUNAWAY: 256 instructions without a wait stop the context (R368). -/
def execRunaway (ch : Fin 32) (s : State) : Host.Outcome State Fault Refusal :=
  .next (if 256 ≤ (s.fctx ch).run && (s.fctx ch).wait == .executing then
    let s := logEvent (s.modCtx ch (fun c => { c with runaway := true })) 0x0803 [ch.val, (s.fctx ch).pc.toNat]
    stopCtx s ch
    else s)

/-- PEAK_TIME_LIMIT: 20 ms of target above 3000 mA clamp every target of the context to 3000 mA until the next start
(R355). -/
def execPeakTimeLimit (ch : Fin 32) (s : State) : Host.Outcome State Fault Refusal :=
  .next (if s.vlvActive ch && 3000 < (s.fctx ch).target.toNat then
    logEvent (s.modCtx ch (fun c => { c with peak := true, peakTime := true, target := 3000 })) 0x0805 [ch.val]
    else s)

/-- A failed program check stops the engine's contexts until a program loads. -/
def checkFails (s : State) (e : Nat) : State :=
  let s := logEvent { s with facet.eng := vmod s.facet.eng e (fun x => { x with fault := true }) } 0x0802 [e]
  (bankChans e).foldl (fun s n =>
    if s.vlvActive n then stopCtx (s.modCtx n (fun c => { c with progStop := true })) n else s) s

/-- PROGRAM_CHECK: every 10 ms an engine recomputes PCRC of its active bank (R373). `ok` says whether the memory of the
bank still holds what was loaded. -/
def execProgramCheck (eng : Fin 8) (ok : Bool) (s : State) : Host.Outcome State Fault Refusal :=
  let e := vget s.facet.eng eng
  .next (match e.bankOf e.active, s.isOn .act with
    | some p, true =>
      let s := { s with facet.eng := vmod s.facet.eng eng (fun x => { x with checks := x.checks + 1 }) }
      if (ok && p.crc == p.pcrc) || e.fault then s else checkFails s eng
    | _, _ => s)

/-! ## Descriptors -/

/-- FACET_LOAD acts: the image is checked, then loaded into the standby bank of each engine named, and becomes the
running record of that engine (R369 to R371). It is refused in a trial (R661). -/
def actFacetLoad (mask : BitVec 8) (a : Act) (s : State) : State :=
  if s.upd.boot.trial then refuse s a stRefusedState else
  match progParse a.payload with
  | .inl (check, idx) => refuse s a 0x80 check idx
  | .inr p =>
    let engs := maskList mask
    if engs.any (fun e => ctxOnBank s e (!(vget s.facet.eng e).active)) then refuse s a 0x81
    else
      let mk (e : Nat) : Rec := { block := 8, typ := 1, inst := e, modes := 0xFFF, body := wordsOf a.payload }
      let s := engs.foldl (fun s e => loadBank s e p 0) s
      let rs := s.cfg.recs.filter (fun r => !(r.block == 8 && r.typ == 1 && engs.contains r.inst)) ++ engs.map mk
      finish { s with cfg.recs := rs, cfg.dirty := s.cfg.dirty || !engs.isEmpty } a 0 p.progId.toNat

/-- FACET_LOAD. -/
def execFacetLoad (d : Desc) (mask : BitVec 8) (s : State) : Host.Outcome State Fault Refusal :=
  .next (accept d (.facetLoad mask) (actFacetLoad mask) s)

/-- FACET_VERIFY acts: RESULT0 the engines that passed, RESULT1 PCRC of the lowest engine named; an engine that fails is
stopped (Table 9.17). An engine without a program neither passes nor fails. -/
def actFacetVerify (mask : BitVec 8) (a : Act) (s : State) : State :=
  let engs := maskList mask
  let prog (e : Nat) : Option Prog := let x := vget s.facet.eng e; x.bankOf x.active
  let good (e : Nat) : Bool := match prog e with
    | some p => p.crc == p.pcrc && !(vget s.facet.eng e).fault
    | none => false
  let bad := engs.filter (fun e => (prog e).isSome && !good e)
  let r0 := ((engs.filter good).map (fun e => 2 ^ e)).sum
  let r1 := match engs with | e :: _ => ((prog e).map (fun p => p.pcrc.toNat)).getD 0 | [] => 0
  if bad.isEmpty then finish s a 0 r0 r1
  else finishAs (bad.foldl (fun s e => if (vget s.facet.eng e).fault then s else checkFails s e) s) a stCheckFailed 0 r0 r1

/-- FACET_VERIFY. -/
def execFacetVerify (d : Desc) (mask : BitVec 8) (s : State) : Host.Outcome State Fault Refusal :=
  .next (accept d (.facetVerify mask) (actFacetVerify mask) s)

/-- FACET_PEEK acts: a general register of a context and the next one. -/
def actFacetPeek (ch : BitVec 5) (reg : BitVec 4) (a : Act) (s : State) : State :=
  finish s a 0 (s.greg ch.toNat reg.toNat).toNat (s.greg ch.toNat ((reg.toNat + 1) % 16)).toNat

/-- FACET_PEEK. -/
def execFacetPeek (d : Desc) (ch : BitVec 5) (reg : BitVec 4) (s : State) : Host.Outcome State Fault Refusal :=
  .next (accept d (.facetPeek ch reg) (actFacetPeek ch reg) s)

end Sys2Proof.Machine
end

