-- ==== Sys2Proof/Machine/FioOps.lean ====
section
/-! DEFINITION. Field pins: driving outputs, input states, and what mode entries, resets and hold do to them
(R416 to R430). -/

namespace Sys2Proof.Machine

/-- The pin. -/
def State.fioCh (s : State) (n : Nat) : FioCh := vget s.fio.ch n

/-- A pin changed. -/
def State.modFio (s : State) (n : Nat) (f : FioCh → FioCh) : State := { s with fio.ch := vmod s.fio.ch n f }

/-- A field of the pin's FIO_PIN record in the current mode, or 0. -/
def State.fioField (s : State) (n k lo width : Nat) : Nat := s.recField 11 1 n k lo width 0

/-- The pin is an output in the current mode. -/
def State.fioIsOut (s : State) (n : Nat) : Bool := 2 ≤ fioFunc s n

/-- A pin's local need (R428). -/
def State.fioNeed (s : State) (n : Nat) : Bool := fioActive s n && s.fioField n 0 7 1 == 1

/-- Local need (Table 2.2): a NEED_SET is active, or a field input that is a local-need source is active. -/
def State.localNeed (s : State) : Bool := s.pwr.needs != 0 || (List.range 48).any (fun n => s.fioNeed n)

/-- Period code of an output. -/
def State.fioCode (s : State) (n : Nat) : Nat := s.fioField n 0 16 3

/-- The output conducts. -/
def FioCh.isOn (c : FioCh) : Bool := c.duty != 0

/-- The pin leaves the held mask (R588). -/
def unheldFio (s : State) (n : Nat) : State := { s with bezel.heldFio := setBit s.bezel.heldFio n false }

/-- The output switches off in a state. -/
def fioOff (s : State) (n : Nat) (st : BitVec 3) : State :=
  planOff (s.modFio n (fun c => { c with outSt := st, duty := 0, openLoad := false })) (80 + n)

/-- The output takes its commanded duty with its period starting at a phase; `launch` pins the phase. -/
def fioDrive (s : State) (n phase : Nat) (launch : Bool) : State :=
  let d := (s.fioCh n).cmdDuty
  let s := s.modFio n (fun c => { c with resume := false, hot := false, retryAt := none })
  if d = 0 then fioOff s n 0
  else
    let s := s.modFio n (fun c => { c with outSt := 1, duty := d })
    if d = 4096 then planOff s (80 + n)
    else planOn s (80 + n) phase (s.fioCode n) (onTime20 d.toNat (s.fioCode n)) launch

/-- A new duty reaches an output: it is reclaimed and the duty recorded. A latched output stays off; one in a retry wait,
under over-temperature or in an over-voltage pause takes it when that ends. -/
def fioApply (s : State) (n duty phase : Nat) (launch : Bool) : State :=
  let s := (unheldFio s n).modFio n (fun c =>
    { c with cmdDuty := BitVec.ofNat 13 duty, trips := if duty = 0 then 0 else c.trips })
  let c := s.fioCh n
  if c.outSt == 5 then s
  else if c.retryAt.isSome then (if duty = 0 then s.modFio n (fun c => { c with retryAt := none }) else s)
  else if c.hot then s
  else if s.paused 2 then (if c.isOn then fioOff s n 0 else s).modFio n (fun c => { c with resume := duty != 0 })
  else fioDrive s n phase launch

/-- The phase at which an output starts when no placement gives one. -/
def State.fioPhase (s : State) (n : Nat) : Nat :=
  match s.pinPhase (80 + n) with
  | some p => p
  | none => s.nowSlot + 1

/-- Every pin in turn. -/
def eachFio (s : State) (f : State → Nat → State) : State := (List.range 48).foldl f s

/-- An output forgotten: off, with no commanded duty. -/
def fioIdle (s : State) (n : Nat) : State :=
  (fioOff (unheldFio s n) n 0).modFio n (fun c => { c with cmdDuty := 0, resume := false, hot := false, retryAt := none, trips := 0 })

/-- A device reset, or a stay in Park or Guard: each conducting output is held at its duty; inputs report nothing until Start ends (R430, R46). -/
def fioHold (s : State) : State :=
  eachFio s (fun s n =>
    let c := s.fioCh n
    let s := s.modFio n (fun c => { c with resume := false, inSt := 0, level := false, band := 0, meas := 0 })
    if c.isOn then
      { s.modFio n (fun c => { c with outSt := 6, cmdDuty := c.duty }) with
        bezel.heldFio := setBit s.bezel.heldFio n true }
    else s)

/-- Entry to Park or Guard: each output takes its park state (R45, R429), and wake pins are armed (R427). -/
def fioPark (s : State) : State :=
  let s := eachFio s (fun s n => if s.fioIsOut n ∧ s.fioField n 0 19 1 = 1 then s else fioIdle s n)
  let arm := (List.range 16).filter (fun n => fioFunc s n == 1 && s.fioField n 0 5 1 == 1)
  fioHold { s with fio.armed := BitVec.ofNat 16 ((arm.map (fun n => 2 ^ n)).sum), fio.strobed := 0 }

/-- Every output off and no wake pin armed: Storage, supply loss. -/
def fioAllOff (s : State) : State := { eachFio s fioIdle with fio.armed := 0, fio.strobed := 0 }

/-- A mode begins: a pin that is no output in it is idle (R220, R592), and a pin that is no input reports nothing. -/
def fioClaims (s : State) : State :=
  eachFio s (fun s n =>
    let s := if s.fioIsOut n then s else fioIdle s n
    if fioFunc s n = 1 then s
    else s.modFio n (fun c => { c with inSt := 0, level := false, band := 0, meas := 0 }))

/-- Entry to Road: each implement output takes its ROAD state (R49, R429). -/
def fioRoad (s : State) : State :=
  eachFio s (fun s n =>
    if s.fioIsOut n ∧ s.fioField n 0 21 1 = 1 then
      (if s.fioField n 0 20 1 = 1 then unheldFio s n else fioIdle s n)
    else s)

/-- A pin takes its orphan state (R430): keep, off, or LIMP_DUTY. -/
def fioOrphan1 (s : State) (n : Nat) : State :=
  let o := vget s.bezel.orphans.fio n
  let c := s.fioCh n
  if c.outSt == 5 || c.retryAt.isSome then s
  else match o.kind.toNat with
    | 0 => fioOff s n 0
    | 1 => if c.isOn then s.modFio n (fun c => { c with outSt := 7 }) else s
    | _ => if o.duty = 0 then fioOff s n 0
        else s.modFio n (fun c => { c with
          outSt := 7, duty := BitVec.ofNat 13 o.duty, cmdDuty := BitVec.ofNat 13 o.duty })

/-- Reclaim as it stands (R588); the plan takes a PWM output at its free-running phase, which is left open (R307). -/
def fioReclaim (s : State) (n : Nat) : State :=
  let s := unheldFio s n
  let c := s.fioCh n
  if c.outSt == 6 || c.outSt == 7 then
    let s := s.modFio n (fun c => { c with cmdDuty := c.duty, outSt := if c.duty == 0 then 0 else 1 })
    if c.duty == 0 || c.duty == 4096 then s
    else
      let r := s.takeNat
      planOn r.2 (80 + n) r.1 (s.fioCode n) (onTime20 c.duty.toNat (s.fioCode n)) false
  else s

/-- Over-voltage pause of feed pair 2 (R697). -/
def fioPause (s : State) : State :=
  eachFio s (fun s n => if (s.fioCh n).isOn then (fioOff s n 0).modFio n (fun c => { c with resume := true }) else s)

/-- A planner frame begins: outputs that waited for the end of a pause take their commanded duty (R697). -/
def fioFrame (s : State) : State :=
  eachFio s (fun s n => if (s.fioCh n).resume && !s.paused 2 then fioDrive s n (s.fioPhase n) false else s)

end Sys2Proof.Machine
end

