-- ==== Sys2Proof/Machine/Fio.lean ====
section
/-! DEFINITION. The FIO block: its descriptors, inputs with debounce and wire-break detection, output faults and wake
strobes (chapter 11). -/

namespace Sys2Proof.Machine

/-! ## Commands -/

/-- The pin is no output in this mode, or an implement output in Road (R432, R49). -/
def State.fioBarred (s : State) (n : Nat) : Bool :=
  48 ≤ n || !s.fioIsOut n || (s.pwr.mode == .road && s.fioField n 0 21 1 == 1)

/-- Feed pair 2 lies below 6.0 V, where a turn-on from Off is refused (Table 20.2). -/
def State.pairLow (s : State) (k : Nat) : Bool := (vget s.hso.vfeed k).toNat < 6000

/-- Status of a new duty for one output (R423, R425, R432). -/
def fioCheck (s : State) (n duty : Nat) : Nat :=
  let c := s.fioCh n
  let on := onTime20 duty (s.fioCode n)
  if s.fioBarred n then stRefusedState
  else if duty != 0 && c.outSt == 5 then stFaultChannel
  else if duty != 0 && !c.isOn && s.pairLow 2 then stRefusedState
  else if duty != 0 && duty != 4096 && (on < 20000 || periodNs (s.fioCode n) - on < 20000) then 0x80
  else stOk

/-- The edges of a change at a slot (R289). -/
def fioEdges (s : State) (n duty a : Nat) : List FEdge :=
  if duty = 0 ∨ duty = 4096 then [⟨2, a % 1024, duty != 0, s.weight (80 + n)⟩]
  else periodEdges 2 (s.weight (80 + n)) (a % periodSlots (s.fioCode n)) (s.fioCode n) (onTime20 duty (s.fioCode n))

/-- A change enters the plan at its slot. -/
def fioEnter (slot duty : Nat) (s : State) (n : Nat) : State :=
  if duty = 0 ∨ duty = 4096 then
    addShot s { pair := 2, slot := slot, rising := duty != 0, weight := s.weight (80 + n), chan := some (80 + n) }
  else planOn s (80 + n) slot (s.fioCode n) (onTime20 duty (s.fioCode n)) false

/-- The change moves no edge. -/
def fioStill (s : State) (n duty : Nat) : Bool :=
  let c := s.fioCh n
  (duty == 0 && !c.isOn) || (duty == 4096 && c.duty == 4096 && c.outSt == 1) || c.retryAt.isSome || c.hot || s.paused 2

/-- A change without a due time (R424): as for high-side channels. -/
def fioPlan (s : State) (a : Act) (chans : List Nat) (duty : Nat) : State :=
  let pend (slot : Nat) (atPeriod : Bool) : Planned :=
    { act := a, chans := chans.map (80 + ·), duty := BitVec.ofNat 13 duty, slot := slot, atPeriod := atPeriod }
  if chans.all (fun n => fioStill s n duty) then
    finish (chans.foldl (fun s n => fioApply s n duty (s.fioPhase n) false) s) a
  else
    match chans with
    | [n] =>
      if (vget s.edge.ch (80 + n)).active && duty != 0 && duty != 4096 then
        { s with edge.pending := s.edge.pending ++ [pend 0 true] }
      else
        let r := s.place (80 + n) (s.fioCode n) 0 (fun a => fioEdges s n duty a)
        let s := fioEnter r.1 duty { s with edge.pending := s.edge.pending ++ [pend r.1 false] } n
        replan (if r.2 then overPlan s (80 + n) (r.1 % 1024) else s)
    | _ =>
      let r := s.choose (chans.map (80 + ·)) (fun a => chans.flatMap (fun n => fioEdges s n duty a)) (s.candidates 0)
      replan (chans.foldl (fioEnter r.1 duty) { s with edge.pending := s.edge.pending ++ [pend r.1 false] })

/-- A launched change acts on its fire tick, with its period at the slot of DUE and pinned there (R125). -/
def fioFire (s : State) (a : Act) (chans : List Nat) (duty : Nat) : State :=
  let slot := slotOf a.instant
  let s := chans.foldl (fun s n =>
    let s := if duty = 0 ∨ duty = 4096 then
        addShot s { pair := 2, slot := slot, rising := duty != 0, weight := s.weight (80 + n) } else s
    fioApply s n duty slot true) s
  finish (replan s) a

/-- FIO_SET acts. -/
def actFioSet (ch : BitVec 6) (duty : BitVec 13) (a : Act) (s : State) : State :=
  let x := fioCheck s ch.toNat duty.toNat
  if x ≠ stOk then refuse s a x
  else if a.fired then fioFire s a [ch.toNat] duty.toNat
  else fioPlan s a [ch.toNat] duty.toNat

/-- FIO_SET. -/
def execFioSet (d : Desc) (ch : BitVec 6) (duty : BitVec 13) (s : State) : Host.Outcome State Fault Refusal :=
  .next (accept d (.fioSet ch duty) (actFioSet ch duty) s)

/-- FIO_MULTI acts: a failing pin fails all, with its number (Table 11.6). -/
def actFioMulti (mask : BitVec 64) (duty : BitVec 13) (a : Act) (s : State) : State :=
  let chans := maskList mask
  match (chans.map (fun n => (n, fioCheck s n duty.toNat))).find? (fun x => x.2 != stOk) with
  | some (n, x) => refuse s a x n
  | none => if a.fired then fioFire s a chans duty.toNat else fioPlan s a chans duty.toNat

/-- FIO_MULTI. -/
def execFioMulti (d : Desc) (mask : BitVec 64) (duty : BitVec 13) (s : State) : Host.Outcome State Fault Refusal :=
  .next (accept d (.fioMulti mask duty) (actFioMulti mask duty) s)

/-- FIO_CLEAR acts: the latch clears and the pin stays off (R425). -/
def actFioClear (ch : BitVec 6) (a : Act) (s : State) : State :=
  let n := ch.toNat
  if s.fioBarred n then refuse s a stRefusedState
  else
    let s := s.modFio n (fun c => { c with trips := 0 })
    finish (if (s.fioCh n).outSt == 5 then (fioOff s n 0).modFio n (fun c => { c with cmdDuty := 0 }) else s) a

/-- FIO_CLEAR. -/
def execFioClear (d : Desc) (ch : BitVec 6) (s : State) : Host.Outcome State Fault Refusal :=
  .next (accept d (.fioClear ch) (actFioClear ch) s)

/-- FIO_READ acts (Table 11.6). A command to a pin that is no output is refused (R432). -/
def actFioRead (ch : BitVec 6) (a : Act) (s : State) : State :=
  if s.fioBarred ch.toNat then refuse s a stRefusedState
  else finish s a 0 (fioStat s ch.toNat) (fioFlags s ch.toNat)

/-- FIO_READ. -/
def execFioRead (d : Desc) (ch : BitVec 6) (s : State) : Host.Outcome State Fault Refusal :=
  .next (accept d (.fioRead ch) (actFioRead ch) s)

/-! ## Output faults (Table 11.4) -/

/-- OUTPUT_CURRENT_LIMIT_TRIP: off, a retry after 100 ms, a latch at the third consecutive trip (R425). While PD_ACT is
not On the output stays off. -/
def execOutputCurrentLimitTrip (pin : Fin 48) (s : State) : Host.Outcome State Fault Refusal :=
  .next (if !(s.fioCh pin).isOn then s
    else
      let n := (s.fioCh pin).trips + 1
      let s := logEvent (s.modFio pin (fun c => { c with limit := true, trips := n })) 0x0B01 [pin.val]
      if !s.isOn .act then fioOff s pin 0
      else if 3 ≤ n then logEvent (fioOff s pin 5) 0x0B02 [pin.val]
      else (fioOff s pin 0).modFio pin (fun c => { c with retryAt := some (s.clk.ns + 100 * ms) }))

/-- OUTPUT_RETRY: the output takes its commanded duty again (R425). -/
def execOutputRetry (pin : Fin 48) (s : State) : Host.Outcome State Fault Refusal :=
  .next (match (s.fioCh pin).retryAt with
    | some t =>
      let s := (s.reach t).modFio pin (fun c => { c with retryAt := none })
      if s.paused 2 then s.modFio pin (fun c => { c with resume := true }) else fioDrive s pin (s.fioPhase pin) false
    | none => s)

/-- OUTPUT_OT: off while the junction is hot, back on below 155 °C (Table 11.4). -/
def execOutputOt (pin : Fin 48) (hot : Bool) (s : State) : Host.Outcome State Fault Refusal :=
  let c := s.fioCh pin
  .next (if hot then
      if c.isOn then
        (fioOff (logEvent (s.modFio pin (fun c => { c with ot := true })) 0x0B03 [pin.val]) pin 0).modFio pin
          (fun c => { c with hot := true })
      else s
    else if c.hot then
      let s := s.modFio pin (fun c => { c with hot := false })
      if s.paused 2 then s.modFio pin (fun c => { c with resume := true }) else fioDrive s pin (s.fioPhase pin) false
    else s)

/-- OUTPUT_OPEN_LOAD: the live flag of R426, event 0x0B05 when it is set. -/
def execOutputOpenLoad (pin : Fin 48) (below : Bool) (s : State) : Host.Outcome State Fault Refusal :=
  let c := s.fioCh pin
  let on := below && c.isOn && s.fioField pin 0 24 1 == 1
  let s' := s.modFio pin (fun c => { c with openLoad := on })
  .next (if on && !c.openLoad then logEvent s' 0x0B05 [pin.val] else s')

end Sys2Proof.Machine
end

