-- ==== Sys2Proof/Machine/HsoOps.lean ====
section
/-! DEFINITION. High-side channels: classes, records, duties, switching, trips and retries, and what mode entries,
resets, hold and the governor do to them (R234 to R279). -/

namespace Sys2Proof.Machine

/-! ## Classes and records -/

/-- Class of a channel (Table 6.1): 0 H, 1 M, 2 L. -/
def hsoClass (ch : Nat) : Nat := if ch < 8 then 0 else if ch < 32 then 1 else 2

/-- Power group of a channel (Table 6.1). -/
def hsoGroup (ch : Nat) : Nat := ch / 8

/-- Channels of a power group. -/
def groupChans (g : Nat) : List Nat := (List.range 8).map (fun j => 8 * g + j)

/-- Feed pair of a power group (Table 6.1). -/
def groupPair (g : Nat) : Nat := if g = 0 then 0 else if g < 4 then 1 else 2

/-- The channel. -/
def State.hsoCh (s : State) (ch : Nat) : HsoCh := vget s.hso.ch ch

/-- A channel changed. -/
def State.modHso (s : State) (ch : Nat) (f : HsoCh → HsoCh) : State := { s with hso.ch := vmod s.hso.ch ch f }

/-- A group changed. -/
def State.modGrp (s : State) (g : Nat) (f : HsoGrp → HsoGrp) : State := { s with hso.grp := vmod s.hso.grp g f }

/-- The HSO_LOAD record of a channel in the current mode. -/
def State.hsoLoad (s : State) (ch : Nat) : Option Rec := s.rec? 5 1 ch

/-- A field of it, or 0. -/
def State.hsoField (s : State) (ch k lo width : Nat) : Nat := s.recField 5 1 ch k lo width 0

/-- LAMP of the channel. -/
def State.hsoLamp (s : State) (ch : Nat) : Bool := s.hsoField ch 4 3 1 == 1

/-- Shed priority 0: the channel is essential (R82). -/
def State.hsoEssential (s : State) (ch : Nat) : Bool := s.hsoField ch 5 4 3 == 0

/-- Period code of the channel; code 0 where no record gives one. -/
def State.hsoCode (s : State) (ch : Nat) : Nat := (s.periodCode ch).getD 0

/-- The channel conducts. -/
def HsoCh.isOn (c : HsoCh) : Bool :=
  match c.st with
  | .on => true | .pwm => true | .soft => true
  | .held => c.duty != 0 | .orphan => c.duty != 0
  | _ => false

/-- Feed voltage of the channel in mV (HSO_VFEED_k). -/
def State.hsoFeed (s : State) (ch : Nat) : Nat := (vget s.hso.vfeed (groupPair (hsoGroup ch))).toNat

/-! ## Duty -/

/-- The duty is below the class minimum on-time or off-time (R242). -/
def State.dutyShort (s : State) (ch duty : Nat) : Bool :=
  let on := onTime20 duty (s.hsoCode ch)
  duty != 0 && duty != 4096 && (on < minTime ch || periodNs (s.hsoCode ch) - on < minTime ch)

/-- Lamp-mode reference voltage in mV (Table 6.6). -/
def State.lampRef (s : State) (ch : Nat) : Nat :=
  match s.hsoField ch 4 4 2 with
  | 0 => if s.sys.sysv then 27000 else 13500
  | 1 => 13500
  | 2 => 27000
  | _ => 100 * s.hsoField ch 4 6 10

/-- D_applied of lamp mode (R246 to R248): the duty scaled by the square of the voltage ratio, then raised to the
minimum on-time or to 4096 where an on-time or off-time is too short. -/
def State.lampDuty (s : State) (ch duty : Nat) : Nat :=
  let v := max 6000 (s.hsoFeed ch)
  let r := s.lampRef ch
  let d := min 4096 (duty * (r * r) / (v * v))
  let t := periodNs (s.hsoCode ch)
  let on := onTime20 d (s.hsoCode ch)
  if d = 4096 ∨ t - on < minTime ch then 4096
  else if on < minTime ch then (minTime ch * 4096 + t - 1) / t
  else d

/-- The duty that a period applies for a commanded duty. -/
def State.appliedDuty (s : State) (ch duty : Nat) : Nat := if s.hsoLamp ch then s.lampDuty ch duty else duty

/-! ## Commanded states -/

/-- What a commanded STATE and duty come to (R239, R240): 0 Off, 1 On, 2 PWM, 3 a ramp. -/
def hsoEffect (st duty : Nat) : Nat :=
  match st with
  | 0 => 0
  | 1 => 1
  | 2 => if duty = 0 then 0 else if 4096 ≤ duty then 1 else 2
  | _ => if duty = 0 then 0 else 3

/-- The bit of the held mask that stands for the channel leaves it (R588). -/
def unheldHso (s : State) (ch : Nat) : State := { s with bezel.heldHso := setBit s.bezel.heldHso ch false }

/-- The channel turns off, and its edges leave the plan. -/
def hsoOff (s : State) (ch : Nat) (st : HsoSt) : State :=
  planOff (s.modHso ch (fun c => { c with
    st := st, duty := 0, inrush := false, soft := 0,
    sense := match st with | .retry => 4095 | .latched => 4095 | .stb => 4095 | _ => 0 })) ch

/-- A turn-on ends an off-state test without a result; an HSO_OLTEST that asked for it meets a channel that is on
(Table 6.13). -/
def endTest (s : State) (ch : Nat) : State :=
  match (s.hsoCh ch).test with
  | some (some a) => refuse s a stRefusedState
  | _ => s

/-- The channel turns on in a state with an applied duty; from off it opens its inrush window (R250). -/
def hsoTurn (s : State) (ch : Nat) (st : HsoSt) (duty : Nat) : State :=
  let opens := (!(s.hsoCh ch).isOn || st == .soft) && s.hsoField ch 1 16 8 != 0
  let s := endTest s ch
  s.modHso ch (fun c => { c with
    st := st, duty := BitVec.ofNat 13 duty, soft := 0, resume := false, inrush := c.inrush || opens,
    onSince := if c.isOn then c.onSince else s.clk.ns, test := none,
    sense := if c.sense == 4095 then 0 else c.sense })

/-- The channel takes its commanded state with its period starting at a phase. `launch` pins the phase (R125). -/
def hsoDrive (s : State) (ch phase : Nat) (launch : Bool) : State :=
  let c := s.hsoCh ch
  let d := c.cmdDuty.toNat
  match hsoEffect c.cmdSt.toNat d with
  | 0 => (hsoOff s ch .off).modHso ch (fun c => { c with resume := false })
  | 1 => planOff (hsoTurn s ch .on 4096) ch
  | 2 =>
    let a := s.appliedDuty ch d
    planOn (hsoTurn s ch .pwm a) ch phase (s.hsoCode ch) (onTime20 a (s.hsoCode ch)) launch
  | _ => planOn (hsoTurn s ch .soft 0) ch phase (s.hsoCode ch) 0 launch

/-- The phase at which a channel starts when no placement gives one: its pinned phase, or the next slot. -/
def State.freePhase (s : State) (ch : Nat) : Nat :=
  match s.pinPhase ch with
  | some p => p
  | none => s.nowSlot + 1

/-- A change of state reaches a channel: it is reclaimed (R588) and its commanded state recorded. A latched channel and
one in short-to-battery hold stay off; a commanded Off ends a retry wait (R258); during an over-voltage pause the state
waits for its end (R697). -/
def hsoApply (s : State) (ch st duty phase : Nat) (launch : Bool) : State :=
  let s := (unheldHso s ch).modHso ch (fun c =>
    { c with cmdSt := BitVec.ofNat 2 st, cmdDuty := BitVec.ofNat 13 duty })
  match (s.hsoCh ch).st with
  | .latched => s
  | .stb => s
  | .shed => s
  | .retry => if hsoEffect st duty = 0 then hsoOff s ch .off else s
  | _ =>
    if s.paused (groupPair (hsoGroup ch)) then
      (if (s.hsoCh ch).isOn then hsoOff s ch .off else s).modHso ch (fun c => { c with resume := hsoEffect st duty != 0 })
    else hsoDrive s ch phase launch

/-! ## Trips and retries -/

/-- The sense code of the channel as event data. -/
def hsoEvent (s : State) (code ch : Nat) : State := logEvent s code [ch, (s.hsoCh ch).sense.toNat]

/-- The channel latches: event 0x0505. -/
def hsoLatch (s : State) (ch : Nat) : State := hsoEvent (hsoOff s ch .latched) 0x0505 ch

/-- A trip switches the channel off. While PD_ACT is not On only its power die acts: the channel stays off until the
next Start (R46). Otherwise it waits for a retry, or latches. -/
def hsoTrip (s : State) (ch : Nat) (kind : RetryKind) (latch : Bool) : State :=
  let s := s.modHso ch (fun c => { c with tripAt := s.clk.ns })
  if !s.isOn .act then hsoOff s ch .off
  else if latch then hsoLatch s ch
  else (hsoOff s ch .retry).modHso ch (fun c => { c with kind := kind })

/-- A wire-model, overload or group over-temperature trip latches after three retries (R257). -/
def State.hsoSpent (s : State) (ch : Nat) : Bool := (s.hsoCh ch).retries == 3

/-- An overload trip (R251, R266). -/
def hsoOverload (s : State) (ch : Nat) : State :=
  let s := hsoEvent (s.modHso ch (fun c => { c with overload := true })) 0x0504 ch
  hsoTrip s ch .wire (s.hsoSpent ch)

/-- A retry: the channel turns back on in its commanded state, event 0x050C. `count` adds it to RETRIES (R257). -/
def hsoRetry (s : State) (ch : Nat) (count : Bool) : State :=
  let s := hsoEvent s 0x050C ch
  let s := s.modHso ch (fun c => { c with st := .off, retries := if count then c.retries + 1 else c.retries })
  if s.paused (groupPair (hsoGroup ch)) then s.modHso ch (fun c => { c with resume := true, sense := 0 })
  else if s.pwr.shedFrom ≤ s.hsoField ch 5 4 3 ∧ !s.hsoEssential ch then s.modHso ch (fun c => { c with st := .shed, sense := 0 })
  else hsoDrive s ch (s.freePhase ch) false

/-- HSO_CLEAR's effect: latch, retry count and short-to-battery hold of the channel (R262, R271). A channel that was
latched stays off until its next HSO_SET; a running one runs on, and a retry wait goes on. -/
def hsoClear (s : State) (ch : Nat) : State :=
  let s := s.modHso ch (fun c => { c with retries := 0, otTrips := [], fastRetryAt := none })
  match (s.hsoCh ch).st with
  | .latched => (hsoOff s ch .off).modHso ch (fun c => { c with cmdSt := 0, cmdDuty := 0 })
  | .stb =>
    if (s.hsoCh ch).stbClean then (hsoOff s ch .off).modHso ch (fun c => { c with cmdSt := 0, cmdDuty := 0 })
    else s.modHso ch (fun c => { c with stbCleared := true })
  | _ => s

/-! ## Group current -/

/-- Sense scale in µA for one code (Table 6.12). -/
def senseScale (ch : Nat) : Nat := if ch < 8 then 31250 else if ch < 32 then 12500 else 6250

/-- Sense code of a current in mA; a current above full scale reads 4000 (R272). -/
def senseCode (ch ma : Nat) : Nat := min 4000 (ma * 1000 / senseScale ch)

/-- The non-essential channel of a group that conducts the highest current, relative to I_CONT where `rel` is set; ties
to the lowest channel (R266, R269). -/
def State.worst (s : State) (g : Nat) (rel : Bool) : Option Nat :=
  let i (ch : Nat) : Nat × Nat := ((s.hsoCh ch).sense.toNat, if rel then max 1 (s.hsoField ch 0 0 16) else 1)
  ((groupChans g).filter (fun ch => (s.hsoCh ch).isOn && !s.hsoEssential ch)).foldl (fun (b : Option Nat) ch =>
    match b with
    | none => some ch
    | some x => if fracLt (i x) (i ch) then some ch else some x) none

/-! ## Modes, shedding, hold -/

/-- Every channel changed in turn. -/
def eachHso (s : State) (f : State → Nat → State) : State := (List.range 64).foldl f s

/-- A device reset, or a stay in Park or Guard: the latch keeps each conducting channel as it is, free-running (R277, R46). Latches and waits stand. -/
def hsoHold (s : State) : State :=
  eachHso s (fun s ch =>
    let c := s.hsoCh ch
    let s := s.modHso ch (fun c => { c with resume := false, test := none, inrush := false })
    if c.isOn then
      { s.modHso ch (fun c => { c with
          st := .held, cmdSt := if c.duty == 4096 then 1 else 2, cmdDuty := c.duty }) with
        bezel.heldHso := setBit s.bezel.heldHso ch true }
    else if c.st == .shed then hsoOff s ch .off else s)

/-- Entry to Park or Guard: each channel takes its park state (R45); a kept one is held by its latch (R46). -/
def hsoPark (s : State) : State :=
  hsoHold (eachHso s (fun s ch => if s.hsoField ch 5 0 1 = 1 then s else hsoOff (unheldHso s ch) ch .off))

/-- Every channel off: entry to Storage (R45), supply loss (R594). -/
def hsoAllOff (s : State) : State := eachHso s (fun s ch => hsoOff s ch .off)

/-- A mode begins: each channel that its records do not give to HSO is driven idle (R220, R592). -/
def hsoClaims (s : State) : State :=
  eachHso s (fun s ch => match s.hsoLoad ch with
    | some _ => s
    | none => hsoOff ((unheldHso s ch).modHso ch (fun c => { c with cmdSt := 0, cmdDuty := 0, resume := false })) ch .off)

/-- Entry to Road: each implement channel takes its ROAD state and leaves the hold (R49, R591). -/
def hsoRoad (s : State) : State :=
  eachHso s (fun s ch =>
    if s.hsoField ch 5 2 1 = 1 then
      let s := unheldHso s ch
      if s.hsoField ch 5 1 1 = 1 then s
      else hsoOff (s.modHso ch (fun c => { c with cmdSt := 0, cmdDuty := 0, resume := false })) ch .off
    else s)

/-- A channel takes the orphan state of the retention table (R279): keep, off, or PWM at the limp duty. -/
def hsoOrphan1 (s : State) (ch : Nat) : State :=
  let o := vget s.bezel.orphans.hso ch
  match (s.hsoCh ch).st with
  | .retry => s
  | .latched => s
  | .stb => s
  | _ =>
    match o.kind.toNat with
    | 0 => hsoOff s ch .off
    | 1 => if (s.hsoCh ch).isOn then s.modHso ch (fun c => { c with st := .orphan }) else s
    | _ => if o.duty = 0 then hsoOff s ch .off
        else s.modHso ch (fun c => { c with
          st := .orphan, duty := BitVec.ofNat 13 o.duty, cmdSt := if o.duty == 4096 then 1 else 2,
          cmdDuty := BitVec.ofNat 13 o.duty })

/-- Reclaim of a held or orphaned channel as it stands (R588): its state is its commanded state. A PWM channel enters the
plan at its free-running phase as an unpinned channel (R307); the phase is that of the die's own generator, which the
spec leaves open. -/
def hsoReclaim (s : State) (ch : Nat) : State :=
  let s := unheldHso s ch
  let c := s.hsoCh ch
  match c.st with
  | .held | .orphan =>
    if c.duty == 4096 then s.modHso ch (fun c => { c with st := .on, cmdSt := 1 })
    else if c.duty == 0 then hsoOff s ch .off
    else
      let r := s.takeNat
      planOn (r.2.modHso ch (fun c => { c with st := .pwm, cmdSt := 2, cmdDuty := c.duty })) ch r.1 (s.hsoCode ch)
        (onTime20 c.duty.toNat (s.hsoCode ch)) false
  | _ => s

/-- The governor sheds the channels of one priority (R83, R276): event 0x050A for each. -/
def hsoShed (s : State) (prio : Nat) : State :=
  eachHso s (fun s ch =>
    let c := s.hsoCh ch
    if (s.hsoLoad ch).isSome && s.hsoField ch 5 4 3 == prio && prio != 0
        && c.st != .retry && c.st != .latched && c.st != .stb && c.st != .shed then
      hsoEvent (hsoOff s ch .shed) 0x050A ch
    else s)

/-- The governor releases step 5: each shed channel takes its recorded state on the next frame (R276). -/
def hsoUnshed (s : State) : State :=
  eachHso s (fun s ch => if (s.hsoCh ch).st == .shed then s.modHso ch (fun c => { c with resume := true }) else s)

/-- Over-voltage pause of feed pair `k`: its channels switch off and take their commanded state afterwards (R697). -/
def hsoPause (s : State) (k : Nat) : State :=
  eachHso s (fun s ch =>
    if pairOf ch == k && (s.hsoCh ch).isOn then (hsoOff s ch .off).modHso ch (fun c => { c with resume := true }) else s)

/-- A planner frame begins: channels released from shedding or from an over-voltage pause take their commanded state,
shed priority 1 first (R276, R697). -/
def hsoFrame (s : State) : State :=
  let go (s : State) (ch : Nat) : State :=
    let c := s.hsoCh ch
    if c.resume && !s.paused (pairOf ch) then
      let s := if c.st == .shed then hsoEvent s 0x050A ch else s
      hsoDrive (s.modHso ch (fun c => { c with st := .off, resume := false })) ch (s.freePhase ch) false
    else s
  (List.range 8).foldl (fun s p => eachHso s (fun s ch => if s.hsoField ch 5 4 3 == p then go s ch else s)) s

/-- At Start the reverse-feed flags of the dies are read, logged and cleared (R263), and ΔT comes back (R259). -/
def hsoStart (s : State) (powerOn : Bool) : State :=
  let s := (List.range 8).foldl (fun s g =>
    if (vget s.hso.grp g).reversed then logEvent (s.modGrp g (fun x => { x with reversed := false })) 0x050B [g] else s) s
  eachHso s (fun s ch => s.modHso ch (fun c => { c with dt := if powerOn then 0 else vget s.bezel.retDt ch }))

end Sys2Proof.Machine
end

