-- ==== Sys2Proof/Machine/Hso.lean ====
section
/-! DEFINITION. The HSO block: its descriptors and the events of its protection and diagnostics (chapter 6). -/

namespace Sys2Proof.Machine

/-! ## Switching commands -/

/-- Status of a change of state on one channel, OK where it may act (R49, R242, R270, R282, Table 20.2). -/
def hsoCheck (s : State) (ch st duty : Nat) : Nat :=
  let c := s.hsoCh ch
  let e := hsoEffect st duty
  if (s.hsoLoad ch).isNone then stRefusedState
  else if s.pwr.mode == .road && s.hsoField ch 5 2 1 == 1 then stRefusedState
  else if e != 0 && (c.st == .retry || c.st == .latched || c.st == .stb) then stFaultChannel
  else if e != 0 && c.st == .off && s.hsoFeed ch < 6000 then stRefusedState
  else if 2 ≤ e && !s.hsoLamp ch && s.dutyShort ch duty then 0x80
  else stOk

/-- The edges that a change makes at a slot (R289, R294): of a single switch its one edge, of PWM and soft-start those
of the period with the commanded duty. -/
def hsoEdges (s : State) (ch st duty a : Nat) : List FEdge :=
  let one (r : Bool) : FEdge := ⟨pairOf ch, a % 1024, r, s.weight ch⟩
  match hsoEffect st duty with
  | 0 => [one false]
  | 1 => [one true]
  | _ => periodEdges (pairOf ch) (s.weight ch) (a % periodSlots (s.hsoCode ch)) (s.hsoCode ch)
      (onTime20 (s.appliedDuty ch duty) (s.hsoCode ch))

/-- The change moves no edge: the channel is and stays off, or is and stays on. -/
def hsoStill (s : State) (ch st duty : Nat) : Bool :=
  let c := s.hsoCh ch
  match hsoEffect st duty with
  | 0 => !c.isOn
  | 1 => c.st == .on
  | _ => false

/-- Slot before which a turn-on from Off in the channel's group does not take effect (R268). -/
def State.hsoHoldSlot (s : State) (ch : Nat) : Nat :=
  match (vget s.hso.grp (hsoGroup ch)).holdoff with
  | some t => if (s.hsoCh ch).isOn then 0 else slotFrom (s.weave.time.toNat + (t - s.clk.ns))
  | none => 0

/-- A change is entered in the plan at its slot: PWM and soft-start as a running channel, a single switch as a one-shot
edge. -/
def hsoEnter (slot st duty : Nat) (s : State) (ch : Nat) : State :=
  match hsoEffect st duty with
  | 0 => addShot s { pair := pairOf ch, slot := slot, rising := false, weight := s.weight ch, chan := some ch }
  | 1 => addShot s { pair := pairOf ch, slot := slot, rising := true, weight := s.weight ch, chan := some ch }
  | _ => planOn s ch slot (s.hsoCode ch) (onTime20 (s.appliedDuty ch duty) (s.hsoCode ch)) false

/-- A change without a due time on channels that all pass their checks: one without an edge acts at once; a new duty of
one running PWM channel waits for its next period (R295); any other waits for the slot of the planner (R244). -/
def hsoPlan (s : State) (a : Act) (chans : List Nat) (st duty : Nat) : State :=
  let done (s : State) : State := finish (chans.foldl (fun s ch => hsoApply s ch st duty (s.freePhase ch) false) s) a
  let pend (slot : Nat) (atPeriod : Bool) : Planned :=
    { act := a, chans := chans, st := BitVec.ofNat 2 st, duty := BitVec.ofNat 13 duty, slot := slot, atPeriod := atPeriod }
  let waits := fun ch => s.paused (pairOf ch) || (s.hsoCh ch).st == .retry
  if chans.all (fun ch => hsoStill s ch st duty || waits ch) then done s
  else
    match chans with
    | [ch] =>
      if (s.hsoCh ch).st == .pwm && hsoEffect st duty == 2 then
        { s with edge.pending := s.edge.pending ++ [pend 0 true] }
      else
        let hold := if hsoEffect st duty = 0 then 0 else s.hsoHoldSlot ch
        let r := s.place ch (s.hsoCode ch) hold (fun a => hsoEdges s ch st duty a)
        let s := hsoEnter r.1 st duty { s with edge.pending := s.edge.pending ++ [pend r.1 false] } ch
        replan (if r.2 then overPlan s ch (r.1 % 1024) else s)
    | _ =>
      let hold := if hsoEffect st duty = 0 then 0 else chans.foldl (fun m ch => max m (s.hsoHoldSlot ch)) 0
      let r := s.choose chans (fun a => chans.flatMap (fun ch => hsoEdges s ch st duty a)) (s.candidates 0)
      let slot := max r.1 hold
      replan (chans.foldl (hsoEnter slot st duty) { s with edge.pending := s.edge.pending ++ [pend slot false] })

/-- A launched change acts on its fire tick: PWM and soft-start begin at the slot of DUE, where the launch pins them
(R125); a single switch leaves a one-shot edge in its frame (R293). -/
def hsoFire (s : State) (a : Act) (chans : List Nat) (st duty : Nat) : State :=
  let slot := slotOf a.instant
  let s := chans.foldl (fun s ch =>
    let s := match hsoEffect st duty with
      | 0 => addShot s { pair := pairOf ch, slot := slot, rising := false, weight := s.weight ch }
      | 1 => addShot s { pair := pairOf ch, slot := slot, rising := true, weight := s.weight ch }
      | _ => s
    hsoApply s ch st duty slot true) s
  finish (replan s) a

/-- The first channel of a list that fails its checks, with its status (R281). -/
def hsoFirstBad (s : State) (chans : List Nat) (st duty : Nat) : Option (Nat × Nat) :=
  (chans.map (fun ch => (ch, hsoCheck s ch st duty))).find? (fun x => x.2 != stOk)

/-- HSO_SET acts. A shed channel records the command and stays off (R276). -/
def actHsoSet (ch : BitVec 6) (st : BitVec 2) (duty : BitVec 13) (a : Act) (s : State) : State :=
  let x := hsoCheck s ch.toNat st.toNat duty.toNat
  if x ≠ stOk then refuse s a x
  else if (s.hsoCh ch.toNat).st == .shed then finishAs (hsoApply s ch.toNat st.toNat duty.toNat 0 false) a 0x81
  else if a.fired then hsoFire s a [ch.toNat] st.toNat duty.toNat
  else hsoPlan s a [ch.toNat] st.toNat duty.toNat

/-- HSO_SET. -/
def execHsoSet (d : Desc) (ch : BitVec 6) (state : BitVec 2) (duty : BitVec 13) (s : State) :
    Host.Outcome State Fault Refusal :=
  .next (accept d (.hsoSet ch state duty) (actHsoSet ch state duty) s)

/-- HSO_MULTI acts: one failing channel fails all, with its number (R281); a shed channel records its command. -/
def actHsoMulti (mask : BitVec 64) (st : BitVec 2) (duty : BitVec 13) (a : Act) (s : State) : State :=
  let chans := maskList mask
  match hsoFirstBad s chans st.toNat duty.toNat with
  | some (ch, x) => refuse s a x ch
  | none =>
    let shed := chans.filter (fun ch => (s.hsoCh ch).st == .shed)
    let run := chans.filter (fun ch => (s.hsoCh ch).st != .shed)
    let s := shed.foldl (fun s ch => hsoApply s ch st.toNat duty.toNat 0 false) s
    if !shed.isEmpty then
      finishAs (run.foldl (fun s ch => hsoApply s ch st.toNat duty.toNat (s.freePhase ch) a.fired) s) a 0x81 (shed.headD 0)
    else if a.fired then hsoFire s a run st.toNat duty.toNat
    else hsoPlan s a run st.toNat duty.toNat

/-- HSO_MULTI. -/
def execHsoMulti (d : Desc) (mask : BitVec 64) (state : BitVec 2) (duty : BitVec 13) (s : State) :
    Host.Outcome State Fault Refusal :=
  .next (accept d (.hsoMulti mask state duty) (actHsoMulti mask state duty) s)

/-- A command to this channel is refused: no record of the mode gives it to HSO (R282), or it is an implement channel in
Road (R49). -/
def State.hsoBarred (s : State) (ch : Nat) : Bool :=
  (s.hsoLoad ch).isNone || (s.pwr.mode == .road && s.hsoField ch 5 2 1 == 1)

/-- HSO_CLEAR acts. -/
def actHsoClear (ch : BitVec 6) (a : Act) (s : State) : State :=
  if s.hsoBarred ch.toNat then refuse s a stRefusedState else finish (hsoClear s ch.toNat) a

/-- HSO_CLEAR. -/
def execHsoClear (d : Desc) (ch : BitVec 6) (s : State) : Host.Outcome State Fault Refusal :=
  .next (accept d (.hsoClear ch) (actHsoClear ch) s)

/-- HSO_READ acts (Table 6.13). -/
def actHsoRead (ch : BitVec 6) (a : Act) (s : State) : State :=
  if s.hsoBarred ch.toNat then refuse s a stRefusedState
  else
    let c := s.hsoCh ch.toNat
    finish s a 0 (c.sense.toNat + field 16 c.st.num + flag 20 c.inrush + field 21 c.retries.toNat) (hsoFlags s ch.toNat)

/-- HSO_READ. -/
def execHsoRead (d : Desc) (ch : BitVec 6) (s : State) : Host.Outcome State Fault Refusal :=
  .next (accept d (.hsoRead ch) (actHsoRead ch) s)

/-- Off-state tests run with the feed between 9 V and 32 V (R261, Table 20.2). -/
def State.hsoTestBand (s : State) (ch : Nat) : Bool := 9000 ≤ s.hsoFeed ch && s.hsoFeed ch ≤ 32000

/-- HSO_OLTEST acts: the test starts now, and its end completes the descriptor. -/
def actHsoOltest (ch : BitVec 6) (a : Act) (s : State) : State :=
  let c := s.hsoCh ch.toNat
  if s.hsoBarred ch.toNat || c.isOn || !s.hsoTestBand ch.toNat then refuse s a stRefusedState
  else match c.test with
    | some (some b) => refuse (s.modHso ch.toNat (fun c => { c with test := some (some a) })) b stConflict
    | _ => s.modHso ch.toNat (fun c => { c with test := some (some a) })

/-- HSO_OLTEST. -/
def execHsoOltest (d : Desc) (ch : BitVec 6) (s : State) : Host.Outcome State Fault Refusal :=
  .next (accept d (.hsoOltest ch) (actHsoOltest ch) s)

/-! ## Soft-start, feed, sense -/

/-- SOFT_START_STEP: one of the 64 steps of a ramp; the last holds the target, a target of 4096 in On (R243). -/
def execSoftStartStep (ch : Fin 64) (s : State) : Host.Outcome State Fault Refusal :=
  let c := s.hsoCh ch
  .next (if c.st != .soft then s
    else
      let k := c.soft + 1
      let d := s.appliedDuty ch (c.cmdDuty.toNat * k / 64)
      if 64 ≤ k ∧ c.cmdDuty = 4096 then planOff (hsoTurn s ch .on 4096) ch
      else
        let s := s.modHso ch (fun c => { c with
          soft := k, duty := BitVec.ofNat 13 d, st := if 64 ≤ k then .pwm else .soft })
        planOnTime s ch (onTime20 d (s.hsoCode ch)))

/-- FEED_MEASURE: the feed voltages (R247), and BST with them (VLV_BST_STAT); slow decay under R319 ends once BST lies
below the set-point plus 1.0 V. The measurement runs in PD_ACT. -/
def execFeedMeasure (mv0 mv1 mv2 bst : BitVec 16) (s : State) : Host.Outcome State Fault Refusal :=
  .next (if s.isOn .act then
    { s with hso.vfeed := ⟨#[mv0, mv1, mv2], rfl⟩, vlv.bst := bst,
             upd.feed := s.upd.feed.filter (fun x => s.clk.ns < x.1 + sec)
               ++ [(s.clk.ns, min mv0.toNat (min mv1.toNat mv2.toNat))],
             vlv.slowAll := s.vlv.slowAll && (bstSet s + 10) * 10 ≤ bst.toNat }
    else s)

/-- SENSE_UPDATE: the channel's mean on-state current gives its sense code (R272, R273); the group's mean current and
temperature are read with it. Off without a fault reads 0, and a fault reads 4095. -/
def execSenseUpdate (ch : Fin 64) (milliamps : Nat) (groupTenMa : BitVec 16) (groupTemp : BitVec 8) (s : State) :
    Host.Outcome State Fault Refusal :=
  .next (if !s.isOn .act then s
    else
      let s := s.modGrp (hsoGroup ch) (fun g => { g with iGrp := groupTenMa, temp := groupTemp })
      if (s.hsoCh ch).isOn then s.modHso ch (fun c => { c with sense := BitVec.ofNat 12 (senseCode ch milliamps) }) else s)

/-- INRUSH_WINDOW_END: INRUSH_T has passed (R250). -/
def execInrushWindowEnd (ch : Fin 64) (s : State) : Host.Outcome State Fault Refusal :=
  .next (if (s.hsoCh ch).inrush then
    (s.reach ((s.hsoCh ch).onSince + s.hsoField ch 1 16 8 * ms)).modHso ch (fun c => { c with inrush := false }) else s)

/-! ## Trips and retries -/

/-- Planned turn-ons of a group that lie inside its 5 ms move to the first slot after them, or at a pinned phase to the
first slot at that phase (R268). -/
def delayTurnOns (s : State) (g : Nat) : State :=
  let stop := slotFrom (s.weave.time.toNat + 5 * ms)
  { s with edge.pending := s.edge.pending.map (fun p =>
      if !p.atPeriod && p.slot < stop && hsoEffect p.st.toNat p.duty.toNat != 0
          && p.chans.any (fun ch => ch < 64 && hsoGroup ch == g && !(s.hsoCh ch).isOn) then
        { p with slot := match p.chans with
            | [ch] => match s.pinPhase ch with
              | some ph => slotAtPhase stop ph (s.hsoCode ch)
              | none => stop
            | _ => stop }
      else p) }

/-- FAST_TRIP: the die switches the channel off; one retry after 100 ms, a latch on a second trip within 1 s of that
retry (R252, R253). The group's turn-ons from Off wait 5 ms (R268). -/
def execFastTrip (ch : Fin 64) (s : State) : Host.Outcome State Fault Refusal :=
  .next (if !(s.hsoCh ch).isOn then s
    else
      let c := s.hsoCh ch
      let s := s.modHso ch (fun c => { c with fast := true })
      let s := hsoEvent s 0x0501 ch
      let again := match c.fastRetryAt with | some t => decide (s.clk.ns ≤ t + sec) | none => false
      let s := hsoTrip s ch .fast again
      if !s.isOn .act then s
      else
        let g := hsoGroup ch
        delayTurnOns (s.modGrp g (fun x => { x with lastFast := some (s.clk.ns, ch.val),
                                                    holdoff := some (s.clk.ns + 5 * ms) })) g)

/-- FAST_TRIP_RETRY: 100 ms after the trip (R253). -/
def execFastTripRetry (ch : Fin 64) (s : State) : Host.Outcome State Fault Refusal :=
  let c := s.hsoCh ch
  .next (if c.st == .retry && c.kind == .fast then
    let s := s.reach (c.tripAt + 100 * ms)
    hsoRetry (s.modHso ch (fun c => { c with fastRetryAt := some s.clk.ns })) ch false
    else s)

/-- FAST_TRIP_HOLDOFF_END: turn-ons of the group may take effect again (R268). -/
def execFastTripHoldoffEnd (grp : Fin 8) (s : State) : Host.Outcome State Fault Refusal :=
  .next (match (vget s.hso.grp grp).holdoff with
    | some t => (s.reach t).modGrp grp (fun g => { g with holdoff := none })
    | none => s)

/-- OVERLOAD_TRIP (R251). -/
def execOverloadTrip (ch : Fin 64) (s : State) : Host.Outcome State Fault Refusal :=
  .next (if (s.hsoCh ch).isOn then hsoOverload s ch else s)

/-- I50 in mA and τ in ms of a conductor (Table 6.7). -/
def wireParams (csa : Nat) : Nat × Nat :=
  match csa with
  | 0 => (7000, 12000) | 1 => (9000, 15000) | 2 => (12000, 20000) | 3 => (14000, 25000)
  | 4 => (18000, 32000) | 5 => (25000, 45000) | 6 => (33000, 60000) | _ => (43000, 80000)

/-- The next ΔT in 10⁻⁹ K, from the mean square current in mA² (R254). -/
def wireStep (dt sq csa : Nat) : Nat :=
  let p := wireParams csa
  let target : Nat := 50000000000 * sq / (p.1 * p.1)
  ((dt : Int) + ((target : Int) - (dt : Int)) / (p.2 : Int)).toNat

/-- Modelled wire temperature in 10⁻⁹ °C: plate and rise (R255). -/
def State.wireTemp (s : State) (ch : Nat) : Int :=
  signed 16 (adcPlate s) * 10000000 + ((s.hsoCh ch).dt : Int)

/-- WIRE_MODEL_UPDATE: with WIRE_EN the model steps, trips at T_INS and retries at T_INS − HYST (R254 to R256). Without
WIRE_EN no model says when an overload trip retries: whether it does at this update is left open. -/
def execWireModelUpdate (ch : Fin 64) (meanSquare : Nat) (s : State) : Host.Outcome State Fault Refusal :=
  .next (if !s.isOn .act then s
    else if s.hsoField ch 2 20 1 = 1 then
      let sq := if (s.hsoCh ch).isOn then meanSquare else 0
      let s := s.modHso ch (fun c => { c with dt := wireStep c.dt sq (s.hsoField ch 2 0 4) })
      let c := s.hsoCh ch
      let tIns : Int := s.hsoField ch 2 4 8
      let hyst : Int := s.hsoField ch 2 12 8
      if c.isOn ∧ tIns * 1000000000 ≤ s.wireTemp ch then
        let s := hsoEvent (s.modHso ch (fun c => { c with wire := true })) 0x0503 ch
        hsoTrip s ch .wire (s.hsoSpent ch)
      else if c.st == .retry && c.kind == .wire && s.wireTemp ch ≤ (tIns - hyst) * 1000000000 then hsoRetry s ch true
      else s
    else if (s.hsoCh ch).st == .retry && (s.hsoCh ch).kind == .wire then
      let r := s.takeBit
      if r.1 then hsoRetry r.2 ch true else r.2
    else s)

/-- RETRY_COUNT_RESET: 60 s on without a trip (R257). -/
def execRetryCountReset (ch : Fin 64) (s : State) : Host.Outcome State Fault Refusal :=
  let c := s.hsoCh ch
  .next (if c.isOn then
    (s.reach (max c.onSince c.tripAt + 60 * sec)).modHso ch (fun c => { c with retries := 0 }) else s)

/-- WIRE_MODEL_SAVE: ΔT of every channel is copied to retention RAM (R259). -/
def execWireModelSave (s : State) : Host.Outcome State Fault Refusal :=
  .next (if s.isOn .act then { s with bezel.retDt := s.hso.ch.map (fun c => c.dt) } else s)

/-- JUNCTION_OT_TRIP: off until the junction cools; the fourth trip within 60 s latches (Table 6.11). -/
def execJunctionOtTrip (ch : Fin 64) (s : State) : Host.Outcome State Fault Refusal :=
  .next (if !(s.hsoCh ch).isOn then s
    else
      let s := s.modHso ch (fun c =>
        { c with ot := true, otTrips := (c.otTrips.filter (fun t => s.clk.ns < t + 60 * sec)) ++ [s.clk.ns] })
      let s := hsoEvent s 0x0502 ch
      hsoTrip s ch .ot (4 ≤ (s.hsoCh ch).otTrips.length))

/-- JUNCTION_OT_CLEAR: below 155 °C the channel turns back on (Table 6.11). -/
def execJunctionOtClear (ch : Fin 64) (s : State) : Host.Outcome State Fault Refusal :=
  let c := s.hsoCh ch
  .next (if c.st == .retry && c.kind == .ot then hsoRetry s ch false else s)

/-! ## Diagnostics -/

/-- OPEN_LOAD_ON_DETECT (R260). -/
def execOpenLoadOnDetect (ch : Fin 64) (s : State) : Host.Outcome State Fault Refusal :=
  let c := s.hsoCh ch
  .next (if s.hsoField ch 3 0 12 != 0 && c.isOn && !c.olOn then
    hsoEvent (s.modHso ch (fun c => { c with olOn := true })) 0x0506 ch else s)

/-- OPEN_LOAD_ON_CLEAR (R260). -/
def execOpenLoadOnClear (ch : Fin 64) (s : State) : Host.Outcome State Fault Refusal :=
  .next (s.modHso ch (fun c => { c with olOn := false }))

/-- OFF_STATE_TEST: the test of an off channel starts (R261). -/
def execOffStateTest (ch : Fin 64) (s : State) : Host.Outcome State Fault Refusal :=
  let c := s.hsoCh ch
  .next (if s.isOn .act && s.hsoField ch 3 12 1 == 1 && !c.isOn && c.test.isNone && s.hsoTestBand ch then
    s.modHso ch (fun c => { c with test := some none }) else s)

/-- Result of an off-state test (Table 6.9): 0 load present, 1 OPEN_LOAD_OFF, 2 SHORT_TO_BAT. -/
def offTestResult (mv : Nat) : Nat := if mv ≤ 2000 then 0 else if mv ≤ 6000 then 1 else 2

/-- OFF_STATE_TEST_RESULT: the flags follow the result, a fault that is new is logged, and a clean test with HSO_CLEAR
ends a short-to-battery hold (R261, R262). -/
def execOffStateTestResult (ch : Fin 64) (mv : BitVec 16) (s : State) : Host.Outcome State Fault Refusal :=
  let c := s.hsoCh ch
  .next (match c.test with
    | none => s
    | some by_ =>
      let r := offTestResult mv.toNat
      let s := s.modHso ch (fun c => { c with
        test := none, olOff := r == 1, shortBat := c.shortBat || r == 2, stbClean := c.stbClean || r == 0 })
      let s := if r = 1 ∧ !c.olOff then hsoEvent s 0x0507 ch else s
      let s := if r = 2 ∧ !c.shortBat then hsoEvent s 0x0508 ch else s
      let s := if c.st == .stb && r == 0 && c.stbCleared then hsoOff s ch .off else s
      match by_ with
      | some a => finish s a 0 r
      | none => s)

/-- SHORT_TO_BAT_ON: reverse current on an on channel; it stays off under the hold of R262. -/
def execShortToBatOn (ch : Fin 64) (s : State) : Host.Outcome State Fault Refusal :=
  .next (if !(s.hsoCh ch).isOn then s
    else
      let s := hsoEvent (s.modHso ch (fun c => { c with shortBat := true, stbClean := false, stbCleared := false })) 0x0508 ch
      hsoOff s ch .stb)

/-- REVERSE_FEED: the die drives every channel of the group on and keeps a flag for the next Start (R263). -/
def execReverseFeed (grp : Fin 8) (s : State) : Host.Outcome State Fault Refusal :=
  .next (s.modGrp grp (fun g => { g with reversed := true }))

/-! ## Group limit -/

/-- GROUP_LIMIT_HIT: a hit begins and is counted (R264). -/
def execGroupLimitHit (grp : Fin 8) (s : State) : Host.Outcome State Fault Refusal :=
  .next (if s.isOn .act && (vget s.hso.grp grp).hit.isNone then
    s.modGrp grp (fun g => { g with hit := some { at_ := s.clk.ns }, hits := satInc g.hits }) else s)

/-- GROUP_LIMIT_END (R264). A hit that ends before its tag is final is still tagged. -/
def execGroupLimitEnd (grp : Fin 8) (s : State) : Host.Outcome State Fault Refusal :=
  .next (s.modGrp grp (fun g => { g with hit := match g.hit with
    | some h => if h.tagged then none else some { h with ended := true }
    | none => none }))

/-- SYMPATHETIC_TAG: 100 µs after the hit began it is known whether a fast trip of the group lies within 100 µs of its
beginning; if so every other channel of the group is tagged. Event 0x0509 holds the mask (R265, Table 6.15). -/
def execSympatheticTag (grp : Fin 8) (s : State) : Host.Outcome State Fault Refusal :=
  let g := vget s.hso.grp grp
  .next (match g.hit with
    | none => s
    | some h =>
      if h.tagged then s
      else
        let s := s.reach (h.at_ + 100 * us)
        let trip := match g.lastFast with
          | some (t, ch) => if t ≤ h.at_ + 100 * us ∧ h.at_ ≤ t + 100 * us then some ch else none
          | none => none
        let mask := match trip with
          | some ch => (groupChans grp).filter (fun c => c != ch)
          | none => []
        let s := mask.foldl (fun s c => s.modHso c (fun x => { x with symp := true })) s
        let s := s.modGrp grp (fun g => { g with
          hit := if h.ended then none else some { h with tagged := true, symp := trip.isSome } })
        logEvent s 0x0509 [grp.val, (mask.map (fun c => 2 ^ (c % 8))).sum])

/-- GROUP_LIMIT_SHED: each 1 ms of a hit that is not sympathetic switches off the worst non-essential channel, as an
overload trip (R266). -/
def execGroupLimitShed (grp : Fin 8) (s : State) : Host.Outcome State Fault Refusal :=
  .next (match (vget s.hso.grp grp).hit, s.worst grp true with
    | some h, some ch => if h.tagged && !h.symp then hsoOverload s ch else s
    | _, _ => s)

/-- GROUP_OT: the group sensor has reached 165 °C; the non-essential channel with the highest current switches off, one
at each such event (R269). -/
def execGroupOt (grp : Fin 8) (s : State) : Host.Outcome State Fault Refusal :=
  .next (match s.worst grp false with
    | some ch =>
      let s := hsoEvent (s.modHso ch (fun c => { c with groupOt := true })) 0x050D ch
      hsoTrip s ch .groupOt (s.hsoSpent ch)
    | none => s)

/-- GROUP_OT_CLEAR: below 150 °C the channels that R269 switched off retry. -/
def execGroupOtClear (grp : Fin 8) (s : State) : Host.Outcome State Fault Refusal :=
  .next ((groupChans grp).foldl (fun s ch =>
    if (s.hsoCh ch).st == .retry && (s.hsoCh ch).kind == .groupOt then hsoRetry s ch true else s) s)

end Sys2Proof.Machine
end

