-- ==== Sys2Proof/Machine/LedOps.lean ====
section
/-! DEFINITION. LED strings and the matrix: driving, latching, and what mode entries, resets, hold and the governor do to
them (R381 to R411). -/

namespace Sys2Proof.Machine

/-! ## Strings -/

/-- The string. -/
def State.ledCh (s : State) (n : Nat) : LedCh := vget s.led.ch n

/-- A string changed. -/
def State.modLed (s : State) (n : Nat) (f : LedCh → LedCh) : State := { s with led.ch := vmod s.led.ch n f }

/-- A field of the string's LED_STRING record in the current mode, or 0. -/
def State.ledField (s : State) (n k lo width : Nat) : Nat := s.recField 9 1 n k lo width 0

/-- The string carries current. -/
def LedCh.isOn (c : LedCh) : Bool :=
  match c.st with
  | .on => true | .pwm => true
  | .held => c.dim != 0 | .orphan => c.dim != 0
  | _ => false

/-- The string leaves the held mask (R588). -/
def unheldLed (s : State) (n : Nat) : State := { s with bezel.heldLed := setBit s.bezel.heldLed n false }

/-- The string switches off in a state. -/
def ledOff (s : State) (n : Nat) (st : LedSt) : State :=
  planOff (s.modLed n (fun c => { c with st := st, dim := 0 })) (64 + n)

/-- Period code of the string. -/
def State.ledCode (s : State) (n : Nat) : Nat := (s.periodCode (64 + n)).getD 0

/-- The colour-loop gain that a string's period applies (R381, R403). -/
def State.ledGain (s : State) (n : Nat) : BitVec 13 :=
  match s.ledField n 1 12 2 with
  | 0 => 0x1000
  | c => vget s.led.gain (c - 1)

/-- The string takes its commanded settings with its period starting at a phase; `launch` pins the phase. -/
def ledDrive (s : State) (n phase : Nat) (launch : Bool) : State :=
  let c := s.ledCh n
  let s := s.modLed n (fun c => { c with resume := false, hot := false })
  if c.cmdDim = 0 then ledOff s n .off
  else
    let s := s.modLed n (fun c => { c with
      dim := c.cmdDim, iSet := c.cmdI, gain := s.ledGain n, st := if c.cmdDim == 4095 then .on else .pwm })
    if c.cmdDim = 4095 then planOff s (64 + n)
    else planOn s (64 + n) phase (s.ledCode n) (onTime10 c.cmdDim.toNat (s.ledCode n)) launch

/-- The edges of a string that starts PWM at a slot. -/
def ledEdges (s : State) (n dim a : Nat) : List FEdge :=
  periodEdges 1 (s.weight (64 + n)) (a % periodSlots (s.ledCode n)) (s.ledCode n) (onTime10 dim (s.ledCode n))

/-- The phase at which a string starts: its running or pinned phase, or the one that the planner places (R383). -/
def ledPhase (s : State) (n : Nat) : Nat :=
  if (vget s.edge.ch (64 + n)).active then (vget s.edge.ch (64 + n)).phase.toNat
  else (s.place (64 + n) (s.ledCode n) 0 (fun a => ledEdges s n (s.ledCh n).cmdDim.toNat a)).1

/-- New settings reach a string: it is reclaimed and they are recorded. A latched or waiting string stays off, one under
over-temperature or an over-voltage pause takes them when that ends. -/
def ledApply (s : State) (n iSet dim : Nat) (phase : Option Nat) (launch : Bool) : State :=
  let s := (unheldLed s n).modLed n (fun c => { c with cmdI := BitVec.ofNat 10 iSet, cmdDim := BitVec.ofNat 12 dim })
  match (s.ledCh n).st with
  | .latched => s
  | .shed => s
  | .retry => if dim = 0 then ledOff s n .off else s
  | _ =>
    if s.paused 1 then (if (s.ledCh n).isOn then ledOff s n .off else s).modLed n (fun c => { c with resume := dim != 0 })
    else if (s.ledCh n).hot then s
    else
      let p := match phase with | some p => p | none => ledPhase s n
      ledDrive s n p launch

/-- The string latches: event 0x0906. -/
def ledLatch (s : State) (n : Nat) : State := logEvent (ledOff s n .latched) 0x0906 [n]

/-- Every string in turn. -/
def eachLed (s : State) (f : State → Nat → State) : State := (List.range 12).foldl f s

/-- Every string off, with its settings (R45, R408). -/
def ledAllOff (s : State) : State :=
  eachLed s (fun s n => (ledOff (unheldLed s n) n .off).modLed n (fun c =>
    { c with cmdDim := 0, cmdI := 0, resume := false, hot := false }))

/-- A mode begins: a string that no record of the mode gives to LED is driven idle (R220, R592). -/
def ledClaims (s : State) : State :=
  eachLed s (fun s n => match s.rec? 9 1 n with
    | some _ => s
    | none => (ledOff (unheldLed s n) n .off).modLed n (fun c => { c with cmdDim := 0, cmdI := 0, resume := false, hot := false }))

/-- Entry to Road: each implement string takes its ROAD state (R49, R408). -/
def ledRoad (s : State) : State :=
  eachLed s (fun s n =>
    if s.ledField n 1 15 1 = 1 then
      let s := unheldLed s n
      if s.ledField n 1 16 1 = 1 then s
      else (ledOff s n .off).modLed n (fun c => { c with cmdDim := 0, cmdI := 0, resume := false, hot := false })
    else s)

/-- A device reset: each string that carries current is held at its I_applied and DIM (R410). -/
def ledHold (s : State) : State :=
  eachLed s (fun s n =>
    let c := s.ledCh n
    let s := s.modLed n (fun c => { c with resume := false, hot := false })
    if c.isOn then
      let i := BitVec.ofNat 10 (ledApplied s n)
      { s.modLed n (fun c => { c with st := .held, iSet := i, gain := 0x1000, cmdI := i, cmdDim := c.dim }) with
        bezel.heldLed := setBit s.bezel.heldLed n true }
    else if c.st == .shed then ledOff s n .off else s)

/-- A string takes its orphan state (R411): keep, off, or LIMP_I at LIMP_DIM. -/
def ledOrphan1 (s : State) (n : Nat) : State :=
  let o := vget s.bezel.orphans.led n
  match (s.ledCh n).st with
  | .retry => s
  | .latched => s
  | _ =>
    match o.kind.toNat with
    | 0 => ledOff s n .off
    | 1 => if (s.ledCh n).isOn then s.modLed n (fun c => { c with st := .orphan }) else s
    | _ => if o.duty = 0 then ledOff s n .off
        else s.modLed n (fun c => { c with
          st := .orphan, dim := BitVec.ofNat 12 o.duty, iSet := BitVec.ofNat 10 o.level, gain := 0x1000,
          cmdDim := BitVec.ofNat 12 o.duty, cmdI := BitVec.ofNat 10 o.level })

/-- Reclaim as it stands (R588): the plan takes the string at its free-running phase, which is left open (R307). -/
def ledReclaim (s : State) (n : Nat) : State :=
  let s := unheldLed s n
  let c := s.ledCh n
  match c.st with
  | .held | .orphan =>
    let s := s.modLed n (fun c => { c with
      cmdDim := c.dim, cmdI := c.iSet,
      st := if c.dim == 0 then .off else if c.dim == 4095 then .on else .pwm })
    if c.dim == 0 || c.dim == 4095 then s
    else
      let r := s.takeNat
      planOn r.2 (64 + n) r.1 (s.ledCode n) (onTime10 c.dim.toNat (s.ledCode n)) false
  | _ => s

/-- Governor step 6: every string that is not ESSENTIAL switches off and reads SHED, event 0x0907 (R409). -/
def ledShed (s : State) : State :=
  eachLed s (fun s n =>
    let c := s.ledCh n
    if (s.rec? 9 1 n).isSome && s.ledField n 1 14 1 == 0 && c.st != .retry && c.st != .latched && c.st != .shed then
      logEvent (ledOff s n .shed) 0x0907 [n]
    else s)

/-- Release of step 6: each shed string takes its recorded settings at its next period start; off, it has none before it
starts at the next frame (R409, R384). -/
def ledUnshed (s : State) : State :=
  eachLed s (fun s n => if (s.ledCh n).st == .shed then s.modLed n (fun c => { c with resume := true }) else s)

/-- Over-voltage pause of feed pair 1 (R697). -/
def ledPause (s : State) : State :=
  eachLed s (fun s n => if (s.ledCh n).isOn then (ledOff s n .off).modLed n (fun c => { c with resume := true }) else s)

/-! ## The matrix -/

/-- A field of the MTX_CFG record in the current mode, or 0. -/
def State.mtxField (s : State) (k lo width : Nat) : Nat := s.recField 10 1 0 k lo width 0

/-- The matrix goes dark at once: R45, R408, a latch, a shed. -/
def mtxDark (s : State) : State := { s with mtx.blank := true, mtx.syncLost := false }

/-- The matrix and everything waiting on it end: an armed swap completes with a status. -/
def mtxDrop (s : State) (status : Nat) : State :=
  match s.mtx.armed with
  | some (a, _) => refuse { s with mtx.armed := none } a status
  | none => s

/-- The matrix latches (R401): event 0x0A02. -/
def mtxLatch (s : State) : State := logEvent (mtxDark { s with mtx.latched := true }) 0x0A02 []

/-- Every Start clears both buffers, makes A the front buffer and leaves the matrix blank (R396, R410). -/
def mtxStart (s : State) : State := { s with mtx := {} }

/-- Front and back are exchanged (R398). -/
def mtxFlip (s : State) : State := { s with mtx.front := !s.mtx.front }

/-- The matrix may show: a record of the mode, PD_LED On, neither blanked, latched nor shed. -/
def State.mtxRuns (s : State) : Bool :=
  (s.rec? 10 1 0).isSome && s.isOn .led && !s.mtx.hostBlank && !s.mtx.latched && !s.mtx.shed

/-- The gains and the scale that a frame takes (R395). -/
def mtxGains (s : State) : State :=
  { s with mtx.gain := if s.mtxField 1 24 1 = 1 then s.led.gain else .replicate 3 0x1000,
           mtx.half := 2 ≤ s.pwr.govStep && s.mtxField 0 13 1 == 0 }

/-- A frame starts (R393): rows that tripped in no frame just ended start their count anew, an armed swap of this kind
of frame start takes effect and completes (R398), gains apply and the scan shows. -/
def mtxFrame (s : State) (sync : Bool) : State :=
  let run := (List.range 16).foldl (fun v r =>
    if s.mtx.rowNow.getLsbD r then v else vset v r 0) s.mtx.rowRun
  let s := { s with mtx.rowRun := run, mtx.rowNow := 0, mtx.frameAt := s.clk.ns }
  let s := match s.mtx.armed with
    | some (a, onSync) =>
      if onSync && !sync then s else finish (mtxFlip { s with mtx.armed := none }) a
    | none => s
  let s := mtxGains s
  if s.mtxRuns then { s with mtx.blank := false, mtx.frames := s.mtx.frames + 1 } else mtxDark s

/-- A column sink current in µA (R395): IFS in 0.25 mA units, by the frame's gain and scale. -/
def mtxSink (s : State) (colour : Nat) : Nat :=
  s.mtxField 1 (8 * colour) 8 * 250 * (vget s.mtx.gain colour).toNat / 4096 / (if s.mtx.half then 2 else 1)

/-- Entry to Road of a matrix marked implement (R49, R408). -/
def mtxRoad (s : State) : State :=
  if s.mtxField 0 14 1 = 1 ∧ s.mtxField 0 15 1 = 0 then mtxDark { s with mtx.hostBlank := true } else s

end Sys2Proof.Machine
end

