-- ==== Sys2Proof/Machine/Led.lean ====
section
/-! DEFINITION. The LED and MTX blocks: their descriptors, string and matrix faults, the neighbour test and the colour
loop (chapter 10). -/

namespace Sys2Proof.Machine

/-! ## String commands -/

/-- The string is not LED's in this mode, or an implement string in Road (R49, R215). -/
def State.ledBarred (s : State) (n : Nat) : Bool :=
  (s.rec? 9 1 n).isNone || (s.pwr.mode == .road && s.ledField n 1 15 1 == 1)

/-- Status of new settings for one string (R386, Tables 10.8, 10.9 and 20.2). -/
def ledCheck (s : State) (n iSet dim : Nat) : Nat :=
  let c := s.ledCh n
  if 12 ≤ n ∨ s.ledBarred n then stRefusedState
  else if dim != 0 && (c.st == .latched || c.st == .retry) then stFaultChannel
  else if iSet < 50 ∨ s.ledField n 0 0 10 < iSet then 0x80
  else if c.iSet.toNat * c.dim.toNat < iSet * dim && vget s.hso.vfeed 1 < 6000#16 then stRefusedState
  else stOk

/-- Settings without a due time: a string in PWM takes them at its next period, any other at the next planner frame
(R384). -/
def ledPlan (s : State) (a : Act) (chans : List Nat) (iSet : BitVec 10) (dim : BitVec 12) : State :=
  let at_ := match chans with | [n] => (s.ledCh n).st == .pwm | _ => false
  { s with led.pend := s.led.pend ++ [{ act := a, chans := chans, iSet := iSet, dim := dim, atPeriod := at_ }] }

/-- A launched change acts on its fire tick (R384): PWM starts at the slot of DUE, pinned there. -/
def ledFire (s : State) (a : Act) (chans : List Nat) (iSet dim : Nat) : State :=
  let slot := slotOf a.instant
  let s := chans.foldl (fun s n =>
    let s := if dim = 0 ∨ dim = 4095 then
        addShot s { pair := 1, slot := slot, rising := dim != 0, weight := s.weight (64 + n) } else s
    ledApply s n iSet dim (some slot) true) s
  finish (replan s) a

/-- LED_SET acts. -/
def actLedSet (ch : BitVec 4) (dim : BitVec 12) (iSet : BitVec 10) (a : Act) (s : State) : State :=
  let x := ledCheck s ch.toNat iSet.toNat dim.toNat
  if x ≠ stOk then refuse s a x
  else if (s.ledCh ch.toNat).st == .shed then finishAs (ledApply s ch.toNat iSet.toNat dim.toNat none false) a 0x81
  else if a.fired then ledFire s a [ch.toNat] iSet.toNat dim.toNat
  else ledPlan s a [ch.toNat] iSet dim

/-- LED_SET. -/
def execLedSet (d : Desc) (ch : BitVec 4) (dim : BitVec 12) (iSet : BitVec 10) (s : State) :
    Host.Outcome State Fault Refusal := .next (accept d (.ledSet ch dim iSet) (actLedSet ch dim iSet) s)

/-- LED_MULTI acts: a failing string fails all, with its number (Table 10.8). -/
def actLedMulti (mask : BitVec 12) (iSet : BitVec 10) (dim : BitVec 12) (a : Act) (s : State) : State :=
  let chans := maskList mask
  match (chans.map (fun n => (n, ledCheck s n iSet.toNat dim.toNat))).find? (fun x => x.2 != stOk) with
  | some (n, x) => refuse s a x n
  | none =>
    let shed := chans.filter (fun n => (s.ledCh n).st == .shed)
    if !shed.isEmpty then
      finishAs (chans.foldl (fun s n => ledApply s n iSet.toNat dim.toNat none false) s) a 0x81 (shed.headD 0)
    else if a.fired then ledFire s a chans iSet.toNat dim.toNat
    else ledPlan s a chans iSet dim

/-- LED_MULTI. -/
def execLedMulti (d : Desc) (mask : BitVec 12) (iSet : BitVec 10) (dim : BitVec 12) (s : State) :
    Host.Outcome State Fault Refusal := .next (accept d (.ledMulti mask iSet dim) (actLedMulti mask iSet dim) s)

/-- LED_CLEAR acts: latch and retry count; the string stays off (R387). -/
def actLedClear (ch : BitVec 4) (a : Act) (s : State) : State :=
  let n := ch.toNat
  if 12 ≤ n ∨ s.ledBarred n then refuse s a stRefusedState
  else
    let s := s.modLed n (fun c => { c with ocAt := none })
    finish (if (s.ledCh n).st == .latched then
      (ledOff s n .off).modLed n (fun c => { c with cmdDim := 0, cmdI := 0 }) else s) a

/-- LED_CLEAR. -/
def execLedClear (d : Desc) (ch : BitVec 4) (s : State) : Host.Outcome State Fault Refusal :=
  .next (accept d (.ledClear ch) (actLedClear ch) s)

/-- LED_READ acts (Table 10.8). -/
def actLedRead (ch : BitVec 4) (a : Act) (s : State) : State :=
  if 12 ≤ ch.toNat ∨ s.ledBarred ch.toNat then refuse s a stRefusedState
  else finish s a 0 (ledMeas s ch.toNat) (ledFlags s ch.toNat)

/-- LED_READ. -/
def execLedRead (d : Desc) (ch : BitVec 4) (s : State) : Host.Outcome State Fault Refusal :=
  .next (accept d (.ledRead ch) (actLedRead ch) s)

/-- COLOUR_CTL acts: the loop starts or holds its gains (R407). -/
def actColourCtl (run : BitVec 1) (a : Act) (s : State) : State :=
  finish { s with led.run := run == 1, led.converting := s.led.converting && run == 1 } a

/-- COLOUR_CTL. -/
def execColourCtl (d : Desc) (run : BitVec 1) (s : State) : Host.Outcome State Fault Refusal :=
  .next (accept d (.colourCtl run) (actColourCtl run) s)

/-! ## String faults (Table 10.2) -/

/-- OPEN_STRING: the string switches off and latches. -/
def execOpenString (ch : Fin 12) (s : State) : Host.Outcome State Fault Refusal :=
  .next (if (s.ledCh ch).isOn then
    ledLatch (logEvent (s.modLed ch (fun c => { c with isOpen := true })) 0x0901 [ch.val]) ch else s)

/-- SHORTED_LEDS: the live flag of a string below V_MIN while regulating; event 0x0902 with the voltage when it is set. -/
def execShortedLeds (ch : Fin 12) (short : Bool) (volts : BitVec 12) (s : State) : Host.Outcome State Fault Refusal :=
  let c := s.ledCh ch
  let on := short && c.isOn && s.ledField ch 1 0 9 != 0
  let s' := s.modLed ch (fun c => { c with shortLed := on })
  .next (if on && !c.shortLed then logEvent s' 0x0902 [ch.val, volts.toNat] else s')

/-- STRING_OVERCURRENT: off, one retry after 100 ms, latched at a second trip within 1 s. -/
def execStringOvercurrent (ch : Fin 12) (s : State) : Host.Outcome State Fault Refusal :=
  let c := s.ledCh ch
  .next (if !c.isOn then s
    else
      let again := match c.ocAt with | some t => decide (s.clk.ns ≤ t + sec) | none => false
      let s := logEvent (s.modLed ch (fun c => { c with oc := true, ocAt := some s.clk.ns })) 0x0903 [ch.val]
      if again then ledLatch s ch else ledOff s ch .retry)

/-- STRING_RETRY: 100 ms after the trip. -/
def execStringRetry (ch : Fin 12) (s : State) : Host.Outcome State Fault Refusal :=
  let c := s.ledCh ch
  .next (if c.st == .retry then
    let s := (s.reach (c.ocAt.getD 0 + 100 * ms)).modLed ch (fun c => { c with st := .off })
    if s.paused 1 then s.modLed ch (fun c => { c with resume := true }) else ledDrive s ch (ledPhase s ch) false
    else s)

/-- CONVERTER_OT: every string off while the converter is hot; below 155 °C each takes its settings again. -/
def execConverterOt (hot : Bool) (s : State) : Host.Outcome State Fault Refusal :=
  .next (if hot then
      eachLed (logEvent s 0x0905 []) (fun s n =>
        let s := s.modLed n (fun c => { c with ot := true })
        match (s.ledCh n).st with
        | .latched => s
        | .retry => s
        | .shed => s
        | _ => (ledOff s n .off).modLed n (fun c => { c with hot := true }))
    else eachLed s (fun s n =>
      if (s.ledCh n).hot then
        let s := s.modLed n (fun c => { c with hot := false })
        if s.paused 1 then s.modLed n (fun c => { c with resume := true }) else ledDrive s n (ledPhase s n) false
      else s))

/-- The strings of string-pair test `t`: tests 0 to 11 are LSn+ with LSn−, 12 to 33 LSn− with LS(n+1)+ in its two
directions (R388, R389). -/
def nbrStrings (t : Nat) : List Nat := if t < 12 then [t] else [(t - 12) / 2, (t - 12) / 2 + 1]

/-- NEIGHBOUR_TEST: one test of a string pair or a column pair; the third consecutive failure is a neighbour-pin short
(R389 to R391). Column tests 2k and 2k + 1 are the two directions of MX_COLk with MX_COL(k+1). -/
def execNeighbourTest (columns : Bool) (test : Fin 94) (failed : Bool) (s : State) : Host.Outcome State Fault Refusal :=
  .next (if columns then
      if s.mtxField 0 16 1 = 0 then s
      else
        let n := if failed then vget s.mtx.nbrFails test + 1 else 0
        let s := { s with mtx.nbrFails := vset s.mtx.nbrFails test (capAt 3 n) }
        let k := test.val / 2
        if n < 3 ∨ (s.mtx.nbr.getLsbD k ∧ s.mtx.nbr.getLsbD (k + 1)) then s
        else logEvent { s with mtx.nbr := setBit (setBit s.mtx.nbr k true) (k + 1) true } 0x0A03 [k, k + 1]
    else if 34 ≤ test.val ∨ (nbrStrings test).any (fun n => s.ledField n 1 19 1 == 0) then s
    else
      let n := if failed then vget s.led.nbrFails test + 1 else 0
      let s := { s with led.nbrFails := vset s.led.nbrFails test (capAt 3 n) }
      if n < 3 ∨ (nbrStrings test).all (fun n => (s.ledCh n).st == .latched) then s
      else
        let s := logEvent s 0x0904 (nbrStrings test)
        (nbrStrings test).foldl (fun s n => ledLatch (s.modLed n (fun c => { c with nbr := true })) n) s)

/-! ## Colour loop -/

/-- A write of LED_GAIN_c: ignored while the loop runs (R407). -/
def ledGainWrite (s : State) (c : Nat) (v : BitVec 13) : State :=
  if s.led.run then s else { s with led.gain := vset s.led.gain c v }

/-- A failed step; the third in a row sets SENSOR_FAIL (R406). -/
def colourFail (s : State) : State :=
  let n := s.led.failed + 1
  let s := { s with led.failed := capAt 3 n, led.converting := false }
  if 3 ≤ n ∧ !s.led.sensorFail then logEvent { s with led.sensorFail := true } 0x0908 [] else s

/-- COLOUR_STEP: every 100 ms, unless the gains are held, the trigger is written to the sensor (R403, R405). -/
def execColourStep (ack : Bool) (s : State) : Host.Outcome State Fault Refusal :=
  .next (if s.led.run && s.isOn .led && !colourHeld s && (s.rec? 9 2 0).isSome then
    if ack then { s with led.converting := true } else colourFail s
    else s)

/-- Determinant of three columns. -/
def det3 (a b c : Int × Int × Int) : Int :=
  a.1 * (b.2.1 * c.2.2 - c.2.1 * b.2.2) - b.1 * (a.2.1 * c.2.2 - c.2.1 * a.2.2) + c.1 * (a.2.1 * b.2.2 - b.2.1 * a.2.2)

/-- The direction [x, y, 1 − x − y] of a chromaticity word in 1/65 536. -/
def chroma (w : Nat) : Int × Int × Int :=
  let x : Int := (w % 65536 : Nat)
  let y : Int := (w / 65536 : Nat)
  (x, y, 65536 - x - y)

/-- The determinant with a vector in the place of primary `c` (Cramer's rule). -/
def detWith (p : Nat → Int × Int × Int) (c : Nat) (v : Int × Int × Int) : Int :=
  match c with
  | 0 => det3 v (p 1) (p 2)
  | 1 => det3 (p 0) v (p 2)
  | _ => det3 (p 0) (p 1) v

/-- A fraction with positive denominator brought into [lo, hi] per cent. -/
def clampPct (n d lo hi : Int) : Int × Int :=
  if n * 100 < lo * d then (lo, 100) else if hi * d < n * 100 then (hi, 100) else (n, d)

/-- The new gain of primary `c` (R404): `m` is the measured [X, Y, Z] in 1/4096. The contribution L_c is y_c times a
determinant over that of the primaries; the ratio of the target's to the measured one's is free of y_c. No result is
stated where y_t or y_c is 0: none. -/
def colourGain (r : Rec) (m : Int × Int × Int) (gain c : Nat) : Option Nat :=
  let p (i : Nat) := chroma (r.w (7 + i))
  let t := chroma (r.w 10)
  let d0 := det3 (p 0) (p 1) (p 2)
  if t.2.1 = 0 ∨ (p c).2.1 = 0 ∨ d0 = 0 then none
  else
    let meas := detWith p c m
    let k : Int := if r.f 1 8 4 = 0 then 8 else (r.f 1 8 4 : Nat)
    let step : Int := if r.f 1 12 4 = 0 then 5 else (r.f 1 12 4 : Nat)
    let lo := r.f 1 16 13
    -- L_c has the sign of meas × d0
    if meas * d0 ≤ 0 then some (clamp lo 4096 gain)
    else
      let n := 4096 * ((r.f 11 0 20 : Nat) : Int) * detWith p c t
      let d := 100 * t.2.1 * meas
      let s : Int := if d < 0 then -1 else 1
      let f := clampPct (16 * (s * d) + k * (s * n - s * d)) (16 * (s * d)) (100 - step) (100 + step)
      let g := (2 * (gain : Int) * f.1 + f.2) / (2 * f.2)
      some (clamp lo 4096 g.toNat)

/-- Coefficient `i` of the sensor matrix: signed 16 bits (Table 10.7). -/
def colourM (r : Rec) (i : Nat) : Int := signed 16 (r.f (2 + i / 2) (16 * (i % 2)) 16)

/-- The measured [X, Y, Z] in 1/4096 (R403). -/
def colourXyz (r : Rec) (c0 c1 c2 : Nat) : Int × Int × Int :=
  let row (j : Nat) := colourM r (3 * j) * c0 + colourM r (3 * j + 1) * c1 + colourM r (3 * j + 2) * c2
  (row 0, row 1, row 2)

/-- The measured chromaticity in 1/65 536; free where the sum is 0 or less or a part is negative, for which no
chromaticity is stated. -/
def measuredXy (s : State) (m : Int × Int × Int) : (Nat × Nat) × State :=
  let sum := m.1 + m.2.1 + m.2.2
  if 0 < sum ∧ 0 ≤ m.1 ∧ 0 ≤ m.2.1 ∧ 0 ≤ m.2.2 then
    (((m.1 * 65536 / sum).toNat, (m.2.1 * 65536 / sum).toNat), s)
  else
    let x := s.takeNat
    let y := x.2.takeNat
    ((x.1, y.1), y.2)

/-- COLOUR_CONV_DONE: the sensor is read and the gains follow (R403 to R406); the strings take them at their next period
and the matrix at its next frame. -/
def execColourConvDone (ok : Bool) (c0 c1 c2 : BitVec 16) (s : State) : Host.Outcome State Fault Refusal :=
  .next (if !s.led.converting then s
    else match ok, s.rec? 9 2 0 with
    | true, some r =>
      let m := colourXyz r c0.toNat c1.toNat c2.toNat
      let xy := measuredXy s m
      let s := { xy.2 with led.converting := false, led.failed := 0, led.sensorFail := false,
                           led.steps := s.led.steps + 1, led.x := BitVec.ofNat 16 (capAt 65535 xy.1.1),
                           led.y := BitVec.ofNat 16 (capAt 65535 xy.1.2),
                           led.lum := BitVec.ofNat 20 (capAt 1048575 (m.2.1 * 100 / 4096).toNat) }
      [0, 1, 2].foldl (fun s c =>
        match colourGain r m (vget s.led.gain c).toNat c with
        | some g =>
          let was := (vget s.led.gain c).toNat
          let s := { s with led.gain := vset s.led.gain c (BitVec.ofNat 13 g) }
          if (g = 4096 ∨ g = r.f 1 16 13) ∧ g ≠ was then
            logEvent { s with led.saturated := true } 0x0909 ((List.range 3).map (fun c => (vget s.led.gain c).toNat))
          else s
        | none =>
          let f := s.takeNat
          { f.2 with led.gain := vset f.2.led.gain c (BitVec.ofNat 13 (clamp (r.f 1 16 13) 4096 f.1)) }) s
    | _, _ => colourFail s)

/-! ## Matrix commands -/

/-- The matrix is not MTX's in this mode, or an implement matrix in Road. -/
def State.mtxBarred (s : State) : Bool :=
  (s.rec? 10 1 0).isNone || (s.pwr.mode == .road && s.mtxField 0 14 1 == 1)

/-- MTX_WRITE acts: the payload goes to the back buffer (R397). -/
def actMtxWrite (offset : BitVec 11) (a : Act) (s : State) : State :=
  let o := offset.toNat
  let n := a.d.payLen.toNat
  if s.mtxBarred then refuse s a stRefusedState
  else if o % 8 ≠ 0 ∨ n % 8 ≠ 0 ∨ 2048 < o + n then refuse s a 0x82
  else if swapPending s then refuse s a 0x80
  else
    let put (c : List Host.Cell) : List Host.Cell :=
      ((List.range n).zip a.payload).foldl (fun c x => cellPut c (o + x.1) x.2) c
    finish (if s.mtx.front then { s with mtx.bufA := put s.mtx.bufA } else { s with mtx.bufB := put s.mtx.bufB }) a

/-- MTX_WRITE. -/
def execMtxWrite (d : Desc) (offset : BitVec 11) (s : State) : Host.Outcome State Fault Refusal :=
  .next (accept d (.mtxWrite offset) (actMtxWrite offset) s)

/-- Status of an MTX_SWAP: state, latch, NO_SYNC, SWAP_PENDING (R398, R399, R401). -/
def swapCheck (when_ : BitVec 1) (s : State) : Nat :=
  if s.mtxBarred then stRefusedState
  else if s.mtx.latched then stFaultChannel
  else if when_ == 1 && s.mtxField 0 10 2 == 0 then 0x81
  else if swapPending s then 0x80
  else stOk

/-- MTX_SWAP acts. A launch exchanges the buffers and restarts the frame; otherwise the swap is armed (R398). -/
def actMtxSwap (when_ : BitVec 1) (a : Act) (s : State) : State :=
  let x := swapCheck when_ s
  if x ≠ stOk then refuse s a x
  else if a.fired then finish (mtxFrame (mtxFlip s) false) a
  else { s with mtx.armed := some (a, when_ == 1) }

/-- A launched MTX_SWAP that finds another swap armed or queued is refused when it is accepted. -/
def swapAdmit (s : State) : Nat := if swapPending s then 0x80 else stOk

/-- MTX_SWAP. -/
def execMtxSwap (d : Desc) (when_ : BitVec 1) (s : State) : Host.Outcome State Fault Refusal :=
  .next (acceptWith d (.mtxSwap when_) (actMtxSwap when_) swapAdmit id s)

/-- MTX_BLANK acts: blank at once, or let the scan resume at the next frame start (Table 10.8). -/
def actMtxBlank (blank : BitVec 1) (a : Act) (s : State) : State :=
  if s.mtxBarred then refuse s a stRefusedState
  else if blank == 1 then finish (mtxDark { s with mtx.hostBlank := true }) a
  else finish { s with mtx.hostBlank := false } a

/-- MTX_BLANK. -/
def execMtxBlank (d : Desc) (blank : BitVec 1) (s : State) : Host.Outcome State Fault Refusal :=
  .next (accept d (.mtxBlank blank) (actMtxBlank blank) s)

/-- MTX_CLEAR acts: the latch and the disabled columns (R401). -/
def actMtxClear (a : Act) (s : State) : State :=
  if s.mtxBarred then refuse s a stRefusedState
  else finish { s with mtx.latched := false, mtx.nbr := 0, mtx.rowRun := .replicate 16 0 } a

/-- MTX_CLEAR. -/
def execMtxClear (d : Desc) (s : State) : Host.Outcome State Fault Refusal :=
  .next (accept d .mtxClear actMtxClear s)

/-! ## Matrix events -/

/-- MATRIX_FRAME_START: a frame begins. In SYNC input mode frames begin at edges, so the end of a frame leaves the
matrix blank until the next one, unless the scan runs free (R393, R399). -/
def execMatrixFrameStart (s : State) : Host.Outcome State Fault Refusal :=
  .next (if !s.isOn .led || (s.rec? 10 1 0).isNone then s
    else if s.mtxField 0 10 2 = 1 ∧ !s.mtx.syncLost then { s with mtx.blank := true }
    else mtxFrame s false)

/-- MX_SYNC_EDGE: in SYNC input mode the selected edge starts a frame 2 µs later; one less than 1.25 ms after the last is
ignored (R399). -/
def execMxSyncEdge (rising : Bool) (s : State) : Host.Outcome State Fault Refusal :=
  let early := match s.mtx.syncAt with | some t => decide (s.clk.ns < t + 1250 * us) | none => false
  .next (if !s.isOn .led || s.mtxField 0 10 2 != 1 || rising != (s.mtxField 0 12 1 == 0) || early then s
    else mtxFrame ({ s with mtx.syncAt := some s.clk.ns, mtx.syncLost := false }.advance 2000) true)

/-- MX_SYNC_LOST: no edge for two frame times; the scan runs free (R399). -/
def execMxSyncLost (s : State) : Host.Outcome State Fault Refusal :=
  .next (if s.isOn .led && s.mtxField 0 10 2 == 1 && !s.mtx.syncLost then
    logEvent { s with mtx.syncLost := true } 0x0A05 [] else s)

/-- ROW_OVERCURRENT: the row is off for its row time; trips on three consecutive frames latch the matrix (R401). -/
def execRowOvercurrent (row : Fin 16) (s : State) : Host.Outcome State Fault Refusal :=
  .next (if s.mtx.blank || s.mtx.rowNow.getLsbD row then s
    else
      let n := vget s.mtx.rowRun row + 1
      let s := { s with mtx.rowOc := setBit s.mtx.rowOc row true, mtx.rowNow := setBit s.mtx.rowNow row true,
                        mtx.rowRun := vset s.mtx.rowRun row n }
      let s := logEvent s 0x0A01 [row.val]
      if 3 ≤ n then mtxLatch s else s)

/-- MX_VS_OVERCURRENT: the matrix blanks and latches (R401). -/
def execMxVsOvercurrent (s : State) : Host.Outcome State Fault Refusal :=
  .next (if s.mtx.blank then s else mtxLatch s)

/-- COLUMN_OPEN: a flag, and event 0x0A04 when it is new (R401). -/
def execColumnOpen (col : Fin 48) (s : State) : Host.Outcome State Fault Refusal :=
  .next (if s.mtx.blank || s.mtx.isOpen.getLsbD col then s
    else logEvent { s with mtx.isOpen := setBit s.mtx.isOpen col true } 0x0A04 [col.val])

end Sys2Proof.Machine
end

