-- ==== Sys2Proof/Machine/EdgeCmds.lean ====
section
/-! DEFINITION. The EDGE block: pins, period and frame starts, planned switches and the frame check (chapter 7). -/

namespace Sys2Proof.Machine

/-! ## Pins -/

/-- A planner index that names a channel (Table 7.1). -/
def planned (i : Nat) : Bool := i < 76 || 80 ≤ i

/-- EDGE_PIN acts (R301, R302): the phase is tested against the period that the configuration gives; a pin that would put
fixed edges over a limit is refused (Table 7.6); on a running channel the phase comes at its next period. -/
def actEdgePin (ch : BitVec 7) (phase : BitVec 13) (a : Act) (s : State) : State :=
  let i := ch.toNat
  match s.periodCode i with
  | none => refuse s a stRefusedState
  | some code =>
    if periodSlots code ≤ phase.toNat then refuse s a 0x80
    else
      let c := vget s.edge.ch i
      let f := s.nowFrame + 1
      let es := s.periodic (fun j => j != i && s.pinKind j != 0) ++ s.shotEdges f (fun o => o.chan.isNone)
        ++ (if c.active then periodEdges (pairOf i) (s.weight i) phase.toNat c.period.toNat c.onNs else [])
      if c.active && (s.overSlot es (pairOf i)).isSome then refuse s a 0x81
      else finish (replan (s.modP i (fun c => { c with host := some phase, launch := false }))) a

/-- EDGE_PIN. -/
def execEdgePin (d : Desc) (ch : BitVec 7) (phase : BitVec 13) (s : State) : Host.Outcome State Fault Refusal :=
  .next (accept d (.edgePin ch phase) (actEdgePin ch phase) s)

/-- EDGE_UNPIN acts: a host pin and a launch pin go, and the phase stays (R301, R303). -/
def actEdgeUnpin (ch : BitVec 7) (a : Act) (s : State) : State :=
  finish (replan (s.modP ch.toNat (fun c => { c with host := none, launch := false }))) a

/-- EDGE_UNPIN. -/
def execEdgeUnpin (d : Desc) (ch : BitVec 7) (s : State) : Host.Outcome State Fault Refusal :=
  .next (accept d (.edgeUnpin ch) (actEdgeUnpin ch) s)

/-! ## Changes that take effect -/

/-- The first channel of a waiting change that may no longer take it, with its status. -/
def plannedBad (s : State) (p : Planned) : Option (Nat × Nat) :=
  (p.chans.map (fun i => (i, if i < 64 then hsoCheck s i p.st.toNat p.duty.toNat else fioCheck s (i - 80) p.duty.toNat))).find?
    (fun x => x.2 != stOk)

/-- The one-shot edges of a planned change that does not take place. -/
def dropShots (s : State) (p : Planned) : State :=
  { s with edge.oneShots := s.edge.oneShots.filter (fun o =>
      !(o.slot == p.slot && match o.chan with | some i => p.chans.contains i | none => false)) }

/-- A waiting change takes effect on all its channels with their periods starting at a slot, and its descriptor
completes. A channel that has come to fault meanwhile ends it under the rule of its own command. -/
def plannedTake (s : State) (p : Planned) (slot : Nat) : State :=
  let s := { s with edge.pending := s.edge.pending.erase p }
  match plannedBad s p with
  | some (i, x) => refuse (dropShots s p) p.act x (if 1 < p.chans.length then (if i < 64 then i else i - 80) else 0)
  | none =>
    finish (p.chans.foldl (fun s i =>
      if i < 64 then hsoApply s i p.st.toNat p.duty.toNat slot false
      else fioApply s (i - 80) p.duty.toNat slot false) s) p.act

/-- PLANNED_SWITCH: the slot of the earliest change that waits on this channel has come (R244, R245). -/
def execPlannedSwitch (index : BitVec 7) (s : State) : Host.Outcome State Fault Refusal :=
  let mine := s.edge.pending.filter (fun p => !p.atPeriod && p.chans.contains index.toNat)
  .next (match mine.foldl (fun (b : Option Planned) p =>
      match b with | none => some p | some q => if p.slot < q.slot then some p else some q) none with
    | none => s
    | some p => plannedTake (s.reachWeave (BitVec.ofNat 64 (slotStart p.slot))) p p.slot)

/-- The waiting LED settings of a string at its period start. -/
def ledTake (s : State) (p : LedPend) : State :=
  let s := { s with led.pend := s.led.pend.erase p }
  match (p.chans.map (fun n => (n, ledCheck s n p.iSet.toNat p.dim.toNat))).find? (fun x => x.2 != stOk) with
  | some (n, x) => refuse s p.act x (if 1 < p.chans.length then n else 0)
  | none => finish (p.chans.foldl (fun s n =>
      let c := vget s.edge.ch (64 + n)
      ledApply s n p.iSet.toNat p.dim.toNat (if c.active then some c.phase.toNat else none) false) s) p.act

/-- A running channel whose configured period has changed ends its period and is placed anew (R214, R294). -/
def retime (s : State) (i : Nat) : State :=
  let c := vget s.edge.ch i
  match s.periodCode i with
  | some code =>
    if c.active && c.period.toNat != code then
      let on := if i < 64 then onTime20 (s.hsoCh i).duty.toNat code
        else if i < 76 then onTime10 (s.ledCh (i - 64)).dim.toNat code
        else onTime20 (s.fioCh (i - 80)).duty.toNat code
      let r := s.place i code 0 (fun a => periodEdges (pairOf i) (s.weight i) (a % periodSlots code) code on)
      replan (planOn s i r.1 code on false)
    else s
  | none => s

/-- PWM_PERIOD_START: a changed period acts (R214); a host pin moves the channel's phase to its place (R302); the duty or the settings that wait for
the period take effect (R295, R384); lamp mode and the colour gains are applied anew (R247, R403). -/
def execPwmPeriodStart (index : BitVec 7) (s : State) : Host.Outcome State Fault Refusal :=
  let i := index.toNat
  .next (if !planned i || !s.isOn (if 64 ≤ i ∧ i < 76 then .led else .act) then s
    else
      let s := retime s i
      let c := vget s.edge.ch i
      let s := match c.host, c.launch with
        | some p, false => s.modP i (fun c => { c with phase := BitVec.ofNat 13 (p.toNat % periodSlots c.period.toNat) })
        | _, _ => s
      let phase := (vget s.edge.ch i).phase.toNat
      if i < 64 ∨ 80 ≤ i then
        let s := match s.edge.pending.find? (fun p => p.atPeriod && p.chans == [i]) with
          | some p => plannedTake s p phase
          | none => s
        if i < 64 ∧ (s.hsoCh i).st = .pwm ∧ s.hsoLamp i then
          let d := s.appliedDuty i (s.hsoCh i).cmdDuty.toNat
          planOnTime (s.modHso i (fun c => { c with duty := BitVec.ofNat 13 d })) i (onTime20 d (s.hsoCode i))
        else s
      else
        let n := i - 64
        let s := match s.led.pend.find? (fun p => p.atPeriod && p.chans == [n]) with
          | some p => ledTake s p
          | none => s
        if (s.ledCh n).isOn ∧ (s.ledCh n).st ≠ .held ∧ (s.ledCh n).st ≠ .orphan then
          s.modLed n (fun c => { c with gain := s.ledGain n })
        else s)

/-! ## Frames -/

/-- PLANNER_FRAME_CHECK: at slot 1000 the planner checks the coming frame and moves unpinned channels (R297 to R300,
R304, R305). -/
def execPlannerFrameCheck (s : State) : Host.Outcome State Fault Refusal :=
  .next (if s.isOn .act then
    let f := s.nowFrame + 1
    overCheck (fixedCheck (clearFrame s f) f true) f
    else s)

/-- The highest R_s and I_s of a frame on feed pair `k`, for EDGE_PEAK_k. -/
def framePeak (s : State) (frame k : Nat) : Nat × Nat :=
  let es := s.periodic (fun _ => true) ++ s.shotEdges frame (fun _ => true)
  es.foldl (fun m e =>
    if e.pair = k then let c := slotCount es k e.slot; (max m.1 c.1, max m.2 c.2) else m) (0, 0)

/-- EDGE_PEAK_k holds the frame that has ended (Table 7.9), and its one-shot edges are forgotten (R293). -/
def endFrame (s : State) : State :=
  let f := s.nowFrame
  let pk (k : Nat) := framePeak s (f - 1) k
  { s with
    edge.peakR := ⟨#[BitVec.ofNat 5 (min 31 (pk 0).1), BitVec.ofNat 5 (min 31 (pk 1).1), BitVec.ofNat 5 (min 31 (pk 2).1)], rfl⟩,
    edge.peakI := ⟨#[BitVec.ofNat 16 (min 65535 ((pk 0).2 / 10)), BitVec.ofNat 16 (min 65535 ((pk 1).2 / 10)),
      BitVec.ofNat 16 (min 65535 ((pk 2).2 / 10))], rfl⟩,
    edge.oneShots := s.edge.oneShots.filter (fun o => f ≤ o.slot / 1024) }

/-- The LED settings and releases that wait for a frame take effect (R384, R409, R697). -/
def ledFrame (s : State) : State :=
  let due (s : State) (p : LedPend) : Bool :=
    !p.atPeriod || p.chans.any (fun n => (s.ledCh n).st != .pwm)
  let s := (s.led.pend.filter (due s)).foldl ledTake s
  eachLed s (fun s n =>
    if (s.ledCh n).resume && !s.paused 1 then
      let s := if (s.ledCh n).st == .shed then logEvent s 0x0907 [n] else s
      ledDrive (s.modLed n (fun c => { c with st := .off })) n (ledPhase s n) false
    else s)

/-- Duty changes that waited for a period of a channel that no longer runs PWM. -/
def strandedPeriods (s : State) : State :=
  (s.edge.pending.filter (fun p => p.atPeriod && p.chans.any (fun i => !(vget s.edge.ch i).active))).foldl
    (fun s p => plannedTake s p (s.nowSlot + 1)) s

/-- PLANNER_FRAME_START: the changes that wait for the next frame take effect (R276, R384, R697). -/
def execPlannerFrameStart (s : State) : Host.Outcome State Fault Refusal :=
  .next (if !s.isOn .act then s
    else
      let s := strandedPeriods (vlvFrame (fioFrame (hsoFrame (endFrame s))))
      if s.isOn .led then ledFrame s else s)

/-! ## Time steps and Start -/

/-- R308: a step of Weave time removes every launch pin and logs their number; phases in slots stay. -/
def planStep (s : State) : State :=
  let n := (s.edge.ch.toList.filter (fun c => c.launch)).length
  logEvent { s with edge.ch := s.edge.ch.map (fun c => { c with launch := false }) } 0x0603 [n]

/-- At every Start the planner begins with an empty plan (R307). -/
def planStart (s : State) : State := { s with edge := {} }

end Sys2Proof.Machine
end

