-- ==== Sys2Proof/Machine/CanOps.lean ====
section
/-! DEFINITION. CAN channels: transceiver states, the transmit queue and its buffers, error confinement, the schedule
matrix and address claim (R434 to R468). -/

namespace Sys2Proof.Machine

/-! ## CAN statuses (Table 12.13) -/

def canBusOff : Nat := 0x80
def canTxErrorStatus : Nat := 0x81
def canFormat : Nat := 0x82
def canQueueFull : Nat := 0x83
def canNoAddress : Nat := 0x84
def canTpAbort : Nat := 0x85
def canMuted : Nat := 0x86

/-! ## A channel -/

/-- The channel. -/
def State.canCh (s : State) (n : Nat) : CanCh := vget s.can.ch n

/-- A channel changed. -/
def State.modCan (s : State) (n : Nat) (f : CanCh → CanCh) : State := { s with can.ch := vmod s.can.ch n f }

/-- A field of CAN_CTRL_n as it runs. -/
def State.canF (s : State) (n lo width : Nat) : Nat := bits (canCtrl s n) lo width

/-- Length of a nominal bit in clocks of 12.5 ns (R437). -/
def State.nominalClocks (s : State) (n : Nat) : Nat :=
  let x := s.recField 12 1 n 1 0 32 0x04894403
  (bits x 0 8 + 1) * (3 + bits x 8 8 + bits x 16 7)

/-- The RC oscillator keeps the channel listen-only: before the first trim, or above 250 kbit/s (R75). -/
def State.canRcBars (s : State) (n : Nat) : Bool := s.pwr.rcClock && (!s.pwr.rcTrimmed || s.nominalClocks n < 320)

/-- The channel is listen-only: by CAN_MODE, muted or under R75 (R465). -/
def State.canListens (s : State) (n : Nat) : Bool :=
  (s.canCh n).listen || (s.canCh n).muted || s.canRcBars n

/-- State of the channel's bus. -/
def State.busSt (s : State) (n : Nat) : BusSt := (vget s.net.bus n).st

/-- The bus is AWAKE or READY. -/
def State.busUp (s : State) (n : Nat) : Bool := s.busSt n == .awake || s.busSt n == .ready

/-- The transceiver state that R465 gives the channel. -/
def State.xcvrTarget (s : State) (n : Nat) : BitVec 2 :=
  if !s.canEnabled n then 2
  else if s.busSt n == .asleep then 3
  else if s.canListens n || !s.isOn .can || !s.busUp n then 1
  else 0

/-- The channel's transceiver sends and receives. -/
def State.canNormal (s : State) (n : Nat) : Bool := s.xcvrTarget n == 0

/-- A CAN_SCHED record applies to the channel in the mode. -/
def State.schedRec (s : State) (n : Nat) : Option Rec := s.rec? 12 3 n

/-! ## The schedule matrix (R455 to R461) -/

/-- Windows per cycle, cycle length in µs and the start of window `w` in µs (Table 12.11). -/
def schedWin (r : Rec) : Nat := r.f 0 4 6 + 1
def schedLen (r : Rec) : Nat := r.f 1 0 20
def schedStart (r : Rec) (w : Nat) : Nat := r.f (4 + w) 0 20

/-- TYPE and SLOT of the cell of row `c` and window `w`. -/
def schedCell (r : Rec) (c w : Nat) : Nat × Nat :=
  let i := c * schedWin r + w
  let b := r.f (4 + schedWin r + i / 4) (8 * (i % 4)) 8
  (bits b 0 2, bits b 2 5)

/-- Weave time in ns at which basic cycle `k` begins (R455). -/
def cycleStart (r : Rec) (k : Nat) : Nat := (r.w 2 + k * schedLen r) * 1000

/-- Weave time in ns at which window `w` of cycle `k` opens. -/
def windowStart (r : Rec) (k w : Nat) : Nat := cycleStart r k + schedStart r w * 1000

/-- Cell of the open window. -/
def State.openCell (s : State) (n : Nat) (r : Rec) : Nat × Nat :=
  schedCell r ((s.canCh n).cycle % s.schedRows n) (s.canCh n).window

/-- The window after window `w` of cycle `k`. -/
def nextWindow (r : Rec) (k w : Nat) : Nat × Nat := if w + 1 < schedWin r then (k, w + 1) else (k + 1, 0)

/-- Start of the next window that is not Free after window `w` of cycle `k`, looking `fuel` windows ahead. -/
def nextBusy (r : Rec) (rows k w : Nat) : Nat → Option Nat
  | 0 => none
  | fuel + 1 =>
    let x := nextWindow r k w
    if (schedCell r (x.1 % rows) x.2).1 != 0 then some (windowStart r x.1 x.2) else nextBusy r rows x.1 x.2 fuel

/-- The conditions of R459 but for synchronisation. -/
def State.schedMay (s : State) (n : Nat) : Bool :=
  (s.schedRec n).isSome && s.canNormal n && (s.canCh n).conf.toNat < 2

/-- Weave time is synchronised, or FREE is set (R459). -/
def State.schedTimed (s : State) (n : Nat) : Bool := s.synced || s.recField 12 3 n 0 10 1 0 == 1

/-- The schedule stops: a message that TB2 holds and that is not on the bus is dropped, and event 0x0C09 is logged. -/
def schedStop (s : State) (n cause : Nat) : State :=
  if !(s.canCh n).sched then s
  else
    logEvent (s.modCan n (fun c =>
      { c with sched := false, schedEnding := false, windowOpen := false,
               tb := if c.onBus == some 2 then c.tb else vset c.tb 2 none })) 0x0C09 [n, cause]

/-- The schedule is judged anew (R459): without synchronisation it stops at the end of the cycle, on every other failed
condition at once. -/
def schedCheck (s : State) (n : Nat) : State :=
  if !(s.canCh n).sched then s
  else if !s.schedMay n then schedStop s n 1
  else s.modCan n (fun c => { c with schedEnding := !s.schedTimed n })

/-- The transceiver takes the state of R465; a change between Normal and Listen-only waits for the end of a frame that
this channel has on the bus. -/
def canSync (s : State) (n : Nat) : State :=
  let s := if (s.canCh n).onBus.isSome then s else s.modCan n (fun c => { c with xcvr := s.xcvrTarget n })
  schedCheck s n

/-! ## Completing a frame -/

/-- RESULT0 of a CAN_TX (R446). -/
def TxFrame.result0 (f : TxFrame) (b : Nat) : Nat := f.attempts % 512 + field 9 b

/-- A frame ends with a status: a CAN_TX completes with the values of R446. -/
def txComplete (s : State) (f : TxFrame) (b status : Nat) : State :=
  match f.kind with
  | .host act _ =>
    if f.attempts = 0 ∧ f.sof = 0 then refuse s act status
    else complete s act.d (if status = stOk ∧ act.late then stLate else status) 0 f.sof.toNat (f.result0 b) f.ackErrors
  | _ => s

/-- The cancels that wait for a frame complete with a status (Table 12.3). -/
def cancelsEnd (s : State) (f : TxFrame) (status : Nat) : State :=
  f.cancels.foldl (fun s d => complete s d status 0 s.weave.time.toNat 0 0) s

/-- A frame that its channel gives up: it completes with a status, and cancels that wait for it come too late. -/
def txDrop (s : State) (f : TxFrame) (b status : Nat) : State :=
  cancelsEnd (txComplete s f b status) f stCancelTooLate

/-! ## Queue and buffers (R440 to R442) -/

/-- Buffers that queued frames use: TB0 and TB1 where a schedule applies (R442). -/
def State.nBufs (s : State) (n : Nat) : Nat := if (s.schedRec n).isSome then 2 else 3

/-- The address a control function holds; none while it holds no address. -/
def State.cfAddr (s : State) (k : Nat) : Option (BitVec 8) :=
  let f := vget s.can.cf k
  if f.st == 2 then some f.addr else none

/-- Lower bits of an identifier replaced by an address. -/
def withSa (id : BitVec 29) (sa : BitVec 8) : BitVec 29 := (id &&& ~~~0xFF#29) ||| sa.setWidth 29

/-- A frame as it is loaded into a buffer: a CAN_TX with USE_CF takes the address of its control function (R468). -/
def State.resolve (s : State) (f : TxFrame) : Option TxFrame :=
  match f.kind with
  | .host _ (some k) => (s.cfAddr k).map (fun a => { f with frame := { f.frame with id := withSa f.frame.id a } })
  | _ => some f

/-- The buffer that takes the next queued frame: under POLICY 1 the next in rotation, else the lowest free one. -/
def State.freeBuf (s : State) (n : Nat) : Option Nat :=
  let c := s.canCh n
  let isFree (b : Nat) : Bool := (vget c.tb b).isNone
  if s.canF n 1 1 = 1 then
    let b := c.fill % s.nBufs n
    if isFree b then some b else none
  else (List.range (s.nBufs n)).find? isFree

/-- Free buffers are filled from the head of the queue; a frame whose control function holds no address completes
NO_ADDRESS instead. -/
def canFillN (s : State) (n : Nat) : Nat → State
  | 0 => s
  | fuel + 1 =>
    match (s.canCh n).queue, s.freeBuf n with
    | f :: rest, some b =>
      match s.resolve f with
      | none => canFillN (txComplete (s.modCan n (fun c => { c with queue := rest })) f 0 canNoAddress) n fuel
      | some g =>
        canFillN (s.modCan n (fun c =>
          { c with queue := rest, tb := vset c.tb b (some g), fill := (b + 1) % s.nBufs n })) n fuel
    | _, _ => s

/-- Free buffers are filled from the head of the queue. -/
def canFill (s : State) (n : Nat) : State := canFillN s n 70

/-- A buffer becomes free. -/
def freeTb (s : State) (n b : Nat) : State :=
  s.modCan n (fun c =>
    { c with tb := vset c.tb b none, onBus := if c.onBus == some b then none else c.onBus,
             send := if c.send == b then (b + 1) % s.nBufs n else c.send })

/-- A frame enters the queue, at its head or at its end; false when the queue is full (R440). -/
def canQueue (s : State) (n : Nat) (f : TxFrame) (head : Bool) : Bool × State :=
  if 64 ≤ (s.canCh n).queue.length then (false, s)
  else (true, canFill (s.modCan n (fun c => { c with queue := if head then f :: c.queue else c.queue ++ [f] })) n)

/-- Every frame of the queue and the buffers completes with a status; a frame on the bus stays where `keep` is set. -/
def canDump (s : State) (n status : Nat) (keep : Bool) : State :=
  let c := s.canCh n
  let inTb := (List.range 3).filterMap (fun b =>
    if keep && c.onBus == some b then none else (vget c.tb b).map (fun f => (f, b)))
  let s := s.modCan n (fun c =>
    { c with queue := [], tb := if keep then Vector.ofFn (fun b => if c.onBus == some b.val then vget c.tb b else none)
                                else .replicate 3 none,
             onBus := if keep then c.onBus else none })
  let s := inTb.foldl (fun s x => txDrop s x.1 x.2 status) s
  c.queue.foldl (fun s f => txDrop s f 0 status) s

/-! ## Which frame starts -/

/-- The arbitration field as a number; the lower number has the higher priority. -/
def arbKey (f : CanFrame) : Nat :=
  let base := f.id.toNat / 2 ^ 18
  if f.ide then base * 2 ^ 21 + 2 ^ 20 + 2 ^ 19 + f.id.toNat % 2 ^ 18 * 2 + b2n f.rtr
  else base * 2 ^ 21 + field 20 (b2n f.rtr)

/-- The frame may start at a Weave time (R443). -/
def State.ripe (s : State) (n b : Nat) : Bool :=
  match vget (s.canCh n).tb b with
  | some f => f.from_ ≤ s.weave.time.toNat
  | none => false

/-- The buffer whose frame goes first among those that may start (R441). -/
def State.firstOf (s : State) (n : Nat) (bs : List Nat) : Option Nat :=
  let c := s.canCh n
  if s.canF n 1 1 = 1 then
    ((List.range (s.nBufs n)).map (fun i => (c.send + i) % s.nBufs n)).find? (fun b => bs.contains b)
  else
    let key (b : Nat) : Nat := match vget c.tb b with | some f => arbKey f.frame | none => 0
    bs.foldl (fun best b => match best with
      | none => some b
      | some x => if key b < key x then some b else some x) none

/-- Buffers that the open window lets start (R456). -/
def State.windowBufs (s : State) (n : Nat) (r : Rec) : List Nat :=
  let c := s.canCh n
  match (s.openCell n r).1 with
  | 0 =>
    let held : Bool := match nextBusy r (s.schedRows n) c.cycle c.window 1024 with
      | some t => t ≤ s.weave.time.toNat + r.f 3 0 16 * 1000
      | none => false
    if held then [] else [0, 1]
  | 1 => if s.weave.time.toNat ≤ windowStart r c.cycle c.window + r.f 3 16 16 * 1000 then [2] else []
  | _ => []

/-- Buffers that may start a frame now, the schedule considered. -/
def State.startable (s : State) (n : Nat) : List Nat :=
  let c := s.canCh n
  let may := match s.schedRec n with
    | some r => if c.sched then (if c.windowOpen then s.windowBufs n r else []) else [0, 1]
    | none => [0, 1, 2]
  may.filter (fun b => s.ripe n b)

/-! ## Errors and confinement (R448 to R452) -/

/-- Entry to bus-off (R449): every frame completes BUS_OFF. -/
def enterBusOff (s : State) (n : Nat) : State :=
  let s := s.modCan n (fun c => { c with conf := 2, boCount := c.boCount + 1, boAt := s.clk.ns })
  let s := canDump s n canBusOff false
  canSync (logEvent s 0x0C02 [n, (s.canCh n).lec.toNat]) n

/-- The state that the counters give; a change between error active and error passive is logged (R448). -/
def confine (s : State) (n : Nat) : State :=
  let c := s.canCh n
  if 2 ≤ c.conf.toNat then s
  else if 255 < c.tec then enterBusOff s n
  else
    let conf : BitVec 2 := if 127 < c.tec ∨ 127 < c.rcv then 1 else 0
    if conf = c.conf then s
    else logEvent (s.modCan n (fun c => { c with conf := conf })) 0x0C01 [n, capAt 255 c.tec, capAt 255 c.rcv]

/-- The run of acknowledgement errors ends, and ALONE with it (R450, R452). -/
def endAckRun (s : State) (n : Nat) : State :=
  let was := (s.canCh n).alone
  let s := s.modCan n (fun c => { c with ackRun := 0, alone := false, backoff := none, backoffLen := 0 })
  if was then logEvent s 0x0C05 [n] else s

/-- An acknowledgement error is counted; the 32nd in a row makes the channel ALONE (R450), and each further one doubles
the back-off (R451). -/
def countAck (s : State) (n : Nat) : State :=
  let s := s.modCan n (fun c => { c with ackRun := satInc c.ackRun })
  let c := s.canCh n
  if c.alone then s.modCan n (fun c => { c with backoffLen := capAt (1000 * ms) (2 * c.backoffLen) })
  else if 32 ≤ c.ackRun.toNat then
    logEvent (s.modCan n (fun c => { c with alone := true, backoffLen := 10 * ms })) 0x0C04 [n]
  else s

/-- An ALONE channel waits its back-off after the end of an attempt (R451). -/
def startBackoff (s : State) (n : Nat) : State :=
  s.modCan n (fun c => { c with backoff := if c.alone then some (s.clk.ns + c.backoffLen) else none })

/-! ## Address claim (R467) -/

/-- A control function changed. -/
def State.modCf (s : State) (k : Nat) (f : CanCf → CanCf) : State := { s with can.cf := vmod s.can.cf k f }

/-- A field of the CAN_CF record of the mode. -/
def State.cfF (s : State) (k w lo width : Nat) : Nat := s.recField 12 4 k w lo width 0

/-- NAME of a control function. -/
def State.cfName (s : State) (k : Nat) : Nat := s.cfF k 0 0 32 + s.cfF k 1 0 32 * 2 ^ 32

/-- An ISO 11783 identifier from priority, PDU format, PDU specific and source address. -/
def j1939Id (prio pf ps sa : Nat) : BitVec 29 :=
  BitVec.ofNat 29 (field 26 prio + field 16 pf + field 8 ps + sa)

/-- The address-claimed message of a control function from an address; from 254 it says cannot claim. It goes to the
head of the queue (R440). -/
def sendClaim (s : State) (k : Nat) (sa : BitVec 8) : State :=
  let n := (vget s.can.cf k).ch.toNat
  if 2 ≤ (s.canCh n).conf.toNat || !s.canEnabled n then s
  else
    (canQueue s n { frame := { id := j1939Id 6 0xEE 0xFF sa.toNat, ide := true, dlc := 8, data := bytesOf 8 (s.cfName k) },
                    kind := .claim } true).2

/-- A claim of an address starts. -/
def claimStart (s : State) (k : Nat) (addr : BitVec 8) : State :=
  sendClaim (s.modCf k (fun f =>
    { f with st := 1, want := addr, addr := 0xFF, ch := BitVec.ofNat 4 (s.cfF k 2 24 4) })) k addr

/-- The control function cannot claim an address: it says so from address 254. -/
def cannotClaim (s : State) (k : Nat) : State :=
  sendClaim (s.modCf k (fun f => { f with st := 3, addr := 0xFE, want := 0xFE })) k 0xFE

/-- The next free address of RANGE_LO to RANGE_HI: the lowest that no other node has claimed on the channel and no other
control function of this module uses there. -/
def State.freeAddr (s : State) (k : Nat) : Option Nat :=
  let lo := s.cfF k 2 8 8
  let n := (vget s.can.cf k).ch
  ((List.range (s.cfF k 2 16 8 + 1 - lo)).map (· + lo)).find? (fun a =>
    !(s.canCh n.toNat).claimed.contains (BitVec.ofNat 8 a)
    && (List.range 8).all (fun j =>
      let f := vget s.can.cf j
      j == k || f.ch != n || !(f.st == 1 || f.st == 2) || f.want != BitVec.ofNat 8 a))

/-- A control function loses its address (R467). -/
def loseAddr (s : State) (k : Nat) : State :=
  let held := (vget s.can.cf k).st == 2
  let n := (vget s.can.cf k).ch.toNat
  match (if s.cfF k 2 28 1 = 1 then s.freeAddr k else none) with
  | some a =>
    let s := if held then logEvent s 0x0C0B [n, k] else s
    claimStart s k (BitVec.ofNat 8 a)
  | none => cannotClaim (logEvent s 0x0C0B [n, k]) k

/-- Another node's address-claimed message reaches the control functions of the channel: the lower NAME has the higher
priority. -/
def claimRx (s : State) (n : Nat) (sa : BitVec 8) (name : Nat) : State :=
  let s := s.modCan n (fun c =>
    { c with claimed := if sa.toNat < 0xFE ∧ ¬ c.claimed.contains sa then c.claimed ++ [sa] else c.claimed })
  (List.range 8).foldl (fun s k =>
    let f := vget s.can.cf k
    if f.ch.toNat = n ∧ (f.st = 1 ∨ f.st = 2) ∧ f.want = sa then
      if s.cfName k < name then sendClaim s k sa else loseAddr s k
    else s) s

/-- A request for the address-claimed message, to one address or to all, is answered. -/
def claimRequest (s : State) (n : Nat) (da : BitVec 8) : State :=
  (List.range 8).foldl (fun s k =>
    let f := vget s.can.cf k
    if f.ch.toNat = n ∧ (da = 0xFF ∨ f.want = da) ∧ f.st ≠ 0 then sendClaim s k f.want else s) s

/-- Claims are sent again, at the end of bus-off recovery (R449). -/
def claimAgain (s : State) (n : Nat) : State :=
  (List.range 8).foldl (fun s k =>
    let f := vget s.can.cf k
    if f.ch.toNat = n ∧ (f.st = 1 ∨ f.st = 2) then claimStart s k f.want else s) s

/-- At each Start every control function with AUTO claims its preferred address. -/
def claimAuto (s : State) : State :=
  (List.range 8).foldl (fun s k =>
    match s.rec? 12 4 k with
    | some r => if r.f 2 29 1 = 1 then claimStart s k (BitVec.ofNat 8 (r.f 2 0 8)) else s
    | none => s) s

/-! ## Blocks and modes -/

/-- Every channel in turn. -/
def eachCan (s : State) (f : State → Nat → State) : State := (List.range 10).foldl f s

/-- PD_CAN begins to drain (R471): every frame that has not passed its commit instant completes ABORTED_POWER. -/
def canDrain (s : State) : State := eachCan s (fun s n => schedStop (canDump s n stAbortedPower true) n 1)

/-- PD_CAN is quiescent: no frame is on a bus. -/
def canQuiet (s : State) : Bool := s.can.ch.toList.all (fun c => c.onBus.isNone)

/-- PD_CAN loses its supply: what is left completes ABORTED_POWER, and the sessions end. -/
def canOff (s : State) : State :=
  let s := eachCan s (fun s n => canDump s n stAbortedPower false)
  let s := s.can.tpSend.foldl (fun s x => match x.act with | some a => refuse s a stAbortedPower | none => s) s
  { s with can.tpSend := [], can.tpRecv := [] }

/-- A reset or a Start (R472): counters 0, queue empty, ALONE clear, no mute; each transceiver keeps its state but that
Normal becomes Listen-only. -/
def canReset (s : State) : State :=
  { s with can.ch := Vector.ofFn (fun n =>
             let c := vget s.can.ch n
             { ({} : CanCh) with xcvr := if c.xcvr == 0 then 1 else c.xcvr }),
           can.cf := .replicate 8 {}, can.tpSend := [], can.tpRecv := [] }

/-- The claims of a mode take effect (R220): frames of a channel that is not enabled complete REFUSED_STATE, and a control
function without a record is idle. -/
def canClaims (s : State) : State :=
  let s := eachCan s (fun s n =>
    let s := if s.canEnabled n then s else schedStop (canDump s n stRefusedState false) n 1
    canSync s n)
  let s := { s with can.tbc := s.recField 12 1 0 0 5 1 (b2n s.can.tbc) == 1 }
  (List.range 8).foldl (fun s k => if (s.rec? 12 4 k).isSome then s else s.modCf k (fun _ => {})) s

end Sys2Proof.Machine
end

