-- ==== Sys2Proof/Machine/NetOps.lean ====
section
/-! DEFINITION. The sleep agreement of each bus: own need, keep-alives, bus states, hold runs, bars and wake detection
(R479 to R501). -/

namespace Sys2Proof.Machine

/-- The bus. -/
def State.netBus (s : State) (n : Nat) : NetBus := vget s.net.bus n

/-- A bus changed. -/
def State.modBus (s : State) (n : Nat) (f : NetBus → NetBus) : State := { s with net.bus := vmod s.net.bus n f }

/-- A field of the bus's NET_BUS record in the mode, or 0. -/
def State.netF (s : State) (n w lo width : Nat) : Nat := s.recField 13 1 n w lo width 0

/-- The bus runs the sleep agreement: a NET_BUS record applies (R737). -/
def State.netHas (s : State) (n : Nat) : Bool := (s.rec? 13 1 n).isSome

/-- The service cores run the agreement. -/
def State.netRuns (s : State) : Bool :=
  s.isOn .svc && !(s.pwr.mode == .start || s.pwr.mode == .park || s.pwr.mode == .guard || s.pwr.mode == .storage)

/-! ## Own need (Table 13.1) -/

/-- A frame that holds the Traffic row: any but a keep-alive. -/
def isTraffic (f : TxFrame) : Bool := f.kind != .keepAlive

/-- The Traffic row of Table 13.1. -/
def State.netTraffic (s : State) (n : Nat) : Bool :=
  let c := s.canCh n
  c.queue.any isTraffic || (List.range 3).any (fun b => match vget c.tb b with | some f => isTraffic f | none => false)
    || s.can.tpSend.any (fun x => x.ch == n) || s.can.tpRecv.any (fun x => x.ch == n)
    || (List.range 8).any (fun k => let f := vget s.can.cf k; f.st == 1 && f.ch.toNat == n)

/-- The sources of own need on a bus, as the need flags of a keep-alive (Table 13.2). A NET_WAKE counts as the host's
need. -/
def State.needFlags (s : State) (n : Nat) : Nat :=
  let b := s.netBus n
  let woken := match b.wakeUntil with | some t => decide (s.clk.ns < t) | none => false
  flag 0 (s.kl15On && s.canEnabled n) + flag 1 (s.localNeed && s.netF n 3 29 1 == 1)
    + flag 2 (b.host || woken) + flag 3 (s.pwr.mode == .update || s.pwr.mode == .service) + flag 4 (s.netTraffic n)

/-! ## States and keep-alives -/

/-- The bus takes a state; a change is logged (R484). -/
def setBus (s : State) (n : Nat) (st : BusSt) : State :=
  let old := s.busSt n
  if old = st then s
  else
    let s := s.modBus n (fun b =>
      { b with st := st, graceAt := if st == .ready then s.clk.ns else b.graceAt,
               errs := if st == .ready then 0 else b.errs })
    canSync (logEvent s 0x0D01 [n, old.num, st.num]) n

/-- Sender address of a keep-alive: that of the lowest-numbered control function that holds an address on the channel,
or KA_SA (R481). -/
def State.kaSource (s : State) (n : Nat) : BitVec 8 :=
  match (List.range 8).find? (fun k => let f := vget s.can.cf k; f.st == 2 && f.ch.toNat == n) with
  | some k => (vget s.can.cf k).addr
  | none => BitVec.ofNat 8 (s.netF n 4 0 8)

/-- The keep-alive frame (R481, Table 13.2). -/
def State.kaFrame (s : State) (n : Nat) : CanFrame :=
  let ide := s.netF n 1 29 1 == 1
  let id := BitVec.ofNat 29 (s.netF n 1 0 29)
  { id := if ide then withSa id (s.kaSource n) else id, ide := ide, dlc := 8,
    data := [0xC5, 0x4E, BitVec.ofNat 8 (s.needFlags n), (s.netBus n).seq, 0xFF, 0xFF, 0xFF, 0xFF] }

/-- A waiting keep-alive that has not started is replaced by the next one (R480). -/
def replaceKa (s : State) (n : Nat) (f : CanFrame) : Bool × State :=
  let c := s.canCh n
  let waits (x : TxFrame) : Bool := x.kind == .keepAlive && x.attempts == 0
  if c.queue.any waits then
    (true, s.modCan n (fun c => { c with queue := c.queue.map (fun x => if waits x then { x with frame := f } else x) }))
  else
    match (List.range 3).find? (fun b => c.onBus != some b && match vget c.tb b with | some x => waits x | none => false) with
    | some b => (true, s.modCan n (fun c => { c with tb := vset c.tb b ((vget c.tb b).map (fun x => { x with frame := f })) }))
    | none => (false, s)

/-- One keep-alive is sent (R480): none with KA_EN 0 or on a listen-only channel; one that finds the queue full is not
sent and logged as event 0x0D07. -/
def sendKa (s : State) (n : Nat) : State :=
  let s := s.modBus n (fun b => { b with kaAt := s.clk.ns })
  if s.netF n 3 30 1 = 0 ∨ s.canListens n ∨ 2 ≤ (s.canCh n).conf.toNat then s
  else
    let f := s.kaFrame n
    let r := replaceKa s n f
    if r.1 then r.2.modBus n (fun b => { b with seq := b.seq + 1 })
    else
      let q := canQueue s n { frame := f, kind := .keepAlive } false
      if q.1 then q.2.modBus n (fun b => { b with seq := b.seq + 1 }) else logEvent q.2 0x0D07 [n, 1]

/-- The sleep of a READY bus is cancelled (R486): AWAKE, one keep-alive at once, event 0x0D02. The keep-alive counts
from the cancel on (DEDUCED, log entry 40). -/
def cancelSleep (s : State) (n cause : Nat) : State :=
  let s := setBus (s.modBus n (fun b => { b with lastKa := some s.clk.ns })) n .awake
  logEvent (sendKa s n) 0x0D02 [n, cause]

/-- A sleeping bus wakes (R498, R487): cause, pattern and source are recorded, and its T_SLEEP timer starts (R492). -/
def busWoken (s : State) (n : Nat) (cause : BitVec 2) (pat : BitVec 3) (detected : Bool) : State :=
  let s := s.modBus n (fun b =>
    { b with wakeCause := cause, wakePat := pat, errs := 0, lastKa := some s.clk.ns, armBus := none, armPats := [] })
  let s := if detected then { s with net.wakeSrc := setBit s.net.wakeSrc n true } else s
  setBus (logEvent s 0x0D03 [n, cause.toNat, pat.toNat]) n .awake

/-! ## Hold runs and bars (R499 to R501) -/

/-- A hold run lasts while KL15 is off, the bus is AWAKE or READY and own need does not hold. -/
def trackRun (s : State) (n : Nat) : State :=
  let on := !s.kl15On && s.busUp n && !(s.netBus n).need
  s.modBus n (fun b => { b with runAt := if on then some (b.runAt.getD s.clk.ns) else none })

/-- The bars of a bus end (R501). -/
def endBars (s : State) (n cause : Nat) : State :=
  if (s.netBus n).bars.isEmpty then s else logEvent (s.modBus n (fun b => { b with bars := [] })) 0x0D05 [n, cause]

/-- Every bus in turn. -/
def eachBus (s : State) (f : State → Nat → State) : State := (List.range 10).foldl f s

/-! ## Judging a bus anew -/

/-- Own need and what follows from it: a channel that is not enabled is STANDBY, one newly enabled is AWAKE with its
timer started, one without a record stays AWAKE (R737); need cancels a sleep or wakes the bus, and its first keep-alive
goes out at once (R479, R480, R486, R487). -/
def netEval (s : State) (n : Nat) : State :=
  if !s.netRuns then s
  else if !s.canEnabled n then
    setBus (s.modBus n (fun b => { b with need := false, runAt := none, wakeUntil := none })) n .standby
  else
    let s := if s.busSt n == .standby then
        setBus (s.modBus n (fun b => { b with lastKa := some s.clk.ns })) n .awake else s
    let had := (s.netBus n).need
    let now := s.needFlags n != 0
    let s := s.modBus n (fun b => { b with need := now, needEnd := if had && !now then s.clk.ns else b.needEnd })
    if !s.netHas n then setBus (s.modBus n (fun b => { b with runAt := none })) n .awake
    else
      let s := match now, s.busSt n with
        | true, .ready => cancelSleep s n 3
        | true, .asleep => sendKa (busWoken s n 3 0 false) n
        | true, .awake => if had then s else sendKa s n
        | _, _ => s
      trackRun s n

/-- Every channel and bus judged anew. -/
def netAll (s : State) : State := eachBus s (fun s n => netEval (canSync s n) n)

/-- KL15 has come on: every bar ends (R501), and need is judged anew. -/
def netKl15 (s : State) : State :=
  netAll (if s.kl15On then eachBus s (fun s n => endBars s n 1) else s)

/-! ## Frames -/

/-- The identifier agrees with a pattern on every bit set in a mask. -/
def idAgrees (id pat mask : Nat) : Bool := (id &&& mask) == (pat &&& mask)

/-- A received frame is a keep-alive (R482). -/
def State.isKa (s : State) (n : Nat) (f : CanFrame) : Bool :=
  f.fmt == 0 && !f.rtr && idAgrees f.id.toNat (s.netF n 1 0 29) (s.netF n 2 0 29) && f.ide == (s.netF n 1 29 1 == 1)
    && f.dlc == 8 && f.data.take 2 == [0xC5#8, 0x4E#8]

/-- The frame matches a wake pattern (R495, R496). -/
def patMatches (r : Rec) (f : CanFrame) : Bool :=
  let dlcOk := r.f 2 4 1 == 0 || f.dlc.toNat == r.f 2 0 4
  let idOk := f.ide == (r.f 0 29 1 == 1) && idAgrees f.id.toNat (r.f 0 0 29) (r.f 1 0 29)
  let dataOk := (List.range 8).all (fun i =>
    let m := r.f (5 + i / 4) (8 * (i % 4)) 8
    m == 0 || (match f.data[i]? with
      | some b => (b.toNat &&& m) == (r.f (3 + i / 4) (8 * (i % 4)) 8 &&& m)
      | none => false))
  match f.fmt.toNat with
  | 0 => !f.rtr && dlcOk && idOk && dataOk
  | 1 => r.f 0 30 1 == 1 && dlcOk && idOk
  | _ => false

/-- The NET_WAKE records of a bus in the mode, by pattern. -/
def State.wakePats (s : State) (n : Nat) : List (Nat × Rec) :=
  (List.range 8).filterMap (fun k => (s.rec? 13 2 (8 * n + k)).map (fun r => (k, r)))

/-- Source key of a frame under a NET_BUS record. -/
def srcKey (r : Rec) (f : CanFrame) : BitVec 29 := f.id &&& BitVec.ofNat 29 (r.f 3 0 29)

/-- A counted keep-alive arrives (R482, R499): its source holds the bus for T_SLEEP, and a READY bus is AWAKE again. -/
def countKa (s : State) (n : Nat) (key : Option (BitVec 29)) : State :=
  let t := s.clk.ns
  let sl := s.netSleep n
  let s := s.modBus n (fun b =>
    { b with lastKa := some t,
             srcs := match key with
               | none => b.srcs
               | some k =>
                 match b.srcs.find? (fun x => x.key == k) with
                 | some x => ⟨k, if t < x.last + sl then x.since else t, t⟩ :: b.srcs.filter (fun x => x.key != k)
                 | none => ⟨k, t, t⟩ :: b.srcs })
  if s.busSt n == .ready then setBus s n .awake else s

/-- The grace interval begins anew (R485). -/
def restartGrace (s : State) (n : Nat) : State :=
  if s.busSt n == .ready then s.modBus n (fun b => { b with graceAt := s.clk.ns }) else s

/-- A frame is received on an awake bus (R482, R485, R486, R501): a barred source's frame does nothing here; a keep-alive
counts; any other frame restarts the grace interval, and one that matches a wake pattern cancels the sleep. -/
def netSeen (s : State) (n : Nat) (f : CanFrame) : State :=
  match s.rec? 13 1 n with
  | none => s
  | some r =>
    let key := srcKey r f
    if !s.netRuns || !s.busUp n || (s.netBus n).bars.contains key then s
    else if s.isKa n f then countKa s n (some key)
    else if s.busSt n == .ready then
      if r.f 1 30 2 == 2 && (s.wakePats n).any (fun p => patMatches p.2 f) then cancelSleep s n 0
      else restartGrace s n
    else s

/-- A frame that this device sent ended, with success or an error: its own keep-alive counts when it succeeds, and any
frame restarts the grace interval unless the channel is ALONE (R482, R488). -/
def netSent (s : State) (n : Nat) (kind : TxKind) (ok : Bool) : State :=
  if !s.netRuns || !s.netHas n || !s.busUp n then s
  else if ok && kind == .keepAlive then countKa s n none
  else if (s.canCh n).alone then s
  else restartGrace s n

/-! ## Sleep and wake detection -/

/-- The bus goes to sleep at its point of no return (R485): the detector is armed with the settings of the mode, keep-
alives still waiting are dropped, and the transceiver goes to Sleep. -/
def busSleep (s : State) (n : Nat) : State :=
  let r := s.rec? 13 1 n
  let s := s.modBus n (fun b => { b with armBus := r, armPats := s.wakePats n, runAt := none, srcs := [] })
  setBus (canDump s n stRefusedState false) n .asleep

/-- What the selective detector makes of a frame or an error on a bus (R495 to R497): the wake cause and pattern, if the
sleeping bus wakes, and the new error count. -/
def selective (b : NetBus) (f : Option CanFrame) : Option (BitVec 2 × BitVec 3) × Nat :=
  match b.armBus with
  | none => (none, b.errs)
  | some r =>
    match f with
    | none => if r.f 4 8 8 ≤ b.errs + 1 then (some (2, 0), 0) else (none, b.errs + 1)
    | some f =>
      let low := if f.fmt.toNat = 0 then b.errs - 1 else b.errs
      if f.fmt == 2 || b.bars.contains (srcKey r f) then (none, low)
      else match b.armPats.find? (fun p => patMatches p.2 f) with
        | some p => (some (0, BitVec.ofNat 3 p.1), low)
        | none => (none, low)

/-- What wake detection makes of a signal on a sleeping bus: the cause and pattern of the wake, if it wakes, and the new
error count. -/
def detect (b : NetBus) (sig : WakeSignal) : Option (BitVec 2 × BitVec 3) × Nat :=
  match b.armBus with
  | none => (none, b.errs)
  | some r =>
    match r.f 1 30 2, sig with
    | 1, .error => (none, b.errs)
    | 1, _ => (some (1, 0), b.errs)
    | 2, .frame f => selective b (some f)
    | 2, .error => selective b none
    | _, _ => (none, b.errs)

/-! ## Start -/

/-- Holds and wakes by the host end at every Start, and a power-on or a Start from Storage forgets the rest. -/
def netReset (s : State) (cold : Bool) : State :=
  { s with
    net.wakeSrc := if cold then 0 else s.net.wakeSrc,
    net.bus := s.net.bus.map (fun b =>
      if cold then {} else { b with host := false, wakeUntil := none, need := false, runAt := none, srcs := [] }) }

/-- The buses at the end of Start (R492): after a power-on every enabled bus is AWAKE with its timer started; else the
bus that woke the module is, a sleeping bus stays asleep unless own need wakes it, and any other is AWAKE. -/
def netStart (s : State) (cold : Bool) : State :=
  let s := eachBus s (fun s n =>
    if cold || s.busSt n != .asleep then
      setBus (s.modBus n (fun b => { b with lastKa := if b.st == .awake && !cold then some (b.lastKa.getD s.clk.ns) else some s.clk.ns })) n .awake
    else s)
  netKl15 s

end Sys2Proof.Machine
end

