-- ==== Sys2Proof/Machine/CanTp.lean ====
section
/-! DEFINITION. The transport protocols that SC0 runs for each control function (R469, R470): sessions, their frames
under ISO 11783-3 and SAE J1939-21, and the delivery of complete messages. -/

namespace Sys2Proof.Machine

/-- PDU formats of the transport protocols: connection management and data of TP and of ETP. -/
def pfTpCm : Nat := 0xEC
def pfTpDt : Nat := 0xEB
def pfEtpCm : Nat := 0xC8
def pfEtpDt : Nat := 0xC7

/-- Abort reasons of SAE J1939-21: an existing session, lack of resources, a time-out. -/
def abExisting : Nat := 1
def abResources : Nat := 2
def abTimeout : Nat := 3

/-- Packets of seven bytes that a message takes. -/
def tpPackets (len : Nat) : Nat := (len + 6) / 7

/-- A transport frame joins its channel's queue. -/
def tpFrame (s : State) (n prio pf da sa : Nat) (data : List (BitVec 8)) (session : Option Nat) : State :=
  if 2 ≤ (s.canCh n).conf.toNat || (s.canCh n).muted then s
  else
    (canQueue s n { frame := { id := j1939Id prio pf da sa, ide := true, dlc := 8,
                               data := (data ++ List.replicate 8 0xFF).take 8 },
                    kind := .transport session } false).2

/-- The last three bytes of a connection-management frame. -/
def pgnBytes (pgn : BitVec 18) : List (BitVec 8) := bytesOf 3 pgn.toNat

/-! ## Sending -/

/-- The message goes by ETP. -/
def TpSend.etp (x : TpSend) : Bool := 1785 < x.data.length

/-- The message goes to all by BAM. -/
def TpSend.bam (x : TpSend) : Bool := x.da == 0xFF

/-- Sessions changed. -/
def State.setSend (s : State) (x : TpSend) : State :=
  { s with can.tpSend := s.can.tpSend.map (fun y => if y.id == x.id then x else y) }

/-- Session with a number. -/
def State.sendOf (s : State) (id : Nat) : Option TpSend := s.can.tpSend.find? (fun y => y.id == id)

/-- A connection-management frame of a sending session. -/
def tpCm (s : State) (x : TpSend) (head : List (BitVec 8)) : State :=
  let sa := match s.cfAddr x.cf with | some a => a.toNat | none => 0xFE
  tpFrame s x.ch x.prio.toNat (if x.etp then pfEtpCm else pfTpCm) x.da.toNat sa (head ++ pgnBytes x.pgn) none

/-- The next data packet of a sending session. -/
def tpNext (s : State) (x : TpSend) : State :=
  let sa := match s.cfAddr x.cf with | some a => a.toNat | none => 0xFE
  let k := x.sent
  let seq := BitVec.ofNat 8 (k + 1 - x.base)
  let s := s.setSend { x with sent := k + 1, lastAt := s.clk.ns }
  tpFrame s x.ch x.prio.toNat (if x.etp then pfEtpDt else pfTpDt) x.da.toNat sa (seq :: (x.data.drop (7 * k)).take 7) (some x.id)

/-- A session ends; its descriptor completes (R470). -/
def tpEnd (s : State) (x : TpSend) (status detail r0 : Nat) : State :=
  let s := { s with can.tpSend := s.can.tpSend.filter (fun y => y.id != x.id) }
  match x.act with
  | some a => complete s a.d status detail s.weave.time.toNat r0 0
  | none => s

/-- A session is aborted: event 0x0C0C, and TP_ABORT with the reason (R470). -/
def tpAborted (s : State) (x : TpSend) (reason : Nat) : State :=
  tpEnd (logEvent s 0x0C0C [x.ch, x.cf, x.pgn.toNat, reason]) x canTpAbort reason 0

/-- The abort frame of a session with one peer. -/
def tpSendAbort (s : State) (x : TpSend) (reason : Nat) : State :=
  if x.bam then s else tpCm s x ([0xFF, BitVec.ofNat 8 reason, 0xFF, 0xFF, 0xFF])

/-- A new sending session opens with BAM or RTS. -/
def tpOpen (s : State) (x : TpSend) : State :=
  let n := x.data.length
  let s := { s with can.tpSend := s.can.tpSend ++ [x] }
  if x.bam then
    tpCm (s.setSend { x with wait := .packet, upTo := tpPackets n, lastAt := s.clk.ns }) x
      ([0x20] ++ bytesOf 2 n ++ [BitVec.ofNat 8 (tpPackets n), 0xFF])
  else if x.etp then tpCm s x ([0x14] ++ bytesOf 4 n)
  else tpCm s x ([0x10] ++ bytesOf 2 n ++ [BitVec.ofNat 8 (tpPackets n), 0xFF])

/-- A message is sent for a control function: NO_ADDRESS where it holds none on the channel, FORMAT for a broadcast above
1785 bytes, TP_ABORT beyond 16 sessions (R469, R470). -/
def tpRequest (s : State) (x : TpSend) : State :=
  let fail (st detail : Nat) : State := match x.act with
    | some a => refuse s a st detail
    | none => s
  if (s.cfAddr x.cf).isNone || (vget s.can.cf x.cf).ch.toNat != x.ch then fail canNoAddress 0
  else if x.bam && x.etp then fail canFormat 0
  else if 16 ≤ s.can.tpSend.length then
    let why := if s.can.tpSend.any (fun y => y.ch == x.ch && y.cf == x.cf && y.da == x.da) then abExisting else abResources
    match x.act with
    | some a => refuse (logEvent s 0x0C0C [x.ch, x.cf, x.pgn.toNat, why]) a canTpAbort why
    | none => s
  else
    let id := ((List.range 16).find? (fun i => (s.sendOf i).isNone)).getD 0
    tpOpen s { x with id := id }

/-- A data packet of a session left: the next one that its CTS asks for follows. -/
def tpSentOne (s : State) (id : Nat) : State :=
  match s.sendOf id with
  | none => s
  | some x => if !x.bam && x.sent < x.upTo then tpNext s x else s

/-- A connection-management frame reaches a sending session. -/
def tpSendRx (s : State) (x : TpSend) (b : Nat → Nat) : State :=
  let total := tpPackets x.data.length
  match b 0 with
  | 17 =>
    if b 1 = 0 then s
    else
      let x := { x with sent := b 2 - 1, upTo := capAt total (b 2 - 1 + b 1) }
      tpNext (s.setSend x) x
  | 21 =>
    if b 1 = 0 then s
    else
      let at_ := b 2 + b 3 * 256 + b 4 * 65536 - 1
      let x := { x with sent := at_, base := at_, upTo := capAt total (at_ + b 1) }
      let s := tpCm (s.setSend x) x ([0x16, BitVec.ofNat 8 (x.upTo - at_)] ++ bytesOf 3 at_)
      tpNext s x
  | 19 => tpEnd s x stOk 0 x.data.length
  | 23 => tpEnd s x stOk 0 x.data.length
  | 255 => tpAborted s x (b 1)
  | _ => s

/-! ## Receiving -/

/-- A receiving session changed. -/
def State.setRecv (s : State) (x : TpRecv) : State :=
  { s with can.tpRecv := s.can.tpRecv.map (fun y => if y.id == x.id then x else y) }

/-- A receiving session ends. -/
def recvEnd (s : State) (x : TpRecv) : State := { s with can.tpRecv := s.can.tpRecv.filter (fun y => y.id != x.id) }

/-- A connection-management frame back to the sender. -/
def recvCm (s : State) (x : TpRecv) (head : List (BitVec 8)) : State :=
  tpFrame s x.ch 7 (if x.etp then pfEtpCm else pfTpCm) x.sa.toNat x.da.toNat (head ++ pgnBytes x.pgn) none

/-- CTS for the next 16 packets at most (R469). -/
def recvCts (s : State) (x : TpRecv) : State :=
  let k := capAt 16 (tpPackets x.len - x.got)
  let s := s.setRecv { x with upTo := x.got + k, dpo := x.got }
  if x.etp then recvCm s x ([0x15, BitVec.ofNat 8 k] ++ bytesOf 3 (x.got + 1))
  else recvCm s x [0x11, BitVec.ofNat 8 k, BitVec.ofNat 8 (x.got + 1), 0xFF, 0xFF]

/-- The item of Table 12.7. -/
def tpItem (x : TpRecv) : List (BitVec 8) :=
  bytesOf 4 x.pgn.toNat
    ++ bytesOf 4 (x.sa.toNat + field 8 x.da.toNat + field 16 x.prio.toNat + flag 19 x.etp + flag 20 x.bam)
    ++ bytesOf 4 x.len ++ List.replicate 20 0 ++ x.data.take x.len

/-- A complete message goes to the ring of its control function, a global one to that of every control function that
holds an address on the channel (R469). -/
def tpDeliver (s : State) (x : TpRecv) : State :=
  (List.range 8).foldl (fun s k =>
    let f := vget s.can.cf k
    if f.st = 2 ∧ f.ch.toNat = x.ch ∧ (x.bam ∨ k = x.cf) then
      inbound s (s.cfF k 3 0 7) 12 (k + field 8 x.ch + field 12 1) s.weave.time.toNat (tpItem x)
    else s) s

/-- A data packet reaches a receiving session: packets count in order only. -/
def recvData (s : State) (x : TpRecv) (seq : Nat) (bytes : List (BitVec 8)) : State :=
  if seq ≠ x.got + 1 - (if x.etp then x.dpo else 0) ∨ (!x.bam ∧ x.upTo ≤ x.got) then s
  else
    let x := { x with got := x.got + 1, data := x.data ++ bytes }
    let s := s.setRecv x
    if x.got = tpPackets x.len then
      let s := if x.bam then s
        else if x.etp then recvCm s x ([0x17] ++ bytesOf 4 x.len)
        else recvCm s x ([0x13] ++ bytesOf 2 x.len ++ [BitVec.ofNat 8 (tpPackets x.len), 0xFF])
      tpDeliver (recvEnd s x) x
    else if !x.bam && x.got = x.upTo then recvCts s x
    else s

/-- A request for a session, by RTS or BAM: beyond 32 sessions, and for an ETP message above 16 777 215 bytes, it is
refused with its reason (R469). -/
def recvOpen (s : State) (x : TpRecv) : State :=
  let same := s.can.tpRecv.find? (fun y => y.ch == x.ch && y.sa == x.sa && y.da == x.da && y.etp == x.etp)
  let refuseWith (why : Nat) : State :=
    if x.bam then s
    else logEvent (recvCm s x [0xFF, BitVec.ofNat 8 why, 0xFF, 0xFF, 0xFF]) 0x0C0C [x.ch, x.cf, x.pgn.toNat, why]
  if x.etp && 16777215 < x.len then refuseWith abResources
  else
    match same with
    | some y =>
      if y.pgn = x.pgn ∨ x.bam then
        let x := { x with id := y.id }
        let s := s.setRecv x
        if x.bam then s else recvCts s x
      else refuseWith abExisting
    | none =>
      if 32 ≤ s.can.tpRecv.length then refuseWith abResources
      else
        let id := ((List.range 32).find? (fun i => !s.can.tpRecv.any (fun y => y.id == i))).getD 0
        let x := { x with id := id }
        let s := { s with can.tpRecv := s.can.tpRecv ++ [x] }
        if x.bam then s else recvCts s x

/-- A classical extended frame reaches the offloaded services of its channel: address claim, requests for it, and the
transport protocols. -/
def servicesRx (s : State) (n : Nat) (f : CanFrame) : State :=
  if !f.ide || f.rtr || f.fmt != 0 || !s.isOn .svc then s
  else
    let id := f.id.toNat
    let pf := bits id 16 8
    let da := BitVec.ofNat 8 (bits id 8 8)
    let sa := BitVec.ofNat 8 (bits id 0 8)
    let b (i : Nat) : Nat := (f.data.getD i 0xFF).toNat
    let pgn := BitVec.ofNat 18 (b 5 + b 6 * 256 + b 7 * 65536)
    let mine (k : Nat) : Bool := (vget s.can.cf k).st == 2 && (vget s.can.cf k).ch.toNat == n && (vget s.can.cf k).addr == da
    let cf := (List.range 8).find? mine
    if bits id 24 2 ≠ 0 then s
    else if pf = 0xEE then claimRx s n sa (ofBytes (f.data.take 8))
    else if pf = 0xEA then
      if b 0 + b 1 * 256 + b 2 * 65536 = 0xEE00 then claimRequest s n da else s
    else if pf = pfTpCm ∨ pf = pfEtpCm then
      let etp := pf == pfEtpCm
      let x : TpRecv := { cf := cf.getD 8, ch := n, sa := sa, da := da, prio := BitVec.ofNat 3 (bits id 26 3), pgn := pgn, etp := etp }
      if !etp ∧ b 0 = 0x20 then
        if da = 0xFF then recvOpen s { x with bam := true, len := b 1 + b 2 * 256 } else s
      else
        match cf with
        | none => s
        | some k =>
          if (!etp ∧ b 0 = 0x10) then recvOpen s { x with len := b 1 + b 2 * 256 }
          else if etp ∧ b 0 = 0x14 then recvOpen s { x with len := b 1 + b 2 * 256 + b 3 * 65536 + b 4 * 16777216 }
          else if etp ∧ b 0 = 0x16 then
            match s.can.tpRecv.find? (fun y => y.ch == n && y.sa == sa && y.cf == k && y.etp) with
            | some y => s.setRecv { y with dpo := b 2 + b 3 * 256 + b 4 * 65536 }
            | none => s
          else
            let s := if b 0 = 0xFF then
                match s.can.tpRecv.find? (fun y => y.ch == n && y.sa == sa && y.cf == k && y.etp == etp && y.pgn == pgn) with
                | some y => logEvent (recvEnd s y) 0x0C0C [n, k, pgn.toNat, b 1]
                | none => s
              else s
            match s.can.tpSend.find? (fun y => y.ch == n && y.cf == k && y.da == sa && y.etp == etp && y.pgn == pgn) with
            | some y => tpSendRx s y b
            | none => s
    else if pf = pfTpDt ∨ pf = pfEtpDt then
      match s.can.tpRecv.find? (fun y => y.ch == n && y.sa == sa && y.da == da && y.etp == (pf == pfEtpDt)) with
      | some y => recvData s y (b 0) (f.data.drop 1)
      | none => s
    else s

/-- A DESC_CANCEL of a running session sends an abort and completes it CANCELLED (R470); none where the descriptor has
no session. -/
def tpCancel (s : State) (d : Desc) : Option State :=
  (s.can.tpSend.find? (fun x => match x.act with | some a => a.d.ring == d.ring && a.d.index == d.index | none => false)).map
    (fun x => tpEnd (tpSendAbort s x abResources) x stCancelled 0 0)

end Sys2Proof.Machine
end

