-- ==== Sys2Proof/Machine/AccOps.lean ====
section
/-! DEFINITION. The access service: sessions, searches, polls and their answers, lock-out and its counters, and release
messages (R552 to R575). -/

namespace Sys2Proof.Machine

/-- ACC status OWNER_REQUIRED, SLOT_IN_USE and OWNER_SLOT (Table 15.7). -/
def ownerRequired : Nat := 0x80
def slotInUse : Nat := 0x81
def ownerSlot : Nat := 0x82

/-- The access service is enabled in a mode (R577). -/
def accEnabledIn (s : State) (m : Mode) : Bool :=
  match recOf s.cfg.recs m 16 1 0 with
  | some r => r.f 0 0 1 == 1
  | none => false

/-- The access service is enabled in the current mode. -/
def State.accOn (s : State) : Bool := accEnabledIn s s.pwr.mode

/-- A token slot changed. -/
def State.modTok (s : State) (k : Nat) (f : AccTok → AccTok) : State := { s with acc.tok := vmod s.acc.tok k f }

/-- The token slot. -/
def State.tok (s : State) (k : Nat) : AccTok := vget s.acc.tok k

/-- The owner token is paired. -/
def State.ownerPaired (s : State) : Bool := (s.tok 0).paired

/-- An owner session is open (R554). -/
def State.ownerSession (s : State) : Bool :=
  match s.acc.ownerUntil with
  | some t => decide (s.clk.ns < t)
  | none => false

/-- Antennas in use (R558, Table 15.2). -/
def State.ants (s : State) : List Nat := (List.range 4).filter (fun k => bitAt (s.accField 0 2 4) k && s.acc.antOk.getLsbD k)

/-! ## Counters in NOR (R565) -/

/-- The counters as a copy holds them. -/
def State.accImage (s : State) (seq : BitVec 32) : AccCopy :=
  { seq := seq, fails := s.acc.fails, level := s.acc.level,
    lockNs := match s.acc.lock with | some (a, b) => b - a | none => 0,
    lockEnded := s.acc.lockEnded, nextBlock := s.acc.relEnd }

/-- Of two sequence numbers the first is the later one: the comparison of R193, modulo 2³². -/
def seqLater (a b : BitVec 32) : Bool := 0 < (a - b).toNat && (a - b).toNat < 2 ^ 31

/-- The copy to write next is 0: the other one holds the later valid counters. -/
def State.accNext0 (s : State) : Bool :=
  match s.nor.acc0, s.nor.acc1 with
  | none, _ => true
  | some _, none => false
  | some a, some b => seqLater b.seq a.seq

/-- Sequence number of the newest valid copy. -/
def State.accSeq (s : State) : BitVec 32 :=
  match s.nor.acc0, s.nor.acc1 with
  | some a, some b => if seqLater b.seq a.seq then b.seq else a.seq
  | some a, none => a.seq
  | none, some b => b.seq
  | none, none => 0

/-- One copy is written; one whose write fails is not valid. -/
def putCopy (s : State) (zero ok : Bool) : State :=
  let c := if ok then some (s.accImage (s.accSeq + 1)) else none
  if zero then { s with nor.acc0 := c } else { s with nor.acc1 := c }

/-- A lock-out begins (R566): 10 min × 2^LEVEL, event 0x1004; LEVEL rises by 1, to 4 at most, and the count is 0. -/
def lockBegin (s : State) (raise : Bool) : State :=
  let lvl := s.acc.level.toNat
  let len := 600 * sec * 2 ^ lvl
  let s := { s with acc.lock := some (s.clk.ns, s.clk.ns + len), acc.fails := [], acc.lockEnded := false,
                    acc.level := if raise then BitVec.ofNat 3 (capAt 4 (lvl + 1)) else s.acc.level }
  logEvent s 0x1004 [lvl, len / sec]

/-- A search ends; its descriptor completes. -/
def searchEnd (s : State) (status r0 r1 : Nat) : State :=
  match s.acc.search with
  | none => s
  | some x =>
    let s := { s with acc.search := none }
    match x.act with
    | some a => complete s a.d status 0 s.weave.time.toNat r0 r1
    | none => s

/-- A lock-out that begins ends the search (R563); its descriptor completes LOCKED_OUT. -/
def lockOut (s : State) (raise : Bool) : State := searchEnd (lockBegin s raise) stLockedOut 0 0

/-- The counters are written, to the copies alternately (R565). A copy whose write fails is reported and the other is
written; if both fail a lock-out at the current LEVEL begins (Table 15.2). -/
def accWrite (s : State) (fails : BitVec 2) : State :=
  let zero := s.accNext0
  let bad (z : Bool) : Bool := fails.getLsbD (if z then 0 else 1)
  if !bad zero then putCopy s zero true
  else
    let s := logEvent (putCopy s zero false) 0x100C [b2n (!zero)]
    if !bad (!zero) then putCopy s (!zero) true
    else
      let s := logEvent (putCopy s (!zero) false) 0x100C [b2n zero]
      if s.lockedOut then s else lockOut s false

/-- Counters at Start (R565, R567): the later valid copy; with neither valid LEVEL is 4 and a lock-out begins. After a
power-on a lock-out that was in force restarts with its full duration, and release counters continue from the next unused
block (R570). -/
def accLoad (s : State) (powerOn : Bool) : State :=
  match s.nor.acc0, s.nor.acc1 with
  | none, none => lockOut (logEvent { s with acc.level := 4 } 0x100C [0]) true
  | a, b =>
    if !powerOn then s
    else
      let c := match a, b with
        | some x, some y => if seqLater y.seq x.seq then y else x
        | some x, none => x
        | none, some y => y
        | none, none => {}
      { s with acc.fails := [], acc.level := c.level, acc.lockEnded := c.lockEnded,
               acc.lock := if c.lockNs = 0 then none else some (s.clk.ns, s.clk.ns + c.lockNs),
               acc.relNext := BitVec.ofNat 32 c.nextBlock, acc.relEnd := c.nextBlock }

/-! ## Sessions and searches -/

/-- The access session ends (R561). -/
def sessionEnd (s : State) : State := { s with acc.session := none, acc.relAt := none }

/-- A search starts; one that runs is replaced (R563), and its descriptor completes CANCELLED. -/
def searchStart (s : State) (reason : Nat) (act : Option Act) : State :=
  let s := searchEnd s stCancelled 0 0
  { s with acc.search := some { reason := reason, act := act, startAt := s.clk.ns, nextAt := s.clk.ns, period := 250 * ms } }

/-- The modes in which searches run by themselves (Table 15.1). -/
def searchMode (m : Mode) : Bool := m == .accessory || m == .run || m == .field || m == .road

/-- A start-up search begins when the mode becomes Run or Accessory with no session open (R563). -/
def searchOnMode (s : State) : State :=
  if (s.pwr.mode == .run || s.pwr.mode == .accessory) && s.accOn && s.acc.session.isNone && !s.lockedOut then
    searchStart s 0 none
  else s

/-- A poll starts: the POLL frame goes out with a fresh challenge (R556). -/
def pollStart (s : State) : State :=
  if s.lockedOut then s
  else
    let r := s.takeBytes 16
    { r.2.send (.poll r.1) with acc.polling := true }

/-! ## Answers -/

/-- The ranged distance of an answer from an antenna. -/
def antDist (a : TokenAnswer) (k : Nat) : Nat :=
  match k with | 0 => a.d0.toNat | 1 => a.d1.toNat | 2 => a.d2.toNat | _ => a.d3.toNat

/-- The answer is isolated: one arrival, and the STS good on every antenna in use (R557). -/
def State.isolated (s : State) (a : TokenAnswer) : Bool := a.single && s.ants.all (fun k => a.sts.getLsbD k)

/-- The token is inside the zone: from every antenna in use its distance lies in that antenna's ACC_ZONE range (R558). -/
def State.inZone (s : State) (a : TokenAnswer) : Bool :=
  s.ants.all (fun k => match s.rec? 16 2 k with
    | some r => r.f 0 0 12 ≤ antDist a k && antDist a k ≤ r.f 0 16 12
    | none => false)

/-- A cryptographic failure is counted: those within the last 10 min stand, event 0x1002, and the counters are written
before any further poll (R559, R565); the fifth begins a lock-out (R566). -/
def countFailure (s : State) (slot : Nat) (copyFails : BitVec 2) : State :=
  let now := s.clk.ns
  let l := s.acc.fails.filter (fun t => now < t + 600 * sec) ++ [now]
  let s := logEvent { s with acc.fails := l } 0x1002 [slot, l.length]
  let s := accWrite s copyFails
  if 5 ≤ s.acc.fails.length ∧ ¬ s.lockedOut then accWrite (lockOut s true) copyFails else s

/-- One answer of a poll: a collision is logged and counts as none; an isolated answer of a paired slot is located, and
inside the zone a wrong one is a failure. Authenticated slots are collected with their distances. -/
def takeAnswer (copyFails : BitVec 2) (r : List (Nat × Nat) × State) (a : TokenAnswer) : List (Nat × Nat) × State :=
  let s := r.2
  let k := a.slot.val
  let ref := s.accField 0 6 2
  if !(s.tok k).paired then r
  else if !s.isolated a then (r.1, logEvent s 0x1003 [k])
  else
    let zone := s.inZone a && s.ants.contains ref
    let dist := antDist a ref
    let s := s.modTok k (fun t => { t with dist := BitVec.ofNat 12 dist, inZone := zone, seenAt := some s.clk.ns })
    if !zone then (r.1, s)
    else if a.correct then (r.1 ++ [(k, dist)], s)
    else (r.1, countFailure s k copyFails)

/-- The token used: the smallest distance, then the lower slot (R560). -/
def bestToken (l : List (Nat × Nat)) : Option (Nat × Nat) :=
  l.foldl (fun b x => match b with
    | none => some x
    | some y => if x.2 < y.2 ∨ (x.2 = y.2 ∧ x.1 < y.1) then some x else some y) none

/-- Tokens have authenticated (R554, R560, R561, R567): event 0x1001, the session, the owner session, LEVEL back to 0
after a lock-out, and the end of the search. -/
def authenticate (s : State) (l : List (Nat × Nat)) : State :=
  match bestToken l with
  | none => s
  | some (k, dist) =>
    let s := logEvent s 0x1001 [k, dist]
    let s := { s with
      acc.session := match s.acc.session with | some x => some x | none => some k,
      acc.ownerUntil := if l.any (fun x => x.1 == 0) then some (s.clk.ns + 60 * sec) else s.acc.ownerUntil,
      acc.level := if s.acc.lockEnded then 0 else s.acc.level, acc.lockEnded := false }
    searchEnd s stOk k dist

/-! ## Engine release (R568 to R572) -/

/-- The conditions of R568 and Table 15.1. -/
def State.relHolds (s : State) : Bool :=
  let m := s.pwr.mode
  s.kl15On && s.acc.session.isSome && s.ownerPaired && (vget s.acc.keys 8).isSome && s.accField 0 13 1 == 1 && s.accOn
    && (searchMode m || m == .service || m == .update || m == .limp)

/-- The next counter value; a block of 1024 is reserved in NOR before its first is used (R570). -/
def relReserve (s : State) : State :=
  if s.acc.relNext.toNat < s.acc.relEnd then s
  else accWrite { s with acc.relEnd := s.acc.relNext.toNat + 1024 } 0

/-- The 20 bytes of a release message (R569). -/
def relMessage (s : State) : List (BitVec 8) :=
  let ctr := bytesOf 4 s.acc.relNext.toNat
  let nonce := bytesOf 6 Config.eui.toNat ++ ctr ++ [0, 0, 0]
  let body := [0x5A#8, BitVec.ofNat 8 (s.acc.session.getD 0), BitVec.ofNat 8 s.pwr.mode.num, 0, 0, 0, 0, 0]
  ctr ++ (Config.ccm ((vget s.acc.keys 8).getD []) nonce (bytesOf 4 (s.accField 1 0 29)) body).take 16

/-- A release message goes out: one CAN FD frame, or by the transport protocol from control function 0 (R571). -/
def relSend (s : State) : State :=
  let s := relReserve s
  let msg := relMessage s
  let n := s.accField 0 8 4
  let id := s.accField 1 0 29
  let s := { s with acc.relCnt := s.acc.relNext, acc.relNext := s.acc.relNext + 1, acc.relAt := some s.clk.ns }
  if s.accField 0 12 1 = 1 then
    netEval (tpRequest s { cf := 0, ch := (vget s.can.cf 0).ch.toNat, da := BitVec.ofNat 8 (s.accField 2 0 8), prio := 6,
                           pgn := BitVec.ofNat 18 (bits id 8 18), data := msg }) (vget s.can.cf 0).ch.toNat
  else if s.canNormal n && (s.canCh n).conf.toNat < 2 then
    netEval (canQueue s n { frame := { id := BitVec.ofNat 29 id, ide := s.accField 1 29 1 == 1, fmt := 1, dlc := 11, data := msg },
                            kind := .release } false).2 n
  else s

/-! ## Resets -/

/-- A device reset or a Start: the session, the pairings, the counters and the lock-out stand; the rest is as after
power-on. -/
def accReset (s : State) : State :=
  let a := s.acc
  let b : Acc :=
    { session := a.session, updLock := a.updLock, fails := a.fails, level := a.level, lock := a.lock,
      lockEnded := a.lockEnded, relNext := a.relNext, relEnd := a.relEnd, guardAt := a.guardAt, slow := a.slow,
      tok := a.tok.map (fun t => { paired := t.paired, serial := t.serial }), keys := a.keys }
  { s with acc := b }

end Sys2Proof.Machine
end

