-- ==== Sys2Proof/Machine/UpdOps.lean ====
section
/-! DEFINITION. Boot records, the update area and the settings areas: selection and checks at Start, boot record writes,
trial marks, fallback and migration (R640 to R664). -/

namespace Sys2Proof.Machine

/-! ## Manifest (Table 18.2) -/

/-- The active image is in trial: configuration copies, pairings, keys and programs stay as the old image left them
(R661). -/
def State.onTrial (s : State) : Bool := s.upd.boot.trial

/-- Little-endian number of `n` bytes at an offset. -/
def leAt (bs : List (BitVec 8)) (off n : Nat) : Nat := ofBytes ((bs.drop off).take n)

/-- Blocks of an image and length of the manifest without its signatures. -/
def mBlocks (m : List (BitVec 8)) : Nat := leAt m 24 2
def mLen (m : List (BitVec 8)) : Nat := 96 + 4 * mBlocks m

/-- Image bytes. -/
def mImage (m : List (BitVec 8)) : Nat := leAt m 20 4

/-- Settings formats that the image reads. -/
def mRead (m : List (BitVec 8)) : List Nat := (List.range (leAt m 18 2)).map (fun i => leAt m (64 + 2 * i) 2)

/-- SIG_OEM is present. -/
def mOem (m : List (BitVec 8)) : Bool := bitAt (leAt m 6 2) 0

/-- Check 1 of R643. -/
def manifestOk (m : List (BitVec 8)) : Bool :=
  let len := mImage m
  leAt m 0 4 == 0x464D5848 && leAt m 4 2 == 1 && leAt m 6 2 < 16 && leAt m 12 4 == 0x09600041
    && 1 ≤ len && len ≤ 41943040 && mBlocks m == (len + 65535) / 65536
    && 1 ≤ leAt m 18 2 && leAt m 18 2 ≤ 16 && (mRead m).contains (leAt m 16 2) && leAt m 26 6 == 0
    && ((m.drop (64 + 2 * leAt m 18 2)).take (32 - 2 * leAt m 18 2)).all (fun b => b == 0)
    && m.length == mLen m + 64 + (if mOem m then 64 else 0)

/-- Checks 2 and 3 of R643: SIG_CF under KEYID, and SIG_OEM under key store slot 9 when that slot holds a key. -/
def State.signed (s : State) (m : List (BitVec 8)) : Bool :=
  let body := m.take (mLen m)
  Config.caerfoldSigOk (leAt m 6 2 / 2) body ((m.drop (mLen m)).take 64) &&
    match vget s.acc.keys 9 with
    | none => true
    | some k => mOem m && Config.ecdsaOk k body ((m.drop (mLen m + 64)).take 64)

/-! ## Boot records -/

/-- The target bank is B: the active one is A. -/
def State.targetB (s : State) : Bool := !s.upd.boot.active

/-- A boot record is programmed into the copy that is not selected, with the next SEQ, and becomes the selected one
(R654). -/
def bootPut (s : State) (r : BootRec) : State :=
  let r := { r with seq := s.upd.boot.seq + 1 }
  if s.upd.copy1 then { s with nor.boot0 := some r, upd.boot := r, upd.copy1 := false }
  else { s with nor.boot1 := some r, upd.boot := r, upd.copy1 := true }

/-- A boot record write begins; writes take effect one after another. -/
def bootWrite (s : State) (r : BootRec) (why : BootWhy) : State :=
  { s with upd.writes := s.upd.writes ++ [{ record := r, why := why }] }

/-- The record of a fallback (R660). -/
def fallbackRec (r : BootRec) (cause : Nat) : BootRec :=
  { r with active := !r.active, version := r.fbVersion, digest := r.fbDigest, sarea := r.sareaFb,
           trial := false, fbValid := false, fellBack := true, fbCause := BitVec.ofNat 8 cause }

/-- A fallback within a Start: the record is written and event 0x1306 logged; the other image starts. -/
def fallbackNow (s : State) (cause : Nat) : State := logEvent (bootPut s (fallbackRec s.upd.boot cause)) 0x1306 [cause]

/-- LOUPE_MEDIA set or cleared by a boot record (R655). -/
def mediaFlag (s : State) (v : Bool) : State :=
  let r := match s.upd.writes.getLast? with | some w => w.record | none => s.upd.boot
  if r.loupeMedia == v then s else bootWrite s { r with loupeMedia := v } .media

/-- Selection at Start (R653): the valid copy with the later SEQ, or a default record, event 0x1309. -/
def bootSelect (s : State) : State :=
  match s.nor.boot0, s.nor.boot1 with
  | none, none => logEvent { s with nor.boot0 := some {}, upd.boot := {}, upd.copy1 := false } 0x1309 []
  | some a, none => { s with upd.boot := a, upd.copy1 := false }
  | none, some b => { s with upd.boot := b, upd.copy1 := true }
  | some a, some b =>
    if seqLater b.seq a.seq then { s with upd.boot := b, upd.copy1 := true } else { s with upd.boot := a, upd.copy1 := false }

/-! ## Settings areas -/

/-- A settings area. -/
def State.area (s : State) (one : Bool) : SetArea := if one then s.nor.area1 else s.nor.area0

/-- A settings area changed. -/
def State.modArea (s : State) (one : Bool) (f : SetArea → SetArea) : State :=
  if one then { s with nor.area1 := f s.nor.area1 } else { s with nor.area0 := f s.nor.area0 }

/-- The settings step of a trial Start (R663); `first` says that no boot mark stood before. The Bool says that the image
runs. -/
def settingsStart (s : State) (first : Bool) : Bool × State :=
  let b := s.upd.boot
  let old := s.area b.sareaFb
  let new := s.area b.sarea
  let fmts := match s.nor.manifest with | some m => mRead m | none => []
  if !b.trial || !(first || new.st == .migrating) then (true, s)
  else
    let s := { s with upd.oldSfmt := old.sfmt }
    let empty := s.modArea b.sarea (fun _ => { sfmt := b.sfmt })
    if old.st != .valid then (true, empty)
    else if fmts.contains old.sfmt.toNat then
      (true, { s.modArea b.sarea (fun _ => { st := .migrating, sfmt := b.sfmt }) with upd.migrating := true })
    else if b.accDef then (true, empty)
    else (false, fallbackNow s 3)

/-! ## Start -/

/-- The image steps of Start (R653, R656, R657, R663): the Bool is false in the outcome Bezel only. `okA` and `okB` say
whether KC's check of a bank passes. -/
def imageStart (s : State) (okA okB : Bool) : Bool × State :=
  let s := bootSelect s
  let bankOk (b : Bool) : Bool := if b then okB else okA
  let b := s.upd.boot
  let confirmedCheck (s : State) : Bool × State :=
    if bankOk s.upd.boot.active then (true, s)
    else if s.upd.boot.fbValid && bankOk (!s.upd.boot.active) then (true, fallbackNow s 4)
    else (false, s)
  if !b.trial then confirmedCheck s
  else if 3 ≤ s.nor.bootMarks then confirmedCheck (fallbackNow s 1)
  else
    let first := s.nor.bootMarks == 0
    let s := { s with nor.bootMarks := s.nor.bootMarks + 1, upd.trialAt := s.clk.ns }
    if !bankOk b.active then confirmedCheck (fallbackNow s 4)
    else
      let r := settingsStart s first
      if r.1 then r else confirmedCheck r.2

/-- A reset or a Start leaves the update block as after power-on; the flash stands. -/
def updReset (s : State) : State :=
  let u : Upd := { oldSfmt := s.upd.oldSfmt, boot := s.upd.boot, copy1 := s.upd.copy1 }
  { s with upd := u }

end Sys2Proof.Machine
end

