-- ==== Sys2Proof/Machine/LoupeOps.lean ====
section
/-! DEFINITION. The Loupe log in NOR: sequence numbers, control entries, where a record goes, bad sectors and the scan at
Start (R618 to R632). -/

namespace Sys2Proof.Machine

/-! ## Sequence numbers (R619) -/

/-- The SEQ after one: 0 and 0xFFFF_FFFF are never used. -/
def seqNext (x : BitVec 32) : BitVec 32 := if x = 0xFFFFFFFE#32 ∨ x = 0xFFFFFFFF#32 then 1 else x + 1

/-- The SEQ before one. -/
def seqPrev (x : BitVec 32) : BitVec 32 := if x = 1 ∨ x = 0 then 0xFFFFFFFE#32 else x - 1

/-! ## Records (Table 17.2) -/

/-- The header but COMMIT, then after COMMIT's place the snapshot words and the padding. -/
def loupeBytes (r : LoupeStaged) (seq : BitVec 32) : List (BitVec 8) :=
  let head := bytesOf 4 seq.toNat ++ bytesOf 2 r.boot.toNat ++ bytesOf 2 r.setCount.toNat ++ bytesOf 8 r.weave.toNat
    ++ bytesOf 8 r.wall.toNat
    ++ bytesOf 1 (r.trig % 64 + flag 6 r.valid + flag 7 r.coarse)
    ++ bytesOf 1 (r.snap % 32 + flag 5 r.synced + flag 6 r.filler)
    ++ bytesOf 1 (r.words.length % 32) ++ [r.steps]
  let words := r.words.flatMap (fun w => bytesOf 4 w.toNat)
  head ++ words ++ List.replicate (loupeSize r.words.length - 32 - words.length) 0xFF#8

/-- Bytes of a record as they stand in NOR: COMMIT at bytes 28 to 31. -/
def LoupeRec.image (r : LoupeRec) : List (BitVec 8) := r.bytes.take 28 ++ bytesOf 4 r.commit.toNat ++ r.bytes.drop 28

/-- Bytes that a record occupies. -/
def LoupeRec.size (r : LoupeRec) : Nat := r.bytes.length + 4

/-- Bytes of a sector, and sectors and bytes of the record area. -/
def sectorBytes : Nat := 65536
def loupeSectors : Nat := 510
def loupeArea : Nat := loupeSectors * sectorBytes

/-- Record-area bytes as they stand in NOR: erased where no record lies. -/
def loupeByte (rs : List LoupeRec) (a : Nat) : BitVec 8 :=
  match rs.find? (fun r => r.off ≤ a && a < r.off + r.size) with
  | some r => r.image.getD (a - r.off) 0xFF#8
  | none => 0xFF#8

/-- Record-area bytes from an offset on. -/
def loupeCopy (rs : List LoupeRec) (a n : Nat) : List (BitVec 8) := (List.range n).map (fun i => loupeByte rs (a + i))

/-! ## Control entries (R622, R623) -/

/-- A control entry is written into the next slot; a full sector of 512 slots hands over to the other one. -/
def loupeControl (s : State) : State :=
  let n := s.nor.loupe
  let full := 512 ≤ n.slots
  { s with nor.loupe := { n with
      cseq := n.cseq + 1, baseSeq := s.loupe.baseSeq, missed := s.loupe.missed, clears := s.loupe.clears,
      fault := s.loupe.fault, bad := s.loupe.bad, slots := if full then 1 else n.slots + 1,
      sector := if full then 1 - n.sector else n.sector } }

/-- A media fault is noted: MEDIA_NEW, and LOUPE_MEDIA of the boot record (R632, R655). -/
def mediaFault (s : State) : State := mediaFlag { s with loupe.mediaNew := true } true

/-- Recording stops (R631): event 0x1205. -/
def loupeStop (s : State) : State := logEvent (mediaFault (loupeControl { s with loupe.fault := true })) 0x1205 []

/-- A sector is marked bad (R630): a control entry, event 0x1204; the 32nd stops recording (R631). -/
def markBad (s : State) (sector : Nat) : State :=
  let s := loupeControl { s with loupe.bad := setBit s.loupe.bad sector true }
  let s := logEvent (mediaFault s) 0x1204 [sector]
  if 32 ≤ (maskList s.loupe.bad).length && !s.loupe.fault then loupeStop s else s

/-! ## Where a record goes -/

/-- The first good sector from one on. -/
def goodSector (bad : BitVec 512) (k : Nat) : Option Nat :=
  ((List.range loupeSectors).filter (fun i => k ≤ i)).find? (fun i => !bad.getLsbD i)

/-- Offset of the next record of a size: at the write offset, or at the start of the next good sector where it would
cross a sector boundary or the sector is bad (R621). -/
def loupePlace (s : State) (size : Nat) : Option Nat :=
  let off := s.loupe.writeOff.toNat
  let k := off / sectorBytes
  if off < loupeArea && off % sectorBytes + size ≤ sectorBytes && !s.loupe.bad.getLsbD k then some off
  else (goodSector s.loupe.bad (if off % sectorBytes = 0 ∧ k < loupeSectors ∧ s.loupe.bad.getLsbD k then k else k + 1)).map
    (· * sectorBytes)

/-- A staged record begins to be programmed at an offset with a SEQ (R620). -/
def loupeProgram (s : State) (x : LoupeStaged) (seq : BitVec 32) (off : Nat) (again : Bool) : State :=
  let r : LoupeRec := { off := off, seq := seq, bytes := loupeBytes x seq }
  { s with
    loupe.programming := some (x, r, again), loupe.nextSeq := seqNext seq,
    loupe.writeOff := BitVec.ofNat 25 (off + r.size), nor.loupe.recs := s.nor.loupe.recs ++ [r] }

/-- COMMIT of the record at an offset is programmed. -/
def setCommit (s : State) (off : Nat) (c : BitVec 32) : State :=
  { s with nor.loupe.recs := s.nor.loupe.recs.map (fun r => if r.off == off then { r with commit := c } else r) }

/-- The log is full (R627): event 0x1201, and landing stops. -/
def loupeFull (s : State) : State := logEvent { s with loupe.full := true } 0x1201 []

/-- The records still staged count as missed (R626). -/
def stagedMissed (s : State) : State :=
  s.loupe.staged.foldl (fun s _ => loupeMiss s) { s with loupe.staged := [] }

/-- Nothing is staged and no record is being programmed. -/
def State.loupeIdle (s : State) : Bool := s.loupe.staged.isEmpty && s.loupe.programming.isNone

/-! ## Start (R622, R624, R626) -/

/-- The later of two sequence numbers under R193. -/
def laterSeq (a b : BitVec 32) : BitVec 32 := if seqLater b a then b else a

/-- A record follows the last clear. -/
def sinceClear (base : BitVec 32) (r : LoupeRec) : Bool := r.seq == base || seqLater r.seq base

/-- The scan at Start: registers from the newest control entry, NEXT_SEQ after the newest committed record, and a record
that was cut off is abandoned with event 0x1206. An erase that a reset cut short goes on. -/
def loupeScan (s : State) : State :=
  let n := s.nor.loupe
  let mine := n.recs.filter (sinceClear n.baseSeq)
  let done := mine.filter (fun r => r.commit == ~~~r.seq)
  let cut := n.recs.filter (fun r => r.commit == 0xFFFFFFFF#32)
  let next := done.foldl (fun x r => laterSeq x (seqNext r.seq)) n.baseSeq
  let ends := mine.map (fun r =>
    if r.commit == ~~~r.seq then r.off + r.size else (r.off / sectorBytes + 1) * sectorBytes)
  let stale := n.recs.filter (fun r => !sinceClear n.baseSeq r && !n.bad.getLsbD (r.off / sectorBytes))
  let front := stale.foldl (fun k r => min k (r.off / sectorBytes)) loupeSectors
  let l : Loupe :=
    { scanning := false, fault := n.fault, nextSeq := next, baseSeq := n.baseSeq, missed := n.missed, clears := n.clears,
      bad := n.bad, writeOff := BitVec.ofNat 25 (ends.foldl max 0), eraseFront := front,
      clearing := decide (front < loupeSectors) }
  cut.foldl (fun s r => logEvent (setCommit s r.off 0) 0x1206 [r.off]) { s with loupe := l }

/-- A reset: staging is lost and the block takes its reset values until the scan (R626, R639). -/
def loupeReset (s : State) : State := { s with loupe := {} }

end Sys2Proof.Machine
end

