-- ==== Sys2Proof/Machine/Rings.lean ====
section
/-! DEFINITION. The RING block: ring set-up and its checks, the doorbell watcher, RX_POST, NOP and moderation
(R139 to R152, R175, R179, R186, R187). -/

namespace Sys2Proof.Machine

/-! ## Set-up -/

/-- The memory areas of a ring: completion area, and descriptor area but on EVT rings (R141). -/
def Ring.areas (r : Ring) : List (Nat × Nat) :=
  (r.cbase.toNat, r.n * 32) :: (if r.cls == 2 then [] else [(r.dbase.toNat, r.n * 64)])

/-- Two areas overlap. -/
def overlaps (a b : Nat × Nat) : Bool := a.1 < b.1 + b.2 && b.1 < a.1 + a.2

/-- No two of these areas overlap. -/
def disjointAreas : List (Nat × Nat) → Bool
  | [] => true
  | a :: as => as.all (fun b => !overlaps a b) && disjointAreas as

/-- The conditions of R142 and R542 for ring `n` with the settings `r`. Areas are compared within one memory: those of
REMOTE rings lie in the manager's (R542), all others and the doorbell block in the module's own. -/
def enableOk (s : State) (n : Nat) (r : Ring) : Bool :=
  s.rings.dbReg && 4 ≤ r.size.toNat && r.size.toNat ≤ 12 && r.cls != 3
    && (!r.remote || (s.role == .worker && n < 16))
    && r.areas.all (fun a => hostRange a.1 a.2)
    && disjointAreas r.areas
    && r.areas.all (fun a => (r.remote || !overlaps a (s.rings.dbBase.toNat, 1024))
        && (List.range 128).all (fun m => m == n || !(s.ringN m).enable || (s.ringN m).remote != r.remote
              || (s.ringN m).areas.all (fun b => !overlaps a b)))

/-- The ring is disabled (R145): fetching stops, HALT clears, posted buffers complete CANCELLED, and descriptors
fetched but not accepted are dropped. -/
def disableRing (s : State) (n : Nat) : State :=
  let posted := (s.ringN n).posted
  let s := s.modRing n (fun r => { r with enable := false, halt := false, posted := [], held := [], cancels := [] })
  posted.foldl (fun s d => complete s d stCancelled 0 s.weave.time.toNat 0 0) s

/-- A write to RING_CFG_n (R142 to R145). -/
def ringCfgWrite (s : State) (n : Nat) (v : BitVec 32) : State :=
  let r := s.ringN n
  let x := v.toNat
  let cls : BitVec 2 := BitVec.ofNat 2 (bits x 1 2)
  let remote := bitAt x 3
  let size : BitVec 4 := BitVec.ofNat 4 (bits x 4 4)
  let prot := r.enable || !r.idle
  let same := cls == r.cls && remote == r.remote && size == r.size
  let r' := { r with prio := BitVec.ofNat 2 (bits x 8 2), hart := BitVec.ofNat 2 (bits x 10 2), targetS := bitAt x 12,
                     cfgErr := r.cfgErr || (prot && !same) }
  let r' := if prot then r' else { r' with cls := cls, remote := remote, size := size }
  let s := s.modRing n (fun _ => r')
  if bitAt x 0 && !r.enable then
    if enableOk s n r' then
      s.modRing n (fun r => { r with enable := true, fetch := 0, written := 0, lost := 0, lostPending := 0, unsignalled := 0 })
    else s.modRing n (fun r => { r with cfgErr := true })
  else if !bitAt x 0 && r.enable then disableRing s n
  else s

/-- A write to one of the area base registers of a ring, protected while the ring is enabled or not idle (R143). -/
def ringBaseWrite (s : State) (n : Nat) (v : BitVec 36) (descs : Bool) : State :=
  s.modRing n (fun r =>
    let old := if descs then r.dbase else r.cbase
    if r.enable || !r.idle then { r with cfgErr := r.cfgErr || v != old }
    else if descs then { r with dbase := v } else { r with cbase := v })

/-- Every ring is disabled (R184). -/
def disableAll (s : State) : State :=
  (List.range 128).foldl (fun s n => if (s.ringN n).enable then disableRing s n else s) s

/-- Some ring is enabled. -/
def anyRing (s : State) : Bool := s.rings.ring.toList.any (fun r => r.enable)

/-- A write of RING_DB_CTL (R148): REG follows the write while every ring is disabled; REG_ERR and SIZE_ERR clear on 1. -/
def dbCtlWrite (s : State) (v : BitVec 32) : State :=
  let x := v.toNat
  let s := { s with rings.regErr := s.rings.regErr && !bitAt x 1, rings.sizeErr := s.rings.sizeErr && !bitAt x 2 }
  if bitAt x 0 == s.rings.dbReg then s
  else if anyRing s then { s with rings.regErr := true }
  else { s with rings.dbReg := bitAt x 0 }

/-- A write of RING_DB_BASE_LO or RING_DB_BASE_HI: the registration may change only while every ring is disabled
(R148). -/
def dbBaseWrite (s : State) (v : BitVec 36) : State :=
  if v == s.rings.dbBase then s
  else if anyRing s then { s with rings.regErr := true }
  else { s with rings.dbBase := v }

/-! ## The doorbell watcher -/

/-- The watcher takes new indices for ring `n`; a producer index beyond the rule of R151 halts the ring (R152). -/
def doorbell (s : State) (n : Nat) (pi cci : Option (BitVec 16)) : State :=
  let s := s.modRing n (fun r => { r with pi := pi.getD r.pi, cci := cci.getD r.cci })
  let r := s.ringN n
  if pi.isSome && r.enable && r.cls != 2 && !r.halt && r.n < (r.pi - r.cci).toNat then
    logEvent (s.modRing n (fun r => { r with halt := true })) 0x0303 [n]
  else s

/-- The watcher sees a store of `size` bytes to offset `off` of the doorbell block (R149). -/
def watchStore (s : State) (off size : Nat) (data : Nat) : State :=
  let lo := BitVec.ofNat 16 data
  if size = 8 ∧ off % 8 = 0 then doorbell s (off / 8) (some lo) (some (BitVec.ofNat 16 (bits data 32 16)))
  else if size = 4 ∧ off % 8 = 0 then doorbell s (off / 8) (some lo) none
  else if size = 4 ∧ off % 8 = 4 then doorbell s (off / 8) none (some lo)
  else logEvent { s with rings.sizeErr := true } 0x0305 [off]

/-! ## Commands -/

/-- RX_POST acts: the buffer joins the ring's posted buffers; its completion comes when it is filled or cancelled
(R179). On a ring that is not enabled it completes CANCELLED, as R145 leaves no posted buffer there. -/
def actRxPost (a : Act) (s : State) : State :=
  if (s.ringN a.d.ring).enable then s.modRing a.d.ring (fun r => { r with posted := r.posted ++ [a.d] })
  else refuse s a stCancelled

/-- RX_POST. -/
def execRxPost (d : Desc) (s : State) : Host.Outcome State Fault Refusal := .next (accept d .rxPost actRxPost s)

/-- NOP acts: it completes OK (R186). -/
def actNop (a : Act) (s : State) : State := finish s a

/-- NOP. -/
def execNop (d : Desc) (s : State) : Host.Outcome State Fault Refusal := .next (accept d .nop actNop s)

/-- MODERATION_TIMEOUT: TIME µs have passed since the first completion after the last raise (R175). -/
def execModerationTimeout (ring : Fin 128) (s : State) : Host.Outcome State Fault Refusal :=
  let r := s.ringN ring
  .next (if r.unsignalled = 0 then s else raiseRing (s.reach (r.firstAt + r.modTime.toNat * us)) ring)

end Sys2Proof.Machine
end

