-- ==== Sys2Proof/Machine/PlaitOps.lean ====
section
/-! DEFINITION. Plait links: UP and DOWN, what a DOWN fails or drops, copies, and what a reset or a mode leaves
(R507 to R521, R532). -/

namespace Sys2Proof.Machine

/-- PLAIT status WINDOW_RANGE (R549). -/
def windowRange : Nat := 0x81

/-- PLAIT status NOT_MANAGER (R549). -/
def notManager : Nat := 0x80

/-! ## Bridge faults -/

/-- A bridge access of a core failed (R532): PLAIT_ERR records it and event 0x0F07 is logged; the core takes an access
fault. -/
def bridgeFault (s : State) (w offset : Nat) (write : Bool) (status : Nat) : State :=
  logEvent { s with
    plait.errStatus := BitVec.ofNat 8 status, plait.errWorker := BitVec.ofNat 5 w, plait.errWrite := write,
    plait.errValid := true, plait.errAddr := BitVec.ofNat 25 offset, rdata := 0 } 0x0F07 [w, offset, status]

/-! ## Copies (Table 14.13) -/

/-- The copy that answers a descriptor. -/
def State.copyOf (s : State) (d : Desc) : Option PCopy :=
  s.plait.copies.find? (fun c => c.act.d.ring == d.ring && c.act.d.index == d.index)

/-- A copy changed. -/
def State.setCopy (s : State) (c : PCopy) : State :=
  { s with plait.copies := s.plait.copies.map (fun x =>
      if x.act.d.ring == c.act.d.ring && x.act.d.index == c.act.d.index then c else x) }

/-- The copy that an outstanding NP is part of is this one. -/
def NpOut.ofCopy (o : NpOut) (d : Desc) : Bool :=
  match o.why with
  | .copy x _ _ => x.ring == d.ring && x.index == d.index
  | _ => false

/-- A copy ends with a status and the bytes done; what it still has outstanding is forgotten, and reads that wait for
credits are not sent. -/
def copyEnd (s : State) (c : PCopy) (status : Nat) : State :=
  let d := c.act.d
  let s := { s with plait.copies := s.plait.copies.filter (fun x =>
    !(x.act.d.ring == d.ring && x.act.d.index == d.index)) }
  let s := s.modLink c.worker (fun l =>
    { l with nps := l.nps.filter (fun o => !(o.ofCopy d && l.waiting.any (fun f => f.cls == 1 && f.tag == o.tag))),
             waiting := l.waiting.filter (fun f => !(f.cls == 1 && l.nps.any (fun o => o.ofCopy d && o.tag == f.tag))) })
  complete s d status 0 s.weave.time.toNat c.done 0

/-! ## Links -/

/-- A frame of an outstanding NP is answered with a failure. -/
def npFail (s : State) (w : Nat) (o : NpOut) (status : Nat) : State :=
  match o.why with
  | .core _ _ write => bridgeFault s w o.ask write status
  | .coreLow _ write _ => bridgeFault s w o.ask write status
  | .coreHigh _ write _ => bridgeFault s w o.ask write status
  | .copy d _ _ => match s.copyOf d with
    | some c => copyEnd s c status
    | none => s
  | .ping a => refuse s a status
  | .fetch ring index =>
    complete (outstand s { ring := ring, index := index } 3 0) { ring := ring, index := index } status 0 s.weave.time.toNat 0 0
  | .payload d c =>
    complete (outstand s d c.block c.opcode) d status 0 (if d.due == 0 then s.weave.time.toNat else 0) 0 0

/-- An address lies in the completion area of a REMOTE ring. -/
def State.inRemoteCpl (s : State) (a : Nat) : Bool :=
  (List.range 16).any (fun n =>
    let r := s.ringN n
    r.remote && r.cbase.toNat ≤ a && a < r.cbase.toNat + r.n * 32)

/-- The link goes DOWN (R517 to R520): event 0x0F05 with the cause and what was lost. A manager fails its outstanding
NPs, and counts the posted writes lost; a worker disables its REMOTE rings and counts the completions lost. -/
def linkDown (s : State) (w cause : Nat) : State :=
  if !s.linkUp w then s
  else
    let l := s.plink w
    let posted := (l.unacked ++ l.waiting).filter (fun f => f.cls == 0)
    let s := s.modLink w (fun l => { ({} : PLink) with hops := l.hops, lastApplied := l.lastApplied, rtt := l.rtt, rpend := l.rpend })
    let s := if s.role == .worker then
        let cpl := posted.filter (fun f => s.inRemoteCpl f.addr.toNat)
        let s := { s with plait.cplLost := s.plait.cplLost + BitVec.ofNat 16 cpl.length,
                          plait.kl15DownAt := some s.clk.ns }
        (List.range 16).foldl (fun s n => if (s.ringN n).remote && (s.ringN n).enable then disableRing s n else s) s
      else
        let s := { s with plait.pLost := s.plait.pLost + BitVec.ofNat 16 posted.length }
        let s := l.nps.foldl (fun s o => npFail s w o stWorkerUnreachable) s
        (s.plait.copies.filter (fun c => c.worker == w)).foldl (fun s c => copyEnd s c stWorkerUnreachable) s
    logEvent s 0x0F05 [w, cause, posted.length]

/-- The link comes UP with every count at 0, event 0x0F02 (R507, R520). -/
def linkUpNow (s : State) (w : Nat) (hops : BitVec 3) (lastApplied : BitVec 8) : State :=
  let s := s.modLink w (fun l => { ({} : PLink) with up := true, hops := hops, lastApplied := lastApplied, rpend := l.rpend })
  logEvent s 0x0F02 [w, hops.toNat, lastApplied.toNat]

/-- Every link of this module. -/
def eachLink (s : State) (f : State → Nat → State) : State := (List.range 32).foldl f s

/-- LEAVE goes out on every link, and each goes DOWN (R521, R508). -/
def leaveAll (s : State) : State :=
  eachLink s (fun s w => if s.linkUp w then linkDown (plaitMsg s w 5 []) w 2 else s)

/-- PD_ETH loses its supply: every field that is not RW takes its reset value (R717). -/
def plaitOff (s : State) : State :=
  let s := eachLink s (fun s w => linkDown s w 4)
  let p := s.plait
  let q : Plait :=
    { isolated := p.isolated, mgr := p.mgr, rdb := p.rdb, rdbReg := p.rdbReg, aper := p.aper, patPage := p.patPage,
      patWorker := p.patWorker, kl15 := p.kl15, kl15DownAt := p.kl15DownAt, lastMode := p.lastMode }
  { s with eth := {}, plait := q }

/-- A device reset or Start: the block as after power-on. -/
def plaitReset (s : State) : State := { s with eth := {}, plait := {} }

/-- The manager reports a mode to its workers (R510). -/
def sendMode (s : State) : State :=
  if s.role == .manager then
    let s := { s with plait.lastMode := s.pwr.mode.num }
    eachLink s (fun s w => if s.linkUp w then plaitMsg s w 4 (bytesOf 4 s.pwr.mode.num) else s)
  else s

end Sys2Proof.Machine
end

