-- ==== Sys2Proof/Machine/Modes.lean ====
section
/-! DEFINITION. Major modes and power domains: what a mode entry does, lowering and raising a domain, the entry to Park,
Guard and Storage, Start and the resets (R41 to R54, R61 to R77, R583 to R600, R736). -/

namespace Sys2Proof.Machine

/-! ## Core access faults -/

/-- A core access fault (R721): SYS_FAULT records it, event 0x0003. -/
def coreFault (s : State) (hart : BitVec 2) (addr : BitVec 36) (write : Bool) (cause : Nat) : State :=
  logEvent { s with
    sys.faultCause := BitVec.ofNat 4 cause, sys.faultHart := hart, sys.faultWrite := write, sys.faultValid := true,
    sys.faultAddr := addr, rdata := 0 } 0x0003 [cause, hart.toNat, b2n write, addr.toNat]

/-! ## Host performance level -/

/-- The effective level follows REQ and CAP; a change keeps BUSY until it is done (R56, R59). -/
def plSync (s : State) : State :=
  if s.pwr.plCur.toNat = s.plEffective then s
  else { s with pwr.plCur := BitVec.ofNat 3 s.plEffective, pwr.plBusy := true }

/-! ## Work in a domain -/

/-- The domain that a queued launch is aimed at; a fleet apply belongs to the service cores. -/
def Launch.dom (e : Launch) : Dom :=
  match e.host with
  | some (_, c) => blockDom c.block
  | none => .svc

/-- The domain holds queued launches (R64, R66): those aimed at its blocks, and for PD_ACT, where Weave itself lies, every
one. -/
def State.holdsLaunch (s : State) (d : Dom) : Bool :=
  if d == .act then !s.weave.queue.isEmpty else s.weave.queue.any (fun e => e.dom == d)

/-- A descriptor waits in the launch queue. -/
def State.inQueue (s : State) (d : Desc) : Bool :=
  s.weave.queue.any (fun e => match e.host with
    | some (x, _) => x.ring == d.ring && x.index == d.index
    | none => false)

/-- A channel of the planner takes its orphan state (R68). -/
def orphanPlanned (s : State) (i : Nat) : State :=
  if i < 64 then hsoOrphan1 s i else if i < 76 then ledOrphan1 s (i - 64) else fioOrphan1 s (i - 80)

/-- Changes that wait in the planner or for a period complete ABORTED_POWER; without a mode-entry rule their channels take
their orphan states (R68). -/
def abortPlanned (s : State) (entry : Bool) : State :=
  s.edge.pending.foldl (fun s p =>
    let s := refuse (dropShots s p) p.act stAbortedPower
    if entry then s else p.chans.foldl orphanPlanned s) { s with edge.pending := [] }

/-- LED settings that wait complete ABORTED_POWER. -/
def abortLed (s : State) (entry : Bool) : State :=
  s.led.pend.foldl (fun s p =>
    let s := refuse s p.act stAbortedPower
    if entry then s else p.chans.foldl ledOrphan1 s) { s with led.pend := [] }

/-- Valve starts that wait complete ABORTED_POWER, and every running context stops: work in a domain is never paused
(R67). -/
def abortValves (s : State) (entry : Bool) : State :=
  eachVlv s (fun s n =>
    let waits := (s.vlvCh n).wait.isSome
    let s := dropWait s n stAbortedPower
    let s := s.modVlv n (fun c => { c with resume := none, test := none })
    let s := if s.vlvActive n then endNow s n .inactive stAbortedPower else s
    if waits && !entry then vlvOrphan1 s n else s)

/-- Each descriptor of the domain's blocks that is still to complete, other than a queued launch, completes
ABORTED_POWER (R67). -/
def abortOuts (s : State) (d : Dom) : State :=
  (List.range 128).foldl (fun s n =>
    ((s.ringN n).outs.filter (fun o => blockDom o.block == d && !s.inQueue o.d)).foldl (fun s o =>
      complete s o.d stAbortedPower 0 (if o.d.due == 0 then s.weave.time.toNat else 0) 0 0) s) s

/-- CFG_STATUS.STAGE when no commit holds the stage: empty or open. -/
def State.looseStage (s : State) : StageSt := if s.cfg.stage.isEmpty && s.cfg.load.isNone then .empty else .opened

/-- A descriptor that acts no more completes with a status: TIME 0 for one with a due time (R165). -/
def dropAct (s : State) (a : Act) (status : Nat) (detail : Nat := 0) (r0 : Nat := 0) (r1 : Nat := 0) : State :=
  complete s a.d status detail (if a.d.due == 0 then s.weave.time.toNat else 0) r0 r1

/-- A COMMIT or FLEET_COMMIT that is sealed, checking or prepared is given up, and its stage unsealed: what R740 says for
Limp and R67 for PD_SVC. An APPLY that a worker has received stays (R225). -/
def commitAbandon (s : State) : State :=
  if s.cfg.fleetPhase == 5 then s
  else
    let s := match s.cfg.commit with
      | some c => if c.fleet then { s with cfg.commit := none } else dropAct { s with cfg.commit := none } c.act stAbortedPower
      | none => s
    let s := match s.cfg.fleet with
      | some f => if f.completed then s else dropAct { s with cfg.fleet := none } f.act stAbortedPower
      | none => s
    { s with cfg.fleetPhase := if s.cfg.fleet.isSome then s.cfg.fleetPhase else 0, cfg.stageSt := s.looseStage }

/-- What a domain still holds ends (step 3 of R67). -/
def abortWork (s : State) (d : Dom) (entry : Bool) : State :=
  let s := match d with
    | .act =>
      let s := abortValves (abortPlanned s entry) entry
      let s := eachHso s (fun s ch => s.modHso ch (fun c => { c with test := none }))
      { s with weave.armed := [], vlv.multis := [] }
    | .led => mtxDrop (abortLed s entry) stAbortedPower
    | .can => canOff s
    | .eth => { s with plait.copies := [] }
    | .svc =>
      let s := commitAbandon s
      { (List.range 128).foldl (fun s n => s.modRing n (fun r => { r with posted := [], held := [] })) s with
        acc.search := none, acc.pairing := none, upd.verifying := none, upd.landing := [], upd.setWaits := [],
        loupe.clearActs := [] }
    | .uwb => searchEnd { s with acc.polling := false } stAbortedPower 0 0
    | _ => s
  abortOuts s d

/-- A domain loses its supply (R374, R396, R717). Hold latches keep the outputs (R25). -/
def domOff (s : State) (d : Dom) : State :=
  match d with
  | .act =>
    { s with facet.ctx := .replicate 32 {}, facet.eng := .replicate 8 {}, edge := {},
             weave.lateCount := 0, weave.stepCount := 0, weave.peak := 0, weave.capTime := .replicate 8 0,
             weave.capHi := .replicate 8 0 }
  | .led =>
    { s with mtx := { latched := s.mtx.latched, shed := s.mtx.shed, hostBlank := s.mtx.hostBlank },
             led.run := false, led.saturated := false, led.steps := 0, led.failed := 0, led.converting := false }
  | .can => canReset s
  | .eth => plaitOff s
  | .mem => { s with mem := { cells := s.mem.cells.filter (fun c => sramBase ≤ c.1),
                              bad := s.mem.bad.filter (fun w => sramBase ≤ w.1 * 32) } }
  | .adc => { s with adc := {} }
  | _ => s

/-- A domain returns to On from Off (R374). -/
def domUp (s : State) (d : Dom) : State := if d == .act then facetReload s else s

/-! ## Lowering (R67 to R70) -/

/-- The order in which a mode change drains (R70). -/
def drainOrder : List Dom := [.uwb, .eth, .led, .can, .act, .adc, .sec, .host, .svc, .mem]

/-- Place of a domain in that order. -/
def drainRank (d : Dom) : Nat := drainOrder.idxOf d

/-- A drain in its place; one that runs for the domain takes the new target. -/
def insertDrain (x : Drain) : List Drain → List Drain
  | [] => [x]
  | y :: ys =>
    if y.dom = x.dom then { y with target := x.target } :: ys
    else if drainRank x.dom < drainRank y.dom then x :: y :: ys else y :: insertDrain x ys

/-- Step 1 of R67: the domain is closed and launches aimed at it complete ABORTED_POWER. -/
def beginDrain (s : State) (d : Dom) (target : DomState) : State :=
  let cut := s.weave.queue.filter (fun e => e.dom == d)
  let s := cut.foldl (fun s e => cancelLaunch s e stAbortedPower)
    { s with weave.queue := s.weave.queue.filter (fun e => e.dom != d) }
  let s := s.modDom d (fun c => { c with closed := true, waking := none })
  { s with pwr.drains := insertDrain { dom := d, target := target } s.pwr.drains }

/-- Accesses that waited for a domain's wake end: descriptors with a status, core accesses with a fault (R43, R62). -/
def dropStalled (s : State) (d : Dom) (status cause : Nat) : State :=
  let ds := s.pwr.stalled.filter (fun x => x.dom == d)
  let cs := s.pwr.stalledCore.filter (fun x => x.1 == d)
  let ws := s.pwr.domWaits.filter (fun w => w.dom == d && w.raise)
  let s := { s with
    pwr.stalled := s.pwr.stalled.filter (fun x => x.dom != d),
    pwr.stalledCore := s.pwr.stalledCore.filter (fun x => x.1 != d),
    pwr.domWaits := s.pwr.domWaits.filter (fun w => !(w.dom == d && w.raise)) }
  let s := ds.foldl (fun s x => complete s x.d status 0 (if x.d.due == 0 then s.weave.time.toNat else 0) 0 0) s
  let s := cs.foldl (fun s x => coreFault s x.2.hart x.2.addr x.2.write cause) s
  ws.foldl (fun s w => refuse s w.act status) s

/-- Step 4 of R67: what is left completes, the domain takes its state, and each DOMAIN_SET that waited for it completes
OK (R42). -/
def domLower (s : State) (x : Drain) (entry : Bool) : State :=
  let s := abortWork s x.dom entry
  let ws := s.pwr.domWaits.filter (fun w => w.dom == x.dom && !w.raise)
  let s := { s with pwr.domWaits := s.pwr.domWaits.filter (fun w => !(w.dom == x.dom && !w.raise)) }
  let s := if x.target == .off then domOff s x.dom else s
  let s := s.modDom x.dom (fun c => { c with st := x.target, closed := false })
  ws.foldl (fun s w => finish s w.act) s

/-- A mode entry stands behind the drains that run: its rules, not R68's orphan states, set the channels. -/
def State.entryDrain (s : State) : Bool := s.pwr.entering || s.pwr.mode == .listen || s.pwr.mode == .limp

/-! ## Raising -/

/-- Watchdog 0 restarts from zero (R597). -/
def wdtRestart (s : State) : State := { s with bezel.lastKick := s.clk.ns, bezel.kickAt := none }

/-- A domain takes a higher state at a mode entry; with PD_HOST On the host watchdog restarts (R597). One that is already waking, or has been given up, waits for its wake
(R61, R63). -/
def raiseDom (s : State) (d : Dom) (t : DomState) : State :=
  let c := s.domCtl d
  if c.dead then s
  else if c.waking.isSome then s.modDom d (fun c => { c with waking := some t })
  else
    let s := if c.st == .off && t == .on then domUp s d else s
    let s := if d == .host && t == .on then wdtRestart s else s
    s.modDom d (fun c => { c with st := t })

/-- A drain that a new mode no longer wants ends, and a DOMAIN_SET behind it is refused. -/
def dropDrain (s : State) (d : Dom) : State :=
  if s.pwr.drains.any (fun x => x.dom == d) then
    let ws := s.pwr.domWaits.filter (fun w => w.dom == d && !w.raise)
    let s := { s with pwr.drains := s.pwr.drains.filter (fun x => x.dom != d),
                      pwr.domWaits := s.pwr.domWaits.filter (fun w => !(w.dom == d && !w.raise)) }
    ws.foldl (fun s w => refuse s w.act stRefusedState) (s.modDom d (fun c => { c with closed := false }))
  else s

/-- Every domain goes to the state that Table 2.1 gives it in a mode: raised at once, lowered under R67. -/
def modeDomains (s : State) (m : Mode) : State :=
  drainOrder.foldl (fun s d =>
    let t := s.entryState m d
    let cur := s.domSt d
    if t.num < cur.num then
      beginDrain (if t == .off then dropStalled s d stRefusedState 4 else s) d t
    else
      let s := dropDrain s d
      let s := if t == .off then dropStalled (s.modDom d (fun c => { c with waking := none })) d stRefusedState 4 else s
      if cur.num < t.num then raiseDom s d t else s) s

/-! ## Registers that records set -/

/-- A record that takes effect, replacing another or none, sets the registers it describes: BEZEL_CFG (R608) and SYS_CFG
(R722). `before` are the records that applied until now. -/
def recordRegs (s : State) (bz sy : Option Rec) : State :=
  let s := match s.rec? 17 1 0 with
    | some r =>
      if bz.map Rec.body == some r.body then s
      else { s with
        bezel.wdtTimeout := BitVec.ofNat 14 (clamp 10 10000 (r.f 0 0 14)), bezel.wdtMin := BitVec.ofNat 12 (r.f 0 16 12),
        bezel.wdtAction := r.f 0 28 1 == 1, bezel.wdtEn := r.f 0 29 1 == 1,
        bezel.lastKick := if s.bezel.wdtEn then s.bezel.lastKick else s.clk.ns,
        bezel.holdWindow := BitVec.ofNat 10 (clamp 1 600 (r.f 1 0 10)), bezel.stormN := BitVec.ofNat 4 (max 1 (r.f 1 16 4)),
        bezel.stormWin := BitVec.ofNat 8 (max 1 (r.f 1 24 8)) }
    | none => s
  match s.rec? 0 1 0 with
  | some r => if sy.map Rec.body == some r.body then s else { s with sys.sysv := r.f 0 0 1 == 1, sys.source := false }
  | none => s

/-! ## Mode entry -/

/-- PWR_MODE changes: event 0x0101 with the old mode, the new one and the cause; requests of the compatibility view end
with the states of the new mode. -/
def setMode (s : State) (m : Mode) (cause : Nat) : State :=
  let bz := s.rec? 17 1 0
  let sy := s.rec? 0 1 0
  recordRegs (logEvent { s with
    pwr.mode := m, pwr.prev := s.pwr.mode, pwr.cause := BitVec.ofNat 8 cause, pwr.idleOn := false, pwr.sleepOn := false,
    pwr.compatLowered := [] } 0x0101 [s.pwr.mode.num, m.num, cause]) bz sy

/-- The claims of the mode take effect (R220): resources that its records do not give to a block go idle. -/
def modeClaims (s : State) : State := canClaims (fioClaims (ledClaims (vlvClaims (hsoClaims s))))

/-- Every LED string and the matrix off (R45, R408). -/
def lightsOff (s : State) : State := mtxDark (mtxDrop (ledAllOff s) stRefusedState)

/-- What the mode itself does to the outputs: R45, R49, R408. -/
def modeOutputs (s : State) (m : Mode) : State :=
  match m with
  | .storage => fioAllOff (vlvAllOff (lightsOff (hsoAllOff s)) stAbortedPower)
  | .park | .guard => fioPark (vlvAllOff (lightsOff (hsoPark s)) stAbortedPower)
  | .listen => lightsOff s
  | .road => fioRoad (vlvRoad (mtxRoad (ledRoad (hsoRoad s))))
  | _ => s

/-- Links say LEAVE before PD_ETH drains (R521). -/
def modeLeave (s : State) (m : Mode) : State := if s.entryState m .eth == .off && s.isOn .eth then leaveAll s else s

/-- An entry to Park, Guard or Storage runs until its point of no return (R53). -/
def modeEntering (s : State) (m : Mode) : State :=
  { s with pwr.entering := m == .park || m == .guard || m == .storage }

/-- Entry to Guard: the access session ends and the 504 h begin (R562). -/
def modeGuard (s : State) (m : Mode) : State :=
  if m == .guard then { sessionEnd s with acc.guardAt := s.clk.ns, acc.slow := false } else s

/-- An entry to Park, Guard or Storage ends every queued launch; in another mode a search goes on. -/
def modeQueue (s : State) : State :=
  if s.pwr.entering then s.weave.queue.foldl (fun s e => cancelLaunch s e stAbortedPower) { s with weave.queue := [] }
  else searchOnMode s

/-- Entry to a mode other than Start and Limp: the domains, the claims, the outputs and the services. -/
def enterMode (s : State) (m : Mode) (cause : Nat) : State :=
  let s := modeOutputs (modeEntering (modeLeave (setMode s m cause) m) m) m
  let s := modeDomains (if s.pwr.entering then s else modeClaims s) m
  plSync (netAll (sendMode (modeQueue (modeGuard s m))))

/-! ## Mode conditions (Table 2.2, R736) -/

/-- Every bus is ASLEEP or STANDBY. -/
def State.busesAsleep (s : State) : Bool := (List.range 10).all (fun n => s.busSt n == .asleep || s.busSt n == .standby)

/-- The module leaves Listen (R491): Guard if the access service is enabled there, otherwise Park. -/
def State.sleepMode (s : State) : Mode := if accEnabledIn s .guard then .guard else .park

/-- The conditions of Table 2.2 that a state meets are taken, mode after mode. -/
def modeConditions : Nat → State → State
  | 0, s => s
  | k + 1, s =>
    match s.pwr.mode with
    | .listen =>
      if s.kl15On then modeConditions k (enterMode s .run 0x01)
      else if s.localNeed then modeConditions k (enterMode s .accessory 0x04)
      else if s.busesAsleep && s.pwr.wake == 0 then enterMode (logEvent s 0x0D06 []) s.sleepMode 0x08
      else s
    | .accessory =>
      if s.kl15On then modeConditions k (enterMode s .run 0x01)
      else if !s.localNeed then modeConditions k (enterMode s .listen 0x04)
      else s
    | .run | .field | .road => if s.kl15On then s else modeConditions k (enterMode s .accessory 0x01)
    | _ => s

/-- The mode conditions are judged. -/
def judge (s : State) : State := modeConditions 6 s

/-- A mode is entered and its conditions are judged. -/
def goMode (s : State) (m : Mode) (cause : Nat) : State := judge (enterMode s m cause)

/-- The mode that Table 2.2 gives at the end of Start. -/
def State.awakeMode (s : State) : Mode := if s.kl15On then .run else if s.localNeed then .accessory else .listen

/-! ## Retention RAM (Table 16.1) and the Bezel log mirror -/

/-- The log is mirrored into the next slot (R606); with no erased slot left, or while the sector is being erased, the
mirror is missed. -/
def mirrorLog (s : State) : State :=
  if 64 ≤ s.nor.mirror.length || s.bezel.mirrorErasing then { s with bezel.mirrorSkipped := true }
  else { s with nor.mirror := s.nor.mirror ++ [s.bezel.log],
                bezel.mirrorSlot := BitVec.ofNat 6 (s.nor.mirror.length + 1) }

/-- The log and the boot count come back from the mirror (R606): the newest slot with entries, and the highest BOOT. The
count rises by 1 at the Start that follows (R584). -/
def mirrorRestore (s : State) : State :=
  let log := match (s.nor.mirror.filter (fun l => !l.isEmpty)).getLast? with | some l => l | none => []
  let boot := (s.nor.mirror.flatMap id).foldl (fun m e => max m e.boot.toNat) 0
  { s with bezel.log := log, bezel.boot := BitVec.ofNat 32 boot,
           bezel.logSeq := match log.getLast? with | some e => e.seq | none => 0,
           bezel.logHead := BitVec.ofNat 5 log.length,
           bezel.mirrorSlot := BitVec.ofNat 6 s.nor.mirror.length }

/-- Retention RAM after a loss of PD_BEZEL's supply (R44, R606). -/
def loseRetention (s : State) : State :=
  let b : Bezel := { mirrorSkipped := s.bezel.mirrorSkipped, mirrorErasing := false }
  mirrorRestore { s with
    bezel := b, pwr.cold := true, weave.wall := 0, weave.setCount := 0, weave.wallValid := false, acc.session := none, pwr.latched := none,
    net.bus := s.net.bus.map (fun x => { x with bars := [] }) }

/-- Weave time and the PD_AON count are recorded (item 4), where Weave runs. -/
def recordWeave (s : State) : State :=
  if s.timRuns then { s with bezel.retWeave := some (s.weave.time, aonCount s.clk.ns) } else s

/-- Start seeds Weave time (R91): the recorded time plus the PD_AON periods since, up to the next tick and one more;
0 where nothing is recorded. -/
def seedWeave (s : State) : State :=
  match s.bezel.retWeave with
  | none => { s with weave.time := 0 }
  | some (t, c) =>
    let e := (aonCount s.clk.ns - c) * aonPeriodPs
    let x := (t.toNat * 1000000 + e + 3999999) / 4000000 * 4 + 4
    { s with weave.time := BitVec.ofNat 64 x, weave.coarse := true }

/-! ## Start (R71 to R77) -/

/-- The registers of the SoC domains as a Start finds them: reset values after a device reset (R716), RW fields kept
after a stay in Park, Guard or Storage (R717). Rings are reset by every Start (R147), staging is empty (R626), the planner
begins empty (R307), and the host begins at PL2 (R55). -/
def resetBlocks (s : State) (device : Bool) : State :=
  let w := s.weave
  let w0 : Weave := { time := w.time, wall := w.wall, setCount := w.setCount, wallValid := w.wallValid, coarse := w.coarse }
  let w1 : Weave := { w0 with syncInt := w.syncInt, holdMax := w.holdMax, lockTh := w.lockTh, wallSource := w.wallSource }
  let p := s.pwr
  let p0 : Pwr :=
    { mode := p.mode, prev := p.prev, cause := p.cause, startCause := p.startCause, railFail := p.railFail,
      xtalFail := p.xtalFail, cold := p.cold, kl15 := p.kl15, wake := p.wake, strap := p.strap, inReset := p.inReset, lowHold := p.lowHold,
      supplyLost := p.supplyLost, latched := p.latched }
  let p1 : Pwr :=
    { p0 with pl4OnMax := p.pl4OnMax, pl4Window := p.pl4Window, drainBound := p.drainBound, pMax := p.pMax,
              dom := p0.dom.zipWith (fun a b => { a with fails := b.fails, dead := b.dead }) p.dom }
  let c := s.cfg
  let c0 : Cfg :=
    { seqA := c.seqA, seqB := c.seqB, machineId := c.machineId, takeover := c.takeover, takeoverAt := c.takeoverAt }
  let c1 : Cfg := { c0 with voteTo := c.voteTo, hold := c.hold, retx := c.retx }
  let e := s.ecc
  let q := s.plait
  let q1 : Plait := { rdb := q.rdb, rdbReg := q.rdbReg, aper := q.aper, patPage := q.patPage, patWorker := q.patWorker }
  let s := plaitReset (canReset (loupeReset s))
  let s := { s with
    sys := { scratch := s.sys.scratch }, adc := {}, mem := {},
    ecc := { e with scrubEn := if device then true else e.scrubEn, passH := if device then 0x18 else e.passH },
    pwr := if device then p0 else p1, weave := if device then w0 else w1, rings := {},
    cfg := if device then c0 else c1,
    edge := {}, facet := {}, mtx := {}, vlv.multis := [],
    led := { ch := s.led.ch }, hso.monCh := if device then 0 else s.hso.monCh, hso.monEn := !device && s.hso.monEn,
    plait := if device then {} else q1 }
  netReset (updReset (accReset s)) false

/-- Start begins (R71): its mode, every domain but PD_BEZEL and PD_AON Off, and the first rail enabled. -/
def startBegin (s : State) (cause : Nat) (device : Bool) : State :=
  let s := setMode s .start cause
  let s := { s with pwr.startCause := BitVec.ofNat 8 cause }
  let s := fioHold (ledHold (vlvHold (hsoHold s)))
  resetBlocks s device

/-- The six rails have reported or failed: the clock islands start and the domains of the working rails come up; Weave time
is seeded and a worker looks for its manager (R91, Table 3.1). -/
def railsUp (s : State) : State :=
  let s := drainOrder.foldl (fun s d =>
    if (s.domCtl d).forced || s.rcForbids d then s else s.modDom d (fun c => { c with st := .on })) s
  let s := seedWeave s
  { s with weave.sync := if s.role == .worker then .acquiring else .free }

/-- The next rail of Table 2.7 is brought up, or all have reported. -/
def nextRail (s : State) : State :=
  let s := { s with pwr.rail := s.pwr.rail + 1, pwr.railTries := 0 }
  if s.pwr.rail = 6 then railsUp s else s

/-! ## Orphans, hold and Bezel only -/

/-- Some channel is held. -/
def State.anyHeld (s : State) : Bool :=
  s.bezel.heldHso != 0 || s.bezel.heldVlv != 0 || s.bezel.heldLed != 0 || s.bezel.heldFio != 0

/-- Channels that satisfy a test take their orphan states. -/
def orphanWhere (s : State) (hso vlv led fio : Nat → Bool) : State :=
  let s := eachHso s (fun s n => if hso n then hsoOrphan1 s n else s)
  let s := eachVlv s (fun s n => if vlv n then vlvOrphan1 s n else s)
  let s := eachLed s (fun s n => if led n then ledOrphan1 s n else s)
  eachFio s (fun s n => if fio n then fioOrphan1 s n else s)

/-- The hold window closes: no channel is held any more. -/
def clearHeld (s : State) : State :=
  { s with bezel.heldHso := 0, bezel.heldVlv := 0, bezel.heldLed := 0, bezel.heldFio := 0, bezel.holdEnd := none }

/-- The outcome Bezel only (R73): PD_BEZEL alone runs, and every channel takes its orphan state (R593). -/
def bezelOnlyNow (s : State) : State :=
  let s := drainOrder.foldl (fun s d => s.modDom d (fun c => { c with st := .off, waking := none, closed := false })) s
  clearHeld (orphanWhere { s with pwr.bezelOnly := true, pwr.drains := [] } (fun _ => true) (fun _ => true) (fun _ => true)
    (fun _ => true))

/-- The boot count rises at each Start, event 0x1101 (R584). -/
def bootCount (s : State) : State :=
  let s := { s with bezel.boot := s.bezel.boot + 1 }
  logEvent s 0x1101 [s.bezel.resetType.toNat, s.bezel.detail.toNat, s.bezel.boot.toNat]

/-- At the end of every Start the log is mirrored; with fewer than two erased slots left the sector is erased, and a
mirror missed at a supply loss is reported (R606, R607). -/
def startMirror (s : State) : State :=
  let s := if s.bezel.mirrorSkipped then
      logEvent { s with bezel.mirrorMiss := true, bezel.mirrorSkipped := false } 0x110B [] else s
  let s := mirrorLog s
  if 62 < s.nor.mirror.length then { s with bezel.mirrorErasing := true } else s

/-- A Start that ends in Bezel only before its cores run. -/
def bezelOnlyStart (s : State) : State := startMirror (bezelOnlyNow (bootCount s))

/-! ## Limp (R600) -/

/-- Outputs that the Limp map commands: kind 0 high-side, 1 LED, 2 field output (R608). -/
def State.limpMaps (s : State) (kind ch : Nat) : Bool :=
  s.cfg.recs.any (fun r => r.block == 17 && r.typ == 2 && r.inMode .limp && r.f 0 9 2 == kind && r.f 0 11 6 == ch)

/-- Entry to Limp in the order of R600: the domains drain, every ring is disabled, commits are abandoned and the stage is
emptied (R203, R740), channels outside the Limp map take their orphan states, and the map starts; event 0x1104. From
Start the hold window closes first (R593). -/
def enterLimp (s : State) (cause : Nat) (storm : Bool) : State :=
  let fromStart := s.pwr.mode == .start
  let s := if s.isOn .eth then leaveAll s else s
  let s := setMode s .limp cause
  let s := modeDomains s .limp
  let s := disableAll s
  let s := commitAbandon s
  let gone (e : Launch) : Bool := match e.host with
    | some (_, .commit _) => true
    | some (_, .fleetCommit ..) => true
    | _ => false
  let s := (s.weave.queue.filter gone).foldl (fun s e => cancelLaunch s e stAbortedPower)
    { s with weave.queue := s.weave.queue.filter (fun e => !gone e) }
  let s := if s.cfg.fleetPhase == 5 then s
    else { s with cfg.stage := [], cfg.load := none, cfg.loadImage := {}, cfg.stageSt := .empty }
  let s := if fromStart then
      clearHeld (orphanWhere s s.bezel.heldHso.getLsbD s.bezel.heldVlv.getLsbD s.bezel.heldLed.getLsbD s.bezel.heldFio.getLsbD)
    else s
  let s := orphanWhere s (fun n => !s.limpMaps 0 n) (fun _ => true) (fun n => !s.limpMaps 1 n) (fun n => !s.limpMaps 2 n)
  let s := mtxDark (mtxDrop s stAbortedPower)
  let s := { s with bezel.limpCause := BitVec.ofNat 8 cause, bezel.limpStorm := storm, bezel.limpTicks := 0 }
  plSync (netAll (canClaims (logEvent s 0x1104 [cause])))

/-! ## Device resets (R583 to R587) -/

/-- A free value for a DETAIL that the spec gives no code. -/
def takeDetail (s : State) : BitVec 8 × State :=
  let r := s.takeWord
  (r.1.setWidth 8, r.2)

/-- Storm limit and window as they run (Table 16.10). -/
def State.stormN (s : State) : Nat := max 1 s.bezel.stormN.toNat
def State.stormNs (s : State) : Nat := max 1 s.bezel.stormWin.toNat * 60 * sec

/-- Resets counted under R586 that lie in the window. -/
def State.storms (s : State) : List Nat := s.bezel.storms.filter (fun t => s.clk.ns < t + s.stormNs)

/-- An item of retention RAM takes its safe value, event 0x1109 (R582). The wire rise of item 3 needs the records that
Start loads. -/
def retentionSafe (s : State) (i : Nat) : State :=
  let s := logEvent { s with bezel.retErr := setBit s.bezel.retErr (i - 1) true } 0x1109 [i]
  match i with
  | 1 => { s with bezel.orphans := {} }
  | 2 => { s with bezel.retWindow := 20 }
  | 3 =>
    -- ΔT that puts the wire at T_INS − HYST
    { s with bezel.retDt := Vector.ofFn (fun ch =>
        (((s.hsoField ch.val 2 4 8 : Int) - s.hsoField ch.val 2 12 8) * 1000000000
          - signed 16 (adcPlate s) * 10000000).toNat) }
  | 4 => { s with bezel.retWeave := none, weave.time := 0, weave.coarse := true }
  | 5 => { s with weave.wall := 0, weave.setCount := 0, weave.wallValid := false }
  | 6 => { s with net.bus := s.net.bus.map (fun x => { x with bars := [] }) }
  | 7 => sessionEnd s
  | 8 =>
    let r := s.takeWord
    { r.2 with bezel.storms := List.replicate s.stormN s.clk.ns, bezel.boot := r.1 }
  | 9 => { s with pwr.latched := some .kl15 }
  | _ => { s with bezel.log := [] }

/-- The items of a mask take their safe values. -/
def retentionCheck (s : State) (bad : BitVec 10) : State := (maskList bad).foldl (fun s i => retentionSafe s (i + 1)) s

/-- A device reset of types 1 to 7 (R583): Weave time is recorded, outputs are held and the hold window opens when some
channel is (R587); types 3, 4 and 6 count towards a storm (R586); a storm that is already in Limp leaves Bezel only.
Nothing in Storage resets the device (Table 2.2). -/
def deviceReset (s : State) (t : ResetType) (detail : BitVec 8) (bad : BitVec 10) : State :=
  if s.pwr.mode == .storage && !s.pwr.entering then s
  else
    let counts := t == .watchdog || t == .escalation || t == .bezel
    let stormLimp := s.pwr.mode == .limp && s.bezel.limpStorm && counts
    let s := recordWeave s
    let s := { s with
      bezel.resetType := BitVec.ofNat 4 t.code, bezel.detail := detail,
      bezel.storms := s.storms ++ (if counts then [s.clk.ns] else []) }
    let s := startBegin s 0x0C true
    -- items 2 and 8 are read here; the others are read by the Start that follows
    let s := retentionCheck s (bad &&& 0x082)
    let s := if s.anyHeld && s.bezel.holdEnd.isNone then
        { s with bezel.holdEnd := some (s.clk.ns + clamp 1 600 s.bezel.retWindow.toNat * 100 * ms) } else s
    if stormLimp && s.stormN ≤ s.storms.length then
      let s := logEvent s 0x1106 [12, 5]
      bezelOnlyStart s
    else s

/-- A device reset whose DETAIL names no watchdog, domain or fault source: the spec gives it no value. -/
def plainReset (s : State) (t : ResetType) : State :=
  let r := takeDetail s
  deviceReset r.2 t r.1 0

/-! ## Point of no return (R53, R54, R626) -/

/-- PWR_MODE.CAUSE of a wake. -/
def wakeCause : Wake → Nat
  | .kl15 => 0x01 | .localNeed => 0x04 | .net _ => 0x03 | .pin _ => 0x05 | .fio _ => 0x06 | .token => 0x07

/-- The entry is abandoned (R53): event 0x010A, and the mode that the conditions give. -/
def abandon (s : State) (cause : Nat) : State :=
  let s := logEvent { s with pwr.entering := false, loupe.lastLanding := false } 0x010A []
  goMode s s.awakeMode cause

/-- A wake input that is armed in the mode and asserted at this moment (R735). -/
def State.assertedWake (s : State) : Option Wake :=
  if s.pwr.mode == .storage then (if s.pwr.wake.getLsbD 0 then some (.pin 0) else none)
  else if s.kl15On then some .kl15
  else if s.pwr.wake.getLsbD 0 then some (.pin 0)
  else if s.pwr.wake.getLsbD 1 then some (.pin 1)
  else if s.pwr.wake.getLsbD 2 then some (.pin 2)
  else if s.pwr.wake.getLsbD 3 then some (.pin 3)
  else none

/-- The point of no return: a last control entry (R623) has been written, Weave time is recorded (R91), a Storage entry
mirrors the log and loses retention RAM (R44), and the regulators are commanded off. -/
def pointOfNoReturn (s : State) : State :=
  match s.assertedWake with
  | some w => abandon s (wakeCause w)
  | none =>
    let s := discardMem s
    let s := if s.pwr.mode == .storage then
        (loseRetention (mirrorLog s)).modDom .bezel (fun c => { c with st := .off })
      else s
    { s with pwr.entering := false, pwr.regsFalling := true, loupe.lastLanding := false }

/-- Drains end from the front of their order. PD_SVC waits for Loupe to land its records before the point of no return
(R626), writes its last control entry, and at the end of the list an entry to Park, Guard or Storage reaches that point. -/
def settle : Nat → State → State
  | 0, s => s
  | k + 1, s =>
    match s.pwr.drains with
    | [] => if s.pwr.entering then pointOfNoReturn s else s
    | x :: rest =>
      if !x.quiet then s
      else if x.dom == .svc && s.pwr.entering && !s.loupeIdle && !s.loupe.fault && !s.loupe.full then
        { s with loupe.lastLanding := true }
      else
        let s := if x.dom == .svc && s.pwr.entering then loupeControl (stagedMissed s) else s
        -- Weave time is recorded while Weave still runs
        let s := if x.dom == .act && s.pwr.entering && s.pwr.mode != .storage then recordWeave s else s
        settle k (domLower { s with pwr.drains := rest } x s.entryDrain)

/-- The drains that are due end. -/
def settleAll (s : State) : State := settle 12 s

/-! ## Wakes -/

/-- The wake is armed in the mode (Table 2.2): in Storage WAKE0 alone. -/
def State.wakeArmed (s : State) (w : Wake) : Bool :=
  match s.pwr.mode, w with
  | .storage, .pin n => n == 0
  | .storage, _ => false
  | .park, .token => s.pwr.entering
  | _, .localNeed => s.pwr.entering
  | _, _ => true

/-- A wake arrives: it abandons an entry that has not passed its point of no return (R53), is latched while the
regulators fall (R54), begins Start from Park, Guard or Storage, and repeats a Start that left Bezel alone (R73). -/
def wakeUp (s : State) (w : Wake) : State :=
  match s.pwr.mode with
  | .park | .guard | .storage =>
    if !s.wakeArmed w then s
    else if s.pwr.entering then abandon s (wakeCause w)
    else if s.pwr.regsFalling then { s with pwr.latched := some (s.pwr.latched.getD w) }
    else startBegin (s.modDom .bezel (fun c => { c with st := .on })) (wakeCause w) false
  | .start => if s.pwr.bezelOnly && !s.pwr.inReset then startBegin s (wakeCause w) false else s
  | _ => s

/-! ## Escalation (R599, Table 16.4) -/

/-- What Table 16.4 calls for. -/
inductive Reaction where
  | none | restartKc | reset | limp
  deriving DecidableEq, Repr

/-- Rank of a reaction in the list of R599. -/
def Reaction.num : Reaction → Nat
  | .none => 1 | .restartKc => 2 | .reset => 3 | .limp => 4

/-- Entry to Limp by escalation, from any mode but Storage and Start; a Start under way ends in it (R600). -/
def limpNow (s : State) : State :=
  if s.pwr.mode == .start then { s with pwr.startLimp := true }
  else if s.pwr.mode == .storage || s.pwr.mode == .limp then s
  else enterLimp s 0x09 false

/-- A fault of Table 16.4: event 0x1106 with the source and the reaction, then the reaction. -/
def escalate (s : State) (source : Nat) (detail : BitVec 8) (r : Reaction) : State :=
  let s := logEvent s 0x1106 [source, r.num]
  match r with
  | .none => s
  | .restartKc => { s with bezel.kcSuspended := some (s.clk.ns + sec) }
  | .reset => deviceReset s .escalation detail 0
  | .limp => limpNow s

/-- The reaction to a domain that is handed over (R63). -/
def domReaction : Dom → Reaction
  | .host | .mem => .limp
  | .eth | .uwb => .none
  | _ => .reset

end Sys2Proof.Machine
end

