-- ==== Sys2Proof/Machine/Acc.lean ====
section
/-! DEFINITION. The ACC block: pairing, polls and searches, lock-out, sessions and engine release (R552 to R578). -/

namespace Sys2Proof.Machine

/-! ## Pairing -/

/-- A pairing starts (R553): KC draws a token key and sends it to the token under the delivery key. One pairing runs at a
time. -/
def pairStart (s : State) (a : Act) (slot : Nat) (serial : BitVec 32) (delivery : List (BitVec 8))
    (takeover : Option (BitVec 64)) : State :=
  let r := s.takeBytes 16
  { r.2.send (.tokenKey serial (Config.ccm delivery [] [] r.1)) with
    acc.pairing := some { act := a, slot := slot, serial := serial, key := r.1, startAt := s.clk.ns, takeover := takeover } }

/-- ACC_PAIR acts. -/
def actAccPair (slot : BitVec 3) (a : Act) (s : State) : State :=
  let k := slot.toNat
  if s.onTrial || !s.accOn || s.acc.pairing.isSome then refuse s a stRefusedState
  else if s.lockedOut then refuse s a stLockedOut
  else if (if k = 0 then s.pwr.mode != .service || s.ownerPaired else !s.ownerSession) then refuse s a ownerRequired
  else if (s.tok k).paired then refuse s a slotInUse
  else pairStart s a k (wordAt a.payload 0) ((a.payload.drop 4).take 16) none

/-- ACC_PAIR. -/
def execAccPair (d : Desc) (slot : BitVec 3) (s : State) : Host.Outcome State Fault Refusal :=
  .next (accept d (.accPair slot) (actAccPair slot) s)

/-- A pairing and its key are erased. -/
def unpair (s : State) (k : Nat) : State :=
  { s.modTok k (fun _ => {}) with acc.keys := vset s.acc.keys k none }

/-- ACC_UNPAIR acts. -/
def actAccUnpair (slot : BitVec 3) (a : Act) (s : State) : State :=
  if s.onTrial then refuse s a stRefusedState
  else if slot = 0 then refuse s a ownerSlot
  else if !s.ownerSession then refuse s a ownerRequired
  else finish (logEvent (unpair s slot.toNat) 0x1008 [slot.toNat]) a

/-- ACC_UNPAIR. -/
def execAccUnpair (d : Desc) (slot : BitVec 3) (s : State) : Host.Outcome State Fault Refusal :=
  .next (accept d (.accUnpair slot) (actAccUnpair slot) s)

/-- ACC_TAKEOVER acts (R573): only in Service with no owner paired; every pairing is erased and the owner token paired. -/
def actAccTakeover (a : Act) (s : State) : State :=
  if s.onTrial || !s.accOn || s.acc.pairing.isSome then refuse s a stRefusedState
  else if s.lockedOut then refuse s a stLockedOut
  else if s.pwr.mode != .service || s.ownerPaired then refuse s a ownerRequired
  else
    let s := (List.range 8).foldl unpair s
    pairStart s a 0 (wordAt a.payload 2) ((a.payload.drop 12).take 16) (some (BitVec.ofNat 64 (ofBytes (a.payload.take 8))))

/-- ACC_TAKEOVER. -/
def execAccTakeover (d : Desc) (s : State) : Host.Outcome State Fault Refusal :=
  .next (accept d .accTakeover actAccTakeover s)

/-- PAIR_CONFIRM (R553, Table 15.6): the key is stored with the pairing, or the pairing fails. A takeover binds MACHINE_ID
and opens an owner session (R573). -/
def execPairConfirm (outcome : PairOutcome) (s : State) : Host.Outcome State Fault Refusal :=
  .next (match s.acc.pairing with
    | none => s
    | some p =>
      let s := { s with acc.pairing := none }
      match outcome with
      | .wrong => refuse s p.act stCheckFailed
      | .timeout => refuse (s.reach (p.startAt + 30 * sec)) p.act stTimeout
      | .confirmed =>
        let s := { s.modTok p.slot (fun _ => { paired := true, serial := p.serial }) with
                   acc.keys := vset s.acc.keys p.slot (some p.key) }
        let s := logEvent s 0x1008 [p.slot]
        let s := match p.takeover with
          | some mid =>
            logEvent { s with cfg.takeover := true, cfg.takeoverAt := s.clk.ns, cfg.machineId := mid,
                              acc.ownerUntil := some (s.clk.ns + 60 * sec) } 0x1009 []
          | none => s
        finish s p.act)

/-- ACC_OWNER_LOCK acts (R555). -/
def actAccOwnerLock (lock : BitVec 1) (a : Act) (s : State) : State :=
  if s.onTrial then refuse s a stRefusedState
  else if !s.ownerSession then refuse s a ownerRequired else finish { s with acc.updLock := lock == 1 } a

/-- ACC_OWNER_LOCK. -/
def execAccOwnerLock (d : Desc) (lock : BitVec 1) (s : State) : Host.Outcome State Fault Refusal :=
  .next (accept d (.accOwnerLock lock) (actAccOwnerLock lock) s)

/-- ACC_REL_KEY acts: in Service, with an owner session, key store slot 8 and the starting counter are loaded. -/
def actAccRelKey (a : Act) (s : State) : State :=
  if s.onTrial || s.pwr.mode != .service then refuse s a stRefusedState
  else if !s.ownerSession then refuse s a ownerRequired
  else
    let c := wordAt a.payload 4
    finish (accWrite { s with acc.keys := vset s.acc.keys 8 (some (a.payload.take 16)), acc.relNext := c,
                              acc.relEnd := c.toNat } 0) a

/-- ACC_REL_KEY. -/
def execAccRelKey (d : Desc) (s : State) : Host.Outcome State Fault Refusal :=
  .next (accept d .accRelKey actAccRelKey s)

/-- ACC_READ acts. -/
def actAccRead (a : Act) (s : State) : State := finish s a 0 (accStatus s) (accLock s)

/-- ACC_READ. -/
def execAccRead (d : Desc) (s : State) : Host.Outcome State Fault Refusal := .next (accept d .accRead actAccRead s)

/-! ## Searches and polls -/

/-- ACC_SEARCH acts (R563, R564): a test search in Service, a recovery search in the modes of Table 15.1. -/
def actAccSearch (reason : BitVec 2) (a : Act) (s : State) : State :=
  if !s.accOn || !(s.pwr.mode == .service || (reason == 2 && searchMode s.pwr.mode)) then refuse s a stRefusedState
  else if s.lockedOut then refuse s a stLockedOut
  else searchStart s reason.toNat (some a)

/-- ACC_SEARCH. -/
def execAccSearch (d : Desc) (reason : BitVec 2) (s : State) : Host.Outcome State Fault Refusal :=
  .next (accept d (.accSearch reason) (actAccSearch reason) s)

/-- KC is in service (R598). -/
def State.kcRuns (s : State) : Bool :=
  match s.bezel.kcSuspended with
  | some t => decide (t ≤ s.clk.ns)
  | none => true

/-- GUARD_POLL (R562): PD_UWB and PD_SEC are On for the poll (Table 2.1). -/
def execGuardPoll (s : State) : Host.Outcome State Fault Refusal :=
  .next (
    if s.pwr.mode == .guard && !s.pwr.entering && s.accOn && !s.lockedOut && s.kcRuns then
      pollStart ((s.modDom .uwb (fun c => { c with st := .on })).modDom .sec (fun c => { c with st := .on }))
    else s)

/-- GUARD_RATE_CHANGE (R562): 72 h after Guard entry, event 0x100A. -/
def execGuardRateChange (s : State) : Host.Outcome State Fault Refusal :=
  .next (if s.pwr.mode == .guard && !s.acc.slow then
    logEvent { s.reach (s.acc.guardAt + 72 * 3600 * sec) with acc.slow := true } 0x100A []
  else s)

/-- SEARCH_BURST (R563): the first of four polls; the period doubles after each burst, up to 16 s. A lowered PD_UWB is
woken. -/
def execSearchBurst (s : State) : Host.Outcome State Fault Refusal :=
  .next (match s.acc.search with
    | none => s
    | some x =>
      let s := s.reach x.nextAt
      let x := { x with nextAt := s.clk.ns + x.period, period := capAt (16 * sec) (2 * x.period), left := 4 }
      let s := { s with acc.search := some x }
      let s := if s.isOn .uwb || (s.domCtl .uwb).dead then s else startWake s .uwb .on
      if s.kcRuns then pollStart s else s)

/-- POLL_DONE (R556 to R561, R565): a radio that failed to wake skips the poll; otherwise the answers are taken, tokens
that authenticate open a session, a Guard poll wakes the module, and a search goes on with its burst. -/
def execPollDone (answers : List TokenAnswer) (radioOk : Bool) (copyFails : BitVec 2) (s : State) :
    Host.Outcome State Fault Refusal :=
  .next (
    if !s.acc.polling then s
    else
      let s := { s with acc.polling := false }
      let r : List (Nat × Nat) × State :=
        if radioOk then answers.foldl (takeAnswer copyFails) ([], s)
        else ([], logEvent { s with acc.radioFault := true } 0x100B [4])
      let s := authenticate r.2 r.1
      let s := if s.pwr.mode == .guard then
          (s.modDom .uwb (fun c => { c with st := .off })).modDom .sec (fun c => { c with st := .off })
        else s
      if s.pwr.mode == .guard && !r.1.isEmpty then wakeUp s .token
      else match s.acc.search with
        | none => s
        | some x =>
          let s := { s with acc.search := some { x with left := x.left - 1 } }
          if 1 < x.left && s.kcRuns then pollStart s else s)

/-- SEARCH_EXPIRY (R563): 30 min after the search started. -/
def execSearchExpiry (s : State) : Host.Outcome State Fault Refusal :=
  .next (match s.acc.search with
    | none => s
    | some x => searchEnd (s.reach (x.startAt + 1800 * sec)) stTimeout 0 0)

/-! ## Lock-out and sessions -/

/-- LOCKOUT_END (R566): event 0x1005; with KL15 on a recovery search starts (R563). -/
def execLockoutEnd (s : State) : Host.Outcome State Fault Refusal :=
  .next (match s.acc.lock with
    | none => s
    | some (_, t) =>
      let s := { s.reach t with acc.lock := none, acc.lockEnded := true }
      let s := accWrite (logEvent s 0x1005 []) 0
      if s.kl15On && s.accOn && searchMode s.pwr.mode && !s.lockedOut then searchStart s 2 none else s)

/-- OWNER_SESSION_EXPIRY (R554): 60 s after the owner token authenticated. -/
def execOwnerSessionExpiry (s : State) : Host.Outcome State Fault Refusal :=
  .next (match s.acc.ownerUntil with
    | none => s
    | some t => { s.reach t with acc.ownerUntil := none })

/-- T_SESSION in ns: 0 is taken as 60 s (Table 15.5). -/
def State.sessionNs (s : State) : Nat := (if s.accField 0 16 8 = 0 then 60 else s.accField 0 16 8) * sec

/-- ACCESS_SESSION_END (R561): KL15 has been off for T_SESSION. -/
def execAccessSessionEnd (s : State) : Host.Outcome State Fault Refusal :=
  .next (if s.acc.session.isSome && !s.kl15On then sessionEnd (s.reach (s.bezel.kl15OffAt + s.sessionNs)) else s)

/-! ## Release -/

/-- RELEASE_TX (R568): at once when the conditions first hold, then every 500 ms until the controller answers released and
every 5 s after that. -/
def execReleaseTx (s : State) : Host.Outcome State Fault Refusal :=
  .next (
    if s.relHolds then
      relSend (match s.acc.relAt with
        | some t => s.reach (t + (if s.acc.released then 5 * sec else 500 * ms))
        | none => s)
    else { s with acc.relAt := none })

/-- RELEASE_ANSWER_RX (R572): an answer whose tag fails is ignored; a stale one sets the counter and sends at once. -/
def execReleaseAnswerRx (counter highest : BitVec 32) (status : BitVec 8) (tagOk : Bool) (s : State) :
    Host.Outcome State Fault Refusal :=
  .next (
    if !tagOk then s
    else
      let s := { s with acc.released := status == 0 }
      if status = 2 then
        let s := logEvent { s with acc.relNext := highest + 1 } 0x1007 [counter.toNat, highest.toNat]
        if s.relHolds then relSend s else s
      else if status = 1 then logEvent s 0x1007 [counter.toNat, highest.toNat]
      else logEvent s 0x1006 [counter.toNat])

end Sys2Proof.Machine
end

