-- ==== Sys2Proof/Machine/CfgCheck.lean ====
section
/-! DEFINITION. The consistency check of Table 5.4: record layouts and ranges, references, claims, ratings, sums and mode
rules, check by check and mode by mode (R204 to R208, R732, R739, R741). -/

namespace Sys2Proof.Machine

/-- The outcome of a failed check (Tables 5.3 and 5.15). -/
structure Fail where
  check : Nat := 0
  mode : Nat := 0
  status : Nat := 0x80
  a : Nat := 0
  b : Nat := 0
  resBlock : Nat := 0
  res : Nat := 0
  deriving DecidableEq, Repr

/-- BLOCK, TYPE and INSTANCE of a record as RESULT0 holds them (Table 5.3). -/
def Rec.claimant (r : Rec) : Nat := field 24 (r.block % 256) + field 16 (r.typ % 256) + r.inst % 65536

/-- The module with these records running in this mode: what a check asks of a configuration. -/
def State.trial (s : State) (rs : List Rec) (m : Mode) : State := { s with cfg.recs := rs, pwr.mode := m }

/-! ## Check 1: layouts and ranges (R732) -/

/-- A field of a record body: its place, its range, whether 0 is allowed besides, and the fields that turn its use on,
each with the values that do. -/
structure BodyField where
  w : Nat
  lo : Nat
  width : Nat
  min : Nat := 0
  max : Nat := 2 ^ width - 1
  zero : Bool := false
  on : List (Nat × Nat × Nat × List Nat) := []

/-- A field that holds every value. -/
def anyF (w lo width : Nat) : BodyField := { w := w, lo := lo, width := width }

/-- A field with a stated range. -/
def rngF (w lo width min max : Nat) : BodyField := { w := w, lo := lo, width := width, min := min, max := max }

/-- Bits of word `w` that some field names. -/
def usedBits (fs : List BodyField) (w : Nat) : Nat :=
  (fs.filter (fun f => f.w == w)).foldl (fun m f => m ||| ((2 ^ f.width - 1) * 2 ^ f.lo)) 0

/-- The field lies in its range, or its use is turned off. -/
def BodyField.ok (f : BodyField) (r : Rec) : Bool :=
  let x := r.f f.w f.lo f.width
  f.on.any (fun c => !c.2.2.2.contains (r.f c.1 c.2.1 c.2.2.1)) || (f.zero && x == 0) || (f.min ≤ x && x ≤ f.max)

/-- The body has `n` words, every field lies in its range and every other bit is 0. -/
def bodyOk (r : Rec) (n : Nat) (fs : List BodyField) : Bool :=
  r.body.length == n && fs.all (fun f => f.ok r)
    && (List.range n).all (fun w => r.w w &&& (2 ^ 32 - 1 - usedBits fs w) == 0)

/-- HSO_LOAD (Table 6.4). -/
def hsoFields : List BodyField :=
  let wire := [(2, 20, 1, [1])]
  [anyF 0 0 16, anyF 0 16 16, anyF 1 0 16, rngF 1 16 8 0 60,
   { rngF 2 0 4 0 7 with on := wire }, { rngF 2 4 8 70 200 with on := wire }, { rngF 2 12 8 5 60 with on := wire },
   anyF 2 20 1, anyF 3 0 12, anyF 3 12 1, rngF 4 0 3 0 6, anyF 4 3 1, anyF 4 4 2,
   { rngF 4 6 10 60 320 with on := [(4, 4, 2, [3])] }, rngF 4 16 12 10 1000,
   anyF 5 0 1, anyF 5 1 1, anyF 5 2 1, anyF 5 4 3, rngF 5 8 2 0 2,
   { rngF 5 12 13 0 4096 with on := [(5, 8, 2, [2])] }, anyF 6 0 8]

/-- VLV_CHAN (Table 8.8). -/
def vlvFields : List BodyField :=
  [anyF 0 0 16, anyF 0 16 16, { rngF 1 0 10 10 500 with zero := true }, anyF 1 10 1, rngF 1 11 2 0 2, anyF 1 13 1,
   anyF 1 14 1, rngF 2 0 12 0 3000, anyF 2 12 8]

/-- LED_STRING, LED_COLOUR and MTX_CFG (Tables 10.6 and 10.7). -/
def ledFields : List BodyField :=
  [anyF 0 0 10, anyF 0 16 9, anyF 1 0 9, rngF 1 9 3 2 4, anyF 1 12 2, anyF 1 14 1, anyF 1 15 1, anyF 1 16 1,
   rngF 1 17 2 0 2, anyF 1 19 1, anyF 2 0 10, anyF 2 10 12]
def colourFields : List BodyField :=
  [anyF 0 0 32, rngF 1 0 7 1 90, anyF 1 8 4, anyF 1 12 4, rngF 1 16 13 0 4096, anyF 2 0 32, anyF 3 0 32, anyF 4 0 32,
   anyF 5 0 32, anyF 6 0 16, anyF 7 0 32, anyF 8 0 32, anyF 9 0 32, anyF 10 0 32, anyF 11 0 20]
def mtxFields : List BodyField :=
  [anyF 0 0 10, rngF 0 10 2 0 2, anyF 0 12 1, anyF 0 13 1, anyF 0 14 1, anyF 0 15 1, anyF 0 16 1,
   rngF 1 0 8 0 240, rngF 1 8 8 0 240, rngF 1 16 8 0 240, anyF 1 24 1, anyF 2 0 6]

/-- FIO_PIN (Table 11.5). -/
def fioFields : List BodyField :=
  let out := (0, 0, 2, [2, 3])
  [anyF 0 0 2, anyF 0 2 1, anyF 0 3 1, anyF 0 4 1, anyF 0 5 1, anyF 0 6 1, anyF 0 7 1, anyF 0 8 8,
   { rngF 0 16 3 2 7 with on := [out] }, anyF 0 19 1, anyF 0 20 1, anyF 0 21 1, rngF 0 22 2 0 2, anyF 0 24 1,
   { rngF 1 0 13 0 4096 with on := [out, (0, 22, 2, [2])] }]

/-- CAN_CHAN (Tables 12.15 and 12.16). -/
def canFields : List BodyField :=
  [anyF 0 0 6, anyF 0 8 8, anyF 0 16 8, anyF 1 0 8, anyF 1 8 8, anyF 1 16 7, anyF 1 23 7,
   anyF 2 0 5, anyF 2 8 5, anyF 2 16 4, anyF 2 20 4, anyF 3 0 5, anyF 3 8 5, anyF 3 16 4, anyF 3 20 4,
   anyF 4 0 2, anyF 4 8 7, anyF 4 16 7]

/-- NET_BUS and NET_WAKE (Tables 13.6 and 13.7). -/
def netFields : List BodyField :=
  [rngF 0 0 8 1 100, rngF 0 8 8 10 255, rngF 0 16 8 1 100, anyF 0 24 8, anyF 1 0 30, rngF 1 30 2 0 2, anyF 2 0 29,
   anyF 3 0 31, anyF 4 0 8, rngF 4 8 8 8 32]
def wakeFields : List BodyField :=
  [anyF 0 0 31, anyF 1 0 29, anyF 2 0 5, anyF 3 0 32, anyF 4 0 32, anyF 5 0 32, anyF 6 0 32]

/-- A page attribute: SWAP 3 is reserved (R528). -/
def attrF (w lo : Nat) : List BodyField := [anyF w lo 2, rngF w (lo + 2) 2 0 2]

/-- The frames of a CAN channel: a nominal bit, an FD data bit and an XL data bit in clocks of 12.5 ns (R437). -/
def dataClocks (x : Nat) : Nat := (bits x 0 5 + 1) * (3 + bits x 8 5 + bits x 16 4)

/-- Bits of the longest frame with worst-case stuffing, as nominal bits and data-phase bits (PRESUMED from ISO 11898-1,
log entry 80): classical extended with 8 bytes; FD with 64; XL with 2048. -/
def classicalBits : Nat := 160
def fdBits : Nat × Nat := (58, 678)
def xlBits : Nat × Nat := (41, 18145)

/-- R439 for a CAN_CHAN record. -/
def canTimingOk (r : Rec) : Bool :=
  let nb := (r.f 1 0 8 + 1) * (3 + r.f 1 8 8 + r.f 1 16 7)
  let db := dataClocks (r.w 2)
  let xb := dataClocks (r.w 3)
  let fd := r.f 0 2 1 == 1
  let xl := r.f 0 3 1 == 1
  -- 80 clocks are 1 µs
  80 ≤ nb && nb ≤ 1600 && r.f 1 23 7 ≤ r.f 1 16 7 && r.f 2 20 4 ≤ r.f 2 16 4 && r.f 3 20 4 ≤ r.f 3 16 4
    && (!fd || (db ≤ nb && 10 ≤ db && (40 < db || r.f 4 0 1 == 1)))
    && (!xl || (xb ≤ nb && 4 ≤ xb && (40 < xb || r.f 4 1 1 == 1) && 8 ≤ r.inst))
    && (r.f 0 5 1 == 0 || r.inst == 0)
    && classicalBits * nb ≤ 2000000 && (!fd || fdBits.1 * nb + fdBits.2 * db ≤ 2000000)
    && (!xl || xlBits.1 * nb + xlBits.2 * xb ≤ 2000000)

/-- The fixed part of a CAN_SCHED record (Table 12.11), and R475 without its last rule. -/
def schedOk (r : Rec) : Bool :=
  let nw := schedWin r
  let nc := r.f 0 0 4 + 1
  let cells := nc * nw
  let n := 4 + nw + (cells + 3) / 4
  let lengthOf (w : Nat) : Nat := (if w + 1 < nw then schedStart r (w + 1) else schedLen r) - schedStart r w
  bodyOk r n ([anyF 0 0 11, rngF 1 0 20 100 1000000, anyF 2 0 32, anyF 3 0 32]
      ++ (List.range nw).map (fun w => anyF (4 + w) 0 20)
      ++ (List.range ((cells + 3) / 4)).map (fun i => anyF (4 + nw + i) 0 32))
    && schedStart r 0 == 0 && schedStart r (nw - 1) < schedLen r
    && (List.range nw).all (fun w => (w + 1 == nw || schedStart r w < schedStart r (w + 1)) && 20 ≤ lengthOf w)
    && (List.range (4 * ((cells + 3) / 4))).all (fun i =>
        let b := r.f (4 + nw + i / 4) (8 * (i % 4)) 8
        if i < cells then b < 128 && (bits b 0 2 != 1 || r.f 3 16 16 < lengthOf (i % nw)) else b == 0)

/-- Offsets of a block's registers (the register tables of every chapter). -/
def isRegister (b off : Nat) : Bool :=
  let upTo (lo hi : Nat) : Bool := lo ≤ off && off < hi
  off % 4 == 0 &&
    match b with
    | 0 => upTo 0 0x28 || upTo 0x30 0x40
    | 1 => upTo 0 0x24
    | 2 => upTo 0 0x28 || upTo 0x40 0xA0
    | 3 => upTo 0 0xC || upTo 0x10 0x44 || upTo 0x1000 0x2000
    | 4 => upTo 0 0x2C
    | 5 => upTo 0 0x10 || upTo 0x40 0x60 || upTo 0x100 0x500
    | 6 => off == 0 || upTo 0x10 0x1C || off == 0x20 || upTo 0x30 0x3C || upTo 0x100 0x300
    | 7 => upTo 0 0x10 || upTo 0x20 0x40 || upTo 0x100 0x300
    | 8 => upTo 0 0x80 || upTo 0x100 0x300
    | 9 => upTo 0 0xC || upTo 0x10 0x1C || (upTo 0x100 0x1C0 && off % 16 != 12)
    | 10 => upTo 0 0x1C
    | 11 => upTo 0 0xC || upTo 0x100 0x280
    | 12 => (off < 0xA000 && (off % 0x1000 < 0x14 || (0x20 ≤ off % 0x1000 && off % 0x1000 < 0x30))) || upTo 0xA000 0xA020
    | 13 => upTo 0 8 || upTo 0x100 0x1A0
    | 14 => (off < 0x40 && off % 16 != 12) || upTo 0x100 0x10C
    | 15 => upTo 0 0x38 || upTo 0x84 0x100 || upTo 0x104 0x180
    | 16 => upTo 0 0x10 || (upTo 0x100 0x180 && off % 16 != 12)
    | 17 => upTo 0 0x34 || upTo 0x40 0x58
    | 18 => upTo 0 0x1C || upTo 0x40 0x80
    | 19 => upTo 0 0x1C
    | 20 => upTo 0 0x10
    | 21 => upTo 0 0x18 || upTo 0x20 0x60
    | _ => false

/-- A WO register: BEZEL_RESET and BEZEL_WDT_KICK (Table 16.10). -/
def isWriteOnly (b off : Nat) : Bool := b == 17 && (off == 8 || off == 0x14)

/-- A read-sensitive register (R535). -/
def isReadSensitive (b off : Nat) : Bool :=
  b == 2 && (off == 0 || off == 0x18 || (0x60 ≤ off && off < 0xA0 && off % 8 == 0))

/-- An address that a LOUPE_SET record may name (R617). -/
def loupeMayRead (a : Nat) : Bool :=
  let b := (a - 0xA0000000) / 0x10000
  let off := (a - 0xA0000000) % 0x10000
  0xA0000000 ≤ a && b ≤ 21 && isRegister b off && !isWriteOnly b off && !isReadSensitive b off

/-- LOUPE_SET (Table 17.1, R617). -/
def loupeSetOk (r : Rec) : Bool :=
  r.body.length == 17 && r.w 0 ≤ 16
    && (List.range 16).all (fun i => if i < r.w 0 then loupeMayRead (r.w (i + 1)) else r.w (i + 1) == 0)

/-- Check 1 of one record on its own: BLOCK, TYPE and INSTANCE, and the body (R732). -/
def bodyRuleOk (r : Rec) : Bool :=
  let i := r.inst
  match r.block, r.typ with
  | 0, 1 => i == 0 && bodyOk r 1 [anyF 0 0 2]
  | 1, 1 => i == 0 && bodyOk r 1 [rngF 0 0 3 0 4]
  | 2, 1 => i < 8 && bodyOk r 1 [anyF 0 0 7, anyF 0 8 2]
  | 5, 1 => i < 64 && bodyOk r 8 hsoFields
  | 6, 1 => i < 3 && bodyOk r 1 [anyF 0 0 5, anyF 0 8 16]
  | 6, 2 => i < 128 && bodyOk r 2 [anyF 0 0 17, anyF 1 0 13]
  | 6, 3 => i == 0 && bodyOk r 2 [anyF 0 0 6, anyF 0 8 4, anyF 1 0 16]
  | 7, 1 => i < 8 && bodyOk r 1 [rngF 0 0 16 0 800]
  | 7, 2 => i < 32 && bodyOk r 3 vlvFields
  | 7, 3 => i == 0 && bodyOk r 2 [anyF 0 0 10, anyF 0 16 7, anyF 0 24 1, anyF 1 0 10]
  | 8, 1 => i < 8 && r.modes == 0xFFF && r.prog.isSome
  | 9, 1 => i < 12 && bodyOk r 3 ledFields
  | 9, 2 => i == 0 && bodyOk r 12 colourFields
  | 10, 1 => i == 0 && bodyOk r 3 mtxFields
  | 11, 1 => i < 48 && bodyOk r 2 fioFields
  | 12, 1 => i < 10 && bodyOk r 5 canFields && canTimingOk r
  | 12, 2 => i < 320 && bodyOk r 3 [anyF 0 0 30, anyF 1 0 29, anyF 2 0 10] && !(r.f 2 7 1 == 1 && r.f 2 8 2 == 3)
  | 12, 3 => i < 10 && schedOk r
  | 12, 4 => i < 8 && bodyOk r 4 [anyF 0 0 32, anyF 1 0 32, anyF 2 0 24, rngF 2 24 4 0 9, anyF 2 28 2, anyF 3 0 7]
  | 13, 1 => i < 10 && bodyOk r 5 netFields && 2 * r.f 0 0 8 ≤ r.f 0 8 8
  | 13, 2 => i < 80 && bodyOk r 7 wakeFields && (r.f 0 30 1 == 0 || (r.w 5 == 0 && r.w 6 == 0))
  | 14, 1 => i < 4 && bodyOk r 1 [anyF 0 0 4]
  | 14, 2 => i == 0 && bodyOk r 1 [anyF 0 0 12, anyF 0 16 8]
  | 15, 1 => i == 0 && bodyOk r 3 [rngF 0 0 2 0 2, { rngF 0 2 5 1 31 with on := [(0, 0, 2, [1])] }, anyF 0 8 9, anyF 1 0 22,
      anyF 2 0 28]
  | 15, 2 => 1 ≤ i && i < 32 && bodyOk r 3 (attrF 0 0 ++ attrF 0 4 ++ attrF 0 8 ++ [anyF 0 12 8, anyF 1 0 24, anyF 2 0 24])
  | 15, 3 => 512 ≤ i && i < 16384 && bodyOk r 1 (attrF 0 0) && (i % 512 < 22 || (128 ≤ i % 512 && i % 512 < 240) || 256 ≤ i % 512)
  | 15, 4 => 16 ≤ i && i < 512 && i % 16 < 10 && bodyOk r 1 [anyF 0 0 7]
  | 16, 1 => i == 0 && bodyOk r 3 [anyF 0 0 14, anyF 0 16 8, anyF 1 0 30, anyF 2 0 8]
  | 16, 2 => i < 4 && bodyOk r 1 [anyF 0 0 12, rngF 0 16 12 30 1500]
  | 17, 1 => i == 0 && bodyOk r 3 [anyF 0 0 14, anyF 0 16 12, anyF 0 28 2, anyF 1 0 10, anyF 1 16 4, anyF 1 24 8, anyF 2 0 8]
      && r.f 0 16 12 < clamp 10 10000 (r.f 0 0 14)
  | 17, 2 => i < 32 && bodyOk r 2 [rngF 0 0 2 0 2, anyF 0 2 6, anyF 0 8 1, rngF 0 9 2 0 2, anyF 0 11 6, anyF 0 17 7, anyF 1 0 13]
  | 18, 1 => i < 64 && bodyOk r 2 [anyF 0 0 32, anyF 1 0 5, rngF 1 8 2 0 1, anyF 1 16 16]
  | 18, 2 => i < 32 && loupeSetOk r
  | 19, 1 => i == 0 && bodyOk r 4 [rngF 0 0 2 0 2, anyF 0 2 4, anyF 0 6 6, rngF 0 12 3 0 6, anyF 1 0 30, anyF 2 0 29,
      rngF 3 0 16 1 65535]
  | _, _ => false

/-- Detector rates of Table 13.4, as nominal bits in clocks. -/
def detectorRate (clocks : Nat) : Bool := clocks == 640 || clocks == 320 || clocks == 160 || clocks == 80

/-- The part of check 1 that asks other records of the mode (R475, R502, R548). -/
def pairRuleOk (s : State) (r : Rec) : Bool :=
  match r.block, r.typ with
  | 12, 3 => s.canEnabled r.inst
  | 13, 1 => r.f 1 30 2 != 2 || detectorRate (s.nominalClocks r.inst)
  | 15, 2 | 15, 3 | 15, 4 => s.recField 15 1 0 0 0 2 0 == 2
  | _, _ => true

/-- Records whose BLOCK and TYPE claim a resource: a second one in a mode is found by check 3 (Table 5.15). -/
def claims1 (r : Rec) : Bool :=
  [(2, 1), (5, 1), (7, 1), (7, 2), (9, 1), (10, 1), (11, 1), (12, 1)].contains (r.block, r.typ)

/-- Two records of one combination (R191). -/
def Rec.sameCombo (a b : Rec) : Bool := a.block == b.block && a.typ == b.typ && a.inst == b.inst

/-- The first record whose combination an earlier one already holds. -/
def firstTwin : List Rec → List Rec → Option Rec
  | _, [] => none
  | seen, r :: rs => if seen.any (fun x => x.sameCombo r) then some r else firstTwin (seen ++ [r]) rs

/-- A failure that names one record. -/
def failRec (n m : Nat) (r : Rec) (resBlock res : Nat) : Fail :=
  { check := n, mode := m, a := r.claimant, resBlock := resBlock, res := res }

/-- Check 1. -/
def check1 (s : State) (rs : List Rec) (m : Mode) : Option Fail :=
  let t := s.trial rs m
  let mine := rs.filter (fun r => r.inMode m || (m == .storage && r.modes == 0))
  let bad (r : Rec) : Bool := r.rsvd || !bodyRuleOk r || (r.inMode m && !pairRuleOk t r)
  match mine.find? bad with
  | some r => some (failRec 1 m.num r 0 0)
  | none => (firstTwin [] ((rs.filter (fun r => r.inMode m)).filter (fun r => !claims1 r))).map (fun r => failRec 1 m.num r 0 0)

/-! ## Check 2: references -/

/-- A ring that is enabled has the class a binding needs (R140); a ring that is not enabled has none yet (DEDUCED, log
entry 81). -/
def ringFits (s : State) (n : Nat) (cls : BitVec 2) : Bool := !(vget s.rings.ring n).enable || (vget s.rings.ring n).cls == cls

/-- The references of a record in a mode resolve. -/
def refsOk (s t : State) (rs : List Rec) (r : Rec) : Bool :=
  match r.block, r.typ with
  | 12, 2 => if r.f 2 7 1 = 1 then s.pwr.strap == 1 else ringFits s (r.f 2 0 7) 1
  | 12, 4 => ringFits s (r.f 3 0 7) 1
  | 15, 2 => r.f 0 19 1 == 0 || ringFits s (r.f 0 12 7) 2
  | 15, 4 => ringFits s (r.f 0 0 7) 1
  | 16, 1 => r.f 0 12 1 == 1 || bits (canCtrl t (r.f 0 8 4)) 2 1 == 1
  | 18, 1 => (t.rec? 18 2 (r.f 1 0 5)).isSome
  | 19, 1 =>
    match r.f 0 0 2 with
    | 1 => t.canEnabled (r.f 0 2 4)
    | 2 => [Mode.accessory, Mode.run].all (fun m => match recOf rs m 11 1 (r.f 0 6 6) with
        | some p => p.f 0 0 2 == 1
        | none => false)
    | _ => true
  | _, _ => true

/-- Check 2. -/
def check2 (s : State) (rs : List Rec) (m : Mode) : Option Fail :=
  ((rs.filter (fun r => r.inMode m)).find? (fun r => !refsOk s (s.trial rs m) rs r)).map (fun r => failRec 2 m.num r 0 0)

/-! ## Check 3: claims (R219, R221) -/

/-- A claimed resource: BLOCK and RESOURCE of Table 5.15, and whether it is an output of the Limp map. -/
structure Claim where
  block : Nat
  res : Nat
  limp : Bool := false
  who : Rec
  deriving DecidableEq

/-- What a record claims in a mode. Receive ring bindings may be shared (DEDUCED from R462, log entry 82); an event ring
binding may not (R539). -/
def claimsOf (m : Mode) (r : Rec) : List Claim :=
  let one (b n : Nat) : Claim := { block := b, res := n, who := r }
  match r.block, r.typ with
  | 2, 1 => one 2 r.inst :: (if r.f 0 0 7 = 1 then [one 0 0x441] else [])
  | 5, 1 => [one 5 r.inst]
  | 7, 1 => [one 7 (0x100 + r.inst)]
  | 7, 2 => [one 7 r.inst]
  | 9, 1 => [one 9 r.inst]
  | 10, 1 => one 10 0 :: (if r.f 0 10 2 = 0 then [] else [one 0 0x441])
  | 11, 1 => [one 11 r.inst]
  | 12, 1 => [one 12 r.inst]
  | 12, 3 => [one 12 (0x100 + 4 * r.inst + 2)]
  | 15, 2 => if r.f 0 19 1 = 1 then [one 3 (r.f 0 12 7)] else []
  | 17, 2 => if m = .limp then [{ block := match r.f 0 9 2 with | 0 => 5 | 1 => 9 | _ => 11, res := r.f 0 11 6, limp := true, who := r }]
      else []
  | _, _ => []

/-- The first claim on a resource that an earlier claim already holds, with that earlier one. -/
def firstClash : List Claim → List Claim → Option (Claim × Claim)
  | _, [] => none
  | seen, c :: cs =>
    match seen.find? (fun x => x.block == c.block && x.res == c.res && x.limp == c.limp) with
    | some x => some (x, c)
    | none => firstClash (seen ++ [c]) cs

/-- Check 3. -/
def check3 (rs : List Rec) (m : Mode) : Option Fail :=
  (firstClash [] ((rs.filter (fun r => r.inMode m)).flatMap (claimsOf m))).map (fun p =>
    { check := 3, mode := m.num, status := 0x07, a := min p.1.who.claimant p.2.who.claimant,
      b := max p.1.who.claimant p.2.who.claimant, resBlock := p.1.block, res := p.1.res })

/-! ## Checks 4 and 5: pin functions and ratings -/

/-- Check 4: a wake input only on FIO0 to FIO15. -/
def check4 (rs : List Rec) (m : Mode) : Option Fail :=
  ((rs.filter (fun r => r.inMode m)).find? (fun r => r.block == 11 && r.f 0 5 1 == 1 && 16 ≤ r.inst)).map
    (fun r => failRec 4 m.num r 11 r.inst)

/-- Nominal current of a high-side channel in 10 mA units (Table 6.2). -/
def hsoNominal (ch : Nat) : Nat := if ch < 8 then 2500 else if ch < 32 then 1000 else 400

/-- R238. -/
def hsoRated (r : Rec) : Bool :=
  let n := hsoNominal r.inst
  let i := r.f 0 0 16
  let lim := r.f 0 16 16
  let i50 := match r.f 2 0 4 with | 0 => 700 | 1 => 900 | 2 => 1200 | 3 => 1400 | 4 => 1800 | 5 => 2500 | 6 => 3300 | _ => 4300
  i ≤ n && i ≤ lim && lim ≤ 2 * n && lim ≤ r.f 1 0 16 && r.f 1 0 16 ≤ 4 * n
    && (r.f 2 20 1 == 0 || 85 * i50 * i50 + 50 * i * i + 10 * i50 * i50 ≤ r.f 2 4 8 * i50 * i50)

/-- The ratings of a record (R238, R344, R412). -/
def rated (r : Rec) : Bool :=
  match r.block, r.typ with
  | 5, 1 => hsoRated r
  | 7, 2 => r.f 0 0 16 ≤ 300 && r.f 0 16 16 ≤ 1000 && r.f 2 0 12 ≤ 10 * r.f 0 0 16
  | 9, 1 => 50 ≤ r.f 0 0 10 && r.f 0 0 10 ≤ 1000 && 30 ≤ r.f 0 16 9 && r.f 0 16 9 ≤ 480 && r.f 1 0 9 < r.f 0 16 9
  | 9, 2 => det3 (chroma (r.w 7)) (chroma (r.w 8)) (chroma (r.w 9)) != 0 && [7, 8, 9].all (fun k => r.f k 16 16 != 0)
  | 10, 1 => r.f 1 0 8 + r.f 1 8 8 + r.f 1 16 8 ≤ 150 && 100 ≤ r.f 0 0 10 && r.f 0 0 10 ≤ 800 && 40 ≤ r.f 2 0 6 && r.f 2 0 6 ≤ 60
  | _, _ => true

/-- V_MAX × I_MAX of a string, in units of 0.1 mW. -/
def ledPower (r : Rec) : Nat := r.f 0 16 9 * r.f 0 0 10

/-- The first string that takes the sum of V_MAX × I_MAX over 160 W. -/
def firstOver160 : Nat → List Rec → Option Rec
  | _, [] => none
  | p, r :: rs => if 1600000 < p + ledPower r then some r else firstOver160 (p + ledPower r) rs

/-- Check 5. -/
def check5 (rs : List Rec) (m : Mode) : Option Fail :=
  let mine := rs.filter (fun r => r.inMode m)
  match mine.find? (fun r => !rated r) with
  | some r => some (failRec 5 m.num r 0 0)
  | none => (firstOver160 0 (mine.filter (fun r => r.block == 9 && r.typ == 1))).map (fun r => failRec 5 m.num r 0 0)

/-! ## Checks 6 to 8: sums (R207, R341, R342, R412, R431) -/

/-- A contribution to a sum: its size, its record and its exclusive set, 0 for none. -/
structure Share where
  size : Nat
  who : Nat
  set : Nat := 0
  deriving DecidableEq

/-- The sum, with the channels of one exclusive set counted once, at the highest (R207). -/
def shareSum (xs : List Share) : Nat :=
  let loose := ((xs.filter (fun x => x.set == 0)).map (fun x => x.size)).sum
  (List.range 255).foldl (fun t k => t + ((xs.filter (fun x => x.set == k + 1)).map (fun x => x.size)).foldl max 0) loose

/-- The record with the largest contribution; ties go to the lowest (R739). -/
def topShare (xs : List Share) : Nat :=
  match xs.foldl (fun (b : Option Share) x => match b with
      | none => some x
      | some y => if y.size < x.size ∨ (y.size = x.size ∧ x.who < y.who) then some x else some y) none with
  | some x => x.who
  | none => 0

/-- I_CONT of a load record and its exclusive set. -/
def contShare (r : Rec) : Share :=
  { size := r.f 0 0 16, who := r.claimant, set := if r.block = 5 then r.f 6 0 8 else r.f 2 12 8 }

/-- Continuous limit of a power group in 10 mA units (Table 6.3). -/
def groupLimit (g : Nat) : Nat := if g = 0 then 12000 else if g < 4 then 5000 else 2000

/-- Check 6: the power groups, then the valve banks. -/
def check6 (rs : List Rec) (m : Mode) : Option Fail :=
  let mine := rs.filter (fun r => r.inMode m)
  let hso (g : Nat) : List Share := (mine.filter (fun r => r.block == 5 && r.typ == 1 && hsoGroup r.inst == g)).map contShare
  let vlv (b : Nat) : List Share := (mine.filter (fun r => r.block == 7 && r.typ == 2 && r.inst / 4 == b)).map contShare
  let lim (b : Nat) : Nat := match recOf rs m 7 1 b with | some r => r.f 0 0 16 | none => 0
  let fail (b n : Nat) (xs : List Share) : Fail := { check := 6, mode := m.num, a := topShare xs, resBlock := b, res := 0x100 + n }
  match (List.range 8).find? (fun g => groupLimit g < shareSum (hso g)) with
  | some g => some (fail 5 g (hso g))
  | none => ((List.range 8).find? (fun b => lim b < shareSum (vlv b))).map (fun b => fail 7 b (vlv b))

/-- Current that a record counts on its feed pair, in units of 10 mA / 810, with the pair. -/
def feedShare (r : Rec) : Option (Nat × Share) :=
  match r.block, r.typ with
  | 5, 1 => some (pairOf r.inst, { contShare r with size := 810 * r.f 0 0 16 })
  | 7, 1 => some (2, { size := 810 * r.f 0 0 16, who := r.claimant })
  | 7, 3 => if r.f 0 24 1 = 1 then some (2, { size := 810 * 423, who := r.claimant }) else none
  | 9, 1 => some (1, { size := ledPower r, who := r.claimant })
  | 10, 1 => some (1, { size := 810 * 50, who := r.claimant })
  | 11, 1 => if 2 ≤ r.f 0 0 2 then some (2, { size := 810 * 50, who := r.claimant }) else none
  | _, _ => none

/-- Check 7: the feed pairs, then the total. -/
def check7 (rs : List Rec) (m : Mode) : Option Fail :=
  let xs := (rs.filter (fun r => r.inMode m)).filterMap feedShare
  let on (k : Nat) : List Share := (xs.filter (fun x => x.1 == k)).map (·.2)
  let lim (k : Nat) : Nat := 810 * (if k = 0 then 12000 else 8000)
  let fail (n : Nat) (ys : List Share) : Fail := { check := 7, mode := m.num, a := topShare ys, resBlock := 0, res := 0x1000 + n }
  match (List.range 3).find? (fun k => lim k < shareSum (on k)) with
  | some k => some (fail k (on k))
  | none => if 810 * 20000 < shareSum (xs.map (·.2)) then some (fail 3 (xs.map (·.2))) else none

/-- The highest chopping frequency in kHz that a program commands: FREQ's operand, and 20 kHz where it commands none
(R342). -/
def topFreq (p : Prog) : Nat :=
  let fs := ((List.range p.constBase.toNat).filter (fun a => 64 ≤ a)).filterMap (fun a =>
    match facetDecode (p.word a) with | some (.freq f) => some f.toNat | _ => none)
  fs.foldl max 20

/-- Dissipation in nW that check 8 counts for a record. Table 2.22, R342, R412 and R431 give figures; for the other blocks
the spec names none, and the figure is a free value of the record. -/
def dissipation (t : State) (r : Rec) : Nat :=
  match r.block, r.typ with
  | 1, 1 => 0
  | 7, 1 => 1200 * r.f 0 0 16 * r.f 0 0 16
  | 7, 2 =>
    let i := r.f 0 0 16
    let p := (facetRecProg t (r.inst / 4)).getD {}
    let boost := (List.range 32).any (fun n => (p.profile n).valid && (p.profile n).boostEn)
    let v := if boost then bstSet t else if t.sys.sysv then 320 else 160
    4000 * i * i + 40 * topFreq p * v * i
  | 7, 3 => if r.f 0 24 1 = 1 then 2950000000 else 0
  | 9, 1 => 6800 * ledPower r
  | 10, 1 => 60000000 * r.f 2 0 6
  | 11, 1 => if 2 ≤ r.f 0 0 2 then 300000000 else if r.f 0 0 2 = 1 then 74000000 else 0
  | 5, 1 | 12, 1 | 14, 1 | 16, 1 => Config.recordDissipation r.block r.typ r.inst r.body
  | _, _ => 0
where
  /-- The program that the FACET_PROG record of an engine holds. -/
  facetRecProg (t : State) (e : Nat) : Option Prog := (t.rec? 8 1 e).bind Rec.prog

/-- Logic dissipation in nW (Table 2.22). -/
def logicDissipation (pl : Nat) : Nat :=
  match pl with | 0 => 2500000000 | 1 => 3500000000 | 2 => 4500000000 | 3 => 6000000000 | _ => 8000000000

/-- Check 8: the dissipation of every block with the logic at PL_MAX, against PWR_GOV.P_MAX. The valve stage's 0.40 W is
counted where the block has a record. -/
def check8 (s : State) (rs : List Rec) (m : Mode) : Option Fail :=
  let t := s.trial rs m
  let mine := rs.filter (fun r => r.inMode m)
  let xs : List Share := { size := logicDissipation t.plMax, who := 0x01010000 }
    :: (mine.filter (fun r => r.block != 1)).map (fun r => { size := dissipation t r, who := r.claimant })
  let base := if mine.any (fun r => r.block == 7) then 400000000 else 0
  if min 0x6E s.pwr.pMax.toNat * 500000000 < base + (xs.map (fun x => x.size)).sum then
    some { check := 8, mode := m.num, a := topShare xs }
  else none

/-! ## Checks 9 to 11 -/

/-- The slot at which an EDGE_CHAN record pins its channel's rising edge in the trial's mode. -/
def pinnedSlot (t : State) (r : Rec) : Option (Nat × Nat) :=
  if r.block = 6 ∧ r.typ = 2 then (t.recordPin r.inst).map (fun p => (pairOf r.inst, p % 1024)) else none

/-- Check 9 (R741): the first record whose pin takes its slot over EDGE_MAX or I_MAX. -/
def firstPinOver (t : State) : List (Nat × Nat × Nat) → List Rec → Option Rec
  | _, [] => none
  | seen, r :: rs =>
    match pinnedSlot t r with
    | none => firstPinOver t seen rs
    | some (k, slot) =>
      let seen := (k, slot, t.weight r.inst) :: seen
      let here := seen.filter (fun e => e.1 == k && e.2.1 == slot)
      if t.edgeMax k < here.length ∨ t.iMax k < (here.map (fun e => e.2.2)).sum then some r else firstPinOver t seen rs

/-- Check 9. -/
def check9 (s : State) (rs : List Rec) (m : Mode) : Option Fail :=
  (firstPinOver (s.trial rs m) [] (rs.filter (fun r => r.inMode m))).map (fun r => failRec 9 m.num r 0 0)

/-- Check 10: park state keep only on class L (R46), FIELD_ONLY only in modes 7 and 11. Every implement channel's record
holds a road state. -/
def check10 (rs : List Rec) (m : Mode) : Option Fail :=
  ((rs.filter (fun r => r.inMode m)).find? (fun r =>
    (r.block == 5 && r.typ == 1 && r.f 5 0 1 == 1 && r.inst < 32) || (r.fieldOnly && m != .field && m != .service))).map
    (fun r => failRec 10 m.num r 0 0)

/-- The role that the straps give, as PLAIT_ROLE.ROLE writes it (R505). -/
def State.strapRole (s : State) : Nat := match s.pwr.strap.toNat with | 1 => 1 | 2 => 2 | _ => 0

/-- Check 11: the role of the mode's PLAIT_ROLE record, standalone where none applies, agrees with the straps. -/
def check11 (s : State) (rs : List Rec) (m : Mode) : Option Fail :=
  match recOf rs m 15 1 0 with
  | some r => if r.f 0 0 2 = s.strapRole then none else some (failRec 11 m.num r 0 0)
  | none => if s.strapRole = 0 then none else some { check := 11, mode := m.num }

/-! ## The whole check (R204) -/

/-- One check in one mode. -/
def checkOne (s : State) (rs : List Rec) (n : Nat) (m : Mode) : Option Fail :=
  match n with
  | 1 => check1 s rs m
  | 2 => check2 s rs m
  | 3 => check3 rs m
  | 4 => check4 rs m
  | 5 => check5 rs m
  | 6 => check6 rs m
  | 7 => check7 rs m
  | 8 => check8 s rs m
  | 9 => check9 s rs m
  | 10 => check10 rs m
  | _ => check11 s rs m

/-- The modes in number order. -/
def allModes : List Mode :=
  [.storage, .park, .guard, .listen, .start, .accessory, .run, .field, .road, .limp, .update, .service]

/-- Check 1 for every mode, then check 2, and so on: the first failure. -/
def checkAll (s : State) (rs : List Rec) : Option Fail :=
  [1, 2, 3, 4, 5, 6, 7, 8, 9, 10, 11].findSome? (fun n => allModes.findSome? (fun m => checkOne s rs n m))

end Sys2Proof.Machine
end

