-- ==== Sys2Proof/Machine/Image.lean ====
section
/-! DEFINITION. Configuration images and the stage: reading an image in the order of R733, packing one, the records of a
CONFIG_STAGE, and the configuration that the stage makes of the running one (R188 to R201, R733). -/

namespace Sys2Proof.Machine

/-! ## Statuses of CFG (Table 5.9) -/

def persistFailed : Nat := 0x82
def imageFormat : Nat := 0x83
def takeoverRequired : Nat := 0x84
def fleetNoVote : Nat := 0x85
def persistBusy : Nat := 0x86
def stageFull : Nat := 0x87
def exportShort : Nat := 0x88
def stageSealed : Nat := 0x81

/-! ## Records as bytes (R189) -/

/-- A record from its header and body, as read. -/
def recFrom (bs : List (BitVec 8)) : Rec :=
  let w0 := (wordAt bs 0).toNat
  let w1 := (wordAt bs 1).toNat
  { block := bits w0 0 8, typ := bits w0 8 8, inst := bits w0 16 16, modes := BitVec.ofNat 12 w1, fieldOnly := bitAt w1 12,
    rsvd := bits w1 13 3 != 0 || wordAt bs 2 != 0, body := wordsOf (bs.drop 12) }

/-- BODY_LEN of a record whose header these bytes begin with. -/
def bodyLen (bs : List (BitVec 8)) : Nat := bits (wordAt bs 1).toNat 16 16

/-- Header, body and CRC of a record. -/
def recBytes (r : Rec) : List (BitVec 8) :=
  let b := bytesOf 4 (r.block + field 8 r.typ + field 16 r.inst)
    ++ bytesOf 4 (r.modes.toNat + flag 12 r.fieldOnly + field 16 (4 * r.body.length)) ++ bytesOf 4 0
    ++ r.body.flatMap (fun w => bytesOf 4 w.toNat)
  b ++ bytesOf 4 (crc32c b).toNat

/-- An image with its header and trailer (Table 5.1, R190). -/
def Image.bytes (m : Image) : List (BitVec 8) :=
  let body := m.recs.flatMap recBytes
  let head := bytesOf 4 0x46435848 ++ bytesOf 2 m.format ++ bytesOf 2 (flag 0 m.fielded) ++ bytesOf 4 (body.length + 68)
    ++ bytesOf 4 m.recs.length ++ bytesOf 4 m.seq.toNat ++ bytesOf 4 0 ++ bytesOf 8 m.machineId.toNat
    ++ List.replicate 28 0
  let all := head ++ bytesOf 4 (crc32c head).toNat ++ body
  all ++ bytesOf 4 (crc32c all).toNat

/-! ## Reading an image (R733) -/

/-- How reading an image failed: the status, and RESULT0 for MEM_UE. -/
structure ImageFail where
  status : Nat
  off : Nat := 0
  deriving DecidableEq, Repr

/-- Where an image is read from: host memory at an address, or bytes that came over the bridge. -/
inductive ImageSrc where
  | mem (addr : Nat)
  | bytes (bs : List (BitVec 8))
  deriving Repr

/-- Bytes `n` from an offset of the image; an uncorrectable word is answered with its offset (R162). -/
def imageRead (src : ImageSrc) (s : State) (off n : Nat) : Except ImageFail (List (BitVec 8)) × State :=
  match src with
  | .bytes bs => (.ok ((bs.drop off).take n), s)
  | .mem a =>
    let r := readMem s (a + off) n
    match r.1 with
    | .inl o => (.error ⟨stMemUe, off + o⟩, r.2)
    | .inr bs => (.ok bs, r.2)

/-- The records from an offset to `stop`, one at a time: each fits, then its CRC matches. A record's CRC may lie in the
trailer's bytes, where it makes the last record end beyond `stop`. -/
def imageRecs (src : ImageSrc) (stop : Nat) : Nat → State → Nat → List Rec → Except ImageFail (Nat × List Rec) × State
  | 0, s, off, acc => (.ok (off, acc), s)
  | fuel + 1, s, off, acc =>
    if stop ≤ off then (.ok (off, acc), s)
    else if stop < off + 12 then (.error ⟨imageFormat, 0⟩, s)
    else
      let h := imageRead src s off 12
      match h.1 with
      | .error e => (.error e, h.2)
      | .ok hd =>
        let n := bodyLen hd
        if n % 4 ≠ 0 ∨ stop < off + 12 + n then (.error ⟨imageFormat, 0⟩, h.2)
        else
          let b := imageRead src h.2 (off + 12) (n + 4)
          match b.1 with
          | .error e => (.error e, b.2)
          | .ok bs =>
            if wordAt (bs.drop n) 0 != crc32c (hd ++ bs.take n) then (.error ⟨stCrcControl, 0⟩, b.2)
            else imageRecs src stop fuel b.2 (off + 16 + n) (acc ++ [recFrom (hd ++ bs.take n)])

/-- The header of Table 5.1 holds together (check 4 of R733). -/
def headerOk (hd : List (BitVec 8)) (limit : Nat) : Bool :=
  let len := (wordAt hd 2).toNat
  len % 4 == 0 && 68 ≤ len && len ≤ 1048576 && len ≤ limit && bits (wordAt hd 1).toNat 17 15 == 0 && wordAt hd 5 == 0
    && ((hd.drop 32).take 28).all (· == 0)

/-- An image is read and checked in the order of R733; `limit` is PAYLOAD_LEN, or the size of the region. -/
def readImage (src : ImageSrc) (limit : Nat) (s : State) : Except ImageFail Image × State :=
  let h := imageRead src s 0 64
  match h.1 with
  | .error e => (.error e, h.2)
  | .ok hd =>
    if wordAt hd 0 != 0x46435848#32 then (.error ⟨imageFormat, 0⟩, h.2)
    else if wordAt hd 15 != crc32c (hd.take 60) then (.error ⟨stCrcControl, 0⟩, h.2)
    else if bits (wordAt hd 1).toNat 0 16 != 1 then (.error ⟨imageFormat, 0⟩, h.2)
    else if !headerOk hd limit then (.error ⟨imageFormat, 0⟩, h.2)
    else
      let len := (wordAt hd 2).toNat
      let r := imageRecs src (len - 4) (len / 16 + 1) h.2 64 []
      match r.1 with
      | .error e => (.error e, r.2)
      | .ok (off, recs) =>
        if recs.length != (wordAt hd 3).toNat || off != len - 4 then (.error ⟨imageFormat, 0⟩, r.2)
        else
          let a := imageRead src r.2 0 len
          match a.1 with
          | .error e => (.error e, a.2)
          | .ok all =>
            if wordAt (all.drop (len - 4)) 0 != crc32c (all.take (len - 4)) then (.error ⟨stCrcControl, 0⟩, a.2)
            else
              (.ok { format := 1, fielded := bitAt (wordAt hd 1).toNat 16, seq := wordAt hd 4,
                     machineId := BitVec.ofNat 64 (ofBytes ((hd.drop 24).take 8)), recs := recs }, a.2)

/-! ## The stage -/

/-- The records of a CONFIG_STAGE payload, or the status that refuses it (R197). -/
def stageRecs : Nat → List (BitVec 8) → List Rec → Except Nat (List Rec)
  | 0, _, acc => .ok acc
  | fuel + 1, bs, acc =>
    if bs.isEmpty then .ok acc
    else
      let n := bodyLen bs
      if bs.length < 12 || n % 4 != 0 || bs.length < 12 + n then .error imageFormat
      else if bs.length < 16 + n || wordAt (bs.drop (12 + n)) 0 != crc32c (bs.take (12 + n)) then .error stCrcControl
      else stageRecs fuel (bs.drop (16 + n)) (acc ++ [recFrom (bs.take (12 + n))])

/-- A record loses the modes that a later one of its combination takes, and is gone when none is left (R197). -/
def Rec.cede (old new : Rec) : Option Rec :=
  if !old.sameCombo new then some old
  else
    let m := old.modes &&& ~~~new.modes
    if m = 0 then none else some { old with modes := m }

/-- Records taken over by one that is staged. -/
def cedeAll (rs : List Rec) (r : Rec) : List Rec := rs.filterMap (fun o => o.cede r)

/-- One record staged over others. A record without a body leaves its modes with none. -/
def overlay (rs : List Rec) (r : Rec) : List Rec := cedeAll rs r ++ (if r.body.isEmpty then [] else [r])

/-- The stage with one more changed record. -/
def stageAdd (stage : List Rec) (r : Rec) : List Rec := cedeAll stage r ++ [r]

/-- Bytes of changed records that the stage holds (R198). -/
def stageBytes (stage : List Rec) : Nat := (stage.map (fun r => 16 + 4 * r.body.length)).sum

/-- The configuration that a commit would apply: the loaded image, or the running records, under the stage. -/
def State.effective (s : State) : List Rec :=
  s.cfg.stage.foldl overlay (if s.cfg.load.isSome then s.cfg.loadImage.recs else s.cfg.recs)

/-- The stage holds changes that a commit applies. -/
def State.hasStage (s : State) : Bool := !s.cfg.stage.isEmpty || s.cfg.load.isSome

/-- The stage as empty. -/
def clearStage (s : State) : State :=
  { s with cfg.stage := [], cfg.load := none, cfg.loadImage := {}, cfg.stageSt := .empty }

/-- The image is fielded, or bound to another machine (R201). -/
def State.foreign (s : State) (m : Image) : Bool := m.fielded || (m.machineId != 0 && m.machineId != s.cfg.machineId)

/-- SEQ of the loaded copy; 0 when the device runs none. -/
def State.runSeq (s : State) : BitVec 32 :=
  match s.cfg.loaded.toNat with | 1 => s.cfg.seqA | 2 => s.cfg.seqB | _ => 0

/-- A copy in NOR that R192 finds valid; it was written whole, so its format and its CRCs hold. -/
def validCopy (s : State) (c : Option Image) : Option Image :=
  match c with
  | some m => if m.format == 1 && (checkAll s m.recs).isNone then some m else none
  | none => none

/-! ## Orphan table (item 1 of Table 16.1) -/

/-- The record that describes a channel: the one of the present mode, else the first of its combination. -/
def State.channelRec (s : State) (b i : Nat) : Option Rec :=
  match s.rec? b 1 i with
  | some r => some r
  | none => s.cfg.recs.find? (fun r => r.block == b && r.typ == 1 && r.inst == i)

/-- The orphan states of every channel, from their records; off for a channel without one. -/
def orphanTable (s : State) : OrphanTable :=
  let kind (keep x : Nat) : BitVec 2 := if x = keep then 1 else if x = 2 then 2 else 0
  { hso := Vector.ofFn (fun i => match s.channelRec 5 i.val with
      | some r => { kind := kind 0 (r.f 5 8 2), duty := r.f 5 12 13 } | none => {}),
    vlv := Vector.ofFn (fun i => match s.channelRec 7 i.val with
      | some r => { kind := kind 1 (r.f 1 11 2), level := r.f 2 0 12 } | none => {}),
    led := Vector.ofFn (fun i => match s.channelRec 9 i.val with
      | some r => { kind := kind 0 (r.f 1 17 2), duty := r.f 2 10 12, level := r.f 2 0 10 } | none => {}),
    fio := Vector.ofFn (fun i => match s.channelRec 11 i.val with
      | some r => { kind := kind 0 (r.f 0 22 2), duty := r.f 1 0 13 } | none => {}) }

end Sys2Proof.Machine
end

