-- ==== Sys2Proof/Machine/Bezel.lean ====
section
/-! DEFINITION. The BEZEL block: reclaim and the hold window, watchdogs, traps, Limp, the log and its mirror, and supply
loss (R580 to R609). -/

namespace Sys2Proof.Machine

/-! ## Host commands -/

/-- BEZEL_RECLAIM acts (R588): each held channel named becomes the host's as it stands. RESULT0 counts them. -/
def actBezelReclaim (hso : BitVec 64) (led : BitVec 12) (fioLo : BitVec 32) (fioHi : BitVec 16) (a : Act) (s : State) :
    State :=
  let h := maskList (hso &&& s.bezel.heldHso)
  let l := maskList (led &&& s.bezel.heldLed)
  let f := maskList ((fioHi ++ fioLo : BitVec 48) &&& s.bezel.heldFio)
  let s := f.foldl fioReclaim (l.foldl ledReclaim (h.foldl hsoReclaim s))
  finish s a 0 (h.length + l.length + f.length)

/-- BEZEL_RECLAIM. -/
def execBezelReclaim (d : Desc) (hso : BitVec 64) (led : BitVec 12) (fioLo : BitVec 32) (fioHi : BitVec 16) (s : State) :
    Host.Outcome State Fault Refusal :=
  .next (accept d (.bezelReclaim hso led fioLo fioHi) (actBezelReclaim hso led fioLo fioHi) s)

/-- The 32 bytes of a log entry (Table 16.6). -/
def BzEntry.bytes (e : BzEntry) : List (BitVec 8) :=
  let b := bytesOf 4 e.seq.toNat ++ bytesOf 2 e.event.toNat ++ bytesOf 1 e.mode.toNat ++ [0] ++ bytesOf 8 e.time.toNat
    ++ bytesOf 4 e.boot.toNat ++ bytesOf 4 e.data0.toNat ++ bytesOf 4 e.data1.toNat
  b ++ bytesOf 4 (crc32c b).toNat

/-- BEZEL status LOG_SHORT. -/
def logShort : Nat := 0x80

/-- BEZEL_LOG_READ acts (R609): the entries, oldest first, into a buffer of at least 1024 bytes. -/
def actBezelLogRead (a : Act) (s : State) : State :=
  if a.d.payLen.toNat < 1024 then refuse s a logShort
  else
    let w := putBytes s a.d.ring a.d.payAddr.toNat (s.bezel.log.flatMap BzEntry.bytes)
    if w.1 < 32 * s.bezel.log.length then finishAs w.2 a stMemUe 0 w.1
    else finish w.2 a 0 s.bezel.log.length s.bezel.logSeq.toNat

/-- BEZEL_LOG_READ. -/
def execBezelLogRead (d : Desc) (s : State) : Host.Outcome State Fault Refusal :=
  .next (accept d .bezelLogRead actBezelLogRead s)

/-- BEZEL_RESET_REQ acts: OK, and the action follows 1 ms later (Table 16.8). -/
def actBezelResetReq (limp : BitVec 1) (a : Act) (s : State) : State :=
  finish { s with bezel.resetReq := some (s.clk.ns + ms, limp == 1) } a

/-- BEZEL_RESET_REQ. -/
def execBezelResetReq (d : Desc) (limp : BitVec 1) (s : State) : Host.Outcome State Fault Refusal :=
  .next (accept d (.bezelResetReq limp) (actBezelResetReq limp) s)

/-- RESET_REQ_ACTION (R609). -/
def execResetReqAction (s : State) : Host.Outcome State Fault Refusal :=
  .next (match s.bezel.resetReq with
    | none => s
    | some (t, limp) =>
      let s := { s.reach t with bezel.resetReq := none }
      if limp then limpNow s else plainReset s .software)

/-! ## Watchdogs (R595 to R598) -/

/-- Watchdog 0 counts: EN is 1 and PD_HOST is On. -/
def State.wdtRuns (s : State) : Bool := s.bezel.wdtEn && s.isOn .host

/-- A watchdog expires: event 0x1102, its EXPIRED bit, then its action. A second expiry of watchdog 3 within 10 min resets
the device. -/
def wdtExpire (s : State) (w : Nat) : State :=
  let s := logEvent { s with bezel.wdtExpired := setBit s.bezel.wdtExpired w true } 0x1102 [w]
  match w with
  | 0 => if s.bezel.wdtAction then limpNow s else deviceReset s .watchdog 0 0
  | 3 =>
    let again := match s.bezel.wdt3At with
      | some t => decide (s.clk.ns < t + 600 * sec)
      | none => false
    if again then deviceReset s .watchdog 3 0
    else { s with bezel.wdt3At := some s.clk.ns, bezel.kcSuspended := some (s.clk.ns + sec) }
  | _ => deviceReset s .watchdog (BitVec.ofNat 8 w) 0

/-- WATCHDOG_EXPIRY: only a watchdog that counts expires (Table 16.3). -/
def execWatchdogExpiry (watchdog : Fin 4) (s : State) : Host.Outcome State Fault Refusal :=
  .next (match watchdog.val with
    | 0 => if s.wdtRuns then wdtExpire (s.reach (s.bezel.lastKick + s.bezel.wdtTimeout.toNat * ms)) 0 else s
    | 3 => if s.isOn .sec then wdtExpire s 3 else s
    | w => if s.isOn .svc then wdtExpire s w else s)

/-- A write to BEZEL_WDT_KICK (R596): the count restarts and NEXT takes a new value, which is left open; a wrong or early
kick expires the watchdog. A watchdog that does not count takes no kick. -/
def kickWrite (s : State) (v : BitVec 32) : State :=
  if !s.wdtRuns then s
  else
    let early := match s.bezel.kickAt with
      | some t => decide (s.clk.ns < t + s.bezel.wdtMin.toNat * ms)
      | none => false
    if v.setWidth 16 != s.bezel.wdtNext || early then wdtExpire s 0
    else
      let r := s.takeWord
      let n := r.1.setWidth 16
      { r.2 with bezel.lastKick := s.clk.ns, bezel.kickAt := some s.clk.ns,
                 bezel.wdtNext := if n = s.bezel.wdtNext then n + 1 else n }

/-! ## The hold window -/

/-- Channels that are held. -/
def State.heldCount (s : State) : Nat :=
  (maskList s.bezel.heldHso).length + (maskList s.bezel.heldVlv).length + (maskList s.bezel.heldLed).length
    + (maskList s.bezel.heldFio).length

/-- HOLD_WINDOW_EXPIRY (R589): each channel still held takes its orphan state, event 0x1103. -/
def execHoldWindowExpiry (s : State) : Host.Outcome State Fault Refusal :=
  .next (match s.bezel.holdEnd with
    | none => s
    | some t =>
      let s := s.reach t
      let n := s.heldCount
      let s := orphanWhere s s.bezel.heldHso.getLsbD s.bezel.heldVlv.getLsbD s.bezel.heldLed.getLsbD s.bezel.heldFio.getLsbD
      logEvent (clearHeld s) 0x1103 [n])

/-! ## Faults of the cores -/

/-- LOCKSTEP_MISMATCH (R581): event 0x1107, and a reset of type 6. -/
def execLockstepMismatch (s : State) : Host.Outcome State Fault Refusal :=
  .next (plainReset (logEvent (logEvent s 0x1107 []) 0x1106 [11, 3]) .bezel)

/-- SERVICE_CORE_TRAP (Table 16.4): a trap of SC0 or SC1 resets the device, one of KC acts as an expiry of watchdog 3. -/
def execServiceCoreTrap (core : SvcCore) (s : State) : Host.Outcome State Fault Refusal :=
  .next (match core with
    | .kc => wdtExpire (logEvent s 0x1106 [8, 2]) 3
    | .sc0 | .sc1 =>
      let r := takeDetail s
      escalate r.2 7 r.1 .reset)

/-! ## Limp (R601, R602) -/

/-- The duty that a map entry commands on a 10 ms tick: DUTY while its source is active, alternating with off under
FLASH. -/
def limpDuty (s : State) (r : Rec) : Nat :=
  let src := match r.f 0 0 2 with
    | 1 => fioActive s (r.f 0 2 6)
    | 2 => s.kl15On
    | _ => true
  let flash := r.f 0 17 7
  if src != (r.f 0 8 1 == 1) && (flash = 0 || s.bezel.limpTicks / flash % 2 = 0) then r.f 1 0 13 else 0

/-- An entry's duty reaches its output through the block; a duty that the output already has is not commanded again. -/
def limpCommand (s : State) (r : Rec) : State :=
  let duty := limpDuty s r
  let n := r.f 0 11 6
  match r.f 0 9 2 with
  | 0 =>
    let c := s.hsoCh n
    if c.cmdSt = 2 && c.cmdDuty.toNat = duty && c.st != .orphan && c.st != .held then s
    else hsoApply s n 2 duty (s.freePhase n) false
  | 1 =>
    let c := s.ledCh n
    let i := s.ledField n 2 0 10
    if c.cmdDim.toNat = duty % 4096 && c.cmdI.toNat = i && c.st != .orphan && c.st != .held then s
    else ledApply s n i (duty % 4096) none false
  | _ =>
    let c := s.fioCh n
    if c.cmdDuty.toNat = duty && c.outSt != 6 && c.outSt != 7 then s else fioApply s n duty (s.fioPhase n) false

/-- LIMP_MAP_TICK. -/
def execLimpMapTick (s : State) : Host.Outcome State Fault Refusal :=
  .next (if s.pwr.mode != .limp || !s.isOn .svc then s
    else
      let s := (s.recsOf 17 2).foldl limpCommand s
      { s with bezel.limpTicks := s.bezel.limpTicks + 1 })

/-- BEZEL_CFG LIMP_EXIT in s, 0 taken as 60. -/
def State.limpExit (s : State) : Nat := match s.recField 17 1 0 2 0 8 0 with | 0 => 60 | n => n

/-- LIMP_EXIT (R602): KL15 has been off long enough and every bus sleeps, event 0x1105 and a reset of type 7. -/
def execLimpExit (s : State) : Host.Outcome State Fault Refusal :=
  .next (if s.pwr.mode == .limp && !s.kl15On && s.busesAsleep then
    let s := s.reach (s.bezel.kl15OffAt + s.limpExit * sec)
    plainReset (logEvent s 0x1105 []) .limpExit
  else s)

/-! ## Mirror and supply loss -/

/-- MIRROR_ERASE_DONE (R606). -/
def execMirrorEraseDone (s : State) : Host.Outcome State Fault Refusal :=
  .next (if s.bezel.mirrorErasing then { s with bezel.mirrorErasing := false, bezel.mirrorSlot := 0, nor.mirror := [] } else s)

/-- Every program or erase of NOR stops; what was being written stays not valid (R196, R565, R654). -/
def norStop (s : State) : State :=
  let cut := !s.upd.writes.isEmpty
  { s with
    cfg.persisting := false, cfg.persistAct := none, cfg.persistImage := {},
    nor.boot0 := if cut && s.upd.copy1 then none else s.nor.boot0,
    nor.boot1 := if cut && !s.upd.copy1 then none else s.nor.boot1,
    upd.writes := [], upd.landing := [], loupe.programming := none }

/-- SUPPLY_LOSS (R607), in its four steps; `holdUpLeft` says whether at least 4 ms of hold-up are left. -/
def execSupplyLoss (holdUpLeft : Bool) (s : State) : Host.Outcome State Fault Refusal :=
  .next (
    let s := norStop (logEvent s 0x1108 [])
    let s := clearHeld (vlvAllOff (fioAllOff (lightsOff (hsoAllOff s))) stAbortedPower)
    let s := if holdUpLeft then mirrorLog s else { s with bezel.mirrorSkipped := true }
    { s with pwr.supplyLost := true })

/-- SUPPLY_RETURN: the rails of Table 2.7 have lost power-good with KL30_L (R696), so a device reset of type 4 follows
where they were up. -/
def execSupplyReturn (s : State) : Host.Outcome State Fault Refusal :=
  .next (
    if !s.pwr.supplyLost then s
    else
      let s := { s with pwr.supplyLost := false }
      match s.pwr.mode with
      | .park | .guard | .storage => if s.pwr.entering then plainReset s .escalation else s
      | _ => plainReset s .escalation)

end Sys2Proof.Machine
end

