-- ==== Sys2Proof/Machine/Can.lean ====
section
/-! DEFINITION. The CAN block: its descriptors, what happens to frames on the bus, errors, the schedule's windows and
the timers of its services (chapter 12). -/

namespace Sys2Proof.Machine

/-! ## CAN_TX -/

/-- Data length code of a length; none where no frame of the format has that length (Table 12.12). -/
def dlcOf (fmt len : Nat) : Option Nat :=
  match fmt with
  | 0 => if len ≤ 8 then some len else none
  | 1 => if len ≤ 8 then some len else match len with
    | 12 => some 9 | 16 => some 10 | 20 => some 11 | 24 => some 12 | 32 => some 13 | 48 => some 14 | 64 => some 15
    | _ => none
  | _ => if 1 ≤ len ∧ len ≤ 2048 then some 0 else none

/-- The channel allows frames of the format (Table 12.1, R75). -/
def State.fmtAllowed (s : State) (n fmt : Nat) : Bool :=
  match fmt with
  | 0 => true
  | 1 => s.canF n 2 1 == 1 && !s.pwr.rcClock
  | _ => 8 ≤ n && s.canF n 3 1 == 1 && !s.pwr.rcClock

/-- A command names a channel that is not enabled, or whose bus is ASLEEP or STANDBY (R476, R489). -/
def State.canAway (s : State) (n : Nat) : Bool :=
  10 ≤ n || !s.canEnabled n || s.busSt n == .asleep || s.busSt n == .standby

/-- A field that the frame's format does not have is set, or its length is not one of the format (Table 12.12). -/
def badFields (f : CanFrame) (useCf : Bool) (rtrDlc len : Nat) : Bool :=
  (f.rtr && (f.fmt != 0 || len != 0)) || (!f.rtr && rtrDlc != 0) || (f.brs && f.fmt != 1) || (useCf && !f.ide)
    || (f.fmt == 2 && f.ide) || (f.fmt != 2 && (f.sdt != 0 || f.vcid != 0 || f.sec || f.af != 0))

/-- CAN_TX acts (R440, R443, R449, R454, R476): a launch enters the head of the queue, any other frame its end. -/
def actCanTx (ch : BitVec 4) (fmt : BitVec 2) (brs ide rtr : BitVec 1) (cf : BitVec 3) (useCf : BitVec 1)
    (rtrDlc : BitVec 4) (id : BitVec 29) (sdt vcid : BitVec 8) (sec : BitVec 1) (af : BitVec 32) (a : Act) (s : State) :
    State :=
  let n := ch.toNat
  let len := a.payload.length
  let f : CanFrame :=
    { id := id, ide := ide == 1, rtr := rtr == 1, fmt := fmt, brs := brs == 1, sdt := sdt, vcid := vcid,
      sec := sec == 1, af := af, data := a.payload,
      dlc := BitVec.ofNat 4 (if rtr == 1 then rtrDlc.toNat else (dlcOf fmt.toNat len).getD 0) }
  if s.canAway n || (s.canCh n).listen || s.canRcBars n then refuse s a stRefusedState
  else if 2 ≤ (s.canCh n).conf.toNat then refuse s a canBusOff
  else if (s.canCh n).muted then refuse s a canMuted
  else if !s.fmtAllowed n fmt.toNat || badFields f (useCf == 1) rtrDlc.toNat len || (dlcOf fmt.toNat len).isNone then
    refuse s a canFormat
  else
    let x : TxFrame :=
      { frame := f, kind := .host a (if useCf == 1 then some cf.toNat else none),
        from_ := if a.fired && !a.late then a.d.due.toNat else 0 }
    let r := canQueue s n x a.fired
    if r.1 then netEval r.2 n else refuse s a canQueueFull

/-- CAN_TX. -/
def execCanTx (d : Desc) (ch : BitVec 4) (fmt : BitVec 2) (brs ide rtr : BitVec 1) (cf : BitVec 3) (useCf : BitVec 1)
    (rtrDlc : BitVec 4) (id : BitVec 29) (sdt vcid : BitVec 8) (sec : BitVec 1) (af : BitVec 32) (s : State) :
    Host.Outcome State Fault Refusal :=
  .next (accept d (.canTx ch fmt brs ide rtr cf useCf rtrDlc id sdt vcid sec af)
    (actCanTx ch fmt brs ide rtr cf useCf rtrDlc id sdt vcid sec af) s)

/-! ## The other descriptors -/

/-- CAN_TP_TX acts (R469, R470). -/
def actCanTpTx (ch : BitVec 4) (cf : BitVec 3) (da : BitVec 8) (prio : BitVec 3) (pgn : BitVec 18) (a : Act) (s : State) :
    State :=
  if s.canAway ch.toNat then refuse s a stRefusedState
  else if a.payload.length < 9 then refuse s a canFormat
  else
    netEval (tpRequest s { act := some a, cf := cf.toNat, ch := ch.toNat, da := da, prio := prio, pgn := pgn,
                           data := a.payload }) ch.toNat

/-- CAN_TP_TX. -/
def execCanTpTx (d : Desc) (ch : BitVec 4) (cf : BitVec 3) (da : BitVec 8) (prio : BitVec 3) (pgn : BitVec 18) (s : State) :
    Host.Outcome State Fault Refusal := .next (accept d (.canTpTx ch cf da prio pgn) (actCanTpTx ch cf da prio pgn) s)

/-- CAN_MODE acts: LISTEN is taken, and UNMUTE ends a mute (R454, R465). -/
def actCanMode (ch : BitVec 4) (listen unmute : BitVec 1) (a : Act) (s : State) : State :=
  let n := ch.toNat
  if !s.canEnabled n then refuse s a stRefusedState
  else
    let s := s.modCan n (fun c =>
      { c with listen := listen == 1, muted := c.muted && unmute != 1, txdAt := if unmute == 1 then [] else c.txdAt })
    finish (netEval (canSync s n) n) a

/-- CAN_MODE. -/
def execCanMode (d : Desc) (ch : BitVec 4) (listen unmute : BitVec 1) (s : State) : Host.Outcome State Fault Refusal :=
  .next (accept d (.canMode ch listen unmute) (actCanMode ch listen unmute) s)

/-- CAN_RECOVER acts: recovery starts in bus-off with BO_AUTO clear (R449). -/
def actCanRecover (ch : BitVec 4) (a : Act) (s : State) : State :=
  let n := ch.toNat
  if !s.canEnabled n || (s.canCh n).conf != 2 || s.canF n 4 1 == 1 then refuse s a stRefusedState
  else finish (s.modCan n (fun c => { c with conf := 3 })) a

/-- CAN_RECOVER. -/
def execCanRecover (d : Desc) (ch : BitVec 4) (s : State) : Host.Outcome State Fault Refusal :=
  .next (accept d (.canRecover ch) (actCanRecover ch) s)

/-- CAN_TT_WRITE acts: the message slot takes its new content, used from the next opening on (R458); CLEAR empties it. -/
def actCanTtWrite (ch : BitVec 4) (fmt : BitVec 2) (brs ide : BitVec 1) (slot : BitVec 5) (clear : BitVec 1)
    (id : BitVec 29) (a : Act) (s : State) : State :=
  let n := ch.toNat
  let f : CanFrame :=
    { id := id, ide := ide == 1, fmt := fmt, brs := brs == 1, data := a.payload,
      dlc := BitVec.ofNat 4 ((dlcOf fmt.toNat a.payload.length).getD 0) }
  if s.canAway n || (s.canCh n).listen || s.canRcBars n then refuse s a stRefusedState
  else if clear == 1 then
    finish (s.modCan n (fun c => { c with slots := vset c.slots slot.toNat none })) a
  else if fmt == 2 || !s.fmtAllowed n fmt.toNat || (f.brs && fmt != 1) || (dlcOf fmt.toNat a.payload.length).isNone then
    refuse s a canFormat
  else finish (s.modCan n (fun c => { c with slots := vset c.slots slot.toNat (some f) })) a

/-- CAN_TT_WRITE. -/
def execCanTtWrite (d : Desc) (ch : BitVec 4) (fmt : BitVec 2) (brs ide : BitVec 1) (slot : BitVec 5) (clear : BitVec 1)
    (id : BitVec 29) (s : State) : Host.Outcome State Fault Refusal :=
  .next (accept d (.canTtWrite ch fmt brs ide slot clear id) (actCanTtWrite ch fmt brs ide slot clear id) s)

/-- CAN_AC acts (R467): 0 claims the preferred address, 1 releases with cannot-claim, 2 claims ADDR afresh. -/
def actCanAc (cf : BitVec 3) (act : BitVec 2) (addr : BitVec 8) (a : Act) (s : State) : State :=
  let k := cf.toNat
  match s.rec? 12 4 k with
  | none => refuse s a stRefusedState
  | some r =>
    let n := r.f 2 24 4
    if s.canAway n then refuse s a stRefusedState
    else
      let s := s.modCf k (fun f => { f with ch := BitVec.ofNat 4 n })
      let s := match act.toNat with
        | 0 => claimStart s k (BitVec.ofNat 8 (r.f 2 0 8))
        | 1 => cannotClaim (logEvent s 0x0C0B [n, k]) k
        | _ => claimStart s k addr
      finish (netEval s n) a

/-- CAN_AC. -/
def execCanAc (d : Desc) (cf : BitVec 3) (act : BitVec 2) (addr : BitVec 8) (s : State) : Host.Outcome State Fault Refusal :=
  .next (accept d (.canAc cf act addr) (actCanAc cf act addr) s)

/-- CAN_READ acts (Table 12.12). -/
def actCanRead (ch : BitVec 4) (a : Act) (s : State) : State :=
  if !s.canEnabled ch.toNat then refuse s a stRefusedState
  else finish s a 0 (canStat s ch.toNat) (canErr s ch.toNat)

/-- CAN_READ. -/
def execCanRead (d : Desc) (ch : BitVec 4) (s : State) : Host.Outcome State Fault Refusal :=
  .next (accept d (.canRead ch) (actCanRead ch) s)

/-! ## Cancelling a frame (Table 12.3) -/

/-- Whether a frame answers a descriptor. -/
def frameOf (d : Desc) (f : TxFrame) : Bool :=
  match f.kind with
  | .host a _ => a.d.ring == d.ring && a.d.index == d.index
  | _ => false

/-- A cancel `c` reaches the frame of descriptor `d` on a channel: one on the bus keeps the cancel until its attempt ends;
any other completes CANCELLED and the cancel OK. None where the channel holds no such frame. -/
def canCancelOn (s : State) (d c : Desc) (n : Nat) : Option State :=
  let x := s.canCh n
  let ok (s : State) : State := netEval (complete s c stOk 0 s.weave.time.toNat 0 0) n
  match x.queue.find? (frameOf d) with
  | some f =>
    some (ok (txComplete (s.modCan n (fun x => { x with queue := x.queue.filter (fun g => !frameOf d g) })) f 0 stCancelled))
  | none =>
    match (List.range 3).find? (fun b => match vget x.tb b with | some f => frameOf d f | none => false) with
    | none => none
    | some b =>
      if x.onBus = some b then
        some (s.modCan n (fun x =>
          { x with tb := vset x.tb b ((vget x.tb b).map (fun f => { f with cancels := f.cancels ++ [c] })) }))
      else
        match vget x.tb b with
        | some f => some (ok (canFill (txComplete (freeTb s n b) f b stCancelled) n))
        | none => none

/-- A cancel reaches the CAN block; none where no channel holds the frame. -/
def canCancel (s : State) (d c : Desc) : Option State :=
  (List.range 10).foldl (fun (r : Option State) n => match r with | some x => some x | none => canCancelOn s d c n) none

/-! ## On the bus -/

/-- Some frame of the channel may start: it is enabled and Normal, its bus idle on this side and no back-off runs. -/
def State.canIdle (s : State) (n : Nat) : Bool :=
  let c := s.canCh n
  s.canNormal n && c.xcvr == 0 && c.conf.toNat < 2 && c.onBus.isNone && c.backoff.isNone

/-- The earliest Weave time at which a loaded launch may start, where nothing may start now. -/
def State.nextRipe (s : State) (n : Nat) : Option Nat :=
  ((List.range 3).filterMap (fun b => (vget (s.canCh n).tb b).map (fun f => f.from_))).foldl
    (fun (m : Option Nat) t => if t ≤ s.weave.time.toNat then m else match m with | none => some t | some x => some (min x t)) none

/-- CAN_SOF_COMMIT: the controller decides to drive the start-of-frame of its next frame (R441, R443, R444, R456). A
loaded launch that is the only frame waits for its DUE. -/
def execCanSofCommit (ch : Fin 10) (s : State) : Host.Outcome State Fault Refusal :=
  .next (if !s.canIdle ch then s
    else
      let s := if (s.startable ch).isEmpty then
          match s.nextRipe ch with | some t => s.reachWeave (BitVec.ofNat 64 t) | none => s
        else s
      match s.firstOf ch (s.startable ch) with
      | none => s
      | some b =>
        s.modCan ch (fun c =>
          { c with onBus := some b, busAt := s.clk.ns,
                   tb := vset c.tb b ((vget c.tb b).map (fun f => { f with sof := s.weave.time })) }))

/-- The loop delay is measured in the data phase of an FD or XL frame with its compensation enabled (R438). -/
def measureDelay (s : State) (n : Nat) (f : CanFrame) (delay : BitVec 7) : State :=
  let tdc := s.recField 12 1 n 4 0 32 0x00001E01
  if (f.fmt = 1 ∧ f.brs ∧ bitAt tdc 0) ∨ (f.fmt = 2 ∧ bitAt tdc 1) then s.modCan n (fun c => { c with tdcv := delay }) else s

/-- The frame that the channel has on the bus, with its buffer. -/
def State.onWire (s : State) (n : Nat) : Option (Nat × TxFrame) :=
  match (s.canCh n).onBus with
  | some b => (vget (s.canCh n).tb b).map (fun f => (b, f))
  | none => none

/-- What follows the end of any attempt: a deferred transceiver change, and need judged anew. -/
def afterFrame (s : State) (n : Nat) : State := netEval (canSync s n) n

/-- CAN_TX_SUCCESS: the frame on the bus ends with an acknowledgement (R446, R447, R450, R452). -/
def execCanTxSuccess (ch : Fin 10) (loopDelay : BitVec 7) (s : State) : Host.Outcome State Fault Refusal :=
  .next (match s.onWire ch with
    | none => s
    | some (b, f) =>
      let n := ch.val
      let f := { f with attempts := f.attempts + 1 }
      let s := measureDelay s n f.frame loopDelay
      let s := (freeTb s n b).modCan n (fun c => { c with tec := c.tec - 1, windowDone := c.windowDone || f.kind == .slot })
      let s := confine (endAckRun (s.send (.can n f.frame)) n) n
      let s := if f.cancels.isEmpty then txComplete s f b stOk
        else cancelsEnd (txComplete s f b stCancelTooLate) f stCancelTooLate
      let s := match f.kind with
        | .transport (some id) => tpSentOne s id
        | _ => s
      afterFrame (canFill (netSent s n f.kind true) n) n)

/-- The limit of retransmissions of a frame: RETRY_MAX, or none for a keep-alive (R480). -/
def State.retryMax (s : State) (n : Nat) (f : TxFrame) : Nat := if f.kind == .keepAlive then 0 else s.canF n 8 8

/-- A message of the schedule tries again only up to opening + LATE_MAX (R456). -/
def State.slotLate (s : State) (n : Nat) : Bool :=
  match s.schedRec n with
  | some r => !(s.canCh n).sched ||
      windowStart r (s.canCh n).cycle (s.canCh n).window + r.f 3 16 16 * 1000 < s.weave.time.toNat
  | none => true

/-- A frame's attempt has ended without success, and the frame stays or leaves: a waiting cancel takes it (Table 12.3), a
schedule message past LATE_MAX goes, `gone` ends it with a status. -/
def afterAttempt (s : State) (n b : Nat) (f : TxFrame) (gone : Option Nat) : State :=
  let s := s.modCan n (fun c => { c with onBus := none, tb := vset c.tb b (some f) })
  if !f.cancels.isEmpty then cancelsEnd (txComplete (freeTb s n b) f b stCancelled) f stOk
  else if f.kind == .slot then (if s.slotLate n then freeTb s n b else s)
  else match gone with
    | some st => txComplete (freeTb s n b) f b st
    | none => s

/-- CAN_TX_ERROR: the attempt on the bus suffers an error; `code` is the last error code of Table 12.17, and `dominant`
says that an error-passive transmitter saw a dominant bit in its error flag (R445, R448, R450, R451). -/
def execCanTxError (ch : Fin 10) (code : BitVec 3) (dominant : Bool) (loopDelay : BitVec 7) (s : State) :
    Host.Outcome State Fault Refusal :=
  .next (match s.onWire ch with
    | none => s
    | some (b, f) =>
      let n := ch.val
      let ack := code == 3
      let f := { f with attempts := f.attempts + 1, ackErrors := f.ackErrors + b2n ack, other := f.other || !ack }
      let s := measureDelay s n f.frame loopDelay
      let keep := (s.canCh n).conf == 1 && ack && !dominant
      let s := s.modCan n (fun c => { c with lec := code, tec := if keep then c.tec else c.tec + 8 })
      let s := if ack then countAck s n else s
      let s := startBackoff s n
      let gone := if s.retryMax n f < f.attempts then some (if f.other then canTxErrorStatus else stNoAck) else none
      let s := afterAttempt s n b f gone
      afterFrame (canFill (confine (netSent s n f.kind false) n) n) n)

/-- CAN_ARB_LOST: the frame tries again at the next bus idle, and the loss is no attempt (R445, R447). -/
def execCanArbLost (ch : Fin 10) (s : State) : Host.Outcome State Fault Refusal :=
  .next (match s.onWire ch with
    | none => s
    | some (b, f) => afterFrame (canFill (afterAttempt s ch b f none) ch) ch)

/-! ## Receiving -/

/-- The channel's transceiver and controller receive. -/
def State.canHears (s : State) (n : Nat) : Bool :=
  s.isOn .can && s.canEnabled n && s.busUp n && (s.canCh n).conf.toNat < 2

/-- The frame meets a filter (R462, Table 12.10). -/
def filterTakes (r : Rec) (f : CanFrame) : Bool :=
  f.ide == (r.f 0 29 1 == 1) && idAgrees f.id.toNat (r.f 0 0 29) (r.f 1 0 29)
    && (r.f 2 8 2 == 0 || r.f 2 8 2 == f.fmt.toNat + 1)

/-- The item of Table 12.5. -/
def canItem (f : CanFrame) : List (BitVec 8) :=
  let xl := f.fmt == 2
  bytesOf 4 (f.id.toNat + flag 29 f.ide + flag 30 f.rtr)
    ++ bytesOf 4 (f.fmt.toNat + flag 2 f.brs + flag 3 f.esi + field 4 (if xl then 0 else f.dlc.toNat) + field 8 f.data.length)
    ++ bytesOf 4 (if xl then f.sdt.toNat + field 8 f.vcid.toNat + flag 16 f.sec else 0)
    ++ bytesOf 4 (if xl then f.af.toNat else 0) ++ List.replicate 16 0 ++ f.data

/-- A tunnelled frame leaves for the manager (R540): an XL frame, and any frame without a link, is dropped and counted. -/
def tunnelFrame (s : State) (n : Nat) (f : CanFrame) (sof : BitVec 64) : State :=
  if f.fmt == 2 || !s.linkUp 0 then { s with plait.tunDrop := s.plait.tunDrop + 1 } else s.send (.tunnel n f sof)

/-- A received frame goes to the first filter that takes it (R462, R463), or is counted. -/
def filterFrame (s : State) (n : Nat) (f : CanFrame) (sof : BitVec 64) : State :=
  match (List.range 32).find? (fun i => match s.rec? 12 2 (32 * n + i) with | some r => filterTakes r f | none => false) with
  | none => s.modCan n (fun c => { c with noMatch := c.noMatch + 1 })
  | some i =>
    match s.rec? 12 2 (32 * n + i) with
    | none => s
    | some r =>
      if r.f 2 7 1 = 1 then tunnelFrame s n f sof
      else inbound s (r.f 2 0 7) 12 (i + field 8 n) sof.toNat (canItem f)

/-- An Expect window sees its frame: one that passes filter SLOT and began within the window (R456). -/
def expectSeen (s : State) (n : Nat) (f : CanFrame) (sof : BitVec 64) : State :=
  match s.schedRec n with
  | none => s
  | some r =>
    let c := s.canCh n
    let cell := s.openCell n r
    let passes := match s.rec? 12 2 (32 * n + cell.2) with | some q => filterTakes q f | none => false
    if c.sched && c.windowOpen && cell.1 == 2 && passes && windowStart r c.cycle c.window ≤ sof.toNat then
      s.modCan n (fun c => { c with windowDone := true })
    else s

/-- The ground-speed signal of SRC 1 (R646). -/
def speedFrame (s : State) (n : Nat) (f : CanFrame) : State :=
  match s.rec? 19 1 0 with
  | none => s
  | some r =>
    if r.f 0 0 2 = 1 ∧ r.f 0 2 4 = n ∧ f.ide = (r.f 1 29 1 == 1) ∧ idAgrees f.id.toNat (r.f 1 0 29) (r.f 2 0 29) ∧ !f.rtr then
      let i := r.f 0 12 3
      let v := ofBytes ((f.data.drop i).take 2)
      if i + 2 ≤ f.data.length then
        { s with upd.speed := if 0xFE00 ≤ v then 0xFFFF else BitVec.ofNat 16 v, upd.speedAt := some s.clk.ns }
      else s
    else s

/-- REC after a valid frame: one lower, or from above 127 some value from 119 to 127 (R448, the standard's choice). -/
def recvOk (s : State) (n : Nat) : State :=
  let c := s.canCh n
  if 127 < c.rcv then
    let r := s.takeNat
    r.2.modCan n (fun c => { c with rcv := 119 + r.1 % 9 })
  else s.modCan n (fun c => { c with rcv := c.rcv - 1 })

/-- CAN_FRAME_RX: a valid frame with its start-of-frame in Weave time. A format the channel does not enable is passed
over (R434). -/
def execCanFrameRx (ch : Fin 10) (frame : CanFrame) (sof : BitVec 64) (s : State) : Host.Outcome State Fault Refusal :=
  let n := ch.val
  .next (if !s.canHears n || !(frame.fmt == 0 || (frame.fmt == 1 && s.canF n 2 1 == 1) || (8 ≤ n && frame.fmt == 2 && s.canF n 3 1 == 1))
    then s
    else
      let s := confine (recvOk s n) n
      let s := endAckRun s n
      let s := expectSeen s n frame sof
      let s := netSeen s n frame
      let s := filterFrame s n frame sof
      let s := speedFrame s n frame
      netEval (servicesRx s n frame) n)

/-- CAN_RX_ERROR: an error in a frame of another node raises REC by 1, or by 8 where a dominant bit follows the error
flag (R448). -/
def execCanRxError (ch : Fin 10) (code : BitVec 3) (dominant : Bool) (s : State) : Host.Outcome State Fault Refusal :=
  .next (if !s.canHears ch then s
    else confine (s.modCan ch (fun c => { c with lec := code, rcv := c.rcv + (if dominant then 8 else 1) })) ch)

/-- PROTOCOL_EXCEPTION: a format the channel does not enable changes no counter (R434). -/
def execProtocolException (_ch : Fin 10) (s : State) : Host.Outcome State Fault Refusal := .next s

/-! ## Bus-off, ALONE and mute -/

/-- BUS_OFF_WAIT_EXPIRY: with BO_AUTO, recovery starts BO_WAIT × 10 ms after entry (R449). -/
def execBusOffWaitExpiry (ch : Fin 10) (s : State) : Host.Outcome State Fault Refusal :=
  let c := s.canCh ch
  .next (if c.conf == 2 && s.canF ch 4 1 == 1 then
    (s.reach (c.boAt + s.canF ch 16 8 * 10 * ms)).modCan ch (fun c => { c with conf := 3 }) else s)

/-- BUS_OFF_RECOVERED: the counters are 0, event 0x0C03, and claims are sent again (R449). -/
def execBusOffRecovered (ch : Fin 10) (s : State) : Host.Outcome State Fault Refusal :=
  .next (if (s.canCh ch).conf == 3 then
    let s := s.modCan ch (fun c => { c with conf := 0, tec := 0, rcv := 0 })
    netEval (claimAgain (canSync (logEvent s 0x0C03 [ch.val]) ch) ch) ch
    else s)

/-- ALONE_BACKOFF_EXPIRY: the back-off ends and the next attempt may start (R451). -/
def execAloneBackoffExpiry (ch : Fin 10) (s : State) : Host.Outcome State Fault Refusal :=
  .next (match (s.canCh ch).backoff with
    | some t => (s.reach t).modCan ch (fun c => { c with backoff := none })
    | none => s)

/-- TXD_TIMEOUT: the transceiver releases the bus, event 0x0C06 (R453). -/
def execTxdTimeout (ch : Fin 10) (s : State) : Host.Outcome State Fault Refusal :=
  .next (logEvent (s.modCan ch (fun c =>
    { c with txdAt := (s.clk.ns :: c.txdAt).take 3 })) 0x0C06 [ch.val])

/-- The TXD time-out has acted three times within 1 s (R454). -/
def txdThrice (c : CanCh) : Bool :=
  match c.txdAt with
  | a :: _ :: z :: _ => a - z ≤ sec
  | _ => false

/-- Bezel mutes the channel to Listen-only (R454): every frame completes MUTED, and event 0x0C07 carries the cause. -/
def muteChannel (s : State) (n cause : Nat) : State :=
  let s := s.modCan n (fun c => { c with muted := true })
  netEval (canSync (logEvent (canDump s n canMuted false) 0x0C07 [n, cause]) n) n

/-- CHANNEL_MUTE: three TXD time-outs within 1 s, or a frame on the bus for more than 50 ms (R454). -/
def execChannelMute (ch : Fin 10) (s : State) : Host.Outcome State Fault Refusal :=
  let c := s.canCh ch
  .next (if txdThrice c then muteChannel s ch 0
    else if c.onBus.isSome then muteChannel (s.reach (c.busAt + 50 * ms)) ch 1
    else s)

/-! ## The schedule's windows -/

/-- The window opens: an Exclusive window loads its slot into TB2 (R456). -/
def openWindow (s : State) (n : Nat) (r : Rec) (k w : Nat) : State :=
  let s := s.reachWeave (BitVec.ofNat 64 (windowStart r k w))
  let cell := schedCell r (k % s.schedRows n) w
  s.modCan n (fun c =>
    { c with cycle := k, window := w, windowOpen := true, windowDone := false,
             tb := if c.onBus == some 2 then c.tb
                   else vset c.tb 2 (if cell.1 = 1 then (vget c.slots cell.2).map (fun f => { frame := f, kind := .slot })
                                     else none) })

/-- First cycle of a matrix that begins at or after a Weave time. -/
def nextMatrix (r : Rec) (rows t : Nat) : Nat :=
  let per := schedLen r * rows * 1000
  if per = 0 ∨ t ≤ r.w 2 * 1000 then 0 else (t - r.w 2 * 1000 + per - 1) / per * rows

/-- A window closes (R457): an Exclusive message that was not sent, unless its slot was never written, and an Expect
window without its frame are missed. `began` says that the frame an Expect window waits for is on the bus. -/
def closeWindow (s : State) (n : Nat) (r : Rec) (began : Bool) : State :=
  let c := s.canCh n
  if !c.windowOpen then s
  else
    let cell := s.openCell n r
    let missed := match cell.1 with
      | 1 => (vget c.slots cell.2).isSome && !c.windowDone && c.onBus != some 2
      | 2 => !c.windowDone && !began
      | _ => false
    let s := s.modCan n (fun c =>
      { c with windowOpen := false, tb := if c.onBus == some 2 then c.tb else vset c.tb 2 none })
    let s := if missed then
        logEvent (s.modCan n (fun c => { c with missed := c.missed + 1 })) 0x0C08 [n, c.cycle % s.schedRows n, c.window, cell.1]
      else s
    if c.schedEnding && c.window + 1 == schedWin r then schedStop s n 0 else s

/-- SCHED_WINDOW_OPEN: the next window of a running schedule opens, or a schedule whose conditions hold starts at the
next matrix start (R455, R459). -/
def execSchedWindowOpen (ch : Fin 10) (s : State) : Host.Outcome State Fault Refusal :=
  let n := ch.val
  .next (match s.schedRec n with
    | none => s
    | some r =>
      let s := schedCheck s n
      if (s.canCh n).sched then
        let s := closeWindow s n r false
        if (s.canCh n).sched then
          let x := nextWindow r (s.canCh n).cycle (s.canCh n).window
          openWindow s n r x.1 x.2
        else s
      else if s.schedMay n && s.schedTimed n then
        let k := nextMatrix r (s.schedRows n) s.weave.time.toNat
        let s := s.modCan n (fun c => { c with sched := true, schedEnding := false, cycle := k, window := 0 })
        openWindow (logEvent (s.reachWeave (BitVec.ofNat 64 (cycleStart r k))) 0x0C09 [n, 0xFF]) n r k 0
      else s)

/-- SCHED_LATE_MAX: a message not committed by opening + LATE_MAX is not sent in this window (R456). -/
def execSchedLateMax (ch : Fin 10) (s : State) : Host.Outcome State Fault Refusal :=
  let n := ch.val
  .next (match s.schedRec n with
    | none => s
    | some r =>
      let c := s.canCh n
      if c.sched && c.windowOpen && (s.openCell n r).1 == 1 then
        let s := s.reachWeave (BitVec.ofNat 64 (windowStart r c.cycle c.window + r.f 3 16 16 * 1000))
        if c.onBus == some 2 then s else s.modCan n (fun c => { c with tb := vset c.tb 2 none })
      else s)

/-- SCHED_WINDOW_CLOSE (R457). -/
def execSchedWindowClose (ch : Fin 10) (began : Bool) (s : State) : Host.Outcome State Fault Refusal :=
  let n := ch.val
  .next (match s.schedRec n with
    | none => s
    | some r =>
      let c := s.canCh n
      if c.sched && c.windowOpen then
        let x := nextWindow r c.cycle c.window
        closeWindow (s.reachWeave (BitVec.ofNat 64 (windowStart r x.1 x.2))) n r began
      else s)

/-! ## Timers of the services -/

/-- ADDRESS_CLAIM_TIMEOUT: the claimed address is held, event 0x0C0A (R467). -/
def execAddressClaimTimeout (cf : Fin 8) (s : State) : Host.Outcome State Fault Refusal :=
  let f := vget s.can.cf cf
  .next (if f.st == 1 then
    let s := s.modCf cf (fun f => { f with st := 2, addr := f.want })
    netEval (logEvent s 0x0C0A [f.ch.toNat, cf.val, f.want.toNat]) f.ch.toNat
    else s)

/-- A sending session's timer fires: the next packet of a broadcast 50 ms after the last, success after the last one,
or a time-out (R469, R470). -/
def tpSendTimer (s : State) (x : TpSend) : State :=
  match x.wait with
  | .packet =>
    let s := s.reach (x.lastAt + 50 * ms)
    if x.sent < x.upTo then tpNext s x else tpEnd s x stOk 0 x.data.length
  | .peer =>
    let s := logEvent (tpSendAbort s x abTimeout) 0x0C0C [x.ch, x.cf, x.pgn.toNat, abTimeout]
    tpEnd s x stTimeout 0 0

/-- TP_TIMER: a timer of a sending or receiving session fires. -/
def execTpTimer (sending : Bool) (session : Fin 32) (s : State) : Host.Outcome State Fault Refusal :=
  .next (if sending then
      match s.sendOf session with
      | some x => netEval (tpSendTimer s x) x.ch
      | none => s
    else
      match s.can.tpRecv.find? (fun y => y.id == session.val) with
      | some y =>
        let s := if y.bam then s else recvCm s y [0xFF, BitVec.ofNat 8 abTimeout, 0xFF, 0xFF, 0xFF]
        netEval (logEvent (recvEnd s y) 0x0C0C [y.ch, y.cf, y.pgn.toNat, abTimeout]) y.ch
      | none => s)

end Sys2Proof.Machine
end

