-- ==== Sys2Proof/Machine/Cfg.lean ====
section
/-! DEFINITION. The CFG block: staging, COMMIT and its check, the apply tick, persists, export and fleet commits
(R195 to R218, R223 to R232). -/

namespace Sys2Proof.Machine

/-! ## Staging -/

/-- The stage is sealed by a commit, or prepared for one (R209). -/
def State.stageLocked (s : State) : Bool := s.cfg.stageSt == .sealed || s.cfg.stageSt == .prepared

/-- CONFIG_STAGE acts (R197, R198): its records are staged whole or not at all. -/
def actConfigStage (a : Act) (s : State) : State :=
  if s.stageLocked then refuse s a stageSealed
  else match stageRecs (a.payload.length + 1) a.payload [] with
    | .error st => refuse s a st
    | .ok rs =>
      let stage := rs.foldl stageAdd s.cfg.stage
      if 48 * 1024 < stageBytes stage then refuse s a stageFull
      else
        let s := { s with cfg.stage := stage }
        finish { s with cfg.stageSt := s.looseStage } a

/-- CONFIG_STAGE. -/
def execConfigStage (d : Desc) (s : State) : Host.Outcome State Fault Refusal :=
  .next (accept d .configStage actConfigStage s)

/-- The source and the limit of the image of a CONFIG_LOAD. -/
def loadSource (s : State) (d : Desc) : ImageSrc :=
  if (s.ringN d.ring).remote then .bytes d.fetched else .mem d.payAddr.toNat

/-- CONFIG_LOAD acts (R199 to R201): the image replaces the whole stage. An image that came over the bridge is held as
it was fetched. -/
def actConfigLoad (a : Act) (s : State) : State :=
  if s.stageLocked then refuse s a stageSealed
  else
    let r := readImage (loadSource s a.d) a.d.payLen.toNat s
    match r.1 with
    | .error e => refuse r.2 a e.status 0 e.off
    | .ok m =>
      if r.2.foreign m && !r.2.cfg.takeover then refuse r.2 a takeoverRequired
      else
        finish { r.2 with
          cfg.stage := [], cfg.loadImage := m, cfg.stageSt := .opened,
          cfg.load := some (a.d.payAddr.toNat, if (r.2.ringN a.d.ring).remote then 0 else a.d.payLen.toNat) } a

/-- CONFIG_LOAD. -/
def execConfigLoad (d : Desc) (s : State) : Host.Outcome State Fault Refusal :=
  .next (accept d .configLoad actConfigLoad s)

/-- STAGE_DISCARD acts (R203). -/
def actStageDiscard (a : Act) (s : State) : State :=
  if s.stageLocked then refuse s a stageSealed else finish (clearStage s) a

/-- STAGE_DISCARD. -/
def execStageDiscard (d : Desc) (s : State) : Host.Outcome State Fault Refusal :=
  .next (accept d .stageDiscard actStageDiscard s)

/-- CONFIG_EXPORT acts (R231): the running image with FIELDED set, or nothing where the buffer is shorter. -/
def actConfigExport (a : Act) (s : State) : State :=
  let bs := Image.bytes { fielded := true, seq := s.runSeq, machineId := s.cfg.machineId, recs := s.cfg.recs }
  if a.d.payLen.toNat < bs.length then refuse s a exportShort 0 bs.length
  else
    let w := putBytes s a.d.ring a.d.payAddr.toNat bs
    if w.1 < bs.length then refuse w.2 a stMemUe 0 w.1 else finish w.2 a 0 bs.length

/-- CONFIG_EXPORT. -/
def execConfigExport (d : Desc) (s : State) : Host.Outcome State Fault Refusal :=
  .next (accept d .configExport actConfigExport s)

/-! ## Staged registers (R202, R718) -/

/-- The record over which a write to a staged register is made: the one that the stage leaves for the present mode, or,
where there is none, the register's default words for the modes that no record of its combination holds. -/
def State.stagedBase (s : State) (b t i : Nat) (dflt : List (BitVec 32)) : Rec :=
  match recOf s.effective s.pwr.mode b t i with
  | some r => r
  | none =>
    let held := (s.effective.filter (fun r => r.block == b && r.typ == t && r.inst == i)).foldl
      (fun m r => m ||| r.modes) (0 : BitVec 12)
    { block := b, typ := t, inst := i, modes := 0xFFF#12 &&& ~~~held, body := dflt }

/-- A write to a staged register: word `w` of its record takes the value under a mask of writable bits. While the stage
is sealed, or would outgrow its 48 KiB, the write is lost (R718). -/
def stagedWrite (s : State) (addr b t i : Nat) (dflt : List (BitVec 32)) (w : Nat) (mask v : BitVec 32) : State :=
  let lost := logEvent { s with sys.stageWrLost := true } 0x0005 [addr]
  if s.stageLocked then lost
  else
    let r := s.stagedBase b t i dflt
    let body := r.body.set w ((r.body.getD w 0 &&& ~~~mask) ||| (v &&& mask))
    let stage := stageAdd s.cfg.stage { r with body := body }
    if 48 * 1024 < stageBytes stage then lost else { s with cfg.stage := stage, cfg.stageSt := .opened }

/-! ## The apply tick -/

/-- The staged records become the running configuration. -/
def stageRecords (s : State) : State :=
  { s with
    cfg.recs := s.effective,
    cfg.machineId := if s.cfg.load.isSome then s.cfg.loadImage.machineId else s.cfg.machineId,
    cfg.empty := s.cfg.empty && s.effective.isEmpty, cfg.dirty := s.cfg.dirty || s.hasStage,
    cfg.persistDirty := s.cfg.persistDirty || s.hasStage, cfg.commit := none }

/-- The stage is emptied and event 0x0401 logged. -/
def stageApplied (s : State) : State :=
  let n := s.effective.length
  let s := clearStage (stageRecords s)
  logEvent s 0x0401 [s.runSeq.toNat, n]

/-- The orphan table and the retained hold window follow the records (Table 16.1). -/
def orphansAnew (s : State) : State := { s with bezel.orphans := orphanTable s, bezel.retWindow := s.bezel.holdWindow }

/-- Every staged change takes effect (R212): the records, MACHINE_ID of a loaded image, the registers, the orphan table and
hold window of retention RAM, the engines' programs, and the claims of the mode (R220). Event 0x0401, and 0x0409 for a
takeover image (R201). -/
def applyStage (s : State) : State :=
  let takeover := s.cfg.load.isSome && s.foreign s.cfg.loadImage
  let u := stageApplied s
  let u := recordRegs (if takeover then logEvent u 0x0409 [] else u) (s.rec? 17 1 0) (s.rec? 0 1 0)
  plSync (netAll (modeClaims (facetCommit (orphansAnew u) s.cfg.recs s.effective)))

/-- The copy that a persist writes: the one not loaded (R195); CFG_A where none is. -/
def State.persistsB (s : State) : Bool := s.cfg.loaded == 1

/-- SEQ that a persist writes: one more than that of the other copy. -/
def State.persistSeq (s : State) : BitVec 32 := (if s.persistsB then s.cfg.seqA else s.cfg.seqB) + 1

/-- A persist begins: the copy that it writes is not valid until it ends (R195, R196). -/
def startPersist (s : State) (a : Option Act) : State :=
  { s with
    cfg.persisting := true, cfg.persistAct := a, cfg.persistDirty := false,
    cfg.persistImage := { seq := s.persistSeq, machineId := s.cfg.machineId, recs := s.cfg.recs },
    nor.cfgA := if s.persistsB then s.nor.cfgA else none, nor.cfgB := if s.persistsB then none else s.nor.cfgB }

/-- PERSIST_DONE (R195, R216): the written copy is the loaded one, or the settings stay applied and DIRTY. An image longer
than R188 allows fails. -/
def execPersistDone (ok : Bool) (s : State) : Host.Outcome State Fault Refusal :=
  .next (
    if !s.cfg.persisting then s
    else
      let m := s.cfg.persistImage
      let b := s.persistsB
      let act := s.cfg.persistAct
      let s := { s with cfg.persisting := false, cfg.persistAct := none, cfg.persistImage := {} }
      if ok && m.bytes.length ≤ 1048576 then
        let s := if b then
            { s with nor.cfgB := some m, cfg.loaded := 2, cfg.seqB := m.seq, cfg.bValid := true }
          else { s with nor.cfgA := some m, cfg.loaded := 1, cfg.seqA := m.seq, cfg.aValid := true }
        let s := { s with cfg.dirty := s.cfg.persistDirty }
        match act with
        | some a => finish s a 0 0 m.seq.toNat
        | none => s
      else
        let s := if b then { s with cfg.seqB := 0, cfg.bValid := false } else { s with cfg.seqA := 0, cfg.aValid := false }
        let s := logEvent s 0x0405 []
        match act with
        | some a => finishAs s a persistFailed
        | none => s)

/-! ## COMMIT -/

/-- The mode allows a commit (R218); one that applies a CONFIG_LOAD is refused in Field and Road too. -/
def State.commitMode (s : State) (load : Bool) : Bool :=
  match s.pwr.mode with
  | .accessory | .run | .service => true
  | .field | .road => !load
  | _ => false

/-- The refusals of a COMMIT in the order of R218; one that persists is refused in a trial too (R661). -/
def commitAdmit (persist : Bool) (s : State) : Nat :=
  if !s.commitMode s.cfg.load.isSome || (persist && s.onTrial) then stRefusedState
  else if s.stageLocked then stageSealed
  else if persist && s.cfg.persisting then persistBusy
  else stOk

/-- The stage is sealed and its check starts (R209). -/
def sealStage (s : State) (a : Act) (persist fleet : Bool) : State :=
  { s with cfg.commit := some { act := a, persist := persist, checking := true, fleet := fleet }, cfg.stageSt := .sealed }

/-- The stage is unsealed and kept (R206). -/
def unsealStage (s : State) : State := { s with cfg.commit := none, cfg.stageSt := s.looseStage }

/-- The apply tick of a COMMIT: the mode is judged again (R218). -/
def commitApply (s : State) (c : Commit) : State :=
  if !s.commitMode s.cfg.load.isSome then dropAct (unsealStage s) c.act stRefusedState
  else
    let s := applyStage s
    if c.persist then startPersist s (some c.act) else finish s c.act

/-- COMMIT acts: without a due time it seals the stage; on its fire tick it applies, or waits for a check that still runs
(R209 to R213). -/
def actCommit (persist : BitVec 1) (a : Act) (s : State) : State :=
  if a.fired then
    match s.cfg.commit with
    | none => s
    | some c => if c.checking then { s with cfg.commit := some { c with act := a } } else commitApply s { c with act := a }
  else
    let st := commitAdmit (persist == 1) s
    if st ≠ stOk then refuse s a st else sealStage s a (persist == 1) false

/-- COMMIT. A launched one is judged and sealed at acceptance. -/
def execCommit (d : Desc) (persist : BitVec 1) (s : State) : Host.Outcome State Fault Refusal :=
  .next (acceptWith d (.commit persist) (actCommit persist) (commitAdmit (persist == 1))
    (fun s => sealStage s { d := d } (persist == 1) false) s)

/-- A descriptor leaves the launch queue. -/
def unqueue (s : State) (d : Desc) : State :=
  { s with weave.queue := s.weave.queue.filter (fun e => match e.host with
      | some (x, _) => !(x.ring == d.ring && x.index == d.index)
      | none => true) }

/-- The registers and the event of a failed check (R206). -/
def reportFail (s : State) (f : Fail) : State :=
  logEvent { s with
    cfg.failCheck := BitVec.ofNat 8 f.check, cfg.failMode := BitVec.ofNat 4 f.mode, cfg.failCount := satInc s.cfg.failCount,
    cfg.failA := BitVec.ofNat 32 f.a, cfg.failB := BitVec.ofNat 32 f.b, cfg.failResBlock := BitVec.ofNat 8 f.resBlock,
    cfg.failRes := BitVec.ofNat 16 f.res } 0x0402 [f.check, f.mode, f.a, f.b]

/-- DETAIL of Table 5.3. -/
def Fail.detail (f : Fail) : Nat := f.check + field 8 f.mode

/-- What the check of a sealed stage found: nothing, a status of R733 with its RESULT0, or a failed check. -/
inductive Verdict where
  | pass
  | image (e : ImageFail)
  | fails (f : Fail)
  deriving Repr

/-- The check of R204 over the stage. An image of CONFIG_LOAD is read and checked again first (R199). -/
def judgeStage (s : State) : Verdict × State :=
  let r : Option ImageFail × State := match s.cfg.load with
    | some (a, n) =>
      if n = 0 then (none, s)
      else match readImage (.mem a) n s with
        | (.error e, s) => (some e, s)
        | (.ok m, s) => (none, { s with cfg.loadImage := m })
    | none => (none, s)
  match r.1 with
  | some e => (.image e, r.2)
  | none => match checkAll r.2 r.2.effective with
    | some f => (.fails f, r.2)
    | none => (.pass, r.2)

/-! ## Fleet commits (R223 to R230) -/

/-- A FLEET message with its first byte and what it adds. -/
def fleetMsg (s : State) (w : Nat) (id : BitVec 8) (kind : Nat) (more : List (BitVec 8)) : State :=
  plaitMsg s w 3 (BitVec.ofNat 8 kind :: more) id

/-- Workers that a fleet mask names. -/
def fleetWorkers (mask : BitVec 32) : List Nat := (maskList mask).filter (· != 0)

/-- CFG_FLEET_CFG as it runs: 0 is taken as 1. -/
def State.voteNs (s : State) : Nat := max 1 s.cfg.voteTo.toNat * ms
def State.fleetHoldNs (s : State) : Nat := max 1 s.cfg.hold.toNat * sec

/-- The manager sends ABORT to every named worker (R223): no member applies, event 0x0406 with the identifier and the
cause. -/
def fleetAbortAll (s : State) (f : Fleet) (cause : Nat) : State :=
  let s := (fleetWorkers f.mask).foldl (fun s w => fleetMsg s w s.cfg.fleetId 5 []) s
  let s := if f.mask.getLsbD 0 && s.stageLocked then unsealStage s else s
  logEvent { s with cfg.fleetPhase := 3, cfg.fleet := some { f with aborted := cause } } 0x0406 [s.cfg.fleetId.toNat, cause]

/-- A fleet commit ends at once with a status, after ABORT. -/
def fleetEnd (s : State) (f : Fleet) (cause status : Nat) : State :=
  let s := fleetAbortAll s f cause
  dropAct (unqueue { s with cfg.fleet := none } f.act.d) f.act status

/-- Every named member has voted yes: APPLY goes out with DUE, unless DUE is less than 2 ms away (R223, R224). -/
def fleetVoted (s : State) (f : Fleet) : State :=
  if s.cfg.yes &&& f.mask != f.mask then s
  else if f.due.toNat < s.weave.time.toNat + 2 * ms then fleetEnd s f 3 stLate
  else
    let s := (fleetWorkers f.mask).foldl (fun s w => fleetMsg s w s.cfg.fleetId 3 (bytesOf 8 f.due.toNat)) s
    { s with cfg.fleetPhase := 2 }

/-- The refusals of FLEET_COMMIT: those of R218, a fleet commit that still runs, and a due time nearer than VOTE_TO and
2 ms (R224). -/
def fleetAdmit (d : Desc) (mask : BitVec 32) (persist : Bool) (s : State) : Nat :=
  let own := mask.getLsbD 0
  let now := s.weave.time.toNat
  if !s.commitMode (own && s.cfg.load.isSome) || (own && persist && s.onTrial) then stRefusedState
  else if (own && s.stageLocked) || s.cfg.fleet.any (fun f => !f.completed) then stageSealed
  else if own && persist && s.cfg.persisting then persistBusy
  else if d.due.toNat < now + s.voteNs + 2 * ms && now + 50 * us ≤ d.due.toNat then stLate
  else stOk

/-- FLEET_COMMIT is accepted: step 1 of R223, under an identifier that the spec leaves to the manager. -/
def fleetEnter (d : Desc) (mask : BitVec 32) (persist : Bool) (s : State) : State :=
  let r := s.takeWord
  let id : BitVec 8 := r.1.setWidth 8
  let s := { r.2 with
    cfg.fleet := some { act := { d := d }, mask := mask, persist := persist, due := d.due }, cfg.fleetPhase := 1,
    cfg.fleetId := id, cfg.yes := 0, cfg.ack := 0 }
  let s := if mask.getLsbD 0 then sealStage s { d := d } persist true else s
  let s := (fleetWorkers mask).foldl (fun s w => fleetMsg s w id 0 (bytesOf 1 (b2n persist))) s
  if mask = 0 then fleetVoted s { act := { d := d }, mask := mask, persist := persist, due := d.due } else s

/-- The manager's own part on DUE (step 4 of R223). -/
def fleetApplyOwn (s : State) (f : Fleet) : State :=
  if s.cfg.fleetPhase == 2 && f.mask.getLsbD 0 && s.cfg.commit.any (fun c => c.fleet) then
    let s := applyStage s
    let s := { s with cfg.lastApplied := s.cfg.fleetId }
    if f.persist then startPersist s none else s
  else s

/-- FLEET_COMMIT fires on DUE: the manager applies its own stage. Its completion is that of FLEET_COMMIT_DUE. -/
def actFleetCommit (a : Act) (s : State) : State :=
  match s.cfg.fleet with
  | some f => if f.completed then s else fleetApplyOwn { s with cfg.fleet := some { f with act := a } } f
  | none => s

/-- FLEET_COMMIT. -/
def execFleetCommit (d : Desc) (mask : BitVec 32) (persist : BitVec 1) (s : State) : Host.Outcome State Fault Refusal :=
  .next (acceptWith d (.fleetCommit mask persist) actFleetCommit (fleetAdmit d mask (persist == 1))
    (fleetEnter d mask (persist == 1)) s)

/-- FLEET_ABORT acts: ABORT goes out unless APPLY has been sent (R231). The FLEET_COMMIT that it ends completes
CANCELLED. -/
def actFleetAbort (a : Act) (s : State) : State :=
  match s.cfg.fleet with
  | some f =>
    if s.cfg.fleetPhase == 2 then refuse s a stCancelTooLate
    else if s.cfg.fleetPhase == 1 then finish (fleetEnd s f 4 stCancelled) a
    else finish s a
  | none => finish s a

/-- FLEET_ABORT. -/
def execFleetAbort (d : Desc) (s : State) : Host.Outcome State Fault Refusal :=
  .next (accept d .fleetAbort actFleetAbort s)

/-- A member votes no: the manager sends ABORT (step 5 of R223). -/
def fleetNo (s : State) (f : Fleet) (w : Nat) (detail : BitVec 16) : State :=
  fleetAbortAll s { f with no := some (w, detail) } 1

/-- A vote reaches the manager. -/
def fleetVote (s : State) (w : Nat) (yes : Bool) (detail : BitVec 16) : State :=
  match s.cfg.fleet with
  | some f =>
    if s.cfg.fleetPhase == 1 && f.mask.getLsbD w then
      if yes then fleetVoted { s with cfg.yes := setBit s.cfg.yes w true } f else fleetNo s f w detail
    else s
  | none => s

/-- FLEET_VOTE_RX. -/
def execFleetVoteRx (worker : Fin 32) (yes : Bool) (detail : BitVec 16) (s : State) : Host.Outcome State Fault Refusal :=
  .next (fleetVote s worker yes detail)

/-- FLEET_VOTE_TIMEOUT: a vote is missing at VOTE_TO (step 5 of R223). -/
def execFleetVoteTimeout (s : State) : Host.Outcome State Fault Refusal :=
  .next (match s.cfg.fleet with
    | some f => if s.cfg.fleetPhase == 1 then fleetAbortAll s f 2 else s
    | none => s)

/-- FLEET_COMMIT completes with its outcome (R228, Table 5.6). -/
def fleetOutcome (s : State) (f : Fleet) : State :=
  let s := { s with cfg.fleet := if s.cfg.fleetPhase == 2 then some { f with completed := true } else none }
  if s.cfg.fleetPhase == 2 then
    let acked := (s.cfg.ack ||| 1) &&& f.mask
    if acked = f.mask then
      let s := { s with cfg.fleet := none, cfg.fleetPhase := 0 }
      finish s f.act 0 acked.toNat (if f.persist && f.mask.getLsbD 0 then s.persistSeq.toNat else 0)
    else finishAs s f.act stWorkerUnreachable 0 acked.toNat (f.mask &&& ~~~acked).toNat
  else match f.no with
    | some (w, detail) => dropAct s f.act fleetNoVote 0 w detail.toNat
    | none => dropAct s f.act stTimeout 0 (f.mask &&& ~~~s.cfg.yes).toNat 0

/-- FLEET_COMMIT_DUE: DUE has come. An entry that still waits in Weave applies the manager's part first. -/
def execFleetCommitDue (s : State) : Host.Outcome State Fault Refusal :=
  .next (match s.cfg.fleet with
    | some f =>
      if f.completed then s
      else
        let s := s.reachWeave f.due
        let waits := s.inQueue f.act.d
        let a : Act := if waits then { d := f.act.d, fired := true, time := s.weave.time } else f.act
        let f := { f with act := a }
        let s := if waits then fleetApplyOwn (unqueue { s with cfg.fleet := some f } a.d) f else s
        let s := if s.cfg.fleetPhase == 1 then fleetAbortAll s f 2 else s
        match s.cfg.fleet with
        | some f => fleetOutcome s f
        | none => s
    | none => s)

/-- FLEET_APPLY_RETX: APPLY again to each worker that has not acknowledged it, until DUE plus HOLD (R227). -/
def execFleetApplyRetx (s : State) : Host.Outcome State Fault Refusal :=
  .next (match s.cfg.fleet with
    | some f =>
      if s.cfg.fleetPhase != 2 then s
      else if f.due.toNat + s.fleetHoldNs < s.weave.time.toNat then
        if f.completed then { s with cfg.fleet := none, cfg.fleetPhase := 0 } else s
      else (fleetWorkers (f.mask &&& ~~~s.cfg.ack)).foldl (fun s w =>
        fleetMsg s w s.cfg.fleetId 3 (bytesOf 8 f.due.toNat)) s
    | none => s)

/-- An event entry for worker `w`: into the EVT ring that its PLAIT_WIN record names (R538). -/
def workerEvent (s : State) (w block code d0 d1 : Nat) : State :=
  match s.plaitRec 2 w with
  | some r => if r.f 0 19 1 = 1 then postEvent s (r.f 0 12 7) block code s.weave.time.toNat d0 d1 else s
  | none => s

/-- APPLY_ACK reaches the manager (R227): a late one is an EVT entry 0x0408 with the worker number. -/
def fleetAck (s : State) (w : Nat) (late : Bool) : State :=
  match s.cfg.fleet with
  | some f =>
    if s.cfg.fleetPhase == 2 && f.mask.getLsbD w then
      let s := { s with cfg.ack := setBit s.cfg.ack w true }
      let s := if late then workerEvent s w 4 0x0408 w 0 else s
      if f.completed && ((s.cfg.ack ||| 1) &&& f.mask) == f.mask then { s with cfg.fleet := none, cfg.fleetPhase := 0 } else s
    else s
  | none => s

/-- FLEET_APPLY_ACK_RX. -/
def execFleetApplyAckRx (worker : Fin 32) (late : Bool) (s : State) : Host.Outcome State Fault Refusal :=
  .next (fleetAck s worker late)

/-- PREPARE reaches a worker (step 2 of R223). A stage that a commit already holds votes no. -/
def fleetPrepare (s : State) (id : BitVec 8) (persist : Bool) : State :=
  if s.stageLocked then fleetMsg s 0 id 2 (bytesOf 2 0)
  else sealStage { s with cfg.fleetId := id, cfg.fleetPersist := persist, cfg.fleetDue := none } {} persist true

/-- FLEET_PREPARE_RX. -/
def execFleetPrepareRx (id : BitVec 8) (persist : Bool) (s : State) : Host.Outcome State Fault Refusal :=
  .next (fleetPrepare s id persist)

/-- APPLY reaches a worker (R225, R227): a prepared one queues the apply for DUE, or for the next tick when DUE has passed,
and acknowledges; one that has it already acknowledges again. -/
def fleetApply (s : State) (id : BitVec 8) (due : BitVec 64) : State :=
  if s.cfg.fleetPhase == 4 && s.cfg.fleetId == id then
    let late := due.toNat < s.weave.time.toNat
    let e : Launch := { due := due, late := late,
                        fire := if late then s.weave.time + 4 else BitVec.ofNat 64 (tickBefore due.toNat) }
    let s := { s with cfg.fleetPhase := 5, cfg.fleetDue := some due, weave.queue := s.weave.queue ++ [e] }
    let s := if late then logEvent s 0x0408 [id.toNat] else s
    fleetMsg s 0 id 4 (bytesOf 1 (b2n late))
  else if (s.cfg.fleetPhase == 5 && s.cfg.fleetId == id) || (s.cfg.lastApplied == id && s.cfg.fleetDue.isSome) then fleetMsg s 0 id 4 (bytesOf 1 0)
  else s

/-- FLEET_APPLY_RX. -/
def execFleetApplyRx (id : BitVec 8) (due : BitVec 64) (s : State) : Host.Outcome State Fault Refusal :=
  .next (fleetApply s id due)

/-- The apply of a worker fires (step 4 of R223). -/
def actFleetApply (s : State) : State :=
  if s.cfg.fleetPhase == 5 then
    let persist := s.cfg.fleetPersist
    let s := applyStage s
    let s := { s with cfg.fleetPhase := 0, cfg.lastApplied := s.cfg.fleetId }
    if persist then startPersist s none else s
  else s

/-- ABORT reaches a worker before DUE (R225): the commit is given up and its stage unsealed and kept. -/
def fleetAbort (s : State) (id : BitVec 8) : State :=
  let mine := s.cfg.fleetPhase == 4 || s.cfg.fleetPhase == 5 || (s.cfg.fleet.isNone && s.cfg.commit.any (fun c => c.fleet))
  if mine && s.cfg.fleetId == id then
    let s := { s with cfg.fleetPhase := 3, cfg.fleetDue := none,
                      weave.queue := s.weave.queue.filter (fun e => e.host.isSome) }
    logEvent (unsealStage s) 0x0406 [id.toNat, 0]
  else s

/-- FLEET_ABORT_RX. -/
def execFleetAbortRx (id : BitVec 8) (s : State) : Host.Outcome State Fault Refusal := .next (fleetAbort s id)

/-- FLEET_HOLD_EXPIRY (R226): a prepared stage is discarded, event 0x0407. -/
def execFleetHoldExpiry (s : State) : Host.Outcome State Fault Refusal :=
  .next (if s.cfg.fleetPhase == 4 then
    logEvent { clearStage s with cfg.commit := none, cfg.fleetPhase := 0 } 0x0407 [s.cfg.fleetId.toNat]
  else s)

/-! ## The end of the check -/

/-- A COMMIT's check failed: it completes with the status and the stage is unsealed and kept (R199, R206). -/
def commitFail (s : State) (c : Commit) (v : Verdict) : State :=
  let s := unqueue (unsealStage s) c.act.d
  match v with
  | .pass => s
  | .image e => dropAct s c.act e.status 0 e.off 0
  | .fails f => dropAct (reportFail s f) c.act f.status f.detail f.a f.b

/-- A COMMIT's check passed: it applies on its due tick, or on the next tick when it has none or has fired already (R210,
R211). -/
def commitPass (s : State) (c : Commit) : State :=
  let s := { s with cfg.commit := some { c with checking := false } }
  if c.act.d.due == 0 || c.act.fired then
    let e : Launch := { host := some (c.act.d, .commit (if c.persist then 1 else 0)), due := c.act.d.due,
                        fire := s.weave.time + 4, late := c.act.d.due != 0 }
    { s with weave.queue := s.weave.queue ++ [e] }
  else s

/-- The check of a fleet member ends: the manager counts its own vote, a worker sends its vote and is prepared. -/
def fleetChecked (s : State) (c : Commit) (v : Verdict) : State :=
  let id := s.cfg.fleetId
  let s := match v with
    | .fails f => reportFail s f
    | _ => s
  let detail : BitVec 16 := match v with
    | .fails f => BitVec.ofNat 16 f.detail
    | _ => 0
  match s.cfg.fleet, v with
  | some _, .pass => fleetVote { s with cfg.commit := some { c with checking := false } } 0 true 0
  | some _, _ => fleetVote s 0 false detail
  | none, .pass =>
    fleetMsg { s with cfg.commit := some { c with checking := false }, cfg.stageSt := .prepared, cfg.fleetPhase := 4 } 0 id 1 []
  | none, _ => fleetMsg (unsealStage s) 0 id 2 (bytesOf 2 detail.toNat)

/-- COMMIT_CHECK_DONE (R204 to R206, R211, R223). -/
def execCommitCheckDone (s : State) : Host.Outcome State Fault Refusal :=
  .next (match s.cfg.commit with
    | none => s
    | some c =>
      if !c.checking then s
      else
        let r := judgeStage s
        if c.fleet then fleetChecked r.2 c r.1
        else match r.1 with
          | .pass => commitPass r.2 c
          | v => commitFail r.2 c v)

/-- TAKEOVER_EXPIRY (R201): ten minutes after it was set. -/
def execTakeoverExpiry (s : State) : Host.Outcome State Fault Refusal :=
  .next (if s.cfg.takeover then { s.reach (s.cfg.takeoverAt + 600 * sec) with cfg.takeover := false } else s)

end Sys2Proof.Machine
end

