-- ==== Sys2Proof/Machine/Loupe.lean ====
section
/-! DEFINITION. The LOUPE block: landing, commit and retry, control entries, clearing, reading and host marks (R611 to
R638). -/

namespace Sys2Proof.Machine

/-! ## Statuses (Table 17.7) -/

def clearStale : Nat := 0x80
def loupeMedia : Nat := 0x81
def notRecorded : Nat := 0x82
def readRange : Nat := 0x83

/-! ## Landing -/

/-- A landing that runs before a point of no return goes on to it once nothing is left (R626). -/
def landed (s : State) : State := if s.loupe.lastLanding then settleAll s else s

/-- LOUPE_HOLDOFF_END (R614). -/
def execLoupeHoldoffEnd (trigger : Fin 64) (s : State) : Host.Outcome State Fault Refusal :=
  .next { s with loupe.holdoff := setBit s.loupe.holdoff trigger false }

/-- Landing may begin a record now. -/
def State.mayLand (s : State) : Bool :=
  s.isOn .svc && s.loupe.programming.isNone && !s.loupe.full && !s.loupe.fault && !s.loupe.scanning

/-- RECORD_LAND (R620): the oldest staged record takes its SEQ and is programmed. One that reaches the erase front waits
(R629); one that does not fit leaves the log full (R627). -/
def execRecordLand (s : State) : Host.Outcome State Fault Refusal :=
  .next (match s.loupe.staged with
    | [] => s
    | x :: rest =>
      if !s.mayLand then s
      else match loupePlace s (loupeSize x.words.length) with
        | none => loupeFull s
        | some off =>
          if s.loupe.clearing && s.loupe.eraseFront ≤ off / sectorBytes then s
          else loupeProgram { s with loupe.staged := rest } x s.loupe.nextSeq off false)

/-- A record is lost after its SEQ was taken: the SEQ stands for the next one (R619), and the record is missed. -/
def landFails (s : State) (seq : BitVec 32) : State :=
  landed (loupeMiss { s with loupe.programming := none, loupe.nextSeq := seq })

/-- A record whose verify failed (R630, R631): its sector is bad and its COMMIT 0; it is retried once, with its SEQ, in the
next good sector. -/
def verifyFails (s : State) (x : LoupeStaged) (r : LoupeRec) (again : Bool) : State :=
  let k := r.off / sectorBytes
  let s := markBad (setCommit s r.off 0) k
  if again then landFails (if s.loupe.fault then s else loupeStop s) r.seq
  else if s.loupe.fault then landFails s r.seq
  else match goodSector s.loupe.bad (k + 1) with
    | some j => loupeProgram s x r.seq (j * sectorBytes) true
    | none => landFails (loupeFull s) r.seq

/-- RECORD_COMMIT (R620). -/
def execRecordCommit (verified : Bool) (s : State) : Host.Outcome State Fault Refusal :=
  .next (match s.loupe.programming with
    | none => s
    | some (x, r, again) =>
      if verified then landed (setCommit { s with loupe.programming := none } r.off (~~~r.seq))
      else verifyFails s x r again)

/-- LOUPE_CONTROL_TICK (R623). -/
def execLoupeControlTick (s : State) : Host.Outcome State Fault Refusal :=
  .next (if s.isOn .svc && s.loupe.missed != s.nor.loupe.missed then loupeControl s else s)

/-- LOUPE_LANDING_BOUND (R626): what is still staged is missed and the entry proceeds. -/
def execLoupeLandingBound (s : State) : Host.Outcome State Fault Refusal :=
  .next (if s.loupe.lastLanding then
    settleAll (stagedMissed { s with loupe.programming := none, loupe.lastLanding := false }) else s)

/-! ## Clearing -/

/-- LOUPE_CLEAR acts (R628, R629): the control entry, then the erase from sector 0. -/
def actLoupeClear (lastSeq : BitVec 32) (a : Act) (s : State) : State :=
  if lastSeq != seqPrev s.loupe.nextSeq || s.loupe.programming.isSome || s.loupe.scanning then refuse s a clearStale
  else
    let reopens := s.loupe.full || s.loupe.fault
    let s := { s with
      loupe.baseSeq := s.loupe.nextSeq, loupe.clears := s.loupe.clears + 1, loupe.full := false, loupe.fault := false,
      loupe.clearing := true, loupe.eraseFront := 0, loupe.writeOff := 0, loupe.clearActs := s.loupe.clearActs ++ [a] }
    let s := logEvent (loupeControl s) 0x1202 [s.loupe.baseSeq.toNat]
    if reopens then mediaFlag s false else s

/-- LOUPE_CLEAR. -/
def execLoupeClear (d : Desc) (lastSeq : BitVec 32) (s : State) : Host.Outcome State Fault Refusal :=
  .next (accept d (.loupeClear lastSeq) (actLoupeClear lastSeq) s)

/-- The clear is over once no good sector is left to erase: its descriptors complete. -/
def clearEnds (s : State) : State :=
  match goodSector s.loupe.bad s.loupe.eraseFront with
  | some _ => s
  | none =>
    let acts := s.loupe.clearActs
    acts.foldl (fun s a => finish s a 0 s.loupe.baseSeq.toNat)
      { s with loupe.clearing := false, loupe.eraseFront := loupeSectors, loupe.clearActs := [] }

/-- CLEAR_SECTOR_ERASED (R629, R630): bad sectors are not erased; one whose erase fails is bad from then on. -/
def execClearSectorErased (ok : Bool) (s : State) : Host.Outcome State Fault Refusal :=
  .next (
    if !s.loupe.clearing || !s.isOn .svc then s
    else match goodSector s.loupe.bad s.loupe.eraseFront with
      | none => clearEnds s
      | some k =>
        let s := { s with loupe.eraseFront := k + 1 }
        clearEnds (
          if ok then { s with nor.loupe.recs := s.nor.loupe.recs.filter (fun r => r.off / sectorBytes != k) }
          else markBad { s with nor.loupe.recs := s.nor.loupe.recs.map (fun r =>
            if r.off / sectorBytes = k then { r with commit := 0 } else r) } k))

/-! ## Reading and marking -/

/-- LOUPE_READ acts (R633): bytes of the record area as they stand, up to its end; MEDIA_FAULT once after a new fault
(R632). -/
def actLoupeRead (offset : BitVec 25) (a : Act) (s : State) : State :=
  let off := offset.toNat
  let len := a.d.payLen.toNat
  if off % 32 ≠ 0 ∨ len % 32 ≠ 0 ∨ loupeArea ≤ off then refuse s a readRange
  else
    let bs := loupeCopy s.nor.loupe.recs off (min len (loupeArea - off))
    let w := putBytes s a.d.ring a.d.payAddr.toNat bs
    let s := w.2
    let wo := s.loupe.writeOff.toNat
    if w.1 < bs.length then finishAs s a stMemUe 0 w.1
    else if s.loupe.mediaNew then finishAs { s with loupe.mediaNew := false } a loupeMedia 0 w.1 wo
    else finish s a 0 w.1 wo

/-- LOUPE_READ. -/
def execLoupeRead (d : Desc) (offset : BitVec 25) (s : State) : Host.Outcome State Fault Refusal :=
  .next (accept d (.loupeRead offset) (actLoupeRead offset) s)

/-- LOUPE_MARK acts (R612): the trigger makes its record, and OK says that it is staged. -/
def actLoupeMark (trig : BitVec 6) (a : Act) (s : State) : State :=
  match s.rec? 18 1 trig.toNat with
  | some r =>
    if r.f 1 8 2 ≠ 1 then refuse s a stRefusedState
    else
      let x := loupeStage s trig.toNat r
      if x.1 then finish x.2 a else refuse x.2 a notRecorded
  | none => refuse s a stRefusedState

/-- LOUPE_MARK. -/
def execLoupeMark (d : Desc) (trig : BitVec 6) (s : State) : Host.Outcome State Fault Refusal :=
  .next (accept d (.loupeMark trig) (actLoupeMark trig) s)

end Sys2Proof.Machine
end

