-- ==== Sys2Proof/Machine/SysEcc.lean ====
section
/-! DEFINITION. The SYS, ADC and ECC blocks: over-voltage pauses, the system voltage, sensor and reference faults, the
scrubber, injected faults and the report of corrections (R33 to R37, R697, R722 to R731). -/

namespace Sys2Proof.Machine

/-! ## Supply -/

/-- OVP_BEGIN (R697, R724): the outputs of the feed pair pause, event 0x0001. -/
def execOvpBegin (pair : Fin 3) (s : State) : Host.Outcome State Fault Refusal :=
  .next (
    if s.paused pair then s
    else
      let s := logEvent { s with sys.ovp := setBit s.sys.ovp pair true } 0x0001 [pair]
      let s := hsoPause s pair
      match pair.val with
      | 1 => ledPause s
      | 2 => vlvPause (fioPause s)
      | _ => s)

/-- OVP_END: the pause is over, event 0x0002; what was paused comes back at the next planner frame. -/
def execOvpEnd (pair : Fin 3) (s : State) : Host.Outcome State Fault Refusal :=
  .next (if s.paused pair then logEvent { s with sys.ovp := setBit s.sys.ovp pair false } 0x0002 [pair] else s)

/-- SYSV_MISMATCH (R723): the 10 s mean of KL30_L against the range of the system voltage, while KL15 is on. -/
def execSysvMismatch (meanMv : BitVec 16) (s : State) : Host.Outcome State Fault Refusal :=
  .next (
    let v := meanMv.toNat
    let inside := if s.sys.sysv then 18000 ≤ v && v ≤ 32000 else 9000 ≤ v && v ≤ 16000
    if inside then { s with sys.mismatch := false }
    else if s.kl15On && !s.sys.mismatch then logEvent { s with sys.mismatch := true } 0x0004 [v]
    else s)

/-! ## Measurement -/

/-- A plate reading in 0.01 °C within the sensor's range (R726). -/
def plateOk (x : Int) : Bool := -5000 ≤ x && x ≤ 15000

/-- PLATE_SENSOR_FAULT (R726): the SoC die temperature stands in, event 0x1401. -/
def execPlateSensorFault (raw : Int) (s : State) : Host.Outcome State Fault Refusal :=
  .next (if s.isOn .adc && !plateOk raw && !s.adc.plateFault then
    logEvent { s with adc.plateFault := true, adc.subst := true } 0x1401 [(BitVec.ofInt 16 raw).toNat]
  else s)

/-- PLATE_SENSOR_RECOVER (R726). -/
def execPlateSensorRecover (reading : Int) (s : State) : Host.Outcome State Fault Refusal :=
  .next (if plateOk reading then { s with adc.plateFault := false, adc.subst := false } else s)

/-- REF_FAULT (R727): V5A in mV out of range sets the flag, event 0x1402; in range clears it. -/
def execRefFault (v5aMv : BitVec 13) (s : State) : Host.Outcome State Fault Refusal :=
  .next (
    let v := v5aMv.toNat
    if 4750 ≤ v && v ≤ 5250 then { s with adc.refFault := false }
    else if s.isOn .adc && !s.adc.refFault then logEvent { s with adc.refFault := true } 0x1402 [v]
    else s)

/-! ## ECC -/

/-- Words of one scrub pass: every host-usable word of DRAM, then every word of SRAM (R36, R728). -/
def dramWords : Nat := dramEnd / 32
def scrubWords : Nat := dramWords + 262144

/-- The word number that a place in the pass stands for. -/
def scrubAt (pos : Nat) : Nat := if pos < dramWords then pos else sramBase / 32 + (pos - dramWords)

/-- SCRUB_WORD (R36, R37): the next word of the pass, while its memory is powered and not in self-refresh. A pass that
ends is counted, event 0x1503. -/
def execScrubWord (s : State) : Host.Outcome State Fault Refusal :=
  .next (
    let w := scrubAt s.ecc.pos.toNat
    if !s.ecc.scrubEn || !(if inDram (w * 32) then s.isOn .mem else s.isOn .svc) then s
    else
      let s := (readWord s w .scrubber).2
      if s.ecc.pos.toNat + 1 < scrubWords then { s with ecc.pos := s.ecc.pos + 1 }
      else
        let s := { s with ecc.pos := 0, ecc.passes := s.ecc.passes + 1 }
        logEvent s 0x1503 [s.ecc.passes.toNat])

/-- What KIND puts into the stored bits (Table 21.9). -/
def injected (kind : Nat) : WordFault := match kind with | 0 => .single | 1 => .double | _ => .fold

/-- ECC_INJECT acts (R731): in Service, on a word that reads without an uncorrectable error. -/
def actEccInject (addr : BitVec 64) (kind : BitVec 2) (a : Act) (s : State) : State :=
  if s.pwr.mode != .service then refuse s a stRefusedState
  else
    let w := addr.toNat / 32
    let r := readWord s w .read
    if r.1 then finish { r.2 with mem := r.2.mem.setFault w (injected kind.toNat) } a else refuse r.2 a stMemUe

/-- ECC_INJECT. -/
def execEccInject (d : Desc) (addr : BitVec 64) (kind : BitVec 2) (s : State) : Host.Outcome State Fault Refusal :=
  .next (accept d (.eccInject addr kind) (actEccInject addr kind) s)

/-- CORRECTABLE_REPORT (R729): the corrections since the last report, at most once in a second, event 0x1501. -/
def execCorrectableReport (s : State) : Host.Outcome State Fault Refusal :=
  .next (
    let n := s.ecc.ceSince
    let wait := match s.ecc.ceReported with | some t => decide (s.clk.ns < t + sec) | none => false
    if n = 0 || wait then s
    else logEvent { s with ecc.ceSince := 0, ecc.ceReported := some s.clk.ns } 0x1501 [n])

end Sys2Proof.Machine
end

