-- ==== Sys2Proof/Machine/Upd.lean ====
section
/-! DEFINITION. The UPD block: downloads, verification, activation, trial and confirmation, and the settings store
(R640 to R668). -/

namespace Sys2Proof.Machine

/-! ## Statuses (Table 18.9) -/

def manifestInvalid : Nat := 0x80
def updIncomplete : Nat := 0x81
def notVerified : Nat := 0x82
def oemKeySet : Nat := 0x83
def indexRange : Nat := 0x84
def settingsFull : Nat := 0x85
def settingAbsent : Nat := 0x86

/-! ## Conditions -/

/-- The boot record as the writes that wait will leave it. -/
def State.lastBoot (s : State) : BootRec :=
  match s.upd.writes.getLast? with
  | some w => w.record
  | none => s.upd.boot

/-- The lowest feed voltage averaged over the last second, in mV; the present one where no sample is younger. -/
def State.feedMean (s : State) : Nat :=
  let l := (s.upd.feed.filter (fun x => s.clk.ns < x.1 + sec)).map (·.2)
  if l.isEmpty then min (vget s.hso.vfeed 0).toNat (min (vget s.hso.vfeed 1).toNat (vget s.hso.vfeed 2).toNat)
  else l.sum / l.length

/-- The first condition of Table 18.3 that holds, 0 where none does. -/
def updCondition (s : State) (begin_ : Bool) : Nat :=
  let m := s.pwr.mode
  if (if begin_ then !(m == .accessory || m == .run || m == .update) else m != .update) then 1
  else if s.onTrial then 2
  else if s.acc.updLock then 3
  else if 128 < updSpeed s then 4
  else if s.feedMean < (if s.sys.sysv then 23600 else 11800) then 5
  else 0

/-- A refusal of R645: its number in DETAIL and UPD_REFUSE, event 0x1307. -/
def updRefuse (s : State) (a : Act) (n : Nat) : State :=
  refuse (logEvent { s with upd.refuse := BitVec.ofNat 4 n } 0x1307 [n]) a stRefusedState n

/-- A mode change of the update has a cause for which PWR_MODE.CAUSE has no code: a free value. -/
def updMode (s : State) (m : Mode) : State :=
  let r := s.takeWord
  goMode r.2 m (r.1.toNat % 256)

/-- Every block of the manifest in NOR has landed. -/
def State.allLanded (s : State) : Bool :=
  match s.nor.manifest with
  | some m => (List.range (mBlocks m)).all (fun i => s.nor.landed.contains i)
  | none => false

/-! ## Download -/

/-- Blocks that land complete with a status. -/
def dropLanding (s : State) (status : Nat) : State :=
  s.upd.landing.foldl (fun s x => refuse s x.1 status) { s with upd.landing := [] }

/-- A verification that runs completes with a status. -/
def dropVerify (s : State) (status : Nat) : State :=
  match s.upd.verifying with
  | some a => refuse { s with upd.verifying := none } a status
  | none => s

/-- The download is as far as its blocks (UPD_STATUS.STAGE). -/
def updStage (s : State) : State := { s with upd.stage := if s.allLanded then 2 else 1 }

/-- UPD_BEGIN acts: Table 18.3, then R643, then R647. The same manifest resumes; another one is written after a boot record
with FB_VALID 0. -/
def actUpdBegin (a : Act) (s : State) : State :=
  let n := updCondition s true
  if n ≠ 0 then updRefuse s a n
  else if !manifestOk a.payload then refuse s a manifestInvalid
  else if !s.signed a.payload then refuse s a stCheckFailed
  else
    let same := s.nor.manifest == some a.payload
    let held := if same then s.nor.landed.length else 0
    let s := dropVerify (if same then s else dropLanding s stCancelled) stCancelled
    let s := logEvent { s with upd.verified := false, upd.stage := 1 } 0x1301 [held]
    let s := if s.pwr.mode == .update then s else updMode { s with pwr.beforeUpdate := s.pwr.mode } .update
    if same then finish (updStage s) a 0 held (b2n s.targetB)
    else bootWrite s { s.lastBoot with fbValid := false } (.begin_ a a.payload)

/-- UPD_BEGIN. -/
def execUpdBegin (d : Desc) (s : State) : Host.Outcome State Fault Refusal := .next (accept d .updBegin actUpdBegin s)

/-- The length that block `i` of a manifest must have. -/
def blockLen (m : List (BitVec 8)) (i : Nat) : Nat := if i + 1 = mBlocks m then mImage m - 65536 * i else 65536

/-- UPD_BLOCK acts (R648): the block begins to land. -/
def actUpdBlock (index : BitVec 10) (a : Act) (s : State) : State :=
  let i := index.toNat
  match s.nor.manifest with
  | none => refuse s a (if s.pwr.mode == .update then indexRange else stRefusedState)
  | some m =>
    if s.pwr.mode != .update then refuse s a stRefusedState
    else if mBlocks m ≤ i || a.payload.length != blockLen m i then refuse s a indexRange
    else if s.nor.landed.contains i then finish s a
    else { s with upd.landing := s.upd.landing ++ [(a, i)] }

/-- UPD_BLOCK. -/
def execUpdBlock (d : Desc) (index : BitVec 10) (s : State) : Host.Outcome State Fault Refusal :=
  .next (accept d (.updBlock index) (actUpdBlock index) s)

/-- A block stands in the target bank. -/
def bankPut (s : State) (i : Nat) (bs : List (BitVec 8)) : State :=
  let put (l : List (Nat × List (BitVec 8))) := l.filter (fun x => x.1 != i) ++ [(i, bs)]
  if s.targetB then { s with nor.bankB := put s.nor.bankB } else { s with nor.bankA := put s.nor.bankA }

/-- UPD_BLOCK_LANDED (R648): the oldest block is read back and its CRC compared with BCRC. -/
def execUpdBlockLanded (s : State) : Host.Outcome State Fault Refusal :=
  .next (match s.upd.landing, s.nor.manifest with
    | (a, i) :: rest, some m =>
      let s := bankPut { s with upd.landing := rest } i a.payload
      let crc := crc32c a.payload
      if crc.toNat = leAt m (96 + 4 * i) 4 then
        let s := { s with nor.landed := if s.nor.landed.contains i then s.nor.landed else s.nor.landed ++ [i] }
        finish (updStage s) a 0 crc.toNat
      else refuse (logEvent s 0x1302 [i]) a stCheckFailed
    | _, _ => s)

/-! ## Verification -/

/-- UPD_VERIFY acts (R649): incomplete with the first missing block, or KC starts. -/
def actUpdVerify (a : Act) (s : State) : State :=
  match s.nor.manifest with
  | none => refuse s a updIncomplete
  | some m =>
    match (List.range (mBlocks m)).find? (fun i => !s.nor.landed.contains i) with
    | some i => refuse s a updIncomplete 0 i
    | none =>
      if s.upd.verifying.isSome then refuse s a stRefusedState
      else { s with upd.verifying := some a, upd.stage := 3 }

/-- UPD_VERIFY. -/
def execUpdVerify (d : Desc) (s : State) : Host.Outcome State Fault Refusal := .next (accept d .updVerify actUpdVerify s)

/-- The image in the target bank. -/
def State.targetImage (s : State) (m : List (BitVec 8)) : List (BitVec 8) :=
  let bank := if s.targetB then s.nor.bankB else s.nor.bankA
  ((List.range (mBlocks m)).flatMap (fun i => match bank.find? (fun x => x.1 == i) with
    | some x => x.2
    | none => [])).take (mImage m)

/-- UPD_VERIFY_DONE (R649): SHA-256 against DIGEST, and both signatures. -/
def execUpdVerifyDone (s : State) : Host.Outcome State Fault Refusal :=
  .next (match s.upd.verifying, s.nor.manifest with
    | some a, some m =>
      let ok := Config.sha256 (s.targetImage m) == (m.drop 32).take 32 && s.signed m
      let s := logEvent { s with upd.verifying := none } 0x1303 [b2n ok]
      if ok then finish { s with upd.verified := true, upd.stage := 4 } a 0 (leAt m 8 4)
      else refuse { s with upd.verified := false, upd.stage := 2 } a stCheckFailed
    | _, _ => s)

/-! ## Activation, trial and confirmation -/

/-- The boot record of an activation (R650). -/
def activateRec (b : BootRec) (m : List (BitVec 8)) (accDef : Bool) : BootRec :=
  { b with active := !b.active, trial := true, accDef := accDef, fbValid := true, fellBack := false,
           version := BitVec.ofNat 32 (leAt m 8 4), digest := (m.drop 32).take 32, sfmt := BitVec.ofNat 16 (leAt m 16 2),
           fbVersion := b.version, fbDigest := b.digest, sarea := !b.sarea, sareaFb := b.sarea }

/-- UPD_ACTIVATE acts (R650): the tally is erased and the boot record written. -/
def actUpdActivate (accDef : BitVec 1) (a : Act) (s : State) : State :=
  match s.upd.verified, s.nor.manifest with
  | true, some m =>
    let n := updCondition s false
    if n ≠ 0 then updRefuse s a n
    else
      bootWrite { s with nor.bootMarks := 0, nor.timeMarks := 0, upd.stage := 5 } (activateRec s.lastBoot m (accDef == 1))
        (.activate a)
  | _, _ => refuse s a notVerified

/-- UPD_ACTIVATE. -/
def execUpdActivate (d : Desc) (accDef : BitVec 1) (s : State) : Host.Outcome State Fault Refusal :=
  .next (accept d (.updActivate accDef) (actUpdActivate accDef) s)

/-- UPD_CONFIRM acts (R659): in trial a boot record without TRIAL is written; a fallback whose write has begun comes
first. -/
def actUpdConfirm (a : Act) (s : State) : State :=
  if s.onTrial && s.lastBoot.trial then bootWrite s { s.lastBoot with trial := false, fellBack := false } (.confirm a)
  else refuse s a stRefusedState

/-- UPD_CONFIRM. -/
def execUpdConfirm (d : Desc) (s : State) : Host.Outcome State Fault Refusal := .next (accept d .updConfirm actUpdConfirm s)

/-- A device reset of type 5 (R650, R660). A worker leaves its link first (R666). -/
def updReboot (s : State) : State :=
  plainReset (if s.role == .worker && s.isOn .eth then leaveAll s else s) .activation

/-- BOOT_RECORD_WRITTEN (R654): the written copy is the selected one, and what waited for it follows. -/
def execBootRecordWritten (s : State) : Host.Outcome State Fault Refusal :=
  .next (match s.upd.writes with
    | [] => s
    | w :: rest =>
      let target := s.targetB
      let s := bootPut { s with upd.writes := rest } w.record
      match w.why with
      | .begin_ a m => finish (updStage { s with nor.manifest := some m, nor.landed := [] }) a 0 0 (b2n target)
      | .activate a => finish { s with upd.activateAt := some (s.clk.ns + ms) } a
      | .confirm a => finish (logEvent s 0x1305 []) a
      | .fallback => updReboot (logEvent s 0x1306 [w.record.fbCause.toNat])
      | .media => s)

/-- ACTIVATION_RESET (R650): 1 ms after the completion, event 0x1304 and the reset. -/
def execActivationReset (s : State) : Host.Outcome State Fault Refusal :=
  .next (match s.upd.activateAt with
    | some t =>
      let s := { s.reach t with upd.activateAt := none }
      updReboot (logEvent s 0x1304 [s.upd.boot.version.toNat])
    | none => s)

/-- One more time mark is programmed, and the next 10 s begin. -/
def timeMark (s : State) : State := { s with nor.timeMarks := s.nor.timeMarks + 1, upd.trialAt := s.clk.ns }

/-- The sixtieth mark falls back with cause 2. -/
def markEnd (s : State) : State := if s.nor.timeMarks < 60 then s else bootWrite s (fallbackRec s.lastBoot 2) .fallback

/-- TRIAL_TIME_MARK (R658): one mark for each 10 s of running in trial; the sixtieth falls back. -/
def execTrialTimeMark (s : State) : Host.Outcome State Fault Refusal :=
  .next (if s.onTrial && s.lastBoot.trial && s.isOn .svc then markEnd (timeMark (s.reach (s.upd.trialAt + 10 * sec))) else s)

/-- UPD_ABORT acts (R651): the update ends and the mode before it returns; without KEEP the manifest copy and the bitmap
are erased. -/
def actUpdAbort (keep : BitVec 1) (a : Act) (s : State) : State :=
  let s := dropVerify (dropLanding s stCancelled) stCancelled
  let s := if keep == 1 then s else { s with nor.manifest := none, nor.landed := [] }
  let s := finish { s with upd.stage := 0, upd.verified := false } a
  if s.pwr.mode == .update then updMode s s.pwr.beforeUpdate else s

/-- UPD_ABORT. -/
def execUpdAbort (d : Desc) (keep : BitVec 1) (s : State) : Host.Outcome State Fault Refusal :=
  .next (accept d (.updAbort keep) (actUpdAbort keep) s)

/-- UPD_OEM_KEY acts (R644): in Service, while slot 9 is empty and no image is in trial (R661). -/
def actUpdOemKey (a : Act) (s : State) : State :=
  if s.onTrial || s.pwr.mode != .service then refuse s a stRefusedState
  else if (vget s.acc.keys 9).isSome then refuse s a oemKeySet
  else finish { s with acc.keys := vset s.acc.keys 9 (some a.payload) } a

/-- UPD_OEM_KEY. -/
def execUpdOemKey (d : Desc) (s : State) : Host.Outcome State Fault Refusal := .next (accept d .updOemKey actUpdOemKey s)

/-! ## Settings (R662 to R664) -/

/-- Bytes that the values of a store take. -/
def storeBytes (l : List (BitVec 16 × List (BitVec 8))) : Nat := (l.map (fun x => x.2.length)).sum

/-- SET_WRITE on the area of the active image: a value, or with length 0 its deletion. -/
def setWriteNow (key : BitVec 16) (a : Act) (s : State) : State :=
  let one := s.upd.boot.sarea
  let ar := s.area one
  let rest := ar.items.filter (fun x => x.1 != key)
  let items := if a.payload.isEmpty then rest else rest ++ [(key, a.payload)]
  if 1048576 < storeBytes items then refuse s a settingsFull
  else finish (s.modArea one (fun ar => { ar with items := items, st := .valid, sfmt := s.upd.boot.sfmt })) a

/-- SET_WRITE acts; during a migration it waits (R663). -/
def actSetWrite (key : BitVec 16) (a : Act) (s : State) : State :=
  if s.upd.migrating then { s with upd.setWaits := s.upd.setWaits ++ [(a, .setWrite key)] } else setWriteNow key a s

/-- SET_WRITE. -/
def execSetWrite (d : Desc) (key : BitVec 16) (s : State) : Host.Outcome State Fault Refusal :=
  .next (accept d (.setWrite key) (actSetWrite key) s)

/-- SET_READ on the area of the active image: the value fills the buffer as far as it goes. -/
def setReadNow (key : BitVec 16) (a : Act) (s : State) : State :=
  match (s.area s.upd.boot.sarea).items.find? (fun x => x.1 == key) with
  | none => refuse s a settingAbsent
  | some (_, v) =>
    let put := v.take a.d.payLen.toNat
    let w := putBytes s a.d.ring a.d.payAddr.toNat put
    if w.1 < put.length then refuse w.2 a stMemUe 0 w.1 else finish w.2 a 0 v.length

/-- SET_READ acts; during a migration it waits (R663). -/
def actSetRead (key : BitVec 16) (a : Act) (s : State) : State :=
  if s.upd.migrating then { s with upd.setWaits := s.upd.setWaits ++ [(a, .setRead key)] } else setReadNow key a s

/-- SET_READ. -/
def execSetRead (d : Desc) (key : BitVec 16) (s : State) : Host.Outcome State Fault Refusal :=
  .next (accept d (.setRead key) (actSetRead key) s)

/-- SETTINGS_MIGRATION_DONE (R663): each item stands in the new area, which is valid; what waited goes on. -/
def execSettingsMigrationDone (s : State) : Host.Outcome State Fault Refusal :=
  .next (
    if !s.upd.migrating then s
    else
      let b := s.upd.boot
      let old := s.area b.sareaFb
      let s := s.modArea b.sarea (fun ar => { ar with st := .valid, items := old.items })
      let s := logEvent { s with upd.migrating := false } 0x1308 [old.sfmt.toNat, b.sfmt.toNat]
      s.upd.setWaits.foldl (fun s x => match x.2 with
        | .setWrite key => setWriteNow key x.1 s
        | .setRead key => setReadNow key x.1 s
        | _ => s) { s with upd.setWaits := [] })

end Sys2Proof.Machine
end

