-- ==== Sys2Proof/Machine/Net.lean ====
section
/-! DEFINITION. The NET block: keep-alives, the bus states' expiries, wakes of sleeping buses, bars and the commands of
Table 13.8 (R479 to R503). -/

namespace Sys2Proof.Machine

/-! ## Time -/

/-- KEEP_ALIVE_TX (R480): KA_PERIOD after the last keep-alive, while own need holds. -/
def execKeepAliveTx (bus : Fin 10) (s : State) : Host.Outcome State Fault Refusal :=
  .next (
    let b := s.netBus bus
    if s.netRuns && s.netHas bus && b.need && s.busUp bus then
      sendKa (s.reach (b.kaAt + s.netF bus 0 0 8 * 100 * ms)) bus
    else s)

/-- SLEEP_TIMEOUT (R484): T_SLEEP has passed since the last counted keep-alive and since own need ended, and the bus
becomes READY. A NET_WAKE's need ends with its T_SLEEP. -/
def execSleepTimeout (bus : Fin 10) (s : State) : Host.Outcome State Fault Refusal :=
  .next (
    if !s.netRuns || !s.netHas bus || s.busSt bus != .awake then s
    else
      let s := match (s.netBus bus).wakeUntil with
        | some t => netEval (s.reach t |>.modBus bus (fun b => { b with wakeUntil := none })) bus
        | none => s
      let b := s.netBus bus
      if b.need then s
      else
        let from_ := match b.lastKa with
          | some t => max t b.needEnd
          | none => b.needEnd
        trackRun (setBus (s.reach (from_ + s.netSleep bus)) bus .ready) bus)

/-- GRACE_EXPIRY (R485): T_GRACE has passed with no restart. A bus that is idle goes to sleep at once, a frame on the bus
restarts the interval, and the module may leave Listen (R491). -/
def execGraceExpiry (bus : Fin 10) (idle : Bool) (s : State) : Host.Outcome State Fault Refusal :=
  .next (
    if !s.netRuns || s.busSt bus != .ready then s
    else
      let s := s.reach ((s.netBus bus).graceAt + s.netF bus 0 16 8 * 100 * ms)
      if idle && (s.canCh bus).onBus.isNone then judge (busSleep s bus) else restartGrace s bus)

/-- A bus detector has found a wake (R486, R487, R498). -/
def busDetect (s : State) (n : Nat) (cause : BitVec 2) (pat : BitVec 3) : State :=
  match s.busSt n with
  | .ready => if s.netRuns then cancelSleep s n cause.toNat else s
  | .asleep =>
    if s.pwr.mode == .storage then s
    else
      let s := busWoken s n cause pat true
      judge (wakeUp s (.net (Fin.ofNat 10 n)))
  | _ => s

/-- BUS_WAKE (R494 to R498): the detector of a sleeping bus takes a signal. -/
def execBusWake (bus : Fin 10) (signal : WakeSignal) (s : State) : Host.Outcome State Fault Refusal :=
  .next (
    if s.busSt bus != .asleep then s
    else
      let r := detect (s.netBus bus) signal
      let s := s.modBus bus (fun b => { b with errs := r.2 })
      match r.1 with
      | some (cause, pat) => busDetect s bus cause pat
      | none => s)

/-- SELECTIVE_DETECTOR_DECODE (R493, R497): the selective detector, which runs from entry to READY, decodes a frame or meets
an error. On a READY bus it counts; the frame itself acts by R486. -/
def execSelectiveDetectorDecode (bus : Fin 10) (frame : Option CanFrame) (s : State) : Host.Outcome State Fault Refusal :=
  .next (
    match s.busSt bus with
    | .asleep =>
      if (s.netBus bus).armBus.any (fun r => r.f 1 30 2 == 2) then
        let r := selective (s.netBus bus) frame
        let s := s.modBus bus (fun b => { b with errs := r.2 })
        match r.1 with
        | some (cause, pat) => busDetect s bus cause pat
        | none => s
      else s
    | .ready =>
      if s.netF bus 1 30 2 = 2 then
        let b := { s.netBus bus with armBus := s.rec? 13 1 bus, armPats := [] }
        s.modBus bus (fun x => { x with errs := (selective b frame).2 })
      else s
    | _ => s)

/-- SOURCE_BAR (R500): the sole hold of a source has reached T_MAXAWAKE. A bus holds four bars, the oldest giving way. -/
def execSourceBar (bus : Fin 10) (s : State) : Host.Outcome State Fault Refusal :=
  .next (
    let most := s.netF bus 0 24 8
    match soleHold s bus with
    | some (key, since) =>
      if most = 0 || !s.netRuns then s
      else
        let s := s.reach (since + most * 60 * sec)
        let s := s.modBus bus (fun b =>
          let l := b.bars ++ [key]
          { b with bars := l.drop (l.length - 4), srcs := b.srcs.filter (fun x => x.key != key) })
        logEvent s 0x0D04 [bus.val, key.toNat]
    | none => s)

/-! ## Commands (Table 13.8) -/

/-- The mask names a bus in STANDBY (R503). -/
def State.namesStandby (s : State) (mask : BitVec 10) : Bool := (maskList mask).any (fun n => s.busSt n == .standby)

/-- NET_HOLD acts. -/
def actNetHold (mask : BitVec 10) (hold : BitVec 1) (a : Act) (s : State) : State :=
  if s.namesStandby mask then refuse s a stRefusedState
  else finish (netAll ((maskList mask).foldl (fun s n => s.modBus n (fun b => { b with host := hold == 1 })) s)) a

/-- NET_HOLD. -/
def execNetHold (d : Desc) (mask : BitVec 10) (hold : BitVec 1) (s : State) : Host.Outcome State Fault Refusal :=
  .next (accept d (.netHold mask hold) (actNetHold mask hold) s)

/-- NET_WAKE acts: each named ASLEEP bus wakes as by own need for one T_SLEEP; RESULT0 holds the mask woken. -/
def actNetWake (mask : BitVec 10) (a : Act) (s : State) : State :=
  if s.namesStandby mask then refuse s a stRefusedState
  else
    let woken := (maskList mask).filter (fun n => s.busSt n == .asleep)
    let s := woken.foldl (fun s n =>
      netEval (s.modBus n (fun b => { b with wakeUntil := some (s.clk.ns + s.netSleep n) })) n) s
    finish s a 0 (woken.map (fun n => 2 ^ n)).sum

/-- NET_WAKE. -/
def execNetWake (d : Desc) (mask : BitVec 10) (s : State) : Host.Outcome State Fault Refusal :=
  .next (accept d (.netWake mask) (actNetWake mask) s)

/-- NET_BAR_CLEAR acts (R501). -/
def actNetBarClear (mask : BitVec 10) (a : Act) (s : State) : State :=
  finish ((maskList mask).foldl (fun s n => endBars s n 2) s) a

/-- NET_BAR_CLEAR. -/
def execNetBarClear (d : Desc) (mask : BitVec 10) (s : State) : Host.Outcome State Fault Refusal :=
  .next (accept d (.netBarClear mask) (actNetBarClear mask) s)

/-- NET_READ acts. -/
def actNetRead (ch : BitVec 4) (a : Act) (s : State) : State := finish s a 0 (netState s ch.toNat) (netBar s ch.toNat)

/-- NET_READ. -/
def execNetRead (d : Desc) (ch : BitVec 4) (s : State) : Host.Outcome State Fault Refusal :=
  .next (accept d (.netRead ch) (actNetRead ch) s)

end Sys2Proof.Machine
end

