-- ==== Sys2Proof/Machine/Power.lean ====
section
/-! DEFINITION. The PWR block: resets and Start as their events report, wakes, mode transitions, performance levels, domain
commands, drains, the compatibility view and the thermal governor (R40 to R83, R735, R736). -/

namespace Sys2Proof.Machine

/-! ## Supply, resets and Start -/

/-- POWER_ON (R583): everything but the NOR flash, the key store with its pairings and the owner update lock is as after
power-on; the log and the boot count come back from the mirror (R606). The straps are sampled (R684). Which slots an
interrupted erase of the mirror sector left valid is open. -/
def execPowerOn (role : BitVec 2) (s : State) : Host.Outcome State Fault Refusal :=
  let cut := s.bezel.mirrorErasing
  let slots := s.nor.mirror.zipIdx.map (fun x => if cut && Config.freeBit (s.free + x.2) then [] else x.1)
  .next (mirrorRestore
    { ({} : State) with
      clk := s.clk, nor := { s.nor with mirror := slots }, free := s.free + slots.length, out := s.out, pending := s.pending, pwr.strap := role,
      bezel.mirrorSkipped := s.bezel.mirrorSkipped,
      acc := { keys := s.acc.keys, updLock := s.acc.updLock,
               tok := s.acc.tok.map (fun t => { paired := t.paired, serial := t.serial }) } })

/-- RESET_N_ASSERTED (R585): a pulse of 10 µs or more resets the device and holds it there, one below 1 µs is ignored,
and between them the spec leaves it open. -/
def execResetNAsserted (lowNs : Nat) (s : State) : Host.Outcome State Fault Refusal :=
  .next (
    let r := s.takeBit
    let act := if lowNs < us then false else if 10 * us ≤ lowNs then true else r.1
    if act && !(s.pwr.mode == .storage && !s.pwr.entering) then
      let s := plainReset r.2 .resetN
      { s with pwr.inReset := true }
    else r.2)

/-- RESET_N_RELEASED (R585): the rails of Start may come up. -/
def execResetNReleased (s : State) : Host.Outcome State Fault Refusal := .next { s with pwr.inReset := false }

/-- DEVICE_RESET (R583). -/
def execDeviceReset (typ : ResetType) (detail : BitVec 8) (retBad : BitVec 10) (s : State) :
    Host.Outcome State Fault Refusal := .next (deviceReset s typ detail retBad)

/-- Start runs and waits for rail `r`. -/
def State.startRail (s : State) (r : Nat) : Bool :=
  s.pwr.mode == .start && s.pwr.rail == r && !s.pwr.inReset && !s.pwr.bezelOnly

/-- RAIL_POWER_GOOD (R71); with V3P3 the crystal starts (R74). -/
def execRailPowerGood (rail : Fin 6) (s : State) : Host.Outcome State Fault Refusal :=
  .next (
    if !s.startRail rail then s
    else
      let s := if rail.val = 0 && s.pwr.crystal == .off then { s with pwr.crystal := .waiting } else s
      nextRail s)

/-- What the failure of a rail leaves (Table 2.7). -/
def railOutcome (s : State) (r : Nat) : State :=
  let force (s : State) (d : Dom) : State := s.modDom d (fun c => { c with forced := true })
  if r < 2 then bezelOnlyStart s
  else
    let s := { s with pwr.startLimp := true }
    let s := if r = 2 || r = 3 then force (force s .mem) .host else if r = 5 then force s .adc else s
    nextRail s

/-- RAIL_TIMEOUT (R72): up to three retries, event 0x0104 each; then event 0x0105 and the outcome of the rail. The time
stands still while KL30_L is low. -/
def execRailTimeout (rail : Fin 6) (s : State) : Host.Outcome State Fault Refusal :=
  .next (
    if !s.startRail rail || s.pwr.lowHold then s
    else if s.pwr.railTries < 3 then
      logEvent { s with pwr.railTries := s.pwr.railTries + 1, pwr.retries := satInc s.pwr.retries } 0x0104 [rail.val]
    else railOutcome (logEvent { s with pwr.railFail := setBit s.pwr.railFail rail true } 0x0105 [rail.val]) rail)

/-- A rail has reported power-good and is still commanded on. -/
def State.railUp (s : State) (r : Nat) : Bool :=
  match s.pwr.mode with
  | .start => decide (r < s.pwr.rail) && !s.pwr.bezelOnly
  | .park | .guard | .storage => s.pwr.entering
  | _ => true

/-- RAIL_POWER_GOOD_LOST (R72): a device reset of type 4. -/
def execRailPowerGoodLost (rail : Fin 6) (s : State) : Host.Outcome State Fault Refusal :=
  .next (if s.railUp rail then
    plainReset s .escalation
  else s)

/-- KL30_LOW_HOLD (R72). -/
def execKl30LowHold (s : State) : Host.Outcome State Fault Refusal :=
  .next (if s.pwr.mode == .start then { s with pwr.lowHold := true } else s)

/-- KL30L_RECOVERY (R72): KL30_L reaches 4.5 V and the timers of Start run on. -/
def execKl30LRecovery (s : State) : Host.Outcome State Fault Refusal := .next { s with pwr.lowHold := false }

/-- CRYSTAL_RUNNING (R74). -/
def execCrystalRunning (s : State) : Host.Outcome State Fault Refusal :=
  .next (if s.pwr.crystal == .waiting then { s with pwr.crystal := .running } else s)

/-- CRYSTAL_TIMEOUT (R74): the islands run from the RC oscillator, event 0x0106, and Start ends in Limp. -/
def execCrystalTimeout (s : State) : Host.Outcome State Fault Refusal :=
  .next (if s.pwr.crystal == .waiting then
    logEvent { s with pwr.crystal := .failed, pwr.rcClock := true, pwr.xtalFail := true, pwr.startLimp := true } 0x0106 []
  else s)

/-- RC_TRIM (R76): event 0x0109; channels that the RC oscillator kept listening are judged anew (R75). -/
def execRcTrim (s : State) : Host.Outcome State Fault Refusal :=
  .next (if s.pwr.rcClock then netAll (logEvent { s with pwr.rcTrimmed := true } 0x0109 []) else s)

/-! ## KL15 and wakes -/

/-- KL15_ON (R735). -/
def execKl15On (s : State) : Host.Outcome State Fault Refusal :=
  .next (
    let s := netKl15 { s with pwr.kl15 := true }
    judge (if s.kl15On then wakeUp s .kl15 else s))

/-- KL15_OFF (R735). -/
def execKl15Off (s : State) : Host.Outcome State Fault Refusal :=
  .next (judge (netKl15 { s with pwr.kl15 := false, bezel.kl15OffAt := s.clk.ns }))

/-- WAKE_PIN_ASSERTED (R735). -/
def execWakePinAsserted (pin : Fin 4) (s : State) : Host.Outcome State Fault Refusal :=
  .next (judge (wakeUp { s with pwr.wake := setBit s.pwr.wake pin true } (.pin pin)))

/-- WAKE_PIN_RELEASED (R735). -/
def execWakePinReleased (pin : Fin 4) (s : State) : Host.Outcome State Fault Refusal :=
  .next (judge { s with pwr.wake := setBit s.pwr.wake pin false })

/-- LATE_WAKE_LATCH (R54). -/
def execLateWakeLatch (wake : Wake) (s : State) : Host.Outcome State Fault Refusal :=
  .next (if s.pwr.regsFalling && s.wakeArmed wake then { s with pwr.latched := some (s.pwr.latched.getD wake) } else s)

/-- REGULATORS_OFF (R54): Start begins with a latched wake as its cause. -/
def execRegulatorsOff (s : State) : Host.Outcome State Fault Refusal :=
  .next (
    if !s.pwr.regsFalling then s
    else
      let l := s.pwr.latched
      let s := { s with pwr.regsFalling := false, pwr.latched := none }
      match l with
      | some w => startBegin (s.modDom .bezel (fun c => { c with st := .on })) (wakeCause w) false
      | none => s)

/-- GUARD_EXPIRY (R562): Guard ends in Park after 504 h. -/
def execGuardExpiry (s : State) : Host.Outcome State Fault Refusal :=
  .next (
    if s.pwr.mode == .guard && !s.pwr.entering then
      let s := { s.reach (s.acc.guardAt + 504 * 3600 * sec) with acc.polling := false }
      let s := (s.modDom .uwb (fun c => { c with st := .off })).modDom .sec (fun c => { c with st := .off })
      modeOutputs (setMode s .park 0x0D) .park
    else s)

/-! ## MODE_SET -/

/-- PWR status WAKE_HELD. -/
def wakeHeld : Nat := 0x81

/-- PWR status PL_CAPPED. -/
def plCapped : Nat := 0x80

/-- What MODE_SET to a mode answers now (R47, R48, R51): OK where Table 2.2 has the transition. -/
def modeSetStatus (s : State) (t : Nat) : Nat :=
  let allow (b : Bool) : Nat := if b then stOk else stRefusedState
  match s.pwr.mode with
  | .accessory =>
    if t = 0 then (if s.kl15On then stRefusedState else if s.pwr.wake.getLsbD 0 then wakeHeld else stOk) else allow (t == 11)
  | .run => if t = 7 then allow (s.kl15On && !s.pwr.rcClock && s.synced) else allow (t == 8 || t == 11)
  | .field => allow (t == 6 || t == 8)
  | .road => if t = 7 then allow (s.kl15On && !s.pwr.rcClock && s.synced) else allow (t == 6)
  | .service => allow (if s.kl15On then t == 6 else t == 5)
  | _ => stRefusedState

/-- Mode with a number of Table 2.1. -/
def modeOf : Nat → Mode
  | 0 => .storage | 1 => .park | 2 => .guard | 3 => .listen | 4 => .start | 5 => .accessory | 6 => .run | 7 => .field
  | 8 => .road | 9 => .limp | 10 => .update | _ => .service

/-- MODE_SET acts: at acceptance, or on its fire tick against the mode in force then (R50). -/
def actModeSet (target : BitVec 4) (a : Act) (s : State) : State :=
  let st := modeSetStatus s target.toNat
  if st ≠ stOk then refuse s a st else finish (goMode s (modeOf target.toNat) 0x02) a

/-- MODE_SET. -/
def execModeSet (d : Desc) (target : BitVec 4) (s : State) : Host.Outcome State Fault Refusal :=
  .next (accept d (.modeSet target) (actModeSet target) s)

/-! ## Performance levels -/

/-- A level is requested; values 5 to 7 are taken as 4 (Table 2.17). -/
def plRequest (s : State) (level : Nat) : State := plSync { s with pwr.plReq := BitVec.ofNat 3 (capAt 4 level) }

/-- PERF_SET acts (R59): above the cap it completes PL_CAPPED. -/
def actPerfSet (level : BitVec 3) (a : Act) (s : State) : State :=
  let s := plRequest s level.toNat
  if s.plCap < level.toNat then finishAs s a plCapped else finish s a

/-- PERF_SET. -/
def execPerfSet (d : Desc) (level : BitVec 3) (s : State) : Host.Outcome State Fault Refusal :=
  .next (accept d (.perfSet level) (actPerfSet level) s)

/-- PL_CHANGE_DONE (R56). -/
def execPlChangeDone (s : State) : Host.Outcome State Fault Refusal := .next { s with pwr.plBusy := false }

/-- PL4_LIMIT_REACHED (R58): the time at PL4 is used up, event 0x0108. -/
def execPl4LimitReached (s : State) : Host.Outcome State Fault Refusal :=
  .next (if s.plEffective = 4 then
    plSync (logEvent { s with pwr.pl4Capped := true, pwr.pl4Used := s.pwr.pl4OnMax } 0x0108 [])
  else s)

/-- PL4_CAP_LIFT (R59): the window allows PL4 again; the host returns to the level it asked for. -/
def execPl4CapLift (s : State) : Host.Outcome State Fault Refusal :=
  .next (if s.pwr.pl4Capped then
    let r := s.takeWord
    let used := if s.pwr.pl4OnMax = 0 then 0 else BitVec.ofNat 8 (r.1.toNat % s.pwr.pl4OnMax.toNat)
    plSync { r.2 with pwr.pl4Capped := false, pwr.pl4Used := used }
  else s)

/-! ## Domains -/

/-- The state with a number of Table 2.15. -/
def domStOf : Nat → DomState
  | 0 => .off | 1 => .ret | 2 => .gated | _ => .on

/-- DOMAIN_SET acts (R42, R66). -/
def actDomainSet (domain : BitVec 4) (state : BitVec 2) (a : Act) (s : State) : State :=
  let d := domOf domain.toNat
  let t := domStOf state.toNat
  if 10 ≤ domain.toNat || (s.entryNow d).num < t.num then refuse s a stRefusedState
  else if t.num < (s.domSt d).num then
    if s.holdsLaunch d then refuse s a stRefusedState
    else beginDrain { s with pwr.domWaits := s.pwr.domWaits ++ [⟨a, d, t, false⟩] } d t
  else if t == s.domSt d then finish s a
  else if (s.domCtl d).dead then refuse s a stDomainWakeFail
  else startWake { s with pwr.domWaits := s.pwr.domWaits ++ [⟨a, d, t, true⟩] } d t

/-- DOMAIN_SET. -/
def execDomainSet (d : Desc) (domain : BitVec 4) (state : BitVec 2) (s : State) : Host.Outcome State Fault Refusal :=
  .next (accept d (.domainSet domain state) (actDomainSet domain state) s)

/-- NEED_SET acts: a host need source is asserted or released. -/
def actNeedSet (need : BitVec 1) (source : BitVec 3) (a : Act) (s : State) : State :=
  judge (netAll (finish { s with pwr.needs := setBit s.pwr.needs source.toNat (need == 1) } a))

/-- NEED_SET. -/
def execNeedSet (d : Desc) (need : BitVec 1) (source : BitVec 3) (s : State) : Host.Outcome State Fault Refusal :=
  .next (accept d (.needSet need source) (actNeedSet need source) s)

/-- A drain has become quiescent. -/
def markQuiet (s : State) (d : Dom) : State :=
  { s with pwr.drains := s.pwr.drains.map (fun x => if x.dom = d then { x with quiet := true } else x) }

/-- DRAIN_QUIESCENT (R67). -/
def execDrainQuiescent (dom : Dom) (s : State) : Host.Outcome State Fault Refusal := .next (settleAll (markQuiet s dom))

/-- DRAIN_BOUND_EXPIRY (R67): what is unfinished completes ABORTED_POWER, event 0x0103. -/
def execDrainBoundExpiry (dom : Dom) (s : State) : Host.Outcome State Fault Refusal :=
  .next (if s.pwr.drains.any (fun x => x.dom == dom && !x.quiet) then
    settleAll (markQuiet (logEvent (abortWork s dom s.entryDrain) 0x0103 [dom.num]) dom)
  else s)

/-! ## The compatibility view (R60) -/

/-- A domain that a request lowered returns to its entry state. -/
def raiseAgain (s : State) (d : Dom) : State :=
  let s := dropDrain s d
  let t := s.entryNow d
  if (s.domSt d).num < t.num && !(s.domCtl d).dead then startWake s d t else s

/-- The domains that IDLE or SLEEP lowered return, and the request ends. -/
def compatReturn (s : State) : State :=
  let ds := s.pwr.compatLowered
  ds.foldl raiseAgain { s with pwr.idleOn := false, pwr.sleepOn := false, pwr.compatLowered := [] }

/-- A request lowers a domain that stands above a state, unless it holds queued launches. -/
def compatLower (t : DomState) (s : State) (d : Dom) : State :=
  if t.num < (s.domSt d).num && !s.holdsLaunch d then
    beginDrain { s with pwr.compatLowered := if s.pwr.compatLowered.contains d then s.pwr.compatLowered
                          else s.pwr.compatLowered ++ [d] } d t
  else s

/-- A compatibility request is refused: REFUSED and event 0x010B. -/
def compatRefuse (s : State) : State := logEvent { s with pwr.compatRefused := true } 0x010B []

/-- A request by a write to PWR_COMPAT.REQ (Table 2.5). Values that the table does not name do nothing. -/
def compatReq (s : State) (v : Nat) : State :=
  let s' := { s with pwr.compatRefused := false }
  match v with
  | 0 => compatReturn (plRequest s' 3)
  | 1 => compatLower .gated { s' with pwr.idleOn := true } .host
  | 2 =>
    let s' := { s' with pwr.sleepOn := true }
    let s' := compatLower .ret (compatLower .gated s' .host) .mem
    [Dom.led, .eth, .uwb, .adc].foldl (fun s d => if s.isOn d then compatLower .gated s d else s) s'
  | 3 => if s.kl15On then compatRefuse s else judge (netAll { s' with pwr.needs := 0 })
  | 4 => if modeSetStatus s 0 = stOk then goMode s' .storage 0x02 else compatRefuse s
  | _ => s

/-- HOST_INTERRUPT_WAKE (R60): a host interrupt ends IDLE or SLEEP. -/
def execHostInterruptWake (s : State) : Host.Outcome State Fault Refusal :=
  .next (if s.pwr.idleOn || s.pwr.sleepOn then compatReturn s else s)

/-! ## The thermal governor -/

/-- The dissipation limit in 0.01 W (R79): P_MAX, less 5 W for each kelvin of plate above 85 °C, at least 10 W. -/
def State.govLimit (s : State) : Nat :=
  let plate : Int := Sys2Proof.Machine.signed 16 (adcPlate s)
  let top := s.pwr.pMax.toNat * 50
  if plate ≤ 8500 then top else max 1000 (top - (5 * (plate - 8500)).toNat)

/-- A step is taken (Table 2.9); in step 5 the next shed priority follows before step 6. -/
def govTake (s : State) (above : Bool) : State :=
  let now := s.clk.ns
  if s.pwr.govStep = 5 && above && 1 < s.pwr.shedFrom then
    let p := s.pwr.shedFrom - 1
    hsoShed { s with pwr.shedFrom := p, pwr.stepAt := now } p
  else if 6 ≤ s.pwr.govStep then s
  else
    let n := s.pwr.govStep + 1
    let s := logEvent { s with pwr.govStep := n, pwr.stepAt := now } 0x0107 [n, 1]
    let s := plSync s
    if n = 5 then hsoShed { s with pwr.shedFrom := 7 } 7 else if n = 6 then ledShed s else s

/-- A step is released (R81). -/
def govRelease (s : State) : State :=
  if s.pwr.govStep = 0 then s
  else
    let n := s.pwr.govStep
    let s := logEvent { s with pwr.govStep := n - 1, pwr.underSince := some s.clk.ns, pwr.stepAt := s.clk.ns } 0x0107 [n - 1, 0]
    let s := plSync s
    if n = 6 then ledUnshed s else if n = 5 then hsoUnshed { s with pwr.shedFrom := 8 } else s

/-- GOVERNOR_TICK (R78 to R81): the estimate in 0.01 W and the hottest die junction in °C. -/
def execGovernorTick (estimate : BitVec 16) (junction : Int) (s : State) : Host.Outcome State Fault Refusal :=
  .next (
    let now := s.clk.ns
    let s := { s with pwr.pEst := estimate }
    let limit := s.govLimit
    let above := limit < estimate.toNat
    let under := estimate.toNat * 10 < limit * 9 && junction < 125
    let s := { s with
      pwr.overSince := if above then some (s.pwr.overSince.getD now) else none,
      pwr.underSince := if under then some (s.pwr.underSince.getD now) else none }
    let due := match s.pwr.overSince with
      | some t => decide (t + sec ≤ now)
      | none => false
    if (due || 140 < junction) && (s.pwr.govStep = 0 || s.pwr.stepAt + sec ≤ now) then govTake s above
    else match s.pwr.underSince with
      | some t => if t + 10 * sec ≤ now then govRelease s else s
      | none => s)

end Sys2Proof.Machine
end

