-- ==== Sys2Proof/Machine/Weave.lean ====
section
/-! DEFINITION. The WEAVE block but for firing: synchronisation, wall-clock time, capture units, cancelling launches and
the latching reads (R89 to R108, R118, R129 to R138). -/

namespace Sys2Proof.Machine

/-! ## Synchronisation -/

/-- The sync state changes; a change is logged with the old state, the new one and the last offset (Table 3.6). -/
def setSync (s : State) (st : SyncState) : State :=
  if s.weave.sync = st then s
  else logEvent { s with weave.sync := st } 0x0201 [s.weave.sync.num, st.num, s.weave.offset.toNat]

/-- WEAVE_OFFSET: the offset saturated to ±2 147 483 647 ns (Table 3.9). -/
def satOffset (x : Int) : BitVec 32 :=
  BitVec.ofInt 32 (if x < -2147483647 then -2147483647 else if 2147483647 < x then 2147483647 else x)

/-- A launch that survives a step: COMMIT and fleet APPLY entries (R103). -/
def survivesStep (e : Launch) : Bool :=
  match e.host with
  | none => true
  | some (_, .commit _) => true
  | some (_, .fleetCommit ..) => true
  | _ => false

/-- The step of R102: Weave time moves by the negative of the offset, the queue keeps COMMIT and APPLY entries only, one
whose due time has passed fires on the next tick as LATE (R103), a COMMIT without a due time fires on the next tick, and the worker is ACQUIRING. -/
def weaveStep (s : State) (offset : Int) : State :=
  let cut := s.weave.queue.filter (fun e => !survivesStep e)
  let s := { s with weave.time := BitVec.ofInt 64 ((s.weave.time.toNat : Int) - offset) &&& ~~~3#64,
                    weave.stepCount := s.weave.stepCount + 1, weave.slew := 0, weave.lockRun := 0, weave.badRun := 0,
                    weave.lastFire := none }
  let now := s.weave.time
  let keep := (s.weave.queue.filter survivesStep).map (fun e =>
    if e.due == 0 then { e with fire := now + 4 }
    else if e.due.toNat < now.toNat then { e with late := true, fire := now + 4 } else e)
  let s := cut.foldl (fun s e => cancelLaunch s e stCancelled) { s with weave.queue := keep }
  setSync (logEvent s 0x0204 [(BitVec.ofInt 64 (-offset)).toNat, cut.length]) .acquiring

/-- A worker measures its offset on a Sync and Follow_Up (R96 to R102). -/
def syncRx (s : State) (offset : Int) (interval : Nat) : State :=
  let s := { s with weave.lastSync := s.clk.ns, weave.holdFrom := s.clk.ns,
                    weave.lastInterval := BitVec.ofNat 3 interval, weave.offset := satOffset offset }
  if 50000 < offset.natAbs then weaveStep s offset
  else
    let inTh := offset.natAbs ≤ s.weave.lockTh.toNat * 4
    let run := if inTh then s.weave.lockRun + 1 else 0
    let s := { s with weave.slew := offset, weave.lockRun := capAt 16 run }
    match s.weave.sync with
    | .free => s
    | .lost => setSync s .acquiring
    | .acquiring => if 16 ≤ run then setSync { s with weave.badRun := 0 } .locked else s
    | .holdover => if 16 ≤ run then setSync { s with weave.badRun := 0 } .locked else s
    | .locked =>
      if 500 < offset.natAbs then
        if 3 ≤ s.weave.badRun then setSync { s with weave.badRun := 0, weave.lockRun := 0 } .acquiring
        else { s with weave.badRun := s.weave.badRun + 1 }
      else { s with weave.badRun := 0 }

/-- The Sync interval 2^(−n) s in ns (R93). -/
def syncPeriod (n : Nat) : Nat := sec / 2 ^ n

/-- SYNC_TX: a manager sends Sync with Follow_Up, then TIME (R93, R108). -/
def execSyncTx (s : State) : Host.Outcome State Fault Refusal :=
  .next (if s.role == .manager then
    (s.send (.sync s.weave.syncInt.toNat s.weave.time.toNat)).send (.timeMsg s.weave.wall s.weave.setCount)
    else s)

/-- PDELAY_EXCHANGE: the measured path delay of the link (R93). -/
def execPdelayExchange (delay : Nat) (s : State) : Host.Outcome State Fault Refusal :=
  .next { s with weave.pathDelay := delay }

/-- SYNC_MISSED: three Sync intervals passed without a Sync; a LOCKED worker enters HOLDOVER (R94, Table 3.1), where the
lock criterion counts anew (R98). -/
def execSyncMissed (s : State) : Host.Outcome State Fault Refusal :=
  .next (match s.weave.sync with
    | .locked =>
      let s := s.reach (s.weave.lastSync + 3 * syncPeriod s.weave.lastInterval.toNat)
      setSync { s with weave.lockRun := 0, weave.holdFrom := s.clk.ns } .holdover
    | _ => s)

/-- TIME_MSG_RX: a worker whose SOURCE is 1 takes the offset and SET_COUNT from the manager (R108). -/
def execTimeMsgRx (wallOffset : BitVec 64) (setCount : BitVec 16) (s : State) : Host.Outcome State Fault Refusal :=
  .next (if s.role == .worker && s.weave.wallSource then
    { s with weave.wall := wallOffset, weave.setCount := setCount } else s)

/-! ## Wall-clock time -/

/-- WALL_SET acts (R106, R107), or is refused on a worker that takes the time from its manager (R108). -/
def actWallSet (utc at_ : BitVec 64) (a : Act) (s : State) : State :=
  if s.role == .worker && s.weave.wallSource then refuse s a 0x80
  else
    let s := { s with weave.wall := utc - at_, weave.setCount := s.weave.setCount + 1, weave.wallValid := true,
                      weave.coarse := false }
    finish (logEvent s 0x0206 [s.weave.setCount.toNat]) a

/-- WALL_SET. -/
def execWallSet (d : Desc) (utc at_ : BitVec 64) (s : State) : Host.Outcome State Fault Refusal :=
  .next (accept d (.wallSet utc at_) (actWallSet utc at_) s)

/-! ## Capture -/

/-- SRC of a unit as it acts: values that name no source act as none (Table 3.13). -/
def capSource (s : State) (n : Nat) : Nat :=
  let x := bits (capCfg s n) 0 7
  if x = 1 ∨ (0x10 ≤ x ∧ x < 0x40) then x else 0

/-- The unit takes edges of this direction (Table 3.13, EDGE). -/
def capTakes (s : State) (n : Nat) (rising : Bool) : Bool :=
  match bits (capCfg s n) 8 2 with
  | 1 => !rising
  | 2 => true
  | _ => rising

/-- CAPTURE_ARM acts: the unit is armed until its next edge or its TIMEOUT (R131, R132). -/
def actCaptureArm (unit : BitVec 3) (timeout : BitVec 24) (a : Act) (s : State) : State :=
  if capSource s unit.toNat = 0 then refuse s a 0x81
  else { s with weave.armed := s.weave.armed ++ [⟨unit.toNat, a, s.clk.ns + timeout.toNat * ms⟩] }

/-- CAPTURE_ARM. -/
def execCaptureArm (d : Desc) (unit : BitVec 3) (timeout : BitVec 24) (s : State) : Host.Outcome State Fault Refusal :=
  .next (accept d (.captureArm unit timeout) (actCaptureArm unit timeout) s)

/-- An edge at one unit: the time is recorded and the oldest armed descriptor completes with it (R129, R132). -/
def captureUnit (s : State) (n : Nat) : State :=
  let s := { s with weave.capTime := vset s.weave.capTime n s.weave.time }
  match s.weave.armed.find? (fun x => x.unit == n) with
  | none => s
  | some x =>
    complete { s with weave.armed := s.weave.armed.erase x } x.act.d stOk 0 s.weave.time.toNat 0 0

/-- CAPTURE_EDGE: every unit whose source and edge are selected records it. Weave runs only while PD_ACT is On. -/
def execCaptureEdge (source : BitVec 7) (rising : Bool) (s : State) : Host.Outcome State Fault Refusal :=
  .next (if s.timRuns then
    (List.range 8).foldl (fun s n =>
      if source != 0 && capSource s n == source.toNat && capTakes s n rising then captureUnit s n else s) s
    else s)

/-- CAPTURE_TIMEOUT: the armed descriptor of the unit whose time is first to pass completes TIMEOUT (R132). -/
def execCaptureTimeout (unit : Fin 8) (s : State) : Host.Outcome State Fault Refusal :=
  let mine := s.weave.armed.filter (fun x => x.unit == unit.val)
  .next (match mine.foldl (fun (b : Option Armed) x =>
      match b with | none => some x | some y => some (if x.deadline < y.deadline then x else y)) none with
    | none => s
    | some x =>
      let s := s.reach x.deadline
      complete { s with weave.armed := s.weave.armed.erase x } x.act.d stTimeout 0 s.weave.time.toNat 0 0)

/-! ## Latching reads -/

/-- A read of WEAVE_TIME_LO latches the upper half (R92). -/
def latchTime (s : State) : State := { s with weave.timeHi := BitVec.ofNat 32 (s.weave.time.toNat / 2 ^ 32) }

/-- A read of WEAVE_WALL_LO latches WEAVE_WALL_HI (Table 3.12). -/
def latchWall (s : State) : State := { s with weave.wallHi := BitVec.ofNat 32 (s.weave.wall.toNat / 2 ^ 32) }

/-- A read of WEAVE_CAP_LO_n latches WEAVE_CAP_HI_n (Table 3.14). -/
def latchCapture (s : State) (n : Nat) : State :=
  { s with weave.capHi := vset s.weave.capHi n (BitVec.ofNat 32 ((vget s.weave.capTime n).toNat / 2 ^ 32)) }

end Sys2Proof.Machine
end

