-- ==== Sys2Proof/Machine/RegWrite.lean ====
section
/-! DEFINITION. What a 4-byte write to each set-up register does, under the access types of Table 21.3 and the rules of
the register tables, and what a read changes (R92, R535). A field whose table takes one value as another holds the value
taken. -/

namespace Sys2Proof.Machine

/-! ## Fields -/

/-- A W1C or RWS bit held as a Bool: a 1 in the write clears it. -/
def w1 (old : Bool) (v : BitVec 32) (i : Nat) : Bool := old && !v.getLsbD i

/-- A W1C or RWS field at `lo`: each 1 in the write clears its bit. -/
def w1c {n : Nat} (old : BitVec n) (v : BitVec 32) (lo : Nat) : BitVec n := old &&& ~~~BitVec.ofNat n (v.toNat / 2 ^ lo)

/-- A W1C word that lies at bit `lo` of a wider field. -/
def w1cAt {n : Nat} (old : BitVec n) (v : BitVec 32) (lo : Nat) : BitVec n := old &&& ~~~BitVec.ofNat n (v.toNat * 2 ^ lo)

/-- A 32-bit word of a wider field replaced. -/
def setWord {n : Nat} (old : BitVec n) (v : BitVec 32) (lo : Nat) : BitVec n :=
  (old &&& ~~~BitVec.ofNat n (0xFFFFFFFF * 2 ^ lo)) ||| BitVec.ofNat n (v.toNat * 2 ^ lo)

/-- A field of the written value. -/
def fld (v : BitVec 32) (lo width : Nat) : Nat := bits v.toNat lo width

/-- Address bits [31:k] written. -/
def setLo (old : BitVec 36) (v : BitVec 32) (k : Nat) : BitVec 36 :=
  BitVec.ofNat 36 (old.toNat / 2 ^ 32 * 2 ^ 32 + v.toNat / 2 ^ k * 2 ^ k)

/-- Address bits [35:32] written. -/
def setHi (old : BitVec 36) (v : BitVec 32) : BitVec 36 := BitVec.ofNat 36 (v.toNat % 16 * 2 ^ 32 + old.toNat % 2 ^ 32)

/-- The value 0 is taken as 1. -/
def atLeast1 (x : Nat) : Nat := max 1 x

/-! ## SYS, PWR, WEAVE -/

/-- SYS (Table 21.4). -/
def sysWrite (s : State) (addr off : Nat) (v : BitVec 32) : State :=
  match off with
  | 0x010 => stagedWrite s addr 0 1 0 [0] 0 0x1 v
  | 0x018 => { s with sys.faultValid := w1 s.sys.faultValid v 7 }
  | 0x024 => { s with sys.stageWrLost := w1 s.sys.stageWrLost v 0 }
  | 0x030 => { s with sys.scratch := vset s.sys.scratch 0 v }
  | 0x034 => { s with sys.scratch := vset s.sys.scratch 1 v }
  | 0x038 => { s with sys.scratch := vset s.sys.scratch 2 v }
  | 0x03C => { s with sys.scratch := vset s.sys.scratch 3 v }
  | _ => s

/-- PWR (Tables 2.15 to 2.21). -/
def pwrWrite (s : State) (off : Nat) (v : BitVec 32) : State :=
  match off with
  | 0x008 => { s with pwr.domFail := w1c s.pwr.domFail v 0 }
  | 0x00C => plRequest s (fld v 0 3)
  | 0x010 => plSync { s with pwr.pl4OnMax := BitVec.ofNat 8 (capAt 60 (fld v 0 8)),
                             pwr.pl4Window := BitVec.ofNat 8 (max 60 (fld v 8 8)) }
  | 0x014 => { s with pwr.drainBound := BitVec.ofNat 15 (clamp 100 20000 (fld v 0 15)) }
  | 0x018 => { s with pwr.pMax := BitVec.ofNat 8 (capAt 0x6E (fld v 0 8)) }
  | 0x01C => compatReq s (fld v 0 3)
  | 0x020 => { s with pwr.railFail := w1c s.pwr.railFail v 0, pwr.xtalFail := w1 s.pwr.xtalFail v 6 }
  | _ => s

/-- WEAVE (Tables 3.7 to 3.14). -/
def weaveWrite (s : State) (addr off : Nat) (v : BitVec 32) : State :=
  match off with
  | 0x010 => { s with weave.syncInt := BitVec.ofNat 3 (capAt 5 (fld v 0 3)),
                      weave.holdMax := BitVec.ofNat 8 (atLeast1 (fld v 8 8)),
                      weave.lockTh := BitVec.ofNat 8 (atLeast1 (fld v 16 8)) }
  | 0x020 => { s with weave.wallSource := v.getLsbD 18 }
  | _ => if 0x040 ≤ off ∧ off < 0x060 then stagedWrite s addr 2 1 ((off - 0x040) / 4) [0] 0 0x37F v else s

/-! ## RING, CFG -/

/-- Registers of ring `n` (Tables 4.16 to 4.19). -/
def ringWrite1 (s : State) (n off : Nat) (v : BitVec 32) : State :=
  let r := s.ringN n
  match off with
  | 0x00 => ringBaseWrite s n (setLo r.dbase v 6) true
  | 0x04 => ringBaseWrite s n (setHi r.dbase v) true
  | 0x08 => ringBaseWrite s n (setLo r.cbase v 5) false
  | 0x0C => ringBaseWrite s n (setHi r.cbase v) false
  | 0x10 => ringCfgWrite s n v
  | 0x14 => s.modRing n (fun r => { r with modTime := BitVec.ofNat 10 (fld v 0 10), modCount := BitVec.ofNat 8 (fld v 16 8) })
  | 0x18 => s.modRing n (fun r => { r with cfgErr := w1 r.cfgErr v 18 })
  | _ => s

/-- RING (Tables 4.13 to 4.19). -/
def ringWrite (s : State) (off : Nat) (v : BitVec 32) : State :=
  if 0x1000 ≤ off ∧ off < 0x2000 then ringWrite1 s ((off - 0x1000) / 0x20) (off % 0x20) v
  else
    match off with
    | 0x000 => dbBaseWrite s (setLo s.rings.dbBase v 10)
    | 0x004 => dbBaseWrite s (setHi s.rings.dbBase v)
    | 0x008 => dbCtlWrite s v
    | 0x030 => { s with rings.blkPend := w1cAt s.rings.blkPend v 0 }
    | 0x034 => { s with rings.blkPend := w1cAt s.rings.blkPend v 32 }
    | 0x038 => { s with rings.blkEn := setWord s.rings.blkEn (v &&& 0x3FFFFF#32) 0 }
    | 0x03C => s
    | 0x040 => { s with rings.blkHart := BitVec.ofNat 2 (fld v 0 2), rings.blkS := v.getLsbD 2 }
    | _ =>
      if 0x010 ≤ off ∧ off < 0x020 then { s with rings.irqPend := w1cAt s.rings.irqPend v (8 * (off - 0x010)) }
      else if 0x020 ≤ off ∧ off < 0x030 then { s with rings.irqEn := setWord s.rings.irqEn v (8 * (off - 0x020)) }
      else s

/-- CFG (Table 5.12). -/
def cfgWrite (s : State) (off : Nat) (v : BitVec 32) : State :=
  match off with
  | 0x01C => { s with cfg.voteTo := BitVec.ofNat 8 (atLeast1 (fld v 0 8)), cfg.hold := BitVec.ofNat 8 (atLeast1 (fld v 8 8)),
                      cfg.retx := BitVec.ofNat 8 (atLeast1 (fld v 16 8)) }
  | _ => s

/-! ## HSO, EDGE, VLV, FACET -/

/-- HSO_FLAG_n (Table 6.19). -/
def hsoFlagWrite (v : BitVec 32) (c : HsoCh) : HsoCh :=
  { c with fast := w1 c.fast v 0, ot := w1 c.ot v 1, wire := w1 c.wire v 2, overload := w1 c.overload v 3,
           groupOt := w1 c.groupOt v 4, shortBat := w1 c.shortBat v 7, symp := w1 c.symp v 8 }

/-- HSO (Tables 6.16 to 6.19). -/
def hsoWrite (s : State) (off : Nat) (v : BitVec 32) : State :=
  if off = 0x000 then { s with hso.monCh := BitVec.ofNat 6 (fld v 0 6), hso.monEn := v.getLsbD 6 }
  else if 0x100 ≤ off ∧ off < 0x500 ∧ off % 0x10 = 0x4 then
    { s with hso.ch := vmod s.hso.ch ((off - 0x100) / 0x10) (hsoFlagWrite v) }
  else s

/-- EDGE (Tables 7.8 and 7.9). -/
def edgeWrite (s : State) (addr off : Nat) (v : BitVec 32) : State :=
  match off with
  | 0x000 => stagedWrite s addr 6 3 0 [0x408] 0 0xF3F v
  | 0x010 => stagedWrite s addr 6 1 0 [0x00025804] 0 0x00FFFF1F v
  | 0x014 => stagedWrite s addr 6 1 1 [0x0000C804] 0 0x00FFFF1F v
  | 0x018 => stagedWrite s addr 6 1 2 [0x0000C804] 0 0x00FFFF1F v
  | 0x020 => { s with edge.overFixed := w1 s.edge.overFixed v 0, edge.overPlan := w1 s.edge.overPlan v 1 }
  | _ => s

/-- VLV_FLAG_n (Table 8.14). -/
def vlvFlagWrite (v : BitVec 32) (c : VlvCh) : VlvCh :=
  { c with oc := w1 c.oc v 0, openOn := w1 c.openOn v 1, stb := w1 c.stb v 3, bnr := w1 c.bnr v 4,
           deferOut := w1 c.deferOut v 5, pullin := w1 c.pullin v 6, noMove := w1 c.noMove v 7,
           bankFault := w1 c.bankFault v 8 }

/-- VLV (Tables 8.12 to 8.14). -/
def vlvWrite (s : State) (addr off : Nat) (v : BitVec 32) : State :=
  match off with
  | 0x000 => stagedWrite s addr 7 3 0 [0x005A01E0, 0x12C] 0 0x017F03FF v
  | 0x004 => stagedWrite s addr 7 3 0 [0x005A01E0, 0x12C] 1 0x3FF v
  | 0x008 => { s with vlv.ov := w1 s.vlv.ov v 19 }
  | _ =>
    if 0x100 ≤ off ∧ off < 0x300 ∧ off % 0x10 = 0x8 then
      { s with vlv.ch := vmod s.vlv.ch ((off - 0x100) / 0x10) (vlvFlagWrite v) }
    else s

/-- FACET_FLAG_n (Table 9.21). -/
def facetFlagWrite (v : BitVec 32) (c : FCtx) : FCtx :=
  { c with runaway := w1 c.runaway v 0, peakTime := w1 c.peakTime v 1, user := w1 c.user v 2, progStop := w1 c.progStop v 3 }

/-- FACET (Table 9.21). -/
def facetWrite (s : State) (off : Nat) (v : BitVec 32) : State :=
  if 0x100 ≤ off ∧ off < 0x300 ∧ off % 0x10 = 0x8 then
    { s with facet.ctx := vmod s.facet.ctx ((off - 0x100) / 0x10) (facetFlagWrite v) }
  else s

/-! ## LED, MTX, FIO -/

/-- LED_FLAG_n (Table 10.12). -/
def ledFlagWrite (v : BitVec 32) (c : LedCh) : LedCh :=
  { c with isOpen := w1 c.isOpen v 0, oc := w1 c.oc v 2, nbr := w1 c.nbr v 3, ot := w1 c.ot v 4 }

/-- LED (Tables 10.11 and 10.12). -/
def ledWrite (s : State) (off : Nat) (v : BitVec 32) : State :=
  match off with
  | 0x008 => { s with led.saturated := w1 s.led.saturated v 2 }
  | 0x010 => ledGainWrite s 0 (v.setWidth 13)
  | 0x014 => ledGainWrite s 1 (v.setWidth 13)
  | 0x018 => ledGainWrite s 2 (v.setWidth 13)
  | _ =>
    if 0x100 ≤ off ∧ off < 0x1C0 ∧ off % 0x10 = 0x8 then
      { s with led.ch := vmod s.led.ch ((off - 0x100) / 0x10) (ledFlagWrite v) }
    else s

/-- MTX (Table 10.13). -/
def mtxWrite (s : State) (off : Nat) (v : BitVec 32) : State :=
  match off with
  | 0x004 => { s with mtx.rowOc := w1c s.mtx.rowOc v 0 }
  | 0x010 => { s with mtx.isOpen := w1cAt s.mtx.isOpen v 0 }
  | 0x014 => { s with mtx.isOpen := w1cAt s.mtx.isOpen v 32 }
  | _ => s

/-- FIO_FLAG_n (Table 11.9). -/
def fioFlagWrite (v : BitVec 32) (c : FioCh) : FioCh :=
  { c with limit := w1 c.limit v 0, ot := w1 c.ot v 1, broken := w1 c.broken v 2 }

/-- FIO (Tables 11.8 and 11.9). -/
def fioWrite (s : State) (off : Nat) (v : BitVec 32) : State :=
  if off = 0x008 then { s with fio.wakeSrc := w1c s.fio.wakeSrc v 0 }
  else if 0x100 ≤ off ∧ off < 0x280 ∧ off % 8 = 4 then
    { s with fio.ch := vmod s.fio.ch ((off - 0x100) / 8) (fioFlagWrite v) }
  else s

/-! ## CAN, NET, ETH, PLAIT -/

/-- Reset words of a CAN_CH record (Table 12.15). -/
def canDflt : List (BitVec 32) := [0x000A1010, 0x04894403, 0x00991C00, 0x00000100, 0x00001E01]

/-- Writable bits of CAN_CTRL_n: XL_EN on CAN8 and CAN9 only, TBC_EN on CAN0 only. -/
def canCtrlMask (n : Nat) : BitVec 32 :=
  (0x00FFFF17#32 ||| (if 8 ≤ n then 0x08#32 else 0#32)) ||| (if n = 0 then 0x20#32 else 0#32)

/-- CAN (Tables 12.15 and 12.16). -/
def canWrite (s : State) (addr off : Nat) (v : BitVec 32) : State :=
  let n := off / 0x1000
  if 10 ≤ n then s
  else
    match off % 0x1000 with
    | 0x000 => stagedWrite s addr 12 1 n canDflt 0 (canCtrlMask n) v
    | 0x004 => stagedWrite s addr 12 1 n canDflt 1 0x3FFFFFFF v
    | 0x008 => stagedWrite s addr 12 1 n canDflt 2 0x00FF1F1F v
    | 0x00C => if 8 ≤ n then stagedWrite s addr 12 1 n canDflt 3 0x00FF1F1F v else s
    | 0x010 => stagedWrite s addr 12 1 n canDflt 4 0x007F7F03 v
    | _ => s

/-- NET (Table 13.10). -/
def netWrite (s : State) (off : Nat) (v : BitVec 32) : State :=
  if off = 0x004 then { s with net.wakeSrc := w1c s.net.wakeSrc v 0 } else s

/-- ETH (Table 14.17). -/
def ethWrite (s : State) (addr off : Nat) (v : BitVec 32) : State :=
  match off with
  | 0x000 => stagedWrite s addr 14 1 0 [0] 0 0xF v
  | 0x010 => stagedWrite s addr 14 1 1 [0] 0 0xF v
  | 0x020 => stagedWrite s addr 14 1 2 [0] 0 0xF v
  | 0x030 => stagedWrite s addr 14 1 3 [0] 0 0xF v
  | 0x108 => stagedWrite s addr 14 2 0 [0x001E0002] 0 0x00FF0FFF v
  | _ => s

/-- No link of this module is UP. -/
def State.noLink (s : State) : Bool := s.plait.link.toList.all (fun l => !l.up)

/-- PLAIT (Tables 14.15 and 14.16). PLAIT_RDB_HI.REG changes only while no worker link is UP. -/
def plaitWrite (s : State) (addr off : Nat) (v : BitVec 32) : State :=
  let p := s.plait
  match off with
  | 0x00C => stagedWrite s addr 15 1 0 [0, 0, 0x00532814] 2 0x0FFFFFFF v
  | 0x014 => { s with plait.errValid := w1 p.errValid v 14 }
  | 0x01C => { s with plait.patPage := BitVec.ofNat 9 (fld v 0 9), plait.patWorker := BitVec.ofNat 5 (fld v 16 5) }
  | 0x020 => stagedWrite s addr 15 3 (512 * p.patWorker.toNat + p.patPage.toNat)
      [BitVec.ofNat 32 (pageAttr s p.patWorker.toNat p.patPage.toNat)] 0 0xF v
  | 0x024 => { s with plait.rdb := setLo p.rdb v 12 }
  | 0x028 => { s with plait.rdb := setHi p.rdb v, plait.rdbReg := if s.noLink then v.getLsbD 8 else p.rdbReg }
  | 0x02C => { s with plait.aper := BitVec.ofNat 12 (fld v 0 12) }
  | _ =>
    if 0x084 ≤ off ∧ off < 0x100 then
      s.modLink ((off - 0x080) / 4) (fun l => { l with rpend := w1c l.rpend v 0 })
    else s

/-! ## ACC, BEZEL, ECC -/

/-- ACC (Table 15.9). -/
def accRegWrite (s : State) (off : Nat) (v : BitVec 32) : State :=
  if off = 0x000 then { s with acc.radioFault := w1 s.acc.radioFault v 17 } else s

/-- BEZEL_WDT_CFG: an EN that rises starts the count from zero. -/
def wdtCfgWrite (s : State) (v : BitVec 32) : State :=
  let was := s.bezel.wdtEn
  let s := { s with
    bezel.wdtTimeout := BitVec.ofNat 14 (clamp 10 10000 (fld v 0 14)), bezel.wdtMin := BitVec.ofNat 12 (fld v 16 12),
    bezel.wdtAction := v.getLsbD 28, bezel.wdtEn := v.getLsbD 29 }
  if !was && s.bezel.wdtEn then wdtRestart s else s

/-- BEZEL_HOLD: the hold window, which retention RAM keeps too (Table 16.1). -/
def holdWrite (s : State) (v : BitVec 32) : State :=
  let w := BitVec.ofNat 10 (clamp 1 600 (fld v 0 10))
  { s with bezel.holdWindow := w, bezel.retWindow := w }

/-- BEZEL (Tables 16.10 and 16.11). -/
def bezelWrite (s : State) (off : Nat) (v : BitVec 32) : State :=
  match off with
  | 0x008 => if fld v 0 16 = 0x0B1E then plainReset s .software else s
  | 0x00C => holdWrite s v
  | 0x010 => wdtCfgWrite s v
  | 0x014 => kickWrite s v
  | 0x018 => { s with bezel.wdtExpired := w1c s.bezel.wdtExpired v 16 }
  | 0x01C => { s with bezel.stormN := BitVec.ofNat 4 (atLeast1 (fld v 0 4)),
                      bezel.stormWin := BitVec.ofNat 8 (atLeast1 (fld v 8 8)) }
  | 0x024 => { s with bezel.domFault := w1c s.bezel.domFault v 0 }
  | 0x028 => { s with bezel.mirrorMiss := w1 s.bezel.mirrorMiss v 5 }
  | 0x030 => { s with bezel.retErr := w1c s.bezel.retErr v 0 }
  | _ => s

/-- ECC (Table 21.10). -/
def eccWrite (s : State) (off : Nat) (v : BitVec 32) : State :=
  match off with
  | 0x000 => { s with ecc.scrubEn := v.getLsbD 0, ecc.passH := BitVec.ofNat 8 (atLeast1 (fld v 8 8)) }
  | 0x014 => { s with ecc.ovf := w1 s.ecc.ovf v 3 }
  | _ =>
    if 0x020 ≤ off ∧ off < 0x060 ∧ off % 8 = 4 then
      { s with ecc.log := vmod s.ecc.log ((off - 0x020) / 8) (fun e => { e with valid := w1 e.valid v 7 }) }
    else s

/-! ## The map -/

/-- A 4-byte write to a set-up register; a write to an offset that no table names is ignored (R715). -/
def regWrite (s : State) (addr : Nat) (v : BitVec 32) : State :=
  let off := (addr - regBase) % 0x10000
  match blockOfAddr addr with
  | 0 => sysWrite s addr off v
  | 1 => pwrWrite s off v
  | 2 => weaveWrite s addr off v
  | 3 => ringWrite s off v
  | 4 => cfgWrite s off v
  | 5 => hsoWrite s off v
  | 6 => edgeWrite s addr off v
  | 7 => vlvWrite s addr off v
  | 8 => facetWrite s off v
  | 9 => ledWrite s off v
  | 10 => mtxWrite s off v
  | 11 => fioWrite s off v
  | 12 => canWrite s addr off v
  | 13 => netWrite s off v
  | 14 => ethWrite s addr off v
  | 15 => plaitWrite s addr off v
  | 16 => accRegWrite s off v
  | 17 => bezelWrite s off v
  | 21 => eccWrite s off v
  | _ => s

/-- What a read of a register changes: the three latching reads (R92, R535). -/
def readLatch (s : State) (addr : Nat) : State :=
  if addr = 0xA0020000 then latchTime s
  else if addr = 0xA0020018 then latchWall s
  else if 0xA0020060 ≤ addr ∧ addr < 0xA00200A0 ∧ addr % 8 = 0 then latchCapture s ((addr - 0xA0020060) / 8)
  else s

/-- A read of this register changes device state (R535, Table 14.8). -/
def readSensitive (addr : Nat) : Bool :=
  addr == 0xA0020000 || addr == 0xA0020018 || (0xA0020060 ≤ addr && addr < 0xA00200A0 && addr % 8 == 0)

/-- A 4-byte read of a set-up register. -/
def regLoad (s : State) (addr : Nat) : BitVec 32 × State := (BitVec.ofNat 32 (regValue s addr), readLatch s addr)

end Sys2Proof.Machine
end

