-- ==== Sys2Proof/Machine/Window.lean ====
section
/-! DEFINITION. The manager's side of the worker windows: page attributes, host accesses, PLAIT_COPY, PLAIT_PING and
PLAIT_DROP (R527 to R534, R549). -/

namespace Sys2Proof.Machine

/-! ## Reaching a domain -/

/-- Whether an access may go to a domain now, must wait for its wake, or never gets there and with which status
(R43, R61, R63). -/
inductive Reach where
  | now
  | wait (d : Dom)
  | never (status : Nat)
  deriving DecidableEq, Repr

/-- How an access reaches a domain. -/
def State.domReach (s : State) (d : Dom) : Reach :=
  if s.isOn d then .now
  else if s.entryNow d == .off then .never stRefusedState
  else if (s.domCtl d).dead then .never stDomainWakeFail
  else .wait d

/-- The domain that holds an address of Table 21.1. -/
def addrDom (a : Nat) : Dom := if regBase ≤ a then blockDom (blockOfAddr a) else if inDram a then .mem else .svc

/-! ## Window pages -/

/-- The exclusive-OR that SWAP of a page attribute applies to byte addresses (R528). -/
def swapOf (attr : Nat) : Nat := match attr / 4 with | 1 => 3 | 2 => 7 | _ => 0

/-- A window offset in a register page (Table 14.7). -/
def regPage (off : Nat) : Bool := off < 0x160000

/-- A window offset in a reserved page (Table 14.7). -/
def reservedPage (off : Nat) : Bool := (0x160000 ≤ off && off < 0x800000) || (0xF00000 ≤ off && off < 0x1000000)

/-- Where a transaction of `n` bytes asked for at `off` begins at the worker: with SWAP, the group of 1, 2 or 4 bytes that
holds the swapped addresses, or the same place for whole groups of 8. -/
def swapBase (off n k : Nat) : Nat := if k ≠ 0 ∧ (n = 1 ∨ n = 2 ∨ n = 4) then (off ^^^ k) / n * n else off

/-- Bytes in address order from `dst`, taken from bytes in address order from `src`, under the exclusive-OR `k`. -/
def swapBytes (dst src k n : Nat) (bs : List (BitVec 8)) : List (BitVec 8) :=
  (List.range n).map (fun i => bs.getD (((dst + i) ^^^ k) - src) 0)

/-- The bytes asked for, from the bytes of a block that begins at `src`. -/
def NpOut.asked (o : NpOut) (n : Nat) (bs : List (BitVec 8)) : List (BitVec 8) := swapBytes o.ask o.offset o.swap n bs

/-! ## Read-ahead buffers (R534) -/

/-- The block that holds a window offset, if a buffer holds it. -/
def State.heldBlock (s : State) (w off : Nat) : Option ReadAhead := (s.plink w).ahead.find? (fun b => b.block == off / 64)

/-- A write discards the held blocks it touches. -/
def dropAhead (s : State) (w off n : Nat) : State :=
  s.modLink w (fun l => { l with ahead := l.ahead.filter (fun b => !(off / 64 ≤ b.block && b.block ≤ (off + n - 1) / 64)) })

/-- A block read is held; with eight held, the oldest makes room. -/
def holdAhead (s : State) (w off : Nat) (bs : List (BitVec 8)) : State :=
  s.modLink w (fun l =>
    let old := l.ahead.filter (fun b => b.block != off / 64)
    { l with ahead := old.drop (old.length - 7) ++ [{ block := off / 64, bytes := bs, at_ := s.clk.ns }] })

/-! ## Transactions -/

/-- A write of `n` bytes at a window offset: a posted write, or with NPW a non-posted one whose CPL `why` waits for. -/
def windowWrite (s : State) (w off : Nat) (bs : List (BitVec 8)) (why : Option NpFor) : State :=
  let k := swapOf (pageAttr s w (off / 65536))
  let n := bs.length
  let b := swapBase off n k
  let s := dropAhead s w b n
  let out := swapBytes b off k n bs
  match why with
  | some y => plaitNp s w { ask := off, swap := k, offset := b, len := n, write := true, why := y } out
  | none => plaitPost s w b out

/-- A read of `n` bytes at a window offset, on a prefetchable page of the 64-byte block that holds them. -/
def windowRead (s : State) (w off n : Nat) (why : NpFor) : State :=
  let attr := pageAttr s w (off / 65536)
  let k := swapOf attr
  if bitAt attr 1 then plaitNp s w { ask := off, swap := k, offset := off / 64 * 64, len := 64, pref := true, why := why } []
  else plaitNp s w { ask := off, swap := k, offset := swapBase off n k, len := n, why := why } []

/-! ## Host accesses -/

/-- A load returns its bytes to the core. -/
def loadData (s : State) (bs : List (BitVec 8)) : State := { s with rdata := BitVec.ofNat 64 (ofBytes bs) }

/-- A store of a core to a window (R529, R531). -/
def windowStore (s : State) (hart : BitVec 2) (w off n : Nat) (data : BitVec 64) : State :=
  let bs := bytesOf n data.toNat
  let npw := bitAt (pageAttr s w (off / 65536)) 0
  if regPage off && n == 8 then
    if npw then windowWrite s w off (bs.take 4) (some (.coreLow hart true (BitVec.ofNat 32 (data.toNat / 2 ^ 32))))
    else windowWrite (windowWrite s w off (bs.take 4) none) w (off + 4) (bs.drop 4) none
  else windowWrite s w off bs (if npw then some (.core hart n true) else none)

/-- A load of a core from a window (R529, R534). -/
def windowLoad (s : State) (hart : BitVec 2) (w off n : Nat) : State :=
  let attr := pageAttr s w (off / 65536)
  if bitAt attr 1 then
    match s.heldBlock w off with
    | some b => loadData s (swapBytes off (b.block * 64) (swapOf attr) n b.bytes)
    | none => windowRead s w off n (.core hart n false)
  else if regPage off && n == 8 then windowRead s w off 4 (.coreLow hart false 0)
  else windowRead s w off n (.core hart n false)

/-- An access that the bridge performs: 1, 2, 4 or 8 bytes aligned to their size, on a register page 4 or 8, and not atomic
(R529, R530). -/
def windowSizeOk (off n : Nat) (atomic : Bool) : Bool :=
  !atomic && (n == 1 || n == 2 || n == 4 || n == 8) && off % n == 0 && !(regPage off && n < 4)

/-- First address of window `w` (R527). -/
def windowBase (w : Nat) : Nat := 0xC0000000 + w * 0x2000000

/-- An access of a core to a worker's window: a fault where the range faults (R527, R709), at once WORKER_UNREACHABLE
while the link is DOWN (R518), refused by size or page, or sent. -/
def windowAccess (s : State) (hart : BitVec 2) (w off n : Nat) (atomic write : Bool) (data : BitVec 64) : State :=
  if s.role != .manager || w == 0 then coreFault s hart (BitVec.ofNat 36 (windowBase w + off)) write 3
  else if !s.linkUp w then bridgeFault s w off write stWorkerUnreachable
  else if !windowSizeOk off n atomic then bridgeFault s w off write stSizeUnsupported
  else if reservedPage off then bridgeFault s w off write windowRange
  else
    match s.domReach .eth with
    | .now => if write then windowStore s hart w off n data else windowLoad s hart w off n
    | .wait d =>
      startWake { s with pwr.stalledCore := s.pwr.stalledCore ++ [(d,
        { hart := hart, addr := BitVec.ofNat 36 (windowBase w + off), size := BitVec.ofNat 2 (Nat.log2 n), write := write,
          data := data })] } d .on
    | .never _ => bridgeFault s w off write stWorkerUnreachable

/-- WINDOW_ACCESS: a core executes nothing while PD_HOST is not On. -/
def execWindowAccess (hart : BitVec 2) (worker : Fin 32) (offset : BitVec 25) (size : BitVec 4) (atomic write : Bool)
    (data : BitVec 64) (s : State) : Host.Outcome State Fault Refusal :=
  .next (if s.isOn .host then windowAccess s hart worker offset.toNat size.toNat atomic write data else s)

/-- PREFETCH_BUFFER_EXPIRY: a held block is discarded 10 µs after it was read. -/
def execPrefetchBufferExpiry (worker : Fin 32) (block : BitVec 19) (s : State) : Host.Outcome State Fault Refusal :=
  .next (match s.heldBlock worker (block.toNat * 64) with
    | some b => dropAhead (s.reach (b.at_ + 10 * us)) worker (b.block * 64) 64
    | none => s)

/-! ## PLAIT_COPY -/

/-- Bytes of a copy are done; with the last of them it completes. -/
def copyStep (s : State) (d : Desc) (n : Nat) : State :=
  match s.copyOf d with
  | none => s
  | some c =>
    let c := { c with done := c.done + n }
    if c.len ≤ c.done then copyEnd s c stOk else s.setCopy c

/-- Bytes that a copy read land in its buffer. -/
def copyTake (s : State) (d : Desc) (pos : Nat) (bs : List (BitVec 8)) : State :=
  match s.copyOf d with
  | none => s
  | some c =>
    let w := putBytes s d.ring (d.payAddr.toNat + pos) bs
    if w.1 < bs.length then copyEnd w.2 c stMemUe else copyStep w.2 d bs.length

/-- The next transaction of a copy: its length, or why it cannot be made (R529, R530, Table 14.7). -/
def copyPiece (s : State) (w off left : Nat) (toWorker : Bool) : Nat ⊕ Nat :=
  let attr := pageAttr s w (off / 65536)
  let page := 65536 - off % 65536
  if reservedPage off then .inl windowRange
  else if regPage off && (off % 4 != 0 || left < 4) then .inl stSizeUnsupported
  else if !toWorker && bitAt attr 1 then .inr (min left (64 - off % 64))
  else if regPage off then .inr 4
  else if swapOf attr = 0 then .inr (min (min left page) 256)
  else if off % 8 = 0 ∧ 8 ≤ left then .inr (min (min (left / 8 * 8) page) 256)
  else .inr 1

/-- One transaction of a copy. -/
def copySend (s : State) (c : PCopy) (off pos n : Nat) (toWorker : Bool) : State :=
  let d := c.act.d
  let attr := pageAttr s c.worker (off / 65536)
  if toWorker then
    let bs := (c.act.payload.drop pos).take n
    if bitAt attr 0 then windowWrite s c.worker off bs (some (.copy d pos n))
    else
      let at_ := (s.plink c.worker).pSent
      windowWrite (s.setCopy { c with posts := c.posts ++ [(at_, n)] }) c.worker off bs none
  else
    match (if bitAt attr 1 then s.heldBlock c.worker off else none) with
    | some b => copyTake s d pos (swapBytes off (b.block * 64) (swapOf attr) n b.bytes)
    | none => windowRead s c.worker off n (.copy d pos n)

/-- The transactions of a copy in address order; the first that cannot be made ends it. -/
def copyRun (toWorker : Bool) (d : Desc) : Nat → Nat → Nat → Nat → State → State
  | 0, _, _, _, s => s
  | fuel + 1, off, pos, left, s =>
    match s.copyOf d with
    | none => s
    | some c =>
      if left = 0 then s
      else
        match copyPiece s c.worker off left toWorker with
        | .inl st => copyEnd s c st
        | .inr n => copyRun toWorker d fuel (off + n) (pos + n) (left - n) (copySend s c off pos n toWorker)

/-- PLAIT_COPY acts. -/
def actPlaitCopy (worker : BitVec 5) (dir : BitVec 1) (offset : BitVec 25) (a : Act) (s : State) : State :=
  let n := a.d.payLen.toNat
  if s.role != .manager then refuse s a notManager
  else if 0x2000000 < offset.toNat + n then refuse s a windowRange
  else if !s.linkUp worker.toNat then refuse s a stWorkerUnreachable
  else if n = 0 then finish s a
  else
    let s := { s with plait.copies := s.plait.copies ++ [{ act := a, worker := worker.toNat, len := n }] }
    copyRun (dir == 0) a.d n offset.toNat 0 n s

/-- PLAIT_COPY. -/
def execPlaitCopy (d : Desc) (worker : BitVec 5) (dir : BitVec 1) (offset : BitVec 25) (s : State) :
    Host.Outcome State Fault Refusal :=
  .next (accept d (.plaitCopy worker dir offset) (actPlaitCopy worker dir offset) s)

/-! ## PLAIT_PING and PLAIT_DROP -/

/-- PLAIT_PING acts: a read of one register word measures the round trip. -/
def actPlaitPing (worker : BitVec 5) (a : Act) (s : State) : State :=
  if s.role != .manager then refuse s a notManager
  else if !s.linkUp worker.toNat then refuse s a stWorkerUnreachable
  else plaitNp s worker.toNat { len := 4, why := .ping a } []

/-- PLAIT_PING. -/
def execPlaitPing (d : Desc) (worker : BitVec 5) (s : State) : Host.Outcome State Fault Refusal :=
  .next (accept d (.plaitPing worker) (actPlaitPing worker) s)

/-- PLAIT_DROP acts: the link goes DOWN (R517). -/
def actPlaitDrop (worker : BitVec 5) (a : Act) (s : State) : State :=
  if s.role != .manager then refuse s a notManager
  else finish (linkDown s worker.toNat 3) a

/-- PLAIT_DROP. -/
def execPlaitDrop (d : Desc) (worker : BitVec 5) (s : State) : Host.Outcome State Fault Refusal :=
  .next (accept d (.plaitDrop worker) (actPlaitDrop worker) s)

end Sys2Proof.Machine
end

