-- ==== Sys2Proof/Machine/Host.lean ====
section
/-! DEFINITION. Every host command's action by its descriptor, the two cancel commands, the fetch of descriptors and the
release of fenced ones (R157 to R161, R177, Table 4.9, R118). -/

namespace Sys2Proof.Machine

/-! ## Cancelling -/

/-- Two descriptors are the same: one ring, one index. -/
def Desc.same (a b : Desc) : Bool := a.ring == b.ring && a.index == b.index

/-- The queued launch that a cancel names by ring and slot. -/
def State.queuedAt (s : State) (ring slot : Nat) : Option Launch :=
  s.weave.queue.find? (fun e => match e.host with
    | some (d, _) => d.ring.val == ring && (s.ringN ring).slot d.index == slot
    | none => false)

/-- A queued launch is cancelled before its fire tick (R118): a COMMIT leaves its stage unsealed, and a FLEET_COMMIT ends as
by FLEET_ABORT unless APPLY has been sent. None when it is too late. -/
def cancelQueued (s : State) (e : Launch) : Option State :=
  match e.host with
  | none => none
  | some (d, c) =>
    if e.waiting || e.fire.toNat ≤ s.weave.time.toNat then none
    else match c with
      | .commit _ => some (cancelLaunch (unsealStage (unqueue s d)) e stCancelled)
      | .fleetCommit _ _ => match s.cfg.fleet with
        | some f => if s.cfg.fleetPhase == 1 then some (fleetEnd s f 4 stCancelled) else none
        | none => some (cancelLaunch (unqueue s d) e stCancelled)
      | _ => some (cancelLaunch (unqueue s d) e stCancelled)

/-- A cancel ends: OK with the state its target left, or CANCEL_TOO_LATE. -/
def cancelEnds (s : State) (a : Act) : Option State → State
  | some t => finish t a
  | none => refuse s a stCancelTooLate

/-- LAUNCH_CANCEL acts. After its fire tick a launched CAN_TX follows Table 12.3 (R447). -/
def actLaunchCancel (ring : BitVec 7) (index : BitVec 12) (a : Act) (s : State) : State :=
  match s.queuedAt ring.toNat index.toNat with
  | some e => cancelEnds s a (cancelQueued s e)
  | none =>
    match (s.ringN ring.toNat).outs.find? (fun o => (s.ringN ring.toNat).slot o.d.index == index.toNat && o.d.due != 0) with
    | some o => (canCancel s o.d a.d).getD (refuse s a stCancelTooLate)
    | none => refuse s a stCancelTooLate

/-- LAUNCH_CANCEL. -/
def execLaunchCancel (d : Desc) (ring : BitVec 7) (index : BitVec 12) (s : State) : Host.Outcome State Fault Refusal :=
  .next (accept d (.launchCancel ring index) (actLaunchCancel ring index) s)

/-- A descriptor that its block has accepted and that does not act yet is cancelled: an armed capture, a planned output
change, a waiting LED setting or matrix swap, a COMMIT whose check runs, a settings access behind the migration, a
waiting valve start, a transport session. None when it acts already. -/
def blockCancel (s : State) (d : Desc) : Option State :=
  let is (a : Act) : Bool := Desc.same a.d d
  let done (s : State) : State := complete s d stCancelled 0 (if d.due == 0 then s.weave.time.toNat else 0) 0 0
  if s.weave.armed.any (fun x => is x.act) then
    some (done { s with weave.armed := s.weave.armed.filter (fun x => !is x.act) })
  else if s.led.pend.any (fun x => is x.act) then
    some (done { s with led.pend := s.led.pend.filter (fun x => !is x.act) })
  else if s.upd.setWaits.any (fun x => is x.1) then
    some (done { s with upd.setWaits := s.upd.setWaits.filter (fun x => !is x.1) })
  else match s.edge.pending.find? (fun p => is p.act) with
  | some p => some (done (dropShots { s with edge.pending := s.edge.pending.erase p } p))
  | none =>
  if s.mtx.armed.any (fun x => is x.1) then some (done { s with mtx.armed := none })
  else if s.cfg.commit.any (fun c => is c.act && c.checking && !c.fleet && !c.act.fired) then some (done (unsealStage s))
  else match s.vlv.multis.find? (fun m => is m.act && m.started.isEmpty && m.failed.isEmpty) with
  | some m =>
    some (done (m.left.foldl (fun s n => dropWait s n stCancelled)
      { s with vlv.multis := s.vlv.multis.filter (fun x => !is x.act) }))
  | none =>
  match (List.range 32).find? (fun n => match (s.vlvCh n).wait with
      | some w => match w.start with
        | some x => !x.multi && x.act.any is
        | none => false
      | none => false) with
  | some n => some (dropWait s n stCancelled)
  | none => tpCancel s d

/-- The descriptor waits on its way to its block: behind a FENCE, or for its block's domain. -/
def State.onItsWay (s : State) (ring slot : Nat) : Option (BitVec 16) :=
  match (s.ringN ring).held.find? (fun x => (s.ringN ring).slot x.1.index == slot) with
  | some x => some x.1.index
  | none => (s.pwr.stalled.find? (fun x => x.d.ring.val == ring && (s.ringN ring).slot x.d.index == slot)).map (fun x => x.d.index)

/-- The ring index, between the fetch index and PI, that has a slot. -/
def Ring.submitted (r : Ring) (slot : Nat) : Option (BitVec 16) :=
  ((List.range (min (r.pi - r.fetch).toNat r.n)).map (fun k => r.fetch + BitVec.ofNat 16 k)).find? (fun i => r.slot i == slot)

/-- DESC_CANCEL acts: the outcomes of Table 4.9. -/
def actDescCancel (ring : BitVec 7) (index : BitVec 12) (a : Act) (s : State) : State :=
  let n := ring.toNat
  let slot := index.toNat
  let r := s.ringN n
  let later (i : BitVec 16) : State := finish (s.modRing n (fun r => { r with cancels := r.cancels ++ [i] })) a
  match r.posted.find? (fun d => r.slot d.index == slot) with
  | some d =>
    let s := s.modRing n (fun r => { r with posted := r.posted.filter (fun x => x.index != d.index) })
    finish (complete s d stCancelled 0 s.weave.time.toNat 0 0) a
  | none =>
  match s.onItsWay n slot with
  | some i => later i
  | none =>
  match s.queuedAt n slot with
  | some e => cancelEnds s a (cancelQueued s e)
  | none =>
  match r.outs.find? (fun o => r.slot o.d.index == slot && !Desc.same o.d a.d) with
  | some o =>
    match canCancel s o.d a.d with
    | some t => t
    | none => cancelEnds s a (blockCancel s o.d)
  | none =>
  match r.submitted slot with
  | some i => later i
  | none => refuse s a stCancelTooLate

/-- DESC_CANCEL. -/
def execDescCancel (d : Desc) (ring : BitVec 7) (index : BitVec 12) (s : State) : Host.Outcome State Fault Refusal :=
  .next (accept d (.descCancel ring index) (actDescCancel ring index) s)

/-! ## Every command -/

/-- What a command's block does with its descriptor. -/
def actHost : HostCmd → Act → State → State
  | .modeSet target => actModeSet target
  | .perfSet level => actPerfSet level
  | .domainSet domain state => actDomainSet domain state
  | .needSet need source => actNeedSet need source
  | .wallSet utc at_ => actWallSet utc at_
  | .captureArm unit timeout => actCaptureArm unit timeout
  | .launchCancel ring index => actLaunchCancel ring index
  | .rxPost => actRxPost
  | .descCancel ring index => actDescCancel ring index
  | .nop => actNop
  | .configStage => actConfigStage
  | .configLoad => actConfigLoad
  | .stageDiscard => actStageDiscard
  | .commit persist => actCommit persist
  | .fleetCommit _ _ => actFleetCommit
  | .fleetAbort => actFleetAbort
  | .configExport => actConfigExport
  | .hsoSet ch state duty => actHsoSet ch state duty
  | .hsoMulti mask state duty => actHsoMulti mask state duty
  | .hsoClear ch => actHsoClear ch
  | .hsoRead ch => actHsoRead ch
  | .hsoOltest ch => actHsoOltest ch
  | .edgePin ch phase => actEdgePin ch phase
  | .edgeUnpin ch => actEdgeUnpin ch
  | .vlvStart ch profile arg => actVlvStart ch profile arg
  | .vlvMulti mask profile arg => actVlvMulti mask profile arg
  | .vlvStop ch => actVlvStop ch
  | .vlvClear ch bank => actVlvClear ch bank
  | .vlvRead ch => actVlvRead ch
  | .vlvOfftest ch => actVlvOfftest ch
  | .facetLoad mask => actFacetLoad mask
  | .facetVerify mask => actFacetVerify mask
  | .facetPeek ch reg => actFacetPeek ch reg
  | .ledSet ch dim iSet => actLedSet ch dim iSet
  | .ledMulti mask iSet dim => actLedMulti mask iSet dim
  | .ledClear ch => actLedClear ch
  | .ledRead ch => actLedRead ch
  | .colourCtl run => actColourCtl run
  | .mtxWrite offset => actMtxWrite offset
  | .mtxSwap when_ => actMtxSwap when_
  | .mtxBlank blank => actMtxBlank blank
  | .mtxClear => actMtxClear
  | .fioSet ch duty => actFioSet ch duty
  | .fioMulti mask duty => actFioMulti mask duty
  | .fioClear ch => actFioClear ch
  | .fioRead ch => actFioRead ch
  | .canTx ch fmt brs ide rtr cf useCf rtrDlc id sdt vcid sec af => actCanTx ch fmt brs ide rtr cf useCf rtrDlc id sdt vcid sec af
  | .canTpTx ch cf da prio pgn => actCanTpTx ch cf da prio pgn
  | .canMode ch listen unmute => actCanMode ch listen unmute
  | .canRecover ch => actCanRecover ch
  | .canTtWrite ch fmt brs ide slot clear id => actCanTtWrite ch fmt brs ide slot clear id
  | .canAc cf act addr => actCanAc cf act addr
  | .canRead ch => actCanRead ch
  | .netHold mask hold => actNetHold mask hold
  | .netWake mask => actNetWake mask
  | .netBarClear mask => actNetBarClear mask
  | .netRead ch => actNetRead ch
  | .plaitCopy worker dir offset => actPlaitCopy worker dir offset
  | .plaitPing worker => actPlaitPing worker
  | .plaitDrop worker => actPlaitDrop worker
  | .accPair slot => actAccPair slot
  | .accUnpair slot => actAccUnpair slot
  | .accTakeover => actAccTakeover
  | .accOwnerLock lock => actAccOwnerLock lock
  | .accSearch reason => actAccSearch reason
  | .accRead => actAccRead
  | .accRelKey => actAccRelKey
  | .bezelReclaim hso led fioLo fioHi => actBezelReclaim hso led fioLo fioHi
  | .bezelLogRead => actBezelLogRead
  | .bezelResetReq limp => actBezelResetReq limp
  | .loupeRead offset => actLoupeRead offset
  | .loupeClear lastSeq => actLoupeClear lastSeq
  | .loupeMark trig => actLoupeMark trig
  | .updBegin => actUpdBegin
  | .updBlock index => actUpdBlock index
  | .updVerify => actUpdVerify
  | .updActivate accDef => actUpdActivate accDef
  | .updConfirm => actUpdConfirm
  | .updAbort keep => actUpdAbort keep
  | .updOemKey => actUpdOemKey
  | .setWrite key => actSetWrite key
  | .setRead key => actSetRead key
  | .eccInject addr kind => actEccInject addr kind

/-- A command's block judges a launch of it at acceptance. -/
def admitHost (d : Desc) : HostCmd → State → Nat
  | .commit persist => commitAdmit (persist == 1)
  | .fleetCommit mask persist => fleetAdmit d mask (persist == 1)
  | .mtxSwap _ => swapAdmit
  | _ => fun _ => stOk

/-- What the block does when a launch of the command enters the queue. -/
def enterHost (d : Desc) : HostCmd → State → State
  | .commit persist => fun s => sealStage s { d := d } (persist == 1) false
  | .fleetCommit mask persist => fleetEnter d mask (persist == 1)
  | _ => id

/-- A descriptor after checks 1 to 3. -/
def acceptHost (d : Desc) (c : HostCmd) (s : State) : State :=
  acceptWith d c (actHost c) (admitHost d c) (enterHost d c) s

/-! ## Release of fenced descriptors (R158) -/

/-- A descriptor that waited is accepted, unless it has been cancelled (R177). -/
def acceptLater (s : State) (d : Desc) (c : HostCmd) : State :=
  let s := outstand s d c.block c.opcode
  if (s.ringN d.ring).cancels.contains d.index then
    complete (s.modRing d.ring (fun r => { r with cancels := r.cancels.filter (· != d.index) })) d stCancelled 0 0 0 0
  else acceptNow s d c (actHost c) (admitHost d c) (enterHost d c)

/-- The waiting descriptors of a ring are accepted in order, up to a FENCE whose earlier descriptors have not all
completed. -/
def releaseRing (n : Nat) : Nat → State → State
  | 0, s => s
  | fuel + 1, s =>
    match (s.ringN n).held with
    | [] => s
    | (d, c) :: rest =>
      if d.fence && !(s.ringN n).outs.isEmpty then s
      else releaseRing n fuel (acceptLater (s.modRing n (fun r => { r with held := rest })) d c)

/-- Every ring in turn. -/
def releaseAll (s : State) : State :=
  (List.range 128).foldl (fun s n => if (s.ringN n).held.isEmpty then s else releaseRing n (s.ringN n).held.length s) s

/-! ## Fetch -/

/-- The ring has a descriptor to fetch and may fetch it: a REMOTE ring one at a time, over a link that is UP (R152, R543). -/
def State.fetchable (s : State) (n : Nat) : Bool :=
  let r := s.ringN n
  r.enable && r.cls != 2 && !r.halt && r.pi != r.fetch && s.isOn .svc &&
    (!r.remote || (s.linkUp 0 && (s.plink 0).nps.all (fun o => match o.why with
      | .fetch x _ => x.val != n
      | .payload d _ => d.ring.val != n
      | _ => true)))

/-- Rings of one priority that may fetch. -/
def State.ready (s : State) (prio : Nat) : List Nat :=
  (List.range 128).filter (fun n => s.fetchable n && (s.ringN n).prio.toNat == prio)

/-- The ring whose turn it is at the highest priority with work (R157): the one whose turn runs while it has work and has
fetched fewer than 8, else the next in number order. -/
def State.nextRing (s : State) : Option (Nat × Nat) :=
  match [3, 2, 1, 0].find? (fun p => !(s.ready p).isEmpty) with
  | none => none
  | some p =>
    let rs := s.ready p
    let t := vget s.rings.turn p
    if rs.contains t.1 && t.2 < 8 then some (p, t.1)
    else match rs.find? (fun n => t.1 < n) with
      | some n => some (p, n)
      | none => rs.head?.map (fun n => (p, n))

/-- The words of a fetched descriptor. -/
def descOf (ring : Fin 128) (index : BitVec 16) (bs : List (BitVec 8)) : Desc :=
  let w (k : Nat) : Nat := (wordAt bs k).toNat
  { ring := ring, index := index, tag := wordAt bs 1, due := BitVec.ofNat 64 (w 2 + w 3 * 2 ^ 32),
    lateExec := bitAt (w 0) 16, syncReq := bitAt (w 0) 17, fence := bitAt (w 0) 18, irq := bitAt (w 0) 19,
    payAddr := BitVec.ofNat 64 (w 12 + w 13 * 2 ^ 32), payLen := BitVec.ofNat 24 (w 14) }

/-- Reserved bits of the control words are 0: those of W0 and W14, and every bit of the operand words that spells no operand. -/
def reservedOk (bs : List (BitVec 8)) (c : HostCmd) : Bool :=
  let w (k : Nat) : Nat := (wordAt bs k).toNat
  w 0 / 2 ^ 20 == 0 && w 14 / 2 ^ 24 == 0 && (List.range 8).all (fun k => c.words.getD k 0 == w (4 + k))

/-- A descriptor that fails a check of Table 4.5 before it is accepted. -/
def fetchFails (s : State) (d : Desc) (status block opcode : Nat) : State := failCheck (outstand s d 3 0) d status block opcode

/-- The next part of a headless worker's payload is asked for (R543). -/
def fetchPayload (s : State) (d : Desc) (c : HostCmd) : State :=
  let n := min 256 (d.payLen.toNat - d.fetched.length)
  plaitNp s 0 { offset := d.payAddr.toNat + d.fetched.length, len := n, why := .payload d c } []

/-- Checks 2 to 5 of Table 4.5 on the 64 bytes of a descriptor (R159, R160), then acceptance; a REMOTE ring's payload is
fetched first. -/
def takeDesc (s : State) (ring : Fin 128) (index : BitVec 16) (bs : List (BitVec 8)) : State :=
  let d := descOf ring index bs
  let w0 := (wordAt bs 0).toNat
  let block := bits w0 8 8
  let opcode := bits w0 0 8
  if crc32c (bs.take 60) != wordAt bs 15 then logEvent (fetchFails s d stCrcControl block opcode) 0x0301 [ring.val, index.toNat]
  else
    match HostCmd.parse block opcode (fun k => (wordAt bs (4 + k)).toNat) with
    | none => logEvent (fetchFails s d 0x80 block opcode) 0x0304 [ring.val, index.toNat]
    | some c =>
      if !reservedOk bs c then fetchFails s d 0x81 block opcode
      else if (s.ringN ring).remote && d.payLen != 0 && readsPayload c && c.wf d && stateWf s d c
          && hostRange d.payAddr.toNat d.payLen.toNat then fetchPayload s d c
      else acceptHost d c s

/-- The descriptor at a ring's fetch index is fetched: from the module's memory (check 1, event 0x0302), or from the
manager's as one NP read of 64 bytes. A descriptor area in DRAM that is lowered is woken first (R61). -/
def fetchOne (s : State) (prio : Nat) (ring : Fin 128) : State :=
  let n := ring.val
  let r := s.ringN n
  let a := r.dbase.toNat + r.slot r.fetch * 64
  if !r.remote && inDram a && !s.isOn .mem then (if (s.domCtl .mem).dead then s else startWake s .mem .on)
  else
    let t := vget s.rings.turn prio
    let s := { s with rings.turn := vset s.rings.turn prio (n, if t.1 = n ∧ t.2 < 8 then t.2 + 1 else 1) }
    let s := s.modRing n (fun r => { r with fetch := r.fetch + 1 })
    if r.remote then plaitNp s 0 { offset := a, len := 64, why := .fetch ring r.fetch } []
    else
      let m := readMem s a 64
      match m.1 with
      | .inl _ =>
        logEvent (fetchFails m.2 { ring := ring, index := r.fetch } stMemUe 0 0) 0x0302 [n, r.fetch.toNat]
      | .inr bs => takeDesc m.2 ring r.fetch bs

/-- DESCRIPTOR_FETCH: descriptors whose FENCE has lifted are accepted, then the ring whose turn it is fetches one. -/
def execDescriptorFetch (s : State) : Host.Outcome State Fault Refusal :=
  let s := releaseAll s
  .next (match s.nextRing with
    | some (p, n) => if h : n < 128 then fetchOne s p ⟨n, h⟩ else s
    | none => s)

end Sys2Proof.Machine
end

