-- ==== Sys2Proof/Machine/Fire.lean ====
section
/-! DEFINITION. Firing the launch queue (R110 to R119, R162), and the sync rows that reach the planner and the CAN
schedules (R96 to R104, R308, R459, R460). -/

namespace Sys2Proof.Machine

/-! ## The payload of a launch (R162) -/

/-- Of each 32-byte word of host memory, the old content or the new; which one is left open where they differ. -/
def mixPayload (s : State) (a : Nat) (old new : List (BitVec 8)) : Nat → List (BitVec 8) × State
  | 0 => ([], s)
  | fuel + 1 =>
    if new.isEmpty then ([], s)
    else
      let k := 32 - a % 32
      let x := old.take k
      let y := new.take k
      let r : List (BitVec 8) × State :=
        if x = y then (y, s) else let b := s.takeBit; (if b.1 then x else y, b.2)
      let t := mixPayload r.2 (a + k) (old.drop k) (new.drop k) fuel
      (r.1 ++ t.1, t.2)

/-- The payload a launch acts on: as fetched for a REMOTE ring, and otherwise as host memory held it at an instant between
acceptance and the fire tick; or the offset of a word that cannot be read. -/
def launchPayload (s : State) (e : Launch) (d : Desc) (c : HostCmd) : (Nat ⊕ List (BitVec 8)) × State :=
  if d.payLen == 0 || !readsPayload c then (.inr [], s)
  else if (s.ringN d.ring).remote then (.inr d.fetched, s)
  else if inDram d.payAddr.toNat && !s.isOn .mem then (.inr e.payload, s)
  else
    let r := readMem s d.payAddr.toNat d.payLen.toNat
    match r.1 with
    | .inl off => (.inl off, r.2)
    | .inr new =>
      let m := mixPayload r.2 d.payAddr.toNat e.payload new (new.length / 32 + 2)
      (.inr m.1, m.2)

/-! ## Firing -/

/-- The launch acts at the present tick: the block takes the action with its TIME, the tick plus the stage delay. -/
def launchAct (s : State) (e : Launch) (d : Desc) (c : HostCmd) (late : Bool) : State :=
  let p := launchPayload s e d c
  match p.1 with
  | .inl off => complete p.2 d stMemUe 0 0 off 0
  | .inr bs =>
    actHost c { d := d, fired := true, late := late, time := p.2.weave.time + BitVec.ofNat 64 e.stage, payload := bs } p.2

/-- An entry on its fire tick: refused where its domain is Off for the mode (R119), waiting where it is lowered (R65). -/
def fireEntry (s : State) (e : Launch) : State :=
  match e.host with
  | none => actFleetApply s
  | some (d, c) =>
    let dom := blockDom c.block
    if s.isOn dom then launchAct s e d c e.late
    else if s.entryNow dom == .off then complete s d stRefusedState 0 0 0 0
    else if (s.domCtl dom).dead then complete s d stDomainWakeFail 0 0 0 0
    else startWake { s with weave.queue := s.weave.queue ++ [{ e with waiting := true }] } dom .on

/-- Firing order: earlier fire ticks first, then the groups of R116, then acceptance order. -/
def firesBefore (a b : Launch) : Bool :=
  let g (e : Launch) : Nat := match e.host with | some (_, c) => fireGroup c | none => 1
  a.fire.toNat < b.fire.toNat || (a.fire.toNat == b.fire.toNat && g a < g b)

/-- An entry put into firing order behind its equals. -/
def insertFire (e : Launch) : List Launch → List Launch
  | [] => [e]
  | x :: xs => if firesBefore e x then e :: x :: xs else x :: insertFire e xs

/-- The tick on which Weave fires next: the earliest fire tick, no tick that has passed, and after one that has fired
already (R116: at most 16 on one tick). -/
def State.nextFire (s : State) : Option Nat :=
  let due := s.weave.queue.filter (fun e => !e.waiting)
  match due with
  | [] => none
  | e :: es =>
    let t := es.foldl (fun t e => min t e.fire.toNat) e.fire.toNat
    let t := max t s.weave.time.toNat
    some (match s.weave.lastFire with
      | some x => if t ≤ x.toNat then x.toNat + 4 else t
      | none => t)

/-- Weave reaches its next fire tick and fires up to 16 entries on it. -/
def fireTick (s : State) : State :=
  match s.nextFire with
  | none => s
  | some t =>
    let s := s.reachWeave (BitVec.ofNat 64 t)
    let due := (s.weave.queue.filter (fun e => !e.waiting && e.fire.toNat ≤ s.weave.time.toNat)).foldl
      (fun l e => insertFire e l) []
    let batch := due.take 16
    let s := { s with weave.queue := s.weave.queue.filter (fun e => !batch.contains e), weave.lastFire := some s.weave.time }
    batch.foldl fireEntry s

/-- LAUNCH_FIRE. Weave counts only while PD_ACT is On. -/
def execLaunchFire (s : State) : Host.Outcome State Fault Refusal := .next (if s.timRuns then fireTick s else s)

/-- The launches that waited for a domain, now ready (R65): each is late, and acts or not by its late policy. -/
def fireWaiting (s : State) (dom : Dom) : State :=
  let mine (e : Launch) : Bool := e.waiting && e.dom == dom
  let es := s.weave.queue.filter mine
  es.foldl (fun s e => match e.host with
    | some (d, c) =>
      if d.lateExec && !neverLate c then countLate (launchAct s e d c true) d true
      else countLate (complete s d stLate 0 0 0 0) d false
    | none => s) { s with weave.queue := s.weave.queue.filter (fun e => !mine e) }

/-! ## Synchronisation -/

/-- The CAN schedules are judged anew when synchronisation changes (R459). -/
def schedSync (s : State) : State := (List.range 10).foldl schedCheck s

/-- SYNC_RX. A step ends every CAN schedule and the launch pins (R308, R460). -/
def execSyncRx (offset : Int) (interval : Fin 6) (s : State) : Host.Outcome State Fault Refusal :=
  .next (
    if s.role != .worker || s.weave.sync == .free || !s.timRuns then s
    else if 50000 < offset.natAbs then
      (List.range 10).foldl (fun s n => schedStop s n 2) (planStep (syncRx s offset interval))
    else schedSync (syncRx s offset interval))

/-- HOLDOVER_EXPIRY: HOLD_MAX has passed with no Sync (Table 3.1); a worker in Field logs event 0x0205 (R104). -/
def execHoldoverExpiry (s : State) : Host.Outcome State Fault Refusal :=
  .next (
    if s.weave.sync == .holdover then
      let s := setSync (s.reach (s.weave.holdFrom + max 1 s.weave.holdMax.toNat * sec)) .lost
      schedSync (if s.pwr.mode == .field then logEvent s 0x0205 [] else s)
    else s)

end Sys2Proof.Machine
end

