-- ==== Sys2Proof/Machine/PlaitBus.lean ====
section
/-! DEFINITION. What inbound bridge transactions do at the module that receives them: a worker's window, the manager's
memory, completions and messages (R518 to R546). -/

namespace Sys2Proof.Machine

/-! ## A worker's window -/

/-- The worker address of a window offset, or why there is none (Table 14.7, R527). -/
def windowTarget (s : State) (off : Nat) : Nat ⊕ Nat :=
  if reservedPage off then .inl windowRange
  else if regPage off then .inr (regBase + off)
  else if off < 0x1000000 then .inr (sramBase + (off - 0x800000))
  else if 0x077 < s.plait.aper.toNat then .inl stRefusedState
  else .inr (s.plait.aper.toNat * 2 ^ 24 + (off - 0x1000000))

/-- A transaction lies in one page, and on a register page in whole aligned registers (R529, R530). -/
def busFits (off n : Nat) : Bool :=
  n != 0 && off % 65536 + n ≤ 65536 && (!regPage off || (off % 4 == 0 && n % 4 == 0))

/-- Registers written in address order. -/
def regsWrite (s : State) (a : Nat) : List (BitVec 32) → State
  | [] => s
  | w :: ws => regsWrite (regWrite s a w) (a + 4) ws

/-- `n` registers read in address order. -/
def regsRead (s : State) (a : Nat) : Nat → List (BitVec 8) × State
  | 0 => ([], s)
  | n + 1 =>
    let r := regLoad s a
    let t := regsRead r.2 (a + 4) n
    (bytesOf 4 r.1.toNat ++ t.1, t.2)

/-- A store into memory that was performed reaches the doorbell watcher (R149, R533). -/
def watchLocal (s : State) (a n data : Nat) : State :=
  let b := s.rings.dbBase.toNat
  if s.rings.dbReg && b ≤ a && a < b + 1024 then watchStore s (a - b) n data else s

/-- A write at a worker: its status. -/
def workerWrite (s : State) (off : Nat) (bs : List (BitVec 8)) : Nat × State :=
  if !busFits off bs.length then (stSizeUnsupported, s)
  else match windowTarget s off with
    | .inl st => (st, s)
    | .inr a =>
      if regBase ≤ a then (stOk, regsWrite s a (wordsOf bs))
      else
        let w := writeMem s a bs
        if w.1 < bs.length then (stMemUe, w.2) else (stOk, watchLocal w.2 a bs.length (ofBytes bs))

/-- Some register of a range is read-sensitive (R535). -/
def anySensitive (a n : Nat) : Bool := (List.range (n / 4)).any (fun i => readSensitive (a + 4 * i))

/-- A read at a worker: its status and data. A prefetch-tagged read that covers a read-sensitive register is refused whole,
event 0x0F06 (R536). -/
def workerRead (s : State) (off n : Nat) (pref : Bool) : (Nat × List (BitVec 8)) × State :=
  if !busFits off n then ((stSizeUnsupported, []), s)
  else match windowTarget s off with
    | .inl st => ((st, []), s)
    | .inr a =>
      if regBase ≤ a then
        if pref && anySensitive a n then ((stSideEffectRefused, []), logEvent s 0x0F06 [off])
        else
          let r := regsRead s a (n / 4)
          ((stOk, r.1), r.2)
      else
        let r := readMem s a n
        match r.1 with
        | .inl _ => ((stMemUe, []), r.2)
        | .inr bs => ((stOk, bs), r.2)

/-! ## The manager's memory (R544) -/

/-- An access of worker `w` lies within HL_BASE to HL_BASE + HL_SIZE and in host memory. -/
def hlOk (s : State) (w a n : Nat) : Bool :=
  match s.plaitRec 2 w with
  | some r =>
    let base := r.f 1 0 24 * 4096
    base ≤ a && a + n ≤ base + r.f 2 0 24 * 4096 && hostRange a n
  | none => false

/-- A worker's write into the manager's memory. -/
def managerWrite (s : State) (w a : Nat) (bs : List (BitVec 8)) : Nat × State :=
  if !hlOk s w a bs.length then (stRefusedState, logEvent s 0x0F0A [w, a])
  else
    let r := writeMem s a bs
    (if r.1 < bs.length then stMemUe else stOk, r.2)

/-- A worker's read of the manager's memory. -/
def managerRead (s : State) (w a n : Nat) : (Nat × List (BitVec 8)) × State :=
  if !hlOk s w a n then ((stRefusedState, []), logEvent s 0x0F0A [w, a])
  else
    let r := readMem s a n
    match r.1 with
    | .inl _ => ((stMemUe, []), r.2)
    | .inr bs => ((stOk, bs), r.2)

/-! ## Requests -/

/-- A request carried out, or failed with a status: its status and data. -/
def request (s : State) (w : Nat) (f : PlaitFrame) (fail : Option Nat) : (Nat × List (BitVec 8)) × State :=
  let a := f.addr.toNat
  let read := f.cls == 1 && f.kind == 0
  match fail with
  | some st => ((st, []), s)
  | none =>
    if s.role == .worker then
      if read then workerRead s a f.len.toNat f.pref
      else let r := workerWrite s a f.payload; ((r.1, []), r.2)
    else if read then managerRead s w a f.len.toNat
    else let r := managerWrite s w a f.payload; ((r.1, []), r.2)

/-- A posted write: a failure at a worker logs event 0x0F08 (R531); one that the manager refuses is discarded and counted
(R544). -/
def takePosted (s : State) (w : Nat) (f : PlaitFrame) (fail : Option Nat) : State :=
  let r := request s w f fail
  if r.1.1 = stOk then r.2
  else if r.2.role == .worker then logEvent r.2 0x0F08 [f.addr.toNat, r.1.1]
  else { r.2 with plait.cplLost := r.2.plait.cplLost + 1 }

/-- A non-posted request is answered by a CPL with its tag. -/
def takeNp (s : State) (w : Nat) (f : PlaitFrame) (fail : Option Nat) : State :=
  let r := request s w f fail
  plaitSend r.2 w { cls := 2, kind := f.kind, len := BitVec.ofNat 9 r.1.2.length, tag := f.tag,
                    status := BitVec.ofNat 8 r.1.1, payload := r.1.2 }

/-! ## Completions -/

/-- A PLAIT_PING ends: the round trip in ns and the hops; PLAIT_PEER_w.RTT holds it in 0.1 µs units. -/
def pingDone (s : State) (w : Nat) (o : NpOut) (a : Act) : State :=
  let t := s.clk.ns - o.at_
  finish (s.modLink w (fun l => { l with rtt := BitVec.ofNat 16 (capAt 0xFFFF (t / 100)) })) a 0 t (s.plink w).hops.toNat

/-- What a CPL with status OK does for the access it answers. -/
def cplDone (s : State) (w : Nat) (o : NpOut) (bs : List (BitVec 8)) : State :=
  match o.why with
  | .core _ size write => if write then s else loadData s (o.asked size bs)
  | .coreLow hart write high =>
    if write then windowWrite s w (o.ask + 4) (bytesOf 4 high.toNat) (some (.coreHigh hart true 0))
    else windowRead s w (o.ask + 4) 4 (.coreHigh hart false (BitVec.ofNat 32 (ofBytes (o.asked 4 bs))))
  | .coreHigh _ write low => if write then s else loadData s (bytesOf 4 low.toNat ++ o.asked 4 bs)
  | .copy d pos n => if o.write then copyStep s d n else copyTake s d pos (o.asked n bs)
  | .ping a => pingDone s w o a
  | .fetch ring index => if (s.ringN ring).enable then takeDesc s ring index bs else s
  | .payload d c =>
    let d := { d with fetched := d.fetched ++ bs }
    if !(s.ringN d.ring).enable then s
    else if d.fetched.length < d.payLen.toNat then fetchPayload s d c
    else acceptHost d c s

/-- A CPL pairs with its NP by TAG (R524); one that pairs with none, or carries other than the bytes asked for, is
ignored. A prefetched block is held (R534). -/
def takeCpl (s : State) (w : Nat) (f : PlaitFrame) : State :=
  match (s.plink w).nps.find? (fun o => o.tag == f.tag) with
  | none => s
  | some o =>
    if f.status == 0 && !o.write && f.payload.length != o.len then s
    else
      let s := s.modLink w (fun l => { l with nps := l.nps.filter (fun x => x.tag != f.tag) })
      if f.status != 0 then npFail s w o f.status.toNat
      else cplDone (if o.pref then holdAhead s w o.offset f.payload else s) w o f.payload

/-! ## Messages (Table 14.9) -/

/-- KL15 as the manager's mode gives it changed on a worker with KL15_MGR (R510). -/
def kl15Mgr (s : State) (on : Bool) : State :=
  let was := s.kl15On
  let s := netKl15 { s with plait.kl15 := on }
  if s.kl15On && !was then judge (wakeUp s .kl15)
  else if !s.kl15On && was then judge { s with bezel.kl15OffAt := s.clk.ns }
  else s

/-- DOORBELL: the engine stores PI and CCI into the ring's doorbell word as one 8-byte store (R545, R533). -/
def takeDoorbell (s : State) (bs : List (BitVec 8)) : State :=
  let ring := bits (ofBytes (bs.take 4)) 0 4
  let x := ofBytes (bs.drop 4)
  let word := bits x 0 16 + bits x 16 16 * 2 ^ 32
  let a := s.rings.dbBase.toNat + 8 * ring
  if !s.rings.dbReg then s
  else
    let w := writeMem s a (bytesOf 8 word)
    if w.1 < 8 then w.2 else watchLocal w.2 a 8 word

/-- A message that a worker receives. -/
def workerMsg (s : State) (f : PlaitFrame) : State :=
  let bs := f.payload
  let b0 := ofBytes (bs.take 1)
  match f.kind.toNat with
  | 2 => takeDoorbell s bs
  | 3 =>
    match b0 with
    | 0 => fleetPrepare s f.fleetId (ofBytes ((bs.drop 1).take 1) == 1)
    | 3 => fleetApply s f.fleetId (BitVec.ofNat 64 (ofBytes ((bs.drop 1).take 8)))
    | 5 => fleetAbort s f.fleetId
    | _ => s
  | 4 => kl15Mgr s ([6, 7, 8, 11].contains (b0 % 16))
  | 5 => linkDown s 0 2
  | _ => s

/-- A message that the manager receives from worker `w`: EVENT to its EVT ring (R538), IRQ to PLAIT_RPEND_w and block
vector 15 (R546), fleet votes and acknowledgements of the running fleet commit. -/
def managerMsg (s : State) (w : Nat) (f : PlaitFrame) : State :=
  let bs := f.payload
  let b0 := ofBytes (bs.take 1)
  match f.kind.toNat with
  | 0 =>
    let code := ofBytes (bs.take 2)
    workerEvent s w (code / 256) code (ofBytes ((bs.drop 4).take 4)) (ofBytes ((bs.drop 8).take 4))
  | 1 => raiseBlock (s.modLink w (fun l => { l with rpend := setBit l.rpend (b0 % 16) true })) 15
  | 3 =>
    if f.fleetId != s.cfg.fleetId then s
    else match b0 with
      | 1 => fleetVote s w true 0
      | 2 => fleetVote s w false (BitVec.ofNat 16 (ofBytes ((bs.drop 1).take 2)))
      | 4 => fleetAck s w (ofBytes ((bs.drop 1).take 1) != 0)
      | _ => s
  | 5 => linkDown s w 2
  | _ => s

/-! ## Taking effect -/

/-- Whether an inbound transaction may take effect now, waits for a domain (R526), or fails. -/
def frameReach (s : State) (w : Nat) (f : PlaitFrame) : Reach :=
  let a := f.addr.toNat
  match f.cls.toNat with
  | 2 =>
    match (s.plink w).nps.find? (fun o => o.tag == f.tag) with
    | some o => match o.why with
      | .copy d _ _ => if !o.write && inDram d.payAddr.toNat then s.domReach .mem else .now
      | _ => .now
    | none => .now
  | 3 => if s.role == .worker && f.kind == 2 && s.rings.dbReg then s.domReach (addrDom s.rings.dbBase.toNat) else .now
  | _ =>
    if s.role == .worker then
      match windowTarget s a with
      | .inl _ => .now
      | .inr x => s.domReach (addrDom x)
    else if hlOk s w a f.payload.length then s.domReach (addrDom a)
    else .now

/-- The buffer space of a transaction is free again (R523). -/
def freeCredits (s : State) (w : Nat) (f : PlaitFrame) : State :=
  let n := BitVec.ofNat 8 (dataCredits f.payload.length)
  s.modLink w (fun l => match f.cls.toNat with
    | 0 => { l with frPH := l.frPH + 1, frPD := l.frPD + n }
    | 1 => { l with frNP := l.frNP + 1 }
    | 3 => { l with frMH := l.frMH + 1, frMD := l.frMD + n }
    | _ => l)

/-- The transaction whose completion cannot be delivered ends with a status. -/
def npsFail (s : State) (w : Nat) (tag : BitVec 11) (st : Nat) : State :=
  match (s.plink w).nps.find? (fun o => o.tag == tag) with
  | some o => npFail (s.modLink w (fun l => { l with nps := l.nps.filter (fun x => x.tag != tag) })) w o st
  | none => s

/-- A transaction leaves its buffer and takes effect, or fails with a status. -/
def takeFrame (s : State) (w : Nat) (f : PlaitFrame) (fail : Option Nat) : State :=
  let s := freeCredits s w f
  match f.cls.toNat with
  | 0 => takePosted s w f fail
  | 1 => takeNp s w f fail
  | 2 => if fail.isSome then npsFail s w f.tag (fail.getD 0) else takeCpl s w f
  | _ => if fail.isSome then s else if s.role == .worker then workerMsg s f else managerMsg s w f

/-- The held transactions of a link take effect in order, up to one that waits for a domain, whose wake then runs. -/
def takeHeld (w : Nat) : Nat → State → State
  | 0, s => s
  | fuel + 1, s =>
    match (s.plink w).held with
    | [] => s
    | f :: rest =>
      let drop (s : State) : State := s.modLink w (fun l => { l with held := rest })
      match frameReach s w f with
      | .now => takeHeld w fuel (takeFrame (drop s) w f none)
      | .never st => takeHeld w fuel (takeFrame (drop s) w f (some st))
      | .wait d => startWake s d .on

/-- An inbound transaction joins the link's buffer behind those held, and takes effect as soon as it may. -/
def takeInbound (s : State) (w : Nat) (f : PlaitFrame) : State :=
  let s := s.modLink w (fun l => { l with held := l.held ++ [f] })
  takeHeld w (s.plink w).held.length s

/-- The held transactions of every link are tried again. -/
def retryHeld (s : State) : State :=
  eachLink s (fun s w => if (s.plink w).held.isEmpty then s
    else plaitPump (takeHeld w (s.plink w).held.length s) w)

/-- The wake of a domain has failed: the transactions that wait for it first in their links fail (R62). -/
def heldWakeFail (s : State) (dom : Dom) : State :=
  eachLink s (fun s w => match (s.plink w).held with
    | [] => s
    | f :: rest =>
      if frameReach s w f = .wait dom then
        let s := takeFrame (s.modLink w (fun l => { l with held := rest })) w f (some stDomainWakeFail)
        plaitPump (takeHeld w rest.length s) w
      else s)

end Sys2Proof.Machine
end

