-- ==== Sys2Proof/Machine/Plait.lean ====
section
/-! DEFINITION. The PLAIT and ETH rows: discovery, link state, frames received, timers, tunnelled frames (R505 to R521,
R541). -/

namespace Sys2Proof.Machine

/-! ## Discovery -/

/-- Some port carries Plait (ETH_CTRL_p.PLAIT). -/
def State.plaitPort (s : State) : Bool := (List.range 4).any (fun p => s.recField 14 1 p 0 3 1 0 == 1)

/-- PRIO of this manager. -/
def State.plaitPrio (s : State) : Nat := s.plaitField 0 8 8 0

/-- MGR_ANNOUNCE_TX (R506). -/
def execMgrAnnounceTx (s : State) : Host.Outcome State Fault Refusal :=
  .next (if s.role == .manager && s.isOn .eth && s.plaitPort then s.send (.announce s.plaitPrio Config.eui) else s)

/-- A worker sends JOIN with its number, hop count and the last fleet identifier it applied (R507). -/
def sendJoin (s : State) : State :=
  { s with plait.joining := true, plait.refused := false }.send
    (.join s.workerNum s.weave.hops.toNat s.cfg.lastApplied.toNat)

/-- The loser of a contest leaves its fleet and runs as standalone until the next Start (R508). -/
def isolate (s : State) : State := logEvent { leaveAll s with plait.isolated := true } 0x0F04 []

/-- MGR_ANNOUNCE_RX: a worker without a link answers the first announcement with JOIN; its hop count, which no message
carries, is left open. Of two managers the higher PRIO wins, at equal PRIO the lower EUI-48 (R507, R508). -/
def execMgrAnnounceRx (prio : BitVec 8) (eui : BitVec 48) (s : State) : Host.Outcome State Fault Refusal :=
  .next (
    if !s.isOn .eth then s
    else match s.role with
      | .worker =>
        if s.linkUp 0 || s.plait.joining || s.plait.refused then s
        else
          let r := s.takeWord
          sendJoin { r.2 with plait.mgr := eui, weave.hops := r.1.setWidth 3 }
      | .manager =>
        if eui == Config.eui then s
        else if s.plaitPrio < prio.toNat || (s.plaitPrio == prio.toNat && eui.toNat < Config.eui.toNat) then isolate s
        else logEvent s 0x0F01 [eui.toNat]
      | .standalone => s)

/-- A JOIN is refused with a cause, event 0x0F03. -/
def joinRefuse (s : State) (w cause : Nat) : State := logEvent (s.send (.refuseJoin w cause)) 0x0F03 [w, cause]

/-- JOIN_RX (R507). -/
def execJoinRx (worker : Fin 32) (hops : BitVec 3) (lastApplied : BitVec 8) (s : State) : Host.Outcome State Fault Refusal :=
  .next (
    if s.role != .manager || !s.isOn .eth then s
    else if (s.plaitRec 2 worker).isNone then joinRefuse s worker 0
    else if s.linkUp worker then joinRefuse s worker 1
    else if 6 < hops.toNat then joinRefuse s worker 2
    else linkUpNow (s.send (.admission worker)) worker hops lastApplied)

/-- ADMIT_RX (R507, R520). -/
def execAdmitRx (s : State) : Host.Outcome State Fault Refusal :=
  .next (
    if s.role == .worker && s.isOn .eth && s.plait.joining && !s.linkUp 0 then
      linkUpNow { s with plait.joining := false, plait.kl15DownAt := none } 0 s.weave.hops s.cfg.lastApplied
    else s)

/-- REFUSE_RX (R507). -/
def execRefuseRx (cause : BitVec 8) (s : State) : Host.Outcome State Fault Refusal :=
  .next (
    if s.role == .worker && s.isOn .eth && s.plait.joining then
      logEvent { s with plait.joining := false, plait.refused := true } 0x0F03 [s.workerNum, cause.toNat]
    else s)

/-- JOIN_RETRY: a refused worker tries again (R507). -/
def execJoinRetry (s : State) : Host.Outcome State Fault Refusal :=
  .next (if s.role == .worker && s.isOn .eth && s.plait.refused && !s.linkUp 0 then sendJoin s else s)

/-! ## Link state -/

/-- LEAVE_RX (R517). -/
def execLeaveRx (worker : Fin 32) (s : State) : Host.Outcome State Fault Refusal :=
  .next (if s.isOn .eth then linkDown s worker 2 else s)

/-- DEAD_TIMEOUT (R517). -/
def execDeadTimeout (worker : Fin 32) (s : State) : Host.Outcome State Fault Refusal :=
  .next (if s.isOn .eth then linkDown s worker 1 else s)

/-- PLAIT_RETX_TIMEOUT: every unacknowledged frame goes out again, oldest first, with the present ACK and credits; after
RETRY_MAX rounds without progress the link goes DOWN (R516, R517). -/
def execPlaitRetxTimeout (worker : Fin 32) (s : State) : Host.Outcome State Fault Refusal :=
  let l := s.plink worker
  .next (
    if !s.isOn .eth || !l.up || l.unacked.isEmpty then s
    else if s.plaitLink 1 ≤ l.resends then linkDown s worker 0
    else
      let s := s.modLink worker (fun l => { l with resends := l.resends + 1 })
      let s := { s with plait.resendRounds := s.plait.resendRounds + 1 }
      l.unacked.foldl (fun s f => s.send (.plait worker { s.stamp worker f with seq := f.seq })) s)

/-- A CREDIT frame goes out: ACK and freed credits alone. -/
def sendCredit (s : State) (w : Nat) : State := plaitEmit s w { cls := 4 }

/-- CREDIT_TX (R517). -/
def execCreditTx (worker : Fin 32) (s : State) : Host.Outcome State Fault Refusal :=
  .next (if s.isOn .eth && s.linkUp worker then sendCredit s worker else s)

/-! ## Frames received -/

/-- The kinds of Table 14.4 and lengths that a frame of a link may have, its addresses, and HCRC and reserved bits
(R514, R515). -/
def frameGood (s : State) (w : Nat) (f : PlaitFrame) : Bool :=
  let me := if s.role == .worker then s.workerNum else 0
  let kinds := match f.cls.toNat with | 0 => 0 | 1 => 1 | 2 => 1 | 3 => 5 | _ => 0
  f.good && f.cls.toNat ≤ 4 && f.kind.toNat ≤ kinds && f.dst.toNat == me && f.src.toNat == w && f.len.toNat ≤ 256
    && ((f.cls == 1 && f.kind == 0 && f.payload.isEmpty) || f.payload.length == f.len.toNat)

/-- Frames that an ACK has passed leave the sender's store; progress restarts the count of resends, and a copy counts its
posted writes among them (R516). -/
def ackTake (s : State) (w : Nat) (ack : BitVec 12) : State :=
  let l := s.plink w
  let rest := l.unacked.dropWhile (fun f => f.seq != ack && (ack - f.seq).toNat ≤ 2048)
  let gone := l.unacked.take (l.unacked.length - rest.length)
  if gone.isEmpty then s
  else
    let acked := l.pAcked + (gone.filter (fun f => f.cls == 0)).length
    let s := s.modLink w (fun l => { l with unacked := rest, resends := 0, pAcked := acked })
    (s.plait.copies.filter (fun c => c.worker == w)).foldl (fun s c =>
      let n := ((c.posts.filter (fun p => p.1 < acked)).map (·.2)).sum
      if n = 0 then s
      else copyStep (s.setCopy { c with posts := c.posts.filter (fun p => acked ≤ p.1) }) c.act.d n) s

/-- The advance of a cumulative count modulo 256; a count that lies behind the one seen is of an older frame. -/
def advanceOf (seen now : BitVec 8) : Nat := if (now - seen).toNat < 128 then (now - seen).toNat else 0

/-- The newer of two cumulative counts. -/
def newerOf (seen now : BitVec 8) : BitVec 8 := if (now - seen).toNat < 128 then now else seen

/-- The credits that a header frees (R523). -/
def creditTake (f : PlaitFrame) (l : PLink) : PLink :=
  let o := l.seen
  { l with
    crPH := l.crPH + advanceOf o.pH f.pH, crPD := l.crPD + advanceOf o.pD f.pD, crNP := l.crNP + advanceOf o.npH f.npH,
    crMH := l.crMH + advanceOf o.msgH f.msgH, crMD := l.crMD + advanceOf o.msgD f.msgD,
    seen := { o with pH := newerOf o.pH f.pH, pD := newerOf o.pD f.pD, npH := newerOf o.npH f.npH,
                     msgH := newerOf o.msgH f.msgH, msgD := newerOf o.msgD f.msgD } }

/-- RELIABLE_FRAME_RX: ACK and credits first; a reliable frame that is not the next in order is dropped and the ACK sent
again; the next one takes effect (R515, R516, R523, R526). -/
def execReliableFrameRx (worker : Fin 32) (frame : PlaitFrame) (s : State) : Host.Outcome State Fault Refusal :=
  let w := worker.val
  .next (
    if !s.isOn .eth || !s.linkUp w || !frameGood s w frame then s
    else
      let s := (ackTake s w frame.ack).modLink w (creditTake frame)
      if frame.cls == 4 then plaitPump s w
      else if frame.seq != (s.plink w).rxSeq then plaitPump (sendCredit s w) w
      else plaitPump (takeInbound (s.modLink w (fun l => { l with rxSeq := l.rxSeq + 1 })) w frame) w)

/-- CPL_TIMEOUT: an access without its CPL within CPL_TO fails with TIMEOUT (R532). -/
def execCplTimeout (worker : Fin 32) (tag : BitVec 11) (s : State) : Host.Outcome State Fault Refusal :=
  .next (match (s.plink worker).nps.find? (fun o => o.tag == tag) with
    | none => s
    | some o =>
      let s := s.reach (o.at_ + s.plaitLink 3 * ms)
      let s := s.modLink worker (fun l =>
        { l with nps := l.nps.filter (fun x => x.tag != tag),
                 waiting := l.waiting.filter (fun f => !(f.cls == 1 && f.tag == tag)) })
      npFail s worker o stTimeout)

/-! ## Modes and KL15 -/

/-- MODE_MSG_TX (R510). -/
def execModeMsgTx (s : State) : Host.Outcome State Fault Refusal := .next (if s.isOn .eth then sendMode s else s)

/-- KL15_MGR_HOLD_EXPIRY (R510). -/
def execKl15MgrHoldExpiry (s : State) : Host.Outcome State Fault Refusal :=
  .next (match s.plait.kl15DownAt with
    | some t =>
      if s.role == .worker && !s.linkUp 0 then
        kl15Mgr { s.reach (t + sec) with plait.kl15DownAt := none } false
      else s
    | none => s)

/-! ## Tunnelled frames and ports -/

/-- TUN_FRAME_RX (R541): into the RX ring that the PLAIT_TUN record names, or dropped and counted with event 0x0F09. -/
def execTunFrameRx (worker : Fin 32) (ch : Fin 10) (frame : CanFrame) (time : BitVec 64) (s : State) :
    Host.Outcome State Fault Refusal :=
  .next (
    if s.role != .manager || !s.isOn .eth then s
    else match s.plaitRec 4 (16 * worker.val + ch.val) with
      | some r =>
        inbound s (r.f 0 0 7) 12 (worker.val + field 8 ch.val + field 12 2) time.toNat (canItem frame)
      | none => logEvent { s with plait.tunDrop := s.plait.tunDrop + 1 } 0x0F09 [])

/-- ETH_LINK_CHANGE: a PHY link of an enabled port changes; a loss is counted (Table 14.17), event 0x0E01. -/
def execEthLinkChange (port : Fin 4) (up : Bool) (sqi : BitVec 4) (s : State) : Host.Outcome State Fault Refusal :=
  let p := vget s.eth.port port
  let en := s.recField 14 1 port 0 0 1 0 == 1
  .next (
    if !s.isOn .eth || (up && !en) then s
    else
      let q : EthPort := { link := up, sqi := sqi, downs := if p.link && !up then p.downs + 1 else p.downs }
      let s := { s with eth.port := vset s.eth.port port q }
      if p.link == up then s else logEvent s 0x0E01 [port.val, b2n up, s.recField 14 1 port 0 1 1 0])

end Sys2Proof.Machine
end

