-- ==== Sys2Proof/Machine/CoreAccess.lean ====
section
/-! DEFINITION. Accesses of the host cores: the physical map of Table 21.1, register accesses under R712, stores that the
doorbell watchers see, access faults (R709 to R721), and the register rows of the command table. -/

namespace Sys2Proof.Machine

/-! ## The map -/

/-- CAUSE of SYS_FAULT for an address that no core may reach (Tables 21.1 and 21.4). -/
def faultCause (a : Nat) : Nat :=
  if dramEnd ≤ a ∧ a < sramBase then 1
  else if sramEnd ≤ a ∧ a < 0x80800000 then 2
  else if 0xC0000000 ≤ a ∧ a < 0x100000000 then 3
  else 0

/-- First address beyond the set-up registers. -/
def regEnd : Nat := 0xA0160000

/-- CAUSE of an access that never reaches its domain: 4 Off for the mode, 5 a wake that failed. -/
def reachCause (status : Nat) : Nat := if status = stRefusedState then 4 else 5

/-- The access waits for its domain's wake (R61). -/
def stallCore (s : State) (x : CoreAcc) (d : Dom) : State :=
  startWake { s with pwr.stalledCore := s.pwr.stalledCore ++ [(d, x)] } d .on

/-- An access reaches a domain: it goes on, stalls, or faults. -/
def coreReach (s : State) (x : CoreAcc) (d : Dom) (go : State → State) : State :=
  match s.domReach d with
  | .now => go s
  | .wait d => stallCore s x d
  | .never st => coreFault s x.hart x.addr x.write (reachCause st)

/-! ## Memory -/

/-- A store to the remote doorbell block that memory performed: the watcher sends the ring's PI and CCI, as memory now
holds them, to the worker (R545); of another size or alignment it sets SIZE_ERR under R149. -/
def watchRemote (s : State) (a n : Nat) : State :=
  let b := s.plait.rdb.toNat / 4096 * 4096
  if s.role == .manager && s.plait.rdbReg && b ≤ a && a < b + 4096 then
    let off := a - b
    if (n = 8 ∨ n = 4) ∧ off % n = 0 then
      let word := ofBytes (s.mem.bytes (b + off / 8 * 8) 8)
      plaitMsg s (off / 128) 2 (bytesOf 4 (off % 128 / 8) ++ bytesOf 4 (bits word 0 16 + bits word 32 16 * 2 ^ 16))
    else logEvent { s with rings.sizeErr := true } 0x0305 [off]
  else s

/-- Bytes of an access. -/
def CoreAcc.n (x : CoreAcc) : Nat := 2 ^ x.size.toNat

/-- A load or store of host memory: an uncorrectable word faults with cause 7 and a store into it is not performed
(Table 1.7, R34). -/
def coreMem (x : CoreAcc) (s : State) : State :=
  let a := x.addr.toNat
  if x.write then
    let w := writeMem s a (bytesOf x.n x.data.toNat)
    if w.1 < x.n then coreFault w.2 x.hart x.addr true 7
    else watchRemote (watchLocal w.2 a x.n (x.data.toNat % 2 ^ (8 * x.n))) a x.n
  else
    let r := readMem s a x.n
    match r.1 with
    | .inl _ => coreFault r.2 x.hart x.addr false 7
    | .inr bs => loadData r.2 bs

/-! ## Registers -/

/-- A load or store of registers: 4 bytes as one access, 8 bytes as two in address order (R712). -/
def coreReg (x : CoreAcc) (s : State) : State :=
  let a := x.addr.toNat
  if x.write then
    let lo := BitVec.ofNat 32 x.data.toNat
    if x.n = 8 then regWrite (regWrite s a lo) (a + 4) (BitVec.ofNat 32 (x.data.toNat / 2 ^ 32)) else regWrite s a lo
  else
    let r := regLoad s a
    if x.n = 8 then
      let t := regLoad r.2 (a + 4)
      loadData t.2 (bytesOf 4 r.1.toNat ++ bytesOf 4 t.1.toNat)
    else loadData r.2 (bytesOf 4 r.1.toNat)

/-! ## Any access -/

/-- An access of a core by Table 21.1. A register access is judged by size and alignment first, cause 6 (R712). -/
def coreGo (s : State) (x : CoreAcc) : State :=
  let a := x.addr.toNat
  let n := x.n
  if regBase ≤ a ∧ a < regEnd then
    if (n = 4 ∨ n = 8) ∧ a % n = 0 then coreReach s x (blockDom (blockOfAddr a)) (coreReg x)
    else coreFault s x.hart x.addr x.write 6
  else if hostRange a n then coreReach s x (addrDom a) (coreMem x)
  else if 0xC0000000 ≤ a ∧ a < 0x100000000 then
    windowAccess s x.hart ((a - 0xC0000000) / 0x2000000) (a % 0x2000000) n false x.write x.data
  else if inDram a ∧ a < dramEnd then coreFault s x.hart x.addr x.write 1
  else if sramBase ≤ a ∧ a < sramEnd then coreFault s x.hart x.addr x.write 2
  else coreFault s x.hart x.addr x.write (faultCause a)

/-- A core executes nothing while PD_HOST is not On. -/
def coreAccess (s : State) (x : CoreAcc) : State := if s.isOn .host then coreGo s x else s

/-- A 4-byte store of a core to a register. -/
def storeReg (s : State) (hart : BitVec 2) (addr : Nat) (v : BitVec 32) : State :=
  coreAccess s { hart := hart, addr := BitVec.ofNat 36 addr, size := 2, write := true, data := v.setWidth 64 }

/-- A 4-byte load of a core from a register. -/
def loadReg (s : State) (hart : BitVec 2) (addr : Nat) : State :=
  coreAccess s { hart := hart, addr := BitVec.ofNat 36 addr, size := 2 }

/-! ## Rows -/

/-- CORE_ACCESS. -/
def execCoreAccess (hart : BitVec 2) (addr : BitVec 36) (size : BitVec 2) (write : Bool) (data : BitVec 64) (s : State) :
    Host.Outcome State Fault Refusal :=
  .next (coreAccess s { hart := hart, addr := addr, size := size, write := write, data := data })

/-- REGISTER_WRITE. -/
def execRegisterWrite (hart : BitVec 2) (addr : BitVec 36) (value : BitVec 32) (s : State) :
    Host.Outcome State Fault Refusal := .next (storeReg s hart addr.toNat value)

/-- STAGED_REGISTER_WRITE (R202, R718). -/
def execStagedRegisterWrite (hart : BitVec 2) (addr : BitVec 36) (value : BitVec 32) (s : State) :
    Host.Outcome State Fault Refusal := .next (storeReg s hart addr.toNat value)

/-- PL_REQ_WRITE: PWR_PL. -/
def execPlReqWrite (hart : BitVec 2) (value : BitVec 32) (s : State) : Host.Outcome State Fault Refusal :=
  .next (storeReg s hart 0xA001000C value)

/-- COMPAT_RUN: PWR_COMPAT.REQ 0 (Table 2.5). -/
def execCompatRun (hart : BitVec 2) (s : State) : Host.Outcome State Fault Refusal := .next (storeReg s hart 0xA001001C 0)

/-- COMPAT_IDLE: PWR_COMPAT.REQ 1. -/
def execCompatIdle (hart : BitVec 2) (s : State) : Host.Outcome State Fault Refusal := .next (storeReg s hart 0xA001001C 1)

/-- COMPAT_SLEEP: PWR_COMPAT.REQ 2. -/
def execCompatSleep (hart : BitVec 2) (s : State) : Host.Outcome State Fault Refusal := .next (storeReg s hart 0xA001001C 2)

/-- COMPAT_DEEPSLEEP: PWR_COMPAT.REQ 3. -/
def execCompatDeepsleep (hart : BitVec 2) (s : State) : Host.Outcome State Fault Refusal := .next (storeReg s hart 0xA001001C 3)

/-- COMPAT_OFF: PWR_COMPAT.REQ 4. -/
def execCompatOff (hart : BitVec 2) (s : State) : Host.Outcome State Fault Refusal := .next (storeReg s hart 0xA001001C 4)

/-- WEAVE_TIME_READ: WEAVE_TIME_LO (R92). -/
def execWeaveTimeRead (hart : BitVec 2) (s : State) : Host.Outcome State Fault Refusal := .next (loadReg s hart 0xA0020000)

/-- WALL_OFFSET_READ: WEAVE_WALL_LO. -/
def execWallOffsetRead (hart : BitVec 2) (s : State) : Host.Outcome State Fault Refusal := .next (loadReg s hart 0xA0020018)

/-- CAPTURE_READ: WEAVE_CAP_LO_n. -/
def execCaptureRead (hart : BitVec 2) (unit : Fin 8) (s : State) : Host.Outcome State Fault Refusal :=
  .next (loadReg s hart (0xA0020060 + 8 * unit.val))

/-- Address of RING_CFG_n. -/
def ringCfgAddr (n : Nat) : Nat := 0xA0031010 + 0x20 * n

/-- RING_ENABLE: a write of RING_CFG_n with ENABLE 1 (R142). -/
def execRingEnable (hart : BitVec 2) (ring : Fin 128) (value : BitVec 32) (s : State) : Host.Outcome State Fault Refusal :=
  .next (storeReg s hart (ringCfgAddr ring) (value ||| 1#32))

/-- RING_DISABLE: a write of RING_CFG_n with ENABLE 0 (R145). -/
def execRingDisable (hart : BitVec 2) (ring : Fin 128) (value : BitVec 32) (s : State) : Host.Outcome State Fault Refusal :=
  .next (storeReg s hart (ringCfgAddr ring) (value &&& 0xFFFFFFFE#32))

/-- DOORBELL_BLOCK_REGISTER: RING_DB_CTL (R148). -/
def execDoorbellBlockRegister (hart : BitVec 2) (value : BitVec 32) (s : State) : Host.Outcome State Fault Refusal :=
  .next (storeReg s hart 0xA0030008 value)

/-- DOORBELL_STORE: a store into the registered doorbell block (R149); with no block registered there is none to store to. -/
def execDoorbellStore (hart : BitVec 2) (offset : BitVec 10) (size : BitVec 2) (data : BitVec 64) (s : State) :
    Host.Outcome State Fault Refusal :=
  .next (if s.rings.dbReg then
      coreAccess s { hart := hart, addr := s.rings.dbBase + offset.setWidth 36, size := size, write := true, data := data }
    else s)

/-- LED_GAIN_WRITE: LED_GAIN_c (R407). -/
def execLedGainWrite (hart : BitVec 2) (gain : Fin 3) (value : BitVec 32) (s : State) : Host.Outcome State Fault Refusal :=
  .next (storeReg s hart (0xA0090010 + 4 * gain.val) value)

/-- SOFTWARE_RESET_KEY: BEZEL_RESET (R583). -/
def execSoftwareResetKey (hart : BitVec 2) (value : BitVec 32) (s : State) : Host.Outcome State Fault Refusal :=
  .next (storeReg s hart 0xA0110008 value)

/-- WATCHDOG_KICK: BEZEL_WDT_KICK (R596). -/
def execWatchdogKick (hart : BitVec 2) (value : BitVec 32) (s : State) : Host.Outcome State Fault Refusal :=
  .next (storeReg s hart 0xA0110014 value)

/-- REMOTE_DOORBELL_REGISTER: PLAIT_RDB_HI (R545). -/
def execRemoteDoorbellRegister (hart : BitVec 2) (value : BitVec 32) (s : State) : Host.Outcome State Fault Refusal :=
  .next (storeReg s hart 0xA00F0028 value)

/-- REMOTE_DOORBELL_STORE: a store into the registered remote doorbell block (R545). -/
def execRemoteDoorbellStore (hart : BitVec 2) (offset : BitVec 12) (size : BitVec 2) (data : BitVec 64) (s : State) :
    Host.Outcome State Fault Refusal :=
  .next (if s.plait.rdbReg then
      coreAccess s { hart := hart, addr := s.plait.rdb + offset.setWidth 36, size := size, write := true, data := data }
    else s)

/-! ## A domain is ready -/

/-- The waiting writes of completions and items land in memory that has left self-refresh (R61, R184). -/
def landWrites (s : State) : State :=
  s.rings.stalled.foldl (fun s x => { s with mem := (s.mem.clearFault (x.addr / 32)).store x.addr x.bytes })
    { s with rings.stalled := [] }

/-- A descriptor that waited for its block's domain goes on, unless it has been cancelled (R177). -/
def stalledGo (s : State) (x : Stalled) : State :=
  if (s.ringN x.d.ring).cancels.contains x.d.index then
    complete (s.modRing x.d.ring (fun r => { r with cancels := r.cancels.filter (· != x.d.index) })) x.d stCancelled 0 0 0 0
  else toBlock s x.d x.cmd (actHost x.cmd)

/-- Everything that waited for a domain goes on: DOMAIN_SETs that raised it, completion writes, core accesses,
descriptors, launches, and bridge transactions, each kind in the order it came. -/
def readyGo (s : State) (dom : Dom) : State :=
  let cs := s.pwr.stalledCore.filter (fun x => x.1 == dom)
  let ds := s.pwr.stalled.filter (fun x => x.dom == dom)
  let s := { s with pwr.stalledCore := s.pwr.stalledCore.filter (fun x => x.1 != dom),
                    pwr.stalled := s.pwr.stalled.filter (fun x => x.dom != dom) }
  let s := if dom == .mem then landWrites s else s
  let s := cs.foldl (fun s x => coreAccess s x.2) s
  let s := ds.foldl stalledGo s
  retryHeld (fireWaiting s dom)

/-- The DOMAIN_SETs that raised a domain complete (R42). -/
def raisedDone (s : State) (dom : Dom) : State :=
  let ws := s.pwr.domWaits.filter (fun w => w.dom == dom && w.raise)
  ws.foldl (fun s w => finish s w.act)
    { s with pwr.domWaits := s.pwr.domWaits.filter (fun w => !(w.dom == dom && w.raise)) }

/-- Something still waits for the domain to be On. -/
def State.awaited (s : State) (dom : Dom) : Bool :=
  s.pwr.stalledCore.any (fun x => x.1 == dom) || s.pwr.stalled.any (fun x => x.dom == dom)
    || s.weave.queue.any (fun e => e.waiting && e.dom == dom) || (dom == .mem && !s.rings.stalled.isEmpty)

/-- The woken domain stands in its new state: from Off its blocks start afresh, PD_HOST restarts watchdog 0 (R597), and the
count of failed wakes restarts (R63). -/
def domWoken (s : State) (dom : Dom) (t : DomState) : State :=
  let s := if s.domSt dom == .off && t == .on then domUp s dom else s
  let s := if dom == .host && t == .on then wdtRestart s else s
  s.modDom dom (fun c => { c with st := t, waking := none, fails := 0 })

/-- DOMAIN_READY (R61). A domain woken to a state below On that something waits for goes on waking. -/
def execDomainReady (dom : Dom) (s : State) : Host.Outcome State Fault Refusal :=
  .next (match (s.domCtl dom).waking with
    | none => s
    | some t =>
      let s := raisedDone (domWoken s dom t) dom
      if t == .on then readyGo s dom else if s.awaited dom then startWake s dom .on else s)

/-- DOMAIN_WAKE_TIMEOUT (R62, R63): the wake has failed. Its stalled accesses and waiting launches fail; after the third
failure in a row Bezel takes the fault. -/
def execDomainWakeTimeout (dom : Dom) (s : State) : Host.Outcome State Fault Refusal :=
  .next (
    if (s.domCtl dom).waking.isNone then s
    else
      let s := s.modDom dom (fun c => { c with waking := none, fails := c.fails + 1 })
      let s := logEvent { s with pwr.domFail := setBit s.pwr.domFail dom.num true } 0x0102 [dom.num]
      let s := dropStalled s dom stDomainWakeFail 5
      let cut := s.weave.queue.filter (fun e => e.waiting && e.dom == dom)
      let s := cut.foldl (fun s e => cancelLaunch s e stDomainWakeFail)
        { s with weave.queue := s.weave.queue.filter (fun e => !(e.waiting && e.dom == dom)) }
      let s := heldWakeFail (if dom == .mem then { s with rings.stalled := [] } else s) dom
      if 3 ≤ (s.domCtl dom).fails then
        let s := s.modDom dom (fun c => { c with dead := true })
        escalate { s with bezel.domFault := setBit s.bezel.domFault dom.num true } 5 (BitVec.ofNat 8 dom.num)
          (domReaction dom)
      else s)

end Sys2Proof.Machine
end

