-- ==== Sys2Proof/Machine/FioIn.lean ====
section
/-! DEFINITION. Field inputs: the filtered and debounced level, wire-break bands and wake strobes (R418 to R421, R427). -/

namespace Sys2Proof.Machine

/-- A new input state is reported; a change on a pin that sets LNEED is logged (Table 11.7). Own need and the mode are
judged anew (R736), and a pulse of the speed signal counts (R646). -/
def fioReport (s : State) (n : Nat) (st : BitVec 3) : State :=
  if (s.fioCh n).inSt = st then s
  else
    let s := s.modFio n (fun c => { c with inSt := st })
    let s := if s.fioField n 0 7 1 = 1 then logEvent s 0x0B07 [n, st.toNat] else s
    let s := if st = 1 ∧ s.recField 19 1 0 0 0 2 0 = 2 ∧ s.recField 19 1 0 0 6 6 0 = n then
        { s with upd.pulses := s.upd.pulses.filter (fun t => s.clk.ns < t + sec) ++ [s.clk.ns] } else s
    judge (netAll s)

/-- The pin is an input, and the block runs. -/
def State.fioIsIn (s : State) (n : Nat) : Bool := s.isOn .act && fioFunc s n == 1

/-- INPUT_FILTERED_CHANGE: a level has passed the glitch filter; with FILT 0 it is reported at once (R418). -/
def execInputFilteredChange (pin : Fin 48) (level : Bool) (s : State) : Host.Outcome State Fault Refusal :=
  .next (if s.fioIsIn pin then
    let s := s.modFio pin (fun c => { c with level := level, levelAt := s.clk.ns })
    if s.fioField pin 0 4 1 = 0 ∧ s.fioField pin 0 8 8 = 0 then fioReport s pin (if level then 1 else 0) else s
    else s)

/-- INPUT_DEBOUNCE: the filtered level, or the wire-break band, has held for FILT ms (R418, R421). -/
def execInputDebounce (pin : Fin 48) (s : State) : Host.Outcome State Fault Refusal :=
  let c := s.fioCh pin
  let filt := s.fioField pin 0 8 8 * ms
  .next (if !s.fioIsIn pin then s
    else if s.fioField pin 0 4 1 = 0 then
      fioReport (s.reach (c.levelAt + filt)) pin (if c.level then 1 else 0)
    else if c.band == 3 || c.band == 4 then fioReport (s.reach (c.bandAt + filt)) pin c.band
    else s)

/-- Band of an input current in µA (Table 11.2): 2 BROKEN, 3 OPEN, 4 CLOSED, 0 a gap. -/
def wireBand (ua : Nat) : BitVec 3 :=
  if ua < 150 then 2 else if ua < 300 then 0 else if ua ≤ 1500 then 3 else if ua < 1700 then 0 else 4

/-- Feed pair 2 lies in the band in which wire-break bands run (Table 20.2). -/
def State.bandsRun (s : State) : Bool := 9000 ≤ (vget s.hso.vfeed 2).toNat

/-- WIRE_BREAK_MEASURE: the current of an input is measured; BROKEN is reported after 10 ms in its band, OPEN and CLOSED
after FILT, a gap band keeps the state (R420, R421). -/
def execWireBreakMeasure (pin : Fin 48) (microamps : Nat) (s : State) : Host.Outcome State Fault Refusal :=
  .next (if !s.fioIsIn pin then s
    else
      let s := s.modFio pin (fun c => { c with meas := BitVec.ofNat 12 (capAt 4095 (microamps / 10)) })
      if s.fioField pin 0 4 1 = 0 ∨ !s.bandsRun then s
      else
        let b := wireBand microamps
        let s := if (s.fioCh pin).band = b then s
          else s.modFio pin (fun c => { c with band := b, bandAt := s.clk.ns })
        let c := s.fioCh pin
        if b = 2 ∧ c.inSt ≠ 2 ∧ c.bandAt + 10 * ms ≤ s.clk.ns then
          logEvent (fioReport (s.modFio pin (fun c => { c with broken := true })) pin 2) 0x0B04 [pin.val]
        else if (b = 3 ∨ b = 4) ∧ c.bandAt + s.fioField pin 0 8 8 * ms ≤ s.clk.ns then fioReport s pin b
        else s)

/-- FIO_WAKE_STROBE: Bezel strobes the armed pins. A pin whose last two strobes found its wake level wakes the device:
FIO_WAKE_SRC and event 0x0B06 (R427). -/
def execFioWakeStrobe (level : BitVec 16) (s : State) : Host.Outcome State Fault Refusal :=
  .next (
    if !(s.pwr.mode == .park || s.pwr.mode == .guard) then s
    else
      -- pins that stand at their wake level now
      let at_ := (List.range 16).filter (fun n =>
        s.fio.armed.getLsbD n && level.getLsbD n == (s.fioField n 0 6 1 == 1))
      let now : BitVec 16 := BitVec.ofNat 16 ((at_.map (fun n => 2 ^ n)).sum)
      let hit := at_.filter (fun n => s.fio.strobed.getLsbD n)
      let s := { s with fio.strobed := now }
      match hit with
      | [] => s
      | n :: _ =>
        let s := hit.foldl (fun s k => logEvent { s with fio.wakeSrc := setBit s.fio.wakeSrc k true } 0x0B06 [k]) s
        wakeUp s (.fio (Fin.ofNat 16 n)))

end Sys2Proof.Machine
end

