-- ==== Sys2Proof/Machine/Start.lean ====
section
/-! DEFINITION. The end of Start: the items of retention RAM, the boot count, the firmware image, the configuration copy,
the blocks, and the mode that follows (R71, R192 to R194, R584, R586, R590 to R593, R606, R653, R722, R736). -/

namespace Sys2Proof.Machine

/-- A copy that is found not valid is logged (R193). -/
def copyCheck (s : State) (copy : Nat) (c : Option Image) : Option Image × State :=
  match validCopy s c with
  | some m => (some m, s)
  | none => (none, logEvent s 0x0403 [copy])

/-- The configuration of Start (R192 to R194): the later valid copy, or the empty configuration, event 0x0404. -/
def loadConfig (s : State) : State :=
  let a := copyCheck s 0 s.nor.cfgA
  let b := copyCheck a.2 1 a.2.nor.cfgB
  let s := b.2
  let run (s : State) (m : Image) (n : BitVec 2) : State :=
    { s with cfg.recs := m.recs, cfg.machineId := m.machineId, cfg.loaded := n, cfg.empty := false }
  let s := { s with cfg.aValid := a.1.isSome, cfg.bValid := b.1.isSome,
                    cfg.seqA := match a.1 with | some m => m.seq | none => s.cfg.seqA,
                    cfg.seqB := match b.1 with | some m => m.seq | none => s.cfg.seqB }
  match a.1, b.1 with
  | some x, some y => if seqLater y.seq x.seq then run s y 2 else run s x 1
  | some x, none => run s x 1
  | none, some y => run s y 2
  | none, none => logEvent { s with cfg.recs := [], cfg.machineId := 0, cfg.loaded := 0, cfg.empty := true } 0x0404 []

/-- SYSV without a SYS_CFG record (R722): 24 V where KL30_L reads above 18.0 V. -/
def startSysv (s : State) : State :=
  if s.cfg.recs.any (fun r => r.block == 0 && r.typ == 1) then { s with sys.sysv := false, sys.source := false }
  else { s with sys.sysv := decide (18000 < bits (adcSample s 0xA0140004 1000000) 0 16), sys.source := true }

/-- Antennas found open or shorted are dropped until the next Start, event 0x100B (Table 15.2). -/
def startAntennas (s : State) (bad : BitVec 4) : State :=
  (List.range 4).foldl (fun s k =>
    if bad.getLsbD k && bitAt (s.accField 0 2 4) k then logEvent s 0x100B [k] else s)
    { s with acc.antOk := ~~~bad }

/-- The blocks take up what Start gives them: outputs, the valve programs, the matrix, the log and the counters. -/
def startBlocks (s : State) : State :=
  let cold := s.pwr.cold
  accLoad (loupeScan (mtxStart (facetReload (hsoStart s cold)))) cold

/-- The mode that ends Start (Table 2.2): Limp after a start failure or in a reset storm, event 0x110A, with cause 0x0A;
else the mode of the conditions, with the cause of this Start (R738). -/
def startMode (s : State) : State :=
  let storm := s.stormN ≤ s.storms.length
  if storm then enterLimp (logEvent s 0x110A [s.storms.length]) 0x0A true
  else if s.pwr.startLimp then enterLimp s 0x0A false
  else goMode s s.awakeMode s.pwr.startCause.toNat

/-- Bezel's part of Start: each item of retention RAM is checked as it is read (R582), and the boot count rises, event
0x1101 (R584). Item 2 is read at a reset alone; item 3 is read with the records. -/
def startBezel (s : State) (bad : BitVec 10) : State :=
  let s := retentionCheck s (bad &&& 0x3F9)
  bootCount s

/-- From the image on: configuration, blocks, orphan table, the mode, and what begins with it. A reserved strap is logged as
event 0x0F03 with cause 3 (R505). -/
def startRun (s : State) (antBad : BitVec 4) (bad : BitVec 10) : State :=
  let cold := s.pwr.cold
  let s := startSysv (loadConfig s)
  let s := retentionCheck s (bad &&& 0x004)
  let s := startBlocks s
  let s := { s with bezel.orphans := orphanTable { s with pwr.mode := s.awakeMode } }
  let s := startMode { s with pwr.cold := false }
  let s := if s.pwr.strap == 3 then logEvent s 0x0F03 [0, 3] else s
  let s := recordRegs s none none
  let s := { wdtRestart s with bezel.retWindow := s.bezel.holdWindow }
  startMirror (claimAuto (netStart (startAntennas s antBad) cold))

/-- Start has nothing left to wait for. -/
def State.startReady (s : State) : Bool :=
  s.pwr.mode == .start && s.pwr.rail == 6 && !s.pwr.inReset && !s.pwr.bezelOnly && !s.pwr.lowHold
    && (s.pwr.crystal == .running || s.pwr.crystal == .failed)

/-- START_COMPLETE: with no image that may run, Bezel alone does (R73, R656). -/
def execStartComplete (bankAOk bankBOk : Bool) (antBad : BitVec 4) (retBad : BitVec 10) (s : State) :
    Host.Outcome State Fault Refusal :=
  .next (
    if !s.startReady then s
    else
      let r := imageStart (startBezel s retBad) bankAOk bankBOk
      if r.1 then startRun r.2 antBad retBad else startMirror (bezelOnlyNow r.2))

end Sys2Proof.Machine
end

