-- ==== Sys2Proof/Machine/Dispatch.lean ====
section
/-! DEFINITION. The dispatcher: one arm per command of the table of operations, each a direct call of its meaning. -/

namespace Sys2Proof.Machine

/-- The effect of a command on everything but the queue. -/
def exec (i : Instr) (s : State) : Host.Outcome State Fault Refusal :=
  match i with
  | .powerOn role => Sys2Proof.Machine.execPowerOn role s
  | .supplyLoss holdUpLeft => Sys2Proof.Machine.execSupplyLoss holdUpLeft s
  | .resetNAsserted lowNs => Sys2Proof.Machine.execResetNAsserted lowNs s
  | .resetNReleased => Sys2Proof.Machine.execResetNReleased s
  | .deviceReset typ detail retBad => Sys2Proof.Machine.execDeviceReset typ detail retBad s
  | .railPowerGood rail => Sys2Proof.Machine.execRailPowerGood rail s
  | .railTimeout rail => Sys2Proof.Machine.execRailTimeout rail s
  | .railPowerGoodLost rail => Sys2Proof.Machine.execRailPowerGoodLost rail s
  | .kl30LowHold => Sys2Proof.Machine.execKl30LowHold s
  | .crystalRunning => Sys2Proof.Machine.execCrystalRunning s
  | .crystalTimeout => Sys2Proof.Machine.execCrystalTimeout s
  | .startComplete bankAOk bankBOk antBad retBad => Sys2Proof.Machine.execStartComplete bankAOk bankBOk antBad retBad s
  | .kl15On => Sys2Proof.Machine.execKl15On s
  | .kl15Off => Sys2Proof.Machine.execKl15Off s
  | .wakePinAsserted pin => Sys2Proof.Machine.execWakePinAsserted pin s
  | .wakePinReleased pin => Sys2Proof.Machine.execWakePinReleased pin s
  | .lateWakeLatch wake => Sys2Proof.Machine.execLateWakeLatch wake s
  | .regulatorsOff => Sys2Proof.Machine.execRegulatorsOff s
  | .guardExpiry => Sys2Proof.Machine.execGuardExpiry s
  | .modeSet d target => Sys2Proof.Machine.execModeSet d target s
  | .perfSet d level => Sys2Proof.Machine.execPerfSet d level s
  | .plReqWrite hart value => Sys2Proof.Machine.execPlReqWrite hart value s
  | .plChangeDone => Sys2Proof.Machine.execPlChangeDone s
  | .pl4LimitReached => Sys2Proof.Machine.execPl4LimitReached s
  | .pl4CapLift => Sys2Proof.Machine.execPl4CapLift s
  | .domainSet d domain state => Sys2Proof.Machine.execDomainSet d domain state s
  | .needSet d need source => Sys2Proof.Machine.execNeedSet d need source s
  | .compatRun hart => Sys2Proof.Machine.execCompatRun hart s
  | .compatIdle hart => Sys2Proof.Machine.execCompatIdle hart s
  | .compatSleep hart => Sys2Proof.Machine.execCompatSleep hart s
  | .compatDeepsleep hart => Sys2Proof.Machine.execCompatDeepsleep hart s
  | .compatOff hart => Sys2Proof.Machine.execCompatOff hart s
  | .hostInterruptWake => Sys2Proof.Machine.execHostInterruptWake s
  | .domainReady dom => Sys2Proof.Machine.execDomainReady dom s
  | .domainWakeTimeout dom => Sys2Proof.Machine.execDomainWakeTimeout dom s
  | .drainQuiescent dom => Sys2Proof.Machine.execDrainQuiescent dom s
  | .drainBoundExpiry dom => Sys2Proof.Machine.execDrainBoundExpiry dom s
  | .governorTick estimate junction => Sys2Proof.Machine.execGovernorTick estimate junction s
  | .rcTrim => Sys2Proof.Machine.execRcTrim s
  | .launchFire => Sys2Proof.Machine.execLaunchFire s
  | .syncTx => Sys2Proof.Machine.execSyncTx s
  | .syncRx offset interval => Sys2Proof.Machine.execSyncRx offset interval s
  | .pdelayExchange delay => Sys2Proof.Machine.execPdelayExchange delay s
  | .syncMissed => Sys2Proof.Machine.execSyncMissed s
  | .holdoverExpiry => Sys2Proof.Machine.execHoldoverExpiry s
  | .timeMsgRx wallOffset setCount => Sys2Proof.Machine.execTimeMsgRx wallOffset setCount s
  | .wallSet d utc at_ => Sys2Proof.Machine.execWallSet d utc at_ s
  | .captureArm d unit timeout => Sys2Proof.Machine.execCaptureArm d unit timeout s
  | .captureEdge source rising => Sys2Proof.Machine.execCaptureEdge source rising s
  | .captureTimeout unit => Sys2Proof.Machine.execCaptureTimeout unit s
  | .launchCancel d ring index => Sys2Proof.Machine.execLaunchCancel d ring index s
  | .weaveTimeRead hart => Sys2Proof.Machine.execWeaveTimeRead hart s
  | .wallOffsetRead hart => Sys2Proof.Machine.execWallOffsetRead hart s
  | .captureRead hart unit => Sys2Proof.Machine.execCaptureRead hart unit s
  | .ringEnable hart ring value => Sys2Proof.Machine.execRingEnable hart ring value s
  | .ringDisable hart ring value => Sys2Proof.Machine.execRingDisable hart ring value s
  | .doorbellBlockRegister hart value => Sys2Proof.Machine.execDoorbellBlockRegister hart value s
  | .doorbellStore hart offset size data => Sys2Proof.Machine.execDoorbellStore hart offset size data s
  | .descriptorFetch => Sys2Proof.Machine.execDescriptorFetch s
  | .moderationTimeout ring => Sys2Proof.Machine.execModerationTimeout ring s
  | .rxPost d => Sys2Proof.Machine.execRxPost d s
  | .descCancel d ring index => Sys2Proof.Machine.execDescCancel d ring index s
  | .nop d => Sys2Proof.Machine.execNop d s
  | .configStage d => Sys2Proof.Machine.execConfigStage d s
  | .configLoad d => Sys2Proof.Machine.execConfigLoad d s
  | .stageDiscard d => Sys2Proof.Machine.execStageDiscard d s
  | .commit d persist => Sys2Proof.Machine.execCommit d persist s
  | .commitCheckDone => Sys2Proof.Machine.execCommitCheckDone s
  | .persistDone ok => Sys2Proof.Machine.execPersistDone ok s
  | .fleetCommit d mask persist => Sys2Proof.Machine.execFleetCommit d mask persist s
  | .fleetAbort d => Sys2Proof.Machine.execFleetAbort d s
  | .configExport d => Sys2Proof.Machine.execConfigExport d s
  | .fleetPrepareRx id persist => Sys2Proof.Machine.execFleetPrepareRx id persist s
  | .fleetVoteRx worker yes detail => Sys2Proof.Machine.execFleetVoteRx worker yes detail s
  | .fleetVoteTimeout => Sys2Proof.Machine.execFleetVoteTimeout s
  | .fleetApplyRx id due => Sys2Proof.Machine.execFleetApplyRx id due s
  | .fleetApplyAckRx worker late => Sys2Proof.Machine.execFleetApplyAckRx worker late s
  | .fleetAbortRx id => Sys2Proof.Machine.execFleetAbortRx id s
  | .fleetApplyRetx => Sys2Proof.Machine.execFleetApplyRetx s
  | .fleetHoldExpiry => Sys2Proof.Machine.execFleetHoldExpiry s
  | .fleetCommitDue => Sys2Proof.Machine.execFleetCommitDue s
  | .takeoverExpiry => Sys2Proof.Machine.execTakeoverExpiry s
  | .stagedRegisterWrite hart addr value => Sys2Proof.Machine.execStagedRegisterWrite hart addr value s
  | .registerWrite hart addr value => Sys2Proof.Machine.execRegisterWrite hart addr value s
  | .hsoSet d ch state duty => Sys2Proof.Machine.execHsoSet d ch state duty s
  | .hsoMulti d mask state duty => Sys2Proof.Machine.execHsoMulti d mask state duty s
  | .hsoClear d ch => Sys2Proof.Machine.execHsoClear d ch s
  | .hsoRead d ch => Sys2Proof.Machine.execHsoRead d ch s
  | .hsoOltest d ch => Sys2Proof.Machine.execHsoOltest d ch s
  | .pwmPeriodStart index => Sys2Proof.Machine.execPwmPeriodStart index s
  | .softStartStep ch => Sys2Proof.Machine.execSoftStartStep ch s
  | .feedMeasure mv0 mv1 mv2 bst => Sys2Proof.Machine.execFeedMeasure mv0 mv1 mv2 bst s
  | .senseUpdate ch milliamps groupTenMa groupTemp => Sys2Proof.Machine.execSenseUpdate ch milliamps groupTenMa groupTemp s
  | .inrushWindowEnd ch => Sys2Proof.Machine.execInrushWindowEnd ch s
  | .fastTrip ch => Sys2Proof.Machine.execFastTrip ch s
  | .fastTripRetry ch => Sys2Proof.Machine.execFastTripRetry ch s
  | .overloadTrip ch => Sys2Proof.Machine.execOverloadTrip ch s
  | .wireModelUpdate ch meanSquare => Sys2Proof.Machine.execWireModelUpdate ch meanSquare s
  | .retryCountReset ch => Sys2Proof.Machine.execRetryCountReset ch s
  | .wireModelSave => Sys2Proof.Machine.execWireModelSave s
  | .junctionOtTrip ch => Sys2Proof.Machine.execJunctionOtTrip ch s
  | .junctionOtClear ch => Sys2Proof.Machine.execJunctionOtClear ch s
  | .openLoadOnDetect ch => Sys2Proof.Machine.execOpenLoadOnDetect ch s
  | .openLoadOnClear ch => Sys2Proof.Machine.execOpenLoadOnClear ch s
  | .offStateTest ch => Sys2Proof.Machine.execOffStateTest ch s
  | .offStateTestResult ch mv => Sys2Proof.Machine.execOffStateTestResult ch mv s
  | .shortToBatOn ch => Sys2Proof.Machine.execShortToBatOn ch s
  | .reverseFeed grp => Sys2Proof.Machine.execReverseFeed grp s
  | .groupLimitHit grp => Sys2Proof.Machine.execGroupLimitHit grp s
  | .groupLimitEnd grp => Sys2Proof.Machine.execGroupLimitEnd grp s
  | .sympatheticTag grp => Sys2Proof.Machine.execSympatheticTag grp s
  | .groupLimitShed grp => Sys2Proof.Machine.execGroupLimitShed grp s
  | .fastTripHoldoffEnd grp => Sys2Proof.Machine.execFastTripHoldoffEnd grp s
  | .groupOt grp => Sys2Proof.Machine.execGroupOt grp s
  | .groupOtClear grp => Sys2Proof.Machine.execGroupOtClear grp s
  | .edgePin d ch phase => Sys2Proof.Machine.execEdgePin d ch phase s
  | .edgeUnpin d ch => Sys2Proof.Machine.execEdgeUnpin d ch s
  | .plannerFrameCheck => Sys2Proof.Machine.execPlannerFrameCheck s
  | .vlvStart d ch profile arg => Sys2Proof.Machine.execVlvStart d ch profile arg s
  | .vlvMulti d mask profile arg => Sys2Proof.Machine.execVlvMulti d mask profile arg s
  | .vlvStop d ch => Sys2Proof.Machine.execVlvStop d ch s
  | .vlvClear d ch bank => Sys2Proof.Machine.execVlvClear d ch bank s
  | .vlvRead d ch => Sys2Proof.Machine.execVlvRead d ch s
  | .vlvOfftest d ch => Sys2Proof.Machine.execVlvOfftest d ch s
  | .boostWaitExpiry ch => Sys2Proof.Machine.execBoostWaitExpiry ch s
  | .bankIdleTimeout bank => Sys2Proof.Machine.execBankIdleTimeout bank s
  | .bstReverseStart => Sys2Proof.Machine.execBstReverseStart s
  | .bstReverseEnd => Sys2Proof.Machine.execBstReverseEnd s
  | .bstOvervoltage => Sys2Proof.Machine.execBstOvervoltage s
  | .bstCapCheck microfarads esr => Sys2Proof.Machine.execBstCapCheck microfarads esr s
  | .valveChannelOvercurrent ch => Sys2Proof.Machine.execValveChannelOvercurrent ch s
  | .bankOvercurrent bank => Sys2Proof.Machine.execBankOvercurrent bank s
  | .bankCurrentMismatch bank => Sys2Proof.Machine.execBankCurrentMismatch bank s
  | .openCoilOn ch => Sys2Proof.Machine.execOpenCoilOn ch s
  | .valveOffTest ch => Sys2Proof.Machine.execValveOffTest ch s
  | .valveOffTestResult ch mv => Sys2Proof.Machine.execValveOffTestResult ch mv s
  | .valveDieOt => Sys2Proof.Machine.execValveDieOt s
  | .valveDieOtClear => Sys2Proof.Machine.execValveDieOtClear s
  | .phase ch => Sys2Proof.Machine.execPhase ch s
  | .seti ch => Sys2Proof.Machine.execSeti ch s
  | .setr ch => Sys2Proof.Machine.execSetr ch s
  | .freq ch => Sys2Proof.Machine.execFreq ch s
  | .wait ch => Sys2Proof.Machine.execWait ch s
  | .waitr ch => Sys2Proof.Machine.execWaitr ch s
  | .wadd ch => Sys2Proof.Machine.execWadd ch s
  | .waddr ch => Sys2Proof.Machine.execWaddr ch s
  | .waitw ch => Sys2Proof.Machine.execWaitw ch s
  | .waitc ch => Sys2Proof.Machine.execWaitc ch s
  | .waits ch => Sys2Proof.Machine.execWaits ch s
  | .slopew ch => Sys2Proof.Machine.execSlopew ch s
  | .tmo ch => Sys2Proof.Machine.execTmo ch s
  | .movi ch => Sys2Proof.Machine.execMovi ch s
  | .mov ch => Sys2Proof.Machine.execMov ch s
  | .add ch => Sys2Proof.Machine.execAdd ch s
  | .addi ch => Sys2Proof.Machine.execAddi ch s
  | .sub ch => Sys2Proof.Machine.execSub ch s
  | .shf ch => Sys2Proof.Machine.execShf ch s
  | .ldc ch => Sys2Proof.Machine.execLdc ch s
  | .rd ch measured => Sys2Proof.Machine.execRd ch measured s
  | .br ch => Sys2Proof.Machine.execBr ch s
  | .faultOp ch => Sys2Proof.Machine.execFaultOp ch s
  | .rept ch => Sys2Proof.Machine.execRept ch s
  | .endOp ch => Sys2Proof.Machine.execEndOp ch s
  | .facetNop ch => Sys2Proof.Machine.execFacetNop ch s
  | .timeWaitEnd ch => Sys2Proof.Machine.execTimeWaitEnd ch s
  | .weaveWaitEnd ch => Sys2Proof.Machine.execWeaveWaitEnd ch s
  | .conditionWaitMet ch samples => Sys2Proof.Machine.execConditionWaitMet ch samples s
  | .conditionWaitTimeout ch => Sys2Proof.Machine.execConditionWaitTimeout ch s
  | .contextEnd ch => Sys2Proof.Machine.execContextEnd ch s
  | .runaway ch => Sys2Proof.Machine.execRunaway ch s
  | .peakTimeLimit ch => Sys2Proof.Machine.execPeakTimeLimit ch s
  | .programCheck eng ok => Sys2Proof.Machine.execProgramCheck eng ok s
  | .facetLoad d mask => Sys2Proof.Machine.execFacetLoad d mask s
  | .facetVerify d mask => Sys2Proof.Machine.execFacetVerify d mask s
  | .facetPeek d ch reg => Sys2Proof.Machine.execFacetPeek d ch reg s
  | .ledSet d ch dim iSet => Sys2Proof.Machine.execLedSet d ch dim iSet s
  | .ledMulti d mask iSet dim => Sys2Proof.Machine.execLedMulti d mask iSet dim s
  | .ledClear d ch => Sys2Proof.Machine.execLedClear d ch s
  | .ledRead d ch => Sys2Proof.Machine.execLedRead d ch s
  | .colourCtl d run => Sys2Proof.Machine.execColourCtl d run s
  | .ledGainWrite hart gain value => Sys2Proof.Machine.execLedGainWrite hart gain value s
  | .colourStep ack => Sys2Proof.Machine.execColourStep ack s
  | .colourConvDone ok c0 c1 c2 => Sys2Proof.Machine.execColourConvDone ok c0 c1 c2 s
  | .openString ch => Sys2Proof.Machine.execOpenString ch s
  | .shortedLeds ch short volts => Sys2Proof.Machine.execShortedLeds ch short volts s
  | .stringOvercurrent ch => Sys2Proof.Machine.execStringOvercurrent ch s
  | .stringRetry ch => Sys2Proof.Machine.execStringRetry ch s
  | .neighbourTest columns test failed => Sys2Proof.Machine.execNeighbourTest columns test failed s
  | .converterOt hot => Sys2Proof.Machine.execConverterOt hot s
  | .mtxWrite d offset => Sys2Proof.Machine.execMtxWrite d offset s
  | .mtxSwap d when => Sys2Proof.Machine.execMtxSwap d when s
  | .mtxBlank d blank => Sys2Proof.Machine.execMtxBlank d blank s
  | .mtxClear d => Sys2Proof.Machine.execMtxClear d s
  | .matrixFrameStart => Sys2Proof.Machine.execMatrixFrameStart s
  | .mxSyncEdge rising => Sys2Proof.Machine.execMxSyncEdge rising s
  | .mxSyncLost => Sys2Proof.Machine.execMxSyncLost s
  | .rowOvercurrent row => Sys2Proof.Machine.execRowOvercurrent row s
  | .mxVsOvercurrent => Sys2Proof.Machine.execMxVsOvercurrent s
  | .columnOpen col => Sys2Proof.Machine.execColumnOpen col s
  | .fioSet d ch duty => Sys2Proof.Machine.execFioSet d ch duty s
  | .fioMulti d mask duty => Sys2Proof.Machine.execFioMulti d mask duty s
  | .fioClear d ch => Sys2Proof.Machine.execFioClear d ch s
  | .fioRead d ch => Sys2Proof.Machine.execFioRead d ch s
  | .inputFilteredChange pin level => Sys2Proof.Machine.execInputFilteredChange pin level s
  | .inputDebounce pin => Sys2Proof.Machine.execInputDebounce pin s
  | .wireBreakMeasure pin microamps => Sys2Proof.Machine.execWireBreakMeasure pin microamps s
  | .outputCurrentLimitTrip pin => Sys2Proof.Machine.execOutputCurrentLimitTrip pin s
  | .outputRetry pin => Sys2Proof.Machine.execOutputRetry pin s
  | .outputOt pin hot => Sys2Proof.Machine.execOutputOt pin hot s
  | .outputOpenLoad pin below => Sys2Proof.Machine.execOutputOpenLoad pin below s
  | .fioWakeStrobe level => Sys2Proof.Machine.execFioWakeStrobe level s
  | .canTx d ch fmt brs ide rtr cf useCf rtrDlc id sdt vcid sec af => Sys2Proof.Machine.execCanTx d ch fmt brs ide rtr cf useCf rtrDlc id sdt vcid sec af s
  | .canTpTx d ch cf da prio pgn => Sys2Proof.Machine.execCanTpTx d ch cf da prio pgn s
  | .canMode d ch listen unmute => Sys2Proof.Machine.execCanMode d ch listen unmute s
  | .canRecover d ch => Sys2Proof.Machine.execCanRecover d ch s
  | .canTtWrite d ch fmt brs ide slot clear id => Sys2Proof.Machine.execCanTtWrite d ch fmt brs ide slot clear id s
  | .canAc d cf act addr => Sys2Proof.Machine.execCanAc d cf act addr s
  | .canRead d ch => Sys2Proof.Machine.execCanRead d ch s
  | .canSofCommit ch => Sys2Proof.Machine.execCanSofCommit ch s
  | .canTxSuccess ch loopDelay => Sys2Proof.Machine.execCanTxSuccess ch loopDelay s
  | .canTxError ch code dominant loopDelay => Sys2Proof.Machine.execCanTxError ch code dominant loopDelay s
  | .canArbLost ch => Sys2Proof.Machine.execCanArbLost ch s
  | .canFrameRx ch frame sof => Sys2Proof.Machine.execCanFrameRx ch frame sof s
  | .busOffWaitExpiry ch => Sys2Proof.Machine.execBusOffWaitExpiry ch s
  | .busOffRecovered ch => Sys2Proof.Machine.execBusOffRecovered ch s
  | .aloneBackoffExpiry ch => Sys2Proof.Machine.execAloneBackoffExpiry ch s
  | .txdTimeout ch => Sys2Proof.Machine.execTxdTimeout ch s
  | .channelMute ch => Sys2Proof.Machine.execChannelMute ch s
  | .schedWindowOpen ch => Sys2Proof.Machine.execSchedWindowOpen ch s
  | .schedLateMax ch => Sys2Proof.Machine.execSchedLateMax ch s
  | .schedWindowClose ch began => Sys2Proof.Machine.execSchedWindowClose ch began s
  | .addressClaimTimeout cf => Sys2Proof.Machine.execAddressClaimTimeout cf s
  | .tpTimer sending session => Sys2Proof.Machine.execTpTimer sending session s
  | .keepAliveTx bus => Sys2Proof.Machine.execKeepAliveTx bus s
  | .sleepTimeout bus => Sys2Proof.Machine.execSleepTimeout bus s
  | .graceExpiry bus idle => Sys2Proof.Machine.execGraceExpiry bus idle s
  | .busWake bus signal => Sys2Proof.Machine.execBusWake bus signal s
  | .sourceBar bus => Sys2Proof.Machine.execSourceBar bus s
  | .netHold d mask hold => Sys2Proof.Machine.execNetHold d mask hold s
  | .netWake d mask => Sys2Proof.Machine.execNetWake d mask s
  | .netBarClear d mask => Sys2Proof.Machine.execNetBarClear d mask s
  | .netRead d ch => Sys2Proof.Machine.execNetRead d ch s
  | .mgrAnnounceTx => Sys2Proof.Machine.execMgrAnnounceTx s
  | .mgrAnnounceRx prio eui => Sys2Proof.Machine.execMgrAnnounceRx prio eui s
  | .joinRx worker hops lastApplied => Sys2Proof.Machine.execJoinRx worker hops lastApplied s
  | .admitRx => Sys2Proof.Machine.execAdmitRx s
  | .refuseRx cause => Sys2Proof.Machine.execRefuseRx cause s
  | .joinRetry => Sys2Proof.Machine.execJoinRetry s
  | .leaveRx worker => Sys2Proof.Machine.execLeaveRx worker s
  | .deadTimeout worker => Sys2Proof.Machine.execDeadTimeout worker s
  | .plaitRetxTimeout worker => Sys2Proof.Machine.execPlaitRetxTimeout worker s
  | .creditTx worker => Sys2Proof.Machine.execCreditTx worker s
  | .reliableFrameRx worker frame => Sys2Proof.Machine.execReliableFrameRx worker frame s
  | .windowAccess hart worker offset size atomic write data => Sys2Proof.Machine.execWindowAccess hart worker offset size atomic write data s
  | .cplTimeout worker tag => Sys2Proof.Machine.execCplTimeout worker tag s
  | .prefetchBufferExpiry worker block => Sys2Proof.Machine.execPrefetchBufferExpiry worker block s
  | .remoteDoorbellStore hart offset size data => Sys2Proof.Machine.execRemoteDoorbellStore hart offset size data s
  | .remoteDoorbellRegister hart value => Sys2Proof.Machine.execRemoteDoorbellRegister hart value s
  | .modeMsgTx => Sys2Proof.Machine.execModeMsgTx s
  | .kl15MgrHoldExpiry => Sys2Proof.Machine.execKl15MgrHoldExpiry s
  | .tunFrameRx worker ch frame time => Sys2Proof.Machine.execTunFrameRx worker ch frame time s
  | .ethLinkChange port up sqi => Sys2Proof.Machine.execEthLinkChange port up sqi s
  | .plaitCopy d worker dir offset => Sys2Proof.Machine.execPlaitCopy d worker dir offset s
  | .plaitPing d worker => Sys2Proof.Machine.execPlaitPing d worker s
  | .plaitDrop d worker => Sys2Proof.Machine.execPlaitDrop d worker s
  | .accPair d slot => Sys2Proof.Machine.execAccPair d slot s
  | .accUnpair d slot => Sys2Proof.Machine.execAccUnpair d slot s
  | .accTakeover d => Sys2Proof.Machine.execAccTakeover d s
  | .accOwnerLock d lock => Sys2Proof.Machine.execAccOwnerLock d lock s
  | .accSearch d reason => Sys2Proof.Machine.execAccSearch d reason s
  | .accRead d => Sys2Proof.Machine.execAccRead d s
  | .accRelKey d => Sys2Proof.Machine.execAccRelKey d s
  | .pairConfirm outcome => Sys2Proof.Machine.execPairConfirm outcome s
  | .guardPoll => Sys2Proof.Machine.execGuardPoll s
  | .searchBurst => Sys2Proof.Machine.execSearchBurst s
  | .pollDone answers radioOk copyFails => Sys2Proof.Machine.execPollDone answers radioOk copyFails s
  | .guardRateChange => Sys2Proof.Machine.execGuardRateChange s
  | .searchExpiry => Sys2Proof.Machine.execSearchExpiry s
  | .lockoutEnd => Sys2Proof.Machine.execLockoutEnd s
  | .ownerSessionExpiry => Sys2Proof.Machine.execOwnerSessionExpiry s
  | .accessSessionEnd => Sys2Proof.Machine.execAccessSessionEnd s
  | .releaseTx => Sys2Proof.Machine.execReleaseTx s
  | .releaseAnswerRx counter highest status tagOk => Sys2Proof.Machine.execReleaseAnswerRx counter highest status tagOk s
  | .bezelReclaim d hso led fioLo fioHi => Sys2Proof.Machine.execBezelReclaim d hso led fioLo fioHi s
  | .bezelLogRead d => Sys2Proof.Machine.execBezelLogRead d s
  | .bezelResetReq d limp => Sys2Proof.Machine.execBezelResetReq d limp s
  | .softwareResetKey hart value => Sys2Proof.Machine.execSoftwareResetKey hart value s
  | .watchdogKick hart value => Sys2Proof.Machine.execWatchdogKick hart value s
  | .watchdogExpiry watchdog => Sys2Proof.Machine.execWatchdogExpiry watchdog s
  | .holdWindowExpiry => Sys2Proof.Machine.execHoldWindowExpiry s
  | .lockstepMismatch => Sys2Proof.Machine.execLockstepMismatch s
  | .serviceCoreTrap core => Sys2Proof.Machine.execServiceCoreTrap core s
  | .limpMapTick => Sys2Proof.Machine.execLimpMapTick s
  | .limpExit => Sys2Proof.Machine.execLimpExit s
  | .mirrorEraseDone => Sys2Proof.Machine.execMirrorEraseDone s
  | .loupeHoldoffEnd trigger => Sys2Proof.Machine.execLoupeHoldoffEnd trigger s
  | .recordLand => Sys2Proof.Machine.execRecordLand s
  | .recordCommit verified => Sys2Proof.Machine.execRecordCommit verified s
  | .loupeControlTick => Sys2Proof.Machine.execLoupeControlTick s
  | .clearSectorErased ok => Sys2Proof.Machine.execClearSectorErased ok s
  | .loupeRead d offset => Sys2Proof.Machine.execLoupeRead d offset s
  | .loupeClear d lastSeq => Sys2Proof.Machine.execLoupeClear d lastSeq s
  | .loupeMark d trig => Sys2Proof.Machine.execLoupeMark d trig s
  | .updBegin d => Sys2Proof.Machine.execUpdBegin d s
  | .updBlock d index => Sys2Proof.Machine.execUpdBlock d index s
  | .updVerify d => Sys2Proof.Machine.execUpdVerify d s
  | .updActivate d accDef => Sys2Proof.Machine.execUpdActivate d accDef s
  | .updConfirm d => Sys2Proof.Machine.execUpdConfirm d s
  | .updAbort d keep => Sys2Proof.Machine.execUpdAbort d keep s
  | .updOemKey d => Sys2Proof.Machine.execUpdOemKey d s
  | .setWrite d key => Sys2Proof.Machine.execSetWrite d key s
  | .setRead d key => Sys2Proof.Machine.execSetRead d key s
  | .activationReset => Sys2Proof.Machine.execActivationReset s
  | .trialTimeMark => Sys2Proof.Machine.execTrialTimeMark s
  | .settingsMigrationDone => Sys2Proof.Machine.execSettingsMigrationDone s
  | .ovpBegin pair => Sys2Proof.Machine.execOvpBegin pair s
  | .ovpEnd pair => Sys2Proof.Machine.execOvpEnd pair s
  | .sysvMismatch meanMv => Sys2Proof.Machine.execSysvMismatch meanMv s
  | .plateSensorFault raw => Sys2Proof.Machine.execPlateSensorFault raw s
  | .plateSensorRecover reading => Sys2Proof.Machine.execPlateSensorRecover reading s
  | .refFault v5aMv => Sys2Proof.Machine.execRefFault v5aMv s
  | .scrubWord => Sys2Proof.Machine.execScrubWord s
  | .eccInject d addr kind => Sys2Proof.Machine.execEccInject d addr kind s
  | .correctableReport => Sys2Proof.Machine.execCorrectableReport s
  | .canRxError ch code dominant => Sys2Proof.Machine.execCanRxError ch code dominant s
  | .protocolException ch => Sys2Proof.Machine.execProtocolException ch s
  | .selectiveDetectorDecode bus frame => Sys2Proof.Machine.execSelectiveDetectorDecode bus frame s
  | .coreAccess hart addr size write data => Sys2Proof.Machine.execCoreAccess hart addr size write data s
  | .plannedSwitch index => Sys2Proof.Machine.execPlannedSwitch index s
  | .plannerFrameStart => Sys2Proof.Machine.execPlannerFrameStart s
  | .kl30LRecovery => Sys2Proof.Machine.execKl30LRecovery s
  | .supplyReturn => Sys2Proof.Machine.execSupplyReturn s
  | .resetReqAction => Sys2Proof.Machine.execResetReqAction s
  | .loupeLandingBound => Sys2Proof.Machine.execLoupeLandingBound s
  | .updBlockLanded => Sys2Proof.Machine.execUpdBlockLanded s
  | .updVerifyDone => Sys2Proof.Machine.execUpdVerifyDone s
  | .bootRecordWritten => Sys2Proof.Machine.execBootRecordWritten s

end Sys2Proof.Machine
end

