-- ==== Sys2Proof/Machine/Idle.lean ====
section
/-! DEFINITION. What the module does between commands: one 4 ns tick passes, peers take what was sent, and inbound bridge
transactions that waited are tried again. -/

namespace Sys2Proof.Machine

/-- A tick with no command (DESIGN CHOICE, log entry 1): 4 ns of device time, which Weave counts while PD_ACT is On (R89). -/
def idle (s : State) : State := retryHeld { s.advance 4 with out := [] }

end Sys2Proof.Machine
end

