-- ==== Sys2Proof/Safety.lean ====
section
/-! DEFINITION. What claims about runs are stated in: the parts of the state that a command leaves as they are, when a
descriptor acts at once, and what a sound state is. -/

namespace Sys2Proof.Machine

/-- The parts of the state, one for each field of `State` but the queue. -/
inductive Part where
  | clk | sys | adc | ecc | mem | nor | pwr | weave | rings | cfg | bezel | loupe | hso | edge
  | led | mtx | fio | vlv | facet | can | net | eth | plait | acc | upd | rdata | out | free
  deriving DecidableEq, Repr

/-- Two states agree in a part. -/
def Part.same (s t : State) : Part → Prop
  | .clk => t.clk = s.clk
  | .sys => t.sys = s.sys
  | .adc => t.adc = s.adc
  | .ecc => t.ecc = s.ecc
  | .mem => t.mem = s.mem
  | .nor => t.nor = s.nor
  | .pwr => t.pwr = s.pwr
  | .weave => t.weave = s.weave
  | .rings => t.rings = s.rings
  | .cfg => t.cfg = s.cfg
  | .bezel => t.bezel = s.bezel
  | .loupe => t.loupe = s.loupe
  | .hso => t.hso = s.hso
  | .edge => t.edge = s.edge
  | .led => t.led = s.led
  | .mtx => t.mtx = s.mtx
  | .fio => t.fio = s.fio
  | .vlv => t.vlv = s.vlv
  | .facet => t.facet = s.facet
  | .can => t.can = s.can
  | .net => t.net = s.net
  | .eth => t.eth = s.eth
  | .plait => t.plait = s.plait
  | .acc => t.acc = s.acc
  | .upd => t.upd = s.upd
  | .rdata => t.rdata = s.rdata
  | .out => t.out = s.out
  | .free => t.free = s.free

/-- The parts of one list are among those of another. -/
def subParts (a b : List Part) : Bool := a.all (fun p => b.contains p)

/-- Nothing but the parts listed has changed, and the queue of commands is the same. -/
def Frame (changed : List Part) (s t : State) : Prop := t.pending = s.pending ∧ ∀ p : Part, p ∉ changed → p.same s t

/-- The parts in which an event leaves its traces: the block vector, the Bezel log, Loupe's staging, and the message that
a worker sends its manager (R174, R538, R605, R613). -/
def logParts : List Part := [.rings, .bezel, .loupe, .plait, .out]

/-- Every byte of host memory reads as it did. -/
def SameMemory (s t : State) : Prop := ∀ a : Nat, t.mem.byte a = s.mem.byte a

/-! ## Descriptors that act at once -/

/-- The payload that a descriptor's command reads before it acts, none where it reads none (R162). -/
def payloadOf (s : State) (d : Desc) (c : HostCmd) : List (BitVec 8) :=
  if d.payLen == 0 || !readsPayload c then [] else s.mem.bytes d.payAddr.toNat d.payLen.toNat

/-- The payload lies in host memory, and none of its words is uncorrectable or corrected on the way (R162). -/
def payloadReady (s : State) (d : Desc) (c : HostCmd) : Bool :=
  d.payLen == 0 || (hostRange d.payAddr.toNat d.payLen.toNat &&
    (!readsPayload c || (!(s.ringN d.ring).remote
      && (wordSpan d.payAddr.toNat d.payLen.toNat).all (fun w => s.mem.faultOf w == none))))

/-- A descriptor without a due time that passes every check of Table 4.5, waits for nothing and finds its block open:
its block carries it out at once (R158, R159, R43, R67, R104, R194, R734). -/
def Ready (s : State) (d : Desc) (c : HostCmd) : Bool :=
  c.wf d && stateWf s d c && payloadReady s d c && d.due == 0
    && (s.ringN d.ring).outs.all (fun o => o.d.index != d.index)
    && !(s.ringN d.ring).cancels.contains d.index && (s.ringN d.ring).held.isEmpty
    && (!d.fence || (s.ringN d.ring).outs.isEmpty)
    && !(s.domCtl (blockDom c.block)).closed && s.entryNow (blockDom c.block) != .off && !s.blockDisabled c.block
    && (!d.syncReq || s.synced) && (waitsFor s d c).isNone

/-- The state in which an accepted descriptor is outstanding with its block and opcode (R166). -/
def taken (s : State) (d : Desc) (c : HostCmd) : State := outstand s d c.block c.opcode

/-- The action of a descriptor that acts at once. -/
def actOf (s : State) (d : Desc) (c : HostCmd) : Act := { d := d, payload := payloadOf s d c }

/-- A descriptor's completion has been written, with its status, DETAIL, RESULT0 and RESULT1; TIME is the Weave time of
the action (R165). -/
def answered (s : State) (d : Desc) (status detail r0 r1 : Nat) : State :=
  complete s d status detail s.weave.time.toNat r0 r1

/-- The descriptor and host command that a row of the table gives, none for a row that no descriptor gives (R155). -/
def hostOf : Instr → Option (Desc × HostCmd)
  | .modeSet d target => some (d, .modeSet target)
  | .perfSet d level => some (d, .perfSet level)
  | .domainSet d domain state => some (d, .domainSet domain state)
  | .needSet d need source => some (d, .needSet need source)
  | .wallSet d utc at_ => some (d, .wallSet utc at_)
  | .captureArm d unit timeout => some (d, .captureArm unit timeout)
  | .launchCancel d ring index => some (d, .launchCancel ring index)
  | .rxPost d => some (d, .rxPost)
  | .descCancel d ring index => some (d, .descCancel ring index)
  | .nop d => some (d, .nop)
  | .configStage d => some (d, .configStage)
  | .configLoad d => some (d, .configLoad)
  | .stageDiscard d => some (d, .stageDiscard)
  | .commit d persist => some (d, .commit persist)
  | .fleetCommit d mask persist => some (d, .fleetCommit mask persist)
  | .fleetAbort d => some (d, .fleetAbort)
  | .configExport d => some (d, .configExport)
  | .hsoSet d ch state duty => some (d, .hsoSet ch state duty)
  | .hsoMulti d mask state duty => some (d, .hsoMulti mask state duty)
  | .hsoClear d ch => some (d, .hsoClear ch)
  | .hsoRead d ch => some (d, .hsoRead ch)
  | .hsoOltest d ch => some (d, .hsoOltest ch)
  | .edgePin d ch phase => some (d, .edgePin ch phase)
  | .edgeUnpin d ch => some (d, .edgeUnpin ch)
  | .vlvStart d ch profile arg => some (d, .vlvStart ch profile arg)
  | .vlvMulti d mask profile arg => some (d, .vlvMulti mask profile arg)
  | .vlvStop d ch => some (d, .vlvStop ch)
  | .vlvClear d ch bank => some (d, .vlvClear ch bank)
  | .vlvRead d ch => some (d, .vlvRead ch)
  | .vlvOfftest d ch => some (d, .vlvOfftest ch)
  | .facetLoad d mask => some (d, .facetLoad mask)
  | .facetVerify d mask => some (d, .facetVerify mask)
  | .facetPeek d ch reg => some (d, .facetPeek ch reg)
  | .ledSet d ch dim iSet => some (d, .ledSet ch dim iSet)
  | .ledMulti d mask iSet dim => some (d, .ledMulti mask iSet dim)
  | .ledClear d ch => some (d, .ledClear ch)
  | .ledRead d ch => some (d, .ledRead ch)
  | .colourCtl d run => some (d, .colourCtl run)
  | .mtxWrite d offset => some (d, .mtxWrite offset)
  | .mtxSwap d when_ => some (d, .mtxSwap when_)
  | .mtxBlank d blank => some (d, .mtxBlank blank)
  | .mtxClear d => some (d, .mtxClear)
  | .fioSet d ch duty => some (d, .fioSet ch duty)
  | .fioMulti d mask duty => some (d, .fioMulti mask duty)
  | .fioClear d ch => some (d, .fioClear ch)
  | .fioRead d ch => some (d, .fioRead ch)
  | .canTx d ch fmt brs ide rtr cf useCf rtrDlc id sdt vcid sec af => some (d, .canTx ch fmt brs ide rtr cf useCf rtrDlc id sdt vcid sec af)
  | .canTpTx d ch cf da prio pgn => some (d, .canTpTx ch cf da prio pgn)
  | .canMode d ch listen unmute => some (d, .canMode ch listen unmute)
  | .canRecover d ch => some (d, .canRecover ch)
  | .canTtWrite d ch fmt brs ide slot clear id => some (d, .canTtWrite ch fmt brs ide slot clear id)
  | .canAc d cf act addr => some (d, .canAc cf act addr)
  | .canRead d ch => some (d, .canRead ch)
  | .netHold d mask hold => some (d, .netHold mask hold)
  | .netWake d mask => some (d, .netWake mask)
  | .netBarClear d mask => some (d, .netBarClear mask)
  | .netRead d ch => some (d, .netRead ch)
  | .plaitCopy d worker dir offset => some (d, .plaitCopy worker dir offset)
  | .plaitPing d worker => some (d, .plaitPing worker)
  | .plaitDrop d worker => some (d, .plaitDrop worker)
  | .accPair d slot => some (d, .accPair slot)
  | .accUnpair d slot => some (d, .accUnpair slot)
  | .accTakeover d => some (d, .accTakeover)
  | .accOwnerLock d lock => some (d, .accOwnerLock lock)
  | .accSearch d reason => some (d, .accSearch reason)
  | .accRead d => some (d, .accRead)
  | .accRelKey d => some (d, .accRelKey)
  | .bezelReclaim d hso led fioLo fioHi => some (d, .bezelReclaim hso led fioLo fioHi)
  | .bezelLogRead d => some (d, .bezelLogRead)
  | .bezelResetReq d limp => some (d, .bezelResetReq limp)
  | .loupeRead d offset => some (d, .loupeRead offset)
  | .loupeClear d lastSeq => some (d, .loupeClear lastSeq)
  | .loupeMark d trig => some (d, .loupeMark trig)
  | .updBegin d => some (d, .updBegin)
  | .updBlock d index => some (d, .updBlock index)
  | .updVerify d => some (d, .updVerify)
  | .updActivate d accDef => some (d, .updActivate accDef)
  | .updConfirm d => some (d, .updConfirm)
  | .updAbort d keep => some (d, .updAbort keep)
  | .updOemKey d => some (d, .updOemKey)
  | .setWrite d key => some (d, .setWrite key)
  | .setRead d key => some (d, .setRead key)
  | .eccInject d addr kind => some (d, .eccInject addr kind)
  | _ => none

/-! ## Sound states -/

/-- A state is sound: host memory and both matrix buffers are in canonical form, Weave time is a whole number of 4 ns
ticks (R89), the Bezel log holds no more than 32 entries (R604), and the mirror sector no more than 64 slots with a log
each (R606). -/
def Sound (s : State) : Prop :=
  s.mem.wf = true ∧ cellsFrom 0 s.mtx.bufA = true ∧ cellsFrom 0 s.mtx.bufB = true ∧ s.weave.time.toNat % 4 = 0
    ∧ s.bezel.log.length ≤ 32 ∧ s.nor.mirror.length ≤ 64 ∧ ∀ l ∈ s.nor.mirror, l.length ≤ 32

/-- What holds between a state and any later one of a command: the queue is as it was, device time has not gone back, and
soundness is kept. -/
def Keeps (s t : State) : Prop := t.pending = s.pending ∧ s.clk.ns ≤ t.clk.ns ∧ (Sound s → Sound t)

/-! ## What a command may change -/

/-- Every part of the state. -/
def allParts : List Part :=
  [.clk, .sys, .adc, .ecc, .mem, .nor, .pwr, .weave, .rings, .cfg, .bezel, .loupe, .hso, .edge, .led, .mtx, .fio, .vlv,
   .facet, .can, .net, .eth, .plait, .acc, .upd, .rdata, .out, .free]

/-- The parts of the state that a command may change; it leaves every other part as it is. -/
def changes : Instr → List Part
  | .protocolException .. =>
    []
  | .plateSensorRecover .. =>
    [.adc]
  | .wireModelSave .. =>
    [.bezel]
  | .seti .. | .setr .. | .freq .. | .wait .. | .waitr .. | .wadd .. | .waddr .. | .waitc .. | .waits ..
  | .slopew .. | .tmo .. | .movi .. | .mov .. | .add .. | .addi .. | .sub .. | .shf .. | .ldc .. | .rd ..
  | .br .. | .facetNop .. | .conditionWaitMet .. =>
    [.facet]
  | .senseUpdate .. | .openLoadOnClear .. | .offStateTest .. | .reverseFeed .. | .groupLimitHit ..
  | .groupLimitEnd .. =>
    [.hso]
  | .loupeHoldoffEnd .. =>
    [.loupe]
  | .loupeControlTick .. =>
    [.nor]
  | .syncTx .. | .mgrAnnounceTx .. =>
    [.out]
  | .resetNReleased .. | .kl30LowHold .. | .crystalRunning .. | .lateWakeLatch .. | .plChangeDone ..
  | .kl30LRecovery .. =>
    [.pwr]
  | .bstReverseStart .. | .bstReverseEnd .. | .valveOffTest .. | .valveDieOtClear .. =>
    [.vlv]
  | .pdelayExchange .. | .timeMsgRx .. =>
    [.weave]
  | .waitw .. =>
    [.edge, .facet]
  | .mirrorEraseDone .. =>
    [.nor, .bezel]
  | .joinRetry .. | .creditTx .. | .modeMsgTx .. =>
    [.plait, .out]
  | .pl4CapLift .. =>
    [.pwr, .free]
  | .railPowerGood .. =>
    [.pwr, .weave]
  | .contextEnd .. =>
    [.vlv, .facet]
  | .fleetPrepareRx .. | .fleetApplyRetx .. =>
    [.cfg, .plait, .out]
  | .ownerSessionExpiry .. | .accessSessionEnd .. =>
    [.clk, .weave, .acc]
  | .canSofCommit .. | .busOffWaitExpiry .. | .aloneBackoffExpiry .. | .schedLateMax .. =>
    [.clk, .weave, .can]
  | .takeoverExpiry .. =>
    [.clk, .weave, .cfg]
  | .timeWaitEnd .. | .weaveWaitEnd .. | .conditionWaitTimeout .. =>
    [.clk, .weave, .facet]
  | .inrushWindowEnd .. | .retryCountReset .. | .fastTripHoldoffEnd .. =>
    [.clk, .weave, .hso]
  | .prefetchBufferExpiry .. =>
    [.clk, .weave, .plait]
  | .bankIdleTimeout .. =>
    [.clk, .weave, .vlv]
  | .feedMeasure .. =>
    [.hso, .vlv, .upd]
  | .outputRetry .. =>
    [.clk, .weave, .edge, .fio]
  | .stringRetry .. =>
    [.clk, .weave, .edge, .led]
  | .guardPoll .. =>
    [.pwr, .acc, .out, .free]
  | .moderationTimeout .. =>
    [.clk, .weave, .rings, .plait, .out]
  | .hostInterruptWake .. =>
    [.mem, .pwr, .rings, .plait, .out]
  | .joinRx .. | .admitRx .. | .refuseRx .. =>
    [.rings, .bezel, .loupe, .plait, .out]
  | .plateSensorFault .. | .refFault .. =>
    [.adc, .rings, .bezel, .loupe, .plait, .out]
  | .trialTimeMark .. =>
    [.clk, .nor, .pwr, .weave, .cfg, .upd]
  | .searchBurst .. =>
    [.clk, .pwr, .weave, .acc, .out, .free]
  | .correctableReport .. =>
    [.ecc, .rings, .bezel, .loupe, .plait, .out]
  | .matrixFrameStart .. =>
    [.mem, .pwr, .rings, .mtx, .plait, .out]
  | .captureEdge .. =>
    [.mem, .pwr, .weave, .rings, .plait, .out]
  | .recordLand .. =>
    [.nor, .rings, .bezel, .loupe, .plait, .out]
  | .crystalTimeout .. | .pl4LimitReached .. =>
    [.pwr, .rings, .bezel, .loupe, .plait, .out]
  | .txdTimeout .. =>
    [.rings, .bezel, .loupe, .can, .plait, .out]
  | .plannerFrameCheck .. =>
    [.rings, .bezel, .loupe, .edge, .plait, .out]
  | .ethLinkChange .. =>
    [.rings, .bezel, .loupe, .eth, .plait, .out]
  | .rept .. | .peakTimeLimit .. =>
    [.rings, .bezel, .loupe, .facet, .plait, .out]
  | .outputOpenLoad .. =>
    [.rings, .bezel, .loupe, .fio, .plait, .out]
  | .openLoadOnDetect .. =>
    [.rings, .bezel, .loupe, .hso, .plait, .out]
  | .colourStep .. | .shortedLeds .. =>
    [.rings, .bezel, .loupe, .led, .plait, .out]
  | .mxSyncLost .. | .rowOvercurrent .. | .mxVsOvercurrent .. | .columnOpen .. =>
    [.rings, .bezel, .loupe, .mtx, .plait, .out]
  | .bstOvervoltage .. | .bstCapCheck .. =>
    [.rings, .bezel, .loupe, .vlv, .plait, .out]
  | .fleetVoteTimeout .. | .fleetHoldExpiry .. =>
    [.rings, .cfg, .bezel, .loupe, .plait, .out]
  | .ovpEnd .. | .sysvMismatch .. =>
    [.sys, .rings, .bezel, .loupe, .plait, .out]
  | .captureTimeout .. =>
    [.clk, .mem, .pwr, .weave, .rings, .plait, .out]
  | .syncMissed .. =>
    [.clk, .weave, .rings, .bezel, .loupe, .plait, .out]
  | .scrubWord .. =>
    [.ecc, .mem, .rings, .bezel, .loupe, .plait, .out]
  | .softStartStep .. =>
    [.mem, .pwr, .rings, .hso, .edge, .plait, .out]
  | .outputCurrentLimitTrip .. | .outputOt .. =>
    [.rings, .bezel, .loupe, .edge, .fio, .plait, .out]
  | .openString .. | .stringOvercurrent .. | .converterOt .. =>
    [.rings, .bezel, .loupe, .edge, .led, .plait, .out]
  | .fastTrip .. | .overloadTrip .. | .junctionOtTrip .. | .shortToBatOn .. | .groupLimitShed .. | .groupOt .. =>
    [.rings, .bezel, .loupe, .hso, .edge, .plait, .out]
  | .colourConvDone .. =>
    [.rings, .bezel, .loupe, .led, .plait, .out, .free]
  | .fleetApplyRx .. | .fleetAbortRx .. =>
    [.weave, .rings, .cfg, .bezel, .loupe, .plait, .out]
  | .mxSyncEdge .. =>
    [.clk, .mem, .pwr, .weave, .rings, .mtx, .plait, .out]
  | .searchExpiry .. =>
    [.clk, .mem, .pwr, .weave, .rings, .plait, .acc, .out]
  | .holdoverExpiry .. | .schedWindowOpen .. | .schedWindowClose .. =>
    [.clk, .weave, .rings, .bezel, .loupe, .can, .plait, .out]
  | .sympatheticTag .. =>
    [.clk, .weave, .rings, .bezel, .loupe, .hso, .plait, .out]
  | .sourceBar .. =>
    [.clk, .weave, .rings, .bezel, .loupe, .net, .plait, .out]
  | .guardRateChange .. =>
    [.clk, .weave, .rings, .bezel, .loupe, .plait, .acc, .out]
  | .tunFrameRx .. =>
    [.ecc, .mem, .pwr, .rings, .bezel, .loupe, .plait, .out]
  | .canRxError .. =>
    [.mem, .pwr, .rings, .bezel, .loupe, .can, .plait, .out]
  | .leaveRx .. | .deadTimeout .. | .plaitRetxTimeout .. =>
    [.mem, .pwr, .rings, .bezel, .loupe, .plait, .rdata, .out]
  | .updVerifyDone .. =>
    [.mem, .pwr, .rings, .bezel, .loupe, .plait, .upd, .out]
  | .valveOffTestResult .. =>
    [.mem, .pwr, .rings, .bezel, .loupe, .vlv, .plait, .out]
  | .fleetApplyAckRx .. =>
    [.mem, .pwr, .rings, .cfg, .bezel, .loupe, .plait, .out]
  | .neighbourTest .. =>
    [.rings, .bezel, .loupe, .edge, .led, .mtx, .plait, .out]
  | .windowAccess .. =>
    [.sys, .pwr, .rings, .bezel, .loupe, .plait, .rdata, .out]
  | .perfSet .. | .domainSet .. | .wallSet .. | .captureArm .. | .rxPost .. | .nop .. | .configExport ..
  | .hsoRead .. | .vlvRead .. | .facetPeek .. | .ledRead .. | .fioRead .. | .canRead .. | .netRead ..
  | .plaitCopy .. | .plaitPing .. | .accRead .. | .bezelLogRead .. | .bezelResetReq .. | .loupeRead ..
  | .loupeMark .. | .eccInject .. =>
    [.ecc, .mem, .pwr, .weave, .rings, .bezel, .loupe, .plait, .out]
  | .clearSectorErased .. | .updBlockLanded .. =>
    [.mem, .nor, .pwr, .rings, .bezel, .loupe, .plait, .upd, .out]
  | .persistDone .. =>
    [.mem, .nor, .pwr, .rings, .cfg, .bezel, .loupe, .plait, .out]
  | .rcTrim .. | .canTxSuccess .. | .canTxError .. | .canArbLost .. | .busOffRecovered ..
  | .addressClaimTimeout .. =>
    [.mem, .pwr, .rings, .bezel, .loupe, .can, .net, .plait, .out]
  | .junctionOtClear .. | .offStateTestResult .. | .groupOtClear .. =>
    [.mem, .pwr, .rings, .bezel, .loupe, .hso, .edge, .plait, .out]
  | .valveChannelOvercurrent .. | .bankOvercurrent .. | .bankCurrentMismatch .. | .openCoilOn ..
  | .valveDieOt .. | .phase .. | .faultOp .. | .endOp .. | .runaway .. | .programCheck .. =>
    [.mem, .pwr, .rings, .bezel, .loupe, .vlv, .facet, .plait, .out]
  | .fleetVoteRx .. =>
    [.mem, .pwr, .weave, .rings, .cfg, .bezel, .loupe, .plait, .out]
  | .governorTick .. =>
    [.pwr, .rings, .bezel, .loupe, .hso, .edge, .led, .plait, .out]
  | .cplTimeout .. =>
    [.clk, .mem, .pwr, .weave, .rings, .bezel, .loupe, .plait, .rdata, .out]
  | .settingsMigrationDone .. =>
    [.ecc, .mem, .nor, .pwr, .rings, .bezel, .loupe, .plait, .upd, .out]
  | .canRecover .. | .canTtWrite .. =>
    [.ecc, .mem, .pwr, .weave, .rings, .bezel, .loupe, .can, .plait, .out]
  | .edgePin .. | .edgeUnpin .. =>
    [.ecc, .mem, .pwr, .weave, .rings, .bezel, .loupe, .edge, .plait, .out]
  | .hsoOltest .. =>
    [.ecc, .mem, .pwr, .weave, .rings, .bezel, .loupe, .hso, .plait, .out]
  | .colourCtl .. =>
    [.ecc, .mem, .pwr, .weave, .rings, .bezel, .loupe, .led, .plait, .out]
  | .mtxWrite .. | .mtxSwap .. | .mtxBlank .. | .mtxClear .. =>
    [.ecc, .mem, .pwr, .weave, .rings, .bezel, .loupe, .mtx, .plait, .out]
  | .netBarClear .. =>
    [.ecc, .mem, .pwr, .weave, .rings, .bezel, .loupe, .net, .plait, .out]
  | .accUnpair .. | .accOwnerLock .. | .accSearch .. | .updOemKey .. =>
    [.ecc, .mem, .pwr, .weave, .rings, .bezel, .loupe, .plait, .acc, .out]
  | .plaitDrop .. =>
    [.ecc, .mem, .pwr, .weave, .rings, .bezel, .loupe, .plait, .rdata, .out]
  | .updBlock .. | .updVerify .. | .setRead .. =>
    [.ecc, .mem, .pwr, .weave, .rings, .bezel, .loupe, .plait, .upd, .out]
  | .vlvClear .. | .vlvOfftest .. =>
    [.ecc, .mem, .pwr, .weave, .rings, .bezel, .loupe, .vlv, .plait, .out]
  | .configStage .. | .configLoad .. | .stageDiscard .. | .commitCheckDone .. | .fleetAbort .. =>
    [.ecc, .mem, .pwr, .weave, .rings, .cfg, .bezel, .loupe, .plait, .out]
  | .limpMapTick .. =>
    [.mem, .pwr, .rings, .bezel, .hso, .edge, .led, .fio, .plait, .out]
  | .wireModelUpdate .. =>
    [.mem, .pwr, .rings, .bezel, .loupe, .hso, .edge, .plait, .out, .free]
  | .syncRx .. =>
    [.mem, .pwr, .weave, .rings, .bezel, .loupe, .edge, .can, .plait, .out]
  | .mgrAnnounceRx .. =>
    [.mem, .pwr, .weave, .rings, .bezel, .loupe, .plait, .rdata, .out, .free]
  | .lockoutEnd .. =>
    [.clk, .mem, .nor, .pwr, .weave, .rings, .bezel, .loupe, .plait, .acc, .out]
  | .plannedSwitch .. =>
    [.clk, .mem, .pwr, .weave, .rings, .bezel, .hso, .edge, .fio, .plait, .out]
  | .channelMute .. | .tpTimer .. | .keepAliveTx .. | .sleepTimeout .. =>
    [.clk, .mem, .pwr, .weave, .rings, .bezel, .loupe, .can, .net, .plait, .out]
  | .fastTripRetry .. =>
    [.clk, .mem, .pwr, .weave, .rings, .bezel, .loupe, .hso, .edge, .plait, .out]
  | .boostWaitExpiry .. =>
    [.clk, .mem, .pwr, .weave, .rings, .bezel, .loupe, .vlv, .facet, .plait, .out]
  | .pairConfirm .. =>
    [.clk, .mem, .pwr, .weave, .rings, .cfg, .bezel, .loupe, .plait, .acc, .out]
  | .accRelKey .. =>
    [.ecc, .mem, .nor, .pwr, .weave, .rings, .bezel, .loupe, .plait, .acc, .out]
  | .loupeClear .. | .updActivate .. | .setWrite .. =>
    [.ecc, .mem, .nor, .pwr, .weave, .rings, .bezel, .loupe, .plait, .upd, .out]
  | .canTx .. | .canTpTx .. | .canMode .. | .canAc .. | .netHold .. | .netWake .. =>
    [.ecc, .mem, .pwr, .weave, .rings, .bezel, .loupe, .can, .net, .plait, .out]
  | .fioSet .. | .fioMulti .. | .fioClear .. =>
    [.ecc, .mem, .pwr, .weave, .rings, .bezel, .loupe, .edge, .fio, .plait, .out]
  | .ledSet .. | .ledMulti .. | .ledClear .. =>
    [.ecc, .mem, .pwr, .weave, .rings, .bezel, .loupe, .edge, .led, .plait, .out]
  | .hsoSet .. | .hsoMulti .. | .hsoClear .. =>
    [.ecc, .mem, .pwr, .weave, .rings, .bezel, .loupe, .hso, .edge, .plait, .out]
  | .accPair .. | .accTakeover .. =>
    [.ecc, .mem, .pwr, .weave, .rings, .bezel, .loupe, .plait, .acc, .out, .free]
  | .vlvStop .. | .facetVerify .. =>
    [.ecc, .mem, .pwr, .weave, .rings, .bezel, .loupe, .vlv, .facet, .plait, .out]
  | .updConfirm .. =>
    [.ecc, .mem, .pwr, .weave, .rings, .cfg, .bezel, .loupe, .plait, .upd, .out]
  | .releaseAnswerRx .. =>
    [.mem, .nor, .pwr, .rings, .bezel, .loupe, .can, .net, .plait, .acc, .out]
  | .pwmPeriodStart .. =>
    [.mem, .pwr, .rings, .bezel, .loupe, .hso, .edge, .led, .fio, .plait, .out]
  | .canFrameRx .. =>
    [.ecc, .mem, .pwr, .rings, .bezel, .loupe, .can, .net, .plait, .upd, .out, .free]
  | .vlvStart .. | .vlvMulti .. =>
    [.ecc, .mem, .pwr, .weave, .rings, .bezel, .loupe, .edge, .vlv, .facet, .plait, .out]
  | .launchCancel .. =>
    [.ecc, .mem, .pwr, .weave, .rings, .cfg, .bezel, .loupe, .can, .net, .plait, .out]
  | .facetLoad .. =>
    [.ecc, .mem, .pwr, .weave, .rings, .cfg, .bezel, .loupe, .vlv, .facet, .plait, .out]
  | .releaseTx .. =>
    [.clk, .mem, .nor, .pwr, .weave, .rings, .bezel, .loupe, .can, .net, .plait, .acc, .out]
  | .plannerFrameStart .. =>
    [.mem, .pwr, .rings, .bezel, .loupe, .hso, .edge, .led, .fio, .vlv, .facet, .plait, .out]
  | .bezelReclaim .. =>
    [.ecc, .mem, .pwr, .weave, .rings, .bezel, .loupe, .hso, .edge, .led, .fio, .plait, .out, .free]
  | .ovpBegin .. =>
    [.sys, .mem, .pwr, .rings, .bezel, .loupe, .hso, .edge, .led, .fio, .vlv, .facet, .plait, .out]
  | .holdWindowExpiry .. =>
    [.clk, .mem, .pwr, .weave, .rings, .bezel, .loupe, .hso, .edge, .led, .fio, .vlv, .facet, .plait, .out]
  | .railTimeout .. =>
    [.mem, .nor, .pwr, .weave, .rings, .bezel, .loupe, .hso, .edge, .led, .fio, .vlv, .facet, .plait, .out]
  | .supplyLoss .. =>
    [.mem, .nor, .pwr, .rings, .cfg, .bezel, .loupe, .hso, .edge, .led, .mtx, .fio, .vlv, .facet, .plait, .upd,
     .out]
  | .guardExpiry .. =>
    [.clk, .sys, .mem, .pwr, .weave, .rings, .bezel, .loupe, .hso, .edge, .led, .mtx, .fio, .vlv, .facet,
     .plait, .acc, .out]
  | .descCancel .. =>
    [.ecc, .mem, .pwr, .weave, .rings, .cfg, .bezel, .loupe, .edge, .led, .mtx, .vlv, .facet, .can, .net,
     .plait, .upd, .out]
  | .fleetCommitDue .. =>
    [.clk, .sys, .mem, .nor, .pwr, .weave, .rings, .cfg, .bezel, .loupe, .hso, .edge, .led, .fio, .vlv, .facet,
     .can, .net, .plait, .out]
  | .commit .. =>
    [.sys, .ecc, .mem, .nor, .pwr, .weave, .rings, .cfg, .bezel, .loupe, .hso, .edge, .led, .fio, .vlv, .facet,
     .can, .net, .plait, .out]
  | .kl15Off .. | .wakePinReleased .. =>
    [.sys, .mem, .pwr, .weave, .rings, .bezel, .loupe, .hso, .edge, .led, .mtx, .fio, .vlv, .facet, .can, .net,
     .plait, .acc, .rdata, .out]
  | .powerOn .. | .resetNAsserted .. | .deviceReset .. | .railPowerGoodLost .. | .startComplete .. | .kl15On ..
  | .wakePinAsserted .. | .regulatorsOff .. | .modeSet .. | .plReqWrite .. | .needSet .. | .compatRun ..
  | .compatIdle .. | .compatSleep .. | .compatDeepsleep .. | .compatOff .. | .domainReady ..
  | .domainWakeTimeout .. | .drainQuiescent .. | .drainBoundExpiry .. | .launchFire .. | .weaveTimeRead ..
  | .wallOffsetRead .. | .captureRead .. | .ringEnable .. | .ringDisable .. | .doorbellBlockRegister ..
  | .doorbellStore .. | .descriptorFetch .. | .fleetCommit .. | .stagedRegisterWrite .. | .registerWrite ..
  | .ledGainWrite .. | .inputFilteredChange .. | .inputDebounce .. | .wireBreakMeasure .. | .fioWakeStrobe ..
  | .graceExpiry .. | .busWake .. | .reliableFrameRx .. | .remoteDoorbellStore .. | .remoteDoorbellRegister ..
  | .kl15MgrHoldExpiry .. | .pollDone .. | .softwareResetKey .. | .watchdogKick .. | .watchdogExpiry ..
  | .lockstepMismatch .. | .serviceCoreTrap .. | .limpExit .. | .recordCommit .. | .updBegin .. | .updAbort ..
  | .activationReset .. | .selectiveDetectorDecode .. | .coreAccess .. | .supplyReturn .. | .resetReqAction ..
  | .loupeLandingBound .. | .bootRecordWritten .. =>
    allParts

end Sys2Proof.Machine
end

