-- ==== Sys2Proof/Certificates/Slice0/Obligations.lean ====
section
/-! DEFINITION. The statements for the provers, chapter by chapter of the spec: what each command does, what it leaves as
it is, and the invariants that every step keeps. A clause about a descriptor names the state `taken`, in which the
descriptor is outstanding, and writes its completion with `answered`. -/

open Sys2Proof Sys2Proof.Machine

/-! ## Steps, memory, descriptors and rings -/

/-- A step takes the command at the front of the queue and runs it on the state with the rest of the queue. The queue is
the model's own (a block takes commands first in, first out). -/
def Obligations.StepRunsTheFront : Prop :=
  ∀ (s : State) (c : Instr) (rest : List Instr), s.pending = c :: rest → step s = exec c { s with pending := rest }

/-- With no command waiting, a step is the model's tick of 4 ns (DESIGN CHOICE, log entry 1): device time goes on, Weave
counts 4 ns while PD_ACT is On (R89) and stands otherwise, and the peers have taken what was sent. -/
def Obligations.EmptyQueueTicks : Prop :=
  (∀ s : State, s.pending = [] → step s = .next (idle s)) ∧
  (∀ s : State, s.pending = [] → s.timRuns = true → s.weave.slew = 0 →
    s.plait.link.toList.all (fun l => l.held.isEmpty) = true →
    step s = .next { s with clk.ns := s.clk.ns + 4, weave.time := s.weave.time + 4, weave.slewTicks := 0, out := [] }) ∧
  (∀ s : State, s.pending = [] → s.timRuns = false → s.plait.link.toList.all (fun l => l.held.isEmpty) = true →
    step s = .next { s with clk.ns := s.clk.ns + 4, out := [] })

/-- Every step keeps a state sound, takes at most the front of the queue, and never moves device time back. -/
def Obligations.StepsKeepStatesSound : Prop :=
  ∀ s t : State, step s = .next t → Sound s → Sound t ∧ t.pending = s.pending.tail ∧ s.clk.ns ≤ t.clk.ns

/-- The state right after power-on reset is sound and no command waits in it. -/
def Obligations.ResetIsSound : Prop := Sound State.reset ∧ State.reset.pending = []

/-- What reset leaves where the register tables state a value: Table 2.14 to 2.20 (PWR), 3.7 to 3.12 (WEAVE), 4.13 to 4.19
(RING), 16.10 (BEZEL) and 21.10 (ECC). -/
def Obligations.ResetLeavesTheTablesValues : Prop :=
  let s := State.reset
  (s.pwr.mode = .start ∧ s.pwr.plReq = 2 ∧ s.pwr.drainBound = 0x07D0 ∧ s.pwr.pMax = 0x6E ∧ s.pwr.pl4OnMax = 0x1E
    ∧ s.pwr.pl4Window = 0x78 ∧ s.pwr.railFail = 0 ∧ s.pwr.domFail = 0) ∧
  (∀ d : Dom, s.domSt d = if d = .bezel ∨ d = .aon then DomState.on else .off) ∧
  (s.weave.time = 0 ∧ s.weave.syncInt = 3 ∧ s.weave.holdMax = 2 ∧ s.weave.lockTh = 0x19 ∧ s.weave.lateCount = 0) ∧
  (∀ n : Fin 128, (s.ringN n).enable = false ∧ (s.ringN n).size = 4 ∧ (s.ringN n).written = 0 ∧ (s.ringN n).fetch = 0
    ∧ (s.ringN n).halt = false ∧ (s.ringN n).idle = true) ∧
  (s.rings.dbReg = false ∧ s.rings.irqPend = 0 ∧ s.rings.irqEn = 0 ∧ s.rings.blkPend = 0 ∧ s.rings.blkEn = 0) ∧
  (s.bezel.holdWindow = 0x014 ∧ s.bezel.wdtTimeout = 0x1F4 ∧ s.bezel.wdtEn = false ∧ s.bezel.stormN = 3
    ∧ s.bezel.stormWin = 0x0A ∧ s.bezel.log = []) ∧
  (s.ecc.scrubEn = true ∧ s.ecc.passH = 0x18 ∧ s.ecc.ceDram = 0 ∧ s.ecc.ueDram = 0)

/-- Bytes stored are the bytes read back, no other byte changes, the canonical form is kept, and two memories in that form
that read alike are equal. -/
def Obligations.StoresReadBack : Prop :=
  (∀ (m : Mem) (a : Nat) (bs : List (BitVec 8)), (m.store a bs).bytes a bs.length = bs) ∧
  (∀ (m : Mem) (a : Nat) (bs : List (BitVec 8)) (x : Nat), x < a ∨ a + bs.length ≤ x → (m.store a bs).byte x = m.byte x) ∧
  (∀ (m : Mem) (a : Nat) (bs : List (BitVec 8)), m.wf = true → (m.store a bs).wf = true) ∧
  (∀ m n : Mem, m.wf = true → n.wf = true → (∀ a, m.byte a = n.byte a) → m.cells = n.cells)

/-- The CRC-32C of R156: its check value over the nine ASCII bytes "123456789", and the step it takes for each bit. -/
def Obligations.CrcIsTheSpecs : Prop :=
  crc32c [0x31, 0x32, 0x33, 0x34, 0x35, 0x36, 0x37, 0x38, 0x39] = 0xE3069283 ∧
  (∀ c : BitVec 32, crcBit c = if c.getLsbD 0 then (c >>> 1) ^^^ 0x82F63B78 else c >>> 1) ∧
  (∀ (c : BitVec 32) (b : BitVec 8), crcByte c b = (List.range 8).foldl (fun x _ => crcBit x) (c ^^^ b.setWidth 32)) ∧
  (∀ bs : List (BitVec 8), crc32c bs = bs.foldl crcByte 0xFFFFFFFF ^^^ 0xFFFFFFFF)

/-- Every row of the table that a descriptor gives is accepted under Table 4.5 (R159), a fetched descriptor whose CRC,
block, opcode and reserved bits are right in the same way, and one that passes every check and waits for nothing is
carried out at once by its block. -/
def Obligations.GivenDescriptorsAreTakenUp : Prop :=
  (∀ (i : Instr) (d : Desc) (c : HostCmd) (s : State), hostOf i = some (d, c) → exec i s = .next (acceptHost d c s)) ∧
  (∀ (s : State) (ring : Fin 128) (index : BitVec 16) (bs : List (BitVec 8)) (c : HostCmd),
    crc32c (bs.take 60) = wordAt bs 15 →
    HostCmd.parse (bits (wordAt bs 0).toNat 8 8) (bits (wordAt bs 0).toNat 0 8) (fun k => (wordAt bs (4 + k)).toNat) = some c →
    reservedOk bs c = true → (s.ringN ring).remote = false →
    takeDesc s ring index bs = acceptHost (descOf ring index bs) c s) ∧
  (∀ (i : Instr) (d : Desc) (c : HostCmd) (s : State), hostOf i = some (d, c) → Ready s d c = true →
    exec i s = .next (actHost c (actOf s d c) (taken s d c)))

/-- Descriptors that are not carried out: BAD_FIELD and PAYLOAD_RANGE with BLOCK 3 and the block and opcode as read in
DETAIL (Table 4.5, R160), ABORTED_POWER for a closed domain (R67), REFUSED_STATE for a domain that is Off for the mode
or a disabled block (R43, R194) and for SYNC_REQ without synchronised time (R104), the wait behind a FENCE (R158), and
CANCELLED for a descriptor that DESC_CANCEL named before it was accepted (R177). Clauses here rest on choices of the
model, not on rules of the spec: log entries 45, 140, 203, 205. -/
def Obligations.RefusedDescriptorsComplete : Prop :=
  (∀ (i : Instr) (d : Desc) (c : HostCmd) (s : State), hostOf i = some (d, c) → c.wf d = false ∨ stateWf s d c = false →
    exec i s = .next (complete (outstand s d 3 0) d 0x81 (c.block * 256 + c.opcode)
      (if d.due = 0 then s.weave.time.toNat else 0) 0 0)) ∧
  (∀ (i : Instr) (d : Desc) (c : HostCmd) (s : State), hostOf i = some (d, c) → c.wf d = true → stateWf s d c = true →
    d.payLen ≠ 0 → hostRange d.payAddr.toNat d.payLen.toNat = false →
    exec i s = .next (complete (outstand s d 3 0) d 0x82 (c.block * 256 + c.opcode)
      (if d.due = 0 then s.weave.time.toNat else 0) 0 0)) ∧
  (∀ (i : Instr) (d : Desc) (c : HostCmd) (s : State), hostOf i = some (d, c) → c.wf d = true → stateWf s d c = true →
    payloadReady s d c = true → (s.ringN d.ring).outs = [] → (s.ringN d.ring).held = [] → (s.ringN d.ring).cancels = [] →
    (s.domCtl (blockDom c.block)).closed = true →
    exec i s = .next (complete (taken s d c) d stAbortedPower 0 (if d.due = 0 then s.weave.time.toNat else 0) 0 0)) ∧
  (∀ (i : Instr) (d : Desc) (c : HostCmd) (s : State), hostOf i = some (d, c) → c.wf d = true → stateWf s d c = true →
    payloadReady s d c = true → (s.ringN d.ring).outs = [] → (s.ringN d.ring).held = [] → (s.ringN d.ring).cancels = [] →
    (s.domCtl (blockDom c.block)).closed = false → s.entryNow (blockDom c.block) = .off ∨ s.blockDisabled c.block = true →
    exec i s = .next (complete (taken s d c) d stRefusedState 0 (if d.due = 0 then s.weave.time.toNat else 0) 0 0)) ∧
  (∀ (i : Instr) (d : Desc) (c : HostCmd) (s : State), hostOf i = some (d, c) → c.wf d = true → stateWf s d c = true →
    payloadReady s d c = true → (s.ringN d.ring).outs = [] → (s.ringN d.ring).held = [] → (s.ringN d.ring).cancels = [] →
    (s.domCtl (blockDom c.block)).closed = false → s.entryNow (blockDom c.block) ≠ .off → s.blockDisabled c.block = false →
    d.due = 0 → d.syncReq = true → s.synced = false →
    exec i s = .next (answered (taken s d c) d stRefusedState 0 0 0)) ∧
  (∀ (i : Instr) (d : Desc) (c : HostCmd) (s : State) (o : Outst), hostOf i = some (d, c) → c.wf d = true →
    stateWf s d c = true → payloadReady s d c = true → (s.ringN d.ring).outs = [o] → o.d.index ≠ d.index →
    (s.ringN d.ring).held = [] → (s.ringN d.ring).cancels = [] → d.fence = true →
    exec i s = .next (s.modRing d.ring (fun r => { r with held := [(d, c)] }))) ∧
  (∀ (i : Instr) (d : Desc) (c : HostCmd) (s : State), hostOf i = some (d, c) → c.wf d = true → stateWf s d c = true →
    payloadReady s d c = true → (s.ringN d.ring).outs = [] → (s.ringN d.ring).cancels = [d.index] →
    exec i s = .next (complete ((taken s d c).modRing d.ring (fun r => { r with cancels := [] })) d stCancelled 0 0 0 0))

/-- A launch: with synchronised time (where it asks for it), a due time 50 µs to 600 s ahead, room in the queue and its
block's consent it enters the queue with its fire tick, the last tick not later than DUE less its stage delay (R110);
otherwise it completes in the order of R734: REFUSED_STATE for time that is not synchronised, for a due time beyond 600
s (event 0x0207) and for a full queue (event 0x0203), LATE without action for a due time less than 50 µs ahead (event
0x0202, R112). CFG commands have rules of their own. Clauses here rest on choices of the model, not on rules of the
spec: log entry 55. -/
def Obligations.LaunchesWaitForTheirTick : Prop :=
  (∀ (i : Instr) (d : Desc) (c : HostCmd) (s : State), hostOf i = some (d, c) → c.wf d = true → payloadReady s d c = true →
    stateWf s d c = true → (s.ringN d.ring).outs = [] → (s.ringN d.ring).held = [] → (s.ringN d.ring).cancels = [] →
    s.weave.queue = [] → (s.domCtl (blockDom c.block)).closed = false → s.entryNow (blockDom c.block) ≠ .off →
    s.blockDisabled c.block = false → s.isOn (blockDom c.block) = true → d.due ≠ 0 → (d.syncReq = true → s.synced = true) →
    c.block ≠ 4 → admitHost d c (taken s d c) = stOk →
    s.weave.time.toNat + 50000 ≤ d.due.toNat → d.due.toNat ≤ s.weave.time.toNat + 600000000000 →
    ∃ e : Launch, e.host = some (d, c) ∧ e.due = d.due ∧ e.stage = stageDelay c ∧ e.late = false ∧ e.waiting = false ∧
      e.fire.toNat % 4 = 0 ∧ e.fire.toNat + e.stage ≤ d.due.toNat ∧ d.due.toNat < e.fire.toNat + e.stage + 4 ∧
      ∃ p : BitVec 11, (p = if s.weave.peak = 0 then 1 else s.weave.peak) ∧
      exec i s = .next { taken s d c with weave.queue := [e], weave.peak := p }) ∧
  (∀ (i : Instr) (d : Desc) (c : HostCmd) (s : State), hostOf i = some (d, c) → c.wf d = true → payloadReady s d c = true →
    stateWf s d c = true → (s.ringN d.ring).outs = [] → (s.ringN d.ring).held = [] → (s.ringN d.ring).cancels = [] →
    (s.domCtl (blockDom c.block)).closed = false → s.entryNow (blockDom c.block) ≠ .off → s.blockDisabled c.block = false →
    d.due ≠ 0 → d.syncReq = true → s.synced = false →
    exec i s = .next (complete (taken s d c) d stRefusedState 0 0 0 0)) ∧
  (∀ (i : Instr) (d : Desc) (c : HostCmd) (s : State), hostOf i = some (d, c) → c.wf d = true → payloadReady s d c = true →
    stateWf s d c = true → (s.ringN d.ring).outs = [] → (s.ringN d.ring).held = [] → (s.ringN d.ring).cancels = [] →
    (s.domCtl (blockDom c.block)).closed = false → s.entryNow (blockDom c.block) ≠ .off → s.blockDisabled c.block = false →
    d.due ≠ 0 → d.syncReq = false → s.weave.time.toNat + 600000000000 < d.due.toNat →
    exec i s = .next (logEvent (complete (taken s d c) d stRefusedState 0 0 0 0) 0x0207 [])) ∧
  (∀ (i : Instr) (d : Desc) (c : HostCmd) (s : State), hostOf i = some (d, c) → c.wf d = true → payloadReady s d c = true →
    stateWf s d c = true → (s.ringN d.ring).outs = [] → (s.ringN d.ring).held = [] → (s.ringN d.ring).cancels = [] →
    (s.domCtl (blockDom c.block)).closed = false → s.entryNow (blockDom c.block) ≠ .off → s.blockDisabled c.block = false →
    d.due ≠ 0 → d.syncReq = false → 1024 ≤ s.weave.queue.length → d.due.toNat ≤ s.weave.time.toNat + 600000000000 →
    exec i s = .next (logEvent (complete (taken s d c) d stRefusedState 0 0 0 0) 0x0203 [])) ∧
  (∀ (i : Instr) (d : Desc) (c : HostCmd) (s : State), hostOf i = some (d, c) → c.wf d = true → payloadReady s d c = true →
    stateWf s d c = true → (s.ringN d.ring).outs = [] → (s.ringN d.ring).held = [] → (s.ringN d.ring).cancels = [] →
    s.weave.queue.length < 1024 → (s.domCtl (blockDom c.block)).closed = false → s.entryNow (blockDom c.block) ≠ .off →
    s.blockDisabled c.block = false → d.due ≠ 0 → d.syncReq = false → c.block ≠ 4 → admitHost d c (taken s d c) = stOk →
    d.due.toNat < s.weave.time.toNat + 50000 → d.lateExec = false →
    ∃ (u : State) (p : BitVec 11), u = complete { taken s d c with weave.peak := p } d stLate 0 0 0 0 ∧
      exec i s = .next (logEvent { u with weave.lateCount := u.weave.lateCount + 1 } 0x0202 [d.ring.val, d.index.toNat, 0]))

/-- Where a completion lies: NOP completes OK with its block and opcode (R186), its slot is the count of entries written
modulo N, PHASE is 1 on even passes, and the CRC covers bytes 0 to 27 (R150, R163, Table 4.6); every byte outside the
entry reads as before. -/
def Obligations.CompletionsAreWrittenIntoTheRing : Prop :=
  (∀ (s : State) (d : Desc), Ready s d .nop = true → exec (.nop d) s = .next (answered (taken s d .nop) d stOk 0 0 0)) ∧
  (∀ (s : State) (d : Desc) (a : Nat), Ready s d .nop = true → s.isOn .svc = true → (s.ringN d.ring).remote = false →
    a = (s.ringN d.ring).cbase.toNat + (s.ringN d.ring).written.toNat % (s.ringN d.ring).n * 32 → 0x80000000 ≤ a →
    ∃ (t : State) (bs : List (BitVec 8)), exec (.nop d) s = .next t ∧ t.mem.bytes a 32 = bs ++ bytesOf 4 (crc32c bs).toNat ∧
      bs = bytesOf 4 (3 * 256 + 3 * 65536 + d.ring.val * 2 ^ 24
            + (if (s.ringN d.ring).written.toNat / (s.ringN d.ring).n % 2 = 0 then 2 ^ 31 else 0))
        ++ bytesOf 4 (d.index.toNat % (s.ringN d.ring).n % 4096) ++ bytesOf 4 d.tag.toNat
        ++ bytesOf 8 s.weave.time.toNat ++ bytesOf 4 0 ++ bytesOf 4 0 ∧
      (t.ringN d.ring).written = (s.ringN d.ring).written + 1 ∧
      (∀ x : Nat, x < a ∨ a + 32 ≤ x → t.mem.byte x = s.mem.byte x))

/-- An event raises its block's vector while PD_SVC is On (R174; no record of the spec binds an EVT ring to a local
event), events of the BEZEL and PWR blocks enter the Bezel log with the mode, the Weave time and the boot count (R605),
and the log never holds more than 32 entries (R604). Clauses here rest on choices of the model, not on rules of the
spec: log entry 3. -/
def Obligations.EventsLeaveTheirTraces : Prop :=
  (∀ (s : State) (code : Nat) (data : List Nat), s.isOn .svc = true → code / 256 < 32 →
    (logEvent s code data).rings.blkPend.getLsbD (code / 256) = true) ∧
  (∀ (s : State) (code : Nat) (data : List Nat), s.isOn .bezel = true → code < 65536 →
    (code / 256 = 0x11 ∨ code / 256 = 0x01) → s.bezel.log.length ≤ 31 →
    ∃ e : BzEntry, e.seq = s.bezel.logSeq + 1 ∧ e.event.toNat = code ∧ e.mode.toNat = s.pwr.mode.num ∧
      e.time = s.weave.time ∧ e.boot = s.bezel.boot ∧ s.bezel.log ++ [e] <+: (logEvent s code data).bezel.log) ∧
  (∀ (s : State) (code : Nat) (data : List Nat), s.bezel.log.length ≤ 32 → (logEvent s code data).bezel.log.length ≤ 32)

/-- The frame of every command: it changes nothing but the parts of the state listed for it, and never the queue. -/
def Obligations.EveryCommandChangesOnlyItsParts : Prop :=
  ∀ (i : Instr) (s t : State), exec i s = .next t → Frame (changes i) s t

/-- Setting a ring up and disabling it (R142, R145), moderation (R175), RX_POST (R179) and the fetch of the one
descriptor that can be fetched (R150, R157). Clauses here rest on choices of the model, not on rules of the spec: log
entries 179, 201, 205, 206, 207, 208. -/
def Obligations.RingsAreSetUpAndFetch : Prop :=
  (∀ (s : State) (hart : BitVec 2) (n : Fin 128) (v : BitVec 32), s.isOn .host = true → s.isOn .svc = true →
    exec (.ringEnable hart n v) s = .next (ringCfgWrite s n (v ||| 1)) ∧
    exec (.ringDisable hart n v) s = .next (ringCfgWrite s n (v &&& 0xFFFFFFFE))) ∧
  (∀ (s : State) (n : Fin 128) (v : BitVec 32) (r : Ring), v.getLsbD 0 = true → (s.ringN n).enable = false →
    (s.ringN n).outs = [] →
    r = { s.ringN n with
                         cls := v.extractLsb' 1 2, remote := v.getLsbD 3, size := v.extractLsb' 4 4,
                         prio := v.extractLsb' 8 2, hart := v.extractLsb' 10 2, targetS := v.getLsbD 12 } →
    enableOk s n r = true →
    ringCfgWrite s n v = s.modRing n (fun _ => { r with
      enable := true, fetch := 0, written := 0, lost := 0, lostPending := 0, unsignalled := 0 })) ∧
  (∀ (s : State) (n : Fin 128) (v : BitVec 32) (r : Ring), v.getLsbD 0 = true → (s.ringN n).enable = false →
    (s.ringN n).outs = [] →
    r = { s.ringN n with
                         cls := v.extractLsb' 1 2, remote := v.getLsbD 3, size := v.extractLsb' 4 4,
                         prio := v.extractLsb' 8 2, hart := v.extractLsb' 10 2, targetS := v.getLsbD 12 } →
    enableOk s n r = false → ringCfgWrite s n v = s.modRing n (fun _ => { r with cfgErr := true })) ∧
  (∀ (s : State) (n : Nat) (r : Ring), r.size.toNat < 4 ∨ 12 < r.size.toNat ∨ r.cls = 3 ∨ s.rings.dbReg = false →
    enableOk s n r = false) ∧
  (∀ (s : State) (n : Fin 128) (v : BitVec 32), v.getLsbD 0 = false → (s.ringN n).enable = true →
    (s.ringN n).posted = [] → ∃ e : Bool, ringCfgWrite s n v = s.modRing n (fun r => { r with
      enable := false, halt := false, posted := [], held := [], cancels := [], cfgErr := r.cfgErr || e,
      prio := v.extractLsb' 8 2, hart := v.extractLsb' 10 2, targetS := v.getLsbD 12 })) ∧
  (∀ (s : State) (n : Fin 128) (v : BitVec 32) (d : Desc), v.getLsbD 0 = false → (s.ringN n).enable = true →
    (s.ringN n).posted = [d] → ∃ e : Bool, ringCfgWrite s n v = complete (s.modRing n (fun r => { r with
      enable := false, halt := false, posted := [], held := [], cancels := [], cfgErr := r.cfgErr || e,
      prio := v.extractLsb' 8 2, hart := v.extractLsb' 10 2, targetS := v.getLsbD 12 }))
      d stCancelled 0 s.weave.time.toNat 0 0) ∧
  (∀ (s : State) (n : Fin 128), (s.ringN n).unsignalled = 0 → exec (.moderationTimeout n) s = .next s) ∧
  (∀ (s : State) (n : Fin 128), (s.ringN n).unsignalled ≠ 0 → (s.ringN n).remote = false →
    ∃ u : State, u = s.reach ((s.ringN n).firstAt + (s.ringN n).modTime.toNat * 1000) ∧
      exec (.moderationTimeout n) s = .next
        ({ u with rings.irqPend := setBit s.rings.irqPend n true }.modRing n (fun r => { r with unsignalled := 0 }))) ∧
  (∀ (s : State) (d : Desc), Ready s d .rxPost = true → (s.ringN d.ring).enable = true →
    exec (.rxPost d) s = .next ((taken s d .rxPost).modRing d.ring (fun r => { r with posted := r.posted ++ [d] }))) ∧
  (∀ (s : State) (d : Desc), Ready s d .rxPost = true → (s.ringN d.ring).enable = false →
    exec (.rxPost d) s = .next (answered (taken s d .rxPost) d stCancelled 0 0 0)) ∧
  (∀ s : State, (∀ n : Fin 128, (s.ringN n).held = [] ∧ s.fetchable n = false) → exec .descriptorFetch s = .next s) ∧
  (∀ (s : State) (r : Fin 128) (a : Nat), (∀ n : Fin 128, (s.ringN n).held = []) → s.fetchable r = true →
    (∀ n : Fin 128, n ≠ r → s.fetchable n = false) → (s.ringN r).remote = false →
    a = (s.ringN r).dbase.toNat + (s.ringN r).slot (s.ringN r).fetch * 64 → 0x80000000 ≤ a →
    (wordSpan a 64).all (fun w => s.mem.faultOf w == none) = true →
    ∃ turn : Vector (Nat × Nat) 4, exec .descriptorFetch s = .next
      (takeDesc ({ s with rings.turn := turn }.modRing r (fun x => { x with fetch := x.fetch + 1 })) r
        (s.ringN r).fetch (s.mem.bytes a 64)))

/-- A launch on its fire tick acts with TIME equal to the tick plus its stage delay (R110, R112), is refused where its
domain is Off for the mode (R119) and waits where it is lowered (R65); LAUNCH_CANCEL and DESC_CANCEL have the outcomes
of R118 and Table 4.9. Clauses here rest on choices of the model, not on rules of the spec: log entries 202, 203, 204,
209, 210. -/
def Obligations.LaunchesFireOrAreCancelled : Prop :=
  (∀ (s : State) (e : Launch) (d : Desc) (c : HostCmd), s.timRuns = true → s.weave.queue = [e] → e.host = some (d, c) →
    e.waiting = false → s.weave.time.toNat < e.fire.toNat → e.fire.toNat % 4 = 0 → s.weave.lastFire = none →
    s.isOn (blockDom c.block) = true → d.payLen = 0 →
    exec .launchFire s = .next (actHost c
      { d := d, fired := true, late := e.late, time := e.fire + BitVec.ofNat 64 e.stage, payload := [] }
      { s.reachWeave e.fire with weave.queue := [], weave.lastFire := some e.fire })) ∧
  (∀ (s : State) (e : Launch) (d : Desc) (c : HostCmd), s.timRuns = true → s.weave.queue = [e] → e.host = some (d, c) →
    e.waiting = false → s.weave.time.toNat < e.fire.toNat → e.fire.toNat % 4 = 0 → s.weave.lastFire = none →
    s.isOn (blockDom c.block) = false → s.entryNow (blockDom c.block) = .off →
    exec .launchFire s = .next (complete
      { s.reachWeave e.fire with weave.queue := [], weave.lastFire := some e.fire } d stRefusedState 0 0 0 0)) ∧
  (∀ (s : State) (e : Launch) (d : Desc) (c : HostCmd), s.timRuns = true → s.weave.queue = [e] → e.host = some (d, c) →
    e.waiting = false → s.weave.time.toNat < e.fire.toNat → e.fire.toNat % 4 = 0 → s.weave.lastFire = none →
    s.isOn (blockDom c.block) = false → s.entryNow (blockDom c.block) ≠ .off → (s.domCtl (blockDom c.block)).dead = false →
    (s.domCtl (blockDom c.block)).waking = none →
    exec .launchFire s = .next ({ s.reachWeave e.fire with
      weave.queue := [{ e with waiting := true }], weave.lastFire := some e.fire }.modDom (blockDom c.block)
        (fun x => { x with waking := some .on }))) ∧
  (∀ (s : State) (t : BitVec 64), s.weave.time.toNat < t.toNat → t.toNat % 4 = 0 →
    s.reachWeave t = { s with clk.ns := s.clk.ns + (t.toNat - s.weave.time.toNat), weave.time := t }) ∧
  (∀ s : State, s.timRuns = false ∨ s.weave.queue = [] → exec .launchFire s = .next s) ∧
  (∀ (s : State) (d : Desc) (r : BitVec 7) (x : BitVec 12) (e : Launch) (d' : Desc),
    Ready s d (.launchCancel r x) = true → s.weave.queue = [e] → e.host = some (d', .nop) → e.waiting = false →
    s.weave.time.toNat < e.fire.toNat → d'.ring.val = r.toNat → (s.ringN r.toNat).slot d'.index = x.toNat →
    exec (.launchCancel d r x) s = .next (answered
      (complete { taken s d (.launchCancel r x) with weave.queue := [] } d' stCancelled 0 0 0 0) d stOk 0 0 0)) ∧
  (∀ (s : State) (d : Desc) (r : BitVec 7) (x : BitVec 12), Ready s d (.launchCancel r x) = true → s.weave.queue = [] →
    (s.ringN r.toNat).outs = [] → r.toNat ≠ d.ring.val →
    exec (.launchCancel d r x) s = .next (answered (taken s d (.launchCancel r x)) d stCancelTooLate 0 0 0)) ∧
  (∀ (s : State) (d : Desc) (r : BitVec 7) (x : BitVec 12) (y : Desc), Ready s d (.descCancel r x) = true →
    r.toNat ≠ d.ring.val → (s.ringN r.toNat).posted = [y] → (s.ringN r.toNat).slot y.index = x.toNat →
    exec (.descCancel d r x) s = .next (answered (complete
      ((taken s d (.descCancel r x)).modRing r.toNat (fun q => { q with posted := [] })) y stCancelled 0
        s.weave.time.toNat 0 0) d stOk 0 0 0)) ∧
  (∀ (s : State) (d : Desc) (r : BitVec 7) (x : BitVec 12), Ready s d (.descCancel r x) = true → r.toNat ≠ d.ring.val →
    (s.ringN r.toNat).posted = [] → (s.ringN r.toNat).held = [] → s.pwr.stalled = [] → s.weave.queue = [] →
    (s.ringN r.toNat).outs = [] → (s.ringN r.toNat).pi = (s.ringN r.toNat).fetch →
    exec (.descCancel d r x) s = .next (answered (taken s d (.descCancel r x)) d stCancelTooLate 0 0 0)) ∧
  (∀ (s : State) (d : Desc) (r : BitVec 7) (x : BitVec 12) (i : BitVec 16), Ready s d (.descCancel r x) = true →
    r.toNat ≠ d.ring.val → (s.ringN r.toNat).posted = [] → (s.ringN r.toNat).held = [] → s.pwr.stalled = [] →
    s.weave.queue = [] → (s.ringN r.toNat).outs = [] → (s.ringN r.toNat).submitted x.toNat = some i →
    exec (.descCancel d r x) s = .next (answered
      ((taken s d (.descCancel r x)).modRing r.toNat (fun q => { q with cancels := q.cancels ++ [i] })) d stOk 0 0 0))

/-- Accesses of a host core: registers of 4 bytes (R712) with their access types (R713), staged registers (R202, R718),
the keys and kicks, the doorbell blocks (R148, R149, R545), the latching reads (R92, Table 3.12, 3.14), host memory, and
the access faults of Tables 21.1 and 21.4. Clauses here rest on choices of the model, not on rules of the spec: log
entries 116, 117, 158, 159, 178, 196, 197, 198, 199, 200. -/
def Obligations.CoresReadAndWrite : Prop :=
  (∀ (s : State) (hart : BitVec 2) (a : BitVec 36) (v : BitVec 32), s.isOn .host = true → regBase ≤ a.toNat →
    a.toNat < 0xA0160000 → a.toNat % 4 = 0 → s.isOn (blockDom (blockOfAddr a.toNat)) = true →
    exec (.registerWrite hart a v) s = .next (regWrite s a.toNat v) ∧
    exec (.coreAccess hart a 2 true (v.setWidth 64)) s = .next (regWrite s a.toNat v) ∧
    exec (.coreAccess hart a 2 false 0) s = .next { readLatch s a.toNat with
      rdata := BitVec.ofNat 64 (regValue s a.toNat % 2 ^ 32) }) ∧
  (∀ (s : State) (v : BitVec 32),
    regWrite s 0xA0000030 v = { s with sys.scratch := vset s.sys.scratch 0 v } ∧
    regWrite s 0xA0010000 v = s ∧
    regWrite s 0xA0010014 v = { s with pwr.drainBound := BitVec.ofNat 15 (min 20000 (max 100 (v.toNat % 2 ^ 15))) } ∧
    regWrite s 0xA0010008 v = { s with pwr.domFail := s.pwr.domFail &&& ~~~v.setWidth 12 }) ∧
  (∀ (s : State) (hart : BitVec 2) (v : BitVec 32), s.isOn .host = true → s.isOn .act = true → s.stageLocked = false →
    stageBytes (stageAdd s.cfg.stage { s.stagedBase 6 3 0 [0x408] with body := (s.stagedBase 6 3 0 [0x408]).body.set 0 (((s.stagedBase 6 3 0 [0x408]).body.getD 0 0 &&& ~~~0xF3F) ||| (v &&& 0xF3F)) }) ≤ 48 * 1024 →
    exec (.stagedRegisterWrite hart 0xA0060000 v) s = .next { s with
      cfg.stage := stageAdd s.cfg.stage { s.stagedBase 6 3 0 [0x408] with body := (s.stagedBase 6 3 0 [0x408]).body.set 0 (((s.stagedBase 6 3 0 [0x408]).body.getD 0 0 &&& ~~~0xF3F) ||| (v &&& 0xF3F)) },
      cfg.stageSt := .opened }) ∧
  (∀ (s : State) (hart : BitVec 2) (a : BitVec 36) (v : BitVec 32), s.isOn .host = true → s.isOn .act = true →
    s.stageLocked = true → a = 0xA0060000 →
    exec (.stagedRegisterWrite hart a v) s = .next (logEvent { s with sys.stageWrLost := true } 0x0005 [0xA0060000])) ∧
  (∀ (s : State) (hart : BitVec 2) (g : Fin 3) (v : BitVec 32), s.isOn .host = true → s.isOn .led = true →
    s.led.run = false →
    exec (.ledGainWrite hart g v) s = .next { s with led.gain := vset s.led.gain g (v.setWidth 13) }) ∧
  (∀ (s : State) (hart : BitVec 2) (g : Fin 3) (v : BitVec 32), s.isOn .host = true → s.isOn .led = true →
    s.led.run = true → exec (.ledGainWrite hart g v) s = .next s) ∧
  (∀ (s : State) (hart : BitVec 2) (v : BitVec 32), s.isOn .host = true → s.isOn .bezel = true →
    v.toNat % 65536 = 0x0B1E → s.pwr.mode ≠ .storage →
    ∃ t : State, exec (.softwareResetKey hart v) s = .next t ∧ t.bezel.resetType = 2 ∧ t.pwr.mode = .start) ∧
  (∀ (s : State) (hart : BitVec 2) (v : BitVec 32), s.isOn .host = true → s.isOn .bezel = true →
    v.toNat % 65536 ≠ 0x0B1E → exec (.softwareResetKey hart v) s = .next s) ∧
  (∀ (s : State) (hart : BitVec 2) (v : BitVec 32), s.isOn .host = true → s.isOn .bezel = true → s.bezel.wdtEn = true →
    v.setWidth 16 = s.bezel.wdtNext → s.bezel.kickAt = none →
    ∃ w : BitVec 16, w ≠ s.bezel.wdtNext ∧ exec (.watchdogKick hart v) s = .next { s with
      free := s.free + 1, bezel.lastKick := s.clk.ns, bezel.kickAt := some s.clk.ns, bezel.wdtNext := w }) ∧
  (∀ (s : State) (hart : BitVec 2) (v : BitVec 32), s.isOn .host = true → s.isOn .svc = true → anyRing s = false →
    exec (.doorbellBlockRegister hart v) s = .next { s with
      rings.dbReg := v.getLsbD 0,
      rings.regErr := (s.rings.regErr && !v.getLsbD 1), rings.sizeErr := (s.rings.sizeErr && !v.getLsbD 2) }) ∧
  (∀ (s : State) (hart : BitVec 2) (v : BitVec 32), s.isOn .host = true → s.isOn .svc = true → anyRing s = true →
    v.getLsbD 0 ≠ s.rings.dbReg →
    exec (.doorbellBlockRegister hart v) s = .next { s with
      rings.regErr := true,
      rings.sizeErr := (s.rings.sizeErr && !v.getLsbD 2) }) ∧
  (∀ (s : State) (hart : BitVec 2) (v : BitVec 32), s.isOn .host = true → s.isOn .eth = true →
    exec (.remoteDoorbellRegister hart v) s = .next { s with
      plait.rdb := BitVec.ofNat 36 (v.toNat % 16 * 2 ^ 32 + s.plait.rdb.toNat % 2 ^ 32),
      plait.rdbReg := if s.noLink then v.getLsbD 8 else s.plait.rdbReg }) ∧
  (∀ (s : State) (hart : BitVec 2) (n : Fin 8), s.isOn .host = true → s.isOn .act = true →
    exec (.weaveTimeRead hart) s = .next { s with
      weave.timeHi := s.weave.time.extractLsb' 32 32, rdata := (s.weave.time.setWidth 32).setWidth 64 } ∧
    exec (.wallOffsetRead hart) s = .next { s with
      weave.wallHi := s.weave.wall.extractLsb' 32 32, rdata := (s.weave.wall.setWidth 32).setWidth 64 } ∧
    exec (.captureRead hart n) s = .next { s with
      weave.capHi := vset s.weave.capHi n ((vget s.weave.capTime n).extractLsb' 32 32),
      rdata := ((vget s.weave.capTime n).setWidth 32).setWidth 64 }) ∧
  (∀ (s : State) (hart : BitVec 2) (o : BitVec 10) (z : BitVec 2) (x : BitVec 64), s.rings.dbReg = true →
    s.plait.rdbReg = false → s.isOn .host = true → s.isOn .svc = true → s.isOn .mem = true → s.mem.bad = [] →
    hostRange s.rings.dbBase.toNat 1024 = true → s.rings.dbBase.toNat % 1024 = 0 → z = 3 ∨ z = 2 →
    o.toNat % 2 ^ z.toNat = 0 →
    ∃ m : State, m = { s with mem := s.mem.store (s.rings.dbBase.toNat + o.toNat) (bytesOf (2 ^ z.toNat) x.toNat) } ∧
      exec (.doorbellStore hart o z x) s = .next (
        if z = 3 then doorbell m (o.toNat / 8) (some (x.setWidth 16)) (some (x.extractLsb' 32 16))
        else if o.toNat % 8 = 0 then doorbell m (o.toNat / 8) (some (x.setWidth 16)) none
        else doorbell m (o.toNat / 8) none (some (x.setWidth 16)))) ∧
  (∀ (s : State) (n : Fin 128) (pi : BitVec 16), (s.ringN n).enable = true → (s.ringN n).cls ≠ 2 →
    (s.ringN n).halt = false →
    doorbell s n (some pi) none = (if (s.ringN n).n < (pi - (s.ringN n).cci).toNat then
        logEvent (s.modRing n (fun r => { r with pi := pi, halt := true })) 0x0303 [n.val]
      else s.modRing n (fun r => { r with pi := pi }))) ∧
  (∀ (s : State) (hart : BitVec 2) (o : BitVec 12) (z : BitVec 2) (x : BitVec 64), s.plait.rdbReg = true →
    s.rings.dbReg = false → s.isOn .host = true → s.isOn .svc = true → s.isOn .mem = true → s.mem.bad = [] →
    hostRange s.plait.rdb.toNat 4096 = true → s.plait.rdb.toNat % 4096 = 0 → z = 3 ∨ z = 2 → o.toNat % 2 ^ z.toNat = 0 →
    ∃ (m : State) (word : Nat),
      m = { s with mem := s.mem.store (s.plait.rdb.toNat + o.toNat) (bytesOf (2 ^ z.toNat) x.toNat) } ∧
      word = ofBytes (m.mem.bytes (s.plait.rdb.toNat + o.toNat / 8 * 8) 8) ∧
      exec (.remoteDoorbellStore hart o z x) s = .next (if s.role = .manager then
        plaitMsg m (o.toNat / 128) 2 (bytesOf 4 (o.toNat % 128 / 8)
          ++ bytesOf 4 (bits word 0 16 + bits word 32 16 * 2 ^ 16)) else m)) ∧
  (∀ (s : State) (hart : BitVec 2) (a : BitVec 36) (x : BitVec 64), s.isOn .host = true → s.isOn .svc = true →
    s.isOn .mem = true → s.mem.bad = [] → s.rings.dbReg = false → s.plait.rdbReg = false → hostRange a.toNat 8 = true →
    exec (.coreAccess hart a 3 true x) s = .next { s with mem := s.mem.store a.toNat (bytesOf 8 x.toNat) }) ∧
  (∀ (s : State) (hart : BitVec 2) (a : BitVec 36) (x : BitVec 64), s.isOn .host = true → s.isOn .svc = true →
    s.isOn .mem = true → s.mem.bad = [] → hostRange a.toNat 8 = true →
    exec (.coreAccess hart a 3 false x) s = .next { s with rdata := BitVec.ofNat 64 (ofBytes (s.mem.bytes a.toNat 8)) }) ∧
  (∀ (s : State) (hart z : BitVec 2) (a : BitVec 36) (w : Bool) (x : BitVec 64), s.isOn .host = true →
    0x80800000 ≤ a.toNat → a.toNat < 0xA0000000 →
    exec (.coreAccess hart a z w x) s = .next (logEvent { s with
      sys.faultCause := 0, sys.faultHart := hart,
      sys.faultWrite := w, sys.faultValid := true, sys.faultAddr := a, rdata := 0 } 0x0003 [0, hart.toNat, b2n w, a.toNat])) ∧
  (∀ (s : State) (hart z : BitVec 2) (a : BitVec 36) (w : Bool) (x : BitVec 64), s.isOn .host = true →
    regBase ≤ a.toNat → a.toNat < 0xA0160000 → a.toNat % 4 ≠ 0 →
    exec (.coreAccess hart a z w x) s = .next (logEvent { s with
      sys.faultCause := 6, sys.faultHart := hart,
      sys.faultWrite := w, sys.faultValid := true, sys.faultAddr := a, rdata := 0 } 0x0003 [6, hart.toNat, b2n w, a.toNat]))

/-- Synchronisation, wall-clock time and capture: Sync and TIME of a manager (R93, R108), a worker's offset measurement
with its step, slew and lock (R96 to R102), HOLDOVER and LOST (R94, R98), WALL_SET (R106, R108), CAPTURE_ARM and the
capture units (R129, R131, R132). Clauses here rest on choices of the model, not on rules of the spec: log entry 46. -/
def Obligations.TimeFollowsAndCaptures : Prop :=
  (∀ s : State, s.role = .manager → exec .syncTx s = .next { s with
    out := s.out ++ [.sync s.weave.syncInt.toNat s.weave.time.toNat] ++ [.timeMsg s.weave.wall s.weave.setCount] }) ∧
  (∀ s : State, s.role ≠ .manager → exec .syncTx s = .next s) ∧
  (∀ (s : State) (n : Nat), exec (.pdelayExchange n) s = .next { s with weave.pathDelay := n }) ∧
  (∀ (s : State) (x : Int) (k : Fin 6), s.role = .worker → s.weave.sync ≠ .free → s.timRuns = true → 50000 < x.natAbs →
    ∃ t : State, exec (.syncRx x k) s = .next t ∧
      t.weave.time = BitVec.ofInt 64 ((s.weave.time.toNat : Int) - x) &&& ~~~3#64 ∧ t.weave.sync = .acquiring ∧
      t.weave.stepCount = s.weave.stepCount + 1 ∧ t.weave.slew = 0 ∧ t.weave.lastSync = s.clk.ns ∧
      t.weave.queue.all (fun e => survivesStep e) = true ∧ (∀ n : Fin 128, (vget t.edge.ch n).launch = false)) ∧
  (∀ (s : State) (x : Int) (k : Fin 6), s.role = .worker → s.weave.sync = .locked → s.timRuns = true → x.natAbs ≤ 500 →
    ∃ t : State, exec (.syncRx x k) s = .next t ∧ t.weave = { s.weave with
      lastSync := s.clk.ns, holdFrom := s.clk.ns, lastInterval := BitVec.ofNat 3 k, offset := BitVec.ofInt 32 x, slew := x,
      badRun := 0, lockRun := if x.natAbs ≤ s.weave.lockTh.toNat * 4 then min 16 (s.weave.lockRun + 1) else 0 }) ∧
  (∀ (s : State) (x : Int) (k : Fin 6), s.role = .worker → s.weave.sync = .acquiring → s.timRuns = true →
    x.natAbs ≤ s.weave.lockTh.toNat * 4 → x.natAbs ≤ 50000 → s.weave.lockRun = 15 →
    ∃ t : State, exec (.syncRx x k) s = .next t ∧ t.weave.sync = .locked ∧ t.weave.slew = x) ∧
  (∀ (s : State) (x : Int) (k : Fin 6), s.role = .worker → s.weave.sync = .lost → s.timRuns = true → x.natAbs ≤ 50000 →
    ∃ t : State, exec (.syncRx x k) s = .next t ∧ t.weave.sync = .acquiring ∧ t.weave.slew = x) ∧
  (∀ (s : State) (x : Int) (k : Fin 6), s.role ≠ .worker ∨ s.weave.sync = .free ∨ s.timRuns = false →
    exec (.syncRx x k) s = .next s) ∧
  (∀ s : State, s.weave.sync = .locked → ∃ t : State, exec .syncMissed s = .next t ∧ t.weave.sync = .holdover ∧
    t.weave.lockRun = 0 ∧ s.weave.lastSync + 3 * (1000000000 / 2 ^ s.weave.lastInterval.toNat) ≤ t.clk.ns) ∧
  (∀ s : State, s.weave.sync ≠ .locked → exec .syncMissed s = .next s) ∧
  (∀ s : State, s.weave.sync = .holdover → ∃ t : State, exec .holdoverExpiry s = .next t ∧ t.weave.sync = .lost ∧
    s.weave.holdFrom + s.weave.holdMax.toNat * 1000000000 ≤ t.clk.ns) ∧
  (∀ s : State, s.weave.sync ≠ .holdover → exec .holdoverExpiry s = .next s) ∧
  (∀ (s : State) (w : BitVec 64) (n : BitVec 16), s.role = .worker → s.weave.wallSource = true →
    exec (.timeMsgRx w n) s = .next { s with weave.wall := w, weave.setCount := n }) ∧
  (∀ (s : State) (w : BitVec 64) (n : BitVec 16), s.role ≠ .worker ∨ s.weave.wallSource = false →
    exec (.timeMsgRx w n) s = .next s) ∧
  (∀ (s : State) (d : Desc) (utc w : BitVec 64), Ready s d (.wallSet utc w) = true →
    s.role ≠ .worker ∨ s.weave.wallSource = false →
    exec (.wallSet d utc w) s = .next (answered (logEvent { taken s d (.wallSet utc w) with
      weave.wall := utc - w, weave.setCount := s.weave.setCount + 1, weave.wallValid := true, weave.coarse := false }
      0x0206 [(s.weave.setCount + 1).toNat]) d stOk 0 0 0)) ∧
  (∀ (s : State) (d : Desc) (utc w : BitVec 64), Ready s d (.wallSet utc w) = true → s.role = .worker →
    s.weave.wallSource = true → exec (.wallSet d utc w) s = .next (answered (taken s d (.wallSet utc w)) d 0x80 0 0 0)) ∧
  (∀ (s : State) (d : Desc) (u : BitVec 3) (x : BitVec 24), Ready s d (.captureArm u x) = true → capSource s u.toNat ≠ 0 →
    exec (.captureArm d u x) s = .next { taken s d (.captureArm u x) with weave.armed := s.weave.armed ++
      [{ unit := u.toNat, act := actOf s d (.captureArm u x), deadline := s.clk.ns + x.toNat * 1000000 }] }) ∧
  (∀ (s : State) (d : Desc) (u : BitVec 3) (x : BitVec 24), Ready s d (.captureArm u x) = true → capSource s u.toNat = 0 →
    exec (.captureArm d u x) s = .next (answered (taken s d (.captureArm u x)) d 0x81 0 0 0)) ∧
  (∀ (s : State) (x : BitVec 7) (up : Bool) (n : Fin 8), s.timRuns = true → x ≠ 0 → capSource s n = x.toNat →
    capTakes s n up = true → (∀ m : Fin 8, m ≠ n → capSource s m ≠ x.toNat) →
    s.weave.armed.all (fun y => y.unit != n.val) = true →
    exec (.captureEdge x up) s = .next { s with weave.capTime := vset s.weave.capTime n s.weave.time }) ∧
  (∀ (s : State) (x : BitVec 7) (up : Bool) (n : Fin 8) (y : Armed), s.timRuns = true → x ≠ 0 → capSource s n = x.toNat →
    capTakes s n up = true → (∀ m : Fin 8, m ≠ n → capSource s m ≠ x.toNat) → s.weave.armed = [y] → y.unit = n.val →
    exec (.captureEdge x up) s = .next (complete { s with
      weave.capTime := vset s.weave.capTime n s.weave.time, weave.armed := [] } y.act.d stOk 0 s.weave.time.toNat 0 0)) ∧
  (∀ (s : State) (x : BitVec 7) (up : Bool), (∀ m : Fin 8, capSource s m ≠ x.toNat) →
    exec (.captureEdge x up) s = .next s) ∧
  (∀ (s : State) (x : BitVec 7) (up : Bool), s.timRuns = false → exec (.captureEdge x up) s = .next s) ∧
  (∀ (s : State) (n : Fin 8) (y : Armed), s.weave.armed = [y] → y.unit = n.val →
    ∃ u : State, u = s.reach y.deadline ∧ exec (.captureTimeout n) s = .next
      (complete { u with weave.armed := [] } y.act.d stTimeout 0 u.weave.time.toNat 0 0)) ∧
  (∀ (s : State) (n : Fin 8), s.weave.armed.all (fun y => y.unit != n.val) = true → exec (.captureTimeout n) s = .next s)

/-! ## Power: resets, Start, modes and domains -/

/-- Supply and resets (R583, R585, R716, R735, R54, R562): power-on and every device reset begin Start with what the
reset leaves, a pulse below 1 µs on RESET_N is ignored, and a wake input begins Start from Park and Guard with its
cause. Clauses here rest on choices of the model, not on rules of the spec: log entries 41, 73, 93, 95, 101, 139, 141,
155. -/
def Obligations.PowerOnResetsAndWakesBeginStart : Prop :=
  (∀ (s : State) (role : BitVec 2), s.bezel.mirrorErasing = false → ∃ t : State, exec (.powerOn role) s = .next t ∧
    t.pwr = { State.reset.pwr with strap := role } ∧ t.nor = s.nor ∧ t.acc.keys = s.acc.keys ∧
    t.rings = State.reset.rings ∧ t.mem = State.reset.mem ∧ t.cfg = State.reset.cfg ∧ t.hso = State.reset.hso ∧
    t.vlv = State.reset.vlv ∧ t.can = State.reset.can ∧ t.net = State.reset.net ∧ t.clk = s.clk) ∧
  (∀ (s : State) (role : BitVec 2), ∃ t : State, exec (.powerOn role) s = .next t ∧ t.pwr.mode = .start ∧
    t.pwr.strap = role ∧ t.nor.mirror.length = s.nor.mirror.length) ∧
  (∀ (s : State) (n : Nat), 10000 ≤ n → s.pwr.mode ≠ .storage → ∃ t : State, exec (.resetNAsserted n) s = .next t ∧
    t.pwr.mode = .start ∧ t.pwr.inReset = true ∧ t.pwr.cause = 0x0C ∧ t.bezel.resetType = 1 ∧ t.rings = State.reset.rings ∧
    t.weave.queue = [] ∧ t.sys.scratch = s.sys.scratch) ∧
  (∀ (s : State) (n : Nat), n < 1000 → exec (.resetNAsserted n) s = .next { s with free := s.free + 1 }) ∧
  (∀ s : State, exec .resetNReleased s = .next { s with pwr.inReset := false }) ∧
  (∀ (s : State) (typ : ResetType) (detail : BitVec 8) (bad : BitVec 10), s.pwr.mode ≠ .storage → s.pwr.mode ≠ .limp →
    ∃ t : State, exec (.deviceReset typ detail bad) s = .next t ∧ t.pwr.mode = .start ∧ t.pwr.prev = s.pwr.mode ∧
      t.pwr.cause = 0x0C ∧ t.bezel.resetType.toNat = typ.code ∧ t.bezel.detail = detail ∧ t.weave.queue = [] ∧
      t.sys.scratch = s.sys.scratch) ∧
  (∀ s : State, s.pwr.mode = .start → exec .kl30LowHold s = .next { s with pwr.lowHold := true }) ∧
  (∀ s : State, exec .kl30LRecovery s = .next { s with pwr.lowHold := false }) ∧
  (∀ s : State, s.pwr.mode = .park → s.pwr.entering = false → s.pwr.regsFalling = false → s.role = .standalone →
    ∃ t : State, exec .kl15On s = .next t ∧ t.pwr.mode = .start ∧ t.pwr.cause = 0x01 ∧ t.pwr.startCause = 0x01 ∧
      t.pwr.kl15 = true) ∧
  (∀ s : State, s.pwr.mode = .limp ∨ s.pwr.mode = .service ∨ s.pwr.mode = .update ∨ s.pwr.mode = .start →
    exec .kl15Off s = .next (netKl15 { s with pwr.kl15 := false, bezel.kl15OffAt := s.clk.ns }) ∧
    (∀ p : Fin 4, exec (.wakePinReleased p) s = .next { s with pwr.wake := setBit s.pwr.wake p false })) ∧
  (∀ (s : State) (p : Fin 4), s.pwr.mode = .guard → s.pwr.entering = false → s.pwr.regsFalling = false →
    ∃ t : State, exec (.wakePinAsserted p) s = .next t ∧ t.pwr.mode = .start ∧ t.pwr.cause = 0x05 ∧
      t.pwr.wake = setBit s.pwr.wake p true) ∧
  (∀ (s : State) (w : Wake), s.pwr.regsFalling = true → s.wakeArmed w = true → s.pwr.latched = none →
    exec (.lateWakeLatch w) s = .next { s with pwr.latched := some w }) ∧
  (∀ (s : State) (w : Wake), s.pwr.regsFalling = true → s.pwr.latched = some w → ∃ t : State,
    exec .regulatorsOff s = .next t ∧ t.pwr.mode = .start ∧ t.pwr.cause.toNat = wakeCause w ∧ t.pwr.regsFalling = false ∧
    t.pwr.latched = none) ∧
  (∀ s : State, s.pwr.regsFalling = true → s.pwr.latched = none →
    exec .regulatorsOff s = .next { s with pwr.regsFalling := false }) ∧
  (∀ s : State, s.pwr.mode = .guard → s.pwr.entering = false → ∃ t : State, exec .guardExpiry s = .next t ∧
    t.pwr.mode = .park ∧ t.pwr.prev = .guard ∧ t.pwr.cause = 0x0D ∧ t.isOn .uwb = false ∧ t.isOn .sec = false ∧
    t.acc.polling = false ∧ s.acc.guardAt + 504 * 3600 * 1000000000 ≤ t.clk.ns)

/-- Start (R71 to R76, Table 2.7): rails in order, three retries and then the rail's outcome, a rail lost later, the
crystal or its failure, and the end of Start with an image or without one. Clauses here rest on choices of the model,
not on rules of the spec: log entries 84, 85, 95, 168. -/
def Obligations.StartBringsUpRails : Prop :=
  (∀ (s : State) (rail : Fin 6), s.startRail rail = true → rail.val < 5 → exec (.railPowerGood rail) s = .next { s with
    pwr.rail := rail.val + 1, pwr.railTries := 0,
    pwr.crystal := if rail.val = 0 ∧ s.pwr.crystal = .off then .waiting else s.pwr.crystal }) ∧
  (∀ s : State, s.startRail 5 = true → ∃ t : State, exec (.railPowerGood 5) s = .next t ∧ t.pwr.rail = 6 ∧
    t.weave.sync = (if s.role = .worker then .acquiring else .free) ∧
    (∀ d : Dom, d ≠ .bezel → d ≠ .aon → (s.domCtl d).forced = false → s.rcForbids d = false → t.isOn d = true)) ∧
  (∀ (s : State) (rail : Fin 6), s.startRail rail = true → s.pwr.lowHold = false → s.pwr.railTries < 3 →
    exec (.railTimeout rail) s = .next (logEvent { s with
      pwr.railTries := s.pwr.railTries + 1, pwr.retries := satInc s.pwr.retries } 0x0104 [rail.val])) ∧
  (∀ (s : State) (rail : Fin 6), s.startRail rail = true → s.pwr.lowHold = false → 3 ≤ s.pwr.railTries → 2 ≤ rail.val →
    rail.val < 5 → ∃ t : State, exec (.railTimeout rail) s = .next t ∧ t.pwr.startLimp = true ∧ t.pwr.rail = rail.val + 1 ∧
      t.pwr.railTries = 0 ∧ t.pwr.railFail = setBit s.pwr.railFail rail true ∧
      (rail.val ≠ 4 → (t.domCtl .mem).forced = true ∧ (t.domCtl .host).forced = true)) ∧
  (∀ (s : State) (rail : Fin 6), s.startRail rail = true → s.pwr.lowHold = false → 3 ≤ s.pwr.railTries → rail.val < 2 →
    exec (.railTimeout rail) s = .next (bezelOnlyStart (logEvent { s with
      pwr.railFail := setBit s.pwr.railFail rail true } 0x0105 [rail.val]))) ∧
  (∀ (s : State) (rail : Fin 6), s.railUp rail = true → s.pwr.mode ≠ .storage → s.pwr.mode ≠ .limp → ∃ t : State,
    exec (.railPowerGoodLost rail) s = .next t ∧ t.pwr.mode = .start ∧ t.pwr.cause = 0x0C ∧ t.bezel.resetType = 4) ∧
  (∀ s : State, s.pwr.crystal = .waiting →
    exec .crystalRunning s = .next { s with pwr.crystal := .running } ∧
    exec .crystalTimeout s = .next (logEvent { s with
      pwr.crystal := .failed, pwr.rcClock := true, pwr.xtalFail := true, pwr.startLimp := true } 0x0106 [])) ∧
  (∀ s : State, s.pwr.rcClock = true →
    exec .rcTrim s = .next (netAll (logEvent { s with pwr.rcTrimmed := true } 0x0109 []))) ∧
  (∀ (s : State) (a b : Bool) (ant : BitVec 4) (bad : BitVec 10), s.startReady = true →
    (imageStart (startBezel s bad) a b).1 = true →
    exec (.startComplete a b ant bad) s = .next (startRun (imageStart (startBezel s bad) a b).2 ant bad)) ∧
  (∀ (s : State) (a b : Bool) (ant : BitVec 4) (bad : BitVec 10), s.startReady = true →
    (imageStart (startBezel s bad) a b).1 = false → ∃ t : State, exec (.startComplete a b ant bad) s = .next t ∧
      t = startMirror (bezelOnlyNow (imageStart (startBezel s bad) a b).2) ∧ t.pwr.bezelOnly = true) ∧
  (∀ (s : State) (a b : Bool) (ant : BitVec 4) (bad : BitVec 10), s.startReady = false →
    exec (.startComplete a b ant bad) s = .next s)

/-- MODE_SET, NEED_SET and PERF_SET (R47 to R51, R59), the compatibility view (Table 2.5, R60), the limit on PL4 (R58,
R59) and the thermal governor's steps (R78 to R81). Clauses here rest on choices of the model, not on rules of the spec:
log entries 96, 135, 136, 137, 138. -/
def Obligations.ModesAndLevelsAreSet : Prop :=
  (∀ (s : State) (d : Desc) (m : BitVec 4), Ready s d (.modeSet m) = true → modeSetStatus s m.toNat = stOk →
    exec (.modeSet d m) s = .next (answered (goMode (taken s d (.modeSet m)) (modeOf m.toNat) 0x02) d stOk 0 0 0)) ∧
  (∀ (s : State) (d : Desc) (m : BitVec 4), Ready s d (.modeSet m) = true → modeSetStatus s m.toNat ≠ stOk →
    exec (.modeSet d m) s = .next (answered (taken s d (.modeSet m)) d (modeSetStatus s m.toNat) 0 0 0)) ∧
  (∀ s : State, s.pwr.mode = .run ∨ s.pwr.mode = .road → s.kl15On = true → s.pwr.rcClock = false → s.synced = true →
    modeSetStatus s 7 = stOk) ∧
  (∀ s : State, s.pwr.mode = .run ∨ s.pwr.mode = .field → modeSetStatus s 8 = stOk) ∧
  (∀ s : State, s.pwr.mode = .accessory → s.kl15On = false → s.pwr.wake.getLsbD 0 = true → modeSetStatus s 0 = 0x81) ∧
  (∀ (s : State) (d : Desc) (n : BitVec 1) (x : BitVec 3), Ready s d (.needSet n x) = true →
    exec (.needSet d n x) s = .next (judge (netAll (answered { taken s d (.needSet n x) with
      pwr.needs := setBit s.pwr.needs x.toNat (n == 1) } d stOk 0 0 0)))) ∧
  (∀ (s : State) (d : Desc) (l : BitVec 3), Ready s d (.perfSet l) = true → l.toNat ≤ s.plCap →
    exec (.perfSet d l) s = .next (answered (plSync { taken s d (.perfSet l) with
      pwr.plReq := BitVec.ofNat 3 (min 4 l.toNat) }) d stOk 0 0 0)) ∧
  (∀ (s : State) (d : Desc) (l : BitVec 3), Ready s d (.perfSet l) = true → s.plCap < l.toNat →
    exec (.perfSet d l) s = .next (answered (plSync { taken s d (.perfSet l) with
      pwr.plReq := BitVec.ofNat 3 (min 4 l.toNat) }) d 0x80 0 0 0)) ∧
  (∀ s : State, (plSync s).pwr = if s.pwr.plCur.toNat = s.plEffective then s.pwr else { s.pwr with
    plCur := BitVec.ofNat 3 s.plEffective, plBusy := true }) ∧
  (∀ s : State, exec .plChangeDone s = .next { s with pwr.plBusy := false }) ∧
  (∀ s : State, s.plEffective = 4 → ∃ t : State, exec .pl4LimitReached s = .next t ∧
    t = plSync (logEvent { s with pwr.pl4Capped := true, pwr.pl4Used := s.pwr.pl4OnMax } 0x0108 []) ∧
    t.plEffective = 3 ∧ t.pwr.plCur = 3 ∧ t.pwr.pl4Capped = true) ∧
  (∀ s : State, s.pwr.pl4Capped = true → s.pwr.pl4OnMax ≠ 0 → ∃ u : BitVec 8, u.toNat < s.pwr.pl4OnMax.toNat ∧
    exec .pl4CapLift s = .next (plSync { s with pwr.pl4Capped := false, pwr.pl4Used := u, free := s.free + 1 })) ∧
  (∀ (s : State) (e : BitVec 16) (j : Int), s.pwr.govStep = 0 → 140 < j → ∃ t : State,
    exec (.governorTick e j) s = .next t ∧ t.pwr.govStep = 1 ∧ t.pwr.stepAt = s.clk.ns ∧ t.pwr.pEst = e ∧ t.plCap ≤ 3) ∧
  (∀ (s : State) (e : BitVec 16) (j : Int) (n u : Nat), s.pwr.govStep = n + 1 → n < 4 →
    e.toNat * 10 < s.govLimit * 9 → j < 125 → s.pwr.underSince = some u → u + 10 * sec ≤ s.clk.ns → ∃ t : State,
    exec (.governorTick e j) s = .next t ∧ t.pwr.govStep = n ∧ t.pwr.underSince = some s.clk.ns ∧ t.pwr.pEst = e) ∧
  (∀ s : State, s.pwr.idleOn = true ∨ s.pwr.sleepOn = true → exec .hostInterruptWake s = .next (compatReturn s)) ∧
  (∀ s : State, s.pwr.idleOn = true → s.pwr.compatLowered = [] →
    exec .hostInterruptWake s = .next { s with pwr.idleOn := false, pwr.sleepOn := false }) ∧
  (∀ (s : State) (hart : BitVec 2) (v : BitVec 32), s.isOn .host = true → s.isOn .svc = true →
    exec (.plReqWrite hart v) s = .next (plSync { s with pwr.plReq := BitVec.ofNat 3 (min 4 (v.toNat % 8)) }) ∧
    exec (.compatRun hart) s = .next (compatReturn (plSync { s with pwr.compatRefused := false, pwr.plReq := 3 }))) ∧
  (∀ (s : State) (hart : BitVec 2), s.isOn .host = true → s.isOn .svc = true → s.weave.queue = [] → ∃ t : State,
    exec (.compatIdle hart) s = .next t ∧ t.pwr.idleOn = true ∧ (t.domCtl .host).closed = true ∧
    t.pwr.compatLowered.contains .host = true ∧
    t.pwr.drains = insertDrain { dom := .host, target := .gated } s.pwr.drains) ∧
  (∀ (s : State) (hart : BitVec 2), s.isOn .host = true → s.isOn .svc = true → s.isOn .mem = true → s.weave.queue = [] →
    ∃ t : State, exec (.compatSleep hart) s = .next t ∧ t.pwr.sleepOn = true ∧ (t.domCtl .host).closed = true ∧
      (t.domCtl .mem).closed = true ∧
      (∀ d : Dom, d = .led ∨ d = .eth ∨ d = .uwb ∨ d = .adc → s.isOn d = true → (t.domCtl d).closed = true)) ∧
  (∀ (s : State) (hart : BitVec 2), s.isOn .host = true → s.isOn .svc = true → s.kl15On = false →
    exec (.compatDeepsleep hart) s = .next (judge (netAll { s with pwr.compatRefused := false, pwr.needs := 0 }))) ∧
  (∀ (s : State) (hart : BitVec 2), s.isOn .host = true → s.isOn .svc = true → s.kl15On = true →
    exec (.compatDeepsleep hart) s = .next (logEvent { s with pwr.compatRefused := true } 0x010B [])) ∧
  (∀ (s : State) (hart : BitVec 2), s.isOn .host = true → s.isOn .svc = true → modeSetStatus s 0 = stOk →
    exec (.compatOff hart) s = .next (goMode { s with pwr.compatRefused := false } .storage 0x02)) ∧
  (∀ (s : State) (hart : BitVec 2), s.isOn .host = true → s.isOn .svc = true → modeSetStatus s 0 ≠ stOk →
    exec (.compatOff hart) s = .next (logEvent { s with pwr.compatRefused := true } 0x010B []))

/-- DOMAIN_SET (R42, R43, R66), the drains (R67) and the wakes of domains (R61 to R63). Clauses here rest on choices of
the model, not on rules of the spec: log entries 88, 89, 90, 91, 92. -/
def Obligations.DomainsAreLoweredAndRaised : Prop :=
  (∀ (s : State) (d : Desc) (n : BitVec 4) (st : BitVec 2), Ready s d (.domainSet n st) = true → n.toNat < 10 →
    domStOf st.toNat = s.domSt (domOf n.toNat) → (domStOf st.toNat).num ≤ (s.entryNow (domOf n.toNat)).num →
    exec (.domainSet d n st) s = .next (answered (taken s d (.domainSet n st)) d stOk 0 0 0)) ∧
  (∀ (s : State) (d : Desc) (n : BitVec 4) (st : BitVec 2), Ready s d (.domainSet n st) = true →
    10 ≤ n.toNat ∨ (s.entryNow (domOf n.toNat)).num < (domStOf st.toNat).num →
    exec (.domainSet d n st) s = .next (answered (taken s d (.domainSet n st)) d stRefusedState 0 0 0)) ∧
  (∀ (s : State) (d : Desc) (n : BitVec 4) (st : BitVec 2), Ready s d (.domainSet n st) = true → n.toNat < 10 →
    (s.domSt (domOf n.toNat)).num < (domStOf st.toNat).num →
    (domStOf st.toNat).num ≤ (s.entryNow (domOf n.toNat)).num → (s.domCtl (domOf n.toNat)).dead = false →
    (s.domCtl (domOf n.toNat)).waking = none →
    exec (.domainSet d n st) s = .next (State.modDom { taken s d (.domainSet n st) with pwr.domWaits := s.pwr.domWaits ++
      [{ act := actOf s d (.domainSet n st), dom := domOf n.toNat, target := domStOf st.toNat, raise := true }] }
      (domOf n.toNat) (fun c => { c with waking := some (domStOf st.toNat) }))) ∧
  (∀ (s : State) (d : Desc) (n : BitVec 4) (st : BitVec 2), Ready s d (.domainSet n st) = true → n.toNat < 10 →
    (domStOf st.toNat).num < (s.domSt (domOf n.toNat)).num →
    (domStOf st.toNat).num ≤ (s.entryNow (domOf n.toNat)).num → s.holdsLaunch (domOf n.toNat) = false →
    exec (.domainSet d n st) s = .next (beginDrain { taken s d (.domainSet n st) with pwr.domWaits := s.pwr.domWaits ++
      [{ act := actOf s d (.domainSet n st), dom := domOf n.toNat, target := domStOf st.toNat, raise := false }] }
      (domOf n.toNat) (domStOf st.toNat))) ∧
  (∀ (s : State) (d : Desc) (n : BitVec 4) (st : BitVec 2), Ready s d (.domainSet n st) = true → n.toNat < 10 →
    (domStOf st.toNat).num < (s.domSt (domOf n.toNat)).num →
    (domStOf st.toNat).num ≤ (s.entryNow (domOf n.toNat)).num → s.holdsLaunch (domOf n.toNat) = true →
    exec (.domainSet d n st) s = .next (answered (taken s d (.domainSet n st)) d stRefusedState 0 0 0)) ∧
  (∀ (s : State) (d : Dom) (t : DomState), s.weave.queue = [] → (beginDrain s d t).domCtl d = { s.domCtl d with
      closed := true, waking := none } ∧ (beginDrain s d t).pwr.drains = insertDrain { dom := d, target := t } s.pwr.drains) ∧
  (∀ (s : State) (x : Drain), s.pwr.drains = [x] → s.pwr.entering = false →
    exec (.drainQuiescent x.dom) s = .next (settle 11 (domLower { s with pwr.drains := [] } { x with quiet := true }
      s.entryDrain))) ∧
  (∀ (s : State) (x : Drain), s.pwr.drains = [x] → x.quiet = false → s.pwr.entering = false →
    exec (.drainBoundExpiry x.dom) s = .next (settleAll (markQuiet (logEvent (abortWork s x.dom s.entryDrain) 0x0103
      [x.dom.num]) x.dom))) ∧
  (∀ (s : State) (d : Dom), s.pwr.drains.all (fun x => x.dom != d) = true → exec (.drainBoundExpiry d) s = .next s) ∧
  (∀ (s : State) (dom : Dom), (s.domCtl dom).waking = some .on →
    exec (.domainReady dom) s = .next (readyGo (raisedDone (domWoken s dom .on) dom) dom)) ∧
  (∀ (s : State) (dom : Dom) (t : DomState), (s.domCtl dom).waking = some t → t ≠ .on → s.pwr.domWaits = [] →
    s.awaited dom = false → exec (.domainReady dom) s = .next (s.modDom dom (fun c => { c with
      st := t, waking := none, fails := 0 }))) ∧
  (∀ (s : State) (dom : Dom), (s.domCtl dom).waking = none →
    exec (.domainReady dom) s = .next s ∧ exec (.domainWakeTimeout dom) s = .next s) ∧
  (∀ (s : State) (dom : Dom) (x : DomState), (s.domCtl dom).waking = some x → (s.domCtl dom).fails < 2 →
    s.pwr.stalled = [] → s.pwr.stalledCore = [] → s.pwr.domWaits = [] → s.weave.queue = [] → dom ≠ .mem →
    s.plait.link.toList.all (fun l => l.held.isEmpty) = true →
    exec (.domainWakeTimeout dom) s = .next (logEvent { s.modDom dom (fun c => { c with
      waking := none, fails := c.fails + 1 }) with pwr.domFail := setBit s.pwr.domFail dom.num true } 0x0102 [dom.num])) ∧
  (∀ (s : State) (x : DomState), (s.domCtl .eth).waking = some x → 2 ≤ (s.domCtl .eth).fails →
    s.pwr.stalled = [] → s.pwr.stalledCore = [] → s.pwr.domWaits = [] → s.weave.queue = [] →
    s.plait.link.toList.all (fun l => l.held.isEmpty) = true → ∃ t : State, exec (.domainWakeTimeout .eth) s = .next t ∧
      (t.domCtl .eth).dead = true ∧ t.bezel.domFault.getLsbD 6 = true ∧ t.pwr.domFail.getLsbD 6 = true)

/-! ## Configuration: the stage, commits and fleet commits -/

/-- CONFIG_STAGE, CONFIG_LOAD, STAGE_DISCARD and CONFIG_EXPORT (R197 to R203, R209, R231), and the end of TAKEOVER
(R201). Clauses here rest on choices of the model, not on rules of the spec: log entries 113, 114, 115, 116, 117,
118. -/
def Obligations.StageHoldsNewSettings : Prop :=
  (∀ (s : State) (d : Desc) (rs : List Rec) (t : State), Ready s d .configStage = true → s.stageLocked = false →
    stageRecs ((payloadOf s d .configStage).length + 1) (payloadOf s d .configStage) [] = .ok rs →
    stageBytes (rs.foldl stageAdd s.cfg.stage) ≤ 48 * 1024 →
    t = { taken s d .configStage with cfg.stage := rs.foldl stageAdd s.cfg.stage } →
    exec (.configStage d) s = .next (answered { t with cfg.stageSt := t.looseStage } d stOk 0 0 0)) ∧
  (∀ (s : State) (d : Desc) (e : Nat), Ready s d .configStage = true → s.stageLocked = false →
    stageRecs ((payloadOf s d .configStage).length + 1) (payloadOf s d .configStage) [] = .error e →
    exec (.configStage d) s = .next (answered (taken s d .configStage) d e 0 0 0)) ∧
  (∀ (s : State) (d : Desc) (rs : List Rec), Ready s d .configStage = true → s.stageLocked = false →
    stageRecs ((payloadOf s d .configStage).length + 1) (payloadOf s d .configStage) [] = .ok rs →
    48 * 1024 < stageBytes (rs.foldl stageAdd s.cfg.stage) →
    exec (.configStage d) s = .next (answered (taken s d .configStage) d 0x87 0 0 0)) ∧
  (∀ (s : State) (d : Desc), s.stageLocked = true → Ready s d .configStage = true →
    exec (.configStage d) s = .next (answered (taken s d .configStage) d 0x81 0 0 0)) ∧
  (∀ (s : State) (d : Desc), s.stageLocked = true → Ready s d .configLoad = true →
    exec (.configLoad d) s = .next (answered (taken s d .configLoad) d 0x81 0 0 0)) ∧
  (∀ (s : State) (d : Desc), s.stageLocked = true → Ready s d .stageDiscard = true →
    exec (.stageDiscard d) s = .next (answered (taken s d .stageDiscard) d 0x81 0 0 0)) ∧
  (∀ (s : State) (d : Desc) (m : Image) (u : State), Ready s d .configLoad = true → s.stageLocked = false →
    (s.ringN d.ring).remote = false →
    readImage (.mem d.payAddr.toNat) d.payLen.toNat (taken s d .configLoad) = (.ok m, u) →
    (u.ringN d.ring).remote = false → u.foreign m = false ∨ u.cfg.takeover = true →
    exec (.configLoad d) s = .next (answered { u with
      cfg.stage := [], cfg.loadImage := m, cfg.stageSt := .opened,
      cfg.load := some (d.payAddr.toNat, d.payLen.toNat) } d stOk 0 0 0)) ∧
  (∀ (s : State) (d : Desc) (m : Image) (u : State), Ready s d .configLoad = true → s.stageLocked = false →
    (s.ringN d.ring).remote = false →
    readImage (.mem d.payAddr.toNat) d.payLen.toNat (taken s d .configLoad) = (.ok m, u) → u.foreign m = true →
    u.cfg.takeover = false → exec (.configLoad d) s = .next (answered u d 0x84 0 0 0)) ∧
  (∀ (s : State) (d : Desc) (e : ImageFail) (u : State), Ready s d .configLoad = true → s.stageLocked = false →
    (s.ringN d.ring).remote = false →
    readImage (.mem d.payAddr.toNat) d.payLen.toNat (taken s d .configLoad) = (.error e, u) →
    exec (.configLoad d) s = .next (answered u d e.status 0 e.off 0)) ∧
  (∀ (s : State) (d : Desc), Ready s d .stageDiscard = true → s.stageLocked = false →
    exec (.stageDiscard d) s = .next (answered { taken s d .stageDiscard with
      cfg.stage := [], cfg.load := none, cfg.loadImage := {}, cfg.stageSt := .empty } d stOk 0 0 0)) ∧
  (∀ (s : State) (d : Desc) (bs : List (BitVec 8)), Ready s d .configExport = true → (s.ringN d.ring).remote = false →
    s.mem.bad = [] → bs = Image.bytes { fielded := true, seq := s.runSeq, machineId := s.cfg.machineId, recs := s.cfg.recs } →
    bs.length ≤ d.payLen.toNat →
    exec (.configExport d) s = .next (answered { taken s d .configExport with
      mem := s.mem.store d.payAddr.toNat bs } d stOk 0 bs.length 0)) ∧
  (∀ (s : State) (d : Desc) (bs : List (BitVec 8)), Ready s d .configExport = true →
    bs = Image.bytes { fielded := true, seq := s.runSeq, machineId := s.cfg.machineId, recs := s.cfg.recs } →
    d.payLen.toNat < bs.length →
    exec (.configExport d) s = .next (answered (taken s d .configExport) d 0x88 0 bs.length 0)) ∧
  (∀ s : State, s.cfg.takeover = true → ∃ u : State, u = s.reach (s.cfg.takeoverAt + 600000000000) ∧
    exec .takeoverExpiry s = .next { u with cfg.takeover := false }) ∧
  (∀ s : State, s.cfg.takeover = false → exec .takeoverExpiry s = .next s)

/-- COMMIT seals the stage and starts the check (R209, R218); the check passes or fails (R206, R211); the apply tick
(R212, R218) and the end of a persist (R195, R216). Clauses here rest on choices of the model, not on rules of the spec:
log entries 107, 119, 120, 121, 122, 133, 134. -/
def Obligations.CommitsApplyTheStage : Prop :=
  (∀ (s : State) (d : Desc) (p : BitVec 1), Ready s d (.commit p) = true → commitAdmit (p == 1) s = stOk →
    exec (.commit d p) s = .next { taken s d (.commit p) with
      cfg.commit := some { act := actOf s d (.commit p), persist := p == 1, checking := true, fleet := false },
      cfg.stageSt := .sealed }) ∧
  (∀ (s : State) (d : Desc) (p : BitVec 1), Ready s d (.commit p) = true → commitAdmit (p == 1) s ≠ stOk →
    exec (.commit d p) s = .next (answered (taken s d (.commit p)) d (commitAdmit (p == 1) s) 0 0 0)) ∧
  (∀ (s : State) (c : Commit), s.cfg.commit = some c → c.checking = true → c.fleet = false → s.cfg.load = none →
    checkAll s s.effective = none → c.act.d.due = 0 → exec .commitCheckDone s = .next { s with
      cfg.commit := some { c with checking := false },
      weave.queue := s.weave.queue ++ [{
        host := some (c.act.d, .commit (if c.persist then 1 else 0)), due := 0,
        fire := s.weave.time + 4, late := false }] }) ∧
  (∀ (s : State) (c : Commit) (f : Fail), s.cfg.commit = some c → c.checking = true → c.fleet = false →
    s.cfg.load = none → checkAll s s.effective = some f → exec .commitCheckDone s = .next (dropAct
      (reportFail (unqueue { s with cfg.commit := none, cfg.stageSt := s.looseStage } c.act.d) f) c.act f.status f.detail
      f.a f.b)) ∧
  (∀ s : State, s.cfg.commit = none → exec .commitCheckDone s = .next s) ∧
  (∀ (s : State) (c : Commit) (a : Act) (p : BitVec 1), a.fired = true → s.cfg.commit = some c → c.checking = false →
    c.persist = false → s.commitMode s.cfg.load.isSome = true → actHost (.commit p) a s = finish (applyStage s) a) ∧
  (∀ (s : State) (c : Commit) (a : Act) (p : BitVec 1), a.fired = true → s.cfg.commit = some c → c.checking = false →
    s.commitMode s.cfg.load.isSome = false → actHost (.commit p) a s = dropAct (unsealStage s) a stRefusedState) ∧
  (∀ s : State, (stageApplied s).cfg.recs = s.effective ∧ (stageApplied s).cfg.stage = [] ∧
    (stageApplied s).cfg.stageSt = .empty ∧ (stageApplied s).cfg.commit = none) ∧
  (∀ s : State, s.cfg.persisting = true → s.cfg.loaded ≠ 1 → s.cfg.persistAct = none →
    s.cfg.persistImage.bytes.length ≤ 1048576 → exec (.persistDone true) s = .next { s with
      cfg.persisting := false, cfg.persistImage := {}, nor.cfgA := some s.cfg.persistImage, cfg.loaded := 1,
      cfg.seqA := s.cfg.persistImage.seq, cfg.aValid := true, cfg.dirty := s.cfg.persistDirty }) ∧
  (∀ s : State, s.cfg.persisting = true → s.cfg.loaded = 1 → s.cfg.persistAct = none →
    s.cfg.persistImage.bytes.length ≤ 1048576 → exec (.persistDone true) s = .next { s with
      cfg.persisting := false, cfg.persistImage := {}, nor.cfgB := some s.cfg.persistImage, cfg.loaded := 2,
      cfg.seqB := s.cfg.persistImage.seq, cfg.bValid := true, cfg.dirty := s.cfg.persistDirty }) ∧
  (∀ (s : State) (a : Act), s.cfg.persisting = true → s.cfg.loaded = 1 → s.cfg.persistAct = some a →
    s.cfg.persistImage.bytes.length ≤ 1048576 → exec (.persistDone true) s = .next (finish { s with
      cfg.persisting := false, cfg.persistAct := none, cfg.persistImage := {}, nor.cfgB := some s.cfg.persistImage,
      cfg.loaded := 2, cfg.seqB := s.cfg.persistImage.seq, cfg.bValid := true, cfg.dirty := s.cfg.persistDirty } a 0 0
      s.cfg.persistImage.seq.toNat)) ∧
  (∀ s : State, s.cfg.persisting = true → s.cfg.persistAct = none → exec (.persistDone false) s = .next (logEvent
    (if s.cfg.loaded = 1 then
      { s with cfg.persisting := false, cfg.persistImage := {}, cfg.seqB := 0, cfg.bValid := false }
    else { s with cfg.persisting := false, cfg.persistImage := {}, cfg.seqA := 0, cfg.aValid := false }) 0x0405 [])) ∧
  (∀ (s : State) (ok : Bool), s.cfg.persisting = false → exec (.persistDone ok) s = .next s)

/-- A fleet commit at its manager (R223, R224, R227, R228, R231): PREPARE, the votes, APPLY or ABORT, acknowledgements
and the completion on DUE. Clauses here rest on choices of the model, not on rules of the spec: log entries 123, 124,
125, 126, 127, 128, 132. -/
def Obligations.FleetCommitsAtTheManager : Prop :=
  (∀ (s : State) (d : Desc) (m : BitVec 32) (p : BitVec 1), (HostCmd.fleetCommit m p).wf d = true → d.payLen = 0 →
    (s.ringN d.ring).outs = [] → (s.ringN d.ring).held = [] → (s.ringN d.ring).cancels = [] → s.weave.queue = [] →
    (s.domCtl .svc).closed = false → s.entryNow .svc ≠ .off → s.isOn .svc = true → d.syncReq = false →
    s.weave.time.toNat + 50000 ≤ d.due.toNat → d.due.toNat ≤ s.weave.time.toNat + 600000000000 →
    fleetAdmit d m (p == 1) s = stOk → m ≠ 0 → ∃ t : State, exec (.fleetCommit d m p) s = .next t ∧
      t.cfg.fleetPhase = 1 ∧ t.cfg.fleet = some { act := { d := d }, mask := m, persist := p == 1, due := d.due } ∧
      t.cfg.yes = 0 ∧ t.cfg.ack = 0 ∧ t.cfg.stageSt = (if m.getLsbD 0 then .sealed else s.cfg.stageSt) ∧
      t.weave.queue.map (fun e => (e.host, e.due, e.late)) = [(some (d, .fleetCommit m p), d.due, false)]) ∧
  (∀ (s : State) (d : Desc), Ready s d .fleetAbort = true → s.cfg.fleet = none →
    exec (.fleetAbort d) s = .next (answered (taken s d .fleetAbort) d stOk 0 0 0)) ∧
  (∀ (s : State) (d : Desc) (f : Fleet), Ready s d .fleetAbort = true → s.cfg.fleet = some f → s.cfg.fleetPhase = 2 →
    exec (.fleetAbort d) s = .next (answered (taken s d .fleetAbort) d stCancelTooLate 0 0 0)) ∧
  (∀ (s : State) (d : Desc) (f : Fleet), Ready s d .fleetAbort = true → s.cfg.fleet = some f → s.cfg.fleetPhase = 1 →
    exec (.fleetAbort d) s = .next (answered (fleetEnd (taken s d .fleetAbort) f 4 stCancelled) d stOk 0 0 0)) ∧
  (∀ (s : State) (w : Fin 32) (x : BitVec 16) (f : Fleet), s.cfg.fleet = some f → s.cfg.fleetPhase = 1 →
    f.mask.getLsbD w = true → setBit s.cfg.yes w true &&& f.mask ≠ f.mask →
    exec (.fleetVoteRx w true x) s = .next { s with cfg.yes := setBit s.cfg.yes w true }) ∧
  (∀ (s : State) (w : Fin 32) (x : BitVec 16) (f : Fleet), s.cfg.fleet = some f → s.cfg.fleetPhase = 1 →
    f.mask.getLsbD w = true → setBit s.cfg.yes w true &&& f.mask = f.mask →
    s.weave.time.toNat + 2000000 ≤ f.due.toNat → ∃ u : State, u = (fleetWorkers f.mask).foldl
      (fun s w => fleetMsg s w s.cfg.fleetId 3 (bytesOf 8 f.due.toNat)) { s with cfg.yes := setBit s.cfg.yes w true } ∧
      exec (.fleetVoteRx w true x) s = .next { u with cfg.fleetPhase := 2 }) ∧
  (∀ (s : State) (w : Fin 32) (x : BitVec 16) (f : Fleet), s.cfg.fleet = some f → s.cfg.fleetPhase = 1 →
    f.mask.getLsbD w = true → exec (.fleetVoteRx w false x) s = .next (fleetAbortAll s { f with no := some (w.val, x) } 1)) ∧
  (∀ (s : State) (w : Fin 32) (x : BitVec 16) (l : Bool), s.cfg.fleet = none → exec (.fleetVoteRx w l x) s = .next s ∧
    exec .fleetVoteTimeout s = .next s ∧ exec .fleetCommitDue s = .next s ∧ exec .fleetApplyRetx s = .next s ∧
    exec (.fleetApplyAckRx w l) s = .next s) ∧
  (∀ (s : State) (f : Fleet), s.cfg.fleet = some f → s.cfg.fleetPhase = 1 → ∃ t : State,
    exec .fleetVoteTimeout s = .next t ∧ t = fleetAbortAll s f 2 ∧ t.cfg.fleetPhase = 3 ∧
    t.cfg.fleet = some { f with aborted := 2 }) ∧
  (∀ s : State, s.cfg.fleetPhase ≠ 1 → exec .fleetVoteTimeout s = .next s) ∧
  (∀ (s : State) (w : Fin 32) (f : Fleet), s.cfg.fleet = some f → s.cfg.fleetPhase = 2 → f.mask.getLsbD w = true →
    f.completed = false →
    exec (.fleetApplyAckRx w false) s = .next { s with cfg.ack := setBit s.cfg.ack w true } ∧
    exec (.fleetApplyAckRx w true) s = .next (workerEvent { s with cfg.ack := setBit s.cfg.ack w true } w 4 0x0408 w 0)) ∧
  (∀ (s : State) (w : Fin 32) (l : Bool), s.cfg.fleetPhase ≠ 2 →
    exec (.fleetApplyAckRx w l) s = .next s ∧ exec .fleetApplyRetx s = .next s) ∧
  (∀ (s : State) (f : Fleet), s.cfg.fleet = some f → s.cfg.fleetPhase = 2 →
    s.weave.time.toNat ≤ f.due.toNat + s.fleetHoldNs →
    exec .fleetApplyRetx s = .next ((fleetWorkers (f.mask &&& ~~~s.cfg.ack)).foldl
      (fun s w => fleetMsg s w s.cfg.fleetId 3 (bytesOf 8 f.due.toNat)) s)) ∧
  (∀ (s : State) (f : Fleet), s.cfg.fleet = some f → f.completed = false → s.inQueue f.act.d = false →
    s.cfg.fleetPhase = 2 → f.mask.getLsbD 0 = false → s.cfg.ack &&& f.mask = f.mask → ∃ u : State,
    u = s.reachWeave f.due ∧ exec .fleetCommitDue s = .next (finish { u with
      cfg.fleet := none, cfg.fleetPhase := 0 } f.act 0 f.mask.toNat 0)) ∧
  (∀ (s : State) (f : Fleet), s.cfg.fleet = some f → f.completed = false → s.inQueue f.act.d = false →
    s.cfg.fleetPhase = 2 → f.mask.getLsbD 0 = false → s.cfg.ack &&& f.mask ≠ f.mask → ∃ u : State,
    u = s.reachWeave f.due ∧ exec .fleetCommitDue s = .next (finishAs { u with
      cfg.fleet := some { f with completed := true } } f.act stWorkerUnreachable 0 (s.cfg.ack &&& f.mask).toNat
      (f.mask &&& ~~~(s.cfg.ack &&& f.mask)).toNat))

/-- A fleet commit at a worker (R223, R225, R226, R227, R230): PREPARE seals the stage, its check votes, APPLY queues
the apply for DUE and is acknowledged, ABORT and the hold time give it up. Clauses here rest on choices of the model,
not on rules of the spec: log entries 129, 130, 131, 180. -/
def Obligations.FleetCommitsAtAWorker : Prop :=
  (∀ (s : State) (id : BitVec 8) (p : Bool), s.stageLocked = false → exec (.fleetPrepareRx id p) s = .next { s with
    cfg.fleetId := id, cfg.fleetPersist := p, cfg.fleetDue := none,
    cfg.commit := some { act := {}, persist := p, checking := true, fleet := true }, cfg.stageSt := .sealed }) ∧
  (∀ (s : State) (id : BitVec 8) (p : Bool), s.stageLocked = true →
    exec (.fleetPrepareRx id p) s = .next (fleetMsg s 0 id 2 [0, 0])) ∧
  (∀ (s : State) (id : BitVec 8) (due : BitVec 64), s.cfg.fleetPhase = 4 → s.cfg.fleetId = id →
    s.weave.time.toNat ≤ due.toNat → exec (.fleetApplyRx id due) s = .next (fleetMsg { s with
      cfg.fleetPhase := 5, cfg.fleetDue := some due,
      weave.queue := s.weave.queue ++ [{ due := due, fire := BitVec.ofNat 64 (due.toNat - due.toNat % 4) }] } 0 id 4 [0])) ∧
  (∀ (s : State) (id : BitVec 8) (due : BitVec 64), s.cfg.fleetPhase = 4 → s.cfg.fleetId = id →
    due.toNat < s.weave.time.toNat → exec (.fleetApplyRx id due) s = .next (fleetMsg (logEvent { s with
      cfg.fleetPhase := 5, cfg.fleetDue := some due,
      weave.queue := s.weave.queue ++ [{ due := due, late := true, fire := s.weave.time + 4 }] } 0x0408 [id.toNat])
      0 id 4 [1])) ∧
  (∀ (s : State) (id : BitVec 8) (due : BitVec 64), s.cfg.fleetPhase = 5 → s.cfg.fleetId = id →
    exec (.fleetApplyRx id due) s = .next (fleetMsg s 0 id 4 [0])) ∧
  (∀ s : State, s.cfg.fleetPhase = 5 → s.cfg.fleetPersist = false → ∃ u : State, u = applyStage s ∧
    actFleetApply s = { u with cfg.fleetPhase := 0, cfg.lastApplied := u.cfg.fleetId }) ∧
  (∀ (s : State) (id : BitVec 8), s.cfg.fleetPhase = 4 ∨ s.cfg.fleetPhase = 5 → s.cfg.fleetId = id → ∃ u : State,
    u = { s with cfg.fleetPhase := 3, cfg.fleetDue := none, weave.queue := s.weave.queue.filter (fun e => e.host.isSome) } ∧
    exec (.fleetAbortRx id) s = .next (logEvent { u with cfg.commit := none, cfg.stageSt := u.looseStage } 0x0406
      [id.toNat, 0])) ∧
  (∀ (s : State) (id : BitVec 8), s.cfg.fleetId ≠ id → exec (.fleetAbortRx id) s = .next s) ∧
  (∀ s : State, s.cfg.fleetPhase = 4 → exec .fleetHoldExpiry s = .next (logEvent { s with
    cfg.stage := [], cfg.load := none, cfg.loadImage := {}, cfg.stageSt := .empty, cfg.commit := none,
    cfg.fleetPhase := 0 } 0x0407 [s.cfg.fleetId.toNat])) ∧
  (∀ s : State, s.cfg.fleetPhase ≠ 4 → exec .fleetHoldExpiry s = .next s) ∧
  (∀ (s : State) (c : Commit), s.cfg.commit = some c → c.checking = true → c.fleet = true → s.cfg.load = none →
    s.cfg.fleet = none → checkAll s s.effective = none → exec .commitCheckDone s = .next (fleetMsg { s with
      cfg.commit := some { c with checking := false }, cfg.stageSt := .prepared, cfg.fleetPhase := 4 } 0 s.cfg.fleetId 1 []))

/-! ## High-side outputs and the planner -/

/-- HSO_SET, HSO_MULTI, HSO_CLEAR, HSO_READ and HSO_OLTEST (R239 to R244, R258, R271, R276, R281, R282, Table 6.13):
checked, recorded by a shed channel, done at once where no edge moves, and otherwise entered in the plan or, launched,
acting at the slot of DUE. Clauses here rest on choices of the model, not on rules of the spec: log entries 10, 11, 12,
21, 22. -/
def Obligations.HighSideChannelsAreSwitched : Prop :=
  (∀ (s : State) (d : Desc) (ch : BitVec 6) (st : BitVec 2) (du : BitVec 13), Ready s d (.hsoSet ch st du) = true →
    hsoCheck s ch.toNat st.toNat du.toNat ≠ stOk → exec (.hsoSet d ch st du) s = .next (answered
      (taken s d (.hsoSet ch st du)) d (hsoCheck s ch.toNat st.toNat du.toNat) 0 0 0)) ∧
  (∀ (s : State) (d : Desc) (ch : BitVec 6) (du : BitVec 13), Ready s d (.hsoSet ch 0 du) = true →
    hsoCheck s ch.toNat 0 du.toNat = stOk → (s.hsoCh ch.toNat).st = .off → ∃ u : State,
    u = hsoApply (taken s d (.hsoSet ch 0 du)) ch.toNat 0 du.toNat (s.freePhase ch.toNat) false ∧
    (u.hsoCh ch.toNat).st = .off ∧ (u.hsoCh ch.toNat).cmdSt = 0 ∧ (u.hsoCh ch.toNat).cmdDuty = du ∧
    exec (.hsoSet d ch 0 du) s = .next (answered u d stOk 0 0 0)) ∧
  (∀ (s : State) (d : Desc) (ch : BitVec 6) (du : BitVec 13), Ready s d (.hsoSet ch 1 du) = true →
    hsoCheck s ch.toNat 1 du.toNat = stOk → (s.hsoCh ch.toNat).st = .off → s.paused (pairOf ch.toNat) = false →
    ∃ (r : Nat × Bool) (u : State),
      r = s.place ch.toNat (s.hsoCode ch.toNat) (s.hsoHoldSlot ch.toNat) (fun a => hsoEdges s ch.toNat 1 du.toNat a) ∧
      u = addShot { taken s d (.hsoSet ch 1 du) with edge.pending := s.edge.pending ++ [
        { act := actOf s d (.hsoSet ch 1 du), chans := [ch.toNat], st := 1, duty := du, slot := r.1, atPeriod := false }] }
        { pair := pairOf ch.toNat, slot := r.1, rising := true, weight := s.weight ch.toNat, chan := some ch.toNat } ∧
      exec (.hsoSet d ch 1 du) s = .next (replan (if r.2 then overPlan u ch.toNat (r.1 % 1024) else u))) ∧
  (∀ (s : State) (d : Desc) (ch : BitVec 6) (du : BitVec 13), Ready s d (.hsoSet ch 1 du) = true →
    hsoCheck s ch.toNat 1 du.toNat = stOk → (s.hsoCh ch.toNat).st = .shed →
    exec (.hsoSet d ch 1 du) s = .next (answered ((unheldHso (taken s d (.hsoSet ch 1 du)) ch.toNat).modHso ch.toNat
      (fun c => { c with cmdSt := 1, cmdDuty := du })) d 0x81 0 0 0)) ∧
  (∀ (s : State) (a : Act) (ch : BitVec 6) (du : BitVec 13), a.fired = true → hsoCheck s ch.toNat 1 du.toNat = stOk →
    (s.hsoCh ch.toNat).st = .off → s.paused (pairOf ch.toNat) = false →
    actHost (.hsoSet ch 1 du) a s = finish (replan (hsoApply (addShot s
      { pair := pairOf ch.toNat, slot := slotOf a.instant, rising := true, weight := s.weight ch.toNat }) ch.toNat 1
      du.toNat (slotOf a.instant) true)) a) ∧
  (∀ (s : State) (d : Desc) (m : BitVec 64) (st : BitVec 2) (du : BitVec 13) (ch x : Nat),
    Ready s d (.hsoMulti m st du) = true → hsoFirstBad s (maskList m) st.toNat du.toNat = some (ch, x) →
    exec (.hsoMulti d m st du) s = .next (answered (taken s d (.hsoMulti m st du)) d x ch 0 0)) ∧
  (∀ (s : State) (d : Desc) (m : BitVec 64) (du : BitVec 13), Ready s d (.hsoMulti m 1 du) = true → m ≠ 0 →
    hsoFirstBad s (maskList m) 1 du.toNat = none →
    (∀ ch ∈ maskList m, (s.hsoCh ch).st = .off ∧ s.paused (pairOf ch) = false) →
    exec (.hsoMulti d m 1 du) s = .next (hsoPlan (taken s d (.hsoMulti m 1 du)) (actOf s d (.hsoMulti m 1 du))
      (maskList m) 1 du.toNat)) ∧
  (∀ (s : State) (d : Desc) (ch : BitVec 6), Ready s d (.hsoClear ch) = true → s.hsoBarred ch.toNat = false →
    exec (.hsoClear d ch) s = .next (answered (hsoClear (taken s d (.hsoClear ch)) ch.toNat) d stOk 0 0 0)) ∧
  (∀ (s : State) (ch : Fin 64), (s.hsoCh ch).st = .latched → ((hsoClear s ch).hsoCh ch).st = .off ∧
    ((hsoClear s ch).hsoCh ch).retries = 0 ∧ ((hsoClear s ch).hsoCh ch).cmdSt = 0) ∧
  (∀ (s : State) (d : Desc) (ch : BitVec 6), Ready s d (.hsoRead ch) = true → s.hsoBarred ch.toNat = false →
    exec (.hsoRead d ch) s = .next (answered (taken s d (.hsoRead ch)) d stOk 0
      ((s.hsoCh ch.toNat).sense.toNat + 2 ^ 16 * (s.hsoCh ch.toNat).st.num
        + (if (s.hsoCh ch.toNat).inrush then 2 ^ 20 else 0) + 2 ^ 21 * (s.hsoCh ch.toNat).retries.toNat)
      (hsoFlags s ch.toNat))) ∧
  (∀ (s : State) (d : Desc) (ch : BitVec 6), Ready s d (.hsoOltest ch) = true → s.hsoBarred ch.toNat = false →
    (s.hsoCh ch.toNat).isOn = false → s.hsoTestBand ch.toNat = true → (s.hsoCh ch.toNat).test = none →
    exec (.hsoOltest d ch) s = .next ((taken s d (.hsoOltest ch)).modHso ch.toNat
      (fun c => { c with test := some (some (actOf s d (.hsoOltest ch))) }))) ∧
  (∀ (s : State) (d : Desc) (ch : BitVec 6), s.hsoBarred ch.toNat = true → Ready s d (.hsoClear ch) = true →
    exec (.hsoClear d ch) s = .next (answered (taken s d (.hsoClear ch)) d stRefusedState 0 0 0)) ∧
  (∀ (s : State) (d : Desc) (ch : BitVec 6), s.hsoBarred ch.toNat = true → Ready s d (.hsoRead ch) = true →
    exec (.hsoRead d ch) s = .next (answered (taken s d (.hsoRead ch)) d stRefusedState 0 0 0)) ∧
  (∀ (s : State) (d : Desc) (ch : BitVec 6), s.hsoBarred ch.toNat = true → Ready s d (.hsoOltest ch) = true →
    exec (.hsoOltest d ch) s = .next (answered (taken s d (.hsoOltest ch)) d stRefusedState 0 0 0))

/-- Ramps, measurements, trips and retries of high-side channels (R243, R247, R250 to R259, R268, R272, Table 6.11).
Whether an overload trip without WIRE_EN retries at a model update is left open. Clauses here rest on choices of the
model, not on rules of the spec: log entries 15, 18, 19, 38, 39. -/
def Obligations.HighSideRampsTripsAndRetries : Prop :=
  (∀ (s : State) (ch : Fin 64), (s.hsoCh ch).st = .soft → (s.hsoCh ch).soft < 63 → ∃ n : Nat,
    n = s.appliedDuty ch ((s.hsoCh ch).cmdDuty.toNat * ((s.hsoCh ch).soft + 1) / 64) ∧
    exec (.softStartStep ch) s = .next (planOnTime (s.modHso ch (fun c => { c with
      soft := c.soft + 1, duty := BitVec.ofNat 13 n })) ch (onTime20 n (s.hsoCode ch)))) ∧
  (∀ (s : State) (ch : Fin 64), (s.hsoCh ch).st = .soft → (s.hsoCh ch).soft = 63 → (s.hsoCh ch).cmdDuty ≠ 4096 →
    ∃ n : Nat, n = s.appliedDuty ch (s.hsoCh ch).cmdDuty.toNat ∧
      exec (.softStartStep ch) s = .next (planOnTime (s.modHso ch (fun c => { c with
        soft := 64, duty := BitVec.ofNat 13 n, st := .pwm })) ch (onTime20 n (s.hsoCode ch)))) ∧
  (∀ (s : State) (ch : Fin 64), (s.hsoCh ch).st = .soft → (s.hsoCh ch).soft = 63 → (s.hsoCh ch).cmdDuty = 4096 →
    ∃ t : State, exec (.softStartStep ch) s = .next t ∧ t = planOff (hsoTurn s ch .on 4096) ch ∧
      (t.hsoCh ch).st = .on ∧ (t.hsoCh ch).duty = 4096) ∧
  (∀ (s : State) (ch : Fin 64), (s.hsoCh ch).st ≠ .soft → exec (.softStartStep ch) s = .next s) ∧
  (∀ (s : State) (a b c e : BitVec 16), s.isOn .act = true → exec (.feedMeasure a b c e) s = .next { s with
    hso.vfeed := ⟨#[a, b, c], rfl⟩, vlv.bst := e,
    upd.feed := s.upd.feed.filter (fun x => s.clk.ns < x.1 + sec) ++ [(s.clk.ns, min a.toNat (min b.toNat c.toNat))],
    vlv.slowAll := (s.vlv.slowAll && (bstSet s + 10) * 10 ≤ e.toNat) } ∧
    exec .wireModelSave s = .next { s with bezel.retDt := s.hso.ch.map (fun x => x.dt) }) ∧
  (∀ (s : State) (ch : Fin 64) (a b c e : BitVec 16) (x y : Nat) (z : BitVec 8), s.isOn .act = false →
    exec (.feedMeasure a b c e) s = .next s ∧ exec .wireModelSave s = .next s ∧ exec (.senseUpdate ch x a z) s = .next s ∧
    exec (.wireModelUpdate ch y) s = .next s) ∧
  (∀ (s : State) (ch : Fin 64) (x : Nat) (y : BitVec 16) (z : BitVec 8), s.isOn .act = true → (s.hsoCh ch).isOn = true →
    exec (.senseUpdate ch x y z) s = .next ((s.modGrp (ch.val / 8) (fun g => { g with iGrp := y, temp := z })).modHso ch
      (fun c => { c with sense := BitVec.ofNat 12 (min 4000 (x * 1000 / senseScale ch)) }))) ∧
  (∀ (s : State) (ch : Fin 64) (x : Nat) (y : BitVec 16) (z : BitVec 8), s.isOn .act = true → (s.hsoCh ch).isOn = false →
    exec (.senseUpdate ch x y z) s = .next (s.modGrp (ch.val / 8) (fun g => { g with iGrp := y, temp := z }))) ∧
  (∀ (s : State) (ch : Fin 64), (s.hsoCh ch).inrush = true → ∃ u : State,
    u = s.reach ((s.hsoCh ch).onSince + s.hsoField ch 1 16 8 * 1000000) ∧
    exec (.inrushWindowEnd ch) s = .next (u.modHso ch (fun c => { c with inrush := false }))) ∧
  (∀ (s : State) (ch : Fin 64), (s.hsoCh ch).inrush = false → exec (.inrushWindowEnd ch) s = .next s) ∧
  (∀ (s : State) (ch : Fin 64), (s.hsoCh ch).isOn = false → exec (.fastTrip ch) s = .next s ∧
    exec (.overloadTrip ch) s = .next s ∧ exec (.junctionOtTrip ch) s = .next s ∧ exec (.shortToBatOn ch) s = .next s ∧
    exec (.retryCountReset ch) s = .next s) ∧
  (∀ (s : State) (ch : Fin 64), (s.hsoCh ch).isOn = true → s.isOn .act = true → (s.hsoCh ch).fastRetryAt = none →
    ∃ t : State, exec (.fastTrip ch) s = .next t ∧ (t.hsoCh ch).st = .retry ∧ (t.hsoCh ch).kind = .fast ∧
      (t.hsoCh ch).fast = true ∧ (t.hsoCh ch).tripAt = s.clk.ns ∧
      (vget t.hso.grp (hsoGroup ch)).holdoff = some (s.clk.ns + 5000000)) ∧
  (∀ (s : State) (ch : Fin 64) (x : Nat), (s.hsoCh ch).isOn = true → s.isOn .act = true →
    (s.hsoCh ch).fastRetryAt = some x → s.clk.ns ≤ x + 1000000000 → ∃ t : State, exec (.fastTrip ch) s = .next t ∧
      (t.hsoCh ch).st = .latched ∧ (t.hsoCh ch).fast = true ∧ (t.hsoCh ch).duty = 0) ∧
  (∀ (s : State) (ch : Fin 64), (s.hsoCh ch).st = .retry → (s.hsoCh ch).kind = .fast → ∃ u : State,
    u = s.reach ((s.hsoCh ch).tripAt + 100000000) ∧
    exec (.fastTripRetry ch) s = .next (hsoRetry (u.modHso ch (fun c => { c with fastRetryAt := some u.clk.ns })) ch false)) ∧
  (∀ (s : State) (ch : Fin 64), hsoEffect (s.hsoCh ch).cmdSt.toNat (s.hsoCh ch).cmdDuty.toNat = 1 → s.pwr.shedFrom = 8 →
    s.paused (groupPair (hsoGroup ch)) = false → ((hsoRetry s ch false).hsoCh ch).st = .on ∧
    ((hsoRetry s ch false).hsoCh ch).retries = (s.hsoCh ch).retries ∧ ((hsoRetry s ch true).hsoCh ch).st = .on ∧
    ((hsoRetry s ch true).hsoCh ch).retries = (s.hsoCh ch).retries + 1) ∧
  (∀ (s : State) (ch : Fin 64), (s.hsoCh ch).kind ≠ .fast → exec (.fastTripRetry ch) s = .next s) ∧
  (∀ (s : State) (ch : Fin 64), (s.hsoCh ch).isOn = true → s.isOn .act = true → (s.hsoCh ch).retries ≠ 3 →
    ∃ t : State, exec (.overloadTrip ch) s = .next t ∧ (t.hsoCh ch).st = .retry ∧ (t.hsoCh ch).kind = .wire ∧
      (t.hsoCh ch).overload = true ∧ (t.hsoCh ch).tripAt = s.clk.ns) ∧
  (∀ (s : State) (ch : Fin 64), (s.hsoCh ch).isOn = true → s.isOn .act = true → (s.hsoCh ch).retries = 3 →
    ∃ t : State, exec (.overloadTrip ch) s = .next t ∧ (t.hsoCh ch).st = .latched ∧ (t.hsoCh ch).overload = true) ∧
  (∀ (s : State) (ch : Fin 64) (q : Nat) (u : State), s.isOn .act = true → s.hsoField ch 2 20 1 = 1 →
    (s.hsoCh ch).isOn = true → u = s.modHso ch (fun c => { c with dt := wireStep c.dt q (s.hsoField ch 2 0 4) }) →
    u.wireTemp ch < (s.hsoField ch 2 4 8 : Int) * 1000000000 → exec (.wireModelUpdate ch q) s = .next u) ∧
  (∀ (s : State) (ch : Fin 64) (q : Nat) (u : State), s.isOn .act = true → s.hsoField ch 2 20 1 = 1 →
    (s.hsoCh ch).isOn = true → (s.hsoCh ch).retries ≠ 3 →
    u = s.modHso ch (fun c => { c with dt := wireStep c.dt q (s.hsoField ch 2 0 4) }) →
    (s.hsoField ch 2 4 8 : Int) * 1000000000 ≤ u.wireTemp ch → ∃ t : State, exec (.wireModelUpdate ch q) s = .next t ∧
      (t.hsoCh ch).st = .retry ∧ (t.hsoCh ch).kind = .wire ∧ (t.hsoCh ch).wire = true ∧
      (t.hsoCh ch).dt = (u.hsoCh ch).dt) ∧
  (∀ (s : State) (ch : Fin 64) (q : Nat), s.isOn .act = true → s.hsoField ch 2 20 1 = 0 → (s.hsoCh ch).st = .retry →
    (s.hsoCh ch).kind = .wire → ∃ b : Bool, exec (.wireModelUpdate ch q) s = .next
      (if b then hsoRetry { s with free := s.free + 1 } ch true else { s with free := s.free + 1 })) ∧
  (∀ (s : State) (ch : Fin 64), (s.hsoCh ch).isOn = true → ∃ u : State,
    u = s.reach (max (s.hsoCh ch).onSince (s.hsoCh ch).tripAt + 60000000000) ∧
    exec (.retryCountReset ch) s = .next (u.modHso ch (fun c => { c with retries := 0 }))) ∧
  (∀ (s : State) (ch : Fin 64), (s.hsoCh ch).isOn = true → s.isOn .act = true → (s.hsoCh ch).otTrips = [] →
    ∃ t : State, exec (.junctionOtTrip ch) s = .next t ∧ (t.hsoCh ch).st = .retry ∧ (t.hsoCh ch).kind = .ot ∧
      (t.hsoCh ch).ot = true ∧ (t.hsoCh ch).otTrips = [s.clk.ns]) ∧
  (∀ (s : State) (ch : Fin 64) (a b c : Nat), (s.hsoCh ch).isOn = true → s.isOn .act = true →
    (s.hsoCh ch).otTrips = [a, b, c] → s.clk.ns < a + 60 * sec → s.clk.ns < b + 60 * sec → s.clk.ns < c + 60 * sec →
    ∃ t : State, exec (.junctionOtTrip ch) s = .next t ∧ (t.hsoCh ch).st = .latched ∧ (t.hsoCh ch).ot = true) ∧
  (∀ (s : State) (ch : Fin 64), (s.hsoCh ch).st = .retry → (s.hsoCh ch).kind = .ot →
    exec (.junctionOtClear ch) s = .next (hsoRetry s ch false)) ∧
  (∀ (s : State) (ch : Fin 64), (s.hsoCh ch).kind ≠ .ot → exec (.junctionOtClear ch) s = .next s)

/-- Diagnostics of high-side channels (R260 to R263, Table 6.9) and the current limits of power groups (R264 to R269).
Clauses here rest on choices of the model, not on rules of the spec: log entries 14, 16. -/
def Obligations.HighSideDiagnosticsAndGroups : Prop :=
  (∀ (s : State) (ch : Fin 64), exec (.openLoadOnClear ch) s = .next (s.modHso ch (fun c => { c with olOn := false }))) ∧
  (∀ (s : State) (ch : Fin 64), s.hsoField ch 3 0 12 ≠ 0 → (s.hsoCh ch).isOn = true → (s.hsoCh ch).olOn = false →
    exec (.openLoadOnDetect ch) s = .next (hsoEvent (s.modHso ch (fun c => { c with olOn := true })) 0x0506 ch)) ∧
  (∀ (s : State) (ch : Fin 64), s.hsoField ch 3 0 12 = 0 → exec (.openLoadOnDetect ch) s = .next s) ∧
  (∀ (s : State) (ch : Fin 64), s.isOn .act = true → s.hsoField ch 3 12 1 = 1 → (s.hsoCh ch).isOn = false →
    (s.hsoCh ch).test = none → s.hsoTestBand ch = true →
    exec (.offStateTest ch) s = .next (s.modHso ch (fun c => { c with test := some none }))) ∧
  (∀ (s : State) (ch : Fin 64), s.hsoField ch 3 12 1 = 0 ∨ (s.hsoCh ch).isOn = true →
    exec (.offStateTest ch) s = .next s) ∧
  (∀ (s : State) (ch : Fin 64) (mv : BitVec 16), (s.hsoCh ch).test = none →
    exec (.offStateTestResult ch mv) s = .next s) ∧
  (∀ (s : State) (ch : Fin 64) (mv : BitVec 16) (a : Act), (s.hsoCh ch).test = some (some a) → (s.hsoCh ch).st = .off →
    mv.toNat ≤ 2000 → exec (.offStateTestResult ch mv) s = .next (finish (s.modHso ch (fun c => { c with
      test := none, olOff := false, stbClean := true })) a 0 0)) ∧
  (∀ (s : State) (ch : Fin 64) (mv : BitVec 16), (s.hsoCh ch).test = some none → (s.hsoCh ch).st = .off →
    2000 < mv.toNat → mv.toNat ≤ 6000 → ∃ u : State, u = s.modHso ch (fun c => { c with test := none, olOff := true }) ∧
    exec (.offStateTestResult ch mv) s = .next (if (s.hsoCh ch).olOff then u else hsoEvent u 0x0507 ch)) ∧
  (∀ (s : State) (ch : Fin 64) (mv : BitVec 16), (s.hsoCh ch).test = some none → (s.hsoCh ch).st = .off →
    6000 < mv.toNat → ∃ u : State, u = s.modHso ch (fun c => { c with test := none, olOff := false, shortBat := true }) ∧
    exec (.offStateTestResult ch mv) s = .next (if (s.hsoCh ch).shortBat then u else hsoEvent u 0x0508 ch)) ∧
  (∀ (s : State) (ch : Fin 64), (s.hsoCh ch).isOn = true → ∃ t : State, exec (.shortToBatOn ch) s = .next t ∧
    (t.hsoCh ch).st = .stb ∧ (t.hsoCh ch).shortBat = true ∧ (t.hsoCh ch).duty = 0 ∧ (t.hsoCh ch).stbClean = false) ∧
  (∀ (s : State) (g : Fin 8), exec (.reverseFeed g) s = .next (s.modGrp g (fun x => { x with reversed := true }))) ∧
  (∀ (s : State) (g : Fin 8), s.isOn .act = true → (vget s.hso.grp g).hit = none →
    exec (.groupLimitHit g) s = .next (s.modGrp g (fun x => { x with
      hit := some { at_ := s.clk.ns }, hits := satInc x.hits }))) ∧
  (∀ (s : State) (g : Fin 8), (vget s.hso.grp g).hit.isSome = true → exec (.groupLimitHit g) s = .next s) ∧
  (∀ (s : State) (g : Fin 8) (h : GrpHit), (vget s.hso.grp g).hit = some h → h.tagged = true →
    exec (.groupLimitEnd g) s = .next (s.modGrp g (fun x => { x with hit := none })) ∧
    exec (.sympatheticTag g) s = .next s) ∧
  (∀ (s : State) (g : Fin 8) (h : GrpHit), (vget s.hso.grp g).hit = some h → h.tagged = false →
    exec (.groupLimitEnd g) s = .next (s.modGrp g (fun x => { x with hit := some { h with ended := true } }))) ∧
  (∀ (s : State) (g : Fin 8) (h : GrpHit), (vget s.hso.grp g).hit = some h → h.tagged = false → h.ended = false →
    (vget s.hso.grp g).lastFast = none → ∃ u : State, u = s.reach (h.at_ + 100000) ∧ exec (.sympatheticTag g) s = .next (logEvent
      (u.modGrp g (fun x => { x with hit := some { h with tagged := true, symp := false } })) 0x0509 [g.val, 0])) ∧
  (∀ (s : State) (g : Fin 8) (h : GrpHit) (x c : Nat), (vget s.hso.grp g).hit = some h → h.tagged = false →
    h.ended = false → (vget s.hso.grp g).lastFast = some (x, c) → x ≤ h.at_ + 100 * us → h.at_ ≤ x + 100 * us →
    ∃ (m : List Nat) (u : State), m = (groupChans g).filter (fun y => y != c) ∧ u = m.foldl
      (fun s y => s.modHso y (fun z => { z with symp := true })) (s.reach (h.at_ + 100000)) ∧
      exec (.sympatheticTag g) s = .next (logEvent
        (u.modGrp g (fun z => { z with hit := some { h with tagged := true, symp := true } })) 0x0509
        [g.val, (m.map (fun y => 2 ^ (y % 8))).sum])) ∧
  (∀ (s : State) (g : Fin 8), (vget s.hso.grp g).hit = none → exec (.sympatheticTag g) s = .next s ∧
    exec (.groupLimitShed g) s = .next s) ∧
  (∀ (s : State) (g : Fin 8) (h : GrpHit) (ch : Nat), (vget s.hso.grp g).hit = some h → h.tagged = true →
    h.symp = false → s.worst g true = some ch → exec (.groupLimitShed g) s = .next (hsoOverload s ch)) ∧
  (∀ (s : State) (g : Fin 8) (h : GrpHit), (vget s.hso.grp g).hit = some h → h.symp = true →
    exec (.groupLimitShed g) s = .next s) ∧
  (∀ (s : State) (g : Fin 8) (x : Nat), (vget s.hso.grp g).holdoff = some x → ∃ u : State, u = s.reach x ∧
    exec (.fastTripHoldoffEnd g) s = .next (u.modGrp g (fun y => { y with holdoff := none }))) ∧
  (∀ (s : State) (g : Fin 8), (vget s.hso.grp g).holdoff = none → exec (.fastTripHoldoffEnd g) s = .next s) ∧
  (∀ (s : State) (g : Fin 8) (ch : Nat), s.worst g false = some ch → s.isOn .act = true → (s.hsoCh ch).retries ≠ 3 →
    ∃ t : State, exec (.groupOt g) s = .next t ∧ (t.hsoCh ch).st = .retry ∧ (t.hsoCh ch).kind = .groupOt ∧
      (t.hsoCh ch).groupOt = true ∧ (t.hsoCh ch).duty = 0) ∧
  (∀ (s : State) (g : Fin 8), s.worst g false = none → exec (.groupOt g) s = .next s) ∧
  (∀ (s : State) (g : Fin 8) (ch : Nat), ch ∈ groupChans g → (s.hsoCh ch).st = .retry → (s.hsoCh ch).kind = .groupOt →
    (∀ m ∈ groupChans g, m ≠ ch → (s.hsoCh m).st ≠ .retry) → exec (.groupOtClear g) s = .next (hsoRetry s ch true)) ∧
  (∀ (s : State) (g : Fin 8), (∀ m ∈ groupChans g, (s.hsoCh m).kind ≠ .groupOt) → exec (.groupOtClear g) s = .next s)

/-- Pins (R301 to R303, Table 7.6), planned switches that take effect or are refused (R244, R245), period starts (R214,
R295, R302) and the planner's frames (R276, R297 to R305, R384, R697). Clauses here rest on choices of the model, not on
rules of the spec: log entries 11, 12, 13, 212. -/
def Obligations.EdgesArePlanned : Prop :=
  (∀ (s : State) (d : Desc) (ch : BitVec 7) (ph : BitVec 13) (code : Nat), Ready s d (.edgePin ch ph) = true →
    s.periodCode ch.toNat = some code → ph.toNat < periodSlots code → (vget s.edge.ch ch.toNat).active = false →
    exec (.edgePin d ch ph) s = .next (answered (replan ((taken s d (.edgePin ch ph)).modP ch.toNat
      (fun c => { c with host := some ph, launch := false }))) d stOk 0 0 0)) ∧
  (∀ (s : State) (d : Desc) (ch : BitVec 7) (ph : BitVec 13), Ready s d (.edgePin ch ph) = true →
    s.periodCode ch.toNat = none →
    exec (.edgePin d ch ph) s = .next (answered (taken s d (.edgePin ch ph)) d stRefusedState 0 0 0)) ∧
  (∀ (s : State) (d : Desc) (ch : BitVec 7) (ph : BitVec 13) (code : Nat), Ready s d (.edgePin ch ph) = true →
    s.periodCode ch.toNat = some code → periodSlots code ≤ ph.toNat →
    exec (.edgePin d ch ph) s = .next (answered (taken s d (.edgePin ch ph)) d 0x80 0 0 0)) ∧
  (∀ (s : State) (d : Desc) (ch : BitVec 7), Ready s d (.edgeUnpin ch) = true →
    exec (.edgeUnpin d ch) s = .next (answered (replan ((taken s d (.edgeUnpin ch)).modP ch.toNat
      (fun c => { c with host := none, launch := false }))) d stOk 0 0 0)) ∧
  (∀ (s : State) (i : BitVec 7) (p : Planned), s.edge.pending = [p] → p.atPeriod = false → p.chans = [i.toNat] →
    i.toNat < 64 → hsoCheck s i.toNat p.st.toNat p.duty.toNat = stOk → p.st = 1 → (s.hsoCh i.toNat).st = .off →
    s.paused (pairOf i.toNat) = false → slotStart p.slot < 2 ^ 64 → ∃ u v : State,
      u = s.reachWeave (BitVec.ofNat 64 (slotStart p.slot)) ∧
      v = hsoApply { u with edge.pending := [] } i.toNat 1 p.duty.toNat p.slot false ∧ (v.hsoCh i.toNat).st = .on ∧
      exec (.plannedSwitch i) s = .next (finish v p.act)) ∧
  (∀ (s : State) (i : BitVec 7) (p : Planned) (x : Nat), s.edge.pending = [p] → p.atPeriod = false →
    p.chans = [i.toNat] → i.toNat < 64 → hsoCheck s i.toNat p.st.toNat p.duty.toNat = x → x ≠ stOk → ∃ u : State,
      u = s.reachWeave (BitVec.ofNat 64 (slotStart p.slot)) ∧
      exec (.plannedSwitch i) s = .next (refuse (dropShots { u with edge.pending := [] } p) p.act x 0)) ∧
  (∀ (s : State) (i : BitVec 7), s.edge.pending = [] → exec (.plannedSwitch i) s = .next s) ∧
  (∀ (s : State) (i : BitVec 7), 76 ≤ i.toNat ∧ i.toNat < 80 ∨
    s.isOn (if 64 ≤ i.toNat ∧ i.toNat < 76 then .led else .act) = false → exec (.pwmPeriodStart i) s = .next s) ∧
  (∀ (s : State) (i : BitVec 7) (ph : BitVec 13), i.toNat < 64 → s.isOn .act = true →
    s.periodCode i.toNat = some (vget s.edge.ch i.toNat).period.toNat → (vget s.edge.ch i.toNat).host = some ph →
    (vget s.edge.ch i.toNat).launch = false → s.edge.pending = [] → s.hsoLamp i.toNat = false →
    exec (.pwmPeriodStart i) s = .next (s.modP i.toNat (fun c => { c with
      phase := BitVec.ofNat 13 (ph.toNat % periodSlots c.period.toNat) }))) ∧
  (∀ (s : State) (i : BitVec 7) (p : Planned), i.toNat < 64 → s.isOn .act = true →
    s.periodCode i.toNat = some (vget s.edge.ch i.toNat).period.toNat → (vget s.edge.ch i.toNat).host = none →
    s.edge.pending = [p] → p.atPeriod = true → p.chans = [i.toNat] → s.hsoLamp i.toNat = false →
    exec (.pwmPeriodStart i) s = .next (plannedTake s p (vget s.edge.ch i.toNat).phase.toNat)) ∧
  (∀ s : State, s.isOn .act = false → exec .plannerFrameCheck s = .next s ∧ exec .plannerFrameStart s = .next s) ∧
  (∀ s : State, s.isOn .act = true → ∃ f : Nat, f = s.nowFrame + 1 ∧
    exec .plannerFrameCheck s = .next (overCheck (fixedCheck (clearFrame s f) f true) f)) ∧
  (∀ s : State, s.isOn .act = true → s.isOn .led = false →
    exec .plannerFrameStart s = .next (strandedPeriods (vlvFrame (fioFrame (hsoFrame (endFrame s)))))) ∧
  (∀ (s : State), s.isOn .act = true → s.isOn .led = true →
    exec .plannerFrameStart s = .next (ledFrame (strandedPeriods (vlvFrame (fioFrame (hsoFrame (endFrame s)))))))

/-! ## Field pins -/

/-- FIO_SET, FIO_MULTI, FIO_CLEAR and FIO_READ (R423 to R425, R432, Table 11.6), and the faults of outputs with their
retries (R425, R426, Table 11.4). Clauses here rest on choices of the model, not on rules of the spec: log entries 20,
21, 23. -/
def Obligations.FieldOutputsAreDriven : Prop :=
  (∀ (s : State) (d : Desc) (ch : BitVec 6) (du : BitVec 13), Ready s d (.fioSet ch du) = true →
    fioCheck s ch.toNat du.toNat ≠ stOk →
    exec (.fioSet d ch du) s = .next (answered (taken s d (.fioSet ch du)) d (fioCheck s ch.toNat du.toNat) 0 0 0)) ∧
  (∀ (s : State) (d : Desc) (ch : BitVec 6), Ready s d (.fioSet ch 0) = true → fioCheck s ch.toNat 0 = stOk →
    (s.fioCh ch.toNat).duty = 0 → ∃ u : State,
    u = fioApply (taken s d (.fioSet ch 0)) ch.toNat 0 (s.fioPhase ch.toNat) false ∧ (u.fioCh ch.toNat).duty = 0 ∧
    (u.fioCh ch.toNat).cmdDuty = 0 ∧ (u.fioCh ch.toNat).trips = 0 ∧
    exec (.fioSet d ch 0) s = .next (answered u d stOk 0 0 0)) ∧
  (∀ (s : State) (d : Desc) (ch : BitVec 6), Ready s d (.fioSet ch 4096) = true → fioCheck s ch.toNat 4096 = stOk →
    (s.fioCh ch.toNat).duty = 0 → (s.fioCh ch.toNat).retryAt = none → (s.fioCh ch.toNat).hot = false →
    s.paused 2 = false → ∃ (r : Nat × Bool) (u : State),
      r = s.place (80 + ch.toNat) (s.fioCode ch.toNat) 0 (fun a => fioEdges s ch.toNat 4096 a) ∧
      u = addShot { taken s d (.fioSet ch 4096) with edge.pending := s.edge.pending ++ [
        { act := actOf s d (.fioSet ch 4096), chans := [80 + ch.toNat], duty := 4096, slot := r.1, atPeriod := false }] }
        { pair := 2, slot := r.1, rising := true, weight := s.weight (80 + ch.toNat), chan := some (80 + ch.toNat) } ∧
      exec (.fioSet d ch 4096) s = .next (replan (if r.2 then overPlan u (80 + ch.toNat) (r.1 % 1024) else u))) ∧
  (∀ (s : State) (d : Desc) (m : BitVec 64) (du : BitVec 13), Ready s d (.fioMulti m du) = true →
    ((maskList m).map (fun n => (n, fioCheck s n du.toNat))).find? (fun x => x.2 != stOk) = none →
    (∀ n ∈ maskList m, fioStill s n du.toNat = false) → 2 ≤ (maskList m).length → ∃ r : Nat × Nat × Nat,
      r = s.choose ((maskList m).map (80 + ·)) (fun a => (maskList m).flatMap (fun n => fioEdges s n du.toNat a))
        (s.candidates 0) ∧
      exec (.fioMulti d m du) s = .next (replan ((maskList m).foldl (fioEnter r.1 du.toNat)
        { taken s d (.fioMulti m du) with edge.pending := s.edge.pending ++ [
          {
            act := actOf s d (.fioMulti m du), chans := (maskList m).map (80 + ·), duty := du, slot := r.1,
            atPeriod := false }] }))) ∧
  (∀ (s : State) (d : Desc) (m : BitVec 64) (du : BitVec 13) (n x : Nat), Ready s d (.fioMulti m du) = true →
    ((maskList m).map (fun n => (n, fioCheck s n du.toNat))).find? (fun x => x.2 != stOk) = some (n, x) →
    exec (.fioMulti d m du) s = .next (answered (taken s d (.fioMulti m du)) d x n 0 0)) ∧
  (∀ (s : State) (d : Desc) (ch : BitVec 6), Ready s d (.fioClear ch) = true → s.fioBarred ch.toNat = false →
    (s.fioCh ch.toNat).outSt = 5 → exec (.fioClear d ch) s = .next (answered ((fioOff
      ((taken s d (.fioClear ch)).modFio ch.toNat (fun c => { c with trips := 0 })) ch.toNat 0).modFio ch.toNat
      (fun c => { c with cmdDuty := 0 })) d stOk 0 0 0)) ∧
  (∀ (s : State) (d : Desc) (ch : BitVec 6), Ready s d (.fioClear ch) = true → s.fioBarred ch.toNat = false →
    (s.fioCh ch.toNat).outSt ≠ 5 → exec (.fioClear d ch) s = .next (answered ((taken s d (.fioClear ch)).modFio ch.toNat
      (fun c => { c with trips := 0 })) d stOk 0 0 0)) ∧
  (∀ (s : State) (d : Desc) (ch : BitVec 6), Ready s d (.fioRead ch) = true → s.fioBarred ch.toNat = false →
    exec (.fioRead d ch) s = .next (answered (taken s d (.fioRead ch)) d stOk 0 (fioStat s ch.toNat)
      (fioFlags s ch.toNat))) ∧
  (∀ (s : State) (d : Desc) (ch : BitVec 6), s.fioBarred ch.toNat = true → Ready s d (.fioClear ch) = true →
    exec (.fioClear d ch) s = .next (answered (taken s d (.fioClear ch)) d stRefusedState 0 0 0)) ∧
  (∀ (s : State) (d : Desc) (ch : BitVec 6), s.fioBarred ch.toNat = true → Ready s d (.fioRead ch) = true →
    exec (.fioRead d ch) s = .next (answered (taken s d (.fioRead ch)) d stRefusedState 0 0 0)) ∧
  (∀ (s : State) (n : Fin 48), (s.fioCh n).duty = 0 → exec (.outputCurrentLimitTrip n) s = .next s ∧
    exec (.outputOt n true) s = .next s) ∧
  (∀ (s : State) (n : Fin 48), (s.fioCh n).duty ≠ 0 → s.isOn .act = true → (s.fioCh n).trips < 2 →
    exec (.outputCurrentLimitTrip n) s = .next ((fioOff (logEvent (s.modFio n (fun c => { c with
      limit := true, trips := c.trips + 1 })) 0x0B01 [n.val]) n 0).modFio n
      (fun c => { c with retryAt := some (s.clk.ns + 100000000) }))) ∧
  (∀ (s : State) (n : Fin 48), (s.fioCh n).duty ≠ 0 → s.isOn .act = true → 2 ≤ (s.fioCh n).trips → ∃ t : State,
    exec (.outputCurrentLimitTrip n) s = .next t ∧ t = logEvent (fioOff (logEvent (s.modFio n (fun c => { c with
      limit := true, trips := c.trips + 1 })) 0x0B01 [n.val]) n 5) 0x0B02 [n.val] ∧ (t.fioCh n).outSt = 5 ∧
    (t.fioCh n).duty = 0) ∧
  (∀ (s : State) (n : Fin 48) (x : Nat), (s.fioCh n).retryAt = some x → s.paused 2 = false → (s.fioCh n).cmdDuty ≠ 0 →
    ∃ t : State, exec (.outputRetry n) s = .next t ∧ (t.fioCh n).duty = (s.fioCh n).cmdDuty ∧ (t.fioCh n).outSt = 1 ∧
      (t.fioCh n).retryAt = none ∧ x ≤ t.clk.ns) ∧
  (∀ (s : State) (n : Fin 48), (s.fioCh n).retryAt = none → exec (.outputRetry n) s = .next s) ∧
  (∀ (s : State) (n : Fin 48), (s.fioCh n).duty ≠ 0 → exec (.outputOt n true) s = .next ((fioOff (logEvent (s.modFio n
    (fun c => { c with ot := true })) 0x0B03 [n.val]) n 0).modFio n (fun c => { c with hot := true }))) ∧
  (∀ (s : State) (n : Fin 48), (s.fioCh n).hot = true → s.paused 2 = false → (s.fioCh n).cmdDuty ≠ 0 → ∃ t : State,
    exec (.outputOt n false) s = .next t ∧ (t.fioCh n).duty = (s.fioCh n).cmdDuty ∧ (t.fioCh n).outSt = 1 ∧
    (t.fioCh n).hot = false) ∧
  (∀ (s : State) (n : Fin 48), (s.fioCh n).hot = false → exec (.outputOt n false) s = .next s) ∧
  (∀ (s : State) (n : Fin 48), (s.fioCh n).duty ≠ 0 → s.fioField n 0 24 1 = 1 → (s.fioCh n).openLoad = false →
    exec (.outputOpenLoad n true) s = .next (logEvent (s.modFio n (fun c => { c with openLoad := true })) 0x0B05
      [n.val])) ∧
  (∀ (s : State) (n : Fin 48), exec (.outputOpenLoad n false) s = .next (s.modFio n (fun c => { c with
    openLoad := false })))

/-- Field inputs (R418 to R421, Table 11.2): the filtered level, the debounced state that is reported with the need it
carries (Table 11.7, R428), wire-break bands, and the wake strobes of Bezel (R427). Clauses here rest on choices of the
model, not on rules of the spec: log entry 9. -/
def Obligations.FieldInputsAreReported : Prop :=
  (∀ (s : State) (n : Fin 48) (l : Bool) (m : Nat), s.fioIsIn n = false →
    exec (.inputFilteredChange n l) s = .next s ∧ exec (.inputDebounce n) s = .next s ∧
    exec (.wireBreakMeasure n m) s = .next s) ∧
  (∀ (s : State) (n : Fin 48) (l : Bool), s.fioIsIn n = true → s.fioField n 0 4 1 = 0 → s.fioField n 0 8 8 = 0 →
    exec (.inputFilteredChange n l) s = .next (fioReport (s.modFio n (fun c => { c with
      level := l, levelAt := s.clk.ns })) n (if l then 1 else 0))) ∧
  (∀ (s : State) (n : Fin 48) (l : Bool), s.fioIsIn n = true → s.fioField n 0 8 8 ≠ 0 →
    exec (.inputFilteredChange n l) s = .next (s.modFio n (fun c => { c with level := l, levelAt := s.clk.ns }))) ∧
  (∀ (s : State) (n : Fin 48), s.fioIsIn n = true → s.fioField n 0 4 1 = 0 → ∃ u : State,
    u = s.reach ((s.fioCh n).levelAt + s.fioField n 0 8 8 * 1000000) ∧
    exec (.inputDebounce n) s = .next (fioReport u n (if (s.fioCh n).level then 1 else 0))) ∧
  (∀ (s : State) (n : Fin 48), s.fioIsIn n = true → s.fioField n 0 4 1 = 1 → (s.fioCh n).band = 4 → ∃ u : State,
    u = s.reach ((s.fioCh n).bandAt + s.fioField n 0 8 8 * 1000000) ∧
    exec (.inputDebounce n) s = .next (fioReport u n 4)) ∧
  (∀ (s : State) (n : Nat) (x : BitVec 3), (s.fioCh n).inSt = x → fioReport s n x = s) ∧
  (∀ (s : State) (n : Fin 48) (x : BitVec 3), (s.fioCh n).inSt ≠ x → s.fioField n 0 7 1 = 0 →
    s.recField 19 1 0 0 0 2 0 ≠ 2 →
    fioReport s n x = judge (netAll (s.modFio n (fun c => { c with inSt := x })))) ∧
  (∀ (s : State) (n : Fin 48) (x : BitVec 3), (s.fioCh n).inSt ≠ x → s.fioField n 0 7 1 = 1 →
    s.recField 19 1 0 0 0 2 0 ≠ 2 →
    fioReport s n x = judge (netAll (logEvent (s.modFio n (fun c => { c with inSt := x })) 0x0B07 [n.val, x.toNat]))) ∧
  (∀ (s : State) (n : Fin 48) (m : Nat), s.fioIsIn n = true → s.fioField n 0 4 1 = 1 → s.bandsRun = true → m < 150 →
    (s.fioCh n).band ≠ 2 → exec (.wireBreakMeasure n m) s = .next (s.modFio n (fun c => { c with
      meas := BitVec.ofNat 12 (m / 10), band := 2, bandAt := s.clk.ns }))) ∧
  (∀ (s : State) (n : Fin 48) (m : Nat), s.fioIsIn n = true → s.fioField n 0 4 1 = 1 → s.bandsRun = true → m < 150 →
    (s.fioCh n).band = 2 → (s.fioCh n).inSt ≠ 2 → (s.fioCh n).bandAt + 10 * ms ≤ s.clk.ns →
    exec (.wireBreakMeasure n m) s = .next (logEvent (fioReport (s.modFio n (fun c => { c with
      meas := BitVec.ofNat 12 (m / 10), broken := true })) n 2) 0x0B04 [n.val])) ∧
  (∀ (s : State) (n : Fin 16) (l : BitVec 16), s.pwr.mode = .park → s.pwr.entering = false → s.pwr.regsFalling = false →
    s.fio.armed.getLsbD n = true → s.fio.strobed.getLsbD n = true → l.getLsbD n = (s.fioField n 0 6 1 == 1) →
    ∃ t : State, exec (.fioWakeStrobe l) s = .next t ∧ t.pwr.mode = .start ∧ t.pwr.cause = 0x06 ∧
      t.fio.wakeSrc.getLsbD n = true) ∧
  (∀ (s : State) (l : BitVec 16), s.fio.strobed = 0 → s.pwr.mode = .park ∨ s.pwr.mode = .guard →
    exec (.fioWakeStrobe l) s = .next { s with fio.strobed := BitVec.ofNat 16 ((((List.range 16).filter (fun n =>
      s.fio.armed.getLsbD n && l.getLsbD n == (s.fioField n 0 6 1 == 1))).map (fun n => 2 ^ n)).sum) }) ∧
  (∀ (s : State) (l : BitVec 16), s.pwr.mode ≠ .park → s.pwr.mode ≠ .guard → exec (.fioWakeStrobe l) s = .next s)

/-! ## Valve channels and the boost rail -/

/-- VLV_START, VLV_MULTI, VLV_STOP, VLV_CLEAR, VLV_READ and VLV_OFFTEST (R326 to R336, R354 to R361, Tables 8.9 and
8.10): a start is checked, waits for the claim of its bank where its profile has a boost phase, and begins 9.6 µs after
acceptance; BOOST_WAIT_EXPIRY and BANK_IDLE_TIMEOUT (R314, R330). Clauses here rest on choices of the model, not on
rules of the spec: log entries 14, 26, 27, 29, 30, 31, 36. -/
def Obligations.ValveChannelsStartAndStop : Prop :=
  (∀ (s : State) (d : Desc) (ch pr : BitVec 5) (x : BitVec 16), Ready s d (.vlvStart ch pr x) = true →
    startCheck s ch.toNat pr.toNat ≠ stOk → exec (.vlvStart d ch pr x) s = .next (answered
      (taken s d (.vlvStart ch pr x)) d (startCheck s ch.toNat pr.toNat) 0 0 0)) ∧
  (∀ (s : State) (d : Desc) (ch pr : BitVec 5) (x : BitVec 16) (p : Profile), Ready s d (.vlvStart ch pr x) = true →
    startCheck s ch.toNat pr.toNat = stOk →
    p = (s.progOf ch.toNat (vget s.facet.eng (ch.toNat / 4)).active).profile pr.toNat → p.boostEn = false →
    s.paused 2 = false → (s.vlvCh ch.toNat).wait = none → (s.vlvBank (ch.toNat / 4)).claim ≠ some ch.toNat →
    (s.fctx ch.toNat).wait = .idle → ∃ u : State,
      u = beginProfile (taken s d (.vlvStart ch pr x)) ch.toNat {
        act := some (actOf s d (.vlvStart ch pr x)),
        profile := pr, arg := x, instant := s.weave.time.toNat + 9600,
        mark := BitVec.ofNat 64 (s.weave.time.toNat + 9600) } 0 false ∧
      (u.vlvCh ch.toNat).st = .running ∧ (u.vlvCh ch.toNat).profile = pr ∧ (u.vlvBank (ch.toNat / 4)).closed = true ∧
      (u.fctx ch.toNat).wait = .executing ∧ (u.fctx ch.toNat).pc = p.entry ∧ u.greg ch.toNat 0 = x.setWidth 32 ∧
      u.greg ch.toNat 1 = BitVec.ofNat 32 (ch.toNat % 4) ∧ (u.fctx ch.toNat).tmo = 20000 ∧
      (u.fctx ch.toNat).freq = 20 ∧ (u.fctx ch.toNat).mark = BitVec.ofNat 64 (s.weave.time.toNat + 9600) ∧
      exec (.vlvStart d ch pr x) s = .next (complete u d stOk 0 (s.weave.time.toNat + 9600) 0 0)) ∧
  (∀ (s : State) (d : Desc) (ch pr : BitVec 5) (x : BitVec 16) (p : Profile), Ready s d (.vlvStart ch pr x) = true →
    startCheck s ch.toNat pr.toNat = stOk →
    p = (s.progOf ch.toNat (vget s.facet.eng (ch.toNat / 4)).active).profile pr.toNat → p.boostEn = true →
    s.paused 2 = false → (s.vlvCh ch.toNat).wait = none → (s.vlvBank (ch.toNat / 4)).claim = none →
    (s.vlvBank (ch.toNat / 4)).queue = [] → bstReady s = true → ∃ u : State,
      u = beginProfile ((taken s d (.vlvStart ch pr x)).modBank (ch.toNat / 4)
        (fun b => { b with claim := some ch.toNat })) ch.toNat {
        act := some (actOf s d (.vlvStart ch pr x)),
        profile := pr, arg := x, instant := s.weave.time.toNat + 9600,
        mark := BitVec.ofNat 64 (s.weave.time.toNat + 9600) } 0 false ∧
      (u.vlvCh ch.toNat).st = .running ∧ (u.vlvBank (ch.toNat / 4)).claim = some ch.toNat ∧
      exec (.vlvStart d ch pr x) s = .next (complete u d stOk 0 (s.weave.time.toNat + 9600) 0 0)) ∧
  (∀ (s : State) (d : Desc) (ch pr : BitVec 5) (x : BitVec 16) (p : Profile), Ready s d (.vlvStart ch pr x) = true →
    startCheck s ch.toNat pr.toNat = stOk →
    p = (s.progOf ch.toNat (vget s.facet.eng (ch.toNat / 4)).active).profile pr.toNat → p.boostEn = true →
    p.fallback = false → s.paused 2 = false → (s.vlvCh ch.toNat).wait = none →
    (s.vlvBank (ch.toNat / 4)).claim = none → (s.vlvBank (ch.toNat / 4)).queue = [] → bstReady s = false →
    ∃ u : State, u = (logEvent ((taken s d (.vlvStart ch pr x)).modVlv ch.toNat (fun c => { c with bnr := true })) 0x0707
      [ch.toNat, s.vlv.bst.toNat]).modVlv ch.toNat (fun c => { c with wait := none }) ∧
      exec (.vlvStart d ch pr x) s = .next (answered u d stBoostNotReady 0 0 0)) ∧
  (∀ (s : State) (d : Desc) (ch pr : BitVec 5) (x : BitVec 16) (p : Profile) (n : Nat),
    Ready s d (.vlvStart ch pr x) = true → startCheck s ch.toNat pr.toNat = stOk →
    p = (s.progOf ch.toNat (vget s.facet.eng (ch.toNat / 4)).active).profile pr.toNat → p.boostEn = true →
    s.paused 2 = false → (s.vlvCh ch.toNat).wait = none → (s.vlvBank (ch.toNat / 4)).claim = some n → n ≠ ch.toNat →
    deferMax s ≠ 0 → ∃ t : State, exec (.vlvStart d ch pr x) s = .next t ∧
      (t.vlvCh ch.toNat).wait = some {
        start := some {
        act := some (actOf s d (.vlvStart ch pr x)),
        profile := pr, arg := x, instant := s.weave.time.toNat + 9600,
        mark := BitVec.ofNat 64 (s.weave.time.toNat + 9600) }, since := s.clk.ns,
        deadline := s.clk.ns + deferMax s * 1000 } ∧
      (t.vlvBank (ch.toNat / 4)).claim = some n ∧
      (t.vlvBank (ch.toNat / 4)).queue = (s.vlvBank (ch.toNat / 4)).queue ++ [ch.toNat] ∧
      t.rings = (taken s d (.vlvStart ch pr x)).rings) ∧
  (∀ (s : State) (d : Desc) (m : BitVec 32) (pr : BitVec 5) (x : BitVec 16) (n : Nat),
    Ready s d (.vlvMulti m pr x) = true → maskList m = [n] → s.vlv.multis = [] → startCheck s n pr.toNat ≠ stOk →
    exec (.vlvMulti d m pr x) s = .next (answered (taken s d (.vlvMulti m pr x)) d (startCheck s n pr.toNat) n 0 0)) ∧
  (∀ (s : State) (d : Desc) (m : BitVec 32) (pr : BitVec 5) (x : BitVec 16) (n : Nat) (p : Profile),
    Ready s d (.vlvMulti m pr x) = true → maskList m = [n] → s.vlv.multis = [] → startCheck s n pr.toNat = stOk →
    p = (s.progOf n (vget s.facet.eng (n / 4)).active).profile pr.toNat → p.boostEn = false → s.paused 2 = false →
    (s.vlvCh n).wait = none → (s.vlvBank (n / 4)).claim ≠ some n → ∃ u : State,
      u = beginProfile (taken s d (.vlvMulti m pr x)) n {
        act := some (actOf s d (.vlvMulti m pr x)), multi := true,
        profile := pr, arg := x, instant := s.weave.time.toNat + 9600,
        mark := BitVec.ofNat 64 (s.weave.time.toNat + 9600) } 0 false ∧ (u.vlvCh n).st = .running ∧
      exec (.vlvMulti d m pr x) s = .next (complete u d stOk 0 (s.weave.time.toNat + 9600) (2 ^ n) 0)) ∧
  (∀ (s : State) (d : Desc) (ch : BitVec 5), Ready s d (.vlvStop ch) = true → s.vlvBarred ch.toNat = false →
    (s.vlvCh ch.toNat).wait = none → s.vlvActive ch.toNat = true → (s.runProfile ch.toNat).quenchEn = false →
    (s.vlvBank (ch.toNat / 4)).claim ≠ some ch.toNat → exec (.vlvStop d ch) s = .next (answered
      (((taken s d (.vlvStop ch)).modVlv ch.toNat (fun c => { c with resume := none })).modCtx ch.toNat (fun c => { c with
        target := 0, decay := 1, wait := .ending, run := 0, settled := false })) d stOk 0 0 0)) ∧
  (∀ (s : State) (d : Desc) (ch : BitVec 5), Ready s d (.vlvStop ch) = true → s.vlvBarred ch.toNat = false →
    (s.vlvCh ch.toNat).wait = none → s.vlvActive ch.toNat = true → (s.runProfile ch.toNat).quenchEn = true →
    (s.vlvBank (ch.toNat / 4)).claim ≠ some ch.toNat → exec (.vlvStop d ch) s = .next (answered
      (((taken s d (.vlvStop ch)).modVlv ch.toNat (fun c => { c with resume := none })).modCtx ch.toNat (fun c => { c with
        pc := (s.runProfile ch.toNat).quench, wait := .executing, run := 0, settled := false })) d stOk 0 0 0)) ∧
  (∀ (s : State) (d : Desc) (ch : BitVec 5) (b : BitVec 1), Ready s d (.vlvClear ch b) = true →
    s.vlvBarred ch.toNat = false → (s.vlvCh ch.toNat).st = .latched → ∃ u : State,
      u = (taken s d (.vlvClear ch b)).modVlv ch.toNat (fun c => { c with ocAt := none, st := .inactive }) ∧
      exec (.vlvClear d ch b) s = .next (answered (if b = 1 then u.modBank (ch.toNat / 4)
        (fun b => { b with latched := false, ocAt := none }) else u) d stOk 0 0 0)) ∧
  (∀ (s : State) (d : Desc) (ch : BitVec 5), Ready s d (.vlvRead ch) = true → s.vlvBarred ch.toNat = false →
    exec (.vlvRead d ch) s = .next (answered (taken s d (.vlvRead ch)) d stOk 0 (vlvCur s ch.toNat
      + 2 ^ 16 * vlvState s ch.toNat + 2 ^ 20 * (s.vlvCh ch.toNat).profile.toNat
      + 2 ^ 25 * (s.fctx ch.toNat).phase.toNat) (vlvFlags s ch.toNat))) ∧
  (∀ (s : State) (d : Desc) (ch : BitVec 5), Ready s d (.vlvOfftest ch) = true → s.vlvBarred ch.toNat = false →
    s.vlvTestable ch.toNat = true → (s.vlvCh ch.toNat).test = none → exec (.vlvOfftest d ch) s = .next
      ((taken s d (.vlvOfftest ch)).modVlv ch.toNat (fun c => { c with
        test := some (some (actOf s d (.vlvOfftest ch))) }))) ∧
  (∀ (s : State) (d : Desc) (ch : BitVec 5), s.vlvBarred ch.toNat = true → Ready s d (.vlvStop ch) = true →
    exec (.vlvStop d ch) s = .next (answered (taken s d (.vlvStop ch)) d stRefusedState 0 0 0)) ∧
  (∀ (s : State) (d : Desc) (ch : BitVec 5) (b : BitVec 1), s.vlvBarred ch.toNat = true →
    Ready s d (.vlvClear ch b) = true →
    exec (.vlvClear d ch b) s = .next (answered (taken s d (.vlvClear ch b)) d stRefusedState 0 0 0)) ∧
  (∀ (s : State) (d : Desc) (ch : BitVec 5), s.vlvBarred ch.toNat = true → Ready s d (.vlvRead ch) = true →
    exec (.vlvRead d ch) s = .next (answered (taken s d (.vlvRead ch)) d stRefusedState 0 0 0)) ∧
  (∀ (s : State) (d : Desc) (ch : BitVec 5), s.vlvBarred ch.toNat = true → Ready s d (.vlvOfftest ch) = true →
    exec (.vlvOfftest d ch) s = .next (answered (taken s d (.vlvOfftest ch)) d stRefusedState 0 0 0)) ∧
  (∀ (s : State) (ch : Fin 32), (s.vlvCh ch).wait = none → exec (.boostWaitExpiry ch) s = .next s) ∧
  (∀ (s : State) (ch : Fin 32) (w : VWait) (x : VStart) (a : Act), (s.vlvCh ch).wait = some w → w.start = some x →
    x.act = some a → x.multi = false →
    ((s.progOf ch (vget s.facet.eng (ch / 4)).active).profile x.profile.toNat).fallback = false → ∃ u : State,
      u = logEvent (((s.reach w.deadline).modVlv ch (fun c => { c with wait := none, deferOut := true })).modBank (ch / 4)
        (fun b => { b with queue := b.queue.filter (· != ch.val) })) 0x0708 [ch.val, 0] ∧
      exec (.boostWaitExpiry ch) s = .next (refuse u a stBankBusy)) ∧
  (∀ (s : State) (ch : Fin 32) (w : VWait) (x : VStart) (a : Act), (s.vlvCh ch).wait = some w → w.start = some x →
    x.act = some a → x.multi = false →
    ((s.progOf ch (vget s.facet.eng (ch / 4)).active).profile x.profile.toNat).fallback = true → ∃ (k : Nat) (u : State),
      k = ((s.reach w.deadline).clk.ns - w.since) / 1000 ∧
      u = logEvent (((s.reach w.deadline).modVlv ch (fun c => { c with wait := none, deferOut := true })).modBank (ch / 4)
        (fun b => { b with queue := b.queue.filter (· != ch.val) })) 0x0708 [ch.val, 1] ∧
      exec (.boostWaitExpiry ch) s = .next (complete (beginProfile u ch x k true) a.d (if a.late then stLate else stOk) 1
        (max x.instant u.weave.time.toNat) k 0)) ∧
  (∀ (s : State) (b : Fin 8), (s.vlvBank b).closed = true →
    (∀ n ∈ bankChans b, s.vlvActive n = false ∧ (s.vlvCh n).heldI = 0) → exec (.bankIdleTimeout b) s = .next
      ((s.reach ((s.vlvBank b).idleAt + 1000000)).modBank b (fun b => { b with closed := false }))) ∧
  (∀ (s : State) (b : Fin 8) (n : Nat), n ∈ bankChans b → s.vlvActive n = true →
    exec (.bankIdleTimeout b) s = .next s)

/-- The boost rail and the faults of channels, banks and the die (R319, R321, R335, Tables 8.5 and 8.11). Clauses here
rest on choices of the model, not on rules of the spec: log entries 28, 37. -/
def Obligations.BoostRailAndValveFaults : Prop :=
  (∀ (s : State), s.converterOn = true → exec .bstReverseStart s = .next { s with vlv.reverse := true }) ∧
  (∀ (s : State), s.converterOn = false → exec .bstReverseStart s = .next s) ∧
  (∀ (s : State), exec .bstReverseEnd s = .next { s with vlv.reverse := false }) ∧
  (∀ (s : State), s.isOn .act = true → exec .bstOvervoltage s = .next (logEvent { s with
    vlv.ov := true, vlv.slowAll := true } 0x070B [s.vlv.bst.toNat])) ∧
  (∀ (s : State), s.isOn .act = false → exec .bstOvervoltage s = .next s) ∧
  (∀ (s : State) (c e : BitVec 12), bstEnabled s = true → s.isOn .act = true → 250 ≤ c.toNat → c.toNat ≤ 3000 →
    e.toNat ≤ 1000 → exec (.bstCapCheck c e) s = .next { s with
      vlv.cEst := c, vlv.esrEst := e, vlv.capFault := false }) ∧
  (∀ (s : State) (c e : BitVec 12), bstEnabled s = true → s.isOn .act = true →
    c.toNat < 250 ∨ 3000 < c.toNat ∨ 1000 < e.toNat → exec (.bstCapCheck c e) s = .next (logEvent { s with
      vlv.cEst := c, vlv.esrEst := e, vlv.capFault := true } 0x070C [c.toNat, e.toNat])) ∧
  (∀ (s : State) (c e : BitVec 12), bstEnabled s = false → exec (.bstCapCheck c e) s = .next s) ∧
  (∀ (s : State) (ch : Fin 32), s.vlvActive ch = false → (s.vlvCh ch).heldI = 0 →
    exec (.valveChannelOvercurrent ch) s = .next s) ∧
  (∀ (s : State) (ch : Fin 32), s.vlvActive ch = true → (s.vlvCh ch).ocAt = none →
    exec (.valveChannelOvercurrent ch) s = .next (endNow (vlvEvent (s.modVlv ch (fun c => { c with
      oc := true, ocAt := some s.clk.ns })) 0x0701 ch) ch .inactive stFaultChannel)) ∧
  (∀ (s : State) (ch : Fin 32) (x : Nat), s.vlvActive ch = true → (s.vlvCh ch).ocAt = some x → s.clk.ns ≤ x + sec →
    exec (.valveChannelOvercurrent ch) s = .next (endNow (vlvEvent (s.modVlv ch (fun c => { c with
      oc := true, ocAt := some s.clk.ns })) 0x0701 ch) ch .latched stFaultChannel)) ∧
  (∀ (s : State) (ch : Fin 32) (st : VlvSt) (x : Nat), (s.vlvCh ch).wait = none →
    (s.vlvBank (ch / 4)).claim ≠ some ch.val → ∃ t : State, t = endNow s ch st x ∧ (t.vlvCh ch).st = st ∧
      (t.fctx ch).wait = .idle ∧ (t.fctx ch).target = 0 ∧ (t.vlvBank (ch / 4)).idleAt = s.clk.ns) ∧
  (∀ (s : State) (b : Fin 8), (s.vlvBank b).closed = false → exec (.bankOvercurrent b) s = .next s ∧
    exec (.bankCurrentMismatch b) s = .next s) ∧
  (∀ (s : State) (b : Fin 8), (s.vlvBank b).closed = true → (s.vlvBank b).ocAt = none → ∃ t : State,
    exec (.bankOvercurrent b) s = .next t ∧ t = bankFault s b false 0x0702 ∧ (t.vlvBank b).closed = false ∧
    (t.vlvBank b).claim = none ∧ (t.vlvBank b).queue = []) ∧
  (∀ (s : State) (b : Fin 8) (x : Nat), (s.vlvBank b).closed = true → (s.vlvBank b).ocAt = some x → s.clk.ns ≤ x + sec →
    ∃ t : State, exec (.bankOvercurrent b) s = .next t ∧ t = bankFault s b true 0x0702 ∧
      (t.vlvBank b).closed = false ∧ (t.vlvBank b).latched = true) ∧
  (∀ (s : State) (b : Fin 8), (s.vlvBank b).closed = true → ∃ t : State, exec (.bankCurrentMismatch b) s = .next t ∧
    t = bankFault s b true 0x0703 ∧ (t.vlvBank b).closed = false ∧ (t.vlvBank b).latched = true) ∧
  (∀ (s : State) (ch : Fin 32), s.vlvField ch 1 0 10 ≠ 0 → s.vlvActive ch = true → 9000 ≤ (vget s.hso.vfeed 2).toNat →
    exec (.openCoilOn ch) s = .next (endNow (vlvEvent (s.modVlv ch (fun c => { c with openOn := true })) 0x0704 ch) ch
      .inactive stFaultChannel)) ∧
  (∀ (s : State) (ch : Fin 32), s.vlvField ch 1 0 10 = 0 ∨ s.vlvActive ch = false →
    exec (.openCoilOn ch) s = .next s) ∧
  (∀ (s : State) (ch : Fin 32), s.isOn .act = true → s.vlvField ch 1 10 1 = 1 → s.vlvTestable ch = true →
    (s.vlvCh ch).test = none →
    exec (.valveOffTest ch) s = .next (s.modVlv ch (fun c => { c with test := some none }))) ∧
  (∀ (s : State) (ch : Fin 32), s.vlvTestable ch = false → exec (.valveOffTest ch) s = .next s) ∧
  (∀ (s : State) (ch : Fin 32) (mv : BitVec 16), (s.vlvCh ch).test = none →
    exec (.valveOffTestResult ch mv) s = .next s) ∧
  (∀ (s : State) (ch : Fin 32) (mv : BitVec 16) (a : Act), (s.vlvCh ch).test = some (some a) → s.vlvActive ch = false →
    (s.vlvCh ch).st = .inactive → mv.toNat ≤ 2000 → exec (.valveOffTestResult ch mv) s = .next (finish
      (s.modVlv ch (fun c => { c with test := none, openOff := false, stbClean := true })) a)) ∧
  (∀ (s : State) (ch : Fin 32) (mv : BitVec 16) (a : Act), (s.vlvCh ch).test = some (some a) → s.vlvActive ch = true →
    exec (.valveOffTestResult ch mv) s = .next (refuse (s.modVlv ch (fun c => { c with test := none })) a
      stRefusedState)) ∧
  (∀ (s : State) (ch : Fin 32) (mv : BitVec 16), (s.vlvCh ch).test = some none → s.vlvActive ch = false →
    (s.vlvCh ch).st = .inactive → 2000 < mv.toNat → mv.toNat ≤ 6000 → ∃ u : State,
      u = s.modVlv ch (fun c => { c with test := none, openOff := true }) ∧
      exec (.valveOffTestResult ch mv) s = .next (if (s.vlvCh ch).openOff then u else vlvEvent u 0x0705 ch)) ∧
  (∀ (s : State) (ch : Fin 32) (mv : BitVec 16), (s.vlvCh ch).test = some none → s.vlvActive ch = false →
    (s.vlvCh ch).st = .inactive → 6000 < mv.toNat → exec (.valveOffTestResult ch mv) s = .next (vlvEvent
      (s.modVlv ch (fun c => { c with
        test := none, openOff := false, stb := true, stbClean := false,
        stbCleared := false, st := .stb })) 0x0706 ch)) ∧
  (∀ (s : State), s.vlv.hot = true → exec .valveDieOt s = .next s) ∧
  (∀ (s : State), s.vlv.hot = false → exec .valveDieOt s = .next ((List.range 8).foldl
    (fun s b => bankOff s b stFaultChannel) (logEvent { s with vlv.hot := true } 0x070D []))) ∧
  (∀ (s : State) (b : Fin 8) (x : Nat), ((bankOff s b x).vlvBank b).closed = false ∧
    ((bankOff s b x).vlvBank b).claim = none ∧ ((bankOff s b x).vlvBank b).queue = []) ∧
  (∀ (s : State), exec .valveDieOtClear s = .next { s with vlv.hot := false })

/-! ## Facet -/

/-- Facet instructions that compute (R349 to R353, R365, Tables 9.5 to 9.7): in its slot an executing context carries
out the instruction at its PC, which moves on by one; a command that names another instruction has no effect. Clauses
here rest on choices of the model, not on rules of the spec: log entry 32. -/
def Obligations.FacetInstructionsCompute : Prop :=
  (∀ (s : State) (ch : Fin 32), (s.fctx ch).wait = .executing → (s.vlvCh ch).wait = none → (s.fctx ch).run < 256 →
    s.isOn .act = true → nextOp s ch = facetDecode ((s.progOf ch (s.fctx ch).bank).word (s.fctx ch).pc.toNat)) ∧
  (∀ (s : State) (ch : Fin 32), (s.fctx ch).wait ≠ .executing ∨ (s.vlvCh ch).wait ≠ none ∨ 256 ≤ (s.fctx ch).run ∨
    s.isOn .act = false → nextOp s ch = none) ∧
  (∀ (s : State) (ch : Fin 32), ((slotDone s ch).fctx ch).pc = (s.fctx ch).pc + 1 ∧
    ((slotDone s ch).fctx ch).run = (s.fctx ch).run + 1 ∧ ((slotDone s ch).fctx ch).g = (s.fctx ch).g ∧
    ((slotDone s ch).fctx ch).wait = (s.fctx ch).wait) ∧
  (∀ (s : State) (ch : Fin 32) (a b : Nat) (v : BitVec 32), a < 16 → b < 16 → b ≠ a →
    (setG s ch a v).greg ch b = s.greg ch b) ∧
  (∀ (s : State) (ch m : Fin 32) (a : Nat) (v : BitVec 32), a < 16 → m ≠ ch → (setG s ch a v).fctx m = s.fctx m) ∧
  (∀ (s : State) (ch : Fin 32) (a : Nat) (v : BitVec 32), a < 16 → (setG s ch a v).greg ch a = v) ∧
  (∀ (s : State) (ch : Fin 32), nextOp s ch = some .nop → exec (.facetNop ch) s = .next (slotDone s ch)) ∧
  (∀ (s : State) (ch : Fin 32) (a : Nat) (k : BitVec 32), nextOp s ch = some (.movi a k) →
    exec (.movi ch) s = .next (slotDone (setG s ch a k) ch)) ∧
  (∀ (s : State) (ch : Fin 32) (a b : Nat), nextOp s ch = some (.mov a b) →
    exec (.mov ch) s = .next (slotDone (setG s ch a (s.greg ch b)) ch)) ∧
  (∀ (s : State) (ch : Fin 32) (a b : Nat), nextOp s ch = some (.add a b) →
    exec (.add ch) s = .next (slotDone (setG s ch a (s.greg ch a + s.greg ch b)) ch)) ∧
  (∀ (s : State) (ch : Fin 32) (a : Nat) (k : BitVec 32), nextOp s ch = some (.addi a k) →
    exec (.addi ch) s = .next (slotDone (setG s ch a (s.greg ch a + k)) ch)) ∧
  (∀ (s : State) (ch : Fin 32) (a b : Nat), nextOp s ch = some (.sub a b) →
    exec (.sub ch) s = .next (slotDone (setG s ch a (s.greg ch a - s.greg ch b)) ch)) ∧
  (∀ (s : State) (ch : Fin 32) (a n : Nat), nextOp s ch = some (.shf a n false) →
    exec (.shf ch) s = .next (slotDone (setG s ch a (s.greg ch a <<< n)) ch)) ∧
  (∀ (s : State) (ch : Fin 32) (a n : Nat), nextOp s ch = some (.shf a n true) →
    exec (.shf ch) s = .next (slotDone (setG s ch a ((s.greg ch a).sshiftRight n)) ch)) ∧
  (∀ (s : State) (ch : Fin 32) (a x : Nat), nextOp s ch = some (.ldc a x) → exec (.ldc ch) s = .next
    (slotDone (setG s ch a (BitVec.ofNat 32 ((s.progOf ch (s.fctx ch).bank).word x))) ch)) ∧
  (∀ (s : State) (ch : Fin 32) (a x : Nat) (m : BitVec 32), nextOp s ch = some (.rd a x) →
    exec (.rd ch m) s = .next (slotDone (setG s ch a (rdSource s ch x m)) ch)) ∧
  (∀ (s : State) (ch : Fin 32) (m : BitVec 32), rdSource s ch 0 m = m ∧ rdSource s ch 1 m = m ∧
    rdSource s ch 2 m = (s.fctx ch).target.setWidth 32 ∧ rdSource s ch 3 m = s.vlv.bst.setWidth 32 ∧
    rdSource s ch 4 m = m ∧
    rdSource s ch 5 m = BitVec.ofNat 32 (min 0xFFFFFFFF ((s.clk.ns - (s.fctx ch).startAt) / 1000)) ∧
    rdSource s ch 6 m = BitVec.ofNat 32 (min 0xFFFFFFFF ((s.clk.ns - (s.fctx ch).phaseAt) / 1000)) ∧
    rdSource s ch 7 m = s.weave.time.setWidth 32 ∧ rdSource s ch 8 m = BitVec.ofNat 32 (s.fctx ch).deferUs) ∧
  (∀ (s : State) (ch : Fin 32) (a b c : Nat) (x : BitVec 10), nextOp s ch = some (.br a b c x) →
    brTaken s ch a b c = true →
    exec (.br ch) s = .next ((slotDone s ch).modCtx ch (fun c => { c with pc := x }))) ∧
  (∀ (s : State) (ch : Fin 32) (a b c : Nat) (x : BitVec 10), nextOp s ch = some (.br a b c x) →
    brTaken s ch a b c = false → exec (.br ch) s = .next (slotDone s ch)) ∧
  (∀ (s : State) (ch : Fin 32) (a b : Nat), brTaken s ch a b 0 = true ∧
    (brTaken s ch a b 1 = true ↔ s.greg ch a = s.greg ch b) ∧ (brTaken s ch a b 2 = true ↔ s.greg ch a ≠ s.greg ch b) ∧
    (brTaken s ch a b 3 = true ↔ (s.greg ch a).toInt < (s.greg ch b).toInt) ∧
    (brTaken s ch a b 4 = true ↔ (s.greg ch b).toInt ≤ (s.greg ch a).toInt) ∧
    brTaken s ch a b 5 = (s.fctx ch).timedOut ∧ brTaken s ch a b 6 = !(s.fctx ch).timedOut) ∧
  (∀ (s : State) (ch : Fin 32) (m : BitVec 32), nextOp s ch = none → exec (.facetNop ch) s = .next s ∧
    exec (.movi ch) s = .next s ∧ exec (.mov ch) s = .next s ∧ exec (.add ch) s = .next s ∧
    exec (.addi ch) s = .next s ∧ exec (.sub ch) s = .next s ∧ exec (.shf ch) s = .next s ∧
    exec (.ldc ch) s = .next s ∧ exec (.rd ch m) s = .next s ∧ exec (.br ch) s = .next s)

/-- Facet instructions that set the target and the phase (R354, R355, R358, R359), the waits and their ends (R353, R364 to R366). -/
def Obligations.FacetDrivesAndWaits : Prop :=
  (∀ (s : State) (ch : Fin 32) (ph : Nat) (dc : BitVec 2) (mx : BitVec 4), nextOp s ch = some (.phase ph dc mx) →
    2 ≤ ph → ph ≤ 5 → (s.vlvBank (ch / 4)).claim ≠ some ch.val →
    exec (.phase ch) s = .next (((slotDone s ch).modCtx ch (fun c => { c with
      phase := BitVec.ofNat 3 ph, decay := dc, mix := mx, phaseAt := s.clk.ns, settled := false })).modVlv ch
      (fun c => { c with noClaim := false }))) ∧
  (∀ (s : State) (ch : Fin 32) (ph : Nat) (dc : BitVec 2) (mx : BitVec 4), nextOp s ch = some (.phase ph dc mx) →
    2 ≤ ph → ph ≤ 5 → (s.vlvBank (ch / 4)).claim = some ch.val → (s.vlvBank (ch / 4)).queue = [] →
    exec (.phase ch) s = .next ((((slotDone s ch).modCtx ch (fun c => { c with
      phase := BitVec.ofNat 3 ph, decay := dc, mix := mx, phaseAt := s.clk.ns, settled := false })).modVlv ch
      (fun c => { c with noClaim := false })).modBank (ch / 4) (fun b => { b with claim := none }))) ∧
  (∀ (s : State) (ch : Fin 32) (dc : BitVec 2) (mx : BitVec 4), nextOp s ch = some (.phase 1 dc mx) →
    (s.fctx ch).settled = true → exec (.phase ch) s = .next ((slotDone s ch).modCtx ch (fun c => { c with
      phase := 1, decay := dc, mix := mx, phaseAt := s.clk.ns, settled := false }))) ∧
  (∀ (s : State) (ch : Fin 32) (dc : BitVec 2) (mx : BitVec 4), nextOp s ch = some (.phase 1 dc mx) →
    (s.fctx ch).settled = false → (s.vlvBank (ch / 4)).claim = none → (s.vlvBank (ch / 4)).queue = [] →
    bstReady s = true → ∃ t : State, exec (.phase ch) s = .next t ∧ (t.vlvBank (ch / 4)).claim = some ch.val ∧
      (t.fctx ch).wait = .executing ∧ (t.fctx ch).phase = 1 ∧ (t.fctx ch).pc = (s.fctx ch).pc + 1 ∧
      (t.fctx ch).decay = dc ∧ (t.fctx ch).mix = mx ∧ (t.vlvCh ch).noClaim = false) ∧
  (∀ (s : State) (ch : Fin 32) (dc : BitVec 2) (mx : BitVec 4) (n : Nat), nextOp s ch = some (.phase 1 dc mx) →
    (s.fctx ch).settled = false → (s.vlvBank (ch / 4)).claim = some n → n ≠ ch.val → deferMax s ≠ 0 → ∃ t : State,
      exec (.phase ch) s = .next t ∧ (t.fctx ch).wait = .claim ∧ (t.fctx ch).pc = (s.fctx ch).pc + 1 ∧
      (t.vlvCh ch).wait = some { since := s.clk.ns, deadline := s.clk.ns + deferMax s * 1000 } ∧
      (t.vlvBank (ch / 4)).queue = (s.vlvBank (ch / 4)).queue ++ [ch.val]) ∧
  (∀ (s : State) (ch : Fin 32) (i : Nat), nextOp s ch = some (.seti i) →
    exec (.seti ch) s = .next (slotDone (setTarget s ch i) ch)) ∧
  (∀ (s : State) (ch : Fin 32) (a : Nat), nextOp s ch = some (.setr a) →
    exec (.setr ch) s = .next (slotDone (setTarget s ch (s.greg ch a).toInt.toNat) ch)) ∧
  (∀ (s : State) (ch : Fin 32) (x : Nat), (s.fctx ch).peak = false →
    (((setTarget s ch x).fctx ch).target).toNat = min x (min (10 * s.vlvField ch 0 16 16) 10000)) ∧
  (∀ (s : State) (ch : Fin 32) (x : Nat), (s.fctx ch).peak = true →
    (((setTarget s ch x).fctx ch).target).toNat = min x (min (10 * s.vlvField ch 0 16 16) 3000)) ∧
  (∀ (s : State) (ch : Fin 32) (k : BitVec 7), nextOp s ch = some (.freq k) →
    exec (.freq ch) s = .next (slotDone (s.modCtx ch (fun c => { c with freq := k })) ch)) ∧
  (∀ (s : State) (ch : Fin 32) (k : BitVec 7), nextOp s ch = some (.slopew k) →
    exec (.slopew ch) s = .next (slotDone (s.modCtx ch (fun c => { c with swin := k })) ch)) ∧
  (∀ (s : State) (ch : Fin 32) (k : BitVec 22), nextOp s ch = some (.tmo k) →
    exec (.tmo ch) s = .next (slotDone (s.modCtx ch (fun c => { c with tmo := k })) ch)) ∧
  (∀ (s : State) (ch : Fin 32) (k : Nat), nextOp s ch = some (.wadd k) → exec (.wadd ch) s = .next
    (slotDone (s.modCtx ch (fun c => { c with mark := c.mark + BitVec.ofNat 64 (k * 1000) })) ch)) ∧
  (∀ (s : State) (ch : Fin 32) (a : Nat), nextOp s ch = some (.waddr a) → exec (.waddr ch) s = .next
    (slotDone (s.modCtx ch (fun c => { c with mark := c.mark + BitVec.ofNat 64 ((s.greg ch a).toNat * 1000) })) ch)) ∧
  (∀ (s : State) (ch : Fin 32) (w : FWait), ((slotWait s ch w).fctx ch).wait = w ∧
    ((slotWait s ch w).fctx ch).run = 0 ∧ ((slotWait s ch w).fctx ch).pc = (s.fctx ch).pc + 1) ∧
  (∀ (s : State) (ch : Fin 32) (k : Nat), nextOp s ch = some (.wait k) →
    exec (.wait ch) s = .next (slotWait s ch (.time (s.clk.ns + k * 1000)))) ∧
  (∀ (s : State) (ch : Fin 32) (a : Nat), nextOp s ch = some (.waitr a) → exec (.waitr ch) s = .next
    (slotWait s ch (.time (s.clk.ns + min 4194303 (s.greg ch a).toNat * 1000)))) ∧
  (∀ (s : State) (ch : Fin 32), nextOp s ch = some .waitw → exec (.waitw ch) s = .next (slotWait (addShot s
    { pair := 2, slot := slotOf (s.fctx ch).mark.toNat, rising := true, weight := s.valveW }) ch .weave)) ∧
  (∀ (s : State) (ch : Fin 32) (i n : Nat) (b : Bool) (a : Nat), nextOp s ch = some (.waitc i n b false a) →
    exec (.waitc ch) s = .next (slotWait s ch (.current (s.clk.ns + (s.fctx ch).tmo.toNat * 1000) i (n + 1) b))) ∧
  (∀ (s : State) (ch : Fin 32) (i n : Nat) (b : Bool) (a : Nat), nextOp s ch = some (.waits i n b false a) →
    exec (.waits ch) s = .next (slotWait s ch (.slope (s.clk.ns + (s.fctx ch).tmo.toNat * 1000) (signed 14 i)
      (n + 1) b))) ∧
  (∀ (s : State) (ch : Fin 32) (i n : Nat) (b : Bool) (a : Nat), nextOp s ch = some (.waitc i n b true a) →
    exec (.waitc ch) s = .next (slotWait s ch (.current (s.clk.ns + (s.fctx ch).tmo.toNat * 1000)
      (s.greg ch a).toInt (n + 1) b))) ∧
  (∀ (s : State) (ch : Fin 32) (i n : Nat) (b : Bool) (a : Nat), nextOp s ch = some (.waits i n b true a) →
    exec (.waits ch) s = .next (slotWait s ch (.slope (s.clk.ns + (s.fctx ch).tmo.toNat * 1000)
      (s.greg ch a).toInt (n + 1) b))) ∧
  (∀ (s : State) (ch : Fin 32) (x : Nat), (s.fctx ch).wait = .time x →
    exec (.timeWaitEnd ch) s = .next ((s.reach x).modCtx ch (fun c => { c with wait := .executing }))) ∧
  (∀ (s : State) (ch : Fin 32), (s.fctx ch).wait = .weave → exec (.weaveWaitEnd ch) s = .next
    ((s.reachWeave (s.fctx ch).mark).modCtx ch (fun c => { c with wait := .executing }))) ∧
  (∀ (s : State) (ch : Fin 32) (x : Nat) (y : Int) (n : Nat) (b : Bool) (l : List Int),
    (s.fctx ch).wait = .current x y n b ∨ (s.fctx ch).wait = .slope x y n b → samplesMeet l y n b = true →
    exec (.conditionWaitMet ch l) s = .next (s.modCtx ch (fun c => { c with wait := .executing, timedOut := false }))) ∧
  (∀ (s : State) (ch : Fin 32) (x : Nat) (y : Int) (n : Nat) (b : Bool) (l : List Int),
    (s.fctx ch).wait = .current x y n b ∨ (s.fctx ch).wait = .slope x y n b → samplesMeet l y n b = false →
    exec (.conditionWaitMet ch l) s = .next s) ∧
  (∀ (l : List Int) (y : Int) (n : Nat), (samplesMeet l y n false = true ↔ l.length = n ∧ ∀ x ∈ l, y ≤ x) ∧
    (samplesMeet l y n true = true ↔ l.length = n ∧ ∀ x ∈ l, x ≤ y)) ∧
  (∀ (s : State) (ch : Fin 32) (x : Nat) (y : Int) (n : Nat) (b : Bool),
    (s.fctx ch).wait = .current x y n b ∨ (s.fctx ch).wait = .slope x y n b → exec (.conditionWaitTimeout ch) s = .next
      ((s.reach x).modCtx ch (fun c => { c with wait := .executing, timedOut := true }))) ∧
  (∀ (s : State) (ch : Fin 32) (l : List Int), (s.fctx ch).wait = .idle → exec (.timeWaitEnd ch) s = .next s ∧
    exec (.weaveWaitEnd ch) s = .next s ∧ exec (.conditionWaitMet ch l) s = .next s ∧
    exec (.conditionWaitTimeout ch) s = .next s ∧ exec (.phase ch) s = .next s ∧ exec (.seti ch) s = .next s ∧
    exec (.setr ch) s = .next s ∧ exec (.wait ch) s = .next s ∧ exec (.waitr ch) s = .next s ∧
    exec (.waitw ch) s = .next s ∧ exec (.waitc ch) s = .next s ∧ exec (.waits ch) s = .next s)

/-- FAULT, REPT and END, the ends of contexts, engine faults, the program check, and the descriptors of FACET (R355,
R361, R362, R366 to R373, Tables 9.8 to 9.10 and 9.17). Clauses here rest on choices of the model, not on rules of the
spec: log entries 33, 34, 35. -/
def Obligations.FacetFaultsAndPrograms : Prop :=
  (∀ (s : State) (ch : Fin 32) (c : BitVec 8), nextOp s ch = some (.fault 1 0 c) → exec (.faultOp ch) s = .next
    (vlvEvent ((slotDone s ch).modVlv ch (fun c => { c with pullin := true })) 0x0709 ch)) ∧
  (∀ (s : State) (ch : Fin 32) (c : BitVec 8), nextOp s ch = some (.fault 2 0 c) → exec (.faultOp ch) s = .next
    (vlvEvent ((slotDone s ch).modVlv ch (fun c => { c with noMove := true })) 0x070A ch)) ∧
  (∀ (s : State) (ch : Fin 32) (c : BitVec 8), nextOp s ch = some (.fault 0 2 c) →
    (s.vlvBank (ch / 4)).claim ≠ some ch.val → exec (.faultOp ch) s = .next
      ((logEvent ((slotDone s ch).modCtx ch (fun x => { x with user := true, userCode := c })) 0x0807
        [ch.val, c.toNat]).modCtx ch (fun x => { x with
          target := 0, decay := 1, wait := .ending, run := 0, settled := false }))) ∧
  (∀ (s : State) (ch : Fin 32) (c : BitVec 8), nextOp s ch = some (.fault 0 1 c) → exec (.faultOp ch) s = .next
    (quench (logEvent ((slotDone s ch).modCtx ch (fun x => { x with user := true, userCode := c })) 0x0807
      [ch.val, c.toNat]) ch)) ∧
  (∀ (s : State) (ch : Fin 32) (a : Nat), nextOp s ch = some (.rept a false) → exec (.rept ch) s = .next
    (slotDone (s.modCtx ch (fun c => { c with report := s.greg ch a })) ch)) ∧
  (∀ (s : State) (ch : Fin 32) (a : Nat), nextOp s ch = some (.rept a true) → exec (.rept ch) s = .next
    (logEvent (slotDone (s.modCtx ch (fun c => { c with report := s.greg ch a })) ch) 0x0804
      [ch.val, (s.greg ch a).toNat])) ∧
  (∀ (s : State) (ch : Fin 32), nextOp s ch = some .endp → (s.vlvBank (ch / 4)).claim ≠ some ch.val →
    exec (.endOp ch) s = .next ((slotWait s ch .ending).modCtx ch (fun c => { c with
      target := 0, settled := false }))) ∧
  (∀ (s : State) (ch : Fin 32), nextOp s ch = none → exec (.faultOp ch) s = .next s ∧ exec (.rept ch) s = .next s ∧
    exec (.endOp ch) s = .next s) ∧
  (∀ (s : State) (ch : Fin 32), (s.fctx ch).wait = .ending → exec (.contextEnd ch) s = .next
    (((s.modCtx ch (fun c => { c with wait := .idle, phase := 0 })).modVlv ch (fun c => { c with
      st := if c.st == .running then .inactive else c.st, noClaim := false })).modBank (ch / 4)
      (fun b => { b with idleAt := s.clk.ns }))) ∧
  (∀ (s : State) (ch : Fin 32), (s.fctx ch).wait ≠ .ending → exec (.contextEnd ch) s = .next s) ∧
  (∀ (s : State) (ch : Fin 32), 256 ≤ (s.fctx ch).run → (s.fctx ch).wait = .executing →
    (s.vlvBank (ch / 4)).claim ≠ some ch.val → exec (.runaway ch) s = .next
      ((logEvent (s.modCtx ch (fun c => { c with runaway := true })) 0x0803 [ch.val, (s.fctx ch).pc.toNat]).modCtx ch
        (fun x => { x with target := 0, decay := 1, wait := .ending, run := 0, settled := false }))) ∧
  (∀ (s : State) (ch : Fin 32), (s.fctx ch).run < 256 → exec (.runaway ch) s = .next s) ∧
  (∀ (s : State) (ch : Fin 32), s.vlvActive ch = true → 3000 < (s.fctx ch).target.toNat →
    exec (.peakTimeLimit ch) s = .next (logEvent (s.modCtx ch (fun c => { c with
      peak := true, peakTime := true, target := 3000 })) 0x0805 [ch.val])) ∧
  (∀ (s : State) (ch : Fin 32), (s.fctx ch).target.toNat ≤ 3000 → exec (.peakTimeLimit ch) s = .next s) ∧
  (∀ (s : State) (e : Fin 8) (p : Prog), (vget s.facet.eng e).bankOf (vget s.facet.eng e).active = some p →
    s.isOn .act = true → p.crc = p.pcrc → exec (.programCheck e true) s = .next { s with
      facet.eng := vmod s.facet.eng e (fun x => { x with checks := x.checks + 1 }) }) ∧
  (∀ (s : State) (e : Fin 8) (p : Prog), (vget s.facet.eng e).bankOf (vget s.facet.eng e).active = some p →
    s.isOn .act = true → (vget s.facet.eng e).fault = false → (∀ n ∈ bankChans e, s.vlvActive n = false) →
    exec (.programCheck e false) s = .next (logEvent { s with
      facet.eng := vmod s.facet.eng e (fun x => { x with checks := x.checks + 1, fault := true }) } 0x0802 [e.val])) ∧
  (∀ (s : State) (e : Fin 8) (b : Bool), s.isOn .act = false → exec (.programCheck e b) s = .next s) ∧
  (∀ (s : State) (d : Desc) (m : BitVec 8) (c x : Nat), Ready s d (.facetLoad m) = true → s.upd.boot.trial = false →
    progParse (payloadOf s d (.facetLoad m)) = .inl (c, x) → exec (.facetLoad d m) s = .next (answered
      (taken s d (.facetLoad m)) d 0x80 c x 0)) ∧
  (∀ (s : State) (d : Desc) (m : BitVec 8) (p : Prog) (e : Nat), Ready s d (.facetLoad m) = true →
    s.upd.boot.trial = false → progParse (payloadOf s d (.facetLoad m)) = .inr p → maskList m = [e] →
    ctxOnBank s e (!(vget s.facet.eng e).active) = false → ∃ u : State, u = loadBank (taken s d (.facetLoad m)) e p 0 ∧
      (vget u.facet.eng e).active = (!(vget s.facet.eng e).active) ∧ (vget u.facet.eng e).fault = false ∧
      (vget u.facet.eng e).bankOf (!(vget s.facet.eng e).active) = some p ∧
      exec (.facetLoad d m) s = .next (answered { u with
        cfg.recs := s.cfg.recs.filter (fun r => !(r.block == 8 && r.typ == 1 && r.inst == e)) ++ [{
          block := 8, typ := 1,
          inst := e, modes := 0xFFF, body := wordsOf (payloadOf s d (.facetLoad m)) }],
        cfg.dirty := true } d stOk 0 p.progId.toNat 0)) ∧
  (∀ (s : State) (d : Desc) (m : BitVec 8), Ready s d (.facetLoad m) = true → s.upd.boot.trial = true →
    exec (.facetLoad d m) s = .next (answered (taken s d (.facetLoad m)) d stRefusedState 0 0 0)) ∧
  (∀ (s : State) (d : Desc) (m : BitVec 8) (p : Prog) (e : Nat), Ready s d (.facetVerify m) = true → maskList m = [e] →
    (vget s.facet.eng e).fault = false → (vget s.facet.eng e).bankOf (vget s.facet.eng e).active = some p →
    p.crc = p.pcrc → exec (.facetVerify d m) s = .next (answered (taken s d (.facetVerify m)) d stOk 0 (2 ^ e)
      p.pcrc.toNat)) ∧
  (∀ (s : State) (d : Desc) (m : BitVec 8) (p : Prog) (e : Nat), Ready s d (.facetVerify m) = true → maskList m = [e] →
    (vget s.facet.eng e).fault = false → (vget s.facet.eng e).bankOf (vget s.facet.eng e).active = some p →
    p.crc ≠ p.pcrc → exec (.facetVerify d m) s = .next (answered (checkFails (taken s d (.facetVerify m)) e) d
      stCheckFailed 0 0 p.pcrc.toNat)) ∧
  (∀ (s : State) (d : Desc) (ch : BitVec 5) (r : BitVec 4), Ready s d (.facetPeek ch r) = true →
    exec (.facetPeek d ch r) s = .next (answered (taken s d (.facetPeek ch r)) d stOk 0 (s.greg ch.toNat r.toNat).toNat
      (s.greg ch.toNat ((r.toNat + 1) % 16)).toNat))

/-! ## LED strings and the matrix -/

/-- LED_SET, LED_MULTI, LED_CLEAR, LED_READ and COLOUR_CTL (R383 to R387, R407, R409, Tables 10.8 and 10.9): settings
are checked, recorded by a shed string, otherwise taken at the next period or frame, or, launched, at the slot of DUE.
Clauses here rest on choices of the model, not on rules of the spec: log entries 21, 24, 25, 26. -/
def Obligations.LedStringsAreCommanded : Prop :=
  (∀ (s : State) (d : Desc) (ch : BitVec 4) (dim : BitVec 12) (i : BitVec 10), Ready s d (.ledSet ch dim i) = true →
    ledCheck s ch.toNat i.toNat dim.toNat ≠ stOk → exec (.ledSet d ch dim i) s = .next (answered
      (taken s d (.ledSet ch dim i)) d (ledCheck s ch.toNat i.toNat dim.toNat) 0 0 0)) ∧
  (∀ (s : State) (d : Desc) (ch : BitVec 4) (dim : BitVec 12) (i : BitVec 10), Ready s d (.ledSet ch dim i) = true →
    ledCheck s ch.toNat i.toNat dim.toNat = stOk → (s.ledCh ch.toNat).st ≠ .shed →
    exec (.ledSet d ch dim i) s = .next { taken s d (.ledSet ch dim i) with led.pend := s.led.pend ++ [
      {
        act := actOf s d (.ledSet ch dim i), chans := [ch.toNat], iSet := i, dim := dim,
        atPeriod := (s.ledCh ch.toNat).st == .pwm }] }) ∧
  (∀ (s : State) (d : Desc) (ch : BitVec 4) (dim : BitVec 12) (i : BitVec 10), Ready s d (.ledSet ch dim i) = true →
    ledCheck s ch.toNat i.toNat dim.toNat = stOk → (s.ledCh ch.toNat).st = .shed →
    exec (.ledSet d ch dim i) s = .next (answered ((unheldLed (taken s d (.ledSet ch dim i)) ch.toNat).modLed ch.toNat
      (fun c => { c with cmdI := i, cmdDim := dim })) d 0x81 0 0 0)) ∧
  (∀ (s : State) (a : Act) (ch : BitVec 4) (i : BitVec 10), a.fired = true →
    ledCheck s ch.toNat i.toNat 4095 = stOk → (s.ledCh ch.toNat).st = .off → (s.ledCh ch.toNat).hot = false →
    s.paused 1 = false → ∃ u : State, u = ledApply (addShot s {
      pair := 1, slot := slotOf a.instant, rising := true,
      weight := s.weight (64 + ch.toNat) }) ch.toNat i.toNat 4095 (some (slotOf a.instant)) true ∧
      (u.ledCh ch.toNat).st = .on ∧ (u.ledCh ch.toNat).dim = 4095 ∧ (u.ledCh ch.toNat).iSet = i ∧
      actHost (.ledSet ch 4095 i) a s = finish (replan u) a) ∧
  (∀ (s : State) (d : Desc) (m : BitVec 12) (i : BitVec 10) (dim : BitVec 12) (n x : Nat),
    Ready s d (.ledMulti m i dim) = true → n ∈ maskList m → ledCheck s n i.toNat dim.toNat = x → x ≠ stOk →
    (∀ k ∈ maskList m, k < n → ledCheck s k i.toNat dim.toNat = stOk) →
    exec (.ledMulti d m i dim) s = .next (answered (taken s d (.ledMulti m i dim)) d x n 0 0)) ∧
  (∀ (s : State) (d : Desc) (m : BitVec 12) (i : BitVec 10) (dim : BitVec 12), Ready s d (.ledMulti m i dim) = true →
    (∀ k ∈ maskList m, ledCheck s k i.toNat dim.toNat = stOk ∧ (s.ledCh k).st ≠ .shed) →
    exec (.ledMulti d m i dim) s = .next (ledPlan (taken s d (.ledMulti m i dim)) (actOf s d (.ledMulti m i dim))
      (maskList m) i dim)) ∧
  (∀ (s : State) (d : Desc) (m : BitVec 12) (i : BitVec 10) (dim : BitVec 12) (n : Nat) (l : List Nat),
    Ready s d (.ledMulti m i dim) = true → (∀ k ∈ maskList m, ledCheck s k i.toNat dim.toNat = stOk) →
    (maskList m).filter (fun k => (s.ledCh k).st == .shed) = n :: l →
    exec (.ledMulti d m i dim) s = .next (answered ((maskList m).foldl (fun s k => ledApply s k i.toNat dim.toNat none
      false) (taken s d (.ledMulti m i dim))) d 0x81 n 0 0)) ∧
  (∀ (s : State) (d : Desc) (ch : BitVec 4), Ready s d (.ledClear ch) = true → ch.toNat < 12 →
    s.ledBarred ch.toNat = false → ∃ u : State,
      u = (taken s d (.ledClear ch)).modLed ch.toNat (fun c => { c with ocAt := none }) ∧
      exec (.ledClear d ch) s = .next (answered (if (s.ledCh ch.toNat).st = .latched then
        (ledOff u ch.toNat .off).modLed ch.toNat (fun c => { c with cmdDim := 0, cmdI := 0 }) else u) d stOk 0 0 0)) ∧
  (∀ (s : State) (d : Desc) (ch : BitVec 4), Ready s d (.ledRead ch) = true → ch.toNat < 12 →
    s.ledBarred ch.toNat = false → exec (.ledRead d ch) s = .next (answered (taken s d (.ledRead ch)) d stOk 0
      (ledMeas s ch.toNat) (ledFlags s ch.toNat))) ∧
  (∀ (s : State) (d : Desc) (ch : BitVec 4), 12 ≤ ch.toNat ∨ s.ledBarred ch.toNat = true →
    Ready s d (.ledClear ch) = true →
    exec (.ledClear d ch) s = .next (answered (taken s d (.ledClear ch)) d stRefusedState 0 0 0)) ∧
  (∀ (s : State) (d : Desc) (ch : BitVec 4), 12 ≤ ch.toNat ∨ s.ledBarred ch.toNat = true →
    Ready s d (.ledRead ch) = true →
    exec (.ledRead d ch) s = .next (answered (taken s d (.ledRead ch)) d stRefusedState 0 0 0)) ∧
  (∀ (s : State) (d : Desc), Ready s d (.colourCtl 1) = true → exec (.colourCtl d 1) s = .next (answered
    { taken s d (.colourCtl 1) with led.run := true } d stOk 0 0 0)) ∧
  (∀ (s : State) (d : Desc), Ready s d (.colourCtl 0) = true → exec (.colourCtl d 0) s = .next (answered
    { taken s d (.colourCtl 0) with led.run := false, led.converting := false } d stOk 0 0 0))

/-- Faults of strings and of the converter, the neighbour test and the colour loop (R381, R388 to R391, R403 to R407,
Table 10.2). What the loop stores where no result is stated is a free value, and no clause rests on it. Clauses here
rest on choices of the model, not on rules of the spec: log entries 4, 6. -/
def Obligations.LedStringsTripRetryAndKeepColour : Prop :=
  (∀ (s : State) (ch : Fin 12), (s.ledCh ch).isOn = false → exec (.openString ch) s = .next s ∧
    exec (.stringOvercurrent ch) s = .next s) ∧
  (∀ (s : State) (ch : Fin 12), (s.ledCh ch).isOn = true → ∃ t : State, exec (.openString ch) s = .next t ∧
    t = logEvent (ledOff (logEvent (s.modLed ch (fun c => { c with isOpen := true })) 0x0901 [ch.val]) ch .latched)
      0x0906 [ch.val] ∧
    (t.ledCh ch).st = .latched ∧ (t.ledCh ch).dim = 0 ∧ (t.ledCh ch).isOpen = true) ∧
  (∀ (s : State) (ch : Fin 12) (v : BitVec 12), (s.ledCh ch).isOn = true → s.ledField ch 1 0 9 ≠ 0 →
    (s.ledCh ch).shortLed = false → exec (.shortedLeds ch true v) s = .next (logEvent
      (s.modLed ch (fun c => { c with shortLed := true })) 0x0902 [ch.val, v.toNat])) ∧
  (∀ (s : State) (ch : Fin 12) (v : BitVec 12), exec (.shortedLeds ch false v) s = .next
    (s.modLed ch (fun c => { c with shortLed := false }))) ∧
  (∀ (s : State) (ch : Fin 12), (s.ledCh ch).isOn = true →
    (s.ledCh ch).ocAt.all (fun x => decide (x + sec < s.clk.ns)) = true → ∃ t : State,
      exec (.stringOvercurrent ch) s = .next t ∧ t = ledOff (logEvent (s.modLed ch (fun c => { c with
        oc := true, ocAt := some s.clk.ns })) 0x0903 [ch.val]) ch .retry ∧
      (t.ledCh ch).st = .retry ∧ (t.ledCh ch).dim = 0 ∧ (t.ledCh ch).ocAt = some s.clk.ns) ∧
  (∀ (s : State) (ch : Fin 12) (x : Nat), (s.ledCh ch).isOn = true → (s.ledCh ch).ocAt = some x → s.clk.ns ≤ x + sec →
    ∃ t : State, exec (.stringOvercurrent ch) s = .next t ∧ (t.ledCh ch).st = .latched ∧ (t.ledCh ch).dim = 0 ∧
      (t.ledCh ch).oc = true) ∧
  (∀ (s : State) (ch : Fin 12), (s.ledCh ch).st ≠ .retry → exec (.stringRetry ch) s = .next s) ∧
  (∀ (s : State) (ch : Fin 12) (x : Nat), (s.ledCh ch).st = .retry → (s.ledCh ch).ocAt = some x → s.paused 1 = false →
    (s.ledCh ch).cmdDim ≠ 0 → ∃ t : State, exec (.stringRetry ch) s = .next t ∧
      (t.ledCh ch).dim = (s.ledCh ch).cmdDim ∧ (t.ledCh ch).iSet = (s.ledCh ch).cmdI ∧
      (t.ledCh ch).st = (if (s.ledCh ch).cmdDim = 4095 then .on else .pwm) ∧ x + 100000000 ≤ t.clk.ns) ∧
  (∀ (s : State) (ch : Fin 12), (s.ledCh ch).st = .retry → s.paused 1 = true → ∃ t : State,
    exec (.stringRetry ch) s = .next t ∧ (t.ledCh ch).st = .off ∧ (t.ledCh ch).resume = true) ∧
  (∀ (s : State), ∃ t : State, exec (.converterOt true) s = .next t ∧
    (∀ n : Fin 12, (t.ledCh n).ot = true ∧ (t.ledCh n).isOn = false)) ∧
  (∀ (s : State), ∃ t : State, exec (.converterOt false) s = .next t ∧ (∀ n : Fin 12, (t.ledCh n).hot = false)) ∧
  (∀ (s : State) (k : Fin 94), k.val < 34 → (∀ n ∈ nbrStrings k, s.ledField n 1 19 1 ≠ 0) →
    exec (.neighbourTest false k false) s = .next { s with led.nbrFails := vset s.led.nbrFails k 0 }) ∧
  (∀ (s : State) (k : Fin 94), k.val < 34 → (∀ n ∈ nbrStrings k, s.ledField n 1 19 1 ≠ 0) →
    vget s.led.nbrFails k < 2 → exec (.neighbourTest false k true) s = .next { s with
      led.nbrFails := vset s.led.nbrFails k (vget s.led.nbrFails k + 1) }) ∧
  (∀ (s : State) (k : Fin 94), k.val < 34 → (∀ n ∈ nbrStrings k, s.ledField n 1 19 1 ≠ 0) →
    vget s.led.nbrFails k = 2 → (∃ n ∈ nbrStrings k, (s.ledCh n).st ≠ .latched) → ∃ t : State,
      exec (.neighbourTest false k true) s = .next t ∧
      (∀ n ∈ nbrStrings k, (t.ledCh n).st = .latched ∧ (t.ledCh n).nbr = true ∧ (t.ledCh n).dim = 0)) ∧
  (∀ (s : State) (k : Fin 94) (b : Bool), (∃ n ∈ nbrStrings k, s.ledField n 1 19 1 = 0) →
    exec (.neighbourTest false k b) s = .next s) ∧
  (∀ (s : State) (k : Fin 94) (b : Bool), s.mtxField 0 16 1 = 0 → exec (.neighbourTest true k b) s = .next s) ∧
  (∀ (s : State) (k : Fin 94), s.mtxField 0 16 1 = 1 →
    exec (.neighbourTest true k false) s = .next { s with mtx.nbrFails := vset s.mtx.nbrFails k 0 }) ∧
  (∀ (s : State) (k : Fin 94), s.mtxField 0 16 1 = 1 → vget s.mtx.nbrFails k = 2 →
    s.mtx.nbr.getLsbD (k.val / 2) = false → exec (.neighbourTest true k true) s = .next (logEvent { s with
      mtx.nbrFails := vset s.mtx.nbrFails k 3,
      mtx.nbr := setBit (setBit s.mtx.nbr (k.val / 2) true) (k.val / 2 + 1) true } 0x0A03
      [k.val / 2, k.val / 2 + 1])) ∧
  (∀ (s : State), s.led.run = true → s.isOn .led = true → colourHeld s = false → (s.rec? 9 2 0).isSome = true →
    exec (.colourStep true) s = .next { s with led.converting := true }) ∧
  (∀ (s : State), s.led.run = true → s.isOn .led = true → colourHeld s = false → (s.rec? 9 2 0).isSome = true →
    s.led.failed < 2 → exec (.colourStep false) s = .next { s with
      led.failed := s.led.failed + 1, led.converting := false }) ∧
  (∀ (s : State), s.led.run = true → s.isOn .led = true → colourHeld s = false → (s.rec? 9 2 0).isSome = true →
    s.led.failed = 2 → s.led.sensorFail = false → exec (.colourStep false) s = .next (logEvent { s with
      led.failed := 3, led.converting := false, led.sensorFail := true } 0x0908 [])) ∧
  (∀ (s : State) (b : Bool), s.led.run = false ∨ s.isOn .led = false ∨ colourHeld s = true ∨ s.rec? 9 2 0 = none →
    exec (.colourStep b) s = .next s) ∧
  (∀ (s : State) (b : Bool) (c0 c1 c2 : BitVec 16), s.led.converting = false →
    exec (.colourConvDone b c0 c1 c2) s = .next s) ∧
  (∀ (s : State) (c0 c1 c2 : BitVec 16), s.led.converting = true → s.led.failed < 2 →
    exec (.colourConvDone false c0 c1 c2) s = .next { s with
      led.failed := s.led.failed + 1, led.converting := false }) ∧
  (∀ (s : State) (c0 c1 c2 : BitVec 16) (r : Rec) (m : Int × Int × Int), s.led.converting = true →
    s.rec? 9 2 0 = some r → m = colourXyz r c0.toNat c1.toNat c2.toNat → ∃ t : State,
      exec (.colourConvDone true c0 c1 c2) s = .next t ∧ t.led.converting = false ∧ t.led.failed = 0 ∧
      t.led.sensorFail = false ∧ t.led.steps = s.led.steps + 1 ∧
      t.led.lum = BitVec.ofNat 20 (min 1048575 (m.2.1 * 100 / 4096).toNat) ∧
      (0 < m.1 + m.2.1 + m.2.2 ∧ 0 ≤ m.1 ∧ 0 ≤ m.2.1 ∧ 0 ≤ m.2.2 →
        t.led.x = BitVec.ofNat 16 (min 65535 (m.1 * 65536 / (m.1 + m.2.1 + m.2.2)).toNat) ∧
        t.led.y = BitVec.ofNat 16 (min 65535 (m.2.1 * 65536 / (m.1 + m.2.1 + m.2.2)).toNat)) ∧
      (∀ c : Fin 3, (colourGain r m (vget s.led.gain c).toNat c).all
        (fun g => vget t.led.gain c == BitVec.ofNat 13 g) = true))

/-- MTX_WRITE, MTX_SWAP, MTX_BLANK and MTX_CLEAR (R396 to R401, Table 10.8). Clauses here rest on choices of the model,
not on rules of the spec: log entries 26, 27. -/
def Obligations.MatrixIsCommanded : Prop :=
  (∀ (s : State) (d : Desc) (o : BitVec 11), Ready s d (.mtxWrite o) = true → s.mtxBarred = false → o.toNat % 8 = 0 →
    d.payLen.toNat % 8 = 0 → o.toNat + d.payLen.toNat ≤ 2048 → swapPending s = false → ∃ c : List Host.Cell,
      c = ((List.range d.payLen.toNat).zip (payloadOf s d (.mtxWrite o))).foldl (fun c x => cellPut c (o.toNat + x.1) x.2)
        (if s.mtx.front then s.mtx.bufA else s.mtx.bufB) ∧
      exec (.mtxWrite d o) s = .next (answered (if s.mtx.front then { taken s d (.mtxWrite o) with mtx.bufA := c }
        else { taken s d (.mtxWrite o) with mtx.bufB := c }) d stOk 0 0 0)) ∧
  (∀ (s : State) (d : Desc) (o : BitVec 11), Ready s d (.mtxWrite o) = true → s.mtxBarred = false →
    o.toNat % 8 ≠ 0 ∨ d.payLen.toNat % 8 ≠ 0 ∨ 2048 < o.toNat + d.payLen.toNat →
    exec (.mtxWrite d o) s = .next (answered (taken s d (.mtxWrite o)) d 0x82 0 0 0)) ∧
  (∀ (s : State) (d : Desc) (o : BitVec 11), Ready s d (.mtxWrite o) = true → s.mtxBarred = false → o.toNat % 8 = 0 →
    d.payLen.toNat % 8 = 0 → o.toNat + d.payLen.toNat ≤ 2048 → swapPending s = true →
    exec (.mtxWrite d o) s = .next (answered (taken s d (.mtxWrite o)) d 0x80 0 0 0)) ∧
  (∀ (s : State) (d : Desc) (w : BitVec 1), Ready s d (.mtxSwap w) = true → swapCheck w s ≠ stOk →
    exec (.mtxSwap d w) s = .next (answered (taken s d (.mtxSwap w)) d (swapCheck w s) 0 0 0)) ∧
  (∀ (s : State) (d : Desc) (w : BitVec 1), Ready s d (.mtxSwap w) = true → swapCheck w s = stOk →
    exec (.mtxSwap d w) s = .next { taken s d (.mtxSwap w) with mtx.armed := some (actOf s d (.mtxSwap w), w == 1) }) ∧
  (∀ (s : State) (a : Act) (w : BitVec 1), a.fired = true → swapCheck w s = stOk →
    actHost (.mtxSwap w) a s = finish (mtxFrame { s with mtx.front := !s.mtx.front } false) a) ∧
  (∀ (s : State) (d : Desc), Ready s d (.mtxBlank 1) = true → s.mtxBarred = false →
    exec (.mtxBlank d 1) s = .next (answered { taken s d (.mtxBlank 1) with
      mtx.hostBlank := true, mtx.blank := true, mtx.syncLost := false } d stOk 0 0 0)) ∧
  (∀ (s : State) (d : Desc), Ready s d (.mtxBlank 0) = true → s.mtxBarred = false →
    exec (.mtxBlank d 0) s = .next (answered { taken s d (.mtxBlank 0) with mtx.hostBlank := false } d stOk 0 0 0)) ∧
  (∀ (s : State) (d : Desc), Ready s d .mtxClear = true → s.mtxBarred = false →
    exec (.mtxClear d) s = .next (answered { taken s d .mtxClear with
      mtx.latched := false, mtx.nbr := 0, mtx.rowRun := .replicate 16 0 } d stOk 0 0 0)) ∧
  (∀ (s : State) (d : Desc) (o : BitVec 11), s.mtxBarred = true → Ready s d (.mtxWrite o) = true →
    exec (.mtxWrite d o) s = .next (answered (taken s d (.mtxWrite o)) d stRefusedState 0 0 0)) ∧
  (∀ (s : State) (d : Desc) (b : BitVec 1), s.mtxBarred = true → Ready s d (.mtxBlank b) = true →
    exec (.mtxBlank d b) s = .next (answered (taken s d (.mtxBlank b)) d stRefusedState 0 0 0)) ∧
  (∀ (s : State) (d : Desc), s.mtxBarred = true → Ready s d .mtxClear = true →
    exec (.mtxClear d) s = .next (answered (taken s d .mtxClear) d stRefusedState 0 0 0))

/-- Frames of the matrix, its SYNC input and its trips (R393, R395, R398, R399, R401). Clauses here rest on choices of
the model, not on rules of the spec: log entry 177. -/
def Obligations.MatrixFramesAndTrips : Prop :=
  (∀ (s : State), s.isOn .led = false ∨ s.rec? 10 1 0 = none → exec .matrixFrameStart s = .next s) ∧
  (∀ (s : State), s.isOn .led = true → (s.rec? 10 1 0).isSome = true → s.mtxField 0 10 2 = 1 →
    s.mtx.syncLost = false → exec .matrixFrameStart s = .next { s with mtx.blank := true }) ∧
  (∀ (s : State), s.isOn .led = true → (s.rec? 10 1 0).isSome = true →
    s.mtxField 0 10 2 ≠ 1 ∨ s.mtx.syncLost = true → exec .matrixFrameStart s = .next (mtxFrame s false)) ∧
  (∀ (s : State) (b : Bool), s.mtxRuns = true → (mtxFrame s b).mtx.blank = false ∧
    (mtxFrame s b).mtx.frames = s.mtx.frames + 1 ∧ (mtxFrame s b).mtx.frameAt = s.clk.ns ∧
    (mtxFrame s b).mtx.rowNow = 0) ∧
  (∀ (s : State) (b : Bool) (a : Act), s.mtx.armed = some (a, false) →
    (mtxFrame s b).mtx.front = !s.mtx.front ∧ (mtxFrame s b).mtx.armed = none) ∧
  (∀ (s : State) (a : Act), s.mtx.armed = some (a, true) → (mtxFrame s false).mtx.front = s.mtx.front ∧
    (mtxFrame s true).mtx.front = !s.mtx.front) ∧
  (∀ (s : State) (r : Bool), s.isOn .led = false ∨ s.mtxField 0 10 2 ≠ 1 ∨ r ≠ (s.mtxField 0 12 1 == 0) ∨
    s.mtx.syncAt.any (fun x => decide (s.clk.ns < x + 1250000)) = true → exec (.mxSyncEdge r) s = .next s) ∧
  (∀ (s : State) (r : Bool), s.isOn .led = true → s.mtxField 0 10 2 = 1 → r = (s.mtxField 0 12 1 == 0) →
    s.mtx.syncAt.all (fun x => decide (x + 1250000 ≤ s.clk.ns)) = true → exec (.mxSyncEdge r) s = .next (mtxFrame
      (State.advance { s with mtx.syncAt := some s.clk.ns, mtx.syncLost := false } 2000) true)) ∧
  (∀ (s : State), s.isOn .led = true → s.mtxField 0 10 2 = 1 → s.mtx.syncLost = false →
    exec .mxSyncLost s = .next (logEvent { s with mtx.syncLost := true } 0x0A05 [])) ∧
  (∀ (s : State), s.isOn .led = false ∨ s.mtxField 0 10 2 ≠ 1 ∨ s.mtx.syncLost = true →
    exec .mxSyncLost s = .next s) ∧
  (∀ (s : State) (r : Fin 16), s.mtx.blank = true ∨ s.mtx.rowNow.getLsbD r = true →
    exec (.rowOvercurrent r) s = .next s) ∧
  (∀ (s : State) (r : Fin 16), s.mtx.blank = false → s.mtx.rowNow.getLsbD r = false → vget s.mtx.rowRun r < 2 →
    exec (.rowOvercurrent r) s = .next (logEvent { s with
      mtx.rowOc := setBit s.mtx.rowOc r true, mtx.rowNow := setBit s.mtx.rowNow r true,
      mtx.rowRun := vset s.mtx.rowRun r (vget s.mtx.rowRun r + 1) } 0x0A01 [r.val])) ∧
  (∀ (s : State) (r : Fin 16), s.mtx.blank = false → s.mtx.rowNow.getLsbD r = false → 2 ≤ vget s.mtx.rowRun r →
    ∃ t : State, exec (.rowOvercurrent r) s = .next t ∧ t.mtx.latched = true ∧ t.mtx.blank = true ∧
      t.mtx.rowOc.getLsbD r = true) ∧
  (∀ (s : State), s.mtx.blank = true → exec .mxVsOvercurrent s = .next s) ∧
  (∀ (s : State), s.mtx.blank = false → exec .mxVsOvercurrent s = .next (logEvent { s with
    mtx.latched := true, mtx.blank := true, mtx.syncLost := false } 0x0A02 [])) ∧
  (∀ (s : State) (c : Fin 48), s.mtx.blank = true ∨ s.mtx.isOpen.getLsbD c = true →
    exec (.columnOpen c) s = .next s) ∧
  (∀ (s : State) (c : Fin 48), s.mtx.blank = false → s.mtx.isOpen.getLsbD c = false →
    exec (.columnOpen c) s = .next (logEvent { s with mtx.isOpen := setBit s.mtx.isOpen c true } 0x0A04 [c.val]))

/-! ## CAN -/

/-- CAN_TX and CAN_TP_TX (R440, R443, R446, R449, R454, R468 to R470, R476, Tables 12.12 and 12.13): what turns a frame
or a message away, and how one enters the queue. Clauses here rest on choices of the model, not on rules of the spec:
log entries 50, 51, 54, 59. -/
def Obligations.CanFramesAreQueued : Prop :=
  (∀ (s : State) (d : Desc) (ch : BitVec 4) (fmt : BitVec 2) (brs ide rtr : BitVec 1) (cf : BitVec 3) (uc : BitVec 1)
    (dl : BitVec 4) (id : BitVec 29) (sdt vcid : BitVec 8) (sec : BitVec 1) (af : BitVec 32) (c : HostCmd) (n : Nat),
    c = .canTx ch fmt brs ide rtr cf uc dl id sdt vcid sec af → n = ch.toNat → Ready s d c = true →
    s.canAway n = true ∨ (s.canCh n).listen = true ∨ s.canRcBars n = true →
    exec (.canTx d ch fmt brs ide rtr cf uc dl id sdt vcid sec af) s = .next (answered (taken s d c) d stRefusedState
      0 0 0)) ∧
  (∀ (s : State) (d : Desc) (ch : BitVec 4) (fmt : BitVec 2) (brs ide rtr : BitVec 1) (cf : BitVec 3) (uc : BitVec 1)
    (dl : BitVec 4) (id : BitVec 29) (sdt vcid : BitVec 8) (sec : BitVec 1) (af : BitVec 32) (c : HostCmd) (n : Nat),
    c = .canTx ch fmt brs ide rtr cf uc dl id sdt vcid sec af → n = ch.toNat → Ready s d c = true →
    s.canAway n = false → (s.canCh n).listen = false → s.canRcBars n = false → 2 ≤ (s.canCh n).conf.toNat →
    exec (.canTx d ch fmt brs ide rtr cf uc dl id sdt vcid sec af) s = .next (answered (taken s d c) d canBusOff
      0 0 0)) ∧
  (∀ (s : State) (d : Desc) (ch : BitVec 4) (fmt : BitVec 2) (brs ide rtr : BitVec 1) (cf : BitVec 3) (uc : BitVec 1)
    (dl : BitVec 4) (id : BitVec 29) (sdt vcid : BitVec 8) (sec : BitVec 1) (af : BitVec 32) (c : HostCmd) (n : Nat),
    c = .canTx ch fmt brs ide rtr cf uc dl id sdt vcid sec af → n = ch.toNat → Ready s d c = true →
    s.canAway n = false → (s.canCh n).listen = false → s.canRcBars n = false → (s.canCh n).conf.toNat < 2 →
    (s.canCh n).muted = true →
    exec (.canTx d ch fmt brs ide rtr cf uc dl id sdt vcid sec af) s = .next (answered (taken s d c) d canMuted
      0 0 0)) ∧
  (∀ (s : State) (d : Desc) (ch : BitVec 4) (fmt : BitVec 2) (brs ide rtr : BitVec 1) (cf : BitVec 3) (uc : BitVec 1)
    (dl : BitVec 4) (id : BitVec 29) (sdt vcid : BitVec 8) (sec : BitVec 1) (af : BitVec 32) (c : HostCmd) (n : Nat),
    c = .canTx ch fmt brs ide rtr cf uc dl id sdt vcid sec af → n = ch.toNat → Ready s d c = true →
    s.canAway n = false → (s.canCh n).listen = false → s.canRcBars n = false → (s.canCh n).conf.toNat < 2 →
    (s.canCh n).muted = false → s.fmtAllowed n fmt.toNat = false ∨ dlcOf fmt.toNat (payloadOf s d c).length = none →
    exec (.canTx d ch fmt brs ide rtr cf uc dl id sdt vcid sec af) s = .next (answered (taken s d c) d canFormat
      0 0 0)) ∧
  (∀ (s : State) (d : Desc) (ch : BitVec 4) (fmt : BitVec 2) (brs ide rtr : BitVec 1) (cf : BitVec 3) (uc : BitVec 1)
    (dl : BitVec 4) (id : BitVec 29) (sdt vcid : BitVec 8) (sec : BitVec 1) (af : BitVec 32) (c : HostCmd) (n : Nat)
    (f : CanFrame), c = .canTx ch fmt brs ide rtr cf uc dl id sdt vcid sec af → n = ch.toNat →
    f = ({
      id := id, ide := ide == 1, rtr := rtr == 1, fmt := fmt, brs := brs == 1, sdt := sdt, vcid := vcid,
      sec := sec == 1, af := af, data := payloadOf s d c,
      dlc := BitVec.ofNat 4 (if rtr = 1 then dl.toNat else (dlcOf fmt.toNat (payloadOf s d c).length).getD 0) } : CanFrame) →
    Ready s d c = true → s.canAway n = false → (s.canCh n).listen = false → s.canRcBars n = false →
    (s.canCh n).conf.toNat < 2 → (s.canCh n).muted = false → s.fmtAllowed n fmt.toNat = true →
    (dlcOf fmt.toNat (payloadOf s d c).length).isSome = true →
    badFields f (uc == 1) dl.toNat (payloadOf s d c).length = true →
    exec (.canTx d ch fmt brs ide rtr cf uc dl id sdt vcid sec af) s = .next (answered (taken s d c) d canFormat
      0 0 0)) ∧
  (∀ (s : State) (d : Desc) (ch : BitVec 4) (fmt : BitVec 2) (brs ide rtr : BitVec 1) (cf : BitVec 3) (uc : BitVec 1)
    (dl : BitVec 4) (id : BitVec 29) (sdt vcid : BitVec 8) (sec : BitVec 1) (af : BitVec 32) (c : HostCmd) (n : Nat)
    (f : CanFrame), c = .canTx ch fmt brs ide rtr cf uc dl id sdt vcid sec af → n = ch.toNat →
    f = ({
      id := id, ide := ide == 1, rtr := rtr == 1, fmt := fmt, brs := brs == 1, sdt := sdt, vcid := vcid,
      sec := sec == 1, af := af, data := payloadOf s d c,
      dlc := BitVec.ofNat 4 (if rtr = 1 then dl.toNat else (dlcOf fmt.toNat (payloadOf s d c).length).getD 0) } : CanFrame) →
    Ready s d c = true → s.canAway n = false → (s.canCh n).listen = false → s.canRcBars n = false →
    (s.canCh n).conf.toNat < 2 → (s.canCh n).muted = false → s.fmtAllowed n fmt.toNat = true →
    (dlcOf fmt.toNat (payloadOf s d c).length).isSome = true →
    badFields f (uc == 1) dl.toNat (payloadOf s d c).length = false → 64 ≤ (s.canCh n).queue.length →
    exec (.canTx d ch fmt brs ide rtr cf uc dl id sdt vcid sec af) s = .next (answered (taken s d c) d canQueueFull
      0 0 0)) ∧
  (∀ (s : State) (d : Desc) (ch : BitVec 4) (fmt : BitVec 2) (brs ide rtr : BitVec 1) (cf : BitVec 3) (uc : BitVec 1)
    (dl : BitVec 4) (id : BitVec 29) (sdt vcid : BitVec 8) (sec : BitVec 1) (af : BitVec 32) (c : HostCmd) (n : Nat)
    (f : CanFrame), c = .canTx ch fmt brs ide rtr cf uc dl id sdt vcid sec af → n = ch.toNat →
    f = ({
      id := id, ide := ide == 1, rtr := rtr == 1, fmt := fmt, brs := brs == 1, sdt := sdt, vcid := vcid,
      sec := sec == 1, af := af, data := payloadOf s d c,
      dlc := BitVec.ofNat 4 (if rtr = 1 then dl.toNat else (dlcOf fmt.toNat (payloadOf s d c).length).getD 0) } : CanFrame) →
    Ready s d c = true → s.canAway n = false → (s.canCh n).listen = false → s.canRcBars n = false →
    (s.canCh n).conf.toNat < 2 → (s.canCh n).muted = false → s.fmtAllowed n fmt.toNat = true →
    (dlcOf fmt.toNat (payloadOf s d c).length).isSome = true →
    badFields f (uc == 1) dl.toNat (payloadOf s d c).length = false → (s.canCh n).queue.length < 64 →
    exec (.canTx d ch fmt brs ide rtr cf uc dl id sdt vcid sec af) s = .next (netEval (canFill ((taken s d c).modCan n
      (fun x => { x with queue := x.queue ++ [{
        frame := f,
        kind := .host (actOf s d c) (if uc = 1 then some cf.toNat else none) }] })) n) n)) ∧
  (∀ (s : State) (n b : Nat) (f g : TxFrame), (s.canCh n).queue = [f] → s.freeBuf n = some b → s.resolve f = some g →
    canFill s n = s.modCan n (fun c => { c with queue := [], tb := vset c.tb b (some g), fill := (b + 1) % s.nBufs n })) ∧
  (∀ (s : State) (b st : Nat) (f : TxFrame) (a : Act) (k : Option Nat), f.kind = .host a k → f.attempts ≠ 0 →
    txComplete s f b st = complete s a.d (if st = stOk ∧ a.late then stLate else st) 0 f.sof.toNat
      (f.attempts % 512 + 2 ^ 9 * b) f.ackErrors) ∧
  (∀ (s : State) (d : Desc) (ch : BitVec 4) (cf : BitVec 3) (da : BitVec 8) (pr : BitVec 3) (pgn : BitVec 18) (c : HostCmd),
    c = .canTpTx ch cf da pr pgn → Ready s d c = true → s.canAway ch.toNat = true →
    exec (.canTpTx d ch cf da pr pgn) s = .next (answered (taken s d c) d stRefusedState 0 0 0)) ∧
  (∀ (s : State) (d : Desc) (ch : BitVec 4) (cf : BitVec 3) (da : BitVec 8) (pr : BitVec 3) (pgn : BitVec 18) (c : HostCmd),
    c = .canTpTx ch cf da pr pgn → Ready s d c = true → s.canAway ch.toNat = false → (payloadOf s d c).length < 9 →
    exec (.canTpTx d ch cf da pr pgn) s = .next (answered (taken s d c) d canFormat 0 0 0)) ∧
  (∀ (s : State) (d : Desc) (ch : BitVec 4) (cf : BitVec 3) (da : BitVec 8) (pr : BitVec 3) (pgn : BitVec 18) (c : HostCmd),
    c = .canTpTx ch cf da pr pgn → Ready s d c = true → s.canAway ch.toNat = false → 9 ≤ (payloadOf s d c).length →
    s.cfAddr cf.toNat = none ∨ (vget s.can.cf cf.toNat).ch ≠ ch → exec (.canTpTx d ch cf da pr pgn) s = .next
      (netEval (answered (taken s d c) d canNoAddress 0 0 0) ch.toNat)) ∧
  (∀ (s : State) (d : Desc) (ch : BitVec 4) (cf : BitVec 3) (da : BitVec 8) (pr : BitVec 3) (pgn : BitVec 18) (c : HostCmd),
    c = .canTpTx ch cf da pr pgn → Ready s d c = true → s.canAway ch.toNat = false → da = 0xFF →
    1785 < (payloadOf s d c).length → (s.cfAddr cf.toNat).isSome = true → (vget s.can.cf cf.toNat).ch = ch →
    exec (.canTpTx d ch cf da pr pgn) s = .next (netEval (answered (taken s d c) d canFormat 0 0 0) ch.toNat)) ∧
  (∀ (s : State) (d : Desc) (ch : BitVec 4) (cf : BitVec 3) (da : BitVec 8) (pr : BitVec 3) (pgn : BitVec 18) (c : HostCmd),
    c = .canTpTx ch cf da pr pgn → Ready s d c = true → s.canAway ch.toNat = false → 9 ≤ (payloadOf s d c).length →
    (s.cfAddr cf.toNat).isSome = true → (vget s.can.cf cf.toNat).ch = ch →
    da ≠ 0xFF ∨ (payloadOf s d c).length ≤ 1785 → 16 ≤ s.can.tpSend.length → ∃ k : Nat,
      k = (if s.can.tpSend.any (fun y => y.ch == ch.toNat && y.cf == cf.toNat && y.da == da) then 1 else 2) ∧
      exec (.canTpTx d ch cf da pr pgn) s = .next (netEval (answered (logEvent (taken s d c) 0x0C0C
        [ch.toNat, cf.toNat, pgn.toNat, k]) d canTpAbort k 0 0) ch.toNat)) ∧
  (∀ (s : State) (d : Desc) (ch : BitVec 4) (cf : BitVec 3) (da : BitVec 8) (pr : BitVec 3) (pgn : BitVec 18) (c : HostCmd),
    c = .canTpTx ch cf da pr pgn → Ready s d c = true → s.canAway ch.toNat = false → 9 ≤ (payloadOf s d c).length →
    (s.cfAddr cf.toNat).isSome = true → (vget s.can.cf cf.toNat).ch = ch →
    da ≠ 0xFF ∨ (payloadOf s d c).length ≤ 1785 → s.can.tpSend.length < 16 →
    exec (.canTpTx d ch cf da pr pgn) s = .next (netEval (tpOpen (taken s d c) {
      act := some (actOf s d c),
      cf := cf.toNat, ch := ch.toNat, da := da, prio := pr, pgn := pgn, data := payloadOf s d c,
      id := ((List.range 16).find? (fun i => (s.sendOf i).isNone)).getD 0 }) ch.toNat)) ∧
  (∀ (s : State) (x : TpSend), (tpOpen s x).can.tpSend.length = s.can.tpSend.length + 1)

/-- CAN_MODE, CAN_RECOVER, CAN_TT_WRITE, CAN_AC and CAN_READ (R449, R454, R458, R465, R467, R476, Table 12.12). Clauses
here rest on choices of the model, not on rules of the spec: log entries 49, 56, 57. -/
def Obligations.CanChannelsAreCommanded : Prop :=
  (∀ (s : State) (d : Desc) (ch : BitVec 4) (l u : BitVec 1), s.canEnabled ch.toNat = false →
    Ready s d (.canMode ch l u) = true →
    exec (.canMode d ch l u) s = .next (answered (taken s d (.canMode ch l u)) d stRefusedState 0 0 0)) ∧
  (∀ (s : State) (d : Desc) (ch : BitVec 4) (l x : BitVec 1), ch.toNat < 10 → s.canEnabled ch.toNat = true →
    Ready s d (.canMode ch l x) = true → ∃ u : State,
      u = (taken s d (.canMode ch l x)).modCan ch.toNat (fun c => { c with
        listen := l == 1, muted := c.muted && x != 1, txdAt := if x = 1 then [] else c.txdAt }) ∧
      exec (.canMode d ch l x) s = .next (answered (netEval (canSync u ch.toNat) ch.toNat) d stOk 0 0 0)) ∧
  (∀ (s : State) (d : Desc) (ch : BitVec 4), s.canEnabled ch.toNat = true → (s.canCh ch.toNat).conf = 2 →
    s.canF ch.toNat 4 1 = 0 → Ready s d (.canRecover ch) = true → exec (.canRecover d ch) s = .next (answered
      ((taken s d (.canRecover ch)).modCan ch.toNat (fun c => { c with conf := 3 })) d stOk 0 0 0)) ∧
  (∀ (s : State) (d : Desc) (ch : BitVec 4), s.canEnabled ch.toNat = false ∨ (s.canCh ch.toNat).conf ≠ 2 ∨
    s.canF ch.toNat 4 1 = 1 → Ready s d (.canRecover ch) = true →
    exec (.canRecover d ch) s = .next (answered (taken s d (.canRecover ch)) d stRefusedState 0 0 0)) ∧
  (∀ (s : State) (d : Desc) (ch : BitVec 4) (fmt : BitVec 2) (brs ide : BitVec 1) (sl : BitVec 5) (cl : BitVec 1)
    (id : BitVec 29) (c : HostCmd), c = .canTtWrite ch fmt brs ide sl cl id → Ready s d c = true →
    s.canAway ch.toNat = true ∨ (s.canCh ch.toNat).listen = true ∨ s.canRcBars ch.toNat = true →
    exec (.canTtWrite d ch fmt brs ide sl cl id) s = .next (answered (taken s d c) d stRefusedState 0 0 0)) ∧
  (∀ (s : State) (d : Desc) (ch : BitVec 4) (fmt : BitVec 2) (brs ide : BitVec 1) (sl : BitVec 5) (id : BitVec 29)
    (c : HostCmd), c = .canTtWrite ch fmt brs ide sl 1 id → Ready s d c = true → s.canAway ch.toNat = false →
    (s.canCh ch.toNat).listen = false → s.canRcBars ch.toNat = false →
    exec (.canTtWrite d ch fmt brs ide sl 1 id) s = .next (answered ((taken s d c).modCan ch.toNat (fun x => { x with
      slots := vset x.slots sl.toNat none })) d stOk 0 0 0)) ∧
  (∀ (s : State) (d : Desc) (ch : BitVec 4) (fmt : BitVec 2) (brs ide : BitVec 1) (sl : BitVec 5) (id : BitVec 29)
    (c : HostCmd) (l : Nat), c = .canTtWrite ch fmt brs ide sl 0 id → Ready s d c = true → s.canAway ch.toNat = false →
    (s.canCh ch.toNat).listen = false → s.canRcBars ch.toNat = false → fmt ≠ 2 →
    s.fmtAllowed ch.toNat fmt.toNat = true → (brs = 1 → fmt = 1) →
    dlcOf fmt.toNat (payloadOf s d c).length = some l →
    exec (.canTtWrite d ch fmt brs ide sl 0 id) s = .next (answered ((taken s d c).modCan ch.toNat (fun x => { x with
      slots := vset x.slots sl.toNat (some {
        id := id, ide := ide == 1, fmt := fmt, brs := brs == 1,
        data := payloadOf s d c, dlc := BitVec.ofNat 4 l }) })) d stOk 0 0 0)) ∧
  (∀ (s : State) (d : Desc) (ch : BitVec 4) (fmt : BitVec 2) (brs ide : BitVec 1) (sl : BitVec 5) (id : BitVec 29)
    (c : HostCmd), c = .canTtWrite ch fmt brs ide sl 0 id → Ready s d c = true → s.canAway ch.toNat = false →
    (s.canCh ch.toNat).listen = false → s.canRcBars ch.toNat = false →
    fmt = 2 ∨ s.fmtAllowed ch.toNat fmt.toNat = false ∨ (brs = 1 ∧ fmt ≠ 1) ∨
      dlcOf fmt.toNat (payloadOf s d c).length = none →
    exec (.canTtWrite d ch fmt brs ide sl 0 id) s = .next (answered (taken s d c) d canFormat 0 0 0)) ∧
  (∀ (s : State) (d : Desc) (cf : BitVec 3) (act : BitVec 2) (ad : BitVec 8), s.rec? 12 4 cf.toNat = none →
    Ready s d (.canAc cf act ad) = true →
    exec (.canAc d cf act ad) s = .next (answered (taken s d (.canAc cf act ad)) d stRefusedState 0 0 0)) ∧
  (∀ (s : State) (d : Desc) (cf : BitVec 3) (act : BitVec 2) (ad : BitVec 8) (r : Rec), s.rec? 12 4 cf.toNat = some r →
    s.canAway (r.f 2 24 4) = true → Ready s d (.canAc cf act ad) = true →
    exec (.canAc d cf act ad) s = .next (answered (taken s d (.canAc cf act ad)) d stRefusedState 0 0 0)) ∧
  (∀ (s : State) (d : Desc) (cf : BitVec 3) (act : BitVec 2) (ad : BitVec 8) (r : Rec), s.rec? 12 4 cf.toNat = some r →
    s.canAway (r.f 2 24 4) = false → Ready s d (.canAc cf act ad) = true → ∃ (u w : State),
      u = (taken s d (.canAc cf act ad)).modCf cf.toNat (fun f => { f with ch := BitVec.ofNat 4 (r.f 2 24 4) }) ∧
      w = (if act = 0 then claimStart u cf.toNat (BitVec.ofNat 8 (r.f 2 0 8))
        else if act = 1 then cannotClaim (logEvent u 0x0C0B [r.f 2 24 4, cf.toNat]) cf.toNat
        else claimStart u cf.toNat ad) ∧
      exec (.canAc d cf act ad) s = .next (answered (netEval w (r.f 2 24 4)) d stOk 0 0 0)) ∧
  (∀ (s : State) (k : Fin 8) (x : BitVec 8), (vget (claimStart s k x).can.cf k).st = 1 ∧
    (vget (claimStart s k x).can.cf k).want = x ∧ (vget (cannotClaim s k).can.cf k).st = 3 ∧
    (vget (cannotClaim s k).can.cf k).addr = 0xFE) ∧
  (∀ (s : State) (d : Desc) (ch : BitVec 4), s.canEnabled ch.toNat = true → Ready s d (.canRead ch) = true →
    exec (.canRead d ch) s = .next (answered (taken s d (.canRead ch)) d stOk 0 (canStat s ch.toNat)
      (canErr s ch.toNat))) ∧
  (∀ (s : State) (d : Desc) (ch : BitVec 4), s.canEnabled ch.toNat = false → Ready s d (.canRead ch) = true →
    exec (.canRead d ch) s = .next (answered (taken s d (.canRead ch)) d stRefusedState 0 0 0))

/-- What happens to frames on the bus (R434, R438, R441 to R452, R462, R463): the commit to a start-of-frame, success,
errors, lost arbitration, reception and its filters. Clauses here rest on choices of the model, not on rules of the
spec: log entries 47, 48, 52, 53. -/
def Obligations.CanFramesOnTheBus : Prop :=
  (∀ (s : State) (ch : Fin 10), s.canIdle ch = false → exec (.canSofCommit ch) s = .next s) ∧
  (∀ (s : State) (ch : Fin 10) (b : Nat), s.canIdle ch = true → s.startable ch ≠ [] →
    s.firstOf ch (s.startable ch) = some b → exec (.canSofCommit ch) s = .next (s.modCan ch (fun c => { c with
      onBus := some b, busAt := s.clk.ns,
      tb := vset c.tb b ((vget c.tb b).map (fun f => { f with sof := s.weave.time })) }))) ∧
  (∀ (s : State) (ch : Fin 10), s.canIdle ch = true → s.startable ch = [] → s.nextRipe ch = none →
    exec (.canSofCommit ch) s = .next s) ∧
  (∀ (s : State) (ch : Fin 10) (x : BitVec 7) (k : BitVec 3) (b : Bool), s.onWire ch = none →
    exec (.canTxSuccess ch x) s = .next s ∧ exec (.canTxError ch k b x) s = .next s ∧
    exec (.canArbLost ch) s = .next s) ∧
  (∀ (s : State) (ch : Fin 10) (x : BitVec 7) (b : Nat) (f : TxFrame) (a : Act) (k : Option Nat),
    s.onWire ch = some (b, f) → f.kind = .host a k → f.cancels = [] → ∃ u : State,
      u = confine (endAckRun (((freeTb (measureDelay s ch f.frame x) ch b).modCan ch (fun c => { c with
        tec := c.tec - 1 })).send (.can ch f.frame)) ch) ch ∧
      exec (.canTxSuccess ch x) s = .next (afterFrame (canFill (netSent (txComplete u { f with
        attempts := f.attempts + 1 } b stOk) ch f.kind true) ch) ch)) ∧
  (∀ (s : State) (ch : Fin 10) (x : BitVec 7) (b : Nat) (f : TxFrame), s.onWire ch = some (b, f) → ∃ t : State,
    exec (.canTxSuccess ch x) s = .next t ∧ (t.canCh ch).tec = (s.canCh ch).tec - 1 ∧ (t.canCh ch).onBus = none ∧
    (t.canCh ch).ackRun = 0 ∧ (t.canCh ch).alone = false) ∧
  (∀ (s : State) (ch : Fin 10) (x : BitVec 7) (y : Bool) (b : Nat) (f : TxFrame), s.onWire ch = some (b, f) →
    (s.canCh ch).ackRun = 31 → (s.canCh ch).alone = false → ∃ t : State, exec (.canTxError ch 3 y x) s = .next t ∧
      (t.canCh ch).alone = true ∧ (t.canCh ch).backoff = some (s.clk.ns + 10000000) ∧ (t.canCh ch).lec = 3) ∧
  (∀ (s : State) (ch : Fin 10) (x : BitVec 7) (e : BitVec 3) (y : Bool) (b : Nat) (f : TxFrame) (a : Act) (k : Option Nat),
    s.onWire ch = some (b, f) → f.kind = .host a k → f.cancels = [] → b < 3 → (s.canCh ch).sched = false →
    (s.canCh ch).tec + 8 ≤ 255 → f.attempts < s.retryMax ch f → ∃ t : State, exec (.canTxError ch e y x) s = .next t ∧
      vget (t.canCh ch).tb b = some { f with
        attempts := f.attempts + 1,
        ackErrors := f.ackErrors + (if e = 3 then 1 else 0), other := f.other || e != 3 } ∧
      (t.canCh ch).onBus = none ∧ (t.canCh ch).tec = (if (s.canCh ch).conf = 1 ∧ e = 3 ∧ y = false then (s.canCh ch).tec
        else (s.canCh ch).tec + 8)) ∧
  (∀ (s : State) (ch : Fin 10) (x : BitVec 7) (e : BitVec 3) (y : Bool) (b : Nat) (f : TxFrame) (a : Act) (k : Option Nat),
    s.onWire ch = some (b, f) → f.kind = .host a k → f.cancels = [] → s.retryMax ch f ≤ f.attempts →
    ∃ (g : TxFrame) (v w : State),
      g = { f with
                   attempts := f.attempts + 1, ackErrors := f.ackErrors + (if e = 3 then 1 else 0),
                   other := f.other || e != 3 } ∧
      v = (measureDelay s ch f.frame x).modCan ch (fun c => { c with
        lec := e, tec := if (s.canCh ch).conf = 1 ∧ e = 3 ∧ y = false then c.tec else c.tec + 8 }) ∧
      w = (startBackoff (if e = 3 then countAck v ch else v) ch).modCan ch (fun c => { c with
        onBus := none, tb := vset c.tb b (some g) }) ∧
      exec (.canTxError ch e y x) s = .next (afterFrame (canFill (confine (netSent (txComplete (freeTb w ch b) g b
        (if g.other then canTxErrorStatus else stNoAck)) ch f.kind false) ch) ch) ch)) ∧
  (∀ (s : State) (ch : Fin 10) (b : Nat) (f : TxFrame) (a : Act) (k : Option Nat), s.onWire ch = some (b, f) →
    f.kind = .host a k → f.cancels = [] → b < 3 → (s.canCh ch).sched = false → ∃ t : State,
      exec (.canArbLost ch) s = .next t ∧ vget (t.canCh ch).tb b = some f ∧ (t.canCh ch).onBus = none ∧
      (t.canCh ch).tec = (s.canCh ch).tec) ∧
  (∀ (s : State) (ch : Fin 10) (f : CanFrame) (x : BitVec 64), s.canHears ch = false ∨
    (f.fmt = 1 ∧ s.canF ch 2 1 = 0) ∨ (f.fmt = 2 ∧ s.canF ch 3 1 = 0) → exec (.canFrameRx ch f x) s = .next s) ∧
  (∀ (s : State) (ch : Fin 10) (f : CanFrame) (x : BitVec 64), s.canHears ch = true → f.fmt = 0 →
    (s.canCh ch).tec ≤ 255 → ∃ t : State, exec (.canFrameRx ch f x) s = .next t ∧ (t.canCh ch).ackRun = 0 ∧
      (t.canCh ch).alone = false ∧ ((s.canCh ch).rcv ≤ 127 → (t.canCh ch).rcv = (s.canCh ch).rcv - 1)) ∧
  (∀ (s : State) (ch : Fin 10) (f : CanFrame) (x : BitVec 64), s.canHears ch = true → f.fmt = 0 → ∃ u : State,
    u = netSeen (expectSeen (endAckRun (confine (recvOk s ch) ch) ch) ch f x) ch f ∧
    exec (.canFrameRx ch f x) s = .next (netEval (servicesRx (speedFrame (filterFrame u ch f x) ch f) ch f) ch)) ∧
  (∀ (s : State) (n : Nat) (f : CanFrame) (x : BitVec 64) (i : Nat) (r : Rec), i < 32 →
    s.rec? 12 2 (32 * n + i) = some r → filterTakes r f = true → r.f 2 7 1 = 0 →
    (∀ j, j < i → (s.rec? 12 2 (32 * n + j)).all (fun q => !filterTakes q f) = true) →
    filterFrame s n f x = inbound s (r.f 2 0 7) 12 (i + 2 ^ 8 * n) x.toNat (canItem f)) ∧
  (∀ (s : State) (n : Nat) (f : CanFrame) (x : BitVec 64),
    (∀ j : Fin 32, (s.rec? 12 2 (32 * n + j)).all (fun q => !filterTakes q f) = true) →
    filterFrame s n f x = s.modCan n (fun c => { c with noMatch := c.noMatch + 1 })) ∧
  (∀ (s : State) (ch : Fin 10) (e : BitVec 3) (b : Bool), s.canHears ch = false →
    exec (.canRxError ch e b) s = .next s) ∧
  (∀ (s : State) (ch : Fin 10) (e : BitVec 3) (b : Bool), s.canHears ch = true → (s.canCh ch).tec ≤ 255 → ∃ t : State,
    exec (.canRxError ch e b) s = .next t ∧ (t.canCh ch).rcv = (s.canCh ch).rcv + (if b then 8 else 1) ∧
    (t.canCh ch).lec = e ∧ (t.canCh ch).tec = (s.canCh ch).tec) ∧
  (∀ (s : State) (ch : Fin 10), exec (.protocolException ch) s = .next s)

/-- Bus-off and ALONE, muting, the windows of the schedule matrix, and the timers of the services (R449, R451, R453 to
R459, R467, R469, R470). Clauses here rest on choices of the model, not on rules of the spec: log entries 48, 58, 59,
60, 61. -/
def Obligations.CanRecoveryAndSchedule : Prop :=
  (∀ (s : State) (ch : Fin 10), (s.canCh ch).conf ≠ 2 ∨ s.canF ch 4 1 = 0 →
    exec (.busOffWaitExpiry ch) s = .next s) ∧
  (∀ (s : State) (ch : Fin 10), (s.canCh ch).conf = 2 → s.canF ch 4 1 = 1 → exec (.busOffWaitExpiry ch) s = .next
    ((s.reach ((s.canCh ch).boAt + s.canF ch 16 8 * 10 * ms)).modCan ch (fun c => { c with conf := 3 }))) ∧
  (∀ (s : State) (ch : Fin 10), (s.canCh ch).conf ≠ 3 → exec (.busOffRecovered ch) s = .next s) ∧
  (∀ (s : State) (ch : Fin 10), (s.canCh ch).conf = 3 → ∃ t : State, exec (.busOffRecovered ch) s = .next t ∧
    t = netEval (claimAgain (canSync (logEvent (s.modCan ch (fun c => { c with conf := 0, tec := 0, rcv := 0 })) 0x0C03
      [ch.val]) ch) ch) ch ∧
    (t.canCh ch).conf = 0 ∧ (t.canCh ch).tec = 0 ∧ (t.canCh ch).rcv = 0) ∧
  (∀ (s : State) (ch : Fin 10), (s.canCh ch).backoff = none → exec (.aloneBackoffExpiry ch) s = .next s) ∧
  (∀ (s : State) (ch : Fin 10) (x : Nat), (s.canCh ch).backoff = some x → exec (.aloneBackoffExpiry ch) s = .next
    ((s.reach x).modCan ch (fun c => { c with backoff := none }))) ∧
  (∀ (s : State) (ch : Fin 10), exec (.txdTimeout ch) s = .next (logEvent (s.modCan ch (fun c => { c with
    txdAt := (s.clk.ns :: c.txdAt).take 3 })) 0x0C06 [ch.val])) ∧
  (∀ (s : State) (ch : Fin 10) (a b z : Nat) (l : List Nat), (s.canCh ch).txdAt = a :: b :: z :: l → a ≤ z + sec →
    exec (.channelMute ch) s = .next (muteChannel s ch 0)) ∧
  (∀ (s : State) (ch : Fin 10), txdThrice (s.canCh ch) = false → (s.canCh ch).onBus.isSome = true →
    exec (.channelMute ch) s = .next (muteChannel (s.reach ((s.canCh ch).busAt + 50000000)) ch 1)) ∧
  (∀ (s : State) (ch : Fin 10) (k : Nat), ((muteChannel s ch k).canCh ch).muted = true) ∧
  (∀ (s : State) (ch : Fin 10), txdThrice (s.canCh ch) = false → (s.canCh ch).onBus = none →
    exec (.channelMute ch) s = .next s) ∧
  (∀ (s : State) (ch : Fin 10) (b : Bool), s.schedRec ch = none → exec (.schedWindowOpen ch) s = .next s ∧
    exec (.schedLateMax ch) s = .next s ∧ exec (.schedWindowClose ch b) s = .next s) ∧
  (∀ (s : State) (ch : Fin 10) (r : Rec) (k : Nat), s.schedRec ch = some r → (s.canCh ch).sched = false →
    s.schedMay ch = true → s.schedTimed ch = true → k = nextMatrix r (s.schedRows ch) s.weave.time.toNat →
    exec (.schedWindowOpen ch) s = .next (openWindow (logEvent ((s.modCan ch (fun c => { c with
      sched := true, schedEnding := false, cycle := k, window := 0 })).reachWeave (BitVec.ofNat 64 (cycleStart r k))) 0x0C09
      [ch.val, 0xFF]) ch r k 0)) ∧
  (∀ (s : State) (ch : Fin 10) (r : Rec) (k w : Nat), ((openWindow s ch r k w).canCh ch).windowOpen = true ∧
    ((openWindow s ch r k w).canCh ch).cycle = k ∧ ((openWindow s ch r k w).canCh ch).window = w ∧
    ((openWindow s ch r k w).canCh ch).windowDone = false) ∧
  (∀ (s : State) (ch : Fin 10) (r : Rec), s.schedRec ch = some r → (s.canCh ch).sched = false →
    s.schedMay ch = false ∨ s.schedTimed ch = false → exec (.schedWindowOpen ch) s = .next s) ∧
  (∀ (s : State) (ch : Fin 10) (r : Rec) (x : Nat × Nat), s.schedRec ch = some r → (s.canCh ch).sched = true →
    s.schedMay ch = true → s.schedTimed ch = true → (s.canCh ch).windowOpen = false →
    x = nextWindow r (s.canCh ch).cycle (s.canCh ch).window →
    exec (.schedWindowOpen ch) s = .next (openWindow (s.modCan ch (fun c => { c with schedEnding := false })) ch r x.1
      x.2)) ∧
  (∀ (s : State) (ch : Fin 10) (r : Rec), s.schedRec ch = some r → (s.canCh ch).sched = true → s.schedMay ch = false →
    exec (.schedWindowOpen ch) s = .next (schedStop s ch 1)) ∧
  (∀ (s : State) (ch : Fin 10) (r : Rec), s.schedRec ch = some r → (s.canCh ch).sched = true →
    (s.canCh ch).windowOpen = true → (s.openCell ch r).1 = 1 → (s.canCh ch).onBus ≠ some 2 →
    exec (.schedLateMax ch) s = .next ((s.reachWeave (BitVec.ofNat 64 (windowStart r (s.canCh ch).cycle
      (s.canCh ch).window + r.f 3 16 16 * 1000))).modCan ch (fun c => { c with tb := vset c.tb 2 none }))) ∧
  (∀ (s : State) (ch : Fin 10) (r : Rec) (b : Bool), s.schedRec ch = some r → (s.canCh ch).sched = false ∨
    (s.canCh ch).windowOpen = false → exec (.schedLateMax ch) s = .next s ∧ exec (.schedWindowClose ch b) s = .next s) ∧
  (∀ (s : State) (ch : Fin 10) (r : Rec) (b : Bool), s.schedRec ch = some r → (s.canCh ch).sched = true →
    (s.canCh ch).windowOpen = true → (s.canCh ch).windowDone = false → (s.canCh ch).onBus = none → ∃ (x : Nat × Nat)
      (t : State), x = nextWindow r (s.canCh ch).cycle (s.canCh ch).window ∧ exec (.schedWindowClose ch b) s = .next t ∧
      t = closeWindow (s.reachWeave (BitVec.ofNat 64 (windowStart r x.1 x.2))) ch r b ∧ (t.canCh ch).windowOpen = false ∧
      ((s.openCell ch r).1 = 2 → (t.canCh ch).missed = (s.canCh ch).missed + (if b then 0 else 1))) ∧
  (∀ (s : State) (k : Fin 8), (vget s.can.cf k).st ≠ 1 → exec (.addressClaimTimeout k) s = .next s) ∧
  (∀ (s : State) (k : Fin 8), (vget s.can.cf k).st = 1 → exec (.addressClaimTimeout k) s = .next (netEval
    (logEvent (s.modCf k (fun f => { f with st := 2, addr := f.want })) 0x0C0A [(vget s.can.cf k).ch.toNat, k.val,
      (vget s.can.cf k).want.toNat]) (vget s.can.cf k).ch.toNat)) ∧
  (∀ (s : State) (k : Fin 32), s.sendOf k = none → exec (.tpTimer true k) s = .next s) ∧
  (∀ (s : State) (k : Fin 32), s.can.tpRecv.find? (fun y => y.id == k.val) = none →
    exec (.tpTimer false k) s = .next s) ∧
  (∀ (s : State) (k : Fin 32) (x : TpSend), s.sendOf k = some x → x.wait = .packet → x.sent < x.upTo →
    exec (.tpTimer true k) s = .next (netEval (tpNext (s.reach (x.lastAt + 50000000)) x) x.ch)) ∧
  (∀ (s : State) (k : Fin 32) (x : TpSend), s.sendOf k = some x → x.wait = .packet → x.upTo ≤ x.sent →
    exec (.tpTimer true k) s = .next (netEval (tpEnd (s.reach (x.lastAt + 50000000)) x stOk 0 x.data.length) x.ch)) ∧
  (∀ (s : State) (k : Fin 32) (x : TpSend), s.sendOf k = some x → x.wait = .peer → exec (.tpTimer true k) s = .next
    (netEval (tpEnd (logEvent (tpSendAbort s x abTimeout) 0x0C0C [x.ch, x.cf, x.pgn.toNat, 3]) x stTimeout 0 0) x.ch)) ∧
  (∀ (s : State) (x : TpSend) (a : Act) (st dt r0 : Nat), x.act = some a → tpEnd s x st dt r0 = complete { s with
    can.tpSend := s.can.tpSend.filter (fun y => y.id != x.id) } a.d st dt s.weave.time.toNat r0 0) ∧
  (∀ (s : State) (k : Fin 32) (y : TpRecv), s.can.tpRecv.find? (fun y => y.id == k.val) = some y → ∃ u : State,
    u = (if y.bam then s else recvCm s y [0xFF, 3, 0xFF, 0xFF, 0xFF]) ∧
    exec (.tpTimer false k) s = .next (netEval (logEvent (recvEnd u y) 0x0C0C [y.ch, y.cf, y.pgn.toNat, 3]) y.ch))

/-! ## The sleep agreement -/

/-- Keep-alives, the expiries of a bus and source bars (R480 to R485, R488, R491, R499, R500). Clauses here rest on
choices of the model, not on rules of the spec: log entries 40, 66, 67. -/
def Obligations.BusesAgreeToSleep : Prop :=
  (∀ (s : State) (n : Fin 10), s.netRuns = false ∨ s.netHas n = false ∨ (s.netBus n).need = false ∨ s.busUp n = false →
    exec (.keepAliveTx n) s = .next s) ∧
  (∀ (s : State) (n : Fin 10), s.netRuns = true → s.netHas n = true → (s.netBus n).need = true → s.busUp n = true →
    s.netF n 3 30 1 = 0 ∨ s.canListens n = true → ∃ u : State,
      u = s.reach ((s.netBus n).kaAt + s.netF n 0 0 8 * 100 * ms) ∧
      exec (.keepAliveTx n) s = .next (u.modBus n (fun b => { b with kaAt := u.clk.ns }))) ∧
  (∀ (s : State) (n : Fin 10), s.netRuns = true → s.netHas n = true → (s.netBus n).need = true → s.busUp n = true →
    s.netF n 3 30 1 = 1 → s.canListens n = false → (s.canCh n).conf.toNat < 2 → (s.canCh n).queue.length < 64 →
    ∃ (u t : State), u = s.reach ((s.netBus n).kaAt + s.netF n 0 0 8 * 100 * ms) ∧ exec (.keepAliveTx n) s = .next t ∧
      t = sendKa u n ∧ (t.netBus n).seq = (s.netBus n).seq + 1 ∧ (t.netBus n).kaAt = u.clk.ns) ∧
  (∀ (s : State) (n : Fin 10), s.netRuns = false ∨ s.netHas n = false ∨ s.busSt n ≠ .awake →
    exec (.sleepTimeout n) s = .next s) ∧
  (∀ (s : State) (n : Fin 10), (s.netBus n).wakeUntil = none → (s.netBus n).need = true →
    exec (.sleepTimeout n) s = .next s) ∧
  (∀ (s : State) (n : Fin 10) (k : Nat), s.netRuns = true → s.netHas n = true → s.busSt n = .awake →
    (s.netBus n).wakeUntil = none → (s.netBus n).need = false → (s.netBus n).lastKa = some k → ∃ (u t : State),
      u = s.reach (max k (s.netBus n).needEnd + s.netSleep n) ∧ exec (.sleepTimeout n) s = .next t ∧
      t = trackRun (setBus u n .ready) n ∧ (t.netBus n).st = .ready ∧ (t.netBus n).graceAt = u.clk.ns ∧
      (t.netBus n).errs = 0) ∧
  (∀ (s : State) (n : Fin 10) (x : Nat), s.netRuns = true → s.netHas n = true → s.busSt n = .awake →
    (s.netBus n).wakeUntil = some x → ∃ u : State,
      u = netEval ((s.reach x).modBus n (fun b => { b with wakeUntil := none })) n ∧
      ((u.netBus n).need = true → exec (.sleepTimeout n) s = .next u) ∧
      ((u.netBus n).need = false → exec (.sleepTimeout n) s = .next (trackRun (setBus (u.reach
        ((u.netBus n).lastKa.elim (u.netBus n).needEnd (fun t => max t (u.netBus n).needEnd) + u.netSleep n)) n .ready)
        n))) ∧
  (∀ (s : State) (n : Fin 10) (b : Bool), s.netRuns = false ∨ s.busSt n ≠ .ready →
    exec (.graceExpiry n b) s = .next s) ∧
  (∀ (s : State) (n : Fin 10), s.netRuns = true → s.busSt n = .ready → (s.canCh n).onBus = none →
    exec (.graceExpiry n true) s = .next (judge (busSleep (s.reach ((s.netBus n).graceAt + s.netF n 0 16 8 * 100 * ms))
      n))) ∧
  (∀ (s : State) (n : Fin 10), ((busSleep s n).netBus n).st = .asleep ∧
    ((busSleep s n).netBus n).armBus = s.rec? 13 1 n ∧ ((busSleep s n).netBus n).armPats = s.wakePats n) ∧
  (∀ (s : State) (n : Fin 10) (i : Bool), s.netRuns = true → s.busSt n = .ready → i = false ∨
    (s.canCh n).onBus.isSome = true → ∃ u : State, u = s.reach ((s.netBus n).graceAt + s.netF n 0 16 8 * 100 * ms) ∧
      exec (.graceExpiry n i) s = .next (u.modBus n (fun b => { b with graceAt := u.clk.ns }))) ∧
  (∀ (s : State) (n : Fin 10), s.netRuns = false ∨ s.netF n 0 24 8 = 0 ∨ soleHold s n = none →
    exec (.sourceBar n) s = .next s) ∧
  (∀ (s : State) (n : Fin 10) (k : BitVec 29) (a : Nat), s.netRuns = true → s.netF n 0 24 8 ≠ 0 →
    soleHold s n = some (k, a) → exec (.sourceBar n) s = .next (logEvent
      ((s.reach (a + s.netF n 0 24 8 * 60 * sec)).modBus n (fun b => { b with
        bars := (b.bars ++ [k]).drop ((b.bars ++ [k]).length - 4), srcs := b.srcs.filter (fun x => x.key != k) })) 0x0D04
      [n.val, k.toNat]))

/-- Wake detection on a sleeping bus and the commands of NET (R486, R487, R493 to R498, R501, R503, Table 13.8). Clauses
here rest on choices of the model, not on rules of the spec: log entries 62, 63, 64, 65. -/
def Obligations.BusesWakeAndAreCommanded : Prop :=
  (∀ (b : NetBus) (r : Rec) (x : WakeSignal), b.armBus = some r → r.f 1 30 2 = 0 → detect b x = (none, b.errs)) ∧
  (∀ (b : NetBus) (r : Rec) (f : CanFrame), b.armBus = some r → r.f 1 30 2 = 1 →
    detect b .edge = (some (1, 0), b.errs) ∧ detect b (.frame f) = (some (1, 0), b.errs) ∧
    detect b .error = (none, b.errs)) ∧
  (∀ (b : NetBus) (r : Rec) (f : CanFrame), b.armBus = some r → r.f 1 30 2 = 2 →
    srcKey r f ∈ b.bars ∨ f.fmt = 2 ∨ (∀ p ∈ b.armPats, patMatches p.2 f = false) → (detect b (.frame f)).1 = none) ∧
  (∀ (b : NetBus) (r : Rec) (f : CanFrame) (p : Nat × Rec), b.armBus = some r → r.f 1 30 2 = 2 → f.fmt ≠ 2 →
    srcKey r f ∉ b.bars → p ∈ b.armPats → patMatches p.2 f = true →
    (detect b (.frame f)).1.map (fun x => x.1) = some 0) ∧
  (∀ (b : NetBus) (r : Rec), b.armBus = some r → r.f 1 30 2 = 2 → r.f 4 8 8 ≤ b.errs + 1 →
    detect b .error = (some (2, 0), 0)) ∧
  (∀ (b : NetBus) (r : Rec), b.armBus = some r → r.f 1 30 2 = 2 → b.errs + 1 < r.f 4 8 8 →
    detect b .error = (none, b.errs + 1)) ∧
  (∀ (b : NetBus) (r : Rec) (f : CanFrame), b.armBus = some r → r.f 1 30 2 = 2 → f.fmt = 0 →
    (detect b (.frame f)).2 = b.errs - 1) ∧
  (∀ (s : State) (n : Fin 10) (x : WakeSignal), s.busSt n ≠ .asleep → exec (.busWake n x) s = .next s) ∧
  (∀ (s : State) (n : Fin 10) (x : WakeSignal), s.busSt n = .asleep → (detect (s.netBus n) x).1 = none ∨
    s.pwr.mode = .storage →
    exec (.busWake n x) s = .next (s.modBus n (fun b => { b with errs := (detect (s.netBus n) x).2 }))) ∧
  (∀ (s : State) (n : Fin 10) (x : WakeSignal) (c : BitVec 2) (p : BitVec 3), s.busSt n = .asleep →
    s.pwr.mode ≠ .storage → (detect (s.netBus n) x).1 = some (c, p) → exec (.busWake n x) s = .next (judge (wakeUp
      (busWoken (s.modBus n (fun b => { b with errs := (detect (s.netBus n) x).2 })) n c p true) (.net n)))) ∧
  (∀ (s : State) (n : Fin 10) (c : BitVec 2) (p : BitVec 3), s.busSt n = .asleep →
    ((busWoken s n c p true).netBus n).st = .awake ∧ ((busWoken s n c p true).netBus n).wakeCause = c ∧
    ((busWoken s n c p true).netBus n).wakePat = p ∧ (busWoken s n c p true).net.wakeSrc.getLsbD n = true) ∧
  (∀ (s : State) (n : Fin 10) (f : Option CanFrame), s.busSt n = .awake ∨ s.busSt n = .standby →
    exec (.selectiveDetectorDecode n f) s = .next s) ∧
  (∀ (s : State) (n : Fin 10) (f : Option CanFrame) (r : Rec), s.busSt n = .asleep → (s.netBus n).armBus = some r →
    r.f 1 30 2 ≠ 2 → exec (.selectiveDetectorDecode n f) s = .next s) ∧
  (∀ (s : State) (n : Fin 10) (f : Option CanFrame) (r : Rec), s.busSt n = .asleep → (s.netBus n).armBus = some r →
    r.f 1 30 2 = 2 → (selective (s.netBus n) f).1 = none → exec (.selectiveDetectorDecode n f) s = .next
      (s.modBus n (fun b => { b with errs := (selective (s.netBus n) f).2 }))) ∧
  (∀ (s : State) (n : Fin 10) (f : Option CanFrame) (r : Rec) (c : BitVec 2) (p : BitVec 3), s.busSt n = .asleep →
    (s.netBus n).armBus = some r → r.f 1 30 2 = 2 → (selective (s.netBus n) f).1 = some (c, p) →
    s.pwr.mode ≠ .storage → exec (.selectiveDetectorDecode n f) s = .next (judge (wakeUp (busWoken
      (s.modBus n (fun b => { b with errs := (selective (s.netBus n) f).2 })) n c p true) (.net n)))) ∧
  (∀ (s : State) (n : Fin 10) (f : Option CanFrame), s.busSt n = .ready → s.netF n 1 30 2 ≠ 2 →
    exec (.selectiveDetectorDecode n f) s = .next s) ∧
  (∀ (s : State) (n : Fin 10) (f : Option CanFrame), s.busSt n = .ready → s.netF n 1 30 2 = 2 → ∃ b : NetBus,
    b = { s.netBus n with armBus := s.rec? 13 1 n, armPats := [] } ∧ exec (.selectiveDetectorDecode n f) s = .next
      (s.modBus n (fun x => { x with errs := (selective b f).2 }))) ∧
  (∀ (s : State) (d : Desc) (m : BitVec 10) (h : BitVec 1), s.namesStandby m = true → Ready s d (.netHold m h) = true →
    exec (.netHold d m h) s = .next (answered (taken s d (.netHold m h)) d stRefusedState 0 0 0)) ∧
  (∀ (s : State) (d : Desc) (m : BitVec 10), s.namesStandby m = true → Ready s d (.netWake m) = true →
    exec (.netWake d m) s = .next (answered (taken s d (.netWake m)) d stRefusedState 0 0 0)) ∧
  (∀ (s : State) (d : Desc) (m : BitVec 10) (h : BitVec 1), Ready s d (.netHold m h) = true → s.namesStandby m = false →
    exec (.netHold d m h) s = .next (answered (netAll ((maskList m).foldl (fun s n => s.modBus n (fun b => { b with
      host := h == 1 })) (taken s d (.netHold m h)))) d stOk 0 0 0)) ∧
  (∀ (s : State) (d : Desc) (m : BitVec 10), Ready s d (.netWake m) = true → s.namesStandby m = false →
    (∀ n ∈ maskList m, s.busSt n ≠ .asleep) →
    exec (.netWake d m) s = .next (answered (taken s d (.netWake m)) d stOk 0 0 0)) ∧
  (∀ (s : State) (d : Desc) (m : BitVec 10) (n : Nat), Ready s d (.netWake m) = true → s.namesStandby m = false →
    (maskList m).filter (fun k => s.busSt k == .asleep) = [n] → s.netRuns = true → s.netHas n = true →
    s.canEnabled n = true → 0 < s.netSleep n → ∃ u : State,
      u = netEval ((taken s d (.netWake m)).modBus n (fun b => { b with wakeUntil := some (s.clk.ns + s.netSleep n) })) n ∧
      (u.netBus n).st = .awake ∧ exec (.netWake d m) s = .next (answered u d stOk 0 (2 ^ n) 0)) ∧
  (∀ (s : State) (d : Desc) (m : BitVec 10), Ready s d (.netBarClear m) = true → exec (.netBarClear d m) s = .next
    (answered ((maskList m).foldl (fun s n => endBars s n 2) (taken s d (.netBarClear m))) d stOk 0 0 0)) ∧
  (∀ (s : State) (n : Fin 10) (c : Nat), ((endBars s n c).netBus n).bars = []) ∧
  (∀ (s : State) (d : Desc) (ch : BitVec 4), Ready s d (.netRead ch) = true → exec (.netRead d ch) s = .next (answered
    (taken s d (.netRead ch)) d stOk 0 (netState s ch.toNat) (netBar s ch.toNat)))

/-! ## Plait -/

/-- How a fleet forms and dissolves (R505 to R510, R517 to R521): announcements, JOIN and its answers, links that go
DOWN and what they lose, KL15 as the manager's mode gives it. The hop count that a worker takes from an announcement is
left open. Clauses here rest on choices of the model, not on rules of the spec: log entries 72, 188, 189, 190, 194. -/
def Obligations.FleetsFormAndDissolve : Prop :=
  (∀ (s : State), s.role = .manager → s.isOn .eth = true → s.plaitPort = true →
    exec .mgrAnnounceTx s = .next (s.send (.announce s.plaitPrio Config.eui))) ∧
  (∀ (s : State), s.role ≠ .manager ∨ s.isOn .eth = false ∨ s.plaitPort = false → exec .mgrAnnounceTx s = .next s) ∧
  (∀ (s : State) (p : BitVec 8) (e : BitVec 48), s.isOn .eth = false ∨ s.role = .standalone ∨
    (s.role = .manager ∧ e = Config.eui) → exec (.mgrAnnounceRx p e) s = .next s) ∧
  (∀ (s : State) (p : BitVec 8) (e : BitVec 48), s.isOn .eth = true → s.role = .worker →
    s.linkUp 0 = true ∨ s.plait.joining = true ∨ s.plait.refused = true → exec (.mgrAnnounceRx p e) s = .next s) ∧
  (∀ (s : State) (p : BitVec 8) (e : BitVec 48), s.isOn .eth = true → s.role = .worker → s.linkUp 0 = false →
    s.plait.joining = false → s.plait.refused = false → ∃ t : State, exec (.mgrAnnounceRx p e) s = .next t ∧
      t.plait.joining = true ∧ t.plait.mgr = e ∧
      t.out = s.out ++ [.join s.workerNum t.weave.hops.toNat s.cfg.lastApplied.toNat]) ∧
  (∀ (s : State) (p : BitVec 8) (e : BitVec 48), s.isOn .eth = true → s.role = .manager → e ≠ Config.eui →
    s.plaitPrio < p.toNat ∨ (s.plaitPrio = p.toNat ∧ e.toNat < Config.eui.toNat) → ∃ t : State,
      exec (.mgrAnnounceRx p e) s = .next t ∧ t = logEvent { leaveAll s with plait.isolated := true } 0x0F04 [] ∧
      t.plait.isolated = true) ∧
  (∀ (s : State) (p : BitVec 8) (e : BitVec 48), s.isOn .eth = true → s.role = .manager → e ≠ Config.eui →
    p.toNat ≤ s.plaitPrio → (s.plaitPrio = p.toNat → Config.eui.toNat ≤ e.toNat) →
    exec (.mgrAnnounceRx p e) s = .next (logEvent s 0x0F01 [e.toNat])) ∧
  (∀ (s : State) (w : Fin 32) (h : BitVec 3) (l : BitVec 8), s.role ≠ .manager ∨ s.isOn .eth = false →
    exec (.joinRx w h l) s = .next s) ∧
  (∀ (s : State) (w : Fin 32) (h : BitVec 3) (l : BitVec 8), s.role = .manager → s.isOn .eth = true →
    s.plaitRec 2 w = none →
    exec (.joinRx w h l) s = .next (logEvent (s.send (.refuseJoin w 0)) 0x0F03 [w.val, 0])) ∧
  (∀ (s : State) (w : Fin 32) (h : BitVec 3) (l : BitVec 8), s.role = .manager → s.isOn .eth = true →
    (s.plaitRec 2 w).isSome = true → s.linkUp w = true →
    exec (.joinRx w h l) s = .next (logEvent (s.send (.refuseJoin w 1)) 0x0F03 [w.val, 1])) ∧
  (∀ (s : State) (w : Fin 32) (h : BitVec 3) (l : BitVec 8), s.role = .manager → s.isOn .eth = true →
    (s.plaitRec 2 w).isSome = true → s.linkUp w = false → 6 < h.toNat →
    exec (.joinRx w h l) s = .next (logEvent (s.send (.refuseJoin w 2)) 0x0F03 [w.val, 2])) ∧
  (∀ (s : State) (w : Fin 32) (h : BitVec 3) (l : BitVec 8), s.role = .manager → s.isOn .eth = true →
    (s.plaitRec 2 w).isSome = true → s.linkUp w = false → h.toNat ≤ 6 → ∃ t : State,
      exec (.joinRx w h l) s = .next t ∧ t = linkUpNow (s.send (.admission w)) w h l ∧ t.linkUp w = true ∧
      (t.plink w).hops = h ∧ (t.plink w).lastApplied = l ∧ (t.plink w).txSeq = 0 ∧ (t.plink w).rxSeq = 0) ∧
  (∀ (s : State), s.role = .worker → s.isOn .eth = true → s.plait.joining = true → s.linkUp 0 = false → ∃ t : State,
    exec .admitRx s = .next t ∧ t = linkUpNow { s with plait.joining := false, plait.kl15DownAt := none } 0 s.weave.hops
      s.cfg.lastApplied ∧ t.linkUp 0 = true ∧ t.plait.joining = false) ∧
  (∀ (s : State) (c : BitVec 8), s.role ≠ .worker ∨ s.isOn .eth = false ∨ s.plait.joining = false →
    exec .admitRx s = .next s ∧ exec (.refuseRx c) s = .next s) ∧
  (∀ (s : State) (c : BitVec 8), s.role = .worker → s.isOn .eth = true → s.plait.joining = true →
    exec (.refuseRx c) s = .next (logEvent { s with plait.joining := false, plait.refused := true } 0x0F03
      [s.workerNum, c.toNat])) ∧
  (∀ (s : State), s.role = .worker → s.isOn .eth = true → s.plait.refused = true → s.linkUp 0 = false →
    exec .joinRetry s = .next (State.send { s with plait.joining := true, plait.refused := false }
      (.join s.workerNum s.weave.hops.toNat s.cfg.lastApplied.toNat))) ∧
  (∀ (s : State), s.role ≠ .worker ∨ s.isOn .eth = false ∨ s.plait.refused = false ∨ s.linkUp 0 = true →
    exec .joinRetry s = .next s) ∧
  (∀ (s : State) (w : Fin 32), s.isOn .eth = false ∨ s.linkUp w = false → exec (.leaveRx w) s = .next s ∧
    exec (.deadTimeout w) s = .next s) ∧
  (∀ (s : State) (w : Fin 32), s.isOn .eth = true → exec (.leaveRx w) s = .next (linkDown s w 2) ∧
    exec (.deadTimeout w) s = .next (linkDown s w 1)) ∧
  (∀ (s : State) (d : Desc) (w : BitVec 5), s.role ≠ .manager → Ready s d (.plaitDrop w) = true →
    exec (.plaitDrop d w) s = .next (answered (taken s d (.plaitDrop w)) d notManager 0 0 0)) ∧
  (∀ (s : State) (d : Desc) (w : BitVec 5), s.role = .manager → Ready s d (.plaitDrop w) = true →
    exec (.plaitDrop d w) s = .next (answered (linkDown (taken s d (.plaitDrop w)) w.toNat 3) d stOk 0 0 0)) ∧
  (∀ (s : State) (w : Fin 32) (c : Nat), s.linkUp w = true → (linkDown s w c).linkUp w = false ∧
    ((linkDown s w c).plink w).unacked = [] ∧ ((linkDown s w c).plink w).waiting = []) ∧
  (∀ (s : State) (w : Fin 32) (c : Nat), s.linkUp w = true → s.role ≠ .worker → (linkDown s w c).plait.pLost =
    s.plait.pLost + BitVec.ofNat 16 (((s.plink w).unacked ++ (s.plink w).waiting).filter (fun f => f.cls == 0)).length) ∧
  (∀ (s : State) (w : Fin 32) (c : Nat) (n : Fin 16), s.linkUp w = true → s.role = .worker →
    (s.ringN n).remote = true → ((linkDown s w c).ringN n).enable = false) ∧
  (∀ (s : State) (w : Fin 32) (c : Nat), s.linkUp w = true → s.role = .worker →
    (linkDown s w c).plait.kl15DownAt = some s.clk.ns) ∧
  (∀ (s : State), s.isOn .eth = false ∨ s.role ≠ .manager → exec .modeMsgTx s = .next s) ∧
  (∀ (s : State), s.isOn .eth = true → s.role = .manager → ∃ t : State, exec .modeMsgTx s = .next t ∧ t = sendMode s ∧
    t.plait.lastMode = s.pwr.mode.num) ∧
  (∀ (s : State), s.plait.kl15DownAt = none ∨ s.role ≠ .worker ∨ s.linkUp 0 = true →
    exec .kl15MgrHoldExpiry s = .next s) ∧
  (∀ (s : State) (x : Nat), s.plait.kl15DownAt = some x → s.role = .worker → s.linkUp 0 = false →
    exec .kl15MgrHoldExpiry s = .next (kl15Mgr { s.reach (x + 1000000000) with plait.kl15DownAt := none } false))

/-- Resends, credits, received frames, time-outs, what inbound transactions may touch, tunnelled frames and ports (R513
to R518, R523, R529 to R536, R540, R541, R544, Tables 14.7 and 14.17). Clauses here rest on choices of the model, not on
rules of the spec: log entries 70, 71, 191, 192, 193. -/
def Obligations.LinksCarryFrames : Prop :=
  (∀ (s : State) (w : Fin 32), s.isOn .eth = false ∨ s.linkUp w = false ∨ (s.plink w).unacked = [] →
    exec (.plaitRetxTimeout w) s = .next s) ∧
  (∀ (s : State) (w : Fin 32), s.isOn .eth = true → s.linkUp w = true → (s.plink w).unacked ≠ [] →
    s.plaitLink 1 ≤ (s.plink w).resends → exec (.plaitRetxTimeout w) s = .next (linkDown s w 0)) ∧
  (∀ (s : State) (w : Fin 32), s.isOn .eth = true → s.linkUp w = true → (s.plink w).unacked ≠ [] →
    (s.plink w).resends < s.plaitLink 1 → exec (.plaitRetxTimeout w) s = .next ((s.plink w).unacked.foldl
      (fun s f => s.send (.plait w { s.stamp w f with seq := f.seq }))
      { s.modLink w (fun l => { l with resends := l.resends + 1 }) with
        plait.resendRounds := s.plait.resendRounds + 1 })) ∧
  (∀ (s : State) (w : Fin 32), s.isOn .eth = false ∨ s.linkUp w = false → exec (.creditTx w) s = .next s) ∧
  (∀ (s : State) (w : Fin 32), s.isOn .eth = true → s.linkUp w = true → ∃ t : State, exec (.creditTx w) s = .next t ∧
    t.out = s.out ++ [.plait w (s.stamp w { cls := 4 })] ∧ (t.plink w).txSeq = (s.plink w).txSeq ∧
    (t.plink w).unacked = (s.plink w).unacked) ∧
  (∀ (s : State) (w : Fin 32) (f : PlaitFrame), frameGood s w f = false → exec (.reliableFrameRx w f) s = .next s) ∧
  (∀ (s : State) (w : Fin 32) (f : PlaitFrame) (u : State), s.isOn .eth = true → s.linkUp w = true →
    frameGood s w f = true → u = (ackTake s w f.ack).modLink w (creditTake f) → f.cls = 4 →
    exec (.reliableFrameRx w f) s = .next (plaitPump u w)) ∧
  (∀ (s : State) (w : Fin 32) (f : PlaitFrame) (u : State), s.isOn .eth = true → s.linkUp w = true →
    frameGood s w f = true → u = (ackTake s w f.ack).modLink w (creditTake f) → f.cls ≠ 4 →
    f.seq ≠ (s.plink w).rxSeq → exec (.reliableFrameRx w f) s = .next (plaitPump (sendCredit u w) w)) ∧
  (∀ (s : State) (w : Fin 32) (f : PlaitFrame) (u : State), s.isOn .eth = true → s.linkUp w = true →
    frameGood s w f = true → u = (ackTake s w f.ack).modLink w (creditTake f) → f.cls ≠ 4 →
    f.seq = (s.plink w).rxSeq → exec (.reliableFrameRx w f) s = .next (plaitPump (takeInbound (u.modLink w (fun l => { l with
      rxSeq := l.rxSeq + 1 })) w f) w)) ∧
  (∀ (s : State) (w : Fin 32) (g : BitVec 11), (s.plink w).nps.find? (fun o => o.tag == g) = none →
    exec (.cplTimeout w g) s = .next s) ∧
  (∀ (s : State) (w : Fin 32) (g : BitVec 11) (o : NpOut) (h : BitVec 2) (n : Nat) (wr : Bool),
    (s.plink w).nps.find? (fun o => o.tag == g) = some o → o.why = .core h n wr → ∃ u : State,
      u = (s.reach (o.at_ + s.plaitLink 3 * ms)).modLink w (fun l => { l with
        nps := l.nps.filter (fun x => x.tag != g),
        waiting := l.waiting.filter (fun f => !(f.cls == 1 && f.tag == g)) }) ∧
      exec (.cplTimeout w g) s = .next (bridgeFault u w o.ask wr stTimeout)) ∧
  (∀ (s : State) (w : Fin 32) (g : BitVec 11) (o : NpOut) (a : Act),
    (s.plink w).nps.find? (fun o => o.tag == g) = some o → o.why = .ping a → ∃ u : State,
      u = (s.reach (o.at_ + s.plaitLink 3 * ms)).modLink w (fun l => { l with
        nps := l.nps.filter (fun x => x.tag != g),
        waiting := l.waiting.filter (fun f => !(f.cls == 1 && f.tag == g)) }) ∧
      exec (.cplTimeout w g) s = .next (refuse u a stTimeout)) ∧
  (∀ (s : State) (w off : Nat) (b : Bool) (x : Nat), (bridgeFault s w off b x).plait.errStatus = BitVec.ofNat 8 x ∧
    (bridgeFault s w off b x).plait.errWorker = BitVec.ofNat 5 w ∧ (bridgeFault s w off b x).plait.errValid = true ∧
    (bridgeFault s w off b x).plait.errAddr = BitVec.ofNat 25 off) ∧
  (∀ (s : State) (w a : Nat) (bs : List (BitVec 8)), hlOk s w a bs.length = false →
    managerWrite s w a bs = (stRefusedState, logEvent s 0x0F0A [w, a])) ∧
  (∀ (s : State) (w a n : Nat), hlOk s w a n = false →
    managerRead s w a n = ((stRefusedState, []), logEvent s 0x0F0A [w, a])) ∧
  (∀ (s : State) (off n a : Nat), busFits off n = true → windowTarget s off = .inr a → regBase ≤ a →
    anySensitive a n = true → workerRead s off n true = ((stSideEffectRefused, []), logEvent s 0x0F06 [off])) ∧
  (∀ (s : State) (off : Nat) (bs : List (BitVec 8)), busFits off bs.length = false →
    workerWrite s off bs = (stSizeUnsupported, s)) ∧
  (∀ (s : State) (off : Nat) (bs : List (BitVec 8)), busFits off bs.length = true → reservedPage off = true →
    workerWrite s off bs = (windowRange, s)) ∧
  (∀ (s : State) (w : Fin 32) (ch : Fin 10) (f : CanFrame) (x : BitVec 64), s.role ≠ .manager ∨ s.isOn .eth = false →
    exec (.tunFrameRx w ch f x) s = .next s) ∧
  (∀ (s : State) (w : Fin 32) (ch : Fin 10) (f : CanFrame) (x : BitVec 64) (r : Rec), s.role = .manager →
    s.isOn .eth = true → s.plaitRec 4 (16 * w.val + ch.val) = some r → exec (.tunFrameRx w ch f x) s = .next (inbound s
      (r.f 0 0 7) 12 (w.val + 2 ^ 8 * ch.val + 2 ^ 12 * 2) x.toNat (canItem f))) ∧
  (∀ (s : State) (w : Fin 32) (ch : Fin 10) (f : CanFrame) (x : BitVec 64), s.role = .manager → s.isOn .eth = true →
    s.plaitRec 4 (16 * w.val + ch.val) = none →
    exec (.tunFrameRx w ch f x) s = .next (logEvent { s with plait.tunDrop := s.plait.tunDrop + 1 } 0x0F09 [])) ∧
  (∀ (s : State) (p : Fin 4) (u : Bool) (q : BitVec 4), s.isOn .eth = false ∨
    (u = true ∧ s.recField 14 1 p 0 0 1 0 = 0) → exec (.ethLinkChange p u q) s = .next s) ∧
  (∀ (s : State) (p : Fin 4) (q : BitVec 4), s.isOn .eth = true → (vget s.eth.port p).link = true →
    exec (.ethLinkChange p false q) s = .next (logEvent { s with
      eth.port := vset s.eth.port p { link := false, sqi := q, downs := (vget s.eth.port p).downs + 1 } } 0x0E01
      [p.val, 0, s.recField 14 1 p 0 1 1 0])) ∧
  (∀ (s : State) (p : Fin 4) (q : BitVec 4), s.isOn .eth = true → s.recField 14 1 p 0 0 1 0 = 1 →
    (vget s.eth.port p).link = false → exec (.ethLinkChange p true q) s = .next (logEvent { s with
      eth.port := vset s.eth.port p { link := true, sqi := q, downs := (vget s.eth.port p).downs } } 0x0E01
      [p.val, 1, s.recField 14 1 p 0 1 1 0])) ∧
  (∀ (s : State) (p : Fin 4) (q : BitVec 4), s.isOn .eth = true → s.recField 14 1 p 0 0 1 0 = 1 →
    (vget s.eth.port p).link = true → exec (.ethLinkChange p true q) s = .next { s with
      eth.port := vset s.eth.port p { link := true, sqi := q, downs := (vget s.eth.port p).downs } })

/-- Accesses of a core to a worker's window, PLAIT_COPY and PLAIT_PING (R527 to R534, R549, Tables 14.7 and 14.13).
Clauses here rest on choices of the model, not on rules of the spec: log entries 181, 182, 183, 184, 185, 186, 187. -/
def Obligations.WindowsAreReached : Prop :=
  (∀ (s : State) (h : BitVec 2) (w : Fin 32) (o : BitVec 25) (z : BitVec 4) (a wr : Bool) (x : BitVec 64),
    s.isOn .host = false → exec (.windowAccess h w o z a wr x) s = .next s) ∧
  (∀ (s : State) (h : BitVec 2) (w : Fin 32) (o : BitVec 25) (z : BitVec 4) (a wr : Bool) (x : BitVec 64),
    s.isOn .host = true → s.role ≠ .manager ∨ w.val = 0 → exec (.windowAccess h w o z a wr x) s = .next (coreFault s h
      (BitVec.ofNat 36 (0xC0000000 + w.val * 0x2000000 + o.toNat)) wr 3)) ∧
  (∀ (s : State) (h : BitVec 2) (w : Fin 32) (o : BitVec 25) (z : BitVec 4) (a wr : Bool) (x : BitVec 64),
    s.isOn .host = true → s.role = .manager → w.val ≠ 0 → s.linkUp w = false →
    exec (.windowAccess h w o z a wr x) s = .next (bridgeFault s w o.toNat wr stWorkerUnreachable)) ∧
  (∀ (s : State) (h : BitVec 2) (w : Fin 32) (o : BitVec 25) (z : BitVec 4) (a wr : Bool) (x : BitVec 64),
    s.isOn .host = true → s.role = .manager → w.val ≠ 0 → s.linkUp w = true →
    windowSizeOk o.toNat z.toNat a = false →
    exec (.windowAccess h w o z a wr x) s = .next (bridgeFault s w o.toNat wr stSizeUnsupported)) ∧
  (∀ (s : State) (h : BitVec 2) (w : Fin 32) (o : BitVec 25) (z : BitVec 4) (a wr : Bool) (x : BitVec 64),
    s.isOn .host = true → s.role = .manager → w.val ≠ 0 → s.linkUp w = true →
    windowSizeOk o.toNat z.toNat a = true → reservedPage o.toNat = true →
    exec (.windowAccess h w o z a wr x) s = .next (bridgeFault s w o.toNat wr windowRange)) ∧
  (∀ (s : State) (h : BitVec 2) (w : Fin 32) (o : BitVec 25) (z : BitVec 4) (x : BitVec 64), s.isOn .host = true →
    s.role = .manager → w.val ≠ 0 → s.linkUp w = true → windowSizeOk o.toNat z.toNat false = true →
    reservedPage o.toNat = false → s.isOn .eth = true → regPage o.toNat = false ∨ z ≠ 8 →
    pageAttr s w (o.toNat / 65536) = 0 →
    exec (.windowAccess h w o z false false x) s = .next (plaitNp s w {
      ask := o.toNat, offset := o.toNat, len := z.toNat,
      why := .core h z.toNat false } []) ∧
    exec (.windowAccess h w o z false true x) s = .next (plaitPost (dropAhead s w o.toNat z.toNat) w o.toNat
      (bytesOf z.toNat x.toNat))) ∧
  (∀ (s : State) (h : BitVec 2) (w : Fin 32) (o : BitVec 25) (z : BitVec 4) (x : BitVec 64), s.isOn .host = true →
    s.role = .manager → w.val ≠ 0 → s.linkUp w = true → windowSizeOk o.toNat z.toNat false = true →
    reservedPage o.toNat = false → s.isOn .eth = true → regPage o.toNat = false ∨ z ≠ 8 →
    pageAttr s w (o.toNat / 65536) = 1 → exec (.windowAccess h w o z false true x) s = .next (plaitNp
      (dropAhead s w o.toNat z.toNat) w {
        ask := o.toNat, offset := o.toNat, len := z.toNat, write := true,
        why := .core h z.toNat true } (bytesOf z.toNat x.toNat))) ∧
  (∀ (s : State) (h : BitVec 2) (w : Fin 32) (o : BitVec 25) (z : BitVec 4) (x : BitVec 64), s.isOn .host = true →
    s.role = .manager → w.val ≠ 0 → s.linkUp w = true → windowSizeOk o.toNat z.toNat false = true →
    reservedPage o.toNat = false → s.isOn .eth = true → regPage o.toNat = false ∨ z ≠ 8 →
    pageAttr s w (o.toNat / 65536) = 4 → z = 1 → exec (.windowAccess h w o z false false x) s = .next (plaitNp s w
      { ask := o.toNat, swap := 3, offset := o.toNat ^^^ 3, len := 1, why := .core h 1 false } [])) ∧
  (∀ (s : State) (h : BitVec 2) (w : Fin 32) (o : BitVec 25) (z : BitVec 4) (x : BitVec 64), s.isOn .host = true →
    s.role = .manager → w.val ≠ 0 → s.linkUp w = true → windowSizeOk o.toNat z.toNat false = true →
    reservedPage o.toNat = false → s.isOn .eth = true → regPage o.toNat = false ∨ z ≠ 8 →
    pageAttr s w (o.toNat / 65536) = 2 → s.heldBlock w o.toNat = none →
    exec (.windowAccess h w o z false false x) s = .next (plaitNp s w {
      ask := o.toNat, offset := o.toNat / 64 * 64,
      len := 64, pref := true, why := .core h z.toNat false } [])) ∧
  (∀ (s : State) (h : BitVec 2) (w : Fin 32) (o : BitVec 25) (z : BitVec 4) (x : BitVec 64) (b : ReadAhead),
    s.isOn .host = true → s.role = .manager → w.val ≠ 0 → s.linkUp w = true →
    windowSizeOk o.toNat z.toNat false = true → reservedPage o.toNat = false → s.isOn .eth = true →
    regPage o.toNat = false ∨ z ≠ 8 → pageAttr s w (o.toNat / 65536) = 2 → s.heldBlock w o.toNat = some b →
    b.bytes.length = 64 → exec (.windowAccess h w o z false false x) s = .next { s with
      rdata := BitVec.ofNat 64 (ofBytes ((b.bytes.drop (o.toNat % 64)).take z.toNat)) }) ∧
  (∀ (s : State) (w : Fin 32) (b : BitVec 19), s.heldBlock w (b.toNat * 64) = none →
    exec (.prefetchBufferExpiry w b) s = .next s) ∧
  (∀ (s : State) (w : Fin 32) (b : BitVec 19) (x : ReadAhead), s.heldBlock w (b.toNat * 64) = some x →
    exec (.prefetchBufferExpiry w b) s = .next (dropAhead (s.reach (x.at_ + 10000)) w (x.block * 64) 64)) ∧
  (∀ (s : State) (d : Desc) (w : BitVec 5) (dir : BitVec 1) (o : BitVec 25) (c : HostCmd), c = .plaitCopy w dir o →
    Ready s d c = true → s.role ≠ .manager →
    exec (.plaitCopy d w dir o) s = .next (answered (taken s d c) d notManager 0 0 0)) ∧
  (∀ (s : State) (d : Desc) (w : BitVec 5) (dir : BitVec 1) (o : BitVec 25) (c : HostCmd), c = .plaitCopy w dir o →
    Ready s d c = true → s.role = .manager → 0x2000000 < o.toNat + d.payLen.toNat →
    exec (.plaitCopy d w dir o) s = .next (answered (taken s d c) d windowRange 0 0 0)) ∧
  (∀ (s : State) (d : Desc) (w : BitVec 5) (dir : BitVec 1) (o : BitVec 25) (c : HostCmd), c = .plaitCopy w dir o →
    Ready s d c = true → s.role = .manager → o.toNat + d.payLen.toNat ≤ 0x2000000 → s.linkUp w.toNat = false →
    exec (.plaitCopy d w dir o) s = .next (answered (taken s d c) d stWorkerUnreachable 0 0 0)) ∧
  (∀ (s : State) (d : Desc) (w : BitVec 5) (dir : BitVec 1) (o : BitVec 25) (c : HostCmd), c = .plaitCopy w dir o →
    Ready s d c = true → s.role = .manager → o.toNat + d.payLen.toNat ≤ 0x2000000 → s.linkUp w.toNat = true →
    d.payLen = 0 → exec (.plaitCopy d w dir o) s = .next (answered (taken s d c) d stOk 0 0 0)) ∧
  (∀ (s : State) (d : Desc) (w : BitVec 5) (dir : BitVec 1) (o : BitVec 25) (c : HostCmd), c = .plaitCopy w dir o →
    Ready s d c = true → s.role = .manager → o.toNat % 65536 + d.payLen.toNat ≤ 65536 → s.linkUp w.toNat = true →
    d.payLen ≠ 0 → d.payLen.toNat ≤ 256 → reservedPage o.toNat = false → regPage o.toNat = false →
    pageAttr s w.toNat (o.toNat / 65536) = 0 → s.copyOf d = none → ∃ (x : PCopy) (u : State),
      x = { act := actOf s d c, worker := w.toNat, len := d.payLen.toNat } ∧
      u = { taken s d c with plait.copies := s.plait.copies ++ [x] } ∧
      exec (.plaitCopy d w dir o) s = .next (copySend u x o.toNat 0 d.payLen.toNat (dir == 0))) ∧
  (∀ (s : State) (d : Desc) (n : Nat) (c : PCopy), s.copyOf d = some c → c.done + n < c.len →
    copyStep s d n = s.setCopy { c with done := c.done + n }) ∧
  (∀ (s : State) (d : Desc) (n : Nat) (c : PCopy), s.copyOf d = some c → c.len ≤ c.done + n →
    copyStep s d n = copyEnd s { c with done := c.done + n } stOk) ∧
  (∀ (s : State) (d : Desc) (w : BitVec 5), Ready s d (.plaitPing w) = true → s.role ≠ .manager →
    exec (.plaitPing d w) s = .next (answered (taken s d (.plaitPing w)) d notManager 0 0 0)) ∧
  (∀ (s : State) (d : Desc) (w : BitVec 5), Ready s d (.plaitPing w) = true → s.role = .manager →
    s.linkUp w.toNat = false →
    exec (.plaitPing d w) s = .next (answered (taken s d (.plaitPing w)) d stWorkerUnreachable 0 0 0)) ∧
  (∀ (s : State) (d : Desc) (w : BitVec 5), Ready s d (.plaitPing w) = true → s.role = .manager →
    s.linkUp w.toNat = true → exec (.plaitPing d w) s = .next (plaitNp (taken s d (.plaitPing w)) w.toNat
      { len := 4, why := .ping (actOf s d (.plaitPing w)) } [])) ∧
  (∀ (s : State) (w : Nat) (o : NpOut) (a : Act) (bs : List (BitVec 8)), o.why = .ping a → cplDone s w o bs = finish
    (s.modLink w (fun l => { l with rtt := BitVec.ofNat 16 (min 0xFFFF ((s.clk.ns - o.at_) / 100)) })) a 0
    (s.clk.ns - o.at_) (s.plink w).hops.toNat)

/-! ## Access and Bezel -/

/-- Pairing, its confirmation, takeover, un-pairing, the owner lock, the release key and ACC_READ (R552 to R555, R564,
R573, Tables 15.6 and 15.7). The key that is drawn is left free. Clauses here rest on choices of the model, not on rules
of the spec: log entries 4, 76, 142, 143, 144. -/
def Obligations.TokensArePaired : Prop :=
  (∀ (s : State) (d : Desc) (k : BitVec 3) (c : HostCmd), c = .accPair k → Ready s d c = true →
    s.onTrial = true ∨ s.accOn = false ∨ s.acc.pairing.isSome = true →
    exec (.accPair d k) s = .next (answered (taken s d c) d stRefusedState 0 0 0)) ∧
  (∀ (s : State) (d : Desc) (k : BitVec 3) (c : HostCmd), c = .accPair k → Ready s d c = true → s.onTrial = false →
    s.accOn = true → s.acc.pairing = none → s.lockedOut = true →
    exec (.accPair d k) s = .next (answered (taken s d c) d stLockedOut 0 0 0)) ∧
  (∀ (s : State) (d : Desc) (k : BitVec 3) (c : HostCmd), c = .accPair k → Ready s d c = true → s.onTrial = false →
    s.accOn = true → s.acc.pairing = none → s.lockedOut = false →
    (k = 0 ∧ (s.pwr.mode ≠ .service ∨ s.ownerPaired = true)) ∨ (k ≠ 0 ∧ s.ownerSession = false) →
    exec (.accPair d k) s = .next (answered (taken s d c) d ownerRequired 0 0 0)) ∧
  (∀ (s : State) (d : Desc) (k : BitVec 3) (c : HostCmd), c = .accPair k → Ready s d c = true → s.onTrial = false →
    s.accOn = true → s.acc.pairing = none → s.lockedOut = false → k ≠ 0 → s.ownerSession = true →
    (s.tok k.toNat).paired = true →
    exec (.accPair d k) s = .next (answered (taken s d c) d slotInUse 0 0 0)) ∧
  (∀ (s : State) (d : Desc) (k : BitVec 3) (c : HostCmd), c = .accPair k → Ready s d c = true → s.onTrial = false →
    s.accOn = true → s.acc.pairing = none → s.lockedOut = false →
    (k = 0 ∧ s.pwr.mode = .service) ∨ (k ≠ 0 ∧ s.ownerSession = true) → (s.tok k.toNat).paired = false →
    ∃ t : State, exec (.accPair d k) s = .next t ∧
      t.acc.pairing = some { act := actOf s d c, slot := k.toNat, serial := wordAt (payloadOf s d c) 0, key := (s.takeBytes 16).1, startAt := s.clk.ns } ∧
      t.out = s.out ++ [.tokenKey (wordAt (payloadOf s d c) 0)
        (Config.ccm (((payloadOf s d c).drop 4).take 16) [] [] (s.takeBytes 16).1)]) ∧
  (∀ (s : State) (o : PairOutcome), s.acc.pairing = none → exec (.pairConfirm o) s = .next s) ∧
  (∀ (s : State) (p : AccPairing), s.acc.pairing = some p →
    exec (.pairConfirm .wrong) s = .next (refuse { s with acc.pairing := none } p.act stCheckFailed) ∧
    exec (.pairConfirm .timeout) s = .next (refuse (State.reach { s with acc.pairing := none }
      (p.startAt + 30 * sec)) p.act stTimeout)) ∧
  (∀ (s : State) (p : AccPairing), s.acc.pairing = some p → p.slot < 8 → ∃ t : State,
    exec (.pairConfirm .confirmed) s = .next t ∧ t.acc.pairing = none ∧ (t.tok p.slot).paired = true ∧
      (t.tok p.slot).serial = p.serial ∧ vget t.acc.keys p.slot = some p.key ∧
      (∀ k : Fin 8, k.val ≠ p.slot → t.tok k = s.tok k) ∧
      (p.takeover = none → t.cfg = s.cfg ∧ t.acc.ownerUntil = s.acc.ownerUntil) ∧
      p.takeover.all (fun m => t.cfg.machineId == m && t.cfg.takeover && t.cfg.takeoverAt == s.clk.ns &&
        t.acc.ownerUntil == some (s.clk.ns + 60 * sec)) = true) ∧
  (∀ (s : State) (d : Desc) (k : BitVec 3) (c : HostCmd), c = .accUnpair k → Ready s d c = true → s.onTrial = true →
    exec (.accUnpair d k) s = .next (answered (taken s d c) d stRefusedState 0 0 0)) ∧
  (∀ (s : State) (d : Desc) (k : BitVec 3) (c : HostCmd), c = .accUnpair k → Ready s d c = true → s.onTrial = false →
    k = 0 → exec (.accUnpair d k) s = .next (answered (taken s d c) d ownerSlot 0 0 0)) ∧
  (∀ (s : State) (d : Desc) (k : BitVec 3) (c : HostCmd), c = .accUnpair k → Ready s d c = true → s.onTrial = false →
    k ≠ 0 → s.ownerSession = false → exec (.accUnpair d k) s = .next (answered (taken s d c) d ownerRequired 0 0 0)) ∧
  (∀ (s : State) (d : Desc) (k : BitVec 3) (c : HostCmd), c = .accUnpair k → Ready s d c = true → s.onTrial = false →
    k ≠ 0 → s.ownerSession = true → ∃ t : State, exec (.accUnpair d k) s = .next t ∧
      t = answered (logEvent (unpair (taken s d c) k.toNat) 0x1008 [k.toNat]) d stOk 0 0 0 ∧
      (t.tok k.toNat).paired = false ∧ vget t.acc.keys k.toNat = none ∧
      (∀ j : Fin 8, j.val ≠ k.toNat → t.tok j = s.tok j ∧ vget t.acc.keys j = vget s.acc.keys j)) ∧
  (∀ (s : State) (d : Desc), Ready s d .accTakeover = true →
    s.onTrial = true ∨ s.accOn = false ∨ s.acc.pairing.isSome = true →
    exec (.accTakeover d) s = .next (answered (taken s d .accTakeover) d stRefusedState 0 0 0)) ∧
  (∀ (s : State) (d : Desc), Ready s d .accTakeover = true → s.onTrial = false → s.accOn = true →
    s.acc.pairing = none → s.lockedOut = true →
    exec (.accTakeover d) s = .next (answered (taken s d .accTakeover) d stLockedOut 0 0 0)) ∧
  (∀ (s : State) (d : Desc), Ready s d .accTakeover = true → s.onTrial = false → s.accOn = true →
    s.acc.pairing = none → s.lockedOut = false → s.pwr.mode ≠ .service ∨ s.ownerPaired = true →
    exec (.accTakeover d) s = .next (answered (taken s d .accTakeover) d ownerRequired 0 0 0)) ∧
  (∀ (s : State) (d : Desc), Ready s d .accTakeover = true → s.onTrial = false → s.accOn = true →
    s.acc.pairing = none → s.lockedOut = false → s.pwr.mode = .service → s.ownerPaired = false →
    ∃ t : State, exec (.accTakeover d) s = .next t ∧
      (∀ k : Fin 8, (t.tok k).paired = false ∧ vget t.acc.keys k = none) ∧
      (t.acc.pairing.map (fun p => p.slot)) = some 0 ∧
      (t.acc.pairing.map (fun p => p.serial)) = some (wordAt (payloadOf s d .accTakeover) 2) ∧
      (t.acc.pairing.bind (fun p => p.takeover)) =
        some (BitVec.ofNat 64 (ofBytes ((payloadOf s d .accTakeover).take 8)))) ∧
  (∀ (s : State) (d : Desc) (b : BitVec 1) (c : HostCmd), c = .accOwnerLock b → Ready s d c = true →
    s.onTrial = true → exec (.accOwnerLock d b) s = .next (answered (taken s d c) d stRefusedState 0 0 0)) ∧
  (∀ (s : State) (d : Desc) (b : BitVec 1) (c : HostCmd), c = .accOwnerLock b → Ready s d c = true →
    s.onTrial = false → s.ownerSession = false →
    exec (.accOwnerLock d b) s = .next (answered (taken s d c) d ownerRequired 0 0 0)) ∧
  (∀ (s : State) (d : Desc) (b : BitVec 1) (c : HostCmd), c = .accOwnerLock b → Ready s d c = true →
    s.onTrial = false → s.ownerSession = true → ∃ t : State, exec (.accOwnerLock d b) s = .next t ∧
      t.acc = { s.acc with updLock := b == 1 } ∧
      t = answered { taken s d c with acc.updLock := b == 1 } d stOk 0 0 0) ∧
  (∀ (s : State) (d : Desc), Ready s d .accRelKey = true → s.onTrial = true ∨ s.pwr.mode ≠ .service →
    exec (.accRelKey d) s = .next (answered (taken s d .accRelKey) d stRefusedState 0 0 0)) ∧
  (∀ (s : State) (d : Desc), Ready s d .accRelKey = true → s.onTrial = false → s.pwr.mode = .service →
    s.ownerSession = false →
    exec (.accRelKey d) s = .next (answered (taken s d .accRelKey) d ownerRequired 0 0 0)) ∧
  (∀ (s : State) (d : Desc), Ready s d .accRelKey = true → s.onTrial = false → s.pwr.mode = .service →
    s.ownerSession = true → ∃ t : State, exec (.accRelKey d) s = .next t ∧
      vget t.acc.keys 8 = some ((payloadOf s d .accRelKey).take 16) ∧
      t.acc.relNext = wordAt (payloadOf s d .accRelKey) 4 ∧
      (∀ k : Fin 8, vget t.acc.keys k = vget s.acc.keys k)) ∧
  (∀ (s : State) (d : Desc), Ready s d .accRead = true →
    exec (.accRead d) s = .next (answered (taken s d .accRead) d stOk 0 (accStatus s) (accLock s)))

/-- Searches, Guard polls, what a poll's answers do, failures and lock-out, sessions and release messages (R556 to R572,
Table 15.1). Clauses here rest on choices of the model, not on rules of the spec: log entries 74, 75, 76, 77, 78,
145. -/
def Obligations.TokensArePolledAndLockedOut : Prop :=
  (∀ (s : State) (d : Desc) (r : BitVec 2) (c : HostCmd), c = .accSearch r → Ready s d c = true →
    s.accOn = false ∨ (s.pwr.mode ≠ .service ∧ (r ≠ 2 ∨ searchMode s.pwr.mode = false)) →
    exec (.accSearch d r) s = .next (answered (taken s d c) d stRefusedState 0 0 0)) ∧
  (∀ (s : State) (d : Desc) (r : BitVec 2) (c : HostCmd), c = .accSearch r → Ready s d c = true → s.accOn = true →
    s.pwr.mode = .service ∨ (r = 2 ∧ searchMode s.pwr.mode = true) → s.lockedOut = true →
    exec (.accSearch d r) s = .next (answered (taken s d c) d stLockedOut 0 0 0)) ∧
  (∀ (s : State) (d : Desc) (r : BitVec 2) (c : HostCmd), c = .accSearch r → Ready s d c = true → s.accOn = true →
    s.pwr.mode = .service ∨ (r = 2 ∧ searchMode s.pwr.mode = true) → s.lockedOut = false → ∃ t : State,
      exec (.accSearch d r) s = .next t ∧ t = searchStart (taken s d c) r.toNat (some (actOf s d c)) ∧
      t.acc.search = some { reason := r.toNat, act := some (actOf s d c), startAt := s.clk.ns, nextAt := s.clk.ns, period := 250000000 }) ∧
  (∀ (s : State), s.pwr.mode = .guard → s.pwr.entering = false → s.accOn = true → s.lockedOut = false →
    s.kcRuns = true → ∃ t : State, exec .guardPoll s = .next t ∧ t.acc.polling = true ∧
      t.out = s.out ++ [.poll (s.takeBytes 16).1] ∧ t.domSt .uwb = .on ∧ t.domSt .sec = .on) ∧
  (∀ (s : State), s.pwr.mode ≠ .guard ∨ s.pwr.entering = true ∨ s.accOn = false ∨ s.lockedOut = true ∨
    s.kcRuns = false → exec .guardPoll s = .next s) ∧
  (∀ (s : State), s.pwr.mode ≠ .guard ∨ s.acc.slow = true → exec .guardRateChange s = .next s) ∧
  (∀ (s : State), s.pwr.mode = .guard → s.acc.slow = false → ∃ t : State, exec .guardRateChange s = .next t ∧
    t = logEvent { s.reach (s.acc.guardAt + 259200 * sec) with acc.slow := true } 0x100A [] ∧ t.acc.slow = true) ∧
  (∀ (s : State), s.acc.search = none → exec .searchBurst s = .next s ∧ exec .searchExpiry s = .next s) ∧
  (∀ (s : State) (x : AccSearch), s.acc.search = some x → ∃ (u t : State), u = s.reach x.nextAt ∧
    exec .searchBurst s = .next t ∧
    t.acc.search = some { x with nextAt := u.clk.ns + x.period, period := min 16000000000 (2 * x.period), left := 4 } ∧
    (u.kcRuns = true → s.lockedOut = false → t.acc.polling = true) ∧ (s.lockedOut = true → t.out = s.out)) ∧
  (∀ (s : State) (x : AccSearch) (a : Act), s.acc.search = some x → x.act = some a → ∃ u : State,
    u = s.reach (x.startAt + 1800 * sec) ∧
    exec .searchExpiry s = .next (complete { u with acc.search := none } a.d stTimeout 0 u.weave.time.toNat 0 0)) ∧
  (∀ (s : State) (x : AccSearch), s.acc.search = some x → x.act = none →
    exec .searchExpiry s = .next { s.reach (x.startAt + 1800 * sec) with acc.search := none }) ∧
  (∀ (s : State) (l : List TokenAnswer) (b : Bool) (f : BitVec 2), s.acc.polling = false →
    exec (.pollDone l b f) s = .next s) ∧
  (∀ (s : State) (l : List TokenAnswer) (f : BitVec 2), s.acc.polling = true → s.pwr.mode ≠ .guard →
    s.acc.search = none → exec (.pollDone [] true f) s = .next { s with acc.polling := false } ∧
    exec (.pollDone l false f) s = .next (logEvent { s with acc.polling := false, acc.radioFault := true } 0x100B [4])) ∧
  (∀ (s : State) (x : AccSearch) (f : BitVec 2), s.acc.polling = true → s.pwr.mode ≠ .guard → s.acc.search = some x →
    ∃ u : State, u = { s with acc.polling := false, acc.search := some { x with left := x.left - 1 } } ∧
    exec (.pollDone [] true f) s = .next (if 1 < x.left ∧ s.kcRuns = true then pollStart u else u)) ∧
  (∀ (s : State) (a : TokenAnswer) (f : BitVec 2), s.acc.polling = true → s.pwr.mode ≠ .guard → s.acc.search = none →
    (s.tok a.slot).paired = false → exec (.pollDone [a] true f) s = .next { s with acc.polling := false }) ∧
  (∀ (s : State) (a : TokenAnswer) (f : BitVec 2), s.acc.polling = true → s.pwr.mode ≠ .guard → s.acc.search = none →
    (s.tok a.slot).paired = true → s.isolated a = false →
    exec (.pollDone [a] true f) s = .next (logEvent { s with acc.polling := false } 0x1003 [a.slot.val])) ∧
  (∀ (s : State) (a : TokenAnswer) (f : BitVec 2), s.acc.polling = true → s.pwr.mode ≠ .guard → s.acc.search = none →
    (s.tok a.slot).paired = true → s.isolated a = true → s.inZone a = false →
    exec (.pollDone [a] true f) s = .next (State.modTok { s with acc.polling := false } a.slot (fun t =>
      { t with dist := BitVec.ofNat 12 (antDist a (s.accField 0 6 2)), inZone := false, seenAt := some s.clk.ns }))) ∧
  (∀ (s : State) (a : TokenAnswer) (f : BitVec 2), s.acc.polling = true → s.pwr.mode ≠ .guard → s.acc.search = none →
    (s.tok a.slot).paired = true → s.isolated a = true → s.inZone a = true →
    s.ants.contains (s.accField 0 6 2) = true → a.correct = true → ∃ t : State,
      exec (.pollDone [a] true f) s = .next t ∧ t.acc.session = some (s.acc.session.getD a.slot.val) ∧
      (t.tok a.slot).inZone = true ∧
      (a.slot = 0 → t.acc.ownerUntil = some (s.clk.ns + 60 * sec)) ∧
      (a.slot ≠ 0 → t.acc.ownerUntil = s.acc.ownerUntil) ∧ t.acc.fails = s.acc.fails ∧
      t.acc.level = (if s.acc.lockEnded then 0 else s.acc.level) ∧ t.acc.lockEnded = false) ∧
  (∀ (s : State) (a : TokenAnswer) (f : BitVec 2) (l : List Nat), s.acc.polling = true → s.pwr.mode ≠ .guard →
    s.acc.search = none → (s.tok a.slot).paired = true → s.isolated a = true → s.inZone a = true →
    s.ants.contains (s.accField 0 6 2) = true → a.correct = false → f = 0 →
    l = s.acc.fails.filter (fun x => s.clk.ns < x + 600 * sec) ++ [s.clk.ns] → ∃ t : State,
      exec (.pollDone [a] true f) s = .next t ∧ t.acc.session = s.acc.session ∧
      (l.length < 5 → t.acc.fails = l ∧ t.acc.level = s.acc.level ∧ t.acc.lock = s.acc.lock) ∧
      (5 ≤ l.length → s.lockedOut = false → t.acc.fails = [] ∧
        t.acc.lock = some (s.clk.ns, s.clk.ns + 600 * sec * 2 ^ s.acc.level.toNat) ∧
        t.acc.level = BitVec.ofNat 3 (min 4 (s.acc.level.toNat + 1)))) ∧
  (∀ (s : State) (a : TokenAnswer) (f : BitVec 2), s.acc.polling = true → s.pwr.mode = .guard →
    (s.tok a.slot).paired = true → s.isolated a = true → s.inZone a = true →
    s.ants.contains (s.accField 0 6 2) = true → a.correct = true → ∃ u : State,
      u = authenticate (State.modTok { s with acc.polling := false } a.slot (fun t =>
        { t with dist := BitVec.ofNat 12 (antDist a (s.accField 0 6 2)), inZone := true, seenAt := some s.clk.ns }))
        [(a.slot.val, antDist a (s.accField 0 6 2))] ∧
      exec (.pollDone [a] true f) s = .next (wakeUp ((u.modDom .uwb (fun c => { c with st := .off })).modDom .sec
        (fun c => { c with st := .off })) .token)) ∧
  (∀ (s : State), s.acc.lock = none → exec .lockoutEnd s = .next s) ∧
  (∀ (s : State) (a b : Nat), s.acc.lock = some (a, b) → ∃ (u v : State), u = s.reach b ∧
    v = accWrite (logEvent { u with acc.lock := none, acc.lockEnded := true } 0x1005 []) 0 ∧
    exec .lockoutEnd s = .next (if s.kl15On && s.accOn && searchMode s.pwr.mode then searchStart v 2 none else v) ∧
    v.lockedOut = false) ∧
  (∀ (s : State), s.acc.ownerUntil = none → exec .ownerSessionExpiry s = .next s) ∧
  (∀ (s : State) (x : Nat), s.acc.ownerUntil = some x →
    exec .ownerSessionExpiry s = .next { s.reach x with acc.ownerUntil := none }) ∧
  (∀ (s : State), s.acc.session = none ∨ s.kl15On = true → exec .accessSessionEnd s = .next s) ∧
  (∀ (s : State), s.acc.session.isSome = true → s.kl15On = false → exec .accessSessionEnd s = .next
    { s.reach (s.bezel.kl15OffAt + (if s.accField 0 16 8 = 0 then 60 else s.accField 0 16 8) * sec) with
      acc.session := none, acc.relAt := none }) ∧
  (∀ (s : State), s.relHolds = false → exec .releaseTx s = .next { s with acc.relAt := none }) ∧
  (∀ (s : State) (c h : BitVec 32), s.relHolds = true → ∃ t u : State, exec .releaseTx s = .next t ∧
    t.acc.relCnt = s.acc.relNext ∧ t.acc.relNext = s.acc.relNext + 1 ∧ t.acc.relAt.isSome = true ∧
    exec (.releaseAnswerRx c h 2 true) s = .next u ∧ u.acc.relCnt = h + 1 ∧ u.acc.relNext = h + 2 ∧
    u.acc.released = false) ∧
  (∀ (s : State) (c h : BitVec 32) (x : BitVec 8), exec (.releaseAnswerRx c h x false) s = .next s) ∧
  (∀ (s : State) (c h : BitVec 32),
    exec (.releaseAnswerRx c h 0 true) s = .next (logEvent { s with acc.released := true } 0x1006 [c.toNat]) ∧
    exec (.releaseAnswerRx c h 1 true) s = .next (logEvent { s with acc.released := false } 0x1007
      [c.toNat, h.toNat])) ∧
  (∀ (s : State) (c h : BitVec 32), s.relHolds = false → exec (.releaseAnswerRx c h 2 true) s = .next
    (logEvent { s with acc.released := false, acc.relNext := h + 1 } 0x1007 [c.toNat, h.toNat]))

/-- Of the tokens that authenticate in one poll the one with the smallest distance is used, and on equal distances the one of
the lower pairing slot; event 0x1001 carries its slot and distance (R560). -/
def Obligations.NearestTokenIsUsed : Prop :=
  (∀ (l : List (Nat × Nat)) (x : Nat × Nat), bestToken l = some x →
    x ∈ l ∧ ∀ y ∈ l, x.2 < y.2 ∨ (x.2 = y.2 ∧ x.1 ≤ y.1)) ∧
  (∀ l : List (Nat × Nat), l ≠ [] → (bestToken l).isSome = true) ∧
  (∀ (s : State) (l : List (Nat × Nat)) (k n : Nat), bestToken l = some (k, n) → ∃ u : State,
    u = logEvent s 0x1001 [k, n] ∧ authenticate s l = searchEnd
      { u with acc.session := some (s.acc.session.getD k), acc.ownerUntil := if l.any (fun x => x.1 == 0) then some (s.clk.ns + 60 * sec) else s.acc.ownerUntil, acc.level := if s.acc.lockEnded then 0 else s.acc.level, acc.lockEnded := false }
      stOk k n)

/-- Reclaim, the log read, reset requests, watchdogs, the hold window, core faults, Limp, the mirror and supply loss
(R581, R588, R589, R595 to R602, R606, R607, R609, Tables 16.3 and 16.4). Clauses here rest on choices of the model, not
on rules of the spec: log entries 95, 157, 158, 160, 161, 162, 163, 164, 169. -/
def Obligations.BezelHoldsAndSupervises : Prop :=
  (∀ (s : State) (d : Desc) (h : BitVec 64) (l : BitVec 12) (f : BitVec 32) (g : BitVec 16),
    Ready s d (.bezelReclaim h l f g) = true → ∃ u t : State,
      u = (maskList ((g ++ f : BitVec 48) &&& s.bezel.heldFio)).foldl fioReclaim
        ((maskList (l &&& s.bezel.heldLed)).foldl ledReclaim
          ((maskList (h &&& s.bezel.heldHso)).foldl hsoReclaim (taken s d (.bezelReclaim h l f g)))) ∧
      exec (.bezelReclaim d h l f g) s = .next t ∧
      t = answered u d stOk 0 ((maskList (h &&& s.bezel.heldHso)).length + (maskList (l &&& s.bezel.heldLed)).length
        + (maskList ((g ++ f : BitVec 48) &&& s.bezel.heldFio)).length) 0 ∧
      t.bezel.heldHso = s.bezel.heldHso &&& ~~~h ∧ t.bezel.heldLed = s.bezel.heldLed &&& ~~~l ∧
      t.bezel.heldFio = s.bezel.heldFio &&& ~~~(g ++ f : BitVec 48) ∧ t.bezel.heldVlv = s.bezel.heldVlv) ∧
  (∀ (s : State) (d : Desc), Ready s d .bezelLogRead = true → d.payLen.toNat < 1024 →
    exec (.bezelLogRead d) s = .next (answered (taken s d .bezelLogRead) d logShort 0 0 0)) ∧
  (∀ (s : State) (d : Desc), Ready s d .bezelLogRead = true → 1024 ≤ d.payLen.toNat → s.bezel.log.length ≤ 32 →
    (s.ringN d.ring).remote = false → s.mem.bad = [] → ∃ u : State,
      exec (.bezelLogRead d) s = .next (answered u d stOk 0 s.bezel.log.length s.bezel.logSeq.toNat) ∧
      u = { taken s d .bezelLogRead with mem := s.mem.store d.payAddr.toNat (s.bezel.log.flatMap BzEntry.bytes) }) ∧
  (∀ (s : State) (d : Desc) (x : BitVec 1), Ready s d (.bezelResetReq x) = true → ∃ t : State,
    exec (.bezelResetReq d x) s = .next t ∧ t.bezel.resetReq = some (s.clk.ns + 1000000, x == 1) ∧
    t = answered { taken s d (.bezelResetReq x) with bezel.resetReq := some (s.clk.ns + 1000000, x == 1) }
      d stOk 0 0 0) ∧
  (∀ (s : State), s.bezel.resetReq = none → exec .resetReqAction s = .next s) ∧
  (∀ (s : State) (t : Nat), s.bezel.resetReq = some (t, false) → s.pwr.mode = .run → ∃ u : State,
    exec .resetReqAction s = .next u ∧ u.pwr.mode = .start ∧ u.pwr.prev = .run ∧ u.bezel.resetReq = none ∧
    u.bezel.resetType.toNat = ResetType.software.code ∧ u.rings = State.reset.rings) ∧
  (∀ (s : State) (t : Nat), s.bezel.resetReq = some (t, true) → s.pwr.mode = .run → ∃ u : State,
    exec .resetReqAction s = .next u ∧ u.pwr.mode = .limp ∧ u.pwr.prev = .run ∧ u.bezel.resetReq = none ∧
    u.bezel.limpCause = 0x09 ∧ (∀ n : Fin 128, (u.ringN n).enable = false)) ∧
  (∀ (s : State) (t : Nat), s.bezel.holdEnd = some t → ∃ u v : State, u = s.reach t ∧
    exec .holdWindowExpiry s = .next v ∧
    v = logEvent (clearHeld (orphanWhere u s.bezel.heldHso.getLsbD s.bezel.heldVlv.getLsbD s.bezel.heldLed.getLsbD
      s.bezel.heldFio.getLsbD)) 0x1103 [s.heldCount] ∧
    v.bezel.heldHso = 0 ∧ v.bezel.heldVlv = 0 ∧ v.bezel.heldLed = 0 ∧ v.bezel.heldFio = 0 ∧ v.bezel.holdEnd = none) ∧
  (∀ (s : State), s.bezel.holdEnd = none → exec .holdWindowExpiry s = .next s) ∧
  (∀ (s : State), s.pwr.mode = .limp → s.isOn .svc = true → ∃ u : State, u = (s.recsOf 17 2).foldl limpCommand s ∧
    exec .limpMapTick s = .next { u with bezel.limpTicks := u.bezel.limpTicks + 1 }) ∧
  (∀ (s : State), s.pwr.mode ≠ .limp ∨ s.isOn .svc = false → exec .limpMapTick s = .next s) ∧
  (∀ (s : State), s.pwr.mode = .limp → s.kl15On = false → s.busesAsleep = true → ∃ u : State,
    exec .limpExit s = .next u ∧ u.pwr.mode = .start ∧ u.pwr.prev = .limp ∧
    u.bezel.resetType.toNat = ResetType.limpExit.code) ∧
  (∀ (s : State), s.pwr.mode ≠ .limp ∨ s.kl15On = true ∨ s.busesAsleep = false → exec .limpExit s = .next s) ∧
  (∀ (s : State), s.bezel.mirrorErasing = true → exec .mirrorEraseDone s = .next
    { s with bezel.mirrorErasing := false, bezel.mirrorSlot := 0, nor.mirror := [] }) ∧
  (∀ (s : State), s.wdtRuns = true → s.bezel.wdtAction = false → s.pwr.mode = .run → ∃ u : State,
    exec (.watchdogExpiry 0) s = .next u ∧ u.pwr.mode = .start ∧ u.bezel.resetType.toNat = ResetType.watchdog.code ∧
    u.bezel.detail = 0 ∧ u.bezel.wdtExpired = setBit s.bezel.wdtExpired 0 true) ∧
  (∀ (s : State), s.wdtRuns = true → s.bezel.wdtAction = true → s.pwr.mode = .run → ∃ u : State,
    exec (.watchdogExpiry 0) s = .next u ∧ u.pwr.mode = .limp ∧ u.bezel.limpCause = 0x09 ∧
    u.bezel.wdtExpired = setBit s.bezel.wdtExpired 0 true) ∧
  (∀ (s : State) (w : Fin 4), w.val = 1 ∨ w.val = 2 → s.isOn .svc = true → s.pwr.mode = .run → ∃ u : State,
    exec (.watchdogExpiry w) s = .next u ∧ u.pwr.mode = .start ∧ u.bezel.resetType.toNat = ResetType.watchdog.code ∧
    u.bezel.detail.toNat = w.val ∧ u.bezel.wdtExpired = setBit s.bezel.wdtExpired w true) ∧
  (∀ (s : State), s.isOn .sec = true → s.bezel.wdt3At = none → ∃ u : State,
    u = logEvent { s with bezel.wdtExpired := setBit s.bezel.wdtExpired 3 true } 0x1102 [3] ∧
    exec (.watchdogExpiry 3) s = .next
      { u with bezel.wdt3At := some s.clk.ns, bezel.kcSuspended := some (s.clk.ns + 1000000000) }) ∧
  (∀ (s : State) (x : Nat), s.isOn .sec = true → s.bezel.wdt3At = some x → s.clk.ns < x + 600 * sec →
    s.pwr.mode = .run → ∃ u : State, exec (.watchdogExpiry 3) s = .next u ∧ u.pwr.mode = .start ∧
    u.bezel.resetType.toNat = ResetType.watchdog.code ∧ u.bezel.detail = 3) ∧
  (∀ (s : State), s.wdtRuns = false → exec (.watchdogExpiry 0) s = .next s) ∧
  (∀ (s : State), s.isOn .svc = false → exec (.watchdogExpiry 1) s = .next s ∧ exec (.watchdogExpiry 2) s = .next s) ∧
  (∀ (s : State), s.isOn .sec = false → exec (.watchdogExpiry 3) s = .next s) ∧
  (∀ (s : State), s.pwr.mode = .run → ∃ u : State, exec .lockstepMismatch s = .next u ∧ u.pwr.mode = .start ∧
    u.pwr.cause = 0x0C ∧ u.bezel.resetType.toNat = 6) ∧
  (∀ (s : State), s.bezel.wdt3At = none → ∃ u : State, exec (.serviceCoreTrap .kc) s = .next u ∧
    u.bezel.kcSuspended = some (s.clk.ns + 1000000000) ∧ u.bezel.wdt3At = some s.clk.ns ∧
    u.bezel.wdtExpired = setBit s.bezel.wdtExpired 3 true ∧ u.pwr.mode = s.pwr.mode) ∧
  (∀ (s : State) (c : SvcCore), c ≠ .kc → s.pwr.mode = .run → ∃ u : State, exec (.serviceCoreTrap c) s = .next u ∧
    u.pwr.mode = .start ∧ u.bezel.resetType.toNat = ResetType.escalation.code) ∧
  (∀ (s : State) (b : Bool), ∃ u v : State,
    u = clearHeld (vlvAllOff (fioAllOff (lightsOff (hsoAllOff (norStop (logEvent s 0x1108 []))))) stAbortedPower) ∧
    v = (if b then mirrorLog u else { u with bezel.mirrorSkipped := true }) ∧
    exec (.supplyLoss b) s = .next { v with pwr.supplyLost := true } ∧ v.cfg.persisting = false ∧ v.upd.writes = [] ∧
    v.bezel.heldHso = 0 ∧ v.bezel.holdEnd = none) ∧
  (∀ (s : State), s.pwr.supplyLost = true → s.pwr.mode = .run → ∃ u : State, exec .supplyReturn s = .next u ∧
    u.pwr.mode = .start ∧ u.pwr.supplyLost = false ∧ u.bezel.resetType.toNat = ResetType.escalation.code) ∧
  (∀ (s : State), s.pwr.supplyLost = true → s.pwr.mode = .park → s.pwr.entering = false →
    exec .supplyReturn s = .next { s with pwr.supplyLost := false }) ∧
  (∀ (s : State), s.pwr.supplyLost = false → exec .supplyReturn s = .next s)

/-! ## Loupe, updates, supply and memory faults -/

/-- Landing, commit and retry, control entries, clearing, reading and host marks (R612, R614, R619 to R633, Table 17.7).
Clauses here rest on choices of the model, not on rules of the spec: log entries 44, 98, 99, 170, 171, 172, 173, 174. -/
def Obligations.LoupeRecordsAndClears : Prop :=
  (∀ (s : State), s.loupe.staged = [] ∨ s.mayLand = false → exec .recordLand s = .next s) ∧
  (∀ (s : State) (x : LoupeStaged) (l : List LoupeStaged), s.loupe.staged = x :: l → s.mayLand = true →
    loupePlace s (loupeSize x.words.length) = none → ∃ t : State, exec .recordLand s = .next t ∧
      t = logEvent { s with loupe.full := true } 0x1201 [] ∧ t.loupe.full = true ∧ t.loupe.staged = x :: l) ∧
  (∀ (s : State) (x : LoupeStaged) (l : List LoupeStaged) (o : Nat), s.loupe.staged = x :: l → s.mayLand = true →
    loupePlace s (loupeSize x.words.length) = some o → s.loupe.clearing = true → s.loupe.eraseFront ≤ o / 65536 →
    exec .recordLand s = .next s) ∧
  (∀ (s : State) (x : LoupeStaged) (l : List LoupeStaged) (o : Nat), s.loupe.staged = x :: l → s.mayLand = true →
    loupePlace s (loupeSize x.words.length) = some o → s.loupe.clearing = false ∨ o / 65536 < s.loupe.eraseFront →
    ∃ r : LoupeRec, r = { off := o, seq := s.loupe.nextSeq, bytes := loupeBytes x s.loupe.nextSeq } ∧
      exec .recordLand s = .next
        { s with loupe.staged := l, loupe.programming := some (x, r, false), loupe.nextSeq := seqNext s.loupe.nextSeq, loupe.writeOff := BitVec.ofNat 25 (o + r.size), nor.loupe.recs := s.nor.loupe.recs ++ [r] }) ∧
  (∀ (s : State) (n o : Nat), n ≤ 65536 → loupePlace s n = some o →
    o % 65536 + n ≤ 65536 ∧ o < 33423360 ∧ s.loupe.bad.getLsbD (o / 65536) = false) ∧
  (∀ (s : State) (b : Bool), s.loupe.programming = none → exec (.recordCommit b) s = .next s) ∧
  (∀ (s : State) (x : LoupeStaged) (r : LoupeRec) (g : Bool), s.loupe.programming = some (x, r, g) →
    s.loupe.lastLanding = false →
    exec (.recordCommit true) s = .next (setCommit { s with loupe.programming := none } r.off (~~~r.seq))) ∧
  (∀ (s : State) (x : LoupeStaged) (r : LoupeRec) (j : Nat), s.loupe.programming = some (x, r, false) →
    r.off / 65536 < 510 → s.loupe.fault = false →
    (maskList (setBit s.loupe.bad (r.off / 65536) true)).length < 32 →
    goodSector (setBit s.loupe.bad (r.off / 65536) true) (r.off / 65536 + 1) = some j → ∃ t : State,
      exec (.recordCommit false) s = .next t ∧ t.loupe.bad = setBit s.loupe.bad (r.off / 65536) true ∧
      t.loupe.programming = some (x, { off := j * 65536, seq := r.seq, bytes := loupeBytes x r.seq }, true) ∧
      t.loupe.nextSeq = seqNext r.seq ∧ t.loupe.mediaNew = true ∧ t.nor.loupe.bad = t.loupe.bad) ∧
  (∀ (s : State) (x : LoupeStaged) (r : LoupeRec), s.loupe.programming = some (x, r, true) →
    s.loupe.lastLanding = false → ∃ t : State, exec (.recordCommit false) s = .next t ∧ t.loupe.programming = none ∧
      t.loupe.nextSeq = r.seq ∧ t.loupe.fault = true ∧ t.loupe.missed = satInc s.loupe.missed) ∧
  (∀ (s : State), s.isOn .svc = true → s.loupe.missed ≠ s.nor.loupe.missed → ∃ t : State,
    exec .loupeControlTick s = .next t ∧ t = loupeControl s ∧ t.nor.loupe.missed = s.loupe.missed ∧
    t.nor.loupe.cseq = s.nor.loupe.cseq + 1) ∧
  (∀ (s : State), s.isOn .svc = false ∨ s.loupe.missed = s.nor.loupe.missed →
    exec .loupeControlTick s = .next s) ∧
  (∀ (s : State), s.loupe.lastLanding = false → exec .loupeLandingBound s = .next s) ∧
  (∀ (s : State), s.loupe.lastLanding = true → exec .loupeLandingBound s = .next (settleAll (stagedMissed
    { s with loupe.programming := none, loupe.lastLanding := false }))) ∧
  (∀ (s : State) (d : Desc) (x : BitVec 32), Ready s d (.loupeClear x) = true →
    x ≠ seqPrev s.loupe.nextSeq ∨ s.loupe.programming.isSome = true ∨ s.loupe.scanning = true →
    exec (.loupeClear d x) s = .next (answered (taken s d (.loupeClear x)) d clearStale 0 0 0)) ∧
  (∀ (s : State) (d : Desc) (x : BitVec 32), Ready s d (.loupeClear x) = true → x = seqPrev s.loupe.nextSeq →
    s.loupe.programming = none → s.loupe.scanning = false → ∃ t : State, exec (.loupeClear d x) s = .next t ∧
      t.loupe.baseSeq = s.loupe.nextSeq ∧ t.loupe.clears = s.loupe.clears + 1 ∧ t.loupe.full = false ∧
      t.loupe.fault = false ∧ t.loupe.clearing = true ∧ t.loupe.eraseFront = 0 ∧ t.loupe.writeOff = 0 ∧
      t.loupe.clearActs = s.loupe.clearActs ++ [actOf s d (.loupeClear x)] ∧
      t.nor.loupe.baseSeq = s.loupe.nextSeq ∧ t.nor.loupe.recs = s.nor.loupe.recs) ∧
  (∀ (s : State) (b : Bool), s.loupe.clearing = false ∨ s.isOn .svc = false →
    exec (.clearSectorErased b) s = .next s) ∧
  (∀ (s : State) (k j : Nat), s.loupe.clearing = true → s.isOn .svc = true →
    goodSector s.loupe.bad s.loupe.eraseFront = some k → goodSector s.loupe.bad (k + 1) = some j → ∃ t : State,
      exec (.clearSectorErased true) s = .next
        { s with loupe.eraseFront := k + 1, nor.loupe.recs := s.nor.loupe.recs.filter (fun r => r.off / 65536 != k) } ∧
      exec (.clearSectorErased false) s = .next t ∧ t.loupe.eraseFront = k + 1 ∧ t.loupe.clearing = true ∧
      t.loupe.bad = setBit s.loupe.bad k true) ∧
  (∀ (s : State) (k : Nat) (a : Act), s.loupe.clearing = true → s.isOn .svc = true →
    goodSector s.loupe.bad s.loupe.eraseFront = some k → goodSector s.loupe.bad (k + 1) = none →
    s.loupe.clearActs = [a] →
    exec (.clearSectorErased true) s = .next (finish
      { s with loupe.eraseFront := 510, loupe.clearing := false, loupe.clearActs := [], nor.loupe.recs := s.nor.loupe.recs.filter (fun r => r.off / 65536 != k) }
      a 0 s.loupe.baseSeq.toNat)) ∧
  (∀ (s : State) (d : Desc) (o : BitVec 25), Ready s d (.loupeRead o) = true →
    o.toNat % 32 ≠ 0 ∨ d.payLen.toNat % 32 ≠ 0 ∨ 510 * 65536 ≤ o.toNat →
    exec (.loupeRead d o) s = .next (answered (taken s d (.loupeRead o)) d readRange 0 0 0)) ∧
  (∀ (s : State) (d : Desc) (o : BitVec 25) (n : Nat), Ready s d (.loupeRead o) = true → o.toNat % 32 = 0 →
    d.payLen.toNat % 32 = 0 → o.toNat < 510 * 65536 → (s.ringN d.ring).remote = false → s.mem.bad = [] →
    n = min d.payLen.toNat (510 * 65536 - o.toNat) → s.loupe.mediaNew = false →
    exec (.loupeRead d o) s = .next (answered
      { taken s d (.loupeRead o) with mem := s.mem.store d.payAddr.toNat (loupeCopy s.nor.loupe.recs o.toNat n) }
      d stOk 0 n s.loupe.writeOff.toNat)) ∧
  (∀ (s : State) (d : Desc) (o : BitVec 25) (n : Nat), Ready s d (.loupeRead o) = true → o.toNat % 32 = 0 →
    d.payLen.toNat % 32 = 0 → o.toNat < 510 * 65536 → (s.ringN d.ring).remote = false → s.mem.bad = [] →
    n = min d.payLen.toNat (510 * 65536 - o.toNat) → s.loupe.mediaNew = true →
    exec (.loupeRead d o) s = .next (answered
      { taken s d (.loupeRead o) with loupe.mediaNew := false, mem := s.mem.store d.payAddr.toNat (loupeCopy s.nor.loupe.recs o.toNat n) }
      d loupeMedia 0 n s.loupe.writeOff.toNat)) ∧
  (∀ (s : State) (d : Desc) (k : BitVec 6), Ready s d (.loupeMark k) = true →
    (∀ r, s.rec? 18 1 k.toNat = some r → r.f 1 8 2 ≠ 1) →
    exec (.loupeMark d k) s = .next (answered (taken s d (.loupeMark k)) d stRefusedState 0 0 0)) ∧
  (∀ (s : State) (d : Desc) (k : BitVec 6) (r : Rec), Ready s d (.loupeMark k) = true →
    s.rec? 18 1 k.toNat = some r → r.f 1 8 2 = 1 → s.loupe.holdoff.getLsbD k.toNat = true →
    exec (.loupeMark d k) s = .next (answered { taken s d (.loupeMark k) with loupe.supp := s.loupe.supp + 1 }
      d notRecorded 0 0 0)) ∧
  (∀ (s : State) (d : Desc) (k : BitVec 6) (r : Rec), Ready s d (.loupeMark k) = true →
    s.rec? 18 1 k.toNat = some r → r.f 1 8 2 = 1 → s.loupe.holdoff.getLsbD k.toNat = false →
    s.loupe.full = true ∨ s.loupe.fault = true →
    exec (.loupeMark d k) s = .next (answered { taken s d (.loupeMark k) with loupe.missed := satInc s.loupe.missed }
      d notRecorded 0 0 0)) ∧
  (∀ (s : State) (d : Desc) (k : BitVec 6) (r : Rec), Ready s d (.loupeMark k) = true →
    s.rec? 18 1 k.toNat = some r → r.f 1 8 2 = 1 → s.loupe.holdoff.getLsbD k.toNat = false → s.loupe.full = false →
    s.loupe.fault = false → stagedBytes s.loupe.staged + 160 ≤ 65536 →
    exec (.loupeMark d k) s = .next (answered
      { taken s d (.loupeMark k) with loupe.staged := s.loupe.staged ++ [loupeRecord (taken s d (.loupeMark k)) k.toNat (r.f 1 0 5)], loupe.missRun := false, loupe.holdoff := if r.f 1 16 16 = 0 then s.loupe.holdoff else setBit s.loupe.holdoff k.toNat true }
      d stOk 0 0 0)) ∧
  (∀ (s : State) (k : Fin 64), exec (.loupeHoldoffEnd k) s = .next
    { s with loupe.holdoff := setBit s.loupe.holdoff k false })

/-- Downloads, verification, activation and boot records (R643 to R650, R654, Tables 18.3 and 18.9). Signatures and
digests are left to uninterpreted functions, so these say what follows from either answer. Clauses here rest on choices
of the model, not on rules of the spec: log entries 7, 146, 147, 148, 149. -/
def Obligations.ImagesAreInstalled : Prop :=
  (∀ (s : State) (d : Desc) (n : Nat), Ready s d .updBegin = true → updCondition s true = n → n ≠ 0 →
    exec (.updBegin d) s = .next (answered (logEvent { taken s d .updBegin with upd.refuse := BitVec.ofNat 4 n }
      0x1307 [n]) d stRefusedState n 0 0)) ∧
  (∀ (s : State) (d : Desc), Ready s d .updBegin = true → updCondition s true = 0 →
    manifestOk (payloadOf s d .updBegin) = false →
    exec (.updBegin d) s = .next (answered (taken s d .updBegin) d manifestInvalid 0 0 0)) ∧
  (∀ (s : State) (d : Desc) (m : List (BitVec 8)), Ready s d .updBegin = true → updCondition s true = 0 →
    payloadOf s d .updBegin = m → manifestOk m = true → s.pwr.mode = .update → s.nor.manifest = some m →
    s.upd.verifying = none →
    (s.signed m = false → exec (.updBegin d) s = .next (answered (taken s d .updBegin) d stCheckFailed 0 0 0)) ∧
    (s.signed m = true → exec (.updBegin d) s = .next (answered (updStage (logEvent
      { taken s d .updBegin with upd.verified := false, upd.stage := 1 } 0x1301 [s.nor.landed.length])) d stOk 0
      s.nor.landed.length (b2n s.targetB)))) ∧
  (∀ (s : State) (d : Desc) (m : List (BitVec 8)), Ready s d .updBegin = true → updCondition s true = 0 →
    payloadOf s d .updBegin = m → manifestOk m = true → s.pwr.mode = .update → s.nor.manifest ≠ some m →
    (s.signed m = false → exec (.updBegin d) s = .next (answered (taken s d .updBegin) d stCheckFailed 0 0 0)) ∧
    (s.signed m = true → ∃ t : State, exec (.updBegin d) s = .next t ∧ t.upd.landing = [] ∧ t.upd.verifying = none ∧
      t.upd.verified = false ∧ t.upd.stage = 1 ∧ t.nor.manifest = s.nor.manifest ∧
      t.upd.writes = s.upd.writes ++ [{ record := { s.lastBoot with fbValid := false }, why := .begin_ (actOf s d .updBegin) m }])) ∧
  (∀ (s : State) (d : Desc) (m : List (BitVec 8)), Ready s d .updBegin = true → updCondition s true = 0 →
    payloadOf s d .updBegin = m → manifestOk m = true → s.pwr.mode = .run →
    (s.signed m = false → exec (.updBegin d) s = .next (answered (taken s d .updBegin) d stCheckFailed 0 0 0)) ∧
    (s.signed m = true → ∃ t : State, exec (.updBegin d) s = .next t ∧ t.pwr.mode = .update ∧
      t.pwr.beforeUpdate = .run)) ∧
  (∀ (s : State) (d : Desc) (i : BitVec 10), Ready s d (.updBlock i) = true → s.pwr.mode ≠ .update →
    exec (.updBlock d i) s = .next (answered (taken s d (.updBlock i)) d stRefusedState 0 0 0)) ∧
  (∀ (s : State) (d : Desc) (i : BitVec 10), Ready s d (.updBlock i) = true → s.pwr.mode = .update →
    s.nor.manifest = none →
    exec (.updBlock d i) s = .next (answered (taken s d (.updBlock i)) d indexRange 0 0 0)) ∧
  (∀ (s : State) (d : Desc) (i : BitVec 10) (m : List (BitVec 8)), Ready s d (.updBlock i) = true →
    s.pwr.mode = .update → s.nor.manifest = some m →
    mBlocks m ≤ i.toNat ∨ (payloadOf s d (.updBlock i)).length ≠ blockLen m i.toNat →
    exec (.updBlock d i) s = .next (answered (taken s d (.updBlock i)) d indexRange 0 0 0)) ∧
  (∀ (s : State) (d : Desc) (i : BitVec 10) (m : List (BitVec 8)), Ready s d (.updBlock i) = true →
    s.pwr.mode = .update → s.nor.manifest = some m → i.toNat < mBlocks m →
    (payloadOf s d (.updBlock i)).length = blockLen m i.toNat → i.toNat ∈ s.nor.landed →
    exec (.updBlock d i) s = .next (answered (taken s d (.updBlock i)) d stOk 0 0 0)) ∧
  (∀ (s : State) (d : Desc) (i : BitVec 10) (m : List (BitVec 8)), Ready s d (.updBlock i) = true →
    s.pwr.mode = .update → s.nor.manifest = some m → i.toNat < mBlocks m →
    (payloadOf s d (.updBlock i)).length = blockLen m i.toNat → i.toNat ∉ s.nor.landed →
    exec (.updBlock d i) s = .next
      { taken s d (.updBlock i) with upd.landing := s.upd.landing ++ [(actOf s d (.updBlock i), i.toNat)] }) ∧
  (∀ (s : State), s.upd.landing = [] ∨ s.nor.manifest = none → exec .updBlockLanded s = .next s) ∧
  (∀ (s : State) (a : Act) (i : Nat) (l : List (Act × Nat)) (m : List (BitVec 8)), s.upd.landing = (a, i) :: l →
    s.nor.manifest = some m → (crc32c a.payload).toNat = leAt m (96 + 4 * i) 4 → ∃ u : State,
      u = bankPut { s with upd.landing := l } i a.payload ∧
      exec .updBlockLanded s = .next (finish (updStage
        { u with nor.landed := if s.nor.landed.contains i then s.nor.landed else s.nor.landed ++ [i] })
        a 0 (crc32c a.payload).toNat)) ∧
  (∀ (s : State) (a : Act) (i : Nat) (l : List (Act × Nat)) (m : List (BitVec 8)), s.upd.landing = (a, i) :: l →
    s.nor.manifest = some m → (crc32c a.payload).toNat ≠ leAt m (96 + 4 * i) 4 →
    exec .updBlockLanded s = .next (refuse (logEvent (bankPut { s with upd.landing := l } i a.payload) 0x1302 [i]) a
      stCheckFailed)) ∧
  (∀ (s : State) (d : Desc), Ready s d .updVerify = true → s.nor.manifest = none →
    exec (.updVerify d) s = .next (answered (taken s d .updVerify) d updIncomplete 0 0 0)) ∧
  (∀ (s : State) (d : Desc) (m : List (BitVec 8)) (i : Nat), Ready s d .updVerify = true → s.nor.manifest = some m →
    i < mBlocks m → i ∉ s.nor.landed → (∀ j, j < i → j ∈ s.nor.landed) →
    exec (.updVerify d) s = .next (answered (taken s d .updVerify) d updIncomplete 0 i 0)) ∧
  (∀ (s : State) (d : Desc), Ready s d .updVerify = true → s.allLanded = true → s.upd.verifying.isSome = true →
    exec (.updVerify d) s = .next (answered (taken s d .updVerify) d stRefusedState 0 0 0)) ∧
  (∀ (s : State) (d : Desc), Ready s d .updVerify = true → s.allLanded = true → s.upd.verifying = none →
    exec (.updVerify d) s = .next
      { taken s d .updVerify with upd.verifying := some (actOf s d .updVerify), upd.stage := 3 }) ∧
  (∀ (s : State), s.upd.verifying = none ∨ s.nor.manifest = none → exec .updVerifyDone s = .next s) ∧
  (∀ (s : State) (a : Act) (m : List (BitVec 8)), s.upd.verifying = some a → s.nor.manifest = some m →
    ∃ (b : Bool) (u : State), b = (Config.sha256 (s.targetImage m) == (m.drop 32).take 32 && s.signed m) ∧
      u = logEvent { s with upd.verifying := none } 0x1303 [b2n b] ∧
      (b = true → exec .updVerifyDone s = .next (finish { u with upd.verified := true, upd.stage := 4 } a 0
        (leAt m 8 4))) ∧
      (b = false → exec .updVerifyDone s = .next (refuse { u with upd.verified := false, upd.stage := 2 } a
        stCheckFailed))) ∧
  (∀ (s : State) (d : Desc) (x : BitVec 1), Ready s d (.updActivate x) = true →
    s.upd.verified = false ∨ s.nor.manifest = none →
    exec (.updActivate d x) s = .next (answered (taken s d (.updActivate x)) d notVerified 0 0 0)) ∧
  (∀ (s : State) (d : Desc) (x : BitVec 1) (m : List (BitVec 8)) (n : Nat), Ready s d (.updActivate x) = true →
    s.upd.verified = true → s.nor.manifest = some m → updCondition s false = n → n ≠ 0 →
    exec (.updActivate d x) s = .next (answered (logEvent
      { taken s d (.updActivate x) with upd.refuse := BitVec.ofNat 4 n } 0x1307 [n]) d stRefusedState n 0 0)) ∧
  (∀ (s : State) (d : Desc) (x : BitVec 1) (m : List (BitVec 8)), Ready s d (.updActivate x) = true →
    s.upd.verified = true → s.nor.manifest = some m → updCondition s false = 0 →
    exec (.updActivate d x) s = .next
      { taken s d (.updActivate x) with nor.bootMarks := 0, nor.timeMarks := 0, upd.stage := 5, upd.writes := s.upd.writes ++ [{ record := activateRec s.lastBoot m (x == 1), why := .activate (actOf s d (.updActivate x)) }] }) ∧
  (∀ (s : State), s.upd.writes = [] → exec .bootRecordWritten s = .next s) ∧
  (∀ (s : State) (w : BootWrite) (l : List BootWrite) (a : Act) (m : List (BitVec 8)), s.upd.writes = w :: l →
    w.why = .begin_ a m → ∃ u : State, u = bootPut { s with upd.writes := l } w.record ∧
      u.upd.boot = { w.record with seq := s.upd.boot.seq + 1 } ∧ u.upd.copy1 = !s.upd.copy1 ∧
      exec .bootRecordWritten s = .next (finish (updStage { u with nor.manifest := some m, nor.landed := [] }) a 0 0
        (b2n s.targetB))) ∧
  (∀ (s : State) (w : BootWrite) (l : List BootWrite) (a : Act), s.upd.writes = w :: l → w.why = .activate a →
    exec .bootRecordWritten s = .next (finish
      { bootPut { s with upd.writes := l } w.record with upd.activateAt := some (s.clk.ns + 1000000) } a)) ∧
  (∀ (s : State) (w : BootWrite) (l : List BootWrite) (a : Act), s.upd.writes = w :: l → w.why = .confirm a →
    exec .bootRecordWritten s = .next (finish (logEvent (bootPut { s with upd.writes := l } w.record) 0x1305 []) a)) ∧
  (∀ (s : State) (w : BootWrite) (l : List BootWrite), s.upd.writes = w :: l → w.why = .fallback →
    exec .bootRecordWritten s = .next (updReboot (logEvent (bootPut { s with upd.writes := l } w.record) 0x1306
      [w.record.fbCause.toNat]))) ∧
  (∀ (s : State) (w : BootWrite) (l : List BootWrite), s.upd.writes = w :: l → w.why = .media →
    exec .bootRecordWritten s = .next (bootPut { s with upd.writes := l } w.record)) ∧
  (∀ (s : State), s.upd.activateAt = none → exec .activationReset s = .next s) ∧
  (∀ (s : State) (x : Nat), s.upd.activateAt = some x → exec .activationReset s = .next (updReboot (logEvent
    { s.reach x with upd.activateAt := none } 0x1304 [s.upd.boot.version.toNat])))

/-- Confirmation, trial time, abort, the OEM key, the settings store and its migration (R644, R651, R658 to R663).
Clauses here rest on choices of the model, not on rules of the spec: log entries 79, 149, 150, 151, 153. -/
def Obligations.TrialsEndAndSettingsAreKept : Prop :=
  (∀ (s : State) (d : Desc), Ready s d .updConfirm = true → s.onTrial = false ∨ s.lastBoot.trial = false →
    exec (.updConfirm d) s = .next (answered (taken s d .updConfirm) d stRefusedState 0 0 0)) ∧
  (∀ (s : State) (d : Desc), Ready s d .updConfirm = true → s.onTrial = true → s.lastBoot.trial = true →
    exec (.updConfirm d) s = .next
      { taken s d .updConfirm with upd.writes := s.upd.writes ++ [{ record := { s.lastBoot with trial := false, fellBack := false }, why := .confirm (actOf s d .updConfirm) }] }) ∧
  (∀ (s : State), s.onTrial = false ∨ s.lastBoot.trial = false ∨ s.isOn .svc = false →
    exec .trialTimeMark s = .next s) ∧
  (∀ (s : State), s.onTrial = true → s.lastBoot.trial = true → s.isOn .svc = true → ∃ u v : State,
    u = s.reach (s.upd.trialAt + 10000000000) ∧
    v = { u with nor.timeMarks := s.nor.timeMarks + 1, upd.trialAt := u.clk.ns } ∧
    (s.nor.timeMarks + 1 < 60 → exec .trialTimeMark s = .next v) ∧
    (60 ≤ s.nor.timeMarks + 1 → exec .trialTimeMark s = .next
      { v with upd.writes := s.upd.writes ++ [{ record := fallbackRec s.lastBoot 2, why := .fallback }] })) ∧
  (∀ (s : State) (d : Desc) (k : BitVec 1), Ready s d (.updAbort k) = true → s.pwr.mode ≠ .update →
    s.upd.landing = [] → s.upd.verifying = none →
    exec (.updAbort d k) s = .next (answered
      { taken s d (.updAbort k) with upd.stage := 0, upd.verified := false, nor.manifest := if k = 1 then s.nor.manifest else none, nor.landed := if k = 1 then s.nor.landed else [] }
      d stOk 0 0 0)) ∧
  (∀ (s : State) (d : Desc) (k : BitVec 1), Ready s d (.updAbort k) = true → s.pwr.mode = .update → ∃ t : State,
    exec (.updAbort d k) s = .next t ∧ t.upd.landing = [] ∧ t.upd.verifying = none ∧ t.upd.stage = 0 ∧
    t.upd.verified = false ∧ t.nor.manifest = (if k = 1 then s.nor.manifest else none) ∧
    t.nor.landed = (if k = 1 then s.nor.landed else [])) ∧
  (∀ (s : State) (d : Desc), Ready s d .updOemKey = true → s.onTrial = true ∨ s.pwr.mode ≠ .service →
    exec (.updOemKey d) s = .next (answered (taken s d .updOemKey) d stRefusedState 0 0 0)) ∧
  (∀ (s : State) (d : Desc), Ready s d .updOemKey = true → s.onTrial = false → s.pwr.mode = .service →
    (vget s.acc.keys 9).isSome = true →
    exec (.updOemKey d) s = .next (answered (taken s d .updOemKey) d oemKeySet 0 0 0)) ∧
  (∀ (s : State) (d : Desc), Ready s d .updOemKey = true → s.onTrial = false → s.pwr.mode = .service →
    vget s.acc.keys 9 = none →
    exec (.updOemKey d) s = .next (answered
      { taken s d .updOemKey with acc.keys := vset s.acc.keys 9 (some (payloadOf s d .updOemKey)) } d stOk 0 0 0)) ∧
  (∀ (s : State) (d : Desc) (k : BitVec 16), s.upd.migrating = true → Ready s d (.setWrite k) = true →
    exec (.setWrite d k) s = .next
      { taken s d (.setWrite k) with upd.setWaits := s.upd.setWaits ++ [(actOf s d (.setWrite k), .setWrite k)] }) ∧
  (∀ (s : State) (d : Desc) (k : BitVec 16), s.upd.migrating = true → Ready s d (.setRead k) = true →
    exec (.setRead d k) s = .next
      { taken s d (.setRead k) with upd.setWaits := s.upd.setWaits ++ [(actOf s d (.setRead k), .setRead k)] }) ∧
  (∀ (s : State) (d : Desc) (k : BitVec 16) (v : List (BitVec 8)) (rest : List (BitVec 16 × List (BitVec 8))),
    Ready s d (.setWrite k) = true → s.upd.migrating = false → v = payloadOf s d (.setWrite k) →
    rest = (s.area s.upd.boot.sarea).items.filter (fun x => x.1 != k) → 1048576 < storeBytes rest + v.length →
    exec (.setWrite d k) s = .next (answered (taken s d (.setWrite k)) d settingsFull 0 0 0)) ∧
  (∀ (s : State) (d : Desc) (k : BitVec 16) (v : List (BitVec 8)) (rest : List (BitVec 16 × List (BitVec 8))),
    Ready s d (.setWrite k) = true → s.upd.migrating = false → v = payloadOf s d (.setWrite k) →
    rest = (s.area s.upd.boot.sarea).items.filter (fun x => x.1 != k) → storeBytes rest + v.length ≤ 1048576 →
    exec (.setWrite d k) s = .next (answered ((taken s d (.setWrite k)).modArea s.upd.boot.sarea (fun ar =>
      { ar with items := if v = [] then rest else rest ++ [(k, v)], st := .valid, sfmt := s.upd.boot.sfmt }))
      d stOk 0 0 0)) ∧
  (∀ (s : State) (d : Desc) (k : BitVec 16), Ready s d (.setRead k) = true → s.upd.migrating = false →
    (s.area s.upd.boot.sarea).items.find? (fun x => x.1 == k) = none →
    exec (.setRead d k) s = .next (answered (taken s d (.setRead k)) d settingAbsent 0 0 0)) ∧
  (∀ (s : State) (d : Desc) (k q : BitVec 16) (v : List (BitVec 8)), Ready s d (.setRead k) = true →
    s.upd.migrating = false → (s.area s.upd.boot.sarea).items.find? (fun x => x.1 == k) = some (q, v) →
    (s.ringN d.ring).remote = false → s.mem.bad = [] →
    exec (.setRead d k) s = .next (answered
      { taken s d (.setRead k) with mem := s.mem.store d.payAddr.toNat (v.take d.payLen.toNat) }
      d stOk 0 v.length 0)) ∧
  (∀ (s : State), s.upd.migrating = false → exec .settingsMigrationDone s = .next s) ∧
  (∀ (s : State), s.upd.migrating = true → s.upd.setWaits = [] →
    exec .settingsMigrationDone s = .next (logEvent
      { s.modArea s.upd.boot.sarea (fun ar => { ar with st := .valid, items := (s.area s.upd.boot.sareaFb).items }) with upd.migrating := false }
      0x1308 [(s.area s.upd.boot.sareaFb).sfmt.toNat, s.upd.boot.sfmt.toNat]))

/-- Over-voltage pauses, the system voltage, the plate sensor, the reference, the scrubber, injected faults and the
report of corrections (R33 to R37, R697, R723 to R731, Table 1.7). Clauses here rest on choices of the model, not on
rules of the spec: log entries 165, 175, 176. -/
def Obligations.SupplyAndMemoryFaultsAreReported : Prop :=
  (∀ (s : State) (p : Fin 3), s.paused p = true → exec (.ovpBegin p) s = .next s ∧
    exec (.ovpEnd p) s = .next (logEvent { s with sys.ovp := setBit s.sys.ovp p false } 0x0002 [p])) ∧
  (∀ (s : State) (p : Fin 3), s.paused p = false → ∃ u t : State,
    u = logEvent { s with sys.ovp := setBit s.sys.ovp p true } 0x0001 [p] ∧ exec (.ovpEnd p) s = .next s ∧
    exec (.ovpBegin p) s = .next t ∧
    t = (if p = 1 then ledPause (hsoPause u 1) else if p = 2 then vlvPause (fioPause (hsoPause u 2))
      else hsoPause u 0) ∧ t.paused p = true) ∧
  (∀ (s : State) (v : BitVec 16),
    (if s.sys.sysv then 18000 ≤ v.toNat ∧ v.toNat ≤ 32000 else 9000 ≤ v.toNat ∧ v.toNat ≤ 16000) →
    exec (.sysvMismatch v) s = .next { s with sys.mismatch := false }) ∧
  (∀ (s : State) (v : BitVec 16),
    ¬ (if s.sys.sysv then 18000 ≤ v.toNat ∧ v.toNat ≤ 32000 else 9000 ≤ v.toNat ∧ v.toNat ≤ 16000) →
    s.kl15On = true → s.sys.mismatch = false →
    exec (.sysvMismatch v) s = .next (logEvent { s with sys.mismatch := true } 0x0004 [v.toNat])) ∧
  (∀ (s : State) (v : BitVec 16),
    ¬ (if s.sys.sysv then 18000 ≤ v.toNat ∧ v.toNat ≤ 32000 else 9000 ≤ v.toNat ∧ v.toNat ≤ 16000) →
    s.kl15On = false ∨ s.sys.mismatch = true → exec (.sysvMismatch v) s = .next s) ∧
  (∀ (s : State) (x : Int), s.isOn .adc = true → s.adc.plateFault = false → x < -5000 ∨ 15000 < x →
    exec (.plateSensorFault x) s = .next (logEvent { s with adc.plateFault := true, adc.subst := true } 0x1401
      [(BitVec.ofInt 16 x).toNat])) ∧
  (∀ (s : State) (x : Int), s.isOn .adc = false ∨ s.adc.plateFault = true ∨ (-5000 ≤ x ∧ x ≤ 15000) →
    exec (.plateSensorFault x) s = .next s) ∧
  (∀ (s : State) (x : Int), -5000 ≤ x ∧ x ≤ 15000 →
    exec (.plateSensorRecover x) s = .next { s with adc.plateFault := false, adc.subst := false }) ∧
  (∀ (s : State) (x : Int), x < -5000 ∨ 15000 < x → exec (.plateSensorRecover x) s = .next s) ∧
  (∀ (s : State) (v : BitVec 13), 4750 ≤ v.toNat ∧ v.toNat ≤ 5250 →
    exec (.refFault v) s = .next { s with adc.refFault := false }) ∧
  (∀ (s : State) (v : BitVec 13), v.toNat < 4750 ∨ 5250 < v.toNat → s.isOn .adc = true → s.adc.refFault = false →
    exec (.refFault v) s = .next (logEvent { s with adc.refFault := true } 0x1402 [v.toNat])) ∧
  (∀ (s : State) (v : BitVec 13), v.toNat < 4750 ∨ 5250 < v.toNat → s.isOn .adc = false ∨ s.adc.refFault = true →
    exec (.refFault v) s = .next s) ∧
  (∀ (s : State), s.ecc.scrubEn = false → exec .scrubWord s = .next s) ∧
  (∀ (s : State), s.ecc.scrubEn = true → s.ecc.pos.toNat < dramWords → s.isOn .mem = false →
    exec .scrubWord s = .next s) ∧
  (∀ (s : State), s.ecc.scrubEn = true → s.ecc.pos.toNat < dramWords → s.isOn .mem = true →
    s.mem.faultOf s.ecc.pos.toNat = none → exec .scrubWord s = .next { s with ecc.pos := s.ecc.pos + 1 }) ∧
  (∀ (s : State), s.ecc.scrubEn = true → s.ecc.pos.toNat < dramWords → s.isOn .mem = true →
    s.mem.faultOf s.ecc.pos.toNat = some .single → exec .scrubWord s = .next
      { s with ecc.pos := s.ecc.pos + 1, mem := s.mem.clearFault s.ecc.pos.toNat, ecc.ceDram := satInc s.ecc.ceDram, ecc.ceSince := s.ecc.ceSince + 1 }) ∧
  (∀ (s : State), s.ecc.scrubEn = true → s.ecc.pos.toNat < dramWords → s.isOn .mem = true →
    s.mem.faultOf s.ecc.pos.toNat = some .double → ∃ u t : State, u = reportUe s s.ecc.pos.toNat .scrubber false ∧
      exec .scrubWord s = .next t ∧ t = { u with ecc.pos := s.ecc.pos + 1 } ∧
      t.ecc.ueDram = satInc s.ecc.ueDram ∧ t.ecc.next = s.ecc.next + 1 ∧ t.mem = s.mem) ∧
  (∀ (s : State), s.ecc.scrubEn = true → s.ecc.pos.toNat + 1 = dramWords + 262144 → s.isOn .svc = true →
    s.mem.faultOf (scrubAt s.ecc.pos.toNat) = none → exec .scrubWord s = .next (logEvent
      { s with ecc.pos := 0, ecc.passes := s.ecc.passes + 1 } 0x1503 [(s.ecc.passes + 1).toNat])) ∧
  (∀ (s : State) (d : Desc) (a : BitVec 64) (k : BitVec 2), Ready s d (.eccInject a k) = true →
    s.pwr.mode ≠ .service →
    exec (.eccInject d a k) s = .next (answered (taken s d (.eccInject a k)) d stRefusedState 0 0 0)) ∧
  (∀ (s : State) (d : Desc) (a : BitVec 64) (k : BitVec 2), Ready s d (.eccInject a k) = true →
    s.pwr.mode = .service → s.mem.faultOf (a.toNat / 32) = none →
    exec (.eccInject d a k) s = .next (answered
      { taken s d (.eccInject a k) with mem := s.mem.setFault (a.toNat / 32) (injected k.toNat) } d stOk 0 0 0)) ∧
  (∀ (s : State) (d : Desc) (a : BitVec 64) (k : BitVec 2), Ready s d (.eccInject a k) = true →
    s.pwr.mode = .service →
    s.mem.faultOf (a.toNat / 32) = some .double ∨ s.mem.faultOf (a.toNat / 32) = some .fold → ∃ u : State,
      u = reportUe (taken s d (.eccInject a k)) (a.toNat / 32) .read
        (decide (s.mem.faultOf (a.toNat / 32) = some .fold)) ∧
      exec (.eccInject d a k) s = .next (answered u d stMemUe 0 0 0)) ∧
  (∀ (s : State), s.ecc.ceSince = 0 ∨ s.ecc.ceReported.any (fun x => s.clk.ns < x + 1000000000) = true →
    exec .correctableReport s = .next s) ∧
  (∀ (s : State), s.ecc.ceSince ≠ 0 → s.ecc.ceReported.all (fun x => x + 1000000000 ≤ s.clk.ns) = true →
    exec .correctableReport s = .next (logEvent { s with ecc.ceSince := 0, ecc.ceReported := some s.clk.ns } 0x1501
      [s.ecc.ceSince]))

/-- What an event does to the triggers of Loupe, and what a record's snapshot holds (R612 to R616). Clauses here rest on
choices of the model, not on rules of the spec: log entry 44. -/
def Obligations.TriggersRecordWhatMatches : Prop :=
  (∀ (s : State) (code t : Nat) (r : Rec) (data : List Nat), s.isOn .svc = true → code / 256 ≠ 0x12 → t < 64 →
    s.rec? 18 1 t = some r → (∀ k : Fin 64, k.val ≠ t → s.rec? 18 1 k = none) →
    logEvent s code data = (if trigMatches r code then (loupeStage (logBase s code data) t r).2
      else logBase s code data)) ∧
  (∀ (s : State) (code : Nat) (data : List Nat), s.isOn .svc = true → code / 256 ≠ 0x12 →
    (logEvent s code data).loupe.staged.take s.loupe.staged.length = s.loupe.staged ∧
    (logEvent s code data).loupe.staged.length ≤ s.loupe.staged.length + 64) ∧
  (∀ (s : State) (code : Nat) (data : List Nat), 0x1200 ≤ code ∧ code ≤ 0x12FF →
    logEvent s code data = logBase s code data ∧ (logEvent s code data).loupe = s.loupe) ∧
  (∀ (s : State) (d : Desc) (k : BitVec 6), Ready s d (.loupeMark k) = true → ∃ t : State,
    exec (.loupeMark d k) s = .next t ∧ t.loupe.staged.take s.loupe.staged.length = s.loupe.staged ∧
    t.nor.loupe = s.nor.loupe) ∧
  (∀ (s : State) (n t : Nat) (r : Rec), s.rec? 18 2 n = some r →
    (loupeRecord s t n).words = (List.range (r.f 0 0 5)).map (fun i =>
      if s.isOn (blockDom (blockOfAddr (r.w (i + 1)))) then BitVec.ofNat 32 (regValue s (r.w (i + 1)))
      else 0xFFFFFFFF) ∧ (loupeRecord s t n).trig = t ∧ (loupeRecord s t n).snap = n ∧
      (loupeRecord s t n).weave = s.weave.time)

/-- An IRQ message of a worker sets its ring's bit in PLAIT_RPEND and raises block vector 15 at the manager (R543, R546). -/
def Obligations.WorkerIrqsReachTheHost : Prop :=
  (∀ (s : State) (w : Nat) (f : PlaitFrame), w < 32 → s.role = .manager → f.cls = 3 → f.kind = 1 →
    ∃ t : State, t = takeFrame s w f none ∧
      (t.plink w).rpend = setBit (s.plink w).rpend (ofBytes (f.payload.take 1) % 16) true ∧
      t.rings = { s.rings with blkPend := setBit s.rings.blkPend 15 true }) ∧
  (∀ (s : State) (w : Fin 32) (f : PlaitFrame), s.role = .manager → s.isOn .eth = true → s.linkUp w = true →
    frameGood s w f = true → f.cls = 3 → f.kind = 1 → f.seq = (s.plink w).rxSeq → (s.plink w).held = [] →
    s.plait.copies = [] → ∃ t : State, exec (.reliableFrameRx w f) s = .next t ∧
      (t.plink w).rpend = setBit (s.plink w).rpend (ofBytes (f.payload.take 1) % 16) true ∧
      (t.plink w).rxSeq = (s.plink w).rxSeq + 1 ∧ t.rings.blkPend = setBit s.rings.blkPend 15 true)
end

