-- ==== Sys2Proof/Laws/State.lean ====
section
/-! SUPPORT. What the entry of an array reads as after a change, and what each update of one register set leaves as it
was: every other part of the state, and every other entry. -/

namespace Sys2Proof

theorem vget_vset_same {α : Type} {n : Nat} [Inhabited α] (v : Vector α n) (i : Nat) (a : α) (h : i < n) :
    vget (vset v i a) i = a := by
  simp [vget, vset, List.getD, h]

theorem vget_vset_other {α : Type} {n : Nat} [Inhabited α] (v : Vector α n) (i j : Nat) (a : α) (h : i ≠ j) :
    vget (vset v i a) j = vget v j := by
  simp [vget, vset, List.getD, h]

/-- The entry that an update names, inside the array. -/
theorem vget_vmod_same {α : Type} {n : Nat} [Inhabited α] (v : Vector α n) (i : Nat) (f : α → α) (h : i < n) :
    vget (vmod v i f) i = f (vget v i) := vget_vset_same v i _ h

/-- Every other entry. -/
theorem vget_vmod_other {α : Type} {n : Nat} [Inhabited α] (v : Vector α n) (i j : Nat) (f : α → α) (h : i ≠ j) :
    vget (vmod v i f) j = vget v j := vget_vset_other v i j _ h

/-- Two updates of one entry are one. -/
theorem vmod_vmod {α : Type} {n : Nat} [Inhabited α] (v : Vector α n) (i : Nat) (f g : α → α) :
    vmod (vmod v i f) i g = vmod v i (fun x => g (f x)) := by
  by_cases h : i < n
  · unfold vmod
    rw [vget_vset_same v i _ h]
    simp [vset]
  · simp [vmod, vset, Vector.setIfInBounds, Array.setIfInBounds, h]

/-- Two updates that agree on the entry are one. -/
theorem vmod_congr {α : Type} {n : Nat} [Inhabited α] (v : Vector α n) (i : Nat) (f g : α → α)
    (h : f (vget v i) = g (vget v i)) : vmod v i f = vmod v i g := by
  simp only [vmod, h]

namespace Machine

theorem State.modRing_rings (s : State) (n : Nat) (f : Ring → Ring) :
    (s.modRing n f).rings = { s.rings with ring := vmod s.rings.ring n f } := rfl
@[simp] theorem State.modRing_clk (s : State) (n : Nat) (f : Ring → Ring) : (s.modRing n f).clk = s.clk := rfl
@[simp] theorem State.modRing_sys (s : State) (n : Nat) (f : Ring → Ring) : (s.modRing n f).sys = s.sys := rfl
@[simp] theorem State.modRing_adc (s : State) (n : Nat) (f : Ring → Ring) : (s.modRing n f).adc = s.adc := rfl
@[simp] theorem State.modRing_ecc (s : State) (n : Nat) (f : Ring → Ring) : (s.modRing n f).ecc = s.ecc := rfl
@[simp] theorem State.modRing_mem (s : State) (n : Nat) (f : Ring → Ring) : (s.modRing n f).mem = s.mem := rfl
@[simp] theorem State.modRing_nor (s : State) (n : Nat) (f : Ring → Ring) : (s.modRing n f).nor = s.nor := rfl
@[simp] theorem State.modRing_pwr (s : State) (n : Nat) (f : Ring → Ring) : (s.modRing n f).pwr = s.pwr := rfl
@[simp] theorem State.modRing_weave (s : State) (n : Nat) (f : Ring → Ring) : (s.modRing n f).weave = s.weave := rfl
@[simp] theorem State.modRing_cfg (s : State) (n : Nat) (f : Ring → Ring) : (s.modRing n f).cfg = s.cfg := rfl
@[simp] theorem State.modRing_bezel (s : State) (n : Nat) (f : Ring → Ring) : (s.modRing n f).bezel = s.bezel := rfl
@[simp] theorem State.modRing_loupe (s : State) (n : Nat) (f : Ring → Ring) : (s.modRing n f).loupe = s.loupe := rfl
@[simp] theorem State.modRing_hso (s : State) (n : Nat) (f : Ring → Ring) : (s.modRing n f).hso = s.hso := rfl
@[simp] theorem State.modRing_edge (s : State) (n : Nat) (f : Ring → Ring) : (s.modRing n f).edge = s.edge := rfl
@[simp] theorem State.modRing_led (s : State) (n : Nat) (f : Ring → Ring) : (s.modRing n f).led = s.led := rfl
@[simp] theorem State.modRing_mtx (s : State) (n : Nat) (f : Ring → Ring) : (s.modRing n f).mtx = s.mtx := rfl
@[simp] theorem State.modRing_fio (s : State) (n : Nat) (f : Ring → Ring) : (s.modRing n f).fio = s.fio := rfl
@[simp] theorem State.modRing_vlv (s : State) (n : Nat) (f : Ring → Ring) : (s.modRing n f).vlv = s.vlv := rfl
@[simp] theorem State.modRing_facet (s : State) (n : Nat) (f : Ring → Ring) : (s.modRing n f).facet = s.facet := rfl
@[simp] theorem State.modRing_can (s : State) (n : Nat) (f : Ring → Ring) : (s.modRing n f).can = s.can := rfl
@[simp] theorem State.modRing_net (s : State) (n : Nat) (f : Ring → Ring) : (s.modRing n f).net = s.net := rfl
@[simp] theorem State.modRing_eth (s : State) (n : Nat) (f : Ring → Ring) : (s.modRing n f).eth = s.eth := rfl
@[simp] theorem State.modRing_plait (s : State) (n : Nat) (f : Ring → Ring) : (s.modRing n f).plait = s.plait := rfl
@[simp] theorem State.modRing_acc (s : State) (n : Nat) (f : Ring → Ring) : (s.modRing n f).acc = s.acc := rfl
@[simp] theorem State.modRing_upd (s : State) (n : Nat) (f : Ring → Ring) : (s.modRing n f).upd = s.upd := rfl
@[simp] theorem State.modRing_rdata (s : State) (n : Nat) (f : Ring → Ring) : (s.modRing n f).rdata = s.rdata := rfl
@[simp] theorem State.modRing_out (s : State) (n : Nat) (f : Ring → Ring) : (s.modRing n f).out = s.out := rfl
@[simp] theorem State.modRing_free (s : State) (n : Nat) (f : Ring → Ring) : (s.modRing n f).free = s.free := rfl
@[simp] theorem State.modRing_pending (s : State) (n : Nat) (f : Ring → Ring) : (s.modRing n f).pending = s.pending := rfl

theorem State.modDom_pwr (s : State) (d : Dom) (f : DomCtl → DomCtl) :
    (s.modDom d f).pwr = { s.pwr with dom := vmod s.pwr.dom d.num f } := rfl
@[simp] theorem State.modDom_clk (s : State) (d : Dom) (f : DomCtl → DomCtl) : (s.modDom d f).clk = s.clk := rfl
@[simp] theorem State.modDom_sys (s : State) (d : Dom) (f : DomCtl → DomCtl) : (s.modDom d f).sys = s.sys := rfl
@[simp] theorem State.modDom_adc (s : State) (d : Dom) (f : DomCtl → DomCtl) : (s.modDom d f).adc = s.adc := rfl
@[simp] theorem State.modDom_ecc (s : State) (d : Dom) (f : DomCtl → DomCtl) : (s.modDom d f).ecc = s.ecc := rfl
@[simp] theorem State.modDom_mem (s : State) (d : Dom) (f : DomCtl → DomCtl) : (s.modDom d f).mem = s.mem := rfl
@[simp] theorem State.modDom_nor (s : State) (d : Dom) (f : DomCtl → DomCtl) : (s.modDom d f).nor = s.nor := rfl
@[simp] theorem State.modDom_weave (s : State) (d : Dom) (f : DomCtl → DomCtl) : (s.modDom d f).weave = s.weave := rfl
@[simp] theorem State.modDom_rings (s : State) (d : Dom) (f : DomCtl → DomCtl) : (s.modDom d f).rings = s.rings := rfl
@[simp] theorem State.modDom_cfg (s : State) (d : Dom) (f : DomCtl → DomCtl) : (s.modDom d f).cfg = s.cfg := rfl
@[simp] theorem State.modDom_bezel (s : State) (d : Dom) (f : DomCtl → DomCtl) : (s.modDom d f).bezel = s.bezel := rfl
@[simp] theorem State.modDom_loupe (s : State) (d : Dom) (f : DomCtl → DomCtl) : (s.modDom d f).loupe = s.loupe := rfl
@[simp] theorem State.modDom_hso (s : State) (d : Dom) (f : DomCtl → DomCtl) : (s.modDom d f).hso = s.hso := rfl
@[simp] theorem State.modDom_edge (s : State) (d : Dom) (f : DomCtl → DomCtl) : (s.modDom d f).edge = s.edge := rfl
@[simp] theorem State.modDom_led (s : State) (d : Dom) (f : DomCtl → DomCtl) : (s.modDom d f).led = s.led := rfl
@[simp] theorem State.modDom_mtx (s : State) (d : Dom) (f : DomCtl → DomCtl) : (s.modDom d f).mtx = s.mtx := rfl
@[simp] theorem State.modDom_fio (s : State) (d : Dom) (f : DomCtl → DomCtl) : (s.modDom d f).fio = s.fio := rfl
@[simp] theorem State.modDom_vlv (s : State) (d : Dom) (f : DomCtl → DomCtl) : (s.modDom d f).vlv = s.vlv := rfl
@[simp] theorem State.modDom_facet (s : State) (d : Dom) (f : DomCtl → DomCtl) : (s.modDom d f).facet = s.facet := rfl
@[simp] theorem State.modDom_can (s : State) (d : Dom) (f : DomCtl → DomCtl) : (s.modDom d f).can = s.can := rfl
@[simp] theorem State.modDom_net (s : State) (d : Dom) (f : DomCtl → DomCtl) : (s.modDom d f).net = s.net := rfl
@[simp] theorem State.modDom_eth (s : State) (d : Dom) (f : DomCtl → DomCtl) : (s.modDom d f).eth = s.eth := rfl
@[simp] theorem State.modDom_plait (s : State) (d : Dom) (f : DomCtl → DomCtl) : (s.modDom d f).plait = s.plait := rfl
@[simp] theorem State.modDom_acc (s : State) (d : Dom) (f : DomCtl → DomCtl) : (s.modDom d f).acc = s.acc := rfl
@[simp] theorem State.modDom_upd (s : State) (d : Dom) (f : DomCtl → DomCtl) : (s.modDom d f).upd = s.upd := rfl
@[simp] theorem State.modDom_rdata (s : State) (d : Dom) (f : DomCtl → DomCtl) : (s.modDom d f).rdata = s.rdata := rfl
@[simp] theorem State.modDom_out (s : State) (d : Dom) (f : DomCtl → DomCtl) : (s.modDom d f).out = s.out := rfl
@[simp] theorem State.modDom_free (s : State) (d : Dom) (f : DomCtl → DomCtl) : (s.modDom d f).free = s.free := rfl
@[simp] theorem State.modDom_pending (s : State) (d : Dom) (f : DomCtl → DomCtl) : (s.modDom d f).pending = s.pending := rfl

theorem State.modLink_plait (s : State) (w : Nat) (f : PLink → PLink) :
    (s.modLink w f).plait = { s.plait with link := vmod s.plait.link w f } := rfl
@[simp] theorem State.modLink_clk (s : State) (w : Nat) (f : PLink → PLink) : (s.modLink w f).clk = s.clk := rfl
@[simp] theorem State.modLink_sys (s : State) (w : Nat) (f : PLink → PLink) : (s.modLink w f).sys = s.sys := rfl
@[simp] theorem State.modLink_adc (s : State) (w : Nat) (f : PLink → PLink) : (s.modLink w f).adc = s.adc := rfl
@[simp] theorem State.modLink_ecc (s : State) (w : Nat) (f : PLink → PLink) : (s.modLink w f).ecc = s.ecc := rfl
@[simp] theorem State.modLink_mem (s : State) (w : Nat) (f : PLink → PLink) : (s.modLink w f).mem = s.mem := rfl
@[simp] theorem State.modLink_nor (s : State) (w : Nat) (f : PLink → PLink) : (s.modLink w f).nor = s.nor := rfl
@[simp] theorem State.modLink_pwr (s : State) (w : Nat) (f : PLink → PLink) : (s.modLink w f).pwr = s.pwr := rfl
@[simp] theorem State.modLink_weave (s : State) (w : Nat) (f : PLink → PLink) : (s.modLink w f).weave = s.weave := rfl
@[simp] theorem State.modLink_rings (s : State) (w : Nat) (f : PLink → PLink) : (s.modLink w f).rings = s.rings := rfl
@[simp] theorem State.modLink_cfg (s : State) (w : Nat) (f : PLink → PLink) : (s.modLink w f).cfg = s.cfg := rfl
@[simp] theorem State.modLink_bezel (s : State) (w : Nat) (f : PLink → PLink) : (s.modLink w f).bezel = s.bezel := rfl
@[simp] theorem State.modLink_loupe (s : State) (w : Nat) (f : PLink → PLink) : (s.modLink w f).loupe = s.loupe := rfl
@[simp] theorem State.modLink_hso (s : State) (w : Nat) (f : PLink → PLink) : (s.modLink w f).hso = s.hso := rfl
@[simp] theorem State.modLink_edge (s : State) (w : Nat) (f : PLink → PLink) : (s.modLink w f).edge = s.edge := rfl
@[simp] theorem State.modLink_led (s : State) (w : Nat) (f : PLink → PLink) : (s.modLink w f).led = s.led := rfl
@[simp] theorem State.modLink_mtx (s : State) (w : Nat) (f : PLink → PLink) : (s.modLink w f).mtx = s.mtx := rfl
@[simp] theorem State.modLink_fio (s : State) (w : Nat) (f : PLink → PLink) : (s.modLink w f).fio = s.fio := rfl
@[simp] theorem State.modLink_vlv (s : State) (w : Nat) (f : PLink → PLink) : (s.modLink w f).vlv = s.vlv := rfl
@[simp] theorem State.modLink_facet (s : State) (w : Nat) (f : PLink → PLink) : (s.modLink w f).facet = s.facet := rfl
@[simp] theorem State.modLink_can (s : State) (w : Nat) (f : PLink → PLink) : (s.modLink w f).can = s.can := rfl
@[simp] theorem State.modLink_net (s : State) (w : Nat) (f : PLink → PLink) : (s.modLink w f).net = s.net := rfl
@[simp] theorem State.modLink_eth (s : State) (w : Nat) (f : PLink → PLink) : (s.modLink w f).eth = s.eth := rfl
@[simp] theorem State.modLink_acc (s : State) (w : Nat) (f : PLink → PLink) : (s.modLink w f).acc = s.acc := rfl
@[simp] theorem State.modLink_upd (s : State) (w : Nat) (f : PLink → PLink) : (s.modLink w f).upd = s.upd := rfl
@[simp] theorem State.modLink_rdata (s : State) (w : Nat) (f : PLink → PLink) : (s.modLink w f).rdata = s.rdata := rfl
@[simp] theorem State.modLink_out (s : State) (w : Nat) (f : PLink → PLink) : (s.modLink w f).out = s.out := rfl
@[simp] theorem State.modLink_free (s : State) (w : Nat) (f : PLink → PLink) : (s.modLink w f).free = s.free := rfl
@[simp] theorem State.modLink_pending (s : State) (w : Nat) (f : PLink → PLink) : (s.modLink w f).pending = s.pending := rfl

theorem State.modHso_hso (s : State) (n : Nat) (f : HsoCh → HsoCh) :
    (s.modHso n f).hso = { s.hso with ch := vmod s.hso.ch n f } := rfl
@[simp] theorem State.modHso_clk (s : State) (n : Nat) (f : HsoCh → HsoCh) : (s.modHso n f).clk = s.clk := rfl
@[simp] theorem State.modHso_sys (s : State) (n : Nat) (f : HsoCh → HsoCh) : (s.modHso n f).sys = s.sys := rfl
@[simp] theorem State.modHso_adc (s : State) (n : Nat) (f : HsoCh → HsoCh) : (s.modHso n f).adc = s.adc := rfl
@[simp] theorem State.modHso_ecc (s : State) (n : Nat) (f : HsoCh → HsoCh) : (s.modHso n f).ecc = s.ecc := rfl
@[simp] theorem State.modHso_mem (s : State) (n : Nat) (f : HsoCh → HsoCh) : (s.modHso n f).mem = s.mem := rfl
@[simp] theorem State.modHso_nor (s : State) (n : Nat) (f : HsoCh → HsoCh) : (s.modHso n f).nor = s.nor := rfl
@[simp] theorem State.modHso_pwr (s : State) (n : Nat) (f : HsoCh → HsoCh) : (s.modHso n f).pwr = s.pwr := rfl
@[simp] theorem State.modHso_weave (s : State) (n : Nat) (f : HsoCh → HsoCh) : (s.modHso n f).weave = s.weave := rfl
@[simp] theorem State.modHso_rings (s : State) (n : Nat) (f : HsoCh → HsoCh) : (s.modHso n f).rings = s.rings := rfl
@[simp] theorem State.modHso_cfg (s : State) (n : Nat) (f : HsoCh → HsoCh) : (s.modHso n f).cfg = s.cfg := rfl
@[simp] theorem State.modHso_bezel (s : State) (n : Nat) (f : HsoCh → HsoCh) : (s.modHso n f).bezel = s.bezel := rfl
@[simp] theorem State.modHso_loupe (s : State) (n : Nat) (f : HsoCh → HsoCh) : (s.modHso n f).loupe = s.loupe := rfl
@[simp] theorem State.modHso_edge (s : State) (n : Nat) (f : HsoCh → HsoCh) : (s.modHso n f).edge = s.edge := rfl
@[simp] theorem State.modHso_led (s : State) (n : Nat) (f : HsoCh → HsoCh) : (s.modHso n f).led = s.led := rfl
@[simp] theorem State.modHso_mtx (s : State) (n : Nat) (f : HsoCh → HsoCh) : (s.modHso n f).mtx = s.mtx := rfl
@[simp] theorem State.modHso_fio (s : State) (n : Nat) (f : HsoCh → HsoCh) : (s.modHso n f).fio = s.fio := rfl
@[simp] theorem State.modHso_vlv (s : State) (n : Nat) (f : HsoCh → HsoCh) : (s.modHso n f).vlv = s.vlv := rfl
@[simp] theorem State.modHso_facet (s : State) (n : Nat) (f : HsoCh → HsoCh) : (s.modHso n f).facet = s.facet := rfl
@[simp] theorem State.modHso_can (s : State) (n : Nat) (f : HsoCh → HsoCh) : (s.modHso n f).can = s.can := rfl
@[simp] theorem State.modHso_net (s : State) (n : Nat) (f : HsoCh → HsoCh) : (s.modHso n f).net = s.net := rfl
@[simp] theorem State.modHso_eth (s : State) (n : Nat) (f : HsoCh → HsoCh) : (s.modHso n f).eth = s.eth := rfl
@[simp] theorem State.modHso_plait (s : State) (n : Nat) (f : HsoCh → HsoCh) : (s.modHso n f).plait = s.plait := rfl
@[simp] theorem State.modHso_acc (s : State) (n : Nat) (f : HsoCh → HsoCh) : (s.modHso n f).acc = s.acc := rfl
@[simp] theorem State.modHso_upd (s : State) (n : Nat) (f : HsoCh → HsoCh) : (s.modHso n f).upd = s.upd := rfl
@[simp] theorem State.modHso_rdata (s : State) (n : Nat) (f : HsoCh → HsoCh) : (s.modHso n f).rdata = s.rdata := rfl
@[simp] theorem State.modHso_out (s : State) (n : Nat) (f : HsoCh → HsoCh) : (s.modHso n f).out = s.out := rfl
@[simp] theorem State.modHso_free (s : State) (n : Nat) (f : HsoCh → HsoCh) : (s.modHso n f).free = s.free := rfl
@[simp] theorem State.modHso_pending (s : State) (n : Nat) (f : HsoCh → HsoCh) : (s.modHso n f).pending = s.pending := rfl

theorem State.modGrp_hso (s : State) (g : Nat) (f : HsoGrp → HsoGrp) :
    (s.modGrp g f).hso = { s.hso with grp := vmod s.hso.grp g f } := rfl
@[simp] theorem State.modGrp_clk (s : State) (g : Nat) (f : HsoGrp → HsoGrp) : (s.modGrp g f).clk = s.clk := rfl
@[simp] theorem State.modGrp_sys (s : State) (g : Nat) (f : HsoGrp → HsoGrp) : (s.modGrp g f).sys = s.sys := rfl
@[simp] theorem State.modGrp_adc (s : State) (g : Nat) (f : HsoGrp → HsoGrp) : (s.modGrp g f).adc = s.adc := rfl
@[simp] theorem State.modGrp_ecc (s : State) (g : Nat) (f : HsoGrp → HsoGrp) : (s.modGrp g f).ecc = s.ecc := rfl
@[simp] theorem State.modGrp_mem (s : State) (g : Nat) (f : HsoGrp → HsoGrp) : (s.modGrp g f).mem = s.mem := rfl
@[simp] theorem State.modGrp_nor (s : State) (g : Nat) (f : HsoGrp → HsoGrp) : (s.modGrp g f).nor = s.nor := rfl
@[simp] theorem State.modGrp_pwr (s : State) (g : Nat) (f : HsoGrp → HsoGrp) : (s.modGrp g f).pwr = s.pwr := rfl
@[simp] theorem State.modGrp_weave (s : State) (g : Nat) (f : HsoGrp → HsoGrp) : (s.modGrp g f).weave = s.weave := rfl
@[simp] theorem State.modGrp_rings (s : State) (g : Nat) (f : HsoGrp → HsoGrp) : (s.modGrp g f).rings = s.rings := rfl
@[simp] theorem State.modGrp_cfg (s : State) (g : Nat) (f : HsoGrp → HsoGrp) : (s.modGrp g f).cfg = s.cfg := rfl
@[simp] theorem State.modGrp_bezel (s : State) (g : Nat) (f : HsoGrp → HsoGrp) : (s.modGrp g f).bezel = s.bezel := rfl
@[simp] theorem State.modGrp_loupe (s : State) (g : Nat) (f : HsoGrp → HsoGrp) : (s.modGrp g f).loupe = s.loupe := rfl
@[simp] theorem State.modGrp_edge (s : State) (g : Nat) (f : HsoGrp → HsoGrp) : (s.modGrp g f).edge = s.edge := rfl
@[simp] theorem State.modGrp_led (s : State) (g : Nat) (f : HsoGrp → HsoGrp) : (s.modGrp g f).led = s.led := rfl
@[simp] theorem State.modGrp_mtx (s : State) (g : Nat) (f : HsoGrp → HsoGrp) : (s.modGrp g f).mtx = s.mtx := rfl
@[simp] theorem State.modGrp_fio (s : State) (g : Nat) (f : HsoGrp → HsoGrp) : (s.modGrp g f).fio = s.fio := rfl
@[simp] theorem State.modGrp_vlv (s : State) (g : Nat) (f : HsoGrp → HsoGrp) : (s.modGrp g f).vlv = s.vlv := rfl
@[simp] theorem State.modGrp_facet (s : State) (g : Nat) (f : HsoGrp → HsoGrp) : (s.modGrp g f).facet = s.facet := rfl
@[simp] theorem State.modGrp_can (s : State) (g : Nat) (f : HsoGrp → HsoGrp) : (s.modGrp g f).can = s.can := rfl
@[simp] theorem State.modGrp_net (s : State) (g : Nat) (f : HsoGrp → HsoGrp) : (s.modGrp g f).net = s.net := rfl
@[simp] theorem State.modGrp_eth (s : State) (g : Nat) (f : HsoGrp → HsoGrp) : (s.modGrp g f).eth = s.eth := rfl
@[simp] theorem State.modGrp_plait (s : State) (g : Nat) (f : HsoGrp → HsoGrp) : (s.modGrp g f).plait = s.plait := rfl
@[simp] theorem State.modGrp_acc (s : State) (g : Nat) (f : HsoGrp → HsoGrp) : (s.modGrp g f).acc = s.acc := rfl
@[simp] theorem State.modGrp_upd (s : State) (g : Nat) (f : HsoGrp → HsoGrp) : (s.modGrp g f).upd = s.upd := rfl
@[simp] theorem State.modGrp_rdata (s : State) (g : Nat) (f : HsoGrp → HsoGrp) : (s.modGrp g f).rdata = s.rdata := rfl
@[simp] theorem State.modGrp_out (s : State) (g : Nat) (f : HsoGrp → HsoGrp) : (s.modGrp g f).out = s.out := rfl
@[simp] theorem State.modGrp_free (s : State) (g : Nat) (f : HsoGrp → HsoGrp) : (s.modGrp g f).free = s.free := rfl
@[simp] theorem State.modGrp_pending (s : State) (g : Nat) (f : HsoGrp → HsoGrp) : (s.modGrp g f).pending = s.pending := rfl

theorem State.modP_edge (s : State) (i : Nat) (f : PChan → PChan) :
    (s.modP i f).edge = { s.edge with ch := vmod s.edge.ch i f } := rfl
@[simp] theorem State.modP_clk (s : State) (i : Nat) (f : PChan → PChan) : (s.modP i f).clk = s.clk := rfl
@[simp] theorem State.modP_sys (s : State) (i : Nat) (f : PChan → PChan) : (s.modP i f).sys = s.sys := rfl
@[simp] theorem State.modP_adc (s : State) (i : Nat) (f : PChan → PChan) : (s.modP i f).adc = s.adc := rfl
@[simp] theorem State.modP_ecc (s : State) (i : Nat) (f : PChan → PChan) : (s.modP i f).ecc = s.ecc := rfl
@[simp] theorem State.modP_mem (s : State) (i : Nat) (f : PChan → PChan) : (s.modP i f).mem = s.mem := rfl
@[simp] theorem State.modP_nor (s : State) (i : Nat) (f : PChan → PChan) : (s.modP i f).nor = s.nor := rfl
@[simp] theorem State.modP_pwr (s : State) (i : Nat) (f : PChan → PChan) : (s.modP i f).pwr = s.pwr := rfl
@[simp] theorem State.modP_weave (s : State) (i : Nat) (f : PChan → PChan) : (s.modP i f).weave = s.weave := rfl
@[simp] theorem State.modP_rings (s : State) (i : Nat) (f : PChan → PChan) : (s.modP i f).rings = s.rings := rfl
@[simp] theorem State.modP_cfg (s : State) (i : Nat) (f : PChan → PChan) : (s.modP i f).cfg = s.cfg := rfl
@[simp] theorem State.modP_bezel (s : State) (i : Nat) (f : PChan → PChan) : (s.modP i f).bezel = s.bezel := rfl
@[simp] theorem State.modP_loupe (s : State) (i : Nat) (f : PChan → PChan) : (s.modP i f).loupe = s.loupe := rfl
@[simp] theorem State.modP_hso (s : State) (i : Nat) (f : PChan → PChan) : (s.modP i f).hso = s.hso := rfl
@[simp] theorem State.modP_led (s : State) (i : Nat) (f : PChan → PChan) : (s.modP i f).led = s.led := rfl
@[simp] theorem State.modP_mtx (s : State) (i : Nat) (f : PChan → PChan) : (s.modP i f).mtx = s.mtx := rfl
@[simp] theorem State.modP_fio (s : State) (i : Nat) (f : PChan → PChan) : (s.modP i f).fio = s.fio := rfl
@[simp] theorem State.modP_vlv (s : State) (i : Nat) (f : PChan → PChan) : (s.modP i f).vlv = s.vlv := rfl
@[simp] theorem State.modP_facet (s : State) (i : Nat) (f : PChan → PChan) : (s.modP i f).facet = s.facet := rfl
@[simp] theorem State.modP_can (s : State) (i : Nat) (f : PChan → PChan) : (s.modP i f).can = s.can := rfl
@[simp] theorem State.modP_net (s : State) (i : Nat) (f : PChan → PChan) : (s.modP i f).net = s.net := rfl
@[simp] theorem State.modP_eth (s : State) (i : Nat) (f : PChan → PChan) : (s.modP i f).eth = s.eth := rfl
@[simp] theorem State.modP_plait (s : State) (i : Nat) (f : PChan → PChan) : (s.modP i f).plait = s.plait := rfl
@[simp] theorem State.modP_acc (s : State) (i : Nat) (f : PChan → PChan) : (s.modP i f).acc = s.acc := rfl
@[simp] theorem State.modP_upd (s : State) (i : Nat) (f : PChan → PChan) : (s.modP i f).upd = s.upd := rfl
@[simp] theorem State.modP_rdata (s : State) (i : Nat) (f : PChan → PChan) : (s.modP i f).rdata = s.rdata := rfl
@[simp] theorem State.modP_out (s : State) (i : Nat) (f : PChan → PChan) : (s.modP i f).out = s.out := rfl
@[simp] theorem State.modP_free (s : State) (i : Nat) (f : PChan → PChan) : (s.modP i f).free = s.free := rfl
@[simp] theorem State.modP_pending (s : State) (i : Nat) (f : PChan → PChan) : (s.modP i f).pending = s.pending := rfl

theorem State.modLed_led (s : State) (n : Nat) (f : LedCh → LedCh) :
    (s.modLed n f).led = { s.led with ch := vmod s.led.ch n f } := rfl
@[simp] theorem State.modLed_clk (s : State) (n : Nat) (f : LedCh → LedCh) : (s.modLed n f).clk = s.clk := rfl
@[simp] theorem State.modLed_sys (s : State) (n : Nat) (f : LedCh → LedCh) : (s.modLed n f).sys = s.sys := rfl
@[simp] theorem State.modLed_adc (s : State) (n : Nat) (f : LedCh → LedCh) : (s.modLed n f).adc = s.adc := rfl
@[simp] theorem State.modLed_ecc (s : State) (n : Nat) (f : LedCh → LedCh) : (s.modLed n f).ecc = s.ecc := rfl
@[simp] theorem State.modLed_mem (s : State) (n : Nat) (f : LedCh → LedCh) : (s.modLed n f).mem = s.mem := rfl
@[simp] theorem State.modLed_nor (s : State) (n : Nat) (f : LedCh → LedCh) : (s.modLed n f).nor = s.nor := rfl
@[simp] theorem State.modLed_pwr (s : State) (n : Nat) (f : LedCh → LedCh) : (s.modLed n f).pwr = s.pwr := rfl
@[simp] theorem State.modLed_weave (s : State) (n : Nat) (f : LedCh → LedCh) : (s.modLed n f).weave = s.weave := rfl
@[simp] theorem State.modLed_rings (s : State) (n : Nat) (f : LedCh → LedCh) : (s.modLed n f).rings = s.rings := rfl
@[simp] theorem State.modLed_cfg (s : State) (n : Nat) (f : LedCh → LedCh) : (s.modLed n f).cfg = s.cfg := rfl
@[simp] theorem State.modLed_bezel (s : State) (n : Nat) (f : LedCh → LedCh) : (s.modLed n f).bezel = s.bezel := rfl
@[simp] theorem State.modLed_loupe (s : State) (n : Nat) (f : LedCh → LedCh) : (s.modLed n f).loupe = s.loupe := rfl
@[simp] theorem State.modLed_hso (s : State) (n : Nat) (f : LedCh → LedCh) : (s.modLed n f).hso = s.hso := rfl
@[simp] theorem State.modLed_edge (s : State) (n : Nat) (f : LedCh → LedCh) : (s.modLed n f).edge = s.edge := rfl
@[simp] theorem State.modLed_mtx (s : State) (n : Nat) (f : LedCh → LedCh) : (s.modLed n f).mtx = s.mtx := rfl
@[simp] theorem State.modLed_fio (s : State) (n : Nat) (f : LedCh → LedCh) : (s.modLed n f).fio = s.fio := rfl
@[simp] theorem State.modLed_vlv (s : State) (n : Nat) (f : LedCh → LedCh) : (s.modLed n f).vlv = s.vlv := rfl
@[simp] theorem State.modLed_facet (s : State) (n : Nat) (f : LedCh → LedCh) : (s.modLed n f).facet = s.facet := rfl
@[simp] theorem State.modLed_can (s : State) (n : Nat) (f : LedCh → LedCh) : (s.modLed n f).can = s.can := rfl
@[simp] theorem State.modLed_net (s : State) (n : Nat) (f : LedCh → LedCh) : (s.modLed n f).net = s.net := rfl
@[simp] theorem State.modLed_eth (s : State) (n : Nat) (f : LedCh → LedCh) : (s.modLed n f).eth = s.eth := rfl
@[simp] theorem State.modLed_plait (s : State) (n : Nat) (f : LedCh → LedCh) : (s.modLed n f).plait = s.plait := rfl
@[simp] theorem State.modLed_acc (s : State) (n : Nat) (f : LedCh → LedCh) : (s.modLed n f).acc = s.acc := rfl
@[simp] theorem State.modLed_upd (s : State) (n : Nat) (f : LedCh → LedCh) : (s.modLed n f).upd = s.upd := rfl
@[simp] theorem State.modLed_rdata (s : State) (n : Nat) (f : LedCh → LedCh) : (s.modLed n f).rdata = s.rdata := rfl
@[simp] theorem State.modLed_out (s : State) (n : Nat) (f : LedCh → LedCh) : (s.modLed n f).out = s.out := rfl
@[simp] theorem State.modLed_free (s : State) (n : Nat) (f : LedCh → LedCh) : (s.modLed n f).free = s.free := rfl
@[simp] theorem State.modLed_pending (s : State) (n : Nat) (f : LedCh → LedCh) : (s.modLed n f).pending = s.pending := rfl

theorem State.modFio_fio (s : State) (n : Nat) (f : FioCh → FioCh) :
    (s.modFio n f).fio = { s.fio with ch := vmod s.fio.ch n f } := rfl
@[simp] theorem State.modFio_clk (s : State) (n : Nat) (f : FioCh → FioCh) : (s.modFio n f).clk = s.clk := rfl
@[simp] theorem State.modFio_sys (s : State) (n : Nat) (f : FioCh → FioCh) : (s.modFio n f).sys = s.sys := rfl
@[simp] theorem State.modFio_adc (s : State) (n : Nat) (f : FioCh → FioCh) : (s.modFio n f).adc = s.adc := rfl
@[simp] theorem State.modFio_ecc (s : State) (n : Nat) (f : FioCh → FioCh) : (s.modFio n f).ecc = s.ecc := rfl
@[simp] theorem State.modFio_mem (s : State) (n : Nat) (f : FioCh → FioCh) : (s.modFio n f).mem = s.mem := rfl
@[simp] theorem State.modFio_nor (s : State) (n : Nat) (f : FioCh → FioCh) : (s.modFio n f).nor = s.nor := rfl
@[simp] theorem State.modFio_pwr (s : State) (n : Nat) (f : FioCh → FioCh) : (s.modFio n f).pwr = s.pwr := rfl
@[simp] theorem State.modFio_weave (s : State) (n : Nat) (f : FioCh → FioCh) : (s.modFio n f).weave = s.weave := rfl
@[simp] theorem State.modFio_rings (s : State) (n : Nat) (f : FioCh → FioCh) : (s.modFio n f).rings = s.rings := rfl
@[simp] theorem State.modFio_cfg (s : State) (n : Nat) (f : FioCh → FioCh) : (s.modFio n f).cfg = s.cfg := rfl
@[simp] theorem State.modFio_bezel (s : State) (n : Nat) (f : FioCh → FioCh) : (s.modFio n f).bezel = s.bezel := rfl
@[simp] theorem State.modFio_loupe (s : State) (n : Nat) (f : FioCh → FioCh) : (s.modFio n f).loupe = s.loupe := rfl
@[simp] theorem State.modFio_hso (s : State) (n : Nat) (f : FioCh → FioCh) : (s.modFio n f).hso = s.hso := rfl
@[simp] theorem State.modFio_edge (s : State) (n : Nat) (f : FioCh → FioCh) : (s.modFio n f).edge = s.edge := rfl
@[simp] theorem State.modFio_led (s : State) (n : Nat) (f : FioCh → FioCh) : (s.modFio n f).led = s.led := rfl
@[simp] theorem State.modFio_mtx (s : State) (n : Nat) (f : FioCh → FioCh) : (s.modFio n f).mtx = s.mtx := rfl
@[simp] theorem State.modFio_vlv (s : State) (n : Nat) (f : FioCh → FioCh) : (s.modFio n f).vlv = s.vlv := rfl
@[simp] theorem State.modFio_facet (s : State) (n : Nat) (f : FioCh → FioCh) : (s.modFio n f).facet = s.facet := rfl
@[simp] theorem State.modFio_can (s : State) (n : Nat) (f : FioCh → FioCh) : (s.modFio n f).can = s.can := rfl
@[simp] theorem State.modFio_net (s : State) (n : Nat) (f : FioCh → FioCh) : (s.modFio n f).net = s.net := rfl
@[simp] theorem State.modFio_eth (s : State) (n : Nat) (f : FioCh → FioCh) : (s.modFio n f).eth = s.eth := rfl
@[simp] theorem State.modFio_plait (s : State) (n : Nat) (f : FioCh → FioCh) : (s.modFio n f).plait = s.plait := rfl
@[simp] theorem State.modFio_acc (s : State) (n : Nat) (f : FioCh → FioCh) : (s.modFio n f).acc = s.acc := rfl
@[simp] theorem State.modFio_upd (s : State) (n : Nat) (f : FioCh → FioCh) : (s.modFio n f).upd = s.upd := rfl
@[simp] theorem State.modFio_rdata (s : State) (n : Nat) (f : FioCh → FioCh) : (s.modFio n f).rdata = s.rdata := rfl
@[simp] theorem State.modFio_out (s : State) (n : Nat) (f : FioCh → FioCh) : (s.modFio n f).out = s.out := rfl
@[simp] theorem State.modFio_free (s : State) (n : Nat) (f : FioCh → FioCh) : (s.modFio n f).free = s.free := rfl
@[simp] theorem State.modFio_pending (s : State) (n : Nat) (f : FioCh → FioCh) : (s.modFio n f).pending = s.pending := rfl

theorem State.modVlv_vlv (s : State) (n : Nat) (f : VlvCh → VlvCh) :
    (s.modVlv n f).vlv = { s.vlv with ch := vmod s.vlv.ch n f } := rfl
@[simp] theorem State.modVlv_clk (s : State) (n : Nat) (f : VlvCh → VlvCh) : (s.modVlv n f).clk = s.clk := rfl
@[simp] theorem State.modVlv_sys (s : State) (n : Nat) (f : VlvCh → VlvCh) : (s.modVlv n f).sys = s.sys := rfl
@[simp] theorem State.modVlv_adc (s : State) (n : Nat) (f : VlvCh → VlvCh) : (s.modVlv n f).adc = s.adc := rfl
@[simp] theorem State.modVlv_ecc (s : State) (n : Nat) (f : VlvCh → VlvCh) : (s.modVlv n f).ecc = s.ecc := rfl
@[simp] theorem State.modVlv_mem (s : State) (n : Nat) (f : VlvCh → VlvCh) : (s.modVlv n f).mem = s.mem := rfl
@[simp] theorem State.modVlv_nor (s : State) (n : Nat) (f : VlvCh → VlvCh) : (s.modVlv n f).nor = s.nor := rfl
@[simp] theorem State.modVlv_pwr (s : State) (n : Nat) (f : VlvCh → VlvCh) : (s.modVlv n f).pwr = s.pwr := rfl
@[simp] theorem State.modVlv_weave (s : State) (n : Nat) (f : VlvCh → VlvCh) : (s.modVlv n f).weave = s.weave := rfl
@[simp] theorem State.modVlv_rings (s : State) (n : Nat) (f : VlvCh → VlvCh) : (s.modVlv n f).rings = s.rings := rfl
@[simp] theorem State.modVlv_cfg (s : State) (n : Nat) (f : VlvCh → VlvCh) : (s.modVlv n f).cfg = s.cfg := rfl
@[simp] theorem State.modVlv_bezel (s : State) (n : Nat) (f : VlvCh → VlvCh) : (s.modVlv n f).bezel = s.bezel := rfl
@[simp] theorem State.modVlv_loupe (s : State) (n : Nat) (f : VlvCh → VlvCh) : (s.modVlv n f).loupe = s.loupe := rfl
@[simp] theorem State.modVlv_hso (s : State) (n : Nat) (f : VlvCh → VlvCh) : (s.modVlv n f).hso = s.hso := rfl
@[simp] theorem State.modVlv_edge (s : State) (n : Nat) (f : VlvCh → VlvCh) : (s.modVlv n f).edge = s.edge := rfl
@[simp] theorem State.modVlv_led (s : State) (n : Nat) (f : VlvCh → VlvCh) : (s.modVlv n f).led = s.led := rfl
@[simp] theorem State.modVlv_mtx (s : State) (n : Nat) (f : VlvCh → VlvCh) : (s.modVlv n f).mtx = s.mtx := rfl
@[simp] theorem State.modVlv_fio (s : State) (n : Nat) (f : VlvCh → VlvCh) : (s.modVlv n f).fio = s.fio := rfl
@[simp] theorem State.modVlv_facet (s : State) (n : Nat) (f : VlvCh → VlvCh) : (s.modVlv n f).facet = s.facet := rfl
@[simp] theorem State.modVlv_can (s : State) (n : Nat) (f : VlvCh → VlvCh) : (s.modVlv n f).can = s.can := rfl
@[simp] theorem State.modVlv_net (s : State) (n : Nat) (f : VlvCh → VlvCh) : (s.modVlv n f).net = s.net := rfl
@[simp] theorem State.modVlv_eth (s : State) (n : Nat) (f : VlvCh → VlvCh) : (s.modVlv n f).eth = s.eth := rfl
@[simp] theorem State.modVlv_plait (s : State) (n : Nat) (f : VlvCh → VlvCh) : (s.modVlv n f).plait = s.plait := rfl
@[simp] theorem State.modVlv_acc (s : State) (n : Nat) (f : VlvCh → VlvCh) : (s.modVlv n f).acc = s.acc := rfl
@[simp] theorem State.modVlv_upd (s : State) (n : Nat) (f : VlvCh → VlvCh) : (s.modVlv n f).upd = s.upd := rfl
@[simp] theorem State.modVlv_rdata (s : State) (n : Nat) (f : VlvCh → VlvCh) : (s.modVlv n f).rdata = s.rdata := rfl
@[simp] theorem State.modVlv_out (s : State) (n : Nat) (f : VlvCh → VlvCh) : (s.modVlv n f).out = s.out := rfl
@[simp] theorem State.modVlv_free (s : State) (n : Nat) (f : VlvCh → VlvCh) : (s.modVlv n f).free = s.free := rfl
@[simp] theorem State.modVlv_pending (s : State) (n : Nat) (f : VlvCh → VlvCh) : (s.modVlv n f).pending = s.pending := rfl

theorem State.modBank_vlv (s : State) (b : Nat) (f : VlvBank → VlvBank) :
    (s.modBank b f).vlv = { s.vlv with bank := vmod s.vlv.bank b f } := rfl
@[simp] theorem State.modBank_clk (s : State) (b : Nat) (f : VlvBank → VlvBank) : (s.modBank b f).clk = s.clk := rfl
@[simp] theorem State.modBank_sys (s : State) (b : Nat) (f : VlvBank → VlvBank) : (s.modBank b f).sys = s.sys := rfl
@[simp] theorem State.modBank_adc (s : State) (b : Nat) (f : VlvBank → VlvBank) : (s.modBank b f).adc = s.adc := rfl
@[simp] theorem State.modBank_ecc (s : State) (b : Nat) (f : VlvBank → VlvBank) : (s.modBank b f).ecc = s.ecc := rfl
@[simp] theorem State.modBank_mem (s : State) (b : Nat) (f : VlvBank → VlvBank) : (s.modBank b f).mem = s.mem := rfl
@[simp] theorem State.modBank_nor (s : State) (b : Nat) (f : VlvBank → VlvBank) : (s.modBank b f).nor = s.nor := rfl
@[simp] theorem State.modBank_pwr (s : State) (b : Nat) (f : VlvBank → VlvBank) : (s.modBank b f).pwr = s.pwr := rfl
@[simp] theorem State.modBank_weave (s : State) (b : Nat) (f : VlvBank → VlvBank) : (s.modBank b f).weave = s.weave := rfl
@[simp] theorem State.modBank_rings (s : State) (b : Nat) (f : VlvBank → VlvBank) : (s.modBank b f).rings = s.rings := rfl
@[simp] theorem State.modBank_cfg (s : State) (b : Nat) (f : VlvBank → VlvBank) : (s.modBank b f).cfg = s.cfg := rfl
@[simp] theorem State.modBank_bezel (s : State) (b : Nat) (f : VlvBank → VlvBank) : (s.modBank b f).bezel = s.bezel := rfl
@[simp] theorem State.modBank_loupe (s : State) (b : Nat) (f : VlvBank → VlvBank) : (s.modBank b f).loupe = s.loupe := rfl
@[simp] theorem State.modBank_hso (s : State) (b : Nat) (f : VlvBank → VlvBank) : (s.modBank b f).hso = s.hso := rfl
@[simp] theorem State.modBank_edge (s : State) (b : Nat) (f : VlvBank → VlvBank) : (s.modBank b f).edge = s.edge := rfl
@[simp] theorem State.modBank_led (s : State) (b : Nat) (f : VlvBank → VlvBank) : (s.modBank b f).led = s.led := rfl
@[simp] theorem State.modBank_mtx (s : State) (b : Nat) (f : VlvBank → VlvBank) : (s.modBank b f).mtx = s.mtx := rfl
@[simp] theorem State.modBank_fio (s : State) (b : Nat) (f : VlvBank → VlvBank) : (s.modBank b f).fio = s.fio := rfl
@[simp] theorem State.modBank_facet (s : State) (b : Nat) (f : VlvBank → VlvBank) : (s.modBank b f).facet = s.facet := rfl
@[simp] theorem State.modBank_can (s : State) (b : Nat) (f : VlvBank → VlvBank) : (s.modBank b f).can = s.can := rfl
@[simp] theorem State.modBank_net (s : State) (b : Nat) (f : VlvBank → VlvBank) : (s.modBank b f).net = s.net := rfl
@[simp] theorem State.modBank_eth (s : State) (b : Nat) (f : VlvBank → VlvBank) : (s.modBank b f).eth = s.eth := rfl
@[simp] theorem State.modBank_plait (s : State) (b : Nat) (f : VlvBank → VlvBank) : (s.modBank b f).plait = s.plait := rfl
@[simp] theorem State.modBank_acc (s : State) (b : Nat) (f : VlvBank → VlvBank) : (s.modBank b f).acc = s.acc := rfl
@[simp] theorem State.modBank_upd (s : State) (b : Nat) (f : VlvBank → VlvBank) : (s.modBank b f).upd = s.upd := rfl
@[simp] theorem State.modBank_rdata (s : State) (b : Nat) (f : VlvBank → VlvBank) : (s.modBank b f).rdata = s.rdata := rfl
@[simp] theorem State.modBank_out (s : State) (b : Nat) (f : VlvBank → VlvBank) : (s.modBank b f).out = s.out := rfl
@[simp] theorem State.modBank_free (s : State) (b : Nat) (f : VlvBank → VlvBank) : (s.modBank b f).free = s.free := rfl
@[simp] theorem State.modBank_pending (s : State) (b : Nat) (f : VlvBank → VlvBank) : (s.modBank b f).pending = s.pending := rfl

theorem State.modCtx_facet (s : State) (n : Nat) (f : FCtx → FCtx) :
    (s.modCtx n f).facet = { s.facet with ctx := vmod s.facet.ctx n f } := rfl
@[simp] theorem State.modCtx_clk (s : State) (n : Nat) (f : FCtx → FCtx) : (s.modCtx n f).clk = s.clk := rfl
@[simp] theorem State.modCtx_sys (s : State) (n : Nat) (f : FCtx → FCtx) : (s.modCtx n f).sys = s.sys := rfl
@[simp] theorem State.modCtx_adc (s : State) (n : Nat) (f : FCtx → FCtx) : (s.modCtx n f).adc = s.adc := rfl
@[simp] theorem State.modCtx_ecc (s : State) (n : Nat) (f : FCtx → FCtx) : (s.modCtx n f).ecc = s.ecc := rfl
@[simp] theorem State.modCtx_mem (s : State) (n : Nat) (f : FCtx → FCtx) : (s.modCtx n f).mem = s.mem := rfl
@[simp] theorem State.modCtx_nor (s : State) (n : Nat) (f : FCtx → FCtx) : (s.modCtx n f).nor = s.nor := rfl
@[simp] theorem State.modCtx_pwr (s : State) (n : Nat) (f : FCtx → FCtx) : (s.modCtx n f).pwr = s.pwr := rfl
@[simp] theorem State.modCtx_weave (s : State) (n : Nat) (f : FCtx → FCtx) : (s.modCtx n f).weave = s.weave := rfl
@[simp] theorem State.modCtx_rings (s : State) (n : Nat) (f : FCtx → FCtx) : (s.modCtx n f).rings = s.rings := rfl
@[simp] theorem State.modCtx_cfg (s : State) (n : Nat) (f : FCtx → FCtx) : (s.modCtx n f).cfg = s.cfg := rfl
@[simp] theorem State.modCtx_bezel (s : State) (n : Nat) (f : FCtx → FCtx) : (s.modCtx n f).bezel = s.bezel := rfl
@[simp] theorem State.modCtx_loupe (s : State) (n : Nat) (f : FCtx → FCtx) : (s.modCtx n f).loupe = s.loupe := rfl
@[simp] theorem State.modCtx_hso (s : State) (n : Nat) (f : FCtx → FCtx) : (s.modCtx n f).hso = s.hso := rfl
@[simp] theorem State.modCtx_edge (s : State) (n : Nat) (f : FCtx → FCtx) : (s.modCtx n f).edge = s.edge := rfl
@[simp] theorem State.modCtx_led (s : State) (n : Nat) (f : FCtx → FCtx) : (s.modCtx n f).led = s.led := rfl
@[simp] theorem State.modCtx_mtx (s : State) (n : Nat) (f : FCtx → FCtx) : (s.modCtx n f).mtx = s.mtx := rfl
@[simp] theorem State.modCtx_fio (s : State) (n : Nat) (f : FCtx → FCtx) : (s.modCtx n f).fio = s.fio := rfl
@[simp] theorem State.modCtx_vlv (s : State) (n : Nat) (f : FCtx → FCtx) : (s.modCtx n f).vlv = s.vlv := rfl
@[simp] theorem State.modCtx_can (s : State) (n : Nat) (f : FCtx → FCtx) : (s.modCtx n f).can = s.can := rfl
@[simp] theorem State.modCtx_net (s : State) (n : Nat) (f : FCtx → FCtx) : (s.modCtx n f).net = s.net := rfl
@[simp] theorem State.modCtx_eth (s : State) (n : Nat) (f : FCtx → FCtx) : (s.modCtx n f).eth = s.eth := rfl
@[simp] theorem State.modCtx_plait (s : State) (n : Nat) (f : FCtx → FCtx) : (s.modCtx n f).plait = s.plait := rfl
@[simp] theorem State.modCtx_acc (s : State) (n : Nat) (f : FCtx → FCtx) : (s.modCtx n f).acc = s.acc := rfl
@[simp] theorem State.modCtx_upd (s : State) (n : Nat) (f : FCtx → FCtx) : (s.modCtx n f).upd = s.upd := rfl
@[simp] theorem State.modCtx_rdata (s : State) (n : Nat) (f : FCtx → FCtx) : (s.modCtx n f).rdata = s.rdata := rfl
@[simp] theorem State.modCtx_out (s : State) (n : Nat) (f : FCtx → FCtx) : (s.modCtx n f).out = s.out := rfl
@[simp] theorem State.modCtx_free (s : State) (n : Nat) (f : FCtx → FCtx) : (s.modCtx n f).free = s.free := rfl
@[simp] theorem State.modCtx_pending (s : State) (n : Nat) (f : FCtx → FCtx) : (s.modCtx n f).pending = s.pending := rfl

theorem State.modCan_can (s : State) (n : Nat) (f : CanCh → CanCh) :
    (s.modCan n f).can = { s.can with ch := vmod s.can.ch n f } := rfl
@[simp] theorem State.modCan_clk (s : State) (n : Nat) (f : CanCh → CanCh) : (s.modCan n f).clk = s.clk := rfl
@[simp] theorem State.modCan_sys (s : State) (n : Nat) (f : CanCh → CanCh) : (s.modCan n f).sys = s.sys := rfl
@[simp] theorem State.modCan_adc (s : State) (n : Nat) (f : CanCh → CanCh) : (s.modCan n f).adc = s.adc := rfl
@[simp] theorem State.modCan_ecc (s : State) (n : Nat) (f : CanCh → CanCh) : (s.modCan n f).ecc = s.ecc := rfl
@[simp] theorem State.modCan_mem (s : State) (n : Nat) (f : CanCh → CanCh) : (s.modCan n f).mem = s.mem := rfl
@[simp] theorem State.modCan_nor (s : State) (n : Nat) (f : CanCh → CanCh) : (s.modCan n f).nor = s.nor := rfl
@[simp] theorem State.modCan_pwr (s : State) (n : Nat) (f : CanCh → CanCh) : (s.modCan n f).pwr = s.pwr := rfl
@[simp] theorem State.modCan_weave (s : State) (n : Nat) (f : CanCh → CanCh) : (s.modCan n f).weave = s.weave := rfl
@[simp] theorem State.modCan_rings (s : State) (n : Nat) (f : CanCh → CanCh) : (s.modCan n f).rings = s.rings := rfl
@[simp] theorem State.modCan_cfg (s : State) (n : Nat) (f : CanCh → CanCh) : (s.modCan n f).cfg = s.cfg := rfl
@[simp] theorem State.modCan_bezel (s : State) (n : Nat) (f : CanCh → CanCh) : (s.modCan n f).bezel = s.bezel := rfl
@[simp] theorem State.modCan_loupe (s : State) (n : Nat) (f : CanCh → CanCh) : (s.modCan n f).loupe = s.loupe := rfl
@[simp] theorem State.modCan_hso (s : State) (n : Nat) (f : CanCh → CanCh) : (s.modCan n f).hso = s.hso := rfl
@[simp] theorem State.modCan_edge (s : State) (n : Nat) (f : CanCh → CanCh) : (s.modCan n f).edge = s.edge := rfl
@[simp] theorem State.modCan_led (s : State) (n : Nat) (f : CanCh → CanCh) : (s.modCan n f).led = s.led := rfl
@[simp] theorem State.modCan_mtx (s : State) (n : Nat) (f : CanCh → CanCh) : (s.modCan n f).mtx = s.mtx := rfl
@[simp] theorem State.modCan_fio (s : State) (n : Nat) (f : CanCh → CanCh) : (s.modCan n f).fio = s.fio := rfl
@[simp] theorem State.modCan_vlv (s : State) (n : Nat) (f : CanCh → CanCh) : (s.modCan n f).vlv = s.vlv := rfl
@[simp] theorem State.modCan_facet (s : State) (n : Nat) (f : CanCh → CanCh) : (s.modCan n f).facet = s.facet := rfl
@[simp] theorem State.modCan_net (s : State) (n : Nat) (f : CanCh → CanCh) : (s.modCan n f).net = s.net := rfl
@[simp] theorem State.modCan_eth (s : State) (n : Nat) (f : CanCh → CanCh) : (s.modCan n f).eth = s.eth := rfl
@[simp] theorem State.modCan_plait (s : State) (n : Nat) (f : CanCh → CanCh) : (s.modCan n f).plait = s.plait := rfl
@[simp] theorem State.modCan_acc (s : State) (n : Nat) (f : CanCh → CanCh) : (s.modCan n f).acc = s.acc := rfl
@[simp] theorem State.modCan_upd (s : State) (n : Nat) (f : CanCh → CanCh) : (s.modCan n f).upd = s.upd := rfl
@[simp] theorem State.modCan_rdata (s : State) (n : Nat) (f : CanCh → CanCh) : (s.modCan n f).rdata = s.rdata := rfl
@[simp] theorem State.modCan_out (s : State) (n : Nat) (f : CanCh → CanCh) : (s.modCan n f).out = s.out := rfl
@[simp] theorem State.modCan_free (s : State) (n : Nat) (f : CanCh → CanCh) : (s.modCan n f).free = s.free := rfl
@[simp] theorem State.modCan_pending (s : State) (n : Nat) (f : CanCh → CanCh) : (s.modCan n f).pending = s.pending := rfl

theorem State.modCf_can (s : State) (k : Nat) (f : CanCf → CanCf) :
    (s.modCf k f).can = { s.can with cf := vmod s.can.cf k f } := rfl
@[simp] theorem State.modCf_clk (s : State) (k : Nat) (f : CanCf → CanCf) : (s.modCf k f).clk = s.clk := rfl
@[simp] theorem State.modCf_sys (s : State) (k : Nat) (f : CanCf → CanCf) : (s.modCf k f).sys = s.sys := rfl
@[simp] theorem State.modCf_adc (s : State) (k : Nat) (f : CanCf → CanCf) : (s.modCf k f).adc = s.adc := rfl
@[simp] theorem State.modCf_ecc (s : State) (k : Nat) (f : CanCf → CanCf) : (s.modCf k f).ecc = s.ecc := rfl
@[simp] theorem State.modCf_mem (s : State) (k : Nat) (f : CanCf → CanCf) : (s.modCf k f).mem = s.mem := rfl
@[simp] theorem State.modCf_nor (s : State) (k : Nat) (f : CanCf → CanCf) : (s.modCf k f).nor = s.nor := rfl
@[simp] theorem State.modCf_pwr (s : State) (k : Nat) (f : CanCf → CanCf) : (s.modCf k f).pwr = s.pwr := rfl
@[simp] theorem State.modCf_weave (s : State) (k : Nat) (f : CanCf → CanCf) : (s.modCf k f).weave = s.weave := rfl
@[simp] theorem State.modCf_rings (s : State) (k : Nat) (f : CanCf → CanCf) : (s.modCf k f).rings = s.rings := rfl
@[simp] theorem State.modCf_cfg (s : State) (k : Nat) (f : CanCf → CanCf) : (s.modCf k f).cfg = s.cfg := rfl
@[simp] theorem State.modCf_bezel (s : State) (k : Nat) (f : CanCf → CanCf) : (s.modCf k f).bezel = s.bezel := rfl
@[simp] theorem State.modCf_loupe (s : State) (k : Nat) (f : CanCf → CanCf) : (s.modCf k f).loupe = s.loupe := rfl
@[simp] theorem State.modCf_hso (s : State) (k : Nat) (f : CanCf → CanCf) : (s.modCf k f).hso = s.hso := rfl
@[simp] theorem State.modCf_edge (s : State) (k : Nat) (f : CanCf → CanCf) : (s.modCf k f).edge = s.edge := rfl
@[simp] theorem State.modCf_led (s : State) (k : Nat) (f : CanCf → CanCf) : (s.modCf k f).led = s.led := rfl
@[simp] theorem State.modCf_mtx (s : State) (k : Nat) (f : CanCf → CanCf) : (s.modCf k f).mtx = s.mtx := rfl
@[simp] theorem State.modCf_fio (s : State) (k : Nat) (f : CanCf → CanCf) : (s.modCf k f).fio = s.fio := rfl
@[simp] theorem State.modCf_vlv (s : State) (k : Nat) (f : CanCf → CanCf) : (s.modCf k f).vlv = s.vlv := rfl
@[simp] theorem State.modCf_facet (s : State) (k : Nat) (f : CanCf → CanCf) : (s.modCf k f).facet = s.facet := rfl
@[simp] theorem State.modCf_net (s : State) (k : Nat) (f : CanCf → CanCf) : (s.modCf k f).net = s.net := rfl
@[simp] theorem State.modCf_eth (s : State) (k : Nat) (f : CanCf → CanCf) : (s.modCf k f).eth = s.eth := rfl
@[simp] theorem State.modCf_plait (s : State) (k : Nat) (f : CanCf → CanCf) : (s.modCf k f).plait = s.plait := rfl
@[simp] theorem State.modCf_acc (s : State) (k : Nat) (f : CanCf → CanCf) : (s.modCf k f).acc = s.acc := rfl
@[simp] theorem State.modCf_upd (s : State) (k : Nat) (f : CanCf → CanCf) : (s.modCf k f).upd = s.upd := rfl
@[simp] theorem State.modCf_rdata (s : State) (k : Nat) (f : CanCf → CanCf) : (s.modCf k f).rdata = s.rdata := rfl
@[simp] theorem State.modCf_out (s : State) (k : Nat) (f : CanCf → CanCf) : (s.modCf k f).out = s.out := rfl
@[simp] theorem State.modCf_free (s : State) (k : Nat) (f : CanCf → CanCf) : (s.modCf k f).free = s.free := rfl
@[simp] theorem State.modCf_pending (s : State) (k : Nat) (f : CanCf → CanCf) : (s.modCf k f).pending = s.pending := rfl

theorem State.modBus_net (s : State) (n : Nat) (f : NetBus → NetBus) :
    (s.modBus n f).net = { s.net with bus := vmod s.net.bus n f } := rfl
@[simp] theorem State.modBus_clk (s : State) (n : Nat) (f : NetBus → NetBus) : (s.modBus n f).clk = s.clk := rfl
@[simp] theorem State.modBus_sys (s : State) (n : Nat) (f : NetBus → NetBus) : (s.modBus n f).sys = s.sys := rfl
@[simp] theorem State.modBus_adc (s : State) (n : Nat) (f : NetBus → NetBus) : (s.modBus n f).adc = s.adc := rfl
@[simp] theorem State.modBus_ecc (s : State) (n : Nat) (f : NetBus → NetBus) : (s.modBus n f).ecc = s.ecc := rfl
@[simp] theorem State.modBus_mem (s : State) (n : Nat) (f : NetBus → NetBus) : (s.modBus n f).mem = s.mem := rfl
@[simp] theorem State.modBus_nor (s : State) (n : Nat) (f : NetBus → NetBus) : (s.modBus n f).nor = s.nor := rfl
@[simp] theorem State.modBus_pwr (s : State) (n : Nat) (f : NetBus → NetBus) : (s.modBus n f).pwr = s.pwr := rfl
@[simp] theorem State.modBus_weave (s : State) (n : Nat) (f : NetBus → NetBus) : (s.modBus n f).weave = s.weave := rfl
@[simp] theorem State.modBus_rings (s : State) (n : Nat) (f : NetBus → NetBus) : (s.modBus n f).rings = s.rings := rfl
@[simp] theorem State.modBus_cfg (s : State) (n : Nat) (f : NetBus → NetBus) : (s.modBus n f).cfg = s.cfg := rfl
@[simp] theorem State.modBus_bezel (s : State) (n : Nat) (f : NetBus → NetBus) : (s.modBus n f).bezel = s.bezel := rfl
@[simp] theorem State.modBus_loupe (s : State) (n : Nat) (f : NetBus → NetBus) : (s.modBus n f).loupe = s.loupe := rfl
@[simp] theorem State.modBus_hso (s : State) (n : Nat) (f : NetBus → NetBus) : (s.modBus n f).hso = s.hso := rfl
@[simp] theorem State.modBus_edge (s : State) (n : Nat) (f : NetBus → NetBus) : (s.modBus n f).edge = s.edge := rfl
@[simp] theorem State.modBus_led (s : State) (n : Nat) (f : NetBus → NetBus) : (s.modBus n f).led = s.led := rfl
@[simp] theorem State.modBus_mtx (s : State) (n : Nat) (f : NetBus → NetBus) : (s.modBus n f).mtx = s.mtx := rfl
@[simp] theorem State.modBus_fio (s : State) (n : Nat) (f : NetBus → NetBus) : (s.modBus n f).fio = s.fio := rfl
@[simp] theorem State.modBus_vlv (s : State) (n : Nat) (f : NetBus → NetBus) : (s.modBus n f).vlv = s.vlv := rfl
@[simp] theorem State.modBus_facet (s : State) (n : Nat) (f : NetBus → NetBus) : (s.modBus n f).facet = s.facet := rfl
@[simp] theorem State.modBus_can (s : State) (n : Nat) (f : NetBus → NetBus) : (s.modBus n f).can = s.can := rfl
@[simp] theorem State.modBus_eth (s : State) (n : Nat) (f : NetBus → NetBus) : (s.modBus n f).eth = s.eth := rfl
@[simp] theorem State.modBus_plait (s : State) (n : Nat) (f : NetBus → NetBus) : (s.modBus n f).plait = s.plait := rfl
@[simp] theorem State.modBus_acc (s : State) (n : Nat) (f : NetBus → NetBus) : (s.modBus n f).acc = s.acc := rfl
@[simp] theorem State.modBus_upd (s : State) (n : Nat) (f : NetBus → NetBus) : (s.modBus n f).upd = s.upd := rfl
@[simp] theorem State.modBus_rdata (s : State) (n : Nat) (f : NetBus → NetBus) : (s.modBus n f).rdata = s.rdata := rfl
@[simp] theorem State.modBus_out (s : State) (n : Nat) (f : NetBus → NetBus) : (s.modBus n f).out = s.out := rfl
@[simp] theorem State.modBus_free (s : State) (n : Nat) (f : NetBus → NetBus) : (s.modBus n f).free = s.free := rfl
@[simp] theorem State.modBus_pending (s : State) (n : Nat) (f : NetBus → NetBus) : (s.modBus n f).pending = s.pending := rfl

theorem State.modTok_acc (s : State) (k : Nat) (f : AccTok → AccTok) :
    (s.modTok k f).acc = { s.acc with tok := vmod s.acc.tok k f } := rfl
@[simp] theorem State.modTok_clk (s : State) (k : Nat) (f : AccTok → AccTok) : (s.modTok k f).clk = s.clk := rfl
@[simp] theorem State.modTok_sys (s : State) (k : Nat) (f : AccTok → AccTok) : (s.modTok k f).sys = s.sys := rfl
@[simp] theorem State.modTok_adc (s : State) (k : Nat) (f : AccTok → AccTok) : (s.modTok k f).adc = s.adc := rfl
@[simp] theorem State.modTok_ecc (s : State) (k : Nat) (f : AccTok → AccTok) : (s.modTok k f).ecc = s.ecc := rfl
@[simp] theorem State.modTok_mem (s : State) (k : Nat) (f : AccTok → AccTok) : (s.modTok k f).mem = s.mem := rfl
@[simp] theorem State.modTok_nor (s : State) (k : Nat) (f : AccTok → AccTok) : (s.modTok k f).nor = s.nor := rfl
@[simp] theorem State.modTok_pwr (s : State) (k : Nat) (f : AccTok → AccTok) : (s.modTok k f).pwr = s.pwr := rfl
@[simp] theorem State.modTok_weave (s : State) (k : Nat) (f : AccTok → AccTok) : (s.modTok k f).weave = s.weave := rfl
@[simp] theorem State.modTok_rings (s : State) (k : Nat) (f : AccTok → AccTok) : (s.modTok k f).rings = s.rings := rfl
@[simp] theorem State.modTok_cfg (s : State) (k : Nat) (f : AccTok → AccTok) : (s.modTok k f).cfg = s.cfg := rfl
@[simp] theorem State.modTok_bezel (s : State) (k : Nat) (f : AccTok → AccTok) : (s.modTok k f).bezel = s.bezel := rfl
@[simp] theorem State.modTok_loupe (s : State) (k : Nat) (f : AccTok → AccTok) : (s.modTok k f).loupe = s.loupe := rfl
@[simp] theorem State.modTok_hso (s : State) (k : Nat) (f : AccTok → AccTok) : (s.modTok k f).hso = s.hso := rfl
@[simp] theorem State.modTok_edge (s : State) (k : Nat) (f : AccTok → AccTok) : (s.modTok k f).edge = s.edge := rfl
@[simp] theorem State.modTok_led (s : State) (k : Nat) (f : AccTok → AccTok) : (s.modTok k f).led = s.led := rfl
@[simp] theorem State.modTok_mtx (s : State) (k : Nat) (f : AccTok → AccTok) : (s.modTok k f).mtx = s.mtx := rfl
@[simp] theorem State.modTok_fio (s : State) (k : Nat) (f : AccTok → AccTok) : (s.modTok k f).fio = s.fio := rfl
@[simp] theorem State.modTok_vlv (s : State) (k : Nat) (f : AccTok → AccTok) : (s.modTok k f).vlv = s.vlv := rfl
@[simp] theorem State.modTok_facet (s : State) (k : Nat) (f : AccTok → AccTok) : (s.modTok k f).facet = s.facet := rfl
@[simp] theorem State.modTok_can (s : State) (k : Nat) (f : AccTok → AccTok) : (s.modTok k f).can = s.can := rfl
@[simp] theorem State.modTok_net (s : State) (k : Nat) (f : AccTok → AccTok) : (s.modTok k f).net = s.net := rfl
@[simp] theorem State.modTok_eth (s : State) (k : Nat) (f : AccTok → AccTok) : (s.modTok k f).eth = s.eth := rfl
@[simp] theorem State.modTok_plait (s : State) (k : Nat) (f : AccTok → AccTok) : (s.modTok k f).plait = s.plait := rfl
@[simp] theorem State.modTok_upd (s : State) (k : Nat) (f : AccTok → AccTok) : (s.modTok k f).upd = s.upd := rfl
@[simp] theorem State.modTok_rdata (s : State) (k : Nat) (f : AccTok → AccTok) : (s.modTok k f).rdata = s.rdata := rfl
@[simp] theorem State.modTok_out (s : State) (k : Nat) (f : AccTok → AccTok) : (s.modTok k f).out = s.out := rfl
@[simp] theorem State.modTok_free (s : State) (k : Nat) (f : AccTok → AccTok) : (s.modTok k f).free = s.free := rfl
@[simp] theorem State.modTok_pending (s : State) (k : Nat) (f : AccTok → AccTok) : (s.modTok k f).pending = s.pending := rfl

@[simp] theorem State.takeBit_free (s : State) : s.takeBit.2.free = s.free + 1 := rfl
@[simp] theorem State.takeBit_clk (s : State) : s.takeBit.2.clk = s.clk := rfl
@[simp] theorem State.takeBit_sys (s : State) : s.takeBit.2.sys = s.sys := rfl
@[simp] theorem State.takeBit_adc (s : State) : s.takeBit.2.adc = s.adc := rfl
@[simp] theorem State.takeBit_ecc (s : State) : s.takeBit.2.ecc = s.ecc := rfl
@[simp] theorem State.takeBit_mem (s : State) : s.takeBit.2.mem = s.mem := rfl
@[simp] theorem State.takeBit_nor (s : State) : s.takeBit.2.nor = s.nor := rfl
@[simp] theorem State.takeBit_pwr (s : State) : s.takeBit.2.pwr = s.pwr := rfl
@[simp] theorem State.takeBit_weave (s : State) : s.takeBit.2.weave = s.weave := rfl
@[simp] theorem State.takeBit_rings (s : State) : s.takeBit.2.rings = s.rings := rfl
@[simp] theorem State.takeBit_cfg (s : State) : s.takeBit.2.cfg = s.cfg := rfl
@[simp] theorem State.takeBit_bezel (s : State) : s.takeBit.2.bezel = s.bezel := rfl
@[simp] theorem State.takeBit_loupe (s : State) : s.takeBit.2.loupe = s.loupe := rfl
@[simp] theorem State.takeBit_hso (s : State) : s.takeBit.2.hso = s.hso := rfl
@[simp] theorem State.takeBit_edge (s : State) : s.takeBit.2.edge = s.edge := rfl
@[simp] theorem State.takeBit_led (s : State) : s.takeBit.2.led = s.led := rfl
@[simp] theorem State.takeBit_mtx (s : State) : s.takeBit.2.mtx = s.mtx := rfl
@[simp] theorem State.takeBit_fio (s : State) : s.takeBit.2.fio = s.fio := rfl
@[simp] theorem State.takeBit_vlv (s : State) : s.takeBit.2.vlv = s.vlv := rfl
@[simp] theorem State.takeBit_facet (s : State) : s.takeBit.2.facet = s.facet := rfl
@[simp] theorem State.takeBit_can (s : State) : s.takeBit.2.can = s.can := rfl
@[simp] theorem State.takeBit_net (s : State) : s.takeBit.2.net = s.net := rfl
@[simp] theorem State.takeBit_eth (s : State) : s.takeBit.2.eth = s.eth := rfl
@[simp] theorem State.takeBit_plait (s : State) : s.takeBit.2.plait = s.plait := rfl
@[simp] theorem State.takeBit_acc (s : State) : s.takeBit.2.acc = s.acc := rfl
@[simp] theorem State.takeBit_upd (s : State) : s.takeBit.2.upd = s.upd := rfl
@[simp] theorem State.takeBit_rdata (s : State) : s.takeBit.2.rdata = s.rdata := rfl
@[simp] theorem State.takeBit_out (s : State) : s.takeBit.2.out = s.out := rfl
@[simp] theorem State.takeBit_pending (s : State) : s.takeBit.2.pending = s.pending := rfl

@[simp] theorem State.takeWord_free (s : State) : s.takeWord.2.free = s.free + 1 := rfl
@[simp] theorem State.takeWord_clk (s : State) : s.takeWord.2.clk = s.clk := rfl
@[simp] theorem State.takeWord_sys (s : State) : s.takeWord.2.sys = s.sys := rfl
@[simp] theorem State.takeWord_adc (s : State) : s.takeWord.2.adc = s.adc := rfl
@[simp] theorem State.takeWord_ecc (s : State) : s.takeWord.2.ecc = s.ecc := rfl
@[simp] theorem State.takeWord_mem (s : State) : s.takeWord.2.mem = s.mem := rfl
@[simp] theorem State.takeWord_nor (s : State) : s.takeWord.2.nor = s.nor := rfl
@[simp] theorem State.takeWord_pwr (s : State) : s.takeWord.2.pwr = s.pwr := rfl
@[simp] theorem State.takeWord_weave (s : State) : s.takeWord.2.weave = s.weave := rfl
@[simp] theorem State.takeWord_rings (s : State) : s.takeWord.2.rings = s.rings := rfl
@[simp] theorem State.takeWord_cfg (s : State) : s.takeWord.2.cfg = s.cfg := rfl
@[simp] theorem State.takeWord_bezel (s : State) : s.takeWord.2.bezel = s.bezel := rfl
@[simp] theorem State.takeWord_loupe (s : State) : s.takeWord.2.loupe = s.loupe := rfl
@[simp] theorem State.takeWord_hso (s : State) : s.takeWord.2.hso = s.hso := rfl
@[simp] theorem State.takeWord_edge (s : State) : s.takeWord.2.edge = s.edge := rfl
@[simp] theorem State.takeWord_led (s : State) : s.takeWord.2.led = s.led := rfl
@[simp] theorem State.takeWord_mtx (s : State) : s.takeWord.2.mtx = s.mtx := rfl
@[simp] theorem State.takeWord_fio (s : State) : s.takeWord.2.fio = s.fio := rfl
@[simp] theorem State.takeWord_vlv (s : State) : s.takeWord.2.vlv = s.vlv := rfl
@[simp] theorem State.takeWord_facet (s : State) : s.takeWord.2.facet = s.facet := rfl
@[simp] theorem State.takeWord_can (s : State) : s.takeWord.2.can = s.can := rfl
@[simp] theorem State.takeWord_net (s : State) : s.takeWord.2.net = s.net := rfl
@[simp] theorem State.takeWord_eth (s : State) : s.takeWord.2.eth = s.eth := rfl
@[simp] theorem State.takeWord_plait (s : State) : s.takeWord.2.plait = s.plait := rfl
@[simp] theorem State.takeWord_acc (s : State) : s.takeWord.2.acc = s.acc := rfl
@[simp] theorem State.takeWord_upd (s : State) : s.takeWord.2.upd = s.upd := rfl
@[simp] theorem State.takeWord_rdata (s : State) : s.takeWord.2.rdata = s.rdata := rfl
@[simp] theorem State.takeWord_out (s : State) : s.takeWord.2.out = s.out := rfl
@[simp] theorem State.takeWord_pending (s : State) : s.takeWord.2.pending = s.pending := rfl

@[simp] theorem State.takeNat_free (s : State) : s.takeNat.2.free = s.free + 1 := rfl
@[simp] theorem State.takeNat_clk (s : State) : s.takeNat.2.clk = s.clk := rfl
@[simp] theorem State.takeNat_sys (s : State) : s.takeNat.2.sys = s.sys := rfl
@[simp] theorem State.takeNat_adc (s : State) : s.takeNat.2.adc = s.adc := rfl
@[simp] theorem State.takeNat_ecc (s : State) : s.takeNat.2.ecc = s.ecc := rfl
@[simp] theorem State.takeNat_mem (s : State) : s.takeNat.2.mem = s.mem := rfl
@[simp] theorem State.takeNat_nor (s : State) : s.takeNat.2.nor = s.nor := rfl
@[simp] theorem State.takeNat_pwr (s : State) : s.takeNat.2.pwr = s.pwr := rfl
@[simp] theorem State.takeNat_weave (s : State) : s.takeNat.2.weave = s.weave := rfl
@[simp] theorem State.takeNat_rings (s : State) : s.takeNat.2.rings = s.rings := rfl
@[simp] theorem State.takeNat_cfg (s : State) : s.takeNat.2.cfg = s.cfg := rfl
@[simp] theorem State.takeNat_bezel (s : State) : s.takeNat.2.bezel = s.bezel := rfl
@[simp] theorem State.takeNat_loupe (s : State) : s.takeNat.2.loupe = s.loupe := rfl
@[simp] theorem State.takeNat_hso (s : State) : s.takeNat.2.hso = s.hso := rfl
@[simp] theorem State.takeNat_edge (s : State) : s.takeNat.2.edge = s.edge := rfl
@[simp] theorem State.takeNat_led (s : State) : s.takeNat.2.led = s.led := rfl
@[simp] theorem State.takeNat_mtx (s : State) : s.takeNat.2.mtx = s.mtx := rfl
@[simp] theorem State.takeNat_fio (s : State) : s.takeNat.2.fio = s.fio := rfl
@[simp] theorem State.takeNat_vlv (s : State) : s.takeNat.2.vlv = s.vlv := rfl
@[simp] theorem State.takeNat_facet (s : State) : s.takeNat.2.facet = s.facet := rfl
@[simp] theorem State.takeNat_can (s : State) : s.takeNat.2.can = s.can := rfl
@[simp] theorem State.takeNat_net (s : State) : s.takeNat.2.net = s.net := rfl
@[simp] theorem State.takeNat_eth (s : State) : s.takeNat.2.eth = s.eth := rfl
@[simp] theorem State.takeNat_plait (s : State) : s.takeNat.2.plait = s.plait := rfl
@[simp] theorem State.takeNat_acc (s : State) : s.takeNat.2.acc = s.acc := rfl
@[simp] theorem State.takeNat_upd (s : State) : s.takeNat.2.upd = s.upd := rfl
@[simp] theorem State.takeNat_rdata (s : State) : s.takeNat.2.rdata = s.rdata := rfl
@[simp] theorem State.takeNat_out (s : State) : s.takeNat.2.out = s.out := rfl
@[simp] theorem State.takeNat_pending (s : State) : s.takeNat.2.pending = s.pending := rfl

end Machine

end Sys2Proof
end

