-- ==== Sys2Proof/Laws/Accept.lean ====
section
/-! SUPPORT. What acceptance answers for a descriptor that acts at once: its block's action on the state in which the
descriptor is outstanding. -/

namespace Sys2Proof.Machine

/-- Words without a fault are read without an effect. -/
theorem readWords_clean (s : State) (l : List Nat) (h : l.all (fun w => s.mem.faultOf w == none) = true) :
    readWords s l = (none, s) := by
  induction l with
  | nil => rfl
  | cons w l ih =>
    simp only [List.all_cons, Bool.and_eq_true, beq_iff_eq] at h
    have e : readWord s w .read = (true, s) := by simp only [readWord, h.1]
    simp only [readWords, e, if_pos]
    exact ih h.2

/-- The conditions of `Ready`, one by one. -/
theorem ready_elim {s : State} {d : Desc} {c : HostCmd} (h : Ready s d c = true) :
    c.wf d = true ∧ stateWf s d c = true ∧ payloadReady s d c = true ∧ (d.due == 0) = true
      ∧ (s.ringN d.ring).outs.all (fun o => o.d.index != d.index) = true
      ∧ (s.ringN d.ring).cancels.contains d.index = false ∧ (s.ringN d.ring).held.isEmpty = true
      ∧ (!d.fence || (s.ringN d.ring).outs.isEmpty) = true
      ∧ (s.domCtl (blockDom c.block)).closed = false ∧ (s.entryNow (blockDom c.block) == .off) = false
      ∧ s.blockDisabled c.block = false ∧ (!d.syncReq || s.synced) = true ∧ waitsFor s d c = none := by
  simp only [Ready, Bool.and_eq_true, Bool.not_eq_true', Option.isNone_iff_eq_none, bne, beq_eq_false_iff_ne] at h
  obtain ⟨⟨⟨⟨⟨⟨⟨⟨⟨⟨⟨⟨h1, h2⟩, h3⟩, h4⟩, h5⟩, h6⟩, h7⟩, h8⟩, h9⟩, h10⟩, h11⟩, h12⟩, h13⟩ := h
  refine ⟨h1, h2, h3, h4, h5, h6, h7, h8, h9, ?_, h11, h12, h13⟩
  cases e : s.entryNow (blockDom c.block) == .off with
  | false => rfl
  | true => exact absurd (eq_of_beq e) h10

theorem ringN_modRing (s : State) (r : Fin 128) (f : Ring → Ring) : (s.modRing r f).ringN r = f (s.ringN r) :=
  vget_vmod_same _ _ _ r.isLt

/-- The descriptor that is outstanding takes its block and opcode. -/
theorem outstand_named (s : State) (d : Desc) (b o : Nat)
    (h : (s.ringN d.ring).outs.all (fun x => x.d.index != d.index) = true) :
    (outstand s d 3 0).modRing d.ring (fun r =>
      { r with outs := r.outs.map (fun x => if x.d.index == d.index then ⟨d, b, o⟩ else x) }) = outstand s d b o := by
  have e : ∀ l : List Outst, l.all (fun x => x.d.index != d.index) = true →
      l.map (fun x => if x.d.index == d.index then (⟨d, b, o⟩ : Outst) else x) = l := by
    intro l hl
    induction l with
    | nil => rfl
    | cons x l ih =>
      simp only [List.all_cons, Bool.and_eq_true, bne_iff_ne, ne_eq] at hl
      rw [List.map_cons, ih hl.2, if_neg (fun x => hl.1 (eq_of_beq x))]
  unfold outstand State.modRing
  simp only [vmod_vmod]
  rw [vmod_congr]
  show Ring.mk .. = Ring.mk ..
  congr 1
  rw [List.map_append, e (vget s.rings.ring d.ring).outs h, List.map_cons, if_pos (beq_self_eq_true _)]
  rfl

/-- A payload that is ready is read whole, without an effect. -/
theorem runAct_ready (s : State) (d : Desc) (c : HostCmd) (act : Act → State → State)
    (h : payloadReady s d c = true) : runAct s d c act = act { d := d, payload := payloadOf s d c } s := by
  unfold runAct payloadOf
  cases z : (d.payLen == 0 || !readsPayload c) with
  | true => rfl
  | false =>
    simp only [Bool.or_eq_false_iff, Bool.not_eq_false'] at z
    simp only [payloadReady, z.1, z.2, Bool.false_or, Bool.not_true, Bool.and_eq_true, Bool.not_eq_true'] at h
    simp only [Bool.false_eq_true, if_false, h.2.1, readMem, readWords_clean _ _ h.2.2]

/-- A descriptor that acts at once, past the checks of Table 4.5. -/
theorem acceptNow_ready (s : State) (d : Desc) (c : HostCmd) (act : Act → State → State) (admits : State → Nat)
    (enter : State → State) (h1 : (s.domCtl (blockDom c.block)).closed = false)
    (h2 : (s.entryNow (blockDom c.block) == .off) = false) (h3 : s.blockDisabled c.block = false)
    (h4 : (d.due == 0) = true) (h5 : (!d.syncReq || s.synced) = true) (h6 : waitsFor s d c = none)
    (h7 : payloadReady s d c = true) : acceptNow s d c act admits enter = act { d := d, payload := payloadOf s d c } s := by
  have e : (d.syncReq && !s.synced) = false := by
    cases x : d.syncReq <;> cases y : s.synced <;> simp_all
  unfold acceptNow
  simp only [h1, h2, h3, bne, h4, e, Bool.or_false, Bool.not_true, Bool.false_eq_true, if_false, toBlock, h6]
  exact runAct_ready s d c act h7

/-- A ready descriptor's block carries it out at once. -/
theorem acceptWith_ready (s : State) (d : Desc) (c : HostCmd) (act : Act → State → State) (admits : State → Nat)
    (enter : State → State) (h : Ready s d c = true) :
    acceptWith d c act admits enter s = act (actOf s d c) (taken s d c) := by
  obtain ⟨h1, h2, h3, h4, h5, h6, h7, h8, h9, h10, h11, h12, h13⟩ := ready_elim h
  have hr : (taken s d c).ringN d.ring
      = { s.ringN d.ring with outs := (s.ringN d.ring).outs ++ [⟨d, c.block, c.opcode⟩] } := ringN_modRing _ _ _
  have hw : stateWf (outstand s d 3 0) d c = true := by
    cases c <;> first | rfl | skip
    show ((((outstand s d 3 0).ringN d.ring)).cls == 1) = true
    rw [outstand, ringN_modRing]
    exact h2
  have hp : (d.payLen != 0 && !hostRange d.payAddr.toNat d.payLen.toNat) = false := by
    cases z : (d.payLen == 0) with
    | true => simp only [bne, z, Bool.not_true, Bool.false_and]
    | false =>
      simp only [payloadReady, z, Bool.false_or, Bool.and_eq_true] at h3
      simp only [h3.1, Bool.not_true, Bool.and_false]
  have hf : (!(taken s d c |>.ringN d.ring).held.isEmpty
      || d.fence && decide (1 < ((taken s d c).ringN d.ring).outs.length)) = false := by
    rw [hr]
    cases f : d.fence with
    | false => simp [h7]
    | true =>
      rw [f] at h8
      simp only [Bool.not_true, Bool.false_or, List.isEmpty_iff] at h8
      simp [h7, h8]
  unfold acceptWith
  simp only [h1, hw, hp, Bool.not_true, Bool.or_self, Bool.false_eq_true, if_false, outstand_named s d _ _ h5]
  have hc : ((taken s d c).ringN d.ring).cancels.contains d.index = false := by
    rw [hr]
    exact h6
  rw [show outstand s d c.block c.opcode = taken s d c from rfl, hc, hf]
  simp only [Bool.false_eq_true, if_false]
  have hpr : payloadReady (taken s d c) d c = true := by
    rw [← h3]
    unfold payloadReady
    rw [hr]
    rfl
  have hwf : waitsFor (taken s d c) d c = none := by
    rw [← h13]
    unfold waitsFor usesDram
    rw [hr]
    rfl
  exact acceptNow_ready _ d c act admits enter h9 h10 h11 h4 h12 hwf hpr

theorem accept_ready (s : State) (d : Desc) (c : HostCmd) (act : Act → State → State) (h : Ready s d c = true) :
    accept d c act s = act (actOf s d c) (taken s d c) := acceptWith_ready s d c act _ _ h

end Sys2Proof.Machine
end

