-- ==== Sys2Proof/Laws/Frame.lean ====
section
/-! SUPPORT. The relation `Frame` and what updates and sequences of operations do to it; the files Laws/Frame<n>.lean say of
every operation of the model which parts it may change. -/

namespace Sys2Proof.Machine

theorem subParts_trans {a b c : List Part} (h : subParts a b = true) (k : subParts b c = true) : subParts a c = true := by
  simp only [subParts, List.all_eq_true, List.contains_iff_mem] at *
  exact fun p x => k p (h p x)

theorem subParts_mem {a b : List Part} (h : subParts a b = true) {p : Part} (x : p ∉ b) : a.contains p = false := by
  simp only [subParts, List.all_eq_true, List.contains_iff_mem] at h
  rw [← Bool.not_eq_true, List.contains_iff_mem]
  exact fun k => x (h p k)

theorem Frame.refl (P : List Part) (s : State) : Frame P s s := ⟨rfl, fun p _ => by cases p <;> rfl⟩

theorem Part.same_trans {s t u : State} {p : Part} (h : p.same s t) (k : p.same t u) : p.same s u := by
  cases p <;> exact Eq.trans k h

/-- A wider list of parts. -/
theorem Frame.mono {P Q : List Part} {s t : State} (h : Frame P s t) (k : subParts P Q = true) : Frame Q s t := by
  refine ⟨h.1, fun p hp => h.2 p fun x => hp ?_⟩
  simp only [subParts, List.all_eq_true, List.contains_iff_mem] at k
  exact k p x

theorem Frame.trans {P : List Part} {s t u : State} (h : Frame P s t) (k : Frame P t u) : Frame P s u :=
  ⟨k.1.trans h.1, fun p hp => Part.same_trans (h.2 p hp) (k.2 p hp)⟩

/-- An update of parts of `T`. -/
theorem Frame.upd {P T : List Part} {s t u : State} (hP : subParts T P = true) (h : Frame P s t)
    (e : u.pending = t.pending) (k : ∀ p, T.contains p = false → p.same t u) : Frame P s u :=
  h.trans ⟨e, fun p hp => k p (subParts_mem hP hp)⟩

/-- A state written out: it differs from `t` in parts of `T` alone. -/
theorem Frame.of_mk {P T : List Part} {s t : State} (clk : Clock) (sys : Sys) (adc : Adc) (ecc : Ecc) (mem : Mem) (nor : Nor) (pwr : Pwr) (weave : Weave) (rings :
    Rings) (cfg : Cfg) (bezel : Bezel) (loupe : Loupe) (hso : Hso) (edge : Edge) (led : Led) (mtx : Mtx) (fio :
    Fio) (vlv : Vlv) (facet : Facet) (can : Can) (net : Net) (eth : Eth) (plait : Plait) (acc : Acc) (upd : Upd)
    (rdata : BitVec 64) (out : List Out) (free : Nat) (pending : List Instr)
    (hP : subParts T P = true) (h : Frame P s t) (e : pending = t.pending)
    (e0 : T.contains .clk = true ∨ clk = t.clk) (e1 : T.contains .sys = true ∨ sys = t.sys) (e2 : T.contains .adc =
    true ∨ adc = t.adc) (e3 : T.contains .ecc = true ∨ ecc = t.ecc) (e4 : T.contains .mem = true ∨ mem = t.mem) (e5
    : T.contains .nor = true ∨ nor = t.nor) (e6 : T.contains .pwr = true ∨ pwr = t.pwr) (e7 : T.contains .weave =
    true ∨ weave = t.weave) (e8 : T.contains .rings = true ∨ rings = t.rings) (e9 : T.contains .cfg = true ∨ cfg =
    t.cfg) (e10 : T.contains .bezel = true ∨ bezel = t.bezel) (e11 : T.contains .loupe = true ∨ loupe = t.loupe)
    (e12 : T.contains .hso = true ∨ hso = t.hso) (e13 : T.contains .edge = true ∨ edge = t.edge) (e14 : T.contains
    .led = true ∨ led = t.led) (e15 : T.contains .mtx = true ∨ mtx = t.mtx) (e16 : T.contains .fio = true ∨ fio =
    t.fio) (e17 : T.contains .vlv = true ∨ vlv = t.vlv) (e18 : T.contains .facet = true ∨ facet = t.facet) (e19 :
    T.contains .can = true ∨ can = t.can) (e20 : T.contains .net = true ∨ net = t.net) (e21 : T.contains .eth = true
    ∨ eth = t.eth) (e22 : T.contains .plait = true ∨ plait = t.plait) (e23 : T.contains .acc = true ∨ acc = t.acc)
    (e24 : T.contains .upd = true ∨ upd = t.upd) (e25 : T.contains .rdata = true ∨ rdata = t.rdata) (e26 :
    T.contains .out = true ∨ out = t.out) (e27 : T.contains .free = true ∨ free = t.free) :
    Frame P s ⟨clk, sys, adc, ecc, mem, nor, pwr, weave, rings, cfg, bezel, loupe, hso, edge, led, mtx, fio, vlv, facet, can,
      net, eth, plait, acc, upd, rdata, out, free, pending⟩ :=
  h.upd hP e fun p hp => by
    cases p
    · exact e0.resolve_left (fun x => Bool.noConfusion (x.symm.trans hp))
    · exact e1.resolve_left (fun x => Bool.noConfusion (x.symm.trans hp))
    · exact e2.resolve_left (fun x => Bool.noConfusion (x.symm.trans hp))
    · exact e3.resolve_left (fun x => Bool.noConfusion (x.symm.trans hp))
    · exact e4.resolve_left (fun x => Bool.noConfusion (x.symm.trans hp))
    · exact e5.resolve_left (fun x => Bool.noConfusion (x.symm.trans hp))
    · exact e6.resolve_left (fun x => Bool.noConfusion (x.symm.trans hp))
    · exact e7.resolve_left (fun x => Bool.noConfusion (x.symm.trans hp))
    · exact e8.resolve_left (fun x => Bool.noConfusion (x.symm.trans hp))
    · exact e9.resolve_left (fun x => Bool.noConfusion (x.symm.trans hp))
    · exact e10.resolve_left (fun x => Bool.noConfusion (x.symm.trans hp))
    · exact e11.resolve_left (fun x => Bool.noConfusion (x.symm.trans hp))
    · exact e12.resolve_left (fun x => Bool.noConfusion (x.symm.trans hp))
    · exact e13.resolve_left (fun x => Bool.noConfusion (x.symm.trans hp))
    · exact e14.resolve_left (fun x => Bool.noConfusion (x.symm.trans hp))
    · exact e15.resolve_left (fun x => Bool.noConfusion (x.symm.trans hp))
    · exact e16.resolve_left (fun x => Bool.noConfusion (x.symm.trans hp))
    · exact e17.resolve_left (fun x => Bool.noConfusion (x.symm.trans hp))
    · exact e18.resolve_left (fun x => Bool.noConfusion (x.symm.trans hp))
    · exact e19.resolve_left (fun x => Bool.noConfusion (x.symm.trans hp))
    · exact e20.resolve_left (fun x => Bool.noConfusion (x.symm.trans hp))
    · exact e21.resolve_left (fun x => Bool.noConfusion (x.symm.trans hp))
    · exact e22.resolve_left (fun x => Bool.noConfusion (x.symm.trans hp))
    · exact e23.resolve_left (fun x => Bool.noConfusion (x.symm.trans hp))
    · exact e24.resolve_left (fun x => Bool.noConfusion (x.symm.trans hp))
    · exact e25.resolve_left (fun x => Bool.noConfusion (x.symm.trans hp))
    · exact e26.resolve_left (fun x => Bool.noConfusion (x.symm.trans hp))
    · exact e27.resolve_left (fun x => Bool.noConfusion (x.symm.trans hp))

theorem Frame.foldl {α : Type} {P : List Part} {s t : State} (l : List α) (f : State → α → State)
    (hf : ∀ u x, Frame P s u → Frame P s (f u x)) (h : Frame P s t) : Frame P s (l.foldl f t) := by
  induction l generalizing t with
  | nil => exact h
  | cons x l ih => exact ih (hf t x h)

theorem Frame.foldl_snd {α β : Type} {P : List Part} {s : State} (l : List α) (f : β × State → α → β × State)
    (t : β × State) (hf : ∀ r x, Frame P s r.2 → Frame P s (f r x).2) (h : Frame P s t.2) :
    Frame P s (l.foldl f t).2 := by
  induction l generalizing t with
  | nil => exact h
  | cons x l ih => exact ih _ (hf t x h)

theorem Frame.ite {P : List Part} {s a b : State} {c : Prop} [Decidable c] (ha : c → Frame P s a) (hb : ¬c → Frame P s b) :
    Frame P s (if c then a else b) := by
  by_cases h : c
  · rw [if_pos h]; exact ha h
  · rw [if_neg h]; exact hb h

theorem Frame.ite_snd {α : Type} {P : List Part} {s : State} {a b : α × State} {c : Prop} [Decidable c]
    (ha : c → Frame P s a.2) (hb : ¬c → Frame P s b.2) : Frame P s (if c then a else b).2 := by
  by_cases h : c
  · rw [if_pos h]; exact ha h
  · rw [if_neg h]; exact hb h

/-- The frame of an operation that answers a state or nothing. -/
def OptFrame (P : List Part) (s : State) : Option State → Prop
  | some t => Frame P s t
  | none => True

theorem OptFrame.elim {P : List Part} {s t : State} {o : Option State} (h : OptFrame P s o) (e : o = some t) :
    Frame P s t := by
  subst e
  exact h

theorem OptFrame.getD {P : List Part} {s t : State} {o : Option State} (h : OptFrame P s o) (k : Frame P s t) :
    Frame P s (o.getD t) := by
  cases o with
  | none => exact k
  | some u => exact h

theorem OptFrame.ite {P : List Part} {s : State} {a b : Option State} {c : Prop} [Decidable c]
    (ha : c → OptFrame P s a) (hb : ¬c → OptFrame P s b) : OptFrame P s (if c then a else b) := by
  by_cases h : c
  · rw [if_pos h]; exact ha h
  · rw [if_neg h]; exact hb h

theorem OptFrame.first {α : Type} {P : List Part} {s : State} (l : List α) (f : α → Option State)
    (hf : ∀ x, OptFrame P s (f x)) (o : Option State) (h : OptFrame P s o) :
    OptFrame P s (l.foldl (fun (r : Option State) x => match r with | some t => some t | none => f x) o) := by
  induction l generalizing o with
  | nil => exact h
  | cons x l ih =>
    refine ih _ ?_
    cases o with
    | none => exact hf x
    | some t => exact h

/-- The frame of an outcome. -/
def OutFrame (P : List Part) (s : State) : Host.Outcome State Fault Refusal → Prop
  | .next t => Frame P s t
  | _ => True


end Sys2Proof.Machine
end

