-- ==== Sys2Proof/Laws/FrameOps.lean ====
section
/-! SUPPORT. Which parts of the state the operations of Machine/Ops.lean may change. -/

namespace Sys2Proof.Machine

set_option linter.unusedTactic false
set_option linter.unreachableTactic false

theorem frame_State_takeBit (s : State) {P : List Part} {s0 : State} 
    (hP : subParts [.free] P = true) (h : Frame P s0 s) : Frame P s0 (State.takeBit s).2 := by
  unfold State.takeBit
  try extract_lets
  repeat' first
    | (with_reducible refine Frame.of_mk _ _ _ _ _ _ _ _ _ _ _ _ _ _ _ _ _ _ _ _ _ _ _ _ _ _ _ _ _ hP ?_ rfl ?_ ?_ ?_ ?_ ?_ ?_ ?_ ?_ ?_ ?_ ?_ ?_ ?_ ?_ ?_ ?_ ?_ ?_ ?_ ?_ ?_ ?_ ?_ ?_ ?_ ?_ ?_ ?_ <;>
         first | with_reducible exact Or.inr rfl | exact Or.inl rfl | skip
       with_reducible assumption)

theorem frame_State_takeWord (s : State) {P : List Part} {s0 : State} 
    (hP : subParts [.free] P = true) (h : Frame P s0 s) : Frame P s0 (State.takeWord s).2 := by
  unfold State.takeWord
  try extract_lets
  repeat' first
    | (with_reducible refine Frame.of_mk _ _ _ _ _ _ _ _ _ _ _ _ _ _ _ _ _ _ _ _ _ _ _ _ _ _ _ _ _ hP ?_ rfl ?_ ?_ ?_ ?_ ?_ ?_ ?_ ?_ ?_ ?_ ?_ ?_ ?_ ?_ ?_ ?_ ?_ ?_ ?_ ?_ ?_ ?_ ?_ ?_ ?_ ?_ ?_ ?_ <;>
         first | with_reducible exact Or.inr rfl | exact Or.inl rfl | skip
       with_reducible assumption)

theorem frame_State_takeNat (s : State) {P : List Part} {s0 : State} 
    (hP : subParts [.free] P = true) (h : Frame P s0 s) : Frame P s0 (State.takeNat s).2 := by
  unfold State.takeNat
  try extract_lets
  repeat' first
    | (with_reducible refine Frame.of_mk _ _ _ _ _ _ _ _ _ _ _ _ _ _ _ _ _ _ _ _ _ _ _ _ _ _ _ _ _ hP ?_ rfl ?_ ?_ ?_ ?_ ?_ ?_ ?_ ?_ ?_ ?_ ?_ ?_ ?_ ?_ ?_ ?_ ?_ ?_ ?_ ?_ ?_ ?_ ?_ ?_ ?_ ?_ ?_ ?_ <;>
         first | with_reducible exact Or.inr rfl | exact Or.inl rfl | skip
       with_reducible assumption)

theorem frame_State_takeBytes (s : State) (x0 : Nat) {P : List Part} {s0 : State} 
    (hP : subParts [.free] P = true) (h : Frame P s0 s) : Frame P s0 (State.takeBytes s x0).2 := by
  induction x0 generalizing s with
  | zero =>
    unfold State.takeBytes
    try extract_lets
    repeat' first
      | with_reducible assumption
      | with_reducible apply ih
      | (with_reducible refine Frame.of_mk _ _ _ _ _ _ _ _ _ _ _ _ _ _ _ _ _ _ _ _ _ _ _ _ _ _ _ _ _ hP ?_ rfl ?_ ?_ ?_ ?_ ?_ ?_ ?_ ?_ ?_ ?_ ?_ ?_ ?_ ?_ ?_ ?_ ?_ ?_ ?_ ?_ ?_ ?_ ?_ ?_ ?_ ?_ ?_ ?_ <;>
           first | with_reducible exact Or.inr rfl | exact Or.inl rfl | skip
         with_reducible assumption)
  | succ k ih =>
    unfold State.takeBytes
    try extract_lets
    repeat' first
      | with_reducible assumption
      | with_reducible apply ih
      | (with_reducible refine Frame.of_mk _ _ _ _ _ _ _ _ _ _ _ _ _ _ _ _ _ _ _ _ _ _ _ _ _ _ _ _ _ hP ?_ rfl ?_ ?_ ?_ ?_ ?_ ?_ ?_ ?_ ?_ ?_ ?_ ?_ ?_ ?_ ?_ ?_ ?_ ?_ ?_ ?_ ?_ ?_ ?_ ?_ ?_ ?_ ?_ ?_ <;>
           first | with_reducible exact Or.inr rfl | exact Or.inl rfl | skip
         with_reducible assumption)

theorem frame_State_advance (s : State) (dt : Nat) {P : List Part} {s0 : State} 
    (hP : subParts [.clk, .weave] P = true) (h : Frame P s0 s) : Frame P s0 (State.advance s dt) := by
  unfold State.advance
  try extract_lets
  repeat' first
    | with_reducible apply Frame.ite <;> intro _
    | (with_reducible refine Frame.of_mk _ _ _ _ _ _ _ _ _ _ _ _ _ _ _ _ _ _ _ _ _ _ _ _ _ _ _ _ _ hP ?_ rfl ?_ ?_ ?_ ?_ ?_ ?_ ?_ ?_ ?_ ?_ ?_ ?_ ?_ ?_ ?_ ?_ ?_ ?_ ?_ ?_ ?_ ?_ ?_ ?_ ?_ ?_ ?_ ?_ <;>
         first | with_reducible exact Or.inr rfl | exact Or.inl rfl | skip
       with_reducible assumption)

theorem frame_State_reach (s : State) (t : Nat) {P : List Part} {s0 : State} 
    (hP : subParts [.clk, .weave] P = true) (h : Frame P s0 s) : Frame P s0 (State.reach s t) := by
  unfold State.reach
  repeat' first
    | with_reducible assumption
    | with_reducible apply frame_State_advance
    | with_reducible apply Frame.ite <;> intro _

theorem frame_State_reachWeave (s : State) (t : BitVec 64) {P : List Part} {s0 : State} 
    (hP : subParts [.clk, .weave] P = true) (h : Frame P s0 s) : Frame P s0 (State.reachWeave s t) := by
  unfold State.reachWeave
  try extract_lets
  repeat' first
    | with_reducible assumption
    | with_reducible apply Frame.ite <;> intro _
    | (with_reducible refine Frame.of_mk _ _ _ _ _ _ _ _ _ _ _ _ _ _ _ _ _ _ _ _ _ _ _ _ _ _ _ _ _ hP ?_ rfl ?_ ?_ ?_ ?_ ?_ ?_ ?_ ?_ ?_ ?_ ?_ ?_ ?_ ?_ ?_ ?_ ?_ ?_ ?_ ?_ ?_ ?_ ?_ ?_ ?_ ?_ ?_ ?_ <;>
         first | with_reducible exact Or.inr rfl | exact Or.inl rfl | skip
       with_reducible assumption)

end Sys2Proof.Machine
end

