-- ==== Sys2Proof/Laws/FrameDerived.lean ====
section
/-! SUPPORT. Which parts of the state the operations of Machine/Derived.lean may change. -/

namespace Sys2Proof.Machine

set_option linter.unusedTactic false
set_option linter.unreachableTactic false

theorem frame_State_modDom (s : State) (d : Dom) (f : DomCtl → DomCtl) {P : List Part} {s0 : State} 
    (hP : subParts [.pwr] P = true) (h : Frame P s0 s) : Frame P s0 (State.modDom s d f) := by
  unfold State.modDom
  try extract_lets
  repeat' first
    | (with_reducible refine Frame.of_mk _ _ _ _ _ _ _ _ _ _ _ _ _ _ _ _ _ _ _ _ _ _ _ _ _ _ _ _ _ hP ?_ rfl ?_ ?_ ?_ ?_ ?_ ?_ ?_ ?_ ?_ ?_ ?_ ?_ ?_ ?_ ?_ ?_ ?_ ?_ ?_ ?_ ?_ ?_ ?_ ?_ ?_ ?_ ?_ ?_ <;>
         first | with_reducible exact Or.inr rfl | exact Or.inl rfl | skip
       with_reducible assumption)

end Sys2Proof.Machine
end

