-- ==== Sys2Proof/Laws/FrameBridge.lean ====
section
/-! SUPPORT. Which parts of the state the operations of Machine/Bridge.lean may change. -/

namespace Sys2Proof.Machine

set_option linter.unusedTactic false
set_option linter.unreachableTactic false

theorem frame_State_send (s : State) (o : Out) {P : List Part} {s0 : State} 
    (hP : subParts [.out] P = true) (h : Frame P s0 s) : Frame P s0 (State.send s o) := by
  unfold State.send
  try extract_lets
  repeat' first
    | (with_reducible refine Frame.of_mk _ _ _ _ _ _ _ _ _ _ _ _ _ _ _ _ _ _ _ _ _ _ _ _ _ _ _ _ _ hP ?_ rfl ?_ ?_ ?_ ?_ ?_ ?_ ?_ ?_ ?_ ?_ ?_ ?_ ?_ ?_ ?_ ?_ ?_ ?_ ?_ ?_ ?_ ?_ ?_ ?_ ?_ ?_ ?_ ?_ <;>
         first | with_reducible exact Or.inr rfl | exact Or.inl rfl | skip
       with_reducible assumption)

theorem frame_State_modLink (s : State) (w : Nat) (f : PLink → PLink) {P : List Part} {s0 : State} 
    (hP : subParts [.plait] P = true) (h : Frame P s0 s) : Frame P s0 (State.modLink s w f) := by
  unfold State.modLink
  try extract_lets
  repeat' first
    | (with_reducible refine Frame.of_mk _ _ _ _ _ _ _ _ _ _ _ _ _ _ _ _ _ _ _ _ _ _ _ _ _ _ _ _ _ hP ?_ rfl ?_ ?_ ?_ ?_ ?_ ?_ ?_ ?_ ?_ ?_ ?_ ?_ ?_ ?_ ?_ ?_ ?_ ?_ ?_ ?_ ?_ ?_ ?_ ?_ ?_ ?_ ?_ ?_ <;>
         first | with_reducible exact Or.inr rfl | exact Or.inl rfl | skip
       with_reducible assumption)

theorem frame_plaitEmit (s : State) (w : Nat) (f : PlaitFrame) {P : List Part} {s0 : State} 
    (hP : subParts [.plait, .out] P = true) (h : Frame P s0 s) : Frame P s0 (plaitEmit s w f) := by
  unfold plaitEmit
  try extract_lets
  repeat' first
    | with_reducible assumption
    | exact subParts_trans (by decide) hP
    | with_reducible apply frame_State_modLink
    | with_reducible apply frame_State_send

theorem frame_plaitPumpN (s : State) (w : Nat) (x0 : Nat) {P : List Part} {s0 : State} 
    (hP : subParts [.plait, .out] P = true) (h : Frame P s0 s) : Frame P s0 (plaitPumpN s w x0) := by
  induction x0 generalizing s w with
  | zero =>
    unfold plaitPumpN
    try extract_lets
    repeat' first
      | with_reducible assumption
      | exact subParts_trans (by decide) hP
      | with_reducible apply ih
      | with_reducible apply frame_plaitEmit
      | with_reducible apply frame_State_modLink
      | (with_reducible refine Frame.of_mk _ _ _ _ _ _ _ _ _ _ _ _ _ _ _ _ _ _ _ _ _ _ _ _ _ _ _ _ _ hP ?_ rfl ?_ ?_ ?_ ?_ ?_ ?_ ?_ ?_ ?_ ?_ ?_ ?_ ?_ ?_ ?_ ?_ ?_ ?_ ?_ ?_ ?_ ?_ ?_ ?_ ?_ ?_ ?_ ?_ <;>
           first | with_reducible exact Or.inr rfl | exact Or.inl rfl | skip
         split)
  | succ k ih =>
    unfold plaitPumpN
    try extract_lets
    repeat' first
      | with_reducible assumption
      | exact subParts_trans (by decide) hP
      | with_reducible apply ih
      | with_reducible apply frame_plaitEmit
      | with_reducible apply frame_State_modLink
      | (with_reducible refine Frame.of_mk _ _ _ _ _ _ _ _ _ _ _ _ _ _ _ _ _ _ _ _ _ _ _ _ _ _ _ _ _ hP ?_ rfl ?_ ?_ ?_ ?_ ?_ ?_ ?_ ?_ ?_ ?_ ?_ ?_ ?_ ?_ ?_ ?_ ?_ ?_ ?_ ?_ ?_ ?_ ?_ ?_ ?_ ?_ ?_ ?_ <;>
           first | with_reducible exact Or.inr rfl | exact Or.inl rfl | skip
         split)

theorem frame_plaitPump (s : State) (w : Nat) {P : List Part} {s0 : State} 
    (hP : subParts [.plait, .out] P = true) (h : Frame P s0 s) : Frame P s0 (plaitPump s w) := by
  unfold plaitPump
  repeat' first
    | with_reducible assumption
    | with_reducible apply frame_plaitPumpN

theorem frame_plaitSend (s : State) (w : Nat) (f : PlaitFrame) {P : List Part} {s0 : State} 
    (hP : subParts [.plait, .out] P = true) (h : Frame P s0 s) : Frame P s0 (plaitSend s w f) := by
  unfold plaitSend
  try extract_lets
  repeat' first
    | with_reducible assumption
    | exact subParts_trans (by decide) hP
    | with_reducible apply frame_plaitPump
    | with_reducible apply frame_State_modLink
    | with_reducible apply Frame.ite <;> intro _

theorem frame_plaitMsg (s : State) (w : Nat) (kind : Nat) (payload : List (BitVec 8)) (fleetId : BitVec 8) {P : List Part} {s0 : State} 
    (hP : subParts [.plait, .out] P = true) (h : Frame P s0 s) : Frame P s0 (plaitMsg s w kind payload fleetId) := by
  unfold plaitMsg
  repeat' first
    | with_reducible assumption
    | with_reducible apply frame_plaitSend

theorem frame_plaitNp (s : State) (w : Nat) (o : NpOut) (bytes : List (BitVec 8)) {P : List Part} {s0 : State} 
    (hP : subParts [.plait, .out] P = true) (h : Frame P s0 s) : Frame P s0 (plaitNp s w o bytes) := by
  unfold plaitNp
  try extract_lets
  repeat' first
    | with_reducible assumption
    | exact subParts_trans (by decide) hP
    | with_reducible apply frame_State_modLink
    | with_reducible apply frame_plaitSend

theorem frame_plaitPost (s : State) (w : Nat) (addr : Nat) (bytes : List (BitVec 8)) {P : List Part} {s0 : State} 
    (hP : subParts [.plait, .out] P = true) (h : Frame P s0 s) : Frame P s0 (plaitPost s w addr bytes) := by
  unfold plaitPost
  try extract_lets
  repeat' first
    | with_reducible assumption
    | exact subParts_trans (by decide) hP
    | with_reducible apply frame_plaitSend
    | with_reducible apply frame_State_modLink

theorem frame_remotePutN (s : State) (addr : Nat) (bytes : List (BitVec 8)) (x0 : Nat) {P : List Part} {s0 : State} 
    (hP : subParts [.plait, .out] P = true) (h : Frame P s0 s) : Frame P s0 (remotePutN s addr bytes x0) := by
  induction x0 generalizing s addr bytes with
  | zero =>
    unfold remotePutN
    repeat' first
      | with_reducible assumption
      | with_reducible apply ih
      | with_reducible apply frame_plaitPost
      | with_reducible apply Frame.ite <;> intro _
  | succ k ih =>
    unfold remotePutN
    repeat' first
      | with_reducible assumption
      | with_reducible apply ih
      | with_reducible apply frame_plaitPost
      | with_reducible apply Frame.ite <;> intro _

theorem frame_remotePut (s : State) (addr : Nat) (bytes : List (BitVec 8)) {P : List Part} {s0 : State} 
    (hP : subParts [.plait, .out] P = true) (h : Frame P s0 s) : Frame P s0 (remotePut s addr bytes) := by
  unfold remotePut
  repeat' first
    | with_reducible assumption
    | with_reducible apply frame_remotePutN

theorem frame_forwardEvent (s : State) (code : Nat) (d0 : BitVec 32) (d1 : BitVec 32) {P : List Part} {s0 : State} 
    (hP : subParts [.plait, .out] P = true) (h : Frame P s0 s) : Frame P s0 (forwardEvent s code d0 d1) := by
  unfold forwardEvent
  repeat' first
    | with_reducible assumption
    | with_reducible apply frame_plaitMsg
    | with_reducible apply Frame.ite <;> intro _

end Sys2Proof.Machine
end

