-- ==== Sys2Proof/Laws/FrameEvents.lean ====
section
/-! SUPPORT. Which parts of the state the operations of Machine/Events.lean may change. -/

namespace Sys2Proof.Machine

set_option linter.unusedTactic false
set_option linter.unreachableTactic false

theorem frame_bezelAppend (s : State) (code : Nat) (d0 : BitVec 32) (d1 : BitVec 32) {P : List Part} {s0 : State} 
    (hP : subParts [.bezel] P = true) (h : Frame P s0 s) : Frame P s0 (bezelAppend s code d0 d1) := by
  unfold bezelAppend
  try extract_lets
  repeat' first
    | (with_reducible refine Frame.of_mk _ _ _ _ _ _ _ _ _ _ _ _ _ _ _ _ _ _ _ _ _ _ _ _ _ _ _ _ _ hP ?_ rfl ?_ ?_ ?_ ?_ ?_ ?_ ?_ ?_ ?_ ?_ ?_ ?_ ?_ ?_ ?_ ?_ ?_ ?_ ?_ ?_ ?_ ?_ ?_ ?_ ?_ ?_ ?_ ?_ <;>
         first | with_reducible exact Or.inr rfl | exact Or.inl rfl | skip
       with_reducible assumption)

theorem frame_raiseBlock (s : State) (b : Nat) {P : List Part} {s0 : State} 
    (hP : subParts [.rings] P = true) (h : Frame P s0 s) : Frame P s0 (raiseBlock s b) := by
  unfold raiseBlock
  try extract_lets
  repeat' first
    | (with_reducible refine Frame.of_mk _ _ _ _ _ _ _ _ _ _ _ _ _ _ _ _ _ _ _ _ _ _ _ _ _ _ _ _ _ hP ?_ rfl ?_ ?_ ?_ ?_ ?_ ?_ ?_ ?_ ?_ ?_ ?_ ?_ ?_ ?_ ?_ ?_ ?_ ?_ ?_ ?_ ?_ ?_ ?_ ?_ ?_ ?_ ?_ ?_ <;>
         first | with_reducible exact Or.inr rfl | exact Or.inl rfl | skip
       with_reducible assumption)

theorem frame_logBase (s : State) (code : Nat) (data : List Nat) {P : List Part} {s0 : State} 
    (hP : subParts [.rings, .bezel, .plait, .out] P = true) (h : Frame P s0 s) : Frame P s0 (logBase s code data) := by
  unfold logBase
  try extract_lets
  repeat' first
    | with_reducible assumption
    | exact subParts_trans (by decide) hP
    | with_reducible apply frame_raiseBlock
    | with_reducible apply frame_bezelAppend
    | with_reducible apply frame_forwardEvent
    | with_reducible apply Frame.ite <;> intro _

theorem frame_loupeMiss (s : State) {P : List Part} {s0 : State} 
    (hP : subParts [.loupe] P = true) (h : Frame P s0 s) : Frame P s0 (loupeMiss s) := by
  unfold loupeMiss
  try extract_lets
  repeat' first
    | (with_reducible refine Frame.of_mk _ _ _ _ _ _ _ _ _ _ _ _ _ _ _ _ _ _ _ _ _ _ _ _ _ _ _ _ _ hP ?_ rfl ?_ ?_ ?_ ?_ ?_ ?_ ?_ ?_ ?_ ?_ ?_ ?_ ?_ ?_ ?_ ?_ ?_ ?_ ?_ ?_ ?_ ?_ ?_ ?_ ?_ ?_ ?_ ?_ <;>
         first | with_reducible exact Or.inr rfl | exact Or.inl rfl | skip
       with_reducible assumption)

theorem frame_loupeStage (s : State) (t : Nat) (r : Rec) {P : List Part} {s0 : State} 
    (hP : subParts [.rings, .bezel, .loupe, .plait, .out] P = true) (h : Frame P s0 s) : Frame P s0 (loupeStage s t r).2 := by
  unfold loupeStage
  try extract_lets
  repeat' first
    | with_reducible assumption
    | exact subParts_trans (by decide) hP
    | with_reducible apply frame_loupeMiss
    | with_reducible apply frame_logBase
    | with_reducible apply Frame.ite <;> intro _
    | with_reducible apply Frame.ite_snd <;> intro _
    | (with_reducible refine Frame.of_mk _ _ _ _ _ _ _ _ _ _ _ _ _ _ _ _ _ _ _ _ _ _ _ _ _ _ _ _ _ hP ?_ rfl ?_ ?_ ?_ ?_ ?_ ?_ ?_ ?_ ?_ ?_ ?_ ?_ ?_ ?_ ?_ ?_ ?_ ?_ ?_ ?_ ?_ ?_ ?_ ?_ ?_ ?_ ?_ ?_ <;>
         first | with_reducible exact Or.inr rfl | exact Or.inl rfl | skip
       first
         | with_reducible assumption
         | with_reducible apply frame_loupeMiss
      )

theorem frame_loupeTriggers (s : State) (code : Nat) {P : List Part} {s0 : State} 
    (hP : subParts [.rings, .bezel, .loupe, .plait, .out] P = true) (h : Frame P s0 s) : Frame P s0 (loupeTriggers s code) := by
  unfold loupeTriggers
  try extract_lets
  repeat' first
    | with_reducible assumption
    | with_reducible apply Frame.foldl
    | with_reducible apply frame_loupeStage
    | with_reducible apply Frame.ite <;> intro _
    | intro _ _ _
    | (with_reducible refine Frame.of_mk _ _ _ _ _ _ _ _ _ _ _ _ _ _ _ _ _ _ _ _ _ _ _ _ _ _ _ _ _ hP ?_ rfl ?_ ?_ ?_ ?_ ?_ ?_ ?_ ?_ ?_ ?_ ?_ ?_ ?_ ?_ ?_ ?_ ?_ ?_ ?_ ?_ ?_ ?_ ?_ ?_ ?_ ?_ ?_ ?_ <;>
         first | with_reducible exact Or.inr rfl | exact Or.inl rfl | skip
       split)

theorem frame_logEvent (s : State) (code : Nat) (data : List Nat) {P : List Part} {s0 : State} 
    (hP : subParts [.rings, .bezel, .loupe, .plait, .out] P = true) (h : Frame P s0 s) : Frame P s0 (logEvent s code data) := by
  unfold logEvent
  repeat' first
    | with_reducible assumption
    | exact subParts_trans (by decide) hP
    | with_reducible apply frame_loupeTriggers
    | with_reducible apply frame_logBase

end Sys2Proof.Machine
end

