-- ==== Sys2Proof/Laws/FrameMemory.lean ====
section
/-! SUPPORT. Which parts of the state the operations of Machine/Memory.lean may change. -/

namespace Sys2Proof.Machine

set_option linter.unusedTactic false
set_option linter.unreachableTactic false

theorem frame_reportUe (s : State) (w : Nat) (finder : Finder) (fold : Bool) {P : List Part} {s0 : State} 
    (hP : subParts [.ecc, .rings, .bezel, .loupe, .plait, .out] P = true) (h : Frame P s0 s) : Frame P s0 (reportUe s w finder fold) := by
  unfold reportUe
  try extract_lets
  repeat' first
    | exact subParts_trans (by decide) hP
    | with_reducible apply frame_logEvent
    | (with_reducible refine Frame.of_mk _ _ _ _ _ _ _ _ _ _ _ _ _ _ _ _ _ _ _ _ _ _ _ _ _ _ _ _ _ hP ?_ rfl ?_ ?_ ?_ ?_ ?_ ?_ ?_ ?_ ?_ ?_ ?_ ?_ ?_ ?_ ?_ ?_ ?_ ?_ ?_ ?_ ?_ ?_ ?_ ?_ ?_ ?_ ?_ ?_ <;>
         first | with_reducible exact Or.inr rfl | exact Or.inl rfl | skip
       with_reducible assumption)

theorem frame_correctWord (s : State) (w : Nat) {P : List Part} {s0 : State} 
    (hP : subParts [.ecc, .mem] P = true) (h : Frame P s0 s) : Frame P s0 (correctWord s w) := by
  unfold correctWord
  try extract_lets
  repeat' first
    | (with_reducible refine Frame.of_mk _ _ _ _ _ _ _ _ _ _ _ _ _ _ _ _ _ _ _ _ _ _ _ _ _ _ _ _ _ hP ?_ rfl ?_ ?_ ?_ ?_ ?_ ?_ ?_ ?_ ?_ ?_ ?_ ?_ ?_ ?_ ?_ ?_ ?_ ?_ ?_ ?_ ?_ ?_ ?_ ?_ ?_ ?_ ?_ ?_ <;>
         first | with_reducible exact Or.inr rfl | exact Or.inl rfl | skip
       with_reducible assumption)

theorem frame_readWord (s : State) (w : Nat) (finder : Finder) {P : List Part} {s0 : State} 
    (hP : subParts [.ecc, .mem, .rings, .bezel, .loupe, .plait, .out] P = true) (h : Frame P s0 s) : Frame P s0 (readWord s w finder).2 := by
  unfold readWord
  try extract_lets
  repeat' first
    | with_reducible assumption
    | exact subParts_trans (by decide) hP
    | with_reducible apply frame_correctWord
    | with_reducible apply frame_reportUe
    | (with_reducible refine Frame.of_mk _ _ _ _ _ _ _ _ _ _ _ _ _ _ _ _ _ _ _ _ _ _ _ _ _ _ _ _ _ hP ?_ rfl ?_ ?_ ?_ ?_ ?_ ?_ ?_ ?_ ?_ ?_ ?_ ?_ ?_ ?_ ?_ ?_ ?_ ?_ ?_ ?_ ?_ ?_ ?_ ?_ ?_ ?_ ?_ ?_ <;>
         first | with_reducible exact Or.inr rfl | exact Or.inl rfl | skip
       split)

theorem frame_readWords (s : State) (x0 : List Nat) {P : List Part} {s0 : State} 
    (hP : subParts [.ecc, .mem, .rings, .bezel, .loupe, .plait, .out] P = true) (h : Frame P s0 s) : Frame P s0 (readWords s x0).2 := by
  induction x0 generalizing s with
  | nil =>
    unfold readWords
    try extract_lets
    repeat' first
      | with_reducible assumption
      | with_reducible apply ih
      | with_reducible apply frame_readWord
      | with_reducible apply Frame.ite_snd <;> intro _
  | cons k l ih =>
    unfold readWords
    try extract_lets
    repeat' first
      | with_reducible assumption
      | with_reducible apply ih
      | with_reducible apply frame_readWord
      | with_reducible apply Frame.ite_snd <;> intro _

theorem frame_readMem (s : State) (a : Nat) (n : Nat) {P : List Part} {s0 : State} 
    (hP : subParts [.ecc, .mem, .rings, .bezel, .loupe, .plait, .out] P = true) (h : Frame P s0 s) : Frame P s0 (readMem s a n).2 := by
  unfold readMem
  try extract_lets
  repeat' first
    | with_reducible assumption
    | with_reducible apply frame_readWords
    | (with_reducible refine Frame.of_mk _ _ _ _ _ _ _ _ _ _ _ _ _ _ _ _ _ _ _ _ _ _ _ _ _ _ _ _ _ hP ?_ rfl ?_ ?_ ?_ ?_ ?_ ?_ ?_ ?_ ?_ ?_ ?_ ?_ ?_ ?_ ?_ ?_ ?_ ?_ ?_ ?_ ?_ ?_ ?_ ?_ ?_ ?_ ?_ ?_ <;>
         first | with_reducible exact Or.inr rfl | exact Or.inl rfl | skip
       split)

theorem frame_writeWord (s : State) (a : Nat) (bs : List (BitVec 8)) {P : List Part} {s0 : State} 
    (hP : subParts [.ecc, .mem, .rings, .bezel, .loupe, .plait, .out] P = true) (h : Frame P s0 s) : Frame P s0 (writeWord s a bs).2 := by
  unfold writeWord
  try extract_lets
  repeat' first
    | with_reducible assumption
    | with_reducible apply frame_readWord
    | with_reducible apply Frame.ite_snd <;> intro _
    | (with_reducible refine Frame.of_mk _ _ _ _ _ _ _ _ _ _ _ _ _ _ _ _ _ _ _ _ _ _ _ _ _ _ _ _ _ hP ?_ rfl ?_ ?_ ?_ ?_ ?_ ?_ ?_ ?_ ?_ ?_ ?_ ?_ ?_ ?_ ?_ ?_ ?_ ?_ ?_ ?_ ?_ ?_ ?_ ?_ ?_ ?_ ?_ ?_ <;>
         first | with_reducible exact Or.inr rfl | exact Or.inl rfl | skip
       first
         | with_reducible assumption
         | with_reducible apply frame_readWord
      )

theorem frame_writeMemFrom (fuel : Nat) (s : State) (a : Nat) (bs : List (BitVec 8)) (done : Nat) {P : List Part} {s0 : State} 
    (hP : subParts [.ecc, .mem, .rings, .bezel, .loupe, .plait, .out] P = true) (h : Frame P s0 s) : Frame P s0 (writeMemFrom fuel s a bs done).2 := by
  induction fuel generalizing s a bs done with
  | zero =>
    unfold writeMemFrom
    try extract_lets
    repeat' first
      | with_reducible assumption
      | with_reducible apply ih
      | with_reducible apply frame_writeWord
      | with_reducible apply Frame.ite_snd <;> intro _
      | (with_reducible refine Frame.of_mk _ _ _ _ _ _ _ _ _ _ _ _ _ _ _ _ _ _ _ _ _ _ _ _ _ _ _ _ _ hP ?_ rfl ?_ ?_ ?_ ?_ ?_ ?_ ?_ ?_ ?_ ?_ ?_ ?_ ?_ ?_ ?_ ?_ ?_ ?_ ?_ ?_ ?_ ?_ ?_ ?_ ?_ ?_ ?_ ?_ <;>
           first | with_reducible exact Or.inr rfl | exact Or.inl rfl | skip
         split)
  | succ k ih =>
    unfold writeMemFrom
    try extract_lets
    repeat' first
      | with_reducible assumption
      | with_reducible apply ih
      | with_reducible apply frame_writeWord
      | with_reducible apply Frame.ite_snd <;> intro _
      | (with_reducible refine Frame.of_mk _ _ _ _ _ _ _ _ _ _ _ _ _ _ _ _ _ _ _ _ _ _ _ _ _ _ _ _ _ hP ?_ rfl ?_ ?_ ?_ ?_ ?_ ?_ ?_ ?_ ?_ ?_ ?_ ?_ ?_ ?_ ?_ ?_ ?_ ?_ ?_ ?_ ?_ ?_ ?_ ?_ ?_ ?_ ?_ ?_ <;>
           first | with_reducible exact Or.inr rfl | exact Or.inl rfl | skip
         split)

theorem frame_writeMem (s : State) (a : Nat) (bs : List (BitVec 8)) {P : List Part} {s0 : State} 
    (hP : subParts [.ecc, .mem, .rings, .bezel, .loupe, .plait, .out] P = true) (h : Frame P s0 s) : Frame P s0 (writeMem s a bs).2 := by
  unfold writeMem
  repeat' first
    | with_reducible assumption
    | with_reducible apply frame_writeMemFrom

end Sys2Proof.Machine
end

