-- ==== Sys2Proof/Laws/FrameComplete.lean ====
section
/-! SUPPORT. Which parts of the state the operations of Machine/Complete.lean may change. -/

namespace Sys2Proof.Machine

set_option linter.unusedTactic false
set_option linter.unreachableTactic false

theorem frame_State_modRing (s : State) (n : Nat) (f : Ring → Ring) {P : List Part} {s0 : State} 
    (hP : subParts [.rings] P = true) (h : Frame P s0 s) : Frame P s0 (State.modRing s n f) := by
  unfold State.modRing
  try extract_lets
  repeat' first
    | (with_reducible refine Frame.of_mk _ _ _ _ _ _ _ _ _ _ _ _ _ _ _ _ _ _ _ _ _ _ _ _ _ _ _ _ _ hP ?_ rfl ?_ ?_ ?_ ?_ ?_ ?_ ?_ ?_ ?_ ?_ ?_ ?_ ?_ ?_ ?_ ?_ ?_ ?_ ?_ ?_ ?_ ?_ ?_ ?_ ?_ ?_ ?_ ?_ <;>
         first | with_reducible exact Or.inr rfl | exact Or.inl rfl | skip
       with_reducible assumption)

theorem frame_startWake (s : State) (d : Dom) (target : DomState) {P : List Part} {s0 : State} 
    (hP : subParts [.pwr] P = true) (h : Frame P s0 s) : Frame P s0 (startWake s d target) := by
  unfold startWake
  try extract_lets
  repeat' first
    | with_reducible assumption
    | with_reducible apply frame_State_modDom
    | with_reducible apply Frame.ite <;> intro _

theorem frame_raiseRing (s : State) (n : Nat) {P : List Part} {s0 : State} 
    (hP : subParts [.rings, .plait, .out] P = true) (h : Frame P s0 s) : Frame P s0 (raiseRing s n) := by
  unfold raiseRing
  try extract_lets
  repeat' first
    | exact subParts_trans (by decide) hP
    | with_reducible apply frame_State_modRing
    | with_reducible apply frame_plaitMsg
    | with_reducible apply Frame.ite <;> intro _
    | (with_reducible refine Frame.of_mk _ _ _ _ _ _ _ _ _ _ _ _ _ _ _ _ _ _ _ _ _ _ _ _ _ _ _ _ _ hP ?_ rfl ?_ ?_ ?_ ?_ ?_ ?_ ?_ ?_ ?_ ?_ ?_ ?_ ?_ ?_ ?_ ?_ ?_ ?_ ?_ ?_ ?_ ?_ ?_ ?_ ?_ ?_ ?_ ?_ <;>
         first | with_reducible exact Or.inr rfl | exact Or.inl rfl | skip
       with_reducible assumption)

theorem frame_moderate (s : State) (n : Nat) (irq : Bool) {P : List Part} {s0 : State} 
    (hP : subParts [.rings, .plait, .out] P = true) (h : Frame P s0 s) : Frame P s0 (moderate s n irq) := by
  unfold moderate
  try extract_lets
  repeat' first
    | with_reducible assumption
    | exact subParts_trans (by decide) hP
    | with_reducible apply frame_State_modRing
    | with_reducible apply frame_raiseRing
    | with_reducible apply Frame.ite <;> intro _

theorem frame_postEntry (s : State) (n : Nat) (e : Entry) (irq : Bool) {P : List Part} {s0 : State}
    (hP : subParts [.mem, .pwr, .rings, .plait, .out] P = true) (h : Frame P s0 s) :
    Frame P s0 (postEntry s n e irq) := by
  have count : ∀ u, Frame P s0 u →
      Frame P s0 (moderate (u.modRing n (fun r => { r with written := r.written + 1 })) n irq) :=
    fun u hu => frame_moderate _ _ _ (subParts_trans (by decide) hP) (frame_State_modRing _ _ _ (subParts_trans (by decide) hP) hu)
  unfold postEntry
  extract_lets r a bs c
  refine Frame.ite (fun _ => h) (fun _ => Frame.ite (fun _ => Frame.ite (fun _ => ?_) (fun _ => ?_)) (fun _ =>
    Frame.ite (fun _ => ?_) (fun _ => Frame.ite (fun _ => h) (fun _ => ?_))))
  · exact count _ (frame_remotePut _ _ _ (subParts_trans (by decide) hP) h)
  · exact h.upd hP rfl (fun p hp => by cases p <;> first | exact absurd hp (by decide) | exact rfl)
  · exact count _ (h.upd hP rfl (fun p hp => by cases p <;> first | exact absurd hp (by decide) | exact rfl))
  · exact count _ (frame_startWake _ _ _ (subParts_trans (by decide) hP) (h.upd hP rfl (fun p hp => by cases p <;> first | exact absurd hp (by decide) | exact rfl)))

theorem frame_complete (s : State) (d : Desc) (status : Nat) (detail : Nat) (time : Nat) (r0 : Nat) (r1 : Nat) {P : List Part} {s0 : State} 
    (hP : subParts [.mem, .pwr, .rings, .plait, .out] P = true) (h : Frame P s0 s) : Frame P s0 (complete s d status detail time r0 r1) := by
  unfold complete
  try extract_lets
  repeat' first
    | with_reducible assumption
    | exact subParts_trans (by decide) hP
    | with_reducible apply frame_State_modRing
    | with_reducible apply frame_postEntry
    | (with_reducible refine Frame.of_mk _ _ _ _ _ _ _ _ _ _ _ _ _ _ _ _ _ _ _ _ _ _ _ _ _ _ _ _ _ hP ?_ rfl ?_ ?_ ?_ ?_ ?_ ?_ ?_ ?_ ?_ ?_ ?_ ?_ ?_ ?_ ?_ ?_ ?_ ?_ ?_ ?_ ?_ ?_ ?_ ?_ ?_ ?_ ?_ ?_ <;>
         first | with_reducible exact Or.inr rfl | exact Or.inl rfl | skip
       split)

theorem frame_outstand (s : State) (d : Desc) (block : Nat) (opcode : Nat) {P : List Part} {s0 : State} 
    (hP : subParts [.rings] P = true) (h : Frame P s0 s) : Frame P s0 (outstand s d block opcode) := by
  unfold outstand
  try extract_lets
  repeat' first
    | with_reducible assumption
    | with_reducible apply frame_State_modRing

theorem frame_finish (s : State) (a : Act) (detail : Nat) (r0 : Nat) (r1 : Nat) {P : List Part} {s0 : State} 
    (hP : subParts [.mem, .pwr, .rings, .plait, .out] P = true) (h : Frame P s0 s) : Frame P s0 (finish s a detail r0 r1) := by
  unfold finish
  try extract_lets
  repeat' first
    | with_reducible assumption
    | with_reducible apply frame_complete

theorem frame_finishAs (s : State) (a : Act) (status : Nat) (detail : Nat) (r0 : Nat) (r1 : Nat) {P : List Part} {s0 : State} 
    (hP : subParts [.mem, .pwr, .rings, .plait, .out] P = true) (h : Frame P s0 s) : Frame P s0 (finishAs s a status detail r0 r1) := by
  unfold finishAs
  try extract_lets
  repeat' first
    | with_reducible assumption
    | with_reducible apply frame_complete

theorem frame_refuse (s : State) (a : Act) (status : Nat) (detail : Nat) (r0 : Nat) (r1 : Nat) {P : List Part} {s0 : State} 
    (hP : subParts [.mem, .pwr, .rings, .plait, .out] P = true) (h : Frame P s0 s) : Frame P s0 (refuse s a status detail r0 r1) := by
  unfold refuse
  try extract_lets
  repeat' first
    | with_reducible assumption
    | with_reducible apply frame_complete

theorem frame_loseItem (s : State) (n : Nat) {P : List Part} {s0 : State} 
    (hP : subParts [.rings] P = true) (h : Frame P s0 s) : Frame P s0 (loseItem s n) := by
  unfold loseItem
  try extract_lets
  repeat' first
    | with_reducible assumption
    | with_reducible apply frame_State_modRing

theorem frame_reportLoss (s : State) (n : Nat) {P : List Part} {s0 : State} 
    (hP : subParts [.rings, .bezel, .loupe, .plait, .out] P = true) (h : Frame P s0 s) : Frame P s0 (reportLoss s n) := by
  unfold reportLoss
  try extract_lets
  repeat' first
    | with_reducible assumption
    | exact subParts_trans (by decide) hP
    | with_reducible apply frame_logEvent
    | with_reducible apply frame_State_modRing

theorem frame_postEvent (s : State) (n : Nat) (block : Nat) (code : Nat) (time : Nat) (d0 : Nat) (d1 : Nat) {P : List Part} {s0 : State} 
    (hP : subParts [.mem, .pwr, .rings, .bezel, .loupe, .plait, .out] P = true) (h : Frame P s0 s) : Frame P s0 (postEvent s n block code time d0 d1) := by
  unfold postEvent
  try extract_lets
  repeat' first
    | with_reducible assumption
    | exact subParts_trans (by decide) hP
    | with_reducible apply frame_loseItem
    | with_reducible apply frame_reportLoss
    | with_reducible apply frame_postEntry
    | with_reducible apply Frame.ite <;> intro _

theorem frame_putBytes (s : State) (ring : Fin 128) (a : Nat) (bs : List (BitVec 8)) {P : List Part} {s0 : State} 
    (hP : subParts [.ecc, .mem, .rings, .bezel, .loupe, .plait, .out] P = true) (h : Frame P s0 s) : Frame P s0 (putBytes s ring a bs).2 := by
  unfold putBytes
  repeat' first
    | with_reducible assumption
    | exact subParts_trans (by decide) hP
    | with_reducible apply frame_remotePut
    | with_reducible apply frame_writeMem
    | with_reducible apply Frame.ite_snd <;> intro _

theorem frame_inbound (s : State) (n : Nat) (block : Nat) (detail : Nat) (time : Nat) (item : List (BitVec 8)) {P : List Part} {s0 : State} 
    (hP : subParts [.ecc, .mem, .pwr, .rings, .bezel, .loupe, .plait, .out] P = true) (h : Frame P s0 s) : Frame P s0 (inbound s n block detail time item) := by
  unfold inbound
  try extract_lets
  repeat' first
    | with_reducible assumption
    | exact subParts_trans (by decide) hP
    | with_reducible apply frame_loseItem
    | with_reducible apply frame_State_modRing
    | with_reducible apply frame_putBytes
    | with_reducible apply frame_reportLoss
    | with_reducible apply frame_complete
    | with_reducible apply Frame.ite <;> intro _
    | (with_reducible refine Frame.of_mk _ _ _ _ _ _ _ _ _ _ _ _ _ _ _ _ _ _ _ _ _ _ _ _ _ _ _ _ _ hP ?_ rfl ?_ ?_ ?_ ?_ ?_ ?_ ?_ ?_ ?_ ?_ ?_ ?_ ?_ ?_ ?_ ?_ ?_ ?_ ?_ ?_ ?_ ?_ ?_ ?_ ?_ ?_ ?_ ?_ <;>
         first | with_reducible exact Or.inr rfl | exact Or.inl rfl | skip
       split)

end Sys2Proof.Machine
end

