-- ==== Sys2Proof/Laws/FrameAccept.lean ====
section
/-! SUPPORT. Which parts of the state the operations of Machine/Accept.lean may change. -/

namespace Sys2Proof.Machine

set_option linter.unusedTactic false
set_option linter.unreachableTactic false

theorem frame_failCheck (s : State) (d : Desc) (status : Nat) (block : Nat) (opcode : Nat) {P : List Part} {s0 : State} 
    (hP : subParts [.mem, .pwr, .rings, .plait, .out] P = true) (h : Frame P s0 s) : Frame P s0 (failCheck s d status block opcode) := by
  unfold failCheck
  try extract_lets
  repeat' first
    | with_reducible assumption
    | with_reducible apply frame_complete

theorem frame_runAct (s : State) (d : Desc) (c : HostCmd) (act : Act → State → State) {P : List Part} {s0 : State} (h_act : ∀ y0 y1, Frame P s0 y1 → Frame P s0 (act y0 y1))
    (hP : subParts [.ecc, .mem, .pwr, .rings, .bezel, .loupe, .plait, .out] P = true) (h : Frame P s0 s) : Frame P s0 (runAct s d c act) := by
  unfold runAct
  try extract_lets
  repeat' first
    | with_reducible assumption
    | exact subParts_trans (by decide) hP
    | with_reducible apply h_act
    | with_reducible apply frame_readMem
    | with_reducible apply frame_complete
    | with_reducible apply Frame.ite <;> intro _
    | (with_reducible refine Frame.of_mk _ _ _ _ _ _ _ _ _ _ _ _ _ _ _ _ _ _ _ _ _ _ _ _ _ _ _ _ _ hP ?_ rfl ?_ ?_ ?_ ?_ ?_ ?_ ?_ ?_ ?_ ?_ ?_ ?_ ?_ ?_ ?_ ?_ ?_ ?_ ?_ ?_ ?_ ?_ ?_ ?_ ?_ ?_ ?_ ?_ <;>
         first | with_reducible exact Or.inr rfl | exact Or.inl rfl | skip
       split)

theorem frame_toBlock (s : State) (d : Desc) (c : HostCmd) (act : Act → State → State) {P : List Part} {s0 : State} (h_act : ∀ y0 y1, Frame P s0 y1 → Frame P s0 (act y0 y1))
    (hP : subParts [.ecc, .mem, .pwr, .rings, .bezel, .loupe, .plait, .out] P = true) (h : Frame P s0 s) : Frame P s0 (toBlock s d c act) := by
  unfold toBlock
  try extract_lets
  repeat' first
    | with_reducible assumption
    | exact subParts_trans (by decide) hP
    | with_reducible apply frame_runAct
    | with_reducible apply frame_complete
    | with_reducible apply frame_startWake
    | with_reducible apply Frame.ite <;> intro _
    | (with_reducible refine Frame.of_mk _ _ _ _ _ _ _ _ _ _ _ _ _ _ _ _ _ _ _ _ _ _ _ _ _ _ _ _ _ hP ?_ rfl ?_ ?_ ?_ ?_ ?_ ?_ ?_ ?_ ?_ ?_ ?_ ?_ ?_ ?_ ?_ ?_ ?_ ?_ ?_ ?_ ?_ ?_ ?_ ?_ ?_ ?_ ?_ ?_ <;>
         first | with_reducible exact Or.inr rfl | exact Or.inl rfl | skip
       first
         | with_reducible assumption
         | split
      )

theorem frame_countLate (s : State) (d : Desc) (acted : Bool) {P : List Part} {s0 : State} 
    (hP : subParts [.weave, .rings, .bezel, .loupe, .plait, .out] P = true) (h : Frame P s0 s) : Frame P s0 (countLate s d acted) := by
  unfold countLate
  try extract_lets
  repeat' first
    | exact subParts_trans (by decide) hP
    | with_reducible apply frame_logEvent
    | (with_reducible refine Frame.of_mk _ _ _ _ _ _ _ _ _ _ _ _ _ _ _ _ _ _ _ _ _ _ _ _ _ _ _ _ _ hP ?_ rfl ?_ ?_ ?_ ?_ ?_ ?_ ?_ ?_ ?_ ?_ ?_ ?_ ?_ ?_ ?_ ?_ ?_ ?_ ?_ ?_ ?_ ?_ ?_ ?_ ?_ ?_ ?_ ?_ <;>
         first | with_reducible exact Or.inr rfl | exact Or.inl rfl | skip
       with_reducible assumption)

theorem frame_cancelLaunch (s : State) (e : Launch) (status : Nat) {P : List Part} {s0 : State} 
    (hP : subParts [.mem, .pwr, .rings, .plait, .out] P = true) (h : Frame P s0 s) : Frame P s0 (cancelLaunch s e status) := by
  unfold cancelLaunch
  try extract_lets
  repeat' first
    | with_reducible assumption
    | with_reducible apply frame_complete
    | (with_reducible refine Frame.of_mk _ _ _ _ _ _ _ _ _ _ _ _ _ _ _ _ _ _ _ _ _ _ _ _ _ _ _ _ _ hP ?_ rfl ?_ ?_ ?_ ?_ ?_ ?_ ?_ ?_ ?_ ?_ ?_ ?_ ?_ ?_ ?_ ?_ ?_ ?_ ?_ ?_ ?_ ?_ ?_ ?_ ?_ ?_ ?_ ?_ <;>
         first | with_reducible exact Or.inr rfl | exact Or.inl rfl | skip
       split)

theorem frame_enterQueue (s : State) (d : Desc) (c : HostCmd) (late : Bool) {P : List Part} {s0 : State} 
    (hP : subParts [.mem, .pwr, .weave, .rings, .plait, .out] P = true) (h : Frame P s0 s) : Frame P s0 (enterQueue s d c late) := by
  unfold enterQueue
  try extract_lets
  repeat' first
    | with_reducible assumption
    | exact subParts_trans (by decide) hP
    | with_reducible apply frame_cancelLaunch
    | with_reducible apply frame_startWake
    | with_reducible apply Frame.ite <;> intro _
    | intro _ _ _
    | (with_reducible refine Frame.of_mk _ _ _ _ _ _ _ _ _ _ _ _ _ _ _ _ _ _ _ _ _ _ _ _ _ _ _ _ _ hP ?_ rfl ?_ ?_ ?_ ?_ ?_ ?_ ?_ ?_ ?_ ?_ ?_ ?_ ?_ ?_ ?_ ?_ ?_ ?_ ?_ ?_ ?_ ?_ ?_ ?_ ?_ ?_ ?_ ?_ <;>
         first | with_reducible exact Or.inr rfl | exact Or.inl rfl | skip
       with_reducible apply Frame.foldl)

theorem frame_launchAccept (s : State) (d : Desc) (c : HostCmd) (admits : State → Nat) (enter : State → State) {P : List Part} {s0 : State} (h_enter : ∀ y0, Frame P s0 y0 → Frame P s0 (enter y0))
    (hP : subParts [.mem, .pwr, .weave, .rings, .bezel, .loupe, .plait, .out] P = true) (h : Frame P s0 s) : Frame P s0 (launchAccept s d c admits enter) := by
  unfold launchAccept
  try extract_lets
  repeat' first
    | with_reducible assumption
    | exact subParts_trans (by decide) hP
    | with_reducible apply h_enter
    | with_reducible apply frame_complete
    | with_reducible apply frame_logEvent
    | with_reducible apply frame_countLate
    | with_reducible apply frame_enterQueue
    | with_reducible apply Frame.ite <;> intro _
    | (with_reducible refine Frame.of_mk _ _ _ _ _ _ _ _ _ _ _ _ _ _ _ _ _ _ _ _ _ _ _ _ _ _ _ _ _ hP ?_ rfl ?_ ?_ ?_ ?_ ?_ ?_ ?_ ?_ ?_ ?_ ?_ ?_ ?_ ?_ ?_ ?_ ?_ ?_ ?_ ?_ ?_ ?_ ?_ ?_ ?_ ?_ ?_ ?_ <;>
         first | with_reducible exact Or.inr rfl | exact Or.inl rfl | skip
       with_reducible assumption)

theorem frame_acceptNow (s : State) (d : Desc) (c : HostCmd) (act : Act → State → State) (admits : State → Nat) (enter : State → State) {P : List Part} {s0 : State} (h_act : ∀ y0 y1, Frame P s0 y1 → Frame P s0 (act y0 y1)) (h_enter : ∀ y0, Frame P s0 y0 → Frame P s0 (enter y0))
    (hP : subParts [.ecc, .mem, .pwr, .weave, .rings, .bezel, .loupe, .plait, .out] P = true) (h : Frame P s0 s) : Frame P s0 (acceptNow s d c act admits enter) := by
  unfold acceptNow
  try extract_lets
  repeat' first
    | with_reducible assumption
    | exact subParts_trans (by decide) hP
    | with_reducible apply frame_complete
    | with_reducible apply frame_launchAccept
    | with_reducible apply frame_toBlock
    | with_reducible apply Frame.ite <;> intro _

theorem frame_acceptWith (d : Desc) (c : HostCmd) (act : Act → State → State) (admits : State → Nat) (enter : State → State) (s : State) {P : List Part} {s0 : State} (h_act : ∀ y0 y1, Frame P s0 y1 → Frame P s0 (act y0 y1)) (h_enter : ∀ y0, Frame P s0 y0 → Frame P s0 (enter y0))
    (hP : subParts [.ecc, .mem, .pwr, .weave, .rings, .bezel, .loupe, .plait, .out] P = true) (h : Frame P s0 s) : Frame P s0 (acceptWith d c act admits enter s) := by
  unfold acceptWith
  try extract_lets
  repeat' first
    | with_reducible assumption
    | exact subParts_trans (by decide) hP
    | with_reducible apply frame_outstand
    | with_reducible apply frame_failCheck
    | with_reducible apply frame_State_modRing
    | with_reducible apply frame_complete
    | with_reducible apply frame_acceptNow
    | with_reducible apply Frame.ite <;> intro _

theorem frame_accept (d : Desc) (c : HostCmd) (act : Act → State → State) (s : State) {P : List Part} {s0 : State} (h_act : ∀ y0 y1, Frame P s0 y1 → Frame P s0 (act y0 y1))
    (hP : subParts [.ecc, .mem, .pwr, .weave, .rings, .bezel, .loupe, .plait, .out] P = true) (h : Frame P s0 s) : Frame P s0 (accept d c act s) := by
  unfold accept
  repeat' first
    | with_reducible assumption
    | with_reducible apply frame_acceptWith
    | exact fun _ k => k

end Sys2Proof.Machine
end

