-- ==== Sys2Proof/Laws/FramePlan.lean ====
section
/-! SUPPORT. Which parts of the state the operations of Machine/Plan.lean may change. -/

namespace Sys2Proof.Machine

set_option linter.unusedTactic false
set_option linter.unreachableTactic false

theorem frame_fixedCheck1 (frame : Nat) (atFrame : Bool) (s : State) (k : Nat) {P : List Part} {s0 : State} 
    (hP : subParts [.rings, .bezel, .loupe, .edge, .plait, .out] P = true) (h : Frame P s0 s) : Frame P s0 (fixedCheck1 frame atFrame s k) := by
  unfold fixedCheck1
  try extract_lets
  repeat' first
    | with_reducible assumption
    | exact subParts_trans (by decide) hP
    | with_reducible apply frame_logEvent
    | with_reducible apply Frame.ite <;> intro _
    | (with_reducible refine Frame.of_mk _ _ _ _ _ _ _ _ _ _ _ _ _ _ _ _ _ _ _ _ _ _ _ _ _ _ _ _ _ hP ?_ rfl ?_ ?_ ?_ ?_ ?_ ?_ ?_ ?_ ?_ ?_ ?_ ?_ ?_ ?_ ?_ ?_ ?_ ?_ ?_ ?_ ?_ ?_ ?_ ?_ ?_ ?_ ?_ ?_ <;>
         first | with_reducible exact Or.inr rfl | exact Or.inl rfl | skip
       first
         | with_reducible assumption
         | split
      )
    | extract_lets
    | dsimp +zetaDelta only

theorem frame_fixedCheck (s : State) (frame : Nat) (atFrame : Bool) {P : List Part} {s0 : State} 
    (hP : subParts [.rings, .bezel, .loupe, .edge, .plait, .out] P = true) (h : Frame P s0 s) : Frame P s0 (fixedCheck s frame atFrame) := by
  unfold fixedCheck
  repeat' first
    | with_reducible assumption
    | with_reducible apply Frame.foldl
    | with_reducible apply frame_fixedCheck1
    | intro _ _ _

theorem frame_State_modP (s : State) (i : Nat) (f : PChan → PChan) {P : List Part} {s0 : State} 
    (hP : subParts [.edge] P = true) (h : Frame P s0 s) : Frame P s0 (State.modP s i f) := by
  unfold State.modP
  try extract_lets
  repeat' first
    | (with_reducible refine Frame.of_mk _ _ _ _ _ _ _ _ _ _ _ _ _ _ _ _ _ _ _ _ _ _ _ _ _ _ _ _ _ hP ?_ rfl ?_ ?_ ?_ ?_ ?_ ?_ ?_ ?_ ?_ ?_ ?_ ?_ ?_ ?_ ?_ ?_ ?_ ?_ ?_ ?_ ?_ ?_ ?_ ?_ ?_ ?_ ?_ ?_ <;>
         first | with_reducible exact Or.inr rfl | exact Or.inl rfl | skip
       with_reducible assumption)

theorem frame_overPlan (s : State) (i : Nat) (slot : Nat) {P : List Part} {s0 : State} 
    (hP : subParts [.rings, .bezel, .loupe, .edge, .plait, .out] P = true) (h : Frame P s0 s) : Frame P s0 (overPlan s i slot) := by
  unfold overPlan
  try extract_lets
  repeat' first
    | exact subParts_trans (by decide) hP
    | with_reducible apply frame_logEvent
    | with_reducible apply frame_State_modP
    | with_reducible apply Frame.ite <;> intro _
    | (with_reducible refine Frame.of_mk _ _ _ _ _ _ _ _ _ _ _ _ _ _ _ _ _ _ _ _ _ _ _ _ _ _ _ _ _ hP ?_ rfl ?_ ?_ ?_ ?_ ?_ ?_ ?_ ?_ ?_ ?_ ?_ ?_ ?_ ?_ ?_ ?_ ?_ ?_ ?_ ?_ ?_ ?_ ?_ ?_ ?_ ?_ ?_ ?_ <;>
         first | with_reducible exact Or.inr rfl | exact Or.inl rfl | skip
       with_reducible assumption)

theorem frame_moveChan (s : State) (frame : Nat) (i : Nat) {P : List Part} {s0 : State} 
    (hP : subParts [.edge] P = true) (h : Frame P s0 s) : Frame P s0 (moveChan s frame i) := by
  unfold moveChan
  try extract_lets
  repeat' first
    | with_reducible assumption
    | with_reducible apply Frame.ite <;> intro _
    | (with_reducible refine Frame.of_mk _ _ _ _ _ _ _ _ _ _ _ _ _ _ _ _ _ _ _ _ _ _ _ _ _ _ _ _ _ hP ?_ rfl ?_ ?_ ?_ ?_ ?_ ?_ ?_ ?_ ?_ ?_ ?_ ?_ ?_ ?_ ?_ ?_ ?_ ?_ ?_ ?_ ?_ ?_ ?_ ?_ ?_ ?_ ?_ ?_ <;>
         first | with_reducible exact Or.inr rfl | exact Or.inl rfl | skip
       first
         | with_reducible assumption
         | with_reducible apply frame_State_modP
      )

theorem frame_clearSlot (frame : Nat) (k : Nat) (slot : Nat) (x0 : Nat) (x1 : State) {P : List Part} {s0 : State} 
    (hP : subParts [.edge] P = true) (h : Frame P s0 x1) : Frame P s0 (clearSlot frame k slot x0 x1) := by
  induction x0 generalizing frame k slot x1 with
  | zero =>
    unfold clearSlot
    try extract_lets
    repeat' first
      | with_reducible assumption
      | with_reducible apply ih
      | with_reducible apply frame_moveChan
      | with_reducible apply Frame.ite <;> intro _
      | (with_reducible refine Frame.of_mk _ _ _ _ _ _ _ _ _ _ _ _ _ _ _ _ _ _ _ _ _ _ _ _ _ _ _ _ _ hP ?_ rfl ?_ ?_ ?_ ?_ ?_ ?_ ?_ ?_ ?_ ?_ ?_ ?_ ?_ ?_ ?_ ?_ ?_ ?_ ?_ ?_ ?_ ?_ ?_ ?_ ?_ ?_ ?_ ?_ <;>
           first | with_reducible exact Or.inr rfl | exact Or.inl rfl | skip
         split)
  | succ k ih =>
    unfold clearSlot
    try extract_lets
    repeat' first
      | with_reducible assumption
      | with_reducible apply ih
      | with_reducible apply frame_moveChan
      | with_reducible apply Frame.ite <;> intro _
      | (with_reducible refine Frame.of_mk _ _ _ _ _ _ _ _ _ _ _ _ _ _ _ _ _ _ _ _ _ _ _ _ _ _ _ _ _ hP ?_ rfl ?_ ?_ ?_ ?_ ?_ ?_ ?_ ?_ ?_ ?_ ?_ ?_ ?_ ?_ ?_ ?_ ?_ ?_ ?_ ?_ ?_ ?_ ?_ ?_ ?_ ?_ ?_ ?_ <;>
           first | with_reducible exact Or.inr rfl | exact Or.inl rfl | skip
         split)

theorem frame_clearFrame (s : State) (frame : Nat) {P : List Part} {s0 : State} 
    (hP : subParts [.edge] P = true) (h : Frame P s0 s) : Frame P s0 (clearFrame s frame) := by
  unfold clearFrame
  try extract_lets
  repeat' first
    | with_reducible assumption
    | with_reducible apply Frame.foldl
    | with_reducible apply frame_clearSlot
    | with_reducible apply Frame.ite <;> intro _
    | intro _ _ _
    | (with_reducible refine Frame.of_mk _ _ _ _ _ _ _ _ _ _ _ _ _ _ _ _ _ _ _ _ _ _ _ _ _ _ _ _ _ hP ?_ rfl ?_ ?_ ?_ ?_ ?_ ?_ ?_ ?_ ?_ ?_ ?_ ?_ ?_ ?_ ?_ ?_ ?_ ?_ ?_ ?_ ?_ ?_ ?_ ?_ ?_ ?_ ?_ ?_ <;>
         first | with_reducible exact Or.inr rfl | exact Or.inl rfl | skip
       with_reducible assumption)

theorem frame_overCheck (s : State) (frame : Nat) {P : List Part} {s0 : State} 
    (hP : subParts [.rings, .bezel, .loupe, .edge, .plait, .out] P = true) (h : Frame P s0 s) : Frame P s0 (overCheck s frame) := by
  unfold overCheck
  try extract_lets
  repeat' first
    | with_reducible assumption
    | exact subParts_trans (by decide) hP
    | with_reducible apply Frame.foldl
    | with_reducible apply frame_overPlan
    | with_reducible apply frame_State_modP
    | intro _ _ _
    | (with_reducible refine Frame.of_mk _ _ _ _ _ _ _ _ _ _ _ _ _ _ _ _ _ _ _ _ _ _ _ _ _ _ _ _ _ hP ?_ rfl ?_ ?_ ?_ ?_ ?_ ?_ ?_ ?_ ?_ ?_ ?_ ?_ ?_ ?_ ?_ ?_ ?_ ?_ ?_ ?_ ?_ ?_ ?_ ?_ ?_ ?_ ?_ ?_ <;>
         first | with_reducible exact Or.inr rfl | exact Or.inl rfl | skip
       split)

theorem frame_replan (s : State) {P : List Part} {s0 : State} 
    (hP : subParts [.rings, .bezel, .loupe, .edge, .plait, .out] P = true) (h : Frame P s0 s) : Frame P s0 (replan s) := by
  unfold replan
  try extract_lets
  repeat' first
    | with_reducible assumption
    | exact subParts_trans (by decide) hP
    | with_reducible apply frame_fixedCheck
    | with_reducible apply frame_clearFrame

theorem frame_planOn (s : State) (i : Nat) (phase : Nat) (code : Nat) (onNs : Nat) (launch : Bool) {P : List Part} {s0 : State} 
    (hP : subParts [.edge] P = true) (h : Frame P s0 s) : Frame P s0 (planOn s i phase code onNs launch) := by
  unfold planOn
  try extract_lets
  repeat' first
    | with_reducible assumption
    | with_reducible apply frame_State_modP

theorem frame_planOnTime (s : State) (i : Nat) (onNs : Nat) {P : List Part} {s0 : State} 
    (hP : subParts [.edge] P = true) (h : Frame P s0 s) : Frame P s0 (planOnTime s i onNs) := by
  unfold planOnTime
  try extract_lets
  repeat' first
    | with_reducible assumption
    | with_reducible apply frame_State_modP

theorem frame_planOff (s : State) (i : Nat) {P : List Part} {s0 : State} 
    (hP : subParts [.edge] P = true) (h : Frame P s0 s) : Frame P s0 (planOff s i) := by
  unfold planOff
  try extract_lets
  repeat' first
    | with_reducible assumption
    | with_reducible apply frame_State_modP

theorem frame_addShot (s : State) (o : OneShot) {P : List Part} {s0 : State} 
    (hP : subParts [.edge] P = true) (h : Frame P s0 s) : Frame P s0 (addShot s o) := by
  unfold addShot
  try extract_lets
  repeat' first
    | (with_reducible refine Frame.of_mk _ _ _ _ _ _ _ _ _ _ _ _ _ _ _ _ _ _ _ _ _ _ _ _ _ _ _ _ _ hP ?_ rfl ?_ ?_ ?_ ?_ ?_ ?_ ?_ ?_ ?_ ?_ ?_ ?_ ?_ ?_ ?_ ?_ ?_ ?_ ?_ ?_ ?_ ?_ ?_ ?_ ?_ ?_ ?_ ?_ <;>
         first | with_reducible exact Or.inr rfl | exact Or.inl rfl | skip
       with_reducible assumption)

end Sys2Proof.Machine
end

