-- ==== Sys2Proof/Laws/FrameValveOps.lean ====
section
/-! SUPPORT. Which parts of the state the operations of Machine/ValveOps.lean may change. -/

namespace Sys2Proof.Machine

set_option linter.unusedTactic false
set_option linter.unreachableTactic false

theorem frame_State_modVlv (s : State) (n : Nat) (f : VlvCh → VlvCh) {P : List Part} {s0 : State} 
    (hP : subParts [.vlv] P = true) (h : Frame P s0 s) : Frame P s0 (State.modVlv s n f) := by
  unfold State.modVlv
  try extract_lets
  repeat' first
    | (with_reducible refine Frame.of_mk _ _ _ _ _ _ _ _ _ _ _ _ _ _ _ _ _ _ _ _ _ _ _ _ _ _ _ _ _ hP ?_ rfl ?_ ?_ ?_ ?_ ?_ ?_ ?_ ?_ ?_ ?_ ?_ ?_ ?_ ?_ ?_ ?_ ?_ ?_ ?_ ?_ ?_ ?_ ?_ ?_ ?_ ?_ ?_ ?_ <;>
         first | with_reducible exact Or.inr rfl | exact Or.inl rfl | skip
       with_reducible assumption)

theorem frame_State_modBank (s : State) (b : Nat) (f : VlvBank → VlvBank) {P : List Part} {s0 : State} 
    (hP : subParts [.vlv] P = true) (h : Frame P s0 s) : Frame P s0 (State.modBank s b f) := by
  unfold State.modBank
  try extract_lets
  repeat' first
    | (with_reducible refine Frame.of_mk _ _ _ _ _ _ _ _ _ _ _ _ _ _ _ _ _ _ _ _ _ _ _ _ _ _ _ _ _ hP ?_ rfl ?_ ?_ ?_ ?_ ?_ ?_ ?_ ?_ ?_ ?_ ?_ ?_ ?_ ?_ ?_ ?_ ?_ ?_ ?_ ?_ ?_ ?_ ?_ ?_ ?_ ?_ ?_ ?_ <;>
         first | with_reducible exact Or.inr rfl | exact Or.inl rfl | skip
       with_reducible assumption)

theorem frame_State_modCtx (s : State) (n : Nat) (f : FCtx → FCtx) {P : List Part} {s0 : State} 
    (hP : subParts [.facet] P = true) (h : Frame P s0 s) : Frame P s0 (State.modCtx s n f) := by
  unfold State.modCtx
  try extract_lets
  repeat' first
    | (with_reducible refine Frame.of_mk _ _ _ _ _ _ _ _ _ _ _ _ _ _ _ _ _ _ _ _ _ _ _ _ _ _ _ _ _ hP ?_ rfl ?_ ?_ ?_ ?_ ?_ ?_ ?_ ?_ ?_ ?_ ?_ ?_ ?_ ?_ ?_ ?_ ?_ ?_ ?_ ?_ ?_ ?_ ?_ ?_ ?_ ?_ ?_ ?_ <;>
         first | with_reducible exact Or.inr rfl | exact Or.inl rfl | skip
       with_reducible assumption)

theorem frame_vlvEvent (s : State) (code : Nat) (n : Nat) {P : List Part} {s0 : State} 
    (hP : subParts [.rings, .bezel, .loupe, .plait, .out] P = true) (h : Frame P s0 s) : Frame P s0 (vlvEvent s code n) := by
  unfold vlvEvent
  repeat' first
    | with_reducible assumption
    | with_reducible apply frame_logEvent

theorem frame_multiDone (s : State) (m : VMulti) {P : List Part} {s0 : State} 
    (hP : subParts [.mem, .pwr, .rings, .plait, .out] P = true) (h : Frame P s0 s) : Frame P s0 (multiDone s m) := by
  unfold multiDone
  try extract_lets
  repeat' first
    | with_reducible assumption
    | with_reducible apply frame_complete

theorem frame_multiNote (s : State) (a : Act) (f : VMulti → VMulti) {P : List Part} {s0 : State} 
    (hP : subParts [.mem, .pwr, .rings, .vlv, .plait, .out] P = true) (h : Frame P s0 s) : Frame P s0 (multiNote s a f) := by
  unfold multiNote
  try extract_lets
  repeat' first
    | with_reducible assumption
    | exact subParts_trans (by decide) hP
    | with_reducible apply frame_multiDone
    | with_reducible apply Frame.ite <;> intro _
    | (with_reducible refine Frame.of_mk _ _ _ _ _ _ _ _ _ _ _ _ _ _ _ _ _ _ _ _ _ _ _ _ _ _ _ _ _ hP ?_ rfl ?_ ?_ ?_ ?_ ?_ ?_ ?_ ?_ ?_ ?_ ?_ ?_ ?_ ?_ ?_ ?_ ?_ ?_ ?_ ?_ ?_ ?_ ?_ ?_ ?_ ?_ ?_ ?_ <;>
         first | with_reducible exact Or.inr rfl | exact Or.inl rfl | skip
       first
         | with_reducible assumption
         | split
      )

theorem frame_startFails (s : State) (n : Nat) (st : VStart) (status : Nat) {P : List Part} {s0 : State} 
    (hP : subParts [.mem, .pwr, .rings, .vlv, .plait, .out] P = true) (h : Frame P s0 s) : Frame P s0 (startFails s n st status) := by
  unfold startFails
  try extract_lets
  repeat' first
    | with_reducible assumption
    | exact subParts_trans (by decide) hP
    | with_reducible apply frame_multiNote
    | with_reducible apply frame_refuse
    | with_reducible apply Frame.ite <;> intro _
    | (with_reducible refine Frame.of_mk _ _ _ _ _ _ _ _ _ _ _ _ _ _ _ _ _ _ _ _ _ _ _ _ _ _ _ _ _ hP ?_ rfl ?_ ?_ ?_ ?_ ?_ ?_ ?_ ?_ ?_ ?_ ?_ ?_ ?_ ?_ ?_ ?_ ?_ ?_ ?_ ?_ ?_ ?_ ?_ ?_ ?_ ?_ ?_ ?_ <;>
         first | with_reducible exact Or.inr rfl | exact Or.inl rfl | skip
       split)

theorem frame_startDone (s : State) (n : Nat) (st : VStart) (instant : Nat) (deferral : Nat) (detail : Nat) {P : List Part} {s0 : State} 
    (hP : subParts [.mem, .pwr, .rings, .vlv, .plait, .out] P = true) (h : Frame P s0 s) : Frame P s0 (startDone s n st instant deferral detail) := by
  unfold startDone
  try extract_lets
  repeat' first
    | with_reducible assumption
    | exact subParts_trans (by decide) hP
    | with_reducible apply frame_multiNote
    | with_reducible apply frame_complete
    | with_reducible apply Frame.ite <;> intro _
    | (with_reducible refine Frame.of_mk _ _ _ _ _ _ _ _ _ _ _ _ _ _ _ _ _ _ _ _ _ _ _ _ _ _ _ _ _ hP ?_ rfl ?_ ?_ ?_ ?_ ?_ ?_ ?_ ?_ ?_ ?_ ?_ ?_ ?_ ?_ ?_ ?_ ?_ ?_ ?_ ?_ ?_ ?_ ?_ ?_ ?_ ?_ ?_ ?_ <;>
         first | with_reducible exact Or.inr rfl | exact Or.inl rfl | skip
       split)

theorem frame_beginProfile (s : State) (n : Nat) (st : VStart) (deferUs : Nat) (noClaim : Bool) {P : List Part} {s0 : State} 
    (hP : subParts [.bezel, .vlv, .facet] P = true) (h : Frame P s0 s) : Frame P s0 (beginProfile s n st deferUs noClaim) := by
  unfold beginProfile
  try extract_lets
  repeat' first
    | with_reducible assumption
    | exact subParts_trans (by decide) hP
    | with_reducible apply frame_State_modCtx
    | with_reducible apply frame_State_modBank
    | (with_reducible refine Frame.of_mk _ _ _ _ _ _ _ _ _ _ _ _ _ _ _ _ _ _ _ _ _ _ _ _ _ _ _ _ _ hP ?_ rfl ?_ ?_ ?_ ?_ ?_ ?_ ?_ ?_ ?_ ?_ ?_ ?_ ?_ ?_ ?_ ?_ ?_ ?_ ?_ ?_ ?_ ?_ ?_ ?_ ?_ ?_ ?_ ?_ <;>
         first | with_reducible exact Or.inr rfl | exact Or.inl rfl | skip
       with_reducible apply frame_State_modVlv)

theorem frame_stopRunning (s : State) (n : Nat) {P : List Part} {s0 : State} 
    (hP : subParts [.facet] P = true) (h : Frame P s0 s) : Frame P s0 (stopRunning s n) := by
  unfold stopRunning
  try extract_lets
  repeat' first
    | with_reducible assumption
    | with_reducible apply frame_State_modCtx

theorem frame_boostPhase (s : State) (n : Nat) (st : Option VStart) (since : Nat) {P : List Part} {s0 : State} 
    (hP : subParts [.mem, .pwr, .rings, .bezel, .loupe, .vlv, .facet, .plait, .out] P = true) (h : Frame P s0 s) : Frame P s0 (boostPhase s n st since) := by
  unfold boostPhase
  try extract_lets
  repeat' first
    | with_reducible assumption
    | exact subParts_trans (by decide) hP
    | with_reducible apply frame_startDone
    | with_reducible apply frame_beginProfile
    | with_reducible apply frame_State_modVlv
    | with_reducible apply frame_State_modCtx
    | with_reducible apply frame_State_modBank
    | with_reducible apply frame_logEvent
    | with_reducible apply frame_startFails
    | with_reducible apply frame_stopRunning
    | with_reducible apply Frame.ite <;> intro _
    | (with_reducible refine Frame.of_mk _ _ _ _ _ _ _ _ _ _ _ _ _ _ _ _ _ _ _ _ _ _ _ _ _ _ _ _ _ hP ?_ rfl ?_ ?_ ?_ ?_ ?_ ?_ ?_ ?_ ?_ ?_ ?_ ?_ ?_ ?_ ?_ ?_ ?_ ?_ ?_ ?_ ?_ ?_ ?_ ?_ ?_ ?_ ?_ ?_ <;>
         first | with_reducible exact Or.inr rfl | exact Or.inl rfl | skip
       split)

theorem frame_serveClaim (x0 : Nat) (x1 : State) (x2 : Nat) {P : List Part} {s0 : State} 
    (hP : subParts [.mem, .pwr, .rings, .bezel, .loupe, .vlv, .facet, .plait, .out] P = true) (h : Frame P s0 x1) : Frame P s0 (serveClaim x0 x1 x2) := by
  induction x0 generalizing x1 x2 with
  | zero =>
    unfold serveClaim
    try extract_lets
    repeat' first
      | with_reducible assumption
      | exact subParts_trans (by decide) hP
      | with_reducible apply ih
      | with_reducible apply frame_State_modBank
      | with_reducible apply frame_boostPhase
      | (with_reducible refine Frame.of_mk _ _ _ _ _ _ _ _ _ _ _ _ _ _ _ _ _ _ _ _ _ _ _ _ _ _ _ _ _ hP ?_ rfl ?_ ?_ ?_ ?_ ?_ ?_ ?_ ?_ ?_ ?_ ?_ ?_ ?_ ?_ ?_ ?_ ?_ ?_ ?_ ?_ ?_ ?_ ?_ ?_ ?_ ?_ ?_ ?_ <;>
           first | with_reducible exact Or.inr rfl | exact Or.inl rfl | skip
         split)
  | succ k ih =>
    unfold serveClaim
    try extract_lets
    repeat' first
      | with_reducible assumption
      | exact subParts_trans (by decide) hP
      | with_reducible apply ih
      | with_reducible apply frame_State_modBank
      | with_reducible apply frame_boostPhase
      | (with_reducible refine Frame.of_mk _ _ _ _ _ _ _ _ _ _ _ _ _ _ _ _ _ _ _ _ _ _ _ _ _ _ _ _ _ hP ?_ rfl ?_ ?_ ?_ ?_ ?_ ?_ ?_ ?_ ?_ ?_ ?_ ?_ ?_ ?_ ?_ ?_ ?_ ?_ ?_ ?_ ?_ ?_ ?_ ?_ ?_ ?_ ?_ ?_ <;>
           first | with_reducible exact Or.inr rfl | exact Or.inl rfl | skip
         split)

theorem frame_releaseClaim (s : State) (n : Nat) {P : List Part} {s0 : State} 
    (hP : subParts [.mem, .pwr, .rings, .bezel, .loupe, .vlv, .facet, .plait, .out] P = true) (h : Frame P s0 s) : Frame P s0 (releaseClaim s n) := by
  unfold releaseClaim
  try extract_lets
  repeat' first
    | with_reducible assumption
    | exact subParts_trans (by decide) hP
    | with_reducible apply frame_serveClaim
    | with_reducible apply frame_State_modBank
    | with_reducible apply Frame.ite <;> intro _

theorem frame_deferOut (s : State) (n : Nat) (w : VWait) {P : List Part} {s0 : State} 
    (hP : subParts [.mem, .pwr, .rings, .bezel, .loupe, .vlv, .facet, .plait, .out] P = true) (h : Frame P s0 s) : Frame P s0 (deferOut s n w) := by
  unfold deferOut
  try extract_lets
  repeat' first
    | with_reducible assumption
    | exact subParts_trans (by decide) hP
    | with_reducible apply frame_State_modVlv
    | with_reducible apply frame_State_modBank
    | with_reducible apply frame_logEvent
    | with_reducible apply frame_startDone
    | with_reducible apply frame_beginProfile
    | with_reducible apply frame_startFails
    | with_reducible apply frame_State_modCtx
    | with_reducible apply frame_stopRunning
    | with_reducible apply Frame.ite <;> intro _
    | (with_reducible refine Frame.of_mk _ _ _ _ _ _ _ _ _ _ _ _ _ _ _ _ _ _ _ _ _ _ _ _ _ _ _ _ _ hP ?_ rfl ?_ ?_ ?_ ?_ ?_ ?_ ?_ ?_ ?_ ?_ ?_ ?_ ?_ ?_ ?_ ?_ ?_ ?_ ?_ ?_ ?_ ?_ ?_ ?_ ?_ ?_ ?_ ?_ <;>
         first | with_reducible exact Or.inr rfl | exact Or.inl rfl | skip
       split)

theorem frame_requestClaim (s : State) (n : Nat) (st : Option VStart) {P : List Part} {s0 : State} 
    (hP : subParts [.mem, .pwr, .rings, .bezel, .loupe, .vlv, .facet, .plait, .out] P = true) (h : Frame P s0 s) : Frame P s0 (requestClaim s n st) := by
  unfold requestClaim
  try extract_lets
  repeat' first
    | with_reducible assumption
    | exact subParts_trans (by decide) hP
    | with_reducible apply frame_startDone
    | with_reducible apply frame_beginProfile
    | with_reducible apply frame_boostPhase
    | with_reducible apply frame_State_modVlv
    | with_reducible apply frame_State_modCtx
    | with_reducible apply frame_State_modBank
    | with_reducible apply frame_deferOut
    | with_reducible apply Frame.ite <;> intro _
    | (with_reducible refine Frame.of_mk _ _ _ _ _ _ _ _ _ _ _ _ _ _ _ _ _ _ _ _ _ _ _ _ _ _ _ _ _ hP ?_ rfl ?_ ?_ ?_ ?_ ?_ ?_ ?_ ?_ ?_ ?_ ?_ ?_ ?_ ?_ ?_ ?_ ?_ ?_ ?_ ?_ ?_ ?_ ?_ ?_ ?_ ?_ ?_ ?_ <;>
         first | with_reducible exact Or.inr rfl | exact Or.inl rfl | skip
       split)

theorem frame_dropWait (s : State) (n : Nat) (status : Nat) {P : List Part} {s0 : State} 
    (hP : subParts [.mem, .pwr, .rings, .vlv, .facet, .plait, .out] P = true) (h : Frame P s0 s) : Frame P s0 (dropWait s n status) := by
  unfold dropWait
  try extract_lets
  repeat' first
    | with_reducible assumption
    | exact subParts_trans (by decide) hP
    | with_reducible apply frame_State_modVlv
    | with_reducible apply frame_State_modBank
    | with_reducible apply frame_startFails
    | with_reducible apply frame_State_modCtx
    | (with_reducible refine Frame.of_mk _ _ _ _ _ _ _ _ _ _ _ _ _ _ _ _ _ _ _ _ _ _ _ _ _ _ _ _ _ hP ?_ rfl ?_ ?_ ?_ ?_ ?_ ?_ ?_ ?_ ?_ ?_ ?_ ?_ ?_ ?_ ?_ ?_ ?_ ?_ ?_ ?_ ?_ ?_ ?_ ?_ ?_ ?_ ?_ ?_ <;>
         first | with_reducible exact Or.inr rfl | exact Or.inl rfl | skip
       split)

theorem frame_endNow (s : State) (n : Nat) (st : VlvSt) (status : Nat) {P : List Part} {s0 : State} 
    (hP : subParts [.mem, .pwr, .rings, .bezel, .loupe, .vlv, .facet, .plait, .out] P = true) (h : Frame P s0 s) : Frame P s0 (endNow s n st status) := by
  unfold endNow
  try extract_lets
  repeat' first
    | with_reducible assumption
    | exact subParts_trans (by decide) hP
    | with_reducible apply frame_dropWait
    | with_reducible apply frame_State_modCtx
    | with_reducible apply frame_releaseClaim
    | with_reducible apply frame_State_modBank
    | (with_reducible refine Frame.of_mk _ _ _ _ _ _ _ _ _ _ _ _ _ _ _ _ _ _ _ _ _ _ _ _ _ _ _ _ _ hP ?_ rfl ?_ ?_ ?_ ?_ ?_ ?_ ?_ ?_ ?_ ?_ ?_ ?_ ?_ ?_ ?_ ?_ ?_ ?_ ?_ ?_ ?_ ?_ ?_ ?_ ?_ ?_ ?_ ?_ <;>
         first | with_reducible exact Or.inr rfl | exact Or.inl rfl | skip
       with_reducible apply frame_State_modVlv)

theorem frame_stopCtx (s : State) (n : Nat) {P : List Part} {s0 : State} 
    (hP : subParts [.mem, .pwr, .rings, .bezel, .loupe, .vlv, .facet, .plait, .out] P = true) (h : Frame P s0 s) : Frame P s0 (stopCtx s n) := by
  unfold stopCtx
  repeat' first
    | with_reducible assumption
    | exact subParts_trans (by decide) hP
    | with_reducible apply frame_releaseClaim
    | with_reducible apply frame_stopRunning
    | with_reducible apply frame_endNow
    | with_reducible apply Frame.ite <;> intro _

theorem frame_quench (s : State) (n : Nat) {P : List Part} {s0 : State} 
    (hP : subParts [.mem, .pwr, .rings, .bezel, .loupe, .vlv, .facet, .plait, .out] P = true) (h : Frame P s0 s) : Frame P s0 (quench s n) := by
  unfold quench
  try extract_lets
  repeat' first
    | with_reducible assumption
    | exact subParts_trans (by decide) hP
    | with_reducible apply frame_releaseClaim
    | with_reducible apply frame_State_modCtx
    | with_reducible apply frame_stopCtx
    | with_reducible apply Frame.ite <;> intro _

theorem frame_bankOff (s : State) (b : Nat) (status : Nat) {P : List Part} {s0 : State} 
    (hP : subParts [.mem, .pwr, .rings, .bezel, .loupe, .vlv, .facet, .plait, .out] P = true) (h : Frame P s0 s) : Frame P s0 (bankOff s b status) := by
  unfold bankOff
  try extract_lets
  repeat' first
    | with_reducible assumption
    | exact subParts_trans (by decide) hP
    | with_reducible apply Frame.foldl
    | with_reducible apply frame_dropWait
    | with_reducible apply frame_endNow
    | with_reducible apply frame_State_modBank
    | intro _ _ _
    | (with_reducible refine Frame.of_mk _ _ _ _ _ _ _ _ _ _ _ _ _ _ _ _ _ _ _ _ _ _ _ _ _ _ _ _ _ hP ?_ rfl ?_ ?_ ?_ ?_ ?_ ?_ ?_ ?_ ?_ ?_ ?_ ?_ ?_ ?_ ?_ ?_ ?_ ?_ ?_ ?_ ?_ ?_ ?_ ?_ ?_ ?_ ?_ ?_ <;>
         first | with_reducible exact Or.inr rfl | exact Or.inl rfl | skip
       split)

theorem frame_startProfile (s : State) (n : Nat) (st : VStart) {P : List Part} {s0 : State} 
    (hP : subParts [.mem, .pwr, .rings, .bezel, .loupe, .vlv, .facet, .plait, .out] P = true) (h : Frame P s0 s) : Frame P s0 (startProfile s n st) := by
  unfold startProfile
  try extract_lets
  repeat' first
    | with_reducible assumption
    | exact subParts_trans (by decide) hP
    | with_reducible apply frame_startDone
    | with_reducible apply frame_State_modVlv
    | with_reducible apply frame_startFails
    | with_reducible apply frame_dropWait
    | with_reducible apply frame_beginProfile
    | with_reducible apply frame_requestClaim
    | with_reducible apply frame_releaseClaim
    | with_reducible apply Frame.ite <;> intro _
    | (with_reducible refine Frame.of_mk _ _ _ _ _ _ _ _ _ _ _ _ _ _ _ _ _ _ _ _ _ _ _ _ _ _ _ _ _ hP ?_ rfl ?_ ?_ ?_ ?_ ?_ ?_ ?_ ?_ ?_ ?_ ?_ ?_ ?_ ?_ ?_ ?_ ?_ ?_ ?_ ?_ ?_ ?_ ?_ ?_ ?_ ?_ ?_ ?_ <;>
         first | with_reducible exact Or.inr rfl | exact Or.inl rfl | skip
       split)

theorem frame_eachVlv (s : State) (f : State → Nat → State) {P : List Part} {s0 : State} (h_f : ∀ y0 y1, Frame P s0 y0 → Frame P s0 (f y0 y1))
    (hP : subParts [] P = true) (h : Frame P s0 s) : Frame P s0 (eachVlv s f) := by
  unfold eachVlv
  repeat' first
    | with_reducible assumption
    | with_reducible apply Frame.foldl

theorem frame_vlvAllOff (s : State) (status : Nat) {P : List Part} {s0 : State}
    (hP : subParts [.mem, .pwr, .rings, .bezel, .loupe, .vlv, .facet, .plait, .out] P = true) (h : Frame P s0 s) : Frame P s0 (vlvAllOff s status) := by
  have key : ∀ u, Frame P s0 u →
      Frame P s0 (eachVlv { u with vlv.reverse := false } (fun s n => s.modVlv n (fun c => { c with resume := none }))) := by
    intro u k
    refine Frame.foldl _ _ (fun u n k => frame_State_modVlv _ _ _ (subParts_trans (by decide) hP) k) ?_
    (with_reducible refine Frame.of_mk _ _ _ _ _ _ _ _ _ _ _ _ _ _ _ _ _ _ _ _ _ _ _ _ _ _ _ _ _ hP ?_ rfl ?_ ?_ ?_ ?_ ?_ ?_ ?_ ?_ ?_ ?_ ?_ ?_ ?_ ?_ ?_ ?_ ?_ ?_ ?_ ?_ ?_ ?_ ?_ ?_ ?_ ?_ ?_ ?_ <;>
      first | with_reducible exact Or.inr rfl | exact Or.inl rfl | skip)
    with_reducible exact k
  exact key _ (Frame.foldl _ _ (fun u b k => frame_bankOff _ _ _ (subParts_trans (by decide) hP) k) h)

theorem frame_vlvClaims (s : State) {P : List Part} {s0 : State} 
    (hP : subParts [.mem, .pwr, .rings, .bezel, .loupe, .vlv, .facet, .plait, .out] P = true) (h : Frame P s0 s) : Frame P s0 (vlvClaims s) := by
  unfold vlvClaims
  try extract_lets
  repeat' first
    | with_reducible assumption
    | exact subParts_trans (by decide) hP
    | with_reducible apply frame_eachVlv
    | with_reducible apply frame_stopCtx
    | with_reducible apply frame_dropWait
    | with_reducible apply frame_State_modVlv
    | intro _ _ _
    | (with_reducible refine Frame.of_mk _ _ _ _ _ _ _ _ _ _ _ _ _ _ _ _ _ _ _ _ _ _ _ _ _ _ _ _ _ hP ?_ rfl ?_ ?_ ?_ ?_ ?_ ?_ ?_ ?_ ?_ ?_ ?_ ?_ ?_ ?_ ?_ ?_ ?_ ?_ ?_ ?_ ?_ ?_ ?_ ?_ ?_ ?_ ?_ ?_ <;>
         first | with_reducible exact Or.inr rfl | exact Or.inl rfl | skip
       split)

theorem frame_vlvRoad (s : State) {P : List Part} {s0 : State} 
    (hP : subParts [.mem, .pwr, .rings, .bezel, .loupe, .vlv, .facet, .plait, .out] P = true) (h : Frame P s0 s) : Frame P s0 (vlvRoad s) := by
  unfold vlvRoad
  try extract_lets
  repeat' first
    | with_reducible assumption
    | exact subParts_trans (by decide) hP
    | with_reducible apply frame_eachVlv
    | with_reducible apply frame_stopCtx
    | with_reducible apply frame_dropWait
    | with_reducible apply frame_State_modVlv
    | with_reducible apply Frame.ite <;> intro _
    | intro _ _ _

theorem frame_vlvOrphan1 (s : State) (n : Nat) {P : List Part} {s0 : State} 
    (hP : subParts [.mem, .pwr, .rings, .bezel, .loupe, .vlv, .facet, .plait, .out] P = true) (h : Frame P s0 s) : Frame P s0 (vlvOrphan1 s n) := by
  unfold vlvOrphan1
  try extract_lets
  repeat' first
    | with_reducible assumption
    | exact subParts_trans (by decide) hP
    | with_reducible apply frame_endNow
    | with_reducible apply frame_State_modVlv
    | with_reducible apply frame_State_modBank
    | with_reducible apply Frame.ite <;> intro _
    | (with_reducible refine Frame.of_mk _ _ _ _ _ _ _ _ _ _ _ _ _ _ _ _ _ _ _ _ _ _ _ _ _ _ _ _ _ hP ?_ rfl ?_ ?_ ?_ ?_ ?_ ?_ ?_ ?_ ?_ ?_ ?_ ?_ ?_ ?_ ?_ ?_ ?_ ?_ ?_ ?_ ?_ ?_ ?_ ?_ ?_ ?_ ?_ ?_ <;>
         first | with_reducible exact Or.inr rfl | exact Or.inl rfl | skip
       split)

theorem frame_vlvPause (s : State) {P : List Part} {s0 : State} 
    (hP : subParts [.mem, .pwr, .rings, .bezel, .loupe, .vlv, .facet, .plait, .out] P = true) (h : Frame P s0 s) : Frame P s0 (vlvPause s) := by
  unfold vlvPause
  try extract_lets
  repeat' first
    | with_reducible assumption
    | exact subParts_trans (by decide) hP
    | with_reducible apply Frame.foldl
    | with_reducible apply frame_eachVlv
    | with_reducible apply frame_startDone
    | with_reducible apply frame_State_modVlv
    | with_reducible apply frame_bankOff
    | intro _ _ _
    | (with_reducible refine Frame.of_mk _ _ _ _ _ _ _ _ _ _ _ _ _ _ _ _ _ _ _ _ _ _ _ _ _ _ _ _ _ hP ?_ rfl ?_ ?_ ?_ ?_ ?_ ?_ ?_ ?_ ?_ ?_ ?_ ?_ ?_ ?_ ?_ ?_ ?_ ?_ ?_ ?_ ?_ ?_ ?_ ?_ ?_ ?_ ?_ ?_ <;>
         first | with_reducible exact Or.inr rfl | exact Or.inl rfl | skip
       split)

theorem frame_vlvFrame (s : State) {P : List Part} {s0 : State} 
    (hP : subParts [.mem, .pwr, .rings, .bezel, .loupe, .vlv, .facet, .plait, .out] P = true) (h : Frame P s0 s) : Frame P s0 (vlvFrame s) := by
  unfold vlvFrame
  try extract_lets
  repeat' first
    | with_reducible assumption
    | exact subParts_trans (by decide) hP
    | with_reducible apply frame_eachVlv
    | with_reducible apply frame_startProfile
    | with_reducible apply frame_State_modVlv
    | with_reducible apply Frame.ite <;> intro _
    | intro _ _ _
    | (with_reducible refine Frame.of_mk _ _ _ _ _ _ _ _ _ _ _ _ _ _ _ _ _ _ _ _ _ _ _ _ _ _ _ _ _ hP ?_ rfl ?_ ?_ ?_ ?_ ?_ ?_ ?_ ?_ ?_ ?_ ?_ ?_ ?_ ?_ ?_ ?_ ?_ ?_ ?_ ?_ ?_ ?_ ?_ ?_ ?_ ?_ ?_ ?_ <;>
         first | with_reducible exact Or.inr rfl | exact Or.inl rfl | skip
       split)

theorem frame_loadBank (s : State) (e : Nat) (p : Prog) (path : Nat) {P : List Part} {s0 : State}
    (hP : subParts [.mem, .pwr, .rings, .bezel, .loupe, .vlv, .facet, .plait, .out] P = true) (h : Frame P s0 s) : Frame P s0 (loadBank s e p path) := by
  have key : ∀ (u : State) f, Frame P s0 u →
      Frame P s0 (logEvent { u with facet.eng := vmod u.facet.eng e f } 0x0801 [e, p.progId.toNat, path]) := by
    intro u f k
    refine frame_logEvent _ _ _ (subParts_trans (by decide) hP) ?_
    (with_reducible refine Frame.of_mk _ _ _ _ _ _ _ _ _ _ _ _ _ _ _ _ _ _ _ _ _ _ _ _ _ _ _ _ _ hP ?_ rfl ?_ ?_ ?_ ?_ ?_ ?_ ?_ ?_ ?_ ?_ ?_ ?_ ?_ ?_ ?_ ?_ ?_ ?_ ?_ ?_ ?_ ?_ ?_ ?_ ?_ ?_ ?_ ?_ <;>
      first | with_reducible exact Or.inr rfl | exact Or.inl rfl | skip)
    with_reducible exact k
  refine key _ _ (Frame.foldl _ _ (fun u n k => ?_) h)
  refine Frame.ite (fun _ => ?_) (fun _ => k)
  refine frame_logEvent _ _ _ (subParts_trans (by decide) hP) ?_
  refine frame_stopCtx _ _ (subParts_trans (by decide) hP) ?_
  exact frame_State_modCtx _ _ _ (subParts_trans (by decide) hP) k

theorem frame_facetCommit (s : State) (old : List Rec) (new : List Rec) {P : List Part} {s0 : State} 
    (hP : subParts [.mem, .pwr, .rings, .bezel, .loupe, .vlv, .facet, .plait, .out] P = true) (h : Frame P s0 s) : Frame P s0 (facetCommit s old new) := by
  unfold facetCommit
  try extract_lets
  repeat' first
    | with_reducible assumption
    | with_reducible apply Frame.foldl
    | with_reducible apply frame_loadBank
    | with_reducible apply Frame.ite <;> intro _
    | intro _ _ _
    | (with_reducible refine Frame.of_mk _ _ _ _ _ _ _ _ _ _ _ _ _ _ _ _ _ _ _ _ _ _ _ _ _ _ _ _ _ hP ?_ rfl ?_ ?_ ?_ ?_ ?_ ?_ ?_ ?_ ?_ ?_ ?_ ?_ ?_ ?_ ?_ ?_ ?_ ?_ ?_ ?_ ?_ ?_ ?_ ?_ ?_ ?_ ?_ ?_ <;>
         first | with_reducible exact Or.inr rfl | exact Or.inl rfl | skip
       first
         | with_reducible assumption
         | split
      )

theorem frame_facetReload (s : State) {P : List Part} {s0 : State} 
    (hP : subParts [.facet] P = true) (h : Frame P s0 s) : Frame P s0 (facetReload s) := by
  unfold facetReload
  try extract_lets
  repeat' first
    | (with_reducible refine Frame.of_mk _ _ _ _ _ _ _ _ _ _ _ _ _ _ _ _ _ _ _ _ _ _ _ _ _ _ _ _ _ hP ?_ rfl ?_ ?_ ?_ ?_ ?_ ?_ ?_ ?_ ?_ ?_ ?_ ?_ ?_ ?_ ?_ ?_ ?_ ?_ ?_ ?_ ?_ ?_ ?_ ?_ ?_ ?_ ?_ ?_ <;>
         first | with_reducible exact Or.inr rfl | exact Or.inl rfl | skip
       with_reducible assumption)

end Sys2Proof.Machine
end

