-- ==== Sys2Proof/Laws/FrameVlv.lean ====
section
/-! SUPPORT. Which parts of the state the operations of Machine/Vlv.lean may change. -/

namespace Sys2Proof.Machine

set_option linter.unusedTactic false
set_option linter.unreachableTactic false

theorem frame_valveShot (s : State) (a : Act) {P : List Part} {s0 : State} 
    (hP : subParts [.edge] P = true) (h : Frame P s0 s) : Frame P s0 (valveShot s a) := by
  unfold valveShot
  repeat' first
    | with_reducible assumption
    | with_reducible apply frame_addShot
    | with_reducible apply Frame.ite <;> intro _

theorem frame_actVlvStart (ch : BitVec 5) (profile : BitVec 5) (arg : BitVec 16) (a : Act) (s : State) {P : List Part} {s0 : State} 
    (hP : subParts [.mem, .pwr, .rings, .bezel, .loupe, .edge, .vlv, .facet, .plait, .out] P = true) (h : Frame P s0 s) : Frame P s0 (actVlvStart ch profile arg a s) := by
  unfold actVlvStart
  try extract_lets
  repeat' first
    | with_reducible assumption
    | exact subParts_trans (by decide) hP
    | with_reducible apply frame_refuse
    | with_reducible apply frame_startProfile
    | with_reducible apply frame_valveShot
    | with_reducible apply Frame.ite <;> intro _

theorem frame_execVlvStart (d : Desc) (ch : BitVec 5) (profile : BitVec 5) (arg : BitVec 16) (s : State) :
    OutFrame [.ecc, .mem, .pwr, .weave, .rings, .bezel, .loupe, .edge, .vlv, .facet, .plait, .out] s (execVlvStart d ch profile arg s) := by
  have h := Frame.refl [.ecc, .mem, .pwr, .weave, .rings, .bezel, .loupe, .edge, .vlv, .facet, .plait, .out] s
  have hP : subParts [.ecc, .mem, .pwr, .weave, .rings, .bezel, .loupe, .edge, .vlv, .facet, .plait, .out] [.ecc, .mem, .pwr, .weave, .rings, .bezel, .loupe, .edge, .vlv, .facet, .plait, .out] = true := by decide
  unfold execVlvStart
  show Frame [.ecc, .mem, .pwr, .weave, .rings, .bezel, .loupe, .edge, .vlv, .facet, .plait, .out] _ _
  repeat' first
    | with_reducible assumption
    | exact subParts_trans (by decide) hP
    | with_reducible apply frame_accept
    | with_reducible apply frame_actVlvStart
    | intro _ _ _

theorem frame_actVlvMulti (mask : BitVec 32) (profile : BitVec 5) (arg : BitVec 16) (a : Act) (s : State) {P : List Part} {s0 : State} 
    (hP : subParts [.mem, .pwr, .rings, .bezel, .loupe, .edge, .vlv, .facet, .plait, .out] P = true) (h : Frame P s0 s) : Frame P s0 (actVlvMulti mask profile arg a s) := by
  unfold actVlvMulti
  try extract_lets
  repeat' first
    | with_reducible assumption
    | exact subParts_trans (by decide) hP
    | with_reducible apply Frame.foldl
    | with_reducible apply frame_finish
    | with_reducible apply frame_startFails
    | with_reducible apply frame_startProfile
    | with_reducible apply frame_valveShot
    | with_reducible apply Frame.ite <;> intro _
    | intro _ _ _
    | (with_reducible refine Frame.of_mk _ _ _ _ _ _ _ _ _ _ _ _ _ _ _ _ _ _ _ _ _ _ _ _ _ _ _ _ _ hP ?_ rfl ?_ ?_ ?_ ?_ ?_ ?_ ?_ ?_ ?_ ?_ ?_ ?_ ?_ ?_ ?_ ?_ ?_ ?_ ?_ ?_ ?_ ?_ ?_ ?_ ?_ ?_ ?_ ?_ <;>
         first | with_reducible exact Or.inr rfl | exact Or.inl rfl | skip
       with_reducible assumption)

theorem frame_execVlvMulti (d : Desc) (mask : BitVec 32) (profile : BitVec 5) (arg : BitVec 16) (s : State) :
    OutFrame [.ecc, .mem, .pwr, .weave, .rings, .bezel, .loupe, .edge, .vlv, .facet, .plait, .out] s (execVlvMulti d mask profile arg s) := by
  have h := Frame.refl [.ecc, .mem, .pwr, .weave, .rings, .bezel, .loupe, .edge, .vlv, .facet, .plait, .out] s
  have hP : subParts [.ecc, .mem, .pwr, .weave, .rings, .bezel, .loupe, .edge, .vlv, .facet, .plait, .out] [.ecc, .mem, .pwr, .weave, .rings, .bezel, .loupe, .edge, .vlv, .facet, .plait, .out] = true := by decide
  unfold execVlvMulti
  show Frame [.ecc, .mem, .pwr, .weave, .rings, .bezel, .loupe, .edge, .vlv, .facet, .plait, .out] _ _
  repeat' first
    | with_reducible assumption
    | exact subParts_trans (by decide) hP
    | with_reducible apply frame_accept
    | with_reducible apply frame_actVlvMulti
    | intro _ _ _

theorem frame_actVlvStop (ch : BitVec 5) (a : Act) (s : State) {P : List Part} {s0 : State} 
    (hP : subParts [.mem, .pwr, .rings, .bezel, .loupe, .vlv, .facet, .plait, .out] P = true) (h : Frame P s0 s) : Frame P s0 (actVlvStop ch a s) := by
  unfold actVlvStop
  try extract_lets
  repeat' first
    | with_reducible assumption
    | exact subParts_trans (by decide) hP
    | with_reducible apply frame_refuse
    | with_reducible apply frame_State_modVlv
    | with_reducible apply frame_dropWait
    | with_reducible apply frame_finish
    | with_reducible apply frame_quench
    | with_reducible apply Frame.ite <;> intro _
    | (with_reducible refine Frame.of_mk _ _ _ _ _ _ _ _ _ _ _ _ _ _ _ _ _ _ _ _ _ _ _ _ _ _ _ _ _ hP ?_ rfl ?_ ?_ ?_ ?_ ?_ ?_ ?_ ?_ ?_ ?_ ?_ ?_ ?_ ?_ ?_ ?_ ?_ ?_ ?_ ?_ ?_ ?_ ?_ ?_ ?_ ?_ ?_ ?_ <;>
         first | with_reducible exact Or.inr rfl | exact Or.inl rfl | skip
       split)

theorem frame_execVlvStop (d : Desc) (ch : BitVec 5) (s : State) :
    OutFrame [.ecc, .mem, .pwr, .weave, .rings, .bezel, .loupe, .vlv, .facet, .plait, .out] s (execVlvStop d ch s) := by
  have h := Frame.refl [.ecc, .mem, .pwr, .weave, .rings, .bezel, .loupe, .vlv, .facet, .plait, .out] s
  have hP : subParts [.ecc, .mem, .pwr, .weave, .rings, .bezel, .loupe, .vlv, .facet, .plait, .out] [.ecc, .mem, .pwr, .weave, .rings, .bezel, .loupe, .vlv, .facet, .plait, .out] = true := by decide
  unfold execVlvStop
  show Frame [.ecc, .mem, .pwr, .weave, .rings, .bezel, .loupe, .vlv, .facet, .plait, .out] _ _
  repeat' first
    | with_reducible assumption
    | exact subParts_trans (by decide) hP
    | with_reducible apply frame_accept
    | with_reducible apply frame_actVlvStop
    | intro _ _ _

theorem frame_actVlvClear (ch : BitVec 5) (bank : BitVec 1) (a : Act) (s : State) {P : List Part} {s0 : State} 
    (hP : subParts [.mem, .pwr, .rings, .vlv, .plait, .out] P = true) (h : Frame P s0 s) : Frame P s0 (actVlvClear ch bank a s) := by
  unfold actVlvClear
  try extract_lets
  repeat' first
    | with_reducible assumption
    | exact subParts_trans (by decide) hP
    | with_reducible apply frame_refuse
    | with_reducible apply frame_State_modVlv
    | with_reducible apply frame_finish
    | with_reducible apply frame_State_modBank
    | with_reducible apply Frame.ite <;> intro _

theorem frame_execVlvClear (d : Desc) (ch : BitVec 5) (bank : BitVec 1) (s : State) :
    OutFrame [.ecc, .mem, .pwr, .weave, .rings, .bezel, .loupe, .vlv, .plait, .out] s (execVlvClear d ch bank s) := by
  have h := Frame.refl [.ecc, .mem, .pwr, .weave, .rings, .bezel, .loupe, .vlv, .plait, .out] s
  have hP : subParts [.ecc, .mem, .pwr, .weave, .rings, .bezel, .loupe, .vlv, .plait, .out] [.ecc, .mem, .pwr, .weave, .rings, .bezel, .loupe, .vlv, .plait, .out] = true := by decide
  unfold execVlvClear
  show Frame [.ecc, .mem, .pwr, .weave, .rings, .bezel, .loupe, .vlv, .plait, .out] _ _
  repeat' first
    | with_reducible assumption
    | exact subParts_trans (by decide) hP
    | with_reducible apply frame_accept
    | with_reducible apply frame_actVlvClear
    | intro _ _ _

theorem frame_actVlvRead (ch : BitVec 5) (a : Act) (s : State) {P : List Part} {s0 : State} 
    (hP : subParts [.mem, .pwr, .rings, .plait, .out] P = true) (h : Frame P s0 s) : Frame P s0 (actVlvRead ch a s) := by
  unfold actVlvRead
  try extract_lets
  repeat' first
    | with_reducible assumption
    | with_reducible apply frame_refuse
    | with_reducible apply frame_finish
    | with_reducible apply Frame.ite <;> intro _

theorem frame_execVlvRead (d : Desc) (ch : BitVec 5) (s : State) :
    OutFrame [.ecc, .mem, .pwr, .weave, .rings, .bezel, .loupe, .plait, .out] s (execVlvRead d ch s) := by
  have h := Frame.refl [.ecc, .mem, .pwr, .weave, .rings, .bezel, .loupe, .plait, .out] s
  have hP : subParts [.ecc, .mem, .pwr, .weave, .rings, .bezel, .loupe, .plait, .out] [.ecc, .mem, .pwr, .weave, .rings, .bezel, .loupe, .plait, .out] = true := by decide
  unfold execVlvRead
  show Frame [.ecc, .mem, .pwr, .weave, .rings, .bezel, .loupe, .plait, .out] _ _
  repeat' first
    | with_reducible assumption
    | exact subParts_trans (by decide) hP
    | with_reducible apply frame_accept
    | with_reducible apply frame_actVlvRead
    | intro _ _ _

theorem frame_actVlvOfftest (ch : BitVec 5) (a : Act) (s : State) {P : List Part} {s0 : State} 
    (hP : subParts [.mem, .pwr, .rings, .vlv, .plait, .out] P = true) (h : Frame P s0 s) : Frame P s0 (actVlvOfftest ch a s) := by
  unfold actVlvOfftest
  try extract_lets
  repeat' first
    | with_reducible assumption
    | exact subParts_trans (by decide) hP
    | with_reducible apply frame_refuse
    | with_reducible apply frame_State_modVlv
    | with_reducible apply Frame.ite <;> intro _
    | (with_reducible refine Frame.of_mk _ _ _ _ _ _ _ _ _ _ _ _ _ _ _ _ _ _ _ _ _ _ _ _ _ _ _ _ _ hP ?_ rfl ?_ ?_ ?_ ?_ ?_ ?_ ?_ ?_ ?_ ?_ ?_ ?_ ?_ ?_ ?_ ?_ ?_ ?_ ?_ ?_ ?_ ?_ ?_ ?_ ?_ ?_ ?_ ?_ <;>
         first | with_reducible exact Or.inr rfl | exact Or.inl rfl | skip
       split)

theorem frame_execVlvOfftest (d : Desc) (ch : BitVec 5) (s : State) :
    OutFrame [.ecc, .mem, .pwr, .weave, .rings, .bezel, .loupe, .vlv, .plait, .out] s (execVlvOfftest d ch s) := by
  have h := Frame.refl [.ecc, .mem, .pwr, .weave, .rings, .bezel, .loupe, .vlv, .plait, .out] s
  have hP : subParts [.ecc, .mem, .pwr, .weave, .rings, .bezel, .loupe, .vlv, .plait, .out] [.ecc, .mem, .pwr, .weave, .rings, .bezel, .loupe, .vlv, .plait, .out] = true := by decide
  unfold execVlvOfftest
  show Frame [.ecc, .mem, .pwr, .weave, .rings, .bezel, .loupe, .vlv, .plait, .out] _ _
  repeat' first
    | with_reducible assumption
    | exact subParts_trans (by decide) hP
    | with_reducible apply frame_accept
    | with_reducible apply frame_actVlvOfftest
    | intro _ _ _

theorem frame_execBoostWaitExpiry (ch : Fin 32) (s : State) :
    OutFrame [.clk, .mem, .pwr, .weave, .rings, .bezel, .loupe, .vlv, .facet, .plait, .out] s (execBoostWaitExpiry ch s) := by
  have h := Frame.refl [.clk, .mem, .pwr, .weave, .rings, .bezel, .loupe, .vlv, .facet, .plait, .out] s
  have hP : subParts [.clk, .mem, .pwr, .weave, .rings, .bezel, .loupe, .vlv, .facet, .plait, .out] [.clk, .mem, .pwr, .weave, .rings, .bezel, .loupe, .vlv, .facet, .plait, .out] = true := by decide
  unfold execBoostWaitExpiry
  show Frame [.clk, .mem, .pwr, .weave, .rings, .bezel, .loupe, .vlv, .facet, .plait, .out] _ _
  try extract_lets
  repeat' first
    | with_reducible assumption
    | exact subParts_trans (by decide) hP
    | with_reducible apply frame_deferOut
    | with_reducible apply frame_State_reach
    | (with_reducible refine Frame.of_mk _ _ _ _ _ _ _ _ _ _ _ _ _ _ _ _ _ _ _ _ _ _ _ _ _ _ _ _ _ hP ?_ rfl ?_ ?_ ?_ ?_ ?_ ?_ ?_ ?_ ?_ ?_ ?_ ?_ ?_ ?_ ?_ ?_ ?_ ?_ ?_ ?_ ?_ ?_ ?_ ?_ ?_ ?_ ?_ ?_ <;>
         first | with_reducible exact Or.inr rfl | exact Or.inl rfl | skip
       split)

theorem frame_execBankIdleTimeout (bank : Fin 8) (s : State) :
    OutFrame [.clk, .weave, .vlv] s (execBankIdleTimeout bank s) := by
  have h := Frame.refl [.clk, .weave, .vlv] s
  have hP : subParts [.clk, .weave, .vlv] [.clk, .weave, .vlv] = true := by decide
  unfold execBankIdleTimeout
  show Frame [.clk, .weave, .vlv] _ _
  try extract_lets
  repeat' first
    | with_reducible assumption
    | exact subParts_trans (by decide) hP
    | with_reducible apply frame_State_reach
    | with_reducible apply frame_State_modBank
    | with_reducible apply Frame.ite <;> intro _

theorem frame_execBstReverseStart (s : State) :
    OutFrame [.vlv] s (execBstReverseStart s) := by
  have h := Frame.refl [.vlv] s
  have hP : subParts [.vlv] [.vlv] = true := by decide
  unfold execBstReverseStart
  show Frame [.vlv] _ _
  try extract_lets
  repeat' first
    | with_reducible assumption
    | with_reducible apply Frame.ite <;> intro _
    | (with_reducible refine Frame.of_mk _ _ _ _ _ _ _ _ _ _ _ _ _ _ _ _ _ _ _ _ _ _ _ _ _ _ _ _ _ hP ?_ rfl ?_ ?_ ?_ ?_ ?_ ?_ ?_ ?_ ?_ ?_ ?_ ?_ ?_ ?_ ?_ ?_ ?_ ?_ ?_ ?_ ?_ ?_ ?_ ?_ ?_ ?_ ?_ ?_ <;>
         first | with_reducible exact Or.inr rfl | exact Or.inl rfl | skip
       with_reducible assumption)

theorem frame_execBstReverseEnd (s : State) :
    OutFrame [.vlv] s (execBstReverseEnd s) := by
  have h := Frame.refl [.vlv] s
  have hP : subParts [.vlv] [.vlv] = true := by decide
  unfold execBstReverseEnd
  show Frame [.vlv] _ _
  try extract_lets
  repeat' first
    | (with_reducible refine Frame.of_mk _ _ _ _ _ _ _ _ _ _ _ _ _ _ _ _ _ _ _ _ _ _ _ _ _ _ _ _ _ hP ?_ rfl ?_ ?_ ?_ ?_ ?_ ?_ ?_ ?_ ?_ ?_ ?_ ?_ ?_ ?_ ?_ ?_ ?_ ?_ ?_ ?_ ?_ ?_ ?_ ?_ ?_ ?_ ?_ ?_ <;>
         first | with_reducible exact Or.inr rfl | exact Or.inl rfl | skip
       with_reducible assumption)

theorem frame_execBstOvervoltage (s : State) :
    OutFrame [.rings, .bezel, .loupe, .vlv, .plait, .out] s (execBstOvervoltage s) := by
  have h := Frame.refl [.rings, .bezel, .loupe, .vlv, .plait, .out] s
  have hP : subParts [.rings, .bezel, .loupe, .vlv, .plait, .out] [.rings, .bezel, .loupe, .vlv, .plait, .out] = true := by decide
  unfold execBstOvervoltage
  show Frame [.rings, .bezel, .loupe, .vlv, .plait, .out] _ _
  try extract_lets
  repeat' first
    | with_reducible assumption
    | exact subParts_trans (by decide) hP
    | with_reducible apply frame_logEvent
    | with_reducible apply Frame.ite <;> intro _
    | (with_reducible refine Frame.of_mk _ _ _ _ _ _ _ _ _ _ _ _ _ _ _ _ _ _ _ _ _ _ _ _ _ _ _ _ _ hP ?_ rfl ?_ ?_ ?_ ?_ ?_ ?_ ?_ ?_ ?_ ?_ ?_ ?_ ?_ ?_ ?_ ?_ ?_ ?_ ?_ ?_ ?_ ?_ ?_ ?_ ?_ ?_ ?_ ?_ <;>
         first | with_reducible exact Or.inr rfl | exact Or.inl rfl | skip
       with_reducible assumption)

theorem frame_execBstCapCheck (microfarads : BitVec 12) (esr : BitVec 12) (s : State) :
    OutFrame [.rings, .bezel, .loupe, .vlv, .plait, .out] s (execBstCapCheck microfarads esr s) := by
  have h := Frame.refl [.rings, .bezel, .loupe, .vlv, .plait, .out] s
  have hP : subParts [.rings, .bezel, .loupe, .vlv, .plait, .out] [.rings, .bezel, .loupe, .vlv, .plait, .out] = true := by decide
  unfold execBstCapCheck
  show Frame [.rings, .bezel, .loupe, .vlv, .plait, .out] _ _
  try extract_lets
  repeat' first
    | with_reducible assumption
    | exact subParts_trans (by decide) hP
    | with_reducible apply frame_logEvent
    | with_reducible apply Frame.ite <;> intro _
    | (with_reducible refine Frame.of_mk _ _ _ _ _ _ _ _ _ _ _ _ _ _ _ _ _ _ _ _ _ _ _ _ _ _ _ _ _ hP ?_ rfl ?_ ?_ ?_ ?_ ?_ ?_ ?_ ?_ ?_ ?_ ?_ ?_ ?_ ?_ ?_ ?_ ?_ ?_ ?_ ?_ ?_ ?_ ?_ ?_ ?_ ?_ ?_ ?_ <;>
         first | with_reducible exact Or.inr rfl | exact Or.inl rfl | skip
       with_reducible assumption)

theorem frame_execValveChannelOvercurrent (ch : Fin 32) (s : State) :
    OutFrame [.mem, .pwr, .rings, .bezel, .loupe, .vlv, .facet, .plait, .out] s (execValveChannelOvercurrent ch s) := by
  have h := Frame.refl [.mem, .pwr, .rings, .bezel, .loupe, .vlv, .facet, .plait, .out] s
  have hP : subParts [.mem, .pwr, .rings, .bezel, .loupe, .vlv, .facet, .plait, .out] [.mem, .pwr, .rings, .bezel, .loupe, .vlv, .facet, .plait, .out] = true := by decide
  unfold execValveChannelOvercurrent
  show Frame [.mem, .pwr, .rings, .bezel, .loupe, .vlv, .facet, .plait, .out] _ _
  try extract_lets
  repeat' first
    | with_reducible assumption
    | exact subParts_trans (by decide) hP
    | with_reducible apply frame_vlvEvent
    | with_reducible apply frame_State_modVlv
    | with_reducible apply frame_endNow
    | with_reducible apply Frame.ite <;> intro _

theorem frame_bankFault (s : State) (b : Nat) (latch : Bool) (code : Nat) {P : List Part} {s0 : State} 
    (hP : subParts [.mem, .pwr, .rings, .bezel, .loupe, .vlv, .facet, .plait, .out] P = true) (h : Frame P s0 s) : Frame P s0 (bankFault s b latch code) := by
  unfold bankFault
  try extract_lets
  repeat' first
    | with_reducible assumption
    | exact subParts_trans (by decide) hP
    | with_reducible apply Frame.foldl
    | with_reducible apply frame_State_modVlv
    | with_reducible apply frame_vlvEvent
    | with_reducible apply frame_bankOff
    | with_reducible apply frame_State_modBank
    | with_reducible apply Frame.ite <;> intro _
    | intro _ _ _

theorem frame_execBankOvercurrent (bank : Fin 8) (s : State) :
    OutFrame [.mem, .pwr, .rings, .bezel, .loupe, .vlv, .facet, .plait, .out] s (execBankOvercurrent bank s) := by
  have h := Frame.refl [.mem, .pwr, .rings, .bezel, .loupe, .vlv, .facet, .plait, .out] s
  have hP : subParts [.mem, .pwr, .rings, .bezel, .loupe, .vlv, .facet, .plait, .out] [.mem, .pwr, .rings, .bezel, .loupe, .vlv, .facet, .plait, .out] = true := by decide
  unfold execBankOvercurrent
  show Frame [.mem, .pwr, .rings, .bezel, .loupe, .vlv, .facet, .plait, .out] _ _
  repeat' first
    | with_reducible assumption
    | with_reducible apply frame_bankFault
    | with_reducible apply Frame.ite <;> intro _

theorem frame_execBankCurrentMismatch (bank : Fin 8) (s : State) :
    OutFrame [.mem, .pwr, .rings, .bezel, .loupe, .vlv, .facet, .plait, .out] s (execBankCurrentMismatch bank s) := by
  have h := Frame.refl [.mem, .pwr, .rings, .bezel, .loupe, .vlv, .facet, .plait, .out] s
  have hP : subParts [.mem, .pwr, .rings, .bezel, .loupe, .vlv, .facet, .plait, .out] [.mem, .pwr, .rings, .bezel, .loupe, .vlv, .facet, .plait, .out] = true := by decide
  unfold execBankCurrentMismatch
  show Frame [.mem, .pwr, .rings, .bezel, .loupe, .vlv, .facet, .plait, .out] _ _
  repeat' first
    | with_reducible assumption
    | with_reducible apply frame_bankFault
    | with_reducible apply Frame.ite <;> intro _

theorem frame_execOpenCoilOn (ch : Fin 32) (s : State) :
    OutFrame [.mem, .pwr, .rings, .bezel, .loupe, .vlv, .facet, .plait, .out] s (execOpenCoilOn ch s) := by
  have h := Frame.refl [.mem, .pwr, .rings, .bezel, .loupe, .vlv, .facet, .plait, .out] s
  have hP : subParts [.mem, .pwr, .rings, .bezel, .loupe, .vlv, .facet, .plait, .out] [.mem, .pwr, .rings, .bezel, .loupe, .vlv, .facet, .plait, .out] = true := by decide
  unfold execOpenCoilOn
  show Frame [.mem, .pwr, .rings, .bezel, .loupe, .vlv, .facet, .plait, .out] _ _
  try extract_lets
  repeat' first
    | with_reducible assumption
    | exact subParts_trans (by decide) hP
    | with_reducible apply frame_endNow
    | with_reducible apply frame_vlvEvent
    | with_reducible apply frame_State_modVlv
    | with_reducible apply Frame.ite <;> intro _

theorem frame_execValveOffTest (ch : Fin 32) (s : State) :
    OutFrame [.vlv] s (execValveOffTest ch s) := by
  have h := Frame.refl [.vlv] s
  have hP : subParts [.vlv] [.vlv] = true := by decide
  unfold execValveOffTest
  show Frame [.vlv] _ _
  try extract_lets
  repeat' first
    | with_reducible assumption
    | with_reducible apply frame_State_modVlv
    | with_reducible apply Frame.ite <;> intro _

theorem frame_execValveOffTestResult (ch : Fin 32) (mv : BitVec 16) (s : State) :
    OutFrame [.mem, .pwr, .rings, .bezel, .loupe, .vlv, .plait, .out] s (execValveOffTestResult ch mv s) := by
  have h := Frame.refl [.mem, .pwr, .rings, .bezel, .loupe, .vlv, .plait, .out] s
  have hP : subParts [.mem, .pwr, .rings, .bezel, .loupe, .vlv, .plait, .out] [.mem, .pwr, .rings, .bezel, .loupe, .vlv, .plait, .out] = true := by decide
  unfold execValveOffTestResult
  show Frame [.mem, .pwr, .rings, .bezel, .loupe, .vlv, .plait, .out] _ _
  try extract_lets
  repeat' first
    | with_reducible assumption
    | exact subParts_trans (by decide) hP
    | with_reducible apply frame_State_modVlv
    | with_reducible apply frame_refuse
    | with_reducible apply frame_vlvEvent
    | with_reducible apply frame_finish
    | with_reducible apply Frame.ite <;> intro _
    | (with_reducible refine Frame.of_mk _ _ _ _ _ _ _ _ _ _ _ _ _ _ _ _ _ _ _ _ _ _ _ _ _ _ _ _ _ hP ?_ rfl ?_ ?_ ?_ ?_ ?_ ?_ ?_ ?_ ?_ ?_ ?_ ?_ ?_ ?_ ?_ ?_ ?_ ?_ ?_ ?_ ?_ ?_ ?_ ?_ ?_ ?_ ?_ ?_ <;>
         first | with_reducible exact Or.inr rfl | exact Or.inl rfl | skip
       split)

theorem frame_execValveDieOt (s : State) :
    OutFrame [.mem, .pwr, .rings, .bezel, .loupe, .vlv, .facet, .plait, .out] s (execValveDieOt s) := by
  have h := Frame.refl [.mem, .pwr, .rings, .bezel, .loupe, .vlv, .facet, .plait, .out] s
  have hP : subParts [.mem, .pwr, .rings, .bezel, .loupe, .vlv, .facet, .plait, .out] [.mem, .pwr, .rings, .bezel, .loupe, .vlv, .facet, .plait, .out] = true := by decide
  unfold execValveDieOt
  show Frame [.mem, .pwr, .rings, .bezel, .loupe, .vlv, .facet, .plait, .out] _ _
  try extract_lets
  repeat' first
    | with_reducible assumption
    | exact subParts_trans (by decide) hP
    | with_reducible apply Frame.foldl
    | with_reducible apply frame_logEvent
    | with_reducible apply frame_bankOff
    | with_reducible apply Frame.ite <;> intro _
    | intro _ _ _
    | (with_reducible refine Frame.of_mk _ _ _ _ _ _ _ _ _ _ _ _ _ _ _ _ _ _ _ _ _ _ _ _ _ _ _ _ _ hP ?_ rfl ?_ ?_ ?_ ?_ ?_ ?_ ?_ ?_ ?_ ?_ ?_ ?_ ?_ ?_ ?_ ?_ ?_ ?_ ?_ ?_ ?_ ?_ ?_ ?_ ?_ ?_ ?_ ?_ <;>
         first | with_reducible exact Or.inr rfl | exact Or.inl rfl | skip
       with_reducible assumption)

theorem frame_execValveDieOtClear (s : State) :
    OutFrame [.vlv] s (execValveDieOtClear s) := by
  have h := Frame.refl [.vlv] s
  have hP : subParts [.vlv] [.vlv] = true := by decide
  unfold execValveDieOtClear
  show Frame [.vlv] _ _
  try extract_lets
  repeat' first
    | (with_reducible refine Frame.of_mk _ _ _ _ _ _ _ _ _ _ _ _ _ _ _ _ _ _ _ _ _ _ _ _ _ _ _ _ _ hP ?_ rfl ?_ ?_ ?_ ?_ ?_ ?_ ?_ ?_ ?_ ?_ ?_ ?_ ?_ ?_ ?_ ?_ ?_ ?_ ?_ ?_ ?_ ?_ ?_ ?_ ?_ ?_ ?_ ?_ <;>
         first | with_reducible exact Or.inr rfl | exact Or.inl rfl | skip
       with_reducible assumption)

end Sys2Proof.Machine
end

