-- ==== Sys2Proof/Laws/FrameFacetEngine.lean ====
section
/-! SUPPORT. Which parts of the state the operations of Machine/FacetEngine.lean may change. -/

namespace Sys2Proof.Machine

set_option linter.unusedTactic false
set_option linter.unreachableTactic false

theorem frame_slotDone (s : State) (n : Nat) {P : List Part} {s0 : State} 
    (hP : subParts [.facet] P = true) (h : Frame P s0 s) : Frame P s0 (slotDone s n) := by
  unfold slotDone
  try extract_lets
  repeat' first
    | with_reducible assumption
    | with_reducible apply frame_State_modCtx

theorem frame_slotWait (s : State) (n : Nat) (w : FWait) {P : List Part} {s0 : State} 
    (hP : subParts [.facet] P = true) (h : Frame P s0 s) : Frame P s0 (slotWait s n w) := by
  unfold slotWait
  try extract_lets
  repeat' first
    | with_reducible assumption
    | with_reducible apply frame_State_modCtx

theorem frame_setG (s : State) (n : Nat) (a : Nat) (v : BitVec 32) {P : List Part} {s0 : State} 
    (hP : subParts [.facet] P = true) (h : Frame P s0 s) : Frame P s0 (setG s n a v) := by
  unfold setG
  try extract_lets
  repeat' first
    | with_reducible assumption
    | with_reducible apply frame_State_modCtx

theorem frame_setTarget (s : State) (n : Nat) (x : Nat) {P : List Part} {s0 : State} 
    (hP : subParts [.facet] P = true) (h : Frame P s0 s) : Frame P s0 (setTarget s n x) := by
  unfold setTarget
  try extract_lets
  repeat' first
    | with_reducible assumption
    | with_reducible apply frame_State_modCtx

theorem frame_execFacetNop (ch : Fin 32) (s : State) :
    OutFrame [.facet] s (execFacetNop ch s) := by
  have h := Frame.refl [.facet] s
  have hP : subParts [.facet] [.facet] = true := by decide
  unfold execFacetNop
  show Frame [.facet] _ _
  try extract_lets
  repeat' first
    | with_reducible assumption
    | with_reducible apply frame_slotDone
    | (with_reducible refine Frame.of_mk _ _ _ _ _ _ _ _ _ _ _ _ _ _ _ _ _ _ _ _ _ _ _ _ _ _ _ _ _ hP ?_ rfl ?_ ?_ ?_ ?_ ?_ ?_ ?_ ?_ ?_ ?_ ?_ ?_ ?_ ?_ ?_ ?_ ?_ ?_ ?_ ?_ ?_ ?_ ?_ ?_ ?_ ?_ ?_ ?_ <;>
         first | with_reducible exact Or.inr rfl | exact Or.inl rfl | skip
       split)

theorem frame_execPhase (ch : Fin 32) (s : State) :
    OutFrame [.mem, .pwr, .rings, .bezel, .loupe, .vlv, .facet, .plait, .out] s (execPhase ch s) := by
  have h := Frame.refl [.mem, .pwr, .rings, .bezel, .loupe, .vlv, .facet, .plait, .out] s
  have hP : subParts [.mem, .pwr, .rings, .bezel, .loupe, .vlv, .facet, .plait, .out] [.mem, .pwr, .rings, .bezel, .loupe, .vlv, .facet, .plait, .out] = true := by decide
  unfold execPhase
  show Frame [.mem, .pwr, .rings, .bezel, .loupe, .vlv, .facet, .plait, .out] _ _
  try extract_lets
  repeat' first
    | with_reducible assumption
    | exact subParts_trans (by decide) hP
    | with_reducible apply frame_slotDone
    | with_reducible apply frame_State_modCtx
    | with_reducible apply frame_requestClaim
    | with_reducible apply frame_releaseClaim
    | with_reducible apply frame_State_modVlv
    | with_reducible apply Frame.ite <;> intro _
    | (with_reducible refine Frame.of_mk _ _ _ _ _ _ _ _ _ _ _ _ _ _ _ _ _ _ _ _ _ _ _ _ _ _ _ _ _ hP ?_ rfl ?_ ?_ ?_ ?_ ?_ ?_ ?_ ?_ ?_ ?_ ?_ ?_ ?_ ?_ ?_ ?_ ?_ ?_ ?_ ?_ ?_ ?_ ?_ ?_ ?_ ?_ ?_ ?_ <;>
         first | with_reducible exact Or.inr rfl | exact Or.inl rfl | skip
       split)

theorem frame_execSeti (ch : Fin 32) (s : State) :
    OutFrame [.facet] s (execSeti ch s) := by
  have h := Frame.refl [.facet] s
  have hP : subParts [.facet] [.facet] = true := by decide
  unfold execSeti
  show Frame [.facet] _ _
  try extract_lets
  repeat' first
    | with_reducible assumption
    | with_reducible apply frame_slotDone
    | with_reducible apply frame_setTarget
    | (with_reducible refine Frame.of_mk _ _ _ _ _ _ _ _ _ _ _ _ _ _ _ _ _ _ _ _ _ _ _ _ _ _ _ _ _ hP ?_ rfl ?_ ?_ ?_ ?_ ?_ ?_ ?_ ?_ ?_ ?_ ?_ ?_ ?_ ?_ ?_ ?_ ?_ ?_ ?_ ?_ ?_ ?_ ?_ ?_ ?_ ?_ ?_ ?_ <;>
         first | with_reducible exact Or.inr rfl | exact Or.inl rfl | skip
       split)

theorem frame_execSetr (ch : Fin 32) (s : State) :
    OutFrame [.facet] s (execSetr ch s) := by
  have h := Frame.refl [.facet] s
  have hP : subParts [.facet] [.facet] = true := by decide
  unfold execSetr
  show Frame [.facet] _ _
  try extract_lets
  repeat' first
    | with_reducible assumption
    | with_reducible apply frame_slotDone
    | with_reducible apply frame_setTarget
    | (with_reducible refine Frame.of_mk _ _ _ _ _ _ _ _ _ _ _ _ _ _ _ _ _ _ _ _ _ _ _ _ _ _ _ _ _ hP ?_ rfl ?_ ?_ ?_ ?_ ?_ ?_ ?_ ?_ ?_ ?_ ?_ ?_ ?_ ?_ ?_ ?_ ?_ ?_ ?_ ?_ ?_ ?_ ?_ ?_ ?_ ?_ ?_ ?_ <;>
         first | with_reducible exact Or.inr rfl | exact Or.inl rfl | skip
       split)

theorem frame_execFreq (ch : Fin 32) (s : State) :
    OutFrame [.facet] s (execFreq ch s) := by
  have h := Frame.refl [.facet] s
  have hP : subParts [.facet] [.facet] = true := by decide
  unfold execFreq
  show Frame [.facet] _ _
  try extract_lets
  repeat' first
    | with_reducible assumption
    | with_reducible apply frame_slotDone
    | with_reducible apply frame_State_modCtx
    | (with_reducible refine Frame.of_mk _ _ _ _ _ _ _ _ _ _ _ _ _ _ _ _ _ _ _ _ _ _ _ _ _ _ _ _ _ hP ?_ rfl ?_ ?_ ?_ ?_ ?_ ?_ ?_ ?_ ?_ ?_ ?_ ?_ ?_ ?_ ?_ ?_ ?_ ?_ ?_ ?_ ?_ ?_ ?_ ?_ ?_ ?_ ?_ ?_ <;>
         first | with_reducible exact Or.inr rfl | exact Or.inl rfl | skip
       split)

theorem frame_execWait (ch : Fin 32) (s : State) :
    OutFrame [.facet] s (execWait ch s) := by
  have h := Frame.refl [.facet] s
  have hP : subParts [.facet] [.facet] = true := by decide
  unfold execWait
  show Frame [.facet] _ _
  try extract_lets
  repeat' first
    | with_reducible assumption
    | with_reducible apply frame_slotWait
    | (with_reducible refine Frame.of_mk _ _ _ _ _ _ _ _ _ _ _ _ _ _ _ _ _ _ _ _ _ _ _ _ _ _ _ _ _ hP ?_ rfl ?_ ?_ ?_ ?_ ?_ ?_ ?_ ?_ ?_ ?_ ?_ ?_ ?_ ?_ ?_ ?_ ?_ ?_ ?_ ?_ ?_ ?_ ?_ ?_ ?_ ?_ ?_ ?_ <;>
         first | with_reducible exact Or.inr rfl | exact Or.inl rfl | skip
       split)

theorem frame_execWaitr (ch : Fin 32) (s : State) :
    OutFrame [.facet] s (execWaitr ch s) := by
  have h := Frame.refl [.facet] s
  have hP : subParts [.facet] [.facet] = true := by decide
  unfold execWaitr
  show Frame [.facet] _ _
  try extract_lets
  repeat' first
    | with_reducible assumption
    | with_reducible apply frame_slotWait
    | (with_reducible refine Frame.of_mk _ _ _ _ _ _ _ _ _ _ _ _ _ _ _ _ _ _ _ _ _ _ _ _ _ _ _ _ _ hP ?_ rfl ?_ ?_ ?_ ?_ ?_ ?_ ?_ ?_ ?_ ?_ ?_ ?_ ?_ ?_ ?_ ?_ ?_ ?_ ?_ ?_ ?_ ?_ ?_ ?_ ?_ ?_ ?_ ?_ <;>
         first | with_reducible exact Or.inr rfl | exact Or.inl rfl | skip
       split)

theorem frame_execWadd (ch : Fin 32) (s : State) :
    OutFrame [.facet] s (execWadd ch s) := by
  have h := Frame.refl [.facet] s
  have hP : subParts [.facet] [.facet] = true := by decide
  unfold execWadd
  show Frame [.facet] _ _
  try extract_lets
  repeat' first
    | with_reducible assumption
    | with_reducible apply frame_slotDone
    | with_reducible apply frame_State_modCtx
    | (with_reducible refine Frame.of_mk _ _ _ _ _ _ _ _ _ _ _ _ _ _ _ _ _ _ _ _ _ _ _ _ _ _ _ _ _ hP ?_ rfl ?_ ?_ ?_ ?_ ?_ ?_ ?_ ?_ ?_ ?_ ?_ ?_ ?_ ?_ ?_ ?_ ?_ ?_ ?_ ?_ ?_ ?_ ?_ ?_ ?_ ?_ ?_ ?_ <;>
         first | with_reducible exact Or.inr rfl | exact Or.inl rfl | skip
       split)

theorem frame_execWaddr (ch : Fin 32) (s : State) :
    OutFrame [.facet] s (execWaddr ch s) := by
  have h := Frame.refl [.facet] s
  have hP : subParts [.facet] [.facet] = true := by decide
  unfold execWaddr
  show Frame [.facet] _ _
  try extract_lets
  repeat' first
    | with_reducible assumption
    | with_reducible apply frame_slotDone
    | with_reducible apply frame_State_modCtx
    | (with_reducible refine Frame.of_mk _ _ _ _ _ _ _ _ _ _ _ _ _ _ _ _ _ _ _ _ _ _ _ _ _ _ _ _ _ hP ?_ rfl ?_ ?_ ?_ ?_ ?_ ?_ ?_ ?_ ?_ ?_ ?_ ?_ ?_ ?_ ?_ ?_ ?_ ?_ ?_ ?_ ?_ ?_ ?_ ?_ ?_ ?_ ?_ ?_ <;>
         first | with_reducible exact Or.inr rfl | exact Or.inl rfl | skip
       split)

theorem frame_execWaitw (ch : Fin 32) (s : State) :
    OutFrame [.edge, .facet] s (execWaitw ch s) := by
  have h := Frame.refl [.edge, .facet] s
  have hP : subParts [.edge, .facet] [.edge, .facet] = true := by decide
  unfold execWaitw
  show Frame [.edge, .facet] _ _
  try extract_lets
  repeat' first
    | with_reducible assumption
    | exact subParts_trans (by decide) hP
    | with_reducible apply frame_slotWait
    | with_reducible apply frame_addShot
    | (with_reducible refine Frame.of_mk _ _ _ _ _ _ _ _ _ _ _ _ _ _ _ _ _ _ _ _ _ _ _ _ _ _ _ _ _ hP ?_ rfl ?_ ?_ ?_ ?_ ?_ ?_ ?_ ?_ ?_ ?_ ?_ ?_ ?_ ?_ ?_ ?_ ?_ ?_ ?_ ?_ ?_ ?_ ?_ ?_ ?_ ?_ ?_ ?_ <;>
         first | with_reducible exact Or.inr rfl | exact Or.inl rfl | skip
       split)

theorem frame_execWaitc (ch : Fin 32) (s : State) :
    OutFrame [.facet] s (execWaitc ch s) := by
  have h := Frame.refl [.facet] s
  have hP : subParts [.facet] [.facet] = true := by decide
  unfold execWaitc
  show Frame [.facet] _ _
  try extract_lets
  repeat' first
    | with_reducible assumption
    | with_reducible apply frame_slotWait
    | (with_reducible refine Frame.of_mk _ _ _ _ _ _ _ _ _ _ _ _ _ _ _ _ _ _ _ _ _ _ _ _ _ _ _ _ _ hP ?_ rfl ?_ ?_ ?_ ?_ ?_ ?_ ?_ ?_ ?_ ?_ ?_ ?_ ?_ ?_ ?_ ?_ ?_ ?_ ?_ ?_ ?_ ?_ ?_ ?_ ?_ ?_ ?_ ?_ <;>
         first | with_reducible exact Or.inr rfl | exact Or.inl rfl | skip
       split)

theorem frame_execWaits (ch : Fin 32) (s : State) :
    OutFrame [.facet] s (execWaits ch s) := by
  have h := Frame.refl [.facet] s
  have hP : subParts [.facet] [.facet] = true := by decide
  unfold execWaits
  show Frame [.facet] _ _
  try extract_lets
  repeat' first
    | with_reducible assumption
    | with_reducible apply frame_slotWait
    | (with_reducible refine Frame.of_mk _ _ _ _ _ _ _ _ _ _ _ _ _ _ _ _ _ _ _ _ _ _ _ _ _ _ _ _ _ hP ?_ rfl ?_ ?_ ?_ ?_ ?_ ?_ ?_ ?_ ?_ ?_ ?_ ?_ ?_ ?_ ?_ ?_ ?_ ?_ ?_ ?_ ?_ ?_ ?_ ?_ ?_ ?_ ?_ ?_ <;>
         first | with_reducible exact Or.inr rfl | exact Or.inl rfl | skip
       split)

theorem frame_execSlopew (ch : Fin 32) (s : State) :
    OutFrame [.facet] s (execSlopew ch s) := by
  have h := Frame.refl [.facet] s
  have hP : subParts [.facet] [.facet] = true := by decide
  unfold execSlopew
  show Frame [.facet] _ _
  try extract_lets
  repeat' first
    | with_reducible assumption
    | with_reducible apply frame_slotDone
    | with_reducible apply frame_State_modCtx
    | (with_reducible refine Frame.of_mk _ _ _ _ _ _ _ _ _ _ _ _ _ _ _ _ _ _ _ _ _ _ _ _ _ _ _ _ _ hP ?_ rfl ?_ ?_ ?_ ?_ ?_ ?_ ?_ ?_ ?_ ?_ ?_ ?_ ?_ ?_ ?_ ?_ ?_ ?_ ?_ ?_ ?_ ?_ ?_ ?_ ?_ ?_ ?_ ?_ <;>
         first | with_reducible exact Or.inr rfl | exact Or.inl rfl | skip
       split)

theorem frame_execTmo (ch : Fin 32) (s : State) :
    OutFrame [.facet] s (execTmo ch s) := by
  have h := Frame.refl [.facet] s
  have hP : subParts [.facet] [.facet] = true := by decide
  unfold execTmo
  show Frame [.facet] _ _
  try extract_lets
  repeat' first
    | with_reducible assumption
    | with_reducible apply frame_slotDone
    | with_reducible apply frame_State_modCtx
    | (with_reducible refine Frame.of_mk _ _ _ _ _ _ _ _ _ _ _ _ _ _ _ _ _ _ _ _ _ _ _ _ _ _ _ _ _ hP ?_ rfl ?_ ?_ ?_ ?_ ?_ ?_ ?_ ?_ ?_ ?_ ?_ ?_ ?_ ?_ ?_ ?_ ?_ ?_ ?_ ?_ ?_ ?_ ?_ ?_ ?_ ?_ ?_ ?_ <;>
         first | with_reducible exact Or.inr rfl | exact Or.inl rfl | skip
       split)

theorem frame_execMovi (ch : Fin 32) (s : State) :
    OutFrame [.facet] s (execMovi ch s) := by
  have h := Frame.refl [.facet] s
  have hP : subParts [.facet] [.facet] = true := by decide
  unfold execMovi
  show Frame [.facet] _ _
  try extract_lets
  repeat' first
    | with_reducible assumption
    | with_reducible apply frame_slotDone
    | with_reducible apply frame_setG
    | (with_reducible refine Frame.of_mk _ _ _ _ _ _ _ _ _ _ _ _ _ _ _ _ _ _ _ _ _ _ _ _ _ _ _ _ _ hP ?_ rfl ?_ ?_ ?_ ?_ ?_ ?_ ?_ ?_ ?_ ?_ ?_ ?_ ?_ ?_ ?_ ?_ ?_ ?_ ?_ ?_ ?_ ?_ ?_ ?_ ?_ ?_ ?_ ?_ <;>
         first | with_reducible exact Or.inr rfl | exact Or.inl rfl | skip
       split)

theorem frame_execMov (ch : Fin 32) (s : State) :
    OutFrame [.facet] s (execMov ch s) := by
  have h := Frame.refl [.facet] s
  have hP : subParts [.facet] [.facet] = true := by decide
  unfold execMov
  show Frame [.facet] _ _
  try extract_lets
  repeat' first
    | with_reducible assumption
    | with_reducible apply frame_slotDone
    | with_reducible apply frame_setG
    | (with_reducible refine Frame.of_mk _ _ _ _ _ _ _ _ _ _ _ _ _ _ _ _ _ _ _ _ _ _ _ _ _ _ _ _ _ hP ?_ rfl ?_ ?_ ?_ ?_ ?_ ?_ ?_ ?_ ?_ ?_ ?_ ?_ ?_ ?_ ?_ ?_ ?_ ?_ ?_ ?_ ?_ ?_ ?_ ?_ ?_ ?_ ?_ ?_ <;>
         first | with_reducible exact Or.inr rfl | exact Or.inl rfl | skip
       split)

theorem frame_execAdd (ch : Fin 32) (s : State) :
    OutFrame [.facet] s (execAdd ch s) := by
  have h := Frame.refl [.facet] s
  have hP : subParts [.facet] [.facet] = true := by decide
  unfold execAdd
  show Frame [.facet] _ _
  try extract_lets
  repeat' first
    | with_reducible assumption
    | with_reducible apply frame_slotDone
    | with_reducible apply frame_setG
    | (with_reducible refine Frame.of_mk _ _ _ _ _ _ _ _ _ _ _ _ _ _ _ _ _ _ _ _ _ _ _ _ _ _ _ _ _ hP ?_ rfl ?_ ?_ ?_ ?_ ?_ ?_ ?_ ?_ ?_ ?_ ?_ ?_ ?_ ?_ ?_ ?_ ?_ ?_ ?_ ?_ ?_ ?_ ?_ ?_ ?_ ?_ ?_ ?_ <;>
         first | with_reducible exact Or.inr rfl | exact Or.inl rfl | skip
       split)

theorem frame_execAddi (ch : Fin 32) (s : State) :
    OutFrame [.facet] s (execAddi ch s) := by
  have h := Frame.refl [.facet] s
  have hP : subParts [.facet] [.facet] = true := by decide
  unfold execAddi
  show Frame [.facet] _ _
  try extract_lets
  repeat' first
    | with_reducible assumption
    | with_reducible apply frame_slotDone
    | with_reducible apply frame_setG
    | (with_reducible refine Frame.of_mk _ _ _ _ _ _ _ _ _ _ _ _ _ _ _ _ _ _ _ _ _ _ _ _ _ _ _ _ _ hP ?_ rfl ?_ ?_ ?_ ?_ ?_ ?_ ?_ ?_ ?_ ?_ ?_ ?_ ?_ ?_ ?_ ?_ ?_ ?_ ?_ ?_ ?_ ?_ ?_ ?_ ?_ ?_ ?_ ?_ <;>
         first | with_reducible exact Or.inr rfl | exact Or.inl rfl | skip
       split)

theorem frame_execSub (ch : Fin 32) (s : State) :
    OutFrame [.facet] s (execSub ch s) := by
  have h := Frame.refl [.facet] s
  have hP : subParts [.facet] [.facet] = true := by decide
  unfold execSub
  show Frame [.facet] _ _
  try extract_lets
  repeat' first
    | with_reducible assumption
    | with_reducible apply frame_slotDone
    | with_reducible apply frame_setG
    | (with_reducible refine Frame.of_mk _ _ _ _ _ _ _ _ _ _ _ _ _ _ _ _ _ _ _ _ _ _ _ _ _ _ _ _ _ hP ?_ rfl ?_ ?_ ?_ ?_ ?_ ?_ ?_ ?_ ?_ ?_ ?_ ?_ ?_ ?_ ?_ ?_ ?_ ?_ ?_ ?_ ?_ ?_ ?_ ?_ ?_ ?_ ?_ ?_ <;>
         first | with_reducible exact Or.inr rfl | exact Or.inl rfl | skip
       split)

theorem frame_execShf (ch : Fin 32) (s : State) :
    OutFrame [.facet] s (execShf ch s) := by
  have h := Frame.refl [.facet] s
  have hP : subParts [.facet] [.facet] = true := by decide
  unfold execShf
  show Frame [.facet] _ _
  try extract_lets
  repeat' first
    | with_reducible assumption
    | with_reducible apply frame_slotDone
    | with_reducible apply frame_setG
    | (with_reducible refine Frame.of_mk _ _ _ _ _ _ _ _ _ _ _ _ _ _ _ _ _ _ _ _ _ _ _ _ _ _ _ _ _ hP ?_ rfl ?_ ?_ ?_ ?_ ?_ ?_ ?_ ?_ ?_ ?_ ?_ ?_ ?_ ?_ ?_ ?_ ?_ ?_ ?_ ?_ ?_ ?_ ?_ ?_ ?_ ?_ ?_ ?_ <;>
         first | with_reducible exact Or.inr rfl | exact Or.inl rfl | skip
       split)

theorem frame_execLdc (ch : Fin 32) (s : State) :
    OutFrame [.facet] s (execLdc ch s) := by
  have h := Frame.refl [.facet] s
  have hP : subParts [.facet] [.facet] = true := by decide
  unfold execLdc
  show Frame [.facet] _ _
  try extract_lets
  repeat' first
    | with_reducible assumption
    | with_reducible apply frame_slotDone
    | with_reducible apply frame_setG
    | (with_reducible refine Frame.of_mk _ _ _ _ _ _ _ _ _ _ _ _ _ _ _ _ _ _ _ _ _ _ _ _ _ _ _ _ _ hP ?_ rfl ?_ ?_ ?_ ?_ ?_ ?_ ?_ ?_ ?_ ?_ ?_ ?_ ?_ ?_ ?_ ?_ ?_ ?_ ?_ ?_ ?_ ?_ ?_ ?_ ?_ ?_ ?_ ?_ <;>
         first | with_reducible exact Or.inr rfl | exact Or.inl rfl | skip
       split)

theorem frame_execRd (ch : Fin 32) (measured : BitVec 32) (s : State) :
    OutFrame [.facet] s (execRd ch measured s) := by
  have h := Frame.refl [.facet] s
  have hP : subParts [.facet] [.facet] = true := by decide
  unfold execRd
  show Frame [.facet] _ _
  try extract_lets
  repeat' first
    | with_reducible assumption
    | with_reducible apply frame_slotDone
    | with_reducible apply frame_setG
    | (with_reducible refine Frame.of_mk _ _ _ _ _ _ _ _ _ _ _ _ _ _ _ _ _ _ _ _ _ _ _ _ _ _ _ _ _ hP ?_ rfl ?_ ?_ ?_ ?_ ?_ ?_ ?_ ?_ ?_ ?_ ?_ ?_ ?_ ?_ ?_ ?_ ?_ ?_ ?_ ?_ ?_ ?_ ?_ ?_ ?_ ?_ ?_ ?_ <;>
         first | with_reducible exact Or.inr rfl | exact Or.inl rfl | skip
       split)

theorem frame_execBr (ch : Fin 32) (s : State) :
    OutFrame [.facet] s (execBr ch s) := by
  have h := Frame.refl [.facet] s
  have hP : subParts [.facet] [.facet] = true := by decide
  unfold execBr
  show Frame [.facet] _ _
  try extract_lets
  repeat' first
    | with_reducible assumption
    | with_reducible apply frame_slotDone
    | with_reducible apply frame_State_modCtx
    | with_reducible apply Frame.ite <;> intro _
    | (with_reducible refine Frame.of_mk _ _ _ _ _ _ _ _ _ _ _ _ _ _ _ _ _ _ _ _ _ _ _ _ _ _ _ _ _ hP ?_ rfl ?_ ?_ ?_ ?_ ?_ ?_ ?_ ?_ ?_ ?_ ?_ ?_ ?_ ?_ ?_ ?_ ?_ ?_ ?_ ?_ ?_ ?_ ?_ ?_ ?_ ?_ ?_ ?_ <;>
         first | with_reducible exact Or.inr rfl | exact Or.inl rfl | skip
       split)

theorem frame_execFaultOp (ch : Fin 32) (s : State) :
    OutFrame [.mem, .pwr, .rings, .bezel, .loupe, .vlv, .facet, .plait, .out] s (execFaultOp ch s) := by
  have h := Frame.refl [.mem, .pwr, .rings, .bezel, .loupe, .vlv, .facet, .plait, .out] s
  have hP : subParts [.mem, .pwr, .rings, .bezel, .loupe, .vlv, .facet, .plait, .out] [.mem, .pwr, .rings, .bezel, .loupe, .vlv, .facet, .plait, .out] = true := by decide
  unfold execFaultOp
  show Frame [.mem, .pwr, .rings, .bezel, .loupe, .vlv, .facet, .plait, .out] _ _
  try extract_lets
  repeat' first
    | with_reducible assumption
    | exact subParts_trans (by decide) hP
    | with_reducible apply frame_slotDone
    | with_reducible apply frame_vlvEvent
    | with_reducible apply frame_State_modVlv
    | with_reducible apply frame_logEvent
    | with_reducible apply frame_State_modCtx
    | with_reducible apply frame_quench
    | with_reducible apply frame_stopCtx
    | (with_reducible refine Frame.of_mk _ _ _ _ _ _ _ _ _ _ _ _ _ _ _ _ _ _ _ _ _ _ _ _ _ _ _ _ _ hP ?_ rfl ?_ ?_ ?_ ?_ ?_ ?_ ?_ ?_ ?_ ?_ ?_ ?_ ?_ ?_ ?_ ?_ ?_ ?_ ?_ ?_ ?_ ?_ ?_ ?_ ?_ ?_ ?_ ?_ <;>
         first | with_reducible exact Or.inr rfl | exact Or.inl rfl | skip
       split)

theorem frame_execRept (ch : Fin 32) (s : State) :
    OutFrame [.rings, .bezel, .loupe, .facet, .plait, .out] s (execRept ch s) := by
  have h := Frame.refl [.rings, .bezel, .loupe, .facet, .plait, .out] s
  have hP : subParts [.rings, .bezel, .loupe, .facet, .plait, .out] [.rings, .bezel, .loupe, .facet, .plait, .out] = true := by decide
  unfold execRept
  show Frame [.rings, .bezel, .loupe, .facet, .plait, .out] _ _
  try extract_lets
  repeat' first
    | with_reducible assumption
    | exact subParts_trans (by decide) hP
    | with_reducible apply frame_slotDone
    | with_reducible apply frame_State_modCtx
    | with_reducible apply frame_logEvent
    | with_reducible apply Frame.ite <;> intro _
    | (with_reducible refine Frame.of_mk _ _ _ _ _ _ _ _ _ _ _ _ _ _ _ _ _ _ _ _ _ _ _ _ _ _ _ _ _ hP ?_ rfl ?_ ?_ ?_ ?_ ?_ ?_ ?_ ?_ ?_ ?_ ?_ ?_ ?_ ?_ ?_ ?_ ?_ ?_ ?_ ?_ ?_ ?_ ?_ ?_ ?_ ?_ ?_ ?_ <;>
         first | with_reducible exact Or.inr rfl | exact Or.inl rfl | skip
       split)

theorem frame_execEndOp (ch : Fin 32) (s : State) :
    OutFrame [.mem, .pwr, .rings, .bezel, .loupe, .vlv, .facet, .plait, .out] s (execEndOp ch s) := by
  have h := Frame.refl [.mem, .pwr, .rings, .bezel, .loupe, .vlv, .facet, .plait, .out] s
  have hP : subParts [.mem, .pwr, .rings, .bezel, .loupe, .vlv, .facet, .plait, .out] [.mem, .pwr, .rings, .bezel, .loupe, .vlv, .facet, .plait, .out] = true := by decide
  unfold execEndOp
  show Frame [.mem, .pwr, .rings, .bezel, .loupe, .vlv, .facet, .plait, .out] _ _
  try extract_lets
  repeat' first
    | with_reducible assumption
    | exact subParts_trans (by decide) hP
    | with_reducible apply frame_releaseClaim
    | with_reducible apply frame_slotWait
    | with_reducible apply frame_State_modCtx
    | (with_reducible refine Frame.of_mk _ _ _ _ _ _ _ _ _ _ _ _ _ _ _ _ _ _ _ _ _ _ _ _ _ _ _ _ _ hP ?_ rfl ?_ ?_ ?_ ?_ ?_ ?_ ?_ ?_ ?_ ?_ ?_ ?_ ?_ ?_ ?_ ?_ ?_ ?_ ?_ ?_ ?_ ?_ ?_ ?_ ?_ ?_ ?_ ?_ <;>
         first | with_reducible exact Or.inr rfl | exact Or.inl rfl | skip
       split)

theorem frame_execTimeWaitEnd (ch : Fin 32) (s : State) :
    OutFrame [.clk, .weave, .facet] s (execTimeWaitEnd ch s) := by
  have h := Frame.refl [.clk, .weave, .facet] s
  have hP : subParts [.clk, .weave, .facet] [.clk, .weave, .facet] = true := by decide
  unfold execTimeWaitEnd
  show Frame [.clk, .weave, .facet] _ _
  try extract_lets
  repeat' first
    | with_reducible assumption
    | exact subParts_trans (by decide) hP
    | with_reducible apply frame_State_reach
    | with_reducible apply frame_State_modCtx
    | (with_reducible refine Frame.of_mk _ _ _ _ _ _ _ _ _ _ _ _ _ _ _ _ _ _ _ _ _ _ _ _ _ _ _ _ _ hP ?_ rfl ?_ ?_ ?_ ?_ ?_ ?_ ?_ ?_ ?_ ?_ ?_ ?_ ?_ ?_ ?_ ?_ ?_ ?_ ?_ ?_ ?_ ?_ ?_ ?_ ?_ ?_ ?_ ?_ <;>
         first | with_reducible exact Or.inr rfl | exact Or.inl rfl | skip
       split)

theorem frame_execWeaveWaitEnd (ch : Fin 32) (s : State) :
    OutFrame [.clk, .weave, .facet] s (execWeaveWaitEnd ch s) := by
  have h := Frame.refl [.clk, .weave, .facet] s
  have hP : subParts [.clk, .weave, .facet] [.clk, .weave, .facet] = true := by decide
  unfold execWeaveWaitEnd
  show Frame [.clk, .weave, .facet] _ _
  try extract_lets
  repeat' first
    | with_reducible assumption
    | exact subParts_trans (by decide) hP
    | with_reducible apply frame_State_reachWeave
    | with_reducible apply frame_State_modCtx
    | (with_reducible refine Frame.of_mk _ _ _ _ _ _ _ _ _ _ _ _ _ _ _ _ _ _ _ _ _ _ _ _ _ _ _ _ _ hP ?_ rfl ?_ ?_ ?_ ?_ ?_ ?_ ?_ ?_ ?_ ?_ ?_ ?_ ?_ ?_ ?_ ?_ ?_ ?_ ?_ ?_ ?_ ?_ ?_ ?_ ?_ ?_ ?_ ?_ <;>
         first | with_reducible exact Or.inr rfl | exact Or.inl rfl | skip
       split)

theorem frame_execConditionWaitMet (ch : Fin 32) (samples : List Int) (s : State) :
    OutFrame [.facet] s (execConditionWaitMet ch samples s) := by
  have h := Frame.refl [.facet] s
  have hP : subParts [.facet] [.facet] = true := by decide
  unfold execConditionWaitMet
  show Frame [.facet] _ _
  try extract_lets
  repeat' first
    | with_reducible assumption
    | with_reducible apply frame_State_modCtx
    | with_reducible apply Frame.ite <;> intro _
    | (with_reducible refine Frame.of_mk _ _ _ _ _ _ _ _ _ _ _ _ _ _ _ _ _ _ _ _ _ _ _ _ _ _ _ _ _ hP ?_ rfl ?_ ?_ ?_ ?_ ?_ ?_ ?_ ?_ ?_ ?_ ?_ ?_ ?_ ?_ ?_ ?_ ?_ ?_ ?_ ?_ ?_ ?_ ?_ ?_ ?_ ?_ ?_ ?_ <;>
         first | with_reducible exact Or.inr rfl | exact Or.inl rfl | skip
       split)

theorem frame_execConditionWaitTimeout (ch : Fin 32) (s : State) :
    OutFrame [.clk, .weave, .facet] s (execConditionWaitTimeout ch s) := by
  have h := Frame.refl [.clk, .weave, .facet] s
  have hP : subParts [.clk, .weave, .facet] [.clk, .weave, .facet] = true := by decide
  unfold execConditionWaitTimeout
  show Frame [.clk, .weave, .facet] _ _
  try extract_lets
  repeat' first
    | with_reducible assumption
    | exact subParts_trans (by decide) hP
    | with_reducible apply frame_State_reach
    | with_reducible apply frame_State_modCtx
    | (with_reducible refine Frame.of_mk _ _ _ _ _ _ _ _ _ _ _ _ _ _ _ _ _ _ _ _ _ _ _ _ _ _ _ _ _ hP ?_ rfl ?_ ?_ ?_ ?_ ?_ ?_ ?_ ?_ ?_ ?_ ?_ ?_ ?_ ?_ ?_ ?_ ?_ ?_ ?_ ?_ ?_ ?_ ?_ ?_ ?_ ?_ ?_ ?_ <;>
         first | with_reducible exact Or.inr rfl | exact Or.inl rfl | skip
       split)

theorem frame_execContextEnd (ch : Fin 32) (s : State) :
    OutFrame [.vlv, .facet] s (execContextEnd ch s) := by
  have h := Frame.refl [.vlv, .facet] s
  have hP : subParts [.vlv, .facet] [.vlv, .facet] = true := by decide
  unfold execContextEnd
  show Frame [.vlv, .facet] _ _
  try extract_lets
  repeat' first
    | with_reducible assumption
    | exact subParts_trans (by decide) hP
    | with_reducible apply frame_State_modCtx
    | with_reducible apply frame_State_modVlv
    | with_reducible apply frame_State_modBank
    | with_reducible apply Frame.ite <;> intro _

theorem frame_execRunaway (ch : Fin 32) (s : State) :
    OutFrame [.mem, .pwr, .rings, .bezel, .loupe, .vlv, .facet, .plait, .out] s (execRunaway ch s) := by
  have h := Frame.refl [.mem, .pwr, .rings, .bezel, .loupe, .vlv, .facet, .plait, .out] s
  have hP : subParts [.mem, .pwr, .rings, .bezel, .loupe, .vlv, .facet, .plait, .out] [.mem, .pwr, .rings, .bezel, .loupe, .vlv, .facet, .plait, .out] = true := by decide
  unfold execRunaway
  show Frame [.mem, .pwr, .rings, .bezel, .loupe, .vlv, .facet, .plait, .out] _ _
  try extract_lets
  repeat' first
    | with_reducible assumption
    | exact subParts_trans (by decide) hP
    | with_reducible apply frame_logEvent
    | with_reducible apply frame_State_modCtx
    | with_reducible apply frame_stopCtx
    | with_reducible apply Frame.ite <;> intro _

theorem frame_execPeakTimeLimit (ch : Fin 32) (s : State) :
    OutFrame [.rings, .bezel, .loupe, .facet, .plait, .out] s (execPeakTimeLimit ch s) := by
  have h := Frame.refl [.rings, .bezel, .loupe, .facet, .plait, .out] s
  have hP : subParts [.rings, .bezel, .loupe, .facet, .plait, .out] [.rings, .bezel, .loupe, .facet, .plait, .out] = true := by decide
  unfold execPeakTimeLimit
  show Frame [.rings, .bezel, .loupe, .facet, .plait, .out] _ _
  try extract_lets
  repeat' first
    | with_reducible assumption
    | exact subParts_trans (by decide) hP
    | with_reducible apply frame_logEvent
    | with_reducible apply frame_State_modCtx
    | with_reducible apply Frame.ite <;> intro _

theorem frame_checkFails (s : State) (e : Nat) {P : List Part} {s0 : State} 
    (hP : subParts [.mem, .pwr, .rings, .bezel, .loupe, .vlv, .facet, .plait, .out] P = true) (h : Frame P s0 s) : Frame P s0 (checkFails s e) := by
  unfold checkFails
  try extract_lets
  repeat' first
    | with_reducible assumption
    | exact subParts_trans (by decide) hP
    | with_reducible apply Frame.foldl
    | with_reducible apply frame_logEvent
    | with_reducible apply frame_stopCtx
    | with_reducible apply frame_State_modCtx
    | with_reducible apply Frame.ite <;> intro _
    | intro _ _ _
    | (with_reducible refine Frame.of_mk _ _ _ _ _ _ _ _ _ _ _ _ _ _ _ _ _ _ _ _ _ _ _ _ _ _ _ _ _ hP ?_ rfl ?_ ?_ ?_ ?_ ?_ ?_ ?_ ?_ ?_ ?_ ?_ ?_ ?_ ?_ ?_ ?_ ?_ ?_ ?_ ?_ ?_ ?_ ?_ ?_ ?_ ?_ ?_ ?_ <;>
         first | with_reducible exact Or.inr rfl | exact Or.inl rfl | skip
       with_reducible assumption)

theorem frame_execProgramCheck (eng : Fin 8) (ok : Bool) (s : State) :
    OutFrame [.mem, .pwr, .rings, .bezel, .loupe, .vlv, .facet, .plait, .out] s (execProgramCheck eng ok s) := by
  have h := Frame.refl [.mem, .pwr, .rings, .bezel, .loupe, .vlv, .facet, .plait, .out] s
  have hP : subParts [.mem, .pwr, .rings, .bezel, .loupe, .vlv, .facet, .plait, .out] [.mem, .pwr, .rings, .bezel, .loupe, .vlv, .facet, .plait, .out] = true := by decide
  unfold execProgramCheck
  show Frame [.mem, .pwr, .rings, .bezel, .loupe, .vlv, .facet, .plait, .out] _ _
  try extract_lets
  repeat' first
    | with_reducible assumption
    | with_reducible apply frame_checkFails
    | with_reducible apply Frame.ite <;> intro _
    | (with_reducible refine Frame.of_mk _ _ _ _ _ _ _ _ _ _ _ _ _ _ _ _ _ _ _ _ _ _ _ _ _ _ _ _ _ hP ?_ rfl ?_ ?_ ?_ ?_ ?_ ?_ ?_ ?_ ?_ ?_ ?_ ?_ ?_ ?_ ?_ ?_ ?_ ?_ ?_ ?_ ?_ ?_ ?_ ?_ ?_ ?_ ?_ ?_ <;>
         first | with_reducible exact Or.inr rfl | exact Or.inl rfl | skip
       first
         | with_reducible assumption
         | split
      )

theorem frame_actFacetLoad (mask : BitVec 8) (a : Act) (s : State) {P : List Part} {s0 : State} 
    (hP : subParts [.mem, .pwr, .rings, .cfg, .bezel, .loupe, .vlv, .facet, .plait, .out] P = true) (h : Frame P s0 s) : Frame P s0 (actFacetLoad mask a s) := by
  unfold actFacetLoad
  try extract_lets
  repeat' first
    | with_reducible assumption
    | exact subParts_trans (by decide) hP
    | with_reducible apply frame_refuse
    | with_reducible apply frame_loadBank
    | with_reducible apply frame_finish
    | with_reducible apply Frame.ite <;> intro _
    | intro _ _ _
    | (with_reducible refine Frame.of_mk _ _ _ _ _ _ _ _ _ _ _ _ _ _ _ _ _ _ _ _ _ _ _ _ _ _ _ _ _ hP ?_ rfl ?_ ?_ ?_ ?_ ?_ ?_ ?_ ?_ ?_ ?_ ?_ ?_ ?_ ?_ ?_ ?_ ?_ ?_ ?_ ?_ ?_ ?_ ?_ ?_ ?_ ?_ ?_ ?_ <;>
         first | with_reducible exact Or.inr rfl | exact Or.inl rfl | skip
       first
         | with_reducible apply Frame.foldl
         | split
      )

theorem frame_execFacetLoad (d : Desc) (mask : BitVec 8) (s : State) :
    OutFrame [.ecc, .mem, .pwr, .weave, .rings, .cfg, .bezel, .loupe, .vlv, .facet, .plait, .out] s (execFacetLoad d mask s) := by
  have h := Frame.refl [.ecc, .mem, .pwr, .weave, .rings, .cfg, .bezel, .loupe, .vlv, .facet, .plait, .out] s
  have hP : subParts [.ecc, .mem, .pwr, .weave, .rings, .cfg, .bezel, .loupe, .vlv, .facet, .plait, .out] [.ecc, .mem, .pwr, .weave, .rings, .cfg, .bezel, .loupe, .vlv, .facet, .plait, .out] = true := by decide
  unfold execFacetLoad
  show Frame [.ecc, .mem, .pwr, .weave, .rings, .cfg, .bezel, .loupe, .vlv, .facet, .plait, .out] _ _
  repeat' first
    | with_reducible assumption
    | exact subParts_trans (by decide) hP
    | with_reducible apply frame_accept
    | with_reducible apply frame_actFacetLoad
    | intro _ _ _

theorem frame_actFacetVerify (mask : BitVec 8) (a : Act) (s : State) {P : List Part} {s0 : State} 
    (hP : subParts [.mem, .pwr, .rings, .bezel, .loupe, .vlv, .facet, .plait, .out] P = true) (h : Frame P s0 s) : Frame P s0 (actFacetVerify mask a s) := by
  unfold actFacetVerify
  try extract_lets
  repeat' first
    | with_reducible assumption
    | exact subParts_trans (by decide) hP
    | with_reducible apply Frame.foldl
    | with_reducible apply frame_finish
    | with_reducible apply frame_finishAs
    | with_reducible apply frame_checkFails
    | with_reducible apply Frame.ite <;> intro _
    | intro _ _ _

theorem frame_execFacetVerify (d : Desc) (mask : BitVec 8) (s : State) :
    OutFrame [.ecc, .mem, .pwr, .weave, .rings, .bezel, .loupe, .vlv, .facet, .plait, .out] s (execFacetVerify d mask s) := by
  have h := Frame.refl [.ecc, .mem, .pwr, .weave, .rings, .bezel, .loupe, .vlv, .facet, .plait, .out] s
  have hP : subParts [.ecc, .mem, .pwr, .weave, .rings, .bezel, .loupe, .vlv, .facet, .plait, .out] [.ecc, .mem, .pwr, .weave, .rings, .bezel, .loupe, .vlv, .facet, .plait, .out] = true := by decide
  unfold execFacetVerify
  show Frame [.ecc, .mem, .pwr, .weave, .rings, .bezel, .loupe, .vlv, .facet, .plait, .out] _ _
  repeat' first
    | with_reducible assumption
    | exact subParts_trans (by decide) hP
    | with_reducible apply frame_accept
    | with_reducible apply frame_actFacetVerify
    | intro _ _ _

theorem frame_actFacetPeek (ch : BitVec 5) (reg : BitVec 4) (a : Act) (s : State) {P : List Part} {s0 : State} 
    (hP : subParts [.mem, .pwr, .rings, .plait, .out] P = true) (h : Frame P s0 s) : Frame P s0 (actFacetPeek ch reg a s) := by
  unfold actFacetPeek
  repeat' first
    | with_reducible assumption
    | with_reducible apply frame_finish

theorem frame_execFacetPeek (d : Desc) (ch : BitVec 5) (reg : BitVec 4) (s : State) :
    OutFrame [.ecc, .mem, .pwr, .weave, .rings, .bezel, .loupe, .plait, .out] s (execFacetPeek d ch reg s) := by
  have h := Frame.refl [.ecc, .mem, .pwr, .weave, .rings, .bezel, .loupe, .plait, .out] s
  have hP : subParts [.ecc, .mem, .pwr, .weave, .rings, .bezel, .loupe, .plait, .out] [.ecc, .mem, .pwr, .weave, .rings, .bezel, .loupe, .plait, .out] = true := by decide
  unfold execFacetPeek
  show Frame [.ecc, .mem, .pwr, .weave, .rings, .bezel, .loupe, .plait, .out] _ _
  repeat' first
    | with_reducible assumption
    | exact subParts_trans (by decide) hP
    | with_reducible apply frame_accept
    | with_reducible apply frame_actFacetPeek
    | intro _ _ _

end Sys2Proof.Machine
end

