-- ==== Sys2Proof/Laws/FrameFioOps.lean ====
section
/-! SUPPORT. Which parts of the state the operations of Machine/FioOps.lean may change. -/

namespace Sys2Proof.Machine

set_option linter.unusedTactic false
set_option linter.unreachableTactic false

theorem frame_State_modFio (s : State) (n : Nat) (f : FioCh → FioCh) {P : List Part} {s0 : State} 
    (hP : subParts [.fio] P = true) (h : Frame P s0 s) : Frame P s0 (State.modFio s n f) := by
  unfold State.modFio
  try extract_lets
  repeat' first
    | (with_reducible refine Frame.of_mk _ _ _ _ _ _ _ _ _ _ _ _ _ _ _ _ _ _ _ _ _ _ _ _ _ _ _ _ _ hP ?_ rfl ?_ ?_ ?_ ?_ ?_ ?_ ?_ ?_ ?_ ?_ ?_ ?_ ?_ ?_ ?_ ?_ ?_ ?_ ?_ ?_ ?_ ?_ ?_ ?_ ?_ ?_ ?_ ?_ <;>
         first | with_reducible exact Or.inr rfl | exact Or.inl rfl | skip
       with_reducible assumption)

theorem frame_unheldFio (s : State) (n : Nat) {P : List Part} {s0 : State} 
    (hP : subParts [.bezel] P = true) (h : Frame P s0 s) : Frame P s0 (unheldFio s n) := by
  unfold unheldFio
  try extract_lets
  repeat' first
    | (with_reducible refine Frame.of_mk _ _ _ _ _ _ _ _ _ _ _ _ _ _ _ _ _ _ _ _ _ _ _ _ _ _ _ _ _ hP ?_ rfl ?_ ?_ ?_ ?_ ?_ ?_ ?_ ?_ ?_ ?_ ?_ ?_ ?_ ?_ ?_ ?_ ?_ ?_ ?_ ?_ ?_ ?_ ?_ ?_ ?_ ?_ ?_ ?_ <;>
         first | with_reducible exact Or.inr rfl | exact Or.inl rfl | skip
       with_reducible assumption)

theorem frame_fioOff (s : State) (n : Nat) (st : BitVec 3) {P : List Part} {s0 : State} 
    (hP : subParts [.edge, .fio] P = true) (h : Frame P s0 s) : Frame P s0 (fioOff s n st) := by
  unfold fioOff
  try extract_lets
  repeat' first
    | with_reducible assumption
    | exact subParts_trans (by decide) hP
    | with_reducible apply frame_planOff
    | with_reducible apply frame_State_modFio

theorem frame_fioDrive (s : State) (n : Nat) (phase : Nat) (launch : Bool) {P : List Part} {s0 : State} 
    (hP : subParts [.edge, .fio] P = true) (h : Frame P s0 s) : Frame P s0 (fioDrive s n phase launch) := by
  unfold fioDrive
  try extract_lets
  repeat' first
    | with_reducible assumption
    | exact subParts_trans (by decide) hP
    | with_reducible apply frame_State_modFio
    | with_reducible apply frame_fioOff
    | with_reducible apply frame_planOff
    | with_reducible apply frame_planOn
    | with_reducible apply Frame.ite <;> intro _

theorem frame_fioApply (s : State) (n : Nat) (duty : Nat) (phase : Nat) (launch : Bool) {P : List Part} {s0 : State} 
    (hP : subParts [.bezel, .edge, .fio] P = true) (h : Frame P s0 s) : Frame P s0 (fioApply s n duty phase launch) := by
  unfold fioApply
  try extract_lets
  repeat' first
    | with_reducible assumption
    | exact subParts_trans (by decide) hP
    | with_reducible apply frame_unheldFio
    | with_reducible apply frame_State_modFio
    | with_reducible apply frame_fioOff
    | with_reducible apply frame_fioDrive
    | with_reducible apply Frame.ite <;> intro _

theorem frame_eachFio (s : State) (f : State → Nat → State) {P : List Part} {s0 : State} (h_f : ∀ y0 y1, Frame P s0 y0 → Frame P s0 (f y0 y1))
    (hP : subParts [] P = true) (h : Frame P s0 s) : Frame P s0 (eachFio s f) := by
  unfold eachFio
  repeat' first
    | with_reducible assumption
    | with_reducible apply Frame.foldl

theorem frame_fioIdle (s : State) (n : Nat) {P : List Part} {s0 : State} 
    (hP : subParts [.bezel, .edge, .fio] P = true) (h : Frame P s0 s) : Frame P s0 (fioIdle s n) := by
  unfold fioIdle
  try extract_lets
  repeat' first
    | with_reducible assumption
    | exact subParts_trans (by decide) hP
    | with_reducible apply frame_fioOff
    | with_reducible apply frame_unheldFio
    | with_reducible apply frame_State_modFio

theorem frame_fioHold (s : State) {P : List Part} {s0 : State} 
    (hP : subParts [.bezel, .fio] P = true) (h : Frame P s0 s) : Frame P s0 (fioHold s) := by
  unfold fioHold
  try extract_lets
  repeat' first
    | with_reducible assumption
    | exact subParts_trans (by decide) hP
    | with_reducible apply frame_eachFio
    | with_reducible apply frame_State_modFio
    | with_reducible apply Frame.ite <;> intro _
    | intro _ _ _
    | (with_reducible refine Frame.of_mk _ _ _ _ _ _ _ _ _ _ _ _ _ _ _ _ _ _ _ _ _ _ _ _ _ _ _ _ _ hP ?_ rfl ?_ ?_ ?_ ?_ ?_ ?_ ?_ ?_ ?_ ?_ ?_ ?_ ?_ ?_ ?_ ?_ ?_ ?_ ?_ ?_ ?_ ?_ ?_ ?_ ?_ ?_ ?_ ?_ <;>
         first | with_reducible exact Or.inr rfl | exact Or.inl rfl | skip
       with_reducible apply frame_State_modFio)

theorem frame_fioPark (s : State) {P : List Part} {s0 : State}
    (hP : subParts [.bezel, .edge, .fio] P = true) (h : Frame P s0 s) : Frame P s0 (fioPark s) := by
  have key : ∀ u arm, Frame P s0 u → Frame P s0 (fioHold { u with fio.armed := arm, fio.strobed := 0 }) := by
    intro u arm k
    refine frame_fioHold _ (subParts_trans (by decide) hP) ?_
    (with_reducible refine Frame.of_mk _ _ _ _ _ _ _ _ _ _ _ _ _ _ _ _ _ _ _ _ _ _ _ _ _ _ _ _ _ hP ?_ rfl ?_ ?_ ?_ ?_ ?_ ?_ ?_ ?_ ?_ ?_ ?_ ?_ ?_ ?_ ?_ ?_ ?_ ?_ ?_ ?_ ?_ ?_ ?_ ?_ ?_ ?_ ?_ ?_ <;>
      first | with_reducible exact Or.inr rfl | exact Or.inl rfl | skip)
    with_reducible exact k
  refine key _ _ ?_
  refine Frame.foldl _ _ (fun u n k => ?_) h
  exact Frame.ite (fun _ => k) (fun _ => frame_fioIdle _ _ (subParts_trans (by decide) hP) k)

theorem frame_fioAllOff (s : State) {P : List Part} {s0 : State} 
    (hP : subParts [.bezel, .edge, .fio] P = true) (h : Frame P s0 s) : Frame P s0 (fioAllOff s) := by
  unfold fioAllOff
  try extract_lets
  repeat' first
    | with_reducible assumption
    | exact subParts_trans (by decide) hP
    | with_reducible apply frame_fioIdle
    | intro _ _ _
    | (with_reducible refine Frame.of_mk _ _ _ _ _ _ _ _ _ _ _ _ _ _ _ _ _ _ _ _ _ _ _ _ _ _ _ _ _ hP ?_ rfl ?_ ?_ ?_ ?_ ?_ ?_ ?_ ?_ ?_ ?_ ?_ ?_ ?_ ?_ ?_ ?_ ?_ ?_ ?_ ?_ ?_ ?_ ?_ ?_ ?_ ?_ ?_ ?_ <;>
         first | with_reducible exact Or.inr rfl | exact Or.inl rfl | skip
       with_reducible apply frame_eachFio)

theorem frame_fioClaims (s : State) {P : List Part} {s0 : State} 
    (hP : subParts [.bezel, .edge, .fio] P = true) (h : Frame P s0 s) : Frame P s0 (fioClaims s) := by
  unfold fioClaims
  try extract_lets
  repeat' first
    | with_reducible assumption
    | exact subParts_trans (by decide) hP
    | with_reducible apply frame_eachFio
    | with_reducible apply frame_fioIdle
    | with_reducible apply frame_State_modFio
    | with_reducible apply Frame.ite <;> intro _
    | intro _ _ _

theorem frame_fioRoad (s : State) {P : List Part} {s0 : State} 
    (hP : subParts [.bezel, .edge, .fio] P = true) (h : Frame P s0 s) : Frame P s0 (fioRoad s) := by
  unfold fioRoad
  repeat' first
    | with_reducible assumption
    | exact subParts_trans (by decide) hP
    | with_reducible apply frame_eachFio
    | with_reducible apply frame_unheldFio
    | with_reducible apply frame_fioIdle
    | with_reducible apply Frame.ite <;> intro _
    | intro _ _ _

theorem frame_fioOrphan1 (s : State) (n : Nat) {P : List Part} {s0 : State} 
    (hP : subParts [.edge, .fio] P = true) (h : Frame P s0 s) : Frame P s0 (fioOrphan1 s n) := by
  unfold fioOrphan1
  try extract_lets
  repeat' first
    | with_reducible assumption
    | exact subParts_trans (by decide) hP
    | with_reducible apply frame_fioOff
    | with_reducible apply frame_State_modFio
    | with_reducible apply Frame.ite <;> intro _
    | (with_reducible refine Frame.of_mk _ _ _ _ _ _ _ _ _ _ _ _ _ _ _ _ _ _ _ _ _ _ _ _ _ _ _ _ _ hP ?_ rfl ?_ ?_ ?_ ?_ ?_ ?_ ?_ ?_ ?_ ?_ ?_ ?_ ?_ ?_ ?_ ?_ ?_ ?_ ?_ ?_ ?_ ?_ ?_ ?_ ?_ ?_ ?_ ?_ <;>
         first | with_reducible exact Or.inr rfl | exact Or.inl rfl | skip
       split)

theorem frame_fioReclaim (s : State) (n : Nat) {P : List Part} {s0 : State} 
    (hP : subParts [.bezel, .edge, .fio, .free] P = true) (h : Frame P s0 s) : Frame P s0 (fioReclaim s n) := by
  unfold fioReclaim
  try extract_lets
  repeat' first
    | with_reducible assumption
    | exact subParts_trans (by decide) hP
    | with_reducible apply frame_unheldFio
    | with_reducible apply frame_State_modFio
    | with_reducible apply frame_State_takeNat
    | with_reducible apply frame_planOn
    | with_reducible apply Frame.ite <;> intro _

theorem frame_fioPause (s : State) {P : List Part} {s0 : State} 
    (hP : subParts [.edge, .fio] P = true) (h : Frame P s0 s) : Frame P s0 (fioPause s) := by
  unfold fioPause
  try extract_lets
  repeat' first
    | with_reducible assumption
    | exact subParts_trans (by decide) hP
    | with_reducible apply frame_eachFio
    | with_reducible apply frame_fioOff
    | with_reducible apply frame_State_modFio
    | with_reducible apply Frame.ite <;> intro _
    | intro _ _ _

theorem frame_fioFrame (s : State) {P : List Part} {s0 : State} 
    (hP : subParts [.edge, .fio] P = true) (h : Frame P s0 s) : Frame P s0 (fioFrame s) := by
  unfold fioFrame
  repeat' first
    | with_reducible assumption
    | exact subParts_trans (by decide) hP
    | with_reducible apply frame_eachFio
    | with_reducible apply frame_fioDrive
    | with_reducible apply Frame.ite <;> intro _
    | intro _ _ _

end Sys2Proof.Machine
end

