-- ==== Sys2Proof/Laws/FrameFio.lean ====
section
/-! SUPPORT. Which parts of the state the operations of Machine/Fio.lean may change. -/

namespace Sys2Proof.Machine

set_option linter.unusedTactic false
set_option linter.unreachableTactic false

theorem frame_fioEnter (slot : Nat) (duty : Nat) (s : State) (n : Nat) {P : List Part} {s0 : State} 
    (hP : subParts [.edge] P = true) (h : Frame P s0 s) : Frame P s0 (fioEnter slot duty s n) := by
  unfold fioEnter
  repeat' first
    | with_reducible assumption
    | with_reducible apply frame_addShot
    | with_reducible apply frame_planOn
    | with_reducible apply Frame.ite <;> intro _

theorem frame_fioPlan (s : State) (a : Act) (chans : List Nat) (duty : Nat) {P : List Part} {s0 : State} 
    (hP : subParts [.mem, .pwr, .rings, .bezel, .loupe, .edge, .fio, .plait, .out] P = true) (h : Frame P s0 s) : Frame P s0 (fioPlan s a chans duty) := by
  unfold fioPlan
  try extract_lets
  repeat' first
    | with_reducible assumption
    | exact subParts_trans (by decide) hP
    | with_reducible apply Frame.foldl
    | with_reducible apply frame_finish
    | with_reducible apply frame_fioApply
    | with_reducible apply frame_fioEnter
    | with_reducible apply frame_replan
    | with_reducible apply frame_overPlan
    | with_reducible apply Frame.ite <;> intro _
    | intro _ _ _
    | (with_reducible refine Frame.of_mk _ _ _ _ _ _ _ _ _ _ _ _ _ _ _ _ _ _ _ _ _ _ _ _ _ _ _ _ _ hP ?_ rfl ?_ ?_ ?_ ?_ ?_ ?_ ?_ ?_ ?_ ?_ ?_ ?_ ?_ ?_ ?_ ?_ ?_ ?_ ?_ ?_ ?_ ?_ ?_ ?_ ?_ ?_ ?_ ?_ <;>
         first | with_reducible exact Or.inr rfl | exact Or.inl rfl | skip
       first
         | with_reducible assumption
         | split
      )

theorem frame_fioFire (s : State) (a : Act) (chans : List Nat) (duty : Nat) {P : List Part} {s0 : State} 
    (hP : subParts [.mem, .pwr, .rings, .bezel, .loupe, .edge, .fio, .plait, .out] P = true) (h : Frame P s0 s) : Frame P s0 (fioFire s a chans duty) := by
  unfold fioFire
  try extract_lets
  repeat' first
    | with_reducible assumption
    | exact subParts_trans (by decide) hP
    | with_reducible apply Frame.foldl
    | with_reducible apply frame_addShot
    | with_reducible apply frame_fioApply
    | with_reducible apply frame_finish
    | with_reducible apply frame_replan
    | with_reducible apply Frame.ite <;> intro _
    | intro _ _ _

theorem frame_actFioSet (ch : BitVec 6) (duty : BitVec 13) (a : Act) (s : State) {P : List Part} {s0 : State} 
    (hP : subParts [.mem, .pwr, .rings, .bezel, .loupe, .edge, .fio, .plait, .out] P = true) (h : Frame P s0 s) : Frame P s0 (actFioSet ch duty a s) := by
  unfold actFioSet
  try extract_lets
  repeat' first
    | with_reducible assumption
    | exact subParts_trans (by decide) hP
    | with_reducible apply frame_refuse
    | with_reducible apply frame_fioFire
    | with_reducible apply frame_fioPlan
    | with_reducible apply Frame.ite <;> intro _

theorem frame_execFioSet (d : Desc) (ch : BitVec 6) (duty : BitVec 13) (s : State) :
    OutFrame [.ecc, .mem, .pwr, .weave, .rings, .bezel, .loupe, .edge, .fio, .plait, .out] s (execFioSet d ch duty s) := by
  have h := Frame.refl [.ecc, .mem, .pwr, .weave, .rings, .bezel, .loupe, .edge, .fio, .plait, .out] s
  have hP : subParts [.ecc, .mem, .pwr, .weave, .rings, .bezel, .loupe, .edge, .fio, .plait, .out] [.ecc, .mem, .pwr, .weave, .rings, .bezel, .loupe, .edge, .fio, .plait, .out] = true := by decide
  unfold execFioSet
  show Frame [.ecc, .mem, .pwr, .weave, .rings, .bezel, .loupe, .edge, .fio, .plait, .out] _ _
  repeat' first
    | with_reducible assumption
    | exact subParts_trans (by decide) hP
    | with_reducible apply frame_accept
    | with_reducible apply frame_actFioSet
    | intro _ _ _

theorem frame_actFioMulti (mask : BitVec 64) (duty : BitVec 13) (a : Act) (s : State) {P : List Part} {s0 : State} 
    (hP : subParts [.mem, .pwr, .rings, .bezel, .loupe, .edge, .fio, .plait, .out] P = true) (h : Frame P s0 s) : Frame P s0 (actFioMulti mask duty a s) := by
  unfold actFioMulti
  try extract_lets
  repeat' first
    | with_reducible assumption
    | exact subParts_trans (by decide) hP
    | with_reducible apply frame_refuse
    | with_reducible apply frame_fioFire
    | with_reducible apply frame_fioPlan
    | with_reducible apply Frame.ite <;> intro _
    | (with_reducible refine Frame.of_mk _ _ _ _ _ _ _ _ _ _ _ _ _ _ _ _ _ _ _ _ _ _ _ _ _ _ _ _ _ hP ?_ rfl ?_ ?_ ?_ ?_ ?_ ?_ ?_ ?_ ?_ ?_ ?_ ?_ ?_ ?_ ?_ ?_ ?_ ?_ ?_ ?_ ?_ ?_ ?_ ?_ ?_ ?_ ?_ ?_ <;>
         first | with_reducible exact Or.inr rfl | exact Or.inl rfl | skip
       split)

theorem frame_execFioMulti (d : Desc) (mask : BitVec 64) (duty : BitVec 13) (s : State) :
    OutFrame [.ecc, .mem, .pwr, .weave, .rings, .bezel, .loupe, .edge, .fio, .plait, .out] s (execFioMulti d mask duty s) := by
  have h := Frame.refl [.ecc, .mem, .pwr, .weave, .rings, .bezel, .loupe, .edge, .fio, .plait, .out] s
  have hP : subParts [.ecc, .mem, .pwr, .weave, .rings, .bezel, .loupe, .edge, .fio, .plait, .out] [.ecc, .mem, .pwr, .weave, .rings, .bezel, .loupe, .edge, .fio, .plait, .out] = true := by decide
  unfold execFioMulti
  show Frame [.ecc, .mem, .pwr, .weave, .rings, .bezel, .loupe, .edge, .fio, .plait, .out] _ _
  repeat' first
    | with_reducible assumption
    | exact subParts_trans (by decide) hP
    | with_reducible apply frame_accept
    | with_reducible apply frame_actFioMulti
    | intro _ _ _

theorem frame_actFioClear (ch : BitVec 6) (a : Act) (s : State) {P : List Part} {s0 : State} 
    (hP : subParts [.mem, .pwr, .rings, .edge, .fio, .plait, .out] P = true) (h : Frame P s0 s) : Frame P s0 (actFioClear ch a s) := by
  unfold actFioClear
  try extract_lets
  repeat' first
    | with_reducible assumption
    | exact subParts_trans (by decide) hP
    | with_reducible apply frame_refuse
    | with_reducible apply frame_State_modFio
    | with_reducible apply frame_finish
    | with_reducible apply frame_fioOff
    | with_reducible apply Frame.ite <;> intro _

theorem frame_execFioClear (d : Desc) (ch : BitVec 6) (s : State) :
    OutFrame [.ecc, .mem, .pwr, .weave, .rings, .bezel, .loupe, .edge, .fio, .plait, .out] s (execFioClear d ch s) := by
  have h := Frame.refl [.ecc, .mem, .pwr, .weave, .rings, .bezel, .loupe, .edge, .fio, .plait, .out] s
  have hP : subParts [.ecc, .mem, .pwr, .weave, .rings, .bezel, .loupe, .edge, .fio, .plait, .out] [.ecc, .mem, .pwr, .weave, .rings, .bezel, .loupe, .edge, .fio, .plait, .out] = true := by decide
  unfold execFioClear
  show Frame [.ecc, .mem, .pwr, .weave, .rings, .bezel, .loupe, .edge, .fio, .plait, .out] _ _
  repeat' first
    | with_reducible assumption
    | exact subParts_trans (by decide) hP
    | with_reducible apply frame_accept
    | with_reducible apply frame_actFioClear
    | intro _ _ _

theorem frame_actFioRead (ch : BitVec 6) (a : Act) (s : State) {P : List Part} {s0 : State} 
    (hP : subParts [.mem, .pwr, .rings, .plait, .out] P = true) (h : Frame P s0 s) : Frame P s0 (actFioRead ch a s) := by
  unfold actFioRead
  repeat' first
    | with_reducible assumption
    | with_reducible apply frame_refuse
    | with_reducible apply frame_finish
    | with_reducible apply Frame.ite <;> intro _

theorem frame_execFioRead (d : Desc) (ch : BitVec 6) (s : State) :
    OutFrame [.ecc, .mem, .pwr, .weave, .rings, .bezel, .loupe, .plait, .out] s (execFioRead d ch s) := by
  have h := Frame.refl [.ecc, .mem, .pwr, .weave, .rings, .bezel, .loupe, .plait, .out] s
  have hP : subParts [.ecc, .mem, .pwr, .weave, .rings, .bezel, .loupe, .plait, .out] [.ecc, .mem, .pwr, .weave, .rings, .bezel, .loupe, .plait, .out] = true := by decide
  unfold execFioRead
  show Frame [.ecc, .mem, .pwr, .weave, .rings, .bezel, .loupe, .plait, .out] _ _
  repeat' first
    | with_reducible assumption
    | exact subParts_trans (by decide) hP
    | with_reducible apply frame_accept
    | with_reducible apply frame_actFioRead
    | intro _ _ _

theorem frame_execOutputCurrentLimitTrip (pin : Fin 48) (s : State) :
    OutFrame [.rings, .bezel, .loupe, .edge, .fio, .plait, .out] s (execOutputCurrentLimitTrip pin s) := by
  have h := Frame.refl [.rings, .bezel, .loupe, .edge, .fio, .plait, .out] s
  have hP : subParts [.rings, .bezel, .loupe, .edge, .fio, .plait, .out] [.rings, .bezel, .loupe, .edge, .fio, .plait, .out] = true := by decide
  unfold execOutputCurrentLimitTrip
  show Frame [.rings, .bezel, .loupe, .edge, .fio, .plait, .out] _ _
  try extract_lets
  repeat' first
    | with_reducible assumption
    | exact subParts_trans (by decide) hP
    | with_reducible apply frame_logEvent
    | with_reducible apply frame_State_modFio
    | with_reducible apply frame_fioOff
    | with_reducible apply Frame.ite <;> intro _

theorem frame_execOutputRetry (pin : Fin 48) (s : State) :
    OutFrame [.clk, .weave, .edge, .fio] s (execOutputRetry pin s) := by
  have h := Frame.refl [.clk, .weave, .edge, .fio] s
  have hP : subParts [.clk, .weave, .edge, .fio] [.clk, .weave, .edge, .fio] = true := by decide
  unfold execOutputRetry
  show Frame [.clk, .weave, .edge, .fio] _ _
  try extract_lets
  repeat' first
    | with_reducible assumption
    | exact subParts_trans (by decide) hP
    | with_reducible apply frame_State_reach
    | with_reducible apply frame_State_modFio
    | with_reducible apply frame_fioDrive
    | with_reducible apply Frame.ite <;> intro _
    | (with_reducible refine Frame.of_mk _ _ _ _ _ _ _ _ _ _ _ _ _ _ _ _ _ _ _ _ _ _ _ _ _ _ _ _ _ hP ?_ rfl ?_ ?_ ?_ ?_ ?_ ?_ ?_ ?_ ?_ ?_ ?_ ?_ ?_ ?_ ?_ ?_ ?_ ?_ ?_ ?_ ?_ ?_ ?_ ?_ ?_ ?_ ?_ ?_ <;>
         first | with_reducible exact Or.inr rfl | exact Or.inl rfl | skip
       split)

theorem frame_execOutputOt (pin : Fin 48) (hot : Bool) (s : State) :
    OutFrame [.rings, .bezel, .loupe, .edge, .fio, .plait, .out] s (execOutputOt pin hot s) := by
  have h := Frame.refl [.rings, .bezel, .loupe, .edge, .fio, .plait, .out] s
  have hP : subParts [.rings, .bezel, .loupe, .edge, .fio, .plait, .out] [.rings, .bezel, .loupe, .edge, .fio, .plait, .out] = true := by decide
  unfold execOutputOt
  show Frame [.rings, .bezel, .loupe, .edge, .fio, .plait, .out] _ _
  try extract_lets
  repeat' first
    | with_reducible assumption
    | exact subParts_trans (by decide) hP
    | with_reducible apply frame_fioOff
    | with_reducible apply frame_logEvent
    | with_reducible apply frame_State_modFio
    | with_reducible apply frame_fioDrive
    | with_reducible apply Frame.ite <;> intro _

theorem frame_execOutputOpenLoad (pin : Fin 48) (below : Bool) (s : State) :
    OutFrame [.rings, .bezel, .loupe, .fio, .plait, .out] s (execOutputOpenLoad pin below s) := by
  have h := Frame.refl [.rings, .bezel, .loupe, .fio, .plait, .out] s
  have hP : subParts [.rings, .bezel, .loupe, .fio, .plait, .out] [.rings, .bezel, .loupe, .fio, .plait, .out] = true := by decide
  unfold execOutputOpenLoad
  show Frame [.rings, .bezel, .loupe, .fio, .plait, .out] _ _
  try extract_lets
  repeat' first
    | with_reducible assumption
    | exact subParts_trans (by decide) hP
    | with_reducible apply frame_State_modFio
    | with_reducible apply frame_logEvent
    | with_reducible apply Frame.ite <;> intro _

end Sys2Proof.Machine
end

