-- ==== Sys2Proof/Laws/FrameHsoOps.lean ====
section
/-! SUPPORT. Which parts of the state the operations of Machine/HsoOps.lean may change. -/

namespace Sys2Proof.Machine

set_option linter.unusedTactic false
set_option linter.unreachableTactic false

theorem frame_State_modHso (s : State) (ch : Nat) (f : HsoCh → HsoCh) {P : List Part} {s0 : State} 
    (hP : subParts [.hso] P = true) (h : Frame P s0 s) : Frame P s0 (State.modHso s ch f) := by
  unfold State.modHso
  try extract_lets
  repeat' first
    | (with_reducible refine Frame.of_mk _ _ _ _ _ _ _ _ _ _ _ _ _ _ _ _ _ _ _ _ _ _ _ _ _ _ _ _ _ hP ?_ rfl ?_ ?_ ?_ ?_ ?_ ?_ ?_ ?_ ?_ ?_ ?_ ?_ ?_ ?_ ?_ ?_ ?_ ?_ ?_ ?_ ?_ ?_ ?_ ?_ ?_ ?_ ?_ ?_ <;>
         first | with_reducible exact Or.inr rfl | exact Or.inl rfl | skip
       with_reducible assumption)

theorem frame_State_modGrp (s : State) (g : Nat) (f : HsoGrp → HsoGrp) {P : List Part} {s0 : State} 
    (hP : subParts [.hso] P = true) (h : Frame P s0 s) : Frame P s0 (State.modGrp s g f) := by
  unfold State.modGrp
  try extract_lets
  repeat' first
    | (with_reducible refine Frame.of_mk _ _ _ _ _ _ _ _ _ _ _ _ _ _ _ _ _ _ _ _ _ _ _ _ _ _ _ _ _ hP ?_ rfl ?_ ?_ ?_ ?_ ?_ ?_ ?_ ?_ ?_ ?_ ?_ ?_ ?_ ?_ ?_ ?_ ?_ ?_ ?_ ?_ ?_ ?_ ?_ ?_ ?_ ?_ ?_ ?_ <;>
         first | with_reducible exact Or.inr rfl | exact Or.inl rfl | skip
       with_reducible assumption)

theorem frame_unheldHso (s : State) (ch : Nat) {P : List Part} {s0 : State} 
    (hP : subParts [.bezel] P = true) (h : Frame P s0 s) : Frame P s0 (unheldHso s ch) := by
  unfold unheldHso
  try extract_lets
  repeat' first
    | (with_reducible refine Frame.of_mk _ _ _ _ _ _ _ _ _ _ _ _ _ _ _ _ _ _ _ _ _ _ _ _ _ _ _ _ _ hP ?_ rfl ?_ ?_ ?_ ?_ ?_ ?_ ?_ ?_ ?_ ?_ ?_ ?_ ?_ ?_ ?_ ?_ ?_ ?_ ?_ ?_ ?_ ?_ ?_ ?_ ?_ ?_ ?_ ?_ <;>
         first | with_reducible exact Or.inr rfl | exact Or.inl rfl | skip
       with_reducible assumption)

theorem frame_hsoOff (s : State) (ch : Nat) (st : HsoSt) {P : List Part} {s0 : State} 
    (hP : subParts [.hso, .edge] P = true) (h : Frame P s0 s) : Frame P s0 (hsoOff s ch st) := by
  unfold hsoOff
  try extract_lets
  repeat' first
    | with_reducible assumption
    | exact subParts_trans (by decide) hP
    | with_reducible apply frame_planOff
    | with_reducible apply frame_State_modHso

theorem frame_endTest (s : State) (ch : Nat) {P : List Part} {s0 : State} 
    (hP : subParts [.mem, .pwr, .rings, .plait, .out] P = true) (h : Frame P s0 s) : Frame P s0 (endTest s ch) := by
  unfold endTest
  try extract_lets
  repeat' first
    | with_reducible assumption
    | with_reducible apply frame_refuse
    | (with_reducible refine Frame.of_mk _ _ _ _ _ _ _ _ _ _ _ _ _ _ _ _ _ _ _ _ _ _ _ _ _ _ _ _ _ hP ?_ rfl ?_ ?_ ?_ ?_ ?_ ?_ ?_ ?_ ?_ ?_ ?_ ?_ ?_ ?_ ?_ ?_ ?_ ?_ ?_ ?_ ?_ ?_ ?_ ?_ ?_ ?_ ?_ ?_ <;>
         first | with_reducible exact Or.inr rfl | exact Or.inl rfl | skip
       split)

theorem frame_hsoTurn (s : State) (ch : Nat) (st : HsoSt) (duty : Nat) {P : List Part} {s0 : State} 
    (hP : subParts [.mem, .pwr, .rings, .hso, .plait, .out] P = true) (h : Frame P s0 s) : Frame P s0 (hsoTurn s ch st duty) := by
  unfold hsoTurn
  try extract_lets
  repeat' first
    | with_reducible assumption
    | exact subParts_trans (by decide) hP
    | with_reducible apply frame_endTest
    | with_reducible apply frame_State_modHso

theorem frame_hsoDrive (s : State) (ch : Nat) (phase : Nat) (launch : Bool) {P : List Part} {s0 : State} 
    (hP : subParts [.mem, .pwr, .rings, .hso, .edge, .plait, .out] P = true) (h : Frame P s0 s) : Frame P s0 (hsoDrive s ch phase launch) := by
  unfold hsoDrive
  try extract_lets
  repeat' first
    | with_reducible assumption
    | exact subParts_trans (by decide) hP
    | with_reducible apply frame_hsoOff
    | with_reducible apply frame_State_modHso
    | with_reducible apply frame_planOff
    | with_reducible apply frame_hsoTurn
    | with_reducible apply frame_planOn
    | (with_reducible refine Frame.of_mk _ _ _ _ _ _ _ _ _ _ _ _ _ _ _ _ _ _ _ _ _ _ _ _ _ _ _ _ _ hP ?_ rfl ?_ ?_ ?_ ?_ ?_ ?_ ?_ ?_ ?_ ?_ ?_ ?_ ?_ ?_ ?_ ?_ ?_ ?_ ?_ ?_ ?_ ?_ ?_ ?_ ?_ ?_ ?_ ?_ <;>
         first | with_reducible exact Or.inr rfl | exact Or.inl rfl | skip
       split)

theorem frame_hsoApply (s : State) (ch : Nat) (st : Nat) (duty : Nat) (phase : Nat) (launch : Bool) {P : List Part} {s0 : State} 
    (hP : subParts [.mem, .pwr, .rings, .bezel, .hso, .edge, .plait, .out] P = true) (h : Frame P s0 s) : Frame P s0 (hsoApply s ch st duty phase launch) := by
  unfold hsoApply
  try extract_lets
  repeat' first
    | with_reducible assumption
    | exact subParts_trans (by decide) hP
    | with_reducible apply frame_unheldHso
    | with_reducible apply frame_State_modHso
    | with_reducible apply frame_hsoOff
    | with_reducible apply frame_hsoDrive
    | with_reducible apply Frame.ite <;> intro _
    | (with_reducible refine Frame.of_mk _ _ _ _ _ _ _ _ _ _ _ _ _ _ _ _ _ _ _ _ _ _ _ _ _ _ _ _ _ hP ?_ rfl ?_ ?_ ?_ ?_ ?_ ?_ ?_ ?_ ?_ ?_ ?_ ?_ ?_ ?_ ?_ ?_ ?_ ?_ ?_ ?_ ?_ ?_ ?_ ?_ ?_ ?_ ?_ ?_ <;>
         first | with_reducible exact Or.inr rfl | exact Or.inl rfl | skip
       split)

theorem frame_hsoEvent (s : State) (code : Nat) (ch : Nat) {P : List Part} {s0 : State} 
    (hP : subParts [.rings, .bezel, .loupe, .plait, .out] P = true) (h : Frame P s0 s) : Frame P s0 (hsoEvent s code ch) := by
  unfold hsoEvent
  repeat' first
    | with_reducible assumption
    | with_reducible apply frame_logEvent

theorem frame_hsoLatch (s : State) (ch : Nat) {P : List Part} {s0 : State} 
    (hP : subParts [.rings, .bezel, .loupe, .hso, .edge, .plait, .out] P = true) (h : Frame P s0 s) : Frame P s0 (hsoLatch s ch) := by
  unfold hsoLatch
  repeat' first
    | with_reducible assumption
    | exact subParts_trans (by decide) hP
    | with_reducible apply frame_hsoEvent
    | with_reducible apply frame_hsoOff

theorem frame_hsoTrip (s : State) (ch : Nat) (kind : RetryKind) (latch : Bool) {P : List Part} {s0 : State} 
    (hP : subParts [.rings, .bezel, .loupe, .hso, .edge, .plait, .out] P = true) (h : Frame P s0 s) : Frame P s0 (hsoTrip s ch kind latch) := by
  unfold hsoTrip
  try extract_lets
  repeat' first
    | with_reducible assumption
    | exact subParts_trans (by decide) hP
    | with_reducible apply frame_State_modHso
    | with_reducible apply frame_hsoOff
    | with_reducible apply frame_hsoLatch
    | with_reducible apply Frame.ite <;> intro _

theorem frame_hsoOverload (s : State) (ch : Nat) {P : List Part} {s0 : State} 
    (hP : subParts [.rings, .bezel, .loupe, .hso, .edge, .plait, .out] P = true) (h : Frame P s0 s) : Frame P s0 (hsoOverload s ch) := by
  unfold hsoOverload
  try extract_lets
  repeat' first
    | with_reducible assumption
    | exact subParts_trans (by decide) hP
    | with_reducible apply frame_hsoEvent
    | with_reducible apply frame_State_modHso
    | with_reducible apply frame_hsoTrip

theorem frame_hsoRetry (s : State) (ch : Nat) (count : Bool) {P : List Part} {s0 : State} 
    (hP : subParts [.mem, .pwr, .rings, .bezel, .loupe, .hso, .edge, .plait, .out] P = true) (h : Frame P s0 s) : Frame P s0 (hsoRetry s ch count) := by
  unfold hsoRetry
  try extract_lets
  repeat' first
    | with_reducible assumption
    | exact subParts_trans (by decide) hP
    | with_reducible apply frame_hsoEvent
    | with_reducible apply frame_State_modHso
    | with_reducible apply frame_hsoDrive
    | with_reducible apply Frame.ite <;> intro _

theorem frame_hsoClear (s : State) (ch : Nat) {P : List Part} {s0 : State} 
    (hP : subParts [.hso, .edge] P = true) (h : Frame P s0 s) : Frame P s0 (hsoClear s ch) := by
  unfold hsoClear
  try extract_lets
  repeat' first
    | with_reducible assumption
    | exact subParts_trans (by decide) hP
    | with_reducible apply frame_State_modHso
    | with_reducible apply frame_hsoOff
    | with_reducible apply Frame.ite <;> intro _
    | (with_reducible refine Frame.of_mk _ _ _ _ _ _ _ _ _ _ _ _ _ _ _ _ _ _ _ _ _ _ _ _ _ _ _ _ _ hP ?_ rfl ?_ ?_ ?_ ?_ ?_ ?_ ?_ ?_ ?_ ?_ ?_ ?_ ?_ ?_ ?_ ?_ ?_ ?_ ?_ ?_ ?_ ?_ ?_ ?_ ?_ ?_ ?_ ?_ <;>
         first | with_reducible exact Or.inr rfl | exact Or.inl rfl | skip
       split)

theorem frame_eachHso (s : State) (f : State → Nat → State) {P : List Part} {s0 : State} (h_f : ∀ y0 y1, Frame P s0 y0 → Frame P s0 (f y0 y1))
    (hP : subParts [] P = true) (h : Frame P s0 s) : Frame P s0 (eachHso s f) := by
  unfold eachHso
  repeat' first
    | with_reducible assumption
    | with_reducible apply Frame.foldl

theorem frame_hsoHold (s : State) {P : List Part} {s0 : State} 
    (hP : subParts [.bezel, .hso, .edge] P = true) (h : Frame P s0 s) : Frame P s0 (hsoHold s) := by
  unfold hsoHold
  try extract_lets
  repeat' first
    | with_reducible assumption
    | exact subParts_trans (by decide) hP
    | with_reducible apply frame_eachHso
    | with_reducible apply frame_State_modHso
    | with_reducible apply frame_hsoOff
    | with_reducible apply Frame.ite <;> intro _
    | intro _ _ _
    | (with_reducible refine Frame.of_mk _ _ _ _ _ _ _ _ _ _ _ _ _ _ _ _ _ _ _ _ _ _ _ _ _ _ _ _ _ hP ?_ rfl ?_ ?_ ?_ ?_ ?_ ?_ ?_ ?_ ?_ ?_ ?_ ?_ ?_ ?_ ?_ ?_ ?_ ?_ ?_ ?_ ?_ ?_ ?_ ?_ ?_ ?_ ?_ ?_ <;>
         first | with_reducible exact Or.inr rfl | exact Or.inl rfl | skip
       with_reducible apply frame_State_modHso)

theorem frame_hsoPark (s : State) {P : List Part} {s0 : State} 
    (hP : subParts [.bezel, .hso, .edge] P = true) (h : Frame P s0 s) : Frame P s0 (hsoPark s) := by
  unfold hsoPark
  repeat' first
    | with_reducible assumption
    | exact subParts_trans (by decide) hP
    | with_reducible apply frame_hsoHold
    | with_reducible apply frame_eachHso
    | with_reducible apply frame_hsoOff
    | with_reducible apply frame_unheldHso
    | with_reducible apply Frame.ite <;> intro _
    | intro _ _ _

theorem frame_hsoAllOff (s : State) {P : List Part} {s0 : State} 
    (hP : subParts [.hso, .edge] P = true) (h : Frame P s0 s) : Frame P s0 (hsoAllOff s) := by
  unfold hsoAllOff
  repeat' first
    | with_reducible assumption
    | exact subParts_trans (by decide) hP
    | with_reducible apply frame_eachHso
    | with_reducible apply frame_hsoOff
    | intro _ _ _

theorem frame_hsoClaims (s : State) {P : List Part} {s0 : State} 
    (hP : subParts [.bezel, .hso, .edge] P = true) (h : Frame P s0 s) : Frame P s0 (hsoClaims s) := by
  unfold hsoClaims
  try extract_lets
  repeat' first
    | with_reducible assumption
    | exact subParts_trans (by decide) hP
    | with_reducible apply frame_eachHso
    | with_reducible apply frame_hsoOff
    | with_reducible apply frame_unheldHso
    | with_reducible apply frame_State_modHso
    | intro _ _ _
    | (with_reducible refine Frame.of_mk _ _ _ _ _ _ _ _ _ _ _ _ _ _ _ _ _ _ _ _ _ _ _ _ _ _ _ _ _ hP ?_ rfl ?_ ?_ ?_ ?_ ?_ ?_ ?_ ?_ ?_ ?_ ?_ ?_ ?_ ?_ ?_ ?_ ?_ ?_ ?_ ?_ ?_ ?_ ?_ ?_ ?_ ?_ ?_ ?_ <;>
         first | with_reducible exact Or.inr rfl | exact Or.inl rfl | skip
       split)

theorem frame_hsoRoad (s : State) {P : List Part} {s0 : State} 
    (hP : subParts [.bezel, .hso, .edge] P = true) (h : Frame P s0 s) : Frame P s0 (hsoRoad s) := by
  unfold hsoRoad
  try extract_lets
  repeat' first
    | with_reducible assumption
    | exact subParts_trans (by decide) hP
    | with_reducible apply frame_eachHso
    | with_reducible apply frame_unheldHso
    | with_reducible apply frame_hsoOff
    | with_reducible apply frame_State_modHso
    | with_reducible apply Frame.ite <;> intro _
    | intro _ _ _

theorem frame_hsoOrphan1 (s : State) (ch : Nat) {P : List Part} {s0 : State} 
    (hP : subParts [.hso, .edge] P = true) (h : Frame P s0 s) : Frame P s0 (hsoOrphan1 s ch) := by
  unfold hsoOrphan1
  try extract_lets
  repeat' first
    | with_reducible assumption
    | exact subParts_trans (by decide) hP
    | with_reducible apply frame_hsoOff
    | with_reducible apply frame_State_modHso
    | with_reducible apply Frame.ite <;> intro _
    | (with_reducible refine Frame.of_mk _ _ _ _ _ _ _ _ _ _ _ _ _ _ _ _ _ _ _ _ _ _ _ _ _ _ _ _ _ hP ?_ rfl ?_ ?_ ?_ ?_ ?_ ?_ ?_ ?_ ?_ ?_ ?_ ?_ ?_ ?_ ?_ ?_ ?_ ?_ ?_ ?_ ?_ ?_ ?_ ?_ ?_ ?_ ?_ ?_ <;>
         first | with_reducible exact Or.inr rfl | exact Or.inl rfl | skip
       split)

theorem frame_hsoReclaim (s : State) (ch : Nat) {P : List Part} {s0 : State} 
    (hP : subParts [.bezel, .hso, .edge, .free] P = true) (h : Frame P s0 s) : Frame P s0 (hsoReclaim s ch) := by
  unfold hsoReclaim
  try extract_lets
  repeat' first
    | with_reducible assumption
    | exact subParts_trans (by decide) hP
    | with_reducible apply frame_unheldHso
    | with_reducible apply frame_State_modHso
    | with_reducible apply frame_hsoOff
    | with_reducible apply frame_State_takeNat
    | with_reducible apply frame_planOn
    | with_reducible apply Frame.ite <;> intro _
    | (with_reducible refine Frame.of_mk _ _ _ _ _ _ _ _ _ _ _ _ _ _ _ _ _ _ _ _ _ _ _ _ _ _ _ _ _ hP ?_ rfl ?_ ?_ ?_ ?_ ?_ ?_ ?_ ?_ ?_ ?_ ?_ ?_ ?_ ?_ ?_ ?_ ?_ ?_ ?_ ?_ ?_ ?_ ?_ ?_ ?_ ?_ ?_ ?_ <;>
         first | with_reducible exact Or.inr rfl | exact Or.inl rfl | skip
       split)

theorem frame_hsoShed (s : State) (prio : Nat) {P : List Part} {s0 : State} 
    (hP : subParts [.rings, .bezel, .loupe, .hso, .edge, .plait, .out] P = true) (h : Frame P s0 s) : Frame P s0 (hsoShed s prio) := by
  unfold hsoShed
  try extract_lets
  repeat' first
    | with_reducible assumption
    | exact subParts_trans (by decide) hP
    | with_reducible apply frame_eachHso
    | with_reducible apply frame_hsoEvent
    | with_reducible apply frame_hsoOff
    | with_reducible apply Frame.ite <;> intro _
    | intro _ _ _

theorem frame_hsoUnshed (s : State) {P : List Part} {s0 : State} 
    (hP : subParts [.hso] P = true) (h : Frame P s0 s) : Frame P s0 (hsoUnshed s) := by
  unfold hsoUnshed
  try extract_lets
  repeat' first
    | with_reducible assumption
    | exact subParts_trans (by decide) hP
    | with_reducible apply frame_eachHso
    | with_reducible apply frame_State_modHso
    | with_reducible apply Frame.ite <;> intro _
    | intro _ _ _

theorem frame_hsoPause (s : State) (k : Nat) {P : List Part} {s0 : State} 
    (hP : subParts [.hso, .edge] P = true) (h : Frame P s0 s) : Frame P s0 (hsoPause s k) := by
  unfold hsoPause
  try extract_lets
  repeat' first
    | with_reducible assumption
    | exact subParts_trans (by decide) hP
    | with_reducible apply frame_eachHso
    | with_reducible apply frame_hsoOff
    | with_reducible apply frame_State_modHso
    | with_reducible apply Frame.ite <;> intro _
    | intro _ _ _

theorem frame_hsoFrame (s : State) {P : List Part} {s0 : State} 
    (hP : subParts [.mem, .pwr, .rings, .bezel, .loupe, .hso, .edge, .plait, .out] P = true) (h : Frame P s0 s) : Frame P s0 (hsoFrame s) := by
  unfold hsoFrame
  try extract_lets
  repeat' first
    | with_reducible assumption
    | exact subParts_trans (by decide) hP
    | with_reducible apply Frame.foldl
    | with_reducible apply frame_hsoEvent
    | with_reducible apply frame_hsoDrive
    | with_reducible apply frame_State_modHso
    | with_reducible apply frame_eachHso
    | with_reducible apply Frame.ite <;> intro _
    | intro _ _ _

end Sys2Proof.Machine
end

