-- ==== Sys2Proof/Laws/FrameHso.lean ====
section
/-! SUPPORT. Which parts of the state the operations of Machine/Hso.lean may change. -/

namespace Sys2Proof.Machine

set_option linter.unusedTactic false
set_option linter.unreachableTactic false

theorem frame_hsoEnter (slot : Nat) (st : Nat) (duty : Nat) (s : State) (ch : Nat) {P : List Part} {s0 : State} 
    (hP : subParts [.edge] P = true) (h : Frame P s0 s) : Frame P s0 (hsoEnter slot st duty s ch) := by
  unfold hsoEnter
  try extract_lets
  repeat' first
    | with_reducible assumption
    | with_reducible apply frame_addShot
    | with_reducible apply frame_planOn
    | (with_reducible refine Frame.of_mk _ _ _ _ _ _ _ _ _ _ _ _ _ _ _ _ _ _ _ _ _ _ _ _ _ _ _ _ _ hP ?_ rfl ?_ ?_ ?_ ?_ ?_ ?_ ?_ ?_ ?_ ?_ ?_ ?_ ?_ ?_ ?_ ?_ ?_ ?_ ?_ ?_ ?_ ?_ ?_ ?_ ?_ ?_ ?_ ?_ <;>
         first | with_reducible exact Or.inr rfl | exact Or.inl rfl | skip
       split)

theorem frame_hsoPlan (s : State) (a : Act) (chans : List Nat) (st : Nat) (duty : Nat) {P : List Part} {s0 : State} 
    (hP : subParts [.mem, .pwr, .rings, .bezel, .loupe, .hso, .edge, .plait, .out] P = true) (h : Frame P s0 s) : Frame P s0 (hsoPlan s a chans st duty) := by
  unfold hsoPlan
  try extract_lets
  repeat' first
    | with_reducible assumption
    | exact subParts_trans (by decide) hP
    | with_reducible apply Frame.foldl
    | with_reducible apply frame_finish
    | with_reducible apply frame_hsoApply
    | with_reducible apply frame_hsoEnter
    | with_reducible apply frame_replan
    | with_reducible apply frame_overPlan
    | with_reducible apply Frame.ite <;> intro _
    | intro _ _ _
    | (with_reducible refine Frame.of_mk _ _ _ _ _ _ _ _ _ _ _ _ _ _ _ _ _ _ _ _ _ _ _ _ _ _ _ _ _ hP ?_ rfl ?_ ?_ ?_ ?_ ?_ ?_ ?_ ?_ ?_ ?_ ?_ ?_ ?_ ?_ ?_ ?_ ?_ ?_ ?_ ?_ ?_ ?_ ?_ ?_ ?_ ?_ ?_ ?_ <;>
         first | with_reducible exact Or.inr rfl | exact Or.inl rfl | skip
       first
         | with_reducible assumption
         | split
      )

theorem frame_hsoFire (s : State) (a : Act) (chans : List Nat) (st : Nat) (duty : Nat) {P : List Part} {s0 : State} 
    (hP : subParts [.mem, .pwr, .rings, .bezel, .loupe, .hso, .edge, .plait, .out] P = true) (h : Frame P s0 s) : Frame P s0 (hsoFire s a chans st duty) := by
  unfold hsoFire
  try extract_lets
  repeat' first
    | with_reducible assumption
    | exact subParts_trans (by decide) hP
    | with_reducible apply Frame.foldl
    | with_reducible apply frame_addShot
    | with_reducible apply frame_hsoApply
    | with_reducible apply frame_finish
    | with_reducible apply frame_replan
    | intro _ _ _
    | (with_reducible refine Frame.of_mk _ _ _ _ _ _ _ _ _ _ _ _ _ _ _ _ _ _ _ _ _ _ _ _ _ _ _ _ _ hP ?_ rfl ?_ ?_ ?_ ?_ ?_ ?_ ?_ ?_ ?_ ?_ ?_ ?_ ?_ ?_ ?_ ?_ ?_ ?_ ?_ ?_ ?_ ?_ ?_ ?_ ?_ ?_ ?_ ?_ <;>
         first | with_reducible exact Or.inr rfl | exact Or.inl rfl | skip
       split)

theorem frame_actHsoSet (ch : BitVec 6) (st : BitVec 2) (duty : BitVec 13) (a : Act) (s : State) {P : List Part} {s0 : State} 
    (hP : subParts [.mem, .pwr, .rings, .bezel, .loupe, .hso, .edge, .plait, .out] P = true) (h : Frame P s0 s) : Frame P s0 (actHsoSet ch st duty a s) := by
  unfold actHsoSet
  try extract_lets
  repeat' first
    | with_reducible assumption
    | exact subParts_trans (by decide) hP
    | with_reducible apply frame_refuse
    | with_reducible apply frame_finishAs
    | with_reducible apply frame_hsoApply
    | with_reducible apply frame_hsoFire
    | with_reducible apply frame_hsoPlan
    | with_reducible apply Frame.ite <;> intro _

theorem frame_execHsoSet (d : Desc) (ch : BitVec 6) (state : BitVec 2) (duty : BitVec 13) (s : State) :
    OutFrame [.ecc, .mem, .pwr, .weave, .rings, .bezel, .loupe, .hso, .edge, .plait, .out] s (execHsoSet d ch state duty s) := by
  have h := Frame.refl [.ecc, .mem, .pwr, .weave, .rings, .bezel, .loupe, .hso, .edge, .plait, .out] s
  have hP : subParts [.ecc, .mem, .pwr, .weave, .rings, .bezel, .loupe, .hso, .edge, .plait, .out] [.ecc, .mem, .pwr, .weave, .rings, .bezel, .loupe, .hso, .edge, .plait, .out] = true := by decide
  unfold execHsoSet
  show Frame [.ecc, .mem, .pwr, .weave, .rings, .bezel, .loupe, .hso, .edge, .plait, .out] _ _
  repeat' first
    | with_reducible assumption
    | exact subParts_trans (by decide) hP
    | with_reducible apply frame_accept
    | with_reducible apply frame_actHsoSet
    | intro _ _ _

theorem frame_actHsoMulti (mask : BitVec 64) (st : BitVec 2) (duty : BitVec 13) (a : Act) (s : State) {P : List Part} {s0 : State} 
    (hP : subParts [.mem, .pwr, .rings, .bezel, .loupe, .hso, .edge, .plait, .out] P = true) (h : Frame P s0 s) : Frame P s0 (actHsoMulti mask st duty a s) := by
  unfold actHsoMulti
  try extract_lets
  repeat' first
    | with_reducible assumption
    | exact subParts_trans (by decide) hP
    | with_reducible apply Frame.foldl
    | with_reducible apply frame_refuse
    | with_reducible apply frame_hsoApply
    | with_reducible apply frame_finishAs
    | with_reducible apply frame_hsoFire
    | with_reducible apply frame_hsoPlan
    | with_reducible apply Frame.ite <;> intro _
    | intro _ _ _
    | (with_reducible refine Frame.of_mk _ _ _ _ _ _ _ _ _ _ _ _ _ _ _ _ _ _ _ _ _ _ _ _ _ _ _ _ _ hP ?_ rfl ?_ ?_ ?_ ?_ ?_ ?_ ?_ ?_ ?_ ?_ ?_ ?_ ?_ ?_ ?_ ?_ ?_ ?_ ?_ ?_ ?_ ?_ ?_ ?_ ?_ ?_ ?_ ?_ <;>
         first | with_reducible exact Or.inr rfl | exact Or.inl rfl | skip
       split)

theorem frame_execHsoMulti (d : Desc) (mask : BitVec 64) (state : BitVec 2) (duty : BitVec 13) (s : State) :
    OutFrame [.ecc, .mem, .pwr, .weave, .rings, .bezel, .loupe, .hso, .edge, .plait, .out] s (execHsoMulti d mask state duty s) := by
  have h := Frame.refl [.ecc, .mem, .pwr, .weave, .rings, .bezel, .loupe, .hso, .edge, .plait, .out] s
  have hP : subParts [.ecc, .mem, .pwr, .weave, .rings, .bezel, .loupe, .hso, .edge, .plait, .out] [.ecc, .mem, .pwr, .weave, .rings, .bezel, .loupe, .hso, .edge, .plait, .out] = true := by decide
  unfold execHsoMulti
  show Frame [.ecc, .mem, .pwr, .weave, .rings, .bezel, .loupe, .hso, .edge, .plait, .out] _ _
  repeat' first
    | with_reducible assumption
    | exact subParts_trans (by decide) hP
    | with_reducible apply frame_accept
    | with_reducible apply frame_actHsoMulti
    | intro _ _ _

theorem frame_actHsoClear (ch : BitVec 6) (a : Act) (s : State) {P : List Part} {s0 : State} 
    (hP : subParts [.mem, .pwr, .rings, .hso, .edge, .plait, .out] P = true) (h : Frame P s0 s) : Frame P s0 (actHsoClear ch a s) := by
  unfold actHsoClear
  repeat' first
    | with_reducible assumption
    | exact subParts_trans (by decide) hP
    | with_reducible apply frame_refuse
    | with_reducible apply frame_finish
    | with_reducible apply frame_hsoClear
    | with_reducible apply Frame.ite <;> intro _

theorem frame_execHsoClear (d : Desc) (ch : BitVec 6) (s : State) :
    OutFrame [.ecc, .mem, .pwr, .weave, .rings, .bezel, .loupe, .hso, .edge, .plait, .out] s (execHsoClear d ch s) := by
  have h := Frame.refl [.ecc, .mem, .pwr, .weave, .rings, .bezel, .loupe, .hso, .edge, .plait, .out] s
  have hP : subParts [.ecc, .mem, .pwr, .weave, .rings, .bezel, .loupe, .hso, .edge, .plait, .out] [.ecc, .mem, .pwr, .weave, .rings, .bezel, .loupe, .hso, .edge, .plait, .out] = true := by decide
  unfold execHsoClear
  show Frame [.ecc, .mem, .pwr, .weave, .rings, .bezel, .loupe, .hso, .edge, .plait, .out] _ _
  repeat' first
    | with_reducible assumption
    | exact subParts_trans (by decide) hP
    | with_reducible apply frame_accept
    | with_reducible apply frame_actHsoClear
    | intro _ _ _

theorem frame_actHsoRead (ch : BitVec 6) (a : Act) (s : State) {P : List Part} {s0 : State} 
    (hP : subParts [.mem, .pwr, .rings, .plait, .out] P = true) (h : Frame P s0 s) : Frame P s0 (actHsoRead ch a s) := by
  unfold actHsoRead
  try extract_lets
  repeat' first
    | with_reducible assumption
    | with_reducible apply frame_refuse
    | with_reducible apply frame_finish
    | with_reducible apply Frame.ite <;> intro _

theorem frame_execHsoRead (d : Desc) (ch : BitVec 6) (s : State) :
    OutFrame [.ecc, .mem, .pwr, .weave, .rings, .bezel, .loupe, .plait, .out] s (execHsoRead d ch s) := by
  have h := Frame.refl [.ecc, .mem, .pwr, .weave, .rings, .bezel, .loupe, .plait, .out] s
  have hP : subParts [.ecc, .mem, .pwr, .weave, .rings, .bezel, .loupe, .plait, .out] [.ecc, .mem, .pwr, .weave, .rings, .bezel, .loupe, .plait, .out] = true := by decide
  unfold execHsoRead
  show Frame [.ecc, .mem, .pwr, .weave, .rings, .bezel, .loupe, .plait, .out] _ _
  repeat' first
    | with_reducible assumption
    | exact subParts_trans (by decide) hP
    | with_reducible apply frame_accept
    | with_reducible apply frame_actHsoRead
    | intro _ _ _

theorem frame_actHsoOltest (ch : BitVec 6) (a : Act) (s : State) {P : List Part} {s0 : State} 
    (hP : subParts [.mem, .pwr, .rings, .hso, .plait, .out] P = true) (h : Frame P s0 s) : Frame P s0 (actHsoOltest ch a s) := by
  unfold actHsoOltest
  try extract_lets
  repeat' first
    | with_reducible assumption
    | exact subParts_trans (by decide) hP
    | with_reducible apply frame_refuse
    | with_reducible apply frame_State_modHso
    | with_reducible apply Frame.ite <;> intro _
    | (with_reducible refine Frame.of_mk _ _ _ _ _ _ _ _ _ _ _ _ _ _ _ _ _ _ _ _ _ _ _ _ _ _ _ _ _ hP ?_ rfl ?_ ?_ ?_ ?_ ?_ ?_ ?_ ?_ ?_ ?_ ?_ ?_ ?_ ?_ ?_ ?_ ?_ ?_ ?_ ?_ ?_ ?_ ?_ ?_ ?_ ?_ ?_ ?_ <;>
         first | with_reducible exact Or.inr rfl | exact Or.inl rfl | skip
       split)

theorem frame_execHsoOltest (d : Desc) (ch : BitVec 6) (s : State) :
    OutFrame [.ecc, .mem, .pwr, .weave, .rings, .bezel, .loupe, .hso, .plait, .out] s (execHsoOltest d ch s) := by
  have h := Frame.refl [.ecc, .mem, .pwr, .weave, .rings, .bezel, .loupe, .hso, .plait, .out] s
  have hP : subParts [.ecc, .mem, .pwr, .weave, .rings, .bezel, .loupe, .hso, .plait, .out] [.ecc, .mem, .pwr, .weave, .rings, .bezel, .loupe, .hso, .plait, .out] = true := by decide
  unfold execHsoOltest
  show Frame [.ecc, .mem, .pwr, .weave, .rings, .bezel, .loupe, .hso, .plait, .out] _ _
  repeat' first
    | with_reducible assumption
    | exact subParts_trans (by decide) hP
    | with_reducible apply frame_accept
    | with_reducible apply frame_actHsoOltest
    | intro _ _ _

theorem frame_execSoftStartStep (ch : Fin 64) (s : State) :
    OutFrame [.mem, .pwr, .rings, .hso, .edge, .plait, .out] s (execSoftStartStep ch s) := by
  have h := Frame.refl [.mem, .pwr, .rings, .hso, .edge, .plait, .out] s
  have hP : subParts [.mem, .pwr, .rings, .hso, .edge, .plait, .out] [.mem, .pwr, .rings, .hso, .edge, .plait, .out] = true := by decide
  unfold execSoftStartStep
  show Frame [.mem, .pwr, .rings, .hso, .edge, .plait, .out] _ _
  try extract_lets
  repeat' first
    | with_reducible assumption
    | exact subParts_trans (by decide) hP
    | with_reducible apply frame_planOff
    | with_reducible apply frame_hsoTurn
    | with_reducible apply frame_State_modHso
    | with_reducible apply frame_planOnTime
    | with_reducible apply Frame.ite <;> intro _

theorem frame_execFeedMeasure (mv0 : BitVec 16) (mv1 : BitVec 16) (mv2 : BitVec 16) (bst : BitVec 16) (s : State) :
    OutFrame [.hso, .vlv, .upd] s (execFeedMeasure mv0 mv1 mv2 bst s) := by
  have h := Frame.refl [.hso, .vlv, .upd] s
  have hP : subParts [.hso, .vlv, .upd] [.hso, .vlv, .upd] = true := by decide
  unfold execFeedMeasure
  show Frame [.hso, .vlv, .upd] _ _
  try extract_lets
  repeat' first
    | with_reducible assumption
    | with_reducible apply Frame.ite <;> intro _
    | (with_reducible refine Frame.of_mk _ _ _ _ _ _ _ _ _ _ _ _ _ _ _ _ _ _ _ _ _ _ _ _ _ _ _ _ _ hP ?_ rfl ?_ ?_ ?_ ?_ ?_ ?_ ?_ ?_ ?_ ?_ ?_ ?_ ?_ ?_ ?_ ?_ ?_ ?_ ?_ ?_ ?_ ?_ ?_ ?_ ?_ ?_ ?_ ?_ <;>
         first | with_reducible exact Or.inr rfl | exact Or.inl rfl | skip
       with_reducible assumption)

theorem frame_execSenseUpdate (ch : Fin 64) (milliamps : Nat) (groupTenMa : BitVec 16) (groupTemp : BitVec 8) (s : State) :
    OutFrame [.hso] s (execSenseUpdate ch milliamps groupTenMa groupTemp s) := by
  have h := Frame.refl [.hso] s
  have hP : subParts [.hso] [.hso] = true := by decide
  unfold execSenseUpdate
  show Frame [.hso] _ _
  try extract_lets
  repeat' first
    | with_reducible assumption
    | with_reducible apply frame_State_modGrp
    | with_reducible apply frame_State_modHso
    | with_reducible apply Frame.ite <;> intro _

theorem frame_execInrushWindowEnd (ch : Fin 64) (s : State) :
    OutFrame [.clk, .weave, .hso] s (execInrushWindowEnd ch s) := by
  have h := Frame.refl [.clk, .weave, .hso] s
  have hP : subParts [.clk, .weave, .hso] [.clk, .weave, .hso] = true := by decide
  unfold execInrushWindowEnd
  show Frame [.clk, .weave, .hso] _ _
  try extract_lets
  repeat' first
    | with_reducible assumption
    | exact subParts_trans (by decide) hP
    | with_reducible apply frame_State_reach
    | with_reducible apply frame_State_modHso
    | with_reducible apply Frame.ite <;> intro _

theorem frame_delayTurnOns (s : State) (g : Nat) {P : List Part} {s0 : State} 
    (hP : subParts [.edge] P = true) (h : Frame P s0 s) : Frame P s0 (delayTurnOns s g) := by
  unfold delayTurnOns
  try extract_lets
  repeat' first
    | (with_reducible refine Frame.of_mk _ _ _ _ _ _ _ _ _ _ _ _ _ _ _ _ _ _ _ _ _ _ _ _ _ _ _ _ _ hP ?_ rfl ?_ ?_ ?_ ?_ ?_ ?_ ?_ ?_ ?_ ?_ ?_ ?_ ?_ ?_ ?_ ?_ ?_ ?_ ?_ ?_ ?_ ?_ ?_ ?_ ?_ ?_ ?_ ?_ <;>
         first | with_reducible exact Or.inr rfl | exact Or.inl rfl | skip
       with_reducible assumption)

theorem frame_execFastTrip (ch : Fin 64) (s : State) :
    OutFrame [.rings, .bezel, .loupe, .hso, .edge, .plait, .out] s (execFastTrip ch s) := by
  have h := Frame.refl [.rings, .bezel, .loupe, .hso, .edge, .plait, .out] s
  have hP : subParts [.rings, .bezel, .loupe, .hso, .edge, .plait, .out] [.rings, .bezel, .loupe, .hso, .edge, .plait, .out] = true := by decide
  unfold execFastTrip
  show Frame [.rings, .bezel, .loupe, .hso, .edge, .plait, .out] _ _
  try extract_lets
  repeat' first
    | with_reducible assumption
    | exact subParts_trans (by decide) hP
    | with_reducible apply frame_State_modHso
    | with_reducible apply frame_hsoEvent
    | with_reducible apply frame_hsoTrip
    | with_reducible apply frame_delayTurnOns
    | with_reducible apply frame_State_modGrp
    | with_reducible apply Frame.ite <;> intro _

theorem frame_execFastTripRetry (ch : Fin 64) (s : State) :
    OutFrame [.clk, .mem, .pwr, .weave, .rings, .bezel, .loupe, .hso, .edge, .plait, .out] s (execFastTripRetry ch s) := by
  have h := Frame.refl [.clk, .mem, .pwr, .weave, .rings, .bezel, .loupe, .hso, .edge, .plait, .out] s
  have hP : subParts [.clk, .mem, .pwr, .weave, .rings, .bezel, .loupe, .hso, .edge, .plait, .out] [.clk, .mem, .pwr, .weave, .rings, .bezel, .loupe, .hso, .edge, .plait, .out] = true := by decide
  unfold execFastTripRetry
  show Frame [.clk, .mem, .pwr, .weave, .rings, .bezel, .loupe, .hso, .edge, .plait, .out] _ _
  try extract_lets
  repeat' first
    | with_reducible assumption
    | exact subParts_trans (by decide) hP
    | with_reducible apply frame_State_reach
    | with_reducible apply frame_hsoRetry
    | with_reducible apply frame_State_modHso
    | with_reducible apply Frame.ite <;> intro _

theorem frame_execFastTripHoldoffEnd (grp : Fin 8) (s : State) :
    OutFrame [.clk, .weave, .hso] s (execFastTripHoldoffEnd grp s) := by
  have h := Frame.refl [.clk, .weave, .hso] s
  have hP : subParts [.clk, .weave, .hso] [.clk, .weave, .hso] = true := by decide
  unfold execFastTripHoldoffEnd
  show Frame [.clk, .weave, .hso] _ _
  try extract_lets
  repeat' first
    | with_reducible assumption
    | exact subParts_trans (by decide) hP
    | with_reducible apply frame_State_reach
    | with_reducible apply frame_State_modGrp
    | (with_reducible refine Frame.of_mk _ _ _ _ _ _ _ _ _ _ _ _ _ _ _ _ _ _ _ _ _ _ _ _ _ _ _ _ _ hP ?_ rfl ?_ ?_ ?_ ?_ ?_ ?_ ?_ ?_ ?_ ?_ ?_ ?_ ?_ ?_ ?_ ?_ ?_ ?_ ?_ ?_ ?_ ?_ ?_ ?_ ?_ ?_ ?_ ?_ <;>
         first | with_reducible exact Or.inr rfl | exact Or.inl rfl | skip
       split)

theorem frame_execOverloadTrip (ch : Fin 64) (s : State) :
    OutFrame [.rings, .bezel, .loupe, .hso, .edge, .plait, .out] s (execOverloadTrip ch s) := by
  have h := Frame.refl [.rings, .bezel, .loupe, .hso, .edge, .plait, .out] s
  have hP : subParts [.rings, .bezel, .loupe, .hso, .edge, .plait, .out] [.rings, .bezel, .loupe, .hso, .edge, .plait, .out] = true := by decide
  unfold execOverloadTrip
  show Frame [.rings, .bezel, .loupe, .hso, .edge, .plait, .out] _ _
  repeat' first
    | with_reducible assumption
    | with_reducible apply frame_hsoOverload
    | with_reducible apply Frame.ite <;> intro _

theorem frame_execWireModelUpdate (ch : Fin 64) (meanSquare : Nat) (s : State) :
    OutFrame [.mem, .pwr, .rings, .bezel, .loupe, .hso, .edge, .plait, .out, .free] s (execWireModelUpdate ch meanSquare s) := by
  have h := Frame.refl [.mem, .pwr, .rings, .bezel, .loupe, .hso, .edge, .plait, .out, .free] s
  have hP : subParts [.mem, .pwr, .rings, .bezel, .loupe, .hso, .edge, .plait, .out, .free] [.mem, .pwr, .rings, .bezel, .loupe, .hso, .edge, .plait, .out, .free] = true := by decide
  unfold execWireModelUpdate
  show Frame [.mem, .pwr, .rings, .bezel, .loupe, .hso, .edge, .plait, .out, .free] _ _
  try extract_lets
  repeat' first
    | with_reducible assumption
    | exact subParts_trans (by decide) hP
    | with_reducible apply frame_State_modHso
    | with_reducible apply frame_hsoEvent
    | with_reducible apply frame_hsoTrip
    | with_reducible apply frame_hsoRetry
    | with_reducible apply frame_State_takeBit
    | with_reducible apply Frame.ite <;> intro _

theorem frame_execRetryCountReset (ch : Fin 64) (s : State) :
    OutFrame [.clk, .weave, .hso] s (execRetryCountReset ch s) := by
  have h := Frame.refl [.clk, .weave, .hso] s
  have hP : subParts [.clk, .weave, .hso] [.clk, .weave, .hso] = true := by decide
  unfold execRetryCountReset
  show Frame [.clk, .weave, .hso] _ _
  try extract_lets
  repeat' first
    | with_reducible assumption
    | exact subParts_trans (by decide) hP
    | with_reducible apply frame_State_reach
    | with_reducible apply frame_State_modHso
    | with_reducible apply Frame.ite <;> intro _

theorem frame_execWireModelSave (s : State) :
    OutFrame [.bezel] s (execWireModelSave s) := by
  have h := Frame.refl [.bezel] s
  have hP : subParts [.bezel] [.bezel] = true := by decide
  unfold execWireModelSave
  show Frame [.bezel] _ _
  try extract_lets
  repeat' first
    | with_reducible assumption
    | with_reducible apply Frame.ite <;> intro _
    | (with_reducible refine Frame.of_mk _ _ _ _ _ _ _ _ _ _ _ _ _ _ _ _ _ _ _ _ _ _ _ _ _ _ _ _ _ hP ?_ rfl ?_ ?_ ?_ ?_ ?_ ?_ ?_ ?_ ?_ ?_ ?_ ?_ ?_ ?_ ?_ ?_ ?_ ?_ ?_ ?_ ?_ ?_ ?_ ?_ ?_ ?_ ?_ ?_ <;>
         first | with_reducible exact Or.inr rfl | exact Or.inl rfl | skip
       with_reducible assumption)

theorem frame_execJunctionOtTrip (ch : Fin 64) (s : State) :
    OutFrame [.rings, .bezel, .loupe, .hso, .edge, .plait, .out] s (execJunctionOtTrip ch s) := by
  have h := Frame.refl [.rings, .bezel, .loupe, .hso, .edge, .plait, .out] s
  have hP : subParts [.rings, .bezel, .loupe, .hso, .edge, .plait, .out] [.rings, .bezel, .loupe, .hso, .edge, .plait, .out] = true := by decide
  unfold execJunctionOtTrip
  show Frame [.rings, .bezel, .loupe, .hso, .edge, .plait, .out] _ _
  try extract_lets
  repeat' first
    | with_reducible assumption
    | exact subParts_trans (by decide) hP
    | with_reducible apply frame_State_modHso
    | with_reducible apply frame_hsoEvent
    | with_reducible apply frame_hsoTrip
    | with_reducible apply Frame.ite <;> intro _

theorem frame_execJunctionOtClear (ch : Fin 64) (s : State) :
    OutFrame [.mem, .pwr, .rings, .bezel, .loupe, .hso, .edge, .plait, .out] s (execJunctionOtClear ch s) := by
  have h := Frame.refl [.mem, .pwr, .rings, .bezel, .loupe, .hso, .edge, .plait, .out] s
  have hP : subParts [.mem, .pwr, .rings, .bezel, .loupe, .hso, .edge, .plait, .out] [.mem, .pwr, .rings, .bezel, .loupe, .hso, .edge, .plait, .out] = true := by decide
  unfold execJunctionOtClear
  show Frame [.mem, .pwr, .rings, .bezel, .loupe, .hso, .edge, .plait, .out] _ _
  try extract_lets
  repeat' first
    | with_reducible assumption
    | with_reducible apply frame_hsoRetry
    | with_reducible apply Frame.ite <;> intro _

theorem frame_execOpenLoadOnDetect (ch : Fin 64) (s : State) :
    OutFrame [.rings, .bezel, .loupe, .hso, .plait, .out] s (execOpenLoadOnDetect ch s) := by
  have h := Frame.refl [.rings, .bezel, .loupe, .hso, .plait, .out] s
  have hP : subParts [.rings, .bezel, .loupe, .hso, .plait, .out] [.rings, .bezel, .loupe, .hso, .plait, .out] = true := by decide
  unfold execOpenLoadOnDetect
  show Frame [.rings, .bezel, .loupe, .hso, .plait, .out] _ _
  try extract_lets
  repeat' first
    | with_reducible assumption
    | exact subParts_trans (by decide) hP
    | with_reducible apply frame_hsoEvent
    | with_reducible apply frame_State_modHso
    | with_reducible apply Frame.ite <;> intro _

theorem frame_execOpenLoadOnClear (ch : Fin 64) (s : State) :
    OutFrame [.hso] s (execOpenLoadOnClear ch s) := by
  have h := Frame.refl [.hso] s
  have hP : subParts [.hso] [.hso] = true := by decide
  unfold execOpenLoadOnClear
  show Frame [.hso] _ _
  try extract_lets
  repeat' first
    | with_reducible assumption
    | with_reducible apply frame_State_modHso

theorem frame_execOffStateTest (ch : Fin 64) (s : State) :
    OutFrame [.hso] s (execOffStateTest ch s) := by
  have h := Frame.refl [.hso] s
  have hP : subParts [.hso] [.hso] = true := by decide
  unfold execOffStateTest
  show Frame [.hso] _ _
  try extract_lets
  repeat' first
    | with_reducible assumption
    | with_reducible apply frame_State_modHso
    | with_reducible apply Frame.ite <;> intro _

theorem frame_execOffStateTestResult (ch : Fin 64) (mv : BitVec 16) (s : State) :
    OutFrame [.mem, .pwr, .rings, .bezel, .loupe, .hso, .edge, .plait, .out] s (execOffStateTestResult ch mv s) := by
  have h := Frame.refl [.mem, .pwr, .rings, .bezel, .loupe, .hso, .edge, .plait, .out] s
  have hP : subParts [.mem, .pwr, .rings, .bezel, .loupe, .hso, .edge, .plait, .out] [.mem, .pwr, .rings, .bezel, .loupe, .hso, .edge, .plait, .out] = true := by decide
  unfold execOffStateTestResult
  show Frame [.mem, .pwr, .rings, .bezel, .loupe, .hso, .edge, .plait, .out] _ _
  try extract_lets
  repeat' first
    | with_reducible assumption
    | exact subParts_trans (by decide) hP
    | with_reducible apply frame_State_modHso
    | with_reducible apply frame_hsoEvent
    | with_reducible apply frame_hsoOff
    | with_reducible apply frame_finish
    | with_reducible apply Frame.ite <;> intro _
    | (with_reducible refine Frame.of_mk _ _ _ _ _ _ _ _ _ _ _ _ _ _ _ _ _ _ _ _ _ _ _ _ _ _ _ _ _ hP ?_ rfl ?_ ?_ ?_ ?_ ?_ ?_ ?_ ?_ ?_ ?_ ?_ ?_ ?_ ?_ ?_ ?_ ?_ ?_ ?_ ?_ ?_ ?_ ?_ ?_ ?_ ?_ ?_ ?_ <;>
         first | with_reducible exact Or.inr rfl | exact Or.inl rfl | skip
       split)

theorem frame_execShortToBatOn (ch : Fin 64) (s : State) :
    OutFrame [.rings, .bezel, .loupe, .hso, .edge, .plait, .out] s (execShortToBatOn ch s) := by
  have h := Frame.refl [.rings, .bezel, .loupe, .hso, .edge, .plait, .out] s
  have hP : subParts [.rings, .bezel, .loupe, .hso, .edge, .plait, .out] [.rings, .bezel, .loupe, .hso, .edge, .plait, .out] = true := by decide
  unfold execShortToBatOn
  show Frame [.rings, .bezel, .loupe, .hso, .edge, .plait, .out] _ _
  try extract_lets
  repeat' first
    | with_reducible assumption
    | exact subParts_trans (by decide) hP
    | with_reducible apply frame_hsoEvent
    | with_reducible apply frame_State_modHso
    | with_reducible apply frame_hsoOff
    | with_reducible apply Frame.ite <;> intro _

theorem frame_execReverseFeed (grp : Fin 8) (s : State) :
    OutFrame [.hso] s (execReverseFeed grp s) := by
  have h := Frame.refl [.hso] s
  have hP : subParts [.hso] [.hso] = true := by decide
  unfold execReverseFeed
  show Frame [.hso] _ _
  try extract_lets
  repeat' first
    | with_reducible assumption
    | with_reducible apply frame_State_modGrp

theorem frame_execGroupLimitHit (grp : Fin 8) (s : State) :
    OutFrame [.hso] s (execGroupLimitHit grp s) := by
  have h := Frame.refl [.hso] s
  have hP : subParts [.hso] [.hso] = true := by decide
  unfold execGroupLimitHit
  show Frame [.hso] _ _
  try extract_lets
  repeat' first
    | with_reducible assumption
    | with_reducible apply frame_State_modGrp
    | with_reducible apply Frame.ite <;> intro _

theorem frame_execGroupLimitEnd (grp : Fin 8) (s : State) :
    OutFrame [.hso] s (execGroupLimitEnd grp s) := by
  have h := Frame.refl [.hso] s
  have hP : subParts [.hso] [.hso] = true := by decide
  unfold execGroupLimitEnd
  show Frame [.hso] _ _
  try extract_lets
  repeat' first
    | with_reducible assumption
    | with_reducible apply frame_State_modGrp

theorem frame_execSympatheticTag (grp : Fin 8) (s : State) :
    OutFrame [.clk, .weave, .rings, .bezel, .loupe, .hso, .plait, .out] s (execSympatheticTag grp s) := by
  have h := Frame.refl [.clk, .weave, .rings, .bezel, .loupe, .hso, .plait, .out] s
  have hP : subParts [.clk, .weave, .rings, .bezel, .loupe, .hso, .plait, .out] [.clk, .weave, .rings, .bezel, .loupe, .hso, .plait, .out] = true := by decide
  unfold execSympatheticTag
  show Frame [.clk, .weave, .rings, .bezel, .loupe, .hso, .plait, .out] _ _
  try extract_lets
  repeat' first
    | with_reducible assumption
    | exact subParts_trans (by decide) hP
    | with_reducible apply Frame.foldl
    | with_reducible apply frame_State_reach
    | with_reducible apply frame_State_modHso
    | with_reducible apply frame_State_modGrp
    | with_reducible apply frame_logEvent
    | with_reducible apply Frame.ite <;> intro _
    | intro _ _ _
    | (with_reducible refine Frame.of_mk _ _ _ _ _ _ _ _ _ _ _ _ _ _ _ _ _ _ _ _ _ _ _ _ _ _ _ _ _ hP ?_ rfl ?_ ?_ ?_ ?_ ?_ ?_ ?_ ?_ ?_ ?_ ?_ ?_ ?_ ?_ ?_ ?_ ?_ ?_ ?_ ?_ ?_ ?_ ?_ ?_ ?_ ?_ ?_ ?_ <;>
         first | with_reducible exact Or.inr rfl | exact Or.inl rfl | skip
       split)

theorem frame_execGroupLimitShed (grp : Fin 8) (s : State) :
    OutFrame [.rings, .bezel, .loupe, .hso, .edge, .plait, .out] s (execGroupLimitShed grp s) := by
  have h := Frame.refl [.rings, .bezel, .loupe, .hso, .edge, .plait, .out] s
  have hP : subParts [.rings, .bezel, .loupe, .hso, .edge, .plait, .out] [.rings, .bezel, .loupe, .hso, .edge, .plait, .out] = true := by decide
  unfold execGroupLimitShed
  show Frame [.rings, .bezel, .loupe, .hso, .edge, .plait, .out] _ _
  try extract_lets
  repeat' first
    | with_reducible assumption
    | with_reducible apply frame_hsoOverload
    | with_reducible apply Frame.ite <;> intro _
    | (with_reducible refine Frame.of_mk _ _ _ _ _ _ _ _ _ _ _ _ _ _ _ _ _ _ _ _ _ _ _ _ _ _ _ _ _ hP ?_ rfl ?_ ?_ ?_ ?_ ?_ ?_ ?_ ?_ ?_ ?_ ?_ ?_ ?_ ?_ ?_ ?_ ?_ ?_ ?_ ?_ ?_ ?_ ?_ ?_ ?_ ?_ ?_ ?_ <;>
         first | with_reducible exact Or.inr rfl | exact Or.inl rfl | skip
       split)

theorem frame_execGroupOt (grp : Fin 8) (s : State) :
    OutFrame [.rings, .bezel, .loupe, .hso, .edge, .plait, .out] s (execGroupOt grp s) := by
  have h := Frame.refl [.rings, .bezel, .loupe, .hso, .edge, .plait, .out] s
  have hP : subParts [.rings, .bezel, .loupe, .hso, .edge, .plait, .out] [.rings, .bezel, .loupe, .hso, .edge, .plait, .out] = true := by decide
  unfold execGroupOt
  show Frame [.rings, .bezel, .loupe, .hso, .edge, .plait, .out] _ _
  try extract_lets
  repeat' first
    | with_reducible assumption
    | exact subParts_trans (by decide) hP
    | with_reducible apply frame_hsoEvent
    | with_reducible apply frame_State_modHso
    | with_reducible apply frame_hsoTrip
    | (with_reducible refine Frame.of_mk _ _ _ _ _ _ _ _ _ _ _ _ _ _ _ _ _ _ _ _ _ _ _ _ _ _ _ _ _ hP ?_ rfl ?_ ?_ ?_ ?_ ?_ ?_ ?_ ?_ ?_ ?_ ?_ ?_ ?_ ?_ ?_ ?_ ?_ ?_ ?_ ?_ ?_ ?_ ?_ ?_ ?_ ?_ ?_ ?_ <;>
         first | with_reducible exact Or.inr rfl | exact Or.inl rfl | skip
       split)

theorem frame_execGroupOtClear (grp : Fin 8) (s : State) :
    OutFrame [.mem, .pwr, .rings, .bezel, .loupe, .hso, .edge, .plait, .out] s (execGroupOtClear grp s) := by
  have h := Frame.refl [.mem, .pwr, .rings, .bezel, .loupe, .hso, .edge, .plait, .out] s
  have hP : subParts [.mem, .pwr, .rings, .bezel, .loupe, .hso, .edge, .plait, .out] [.mem, .pwr, .rings, .bezel, .loupe, .hso, .edge, .plait, .out] = true := by decide
  unfold execGroupOtClear
  show Frame [.mem, .pwr, .rings, .bezel, .loupe, .hso, .edge, .plait, .out] _ _
  repeat' first
    | with_reducible assumption
    | with_reducible apply Frame.foldl
    | with_reducible apply frame_hsoRetry
    | with_reducible apply Frame.ite <;> intro _
    | intro _ _ _

end Sys2Proof.Machine
end

