-- ==== Sys2Proof/Laws/FrameLedOps.lean ====
section
/-! SUPPORT. Which parts of the state the operations of Machine/LedOps.lean may change. -/

namespace Sys2Proof.Machine

set_option linter.unusedTactic false
set_option linter.unreachableTactic false

theorem frame_State_modLed (s : State) (n : Nat) (f : LedCh → LedCh) {P : List Part} {s0 : State} 
    (hP : subParts [.led] P = true) (h : Frame P s0 s) : Frame P s0 (State.modLed s n f) := by
  unfold State.modLed
  try extract_lets
  repeat' first
    | (with_reducible refine Frame.of_mk _ _ _ _ _ _ _ _ _ _ _ _ _ _ _ _ _ _ _ _ _ _ _ _ _ _ _ _ _ hP ?_ rfl ?_ ?_ ?_ ?_ ?_ ?_ ?_ ?_ ?_ ?_ ?_ ?_ ?_ ?_ ?_ ?_ ?_ ?_ ?_ ?_ ?_ ?_ ?_ ?_ ?_ ?_ ?_ ?_ <;>
         first | with_reducible exact Or.inr rfl | exact Or.inl rfl | skip
       with_reducible assumption)

theorem frame_unheldLed (s : State) (n : Nat) {P : List Part} {s0 : State} 
    (hP : subParts [.bezel] P = true) (h : Frame P s0 s) : Frame P s0 (unheldLed s n) := by
  unfold unheldLed
  try extract_lets
  repeat' first
    | (with_reducible refine Frame.of_mk _ _ _ _ _ _ _ _ _ _ _ _ _ _ _ _ _ _ _ _ _ _ _ _ _ _ _ _ _ hP ?_ rfl ?_ ?_ ?_ ?_ ?_ ?_ ?_ ?_ ?_ ?_ ?_ ?_ ?_ ?_ ?_ ?_ ?_ ?_ ?_ ?_ ?_ ?_ ?_ ?_ ?_ ?_ ?_ ?_ <;>
         first | with_reducible exact Or.inr rfl | exact Or.inl rfl | skip
       with_reducible assumption)

theorem frame_ledOff (s : State) (n : Nat) (st : LedSt) {P : List Part} {s0 : State} 
    (hP : subParts [.edge, .led] P = true) (h : Frame P s0 s) : Frame P s0 (ledOff s n st) := by
  unfold ledOff
  try extract_lets
  repeat' first
    | with_reducible assumption
    | exact subParts_trans (by decide) hP
    | with_reducible apply frame_planOff
    | with_reducible apply frame_State_modLed

theorem frame_ledDrive (s : State) (n : Nat) (phase : Nat) (launch : Bool) {P : List Part} {s0 : State} 
    (hP : subParts [.edge, .led] P = true) (h : Frame P s0 s) : Frame P s0 (ledDrive s n phase launch) := by
  unfold ledDrive
  try extract_lets
  repeat' first
    | with_reducible assumption
    | exact subParts_trans (by decide) hP
    | with_reducible apply frame_State_modLed
    | with_reducible apply frame_ledOff
    | with_reducible apply frame_planOff
    | with_reducible apply frame_planOn
    | with_reducible apply Frame.ite <;> intro _

theorem frame_ledApply (s : State) (n : Nat) (iSet : Nat) (dim : Nat) (phase : Option Nat) (launch : Bool) {P : List Part} {s0 : State} 
    (hP : subParts [.bezel, .edge, .led] P = true) (h : Frame P s0 s) : Frame P s0 (ledApply s n iSet dim phase launch) := by
  unfold ledApply
  try extract_lets
  repeat' first
    | with_reducible assumption
    | exact subParts_trans (by decide) hP
    | with_reducible apply frame_unheldLed
    | with_reducible apply frame_State_modLed
    | with_reducible apply frame_ledOff
    | with_reducible apply frame_ledDrive
    | with_reducible apply Frame.ite <;> intro _
    | (with_reducible refine Frame.of_mk _ _ _ _ _ _ _ _ _ _ _ _ _ _ _ _ _ _ _ _ _ _ _ _ _ _ _ _ _ hP ?_ rfl ?_ ?_ ?_ ?_ ?_ ?_ ?_ ?_ ?_ ?_ ?_ ?_ ?_ ?_ ?_ ?_ ?_ ?_ ?_ ?_ ?_ ?_ ?_ ?_ ?_ ?_ ?_ ?_ <;>
         first | with_reducible exact Or.inr rfl | exact Or.inl rfl | skip
       split)

theorem frame_ledLatch (s : State) (n : Nat) {P : List Part} {s0 : State} 
    (hP : subParts [.rings, .bezel, .loupe, .edge, .led, .plait, .out] P = true) (h : Frame P s0 s) : Frame P s0 (ledLatch s n) := by
  unfold ledLatch
  repeat' first
    | with_reducible assumption
    | exact subParts_trans (by decide) hP
    | with_reducible apply frame_logEvent
    | with_reducible apply frame_ledOff

theorem frame_eachLed (s : State) (f : State → Nat → State) {P : List Part} {s0 : State} (h_f : ∀ y0 y1, Frame P s0 y0 → Frame P s0 (f y0 y1))
    (hP : subParts [] P = true) (h : Frame P s0 s) : Frame P s0 (eachLed s f) := by
  unfold eachLed
  repeat' first
    | with_reducible assumption
    | with_reducible apply Frame.foldl

theorem frame_ledAllOff (s : State) {P : List Part} {s0 : State} 
    (hP : subParts [.bezel, .edge, .led] P = true) (h : Frame P s0 s) : Frame P s0 (ledAllOff s) := by
  unfold ledAllOff
  try extract_lets
  repeat' first
    | with_reducible assumption
    | exact subParts_trans (by decide) hP
    | with_reducible apply frame_eachLed
    | with_reducible apply frame_ledOff
    | with_reducible apply frame_unheldLed
    | with_reducible apply frame_State_modLed
    | intro _ _ _

theorem frame_ledClaims (s : State) {P : List Part} {s0 : State} 
    (hP : subParts [.bezel, .edge, .led] P = true) (h : Frame P s0 s) : Frame P s0 (ledClaims s) := by
  unfold ledClaims
  try extract_lets
  repeat' first
    | with_reducible assumption
    | exact subParts_trans (by decide) hP
    | with_reducible apply frame_eachLed
    | with_reducible apply frame_ledOff
    | with_reducible apply frame_unheldLed
    | with_reducible apply frame_State_modLed
    | intro _ _ _
    | (with_reducible refine Frame.of_mk _ _ _ _ _ _ _ _ _ _ _ _ _ _ _ _ _ _ _ _ _ _ _ _ _ _ _ _ _ hP ?_ rfl ?_ ?_ ?_ ?_ ?_ ?_ ?_ ?_ ?_ ?_ ?_ ?_ ?_ ?_ ?_ ?_ ?_ ?_ ?_ ?_ ?_ ?_ ?_ ?_ ?_ ?_ ?_ ?_ <;>
         first | with_reducible exact Or.inr rfl | exact Or.inl rfl | skip
       split)

theorem frame_ledRoad (s : State) {P : List Part} {s0 : State} 
    (hP : subParts [.bezel, .edge, .led] P = true) (h : Frame P s0 s) : Frame P s0 (ledRoad s) := by
  unfold ledRoad
  try extract_lets
  repeat' first
    | with_reducible assumption
    | exact subParts_trans (by decide) hP
    | with_reducible apply frame_eachLed
    | with_reducible apply frame_unheldLed
    | with_reducible apply frame_ledOff
    | with_reducible apply frame_State_modLed
    | with_reducible apply Frame.ite <;> intro _
    | intro _ _ _

theorem frame_ledOrphan1 (s : State) (n : Nat) {P : List Part} {s0 : State} 
    (hP : subParts [.edge, .led] P = true) (h : Frame P s0 s) : Frame P s0 (ledOrphan1 s n) := by
  unfold ledOrphan1
  try extract_lets
  repeat' first
    | with_reducible assumption
    | exact subParts_trans (by decide) hP
    | with_reducible apply frame_ledOff
    | with_reducible apply frame_State_modLed
    | with_reducible apply Frame.ite <;> intro _
    | (with_reducible refine Frame.of_mk _ _ _ _ _ _ _ _ _ _ _ _ _ _ _ _ _ _ _ _ _ _ _ _ _ _ _ _ _ hP ?_ rfl ?_ ?_ ?_ ?_ ?_ ?_ ?_ ?_ ?_ ?_ ?_ ?_ ?_ ?_ ?_ ?_ ?_ ?_ ?_ ?_ ?_ ?_ ?_ ?_ ?_ ?_ ?_ ?_ <;>
         first | with_reducible exact Or.inr rfl | exact Or.inl rfl | skip
       split)

theorem frame_ledReclaim (s : State) (n : Nat) {P : List Part} {s0 : State} 
    (hP : subParts [.bezel, .edge, .led, .free] P = true) (h : Frame P s0 s) : Frame P s0 (ledReclaim s n) := by
  unfold ledReclaim
  try extract_lets
  repeat' first
    | with_reducible assumption
    | exact subParts_trans (by decide) hP
    | with_reducible apply frame_unheldLed
    | with_reducible apply frame_State_modLed
    | with_reducible apply frame_State_takeNat
    | with_reducible apply frame_planOn
    | with_reducible apply Frame.ite <;> intro _
    | (with_reducible refine Frame.of_mk _ _ _ _ _ _ _ _ _ _ _ _ _ _ _ _ _ _ _ _ _ _ _ _ _ _ _ _ _ hP ?_ rfl ?_ ?_ ?_ ?_ ?_ ?_ ?_ ?_ ?_ ?_ ?_ ?_ ?_ ?_ ?_ ?_ ?_ ?_ ?_ ?_ ?_ ?_ ?_ ?_ ?_ ?_ ?_ ?_ <;>
         first | with_reducible exact Or.inr rfl | exact Or.inl rfl | skip
       split)

theorem frame_ledShed (s : State) {P : List Part} {s0 : State} 
    (hP : subParts [.rings, .bezel, .loupe, .edge, .led, .plait, .out] P = true) (h : Frame P s0 s) : Frame P s0 (ledShed s) := by
  unfold ledShed
  try extract_lets
  repeat' first
    | with_reducible assumption
    | exact subParts_trans (by decide) hP
    | with_reducible apply frame_eachLed
    | with_reducible apply frame_logEvent
    | with_reducible apply frame_ledOff
    | with_reducible apply Frame.ite <;> intro _
    | intro _ _ _

theorem frame_ledUnshed (s : State) {P : List Part} {s0 : State} 
    (hP : subParts [.led] P = true) (h : Frame P s0 s) : Frame P s0 (ledUnshed s) := by
  unfold ledUnshed
  try extract_lets
  repeat' first
    | with_reducible assumption
    | exact subParts_trans (by decide) hP
    | with_reducible apply frame_eachLed
    | with_reducible apply frame_State_modLed
    | with_reducible apply Frame.ite <;> intro _
    | intro _ _ _

theorem frame_ledPause (s : State) {P : List Part} {s0 : State} 
    (hP : subParts [.edge, .led] P = true) (h : Frame P s0 s) : Frame P s0 (ledPause s) := by
  unfold ledPause
  try extract_lets
  repeat' first
    | with_reducible assumption
    | exact subParts_trans (by decide) hP
    | with_reducible apply frame_eachLed
    | with_reducible apply frame_ledOff
    | with_reducible apply frame_State_modLed
    | with_reducible apply Frame.ite <;> intro _
    | intro _ _ _

theorem frame_mtxDark (s : State) {P : List Part} {s0 : State} 
    (hP : subParts [.mtx] P = true) (h : Frame P s0 s) : Frame P s0 (mtxDark s) := by
  unfold mtxDark
  try extract_lets
  repeat' first
    | (with_reducible refine Frame.of_mk _ _ _ _ _ _ _ _ _ _ _ _ _ _ _ _ _ _ _ _ _ _ _ _ _ _ _ _ _ hP ?_ rfl ?_ ?_ ?_ ?_ ?_ ?_ ?_ ?_ ?_ ?_ ?_ ?_ ?_ ?_ ?_ ?_ ?_ ?_ ?_ ?_ ?_ ?_ ?_ ?_ ?_ ?_ ?_ ?_ <;>
         first | with_reducible exact Or.inr rfl | exact Or.inl rfl | skip
       with_reducible assumption)

theorem frame_mtxDrop (s : State) (status : Nat) {P : List Part} {s0 : State} 
    (hP : subParts [.mem, .pwr, .rings, .mtx, .plait, .out] P = true) (h : Frame P s0 s) : Frame P s0 (mtxDrop s status) := by
  unfold mtxDrop
  try extract_lets
  repeat' first
    | with_reducible assumption
    | exact subParts_trans (by decide) hP
    | with_reducible apply frame_refuse
    | (with_reducible refine Frame.of_mk _ _ _ _ _ _ _ _ _ _ _ _ _ _ _ _ _ _ _ _ _ _ _ _ _ _ _ _ _ hP ?_ rfl ?_ ?_ ?_ ?_ ?_ ?_ ?_ ?_ ?_ ?_ ?_ ?_ ?_ ?_ ?_ ?_ ?_ ?_ ?_ ?_ ?_ ?_ ?_ ?_ ?_ ?_ ?_ ?_ <;>
         first | with_reducible exact Or.inr rfl | exact Or.inl rfl | skip
       first
         | with_reducible assumption
         | split
      )

theorem frame_mtxLatch (s : State) {P : List Part} {s0 : State} 
    (hP : subParts [.rings, .bezel, .loupe, .mtx, .plait, .out] P = true) (h : Frame P s0 s) : Frame P s0 (mtxLatch s) := by
  unfold mtxLatch
  try extract_lets
  repeat' first
    | exact subParts_trans (by decide) hP
    | with_reducible apply frame_logEvent
    | with_reducible apply frame_mtxDark
    | (with_reducible refine Frame.of_mk _ _ _ _ _ _ _ _ _ _ _ _ _ _ _ _ _ _ _ _ _ _ _ _ _ _ _ _ _ hP ?_ rfl ?_ ?_ ?_ ?_ ?_ ?_ ?_ ?_ ?_ ?_ ?_ ?_ ?_ ?_ ?_ ?_ ?_ ?_ ?_ ?_ ?_ ?_ ?_ ?_ ?_ ?_ ?_ ?_ <;>
         first | with_reducible exact Or.inr rfl | exact Or.inl rfl | skip
       with_reducible assumption)

theorem frame_mtxFlip (s : State) {P : List Part} {s0 : State} 
    (hP : subParts [.mtx] P = true) (h : Frame P s0 s) : Frame P s0 (mtxFlip s) := by
  unfold mtxFlip
  try extract_lets
  repeat' first
    | (with_reducible refine Frame.of_mk _ _ _ _ _ _ _ _ _ _ _ _ _ _ _ _ _ _ _ _ _ _ _ _ _ _ _ _ _ hP ?_ rfl ?_ ?_ ?_ ?_ ?_ ?_ ?_ ?_ ?_ ?_ ?_ ?_ ?_ ?_ ?_ ?_ ?_ ?_ ?_ ?_ ?_ ?_ ?_ ?_ ?_ ?_ ?_ ?_ <;>
         first | with_reducible exact Or.inr rfl | exact Or.inl rfl | skip
       with_reducible assumption)

theorem frame_mtxGains (s : State) {P : List Part} {s0 : State} 
    (hP : subParts [.mtx] P = true) (h : Frame P s0 s) : Frame P s0 (mtxGains s) := by
  unfold mtxGains
  try extract_lets
  repeat' first
    | (with_reducible refine Frame.of_mk _ _ _ _ _ _ _ _ _ _ _ _ _ _ _ _ _ _ _ _ _ _ _ _ _ _ _ _ _ hP ?_ rfl ?_ ?_ ?_ ?_ ?_ ?_ ?_ ?_ ?_ ?_ ?_ ?_ ?_ ?_ ?_ ?_ ?_ ?_ ?_ ?_ ?_ ?_ ?_ ?_ ?_ ?_ ?_ ?_ <;>
         first | with_reducible exact Or.inr rfl | exact Or.inl rfl | skip
       with_reducible assumption)

theorem frame_mtxFrame (s : State) (sync : Bool) {P : List Part} {s0 : State} 
    (hP : subParts [.mem, .pwr, .rings, .mtx, .plait, .out] P = true) (h : Frame P s0 s) : Frame P s0 (mtxFrame s sync) := by
  unfold mtxFrame
  try extract_lets
  repeat' first
    | exact subParts_trans (by decide) hP
    | with_reducible apply frame_finish
    | with_reducible apply frame_mtxFlip
    | with_reducible apply frame_mtxGains
    | with_reducible apply frame_mtxDark
    | with_reducible apply Frame.ite <;> intro _
    | (with_reducible refine Frame.of_mk _ _ _ _ _ _ _ _ _ _ _ _ _ _ _ _ _ _ _ _ _ _ _ _ _ _ _ _ _ hP ?_ rfl ?_ ?_ ?_ ?_ ?_ ?_ ?_ ?_ ?_ ?_ ?_ ?_ ?_ ?_ ?_ ?_ ?_ ?_ ?_ ?_ ?_ ?_ ?_ ?_ ?_ ?_ ?_ ?_ <;>
         first | with_reducible exact Or.inr rfl | exact Or.inl rfl | skip
       first
         | with_reducible assumption
         | with_reducible apply frame_mtxGains
         | split
      )
    | extract_lets
    | dsimp +zetaDelta only

theorem frame_mtxRoad (s : State) {P : List Part} {s0 : State} 
    (hP : subParts [.mtx] P = true) (h : Frame P s0 s) : Frame P s0 (mtxRoad s) := by
  unfold mtxRoad
  try extract_lets
  repeat' first
    | with_reducible assumption
    | with_reducible apply frame_mtxDark
    | with_reducible apply Frame.ite <;> intro _
    | (with_reducible refine Frame.of_mk _ _ _ _ _ _ _ _ _ _ _ _ _ _ _ _ _ _ _ _ _ _ _ _ _ _ _ _ _ hP ?_ rfl ?_ ?_ ?_ ?_ ?_ ?_ ?_ ?_ ?_ ?_ ?_ ?_ ?_ ?_ ?_ ?_ ?_ ?_ ?_ ?_ ?_ ?_ ?_ ?_ ?_ ?_ ?_ ?_ <;>
         first | with_reducible exact Or.inr rfl | exact Or.inl rfl | skip
       with_reducible assumption)

end Sys2Proof.Machine
end

