-- ==== Sys2Proof/Laws/FrameLed.lean ====
section
/-! SUPPORT. Which parts of the state the operations of Machine/Led.lean may change. -/

namespace Sys2Proof.Machine

set_option linter.unusedTactic false
set_option linter.unreachableTactic false

theorem frame_ledPlan (s : State) (a : Act) (chans : List Nat) (iSet : BitVec 10) (dim : BitVec 12) {P : List Part} {s0 : State} 
    (hP : subParts [.led] P = true) (h : Frame P s0 s) : Frame P s0 (ledPlan s a chans iSet dim) := by
  unfold ledPlan
  try extract_lets
  repeat' first
    | (with_reducible refine Frame.of_mk _ _ _ _ _ _ _ _ _ _ _ _ _ _ _ _ _ _ _ _ _ _ _ _ _ _ _ _ _ hP ?_ rfl ?_ ?_ ?_ ?_ ?_ ?_ ?_ ?_ ?_ ?_ ?_ ?_ ?_ ?_ ?_ ?_ ?_ ?_ ?_ ?_ ?_ ?_ ?_ ?_ ?_ ?_ ?_ ?_ <;>
         first | with_reducible exact Or.inr rfl | exact Or.inl rfl | skip
       with_reducible assumption)

theorem frame_ledFire (s : State) (a : Act) (chans : List Nat) (iSet : Nat) (dim : Nat) {P : List Part} {s0 : State} 
    (hP : subParts [.mem, .pwr, .rings, .bezel, .loupe, .edge, .led, .plait, .out] P = true) (h : Frame P s0 s) : Frame P s0 (ledFire s a chans iSet dim) := by
  unfold ledFire
  try extract_lets
  repeat' first
    | with_reducible assumption
    | exact subParts_trans (by decide) hP
    | with_reducible apply Frame.foldl
    | with_reducible apply frame_addShot
    | with_reducible apply frame_ledApply
    | with_reducible apply frame_finish
    | with_reducible apply frame_replan
    | with_reducible apply Frame.ite <;> intro _
    | intro _ _ _

theorem frame_actLedSet (ch : BitVec 4) (dim : BitVec 12) (iSet : BitVec 10) (a : Act) (s : State) {P : List Part} {s0 : State} 
    (hP : subParts [.mem, .pwr, .rings, .bezel, .loupe, .edge, .led, .plait, .out] P = true) (h : Frame P s0 s) : Frame P s0 (actLedSet ch dim iSet a s) := by
  unfold actLedSet
  try extract_lets
  repeat' first
    | with_reducible assumption
    | exact subParts_trans (by decide) hP
    | with_reducible apply frame_refuse
    | with_reducible apply frame_finishAs
    | with_reducible apply frame_ledApply
    | with_reducible apply frame_ledFire
    | with_reducible apply frame_ledPlan
    | with_reducible apply Frame.ite <;> intro _

theorem frame_execLedSet (d : Desc) (ch : BitVec 4) (dim : BitVec 12) (iSet : BitVec 10) (s : State) :
    OutFrame [.ecc, .mem, .pwr, .weave, .rings, .bezel, .loupe, .edge, .led, .plait, .out] s (execLedSet d ch dim iSet s) := by
  have h := Frame.refl [.ecc, .mem, .pwr, .weave, .rings, .bezel, .loupe, .edge, .led, .plait, .out] s
  have hP : subParts [.ecc, .mem, .pwr, .weave, .rings, .bezel, .loupe, .edge, .led, .plait, .out] [.ecc, .mem, .pwr, .weave, .rings, .bezel, .loupe, .edge, .led, .plait, .out] = true := by decide
  unfold execLedSet
  show Frame [.ecc, .mem, .pwr, .weave, .rings, .bezel, .loupe, .edge, .led, .plait, .out] _ _
  repeat' first
    | with_reducible assumption
    | exact subParts_trans (by decide) hP
    | with_reducible apply frame_accept
    | with_reducible apply frame_actLedSet
    | intro _ _ _

theorem frame_actLedMulti (mask : BitVec 12) (iSet : BitVec 10) (dim : BitVec 12) (a : Act) (s : State) {P : List Part} {s0 : State} 
    (hP : subParts [.mem, .pwr, .rings, .bezel, .loupe, .edge, .led, .plait, .out] P = true) (h : Frame P s0 s) : Frame P s0 (actLedMulti mask iSet dim a s) := by
  unfold actLedMulti
  try extract_lets
  repeat' first
    | with_reducible assumption
    | exact subParts_trans (by decide) hP
    | with_reducible apply Frame.foldl
    | with_reducible apply frame_refuse
    | with_reducible apply frame_finishAs
    | with_reducible apply frame_ledApply
    | with_reducible apply frame_ledFire
    | with_reducible apply frame_ledPlan
    | with_reducible apply Frame.ite <;> intro _
    | intro _ _ _
    | (with_reducible refine Frame.of_mk _ _ _ _ _ _ _ _ _ _ _ _ _ _ _ _ _ _ _ _ _ _ _ _ _ _ _ _ _ hP ?_ rfl ?_ ?_ ?_ ?_ ?_ ?_ ?_ ?_ ?_ ?_ ?_ ?_ ?_ ?_ ?_ ?_ ?_ ?_ ?_ ?_ ?_ ?_ ?_ ?_ ?_ ?_ ?_ ?_ <;>
         first | with_reducible exact Or.inr rfl | exact Or.inl rfl | skip
       split)

theorem frame_execLedMulti (d : Desc) (mask : BitVec 12) (iSet : BitVec 10) (dim : BitVec 12) (s : State) :
    OutFrame [.ecc, .mem, .pwr, .weave, .rings, .bezel, .loupe, .edge, .led, .plait, .out] s (execLedMulti d mask iSet dim s) := by
  have h := Frame.refl [.ecc, .mem, .pwr, .weave, .rings, .bezel, .loupe, .edge, .led, .plait, .out] s
  have hP : subParts [.ecc, .mem, .pwr, .weave, .rings, .bezel, .loupe, .edge, .led, .plait, .out] [.ecc, .mem, .pwr, .weave, .rings, .bezel, .loupe, .edge, .led, .plait, .out] = true := by decide
  unfold execLedMulti
  show Frame [.ecc, .mem, .pwr, .weave, .rings, .bezel, .loupe, .edge, .led, .plait, .out] _ _
  repeat' first
    | with_reducible assumption
    | exact subParts_trans (by decide) hP
    | with_reducible apply frame_accept
    | with_reducible apply frame_actLedMulti
    | intro _ _ _

theorem frame_actLedClear (ch : BitVec 4) (a : Act) (s : State) {P : List Part} {s0 : State} 
    (hP : subParts [.mem, .pwr, .rings, .edge, .led, .plait, .out] P = true) (h : Frame P s0 s) : Frame P s0 (actLedClear ch a s) := by
  unfold actLedClear
  try extract_lets
  repeat' first
    | with_reducible assumption
    | exact subParts_trans (by decide) hP
    | with_reducible apply frame_refuse
    | with_reducible apply frame_State_modLed
    | with_reducible apply frame_finish
    | with_reducible apply frame_ledOff
    | with_reducible apply Frame.ite <;> intro _

theorem frame_execLedClear (d : Desc) (ch : BitVec 4) (s : State) :
    OutFrame [.ecc, .mem, .pwr, .weave, .rings, .bezel, .loupe, .edge, .led, .plait, .out] s (execLedClear d ch s) := by
  have h := Frame.refl [.ecc, .mem, .pwr, .weave, .rings, .bezel, .loupe, .edge, .led, .plait, .out] s
  have hP : subParts [.ecc, .mem, .pwr, .weave, .rings, .bezel, .loupe, .edge, .led, .plait, .out] [.ecc, .mem, .pwr, .weave, .rings, .bezel, .loupe, .edge, .led, .plait, .out] = true := by decide
  unfold execLedClear
  show Frame [.ecc, .mem, .pwr, .weave, .rings, .bezel, .loupe, .edge, .led, .plait, .out] _ _
  repeat' first
    | with_reducible assumption
    | exact subParts_trans (by decide) hP
    | with_reducible apply frame_accept
    | with_reducible apply frame_actLedClear
    | intro _ _ _

theorem frame_actLedRead (ch : BitVec 4) (a : Act) (s : State) {P : List Part} {s0 : State} 
    (hP : subParts [.mem, .pwr, .rings, .plait, .out] P = true) (h : Frame P s0 s) : Frame P s0 (actLedRead ch a s) := by
  unfold actLedRead
  repeat' first
    | with_reducible assumption
    | with_reducible apply frame_refuse
    | with_reducible apply frame_finish
    | with_reducible apply Frame.ite <;> intro _

theorem frame_execLedRead (d : Desc) (ch : BitVec 4) (s : State) :
    OutFrame [.ecc, .mem, .pwr, .weave, .rings, .bezel, .loupe, .plait, .out] s (execLedRead d ch s) := by
  have h := Frame.refl [.ecc, .mem, .pwr, .weave, .rings, .bezel, .loupe, .plait, .out] s
  have hP : subParts [.ecc, .mem, .pwr, .weave, .rings, .bezel, .loupe, .plait, .out] [.ecc, .mem, .pwr, .weave, .rings, .bezel, .loupe, .plait, .out] = true := by decide
  unfold execLedRead
  show Frame [.ecc, .mem, .pwr, .weave, .rings, .bezel, .loupe, .plait, .out] _ _
  repeat' first
    | with_reducible assumption
    | exact subParts_trans (by decide) hP
    | with_reducible apply frame_accept
    | with_reducible apply frame_actLedRead
    | intro _ _ _

theorem frame_actColourCtl (run : BitVec 1) (a : Act) (s : State) {P : List Part} {s0 : State} 
    (hP : subParts [.mem, .pwr, .rings, .led, .plait, .out] P = true) (h : Frame P s0 s) : Frame P s0 (actColourCtl run a s) := by
  unfold actColourCtl
  try extract_lets
  repeat' first
    | exact subParts_trans (by decide) hP
    | with_reducible apply frame_finish
    | (with_reducible refine Frame.of_mk _ _ _ _ _ _ _ _ _ _ _ _ _ _ _ _ _ _ _ _ _ _ _ _ _ _ _ _ _ hP ?_ rfl ?_ ?_ ?_ ?_ ?_ ?_ ?_ ?_ ?_ ?_ ?_ ?_ ?_ ?_ ?_ ?_ ?_ ?_ ?_ ?_ ?_ ?_ ?_ ?_ ?_ ?_ ?_ ?_ <;>
         first | with_reducible exact Or.inr rfl | exact Or.inl rfl | skip
       with_reducible assumption)

theorem frame_execColourCtl (d : Desc) (run : BitVec 1) (s : State) :
    OutFrame [.ecc, .mem, .pwr, .weave, .rings, .bezel, .loupe, .led, .plait, .out] s (execColourCtl d run s) := by
  have h := Frame.refl [.ecc, .mem, .pwr, .weave, .rings, .bezel, .loupe, .led, .plait, .out] s
  have hP : subParts [.ecc, .mem, .pwr, .weave, .rings, .bezel, .loupe, .led, .plait, .out] [.ecc, .mem, .pwr, .weave, .rings, .bezel, .loupe, .led, .plait, .out] = true := by decide
  unfold execColourCtl
  show Frame [.ecc, .mem, .pwr, .weave, .rings, .bezel, .loupe, .led, .plait, .out] _ _
  repeat' first
    | with_reducible assumption
    | exact subParts_trans (by decide) hP
    | with_reducible apply frame_accept
    | with_reducible apply frame_actColourCtl
    | intro _ _ _

theorem frame_execOpenString (ch : Fin 12) (s : State) :
    OutFrame [.rings, .bezel, .loupe, .edge, .led, .plait, .out] s (execOpenString ch s) := by
  have h := Frame.refl [.rings, .bezel, .loupe, .edge, .led, .plait, .out] s
  have hP : subParts [.rings, .bezel, .loupe, .edge, .led, .plait, .out] [.rings, .bezel, .loupe, .edge, .led, .plait, .out] = true := by decide
  unfold execOpenString
  show Frame [.rings, .bezel, .loupe, .edge, .led, .plait, .out] _ _
  try extract_lets
  repeat' first
    | with_reducible assumption
    | exact subParts_trans (by decide) hP
    | with_reducible apply frame_ledLatch
    | with_reducible apply frame_logEvent
    | with_reducible apply frame_State_modLed
    | with_reducible apply Frame.ite <;> intro _

theorem frame_execShortedLeds (ch : Fin 12) (short : Bool) (volts : BitVec 12) (s : State) :
    OutFrame [.rings, .bezel, .loupe, .led, .plait, .out] s (execShortedLeds ch short volts s) := by
  have h := Frame.refl [.rings, .bezel, .loupe, .led, .plait, .out] s
  have hP : subParts [.rings, .bezel, .loupe, .led, .plait, .out] [.rings, .bezel, .loupe, .led, .plait, .out] = true := by decide
  unfold execShortedLeds
  show Frame [.rings, .bezel, .loupe, .led, .plait, .out] _ _
  try extract_lets
  repeat' first
    | with_reducible assumption
    | exact subParts_trans (by decide) hP
    | with_reducible apply frame_State_modLed
    | with_reducible apply frame_logEvent
    | with_reducible apply Frame.ite <;> intro _

theorem frame_execStringOvercurrent (ch : Fin 12) (s : State) :
    OutFrame [.rings, .bezel, .loupe, .edge, .led, .plait, .out] s (execStringOvercurrent ch s) := by
  have h := Frame.refl [.rings, .bezel, .loupe, .edge, .led, .plait, .out] s
  have hP : subParts [.rings, .bezel, .loupe, .edge, .led, .plait, .out] [.rings, .bezel, .loupe, .edge, .led, .plait, .out] = true := by decide
  unfold execStringOvercurrent
  show Frame [.rings, .bezel, .loupe, .edge, .led, .plait, .out] _ _
  try extract_lets
  repeat' first
    | with_reducible assumption
    | exact subParts_trans (by decide) hP
    | with_reducible apply frame_logEvent
    | with_reducible apply frame_State_modLed
    | with_reducible apply frame_ledLatch
    | with_reducible apply frame_ledOff
    | with_reducible apply Frame.ite <;> intro _

theorem frame_execStringRetry (ch : Fin 12) (s : State) :
    OutFrame [.clk, .weave, .edge, .led] s (execStringRetry ch s) := by
  have h := Frame.refl [.clk, .weave, .edge, .led] s
  have hP : subParts [.clk, .weave, .edge, .led] [.clk, .weave, .edge, .led] = true := by decide
  unfold execStringRetry
  show Frame [.clk, .weave, .edge, .led] _ _
  try extract_lets
  repeat' first
    | with_reducible assumption
    | exact subParts_trans (by decide) hP
    | with_reducible apply frame_State_reach
    | with_reducible apply frame_State_modLed
    | with_reducible apply frame_ledDrive
    | with_reducible apply Frame.ite <;> intro _

theorem frame_execConverterOt (hot : Bool) (s : State) :
    OutFrame [.rings, .bezel, .loupe, .edge, .led, .plait, .out] s (execConverterOt hot s) := by
  have h := Frame.refl [.rings, .bezel, .loupe, .edge, .led, .plait, .out] s
  have hP : subParts [.rings, .bezel, .loupe, .edge, .led, .plait, .out] [.rings, .bezel, .loupe, .edge, .led, .plait, .out] = true := by decide
  unfold execConverterOt
  show Frame [.rings, .bezel, .loupe, .edge, .led, .plait, .out] _ _
  try extract_lets
  repeat' first
    | with_reducible assumption
    | exact subParts_trans (by decide) hP
    | with_reducible apply frame_eachLed
    | with_reducible apply frame_logEvent
    | with_reducible apply frame_State_modLed
    | with_reducible apply frame_ledOff
    | with_reducible apply frame_ledDrive
    | with_reducible apply Frame.ite <;> intro _
    | intro _ _ _
    | (with_reducible refine Frame.of_mk _ _ _ _ _ _ _ _ _ _ _ _ _ _ _ _ _ _ _ _ _ _ _ _ _ _ _ _ _ hP ?_ rfl ?_ ?_ ?_ ?_ ?_ ?_ ?_ ?_ ?_ ?_ ?_ ?_ ?_ ?_ ?_ ?_ ?_ ?_ ?_ ?_ ?_ ?_ ?_ ?_ ?_ ?_ ?_ ?_ <;>
         first | with_reducible exact Or.inr rfl | exact Or.inl rfl | skip
       split)

theorem frame_execNeighbourTest (columns : Bool) (test : Fin 94) (failed : Bool) (s : State) :
    OutFrame [.rings, .bezel, .loupe, .edge, .led, .mtx, .plait, .out] s (execNeighbourTest columns test failed s) := by
  have h := Frame.refl [.rings, .bezel, .loupe, .edge, .led, .mtx, .plait, .out] s
  have hP : subParts [.rings, .bezel, .loupe, .edge, .led, .mtx, .plait, .out] [.rings, .bezel, .loupe, .edge, .led, .mtx, .plait, .out] = true := by decide
  unfold execNeighbourTest
  show Frame [.rings, .bezel, .loupe, .edge, .led, .mtx, .plait, .out] _ _
  try extract_lets
  repeat' first
    | with_reducible assumption
    | exact subParts_trans (by decide) hP
    | with_reducible apply Frame.foldl
    | with_reducible apply frame_logEvent
    | with_reducible apply frame_ledLatch
    | with_reducible apply frame_State_modLed
    | with_reducible apply Frame.ite <;> intro _
    | intro _ _ _
    | (with_reducible refine Frame.of_mk _ _ _ _ _ _ _ _ _ _ _ _ _ _ _ _ _ _ _ _ _ _ _ _ _ _ _ _ _ hP ?_ rfl ?_ ?_ ?_ ?_ ?_ ?_ ?_ ?_ ?_ ?_ ?_ ?_ ?_ ?_ ?_ ?_ ?_ ?_ ?_ ?_ ?_ ?_ ?_ ?_ ?_ ?_ ?_ ?_ <;>
         first | with_reducible exact Or.inr rfl | exact Or.inl rfl | skip
       with_reducible assumption)
    | extract_lets
    | dsimp +zetaDelta only

theorem frame_colourFail (s : State) {P : List Part} {s0 : State} 
    (hP : subParts [.rings, .bezel, .loupe, .led, .plait, .out] P = true) (h : Frame P s0 s) : Frame P s0 (colourFail s) := by
  unfold colourFail
  try extract_lets
  repeat' first
    | exact subParts_trans (by decide) hP
    | with_reducible apply frame_logEvent
    | with_reducible apply Frame.ite <;> intro _
    | (with_reducible refine Frame.of_mk _ _ _ _ _ _ _ _ _ _ _ _ _ _ _ _ _ _ _ _ _ _ _ _ _ _ _ _ _ hP ?_ rfl ?_ ?_ ?_ ?_ ?_ ?_ ?_ ?_ ?_ ?_ ?_ ?_ ?_ ?_ ?_ ?_ ?_ ?_ ?_ ?_ ?_ ?_ ?_ ?_ ?_ ?_ ?_ ?_ <;>
         first | with_reducible exact Or.inr rfl | exact Or.inl rfl | skip
       with_reducible assumption)
    | extract_lets
    | dsimp +zetaDelta only

theorem frame_execColourStep (ack : Bool) (s : State) :
    OutFrame [.rings, .bezel, .loupe, .led, .plait, .out] s (execColourStep ack s) := by
  have h := Frame.refl [.rings, .bezel, .loupe, .led, .plait, .out] s
  have hP : subParts [.rings, .bezel, .loupe, .led, .plait, .out] [.rings, .bezel, .loupe, .led, .plait, .out] = true := by decide
  unfold execColourStep
  show Frame [.rings, .bezel, .loupe, .led, .plait, .out] _ _
  try extract_lets
  repeat' first
    | with_reducible assumption
    | with_reducible apply frame_colourFail
    | with_reducible apply Frame.ite <;> intro _
    | (with_reducible refine Frame.of_mk _ _ _ _ _ _ _ _ _ _ _ _ _ _ _ _ _ _ _ _ _ _ _ _ _ _ _ _ _ hP ?_ rfl ?_ ?_ ?_ ?_ ?_ ?_ ?_ ?_ ?_ ?_ ?_ ?_ ?_ ?_ ?_ ?_ ?_ ?_ ?_ ?_ ?_ ?_ ?_ ?_ ?_ ?_ ?_ ?_ <;>
         first | with_reducible exact Or.inr rfl | exact Or.inl rfl | skip
       with_reducible assumption)

theorem frame_measuredXy (s : State) (m : Int × Int × Int) {P : List Part} {s0 : State} 
    (hP : subParts [.free] P = true) (h : Frame P s0 s) : Frame P s0 (measuredXy s m).2 := by
  unfold measuredXy
  try extract_lets
  repeat' first
    | with_reducible assumption
    | with_reducible apply frame_State_takeNat
    | with_reducible apply Frame.ite_snd <;> intro _

theorem frame_execColourConvDone (ok : Bool) (c0 : BitVec 16) (c1 : BitVec 16) (c2 : BitVec 16) (s : State) :
    OutFrame [.rings, .bezel, .loupe, .led, .plait, .out, .free] s (execColourConvDone ok c0 c1 c2 s) := by
  have h := Frame.refl [.rings, .bezel, .loupe, .led, .plait, .out, .free] s
  have hP : subParts [.rings, .bezel, .loupe, .led, .plait, .out, .free] [.rings, .bezel, .loupe, .led, .plait, .out, .free] = true := by decide
  unfold execColourConvDone
  show Frame [.rings, .bezel, .loupe, .led, .plait, .out, .free] _ _
  try extract_lets
  repeat' first
    | with_reducible assumption
    | exact subParts_trans (by decide) hP
    | with_reducible apply Frame.foldl
    | with_reducible apply frame_logEvent
    | with_reducible apply frame_colourFail
    | with_reducible apply Frame.ite <;> intro _
    | intro _ _ _
    | (with_reducible refine Frame.of_mk _ _ _ _ _ _ _ _ _ _ _ _ _ _ _ _ _ _ _ _ _ _ _ _ _ _ _ _ _ hP ?_ rfl ?_ ?_ ?_ ?_ ?_ ?_ ?_ ?_ ?_ ?_ ?_ ?_ ?_ ?_ ?_ ?_ ?_ ?_ ?_ ?_ ?_ ?_ ?_ ?_ ?_ ?_ ?_ ?_ <;>
         first | with_reducible exact Or.inr rfl | exact Or.inl rfl | skip
       first
         | with_reducible assumption
         | with_reducible apply frame_measuredXy
         | with_reducible apply frame_State_takeNat
         | split
      )
    | extract_lets
    | dsimp only

theorem frame_actMtxWrite (offset : BitVec 11) (a : Act) (s : State) {P : List Part} {s0 : State} 
    (hP : subParts [.mem, .pwr, .rings, .mtx, .plait, .out] P = true) (h : Frame P s0 s) : Frame P s0 (actMtxWrite offset a s) := by
  unfold actMtxWrite
  try extract_lets
  repeat' first
    | with_reducible assumption
    | exact subParts_trans (by decide) hP
    | with_reducible apply frame_refuse
    | with_reducible apply frame_finish
    | with_reducible apply Frame.ite <;> intro _
    | (with_reducible refine Frame.of_mk _ _ _ _ _ _ _ _ _ _ _ _ _ _ _ _ _ _ _ _ _ _ _ _ _ _ _ _ _ hP ?_ rfl ?_ ?_ ?_ ?_ ?_ ?_ ?_ ?_ ?_ ?_ ?_ ?_ ?_ ?_ ?_ ?_ ?_ ?_ ?_ ?_ ?_ ?_ ?_ ?_ ?_ ?_ ?_ ?_ <;>
         first | with_reducible exact Or.inr rfl | exact Or.inl rfl | skip
       with_reducible assumption)

theorem frame_execMtxWrite (d : Desc) (offset : BitVec 11) (s : State) :
    OutFrame [.ecc, .mem, .pwr, .weave, .rings, .bezel, .loupe, .mtx, .plait, .out] s (execMtxWrite d offset s) := by
  have h := Frame.refl [.ecc, .mem, .pwr, .weave, .rings, .bezel, .loupe, .mtx, .plait, .out] s
  have hP : subParts [.ecc, .mem, .pwr, .weave, .rings, .bezel, .loupe, .mtx, .plait, .out] [.ecc, .mem, .pwr, .weave, .rings, .bezel, .loupe, .mtx, .plait, .out] = true := by decide
  unfold execMtxWrite
  show Frame [.ecc, .mem, .pwr, .weave, .rings, .bezel, .loupe, .mtx, .plait, .out] _ _
  repeat' first
    | with_reducible assumption
    | exact subParts_trans (by decide) hP
    | with_reducible apply frame_accept
    | with_reducible apply frame_actMtxWrite
    | intro _ _ _

theorem frame_actMtxSwap (when_ : BitVec 1) (a : Act) (s : State) {P : List Part} {s0 : State} 
    (hP : subParts [.mem, .pwr, .rings, .mtx, .plait, .out] P = true) (h : Frame P s0 s) : Frame P s0 (actMtxSwap when_ a s) := by
  unfold actMtxSwap
  try extract_lets
  repeat' first
    | with_reducible assumption
    | exact subParts_trans (by decide) hP
    | with_reducible apply frame_refuse
    | with_reducible apply frame_finish
    | with_reducible apply frame_mtxFrame
    | with_reducible apply frame_mtxFlip
    | with_reducible apply Frame.ite <;> intro _
    | (with_reducible refine Frame.of_mk _ _ _ _ _ _ _ _ _ _ _ _ _ _ _ _ _ _ _ _ _ _ _ _ _ _ _ _ _ hP ?_ rfl ?_ ?_ ?_ ?_ ?_ ?_ ?_ ?_ ?_ ?_ ?_ ?_ ?_ ?_ ?_ ?_ ?_ ?_ ?_ ?_ ?_ ?_ ?_ ?_ ?_ ?_ ?_ ?_ <;>
         first | with_reducible exact Or.inr rfl | exact Or.inl rfl | skip
       with_reducible assumption)

theorem frame_execMtxSwap (d : Desc) (when_ : BitVec 1) (s : State) :
    OutFrame [.ecc, .mem, .pwr, .weave, .rings, .bezel, .loupe, .mtx, .plait, .out] s (execMtxSwap d when_ s) := by
  have h := Frame.refl [.ecc, .mem, .pwr, .weave, .rings, .bezel, .loupe, .mtx, .plait, .out] s
  have hP : subParts [.ecc, .mem, .pwr, .weave, .rings, .bezel, .loupe, .mtx, .plait, .out] [.ecc, .mem, .pwr, .weave, .rings, .bezel, .loupe, .mtx, .plait, .out] = true := by decide
  unfold execMtxSwap
  show Frame [.ecc, .mem, .pwr, .weave, .rings, .bezel, .loupe, .mtx, .plait, .out] _ _
  repeat' first
    | with_reducible assumption
    | exact subParts_trans (by decide) hP
    | with_reducible apply frame_acceptWith
    | with_reducible apply frame_actMtxSwap
    | exact fun _ k => k
    | intro _ _ _

theorem frame_actMtxBlank (blank : BitVec 1) (a : Act) (s : State) {P : List Part} {s0 : State} 
    (hP : subParts [.mem, .pwr, .rings, .mtx, .plait, .out] P = true) (h : Frame P s0 s) : Frame P s0 (actMtxBlank blank a s) := by
  unfold actMtxBlank
  try extract_lets
  repeat' first
    | with_reducible assumption
    | exact subParts_trans (by decide) hP
    | with_reducible apply frame_refuse
    | with_reducible apply frame_finish
    | with_reducible apply frame_mtxDark
    | with_reducible apply Frame.ite <;> intro _
    | (with_reducible refine Frame.of_mk _ _ _ _ _ _ _ _ _ _ _ _ _ _ _ _ _ _ _ _ _ _ _ _ _ _ _ _ _ hP ?_ rfl ?_ ?_ ?_ ?_ ?_ ?_ ?_ ?_ ?_ ?_ ?_ ?_ ?_ ?_ ?_ ?_ ?_ ?_ ?_ ?_ ?_ ?_ ?_ ?_ ?_ ?_ ?_ ?_ <;>
         first | with_reducible exact Or.inr rfl | exact Or.inl rfl | skip
       with_reducible assumption)

theorem frame_execMtxBlank (d : Desc) (blank : BitVec 1) (s : State) :
    OutFrame [.ecc, .mem, .pwr, .weave, .rings, .bezel, .loupe, .mtx, .plait, .out] s (execMtxBlank d blank s) := by
  have h := Frame.refl [.ecc, .mem, .pwr, .weave, .rings, .bezel, .loupe, .mtx, .plait, .out] s
  have hP : subParts [.ecc, .mem, .pwr, .weave, .rings, .bezel, .loupe, .mtx, .plait, .out] [.ecc, .mem, .pwr, .weave, .rings, .bezel, .loupe, .mtx, .plait, .out] = true := by decide
  unfold execMtxBlank
  show Frame [.ecc, .mem, .pwr, .weave, .rings, .bezel, .loupe, .mtx, .plait, .out] _ _
  repeat' first
    | with_reducible assumption
    | exact subParts_trans (by decide) hP
    | with_reducible apply frame_accept
    | with_reducible apply frame_actMtxBlank
    | intro _ _ _

theorem frame_actMtxClear (a : Act) (s : State) {P : List Part} {s0 : State} 
    (hP : subParts [.mem, .pwr, .rings, .mtx, .plait, .out] P = true) (h : Frame P s0 s) : Frame P s0 (actMtxClear a s) := by
  unfold actMtxClear
  try extract_lets
  repeat' first
    | with_reducible assumption
    | exact subParts_trans (by decide) hP
    | with_reducible apply frame_refuse
    | with_reducible apply frame_finish
    | with_reducible apply Frame.ite <;> intro _
    | (with_reducible refine Frame.of_mk _ _ _ _ _ _ _ _ _ _ _ _ _ _ _ _ _ _ _ _ _ _ _ _ _ _ _ _ _ hP ?_ rfl ?_ ?_ ?_ ?_ ?_ ?_ ?_ ?_ ?_ ?_ ?_ ?_ ?_ ?_ ?_ ?_ ?_ ?_ ?_ ?_ ?_ ?_ ?_ ?_ ?_ ?_ ?_ ?_ <;>
         first | with_reducible exact Or.inr rfl | exact Or.inl rfl | skip
       with_reducible assumption)

theorem frame_execMtxClear (d : Desc) (s : State) :
    OutFrame [.ecc, .mem, .pwr, .weave, .rings, .bezel, .loupe, .mtx, .plait, .out] s (execMtxClear d s) := by
  have h := Frame.refl [.ecc, .mem, .pwr, .weave, .rings, .bezel, .loupe, .mtx, .plait, .out] s
  have hP : subParts [.ecc, .mem, .pwr, .weave, .rings, .bezel, .loupe, .mtx, .plait, .out] [.ecc, .mem, .pwr, .weave, .rings, .bezel, .loupe, .mtx, .plait, .out] = true := by decide
  unfold execMtxClear
  show Frame [.ecc, .mem, .pwr, .weave, .rings, .bezel, .loupe, .mtx, .plait, .out] _ _
  repeat' first
    | with_reducible assumption
    | exact subParts_trans (by decide) hP
    | with_reducible apply frame_accept
    | with_reducible apply frame_actMtxClear
    | intro _ _ _

theorem frame_execMatrixFrameStart (s : State) :
    OutFrame [.mem, .pwr, .rings, .mtx, .plait, .out] s (execMatrixFrameStart s) := by
  have h := Frame.refl [.mem, .pwr, .rings, .mtx, .plait, .out] s
  have hP : subParts [.mem, .pwr, .rings, .mtx, .plait, .out] [.mem, .pwr, .rings, .mtx, .plait, .out] = true := by decide
  unfold execMatrixFrameStart
  show Frame [.mem, .pwr, .rings, .mtx, .plait, .out] _ _
  try extract_lets
  repeat' first
    | with_reducible assumption
    | with_reducible apply frame_mtxFrame
    | with_reducible apply Frame.ite <;> intro _
    | (with_reducible refine Frame.of_mk _ _ _ _ _ _ _ _ _ _ _ _ _ _ _ _ _ _ _ _ _ _ _ _ _ _ _ _ _ hP ?_ rfl ?_ ?_ ?_ ?_ ?_ ?_ ?_ ?_ ?_ ?_ ?_ ?_ ?_ ?_ ?_ ?_ ?_ ?_ ?_ ?_ ?_ ?_ ?_ ?_ ?_ ?_ ?_ ?_ <;>
         first | with_reducible exact Or.inr rfl | exact Or.inl rfl | skip
       with_reducible assumption)

theorem frame_execMxSyncEdge (rising : Bool) (s : State) :
    OutFrame [.clk, .mem, .pwr, .weave, .rings, .mtx, .plait, .out] s (execMxSyncEdge rising s) := by
  have h := Frame.refl [.clk, .mem, .pwr, .weave, .rings, .mtx, .plait, .out] s
  have hP : subParts [.clk, .mem, .pwr, .weave, .rings, .mtx, .plait, .out] [.clk, .mem, .pwr, .weave, .rings, .mtx, .plait, .out] = true := by decide
  unfold execMxSyncEdge
  show Frame [.clk, .mem, .pwr, .weave, .rings, .mtx, .plait, .out] _ _
  try extract_lets
  repeat' first
    | with_reducible assumption
    | exact subParts_trans (by decide) hP
    | with_reducible apply frame_mtxFrame
    | with_reducible apply frame_State_advance
    | with_reducible apply Frame.ite <;> intro _
    | (with_reducible refine Frame.of_mk _ _ _ _ _ _ _ _ _ _ _ _ _ _ _ _ _ _ _ _ _ _ _ _ _ _ _ _ _ hP ?_ rfl ?_ ?_ ?_ ?_ ?_ ?_ ?_ ?_ ?_ ?_ ?_ ?_ ?_ ?_ ?_ ?_ ?_ ?_ ?_ ?_ ?_ ?_ ?_ ?_ ?_ ?_ ?_ ?_ <;>
         first | with_reducible exact Or.inr rfl | exact Or.inl rfl | skip
       with_reducible assumption)

theorem frame_execMxSyncLost (s : State) :
    OutFrame [.rings, .bezel, .loupe, .mtx, .plait, .out] s (execMxSyncLost s) := by
  have h := Frame.refl [.rings, .bezel, .loupe, .mtx, .plait, .out] s
  have hP : subParts [.rings, .bezel, .loupe, .mtx, .plait, .out] [.rings, .bezel, .loupe, .mtx, .plait, .out] = true := by decide
  unfold execMxSyncLost
  show Frame [.rings, .bezel, .loupe, .mtx, .plait, .out] _ _
  try extract_lets
  repeat' first
    | with_reducible assumption
    | exact subParts_trans (by decide) hP
    | with_reducible apply frame_logEvent
    | with_reducible apply Frame.ite <;> intro _
    | (with_reducible refine Frame.of_mk _ _ _ _ _ _ _ _ _ _ _ _ _ _ _ _ _ _ _ _ _ _ _ _ _ _ _ _ _ hP ?_ rfl ?_ ?_ ?_ ?_ ?_ ?_ ?_ ?_ ?_ ?_ ?_ ?_ ?_ ?_ ?_ ?_ ?_ ?_ ?_ ?_ ?_ ?_ ?_ ?_ ?_ ?_ ?_ ?_ <;>
         first | with_reducible exact Or.inr rfl | exact Or.inl rfl | skip
       with_reducible assumption)

theorem frame_execRowOvercurrent (row : Fin 16) (s : State) :
    OutFrame [.rings, .bezel, .loupe, .mtx, .plait, .out] s (execRowOvercurrent row s) := by
  have h := Frame.refl [.rings, .bezel, .loupe, .mtx, .plait, .out] s
  have hP : subParts [.rings, .bezel, .loupe, .mtx, .plait, .out] [.rings, .bezel, .loupe, .mtx, .plait, .out] = true := by decide
  unfold execRowOvercurrent
  show Frame [.rings, .bezel, .loupe, .mtx, .plait, .out] _ _
  try extract_lets
  repeat' first
    | with_reducible assumption
    | exact subParts_trans (by decide) hP
    | with_reducible apply frame_logEvent
    | with_reducible apply frame_mtxLatch
    | with_reducible apply Frame.ite <;> intro _
    | (with_reducible refine Frame.of_mk _ _ _ _ _ _ _ _ _ _ _ _ _ _ _ _ _ _ _ _ _ _ _ _ _ _ _ _ _ hP ?_ rfl ?_ ?_ ?_ ?_ ?_ ?_ ?_ ?_ ?_ ?_ ?_ ?_ ?_ ?_ ?_ ?_ ?_ ?_ ?_ ?_ ?_ ?_ ?_ ?_ ?_ ?_ ?_ ?_ <;>
         first | with_reducible exact Or.inr rfl | exact Or.inl rfl | skip
       with_reducible assumption)

theorem frame_execMxVsOvercurrent (s : State) :
    OutFrame [.rings, .bezel, .loupe, .mtx, .plait, .out] s (execMxVsOvercurrent s) := by
  have h := Frame.refl [.rings, .bezel, .loupe, .mtx, .plait, .out] s
  have hP : subParts [.rings, .bezel, .loupe, .mtx, .plait, .out] [.rings, .bezel, .loupe, .mtx, .plait, .out] = true := by decide
  unfold execMxVsOvercurrent
  show Frame [.rings, .bezel, .loupe, .mtx, .plait, .out] _ _
  repeat' first
    | with_reducible assumption
    | with_reducible apply frame_mtxLatch
    | with_reducible apply Frame.ite <;> intro _

theorem frame_execColumnOpen (col : Fin 48) (s : State) :
    OutFrame [.rings, .bezel, .loupe, .mtx, .plait, .out] s (execColumnOpen col s) := by
  have h := Frame.refl [.rings, .bezel, .loupe, .mtx, .plait, .out] s
  have hP : subParts [.rings, .bezel, .loupe, .mtx, .plait, .out] [.rings, .bezel, .loupe, .mtx, .plait, .out] = true := by decide
  unfold execColumnOpen
  show Frame [.rings, .bezel, .loupe, .mtx, .plait, .out] _ _
  try extract_lets
  repeat' first
    | with_reducible assumption
    | exact subParts_trans (by decide) hP
    | with_reducible apply frame_logEvent
    | with_reducible apply Frame.ite <;> intro _
    | (with_reducible refine Frame.of_mk _ _ _ _ _ _ _ _ _ _ _ _ _ _ _ _ _ _ _ _ _ _ _ _ _ _ _ _ _ hP ?_ rfl ?_ ?_ ?_ ?_ ?_ ?_ ?_ ?_ ?_ ?_ ?_ ?_ ?_ ?_ ?_ ?_ ?_ ?_ ?_ ?_ ?_ ?_ ?_ ?_ ?_ ?_ ?_ ?_ <;>
         first | with_reducible exact Or.inr rfl | exact Or.inl rfl | skip
       with_reducible assumption)

end Sys2Proof.Machine
end

