-- ==== Sys2Proof/Laws/FrameEdgeCmds.lean ====
section
/-! SUPPORT. Which parts of the state the operations of Machine/EdgeCmds.lean may change. -/

namespace Sys2Proof.Machine

set_option linter.unusedTactic false
set_option linter.unreachableTactic false

theorem frame_actEdgePin (ch : BitVec 7) (phase : BitVec 13) (a : Act) (s : State) {P : List Part} {s0 : State} 
    (hP : subParts [.mem, .pwr, .rings, .bezel, .loupe, .edge, .plait, .out] P = true) (h : Frame P s0 s) : Frame P s0 (actEdgePin ch phase a s) := by
  unfold actEdgePin
  try extract_lets
  repeat' first
    | with_reducible assumption
    | exact subParts_trans (by decide) hP
    | with_reducible apply frame_refuse
    | with_reducible apply frame_finish
    | with_reducible apply frame_replan
    | with_reducible apply frame_State_modP
    | with_reducible apply Frame.ite <;> intro _
    | (with_reducible refine Frame.of_mk _ _ _ _ _ _ _ _ _ _ _ _ _ _ _ _ _ _ _ _ _ _ _ _ _ _ _ _ _ hP ?_ rfl ?_ ?_ ?_ ?_ ?_ ?_ ?_ ?_ ?_ ?_ ?_ ?_ ?_ ?_ ?_ ?_ ?_ ?_ ?_ ?_ ?_ ?_ ?_ ?_ ?_ ?_ ?_ ?_ <;>
         first | with_reducible exact Or.inr rfl | exact Or.inl rfl | skip
       split)

theorem frame_execEdgePin (d : Desc) (ch : BitVec 7) (phase : BitVec 13) (s : State) :
    OutFrame [.ecc, .mem, .pwr, .weave, .rings, .bezel, .loupe, .edge, .plait, .out] s (execEdgePin d ch phase s) := by
  have h := Frame.refl [.ecc, .mem, .pwr, .weave, .rings, .bezel, .loupe, .edge, .plait, .out] s
  have hP : subParts [.ecc, .mem, .pwr, .weave, .rings, .bezel, .loupe, .edge, .plait, .out] [.ecc, .mem, .pwr, .weave, .rings, .bezel, .loupe, .edge, .plait, .out] = true := by decide
  unfold execEdgePin
  show Frame [.ecc, .mem, .pwr, .weave, .rings, .bezel, .loupe, .edge, .plait, .out] _ _
  repeat' first
    | with_reducible assumption
    | exact subParts_trans (by decide) hP
    | with_reducible apply frame_accept
    | with_reducible apply frame_actEdgePin
    | intro _ _ _

theorem frame_actEdgeUnpin (ch : BitVec 7) (a : Act) (s : State) {P : List Part} {s0 : State} 
    (hP : subParts [.mem, .pwr, .rings, .bezel, .loupe, .edge, .plait, .out] P = true) (h : Frame P s0 s) : Frame P s0 (actEdgeUnpin ch a s) := by
  unfold actEdgeUnpin
  try extract_lets
  repeat' first
    | with_reducible assumption
    | exact subParts_trans (by decide) hP
    | with_reducible apply frame_finish
    | with_reducible apply frame_replan
    | with_reducible apply frame_State_modP

theorem frame_execEdgeUnpin (d : Desc) (ch : BitVec 7) (s : State) :
    OutFrame [.ecc, .mem, .pwr, .weave, .rings, .bezel, .loupe, .edge, .plait, .out] s (execEdgeUnpin d ch s) := by
  have h := Frame.refl [.ecc, .mem, .pwr, .weave, .rings, .bezel, .loupe, .edge, .plait, .out] s
  have hP : subParts [.ecc, .mem, .pwr, .weave, .rings, .bezel, .loupe, .edge, .plait, .out] [.ecc, .mem, .pwr, .weave, .rings, .bezel, .loupe, .edge, .plait, .out] = true := by decide
  unfold execEdgeUnpin
  show Frame [.ecc, .mem, .pwr, .weave, .rings, .bezel, .loupe, .edge, .plait, .out] _ _
  repeat' first
    | with_reducible assumption
    | exact subParts_trans (by decide) hP
    | with_reducible apply frame_accept
    | with_reducible apply frame_actEdgeUnpin
    | intro _ _ _

theorem frame_dropShots (s : State) (p : Planned) {P : List Part} {s0 : State} 
    (hP : subParts [.edge] P = true) (h : Frame P s0 s) : Frame P s0 (dropShots s p) := by
  unfold dropShots
  try extract_lets
  repeat' first
    | (with_reducible refine Frame.of_mk _ _ _ _ _ _ _ _ _ _ _ _ _ _ _ _ _ _ _ _ _ _ _ _ _ _ _ _ _ hP ?_ rfl ?_ ?_ ?_ ?_ ?_ ?_ ?_ ?_ ?_ ?_ ?_ ?_ ?_ ?_ ?_ ?_ ?_ ?_ ?_ ?_ ?_ ?_ ?_ ?_ ?_ ?_ ?_ ?_ <;>
         first | with_reducible exact Or.inr rfl | exact Or.inl rfl | skip
       with_reducible assumption)

theorem frame_plannedTake (s : State) (p : Planned) (slot : Nat) {P : List Part} {s0 : State} 
    (hP : subParts [.mem, .pwr, .rings, .bezel, .hso, .edge, .fio, .plait, .out] P = true) (h : Frame P s0 s) : Frame P s0 (plannedTake s p slot) := by
  unfold plannedTake
  try extract_lets
  repeat' first
    | with_reducible assumption
    | exact subParts_trans (by decide) hP
    | with_reducible apply Frame.foldl
    | with_reducible apply frame_refuse
    | with_reducible apply frame_dropShots
    | with_reducible apply frame_finish
    | with_reducible apply frame_hsoApply
    | with_reducible apply frame_fioApply
    | with_reducible apply Frame.ite <;> intro _
    | intro _ _ _
    | (with_reducible refine Frame.of_mk _ _ _ _ _ _ _ _ _ _ _ _ _ _ _ _ _ _ _ _ _ _ _ _ _ _ _ _ _ hP ?_ rfl ?_ ?_ ?_ ?_ ?_ ?_ ?_ ?_ ?_ ?_ ?_ ?_ ?_ ?_ ?_ ?_ ?_ ?_ ?_ ?_ ?_ ?_ ?_ ?_ ?_ ?_ ?_ ?_ <;>
         first | with_reducible exact Or.inr rfl | exact Or.inl rfl | skip
       first
         | with_reducible assumption
         | split
      )

theorem frame_execPlannedSwitch (index : BitVec 7) (s : State) :
    OutFrame [.clk, .mem, .pwr, .weave, .rings, .bezel, .hso, .edge, .fio, .plait, .out] s (execPlannedSwitch index s) := by
  have h := Frame.refl [.clk, .mem, .pwr, .weave, .rings, .bezel, .hso, .edge, .fio, .plait, .out] s
  have hP : subParts [.clk, .mem, .pwr, .weave, .rings, .bezel, .hso, .edge, .fio, .plait, .out] [.clk, .mem, .pwr, .weave, .rings, .bezel, .hso, .edge, .fio, .plait, .out] = true := by decide
  unfold execPlannedSwitch
  show Frame [.clk, .mem, .pwr, .weave, .rings, .bezel, .hso, .edge, .fio, .plait, .out] _ _
  try extract_lets
  repeat' first
    | with_reducible assumption
    | exact subParts_trans (by decide) hP
    | with_reducible apply frame_plannedTake
    | with_reducible apply frame_State_reachWeave
    | (with_reducible refine Frame.of_mk _ _ _ _ _ _ _ _ _ _ _ _ _ _ _ _ _ _ _ _ _ _ _ _ _ _ _ _ _ hP ?_ rfl ?_ ?_ ?_ ?_ ?_ ?_ ?_ ?_ ?_ ?_ ?_ ?_ ?_ ?_ ?_ ?_ ?_ ?_ ?_ ?_ ?_ ?_ ?_ ?_ ?_ ?_ ?_ ?_ <;>
         first | with_reducible exact Or.inr rfl | exact Or.inl rfl | skip
       split)

theorem frame_ledTake (s : State) (p : LedPend) {P : List Part} {s0 : State} 
    (hP : subParts [.mem, .pwr, .rings, .bezel, .edge, .led, .plait, .out] P = true) (h : Frame P s0 s) : Frame P s0 (ledTake s p) := by
  unfold ledTake
  try extract_lets
  repeat' first
    | with_reducible assumption
    | exact subParts_trans (by decide) hP
    | with_reducible apply Frame.foldl
    | with_reducible apply frame_refuse
    | with_reducible apply frame_finish
    | with_reducible apply frame_ledApply
    | intro _ _ _
    | (with_reducible refine Frame.of_mk _ _ _ _ _ _ _ _ _ _ _ _ _ _ _ _ _ _ _ _ _ _ _ _ _ _ _ _ _ hP ?_ rfl ?_ ?_ ?_ ?_ ?_ ?_ ?_ ?_ ?_ ?_ ?_ ?_ ?_ ?_ ?_ ?_ ?_ ?_ ?_ ?_ ?_ ?_ ?_ ?_ ?_ ?_ ?_ ?_ <;>
         first | with_reducible exact Or.inr rfl | exact Or.inl rfl | skip
       first
         | with_reducible assumption
         | split
      )

theorem frame_retime (s : State) (i : Nat) {P : List Part} {s0 : State} 
    (hP : subParts [.rings, .bezel, .loupe, .edge, .plait, .out] P = true) (h : Frame P s0 s) : Frame P s0 (retime s i) := by
  unfold retime
  try extract_lets
  repeat' first
    | with_reducible assumption
    | exact subParts_trans (by decide) hP
    | with_reducible apply frame_replan
    | with_reducible apply frame_planOn
    | with_reducible apply Frame.ite <;> intro _
    | (with_reducible refine Frame.of_mk _ _ _ _ _ _ _ _ _ _ _ _ _ _ _ _ _ _ _ _ _ _ _ _ _ _ _ _ _ hP ?_ rfl ?_ ?_ ?_ ?_ ?_ ?_ ?_ ?_ ?_ ?_ ?_ ?_ ?_ ?_ ?_ ?_ ?_ ?_ ?_ ?_ ?_ ?_ ?_ ?_ ?_ ?_ ?_ ?_ <;>
         first | with_reducible exact Or.inr rfl | exact Or.inl rfl | skip
       split)

theorem frame_execPwmPeriodStart (index : BitVec 7) (s : State) :
    OutFrame [.mem, .pwr, .rings, .bezel, .loupe, .hso, .edge, .led, .fio, .plait, .out] s (execPwmPeriodStart index s) := by
  have h := Frame.refl [.mem, .pwr, .rings, .bezel, .loupe, .hso, .edge, .led, .fio, .plait, .out] s
  have hP : subParts [.mem, .pwr, .rings, .bezel, .loupe, .hso, .edge, .led, .fio, .plait, .out] [.mem, .pwr, .rings, .bezel, .loupe, .hso, .edge, .led, .fio, .plait, .out] = true := by decide
  unfold execPwmPeriodStart
  show Frame [.mem, .pwr, .rings, .bezel, .loupe, .hso, .edge, .led, .fio, .plait, .out] _ _
  try extract_lets
  repeat' first
    | with_reducible assumption
    | exact subParts_trans (by decide) hP
    | with_reducible apply frame_retime
    | with_reducible apply frame_State_modP
    | with_reducible apply frame_plannedTake
    | with_reducible apply frame_planOnTime
    | with_reducible apply frame_State_modHso
    | with_reducible apply frame_ledTake
    | with_reducible apply frame_State_modLed
    | with_reducible apply Frame.ite <;> intro _
    | (with_reducible refine Frame.of_mk _ _ _ _ _ _ _ _ _ _ _ _ _ _ _ _ _ _ _ _ _ _ _ _ _ _ _ _ _ hP ?_ rfl ?_ ?_ ?_ ?_ ?_ ?_ ?_ ?_ ?_ ?_ ?_ ?_ ?_ ?_ ?_ ?_ ?_ ?_ ?_ ?_ ?_ ?_ ?_ ?_ ?_ ?_ ?_ ?_ <;>
         first | with_reducible exact Or.inr rfl | exact Or.inl rfl | skip
       split)

theorem frame_execPlannerFrameCheck (s : State) :
    OutFrame [.rings, .bezel, .loupe, .edge, .plait, .out] s (execPlannerFrameCheck s) := by
  have h := Frame.refl [.rings, .bezel, .loupe, .edge, .plait, .out] s
  have hP : subParts [.rings, .bezel, .loupe, .edge, .plait, .out] [.rings, .bezel, .loupe, .edge, .plait, .out] = true := by decide
  unfold execPlannerFrameCheck
  show Frame [.rings, .bezel, .loupe, .edge, .plait, .out] _ _
  try extract_lets
  repeat' first
    | with_reducible assumption
    | exact subParts_trans (by decide) hP
    | with_reducible apply frame_overCheck
    | with_reducible apply frame_fixedCheck
    | with_reducible apply frame_clearFrame
    | with_reducible apply Frame.ite <;> intro _

theorem frame_endFrame (s : State) {P : List Part} {s0 : State} 
    (hP : subParts [.edge] P = true) (h : Frame P s0 s) : Frame P s0 (endFrame s) := by
  unfold endFrame
  try extract_lets
  repeat' first
    | (with_reducible refine Frame.of_mk _ _ _ _ _ _ _ _ _ _ _ _ _ _ _ _ _ _ _ _ _ _ _ _ _ _ _ _ _ hP ?_ rfl ?_ ?_ ?_ ?_ ?_ ?_ ?_ ?_ ?_ ?_ ?_ ?_ ?_ ?_ ?_ ?_ ?_ ?_ ?_ ?_ ?_ ?_ ?_ ?_ ?_ ?_ ?_ ?_ <;>
         first | with_reducible exact Or.inr rfl | exact Or.inl rfl | skip
       with_reducible assumption)

theorem frame_ledFrame (s : State) {P : List Part} {s0 : State} 
    (hP : subParts [.mem, .pwr, .rings, .bezel, .loupe, .edge, .led, .plait, .out] P = true) (h : Frame P s0 s) : Frame P s0 (ledFrame s) := by
  unfold ledFrame
  try extract_lets
  repeat' first
    | with_reducible assumption
    | exact subParts_trans (by decide) hP
    | with_reducible apply Frame.foldl
    | with_reducible apply frame_ledTake
    | with_reducible apply frame_eachLed
    | with_reducible apply frame_logEvent
    | with_reducible apply frame_ledDrive
    | with_reducible apply frame_State_modLed
    | with_reducible apply Frame.ite <;> intro _
    | intro _ _ _

theorem frame_strandedPeriods (s : State) {P : List Part} {s0 : State} 
    (hP : subParts [.mem, .pwr, .rings, .bezel, .hso, .edge, .fio, .plait, .out] P = true) (h : Frame P s0 s) : Frame P s0 (strandedPeriods s) := by
  unfold strandedPeriods
  repeat' first
    | with_reducible assumption
    | with_reducible apply Frame.foldl
    | with_reducible apply frame_plannedTake
    | intro _ _ _

theorem frame_execPlannerFrameStart (s : State) :
    OutFrame [.mem, .pwr, .rings, .bezel, .loupe, .hso, .edge, .led, .fio, .vlv, .facet, .plait, .out] s (execPlannerFrameStart s) := by
  have h := Frame.refl [.mem, .pwr, .rings, .bezel, .loupe, .hso, .edge, .led, .fio, .vlv, .facet, .plait, .out] s
  have hP : subParts [.mem, .pwr, .rings, .bezel, .loupe, .hso, .edge, .led, .fio, .vlv, .facet, .plait, .out] [.mem, .pwr, .rings, .bezel, .loupe, .hso, .edge, .led, .fio, .vlv, .facet, .plait, .out] = true := by decide
  unfold execPlannerFrameStart
  show Frame [.mem, .pwr, .rings, .bezel, .loupe, .hso, .edge, .led, .fio, .vlv, .facet, .plait, .out] _ _
  try extract_lets
  repeat' first
    | with_reducible assumption
    | exact subParts_trans (by decide) hP
    | with_reducible apply frame_strandedPeriods
    | with_reducible apply frame_vlvFrame
    | with_reducible apply frame_fioFrame
    | with_reducible apply frame_hsoFrame
    | with_reducible apply frame_endFrame
    | with_reducible apply frame_ledFrame
    | with_reducible apply Frame.ite <;> intro _

theorem frame_planStep (s : State) {P : List Part} {s0 : State} 
    (hP : subParts [.rings, .bezel, .loupe, .edge, .plait, .out] P = true) (h : Frame P s0 s) : Frame P s0 (planStep s) := by
  unfold planStep
  try extract_lets
  repeat' first
    | exact subParts_trans (by decide) hP
    | with_reducible apply frame_logEvent
    | (with_reducible refine Frame.of_mk _ _ _ _ _ _ _ _ _ _ _ _ _ _ _ _ _ _ _ _ _ _ _ _ _ _ _ _ _ hP ?_ rfl ?_ ?_ ?_ ?_ ?_ ?_ ?_ ?_ ?_ ?_ ?_ ?_ ?_ ?_ ?_ ?_ ?_ ?_ ?_ ?_ ?_ ?_ ?_ ?_ ?_ ?_ ?_ ?_ <;>
         first | with_reducible exact Or.inr rfl | exact Or.inl rfl | skip
       with_reducible assumption)

end Sys2Proof.Machine
end

