-- ==== Sys2Proof/Laws/FrameCanOps.lean ====
section
/-! SUPPORT. Which parts of the state the operations of Machine/CanOps.lean may change. -/

namespace Sys2Proof.Machine

set_option linter.unusedTactic false
set_option linter.unreachableTactic false

theorem frame_State_modCan (s : State) (n : Nat) (f : CanCh → CanCh) {P : List Part} {s0 : State} 
    (hP : subParts [.can] P = true) (h : Frame P s0 s) : Frame P s0 (State.modCan s n f) := by
  unfold State.modCan
  try extract_lets
  repeat' first
    | (with_reducible refine Frame.of_mk _ _ _ _ _ _ _ _ _ _ _ _ _ _ _ _ _ _ _ _ _ _ _ _ _ _ _ _ _ hP ?_ rfl ?_ ?_ ?_ ?_ ?_ ?_ ?_ ?_ ?_ ?_ ?_ ?_ ?_ ?_ ?_ ?_ ?_ ?_ ?_ ?_ ?_ ?_ ?_ ?_ ?_ ?_ ?_ ?_ <;>
         first | with_reducible exact Or.inr rfl | exact Or.inl rfl | skip
       with_reducible assumption)

theorem frame_schedStop (s : State) (n : Nat) (cause : Nat) {P : List Part} {s0 : State} 
    (hP : subParts [.rings, .bezel, .loupe, .can, .plait, .out] P = true) (h : Frame P s0 s) : Frame P s0 (schedStop s n cause) := by
  unfold schedStop
  try extract_lets
  repeat' first
    | with_reducible assumption
    | exact subParts_trans (by decide) hP
    | with_reducible apply frame_logEvent
    | with_reducible apply frame_State_modCan
    | with_reducible apply Frame.ite <;> intro _

theorem frame_schedCheck (s : State) (n : Nat) {P : List Part} {s0 : State} 
    (hP : subParts [.rings, .bezel, .loupe, .can, .plait, .out] P = true) (h : Frame P s0 s) : Frame P s0 (schedCheck s n) := by
  unfold schedCheck
  try extract_lets
  repeat' first
    | with_reducible assumption
    | exact subParts_trans (by decide) hP
    | with_reducible apply frame_schedStop
    | with_reducible apply frame_State_modCan
    | with_reducible apply Frame.ite <;> intro _

theorem frame_canSync (s : State) (n : Nat) {P : List Part} {s0 : State} 
    (hP : subParts [.rings, .bezel, .loupe, .can, .plait, .out] P = true) (h : Frame P s0 s) : Frame P s0 (canSync s n) := by
  unfold canSync
  try extract_lets
  repeat' first
    | with_reducible assumption
    | exact subParts_trans (by decide) hP
    | with_reducible apply frame_State_modCan
    | with_reducible apply frame_schedCheck
    | with_reducible apply Frame.ite <;> intro _

theorem frame_txComplete (s : State) (f : TxFrame) (b : Nat) (status : Nat) {P : List Part} {s0 : State} 
    (hP : subParts [.mem, .pwr, .rings, .plait, .out] P = true) (h : Frame P s0 s) : Frame P s0 (txComplete s f b status) := by
  unfold txComplete
  try extract_lets
  repeat' first
    | with_reducible assumption
    | with_reducible apply frame_refuse
    | with_reducible apply frame_complete
    | with_reducible apply Frame.ite <;> intro _
    | (with_reducible refine Frame.of_mk _ _ _ _ _ _ _ _ _ _ _ _ _ _ _ _ _ _ _ _ _ _ _ _ _ _ _ _ _ hP ?_ rfl ?_ ?_ ?_ ?_ ?_ ?_ ?_ ?_ ?_ ?_ ?_ ?_ ?_ ?_ ?_ ?_ ?_ ?_ ?_ ?_ ?_ ?_ ?_ ?_ ?_ ?_ ?_ ?_ <;>
         first | with_reducible exact Or.inr rfl | exact Or.inl rfl | skip
       split)

theorem frame_cancelsEnd (s : State) (f : TxFrame) (status : Nat) {P : List Part} {s0 : State} 
    (hP : subParts [.mem, .pwr, .rings, .plait, .out] P = true) (h : Frame P s0 s) : Frame P s0 (cancelsEnd s f status) := by
  unfold cancelsEnd
  try extract_lets
  repeat' first
    | with_reducible assumption
    | with_reducible apply Frame.foldl
    | with_reducible apply frame_complete
    | intro _ _ _

theorem frame_txDrop (s : State) (f : TxFrame) (b : Nat) (status : Nat) {P : List Part} {s0 : State} 
    (hP : subParts [.mem, .pwr, .rings, .plait, .out] P = true) (h : Frame P s0 s) : Frame P s0 (txDrop s f b status) := by
  unfold txDrop
  try extract_lets
  repeat' first
    | with_reducible assumption
    | with_reducible apply frame_cancelsEnd
    | with_reducible apply frame_txComplete

theorem frame_canFillN (s : State) (n : Nat) (x0 : Nat) {P : List Part} {s0 : State} 
    (hP : subParts [.mem, .pwr, .rings, .can, .plait, .out] P = true) (h : Frame P s0 s) : Frame P s0 (canFillN s n x0) := by
  induction x0 generalizing s n with
  | zero =>
    unfold canFillN
    try extract_lets
    repeat' first
      | with_reducible assumption
      | exact subParts_trans (by decide) hP
      | with_reducible apply ih
      | with_reducible apply frame_txComplete
      | with_reducible apply frame_State_modCan
      | (with_reducible refine Frame.of_mk _ _ _ _ _ _ _ _ _ _ _ _ _ _ _ _ _ _ _ _ _ _ _ _ _ _ _ _ _ hP ?_ rfl ?_ ?_ ?_ ?_ ?_ ?_ ?_ ?_ ?_ ?_ ?_ ?_ ?_ ?_ ?_ ?_ ?_ ?_ ?_ ?_ ?_ ?_ ?_ ?_ ?_ ?_ ?_ ?_ <;>
           first | with_reducible exact Or.inr rfl | exact Or.inl rfl | skip
         split)
  | succ k ih =>
    unfold canFillN
    try extract_lets
    repeat' first
      | with_reducible assumption
      | exact subParts_trans (by decide) hP
      | with_reducible apply ih
      | with_reducible apply frame_txComplete
      | with_reducible apply frame_State_modCan
      | (with_reducible refine Frame.of_mk _ _ _ _ _ _ _ _ _ _ _ _ _ _ _ _ _ _ _ _ _ _ _ _ _ _ _ _ _ hP ?_ rfl ?_ ?_ ?_ ?_ ?_ ?_ ?_ ?_ ?_ ?_ ?_ ?_ ?_ ?_ ?_ ?_ ?_ ?_ ?_ ?_ ?_ ?_ ?_ ?_ ?_ ?_ ?_ ?_ <;>
           first | with_reducible exact Or.inr rfl | exact Or.inl rfl | skip
         split)

theorem frame_canFill (s : State) (n : Nat) {P : List Part} {s0 : State} 
    (hP : subParts [.mem, .pwr, .rings, .can, .plait, .out] P = true) (h : Frame P s0 s) : Frame P s0 (canFill s n) := by
  unfold canFill
  repeat' first
    | with_reducible assumption
    | with_reducible apply frame_canFillN

theorem frame_freeTb (s : State) (n : Nat) (b : Nat) {P : List Part} {s0 : State} 
    (hP : subParts [.can, .out] P = true) (h : Frame P s0 s) : Frame P s0 (freeTb s n b) := by
  unfold freeTb
  try extract_lets
  repeat' first
    | with_reducible assumption
    | exact subParts_trans (by decide) hP
    | with_reducible apply frame_State_modCan

theorem frame_canQueue (s : State) (n : Nat) (f : TxFrame) (head : Bool) {P : List Part} {s0 : State} 
    (hP : subParts [.mem, .pwr, .rings, .can, .plait, .out] P = true) (h : Frame P s0 s) : Frame P s0 (canQueue s n f head).2 := by
  unfold canQueue
  try extract_lets
  repeat' first
    | with_reducible assumption
    | exact subParts_trans (by decide) hP
    | with_reducible apply frame_canFill
    | with_reducible apply frame_State_modCan
    | with_reducible apply Frame.ite_snd <;> intro _

theorem frame_canDump (s : State) (n : Nat) (status : Nat) (keep : Bool) {P : List Part} {s0 : State} 
    (hP : subParts [.mem, .pwr, .rings, .can, .plait, .out] P = true) (h : Frame P s0 s) : Frame P s0 (canDump s n status keep) := by
  unfold canDump
  try extract_lets
  repeat' first
    | with_reducible assumption
    | exact subParts_trans (by decide) hP
    | with_reducible apply Frame.foldl
    | with_reducible apply frame_State_modCan
    | with_reducible apply frame_txDrop
    | intro _ _ _

theorem frame_enterBusOff (s : State) (n : Nat) {P : List Part} {s0 : State} 
    (hP : subParts [.mem, .pwr, .rings, .bezel, .loupe, .can, .plait, .out] P = true) (h : Frame P s0 s) : Frame P s0 (enterBusOff s n) := by
  unfold enterBusOff
  try extract_lets
  repeat' first
    | with_reducible assumption
    | exact subParts_trans (by decide) hP
    | with_reducible apply frame_State_modCan
    | with_reducible apply frame_canDump
    | with_reducible apply frame_canSync
    | with_reducible apply frame_logEvent

theorem frame_confine (s : State) (n : Nat) {P : List Part} {s0 : State} 
    (hP : subParts [.mem, .pwr, .rings, .bezel, .loupe, .can, .plait, .out] P = true) (h : Frame P s0 s) : Frame P s0 (confine s n) := by
  unfold confine
  try extract_lets
  repeat' first
    | with_reducible assumption
    | exact subParts_trans (by decide) hP
    | with_reducible apply frame_enterBusOff
    | with_reducible apply frame_logEvent
    | with_reducible apply frame_State_modCan
    | with_reducible apply Frame.ite <;> intro _

theorem frame_endAckRun (s : State) (n : Nat) {P : List Part} {s0 : State} 
    (hP : subParts [.rings, .bezel, .loupe, .can, .plait, .out] P = true) (h : Frame P s0 s) : Frame P s0 (endAckRun s n) := by
  unfold endAckRun
  try extract_lets
  repeat' first
    | with_reducible assumption
    | exact subParts_trans (by decide) hP
    | with_reducible apply frame_State_modCan
    | with_reducible apply frame_logEvent
    | with_reducible apply Frame.ite <;> intro _

theorem frame_countAck (s : State) (n : Nat) {P : List Part} {s0 : State} 
    (hP : subParts [.rings, .bezel, .loupe, .can, .plait, .out] P = true) (h : Frame P s0 s) : Frame P s0 (countAck s n) := by
  unfold countAck
  try extract_lets
  repeat' first
    | with_reducible assumption
    | exact subParts_trans (by decide) hP
    | with_reducible apply frame_State_modCan
    | with_reducible apply frame_logEvent
    | with_reducible apply Frame.ite <;> intro _

theorem frame_startBackoff (s : State) (n : Nat) {P : List Part} {s0 : State} 
    (hP : subParts [.can] P = true) (h : Frame P s0 s) : Frame P s0 (startBackoff s n) := by
  unfold startBackoff
  try extract_lets
  repeat' first
    | with_reducible assumption
    | with_reducible apply frame_State_modCan

theorem frame_State_modCf (s : State) (k : Nat) (f : CanCf → CanCf) {P : List Part} {s0 : State} 
    (hP : subParts [.can] P = true) (h : Frame P s0 s) : Frame P s0 (State.modCf s k f) := by
  unfold State.modCf
  try extract_lets
  repeat' first
    | (with_reducible refine Frame.of_mk _ _ _ _ _ _ _ _ _ _ _ _ _ _ _ _ _ _ _ _ _ _ _ _ _ _ _ _ _ hP ?_ rfl ?_ ?_ ?_ ?_ ?_ ?_ ?_ ?_ ?_ ?_ ?_ ?_ ?_ ?_ ?_ ?_ ?_ ?_ ?_ ?_ ?_ ?_ ?_ ?_ ?_ ?_ ?_ ?_ <;>
         first | with_reducible exact Or.inr rfl | exact Or.inl rfl | skip
       with_reducible assumption)

theorem frame_sendClaim (s : State) (k : Nat) (sa : BitVec 8) {P : List Part} {s0 : State} 
    (hP : subParts [.mem, .pwr, .rings, .can, .plait, .out] P = true) (h : Frame P s0 s) : Frame P s0 (sendClaim s k sa) := by
  unfold sendClaim
  try extract_lets
  repeat' first
    | with_reducible assumption
    | with_reducible apply frame_canQueue
    | with_reducible apply Frame.ite <;> intro _

theorem frame_claimStart (s : State) (k : Nat) (addr : BitVec 8) {P : List Part} {s0 : State} 
    (hP : subParts [.mem, .pwr, .rings, .can, .plait, .out] P = true) (h : Frame P s0 s) : Frame P s0 (claimStart s k addr) := by
  unfold claimStart
  try extract_lets
  repeat' first
    | with_reducible assumption
    | exact subParts_trans (by decide) hP
    | with_reducible apply frame_sendClaim
    | with_reducible apply frame_State_modCf

theorem frame_cannotClaim (s : State) (k : Nat) {P : List Part} {s0 : State} 
    (hP : subParts [.mem, .pwr, .rings, .can, .plait, .out] P = true) (h : Frame P s0 s) : Frame P s0 (cannotClaim s k) := by
  unfold cannotClaim
  try extract_lets
  repeat' first
    | with_reducible assumption
    | exact subParts_trans (by decide) hP
    | with_reducible apply frame_sendClaim
    | with_reducible apply frame_State_modCf

theorem frame_loseAddr (s : State) (k : Nat) {P : List Part} {s0 : State} 
    (hP : subParts [.mem, .pwr, .rings, .bezel, .loupe, .can, .plait, .out] P = true) (h : Frame P s0 s) : Frame P s0 (loseAddr s k) := by
  unfold loseAddr
  try extract_lets
  repeat' first
    | with_reducible assumption
    | exact subParts_trans (by decide) hP
    | with_reducible apply frame_logEvent
    | with_reducible apply frame_claimStart
    | with_reducible apply frame_cannotClaim
    | with_reducible apply Frame.ite <;> intro _
    | (with_reducible refine Frame.of_mk _ _ _ _ _ _ _ _ _ _ _ _ _ _ _ _ _ _ _ _ _ _ _ _ _ _ _ _ _ hP ?_ rfl ?_ ?_ ?_ ?_ ?_ ?_ ?_ ?_ ?_ ?_ ?_ ?_ ?_ ?_ ?_ ?_ ?_ ?_ ?_ ?_ ?_ ?_ ?_ ?_ ?_ ?_ ?_ ?_ <;>
         first | with_reducible exact Or.inr rfl | exact Or.inl rfl | skip
       split)

theorem frame_claimRx (s : State) (n : Nat) (sa : BitVec 8) (name : Nat) {P : List Part} {s0 : State} 
    (hP : subParts [.mem, .pwr, .rings, .bezel, .loupe, .can, .plait, .out] P = true) (h : Frame P s0 s) : Frame P s0 (claimRx s n sa name) := by
  unfold claimRx
  try extract_lets
  repeat' first
    | with_reducible assumption
    | exact subParts_trans (by decide) hP
    | with_reducible apply Frame.foldl
    | with_reducible apply frame_State_modCan
    | with_reducible apply frame_sendClaim
    | with_reducible apply frame_loseAddr
    | with_reducible apply Frame.ite <;> intro _
    | intro _ _ _

theorem frame_claimRequest (s : State) (n : Nat) (da : BitVec 8) {P : List Part} {s0 : State} 
    (hP : subParts [.mem, .pwr, .rings, .can, .plait, .out] P = true) (h : Frame P s0 s) : Frame P s0 (claimRequest s n da) := by
  unfold claimRequest
  try extract_lets
  repeat' first
    | with_reducible assumption
    | with_reducible apply Frame.foldl
    | with_reducible apply frame_sendClaim
    | with_reducible apply Frame.ite <;> intro _
    | intro _ _ _

theorem frame_claimAgain (s : State) (n : Nat) {P : List Part} {s0 : State} 
    (hP : subParts [.mem, .pwr, .rings, .can, .plait, .out] P = true) (h : Frame P s0 s) : Frame P s0 (claimAgain s n) := by
  unfold claimAgain
  try extract_lets
  repeat' first
    | with_reducible assumption
    | with_reducible apply Frame.foldl
    | with_reducible apply frame_claimStart
    | with_reducible apply Frame.ite <;> intro _
    | intro _ _ _

theorem frame_eachCan (s : State) (f : State → Nat → State) {P : List Part} {s0 : State} (h_f : ∀ y0 y1, Frame P s0 y0 → Frame P s0 (f y0 y1))
    (hP : subParts [] P = true) (h : Frame P s0 s) : Frame P s0 (eachCan s f) := by
  unfold eachCan
  repeat' first
    | with_reducible assumption
    | with_reducible apply Frame.foldl

theorem frame_canClaims (s : State) {P : List Part} {s0 : State} 
    (hP : subParts [.mem, .pwr, .rings, .bezel, .loupe, .can, .plait, .out] P = true) (h : Frame P s0 s) : Frame P s0 (canClaims s) := by
  unfold canClaims
  try extract_lets
  repeat' first
    | with_reducible assumption
    | exact subParts_trans (by decide) hP
    | with_reducible apply Frame.foldl
    | with_reducible apply frame_schedStop
    | with_reducible apply frame_canDump
    | with_reducible apply frame_canSync
    | with_reducible apply frame_State_modCf
    | with_reducible apply Frame.ite <;> intro _
    | intro _ _ _
    | (with_reducible refine Frame.of_mk _ _ _ _ _ _ _ _ _ _ _ _ _ _ _ _ _ _ _ _ _ _ _ _ _ _ _ _ _ hP ?_ rfl ?_ ?_ ?_ ?_ ?_ ?_ ?_ ?_ ?_ ?_ ?_ ?_ ?_ ?_ ?_ ?_ ?_ ?_ ?_ ?_ ?_ ?_ ?_ ?_ ?_ ?_ ?_ ?_ <;>
         first | with_reducible exact Or.inr rfl | exact Or.inl rfl | skip
       with_reducible apply frame_eachCan)

end Sys2Proof.Machine
end

