-- ==== Sys2Proof/Laws/FrameNetOps.lean ====
section
/-! SUPPORT. Which parts of the state the operations of Machine/NetOps.lean may change. -/

namespace Sys2Proof.Machine

set_option linter.unusedTactic false
set_option linter.unreachableTactic false

theorem frame_State_modBus (s : State) (n : Nat) (f : NetBus → NetBus) {P : List Part} {s0 : State} 
    (hP : subParts [.net] P = true) (h : Frame P s0 s) : Frame P s0 (State.modBus s n f) := by
  unfold State.modBus
  try extract_lets
  repeat' first
    | (with_reducible refine Frame.of_mk _ _ _ _ _ _ _ _ _ _ _ _ _ _ _ _ _ _ _ _ _ _ _ _ _ _ _ _ _ hP ?_ rfl ?_ ?_ ?_ ?_ ?_ ?_ ?_ ?_ ?_ ?_ ?_ ?_ ?_ ?_ ?_ ?_ ?_ ?_ ?_ ?_ ?_ ?_ ?_ ?_ ?_ ?_ ?_ ?_ <;>
         first | with_reducible exact Or.inr rfl | exact Or.inl rfl | skip
       with_reducible assumption)

theorem frame_setBus (s : State) (n : Nat) (st : BusSt) {P : List Part} {s0 : State} 
    (hP : subParts [.rings, .bezel, .loupe, .can, .net, .plait, .out] P = true) (h : Frame P s0 s) : Frame P s0 (setBus s n st) := by
  unfold setBus
  try extract_lets
  repeat' first
    | with_reducible assumption
    | exact subParts_trans (by decide) hP
    | with_reducible apply frame_State_modBus
    | with_reducible apply frame_canSync
    | with_reducible apply frame_logEvent
    | with_reducible apply Frame.ite <;> intro _

theorem frame_replaceKa (s : State) (n : Nat) (f : CanFrame) {P : List Part} {s0 : State} 
    (hP : subParts [.can] P = true) (h : Frame P s0 s) : Frame P s0 (replaceKa s n f).2 := by
  unfold replaceKa
  try extract_lets
  repeat' first
    | with_reducible assumption
    | with_reducible apply frame_State_modCan
    | with_reducible apply Frame.ite_snd <;> intro _
    | (with_reducible refine Frame.of_mk _ _ _ _ _ _ _ _ _ _ _ _ _ _ _ _ _ _ _ _ _ _ _ _ _ _ _ _ _ hP ?_ rfl ?_ ?_ ?_ ?_ ?_ ?_ ?_ ?_ ?_ ?_ ?_ ?_ ?_ ?_ ?_ ?_ ?_ ?_ ?_ ?_ ?_ ?_ ?_ ?_ ?_ ?_ ?_ ?_ <;>
         first | with_reducible exact Or.inr rfl | exact Or.inl rfl | skip
       split)

theorem frame_sendKa (s : State) (n : Nat) {P : List Part} {s0 : State} 
    (hP : subParts [.mem, .pwr, .rings, .bezel, .loupe, .can, .net, .plait, .out] P = true) (h : Frame P s0 s) : Frame P s0 (sendKa s n) := by
  unfold sendKa
  try extract_lets
  repeat' first
    | with_reducible assumption
    | exact subParts_trans (by decide) hP
    | with_reducible apply frame_State_modBus
    | with_reducible apply frame_replaceKa
    | with_reducible apply frame_canQueue
    | with_reducible apply frame_logEvent
    | with_reducible apply Frame.ite <;> intro _

theorem frame_cancelSleep (s : State) (n : Nat) (cause : Nat) {P : List Part} {s0 : State} 
    (hP : subParts [.mem, .pwr, .rings, .bezel, .loupe, .can, .net, .plait, .out] P = true) (h : Frame P s0 s) : Frame P s0 (cancelSleep s n cause) := by
  unfold cancelSleep
  try extract_lets
  repeat' first
    | with_reducible assumption
    | exact subParts_trans (by decide) hP
    | with_reducible apply frame_setBus
    | with_reducible apply frame_State_modBus
    | with_reducible apply frame_logEvent
    | with_reducible apply frame_sendKa

theorem frame_busWoken (s : State) (n : Nat) (cause : BitVec 2) (pat : BitVec 3) (detected : Bool) {P : List Part} {s0 : State} 
    (hP : subParts [.rings, .bezel, .loupe, .can, .net, .plait, .out] P = true) (h : Frame P s0 s) : Frame P s0 (busWoken s n cause pat detected) := by
  unfold busWoken
  try extract_lets
  repeat' first
    | with_reducible assumption
    | exact subParts_trans (by decide) hP
    | with_reducible apply frame_State_modBus
    | with_reducible apply frame_setBus
    | with_reducible apply frame_logEvent
    | with_reducible apply Frame.ite <;> intro _
    | (with_reducible refine Frame.of_mk _ _ _ _ _ _ _ _ _ _ _ _ _ _ _ _ _ _ _ _ _ _ _ _ _ _ _ _ _ hP ?_ rfl ?_ ?_ ?_ ?_ ?_ ?_ ?_ ?_ ?_ ?_ ?_ ?_ ?_ ?_ ?_ ?_ ?_ ?_ ?_ ?_ ?_ ?_ ?_ ?_ ?_ ?_ ?_ ?_ <;>
         first | with_reducible exact Or.inr rfl | exact Or.inl rfl | skip
       with_reducible apply frame_State_modBus)

theorem frame_trackRun (s : State) (n : Nat) {P : List Part} {s0 : State} 
    (hP : subParts [.net] P = true) (h : Frame P s0 s) : Frame P s0 (trackRun s n) := by
  unfold trackRun
  try extract_lets
  repeat' first
    | with_reducible assumption
    | with_reducible apply frame_State_modBus

theorem frame_endBars (s : State) (n : Nat) (cause : Nat) {P : List Part} {s0 : State} 
    (hP : subParts [.rings, .bezel, .loupe, .net, .plait, .out] P = true) (h : Frame P s0 s) : Frame P s0 (endBars s n cause) := by
  unfold endBars
  try extract_lets
  repeat' first
    | with_reducible assumption
    | exact subParts_trans (by decide) hP
    | with_reducible apply frame_logEvent
    | with_reducible apply frame_State_modBus
    | with_reducible apply Frame.ite <;> intro _

theorem frame_eachBus (s : State) (f : State → Nat → State) {P : List Part} {s0 : State} (h_f : ∀ y0 y1, Frame P s0 y0 → Frame P s0 (f y0 y1))
    (hP : subParts [] P = true) (h : Frame P s0 s) : Frame P s0 (eachBus s f) := by
  unfold eachBus
  repeat' first
    | with_reducible assumption
    | with_reducible apply Frame.foldl

theorem frame_netEval (s : State) (n : Nat) {P : List Part} {s0 : State} 
    (hP : subParts [.mem, .pwr, .rings, .bezel, .loupe, .can, .net, .plait, .out] P = true) (h : Frame P s0 s) : Frame P s0 (netEval s n) := by
  unfold netEval
  try extract_lets
  repeat' first
    | with_reducible assumption
    | exact subParts_trans (by decide) hP
    | with_reducible apply frame_setBus
    | with_reducible apply frame_State_modBus
    | with_reducible apply frame_cancelSleep
    | with_reducible apply frame_sendKa
    | with_reducible apply frame_busWoken
    | with_reducible apply frame_trackRun
    | with_reducible apply Frame.ite <;> intro _
    | (with_reducible refine Frame.of_mk _ _ _ _ _ _ _ _ _ _ _ _ _ _ _ _ _ _ _ _ _ _ _ _ _ _ _ _ _ hP ?_ rfl ?_ ?_ ?_ ?_ ?_ ?_ ?_ ?_ ?_ ?_ ?_ ?_ ?_ ?_ ?_ ?_ ?_ ?_ ?_ ?_ ?_ ?_ ?_ ?_ ?_ ?_ ?_ ?_ <;>
         first | with_reducible exact Or.inr rfl | exact Or.inl rfl | skip
       split)

theorem frame_netAll (s : State) {P : List Part} {s0 : State} 
    (hP : subParts [.mem, .pwr, .rings, .bezel, .loupe, .can, .net, .plait, .out] P = true) (h : Frame P s0 s) : Frame P s0 (netAll s) := by
  unfold netAll
  repeat' first
    | with_reducible assumption
    | exact subParts_trans (by decide) hP
    | with_reducible apply frame_eachBus
    | with_reducible apply frame_netEval
    | with_reducible apply frame_canSync
    | intro _ _ _

theorem frame_netKl15 (s : State) {P : List Part} {s0 : State} 
    (hP : subParts [.mem, .pwr, .rings, .bezel, .loupe, .can, .net, .plait, .out] P = true) (h : Frame P s0 s) : Frame P s0 (netKl15 s) := by
  unfold netKl15
  repeat' first
    | with_reducible assumption
    | exact subParts_trans (by decide) hP
    | with_reducible apply frame_netAll
    | with_reducible apply frame_eachBus
    | with_reducible apply frame_endBars
    | with_reducible apply Frame.ite <;> intro _
    | intro _ _ _

theorem frame_countKa (s : State) (n : Nat) (key : Option (BitVec 29)) {P : List Part} {s0 : State} 
    (hP : subParts [.rings, .bezel, .loupe, .can, .net, .plait, .out] P = true) (h : Frame P s0 s) : Frame P s0 (countKa s n key) := by
  unfold countKa
  try extract_lets
  repeat' first
    | with_reducible assumption
    | exact subParts_trans (by decide) hP
    | with_reducible apply frame_State_modBus
    | with_reducible apply frame_setBus
    | with_reducible apply Frame.ite <;> intro _

theorem frame_restartGrace (s : State) (n : Nat) {P : List Part} {s0 : State} 
    (hP : subParts [.net] P = true) (h : Frame P s0 s) : Frame P s0 (restartGrace s n) := by
  unfold restartGrace
  try extract_lets
  repeat' first
    | with_reducible assumption
    | with_reducible apply frame_State_modBus
    | with_reducible apply Frame.ite <;> intro _

theorem frame_netSeen (s : State) (n : Nat) (f : CanFrame) {P : List Part} {s0 : State} 
    (hP : subParts [.mem, .pwr, .rings, .bezel, .loupe, .can, .net, .plait, .out] P = true) (h : Frame P s0 s) : Frame P s0 (netSeen s n f) := by
  unfold netSeen
  try extract_lets
  repeat' first
    | with_reducible assumption
    | exact subParts_trans (by decide) hP
    | with_reducible apply frame_countKa
    | with_reducible apply frame_cancelSleep
    | with_reducible apply frame_restartGrace
    | with_reducible apply Frame.ite <;> intro _
    | (with_reducible refine Frame.of_mk _ _ _ _ _ _ _ _ _ _ _ _ _ _ _ _ _ _ _ _ _ _ _ _ _ _ _ _ _ hP ?_ rfl ?_ ?_ ?_ ?_ ?_ ?_ ?_ ?_ ?_ ?_ ?_ ?_ ?_ ?_ ?_ ?_ ?_ ?_ ?_ ?_ ?_ ?_ ?_ ?_ ?_ ?_ ?_ ?_ <;>
         first | with_reducible exact Or.inr rfl | exact Or.inl rfl | skip
       split)

theorem frame_netSent (s : State) (n : Nat) (kind : TxKind) (ok : Bool) {P : List Part} {s0 : State} 
    (hP : subParts [.rings, .bezel, .loupe, .can, .net, .plait, .out] P = true) (h : Frame P s0 s) : Frame P s0 (netSent s n kind ok) := by
  unfold netSent
  repeat' first
    | with_reducible assumption
    | exact subParts_trans (by decide) hP
    | with_reducible apply frame_countKa
    | with_reducible apply frame_restartGrace
    | with_reducible apply Frame.ite <;> intro _

end Sys2Proof.Machine
end

