-- ==== Sys2Proof/Laws/FrameCanTp.lean ====
section
/-! SUPPORT. Which parts of the state the operations of Machine/CanTp.lean may change. -/

namespace Sys2Proof.Machine

set_option linter.unusedTactic false
set_option linter.unreachableTactic false

theorem frame_tpFrame (s : State) (n : Nat) (prio : Nat) (pf : Nat) (da : Nat) (sa : Nat) (data : List (BitVec 8)) (session : Option Nat) {P : List Part} {s0 : State} 
    (hP : subParts [.mem, .pwr, .rings, .can, .plait, .out] P = true) (h : Frame P s0 s) : Frame P s0 (tpFrame s n prio pf da sa data session) := by
  unfold tpFrame
  repeat' first
    | with_reducible assumption
    | with_reducible apply frame_canQueue
    | with_reducible apply Frame.ite <;> intro _

theorem frame_State_setSend (s : State) (x : TpSend) {P : List Part} {s0 : State} 
    (hP : subParts [.can] P = true) (h : Frame P s0 s) : Frame P s0 (State.setSend s x) := by
  unfold State.setSend
  try extract_lets
  repeat' first
    | (with_reducible refine Frame.of_mk _ _ _ _ _ _ _ _ _ _ _ _ _ _ _ _ _ _ _ _ _ _ _ _ _ _ _ _ _ hP ?_ rfl ?_ ?_ ?_ ?_ ?_ ?_ ?_ ?_ ?_ ?_ ?_ ?_ ?_ ?_ ?_ ?_ ?_ ?_ ?_ ?_ ?_ ?_ ?_ ?_ ?_ ?_ ?_ ?_ <;>
         first | with_reducible exact Or.inr rfl | exact Or.inl rfl | skip
       with_reducible assumption)

theorem frame_tpCm (s : State) (x : TpSend) (head : List (BitVec 8)) {P : List Part} {s0 : State} 
    (hP : subParts [.mem, .pwr, .rings, .can, .plait, .out] P = true) (h : Frame P s0 s) : Frame P s0 (tpCm s x head) := by
  unfold tpCm
  try extract_lets
  repeat' first
    | with_reducible assumption
    | with_reducible apply frame_tpFrame

theorem frame_tpNext (s : State) (x : TpSend) {P : List Part} {s0 : State} 
    (hP : subParts [.mem, .pwr, .rings, .can, .plait, .out] P = true) (h : Frame P s0 s) : Frame P s0 (tpNext s x) := by
  unfold tpNext
  try extract_lets
  repeat' first
    | with_reducible assumption
    | exact subParts_trans (by decide) hP
    | with_reducible apply frame_State_setSend
    | with_reducible apply frame_tpFrame

theorem frame_tpEnd (s : State) (x : TpSend) (status : Nat) (detail : Nat) (r0 : Nat) {P : List Part} {s0 : State} 
    (hP : subParts [.mem, .pwr, .rings, .can, .plait, .out] P = true) (h : Frame P s0 s) : Frame P s0 (tpEnd s x status detail r0) := by
  unfold tpEnd
  try extract_lets
  repeat' first
    | exact subParts_trans (by decide) hP
    | with_reducible apply frame_complete
    | (with_reducible refine Frame.of_mk _ _ _ _ _ _ _ _ _ _ _ _ _ _ _ _ _ _ _ _ _ _ _ _ _ _ _ _ _ hP ?_ rfl ?_ ?_ ?_ ?_ ?_ ?_ ?_ ?_ ?_ ?_ ?_ ?_ ?_ ?_ ?_ ?_ ?_ ?_ ?_ ?_ ?_ ?_ ?_ ?_ ?_ ?_ ?_ ?_ <;>
         first | with_reducible exact Or.inr rfl | exact Or.inl rfl | skip
       first
         | with_reducible assumption
         | split
      )

theorem frame_tpAborted (s : State) (x : TpSend) (reason : Nat) {P : List Part} {s0 : State} 
    (hP : subParts [.mem, .pwr, .rings, .bezel, .loupe, .can, .plait, .out] P = true) (h : Frame P s0 s) : Frame P s0 (tpAborted s x reason) := by
  unfold tpAborted
  repeat' first
    | with_reducible assumption
    | exact subParts_trans (by decide) hP
    | with_reducible apply frame_tpEnd
    | with_reducible apply frame_logEvent

theorem frame_tpSendAbort (s : State) (x : TpSend) (reason : Nat) {P : List Part} {s0 : State} 
    (hP : subParts [.mem, .pwr, .rings, .can, .plait, .out] P = true) (h : Frame P s0 s) : Frame P s0 (tpSendAbort s x reason) := by
  unfold tpSendAbort
  repeat' first
    | with_reducible assumption
    | with_reducible apply frame_tpCm
    | with_reducible apply Frame.ite <;> intro _

theorem frame_tpOpen (s : State) (x : TpSend) {P : List Part} {s0 : State} 
    (hP : subParts [.mem, .pwr, .rings, .can, .plait, .out] P = true) (h : Frame P s0 s) : Frame P s0 (tpOpen s x) := by
  unfold tpOpen
  try extract_lets
  repeat' first
    | with_reducible assumption
    | exact subParts_trans (by decide) hP
    | with_reducible apply frame_tpCm
    | with_reducible apply frame_State_setSend
    | with_reducible apply Frame.ite <;> intro _
    | (with_reducible refine Frame.of_mk _ _ _ _ _ _ _ _ _ _ _ _ _ _ _ _ _ _ _ _ _ _ _ _ _ _ _ _ _ hP ?_ rfl ?_ ?_ ?_ ?_ ?_ ?_ ?_ ?_ ?_ ?_ ?_ ?_ ?_ ?_ ?_ ?_ ?_ ?_ ?_ ?_ ?_ ?_ ?_ ?_ ?_ ?_ ?_ ?_ <;>
         first | with_reducible exact Or.inr rfl | exact Or.inl rfl | skip
       with_reducible assumption)

theorem frame_tpRequest (s : State) (x : TpSend) {P : List Part} {s0 : State} 
    (hP : subParts [.mem, .pwr, .rings, .bezel, .loupe, .can, .plait, .out] P = true) (h : Frame P s0 s) : Frame P s0 (tpRequest s x) := by
  unfold tpRequest
  try extract_lets
  repeat' first
    | with_reducible assumption
    | exact subParts_trans (by decide) hP
    | with_reducible apply frame_refuse
    | with_reducible apply frame_logEvent
    | with_reducible apply frame_tpOpen
    | with_reducible apply Frame.ite <;> intro _
    | (with_reducible refine Frame.of_mk _ _ _ _ _ _ _ _ _ _ _ _ _ _ _ _ _ _ _ _ _ _ _ _ _ _ _ _ _ hP ?_ rfl ?_ ?_ ?_ ?_ ?_ ?_ ?_ ?_ ?_ ?_ ?_ ?_ ?_ ?_ ?_ ?_ ?_ ?_ ?_ ?_ ?_ ?_ ?_ ?_ ?_ ?_ ?_ ?_ <;>
         first | with_reducible exact Or.inr rfl | exact Or.inl rfl | skip
       split)

theorem frame_tpSentOne (s : State) (id : Nat) {P : List Part} {s0 : State} 
    (hP : subParts [.mem, .pwr, .rings, .can, .plait, .out] P = true) (h : Frame P s0 s) : Frame P s0 (tpSentOne s id) := by
  unfold tpSentOne
  try extract_lets
  repeat' first
    | with_reducible assumption
    | with_reducible apply frame_tpNext
    | with_reducible apply Frame.ite <;> intro _
    | (with_reducible refine Frame.of_mk _ _ _ _ _ _ _ _ _ _ _ _ _ _ _ _ _ _ _ _ _ _ _ _ _ _ _ _ _ hP ?_ rfl ?_ ?_ ?_ ?_ ?_ ?_ ?_ ?_ ?_ ?_ ?_ ?_ ?_ ?_ ?_ ?_ ?_ ?_ ?_ ?_ ?_ ?_ ?_ ?_ ?_ ?_ ?_ ?_ <;>
         first | with_reducible exact Or.inr rfl | exact Or.inl rfl | skip
       split)

theorem frame_tpSendRx (s : State) (x : TpSend) (b : Nat → Nat) {P : List Part} {s0 : State} 
    (hP : subParts [.mem, .pwr, .rings, .bezel, .loupe, .can, .plait, .out] P = true) (h : Frame P s0 s) : Frame P s0 (tpSendRx s x b) := by
  unfold tpSendRx
  try extract_lets
  repeat' first
    | with_reducible assumption
    | exact subParts_trans (by decide) hP
    | with_reducible apply frame_tpNext
    | with_reducible apply frame_State_setSend
    | with_reducible apply frame_tpCm
    | with_reducible apply frame_tpEnd
    | with_reducible apply frame_tpAborted
    | with_reducible apply Frame.ite <;> intro _
    | (with_reducible refine Frame.of_mk _ _ _ _ _ _ _ _ _ _ _ _ _ _ _ _ _ _ _ _ _ _ _ _ _ _ _ _ _ hP ?_ rfl ?_ ?_ ?_ ?_ ?_ ?_ ?_ ?_ ?_ ?_ ?_ ?_ ?_ ?_ ?_ ?_ ?_ ?_ ?_ ?_ ?_ ?_ ?_ ?_ ?_ ?_ ?_ ?_ <;>
         first | with_reducible exact Or.inr rfl | exact Or.inl rfl | skip
       split)

theorem frame_State_setRecv (s : State) (x : TpRecv) {P : List Part} {s0 : State} 
    (hP : subParts [.can] P = true) (h : Frame P s0 s) : Frame P s0 (State.setRecv s x) := by
  unfold State.setRecv
  try extract_lets
  repeat' first
    | (with_reducible refine Frame.of_mk _ _ _ _ _ _ _ _ _ _ _ _ _ _ _ _ _ _ _ _ _ _ _ _ _ _ _ _ _ hP ?_ rfl ?_ ?_ ?_ ?_ ?_ ?_ ?_ ?_ ?_ ?_ ?_ ?_ ?_ ?_ ?_ ?_ ?_ ?_ ?_ ?_ ?_ ?_ ?_ ?_ ?_ ?_ ?_ ?_ <;>
         first | with_reducible exact Or.inr rfl | exact Or.inl rfl | skip
       with_reducible assumption)

theorem frame_recvEnd (s : State) (x : TpRecv) {P : List Part} {s0 : State} 
    (hP : subParts [.can] P = true) (h : Frame P s0 s) : Frame P s0 (recvEnd s x) := by
  unfold recvEnd
  try extract_lets
  repeat' first
    | (with_reducible refine Frame.of_mk _ _ _ _ _ _ _ _ _ _ _ _ _ _ _ _ _ _ _ _ _ _ _ _ _ _ _ _ _ hP ?_ rfl ?_ ?_ ?_ ?_ ?_ ?_ ?_ ?_ ?_ ?_ ?_ ?_ ?_ ?_ ?_ ?_ ?_ ?_ ?_ ?_ ?_ ?_ ?_ ?_ ?_ ?_ ?_ ?_ <;>
         first | with_reducible exact Or.inr rfl | exact Or.inl rfl | skip
       with_reducible assumption)

theorem frame_recvCm (s : State) (x : TpRecv) (head : List (BitVec 8)) {P : List Part} {s0 : State} 
    (hP : subParts [.mem, .pwr, .rings, .can, .plait, .out] P = true) (h : Frame P s0 s) : Frame P s0 (recvCm s x head) := by
  unfold recvCm
  repeat' first
    | with_reducible assumption
    | with_reducible apply frame_tpFrame

theorem frame_recvCts (s : State) (x : TpRecv) {P : List Part} {s0 : State} 
    (hP : subParts [.mem, .pwr, .rings, .can, .plait, .out] P = true) (h : Frame P s0 s) : Frame P s0 (recvCts s x) := by
  unfold recvCts
  try extract_lets
  repeat' first
    | with_reducible assumption
    | exact subParts_trans (by decide) hP
    | with_reducible apply frame_State_setRecv
    | with_reducible apply frame_recvCm
    | with_reducible apply Frame.ite <;> intro _

theorem frame_tpDeliver (s : State) (x : TpRecv) {P : List Part} {s0 : State} 
    (hP : subParts [.ecc, .mem, .pwr, .rings, .bezel, .loupe, .plait, .out] P = true) (h : Frame P s0 s) : Frame P s0 (tpDeliver s x) := by
  unfold tpDeliver
  try extract_lets
  repeat' first
    | with_reducible assumption
    | with_reducible apply Frame.foldl
    | with_reducible apply frame_inbound
    | with_reducible apply Frame.ite <;> intro _
    | intro _ _ _

theorem frame_recvData (s : State) (x : TpRecv) (seq : Nat) (bytes : List (BitVec 8)) {P : List Part} {s0 : State} 
    (hP : subParts [.ecc, .mem, .pwr, .rings, .bezel, .loupe, .can, .plait, .out] P = true) (h : Frame P s0 s) : Frame P s0 (recvData s x seq bytes) := by
  unfold recvData
  try extract_lets
  repeat' first
    | with_reducible assumption
    | exact subParts_trans (by decide) hP
    | with_reducible apply frame_State_setRecv
    | with_reducible apply frame_recvCm
    | with_reducible apply frame_tpDeliver
    | with_reducible apply frame_recvEnd
    | with_reducible apply frame_recvCts
    | with_reducible apply Frame.ite <;> intro _

theorem frame_recvOpen (s : State) (x : TpRecv) {P : List Part} {s0 : State} 
    (hP : subParts [.mem, .pwr, .rings, .bezel, .loupe, .can, .plait, .out] P = true) (h : Frame P s0 s) : Frame P s0 (recvOpen s x) := by
  unfold recvOpen
  try extract_lets
  repeat' first
    | with_reducible assumption
    | exact subParts_trans (by decide) hP
    | with_reducible apply frame_logEvent
    | with_reducible apply frame_recvCm
    | with_reducible apply frame_State_setRecv
    | with_reducible apply frame_recvCts
    | with_reducible apply Frame.ite <;> intro _
    | (with_reducible refine Frame.of_mk _ _ _ _ _ _ _ _ _ _ _ _ _ _ _ _ _ _ _ _ _ _ _ _ _ _ _ _ _ hP ?_ rfl ?_ ?_ ?_ ?_ ?_ ?_ ?_ ?_ ?_ ?_ ?_ ?_ ?_ ?_ ?_ ?_ ?_ ?_ ?_ ?_ ?_ ?_ ?_ ?_ ?_ ?_ ?_ ?_ <;>
         first | with_reducible exact Or.inr rfl | exact Or.inl rfl | skip
       first
         | with_reducible assumption
         | split
      )
    | extract_lets
    | dsimp only
    | dsimp +zetaDelta only

theorem frame_servicesRx (s : State) (n : Nat) (f : CanFrame) {P : List Part} {s0 : State} 
    (hP : subParts [.ecc, .mem, .pwr, .rings, .bezel, .loupe, .can, .plait, .out] P = true) (h : Frame P s0 s) : Frame P s0 (servicesRx s n f) := by
  unfold servicesRx
  try extract_lets
  repeat' first
    | with_reducible assumption
    | exact subParts_trans (by decide) hP
    | with_reducible apply frame_claimRx
    | with_reducible apply frame_claimRequest
    | with_reducible apply frame_recvOpen
    | with_reducible apply frame_State_setRecv
    | with_reducible apply frame_logEvent
    | with_reducible apply frame_recvEnd
    | with_reducible apply frame_tpSendRx
    | with_reducible apply frame_recvData
    | with_reducible apply Frame.ite <;> intro _
    | (with_reducible refine Frame.of_mk _ _ _ _ _ _ _ _ _ _ _ _ _ _ _ _ _ _ _ _ _ _ _ _ _ _ _ _ _ hP ?_ rfl ?_ ?_ ?_ ?_ ?_ ?_ ?_ ?_ ?_ ?_ ?_ ?_ ?_ ?_ ?_ ?_ ?_ ?_ ?_ ?_ ?_ ?_ ?_ ?_ ?_ ?_ ?_ ?_ <;>
         first | with_reducible exact Or.inr rfl | exact Or.inl rfl | skip
       split)
    | extract_lets
    | dsimp only
    | dsimp +zetaDelta only

theorem frame_tpCancel (s : State) (d : Desc) {P : List Part} {s0 : State}
    (hP : subParts [.mem, .pwr, .rings, .can, .plait, .out] P = true) (h : Frame P s0 s) : OptFrame P s0 (tpCancel s d) := by
  unfold tpCancel
  generalize List.find? _ _ = o
  cases o with
  | none => exact True.intro
  | some x => exact frame_tpEnd _ _ _ _ _ (subParts_trans (by decide) hP) (frame_tpSendAbort _ _ _ (subParts_trans (by decide) hP) h)

end Sys2Proof.Machine
end

