-- ==== Sys2Proof/Laws/FrameAccOps.lean ====
section
/-! SUPPORT. Which parts of the state the operations of Machine/AccOps.lean may change. -/

namespace Sys2Proof.Machine

set_option linter.unusedTactic false
set_option linter.unreachableTactic false

theorem frame_State_modTok (s : State) (k : Nat) (f : AccTok → AccTok) {P : List Part} {s0 : State} 
    (hP : subParts [.acc] P = true) (h : Frame P s0 s) : Frame P s0 (State.modTok s k f) := by
  unfold State.modTok
  try extract_lets
  repeat' first
    | (with_reducible refine Frame.of_mk _ _ _ _ _ _ _ _ _ _ _ _ _ _ _ _ _ _ _ _ _ _ _ _ _ _ _ _ _ hP ?_ rfl ?_ ?_ ?_ ?_ ?_ ?_ ?_ ?_ ?_ ?_ ?_ ?_ ?_ ?_ ?_ ?_ ?_ ?_ ?_ ?_ ?_ ?_ ?_ ?_ ?_ ?_ ?_ ?_ <;>
         first | with_reducible exact Or.inr rfl | exact Or.inl rfl | skip
       with_reducible assumption)

theorem frame_putCopy (s : State) (zero : Bool) (ok : Bool) {P : List Part} {s0 : State} 
    (hP : subParts [.nor] P = true) (h : Frame P s0 s) : Frame P s0 (putCopy s zero ok) := by
  unfold putCopy
  try extract_lets
  repeat' first
    | with_reducible apply Frame.ite <;> intro _
    | (with_reducible refine Frame.of_mk _ _ _ _ _ _ _ _ _ _ _ _ _ _ _ _ _ _ _ _ _ _ _ _ _ _ _ _ _ hP ?_ rfl ?_ ?_ ?_ ?_ ?_ ?_ ?_ ?_ ?_ ?_ ?_ ?_ ?_ ?_ ?_ ?_ ?_ ?_ ?_ ?_ ?_ ?_ ?_ ?_ ?_ ?_ ?_ ?_ <;>
         first | with_reducible exact Or.inr rfl | exact Or.inl rfl | skip
       with_reducible assumption)

theorem frame_lockBegin (s : State) (raise : Bool) {P : List Part} {s0 : State} 
    (hP : subParts [.rings, .bezel, .loupe, .plait, .acc, .out] P = true) (h : Frame P s0 s) : Frame P s0 (lockBegin s raise) := by
  unfold lockBegin
  try extract_lets
  repeat' first
    | exact subParts_trans (by decide) hP
    | with_reducible apply frame_logEvent
    | (with_reducible refine Frame.of_mk _ _ _ _ _ _ _ _ _ _ _ _ _ _ _ _ _ _ _ _ _ _ _ _ _ _ _ _ _ hP ?_ rfl ?_ ?_ ?_ ?_ ?_ ?_ ?_ ?_ ?_ ?_ ?_ ?_ ?_ ?_ ?_ ?_ ?_ ?_ ?_ ?_ ?_ ?_ ?_ ?_ ?_ ?_ ?_ ?_ <;>
         first | with_reducible exact Or.inr rfl | exact Or.inl rfl | skip
       with_reducible assumption)

theorem frame_searchEnd (s : State) (status : Nat) (r0 : Nat) (r1 : Nat) {P : List Part} {s0 : State} 
    (hP : subParts [.mem, .pwr, .rings, .plait, .acc, .out] P = true) (h : Frame P s0 s) : Frame P s0 (searchEnd s status r0 r1) := by
  unfold searchEnd
  try extract_lets
  repeat' first
    | with_reducible assumption
    | exact subParts_trans (by decide) hP
    | with_reducible apply frame_complete
    | (with_reducible refine Frame.of_mk _ _ _ _ _ _ _ _ _ _ _ _ _ _ _ _ _ _ _ _ _ _ _ _ _ _ _ _ _ hP ?_ rfl ?_ ?_ ?_ ?_ ?_ ?_ ?_ ?_ ?_ ?_ ?_ ?_ ?_ ?_ ?_ ?_ ?_ ?_ ?_ ?_ ?_ ?_ ?_ ?_ ?_ ?_ ?_ ?_ <;>
         first | with_reducible exact Or.inr rfl | exact Or.inl rfl | skip
       first
         | with_reducible assumption
         | split
      )

theorem frame_lockOut (s : State) (raise : Bool) {P : List Part} {s0 : State} 
    (hP : subParts [.mem, .pwr, .rings, .bezel, .loupe, .plait, .acc, .out] P = true) (h : Frame P s0 s) : Frame P s0 (lockOut s raise) := by
  unfold lockOut
  repeat' first
    | with_reducible assumption
    | exact subParts_trans (by decide) hP
    | with_reducible apply frame_searchEnd
    | with_reducible apply frame_lockBegin

theorem frame_accWrite (s : State) (fails : BitVec 2) {P : List Part} {s0 : State} 
    (hP : subParts [.mem, .nor, .pwr, .rings, .bezel, .loupe, .plait, .acc, .out] P = true) (h : Frame P s0 s) : Frame P s0 (accWrite s fails) := by
  unfold accWrite
  try extract_lets
  repeat' first
    | with_reducible assumption
    | exact subParts_trans (by decide) hP
    | with_reducible apply frame_putCopy
    | with_reducible apply frame_logEvent
    | with_reducible apply frame_lockOut
    | with_reducible apply Frame.ite <;> intro _

theorem frame_sessionEnd (s : State) {P : List Part} {s0 : State} 
    (hP : subParts [.acc] P = true) (h : Frame P s0 s) : Frame P s0 (sessionEnd s) := by
  unfold sessionEnd
  try extract_lets
  repeat' first
    | (with_reducible refine Frame.of_mk _ _ _ _ _ _ _ _ _ _ _ _ _ _ _ _ _ _ _ _ _ _ _ _ _ _ _ _ _ hP ?_ rfl ?_ ?_ ?_ ?_ ?_ ?_ ?_ ?_ ?_ ?_ ?_ ?_ ?_ ?_ ?_ ?_ ?_ ?_ ?_ ?_ ?_ ?_ ?_ ?_ ?_ ?_ ?_ ?_ <;>
         first | with_reducible exact Or.inr rfl | exact Or.inl rfl | skip
       with_reducible assumption)

theorem frame_searchStart (s : State) (reason : Nat) (act : Option Act) {P : List Part} {s0 : State} 
    (hP : subParts [.mem, .pwr, .rings, .plait, .acc, .out] P = true) (h : Frame P s0 s) : Frame P s0 (searchStart s reason act) := by
  unfold searchStart
  try extract_lets
  repeat' first
    | with_reducible assumption
    | (with_reducible refine Frame.of_mk _ _ _ _ _ _ _ _ _ _ _ _ _ _ _ _ _ _ _ _ _ _ _ _ _ _ _ _ _ hP ?_ rfl ?_ ?_ ?_ ?_ ?_ ?_ ?_ ?_ ?_ ?_ ?_ ?_ ?_ ?_ ?_ ?_ ?_ ?_ ?_ ?_ ?_ ?_ ?_ ?_ ?_ ?_ ?_ ?_ <;>
         first | with_reducible exact Or.inr rfl | exact Or.inl rfl | skip
       with_reducible apply frame_searchEnd)

theorem frame_searchOnMode (s : State) {P : List Part} {s0 : State} 
    (hP : subParts [.mem, .pwr, .rings, .plait, .acc, .out] P = true) (h : Frame P s0 s) : Frame P s0 (searchOnMode s) := by
  unfold searchOnMode
  repeat' first
    | with_reducible assumption
    | with_reducible apply frame_searchStart
    | with_reducible apply Frame.ite <;> intro _

theorem frame_pollStart (s : State) {P : List Part} {s0 : State} 
    (hP : subParts [.acc, .out, .free] P = true) (h : Frame P s0 s) : Frame P s0 (pollStart s) := by
  unfold pollStart
  try extract_lets
  repeat' first
    | with_reducible assumption
    | exact subParts_trans (by decide) hP
    | with_reducible apply frame_State_takeBytes
    | with_reducible apply Frame.ite <;> intro _
    | (with_reducible refine Frame.of_mk _ _ _ _ _ _ _ _ _ _ _ _ _ _ _ _ _ _ _ _ _ _ _ _ _ _ _ _ _ hP ?_ rfl ?_ ?_ ?_ ?_ ?_ ?_ ?_ ?_ ?_ ?_ ?_ ?_ ?_ ?_ ?_ ?_ ?_ ?_ ?_ ?_ ?_ ?_ ?_ ?_ ?_ ?_ ?_ ?_ <;>
         first | with_reducible exact Or.inr rfl | exact Or.inl rfl | skip
       with_reducible apply frame_State_send)

theorem frame_relReserve (s : State) {P : List Part} {s0 : State} 
    (hP : subParts [.mem, .nor, .pwr, .rings, .bezel, .loupe, .plait, .acc, .out] P = true) (h : Frame P s0 s) : Frame P s0 (relReserve s) := by
  unfold relReserve
  try extract_lets
  repeat' first
    | with_reducible assumption
    | with_reducible apply frame_accWrite
    | with_reducible apply Frame.ite <;> intro _
    | (with_reducible refine Frame.of_mk _ _ _ _ _ _ _ _ _ _ _ _ _ _ _ _ _ _ _ _ _ _ _ _ _ _ _ _ _ hP ?_ rfl ?_ ?_ ?_ ?_ ?_ ?_ ?_ ?_ ?_ ?_ ?_ ?_ ?_ ?_ ?_ ?_ ?_ ?_ ?_ ?_ ?_ ?_ ?_ ?_ ?_ ?_ ?_ ?_ <;>
         first | with_reducible exact Or.inr rfl | exact Or.inl rfl | skip
       with_reducible assumption)

theorem frame_relSend (s : State) {P : List Part} {s0 : State} 
    (hP : subParts [.mem, .nor, .pwr, .rings, .bezel, .loupe, .can, .net, .plait, .acc, .out] P = true) (h : Frame P s0 s) : Frame P s0 (relSend s) := by
  unfold relSend
  try extract_lets
  repeat' first
    | with_reducible assumption
    | exact subParts_trans (by decide) hP
    | with_reducible apply frame_netEval
    | with_reducible apply frame_tpRequest
    | with_reducible apply frame_canQueue
    | with_reducible apply Frame.ite <;> intro _
    | (with_reducible refine Frame.of_mk _ _ _ _ _ _ _ _ _ _ _ _ _ _ _ _ _ _ _ _ _ _ _ _ _ _ _ _ _ hP ?_ rfl ?_ ?_ ?_ ?_ ?_ ?_ ?_ ?_ ?_ ?_ ?_ ?_ ?_ ?_ ?_ ?_ ?_ ?_ ?_ ?_ ?_ ?_ ?_ ?_ ?_ ?_ ?_ ?_ <;>
         first | with_reducible exact Or.inr rfl | exact Or.inl rfl | skip
       with_reducible apply frame_relReserve)

end Sys2Proof.Machine
end

