-- ==== Sys2Proof/Laws/FrameUpdOps.lean ====
section
/-! SUPPORT. Which parts of the state the operations of Machine/UpdOps.lean may change. -/

namespace Sys2Proof.Machine

set_option linter.unusedTactic false
set_option linter.unreachableTactic false

theorem frame_bootWrite (s : State) (r : BootRec) (why : BootWhy) {P : List Part} {s0 : State} 
    (hP : subParts [.upd] P = true) (h : Frame P s0 s) : Frame P s0 (bootWrite s r why) := by
  unfold bootWrite
  try extract_lets
  repeat' first
    | (with_reducible refine Frame.of_mk _ _ _ _ _ _ _ _ _ _ _ _ _ _ _ _ _ _ _ _ _ _ _ _ _ _ _ _ _ hP ?_ rfl ?_ ?_ ?_ ?_ ?_ ?_ ?_ ?_ ?_ ?_ ?_ ?_ ?_ ?_ ?_ ?_ ?_ ?_ ?_ ?_ ?_ ?_ ?_ ?_ ?_ ?_ ?_ ?_ <;>
         first | with_reducible exact Or.inr rfl | exact Or.inl rfl | skip
       with_reducible assumption)

theorem frame_mediaFlag (s : State) (v : Bool) {P : List Part} {s0 : State} 
    (hP : subParts [.upd] P = true) (h : Frame P s0 s) : Frame P s0 (mediaFlag s v) := by
  unfold mediaFlag
  try extract_lets
  repeat' first
    | with_reducible assumption
    | with_reducible apply frame_bootWrite
    | with_reducible apply Frame.ite <;> intro _

theorem frame_State_modArea (s : State) (one : Bool) (f : SetArea → SetArea) {P : List Part} {s0 : State} 
    (hP : subParts [.nor] P = true) (h : Frame P s0 s) : Frame P s0 (State.modArea s one f) := by
  unfold State.modArea
  try extract_lets
  repeat' first
    | with_reducible apply Frame.ite <;> intro _
    | (with_reducible refine Frame.of_mk _ _ _ _ _ _ _ _ _ _ _ _ _ _ _ _ _ _ _ _ _ _ _ _ _ _ _ _ _ hP ?_ rfl ?_ ?_ ?_ ?_ ?_ ?_ ?_ ?_ ?_ ?_ ?_ ?_ ?_ ?_ ?_ ?_ ?_ ?_ ?_ ?_ ?_ ?_ ?_ ?_ ?_ ?_ ?_ ?_ <;>
         first | with_reducible exact Or.inr rfl | exact Or.inl rfl | skip
       with_reducible assumption)

end Sys2Proof.Machine
end

