-- ==== Sys2Proof/Laws/FrameRings.lean ====
section
/-! SUPPORT. Which parts of the state the operations of Machine/Rings.lean may change. -/

namespace Sys2Proof.Machine

set_option linter.unusedTactic false
set_option linter.unreachableTactic false

theorem frame_disableRing (s : State) (n : Nat) {P : List Part} {s0 : State} 
    (hP : subParts [.mem, .pwr, .rings, .plait, .out] P = true) (h : Frame P s0 s) : Frame P s0 (disableRing s n) := by
  unfold disableRing
  try extract_lets
  repeat' first
    | with_reducible assumption
    | exact subParts_trans (by decide) hP
    | with_reducible apply Frame.foldl
    | with_reducible apply frame_State_modRing
    | with_reducible apply frame_complete
    | intro _ _ _

theorem frame_actRxPost (a : Act) (s : State) {P : List Part} {s0 : State} 
    (hP : subParts [.mem, .pwr, .rings, .plait, .out] P = true) (h : Frame P s0 s) : Frame P s0 (actRxPost a s) := by
  unfold actRxPost
  try extract_lets
  repeat' first
    | with_reducible assumption
    | exact subParts_trans (by decide) hP
    | with_reducible apply frame_State_modRing
    | with_reducible apply frame_refuse
    | with_reducible apply Frame.ite <;> intro _

theorem frame_execRxPost (d : Desc) (s : State) :
    OutFrame [.ecc, .mem, .pwr, .weave, .rings, .bezel, .loupe, .plait, .out] s (execRxPost d s) := by
  have h := Frame.refl [.ecc, .mem, .pwr, .weave, .rings, .bezel, .loupe, .plait, .out] s
  have hP : subParts [.ecc, .mem, .pwr, .weave, .rings, .bezel, .loupe, .plait, .out] [.ecc, .mem, .pwr, .weave, .rings, .bezel, .loupe, .plait, .out] = true := by decide
  unfold execRxPost
  show Frame [.ecc, .mem, .pwr, .weave, .rings, .bezel, .loupe, .plait, .out] _ _
  repeat' first
    | with_reducible assumption
    | exact subParts_trans (by decide) hP
    | with_reducible apply frame_accept
    | with_reducible apply frame_actRxPost
    | intro _ _ _

theorem frame_actNop (a : Act) (s : State) {P : List Part} {s0 : State} 
    (hP : subParts [.mem, .pwr, .rings, .plait, .out] P = true) (h : Frame P s0 s) : Frame P s0 (actNop a s) := by
  unfold actNop
  repeat' first
    | with_reducible assumption
    | with_reducible apply frame_finish

theorem frame_execNop (d : Desc) (s : State) :
    OutFrame [.ecc, .mem, .pwr, .weave, .rings, .bezel, .loupe, .plait, .out] s (execNop d s) := by
  have h := Frame.refl [.ecc, .mem, .pwr, .weave, .rings, .bezel, .loupe, .plait, .out] s
  have hP : subParts [.ecc, .mem, .pwr, .weave, .rings, .bezel, .loupe, .plait, .out] [.ecc, .mem, .pwr, .weave, .rings, .bezel, .loupe, .plait, .out] = true := by decide
  unfold execNop
  show Frame [.ecc, .mem, .pwr, .weave, .rings, .bezel, .loupe, .plait, .out] _ _
  repeat' first
    | with_reducible assumption
    | exact subParts_trans (by decide) hP
    | with_reducible apply frame_accept
    | with_reducible apply frame_actNop
    | intro _ _ _

theorem frame_execModerationTimeout (ring : Fin 128) (s : State) :
    OutFrame [.clk, .weave, .rings, .plait, .out] s (execModerationTimeout ring s) := by
  have h := Frame.refl [.clk, .weave, .rings, .plait, .out] s
  have hP : subParts [.clk, .weave, .rings, .plait, .out] [.clk, .weave, .rings, .plait, .out] = true := by decide
  unfold execModerationTimeout
  show Frame [.clk, .weave, .rings, .plait, .out] _ _
  try extract_lets
  repeat' first
    | with_reducible assumption
    | exact subParts_trans (by decide) hP
    | with_reducible apply frame_raiseRing
    | with_reducible apply frame_State_reach
    | with_reducible apply Frame.ite <;> intro _

end Sys2Proof.Machine
end

