-- ==== Sys2Proof/Laws/FrameModes.lean ====
section
/-! SUPPORT. Which parts of the state the operations of Machine/Modes.lean may change. -/

namespace Sys2Proof.Machine

set_option linter.unusedTactic false
set_option linter.unreachableTactic false

theorem frame_coreFault (s : State) (hart : BitVec 2) (addr : BitVec 36) (write : Bool) (cause : Nat) {P : List Part} {s0 : State} 
    (hP : subParts [.sys, .rings, .bezel, .loupe, .plait, .rdata, .out] P = true) (h : Frame P s0 s) : Frame P s0 (coreFault s hart addr write cause) := by
  unfold coreFault
  try extract_lets
  repeat' first
    | exact subParts_trans (by decide) hP
    | with_reducible apply frame_logEvent
    | (with_reducible refine Frame.of_mk _ _ _ _ _ _ _ _ _ _ _ _ _ _ _ _ _ _ _ _ _ _ _ _ _ _ _ _ _ hP ?_ rfl ?_ ?_ ?_ ?_ ?_ ?_ ?_ ?_ ?_ ?_ ?_ ?_ ?_ ?_ ?_ ?_ ?_ ?_ ?_ ?_ ?_ ?_ ?_ ?_ ?_ ?_ ?_ ?_ <;>
         first | with_reducible exact Or.inr rfl | exact Or.inl rfl | skip
       with_reducible assumption)

theorem frame_plSync (s : State) {P : List Part} {s0 : State} 
    (hP : subParts [.pwr] P = true) (h : Frame P s0 s) : Frame P s0 (plSync s) := by
  unfold plSync
  try extract_lets
  repeat' first
    | with_reducible assumption
    | with_reducible apply Frame.ite <;> intro _
    | (with_reducible refine Frame.of_mk _ _ _ _ _ _ _ _ _ _ _ _ _ _ _ _ _ _ _ _ _ _ _ _ _ _ _ _ _ hP ?_ rfl ?_ ?_ ?_ ?_ ?_ ?_ ?_ ?_ ?_ ?_ ?_ ?_ ?_ ?_ ?_ ?_ ?_ ?_ ?_ ?_ ?_ ?_ ?_ ?_ ?_ ?_ ?_ ?_ <;>
         first | with_reducible exact Or.inr rfl | exact Or.inl rfl | skip
       with_reducible assumption)

theorem frame_dropAct (s : State) (a : Act) (status : Nat) (detail : Nat) (r0 : Nat) (r1 : Nat) {P : List Part} {s0 : State} 
    (hP : subParts [.mem, .pwr, .rings, .plait, .out] P = true) (h : Frame P s0 s) : Frame P s0 (dropAct s a status detail r0 r1) := by
  unfold dropAct
  try extract_lets
  repeat' first
    | with_reducible assumption
    | with_reducible apply frame_complete

theorem frame_domUp (s : State) (d : Dom) {P : List Part} {s0 : State} 
    (hP : subParts [.facet] P = true) (h : Frame P s0 s) : Frame P s0 (domUp s d) := by
  unfold domUp
  repeat' first
    | with_reducible assumption
    | with_reducible apply frame_facetReload
    | with_reducible apply Frame.ite <;> intro _

theorem frame_beginDrain (s : State) (d : Dom) (target : DomState) {P : List Part} {s0 : State} 
    (hP : subParts [.mem, .pwr, .weave, .rings, .plait, .out] P = true) (h : Frame P s0 s) : Frame P s0 (beginDrain s d target) := by
  unfold beginDrain
  try extract_lets
  repeat' first
    | with_reducible assumption
    | exact subParts_trans (by decide) hP
    | with_reducible apply Frame.foldl
    | with_reducible apply frame_cancelLaunch
    | intro _ _ _
    | (with_reducible refine Frame.of_mk _ _ _ _ _ _ _ _ _ _ _ _ _ _ _ _ _ _ _ _ _ _ _ _ _ _ _ _ _ hP ?_ rfl ?_ ?_ ?_ ?_ ?_ ?_ ?_ ?_ ?_ ?_ ?_ ?_ ?_ ?_ ?_ ?_ ?_ ?_ ?_ ?_ ?_ ?_ ?_ ?_ ?_ ?_ ?_ ?_ <;>
         first | with_reducible exact Or.inr rfl | exact Or.inl rfl | skip
       first
         | with_reducible assumption
         | with_reducible apply frame_State_modDom
      )

theorem frame_dropStalled (s : State) (d : Dom) (status : Nat) (cause : Nat) {P : List Part} {s0 : State} 
    (hP : subParts [.sys, .mem, .pwr, .rings, .bezel, .loupe, .plait, .rdata, .out] P = true) (h : Frame P s0 s) : Frame P s0 (dropStalled s d status cause) := by
  unfold dropStalled
  try extract_lets
  repeat' first
    | with_reducible assumption
    | exact subParts_trans (by decide) hP
    | with_reducible apply Frame.foldl
    | with_reducible apply frame_complete
    | with_reducible apply frame_coreFault
    | with_reducible apply frame_refuse
    | intro _ _ _
    | (with_reducible refine Frame.of_mk _ _ _ _ _ _ _ _ _ _ _ _ _ _ _ _ _ _ _ _ _ _ _ _ _ _ _ _ _ hP ?_ rfl ?_ ?_ ?_ ?_ ?_ ?_ ?_ ?_ ?_ ?_ ?_ ?_ ?_ ?_ ?_ ?_ ?_ ?_ ?_ ?_ ?_ ?_ ?_ ?_ ?_ ?_ ?_ ?_ <;>
         first | with_reducible exact Or.inr rfl | exact Or.inl rfl | skip
       with_reducible assumption)

theorem frame_wdtRestart (s : State) {P : List Part} {s0 : State} 
    (hP : subParts [.bezel] P = true) (h : Frame P s0 s) : Frame P s0 (wdtRestart s) := by
  unfold wdtRestart
  try extract_lets
  repeat' first
    | (with_reducible refine Frame.of_mk _ _ _ _ _ _ _ _ _ _ _ _ _ _ _ _ _ _ _ _ _ _ _ _ _ _ _ _ _ hP ?_ rfl ?_ ?_ ?_ ?_ ?_ ?_ ?_ ?_ ?_ ?_ ?_ ?_ ?_ ?_ ?_ ?_ ?_ ?_ ?_ ?_ ?_ ?_ ?_ ?_ ?_ ?_ ?_ ?_ <;>
         first | with_reducible exact Or.inr rfl | exact Or.inl rfl | skip
       with_reducible assumption)

theorem frame_raiseDom (s : State) (d : Dom) (t : DomState) {P : List Part} {s0 : State} 
    (hP : subParts [.pwr, .bezel, .facet] P = true) (h : Frame P s0 s) : Frame P s0 (raiseDom s d t) := by
  unfold raiseDom
  try extract_lets
  repeat' first
    | with_reducible assumption
    | exact subParts_trans (by decide) hP
    | with_reducible apply frame_State_modDom
    | with_reducible apply frame_domUp
    | with_reducible apply frame_wdtRestart
    | with_reducible apply Frame.ite <;> intro _

theorem frame_dropDrain (s : State) (d : Dom) {P : List Part} {s0 : State} 
    (hP : subParts [.mem, .pwr, .rings, .plait, .out] P = true) (h : Frame P s0 s) : Frame P s0 (dropDrain s d) := by
  unfold dropDrain
  try extract_lets
  repeat' first
    | with_reducible assumption
    | exact subParts_trans (by decide) hP
    | with_reducible apply Frame.foldl
    | with_reducible apply frame_refuse
    | with_reducible apply frame_State_modDom
    | with_reducible apply Frame.ite <;> intro _
    | intro _ _ _
    | (with_reducible refine Frame.of_mk _ _ _ _ _ _ _ _ _ _ _ _ _ _ _ _ _ _ _ _ _ _ _ _ _ _ _ _ _ hP ?_ rfl ?_ ?_ ?_ ?_ ?_ ?_ ?_ ?_ ?_ ?_ ?_ ?_ ?_ ?_ ?_ ?_ ?_ ?_ ?_ ?_ ?_ ?_ ?_ ?_ ?_ ?_ ?_ ?_ <;>
         first | with_reducible exact Or.inr rfl | exact Or.inl rfl | skip
       with_reducible assumption)

theorem frame_modeDomains (s : State) (m : Mode) {P : List Part} {s0 : State} 
    (hP : subParts [.sys, .mem, .pwr, .weave, .rings, .bezel, .loupe, .facet, .plait, .rdata, .out] P = true) (h : Frame P s0 s) : Frame P s0 (modeDomains s m) := by
  unfold modeDomains
  try extract_lets
  repeat' first
    | with_reducible assumption
    | exact subParts_trans (by decide) hP
    | with_reducible apply Frame.foldl
    | with_reducible apply frame_beginDrain
    | with_reducible apply frame_dropStalled
    | with_reducible apply frame_dropDrain
    | with_reducible apply frame_State_modDom
    | with_reducible apply frame_raiseDom
    | with_reducible apply Frame.ite <;> intro _
    | intro _ _ _

theorem frame_recordRegs (s : State) (bz : Option Rec) (sy : Option Rec) {P : List Part} {s0 : State} 
    (hP : subParts [.sys, .bezel] P = true) (h : Frame P s0 s) : Frame P s0 (recordRegs s bz sy) := by
  unfold recordRegs
  try extract_lets
  repeat' first
    | with_reducible assumption
    | with_reducible apply Frame.ite <;> intro _
    | (with_reducible refine Frame.of_mk _ _ _ _ _ _ _ _ _ _ _ _ _ _ _ _ _ _ _ _ _ _ _ _ _ _ _ _ _ hP ?_ rfl ?_ ?_ ?_ ?_ ?_ ?_ ?_ ?_ ?_ ?_ ?_ ?_ ?_ ?_ ?_ ?_ ?_ ?_ ?_ ?_ ?_ ?_ ?_ ?_ ?_ ?_ ?_ ?_ <;>
         first | with_reducible exact Or.inr rfl | exact Or.inl rfl | skip
       first
         | with_reducible assumption
         | split
      )
    | extract_lets
    | dsimp +zetaDelta only

theorem frame_setMode (s : State) (m : Mode) (cause : Nat) {P : List Part} {s0 : State} 
    (hP : subParts [.sys, .pwr, .rings, .bezel, .loupe, .plait, .out] P = true) (h : Frame P s0 s) : Frame P s0 (setMode s m cause) := by
  unfold setMode
  try extract_lets
  repeat' first
    | exact subParts_trans (by decide) hP
    | with_reducible apply frame_recordRegs
    | with_reducible apply frame_logEvent
    | (with_reducible refine Frame.of_mk _ _ _ _ _ _ _ _ _ _ _ _ _ _ _ _ _ _ _ _ _ _ _ _ _ _ _ _ _ hP ?_ rfl ?_ ?_ ?_ ?_ ?_ ?_ ?_ ?_ ?_ ?_ ?_ ?_ ?_ ?_ ?_ ?_ ?_ ?_ ?_ ?_ ?_ ?_ ?_ ?_ ?_ ?_ ?_ ?_ <;>
         first | with_reducible exact Or.inr rfl | exact Or.inl rfl | skip
       with_reducible assumption)

theorem frame_modeClaims (s : State) {P : List Part} {s0 : State} 
    (hP : subParts [.mem, .pwr, .rings, .bezel, .loupe, .hso, .edge, .led, .fio, .vlv, .facet, .can, .plait, .out] P = true) (h : Frame P s0 s) : Frame P s0 (modeClaims s) := by
  unfold modeClaims
  repeat' first
    | with_reducible assumption
    | exact subParts_trans (by decide) hP
    | with_reducible apply frame_canClaims
    | with_reducible apply frame_fioClaims
    | with_reducible apply frame_ledClaims
    | with_reducible apply frame_vlvClaims
    | with_reducible apply frame_hsoClaims

theorem frame_lightsOff (s : State) {P : List Part} {s0 : State} 
    (hP : subParts [.mem, .pwr, .rings, .bezel, .edge, .led, .mtx, .plait, .out] P = true) (h : Frame P s0 s) : Frame P s0 (lightsOff s) := by
  unfold lightsOff
  repeat' first
    | with_reducible assumption
    | exact subParts_trans (by decide) hP
    | with_reducible apply frame_mtxDark
    | with_reducible apply frame_mtxDrop
    | with_reducible apply frame_ledAllOff

theorem frame_modeOutputs (s : State) (m : Mode) {P : List Part} {s0 : State} 
    (hP : subParts [.mem, .pwr, .rings, .bezel, .loupe, .hso, .edge, .led, .mtx, .fio, .vlv, .facet, .plait, .out] P = true) (h : Frame P s0 s) : Frame P s0 (modeOutputs s m) := by
  unfold modeOutputs
  try extract_lets
  repeat' first
    | with_reducible assumption
    | exact subParts_trans (by decide) hP
    | with_reducible apply frame_fioAllOff
    | with_reducible apply frame_vlvAllOff
    | with_reducible apply frame_lightsOff
    | with_reducible apply frame_hsoAllOff
    | with_reducible apply frame_fioPark
    | with_reducible apply frame_hsoPark
    | with_reducible apply frame_fioRoad
    | with_reducible apply frame_vlvRoad
    | with_reducible apply frame_mtxRoad
    | with_reducible apply frame_ledRoad
    | with_reducible apply frame_hsoRoad
    | (with_reducible refine Frame.of_mk _ _ _ _ _ _ _ _ _ _ _ _ _ _ _ _ _ _ _ _ _ _ _ _ _ _ _ _ _ hP ?_ rfl ?_ ?_ ?_ ?_ ?_ ?_ ?_ ?_ ?_ ?_ ?_ ?_ ?_ ?_ ?_ ?_ ?_ ?_ ?_ ?_ ?_ ?_ ?_ ?_ ?_ ?_ ?_ ?_ <;>
         first | with_reducible exact Or.inr rfl | exact Or.inl rfl | skip
       split)

theorem frame_modeLeave (s : State) (m : Mode) {P : List Part} {s0 : State} 
    (hP : subParts [.mem, .pwr, .rings, .bezel, .loupe, .plait, .rdata, .out] P = true) (h : Frame P s0 s) : Frame P s0 (modeLeave s m) := by
  unfold modeLeave
  repeat' first
    | with_reducible assumption
    | with_reducible apply frame_leaveAll
    | with_reducible apply Frame.ite <;> intro _

theorem frame_modeEntering (s : State) (m : Mode) {P : List Part} {s0 : State} 
    (hP : subParts [.pwr] P = true) (h : Frame P s0 s) : Frame P s0 (modeEntering s m) := by
  unfold modeEntering
  try extract_lets
  repeat' first
    | (with_reducible refine Frame.of_mk _ _ _ _ _ _ _ _ _ _ _ _ _ _ _ _ _ _ _ _ _ _ _ _ _ _ _ _ _ hP ?_ rfl ?_ ?_ ?_ ?_ ?_ ?_ ?_ ?_ ?_ ?_ ?_ ?_ ?_ ?_ ?_ ?_ ?_ ?_ ?_ ?_ ?_ ?_ ?_ ?_ ?_ ?_ ?_ ?_ <;>
         first | with_reducible exact Or.inr rfl | exact Or.inl rfl | skip
       with_reducible assumption)

theorem frame_modeGuard (s : State) (m : Mode) {P : List Part} {s0 : State} 
    (hP : subParts [.acc] P = true) (h : Frame P s0 s) : Frame P s0 (modeGuard s m) := by
  unfold modeGuard
  try extract_lets
  repeat' first
    | with_reducible assumption
    | with_reducible apply Frame.ite <;> intro _
    | (with_reducible refine Frame.of_mk _ _ _ _ _ _ _ _ _ _ _ _ _ _ _ _ _ _ _ _ _ _ _ _ _ _ _ _ _ hP ?_ rfl ?_ ?_ ?_ ?_ ?_ ?_ ?_ ?_ ?_ ?_ ?_ ?_ ?_ ?_ ?_ ?_ ?_ ?_ ?_ ?_ ?_ ?_ ?_ ?_ ?_ ?_ ?_ ?_ <;>
         first | with_reducible exact Or.inr rfl | exact Or.inl rfl | skip
       with_reducible apply frame_sessionEnd)

theorem frame_modeQueue (s : State) {P : List Part} {s0 : State} 
    (hP : subParts [.mem, .pwr, .weave, .rings, .plait, .acc, .out] P = true) (h : Frame P s0 s) : Frame P s0 (modeQueue s) := by
  unfold modeQueue
  try extract_lets
  repeat' first
    | with_reducible assumption
    | exact subParts_trans (by decide) hP
    | with_reducible apply Frame.foldl
    | with_reducible apply frame_cancelLaunch
    | with_reducible apply frame_searchOnMode
    | with_reducible apply Frame.ite <;> intro _
    | intro _ _ _
    | (with_reducible refine Frame.of_mk _ _ _ _ _ _ _ _ _ _ _ _ _ _ _ _ _ _ _ _ _ _ _ _ _ _ _ _ _ hP ?_ rfl ?_ ?_ ?_ ?_ ?_ ?_ ?_ ?_ ?_ ?_ ?_ ?_ ?_ ?_ ?_ ?_ ?_ ?_ ?_ ?_ ?_ ?_ ?_ ?_ ?_ ?_ ?_ ?_ <;>
         first | with_reducible exact Or.inr rfl | exact Or.inl rfl | skip
       with_reducible assumption)

theorem frame_enterMode (s : State) (m : Mode) (cause : Nat) {P : List Part} {s0 : State}
    (hP : subParts [.sys, .mem, .pwr, .weave, .rings, .bezel, .loupe, .hso, .edge, .led, .mtx, .fio, .vlv, .facet, .can, .net, .plait, .acc, .rdata, .out] P = true) (h : Frame P s0 s) : Frame P s0 (enterMode s m cause) := by
  have claims : ∀ u, Frame P s0 u → Frame P s0 (modeDomains (if u.pwr.entering then u else modeClaims u) m) := by
    intro u k
    refine frame_modeDomains _ _ (subParts_trans (by decide) hP) ?_
    exact Frame.ite (fun _ => k) (fun _ => frame_modeClaims _ (subParts_trans (by decide) hP) k)
  have k : Frame P s0 (modeOutputs (modeEntering (modeLeave (setMode s m cause) m) m) m) := by
    refine frame_modeOutputs _ _ (subParts_trans (by decide) hP) ?_
    refine frame_modeEntering _ _ (subParts_trans (by decide) hP) ?_
    refine frame_modeLeave _ _ (subParts_trans (by decide) hP) ?_
    exact frame_setMode _ _ _ (subParts_trans (by decide) hP) h
  refine frame_plSync _ (subParts_trans (by decide) hP) ?_
  refine frame_netAll _ (subParts_trans (by decide) hP) ?_
  refine frame_sendMode _ (subParts_trans (by decide) hP) ?_
  refine frame_modeQueue _ (subParts_trans (by decide) hP) ?_
  refine frame_modeGuard _ _ (subParts_trans (by decide) hP) ?_
  exact claims _ k

theorem frame_modeConditions (x0 : Nat) (x1 : State) {P : List Part} {s0 : State} 
    (hP : subParts [.sys, .mem, .pwr, .weave, .rings, .bezel, .loupe, .hso, .edge, .led, .mtx, .fio, .vlv, .facet, .can, .net, .plait, .acc, .rdata, .out] P = true) (h : Frame P s0 x1) : Frame P s0 (modeConditions x0 x1) := by
  induction x0 generalizing x1 with
  | zero =>
    unfold modeConditions
    try extract_lets
    repeat' first
      | with_reducible assumption
      | exact subParts_trans (by decide) hP
      | with_reducible apply ih
      | with_reducible apply frame_enterMode
      | with_reducible apply frame_logEvent
      | with_reducible apply Frame.ite <;> intro _
      | (with_reducible refine Frame.of_mk _ _ _ _ _ _ _ _ _ _ _ _ _ _ _ _ _ _ _ _ _ _ _ _ _ _ _ _ _ hP ?_ rfl ?_ ?_ ?_ ?_ ?_ ?_ ?_ ?_ ?_ ?_ ?_ ?_ ?_ ?_ ?_ ?_ ?_ ?_ ?_ ?_ ?_ ?_ ?_ ?_ ?_ ?_ ?_ ?_ <;>
           first | with_reducible exact Or.inr rfl | exact Or.inl rfl | skip
         split)
  | succ k ih =>
    unfold modeConditions
    try extract_lets
    repeat' first
      | with_reducible assumption
      | exact subParts_trans (by decide) hP
      | with_reducible apply ih
      | with_reducible apply frame_enterMode
      | with_reducible apply frame_logEvent
      | with_reducible apply Frame.ite <;> intro _
      | (with_reducible refine Frame.of_mk _ _ _ _ _ _ _ _ _ _ _ _ _ _ _ _ _ _ _ _ _ _ _ _ _ _ _ _ _ hP ?_ rfl ?_ ?_ ?_ ?_ ?_ ?_ ?_ ?_ ?_ ?_ ?_ ?_ ?_ ?_ ?_ ?_ ?_ ?_ ?_ ?_ ?_ ?_ ?_ ?_ ?_ ?_ ?_ ?_ <;>
           first | with_reducible exact Or.inr rfl | exact Or.inl rfl | skip
         split)

theorem frame_judge (s : State) {P : List Part} {s0 : State} 
    (hP : subParts [.sys, .mem, .pwr, .weave, .rings, .bezel, .loupe, .hso, .edge, .led, .mtx, .fio, .vlv, .facet, .can, .net, .plait, .acc, .rdata, .out] P = true) (h : Frame P s0 s) : Frame P s0 (judge s) := by
  unfold judge
  repeat' first
    | with_reducible assumption
    | with_reducible apply frame_modeConditions

theorem frame_mirrorLog (s : State) {P : List Part} {s0 : State} 
    (hP : subParts [.nor, .bezel] P = true) (h : Frame P s0 s) : Frame P s0 (mirrorLog s) := by
  unfold mirrorLog
  try extract_lets
  repeat' first
    | with_reducible apply Frame.ite <;> intro _
    | (with_reducible refine Frame.of_mk _ _ _ _ _ _ _ _ _ _ _ _ _ _ _ _ _ _ _ _ _ _ _ _ _ _ _ _ _ hP ?_ rfl ?_ ?_ ?_ ?_ ?_ ?_ ?_ ?_ ?_ ?_ ?_ ?_ ?_ ?_ ?_ ?_ ?_ ?_ ?_ ?_ ?_ ?_ ?_ ?_ ?_ ?_ ?_ ?_ <;>
         first | with_reducible exact Or.inr rfl | exact Or.inl rfl | skip
       with_reducible assumption)

theorem frame_seedWeave (s : State) {P : List Part} {s0 : State} 
    (hP : subParts [.weave] P = true) (h : Frame P s0 s) : Frame P s0 (seedWeave s) := by
  unfold seedWeave
  try extract_lets
  repeat' first
    | (with_reducible refine Frame.of_mk _ _ _ _ _ _ _ _ _ _ _ _ _ _ _ _ _ _ _ _ _ _ _ _ _ _ _ _ _ hP ?_ rfl ?_ ?_ ?_ ?_ ?_ ?_ ?_ ?_ ?_ ?_ ?_ ?_ ?_ ?_ ?_ ?_ ?_ ?_ ?_ ?_ ?_ ?_ ?_ ?_ ?_ ?_ ?_ ?_ <;>
         first | with_reducible exact Or.inr rfl | exact Or.inl rfl | skip
       first
         | with_reducible assumption
         | split
      )

theorem frame_railsUp (s : State) {P : List Part} {s0 : State} (hP : subParts [.pwr, .weave] P = true) (h : Frame P s0 s) :
    Frame P s0 (railsUp s) := by
  unfold railsUp
  extract_lets s1 s2
  have e : Frame P s0 s2 := frame_seedWeave _ (subParts_trans (by decide) hP) (Frame.foldl _ _ (fun u x k =>
    Frame.ite (fun _ => k) (fun _ => frame_State_modDom _ _ _ (subParts_trans (by decide) hP) k)) h)
  clear_value s2
  exact e.upd hP rfl (fun p hp => by cases p <;> first | exact absurd hp (by decide) | exact rfl)

theorem frame_nextRail (s : State) {P : List Part} {s0 : State} 
    (hP : subParts [.pwr, .weave] P = true) (h : Frame P s0 s) : Frame P s0 (nextRail s) := by
  unfold nextRail
  try extract_lets
  repeat' first
    | with_reducible assumption
    | with_reducible apply frame_railsUp
    | with_reducible apply Frame.ite <;> intro _
    | (with_reducible refine Frame.of_mk _ _ _ _ _ _ _ _ _ _ _ _ _ _ _ _ _ _ _ _ _ _ _ _ _ _ _ _ _ hP ?_ rfl ?_ ?_ ?_ ?_ ?_ ?_ ?_ ?_ ?_ ?_ ?_ ?_ ?_ ?_ ?_ ?_ ?_ ?_ ?_ ?_ ?_ ?_ ?_ ?_ ?_ ?_ ?_ ?_ <;>
         first | with_reducible exact Or.inr rfl | exact Or.inl rfl | skip
       with_reducible assumption)

theorem frame_orphanWhere (s : State) (hso : Nat → Bool) (vlv : Nat → Bool) (led : Nat → Bool) (fio : Nat → Bool) {P : List Part} {s0 : State} 
    (hP : subParts [.mem, .pwr, .rings, .bezel, .loupe, .hso, .edge, .led, .fio, .vlv, .facet, .plait, .out] P = true) (h : Frame P s0 s) : Frame P s0 (orphanWhere s hso vlv led fio) := by
  unfold orphanWhere
  try extract_lets
  repeat' first
    | with_reducible assumption
    | exact subParts_trans (by decide) hP
    | with_reducible apply frame_eachHso
    | with_reducible apply frame_hsoOrphan1
    | with_reducible apply frame_eachVlv
    | with_reducible apply frame_vlvOrphan1
    | with_reducible apply frame_eachLed
    | with_reducible apply frame_ledOrphan1
    | with_reducible apply frame_eachFio
    | with_reducible apply frame_fioOrphan1
    | with_reducible apply Frame.ite <;> intro _
    | intro _ _ _

theorem frame_clearHeld (s : State) {P : List Part} {s0 : State} 
    (hP : subParts [.bezel] P = true) (h : Frame P s0 s) : Frame P s0 (clearHeld s) := by
  unfold clearHeld
  try extract_lets
  repeat' first
    | (with_reducible refine Frame.of_mk _ _ _ _ _ _ _ _ _ _ _ _ _ _ _ _ _ _ _ _ _ _ _ _ _ _ _ _ _ hP ?_ rfl ?_ ?_ ?_ ?_ ?_ ?_ ?_ ?_ ?_ ?_ ?_ ?_ ?_ ?_ ?_ ?_ ?_ ?_ ?_ ?_ ?_ ?_ ?_ ?_ ?_ ?_ ?_ ?_ <;>
         first | with_reducible exact Or.inr rfl | exact Or.inl rfl | skip
       with_reducible assumption)

theorem frame_bezelOnlyNow (s : State) {P : List Part} {s0 : State} 
    (hP : subParts [.mem, .pwr, .rings, .bezel, .loupe, .hso, .edge, .led, .fio, .vlv, .facet, .plait, .out] P = true) (h : Frame P s0 s) : Frame P s0 (bezelOnlyNow s) := by
  unfold bezelOnlyNow
  try extract_lets
  repeat' first
    | with_reducible assumption
    | exact subParts_trans (by decide) hP
    | with_reducible apply frame_State_modDom
    | with_reducible apply frame_clearHeld
    | with_reducible apply frame_orphanWhere
    | intro _ _ _
    | (with_reducible refine Frame.of_mk _ _ _ _ _ _ _ _ _ _ _ _ _ _ _ _ _ _ _ _ _ _ _ _ _ _ _ _ _ hP ?_ rfl ?_ ?_ ?_ ?_ ?_ ?_ ?_ ?_ ?_ ?_ ?_ ?_ ?_ ?_ ?_ ?_ ?_ ?_ ?_ ?_ ?_ ?_ ?_ ?_ ?_ ?_ ?_ ?_ <;>
         first | with_reducible exact Or.inr rfl | exact Or.inl rfl | skip
       with_reducible apply Frame.foldl)

theorem frame_bootCount (s : State) {P : List Part} {s0 : State} 
    (hP : subParts [.rings, .bezel, .loupe, .plait, .out] P = true) (h : Frame P s0 s) : Frame P s0 (bootCount s) := by
  unfold bootCount
  try extract_lets
  repeat' first
    | with_reducible assumption
    | with_reducible apply frame_logEvent
    | (with_reducible refine Frame.of_mk _ _ _ _ _ _ _ _ _ _ _ _ _ _ _ _ _ _ _ _ _ _ _ _ _ _ _ _ _ hP ?_ rfl ?_ ?_ ?_ ?_ ?_ ?_ ?_ ?_ ?_ ?_ ?_ ?_ ?_ ?_ ?_ ?_ ?_ ?_ ?_ ?_ ?_ ?_ ?_ ?_ ?_ ?_ ?_ ?_ <;>
         first | with_reducible exact Or.inr rfl | exact Or.inl rfl | skip
       with_reducible assumption)

theorem frame_startMirror (s : State) {P : List Part} {s0 : State} 
    (hP : subParts [.nor, .rings, .bezel, .loupe, .plait, .out] P = true) (h : Frame P s0 s) : Frame P s0 (startMirror s) := by
  unfold startMirror
  try extract_lets
  repeat' first
    | with_reducible assumption
    | exact subParts_trans (by decide) hP
    | with_reducible apply frame_logEvent
    | with_reducible apply frame_mirrorLog
    | with_reducible apply Frame.ite <;> intro _
    | (with_reducible refine Frame.of_mk _ _ _ _ _ _ _ _ _ _ _ _ _ _ _ _ _ _ _ _ _ _ _ _ _ _ _ _ _ hP ?_ rfl ?_ ?_ ?_ ?_ ?_ ?_ ?_ ?_ ?_ ?_ ?_ ?_ ?_ ?_ ?_ ?_ ?_ ?_ ?_ ?_ ?_ ?_ ?_ ?_ ?_ ?_ ?_ ?_ <;>
         first | with_reducible exact Or.inr rfl | exact Or.inl rfl | skip
       first
         | with_reducible assumption
         | with_reducible apply frame_mirrorLog
      )

theorem frame_bezelOnlyStart (s : State) {P : List Part} {s0 : State} 
    (hP : subParts [.mem, .nor, .pwr, .rings, .bezel, .loupe, .hso, .edge, .led, .fio, .vlv, .facet, .plait, .out] P = true) (h : Frame P s0 s) : Frame P s0 (bezelOnlyStart s) := by
  unfold bezelOnlyStart
  repeat' first
    | with_reducible assumption
    | exact subParts_trans (by decide) hP
    | with_reducible apply frame_startMirror
    | with_reducible apply frame_bezelOnlyNow
    | with_reducible apply frame_bootCount

end Sys2Proof.Machine
end

