-- ==== Sys2Proof/Laws/FrameAcc.lean ====
section
/-! SUPPORT. Which parts of the state the operations of Machine/Acc.lean may change. -/

namespace Sys2Proof.Machine

set_option linter.unusedTactic false
set_option linter.unreachableTactic false

theorem frame_pairStart (s : State) (a : Act) (slot : Nat) (serial : BitVec 32) (delivery : List (BitVec 8)) (takeover : Option (BitVec 64)) {P : List Part} {s0 : State} 
    (hP : subParts [.acc, .out, .free] P = true) (h : Frame P s0 s) : Frame P s0 (pairStart s a slot serial delivery takeover) := by
  unfold pairStart
  try extract_lets
  repeat' first
    | with_reducible assumption
    | exact subParts_trans (by decide) hP
    | with_reducible apply frame_State_takeBytes
    | (with_reducible refine Frame.of_mk _ _ _ _ _ _ _ _ _ _ _ _ _ _ _ _ _ _ _ _ _ _ _ _ _ _ _ _ _ hP ?_ rfl ?_ ?_ ?_ ?_ ?_ ?_ ?_ ?_ ?_ ?_ ?_ ?_ ?_ ?_ ?_ ?_ ?_ ?_ ?_ ?_ ?_ ?_ ?_ ?_ ?_ ?_ ?_ ?_ <;>
         first | with_reducible exact Or.inr rfl | exact Or.inl rfl | skip
       with_reducible apply frame_State_send)

theorem frame_actAccPair (slot : BitVec 3) (a : Act) (s : State) {P : List Part} {s0 : State} 
    (hP : subParts [.mem, .pwr, .rings, .plait, .acc, .out, .free] P = true) (h : Frame P s0 s) : Frame P s0 (actAccPair slot a s) := by
  unfold actAccPair
  try extract_lets
  repeat' first
    | with_reducible assumption
    | exact subParts_trans (by decide) hP
    | with_reducible apply frame_refuse
    | with_reducible apply frame_pairStart
    | with_reducible apply Frame.ite <;> intro _

theorem frame_execAccPair (d : Desc) (slot : BitVec 3) (s : State) :
    OutFrame [.ecc, .mem, .pwr, .weave, .rings, .bezel, .loupe, .plait, .acc, .out, .free] s (execAccPair d slot s) := by
  have h := Frame.refl [.ecc, .mem, .pwr, .weave, .rings, .bezel, .loupe, .plait, .acc, .out, .free] s
  have hP : subParts [.ecc, .mem, .pwr, .weave, .rings, .bezel, .loupe, .plait, .acc, .out, .free] [.ecc, .mem, .pwr, .weave, .rings, .bezel, .loupe, .plait, .acc, .out, .free] = true := by decide
  unfold execAccPair
  show Frame [.ecc, .mem, .pwr, .weave, .rings, .bezel, .loupe, .plait, .acc, .out, .free] _ _
  repeat' first
    | with_reducible assumption
    | exact subParts_trans (by decide) hP
    | with_reducible apply frame_accept
    | with_reducible apply frame_actAccPair
    | intro _ _ _

theorem frame_unpair (s : State) (k : Nat) {P : List Part} {s0 : State} 
    (hP : subParts [.acc] P = true) (h : Frame P s0 s) : Frame P s0 (unpair s k) := by
  unfold unpair
  try extract_lets
  repeat' first
    | with_reducible assumption
    | (with_reducible refine Frame.of_mk _ _ _ _ _ _ _ _ _ _ _ _ _ _ _ _ _ _ _ _ _ _ _ _ _ _ _ _ _ hP ?_ rfl ?_ ?_ ?_ ?_ ?_ ?_ ?_ ?_ ?_ ?_ ?_ ?_ ?_ ?_ ?_ ?_ ?_ ?_ ?_ ?_ ?_ ?_ ?_ ?_ ?_ ?_ ?_ ?_ <;>
         first | with_reducible exact Or.inr rfl | exact Or.inl rfl | skip
       with_reducible apply frame_State_modTok)

theorem frame_actAccUnpair (slot : BitVec 3) (a : Act) (s : State) {P : List Part} {s0 : State} 
    (hP : subParts [.mem, .pwr, .rings, .bezel, .loupe, .plait, .acc, .out] P = true) (h : Frame P s0 s) : Frame P s0 (actAccUnpair slot a s) := by
  unfold actAccUnpair
  repeat' first
    | with_reducible assumption
    | exact subParts_trans (by decide) hP
    | with_reducible apply frame_refuse
    | with_reducible apply frame_finish
    | with_reducible apply frame_logEvent
    | with_reducible apply frame_unpair
    | with_reducible apply Frame.ite <;> intro _

theorem frame_execAccUnpair (d : Desc) (slot : BitVec 3) (s : State) :
    OutFrame [.ecc, .mem, .pwr, .weave, .rings, .bezel, .loupe, .plait, .acc, .out] s (execAccUnpair d slot s) := by
  have h := Frame.refl [.ecc, .mem, .pwr, .weave, .rings, .bezel, .loupe, .plait, .acc, .out] s
  have hP : subParts [.ecc, .mem, .pwr, .weave, .rings, .bezel, .loupe, .plait, .acc, .out] [.ecc, .mem, .pwr, .weave, .rings, .bezel, .loupe, .plait, .acc, .out] = true := by decide
  unfold execAccUnpair
  show Frame [.ecc, .mem, .pwr, .weave, .rings, .bezel, .loupe, .plait, .acc, .out] _ _
  repeat' first
    | with_reducible assumption
    | exact subParts_trans (by decide) hP
    | with_reducible apply frame_accept
    | with_reducible apply frame_actAccUnpair
    | intro _ _ _

theorem frame_actAccTakeover (a : Act) (s : State) {P : List Part} {s0 : State} 
    (hP : subParts [.mem, .pwr, .rings, .plait, .acc, .out, .free] P = true) (h : Frame P s0 s) : Frame P s0 (actAccTakeover a s) := by
  unfold actAccTakeover
  try extract_lets
  repeat' first
    | with_reducible assumption
    | exact subParts_trans (by decide) hP
    | with_reducible apply Frame.foldl
    | with_reducible apply frame_refuse
    | with_reducible apply frame_unpair
    | with_reducible apply frame_pairStart
    | with_reducible apply Frame.ite <;> intro _
    | intro _ _ _

theorem frame_execAccTakeover (d : Desc) (s : State) :
    OutFrame [.ecc, .mem, .pwr, .weave, .rings, .bezel, .loupe, .plait, .acc, .out, .free] s (execAccTakeover d s) := by
  have h := Frame.refl [.ecc, .mem, .pwr, .weave, .rings, .bezel, .loupe, .plait, .acc, .out, .free] s
  have hP : subParts [.ecc, .mem, .pwr, .weave, .rings, .bezel, .loupe, .plait, .acc, .out, .free] [.ecc, .mem, .pwr, .weave, .rings, .bezel, .loupe, .plait, .acc, .out, .free] = true := by decide
  unfold execAccTakeover
  show Frame [.ecc, .mem, .pwr, .weave, .rings, .bezel, .loupe, .plait, .acc, .out, .free] _ _
  repeat' first
    | with_reducible assumption
    | exact subParts_trans (by decide) hP
    | with_reducible apply frame_accept
    | with_reducible apply frame_actAccTakeover
    | intro _ _ _

theorem frame_execPairConfirm (outcome : PairOutcome) (s : State) :
    OutFrame [.clk, .mem, .pwr, .weave, .rings, .cfg, .bezel, .loupe, .plait, .acc, .out] s (execPairConfirm outcome s) := by
  have h := Frame.refl [.clk, .mem, .pwr, .weave, .rings, .cfg, .bezel, .loupe, .plait, .acc, .out] s
  have hP : subParts [.clk, .mem, .pwr, .weave, .rings, .cfg, .bezel, .loupe, .plait, .acc, .out] [.clk, .mem, .pwr, .weave, .rings, .cfg, .bezel, .loupe, .plait, .acc, .out] = true := by decide
  unfold execPairConfirm
  show Frame [.clk, .mem, .pwr, .weave, .rings, .cfg, .bezel, .loupe, .plait, .acc, .out] _ _
  try extract_lets
  repeat' first
    | with_reducible assumption
    | exact subParts_trans (by decide) hP
    | with_reducible apply frame_refuse
    | with_reducible apply frame_State_reach
    | with_reducible apply frame_logEvent
    | with_reducible apply frame_finish
    | (with_reducible refine Frame.of_mk _ _ _ _ _ _ _ _ _ _ _ _ _ _ _ _ _ _ _ _ _ _ _ _ _ _ _ _ _ hP ?_ rfl ?_ ?_ ?_ ?_ ?_ ?_ ?_ ?_ ?_ ?_ ?_ ?_ ?_ ?_ ?_ ?_ ?_ ?_ ?_ ?_ ?_ ?_ ?_ ?_ ?_ ?_ ?_ ?_ <;>
         first | with_reducible exact Or.inr rfl | exact Or.inl rfl | skip
       first
         | with_reducible assumption
         | with_reducible apply frame_State_modTok
         | with_reducible apply frame_logEvent
         | split
      )

theorem frame_actAccOwnerLock (lock : BitVec 1) (a : Act) (s : State) {P : List Part} {s0 : State} 
    (hP : subParts [.mem, .pwr, .rings, .plait, .acc, .out] P = true) (h : Frame P s0 s) : Frame P s0 (actAccOwnerLock lock a s) := by
  unfold actAccOwnerLock
  try extract_lets
  repeat' first
    | with_reducible assumption
    | exact subParts_trans (by decide) hP
    | with_reducible apply frame_refuse
    | with_reducible apply frame_finish
    | with_reducible apply Frame.ite <;> intro _
    | (with_reducible refine Frame.of_mk _ _ _ _ _ _ _ _ _ _ _ _ _ _ _ _ _ _ _ _ _ _ _ _ _ _ _ _ _ hP ?_ rfl ?_ ?_ ?_ ?_ ?_ ?_ ?_ ?_ ?_ ?_ ?_ ?_ ?_ ?_ ?_ ?_ ?_ ?_ ?_ ?_ ?_ ?_ ?_ ?_ ?_ ?_ ?_ ?_ <;>
         first | with_reducible exact Or.inr rfl | exact Or.inl rfl | skip
       with_reducible assumption)

theorem frame_execAccOwnerLock (d : Desc) (lock : BitVec 1) (s : State) :
    OutFrame [.ecc, .mem, .pwr, .weave, .rings, .bezel, .loupe, .plait, .acc, .out] s (execAccOwnerLock d lock s) := by
  have h := Frame.refl [.ecc, .mem, .pwr, .weave, .rings, .bezel, .loupe, .plait, .acc, .out] s
  have hP : subParts [.ecc, .mem, .pwr, .weave, .rings, .bezel, .loupe, .plait, .acc, .out] [.ecc, .mem, .pwr, .weave, .rings, .bezel, .loupe, .plait, .acc, .out] = true := by decide
  unfold execAccOwnerLock
  show Frame [.ecc, .mem, .pwr, .weave, .rings, .bezel, .loupe, .plait, .acc, .out] _ _
  repeat' first
    | with_reducible assumption
    | exact subParts_trans (by decide) hP
    | with_reducible apply frame_accept
    | with_reducible apply frame_actAccOwnerLock
    | intro _ _ _

theorem frame_actAccRelKey (a : Act) (s : State) {P : List Part} {s0 : State} 
    (hP : subParts [.mem, .nor, .pwr, .rings, .bezel, .loupe, .plait, .acc, .out] P = true) (h : Frame P s0 s) : Frame P s0 (actAccRelKey a s) := by
  unfold actAccRelKey
  try extract_lets
  repeat' first
    | with_reducible assumption
    | exact subParts_trans (by decide) hP
    | with_reducible apply frame_refuse
    | with_reducible apply frame_finish
    | with_reducible apply frame_accWrite
    | with_reducible apply Frame.ite <;> intro _
    | (with_reducible refine Frame.of_mk _ _ _ _ _ _ _ _ _ _ _ _ _ _ _ _ _ _ _ _ _ _ _ _ _ _ _ _ _ hP ?_ rfl ?_ ?_ ?_ ?_ ?_ ?_ ?_ ?_ ?_ ?_ ?_ ?_ ?_ ?_ ?_ ?_ ?_ ?_ ?_ ?_ ?_ ?_ ?_ ?_ ?_ ?_ ?_ ?_ <;>
         first | with_reducible exact Or.inr rfl | exact Or.inl rfl | skip
       with_reducible assumption)

theorem frame_execAccRelKey (d : Desc) (s : State) :
    OutFrame [.ecc, .mem, .nor, .pwr, .weave, .rings, .bezel, .loupe, .plait, .acc, .out] s (execAccRelKey d s) := by
  have h := Frame.refl [.ecc, .mem, .nor, .pwr, .weave, .rings, .bezel, .loupe, .plait, .acc, .out] s
  have hP : subParts [.ecc, .mem, .nor, .pwr, .weave, .rings, .bezel, .loupe, .plait, .acc, .out] [.ecc, .mem, .nor, .pwr, .weave, .rings, .bezel, .loupe, .plait, .acc, .out] = true := by decide
  unfold execAccRelKey
  show Frame [.ecc, .mem, .nor, .pwr, .weave, .rings, .bezel, .loupe, .plait, .acc, .out] _ _
  repeat' first
    | with_reducible assumption
    | exact subParts_trans (by decide) hP
    | with_reducible apply frame_accept
    | with_reducible apply frame_actAccRelKey
    | intro _ _ _

theorem frame_actAccRead (a : Act) (s : State) {P : List Part} {s0 : State} 
    (hP : subParts [.mem, .pwr, .rings, .plait, .out] P = true) (h : Frame P s0 s) : Frame P s0 (actAccRead a s) := by
  unfold actAccRead
  repeat' first
    | with_reducible assumption
    | with_reducible apply frame_finish

theorem frame_execAccRead (d : Desc) (s : State) :
    OutFrame [.ecc, .mem, .pwr, .weave, .rings, .bezel, .loupe, .plait, .out] s (execAccRead d s) := by
  have h := Frame.refl [.ecc, .mem, .pwr, .weave, .rings, .bezel, .loupe, .plait, .out] s
  have hP : subParts [.ecc, .mem, .pwr, .weave, .rings, .bezel, .loupe, .plait, .out] [.ecc, .mem, .pwr, .weave, .rings, .bezel, .loupe, .plait, .out] = true := by decide
  unfold execAccRead
  show Frame [.ecc, .mem, .pwr, .weave, .rings, .bezel, .loupe, .plait, .out] _ _
  repeat' first
    | with_reducible assumption
    | exact subParts_trans (by decide) hP
    | with_reducible apply frame_accept
    | with_reducible apply frame_actAccRead
    | intro _ _ _

theorem frame_actAccSearch (reason : BitVec 2) (a : Act) (s : State) {P : List Part} {s0 : State} 
    (hP : subParts [.mem, .pwr, .rings, .plait, .acc, .out] P = true) (h : Frame P s0 s) : Frame P s0 (actAccSearch reason a s) := by
  unfold actAccSearch
  repeat' first
    | with_reducible assumption
    | exact subParts_trans (by decide) hP
    | with_reducible apply frame_refuse
    | with_reducible apply frame_searchStart
    | with_reducible apply Frame.ite <;> intro _

theorem frame_execAccSearch (d : Desc) (reason : BitVec 2) (s : State) :
    OutFrame [.ecc, .mem, .pwr, .weave, .rings, .bezel, .loupe, .plait, .acc, .out] s (execAccSearch d reason s) := by
  have h := Frame.refl [.ecc, .mem, .pwr, .weave, .rings, .bezel, .loupe, .plait, .acc, .out] s
  have hP : subParts [.ecc, .mem, .pwr, .weave, .rings, .bezel, .loupe, .plait, .acc, .out] [.ecc, .mem, .pwr, .weave, .rings, .bezel, .loupe, .plait, .acc, .out] = true := by decide
  unfold execAccSearch
  show Frame [.ecc, .mem, .pwr, .weave, .rings, .bezel, .loupe, .plait, .acc, .out] _ _
  repeat' first
    | with_reducible assumption
    | exact subParts_trans (by decide) hP
    | with_reducible apply frame_accept
    | with_reducible apply frame_actAccSearch
    | intro _ _ _

theorem frame_execGuardPoll (s : State) :
    OutFrame [.pwr, .acc, .out, .free] s (execGuardPoll s) := by
  have h := Frame.refl [.pwr, .acc, .out, .free] s
  have hP : subParts [.pwr, .acc, .out, .free] [.pwr, .acc, .out, .free] = true := by decide
  unfold execGuardPoll
  show Frame [.pwr, .acc, .out, .free] _ _
  try extract_lets
  repeat' first
    | with_reducible assumption
    | exact subParts_trans (by decide) hP
    | with_reducible apply frame_pollStart
    | with_reducible apply frame_State_modDom
    | with_reducible apply Frame.ite <;> intro _

theorem frame_execGuardRateChange (s : State) :
    OutFrame [.clk, .weave, .rings, .bezel, .loupe, .plait, .acc, .out] s (execGuardRateChange s) := by
  have h := Frame.refl [.clk, .weave, .rings, .bezel, .loupe, .plait, .acc, .out] s
  have hP : subParts [.clk, .weave, .rings, .bezel, .loupe, .plait, .acc, .out] [.clk, .weave, .rings, .bezel, .loupe, .plait, .acc, .out] = true := by decide
  unfold execGuardRateChange
  show Frame [.clk, .weave, .rings, .bezel, .loupe, .plait, .acc, .out] _ _
  try extract_lets
  repeat' first
    | with_reducible assumption
    | exact subParts_trans (by decide) hP
    | with_reducible apply frame_logEvent
    | with_reducible apply Frame.ite <;> intro _
    | (with_reducible refine Frame.of_mk _ _ _ _ _ _ _ _ _ _ _ _ _ _ _ _ _ _ _ _ _ _ _ _ _ _ _ _ _ hP ?_ rfl ?_ ?_ ?_ ?_ ?_ ?_ ?_ ?_ ?_ ?_ ?_ ?_ ?_ ?_ ?_ ?_ ?_ ?_ ?_ ?_ ?_ ?_ ?_ ?_ ?_ ?_ ?_ ?_ <;>
         first | with_reducible exact Or.inr rfl | exact Or.inl rfl | skip
       with_reducible apply frame_State_reach)

theorem frame_execSearchBurst (s : State) :
    OutFrame [.clk, .pwr, .weave, .acc, .out, .free] s (execSearchBurst s) := by
  have h := Frame.refl [.clk, .pwr, .weave, .acc, .out, .free] s
  have hP : subParts [.clk, .pwr, .weave, .acc, .out, .free] [.clk, .pwr, .weave, .acc, .out, .free] = true := by decide
  unfold execSearchBurst
  show Frame [.clk, .pwr, .weave, .acc, .out, .free] _ _
  try extract_lets
  repeat' first
    | with_reducible assumption
    | exact subParts_trans (by decide) hP
    | with_reducible apply frame_startWake
    | with_reducible apply frame_pollStart
    | with_reducible apply Frame.ite <;> intro _
    | (with_reducible refine Frame.of_mk _ _ _ _ _ _ _ _ _ _ _ _ _ _ _ _ _ _ _ _ _ _ _ _ _ _ _ _ _ hP ?_ rfl ?_ ?_ ?_ ?_ ?_ ?_ ?_ ?_ ?_ ?_ ?_ ?_ ?_ ?_ ?_ ?_ ?_ ?_ ?_ ?_ ?_ ?_ ?_ ?_ ?_ ?_ ?_ ?_ <;>
         first | with_reducible exact Or.inr rfl | exact Or.inl rfl | skip
       first
         | with_reducible apply frame_State_reach
         | split
      )

theorem frame_execSearchExpiry (s : State) :
    OutFrame [.clk, .mem, .pwr, .weave, .rings, .plait, .acc, .out] s (execSearchExpiry s) := by
  have h := Frame.refl [.clk, .mem, .pwr, .weave, .rings, .plait, .acc, .out] s
  have hP : subParts [.clk, .mem, .pwr, .weave, .rings, .plait, .acc, .out] [.clk, .mem, .pwr, .weave, .rings, .plait, .acc, .out] = true := by decide
  unfold execSearchExpiry
  show Frame [.clk, .mem, .pwr, .weave, .rings, .plait, .acc, .out] _ _
  try extract_lets
  repeat' first
    | with_reducible assumption
    | exact subParts_trans (by decide) hP
    | with_reducible apply frame_searchEnd
    | with_reducible apply frame_State_reach
    | (with_reducible refine Frame.of_mk _ _ _ _ _ _ _ _ _ _ _ _ _ _ _ _ _ _ _ _ _ _ _ _ _ _ _ _ _ hP ?_ rfl ?_ ?_ ?_ ?_ ?_ ?_ ?_ ?_ ?_ ?_ ?_ ?_ ?_ ?_ ?_ ?_ ?_ ?_ ?_ ?_ ?_ ?_ ?_ ?_ ?_ ?_ ?_ ?_ <;>
         first | with_reducible exact Or.inr rfl | exact Or.inl rfl | skip
       split)

theorem frame_execLockoutEnd (s : State) :
    OutFrame [.clk, .mem, .nor, .pwr, .weave, .rings, .bezel, .loupe, .plait, .acc, .out] s (execLockoutEnd s) := by
  have h := Frame.refl [.clk, .mem, .nor, .pwr, .weave, .rings, .bezel, .loupe, .plait, .acc, .out] s
  have hP : subParts [.clk, .mem, .nor, .pwr, .weave, .rings, .bezel, .loupe, .plait, .acc, .out] [.clk, .mem, .nor, .pwr, .weave, .rings, .bezel, .loupe, .plait, .acc, .out] = true := by decide
  unfold execLockoutEnd
  show Frame [.clk, .mem, .nor, .pwr, .weave, .rings, .bezel, .loupe, .plait, .acc, .out] _ _
  try extract_lets
  repeat' first
    | with_reducible assumption
    | exact subParts_trans (by decide) hP
    | with_reducible apply frame_accWrite
    | with_reducible apply frame_logEvent
    | with_reducible apply frame_searchStart
    | with_reducible apply Frame.ite <;> intro _
    | (with_reducible refine Frame.of_mk _ _ _ _ _ _ _ _ _ _ _ _ _ _ _ _ _ _ _ _ _ _ _ _ _ _ _ _ _ hP ?_ rfl ?_ ?_ ?_ ?_ ?_ ?_ ?_ ?_ ?_ ?_ ?_ ?_ ?_ ?_ ?_ ?_ ?_ ?_ ?_ ?_ ?_ ?_ ?_ ?_ ?_ ?_ ?_ ?_ <;>
         first | with_reducible exact Or.inr rfl | exact Or.inl rfl | skip
       first
         | with_reducible apply frame_State_reach
         | split
      )

theorem frame_execOwnerSessionExpiry (s : State) :
    OutFrame [.clk, .weave, .acc] s (execOwnerSessionExpiry s) := by
  have h := Frame.refl [.clk, .weave, .acc] s
  have hP : subParts [.clk, .weave, .acc] [.clk, .weave, .acc] = true := by decide
  unfold execOwnerSessionExpiry
  show Frame [.clk, .weave, .acc] _ _
  try extract_lets
  repeat' first
    | with_reducible assumption
    | exact subParts_trans (by decide) hP
    | (with_reducible refine Frame.of_mk _ _ _ _ _ _ _ _ _ _ _ _ _ _ _ _ _ _ _ _ _ _ _ _ _ _ _ _ _ hP ?_ rfl ?_ ?_ ?_ ?_ ?_ ?_ ?_ ?_ ?_ ?_ ?_ ?_ ?_ ?_ ?_ ?_ ?_ ?_ ?_ ?_ ?_ ?_ ?_ ?_ ?_ ?_ ?_ ?_ <;>
         first | with_reducible exact Or.inr rfl | exact Or.inl rfl | skip
       first
         | with_reducible apply frame_State_reach
         | split
      )

theorem frame_execAccessSessionEnd (s : State) :
    OutFrame [.clk, .weave, .acc] s (execAccessSessionEnd s) := by
  have h := Frame.refl [.clk, .weave, .acc] s
  have hP : subParts [.clk, .weave, .acc] [.clk, .weave, .acc] = true := by decide
  unfold execAccessSessionEnd
  show Frame [.clk, .weave, .acc] _ _
  repeat' first
    | with_reducible assumption
    | exact subParts_trans (by decide) hP
    | with_reducible apply frame_sessionEnd
    | with_reducible apply frame_State_reach
    | with_reducible apply Frame.ite <;> intro _

theorem frame_execReleaseTx (s : State) :
    OutFrame [.clk, .mem, .nor, .pwr, .weave, .rings, .bezel, .loupe, .can, .net, .plait, .acc, .out] s (execReleaseTx s) := by
  have h := Frame.refl [.clk, .mem, .nor, .pwr, .weave, .rings, .bezel, .loupe, .can, .net, .plait, .acc, .out] s
  have hP : subParts [.clk, .mem, .nor, .pwr, .weave, .rings, .bezel, .loupe, .can, .net, .plait, .acc, .out] [.clk, .mem, .nor, .pwr, .weave, .rings, .bezel, .loupe, .can, .net, .plait, .acc, .out] = true := by decide
  unfold execReleaseTx
  show Frame [.clk, .mem, .nor, .pwr, .weave, .rings, .bezel, .loupe, .can, .net, .plait, .acc, .out] _ _
  try extract_lets
  repeat' first
    | with_reducible assumption
    | exact subParts_trans (by decide) hP
    | with_reducible apply frame_relSend
    | with_reducible apply frame_State_reach
    | with_reducible apply Frame.ite <;> intro _
    | (with_reducible refine Frame.of_mk _ _ _ _ _ _ _ _ _ _ _ _ _ _ _ _ _ _ _ _ _ _ _ _ _ _ _ _ _ hP ?_ rfl ?_ ?_ ?_ ?_ ?_ ?_ ?_ ?_ ?_ ?_ ?_ ?_ ?_ ?_ ?_ ?_ ?_ ?_ ?_ ?_ ?_ ?_ ?_ ?_ ?_ ?_ ?_ ?_ <;>
         first | with_reducible exact Or.inr rfl | exact Or.inl rfl | skip
       first
         | with_reducible assumption
         | split
      )

theorem frame_execReleaseAnswerRx (counter : BitVec 32) (highest : BitVec 32) (status : BitVec 8) (tagOk : Bool) (s : State) :
    OutFrame [.mem, .nor, .pwr, .rings, .bezel, .loupe, .can, .net, .plait, .acc, .out] s (execReleaseAnswerRx counter highest status tagOk s) := by
  have h := Frame.refl [.mem, .nor, .pwr, .rings, .bezel, .loupe, .can, .net, .plait, .acc, .out] s
  have hP : subParts [.mem, .nor, .pwr, .rings, .bezel, .loupe, .can, .net, .plait, .acc, .out] [.mem, .nor, .pwr, .rings, .bezel, .loupe, .can, .net, .plait, .acc, .out] = true := by decide
  unfold execReleaseAnswerRx
  show Frame [.mem, .nor, .pwr, .rings, .bezel, .loupe, .can, .net, .plait, .acc, .out] _ _
  try extract_lets
  repeat' first
    | with_reducible assumption
    | exact subParts_trans (by decide) hP
    | with_reducible apply frame_logEvent
    | with_reducible apply frame_relSend
    | with_reducible apply Frame.ite <;> intro _
    | (with_reducible refine Frame.of_mk _ _ _ _ _ _ _ _ _ _ _ _ _ _ _ _ _ _ _ _ _ _ _ _ _ _ _ _ _ hP ?_ rfl ?_ ?_ ?_ ?_ ?_ ?_ ?_ ?_ ?_ ?_ ?_ ?_ ?_ ?_ ?_ ?_ ?_ ?_ ?_ ?_ ?_ ?_ ?_ ?_ ?_ ?_ ?_ ?_ <;>
         first | with_reducible exact Or.inr rfl | exact Or.inl rfl | skip
       with_reducible assumption)
    | extract_lets
    | dsimp +zetaDelta only

end Sys2Proof.Machine
end

