-- ==== Sys2Proof/Laws/FrameImage.lean ====
section
/-! SUPPORT. Which parts of the state the operations of Machine/Image.lean may change. -/

namespace Sys2Proof.Machine

set_option linter.unusedTactic false
set_option linter.unreachableTactic false

theorem frame_imageRead (src : ImageSrc) (s : State) (off : Nat) (n : Nat) {P : List Part} {s0 : State} 
    (hP : subParts [.ecc, .mem, .rings, .bezel, .loupe, .plait, .out] P = true) (h : Frame P s0 s) : Frame P s0 (imageRead src s off n).2 := by
  unfold imageRead
  try extract_lets
  repeat' first
    | with_reducible assumption
    | with_reducible apply frame_readMem
    | (with_reducible refine Frame.of_mk _ _ _ _ _ _ _ _ _ _ _ _ _ _ _ _ _ _ _ _ _ _ _ _ _ _ _ _ _ hP ?_ rfl ?_ ?_ ?_ ?_ ?_ ?_ ?_ ?_ ?_ ?_ ?_ ?_ ?_ ?_ ?_ ?_ ?_ ?_ ?_ ?_ ?_ ?_ ?_ ?_ ?_ ?_ ?_ ?_ <;>
         first | with_reducible exact Or.inr rfl | exact Or.inl rfl | skip
       split)
    | extract_lets

theorem frame_imageRecs (src : ImageSrc) (stop : Nat) (x0 : Nat) (x1 : State) (x2 : Nat) (x3 : List Rec) {P : List Part} {s0 : State} 
    (hP : subParts [.ecc, .mem, .rings, .bezel, .loupe, .plait, .out] P = true) (h : Frame P s0 x1) : Frame P s0 (imageRecs src stop x0 x1 x2 x3).2 := by
  induction x0 generalizing src stop x1 x2 x3 with
  | zero =>
    unfold imageRecs
    try extract_lets
    repeat' first
      | with_reducible assumption
      | with_reducible apply ih
      | with_reducible apply frame_imageRead
      | with_reducible apply Frame.ite_snd <;> intro _
      | (with_reducible refine Frame.of_mk _ _ _ _ _ _ _ _ _ _ _ _ _ _ _ _ _ _ _ _ _ _ _ _ _ _ _ _ _ hP ?_ rfl ?_ ?_ ?_ ?_ ?_ ?_ ?_ ?_ ?_ ?_ ?_ ?_ ?_ ?_ ?_ ?_ ?_ ?_ ?_ ?_ ?_ ?_ ?_ ?_ ?_ ?_ ?_ ?_ <;>
           first | with_reducible exact Or.inr rfl | exact Or.inl rfl | skip
         split)
      | extract_lets
  | succ k ih =>
    unfold imageRecs
    try extract_lets
    repeat' first
      | with_reducible assumption
      | with_reducible apply ih
      | with_reducible apply frame_imageRead
      | with_reducible apply Frame.ite_snd <;> intro _
      | (with_reducible refine Frame.of_mk _ _ _ _ _ _ _ _ _ _ _ _ _ _ _ _ _ _ _ _ _ _ _ _ _ _ _ _ _ hP ?_ rfl ?_ ?_ ?_ ?_ ?_ ?_ ?_ ?_ ?_ ?_ ?_ ?_ ?_ ?_ ?_ ?_ ?_ ?_ ?_ ?_ ?_ ?_ ?_ ?_ ?_ ?_ ?_ ?_ <;>
           first | with_reducible exact Or.inr rfl | exact Or.inl rfl | skip
         split)
      | extract_lets

theorem frame_readImage (src : ImageSrc) (limit : Nat) (s : State) {P : List Part} {s0 : State} 
    (hP : subParts [.ecc, .mem, .rings, .bezel, .loupe, .plait, .out] P = true) (h : Frame P s0 s) : Frame P s0 (readImage src limit s).2 := by
  unfold readImage
  try extract_lets
  repeat' first
    | with_reducible assumption
    | with_reducible apply frame_imageRead
    | with_reducible apply frame_imageRecs
    | with_reducible apply Frame.ite_snd <;> intro _
    | (with_reducible refine Frame.of_mk _ _ _ _ _ _ _ _ _ _ _ _ _ _ _ _ _ _ _ _ _ _ _ _ _ _ _ _ _ hP ?_ rfl ?_ ?_ ?_ ?_ ?_ ?_ ?_ ?_ ?_ ?_ ?_ ?_ ?_ ?_ ?_ ?_ ?_ ?_ ?_ ?_ ?_ ?_ ?_ ?_ ?_ ?_ ?_ ?_ <;>
         first | with_reducible exact Or.inr rfl | exact Or.inl rfl | skip
       split)
    | extract_lets

theorem frame_clearStage (s : State) {P : List Part} {s0 : State} 
    (hP : subParts [.cfg] P = true) (h : Frame P s0 s) : Frame P s0 (clearStage s) := by
  unfold clearStage
  try extract_lets
  repeat' first
    | (with_reducible refine Frame.of_mk _ _ _ _ _ _ _ _ _ _ _ _ _ _ _ _ _ _ _ _ _ _ _ _ _ _ _ _ _ hP ?_ rfl ?_ ?_ ?_ ?_ ?_ ?_ ?_ ?_ ?_ ?_ ?_ ?_ ?_ ?_ ?_ ?_ ?_ ?_ ?_ ?_ ?_ ?_ ?_ ?_ ?_ ?_ ?_ ?_ <;>
         first | with_reducible exact Or.inr rfl | exact Or.inl rfl | skip
       with_reducible assumption)

end Sys2Proof.Machine
end

