-- ==== Sys2Proof/Laws/FrameBezel.lean ====
section
/-! SUPPORT. Which parts of the state the operations of Machine/Bezel.lean may change. -/

namespace Sys2Proof.Machine

set_option linter.unusedTactic false
set_option linter.unreachableTactic false

theorem frame_actBezelReclaim (hso : BitVec 64) (led : BitVec 12) (fioLo : BitVec 32) (fioHi : BitVec 16) (a : Act) (s : State) {P : List Part} {s0 : State} 
    (hP : subParts [.mem, .pwr, .rings, .bezel, .hso, .edge, .led, .fio, .plait, .out, .free] P = true) (h : Frame P s0 s) : Frame P s0 (actBezelReclaim hso led fioLo fioHi a s) := by
  unfold actBezelReclaim
  try extract_lets
  repeat' first
    | with_reducible assumption
    | exact subParts_trans (by decide) hP
    | with_reducible apply Frame.foldl
    | with_reducible apply frame_fioReclaim
    | with_reducible apply frame_ledReclaim
    | with_reducible apply frame_hsoReclaim
    | with_reducible apply frame_finish
    | intro _ _ _

theorem frame_execBezelReclaim (d : Desc) (hso : BitVec 64) (led : BitVec 12) (fioLo : BitVec 32) (fioHi : BitVec 16) (s : State) :
    OutFrame [.ecc, .mem, .pwr, .weave, .rings, .bezel, .loupe, .hso, .edge, .led, .fio, .plait, .out, .free] s (execBezelReclaim d hso led fioLo fioHi s) := by
  have h := Frame.refl [.ecc, .mem, .pwr, .weave, .rings, .bezel, .loupe, .hso, .edge, .led, .fio, .plait, .out, .free] s
  have hP : subParts [.ecc, .mem, .pwr, .weave, .rings, .bezel, .loupe, .hso, .edge, .led, .fio, .plait, .out, .free] [.ecc, .mem, .pwr, .weave, .rings, .bezel, .loupe, .hso, .edge, .led, .fio, .plait, .out, .free] = true := by decide
  unfold execBezelReclaim
  show Frame [.ecc, .mem, .pwr, .weave, .rings, .bezel, .loupe, .hso, .edge, .led, .fio, .plait, .out, .free] _ _
  repeat' first
    | with_reducible assumption
    | exact subParts_trans (by decide) hP
    | with_reducible apply frame_accept
    | with_reducible apply frame_actBezelReclaim
    | intro _ _ _

theorem frame_actBezelLogRead (a : Act) (s : State) {P : List Part} {s0 : State} 
    (hP : subParts [.ecc, .mem, .pwr, .rings, .bezel, .loupe, .plait, .out] P = true) (h : Frame P s0 s) : Frame P s0 (actBezelLogRead a s) := by
  unfold actBezelLogRead
  try extract_lets
  repeat' first
    | with_reducible assumption
    | exact subParts_trans (by decide) hP
    | with_reducible apply frame_refuse
    | with_reducible apply frame_putBytes
    | with_reducible apply frame_finishAs
    | with_reducible apply frame_finish
    | with_reducible apply Frame.ite <;> intro _

theorem frame_execBezelLogRead (d : Desc) (s : State) :
    OutFrame [.ecc, .mem, .pwr, .weave, .rings, .bezel, .loupe, .plait, .out] s (execBezelLogRead d s) := by
  have h := Frame.refl [.ecc, .mem, .pwr, .weave, .rings, .bezel, .loupe, .plait, .out] s
  have hP : subParts [.ecc, .mem, .pwr, .weave, .rings, .bezel, .loupe, .plait, .out] [.ecc, .mem, .pwr, .weave, .rings, .bezel, .loupe, .plait, .out] = true := by decide
  unfold execBezelLogRead
  show Frame [.ecc, .mem, .pwr, .weave, .rings, .bezel, .loupe, .plait, .out] _ _
  repeat' first
    | with_reducible assumption
    | exact subParts_trans (by decide) hP
    | with_reducible apply frame_accept
    | with_reducible apply frame_actBezelLogRead
    | intro _ _ _

theorem frame_actBezelResetReq (limp : BitVec 1) (a : Act) (s : State) {P : List Part} {s0 : State} 
    (hP : subParts [.mem, .pwr, .rings, .bezel, .plait, .out] P = true) (h : Frame P s0 s) : Frame P s0 (actBezelResetReq limp a s) := by
  unfold actBezelResetReq
  try extract_lets
  repeat' first
    | exact subParts_trans (by decide) hP
    | with_reducible apply frame_finish
    | (with_reducible refine Frame.of_mk _ _ _ _ _ _ _ _ _ _ _ _ _ _ _ _ _ _ _ _ _ _ _ _ _ _ _ _ _ hP ?_ rfl ?_ ?_ ?_ ?_ ?_ ?_ ?_ ?_ ?_ ?_ ?_ ?_ ?_ ?_ ?_ ?_ ?_ ?_ ?_ ?_ ?_ ?_ ?_ ?_ ?_ ?_ ?_ ?_ <;>
         first | with_reducible exact Or.inr rfl | exact Or.inl rfl | skip
       with_reducible assumption)

theorem frame_execBezelResetReq (d : Desc) (limp : BitVec 1) (s : State) :
    OutFrame [.ecc, .mem, .pwr, .weave, .rings, .bezel, .loupe, .plait, .out] s (execBezelResetReq d limp s) := by
  have h := Frame.refl [.ecc, .mem, .pwr, .weave, .rings, .bezel, .loupe, .plait, .out] s
  have hP : subParts [.ecc, .mem, .pwr, .weave, .rings, .bezel, .loupe, .plait, .out] [.ecc, .mem, .pwr, .weave, .rings, .bezel, .loupe, .plait, .out] = true := by decide
  unfold execBezelResetReq
  show Frame [.ecc, .mem, .pwr, .weave, .rings, .bezel, .loupe, .plait, .out] _ _
  repeat' first
    | with_reducible assumption
    | exact subParts_trans (by decide) hP
    | with_reducible apply frame_accept
    | with_reducible apply frame_actBezelResetReq
    | intro _ _ _

theorem frame_execHoldWindowExpiry (s : State) :
    OutFrame [.clk, .mem, .pwr, .weave, .rings, .bezel, .loupe, .hso, .edge, .led, .fio, .vlv, .facet, .plait, .out] s (execHoldWindowExpiry s) := by
  have h := Frame.refl [.clk, .mem, .pwr, .weave, .rings, .bezel, .loupe, .hso, .edge, .led, .fio, .vlv, .facet, .plait, .out] s
  have hP : subParts [.clk, .mem, .pwr, .weave, .rings, .bezel, .loupe, .hso, .edge, .led, .fio, .vlv, .facet, .plait, .out] [.clk, .mem, .pwr, .weave, .rings, .bezel, .loupe, .hso, .edge, .led, .fio, .vlv, .facet, .plait, .out] = true := by decide
  unfold execHoldWindowExpiry
  show Frame [.clk, .mem, .pwr, .weave, .rings, .bezel, .loupe, .hso, .edge, .led, .fio, .vlv, .facet, .plait, .out] _ _
  try extract_lets
  repeat' first
    | with_reducible assumption
    | exact subParts_trans (by decide) hP
    | with_reducible apply frame_State_reach
    | with_reducible apply frame_orphanWhere
    | with_reducible apply frame_logEvent
    | with_reducible apply frame_clearHeld
    | (with_reducible refine Frame.of_mk _ _ _ _ _ _ _ _ _ _ _ _ _ _ _ _ _ _ _ _ _ _ _ _ _ _ _ _ _ hP ?_ rfl ?_ ?_ ?_ ?_ ?_ ?_ ?_ ?_ ?_ ?_ ?_ ?_ ?_ ?_ ?_ ?_ ?_ ?_ ?_ ?_ ?_ ?_ ?_ ?_ ?_ ?_ ?_ ?_ <;>
         first | with_reducible exact Or.inr rfl | exact Or.inl rfl | skip
       split)

theorem frame_limpCommand (s : State) (r : Rec) {P : List Part} {s0 : State} 
    (hP : subParts [.mem, .pwr, .rings, .bezel, .hso, .edge, .led, .fio, .plait, .out] P = true) (h : Frame P s0 s) : Frame P s0 (limpCommand s r) := by
  unfold limpCommand
  try extract_lets
  repeat' first
    | with_reducible assumption
    | exact subParts_trans (by decide) hP
    | with_reducible apply frame_hsoApply
    | with_reducible apply frame_ledApply
    | with_reducible apply frame_fioApply
    | with_reducible apply Frame.ite <;> intro _
    | (with_reducible refine Frame.of_mk _ _ _ _ _ _ _ _ _ _ _ _ _ _ _ _ _ _ _ _ _ _ _ _ _ _ _ _ _ hP ?_ rfl ?_ ?_ ?_ ?_ ?_ ?_ ?_ ?_ ?_ ?_ ?_ ?_ ?_ ?_ ?_ ?_ ?_ ?_ ?_ ?_ ?_ ?_ ?_ ?_ ?_ ?_ ?_ ?_ <;>
         first | with_reducible exact Or.inr rfl | exact Or.inl rfl | skip
       split)

theorem frame_execLimpMapTick (s : State) :
    OutFrame [.mem, .pwr, .rings, .bezel, .hso, .edge, .led, .fio, .plait, .out] s (execLimpMapTick s) := by
  have h := Frame.refl [.mem, .pwr, .rings, .bezel, .hso, .edge, .led, .fio, .plait, .out] s
  have hP : subParts [.mem, .pwr, .rings, .bezel, .hso, .edge, .led, .fio, .plait, .out] [.mem, .pwr, .rings, .bezel, .hso, .edge, .led, .fio, .plait, .out] = true := by decide
  unfold execLimpMapTick
  show Frame [.mem, .pwr, .rings, .bezel, .hso, .edge, .led, .fio, .plait, .out] _ _
  try extract_lets
  repeat' first
    | with_reducible assumption
    | with_reducible apply frame_limpCommand
    | with_reducible apply Frame.ite <;> intro _
    | intro _ _ _
    | (with_reducible refine Frame.of_mk _ _ _ _ _ _ _ _ _ _ _ _ _ _ _ _ _ _ _ _ _ _ _ _ _ _ _ _ _ hP ?_ rfl ?_ ?_ ?_ ?_ ?_ ?_ ?_ ?_ ?_ ?_ ?_ ?_ ?_ ?_ ?_ ?_ ?_ ?_ ?_ ?_ ?_ ?_ ?_ ?_ ?_ ?_ ?_ ?_ <;>
         first | with_reducible exact Or.inr rfl | exact Or.inl rfl | skip
       with_reducible apply Frame.foldl)

theorem frame_execMirrorEraseDone (s : State) :
    OutFrame [.nor, .bezel] s (execMirrorEraseDone s) := by
  have h := Frame.refl [.nor, .bezel] s
  have hP : subParts [.nor, .bezel] [.nor, .bezel] = true := by decide
  unfold execMirrorEraseDone
  show Frame [.nor, .bezel] _ _
  try extract_lets
  repeat' first
    | with_reducible assumption
    | with_reducible apply Frame.ite <;> intro _
    | (with_reducible refine Frame.of_mk _ _ _ _ _ _ _ _ _ _ _ _ _ _ _ _ _ _ _ _ _ _ _ _ _ _ _ _ _ hP ?_ rfl ?_ ?_ ?_ ?_ ?_ ?_ ?_ ?_ ?_ ?_ ?_ ?_ ?_ ?_ ?_ ?_ ?_ ?_ ?_ ?_ ?_ ?_ ?_ ?_ ?_ ?_ ?_ ?_ <;>
         first | with_reducible exact Or.inr rfl | exact Or.inl rfl | skip
       with_reducible assumption)

theorem frame_norStop (s : State) {P : List Part} {s0 : State} 
    (hP : subParts [.nor, .cfg, .loupe, .upd] P = true) (h : Frame P s0 s) : Frame P s0 (norStop s) := by
  unfold norStop
  try extract_lets
  repeat' first
    | (with_reducible refine Frame.of_mk _ _ _ _ _ _ _ _ _ _ _ _ _ _ _ _ _ _ _ _ _ _ _ _ _ _ _ _ _ hP ?_ rfl ?_ ?_ ?_ ?_ ?_ ?_ ?_ ?_ ?_ ?_ ?_ ?_ ?_ ?_ ?_ ?_ ?_ ?_ ?_ ?_ ?_ ?_ ?_ ?_ ?_ ?_ ?_ ?_ <;>
         first | with_reducible exact Or.inr rfl | exact Or.inl rfl | skip
       with_reducible assumption)

theorem frame_execSupplyLoss (s : State) (holdUpLeft : Bool) :
    OutFrame [.mem, .nor, .pwr, .rings, .cfg, .bezel, .loupe, .hso, .edge, .led, .mtx, .fio, .vlv, .facet, .plait, .upd, .out] s (execSupplyLoss holdUpLeft s) := by
  have h := Frame.refl [.mem, .nor, .pwr, .rings, .cfg, .bezel, .loupe, .hso, .edge, .led, .mtx, .fio, .vlv, .facet, .plait, .upd, .out] s
  have hP : subParts [.mem, .nor, .pwr, .rings, .cfg, .bezel, .loupe, .hso, .edge, .led, .mtx, .fio, .vlv, .facet, .plait, .upd, .out] [.mem, .nor, .pwr, .rings, .cfg, .bezel, .loupe, .hso, .edge, .led, .mtx, .fio, .vlv, .facet, .plait, .upd, .out] = true := by decide
  show Frame [.mem, .nor, .pwr, .rings, .cfg, .bezel, .loupe, .hso, .edge, .led, .mtx, .fio, .vlv, .facet, .plait, .upd, .out] _ _
  have lost : ∀ u, Frame [.mem, .nor, .pwr, .rings, .cfg, .bezel, .loupe, .hso, .edge, .led, .mtx, .fio, .vlv, .facet, .plait, .upd, .out] s u → Frame [.mem, .nor, .pwr, .rings, .cfg, .bezel, .loupe, .hso, .edge, .led, .mtx, .fio, .vlv, .facet, .plait, .upd, .out] s { u with pwr.supplyLost := true } := by
    intro u k
    (with_reducible refine Frame.of_mk _ _ _ _ _ _ _ _ _ _ _ _ _ _ _ _ _ _ _ _ _ _ _ _ _ _ _ _ _ hP ?_ rfl ?_ ?_ ?_ ?_ ?_ ?_ ?_ ?_ ?_ ?_ ?_ ?_ ?_ ?_ ?_ ?_ ?_ ?_ ?_ ?_ ?_ ?_ ?_ ?_ ?_ ?_ ?_ ?_ <;>
      first | with_reducible exact Or.inr rfl | exact Or.inl rfl | skip)
    with_reducible exact k
  have log : ∀ u, Frame [.mem, .nor, .pwr, .rings, .cfg, .bezel, .loupe, .hso, .edge, .led, .mtx, .fio, .vlv, .facet, .plait, .upd, .out] s u →
      Frame [.mem, .nor, .pwr, .rings, .cfg, .bezel, .loupe, .hso, .edge, .led, .mtx, .fio, .vlv, .facet, .plait, .upd, .out] s (if holdUpLeft then mirrorLog u else { u with bezel.mirrorSkipped := true }) := by
    intro u k
    refine Frame.ite (fun _ => frame_mirrorLog _ (subParts_trans (by decide) hP) k) (fun _ => ?_)
    (with_reducible refine Frame.of_mk _ _ _ _ _ _ _ _ _ _ _ _ _ _ _ _ _ _ _ _ _ _ _ _ _ _ _ _ _ hP ?_ rfl ?_ ?_ ?_ ?_ ?_ ?_ ?_ ?_ ?_ ?_ ?_ ?_ ?_ ?_ ?_ ?_ ?_ ?_ ?_ ?_ ?_ ?_ ?_ ?_ ?_ ?_ ?_ ?_ <;>
      first | with_reducible exact Or.inr rfl | exact Or.inl rfl | skip)
    with_reducible exact k
  refine lost _ (log _ ?_)
  refine frame_clearHeld _ (subParts_trans (by decide) hP) ?_
  refine frame_vlvAllOff _ _ (subParts_trans (by decide) hP) ?_
  refine frame_fioAllOff _ (subParts_trans (by decide) hP) ?_
  refine frame_lightsOff _ (subParts_trans (by decide) hP) ?_
  refine frame_hsoAllOff _ (subParts_trans (by decide) hP) ?_
  refine frame_norStop _ (subParts_trans (by decide) hP) ?_
  exact frame_logEvent _ _ _ (subParts_trans (by decide) hP) h

end Sys2Proof.Machine
end

