-- ==== Sys2Proof/Laws/FrameCan.lean ====
section
/-! SUPPORT. Which parts of the state the operations of Machine/Can.lean may change. -/

namespace Sys2Proof.Machine

set_option linter.unusedTactic false
set_option linter.unreachableTactic false

theorem frame_actCanTx (ch : BitVec 4) (fmt : BitVec 2) (brs : BitVec 1) (ide : BitVec 1) (rtr : BitVec 1) (cf : BitVec 3) (useCf : BitVec 1) (rtrDlc : BitVec 4) (id : BitVec 29) (sdt : BitVec 8) (vcid : BitVec 8) (sec : BitVec 1) (af : BitVec 32) (a : Act) (s : State) {P : List Part} {s0 : State} 
    (hP : subParts [.mem, .pwr, .rings, .bezel, .loupe, .can, .net, .plait, .out] P = true) (h : Frame P s0 s) : Frame P s0 (actCanTx ch fmt brs ide rtr cf useCf rtrDlc id sdt vcid sec af a s) := by
  unfold actCanTx
  try extract_lets
  repeat' first
    | with_reducible assumption
    | exact subParts_trans (by decide) hP
    | with_reducible apply frame_refuse
    | with_reducible apply frame_canQueue
    | with_reducible apply frame_netEval
    | with_reducible apply Frame.ite <;> intro _

theorem frame_execCanTx (d : Desc) (ch : BitVec 4) (fmt : BitVec 2) (brs : BitVec 1) (ide : BitVec 1) (rtr : BitVec 1) (cf : BitVec 3) (useCf : BitVec 1) (rtrDlc : BitVec 4) (id : BitVec 29) (sdt : BitVec 8) (vcid : BitVec 8) (sec : BitVec 1) (af : BitVec 32) (s : State) :
    OutFrame [.ecc, .mem, .pwr, .weave, .rings, .bezel, .loupe, .can, .net, .plait, .out] s (execCanTx d ch fmt brs ide rtr cf useCf rtrDlc id sdt vcid sec af s) := by
  have h := Frame.refl [.ecc, .mem, .pwr, .weave, .rings, .bezel, .loupe, .can, .net, .plait, .out] s
  have hP : subParts [.ecc, .mem, .pwr, .weave, .rings, .bezel, .loupe, .can, .net, .plait, .out] [.ecc, .mem, .pwr, .weave, .rings, .bezel, .loupe, .can, .net, .plait, .out] = true := by decide
  unfold execCanTx
  show Frame [.ecc, .mem, .pwr, .weave, .rings, .bezel, .loupe, .can, .net, .plait, .out] _ _
  repeat' first
    | with_reducible assumption
    | exact subParts_trans (by decide) hP
    | with_reducible apply frame_accept
    | with_reducible apply frame_actCanTx
    | intro _ _ _

theorem frame_actCanTpTx (ch : BitVec 4) (cf : BitVec 3) (da : BitVec 8) (prio : BitVec 3) (pgn : BitVec 18) (a : Act) (s : State) {P : List Part} {s0 : State} 
    (hP : subParts [.mem, .pwr, .rings, .bezel, .loupe, .can, .net, .plait, .out] P = true) (h : Frame P s0 s) : Frame P s0 (actCanTpTx ch cf da prio pgn a s) := by
  unfold actCanTpTx
  repeat' first
    | with_reducible assumption
    | exact subParts_trans (by decide) hP
    | with_reducible apply frame_refuse
    | with_reducible apply frame_netEval
    | with_reducible apply frame_tpRequest
    | with_reducible apply Frame.ite <;> intro _

theorem frame_execCanTpTx (d : Desc) (ch : BitVec 4) (cf : BitVec 3) (da : BitVec 8) (prio : BitVec 3) (pgn : BitVec 18) (s : State) :
    OutFrame [.ecc, .mem, .pwr, .weave, .rings, .bezel, .loupe, .can, .net, .plait, .out] s (execCanTpTx d ch cf da prio pgn s) := by
  have h := Frame.refl [.ecc, .mem, .pwr, .weave, .rings, .bezel, .loupe, .can, .net, .plait, .out] s
  have hP : subParts [.ecc, .mem, .pwr, .weave, .rings, .bezel, .loupe, .can, .net, .plait, .out] [.ecc, .mem, .pwr, .weave, .rings, .bezel, .loupe, .can, .net, .plait, .out] = true := by decide
  unfold execCanTpTx
  show Frame [.ecc, .mem, .pwr, .weave, .rings, .bezel, .loupe, .can, .net, .plait, .out] _ _
  repeat' first
    | with_reducible assumption
    | exact subParts_trans (by decide) hP
    | with_reducible apply frame_accept
    | with_reducible apply frame_actCanTpTx
    | intro _ _ _

theorem frame_actCanMode (ch : BitVec 4) (listen : BitVec 1) (unmute : BitVec 1) (a : Act) (s : State) {P : List Part} {s0 : State} 
    (hP : subParts [.mem, .pwr, .rings, .bezel, .loupe, .can, .net, .plait, .out] P = true) (h : Frame P s0 s) : Frame P s0 (actCanMode ch listen unmute a s) := by
  unfold actCanMode
  try extract_lets
  repeat' first
    | with_reducible assumption
    | exact subParts_trans (by decide) hP
    | with_reducible apply frame_refuse
    | with_reducible apply frame_State_modCan
    | with_reducible apply frame_finish
    | with_reducible apply frame_netEval
    | with_reducible apply frame_canSync
    | with_reducible apply Frame.ite <;> intro _

theorem frame_execCanMode (d : Desc) (ch : BitVec 4) (listen : BitVec 1) (unmute : BitVec 1) (s : State) :
    OutFrame [.ecc, .mem, .pwr, .weave, .rings, .bezel, .loupe, .can, .net, .plait, .out] s (execCanMode d ch listen unmute s) := by
  have h := Frame.refl [.ecc, .mem, .pwr, .weave, .rings, .bezel, .loupe, .can, .net, .plait, .out] s
  have hP : subParts [.ecc, .mem, .pwr, .weave, .rings, .bezel, .loupe, .can, .net, .plait, .out] [.ecc, .mem, .pwr, .weave, .rings, .bezel, .loupe, .can, .net, .plait, .out] = true := by decide
  unfold execCanMode
  show Frame [.ecc, .mem, .pwr, .weave, .rings, .bezel, .loupe, .can, .net, .plait, .out] _ _
  repeat' first
    | with_reducible assumption
    | exact subParts_trans (by decide) hP
    | with_reducible apply frame_accept
    | with_reducible apply frame_actCanMode
    | intro _ _ _

theorem frame_actCanRecover (ch : BitVec 4) (a : Act) (s : State) {P : List Part} {s0 : State} 
    (hP : subParts [.mem, .pwr, .rings, .can, .plait, .out] P = true) (h : Frame P s0 s) : Frame P s0 (actCanRecover ch a s) := by
  unfold actCanRecover
  try extract_lets
  repeat' first
    | with_reducible assumption
    | exact subParts_trans (by decide) hP
    | with_reducible apply frame_refuse
    | with_reducible apply frame_finish
    | with_reducible apply frame_State_modCan
    | with_reducible apply Frame.ite <;> intro _

theorem frame_execCanRecover (d : Desc) (ch : BitVec 4) (s : State) :
    OutFrame [.ecc, .mem, .pwr, .weave, .rings, .bezel, .loupe, .can, .plait, .out] s (execCanRecover d ch s) := by
  have h := Frame.refl [.ecc, .mem, .pwr, .weave, .rings, .bezel, .loupe, .can, .plait, .out] s
  have hP : subParts [.ecc, .mem, .pwr, .weave, .rings, .bezel, .loupe, .can, .plait, .out] [.ecc, .mem, .pwr, .weave, .rings, .bezel, .loupe, .can, .plait, .out] = true := by decide
  unfold execCanRecover
  show Frame [.ecc, .mem, .pwr, .weave, .rings, .bezel, .loupe, .can, .plait, .out] _ _
  repeat' first
    | with_reducible assumption
    | exact subParts_trans (by decide) hP
    | with_reducible apply frame_accept
    | with_reducible apply frame_actCanRecover
    | intro _ _ _

theorem frame_actCanTtWrite (ch : BitVec 4) (fmt : BitVec 2) (brs : BitVec 1) (ide : BitVec 1) (slot : BitVec 5) (clear : BitVec 1) (id : BitVec 29) (a : Act) (s : State) {P : List Part} {s0 : State} 
    (hP : subParts [.mem, .pwr, .rings, .can, .plait, .out] P = true) (h : Frame P s0 s) : Frame P s0 (actCanTtWrite ch fmt brs ide slot clear id a s) := by
  unfold actCanTtWrite
  try extract_lets
  repeat' first
    | with_reducible assumption
    | exact subParts_trans (by decide) hP
    | with_reducible apply frame_refuse
    | with_reducible apply frame_finish
    | with_reducible apply frame_State_modCan
    | with_reducible apply Frame.ite <;> intro _

theorem frame_execCanTtWrite (d : Desc) (ch : BitVec 4) (fmt : BitVec 2) (brs : BitVec 1) (ide : BitVec 1) (slot : BitVec 5) (clear : BitVec 1) (id : BitVec 29) (s : State) :
    OutFrame [.ecc, .mem, .pwr, .weave, .rings, .bezel, .loupe, .can, .plait, .out] s (execCanTtWrite d ch fmt brs ide slot clear id s) := by
  have h := Frame.refl [.ecc, .mem, .pwr, .weave, .rings, .bezel, .loupe, .can, .plait, .out] s
  have hP : subParts [.ecc, .mem, .pwr, .weave, .rings, .bezel, .loupe, .can, .plait, .out] [.ecc, .mem, .pwr, .weave, .rings, .bezel, .loupe, .can, .plait, .out] = true := by decide
  unfold execCanTtWrite
  show Frame [.ecc, .mem, .pwr, .weave, .rings, .bezel, .loupe, .can, .plait, .out] _ _
  repeat' first
    | with_reducible assumption
    | exact subParts_trans (by decide) hP
    | with_reducible apply frame_accept
    | with_reducible apply frame_actCanTtWrite
    | intro _ _ _

theorem frame_actCanAc (cf : BitVec 3) (act : BitVec 2) (addr : BitVec 8) (a : Act) (s : State) {P : List Part} {s0 : State} 
    (hP : subParts [.mem, .pwr, .rings, .bezel, .loupe, .can, .net, .plait, .out] P = true) (h : Frame P s0 s) : Frame P s0 (actCanAc cf act addr a s) := by
  unfold actCanAc
  try extract_lets
  repeat' first
    | with_reducible assumption
    | exact subParts_trans (by decide) hP
    | with_reducible apply frame_refuse
    | with_reducible apply frame_State_modCf
    | with_reducible apply frame_claimStart
    | with_reducible apply frame_cannotClaim
    | with_reducible apply frame_logEvent
    | with_reducible apply frame_finish
    | with_reducible apply frame_netEval
    | with_reducible apply Frame.ite <;> intro _
    | (with_reducible refine Frame.of_mk _ _ _ _ _ _ _ _ _ _ _ _ _ _ _ _ _ _ _ _ _ _ _ _ _ _ _ _ _ hP ?_ rfl ?_ ?_ ?_ ?_ ?_ ?_ ?_ ?_ ?_ ?_ ?_ ?_ ?_ ?_ ?_ ?_ ?_ ?_ ?_ ?_ ?_ ?_ ?_ ?_ ?_ ?_ ?_ ?_ <;>
         first | with_reducible exact Or.inr rfl | exact Or.inl rfl | skip
       split)

theorem frame_execCanAc (d : Desc) (cf : BitVec 3) (act : BitVec 2) (addr : BitVec 8) (s : State) :
    OutFrame [.ecc, .mem, .pwr, .weave, .rings, .bezel, .loupe, .can, .net, .plait, .out] s (execCanAc d cf act addr s) := by
  have h := Frame.refl [.ecc, .mem, .pwr, .weave, .rings, .bezel, .loupe, .can, .net, .plait, .out] s
  have hP : subParts [.ecc, .mem, .pwr, .weave, .rings, .bezel, .loupe, .can, .net, .plait, .out] [.ecc, .mem, .pwr, .weave, .rings, .bezel, .loupe, .can, .net, .plait, .out] = true := by decide
  unfold execCanAc
  show Frame [.ecc, .mem, .pwr, .weave, .rings, .bezel, .loupe, .can, .net, .plait, .out] _ _
  repeat' first
    | with_reducible assumption
    | exact subParts_trans (by decide) hP
    | with_reducible apply frame_accept
    | with_reducible apply frame_actCanAc
    | intro _ _ _

theorem frame_actCanRead (ch : BitVec 4) (a : Act) (s : State) {P : List Part} {s0 : State} 
    (hP : subParts [.mem, .pwr, .rings, .plait, .out] P = true) (h : Frame P s0 s) : Frame P s0 (actCanRead ch a s) := by
  unfold actCanRead
  repeat' first
    | with_reducible assumption
    | with_reducible apply frame_refuse
    | with_reducible apply frame_finish
    | with_reducible apply Frame.ite <;> intro _

theorem frame_execCanRead (d : Desc) (ch : BitVec 4) (s : State) :
    OutFrame [.ecc, .mem, .pwr, .weave, .rings, .bezel, .loupe, .plait, .out] s (execCanRead d ch s) := by
  have h := Frame.refl [.ecc, .mem, .pwr, .weave, .rings, .bezel, .loupe, .plait, .out] s
  have hP : subParts [.ecc, .mem, .pwr, .weave, .rings, .bezel, .loupe, .plait, .out] [.ecc, .mem, .pwr, .weave, .rings, .bezel, .loupe, .plait, .out] = true := by decide
  unfold execCanRead
  show Frame [.ecc, .mem, .pwr, .weave, .rings, .bezel, .loupe, .plait, .out] _ _
  repeat' first
    | with_reducible assumption
    | exact subParts_trans (by decide) hP
    | with_reducible apply frame_accept
    | with_reducible apply frame_actCanRead
    | intro _ _ _

theorem frame_canCancelOn (s : State) (d c : Desc) (n : Nat) {P : List Part} {s0 : State}
    (hP : subParts [.mem, .pwr, .rings, .bezel, .loupe, .can, .net, .plait, .out] P = true) (h : Frame P s0 s) :
    OptFrame P s0 (canCancelOn s d c n) := by
  have ok : ∀ u, Frame P s0 u → Frame P s0 (netEval (complete u c stOk 0 u.weave.time.toNat 0 0) n) :=
    fun u k => frame_netEval _ _ (subParts_trans (by decide) hP) (frame_complete _ _ _ _ _ _ _ (subParts_trans (by decide) hP) k)
  unfold canCancelOn
  extract_lets x f
  split
  · exact ok _ (frame_txComplete _ _ _ _ (subParts_trans (by decide) hP) (frame_State_modCan _ _ _ (subParts_trans (by decide) hP) h))
  · split
    · exact True.intro
    · refine OptFrame.ite (fun _ => frame_State_modCan _ _ _ (subParts_trans (by decide) hP) h) (fun _ => ?_)
      split
      · exact ok _ (frame_canFill _ _ (subParts_trans (by decide) hP) (frame_txComplete _ _ _ _ (subParts_trans (by decide) hP) (frame_freeTb _ _ _ (subParts_trans (by decide) hP) h)))
      · exact True.intro

theorem frame_canCancel (s : State) (d c : Desc) {P : List Part} {s0 : State}
    (hP : subParts [.mem, .pwr, .rings, .bezel, .loupe, .can, .net, .plait, .out] P = true) (h : Frame P s0 s) : OptFrame P s0 (canCancel s d c) :=
  OptFrame.first _ _ (fun n => frame_canCancelOn s d c n hP h) none True.intro

theorem frame_execCanSofCommit (ch : Fin 10) (s : State) :
    OutFrame [.clk, .weave, .can] s (execCanSofCommit ch s) := by
  have h := Frame.refl [.clk, .weave, .can] s
  have hP : subParts [.clk, .weave, .can] [.clk, .weave, .can] = true := by decide
  unfold execCanSofCommit
  show Frame [.clk, .weave, .can] _ _
  try extract_lets
  repeat' first
    | with_reducible assumption
    | exact subParts_trans (by decide) hP
    | with_reducible apply frame_State_reachWeave
    | with_reducible apply frame_State_modCan
    | with_reducible apply Frame.ite <;> intro _
    | (with_reducible refine Frame.of_mk _ _ _ _ _ _ _ _ _ _ _ _ _ _ _ _ _ _ _ _ _ _ _ _ _ _ _ _ _ hP ?_ rfl ?_ ?_ ?_ ?_ ?_ ?_ ?_ ?_ ?_ ?_ ?_ ?_ ?_ ?_ ?_ ?_ ?_ ?_ ?_ ?_ ?_ ?_ ?_ ?_ ?_ ?_ ?_ ?_ <;>
         first | with_reducible exact Or.inr rfl | exact Or.inl rfl | skip
       split)

theorem frame_measureDelay (s : State) (n : Nat) (f : CanFrame) (delay : BitVec 7) {P : List Part} {s0 : State} 
    (hP : subParts [.can] P = true) (h : Frame P s0 s) : Frame P s0 (measureDelay s n f delay) := by
  unfold measureDelay
  try extract_lets
  repeat' first
    | with_reducible assumption
    | with_reducible apply frame_State_modCan
    | with_reducible apply Frame.ite <;> intro _

theorem frame_afterFrame (s : State) (n : Nat) {P : List Part} {s0 : State} 
    (hP : subParts [.mem, .pwr, .rings, .bezel, .loupe, .can, .net, .plait, .out] P = true) (h : Frame P s0 s) : Frame P s0 (afterFrame s n) := by
  unfold afterFrame
  repeat' first
    | with_reducible assumption
    | exact subParts_trans (by decide) hP
    | with_reducible apply frame_netEval
    | with_reducible apply frame_canSync

theorem frame_execCanTxSuccess (ch : Fin 10) (loopDelay : BitVec 7) (s : State) :
    OutFrame [.mem, .pwr, .rings, .bezel, .loupe, .can, .net, .plait, .out] s (execCanTxSuccess ch loopDelay s) := by
  have h := Frame.refl [.mem, .pwr, .rings, .bezel, .loupe, .can, .net, .plait, .out] s
  have hP : subParts [.mem, .pwr, .rings, .bezel, .loupe, .can, .net, .plait, .out] [.mem, .pwr, .rings, .bezel, .loupe, .can, .net, .plait, .out] = true := by decide
  unfold execCanTxSuccess
  show Frame [.mem, .pwr, .rings, .bezel, .loupe, .can, .net, .plait, .out] _ _
  try extract_lets
  repeat' first
    | with_reducible assumption
    | exact subParts_trans (by decide) hP
    | with_reducible apply frame_measureDelay
    | with_reducible apply frame_freeTb
    | with_reducible apply frame_State_modCan
    | with_reducible apply frame_confine
    | with_reducible apply frame_endAckRun
    | with_reducible apply frame_State_send
    | with_reducible apply frame_txComplete
    | with_reducible apply frame_cancelsEnd
    | with_reducible apply frame_tpSentOne
    | with_reducible apply frame_afterFrame
    | with_reducible apply frame_canFill
    | with_reducible apply frame_netSent
    | with_reducible apply Frame.ite <;> intro _
    | (with_reducible refine Frame.of_mk _ _ _ _ _ _ _ _ _ _ _ _ _ _ _ _ _ _ _ _ _ _ _ _ _ _ _ _ _ hP ?_ rfl ?_ ?_ ?_ ?_ ?_ ?_ ?_ ?_ ?_ ?_ ?_ ?_ ?_ ?_ ?_ ?_ ?_ ?_ ?_ ?_ ?_ ?_ ?_ ?_ ?_ ?_ ?_ ?_ <;>
         first | with_reducible exact Or.inr rfl | exact Or.inl rfl | skip
       split)

theorem frame_afterAttempt (s : State) (n : Nat) (b : Nat) (f : TxFrame) (gone : Option Nat) {P : List Part} {s0 : State} 
    (hP : subParts [.mem, .pwr, .rings, .can, .plait, .out] P = true) (h : Frame P s0 s) : Frame P s0 (afterAttempt s n b f gone) := by
  unfold afterAttempt
  try extract_lets
  repeat' first
    | with_reducible assumption
    | exact subParts_trans (by decide) hP
    | with_reducible apply frame_State_modCan
    | with_reducible apply frame_cancelsEnd
    | with_reducible apply frame_txComplete
    | with_reducible apply frame_freeTb
    | with_reducible apply Frame.ite <;> intro _
    | (with_reducible refine Frame.of_mk _ _ _ _ _ _ _ _ _ _ _ _ _ _ _ _ _ _ _ _ _ _ _ _ _ _ _ _ _ hP ?_ rfl ?_ ?_ ?_ ?_ ?_ ?_ ?_ ?_ ?_ ?_ ?_ ?_ ?_ ?_ ?_ ?_ ?_ ?_ ?_ ?_ ?_ ?_ ?_ ?_ ?_ ?_ ?_ ?_ <;>
         first | with_reducible exact Or.inr rfl | exact Or.inl rfl | skip
       split)

theorem frame_execCanTxError (ch : Fin 10) (code : BitVec 3) (dominant : Bool) (loopDelay : BitVec 7) (s : State) :
    OutFrame [.mem, .pwr, .rings, .bezel, .loupe, .can, .net, .plait, .out] s (execCanTxError ch code dominant loopDelay s) := by
  have h := Frame.refl [.mem, .pwr, .rings, .bezel, .loupe, .can, .net, .plait, .out] s
  have hP : subParts [.mem, .pwr, .rings, .bezel, .loupe, .can, .net, .plait, .out] [.mem, .pwr, .rings, .bezel, .loupe, .can, .net, .plait, .out] = true := by decide
  unfold execCanTxError
  show Frame [.mem, .pwr, .rings, .bezel, .loupe, .can, .net, .plait, .out] _ _
  try extract_lets
  repeat' first
    | with_reducible assumption
    | exact subParts_trans (by decide) hP
    | with_reducible apply frame_measureDelay
    | with_reducible apply frame_State_modCan
    | with_reducible apply frame_countAck
    | with_reducible apply frame_startBackoff
    | with_reducible apply frame_afterAttempt
    | with_reducible apply frame_afterFrame
    | with_reducible apply frame_canFill
    | with_reducible apply frame_confine
    | with_reducible apply frame_netSent
    | with_reducible apply Frame.ite <;> intro _
    | (with_reducible refine Frame.of_mk _ _ _ _ _ _ _ _ _ _ _ _ _ _ _ _ _ _ _ _ _ _ _ _ _ _ _ _ _ hP ?_ rfl ?_ ?_ ?_ ?_ ?_ ?_ ?_ ?_ ?_ ?_ ?_ ?_ ?_ ?_ ?_ ?_ ?_ ?_ ?_ ?_ ?_ ?_ ?_ ?_ ?_ ?_ ?_ ?_ <;>
         first | with_reducible exact Or.inr rfl | exact Or.inl rfl | skip
       split)

theorem frame_execCanArbLost (ch : Fin 10) (s : State) :
    OutFrame [.mem, .pwr, .rings, .bezel, .loupe, .can, .net, .plait, .out] s (execCanArbLost ch s) := by
  have h := Frame.refl [.mem, .pwr, .rings, .bezel, .loupe, .can, .net, .plait, .out] s
  have hP : subParts [.mem, .pwr, .rings, .bezel, .loupe, .can, .net, .plait, .out] [.mem, .pwr, .rings, .bezel, .loupe, .can, .net, .plait, .out] = true := by decide
  unfold execCanArbLost
  show Frame [.mem, .pwr, .rings, .bezel, .loupe, .can, .net, .plait, .out] _ _
  try extract_lets
  repeat' first
    | with_reducible assumption
    | exact subParts_trans (by decide) hP
    | with_reducible apply frame_afterFrame
    | with_reducible apply frame_canFill
    | with_reducible apply frame_afterAttempt
    | (with_reducible refine Frame.of_mk _ _ _ _ _ _ _ _ _ _ _ _ _ _ _ _ _ _ _ _ _ _ _ _ _ _ _ _ _ hP ?_ rfl ?_ ?_ ?_ ?_ ?_ ?_ ?_ ?_ ?_ ?_ ?_ ?_ ?_ ?_ ?_ ?_ ?_ ?_ ?_ ?_ ?_ ?_ ?_ ?_ ?_ ?_ ?_ ?_ <;>
         first | with_reducible exact Or.inr rfl | exact Or.inl rfl | skip
       split)

theorem frame_tunnelFrame (s : State) (n : Nat) (f : CanFrame) (sof : BitVec 64) {P : List Part} {s0 : State} 
    (hP : subParts [.plait, .out] P = true) (h : Frame P s0 s) : Frame P s0 (tunnelFrame s n f sof) := by
  unfold tunnelFrame
  try extract_lets
  repeat' first
    | with_reducible assumption
    | exact subParts_trans (by decide) hP
    | with_reducible apply frame_State_send
    | with_reducible apply Frame.ite <;> intro _
    | (with_reducible refine Frame.of_mk _ _ _ _ _ _ _ _ _ _ _ _ _ _ _ _ _ _ _ _ _ _ _ _ _ _ _ _ _ hP ?_ rfl ?_ ?_ ?_ ?_ ?_ ?_ ?_ ?_ ?_ ?_ ?_ ?_ ?_ ?_ ?_ ?_ ?_ ?_ ?_ ?_ ?_ ?_ ?_ ?_ ?_ ?_ ?_ ?_ <;>
         first | with_reducible exact Or.inr rfl | exact Or.inl rfl | skip
       with_reducible assumption)

theorem frame_filterFrame (s : State) (n : Nat) (f : CanFrame) (sof : BitVec 64) {P : List Part} {s0 : State} 
    (hP : subParts [.ecc, .mem, .pwr, .rings, .bezel, .loupe, .can, .plait, .out] P = true) (h : Frame P s0 s) : Frame P s0 (filterFrame s n f sof) := by
  unfold filterFrame
  try extract_lets
  repeat' first
    | with_reducible assumption
    | exact subParts_trans (by decide) hP
    | with_reducible apply frame_State_modCan
    | with_reducible apply frame_tunnelFrame
    | with_reducible apply frame_inbound
    | with_reducible apply Frame.ite <;> intro _
    | (with_reducible refine Frame.of_mk _ _ _ _ _ _ _ _ _ _ _ _ _ _ _ _ _ _ _ _ _ _ _ _ _ _ _ _ _ hP ?_ rfl ?_ ?_ ?_ ?_ ?_ ?_ ?_ ?_ ?_ ?_ ?_ ?_ ?_ ?_ ?_ ?_ ?_ ?_ ?_ ?_ ?_ ?_ ?_ ?_ ?_ ?_ ?_ ?_ <;>
         first | with_reducible exact Or.inr rfl | exact Or.inl rfl | skip
       split)

theorem frame_expectSeen (s : State) (n : Nat) (f : CanFrame) (sof : BitVec 64) {P : List Part} {s0 : State} 
    (hP : subParts [.can] P = true) (h : Frame P s0 s) : Frame P s0 (expectSeen s n f sof) := by
  unfold expectSeen
  try extract_lets
  repeat' first
    | with_reducible assumption
    | with_reducible apply frame_State_modCan
    | with_reducible apply Frame.ite <;> intro _
    | (with_reducible refine Frame.of_mk _ _ _ _ _ _ _ _ _ _ _ _ _ _ _ _ _ _ _ _ _ _ _ _ _ _ _ _ _ hP ?_ rfl ?_ ?_ ?_ ?_ ?_ ?_ ?_ ?_ ?_ ?_ ?_ ?_ ?_ ?_ ?_ ?_ ?_ ?_ ?_ ?_ ?_ ?_ ?_ ?_ ?_ ?_ ?_ ?_ <;>
         first | with_reducible exact Or.inr rfl | exact Or.inl rfl | skip
       split)

theorem frame_speedFrame (s : State) (n : Nat) (f : CanFrame) {P : List Part} {s0 : State} 
    (hP : subParts [.upd] P = true) (h : Frame P s0 s) : Frame P s0 (speedFrame s n f) := by
  unfold speedFrame
  try extract_lets
  repeat' first
    | with_reducible assumption
    | with_reducible apply Frame.ite <;> intro _
    | (with_reducible refine Frame.of_mk _ _ _ _ _ _ _ _ _ _ _ _ _ _ _ _ _ _ _ _ _ _ _ _ _ _ _ _ _ hP ?_ rfl ?_ ?_ ?_ ?_ ?_ ?_ ?_ ?_ ?_ ?_ ?_ ?_ ?_ ?_ ?_ ?_ ?_ ?_ ?_ ?_ ?_ ?_ ?_ ?_ ?_ ?_ ?_ ?_ <;>
         first | with_reducible exact Or.inr rfl | exact Or.inl rfl | skip
       first
         | with_reducible assumption
         | split
      )

theorem frame_recvOk (s : State) (n : Nat) {P : List Part} {s0 : State} 
    (hP : subParts [.can, .free] P = true) (h : Frame P s0 s) : Frame P s0 (recvOk s n) := by
  unfold recvOk
  try extract_lets
  repeat' first
    | with_reducible assumption
    | exact subParts_trans (by decide) hP
    | with_reducible apply frame_State_takeNat
    | with_reducible apply frame_State_modCan
    | with_reducible apply Frame.ite <;> intro _

theorem frame_execCanFrameRx (ch : Fin 10) (frame : CanFrame) (sof : BitVec 64) (s : State) :
    OutFrame [.ecc, .mem, .pwr, .rings, .bezel, .loupe, .can, .net, .plait, .upd, .out, .free] s (execCanFrameRx ch frame sof s) := by
  have h := Frame.refl [.ecc, .mem, .pwr, .rings, .bezel, .loupe, .can, .net, .plait, .upd, .out, .free] s
  have hP : subParts [.ecc, .mem, .pwr, .rings, .bezel, .loupe, .can, .net, .plait, .upd, .out, .free] [.ecc, .mem, .pwr, .rings, .bezel, .loupe, .can, .net, .plait, .upd, .out, .free] = true := by decide
  unfold execCanFrameRx
  show Frame [.ecc, .mem, .pwr, .rings, .bezel, .loupe, .can, .net, .plait, .upd, .out, .free] _ _
  try extract_lets
  repeat' first
    | with_reducible assumption
    | exact subParts_trans (by decide) hP
    | with_reducible apply frame_confine
    | with_reducible apply frame_recvOk
    | with_reducible apply frame_endAckRun
    | with_reducible apply frame_expectSeen
    | with_reducible apply frame_netSeen
    | with_reducible apply frame_filterFrame
    | with_reducible apply frame_speedFrame
    | with_reducible apply frame_netEval
    | with_reducible apply frame_servicesRx
    | with_reducible apply Frame.ite <;> intro _

theorem frame_execCanRxError (ch : Fin 10) (code : BitVec 3) (dominant : Bool) (s : State) :
    OutFrame [.mem, .pwr, .rings, .bezel, .loupe, .can, .plait, .out] s (execCanRxError ch code dominant s) := by
  have h := Frame.refl [.mem, .pwr, .rings, .bezel, .loupe, .can, .plait, .out] s
  have hP : subParts [.mem, .pwr, .rings, .bezel, .loupe, .can, .plait, .out] [.mem, .pwr, .rings, .bezel, .loupe, .can, .plait, .out] = true := by decide
  unfold execCanRxError
  show Frame [.mem, .pwr, .rings, .bezel, .loupe, .can, .plait, .out] _ _
  try extract_lets
  repeat' first
    | with_reducible assumption
    | exact subParts_trans (by decide) hP
    | with_reducible apply frame_confine
    | with_reducible apply frame_State_modCan
    | with_reducible apply Frame.ite <;> intro _

theorem frame_execProtocolException (_ch : Fin 10) (s : State) :
    OutFrame [] s (execProtocolException _ch s) := by
  have h := Frame.refl [] s
  have hP : subParts [] [] = true := by decide
  unfold execProtocolException
  show Frame [] _ _
  repeat' first
    | with_reducible assumption

theorem frame_execBusOffWaitExpiry (ch : Fin 10) (s : State) :
    OutFrame [.clk, .weave, .can] s (execBusOffWaitExpiry ch s) := by
  have h := Frame.refl [.clk, .weave, .can] s
  have hP : subParts [.clk, .weave, .can] [.clk, .weave, .can] = true := by decide
  unfold execBusOffWaitExpiry
  show Frame [.clk, .weave, .can] _ _
  try extract_lets
  repeat' first
    | with_reducible assumption
    | exact subParts_trans (by decide) hP
    | with_reducible apply frame_State_reach
    | with_reducible apply frame_State_modCan
    | with_reducible apply Frame.ite <;> intro _

theorem frame_execBusOffRecovered (ch : Fin 10) (s : State) :
    OutFrame [.mem, .pwr, .rings, .bezel, .loupe, .can, .net, .plait, .out] s (execBusOffRecovered ch s) := by
  have h := Frame.refl [.mem, .pwr, .rings, .bezel, .loupe, .can, .net, .plait, .out] s
  have hP : subParts [.mem, .pwr, .rings, .bezel, .loupe, .can, .net, .plait, .out] [.mem, .pwr, .rings, .bezel, .loupe, .can, .net, .plait, .out] = true := by decide
  unfold execBusOffRecovered
  show Frame [.mem, .pwr, .rings, .bezel, .loupe, .can, .net, .plait, .out] _ _
  try extract_lets
  repeat' first
    | with_reducible assumption
    | exact subParts_trans (by decide) hP
    | with_reducible apply frame_State_modCan
    | with_reducible apply frame_netEval
    | with_reducible apply frame_claimAgain
    | with_reducible apply frame_canSync
    | with_reducible apply frame_logEvent
    | with_reducible apply Frame.ite <;> intro _

theorem frame_execAloneBackoffExpiry (ch : Fin 10) (s : State) :
    OutFrame [.clk, .weave, .can] s (execAloneBackoffExpiry ch s) := by
  have h := Frame.refl [.clk, .weave, .can] s
  have hP : subParts [.clk, .weave, .can] [.clk, .weave, .can] = true := by decide
  unfold execAloneBackoffExpiry
  show Frame [.clk, .weave, .can] _ _
  try extract_lets
  repeat' first
    | with_reducible assumption
    | exact subParts_trans (by decide) hP
    | with_reducible apply frame_State_reach
    | with_reducible apply frame_State_modCan
    | (with_reducible refine Frame.of_mk _ _ _ _ _ _ _ _ _ _ _ _ _ _ _ _ _ _ _ _ _ _ _ _ _ _ _ _ _ hP ?_ rfl ?_ ?_ ?_ ?_ ?_ ?_ ?_ ?_ ?_ ?_ ?_ ?_ ?_ ?_ ?_ ?_ ?_ ?_ ?_ ?_ ?_ ?_ ?_ ?_ ?_ ?_ ?_ ?_ <;>
         first | with_reducible exact Or.inr rfl | exact Or.inl rfl | skip
       split)

theorem frame_execTxdTimeout (ch : Fin 10) (s : State) :
    OutFrame [.rings, .bezel, .loupe, .can, .plait, .out] s (execTxdTimeout ch s) := by
  have h := Frame.refl [.rings, .bezel, .loupe, .can, .plait, .out] s
  have hP : subParts [.rings, .bezel, .loupe, .can, .plait, .out] [.rings, .bezel, .loupe, .can, .plait, .out] = true := by decide
  unfold execTxdTimeout
  show Frame [.rings, .bezel, .loupe, .can, .plait, .out] _ _
  try extract_lets
  repeat' first
    | with_reducible assumption
    | exact subParts_trans (by decide) hP
    | with_reducible apply frame_logEvent
    | with_reducible apply frame_State_modCan

theorem frame_muteChannel (s : State) (n : Nat) (cause : Nat) {P : List Part} {s0 : State} 
    (hP : subParts [.mem, .pwr, .rings, .bezel, .loupe, .can, .net, .plait, .out] P = true) (h : Frame P s0 s) : Frame P s0 (muteChannel s n cause) := by
  unfold muteChannel
  try extract_lets
  repeat' first
    | with_reducible assumption
    | exact subParts_trans (by decide) hP
    | with_reducible apply frame_State_modCan
    | with_reducible apply frame_netEval
    | with_reducible apply frame_canSync
    | with_reducible apply frame_logEvent
    | with_reducible apply frame_canDump

theorem frame_execChannelMute (ch : Fin 10) (s : State) :
    OutFrame [.clk, .mem, .pwr, .weave, .rings, .bezel, .loupe, .can, .net, .plait, .out] s (execChannelMute ch s) := by
  have h := Frame.refl [.clk, .mem, .pwr, .weave, .rings, .bezel, .loupe, .can, .net, .plait, .out] s
  have hP : subParts [.clk, .mem, .pwr, .weave, .rings, .bezel, .loupe, .can, .net, .plait, .out] [.clk, .mem, .pwr, .weave, .rings, .bezel, .loupe, .can, .net, .plait, .out] = true := by decide
  unfold execChannelMute
  show Frame [.clk, .mem, .pwr, .weave, .rings, .bezel, .loupe, .can, .net, .plait, .out] _ _
  try extract_lets
  repeat' first
    | with_reducible assumption
    | exact subParts_trans (by decide) hP
    | with_reducible apply frame_muteChannel
    | with_reducible apply frame_State_reach
    | with_reducible apply Frame.ite <;> intro _

theorem frame_openWindow (s : State) (n : Nat) (r : Rec) (k : Nat) (w : Nat) {P : List Part} {s0 : State} 
    (hP : subParts [.clk, .weave, .can] P = true) (h : Frame P s0 s) : Frame P s0 (openWindow s n r k w) := by
  unfold openWindow
  try extract_lets
  repeat' first
    | with_reducible assumption
    | exact subParts_trans (by decide) hP
    | with_reducible apply frame_State_reachWeave
    | with_reducible apply frame_State_modCan

theorem frame_closeWindow (s : State) (n : Nat) (r : Rec) (began : Bool) {P : List Part} {s0 : State} 
    (hP : subParts [.rings, .bezel, .loupe, .can, .plait, .out] P = true) (h : Frame P s0 s) : Frame P s0 (closeWindow s n r began) := by
  unfold closeWindow
  try extract_lets
  repeat' first
    | with_reducible assumption
    | exact subParts_trans (by decide) hP
    | with_reducible apply frame_State_modCan
    | with_reducible apply frame_logEvent
    | with_reducible apply frame_schedStop
    | with_reducible apply Frame.ite <;> intro _

theorem frame_execSchedWindowOpen (ch : Fin 10) (s : State) :
    OutFrame [.clk, .weave, .rings, .bezel, .loupe, .can, .plait, .out] s (execSchedWindowOpen ch s) := by
  have h := Frame.refl [.clk, .weave, .rings, .bezel, .loupe, .can, .plait, .out] s
  have hP : subParts [.clk, .weave, .rings, .bezel, .loupe, .can, .plait, .out] [.clk, .weave, .rings, .bezel, .loupe, .can, .plait, .out] = true := by decide
  unfold execSchedWindowOpen
  show Frame [.clk, .weave, .rings, .bezel, .loupe, .can, .plait, .out] _ _
  try extract_lets
  repeat' first
    | with_reducible assumption
    | exact subParts_trans (by decide) hP
    | with_reducible apply frame_schedCheck
    | with_reducible apply frame_closeWindow
    | with_reducible apply frame_openWindow
    | with_reducible apply frame_State_modCan
    | with_reducible apply frame_logEvent
    | with_reducible apply frame_State_reachWeave
    | with_reducible apply Frame.ite <;> intro _
    | (with_reducible refine Frame.of_mk _ _ _ _ _ _ _ _ _ _ _ _ _ _ _ _ _ _ _ _ _ _ _ _ _ _ _ _ _ hP ?_ rfl ?_ ?_ ?_ ?_ ?_ ?_ ?_ ?_ ?_ ?_ ?_ ?_ ?_ ?_ ?_ ?_ ?_ ?_ ?_ ?_ ?_ ?_ ?_ ?_ ?_ ?_ ?_ ?_ <;>
         first | with_reducible exact Or.inr rfl | exact Or.inl rfl | skip
       split)

theorem frame_execSchedLateMax (ch : Fin 10) (s : State) :
    OutFrame [.clk, .weave, .can] s (execSchedLateMax ch s) := by
  have h := Frame.refl [.clk, .weave, .can] s
  have hP : subParts [.clk, .weave, .can] [.clk, .weave, .can] = true := by decide
  unfold execSchedLateMax
  show Frame [.clk, .weave, .can] _ _
  try extract_lets
  repeat' first
    | with_reducible assumption
    | exact subParts_trans (by decide) hP
    | with_reducible apply frame_State_reachWeave
    | with_reducible apply frame_State_modCan
    | with_reducible apply Frame.ite <;> intro _
    | (with_reducible refine Frame.of_mk _ _ _ _ _ _ _ _ _ _ _ _ _ _ _ _ _ _ _ _ _ _ _ _ _ _ _ _ _ hP ?_ rfl ?_ ?_ ?_ ?_ ?_ ?_ ?_ ?_ ?_ ?_ ?_ ?_ ?_ ?_ ?_ ?_ ?_ ?_ ?_ ?_ ?_ ?_ ?_ ?_ ?_ ?_ ?_ ?_ <;>
         first | with_reducible exact Or.inr rfl | exact Or.inl rfl | skip
       split)

theorem frame_execSchedWindowClose (ch : Fin 10) (began : Bool) (s : State) :
    OutFrame [.clk, .weave, .rings, .bezel, .loupe, .can, .plait, .out] s (execSchedWindowClose ch began s) := by
  have h := Frame.refl [.clk, .weave, .rings, .bezel, .loupe, .can, .plait, .out] s
  have hP : subParts [.clk, .weave, .rings, .bezel, .loupe, .can, .plait, .out] [.clk, .weave, .rings, .bezel, .loupe, .can, .plait, .out] = true := by decide
  unfold execSchedWindowClose
  show Frame [.clk, .weave, .rings, .bezel, .loupe, .can, .plait, .out] _ _
  try extract_lets
  repeat' first
    | with_reducible assumption
    | exact subParts_trans (by decide) hP
    | with_reducible apply frame_closeWindow
    | with_reducible apply frame_State_reachWeave
    | with_reducible apply Frame.ite <;> intro _
    | (with_reducible refine Frame.of_mk _ _ _ _ _ _ _ _ _ _ _ _ _ _ _ _ _ _ _ _ _ _ _ _ _ _ _ _ _ hP ?_ rfl ?_ ?_ ?_ ?_ ?_ ?_ ?_ ?_ ?_ ?_ ?_ ?_ ?_ ?_ ?_ ?_ ?_ ?_ ?_ ?_ ?_ ?_ ?_ ?_ ?_ ?_ ?_ ?_ <;>
         first | with_reducible exact Or.inr rfl | exact Or.inl rfl | skip
       split)

theorem frame_execAddressClaimTimeout (cf : Fin 8) (s : State) :
    OutFrame [.mem, .pwr, .rings, .bezel, .loupe, .can, .net, .plait, .out] s (execAddressClaimTimeout cf s) := by
  have h := Frame.refl [.mem, .pwr, .rings, .bezel, .loupe, .can, .net, .plait, .out] s
  have hP : subParts [.mem, .pwr, .rings, .bezel, .loupe, .can, .net, .plait, .out] [.mem, .pwr, .rings, .bezel, .loupe, .can, .net, .plait, .out] = true := by decide
  unfold execAddressClaimTimeout
  show Frame [.mem, .pwr, .rings, .bezel, .loupe, .can, .net, .plait, .out] _ _
  try extract_lets
  repeat' first
    | with_reducible assumption
    | exact subParts_trans (by decide) hP
    | with_reducible apply frame_State_modCf
    | with_reducible apply frame_netEval
    | with_reducible apply frame_logEvent
    | with_reducible apply Frame.ite <;> intro _

theorem frame_tpSendTimer (s : State) (x : TpSend) {P : List Part} {s0 : State} 
    (hP : subParts [.clk, .mem, .pwr, .weave, .rings, .bezel, .loupe, .can, .plait, .out] P = true) (h : Frame P s0 s) : Frame P s0 (tpSendTimer s x) := by
  unfold tpSendTimer
  try extract_lets
  repeat' first
    | with_reducible assumption
    | exact subParts_trans (by decide) hP
    | with_reducible apply frame_State_reach
    | with_reducible apply frame_tpNext
    | with_reducible apply frame_tpEnd
    | with_reducible apply frame_logEvent
    | with_reducible apply frame_tpSendAbort
    | with_reducible apply Frame.ite <;> intro _
    | (with_reducible refine Frame.of_mk _ _ _ _ _ _ _ _ _ _ _ _ _ _ _ _ _ _ _ _ _ _ _ _ _ _ _ _ _ hP ?_ rfl ?_ ?_ ?_ ?_ ?_ ?_ ?_ ?_ ?_ ?_ ?_ ?_ ?_ ?_ ?_ ?_ ?_ ?_ ?_ ?_ ?_ ?_ ?_ ?_ ?_ ?_ ?_ ?_ <;>
         first | with_reducible exact Or.inr rfl | exact Or.inl rfl | skip
       split)

theorem frame_execTpTimer (sending : Bool) (session : Fin 32) (s : State) :
    OutFrame [.clk, .mem, .pwr, .weave, .rings, .bezel, .loupe, .can, .net, .plait, .out] s (execTpTimer sending session s) := by
  have h := Frame.refl [.clk, .mem, .pwr, .weave, .rings, .bezel, .loupe, .can, .net, .plait, .out] s
  have hP : subParts [.clk, .mem, .pwr, .weave, .rings, .bezel, .loupe, .can, .net, .plait, .out] [.clk, .mem, .pwr, .weave, .rings, .bezel, .loupe, .can, .net, .plait, .out] = true := by decide
  unfold execTpTimer
  show Frame [.clk, .mem, .pwr, .weave, .rings, .bezel, .loupe, .can, .net, .plait, .out] _ _
  try extract_lets
  repeat' first
    | with_reducible assumption
    | exact subParts_trans (by decide) hP
    | with_reducible apply frame_netEval
    | with_reducible apply frame_tpSendTimer
    | with_reducible apply frame_recvCm
    | with_reducible apply frame_logEvent
    | with_reducible apply frame_recvEnd
    | with_reducible apply Frame.ite <;> intro _
    | (with_reducible refine Frame.of_mk _ _ _ _ _ _ _ _ _ _ _ _ _ _ _ _ _ _ _ _ _ _ _ _ _ _ _ _ _ hP ?_ rfl ?_ ?_ ?_ ?_ ?_ ?_ ?_ ?_ ?_ ?_ ?_ ?_ ?_ ?_ ?_ ?_ ?_ ?_ ?_ ?_ ?_ ?_ ?_ ?_ ?_ ?_ ?_ ?_ <;>
         first | with_reducible exact Or.inr rfl | exact Or.inl rfl | skip
       split)

end Sys2Proof.Machine
end

