-- ==== Sys2Proof/Laws/FrameCfg.lean ====
section
/-! SUPPORT. Which parts of the state the operations of Machine/Cfg.lean may change. -/

namespace Sys2Proof.Machine

set_option linter.unusedTactic false
set_option linter.unreachableTactic false

theorem frame_actConfigStage (a : Act) (s : State) {P : List Part} {s0 : State} 
    (hP : subParts [.mem, .pwr, .rings, .cfg, .plait, .out] P = true) (h : Frame P s0 s) : Frame P s0 (actConfigStage a s) := by
  unfold actConfigStage
  try extract_lets
  repeat' first
    | with_reducible assumption
    | exact subParts_trans (by decide) hP
    | with_reducible apply frame_refuse
    | with_reducible apply frame_finish
    | with_reducible apply Frame.ite <;> intro _
    | (with_reducible refine Frame.of_mk _ _ _ _ _ _ _ _ _ _ _ _ _ _ _ _ _ _ _ _ _ _ _ _ _ _ _ _ _ hP ?_ rfl ?_ ?_ ?_ ?_ ?_ ?_ ?_ ?_ ?_ ?_ ?_ ?_ ?_ ?_ ?_ ?_ ?_ ?_ ?_ ?_ ?_ ?_ ?_ ?_ ?_ ?_ ?_ ?_ <;>
         first | with_reducible exact Or.inr rfl | exact Or.inl rfl | skip
       first
         | with_reducible assumption
         | split
      )
    | extract_lets
    | dsimp only

theorem frame_execConfigStage (d : Desc) (s : State) :
    OutFrame [.ecc, .mem, .pwr, .weave, .rings, .cfg, .bezel, .loupe, .plait, .out] s (execConfigStage d s) := by
  have h := Frame.refl [.ecc, .mem, .pwr, .weave, .rings, .cfg, .bezel, .loupe, .plait, .out] s
  have hP : subParts [.ecc, .mem, .pwr, .weave, .rings, .cfg, .bezel, .loupe, .plait, .out] [.ecc, .mem, .pwr, .weave, .rings, .cfg, .bezel, .loupe, .plait, .out] = true := by decide
  unfold execConfigStage
  show Frame [.ecc, .mem, .pwr, .weave, .rings, .cfg, .bezel, .loupe, .plait, .out] _ _
  repeat' first
    | with_reducible assumption
    | exact subParts_trans (by decide) hP
    | with_reducible apply frame_accept
    | with_reducible apply frame_actConfigStage
    | intro _ _ _

theorem frame_actConfigLoad (a : Act) (s : State) {P : List Part} {s0 : State} 
    (hP : subParts [.ecc, .mem, .pwr, .rings, .cfg, .bezel, .loupe, .plait, .out] P = true) (h : Frame P s0 s) : Frame P s0 (actConfigLoad a s) := by
  unfold actConfigLoad
  try extract_lets
  repeat' first
    | with_reducible assumption
    | exact subParts_trans (by decide) hP
    | with_reducible apply frame_refuse
    | with_reducible apply frame_readImage
    | with_reducible apply frame_finish
    | with_reducible apply Frame.ite <;> intro _
    | (with_reducible refine Frame.of_mk _ _ _ _ _ _ _ _ _ _ _ _ _ _ _ _ _ _ _ _ _ _ _ _ _ _ _ _ _ hP ?_ rfl ?_ ?_ ?_ ?_ ?_ ?_ ?_ ?_ ?_ ?_ ?_ ?_ ?_ ?_ ?_ ?_ ?_ ?_ ?_ ?_ ?_ ?_ ?_ ?_ ?_ ?_ ?_ ?_ <;>
         first | with_reducible exact Or.inr rfl | exact Or.inl rfl | skip
       first
         | with_reducible apply frame_readImage
         | split
      )

theorem frame_execConfigLoad (d : Desc) (s : State) :
    OutFrame [.ecc, .mem, .pwr, .weave, .rings, .cfg, .bezel, .loupe, .plait, .out] s (execConfigLoad d s) := by
  have h := Frame.refl [.ecc, .mem, .pwr, .weave, .rings, .cfg, .bezel, .loupe, .plait, .out] s
  have hP : subParts [.ecc, .mem, .pwr, .weave, .rings, .cfg, .bezel, .loupe, .plait, .out] [.ecc, .mem, .pwr, .weave, .rings, .cfg, .bezel, .loupe, .plait, .out] = true := by decide
  unfold execConfigLoad
  show Frame [.ecc, .mem, .pwr, .weave, .rings, .cfg, .bezel, .loupe, .plait, .out] _ _
  repeat' first
    | with_reducible assumption
    | exact subParts_trans (by decide) hP
    | with_reducible apply frame_accept
    | with_reducible apply frame_actConfigLoad
    | intro _ _ _

theorem frame_actStageDiscard (a : Act) (s : State) {P : List Part} {s0 : State} 
    (hP : subParts [.mem, .pwr, .rings, .cfg, .plait, .out] P = true) (h : Frame P s0 s) : Frame P s0 (actStageDiscard a s) := by
  unfold actStageDiscard
  repeat' first
    | with_reducible assumption
    | exact subParts_trans (by decide) hP
    | with_reducible apply frame_refuse
    | with_reducible apply frame_finish
    | with_reducible apply frame_clearStage
    | with_reducible apply Frame.ite <;> intro _

theorem frame_execStageDiscard (d : Desc) (s : State) :
    OutFrame [.ecc, .mem, .pwr, .weave, .rings, .cfg, .bezel, .loupe, .plait, .out] s (execStageDiscard d s) := by
  have h := Frame.refl [.ecc, .mem, .pwr, .weave, .rings, .cfg, .bezel, .loupe, .plait, .out] s
  have hP : subParts [.ecc, .mem, .pwr, .weave, .rings, .cfg, .bezel, .loupe, .plait, .out] [.ecc, .mem, .pwr, .weave, .rings, .cfg, .bezel, .loupe, .plait, .out] = true := by decide
  unfold execStageDiscard
  show Frame [.ecc, .mem, .pwr, .weave, .rings, .cfg, .bezel, .loupe, .plait, .out] _ _
  repeat' first
    | with_reducible assumption
    | exact subParts_trans (by decide) hP
    | with_reducible apply frame_accept
    | with_reducible apply frame_actStageDiscard
    | intro _ _ _

theorem frame_actConfigExport (a : Act) (s : State) {P : List Part} {s0 : State} 
    (hP : subParts [.ecc, .mem, .pwr, .rings, .bezel, .loupe, .plait, .out] P = true) (h : Frame P s0 s) : Frame P s0 (actConfigExport a s) := by
  unfold actConfigExport
  try extract_lets
  repeat' first
    | with_reducible assumption
    | exact subParts_trans (by decide) hP
    | with_reducible apply frame_refuse
    | with_reducible apply frame_putBytes
    | with_reducible apply frame_finish
    | with_reducible apply Frame.ite <;> intro _

theorem frame_execConfigExport (d : Desc) (s : State) :
    OutFrame [.ecc, .mem, .pwr, .weave, .rings, .bezel, .loupe, .plait, .out] s (execConfigExport d s) := by
  have h := Frame.refl [.ecc, .mem, .pwr, .weave, .rings, .bezel, .loupe, .plait, .out] s
  have hP : subParts [.ecc, .mem, .pwr, .weave, .rings, .bezel, .loupe, .plait, .out] [.ecc, .mem, .pwr, .weave, .rings, .bezel, .loupe, .plait, .out] = true := by decide
  unfold execConfigExport
  show Frame [.ecc, .mem, .pwr, .weave, .rings, .bezel, .loupe, .plait, .out] _ _
  repeat' first
    | with_reducible assumption
    | exact subParts_trans (by decide) hP
    | with_reducible apply frame_accept
    | with_reducible apply frame_actConfigExport
    | intro _ _ _

theorem frame_stageRecords (s : State) {P : List Part} {s0 : State} 
    (hP : subParts [.cfg] P = true) (h : Frame P s0 s) : Frame P s0 (stageRecords s) := by
  unfold stageRecords
  try extract_lets
  repeat' first
    | (with_reducible refine Frame.of_mk _ _ _ _ _ _ _ _ _ _ _ _ _ _ _ _ _ _ _ _ _ _ _ _ _ _ _ _ _ hP ?_ rfl ?_ ?_ ?_ ?_ ?_ ?_ ?_ ?_ ?_ ?_ ?_ ?_ ?_ ?_ ?_ ?_ ?_ ?_ ?_ ?_ ?_ ?_ ?_ ?_ ?_ ?_ ?_ ?_ <;>
         first | with_reducible exact Or.inr rfl | exact Or.inl rfl | skip
       with_reducible assumption)

theorem frame_stageApplied (s : State) {P : List Part} {s0 : State} 
    (hP : subParts [.rings, .cfg, .bezel, .loupe, .plait, .out] P = true) (h : Frame P s0 s) : Frame P s0 (stageApplied s) := by
  unfold stageApplied
  try extract_lets
  repeat' first
    | with_reducible assumption
    | exact subParts_trans (by decide) hP
    | with_reducible apply frame_clearStage
    | with_reducible apply frame_stageRecords
    | with_reducible apply frame_logEvent

theorem frame_orphansAnew (s : State) {P : List Part} {s0 : State}
    (hP : subParts [.bezel] P = true) (h : Frame P s0 s) : Frame P s0 (orphansAnew s) := by
  have key : ∀ o w, Frame P s0 { s with bezel.orphans := o, bezel.retWindow := w } := by
    intro o w
    (with_reducible refine Frame.of_mk _ _ _ _ _ _ _ _ _ _ _ _ _ _ _ _ _ _ _ _ _ _ _ _ _ _ _ _ _ hP ?_ rfl ?_ ?_ ?_ ?_ ?_ ?_ ?_ ?_ ?_ ?_ ?_ ?_ ?_ ?_ ?_ ?_ ?_ ?_ ?_ ?_ ?_ ?_ ?_ ?_ ?_ ?_ ?_ ?_ <;>
      first | with_reducible exact Or.inr rfl | exact Or.inl rfl | skip)
    with_reducible exact h
  exact key _ _

theorem frame_applyStage (s : State) {P : List Part} {s0 : State}
    (hP : subParts [.sys, .mem, .pwr, .rings, .cfg, .bezel, .loupe, .hso, .edge, .led, .fio, .vlv, .facet, .can, .net, .plait, .out] P = true) (h : Frame P s0 s) : Frame P s0 (applyStage s) := by
  have k : Frame P s0 (stageApplied s) := frame_stageApplied _ (subParts_trans (by decide) hP) h
  refine frame_plSync _ (subParts_trans (by decide) hP) ?_
  refine frame_netAll _ (subParts_trans (by decide) hP) ?_
  refine frame_modeClaims _ (subParts_trans (by decide) hP) ?_
  refine frame_facetCommit _ _ _ (subParts_trans (by decide) hP) ?_
  refine frame_orphansAnew _ (subParts_trans (by decide) hP) ?_
  refine frame_recordRegs _ _ _ (subParts_trans (by decide) hP) ?_
  exact Frame.ite (fun _ => frame_logEvent _ _ _ (subParts_trans (by decide) hP) k) (fun _ => k)

theorem frame_startPersist (s : State) (a : Option Act) {P : List Part} {s0 : State} 
    (hP : subParts [.nor, .cfg] P = true) (h : Frame P s0 s) : Frame P s0 (startPersist s a) := by
  unfold startPersist
  try extract_lets
  repeat' first
    | (with_reducible refine Frame.of_mk _ _ _ _ _ _ _ _ _ _ _ _ _ _ _ _ _ _ _ _ _ _ _ _ _ _ _ _ _ hP ?_ rfl ?_ ?_ ?_ ?_ ?_ ?_ ?_ ?_ ?_ ?_ ?_ ?_ ?_ ?_ ?_ ?_ ?_ ?_ ?_ ?_ ?_ ?_ ?_ ?_ ?_ ?_ ?_ ?_ <;>
         first | with_reducible exact Or.inr rfl | exact Or.inl rfl | skip
       with_reducible assumption)

theorem frame_execPersistDone (ok : Bool) (s : State) :
    OutFrame [.mem, .nor, .pwr, .rings, .cfg, .bezel, .loupe, .plait, .out] s (execPersistDone ok s) := by
  have h := Frame.refl [.mem, .nor, .pwr, .rings, .cfg, .bezel, .loupe, .plait, .out] s
  have hP : subParts [.mem, .nor, .pwr, .rings, .cfg, .bezel, .loupe, .plait, .out] [.mem, .nor, .pwr, .rings, .cfg, .bezel, .loupe, .plait, .out] = true := by decide
  unfold execPersistDone
  show Frame [.mem, .nor, .pwr, .rings, .cfg, .bezel, .loupe, .plait, .out] _ _
  try extract_lets
  repeat' first
    | with_reducible assumption
    | exact subParts_trans (by decide) hP
    | with_reducible apply frame_finish
    | with_reducible apply frame_logEvent
    | with_reducible apply frame_finishAs
    | with_reducible apply Frame.ite <;> intro _
    | (with_reducible refine Frame.of_mk _ _ _ _ _ _ _ _ _ _ _ _ _ _ _ _ _ _ _ _ _ _ _ _ _ _ _ _ _ hP ?_ rfl ?_ ?_ ?_ ?_ ?_ ?_ ?_ ?_ ?_ ?_ ?_ ?_ ?_ ?_ ?_ ?_ ?_ ?_ ?_ ?_ ?_ ?_ ?_ ?_ ?_ ?_ ?_ ?_ <;>
         first | with_reducible exact Or.inr rfl | exact Or.inl rfl | skip
       first
         | with_reducible assumption
         | with_reducible apply Frame.ite <;> intro _
         | split
      )
    | extract_lets
    | dsimp +zetaDelta only

theorem frame_sealStage (s : State) (a : Act) (persist : Bool) (fleet : Bool) {P : List Part} {s0 : State} 
    (hP : subParts [.cfg] P = true) (h : Frame P s0 s) : Frame P s0 (sealStage s a persist fleet) := by
  unfold sealStage
  try extract_lets
  repeat' first
    | (with_reducible refine Frame.of_mk _ _ _ _ _ _ _ _ _ _ _ _ _ _ _ _ _ _ _ _ _ _ _ _ _ _ _ _ _ hP ?_ rfl ?_ ?_ ?_ ?_ ?_ ?_ ?_ ?_ ?_ ?_ ?_ ?_ ?_ ?_ ?_ ?_ ?_ ?_ ?_ ?_ ?_ ?_ ?_ ?_ ?_ ?_ ?_ ?_ <;>
         first | with_reducible exact Or.inr rfl | exact Or.inl rfl | skip
       with_reducible assumption)

theorem frame_unsealStage (s : State) {P : List Part} {s0 : State} 
    (hP : subParts [.cfg] P = true) (h : Frame P s0 s) : Frame P s0 (unsealStage s) := by
  unfold unsealStage
  try extract_lets
  repeat' first
    | (with_reducible refine Frame.of_mk _ _ _ _ _ _ _ _ _ _ _ _ _ _ _ _ _ _ _ _ _ _ _ _ _ _ _ _ _ hP ?_ rfl ?_ ?_ ?_ ?_ ?_ ?_ ?_ ?_ ?_ ?_ ?_ ?_ ?_ ?_ ?_ ?_ ?_ ?_ ?_ ?_ ?_ ?_ ?_ ?_ ?_ ?_ ?_ ?_ <;>
         first | with_reducible exact Or.inr rfl | exact Or.inl rfl | skip
       with_reducible assumption)

theorem frame_commitApply (s : State) (c : Commit) {P : List Part} {s0 : State} 
    (hP : subParts [.sys, .mem, .nor, .pwr, .rings, .cfg, .bezel, .loupe, .hso, .edge, .led, .fio, .vlv, .facet, .can, .net, .plait, .out] P = true) (h : Frame P s0 s) : Frame P s0 (commitApply s c) := by
  unfold commitApply
  try extract_lets
  repeat' first
    | with_reducible assumption
    | exact subParts_trans (by decide) hP
    | with_reducible apply frame_dropAct
    | with_reducible apply frame_unsealStage
    | with_reducible apply frame_applyStage
    | with_reducible apply frame_startPersist
    | with_reducible apply frame_finish
    | with_reducible apply Frame.ite <;> intro _

theorem frame_actCommit (persist : BitVec 1) (a : Act) (s : State) {P : List Part} {s0 : State} 
    (hP : subParts [.sys, .mem, .nor, .pwr, .rings, .cfg, .bezel, .loupe, .hso, .edge, .led, .fio, .vlv, .facet, .can, .net, .plait, .out] P = true) (h : Frame P s0 s) : Frame P s0 (actCommit persist a s) := by
  unfold actCommit
  try extract_lets
  repeat' first
    | with_reducible assumption
    | exact subParts_trans (by decide) hP
    | with_reducible apply frame_commitApply
    | with_reducible apply frame_refuse
    | with_reducible apply frame_sealStage
    | with_reducible apply Frame.ite <;> intro _
    | (with_reducible refine Frame.of_mk _ _ _ _ _ _ _ _ _ _ _ _ _ _ _ _ _ _ _ _ _ _ _ _ _ _ _ _ _ hP ?_ rfl ?_ ?_ ?_ ?_ ?_ ?_ ?_ ?_ ?_ ?_ ?_ ?_ ?_ ?_ ?_ ?_ ?_ ?_ ?_ ?_ ?_ ?_ ?_ ?_ ?_ ?_ ?_ ?_ <;>
         first | with_reducible exact Or.inr rfl | exact Or.inl rfl | skip
       first
         | with_reducible assumption
         | split
      )

theorem frame_execCommit (d : Desc) (persist : BitVec 1) (s : State) :
    OutFrame [.sys, .ecc, .mem, .nor, .pwr, .weave, .rings, .cfg, .bezel, .loupe, .hso, .edge, .led, .fio, .vlv, .facet, .can, .net, .plait, .out] s (execCommit d persist s) := by
  have h := Frame.refl [.sys, .ecc, .mem, .nor, .pwr, .weave, .rings, .cfg, .bezel, .loupe, .hso, .edge, .led, .fio, .vlv, .facet, .can, .net, .plait, .out] s
  have hP : subParts [.sys, .ecc, .mem, .nor, .pwr, .weave, .rings, .cfg, .bezel, .loupe, .hso, .edge, .led, .fio, .vlv, .facet, .can, .net, .plait, .out] [.sys, .ecc, .mem, .nor, .pwr, .weave, .rings, .cfg, .bezel, .loupe, .hso, .edge, .led, .fio, .vlv, .facet, .can, .net, .plait, .out] = true := by decide
  unfold execCommit
  show Frame [.sys, .ecc, .mem, .nor, .pwr, .weave, .rings, .cfg, .bezel, .loupe, .hso, .edge, .led, .fio, .vlv, .facet, .can, .net, .plait, .out] _ _
  repeat' first
    | with_reducible assumption
    | exact subParts_trans (by decide) hP
    | with_reducible apply frame_acceptWith
    | with_reducible apply frame_actCommit
    | with_reducible apply frame_sealStage
    | intro _ _ _
    | intro _ _

theorem frame_unqueue (s : State) (d : Desc) {P : List Part} {s0 : State} 
    (hP : subParts [.weave] P = true) (h : Frame P s0 s) : Frame P s0 (unqueue s d) := by
  unfold unqueue
  try extract_lets
  repeat' first
    | (with_reducible refine Frame.of_mk _ _ _ _ _ _ _ _ _ _ _ _ _ _ _ _ _ _ _ _ _ _ _ _ _ _ _ _ _ hP ?_ rfl ?_ ?_ ?_ ?_ ?_ ?_ ?_ ?_ ?_ ?_ ?_ ?_ ?_ ?_ ?_ ?_ ?_ ?_ ?_ ?_ ?_ ?_ ?_ ?_ ?_ ?_ ?_ ?_ <;>
         first | with_reducible exact Or.inr rfl | exact Or.inl rfl | skip
       with_reducible assumption)

theorem frame_reportFail (s : State) (f : Fail) {P : List Part} {s0 : State} 
    (hP : subParts [.rings, .cfg, .bezel, .loupe, .plait, .out] P = true) (h : Frame P s0 s) : Frame P s0 (reportFail s f) := by
  unfold reportFail
  try extract_lets
  repeat' first
    | exact subParts_trans (by decide) hP
    | with_reducible apply frame_logEvent
    | (with_reducible refine Frame.of_mk _ _ _ _ _ _ _ _ _ _ _ _ _ _ _ _ _ _ _ _ _ _ _ _ _ _ _ _ _ hP ?_ rfl ?_ ?_ ?_ ?_ ?_ ?_ ?_ ?_ ?_ ?_ ?_ ?_ ?_ ?_ ?_ ?_ ?_ ?_ ?_ ?_ ?_ ?_ ?_ ?_ ?_ ?_ ?_ ?_ <;>
         first | with_reducible exact Or.inr rfl | exact Or.inl rfl | skip
       with_reducible assumption)

theorem frame_judgeStage (s : State) {P : List Part} {s0 : State}
    (hP : subParts [.ecc, .mem, .rings, .cfg, .bezel, .loupe, .plait, .out] P = true) (h : Frame P s0 s) : Frame P s0 (judgeStage s).2 := by
  have read : ∀ a n, Frame P s0 (readImage (.mem a) n s).2 := fun a n => frame_readImage _ _ _ (subParts_trans (by decide) hP) h
  unfold judgeStage
  extract_lets r
  have hr : Frame P s0 r.2 := by
    show Frame P s0 (Prod.snd (match s.cfg.load with
      | some (a, n) => if n = 0 then _ else _
      | none => _))
    split
    · rename_i a n _
      refine Frame.ite_snd (fun _ => h) (fun _ => ?_)
      have := read a n
      split
      · rename_i e u hu
        rw [hu] at this
        exact this
      · rename_i m u hu
        rw [hu] at this
        exact this.upd hP rfl (fun p hp => by cases p <;> first | exact absurd hp (by decide) | exact rfl)
    · exact h
  split
  · exact hr
  · split <;> exact hr

theorem frame_fleetMsg (s : State) (w : Nat) (id : BitVec 8) (kind : Nat) (more : List (BitVec 8)) {P : List Part} {s0 : State} 
    (hP : subParts [.plait, .out] P = true) (h : Frame P s0 s) : Frame P s0 (fleetMsg s w id kind more) := by
  unfold fleetMsg
  repeat' first
    | with_reducible assumption
    | with_reducible apply frame_plaitMsg

theorem frame_fleetAbortAll (s : State) (f : Fleet) (cause : Nat) {P : List Part} {s0 : State} 
    (hP : subParts [.rings, .cfg, .bezel, .loupe, .plait, .out] P = true) (h : Frame P s0 s) : Frame P s0 (fleetAbortAll s f cause) := by
  unfold fleetAbortAll
  try extract_lets
  repeat' first
    | with_reducible assumption
    | exact subParts_trans (by decide) hP
    | with_reducible apply Frame.foldl
    | with_reducible apply frame_fleetMsg
    | with_reducible apply frame_unsealStage
    | with_reducible apply frame_logEvent
    | intro _ _ _
    | (with_reducible refine Frame.of_mk _ _ _ _ _ _ _ _ _ _ _ _ _ _ _ _ _ _ _ _ _ _ _ _ _ _ _ _ _ hP ?_ rfl ?_ ?_ ?_ ?_ ?_ ?_ ?_ ?_ ?_ ?_ ?_ ?_ ?_ ?_ ?_ ?_ ?_ ?_ ?_ ?_ ?_ ?_ ?_ ?_ ?_ ?_ ?_ ?_ <;>
         first | with_reducible exact Or.inr rfl | exact Or.inl rfl | skip
       with_reducible apply Frame.ite <;> intro _)

theorem frame_fleetEnd (s : State) (f : Fleet) (cause : Nat) (status : Nat) {P : List Part} {s0 : State}
    (hP : subParts [.mem, .pwr, .weave, .rings, .cfg, .bezel, .loupe, .plait, .out] P = true) (h : Frame P s0 s) : Frame P s0 (fleetEnd s f cause status) := by
  have key : ∀ u, Frame P s0 u → Frame P s0 (dropAct (unqueue { u with cfg.fleet := none } f.act.d) f.act status) := by
    intro u k
    refine frame_dropAct _ _ _ _ _ _ (subParts_trans (by decide) hP) ?_
    refine frame_unqueue _ _ (subParts_trans (by decide) hP) ?_
    (with_reducible refine Frame.of_mk _ _ _ _ _ _ _ _ _ _ _ _ _ _ _ _ _ _ _ _ _ _ _ _ _ _ _ _ _ hP ?_ rfl ?_ ?_ ?_ ?_ ?_ ?_ ?_ ?_ ?_ ?_ ?_ ?_ ?_ ?_ ?_ ?_ ?_ ?_ ?_ ?_ ?_ ?_ ?_ ?_ ?_ ?_ ?_ ?_ <;>
      first | with_reducible exact Or.inr rfl | exact Or.inl rfl | skip)
    with_reducible exact k
  exact key _ (frame_fleetAbortAll _ _ _ (subParts_trans (by decide) hP) h)

theorem frame_fleetVoted (s : State) (f : Fleet) {P : List Part} {s0 : State} 
    (hP : subParts [.mem, .pwr, .weave, .rings, .cfg, .bezel, .loupe, .plait, .out] P = true) (h : Frame P s0 s) : Frame P s0 (fleetVoted s f) := by
  unfold fleetVoted
  try extract_lets
  repeat' first
    | with_reducible assumption
    | exact subParts_trans (by decide) hP
    | with_reducible apply frame_fleetEnd
    | with_reducible apply frame_fleetMsg
    | with_reducible apply Frame.ite <;> intro _
    | intro _ _ _
    | (with_reducible refine Frame.of_mk _ _ _ _ _ _ _ _ _ _ _ _ _ _ _ _ _ _ _ _ _ _ _ _ _ _ _ _ _ hP ?_ rfl ?_ ?_ ?_ ?_ ?_ ?_ ?_ ?_ ?_ ?_ ?_ ?_ ?_ ?_ ?_ ?_ ?_ ?_ ?_ ?_ ?_ ?_ ?_ ?_ ?_ ?_ ?_ ?_ <;>
         first | with_reducible exact Or.inr rfl | exact Or.inl rfl | skip
       with_reducible apply Frame.foldl)

theorem frame_fleetApplyOwn (s : State) (f : Fleet) {P : List Part} {s0 : State}
    (hP : subParts [.sys, .mem, .nor, .pwr, .rings, .cfg, .bezel, .loupe, .hso, .edge, .led, .fio, .vlv, .facet, .can, .net, .plait, .out] P = true) (h : Frame P s0 s) : Frame P s0 (fleetApplyOwn s f) := by
  have own : ∀ u, Frame P s0 u → Frame P s0 { u with cfg.lastApplied := u.cfg.fleetId } := by
    intro u k
    (with_reducible refine Frame.of_mk _ _ _ _ _ _ _ _ _ _ _ _ _ _ _ _ _ _ _ _ _ _ _ _ _ _ _ _ _ hP ?_ rfl ?_ ?_ ?_ ?_ ?_ ?_ ?_ ?_ ?_ ?_ ?_ ?_ ?_ ?_ ?_ ?_ ?_ ?_ ?_ ?_ ?_ ?_ ?_ ?_ ?_ ?_ ?_ ?_ <;>
      first | with_reducible exact Or.inr rfl | exact Or.inl rfl | skip)
    with_reducible exact k
  have k : Frame P s0 { applyStage s with cfg.lastApplied := (applyStage s).cfg.fleetId } :=
    own _ (frame_applyStage _ (subParts_trans (by decide) hP) h)
  exact Frame.ite (fun _ => Frame.ite (fun _ => frame_startPersist _ _ (subParts_trans (by decide) hP) k) (fun _ => k)) (fun _ => h)

theorem frame_actFleetAbort (a : Act) (s : State) {P : List Part} {s0 : State} 
    (hP : subParts [.mem, .pwr, .weave, .rings, .cfg, .bezel, .loupe, .plait, .out] P = true) (h : Frame P s0 s) : Frame P s0 (actFleetAbort a s) := by
  unfold actFleetAbort
  try extract_lets
  repeat' first
    | with_reducible assumption
    | exact subParts_trans (by decide) hP
    | with_reducible apply frame_refuse
    | with_reducible apply frame_finish
    | with_reducible apply frame_fleetEnd
    | with_reducible apply Frame.ite <;> intro _
    | (with_reducible refine Frame.of_mk _ _ _ _ _ _ _ _ _ _ _ _ _ _ _ _ _ _ _ _ _ _ _ _ _ _ _ _ _ hP ?_ rfl ?_ ?_ ?_ ?_ ?_ ?_ ?_ ?_ ?_ ?_ ?_ ?_ ?_ ?_ ?_ ?_ ?_ ?_ ?_ ?_ ?_ ?_ ?_ ?_ ?_ ?_ ?_ ?_ <;>
         first | with_reducible exact Or.inr rfl | exact Or.inl rfl | skip
       split)

theorem frame_execFleetAbort (d : Desc) (s : State) :
    OutFrame [.ecc, .mem, .pwr, .weave, .rings, .cfg, .bezel, .loupe, .plait, .out] s (execFleetAbort d s) := by
  have h := Frame.refl [.ecc, .mem, .pwr, .weave, .rings, .cfg, .bezel, .loupe, .plait, .out] s
  have hP : subParts [.ecc, .mem, .pwr, .weave, .rings, .cfg, .bezel, .loupe, .plait, .out] [.ecc, .mem, .pwr, .weave, .rings, .cfg, .bezel, .loupe, .plait, .out] = true := by decide
  unfold execFleetAbort
  show Frame [.ecc, .mem, .pwr, .weave, .rings, .cfg, .bezel, .loupe, .plait, .out] _ _
  repeat' first
    | with_reducible assumption
    | exact subParts_trans (by decide) hP
    | with_reducible apply frame_accept
    | with_reducible apply frame_actFleetAbort
    | intro _ _ _

theorem frame_fleetNo (s : State) (f : Fleet) (w : Nat) (detail : BitVec 16) {P : List Part} {s0 : State} 
    (hP : subParts [.rings, .cfg, .bezel, .loupe, .plait, .out] P = true) (h : Frame P s0 s) : Frame P s0 (fleetNo s f w detail) := by
  unfold fleetNo
  try extract_lets
  repeat' first
    | with_reducible assumption
    | with_reducible apply frame_fleetAbortAll

theorem frame_fleetVote (s : State) (w : Nat) (yes : Bool) (detail : BitVec 16) {P : List Part} {s0 : State} 
    (hP : subParts [.mem, .pwr, .weave, .rings, .cfg, .bezel, .loupe, .plait, .out] P = true) (h : Frame P s0 s) : Frame P s0 (fleetVote s w yes detail) := by
  unfold fleetVote
  try extract_lets
  repeat' first
    | with_reducible assumption
    | exact subParts_trans (by decide) hP
    | with_reducible apply frame_fleetVoted
    | with_reducible apply frame_fleetNo
    | with_reducible apply Frame.ite <;> intro _
    | (with_reducible refine Frame.of_mk _ _ _ _ _ _ _ _ _ _ _ _ _ _ _ _ _ _ _ _ _ _ _ _ _ _ _ _ _ hP ?_ rfl ?_ ?_ ?_ ?_ ?_ ?_ ?_ ?_ ?_ ?_ ?_ ?_ ?_ ?_ ?_ ?_ ?_ ?_ ?_ ?_ ?_ ?_ ?_ ?_ ?_ ?_ ?_ ?_ <;>
         first | with_reducible exact Or.inr rfl | exact Or.inl rfl | skip
       first
         | with_reducible assumption
         | split
      )

theorem frame_execFleetVoteRx (worker : Fin 32) (yes : Bool) (detail : BitVec 16) (s : State) :
    OutFrame [.mem, .pwr, .weave, .rings, .cfg, .bezel, .loupe, .plait, .out] s (execFleetVoteRx worker yes detail s) := by
  have h := Frame.refl [.mem, .pwr, .weave, .rings, .cfg, .bezel, .loupe, .plait, .out] s
  have hP : subParts [.mem, .pwr, .weave, .rings, .cfg, .bezel, .loupe, .plait, .out] [.mem, .pwr, .weave, .rings, .cfg, .bezel, .loupe, .plait, .out] = true := by decide
  unfold execFleetVoteRx
  show Frame [.mem, .pwr, .weave, .rings, .cfg, .bezel, .loupe, .plait, .out] _ _
  repeat' first
    | with_reducible assumption
    | with_reducible apply frame_fleetVote

theorem frame_execFleetVoteTimeout (s : State) :
    OutFrame [.rings, .cfg, .bezel, .loupe, .plait, .out] s (execFleetVoteTimeout s) := by
  have h := Frame.refl [.rings, .cfg, .bezel, .loupe, .plait, .out] s
  have hP : subParts [.rings, .cfg, .bezel, .loupe, .plait, .out] [.rings, .cfg, .bezel, .loupe, .plait, .out] = true := by decide
  unfold execFleetVoteTimeout
  show Frame [.rings, .cfg, .bezel, .loupe, .plait, .out] _ _
  try extract_lets
  repeat' first
    | with_reducible assumption
    | with_reducible apply frame_fleetAbortAll
    | with_reducible apply Frame.ite <;> intro _
    | (with_reducible refine Frame.of_mk _ _ _ _ _ _ _ _ _ _ _ _ _ _ _ _ _ _ _ _ _ _ _ _ _ _ _ _ _ hP ?_ rfl ?_ ?_ ?_ ?_ ?_ ?_ ?_ ?_ ?_ ?_ ?_ ?_ ?_ ?_ ?_ ?_ ?_ ?_ ?_ ?_ ?_ ?_ ?_ ?_ ?_ ?_ ?_ ?_ <;>
         first | with_reducible exact Or.inr rfl | exact Or.inl rfl | skip
       split)

theorem frame_fleetOutcome (s : State) (f : Fleet) {P : List Part} {s0 : State} 
    (hP : subParts [.mem, .pwr, .rings, .cfg, .plait, .out] P = true) (h : Frame P s0 s) : Frame P s0 (fleetOutcome s f) := by
  unfold fleetOutcome
  try extract_lets
  repeat' first
    | exact subParts_trans (by decide) hP
    | with_reducible apply frame_finish
    | with_reducible apply frame_finishAs
    | with_reducible apply frame_dropAct
    | with_reducible apply Frame.ite <;> intro _
    | (with_reducible refine Frame.of_mk _ _ _ _ _ _ _ _ _ _ _ _ _ _ _ _ _ _ _ _ _ _ _ _ _ _ _ _ _ hP ?_ rfl ?_ ?_ ?_ ?_ ?_ ?_ ?_ ?_ ?_ ?_ ?_ ?_ ?_ ?_ ?_ ?_ ?_ ?_ ?_ ?_ ?_ ?_ ?_ ?_ ?_ ?_ ?_ ?_ <;>
         first | with_reducible exact Or.inr rfl | exact Or.inl rfl | skip
       first
         | with_reducible assumption
         | split
      )
    | extract_lets
    | dsimp +zetaDelta only

theorem frame_execFleetCommitDue (s : State) :
    OutFrame [.clk, .sys, .mem, .nor, .pwr, .weave, .rings, .cfg, .bezel, .loupe, .hso, .edge, .led, .fio, .vlv, .facet, .can, .net, .plait, .out] s (execFleetCommitDue s) := by
  have h := Frame.refl [.clk, .sys, .mem, .nor, .pwr, .weave, .rings, .cfg, .bezel, .loupe, .hso, .edge, .led, .fio, .vlv, .facet, .can, .net, .plait, .out] s
  have hP : subParts [.clk, .sys, .mem, .nor, .pwr, .weave, .rings, .cfg, .bezel, .loupe, .hso, .edge, .led, .fio, .vlv, .facet, .can, .net, .plait, .out] [.clk, .sys, .mem, .nor, .pwr, .weave, .rings, .cfg, .bezel, .loupe, .hso, .edge, .led, .fio, .vlv, .facet, .can, .net, .plait, .out] = true := by decide
  unfold execFleetCommitDue
  show Frame [.clk, .sys, .mem, .nor, .pwr, .weave, .rings, .cfg, .bezel, .loupe, .hso, .edge, .led, .fio, .vlv, .facet, .can, .net, .plait, .out] _ _
  try extract_lets
  repeat' first
    | with_reducible assumption
    | exact subParts_trans (by decide) hP
    | with_reducible apply frame_State_reachWeave
    | with_reducible apply frame_fleetApplyOwn
    | with_reducible apply frame_unqueue
    | with_reducible apply frame_fleetAbortAll
    | with_reducible apply frame_fleetOutcome
    | with_reducible apply Frame.ite <;> intro _
    | (with_reducible refine Frame.of_mk _ _ _ _ _ _ _ _ _ _ _ _ _ _ _ _ _ _ _ _ _ _ _ _ _ _ _ _ _ hP ?_ rfl ?_ ?_ ?_ ?_ ?_ ?_ ?_ ?_ ?_ ?_ ?_ ?_ ?_ ?_ ?_ ?_ ?_ ?_ ?_ ?_ ?_ ?_ ?_ ?_ ?_ ?_ ?_ ?_ <;>
         first | with_reducible exact Or.inr rfl | exact Or.inl rfl | skip
       first
         | with_reducible apply frame_State_reachWeave
         | split
      )

theorem frame_execFleetApplyRetx (s : State) :
    OutFrame [.cfg, .plait, .out] s (execFleetApplyRetx s) := by
  have h := Frame.refl [.cfg, .plait, .out] s
  have hP : subParts [.cfg, .plait, .out] [.cfg, .plait, .out] = true := by decide
  unfold execFleetApplyRetx
  show Frame [.cfg, .plait, .out] _ _
  try extract_lets
  repeat' first
    | with_reducible assumption
    | exact subParts_trans (by decide) hP
    | with_reducible apply Frame.foldl
    | with_reducible apply frame_fleetMsg
    | with_reducible apply Frame.ite <;> intro _
    | intro _ _ _
    | (with_reducible refine Frame.of_mk _ _ _ _ _ _ _ _ _ _ _ _ _ _ _ _ _ _ _ _ _ _ _ _ _ _ _ _ _ hP ?_ rfl ?_ ?_ ?_ ?_ ?_ ?_ ?_ ?_ ?_ ?_ ?_ ?_ ?_ ?_ ?_ ?_ ?_ ?_ ?_ ?_ ?_ ?_ ?_ ?_ ?_ ?_ ?_ ?_ <;>
         first | with_reducible exact Or.inr rfl | exact Or.inl rfl | skip
       first
         | with_reducible assumption
         | split
      )

theorem frame_workerEvent (s : State) (w : Nat) (block : Nat) (code : Nat) (d0 : Nat) (d1 : Nat) {P : List Part} {s0 : State} 
    (hP : subParts [.mem, .pwr, .rings, .bezel, .loupe, .plait, .out] P = true) (h : Frame P s0 s) : Frame P s0 (workerEvent s w block code d0 d1) := by
  unfold workerEvent
  try extract_lets
  repeat' first
    | with_reducible assumption
    | with_reducible apply frame_postEvent
    | with_reducible apply Frame.ite <;> intro _
    | (with_reducible refine Frame.of_mk _ _ _ _ _ _ _ _ _ _ _ _ _ _ _ _ _ _ _ _ _ _ _ _ _ _ _ _ _ hP ?_ rfl ?_ ?_ ?_ ?_ ?_ ?_ ?_ ?_ ?_ ?_ ?_ ?_ ?_ ?_ ?_ ?_ ?_ ?_ ?_ ?_ ?_ ?_ ?_ ?_ ?_ ?_ ?_ ?_ <;>
         first | with_reducible exact Or.inr rfl | exact Or.inl rfl | skip
       split)

theorem frame_fleetAck (s : State) (w : Nat) (late : Bool) {P : List Part} {s0 : State} 
    (hP : subParts [.mem, .pwr, .rings, .cfg, .bezel, .loupe, .plait, .out] P = true) (h : Frame P s0 s) : Frame P s0 (fleetAck s w late) := by
  unfold fleetAck
  try extract_lets
  repeat' first
    | with_reducible assumption
    | exact subParts_trans (by decide) hP
    | with_reducible apply frame_workerEvent
    | with_reducible apply Frame.ite <;> intro _
    | (with_reducible refine Frame.of_mk _ _ _ _ _ _ _ _ _ _ _ _ _ _ _ _ _ _ _ _ _ _ _ _ _ _ _ _ _ hP ?_ rfl ?_ ?_ ?_ ?_ ?_ ?_ ?_ ?_ ?_ ?_ ?_ ?_ ?_ ?_ ?_ ?_ ?_ ?_ ?_ ?_ ?_ ?_ ?_ ?_ ?_ ?_ ?_ ?_ <;>
         first | with_reducible exact Or.inr rfl | exact Or.inl rfl | skip
       first
         | with_reducible assumption
         | with_reducible apply Frame.ite <;> intro _
         | split
      )

theorem frame_execFleetApplyAckRx (worker : Fin 32) (late : Bool) (s : State) :
    OutFrame [.mem, .pwr, .rings, .cfg, .bezel, .loupe, .plait, .out] s (execFleetApplyAckRx worker late s) := by
  have h := Frame.refl [.mem, .pwr, .rings, .cfg, .bezel, .loupe, .plait, .out] s
  have hP : subParts [.mem, .pwr, .rings, .cfg, .bezel, .loupe, .plait, .out] [.mem, .pwr, .rings, .cfg, .bezel, .loupe, .plait, .out] = true := by decide
  unfold execFleetApplyAckRx
  show Frame [.mem, .pwr, .rings, .cfg, .bezel, .loupe, .plait, .out] _ _
  repeat' first
    | with_reducible assumption
    | with_reducible apply frame_fleetAck

theorem frame_fleetPrepare (s : State) (id : BitVec 8) (persist : Bool) {P : List Part} {s0 : State} 
    (hP : subParts [.cfg, .plait, .out] P = true) (h : Frame P s0 s) : Frame P s0 (fleetPrepare s id persist) := by
  unfold fleetPrepare
  try extract_lets
  repeat' first
    | with_reducible assumption
    | exact subParts_trans (by decide) hP
    | with_reducible apply frame_fleetMsg
    | with_reducible apply frame_sealStage
    | with_reducible apply Frame.ite <;> intro _
    | (with_reducible refine Frame.of_mk _ _ _ _ _ _ _ _ _ _ _ _ _ _ _ _ _ _ _ _ _ _ _ _ _ _ _ _ _ hP ?_ rfl ?_ ?_ ?_ ?_ ?_ ?_ ?_ ?_ ?_ ?_ ?_ ?_ ?_ ?_ ?_ ?_ ?_ ?_ ?_ ?_ ?_ ?_ ?_ ?_ ?_ ?_ ?_ ?_ <;>
         first | with_reducible exact Or.inr rfl | exact Or.inl rfl | skip
       with_reducible assumption)

theorem frame_execFleetPrepareRx (id : BitVec 8) (persist : Bool) (s : State) :
    OutFrame [.cfg, .plait, .out] s (execFleetPrepareRx id persist s) := by
  have h := Frame.refl [.cfg, .plait, .out] s
  have hP : subParts [.cfg, .plait, .out] [.cfg, .plait, .out] = true := by decide
  unfold execFleetPrepareRx
  show Frame [.cfg, .plait, .out] _ _
  repeat' first
    | with_reducible assumption
    | with_reducible apply frame_fleetPrepare

theorem frame_fleetApply (s : State) (id : BitVec 8) (due : BitVec 64) {P : List Part} {s0 : State} 
    (hP : subParts [.weave, .rings, .cfg, .bezel, .loupe, .plait, .out] P = true) (h : Frame P s0 s) : Frame P s0 (fleetApply s id due) := by
  unfold fleetApply
  try extract_lets
  repeat' first
    | with_reducible assumption
    | exact subParts_trans (by decide) hP
    | with_reducible apply frame_logEvent
    | with_reducible apply frame_fleetMsg
    | with_reducible apply Frame.ite <;> intro _
    | (with_reducible refine Frame.of_mk _ _ _ _ _ _ _ _ _ _ _ _ _ _ _ _ _ _ _ _ _ _ _ _ _ _ _ _ _ hP ?_ rfl ?_ ?_ ?_ ?_ ?_ ?_ ?_ ?_ ?_ ?_ ?_ ?_ ?_ ?_ ?_ ?_ ?_ ?_ ?_ ?_ ?_ ?_ ?_ ?_ ?_ ?_ ?_ ?_ <;>
         first | with_reducible exact Or.inr rfl | exact Or.inl rfl | skip
       with_reducible assumption)

theorem frame_execFleetApplyRx (id : BitVec 8) (due : BitVec 64) (s : State) :
    OutFrame [.weave, .rings, .cfg, .bezel, .loupe, .plait, .out] s (execFleetApplyRx id due s) := by
  have h := Frame.refl [.weave, .rings, .cfg, .bezel, .loupe, .plait, .out] s
  have hP : subParts [.weave, .rings, .cfg, .bezel, .loupe, .plait, .out] [.weave, .rings, .cfg, .bezel, .loupe, .plait, .out] = true := by decide
  unfold execFleetApplyRx
  show Frame [.weave, .rings, .cfg, .bezel, .loupe, .plait, .out] _ _
  repeat' first
    | with_reducible assumption
    | with_reducible apply frame_fleetApply

theorem frame_fleetAbort (s : State) (id : BitVec 8) {P : List Part} {s0 : State} 
    (hP : subParts [.weave, .rings, .cfg, .bezel, .loupe, .plait, .out] P = true) (h : Frame P s0 s) : Frame P s0 (fleetAbort s id) := by
  unfold fleetAbort
  try extract_lets
  repeat' first
    | with_reducible assumption
    | exact subParts_trans (by decide) hP
    | with_reducible apply frame_logEvent
    | with_reducible apply frame_unsealStage
    | with_reducible apply Frame.ite <;> intro _
    | (with_reducible refine Frame.of_mk _ _ _ _ _ _ _ _ _ _ _ _ _ _ _ _ _ _ _ _ _ _ _ _ _ _ _ _ _ hP ?_ rfl ?_ ?_ ?_ ?_ ?_ ?_ ?_ ?_ ?_ ?_ ?_ ?_ ?_ ?_ ?_ ?_ ?_ ?_ ?_ ?_ ?_ ?_ ?_ ?_ ?_ ?_ ?_ ?_ <;>
         first | with_reducible exact Or.inr rfl | exact Or.inl rfl | skip
       with_reducible assumption)

theorem frame_execFleetAbortRx (id : BitVec 8) (s : State) :
    OutFrame [.weave, .rings, .cfg, .bezel, .loupe, .plait, .out] s (execFleetAbortRx id s) := by
  have h := Frame.refl [.weave, .rings, .cfg, .bezel, .loupe, .plait, .out] s
  have hP : subParts [.weave, .rings, .cfg, .bezel, .loupe, .plait, .out] [.weave, .rings, .cfg, .bezel, .loupe, .plait, .out] = true := by decide
  unfold execFleetAbortRx
  show Frame [.weave, .rings, .cfg, .bezel, .loupe, .plait, .out] _ _
  repeat' first
    | with_reducible assumption
    | with_reducible apply frame_fleetAbort

theorem frame_execFleetHoldExpiry (s : State) :
    OutFrame [.rings, .cfg, .bezel, .loupe, .plait, .out] s (execFleetHoldExpiry s) := by
  have h := Frame.refl [.rings, .cfg, .bezel, .loupe, .plait, .out] s
  have hP : subParts [.rings, .cfg, .bezel, .loupe, .plait, .out] [.rings, .cfg, .bezel, .loupe, .plait, .out] = true := by decide
  unfold execFleetHoldExpiry
  show Frame [.rings, .cfg, .bezel, .loupe, .plait, .out] _ _
  try extract_lets
  repeat' first
    | with_reducible assumption
    | exact subParts_trans (by decide) hP
    | with_reducible apply frame_logEvent
    | with_reducible apply Frame.ite <;> intro _
    | (with_reducible refine Frame.of_mk _ _ _ _ _ _ _ _ _ _ _ _ _ _ _ _ _ _ _ _ _ _ _ _ _ _ _ _ _ hP ?_ rfl ?_ ?_ ?_ ?_ ?_ ?_ ?_ ?_ ?_ ?_ ?_ ?_ ?_ ?_ ?_ ?_ ?_ ?_ ?_ ?_ ?_ ?_ ?_ ?_ ?_ ?_ ?_ ?_ <;>
         first | with_reducible exact Or.inr rfl | exact Or.inl rfl | skip
       with_reducible apply frame_clearStage)

theorem frame_commitFail (s : State) (c : Commit) (v : Verdict) {P : List Part} {s0 : State} 
    (hP : subParts [.mem, .pwr, .weave, .rings, .cfg, .bezel, .loupe, .plait, .out] P = true) (h : Frame P s0 s) : Frame P s0 (commitFail s c v) := by
  unfold commitFail
  try extract_lets
  repeat' first
    | with_reducible assumption
    | exact subParts_trans (by decide) hP
    | with_reducible apply frame_unqueue
    | with_reducible apply frame_unsealStage
    | with_reducible apply frame_dropAct
    | with_reducible apply frame_reportFail
    | (with_reducible refine Frame.of_mk _ _ _ _ _ _ _ _ _ _ _ _ _ _ _ _ _ _ _ _ _ _ _ _ _ _ _ _ _ hP ?_ rfl ?_ ?_ ?_ ?_ ?_ ?_ ?_ ?_ ?_ ?_ ?_ ?_ ?_ ?_ ?_ ?_ ?_ ?_ ?_ ?_ ?_ ?_ ?_ ?_ ?_ ?_ ?_ ?_ <;>
         first | with_reducible exact Or.inr rfl | exact Or.inl rfl | skip
       split)

theorem frame_commitPass (s : State) (c : Commit) {P : List Part} {s0 : State} 
    (hP : subParts [.weave, .cfg] P = true) (h : Frame P s0 s) : Frame P s0 (commitPass s c) := by
  unfold commitPass
  try extract_lets
  repeat' first
    | with_reducible apply Frame.ite <;> intro _
    | (with_reducible refine Frame.of_mk _ _ _ _ _ _ _ _ _ _ _ _ _ _ _ _ _ _ _ _ _ _ _ _ _ _ _ _ _ hP ?_ rfl ?_ ?_ ?_ ?_ ?_ ?_ ?_ ?_ ?_ ?_ ?_ ?_ ?_ ?_ ?_ ?_ ?_ ?_ ?_ ?_ ?_ ?_ ?_ ?_ ?_ ?_ ?_ ?_ <;>
         first | with_reducible exact Or.inr rfl | exact Or.inl rfl | skip
       with_reducible assumption)
    | extract_lets
    | dsimp +zetaDelta only

theorem frame_fleetChecked (s : State) (c : Commit) (v : Verdict) {P : List Part} {s0 : State} 
    (hP : subParts [.mem, .pwr, .weave, .rings, .cfg, .bezel, .loupe, .plait, .out] P = true) (h : Frame P s0 s) : Frame P s0 (fleetChecked s c v) := by
  unfold fleetChecked
  try extract_lets
  repeat' first
    | with_reducible assumption
    | exact subParts_trans (by decide) hP
    | with_reducible apply frame_reportFail
    | with_reducible apply frame_fleetVote
    | with_reducible apply frame_fleetMsg
    | with_reducible apply frame_unsealStage
    | (with_reducible refine Frame.of_mk _ _ _ _ _ _ _ _ _ _ _ _ _ _ _ _ _ _ _ _ _ _ _ _ _ _ _ _ _ hP ?_ rfl ?_ ?_ ?_ ?_ ?_ ?_ ?_ ?_ ?_ ?_ ?_ ?_ ?_ ?_ ?_ ?_ ?_ ?_ ?_ ?_ ?_ ?_ ?_ ?_ ?_ ?_ ?_ ?_ <;>
         first | with_reducible exact Or.inr rfl | exact Or.inl rfl | skip
       first
         | with_reducible assumption
         | split
      )

theorem frame_execCommitCheckDone (s : State) :
    OutFrame [.ecc, .mem, .pwr, .weave, .rings, .cfg, .bezel, .loupe, .plait, .out] s (execCommitCheckDone s) := by
  have h := Frame.refl [.ecc, .mem, .pwr, .weave, .rings, .cfg, .bezel, .loupe, .plait, .out] s
  have hP : subParts [.ecc, .mem, .pwr, .weave, .rings, .cfg, .bezel, .loupe, .plait, .out] [.ecc, .mem, .pwr, .weave, .rings, .cfg, .bezel, .loupe, .plait, .out] = true := by decide
  unfold execCommitCheckDone
  show Frame [.ecc, .mem, .pwr, .weave, .rings, .cfg, .bezel, .loupe, .plait, .out] _ _
  try extract_lets
  repeat' first
    | with_reducible assumption
    | exact subParts_trans (by decide) hP
    | with_reducible apply frame_judgeStage
    | with_reducible apply frame_fleetChecked
    | with_reducible apply frame_commitPass
    | with_reducible apply frame_commitFail
    | with_reducible apply Frame.ite <;> intro _
    | (with_reducible refine Frame.of_mk _ _ _ _ _ _ _ _ _ _ _ _ _ _ _ _ _ _ _ _ _ _ _ _ _ _ _ _ _ hP ?_ rfl ?_ ?_ ?_ ?_ ?_ ?_ ?_ ?_ ?_ ?_ ?_ ?_ ?_ ?_ ?_ ?_ ?_ ?_ ?_ ?_ ?_ ?_ ?_ ?_ ?_ ?_ ?_ ?_ <;>
         first | with_reducible exact Or.inr rfl | exact Or.inl rfl | skip
       split)

theorem frame_execTakeoverExpiry (s : State) :
    OutFrame [.clk, .weave, .cfg] s (execTakeoverExpiry s) := by
  have h := Frame.refl [.clk, .weave, .cfg] s
  have hP : subParts [.clk, .weave, .cfg] [.clk, .weave, .cfg] = true := by decide
  unfold execTakeoverExpiry
  show Frame [.clk, .weave, .cfg] _ _
  try extract_lets
  repeat' first
    | with_reducible assumption
    | exact subParts_trans (by decide) hP
    | with_reducible apply Frame.ite <;> intro _
    | (with_reducible refine Frame.of_mk _ _ _ _ _ _ _ _ _ _ _ _ _ _ _ _ _ _ _ _ _ _ _ _ _ _ _ _ _ hP ?_ rfl ?_ ?_ ?_ ?_ ?_ ?_ ?_ ?_ ?_ ?_ ?_ ?_ ?_ ?_ ?_ ?_ ?_ ?_ ?_ ?_ ?_ ?_ ?_ ?_ ?_ ?_ ?_ ?_ <;>
         first | with_reducible exact Or.inr rfl | exact Or.inl rfl | skip
       with_reducible apply frame_State_reach)

end Sys2Proof.Machine
end

