-- ==== Sys2Proof/Laws/FrameLoupe.lean ====
section
/-! SUPPORT. Which parts of the state the operations of Machine/Loupe.lean may change. -/

namespace Sys2Proof.Machine

set_option linter.unusedTactic false
set_option linter.unreachableTactic false

theorem frame_execLoupeHoldoffEnd (trigger : Fin 64) (s : State) :
    OutFrame [.loupe] s (execLoupeHoldoffEnd trigger s) := by
  have h := Frame.refl [.loupe] s
  have hP : subParts [.loupe] [.loupe] = true := by decide
  unfold execLoupeHoldoffEnd
  show Frame [.loupe] _ _
  try extract_lets
  repeat' first
    | (with_reducible refine Frame.of_mk _ _ _ _ _ _ _ _ _ _ _ _ _ _ _ _ _ _ _ _ _ _ _ _ _ _ _ _ _ hP ?_ rfl ?_ ?_ ?_ ?_ ?_ ?_ ?_ ?_ ?_ ?_ ?_ ?_ ?_ ?_ ?_ ?_ ?_ ?_ ?_ ?_ ?_ ?_ ?_ ?_ ?_ ?_ ?_ ?_ <;>
         first | with_reducible exact Or.inr rfl | exact Or.inl rfl | skip
       with_reducible assumption)

theorem frame_execRecordLand (s : State) :
    OutFrame [.nor, .rings, .bezel, .loupe, .plait, .out] s (execRecordLand s) := by
  have h := Frame.refl [.nor, .rings, .bezel, .loupe, .plait, .out] s
  have hP : subParts [.nor, .rings, .bezel, .loupe, .plait, .out] [.nor, .rings, .bezel, .loupe, .plait, .out] = true := by decide
  unfold execRecordLand
  show Frame [.nor, .rings, .bezel, .loupe, .plait, .out] _ _
  try extract_lets
  repeat' first
    | with_reducible assumption
    | exact subParts_trans (by decide) hP
    | with_reducible apply frame_loupeFull
    | with_reducible apply frame_loupeProgram
    | with_reducible apply Frame.ite <;> intro _
    | (with_reducible refine Frame.of_mk _ _ _ _ _ _ _ _ _ _ _ _ _ _ _ _ _ _ _ _ _ _ _ _ _ _ _ _ _ hP ?_ rfl ?_ ?_ ?_ ?_ ?_ ?_ ?_ ?_ ?_ ?_ ?_ ?_ ?_ ?_ ?_ ?_ ?_ ?_ ?_ ?_ ?_ ?_ ?_ ?_ ?_ ?_ ?_ ?_ <;>
         first | with_reducible exact Or.inr rfl | exact Or.inl rfl | skip
       first
         | with_reducible assumption
         | split
      )

theorem frame_execLoupeControlTick (s : State) :
    OutFrame [.nor] s (execLoupeControlTick s) := by
  have h := Frame.refl [.nor] s
  have hP : subParts [.nor] [.nor] = true := by decide
  unfold execLoupeControlTick
  show Frame [.nor] _ _
  repeat' first
    | with_reducible assumption
    | with_reducible apply frame_loupeControl
    | with_reducible apply Frame.ite <;> intro _

theorem frame_actLoupeClear (lastSeq : BitVec 32) (a : Act) (s : State) {P : List Part} {s0 : State} 
    (hP : subParts [.mem, .nor, .pwr, .rings, .bezel, .loupe, .plait, .upd, .out] P = true) (h : Frame P s0 s) : Frame P s0 (actLoupeClear lastSeq a s) := by
  unfold actLoupeClear
  try extract_lets
  repeat' first
    | with_reducible assumption
    | exact subParts_trans (by decide) hP
    | with_reducible apply frame_refuse
    | with_reducible apply frame_logEvent
    | with_reducible apply frame_loupeControl
    | with_reducible apply frame_mediaFlag
    | with_reducible apply Frame.ite <;> intro _
    | (with_reducible refine Frame.of_mk _ _ _ _ _ _ _ _ _ _ _ _ _ _ _ _ _ _ _ _ _ _ _ _ _ _ _ _ _ hP ?_ rfl ?_ ?_ ?_ ?_ ?_ ?_ ?_ ?_ ?_ ?_ ?_ ?_ ?_ ?_ ?_ ?_ ?_ ?_ ?_ ?_ ?_ ?_ ?_ ?_ ?_ ?_ ?_ ?_ <;>
         first | with_reducible exact Or.inr rfl | exact Or.inl rfl | skip
       with_reducible assumption)

theorem frame_execLoupeClear (d : Desc) (lastSeq : BitVec 32) (s : State) :
    OutFrame [.ecc, .mem, .nor, .pwr, .weave, .rings, .bezel, .loupe, .plait, .upd, .out] s (execLoupeClear d lastSeq s) := by
  have h := Frame.refl [.ecc, .mem, .nor, .pwr, .weave, .rings, .bezel, .loupe, .plait, .upd, .out] s
  have hP : subParts [.ecc, .mem, .nor, .pwr, .weave, .rings, .bezel, .loupe, .plait, .upd, .out] [.ecc, .mem, .nor, .pwr, .weave, .rings, .bezel, .loupe, .plait, .upd, .out] = true := by decide
  unfold execLoupeClear
  show Frame [.ecc, .mem, .nor, .pwr, .weave, .rings, .bezel, .loupe, .plait, .upd, .out] _ _
  repeat' first
    | with_reducible assumption
    | exact subParts_trans (by decide) hP
    | with_reducible apply frame_accept
    | with_reducible apply frame_actLoupeClear
    | intro _ _ _

theorem frame_clearEnds (s : State) {P : List Part} {s0 : State} 
    (hP : subParts [.mem, .pwr, .rings, .loupe, .plait, .out] P = true) (h : Frame P s0 s) : Frame P s0 (clearEnds s) := by
  unfold clearEnds
  try extract_lets
  repeat' first
    | with_reducible assumption
    | exact subParts_trans (by decide) hP
    | with_reducible apply Frame.foldl
    | with_reducible apply frame_finish
    | intro _ _ _
    | (with_reducible refine Frame.of_mk _ _ _ _ _ _ _ _ _ _ _ _ _ _ _ _ _ _ _ _ _ _ _ _ _ _ _ _ _ hP ?_ rfl ?_ ?_ ?_ ?_ ?_ ?_ ?_ ?_ ?_ ?_ ?_ ?_ ?_ ?_ ?_ ?_ ?_ ?_ ?_ ?_ ?_ ?_ ?_ ?_ ?_ ?_ ?_ ?_ <;>
         first | with_reducible exact Or.inr rfl | exact Or.inl rfl | skip
       first
         | with_reducible assumption
         | split
      )

theorem frame_execClearSectorErased (ok : Bool) (s : State) :
    OutFrame [.mem, .nor, .pwr, .rings, .bezel, .loupe, .plait, .upd, .out] s (execClearSectorErased ok s) := by
  have h := Frame.refl [.mem, .nor, .pwr, .rings, .bezel, .loupe, .plait, .upd, .out] s
  have hP : subParts [.mem, .nor, .pwr, .rings, .bezel, .loupe, .plait, .upd, .out] [.mem, .nor, .pwr, .rings, .bezel, .loupe, .plait, .upd, .out] = true := by decide
  unfold execClearSectorErased
  show Frame [.mem, .nor, .pwr, .rings, .bezel, .loupe, .plait, .upd, .out] _ _
  try extract_lets
  repeat' first
    | with_reducible assumption
    | exact subParts_trans (by decide) hP
    | with_reducible apply frame_clearEnds
    | with_reducible apply frame_markBad
    | with_reducible apply Frame.ite <;> intro _
    | (with_reducible refine Frame.of_mk _ _ _ _ _ _ _ _ _ _ _ _ _ _ _ _ _ _ _ _ _ _ _ _ _ _ _ _ _ hP ?_ rfl ?_ ?_ ?_ ?_ ?_ ?_ ?_ ?_ ?_ ?_ ?_ ?_ ?_ ?_ ?_ ?_ ?_ ?_ ?_ ?_ ?_ ?_ ?_ ?_ ?_ ?_ ?_ ?_ <;>
         first | with_reducible exact Or.inr rfl | exact Or.inl rfl | skip
       first
         | with_reducible assumption
         | split
      )
    | extract_lets
    | dsimp only

theorem frame_actLoupeRead (offset : BitVec 25) (a : Act) (s : State) {P : List Part} {s0 : State} 
    (hP : subParts [.ecc, .mem, .pwr, .rings, .bezel, .loupe, .plait, .out] P = true) (h : Frame P s0 s) : Frame P s0 (actLoupeRead offset a s) := by
  unfold actLoupeRead
  try extract_lets
  repeat' first
    | with_reducible assumption
    | exact subParts_trans (by decide) hP
    | with_reducible apply frame_refuse
    | with_reducible apply frame_putBytes
    | with_reducible apply frame_finishAs
    | with_reducible apply frame_finish
    | with_reducible apply Frame.ite <;> intro _
    | (with_reducible refine Frame.of_mk _ _ _ _ _ _ _ _ _ _ _ _ _ _ _ _ _ _ _ _ _ _ _ _ _ _ _ _ _ hP ?_ rfl ?_ ?_ ?_ ?_ ?_ ?_ ?_ ?_ ?_ ?_ ?_ ?_ ?_ ?_ ?_ ?_ ?_ ?_ ?_ ?_ ?_ ?_ ?_ ?_ ?_ ?_ ?_ ?_ <;>
         first | with_reducible exact Or.inr rfl | exact Or.inl rfl | skip
       with_reducible apply frame_putBytes)

theorem frame_execLoupeRead (d : Desc) (offset : BitVec 25) (s : State) :
    OutFrame [.ecc, .mem, .pwr, .weave, .rings, .bezel, .loupe, .plait, .out] s (execLoupeRead d offset s) := by
  have h := Frame.refl [.ecc, .mem, .pwr, .weave, .rings, .bezel, .loupe, .plait, .out] s
  have hP : subParts [.ecc, .mem, .pwr, .weave, .rings, .bezel, .loupe, .plait, .out] [.ecc, .mem, .pwr, .weave, .rings, .bezel, .loupe, .plait, .out] = true := by decide
  unfold execLoupeRead
  show Frame [.ecc, .mem, .pwr, .weave, .rings, .bezel, .loupe, .plait, .out] _ _
  repeat' first
    | with_reducible assumption
    | exact subParts_trans (by decide) hP
    | with_reducible apply frame_accept
    | with_reducible apply frame_actLoupeRead
    | intro _ _ _

theorem frame_actLoupeMark (trig : BitVec 6) (a : Act) (s : State) {P : List Part} {s0 : State} 
    (hP : subParts [.mem, .pwr, .rings, .bezel, .loupe, .plait, .out] P = true) (h : Frame P s0 s) : Frame P s0 (actLoupeMark trig a s) := by
  unfold actLoupeMark
  try extract_lets
  repeat' first
    | with_reducible assumption
    | exact subParts_trans (by decide) hP
    | with_reducible apply frame_refuse
    | with_reducible apply frame_loupeStage
    | with_reducible apply frame_finish
    | with_reducible apply Frame.ite <;> intro _
    | (with_reducible refine Frame.of_mk _ _ _ _ _ _ _ _ _ _ _ _ _ _ _ _ _ _ _ _ _ _ _ _ _ _ _ _ _ hP ?_ rfl ?_ ?_ ?_ ?_ ?_ ?_ ?_ ?_ ?_ ?_ ?_ ?_ ?_ ?_ ?_ ?_ ?_ ?_ ?_ ?_ ?_ ?_ ?_ ?_ ?_ ?_ ?_ ?_ <;>
         first | with_reducible exact Or.inr rfl | exact Or.inl rfl | skip
       split)

theorem frame_execLoupeMark (d : Desc) (trig : BitVec 6) (s : State) :
    OutFrame [.ecc, .mem, .pwr, .weave, .rings, .bezel, .loupe, .plait, .out] s (execLoupeMark d trig s) := by
  have h := Frame.refl [.ecc, .mem, .pwr, .weave, .rings, .bezel, .loupe, .plait, .out] s
  have hP : subParts [.ecc, .mem, .pwr, .weave, .rings, .bezel, .loupe, .plait, .out] [.ecc, .mem, .pwr, .weave, .rings, .bezel, .loupe, .plait, .out] = true := by decide
  unfold execLoupeMark
  show Frame [.ecc, .mem, .pwr, .weave, .rings, .bezel, .loupe, .plait, .out] _ _
  repeat' first
    | with_reducible assumption
    | exact subParts_trans (by decide) hP
    | with_reducible apply frame_accept
    | with_reducible apply frame_actLoupeMark
    | intro _ _ _

end Sys2Proof.Machine
end

