-- ==== Sys2Proof/Laws/FrameSysEcc.lean ====
section
/-! SUPPORT. Which parts of the state the operations of Machine/SysEcc.lean may change. -/

namespace Sys2Proof.Machine

set_option linter.unusedTactic false
set_option linter.unreachableTactic false

theorem frame_execOvpBegin (pair : Fin 3) (s : State) :
    OutFrame [.sys, .mem, .pwr, .rings, .bezel, .loupe, .hso, .edge, .led, .fio, .vlv, .facet, .plait, .out] s (execOvpBegin pair s) := by
  have h := Frame.refl [.sys, .mem, .pwr, .rings, .bezel, .loupe, .hso, .edge, .led, .fio, .vlv, .facet, .plait, .out] s
  have hP : subParts [.sys, .mem, .pwr, .rings, .bezel, .loupe, .hso, .edge, .led, .fio, .vlv, .facet, .plait, .out] [.sys, .mem, .pwr, .rings, .bezel, .loupe, .hso, .edge, .led, .fio, .vlv, .facet, .plait, .out] = true := by decide
  unfold execOvpBegin
  show Frame [.sys, .mem, .pwr, .rings, .bezel, .loupe, .hso, .edge, .led, .fio, .vlv, .facet, .plait, .out] _ _
  try extract_lets
  repeat' first
    | with_reducible assumption
    | exact subParts_trans (by decide) hP
    | with_reducible apply frame_logEvent
    | with_reducible apply frame_hsoPause
    | with_reducible apply frame_ledPause
    | with_reducible apply frame_vlvPause
    | with_reducible apply frame_fioPause
    | with_reducible apply Frame.ite <;> intro _
    | (with_reducible refine Frame.of_mk _ _ _ _ _ _ _ _ _ _ _ _ _ _ _ _ _ _ _ _ _ _ _ _ _ _ _ _ _ hP ?_ rfl ?_ ?_ ?_ ?_ ?_ ?_ ?_ ?_ ?_ ?_ ?_ ?_ ?_ ?_ ?_ ?_ ?_ ?_ ?_ ?_ ?_ ?_ ?_ ?_ ?_ ?_ ?_ ?_ <;>
         first | with_reducible exact Or.inr rfl | exact Or.inl rfl | skip
       first
         | with_reducible assumption
         | split
      )

theorem frame_execOvpEnd (pair : Fin 3) (s : State) :
    OutFrame [.sys, .rings, .bezel, .loupe, .plait, .out] s (execOvpEnd pair s) := by
  have h := Frame.refl [.sys, .rings, .bezel, .loupe, .plait, .out] s
  have hP : subParts [.sys, .rings, .bezel, .loupe, .plait, .out] [.sys, .rings, .bezel, .loupe, .plait, .out] = true := by decide
  unfold execOvpEnd
  show Frame [.sys, .rings, .bezel, .loupe, .plait, .out] _ _
  try extract_lets
  repeat' first
    | with_reducible assumption
    | exact subParts_trans (by decide) hP
    | with_reducible apply frame_logEvent
    | with_reducible apply Frame.ite <;> intro _
    | (with_reducible refine Frame.of_mk _ _ _ _ _ _ _ _ _ _ _ _ _ _ _ _ _ _ _ _ _ _ _ _ _ _ _ _ _ hP ?_ rfl ?_ ?_ ?_ ?_ ?_ ?_ ?_ ?_ ?_ ?_ ?_ ?_ ?_ ?_ ?_ ?_ ?_ ?_ ?_ ?_ ?_ ?_ ?_ ?_ ?_ ?_ ?_ ?_ <;>
         first | with_reducible exact Or.inr rfl | exact Or.inl rfl | skip
       with_reducible assumption)

theorem frame_execSysvMismatch (meanMv : BitVec 16) (s : State) :
    OutFrame [.sys, .rings, .bezel, .loupe, .plait, .out] s (execSysvMismatch meanMv s) := by
  have h := Frame.refl [.sys, .rings, .bezel, .loupe, .plait, .out] s
  have hP : subParts [.sys, .rings, .bezel, .loupe, .plait, .out] [.sys, .rings, .bezel, .loupe, .plait, .out] = true := by decide
  unfold execSysvMismatch
  show Frame [.sys, .rings, .bezel, .loupe, .plait, .out] _ _
  try extract_lets
  repeat' first
    | with_reducible assumption
    | exact subParts_trans (by decide) hP
    | with_reducible apply frame_logEvent
    | with_reducible apply Frame.ite <;> intro _
    | (with_reducible refine Frame.of_mk _ _ _ _ _ _ _ _ _ _ _ _ _ _ _ _ _ _ _ _ _ _ _ _ _ _ _ _ _ hP ?_ rfl ?_ ?_ ?_ ?_ ?_ ?_ ?_ ?_ ?_ ?_ ?_ ?_ ?_ ?_ ?_ ?_ ?_ ?_ ?_ ?_ ?_ ?_ ?_ ?_ ?_ ?_ ?_ ?_ <;>
         first | with_reducible exact Or.inr rfl | exact Or.inl rfl | skip
       with_reducible assumption)

theorem frame_execPlateSensorFault (raw : Int) (s : State) :
    OutFrame [.adc, .rings, .bezel, .loupe, .plait, .out] s (execPlateSensorFault raw s) := by
  have h := Frame.refl [.adc, .rings, .bezel, .loupe, .plait, .out] s
  have hP : subParts [.adc, .rings, .bezel, .loupe, .plait, .out] [.adc, .rings, .bezel, .loupe, .plait, .out] = true := by decide
  unfold execPlateSensorFault
  show Frame [.adc, .rings, .bezel, .loupe, .plait, .out] _ _
  try extract_lets
  repeat' first
    | with_reducible assumption
    | exact subParts_trans (by decide) hP
    | with_reducible apply frame_logEvent
    | with_reducible apply Frame.ite <;> intro _
    | (with_reducible refine Frame.of_mk _ _ _ _ _ _ _ _ _ _ _ _ _ _ _ _ _ _ _ _ _ _ _ _ _ _ _ _ _ hP ?_ rfl ?_ ?_ ?_ ?_ ?_ ?_ ?_ ?_ ?_ ?_ ?_ ?_ ?_ ?_ ?_ ?_ ?_ ?_ ?_ ?_ ?_ ?_ ?_ ?_ ?_ ?_ ?_ ?_ <;>
         first | with_reducible exact Or.inr rfl | exact Or.inl rfl | skip
       with_reducible assumption)

theorem frame_execPlateSensorRecover (reading : Int) (s : State) :
    OutFrame [.adc] s (execPlateSensorRecover reading s) := by
  have h := Frame.refl [.adc] s
  have hP : subParts [.adc] [.adc] = true := by decide
  unfold execPlateSensorRecover
  show Frame [.adc] _ _
  try extract_lets
  repeat' first
    | with_reducible assumption
    | with_reducible apply Frame.ite <;> intro _
    | (with_reducible refine Frame.of_mk _ _ _ _ _ _ _ _ _ _ _ _ _ _ _ _ _ _ _ _ _ _ _ _ _ _ _ _ _ hP ?_ rfl ?_ ?_ ?_ ?_ ?_ ?_ ?_ ?_ ?_ ?_ ?_ ?_ ?_ ?_ ?_ ?_ ?_ ?_ ?_ ?_ ?_ ?_ ?_ ?_ ?_ ?_ ?_ ?_ <;>
         first | with_reducible exact Or.inr rfl | exact Or.inl rfl | skip
       with_reducible assumption)

theorem frame_execRefFault (v5aMv : BitVec 13) (s : State) :
    OutFrame [.adc, .rings, .bezel, .loupe, .plait, .out] s (execRefFault v5aMv s) := by
  have h := Frame.refl [.adc, .rings, .bezel, .loupe, .plait, .out] s
  have hP : subParts [.adc, .rings, .bezel, .loupe, .plait, .out] [.adc, .rings, .bezel, .loupe, .plait, .out] = true := by decide
  unfold execRefFault
  show Frame [.adc, .rings, .bezel, .loupe, .plait, .out] _ _
  try extract_lets
  repeat' first
    | with_reducible assumption
    | exact subParts_trans (by decide) hP
    | with_reducible apply frame_logEvent
    | with_reducible apply Frame.ite <;> intro _
    | (with_reducible refine Frame.of_mk _ _ _ _ _ _ _ _ _ _ _ _ _ _ _ _ _ _ _ _ _ _ _ _ _ _ _ _ _ hP ?_ rfl ?_ ?_ ?_ ?_ ?_ ?_ ?_ ?_ ?_ ?_ ?_ ?_ ?_ ?_ ?_ ?_ ?_ ?_ ?_ ?_ ?_ ?_ ?_ ?_ ?_ ?_ ?_ ?_ <;>
         first | with_reducible exact Or.inr rfl | exact Or.inl rfl | skip
       with_reducible assumption)

theorem frame_execScrubWord (s : State) :
    OutFrame [.ecc, .mem, .rings, .bezel, .loupe, .plait, .out] s (execScrubWord s) := by
  have h := Frame.refl [.ecc, .mem, .rings, .bezel, .loupe, .plait, .out] s
  have hP : subParts [.ecc, .mem, .rings, .bezel, .loupe, .plait, .out] [.ecc, .mem, .rings, .bezel, .loupe, .plait, .out] = true := by decide
  unfold execScrubWord
  show Frame [.ecc, .mem, .rings, .bezel, .loupe, .plait, .out] _ _
  try extract_lets
  repeat' first
    | with_reducible assumption
    | exact subParts_trans (by decide) hP
    | with_reducible apply frame_logEvent
    | with_reducible apply Frame.ite <;> intro _
    | (with_reducible refine Frame.of_mk _ _ _ _ _ _ _ _ _ _ _ _ _ _ _ _ _ _ _ _ _ _ _ _ _ _ _ _ _ hP ?_ rfl ?_ ?_ ?_ ?_ ?_ ?_ ?_ ?_ ?_ ?_ ?_ ?_ ?_ ?_ ?_ ?_ ?_ ?_ ?_ ?_ ?_ ?_ ?_ ?_ ?_ ?_ ?_ ?_ <;>
         first | with_reducible exact Or.inr rfl | exact Or.inl rfl | skip
       with_reducible apply frame_readWord)

theorem frame_actEccInject (addr : BitVec 64) (kind : BitVec 2) (a : Act) (s : State) {P : List Part} {s0 : State}
    (hP : subParts [.ecc, .mem, .pwr, .rings, .bezel, .loupe, .plait, .out] P = true) (h : Frame P s0 s) :
    Frame P s0 (actEccInject addr kind a s) := by
  unfold actEccInject
  extract_lets w r
  have hr : Frame P s0 r.2 := frame_readWord _ _ _ (subParts_trans (by decide) hP) h
  refine Frame.ite (fun _ => frame_refuse _ _ _ _ _ _ (subParts_trans (by decide) hP) h) (fun _ => Frame.ite (fun _ => ?_) (fun _ =>
    frame_refuse _ _ _ _ _ _ (subParts_trans (by decide) hP) hr))
  exact frame_finish _ _ _ _ _ (subParts_trans (by decide) hP) (hr.upd hP rfl (fun p hp => by cases p <;> first | exact absurd hp (by decide) | exact rfl))

theorem frame_execEccInject (d : Desc) (addr : BitVec 64) (kind : BitVec 2) (s : State) :
    OutFrame [.ecc, .mem, .pwr, .weave, .rings, .bezel, .loupe, .plait, .out] s (execEccInject d addr kind s) := by
  have h := Frame.refl [.ecc, .mem, .pwr, .weave, .rings, .bezel, .loupe, .plait, .out] s
  have hP : subParts [.ecc, .mem, .pwr, .weave, .rings, .bezel, .loupe, .plait, .out] [.ecc, .mem, .pwr, .weave, .rings, .bezel, .loupe, .plait, .out] = true := by decide
  unfold execEccInject
  show Frame [.ecc, .mem, .pwr, .weave, .rings, .bezel, .loupe, .plait, .out] _ _
  repeat' first
    | with_reducible assumption
    | exact subParts_trans (by decide) hP
    | with_reducible apply frame_accept
    | with_reducible apply frame_actEccInject
    | intro _ _ _

theorem frame_execCorrectableReport (s : State) :
    OutFrame [.ecc, .rings, .bezel, .loupe, .plait, .out] s (execCorrectableReport s) := by
  have h := Frame.refl [.ecc, .rings, .bezel, .loupe, .plait, .out] s
  have hP : subParts [.ecc, .rings, .bezel, .loupe, .plait, .out] [.ecc, .rings, .bezel, .loupe, .plait, .out] = true := by decide
  unfold execCorrectableReport
  show Frame [.ecc, .rings, .bezel, .loupe, .plait, .out] _ _
  try extract_lets
  repeat' first
    | with_reducible assumption
    | exact subParts_trans (by decide) hP
    | with_reducible apply frame_logEvent
    | with_reducible apply Frame.ite <;> intro _
    | (with_reducible refine Frame.of_mk _ _ _ _ _ _ _ _ _ _ _ _ _ _ _ _ _ _ _ _ _ _ _ _ _ _ _ _ _ hP ?_ rfl ?_ ?_ ?_ ?_ ?_ ?_ ?_ ?_ ?_ ?_ ?_ ?_ ?_ ?_ ?_ ?_ ?_ ?_ ?_ ?_ ?_ ?_ ?_ ?_ ?_ ?_ ?_ ?_ <;>
         first | with_reducible exact Or.inr rfl | exact Or.inl rfl | skip
       with_reducible assumption)

end Sys2Proof.Machine
end

