-- ==== Sys2Proof/Laws/FrameUpd.lean ====
section
/-! SUPPORT. Which parts of the state the operations of Machine/Upd.lean may change. -/

namespace Sys2Proof.Machine

set_option linter.unusedTactic false
set_option linter.unreachableTactic false

theorem frame_updRefuse (s : State) (a : Act) (n : Nat) {P : List Part} {s0 : State} 
    (hP : subParts [.mem, .pwr, .rings, .bezel, .loupe, .plait, .upd, .out] P = true) (h : Frame P s0 s) : Frame P s0 (updRefuse s a n) := by
  unfold updRefuse
  try extract_lets
  repeat' first
    | exact subParts_trans (by decide) hP
    | with_reducible apply frame_refuse
    | with_reducible apply frame_logEvent
    | (with_reducible refine Frame.of_mk _ _ _ _ _ _ _ _ _ _ _ _ _ _ _ _ _ _ _ _ _ _ _ _ _ _ _ _ _ hP ?_ rfl ?_ ?_ ?_ ?_ ?_ ?_ ?_ ?_ ?_ ?_ ?_ ?_ ?_ ?_ ?_ ?_ ?_ ?_ ?_ ?_ ?_ ?_ ?_ ?_ ?_ ?_ ?_ ?_ <;>
         first | with_reducible exact Or.inr rfl | exact Or.inl rfl | skip
       with_reducible assumption)

theorem frame_updStage (s : State) {P : List Part} {s0 : State} 
    (hP : subParts [.upd] P = true) (h : Frame P s0 s) : Frame P s0 (updStage s) := by
  unfold updStage
  try extract_lets
  repeat' first
    | (with_reducible refine Frame.of_mk _ _ _ _ _ _ _ _ _ _ _ _ _ _ _ _ _ _ _ _ _ _ _ _ _ _ _ _ _ hP ?_ rfl ?_ ?_ ?_ ?_ ?_ ?_ ?_ ?_ ?_ ?_ ?_ ?_ ?_ ?_ ?_ ?_ ?_ ?_ ?_ ?_ ?_ ?_ ?_ ?_ ?_ ?_ ?_ ?_ <;>
         first | with_reducible exact Or.inr rfl | exact Or.inl rfl | skip
       with_reducible assumption)

theorem frame_actUpdBlock (index : BitVec 10) (a : Act) (s : State) {P : List Part} {s0 : State} 
    (hP : subParts [.mem, .pwr, .rings, .plait, .upd, .out] P = true) (h : Frame P s0 s) : Frame P s0 (actUpdBlock index a s) := by
  unfold actUpdBlock
  try extract_lets
  repeat' first
    | with_reducible assumption
    | exact subParts_trans (by decide) hP
    | with_reducible apply frame_refuse
    | with_reducible apply frame_finish
    | with_reducible apply Frame.ite <;> intro _
    | (with_reducible refine Frame.of_mk _ _ _ _ _ _ _ _ _ _ _ _ _ _ _ _ _ _ _ _ _ _ _ _ _ _ _ _ _ hP ?_ rfl ?_ ?_ ?_ ?_ ?_ ?_ ?_ ?_ ?_ ?_ ?_ ?_ ?_ ?_ ?_ ?_ ?_ ?_ ?_ ?_ ?_ ?_ ?_ ?_ ?_ ?_ ?_ ?_ <;>
         first | with_reducible exact Or.inr rfl | exact Or.inl rfl | skip
       first
         | with_reducible assumption
         | split
      )

theorem frame_execUpdBlock (d : Desc) (index : BitVec 10) (s : State) :
    OutFrame [.ecc, .mem, .pwr, .weave, .rings, .bezel, .loupe, .plait, .upd, .out] s (execUpdBlock d index s) := by
  have h := Frame.refl [.ecc, .mem, .pwr, .weave, .rings, .bezel, .loupe, .plait, .upd, .out] s
  have hP : subParts [.ecc, .mem, .pwr, .weave, .rings, .bezel, .loupe, .plait, .upd, .out] [.ecc, .mem, .pwr, .weave, .rings, .bezel, .loupe, .plait, .upd, .out] = true := by decide
  unfold execUpdBlock
  show Frame [.ecc, .mem, .pwr, .weave, .rings, .bezel, .loupe, .plait, .upd, .out] _ _
  repeat' first
    | with_reducible assumption
    | exact subParts_trans (by decide) hP
    | with_reducible apply frame_accept
    | with_reducible apply frame_actUpdBlock
    | intro _ _ _

theorem frame_bankPut (s : State) (i : Nat) (bs : List (BitVec 8)) {P : List Part} {s0 : State} 
    (hP : subParts [.nor] P = true) (h : Frame P s0 s) : Frame P s0 (bankPut s i bs) := by
  unfold bankPut
  try extract_lets
  repeat' first
    | with_reducible apply Frame.ite <;> intro _
    | (with_reducible refine Frame.of_mk _ _ _ _ _ _ _ _ _ _ _ _ _ _ _ _ _ _ _ _ _ _ _ _ _ _ _ _ _ hP ?_ rfl ?_ ?_ ?_ ?_ ?_ ?_ ?_ ?_ ?_ ?_ ?_ ?_ ?_ ?_ ?_ ?_ ?_ ?_ ?_ ?_ ?_ ?_ ?_ ?_ ?_ ?_ ?_ ?_ <;>
         first | with_reducible exact Or.inr rfl | exact Or.inl rfl | skip
       with_reducible assumption)

theorem frame_execUpdBlockLanded (s : State) :
    OutFrame [.mem, .nor, .pwr, .rings, .bezel, .loupe, .plait, .upd, .out] s (execUpdBlockLanded s) := by
  have h := Frame.refl [.mem, .nor, .pwr, .rings, .bezel, .loupe, .plait, .upd, .out] s
  have hP : subParts [.mem, .nor, .pwr, .rings, .bezel, .loupe, .plait, .upd, .out] [.mem, .nor, .pwr, .rings, .bezel, .loupe, .plait, .upd, .out] = true := by decide
  unfold execUpdBlockLanded
  show Frame [.mem, .nor, .pwr, .rings, .bezel, .loupe, .plait, .upd, .out] _ _
  try extract_lets
  repeat' first
    | with_reducible assumption
    | exact subParts_trans (by decide) hP
    | with_reducible apply frame_bankPut
    | with_reducible apply frame_finish
    | with_reducible apply frame_updStage
    | with_reducible apply frame_refuse
    | with_reducible apply frame_logEvent
    | with_reducible apply Frame.ite <;> intro _
    | (with_reducible refine Frame.of_mk _ _ _ _ _ _ _ _ _ _ _ _ _ _ _ _ _ _ _ _ _ _ _ _ _ _ _ _ _ hP ?_ rfl ?_ ?_ ?_ ?_ ?_ ?_ ?_ ?_ ?_ ?_ ?_ ?_ ?_ ?_ ?_ ?_ ?_ ?_ ?_ ?_ ?_ ?_ ?_ ?_ ?_ ?_ ?_ ?_ <;>
         first | with_reducible exact Or.inr rfl | exact Or.inl rfl | skip
       first
         | with_reducible assumption
         | with_reducible apply frame_bankPut
         | split
      )

theorem frame_actUpdVerify (a : Act) (s : State) {P : List Part} {s0 : State} 
    (hP : subParts [.mem, .pwr, .rings, .plait, .upd, .out] P = true) (h : Frame P s0 s) : Frame P s0 (actUpdVerify a s) := by
  unfold actUpdVerify
  try extract_lets
  repeat' first
    | with_reducible assumption
    | exact subParts_trans (by decide) hP
    | with_reducible apply frame_refuse
    | with_reducible apply Frame.ite <;> intro _
    | (with_reducible refine Frame.of_mk _ _ _ _ _ _ _ _ _ _ _ _ _ _ _ _ _ _ _ _ _ _ _ _ _ _ _ _ _ hP ?_ rfl ?_ ?_ ?_ ?_ ?_ ?_ ?_ ?_ ?_ ?_ ?_ ?_ ?_ ?_ ?_ ?_ ?_ ?_ ?_ ?_ ?_ ?_ ?_ ?_ ?_ ?_ ?_ ?_ <;>
         first | with_reducible exact Or.inr rfl | exact Or.inl rfl | skip
       first
         | with_reducible assumption
         | split
      )

theorem frame_execUpdVerify (d : Desc) (s : State) :
    OutFrame [.ecc, .mem, .pwr, .weave, .rings, .bezel, .loupe, .plait, .upd, .out] s (execUpdVerify d s) := by
  have h := Frame.refl [.ecc, .mem, .pwr, .weave, .rings, .bezel, .loupe, .plait, .upd, .out] s
  have hP : subParts [.ecc, .mem, .pwr, .weave, .rings, .bezel, .loupe, .plait, .upd, .out] [.ecc, .mem, .pwr, .weave, .rings, .bezel, .loupe, .plait, .upd, .out] = true := by decide
  unfold execUpdVerify
  show Frame [.ecc, .mem, .pwr, .weave, .rings, .bezel, .loupe, .plait, .upd, .out] _ _
  repeat' first
    | with_reducible assumption
    | exact subParts_trans (by decide) hP
    | with_reducible apply frame_accept
    | with_reducible apply frame_actUpdVerify
    | intro _ _ _

theorem frame_execUpdVerifyDone (s : State) :
    OutFrame [.mem, .pwr, .rings, .bezel, .loupe, .plait, .upd, .out] s (execUpdVerifyDone s) := by
  have h := Frame.refl [.mem, .pwr, .rings, .bezel, .loupe, .plait, .upd, .out] s
  have hP : subParts [.mem, .pwr, .rings, .bezel, .loupe, .plait, .upd, .out] [.mem, .pwr, .rings, .bezel, .loupe, .plait, .upd, .out] = true := by decide
  show Frame [.mem, .pwr, .rings, .bezel, .loupe, .plait, .upd, .out] _ _
  have key : ∀ u a (m : List (BitVec 8)) (ok : Bool), Frame [.mem, .pwr, .rings, .bezel, .loupe, .plait, .upd, .out] s u → Frame [.mem, .pwr, .rings, .bezel, .loupe, .plait, .upd, .out] s
      (if ok then finish { u with upd.verified := true, upd.stage := 4 } a 0 (leAt m 8 4)
       else refuse { u with upd.verified := false, upd.stage := 2 } a stCheckFailed) := by
    intro u a m ok k
    refine Frame.ite (fun _ => ?_) (fun _ => ?_)
    · refine frame_finish _ _ _ _ _ (subParts_trans (by decide) hP) ?_
      (with_reducible refine Frame.of_mk _ _ _ _ _ _ _ _ _ _ _ _ _ _ _ _ _ _ _ _ _ _ _ _ _ _ _ _ _ hP ?_ rfl ?_ ?_ ?_ ?_ ?_ ?_ ?_ ?_ ?_ ?_ ?_ ?_ ?_ ?_ ?_ ?_ ?_ ?_ ?_ ?_ ?_ ?_ ?_ ?_ ?_ ?_ ?_ ?_ <;>
      first | with_reducible exact Or.inr rfl | exact Or.inl rfl | skip)
      with_reducible exact k
    · refine frame_refuse _ _ _ _ _ _ (subParts_trans (by decide) hP) ?_
      (with_reducible refine Frame.of_mk _ _ _ _ _ _ _ _ _ _ _ _ _ _ _ _ _ _ _ _ _ _ _ _ _ _ _ _ _ hP ?_ rfl ?_ ?_ ?_ ?_ ?_ ?_ ?_ ?_ ?_ ?_ ?_ ?_ ?_ ?_ ?_ ?_ ?_ ?_ ?_ ?_ ?_ ?_ ?_ ?_ ?_ ?_ ?_ ?_ <;>
      first | with_reducible exact Or.inr rfl | exact Or.inl rfl | skip)
      with_reducible exact k
  split
  · refine key _ _ _ _ ?_
    refine frame_logEvent _ _ _ (subParts_trans (by decide) hP) ?_
    exact h.upd hP rfl (fun p hp => by cases p <;> first | exact absurd hp (by decide) | exact rfl)
  · exact h

theorem frame_actUpdActivate (accDef : BitVec 1) (a : Act) (s : State) {P : List Part} {s0 : State} 
    (hP : subParts [.mem, .nor, .pwr, .rings, .bezel, .loupe, .plait, .upd, .out] P = true) (h : Frame P s0 s) : Frame P s0 (actUpdActivate accDef a s) := by
  unfold actUpdActivate
  try extract_lets
  repeat' first
    | with_reducible assumption
    | exact subParts_trans (by decide) hP
    | with_reducible apply frame_updRefuse
    | with_reducible apply frame_bootWrite
    | with_reducible apply frame_refuse
    | with_reducible apply Frame.ite <;> intro _
    | (with_reducible refine Frame.of_mk _ _ _ _ _ _ _ _ _ _ _ _ _ _ _ _ _ _ _ _ _ _ _ _ _ _ _ _ _ hP ?_ rfl ?_ ?_ ?_ ?_ ?_ ?_ ?_ ?_ ?_ ?_ ?_ ?_ ?_ ?_ ?_ ?_ ?_ ?_ ?_ ?_ ?_ ?_ ?_ ?_ ?_ ?_ ?_ ?_ <;>
         first | with_reducible exact Or.inr rfl | exact Or.inl rfl | skip
       first
         | with_reducible assumption
         | split
      )

theorem frame_execUpdActivate (d : Desc) (accDef : BitVec 1) (s : State) :
    OutFrame [.ecc, .mem, .nor, .pwr, .weave, .rings, .bezel, .loupe, .plait, .upd, .out] s (execUpdActivate d accDef s) := by
  have h := Frame.refl [.ecc, .mem, .nor, .pwr, .weave, .rings, .bezel, .loupe, .plait, .upd, .out] s
  have hP : subParts [.ecc, .mem, .nor, .pwr, .weave, .rings, .bezel, .loupe, .plait, .upd, .out] [.ecc, .mem, .nor, .pwr, .weave, .rings, .bezel, .loupe, .plait, .upd, .out] = true := by decide
  unfold execUpdActivate
  show Frame [.ecc, .mem, .nor, .pwr, .weave, .rings, .bezel, .loupe, .plait, .upd, .out] _ _
  repeat' first
    | with_reducible assumption
    | exact subParts_trans (by decide) hP
    | with_reducible apply frame_accept
    | with_reducible apply frame_actUpdActivate
    | intro _ _ _

theorem frame_actUpdConfirm (a : Act) (s : State) {P : List Part} {s0 : State} 
    (hP : subParts [.mem, .pwr, .rings, .cfg, .plait, .upd, .out] P = true) (h : Frame P s0 s) : Frame P s0 (actUpdConfirm a s) := by
  unfold actUpdConfirm
  try extract_lets
  repeat' first
    | with_reducible assumption
    | exact subParts_trans (by decide) hP
    | with_reducible apply frame_bootWrite
    | with_reducible apply frame_refuse
    | with_reducible apply Frame.ite <;> intro _

theorem frame_execUpdConfirm (d : Desc) (s : State) :
    OutFrame [.ecc, .mem, .pwr, .weave, .rings, .cfg, .bezel, .loupe, .plait, .upd, .out] s (execUpdConfirm d s) := by
  have h := Frame.refl [.ecc, .mem, .pwr, .weave, .rings, .cfg, .bezel, .loupe, .plait, .upd, .out] s
  have hP : subParts [.ecc, .mem, .pwr, .weave, .rings, .cfg, .bezel, .loupe, .plait, .upd, .out] [.ecc, .mem, .pwr, .weave, .rings, .cfg, .bezel, .loupe, .plait, .upd, .out] = true := by decide
  unfold execUpdConfirm
  show Frame [.ecc, .mem, .pwr, .weave, .rings, .cfg, .bezel, .loupe, .plait, .upd, .out] _ _
  repeat' first
    | with_reducible assumption
    | exact subParts_trans (by decide) hP
    | with_reducible apply frame_accept
    | with_reducible apply frame_actUpdConfirm
    | intro _ _ _

theorem frame_timeMark (s : State) {P : List Part} {s0 : State} 
    (hP : subParts [.nor, .upd] P = true) (h : Frame P s0 s) : Frame P s0 (timeMark s) := by
  unfold timeMark
  try extract_lets
  repeat' first
    | (with_reducible refine Frame.of_mk _ _ _ _ _ _ _ _ _ _ _ _ _ _ _ _ _ _ _ _ _ _ _ _ _ _ _ _ _ hP ?_ rfl ?_ ?_ ?_ ?_ ?_ ?_ ?_ ?_ ?_ ?_ ?_ ?_ ?_ ?_ ?_ ?_ ?_ ?_ ?_ ?_ ?_ ?_ ?_ ?_ ?_ ?_ ?_ ?_ <;>
         first | with_reducible exact Or.inr rfl | exact Or.inl rfl | skip
       with_reducible assumption)

theorem frame_markEnd (s : State) {P : List Part} {s0 : State} 
    (hP : subParts [.upd] P = true) (h : Frame P s0 s) : Frame P s0 (markEnd s) := by
  unfold markEnd
  repeat' first
    | with_reducible assumption
    | with_reducible apply frame_bootWrite
    | with_reducible apply Frame.ite <;> intro _

theorem frame_execTrialTimeMark (s : State) :
    OutFrame [.clk, .nor, .pwr, .weave, .cfg, .upd] s (execTrialTimeMark s) := by
  have h := Frame.refl [.clk, .nor, .pwr, .weave, .cfg, .upd] s
  have hP : subParts [.clk, .nor, .pwr, .weave, .cfg, .upd] [.clk, .nor, .pwr, .weave, .cfg, .upd] = true := by decide
  unfold execTrialTimeMark
  show Frame [.clk, .nor, .pwr, .weave, .cfg, .upd] _ _
  repeat' first
    | with_reducible assumption
    | exact subParts_trans (by decide) hP
    | with_reducible apply frame_markEnd
    | with_reducible apply frame_timeMark
    | with_reducible apply frame_State_reach
    | with_reducible apply Frame.ite <;> intro _

theorem frame_actUpdOemKey (a : Act) (s : State) {P : List Part} {s0 : State} 
    (hP : subParts [.mem, .pwr, .rings, .plait, .acc, .out] P = true) (h : Frame P s0 s) : Frame P s0 (actUpdOemKey a s) := by
  unfold actUpdOemKey
  try extract_lets
  repeat' first
    | with_reducible assumption
    | exact subParts_trans (by decide) hP
    | with_reducible apply frame_refuse
    | with_reducible apply frame_finish
    | with_reducible apply Frame.ite <;> intro _
    | (with_reducible refine Frame.of_mk _ _ _ _ _ _ _ _ _ _ _ _ _ _ _ _ _ _ _ _ _ _ _ _ _ _ _ _ _ hP ?_ rfl ?_ ?_ ?_ ?_ ?_ ?_ ?_ ?_ ?_ ?_ ?_ ?_ ?_ ?_ ?_ ?_ ?_ ?_ ?_ ?_ ?_ ?_ ?_ ?_ ?_ ?_ ?_ ?_ <;>
         first | with_reducible exact Or.inr rfl | exact Or.inl rfl | skip
       with_reducible assumption)

theorem frame_execUpdOemKey (d : Desc) (s : State) :
    OutFrame [.ecc, .mem, .pwr, .weave, .rings, .bezel, .loupe, .plait, .acc, .out] s (execUpdOemKey d s) := by
  have h := Frame.refl [.ecc, .mem, .pwr, .weave, .rings, .bezel, .loupe, .plait, .acc, .out] s
  have hP : subParts [.ecc, .mem, .pwr, .weave, .rings, .bezel, .loupe, .plait, .acc, .out] [.ecc, .mem, .pwr, .weave, .rings, .bezel, .loupe, .plait, .acc, .out] = true := by decide
  unfold execUpdOemKey
  show Frame [.ecc, .mem, .pwr, .weave, .rings, .bezel, .loupe, .plait, .acc, .out] _ _
  repeat' first
    | with_reducible assumption
    | exact subParts_trans (by decide) hP
    | with_reducible apply frame_accept
    | with_reducible apply frame_actUpdOemKey
    | intro _ _ _

theorem frame_setWriteNow (key : BitVec 16) (a : Act) (s : State) {P : List Part} {s0 : State} 
    (hP : subParts [.mem, .nor, .pwr, .rings, .plait, .out] P = true) (h : Frame P s0 s) : Frame P s0 (setWriteNow key a s) := by
  unfold setWriteNow
  try extract_lets
  repeat' first
    | with_reducible assumption
    | exact subParts_trans (by decide) hP
    | with_reducible apply frame_refuse
    | with_reducible apply frame_finish
    | with_reducible apply frame_State_modArea
    | with_reducible apply Frame.ite <;> intro _

theorem frame_actSetWrite (key : BitVec 16) (a : Act) (s : State) {P : List Part} {s0 : State} 
    (hP : subParts [.mem, .nor, .pwr, .rings, .plait, .upd, .out] P = true) (h : Frame P s0 s) : Frame P s0 (actSetWrite key a s) := by
  unfold actSetWrite
  try extract_lets
  repeat' first
    | with_reducible assumption
    | exact subParts_trans (by decide) hP
    | with_reducible apply frame_setWriteNow
    | with_reducible apply Frame.ite <;> intro _
    | (with_reducible refine Frame.of_mk _ _ _ _ _ _ _ _ _ _ _ _ _ _ _ _ _ _ _ _ _ _ _ _ _ _ _ _ _ hP ?_ rfl ?_ ?_ ?_ ?_ ?_ ?_ ?_ ?_ ?_ ?_ ?_ ?_ ?_ ?_ ?_ ?_ ?_ ?_ ?_ ?_ ?_ ?_ ?_ ?_ ?_ ?_ ?_ ?_ <;>
         first | with_reducible exact Or.inr rfl | exact Or.inl rfl | skip
       with_reducible assumption)

theorem frame_execSetWrite (d : Desc) (key : BitVec 16) (s : State) :
    OutFrame [.ecc, .mem, .nor, .pwr, .weave, .rings, .bezel, .loupe, .plait, .upd, .out] s (execSetWrite d key s) := by
  have h := Frame.refl [.ecc, .mem, .nor, .pwr, .weave, .rings, .bezel, .loupe, .plait, .upd, .out] s
  have hP : subParts [.ecc, .mem, .nor, .pwr, .weave, .rings, .bezel, .loupe, .plait, .upd, .out] [.ecc, .mem, .nor, .pwr, .weave, .rings, .bezel, .loupe, .plait, .upd, .out] = true := by decide
  unfold execSetWrite
  show Frame [.ecc, .mem, .nor, .pwr, .weave, .rings, .bezel, .loupe, .plait, .upd, .out] _ _
  repeat' first
    | with_reducible assumption
    | exact subParts_trans (by decide) hP
    | with_reducible apply frame_accept
    | with_reducible apply frame_actSetWrite
    | intro _ _ _

theorem frame_setReadNow (key : BitVec 16) (a : Act) (s : State) {P : List Part} {s0 : State} 
    (hP : subParts [.ecc, .mem, .pwr, .rings, .bezel, .loupe, .plait, .out] P = true) (h : Frame P s0 s) : Frame P s0 (setReadNow key a s) := by
  unfold setReadNow
  try extract_lets
  repeat' first
    | with_reducible assumption
    | exact subParts_trans (by decide) hP
    | with_reducible apply frame_refuse
    | with_reducible apply frame_putBytes
    | with_reducible apply frame_finish
    | with_reducible apply Frame.ite <;> intro _
    | (with_reducible refine Frame.of_mk _ _ _ _ _ _ _ _ _ _ _ _ _ _ _ _ _ _ _ _ _ _ _ _ _ _ _ _ _ hP ?_ rfl ?_ ?_ ?_ ?_ ?_ ?_ ?_ ?_ ?_ ?_ ?_ ?_ ?_ ?_ ?_ ?_ ?_ ?_ ?_ ?_ ?_ ?_ ?_ ?_ ?_ ?_ ?_ ?_ <;>
         first | with_reducible exact Or.inr rfl | exact Or.inl rfl | skip
       split)

theorem frame_actSetRead (key : BitVec 16) (a : Act) (s : State) {P : List Part} {s0 : State} 
    (hP : subParts [.ecc, .mem, .pwr, .rings, .bezel, .loupe, .plait, .upd, .out] P = true) (h : Frame P s0 s) : Frame P s0 (actSetRead key a s) := by
  unfold actSetRead
  try extract_lets
  repeat' first
    | with_reducible assumption
    | exact subParts_trans (by decide) hP
    | with_reducible apply frame_setReadNow
    | with_reducible apply Frame.ite <;> intro _
    | (with_reducible refine Frame.of_mk _ _ _ _ _ _ _ _ _ _ _ _ _ _ _ _ _ _ _ _ _ _ _ _ _ _ _ _ _ hP ?_ rfl ?_ ?_ ?_ ?_ ?_ ?_ ?_ ?_ ?_ ?_ ?_ ?_ ?_ ?_ ?_ ?_ ?_ ?_ ?_ ?_ ?_ ?_ ?_ ?_ ?_ ?_ ?_ ?_ <;>
         first | with_reducible exact Or.inr rfl | exact Or.inl rfl | skip
       with_reducible assumption)

theorem frame_execSetRead (d : Desc) (key : BitVec 16) (s : State) :
    OutFrame [.ecc, .mem, .pwr, .weave, .rings, .bezel, .loupe, .plait, .upd, .out] s (execSetRead d key s) := by
  have h := Frame.refl [.ecc, .mem, .pwr, .weave, .rings, .bezel, .loupe, .plait, .upd, .out] s
  have hP : subParts [.ecc, .mem, .pwr, .weave, .rings, .bezel, .loupe, .plait, .upd, .out] [.ecc, .mem, .pwr, .weave, .rings, .bezel, .loupe, .plait, .upd, .out] = true := by decide
  unfold execSetRead
  show Frame [.ecc, .mem, .pwr, .weave, .rings, .bezel, .loupe, .plait, .upd, .out] _ _
  repeat' first
    | with_reducible assumption
    | exact subParts_trans (by decide) hP
    | with_reducible apply frame_accept
    | with_reducible apply frame_actSetRead
    | intro _ _ _

theorem frame_execSettingsMigrationDone (s : State) :
    OutFrame [.ecc, .mem, .nor, .pwr, .rings, .bezel, .loupe, .plait, .upd, .out] s (execSettingsMigrationDone s) := by
  have h := Frame.refl [.ecc, .mem, .nor, .pwr, .rings, .bezel, .loupe, .plait, .upd, .out] s
  have hP : subParts [.ecc, .mem, .nor, .pwr, .rings, .bezel, .loupe, .plait, .upd, .out] [.ecc, .mem, .nor, .pwr, .rings, .bezel, .loupe, .plait, .upd, .out] = true := by decide
  show Frame [.ecc, .mem, .nor, .pwr, .rings, .bezel, .loupe, .plait, .upd, .out] _ _
  have key : ∀ u l (f : State → Act × HostCmd → State), (∀ v x, Frame [.ecc, .mem, .nor, .pwr, .rings, .bezel, .loupe, .plait, .upd, .out] s v → Frame [.ecc, .mem, .nor, .pwr, .rings, .bezel, .loupe, .plait, .upd, .out] s (f v x)) →
      Frame [.ecc, .mem, .nor, .pwr, .rings, .bezel, .loupe, .plait, .upd, .out] s u → Frame [.ecc, .mem, .nor, .pwr, .rings, .bezel, .loupe, .plait, .upd, .out] s (List.foldl f { u with upd.setWaits := [] } l) := by
    intro u l f hf k
    refine Frame.foldl _ _ hf ?_
    (with_reducible refine Frame.of_mk _ _ _ _ _ _ _ _ _ _ _ _ _ _ _ _ _ _ _ _ _ _ _ _ _ _ _ _ _ hP ?_ rfl ?_ ?_ ?_ ?_ ?_ ?_ ?_ ?_ ?_ ?_ ?_ ?_ ?_ ?_ ?_ ?_ ?_ ?_ ?_ ?_ ?_ ?_ ?_ ?_ ?_ ?_ ?_ ?_ <;>
      first | with_reducible exact Or.inr rfl | exact Or.inl rfl | skip)
    with_reducible exact k
  refine Frame.ite (fun _ => h) (fun _ => key _ _ _ (fun v x k => ?_) ?_)
  · split
    · exact frame_setWriteNow _ _ _ (subParts_trans (by decide) hP) k
    · exact frame_setReadNow _ _ _ (subParts_trans (by decide) hP) k
    · exact k
  · refine frame_logEvent _ _ _ (subParts_trans (by decide) hP) ?_
    have k1 : Frame [.ecc, .mem, .nor, .pwr, .rings, .bezel, .loupe, .plait, .upd, .out] s (s.modArea s.upd.boot.sarea
        (fun ar => { ar with st := .valid, items := (s.area s.upd.boot.sareaFb).items })) :=
      frame_State_modArea _ _ _ (subParts_trans (by decide) hP) h
    (with_reducible refine Frame.of_mk _ _ _ _ _ _ _ _ _ _ _ _ _ _ _ _ _ _ _ _ _ _ _ _ _ _ _ _ _ hP ?_ rfl ?_ ?_ ?_ ?_ ?_ ?_ ?_ ?_ ?_ ?_ ?_ ?_ ?_ ?_ ?_ ?_ ?_ ?_ ?_ ?_ ?_ ?_ ?_ ?_ ?_ ?_ ?_ ?_ <;>
      first | with_reducible exact Or.inr rfl | exact Or.inl rfl | skip)
    with_reducible exact k1

end Sys2Proof.Machine
end

