-- ==== Sys2Proof/Laws/FrameNet.lean ====
section
/-! SUPPORT. Which parts of the state the operations of Machine/Net.lean may change. -/

namespace Sys2Proof.Machine

set_option linter.unusedTactic false
set_option linter.unreachableTactic false

theorem frame_execKeepAliveTx (bus : Fin 10) (s : State) :
    OutFrame [.clk, .mem, .pwr, .weave, .rings, .bezel, .loupe, .can, .net, .plait, .out] s (execKeepAliveTx bus s) := by
  have h := Frame.refl [.clk, .mem, .pwr, .weave, .rings, .bezel, .loupe, .can, .net, .plait, .out] s
  have hP : subParts [.clk, .mem, .pwr, .weave, .rings, .bezel, .loupe, .can, .net, .plait, .out] [.clk, .mem, .pwr, .weave, .rings, .bezel, .loupe, .can, .net, .plait, .out] = true := by decide
  unfold execKeepAliveTx
  show Frame [.clk, .mem, .pwr, .weave, .rings, .bezel, .loupe, .can, .net, .plait, .out] _ _
  try extract_lets
  repeat' first
    | with_reducible assumption
    | exact subParts_trans (by decide) hP
    | with_reducible apply frame_sendKa
    | with_reducible apply frame_State_reach
    | with_reducible apply Frame.ite <;> intro _

theorem frame_execSleepTimeout (s : State) (bus : Fin 10) :
    OutFrame [.clk, .mem, .pwr, .weave, .rings, .bezel, .loupe, .can, .net, .plait, .out] s (execSleepTimeout bus s) := by
  have h := Frame.refl [.clk, .mem, .pwr, .weave, .rings, .bezel, .loupe, .can, .net, .plait, .out] s
  have hP : subParts [.clk, .mem, .pwr, .weave, .rings, .bezel, .loupe, .can, .net, .plait, .out] [.clk, .mem, .pwr, .weave, .rings, .bezel, .loupe, .can, .net, .plait, .out] = true := by decide
  show Frame [.clk, .mem, .pwr, .weave, .rings, .bezel, .loupe, .can, .net, .plait, .out] _ _
  refine Frame.ite (fun _ => h) (fun _ => ?_)
  have k : Frame [.clk, .mem, .pwr, .weave, .rings, .bezel, .loupe, .can, .net, .plait, .out] s (match (s.netBus bus).wakeUntil with
      | some t => netEval (s.reach t |>.modBus bus (fun b => { b with wakeUntil := none })) bus
      | none => s) := by
    split
    · refine frame_netEval _ _ (subParts_trans (by decide) hP) ?_
      refine frame_State_modBus _ _ _ (subParts_trans (by decide) hP) ?_
      exact frame_State_reach _ _ (subParts_trans (by decide) hP) h
    · exact h
  refine Frame.ite (fun _ => k) (fun _ => ?_)
  refine frame_trackRun _ _ (subParts_trans (by decide) hP) ?_
  refine frame_setBus _ _ _ (subParts_trans (by decide) hP) ?_
  exact frame_State_reach _ _ (subParts_trans (by decide) hP) k

theorem frame_execSourceBar (bus : Fin 10) (s : State) :
    OutFrame [.clk, .weave, .rings, .bezel, .loupe, .net, .plait, .out] s (execSourceBar bus s) := by
  have h := Frame.refl [.clk, .weave, .rings, .bezel, .loupe, .net, .plait, .out] s
  have hP : subParts [.clk, .weave, .rings, .bezel, .loupe, .net, .plait, .out] [.clk, .weave, .rings, .bezel, .loupe, .net, .plait, .out] = true := by decide
  unfold execSourceBar
  show Frame [.clk, .weave, .rings, .bezel, .loupe, .net, .plait, .out] _ _
  try extract_lets
  repeat' first
    | with_reducible assumption
    | exact subParts_trans (by decide) hP
    | with_reducible apply frame_State_reach
    | with_reducible apply frame_State_modBus
    | with_reducible apply frame_logEvent
    | with_reducible apply Frame.ite <;> intro _
    | (with_reducible refine Frame.of_mk _ _ _ _ _ _ _ _ _ _ _ _ _ _ _ _ _ _ _ _ _ _ _ _ _ _ _ _ _ hP ?_ rfl ?_ ?_ ?_ ?_ ?_ ?_ ?_ ?_ ?_ ?_ ?_ ?_ ?_ ?_ ?_ ?_ ?_ ?_ ?_ ?_ ?_ ?_ ?_ ?_ ?_ ?_ ?_ ?_ <;>
         first | with_reducible exact Or.inr rfl | exact Or.inl rfl | skip
       split)

theorem frame_actNetHold (mask : BitVec 10) (hold : BitVec 1) (a : Act) (s : State) {P : List Part} {s0 : State} 
    (hP : subParts [.mem, .pwr, .rings, .bezel, .loupe, .can, .net, .plait, .out] P = true) (h : Frame P s0 s) : Frame P s0 (actNetHold mask hold a s) := by
  unfold actNetHold
  try extract_lets
  repeat' first
    | with_reducible assumption
    | exact subParts_trans (by decide) hP
    | with_reducible apply Frame.foldl
    | with_reducible apply frame_refuse
    | with_reducible apply frame_finish
    | with_reducible apply frame_netAll
    | with_reducible apply frame_State_modBus
    | with_reducible apply Frame.ite <;> intro _
    | intro _ _ _

theorem frame_execNetHold (d : Desc) (mask : BitVec 10) (hold : BitVec 1) (s : State) :
    OutFrame [.ecc, .mem, .pwr, .weave, .rings, .bezel, .loupe, .can, .net, .plait, .out] s (execNetHold d mask hold s) := by
  have h := Frame.refl [.ecc, .mem, .pwr, .weave, .rings, .bezel, .loupe, .can, .net, .plait, .out] s
  have hP : subParts [.ecc, .mem, .pwr, .weave, .rings, .bezel, .loupe, .can, .net, .plait, .out] [.ecc, .mem, .pwr, .weave, .rings, .bezel, .loupe, .can, .net, .plait, .out] = true := by decide
  unfold execNetHold
  show Frame [.ecc, .mem, .pwr, .weave, .rings, .bezel, .loupe, .can, .net, .plait, .out] _ _
  repeat' first
    | with_reducible assumption
    | exact subParts_trans (by decide) hP
    | with_reducible apply frame_accept
    | with_reducible apply frame_actNetHold
    | intro _ _ _

theorem frame_actNetWake (mask : BitVec 10) (a : Act) (s : State) {P : List Part} {s0 : State} 
    (hP : subParts [.mem, .pwr, .rings, .bezel, .loupe, .can, .net, .plait, .out] P = true) (h : Frame P s0 s) : Frame P s0 (actNetWake mask a s) := by
  unfold actNetWake
  try extract_lets
  repeat' first
    | with_reducible assumption
    | exact subParts_trans (by decide) hP
    | with_reducible apply Frame.foldl
    | with_reducible apply frame_refuse
    | with_reducible apply frame_netEval
    | with_reducible apply frame_State_modBus
    | with_reducible apply frame_finish
    | with_reducible apply Frame.ite <;> intro _
    | intro _ _ _

theorem frame_execNetWake (d : Desc) (mask : BitVec 10) (s : State) :
    OutFrame [.ecc, .mem, .pwr, .weave, .rings, .bezel, .loupe, .can, .net, .plait, .out] s (execNetWake d mask s) := by
  have h := Frame.refl [.ecc, .mem, .pwr, .weave, .rings, .bezel, .loupe, .can, .net, .plait, .out] s
  have hP : subParts [.ecc, .mem, .pwr, .weave, .rings, .bezel, .loupe, .can, .net, .plait, .out] [.ecc, .mem, .pwr, .weave, .rings, .bezel, .loupe, .can, .net, .plait, .out] = true := by decide
  unfold execNetWake
  show Frame [.ecc, .mem, .pwr, .weave, .rings, .bezel, .loupe, .can, .net, .plait, .out] _ _
  repeat' first
    | with_reducible assumption
    | exact subParts_trans (by decide) hP
    | with_reducible apply frame_accept
    | with_reducible apply frame_actNetWake
    | intro _ _ _

theorem frame_actNetBarClear (mask : BitVec 10) (a : Act) (s : State) {P : List Part} {s0 : State} 
    (hP : subParts [.mem, .pwr, .rings, .bezel, .loupe, .net, .plait, .out] P = true) (h : Frame P s0 s) : Frame P s0 (actNetBarClear mask a s) := by
  unfold actNetBarClear
  repeat' first
    | with_reducible assumption
    | exact subParts_trans (by decide) hP
    | with_reducible apply Frame.foldl
    | with_reducible apply frame_finish
    | with_reducible apply frame_endBars
    | intro _ _ _

theorem frame_execNetBarClear (d : Desc) (mask : BitVec 10) (s : State) :
    OutFrame [.ecc, .mem, .pwr, .weave, .rings, .bezel, .loupe, .net, .plait, .out] s (execNetBarClear d mask s) := by
  have h := Frame.refl [.ecc, .mem, .pwr, .weave, .rings, .bezel, .loupe, .net, .plait, .out] s
  have hP : subParts [.ecc, .mem, .pwr, .weave, .rings, .bezel, .loupe, .net, .plait, .out] [.ecc, .mem, .pwr, .weave, .rings, .bezel, .loupe, .net, .plait, .out] = true := by decide
  unfold execNetBarClear
  show Frame [.ecc, .mem, .pwr, .weave, .rings, .bezel, .loupe, .net, .plait, .out] _ _
  repeat' first
    | with_reducible assumption
    | exact subParts_trans (by decide) hP
    | with_reducible apply frame_accept
    | with_reducible apply frame_actNetBarClear
    | intro _ _ _

theorem frame_actNetRead (ch : BitVec 4) (a : Act) (s : State) {P : List Part} {s0 : State} 
    (hP : subParts [.mem, .pwr, .rings, .plait, .out] P = true) (h : Frame P s0 s) : Frame P s0 (actNetRead ch a s) := by
  unfold actNetRead
  repeat' first
    | with_reducible assumption
    | with_reducible apply frame_finish

theorem frame_execNetRead (d : Desc) (ch : BitVec 4) (s : State) :
    OutFrame [.ecc, .mem, .pwr, .weave, .rings, .bezel, .loupe, .plait, .out] s (execNetRead d ch s) := by
  have h := Frame.refl [.ecc, .mem, .pwr, .weave, .rings, .bezel, .loupe, .plait, .out] s
  have hP : subParts [.ecc, .mem, .pwr, .weave, .rings, .bezel, .loupe, .plait, .out] [.ecc, .mem, .pwr, .weave, .rings, .bezel, .loupe, .plait, .out] = true := by decide
  unfold execNetRead
  show Frame [.ecc, .mem, .pwr, .weave, .rings, .bezel, .loupe, .plait, .out] _ _
  repeat' first
    | with_reducible assumption
    | exact subParts_trans (by decide) hP
    | with_reducible apply frame_accept
    | with_reducible apply frame_actNetRead
    | intro _ _ _

end Sys2Proof.Machine
end

