-- ==== Sys2Proof/Laws/FramePower.lean ====
section
/-! SUPPORT. Which parts of the state the operations of Machine/Power.lean may change. -/

namespace Sys2Proof.Machine

set_option linter.unusedTactic false
set_option linter.unreachableTactic false

theorem frame_execResetNReleased (s : State) :
    OutFrame [.pwr] s (execResetNReleased s) := by
  have h := Frame.refl [.pwr] s
  have hP : subParts [.pwr] [.pwr] = true := by decide
  unfold execResetNReleased
  show Frame [.pwr] _ _
  try extract_lets
  repeat' first
    | (with_reducible refine Frame.of_mk _ _ _ _ _ _ _ _ _ _ _ _ _ _ _ _ _ _ _ _ _ _ _ _ _ _ _ _ _ hP ?_ rfl ?_ ?_ ?_ ?_ ?_ ?_ ?_ ?_ ?_ ?_ ?_ ?_ ?_ ?_ ?_ ?_ ?_ ?_ ?_ ?_ ?_ ?_ ?_ ?_ ?_ ?_ ?_ ?_ <;>
         first | with_reducible exact Or.inr rfl | exact Or.inl rfl | skip
       with_reducible assumption)

theorem frame_execRailPowerGood (rail : Fin 6) (s : State) :
    OutFrame [.pwr, .weave] s (execRailPowerGood rail s) := by
  have h := Frame.refl [.pwr, .weave] s
  have hP : subParts [.pwr, .weave] [.pwr, .weave] = true := by decide
  unfold execRailPowerGood
  show Frame [.pwr, .weave] _ _
  try extract_lets
  repeat' first
    | with_reducible assumption
    | with_reducible apply frame_nextRail
    | with_reducible apply Frame.ite <;> intro _
    | (with_reducible refine Frame.of_mk _ _ _ _ _ _ _ _ _ _ _ _ _ _ _ _ _ _ _ _ _ _ _ _ _ _ _ _ _ hP ?_ rfl ?_ ?_ ?_ ?_ ?_ ?_ ?_ ?_ ?_ ?_ ?_ ?_ ?_ ?_ ?_ ?_ ?_ ?_ ?_ ?_ ?_ ?_ ?_ ?_ ?_ ?_ ?_ ?_ <;>
         first | with_reducible exact Or.inr rfl | exact Or.inl rfl | skip
       with_reducible assumption)

theorem frame_railOutcome (s : State) (r : Nat) {P : List Part} {s0 : State} 
    (hP : subParts [.mem, .nor, .pwr, .weave, .rings, .bezel, .loupe, .hso, .edge, .led, .fio, .vlv, .facet, .plait, .out] P = true) (h : Frame P s0 s) : Frame P s0 (railOutcome s r) := by
  unfold railOutcome
  try extract_lets
  repeat' first
    | with_reducible assumption
    | exact subParts_trans (by decide) hP
    | with_reducible apply frame_State_modDom
    | with_reducible apply frame_bezelOnlyStart
    | with_reducible apply frame_nextRail
    | with_reducible apply Frame.ite <;> intro _
    | (with_reducible refine Frame.of_mk _ _ _ _ _ _ _ _ _ _ _ _ _ _ _ _ _ _ _ _ _ _ _ _ _ _ _ _ _ hP ?_ rfl ?_ ?_ ?_ ?_ ?_ ?_ ?_ ?_ ?_ ?_ ?_ ?_ ?_ ?_ ?_ ?_ ?_ ?_ ?_ ?_ ?_ ?_ ?_ ?_ ?_ ?_ ?_ ?_ <;>
         first | with_reducible exact Or.inr rfl | exact Or.inl rfl | skip
       with_reducible assumption)

theorem frame_execRailTimeout (rail : Fin 6) (s : State) :
    OutFrame [.mem, .nor, .pwr, .weave, .rings, .bezel, .loupe, .hso, .edge, .led, .fio, .vlv, .facet, .plait, .out] s (execRailTimeout rail s) := by
  have h := Frame.refl [.mem, .nor, .pwr, .weave, .rings, .bezel, .loupe, .hso, .edge, .led, .fio, .vlv, .facet, .plait, .out] s
  have hP : subParts [.mem, .nor, .pwr, .weave, .rings, .bezel, .loupe, .hso, .edge, .led, .fio, .vlv, .facet, .plait, .out] [.mem, .nor, .pwr, .weave, .rings, .bezel, .loupe, .hso, .edge, .led, .fio, .vlv, .facet, .plait, .out] = true := by decide
  unfold execRailTimeout
  show Frame [.mem, .nor, .pwr, .weave, .rings, .bezel, .loupe, .hso, .edge, .led, .fio, .vlv, .facet, .plait, .out] _ _
  try extract_lets
  repeat' first
    | with_reducible assumption
    | exact subParts_trans (by decide) hP
    | with_reducible apply frame_logEvent
    | with_reducible apply frame_railOutcome
    | with_reducible apply Frame.ite <;> intro _
    | (with_reducible refine Frame.of_mk _ _ _ _ _ _ _ _ _ _ _ _ _ _ _ _ _ _ _ _ _ _ _ _ _ _ _ _ _ hP ?_ rfl ?_ ?_ ?_ ?_ ?_ ?_ ?_ ?_ ?_ ?_ ?_ ?_ ?_ ?_ ?_ ?_ ?_ ?_ ?_ ?_ ?_ ?_ ?_ ?_ ?_ ?_ ?_ ?_ <;>
         first | with_reducible exact Or.inr rfl | exact Or.inl rfl | skip
       with_reducible assumption)

theorem frame_execKl30LowHold (s : State) :
    OutFrame [.pwr] s (execKl30LowHold s) := by
  have h := Frame.refl [.pwr] s
  have hP : subParts [.pwr] [.pwr] = true := by decide
  unfold execKl30LowHold
  show Frame [.pwr] _ _
  try extract_lets
  repeat' first
    | with_reducible assumption
    | with_reducible apply Frame.ite <;> intro _
    | (with_reducible refine Frame.of_mk _ _ _ _ _ _ _ _ _ _ _ _ _ _ _ _ _ _ _ _ _ _ _ _ _ _ _ _ _ hP ?_ rfl ?_ ?_ ?_ ?_ ?_ ?_ ?_ ?_ ?_ ?_ ?_ ?_ ?_ ?_ ?_ ?_ ?_ ?_ ?_ ?_ ?_ ?_ ?_ ?_ ?_ ?_ ?_ ?_ <;>
         first | with_reducible exact Or.inr rfl | exact Or.inl rfl | skip
       with_reducible assumption)

theorem frame_execKl30LRecovery (s : State) :
    OutFrame [.pwr] s (execKl30LRecovery s) := by
  have h := Frame.refl [.pwr] s
  have hP : subParts [.pwr] [.pwr] = true := by decide
  unfold execKl30LRecovery
  show Frame [.pwr] _ _
  try extract_lets
  repeat' first
    | (with_reducible refine Frame.of_mk _ _ _ _ _ _ _ _ _ _ _ _ _ _ _ _ _ _ _ _ _ _ _ _ _ _ _ _ _ hP ?_ rfl ?_ ?_ ?_ ?_ ?_ ?_ ?_ ?_ ?_ ?_ ?_ ?_ ?_ ?_ ?_ ?_ ?_ ?_ ?_ ?_ ?_ ?_ ?_ ?_ ?_ ?_ ?_ ?_ <;>
         first | with_reducible exact Or.inr rfl | exact Or.inl rfl | skip
       with_reducible assumption)

theorem frame_execCrystalRunning (s : State) :
    OutFrame [.pwr] s (execCrystalRunning s) := by
  have h := Frame.refl [.pwr] s
  have hP : subParts [.pwr] [.pwr] = true := by decide
  unfold execCrystalRunning
  show Frame [.pwr] _ _
  try extract_lets
  repeat' first
    | with_reducible assumption
    | with_reducible apply Frame.ite <;> intro _
    | (with_reducible refine Frame.of_mk _ _ _ _ _ _ _ _ _ _ _ _ _ _ _ _ _ _ _ _ _ _ _ _ _ _ _ _ _ hP ?_ rfl ?_ ?_ ?_ ?_ ?_ ?_ ?_ ?_ ?_ ?_ ?_ ?_ ?_ ?_ ?_ ?_ ?_ ?_ ?_ ?_ ?_ ?_ ?_ ?_ ?_ ?_ ?_ ?_ <;>
         first | with_reducible exact Or.inr rfl | exact Or.inl rfl | skip
       with_reducible assumption)

theorem frame_execCrystalTimeout (s : State) :
    OutFrame [.pwr, .rings, .bezel, .loupe, .plait, .out] s (execCrystalTimeout s) := by
  have h := Frame.refl [.pwr, .rings, .bezel, .loupe, .plait, .out] s
  have hP : subParts [.pwr, .rings, .bezel, .loupe, .plait, .out] [.pwr, .rings, .bezel, .loupe, .plait, .out] = true := by decide
  unfold execCrystalTimeout
  show Frame [.pwr, .rings, .bezel, .loupe, .plait, .out] _ _
  try extract_lets
  repeat' first
    | with_reducible assumption
    | exact subParts_trans (by decide) hP
    | with_reducible apply frame_logEvent
    | with_reducible apply Frame.ite <;> intro _
    | (with_reducible refine Frame.of_mk _ _ _ _ _ _ _ _ _ _ _ _ _ _ _ _ _ _ _ _ _ _ _ _ _ _ _ _ _ hP ?_ rfl ?_ ?_ ?_ ?_ ?_ ?_ ?_ ?_ ?_ ?_ ?_ ?_ ?_ ?_ ?_ ?_ ?_ ?_ ?_ ?_ ?_ ?_ ?_ ?_ ?_ ?_ ?_ ?_ <;>
         first | with_reducible exact Or.inr rfl | exact Or.inl rfl | skip
       with_reducible assumption)

theorem frame_execRcTrim (s : State) :
    OutFrame [.mem, .pwr, .rings, .bezel, .loupe, .can, .net, .plait, .out] s (execRcTrim s) := by
  have h := Frame.refl [.mem, .pwr, .rings, .bezel, .loupe, .can, .net, .plait, .out] s
  have hP : subParts [.mem, .pwr, .rings, .bezel, .loupe, .can, .net, .plait, .out] [.mem, .pwr, .rings, .bezel, .loupe, .can, .net, .plait, .out] = true := by decide
  unfold execRcTrim
  show Frame [.mem, .pwr, .rings, .bezel, .loupe, .can, .net, .plait, .out] _ _
  try extract_lets
  repeat' first
    | with_reducible assumption
    | exact subParts_trans (by decide) hP
    | with_reducible apply frame_netAll
    | with_reducible apply frame_logEvent
    | with_reducible apply Frame.ite <;> intro _
    | (with_reducible refine Frame.of_mk _ _ _ _ _ _ _ _ _ _ _ _ _ _ _ _ _ _ _ _ _ _ _ _ _ _ _ _ _ hP ?_ rfl ?_ ?_ ?_ ?_ ?_ ?_ ?_ ?_ ?_ ?_ ?_ ?_ ?_ ?_ ?_ ?_ ?_ ?_ ?_ ?_ ?_ ?_ ?_ ?_ ?_ ?_ ?_ ?_ <;>
         first | with_reducible exact Or.inr rfl | exact Or.inl rfl | skip
       with_reducible assumption)

theorem frame_execKl15Off (s : State) :
    OutFrame [.sys, .mem, .pwr, .weave, .rings, .bezel, .loupe, .hso, .edge, .led, .mtx, .fio, .vlv, .facet, .can, .net, .plait, .acc, .rdata, .out] s (execKl15Off s) := by
  have h := Frame.refl [.sys, .mem, .pwr, .weave, .rings, .bezel, .loupe, .hso, .edge, .led, .mtx, .fio, .vlv, .facet, .can, .net, .plait, .acc, .rdata, .out] s
  have hP : subParts [.sys, .mem, .pwr, .weave, .rings, .bezel, .loupe, .hso, .edge, .led, .mtx, .fio, .vlv, .facet, .can, .net, .plait, .acc, .rdata, .out] [.sys, .mem, .pwr, .weave, .rings, .bezel, .loupe, .hso, .edge, .led, .mtx, .fio, .vlv, .facet, .can, .net, .plait, .acc, .rdata, .out] = true := by decide
  unfold execKl15Off
  show Frame [.sys, .mem, .pwr, .weave, .rings, .bezel, .loupe, .hso, .edge, .led, .mtx, .fio, .vlv, .facet, .can, .net, .plait, .acc, .rdata, .out] _ _
  try extract_lets
  repeat' first
    | with_reducible assumption
    | exact subParts_trans (by decide) hP
    | with_reducible apply frame_judge
    | with_reducible apply frame_netKl15
    | (with_reducible refine Frame.of_mk _ _ _ _ _ _ _ _ _ _ _ _ _ _ _ _ _ _ _ _ _ _ _ _ _ _ _ _ _ hP ?_ rfl ?_ ?_ ?_ ?_ ?_ ?_ ?_ ?_ ?_ ?_ ?_ ?_ ?_ ?_ ?_ ?_ ?_ ?_ ?_ ?_ ?_ ?_ ?_ ?_ ?_ ?_ ?_ ?_ <;>
         first | with_reducible exact Or.inr rfl | exact Or.inl rfl | skip
       with_reducible assumption)

theorem frame_execWakePinReleased (pin : Fin 4) (s : State) :
    OutFrame [.sys, .mem, .pwr, .weave, .rings, .bezel, .loupe, .hso, .edge, .led, .mtx, .fio, .vlv, .facet, .can, .net, .plait, .acc, .rdata, .out] s (execWakePinReleased pin s) := by
  have h := Frame.refl [.sys, .mem, .pwr, .weave, .rings, .bezel, .loupe, .hso, .edge, .led, .mtx, .fio, .vlv, .facet, .can, .net, .plait, .acc, .rdata, .out] s
  have hP : subParts [.sys, .mem, .pwr, .weave, .rings, .bezel, .loupe, .hso, .edge, .led, .mtx, .fio, .vlv, .facet, .can, .net, .plait, .acc, .rdata, .out] [.sys, .mem, .pwr, .weave, .rings, .bezel, .loupe, .hso, .edge, .led, .mtx, .fio, .vlv, .facet, .can, .net, .plait, .acc, .rdata, .out] = true := by decide
  unfold execWakePinReleased
  show Frame [.sys, .mem, .pwr, .weave, .rings, .bezel, .loupe, .hso, .edge, .led, .mtx, .fio, .vlv, .facet, .can, .net, .plait, .acc, .rdata, .out] _ _
  try extract_lets
  repeat' first
    | with_reducible assumption
    | with_reducible apply frame_judge
    | (with_reducible refine Frame.of_mk _ _ _ _ _ _ _ _ _ _ _ _ _ _ _ _ _ _ _ _ _ _ _ _ _ _ _ _ _ hP ?_ rfl ?_ ?_ ?_ ?_ ?_ ?_ ?_ ?_ ?_ ?_ ?_ ?_ ?_ ?_ ?_ ?_ ?_ ?_ ?_ ?_ ?_ ?_ ?_ ?_ ?_ ?_ ?_ ?_ <;>
         first | with_reducible exact Or.inr rfl | exact Or.inl rfl | skip
       with_reducible assumption)

theorem frame_execLateWakeLatch (wake : Wake) (s : State) :
    OutFrame [.pwr] s (execLateWakeLatch wake s) := by
  have h := Frame.refl [.pwr] s
  have hP : subParts [.pwr] [.pwr] = true := by decide
  unfold execLateWakeLatch
  show Frame [.pwr] _ _
  try extract_lets
  repeat' first
    | with_reducible assumption
    | with_reducible apply Frame.ite <;> intro _
    | (with_reducible refine Frame.of_mk _ _ _ _ _ _ _ _ _ _ _ _ _ _ _ _ _ _ _ _ _ _ _ _ _ _ _ _ _ hP ?_ rfl ?_ ?_ ?_ ?_ ?_ ?_ ?_ ?_ ?_ ?_ ?_ ?_ ?_ ?_ ?_ ?_ ?_ ?_ ?_ ?_ ?_ ?_ ?_ ?_ ?_ ?_ ?_ ?_ <;>
         first | with_reducible exact Or.inr rfl | exact Or.inl rfl | skip
       with_reducible assumption)

theorem frame_execGuardExpiry (s : State) :
    OutFrame [.clk, .sys, .mem, .pwr, .weave, .rings, .bezel, .loupe, .hso, .edge, .led, .mtx, .fio, .vlv, .facet, .plait, .acc, .out] s (execGuardExpiry s) := by
  have h := Frame.refl [.clk, .sys, .mem, .pwr, .weave, .rings, .bezel, .loupe, .hso, .edge, .led, .mtx, .fio, .vlv, .facet, .plait, .acc, .out] s
  have hP : subParts [.clk, .sys, .mem, .pwr, .weave, .rings, .bezel, .loupe, .hso, .edge, .led, .mtx, .fio, .vlv, .facet, .plait, .acc, .out] [.clk, .sys, .mem, .pwr, .weave, .rings, .bezel, .loupe, .hso, .edge, .led, .mtx, .fio, .vlv, .facet, .plait, .acc, .out] = true := by decide
  unfold execGuardExpiry
  show Frame [.clk, .sys, .mem, .pwr, .weave, .rings, .bezel, .loupe, .hso, .edge, .led, .mtx, .fio, .vlv, .facet, .plait, .acc, .out] _ _
  try extract_lets
  repeat' first
    | with_reducible assumption
    | exact subParts_trans (by decide) hP
    | with_reducible apply frame_State_modDom
    | with_reducible apply frame_modeOutputs
    | with_reducible apply frame_setMode
    | with_reducible apply Frame.ite <;> intro _
    | (with_reducible refine Frame.of_mk _ _ _ _ _ _ _ _ _ _ _ _ _ _ _ _ _ _ _ _ _ _ _ _ _ _ _ _ _ hP ?_ rfl ?_ ?_ ?_ ?_ ?_ ?_ ?_ ?_ ?_ ?_ ?_ ?_ ?_ ?_ ?_ ?_ ?_ ?_ ?_ ?_ ?_ ?_ ?_ ?_ ?_ ?_ ?_ ?_ <;>
         first | with_reducible exact Or.inr rfl | exact Or.inl rfl | skip
       with_reducible apply frame_State_reach)

theorem frame_plRequest (s : State) (level : Nat) {P : List Part} {s0 : State} 
    (hP : subParts [.pwr] P = true) (h : Frame P s0 s) : Frame P s0 (plRequest s level) := by
  unfold plRequest
  try extract_lets
  repeat' first
    | with_reducible assumption
    | with_reducible apply frame_plSync
    | (with_reducible refine Frame.of_mk _ _ _ _ _ _ _ _ _ _ _ _ _ _ _ _ _ _ _ _ _ _ _ _ _ _ _ _ _ hP ?_ rfl ?_ ?_ ?_ ?_ ?_ ?_ ?_ ?_ ?_ ?_ ?_ ?_ ?_ ?_ ?_ ?_ ?_ ?_ ?_ ?_ ?_ ?_ ?_ ?_ ?_ ?_ ?_ ?_ <;>
         first | with_reducible exact Or.inr rfl | exact Or.inl rfl | skip
       with_reducible assumption)

theorem frame_actPerfSet (level : BitVec 3) (a : Act) (s : State) {P : List Part} {s0 : State} 
    (hP : subParts [.mem, .pwr, .rings, .plait, .out] P = true) (h : Frame P s0 s) : Frame P s0 (actPerfSet level a s) := by
  unfold actPerfSet
  try extract_lets
  repeat' first
    | with_reducible assumption
    | exact subParts_trans (by decide) hP
    | with_reducible apply frame_plRequest
    | with_reducible apply frame_finishAs
    | with_reducible apply frame_finish
    | with_reducible apply Frame.ite <;> intro _

theorem frame_execPerfSet (d : Desc) (level : BitVec 3) (s : State) :
    OutFrame [.ecc, .mem, .pwr, .weave, .rings, .bezel, .loupe, .plait, .out] s (execPerfSet d level s) := by
  have h := Frame.refl [.ecc, .mem, .pwr, .weave, .rings, .bezel, .loupe, .plait, .out] s
  have hP : subParts [.ecc, .mem, .pwr, .weave, .rings, .bezel, .loupe, .plait, .out] [.ecc, .mem, .pwr, .weave, .rings, .bezel, .loupe, .plait, .out] = true := by decide
  unfold execPerfSet
  show Frame [.ecc, .mem, .pwr, .weave, .rings, .bezel, .loupe, .plait, .out] _ _
  repeat' first
    | with_reducible assumption
    | exact subParts_trans (by decide) hP
    | with_reducible apply frame_accept
    | with_reducible apply frame_actPerfSet
    | intro _ _ _

theorem frame_execPlChangeDone (s : State) :
    OutFrame [.pwr] s (execPlChangeDone s) := by
  have h := Frame.refl [.pwr] s
  have hP : subParts [.pwr] [.pwr] = true := by decide
  unfold execPlChangeDone
  show Frame [.pwr] _ _
  try extract_lets
  repeat' first
    | (with_reducible refine Frame.of_mk _ _ _ _ _ _ _ _ _ _ _ _ _ _ _ _ _ _ _ _ _ _ _ _ _ _ _ _ _ hP ?_ rfl ?_ ?_ ?_ ?_ ?_ ?_ ?_ ?_ ?_ ?_ ?_ ?_ ?_ ?_ ?_ ?_ ?_ ?_ ?_ ?_ ?_ ?_ ?_ ?_ ?_ ?_ ?_ ?_ <;>
         first | with_reducible exact Or.inr rfl | exact Or.inl rfl | skip
       with_reducible assumption)

theorem frame_execPl4LimitReached (s : State) :
    OutFrame [.pwr, .rings, .bezel, .loupe, .plait, .out] s (execPl4LimitReached s) := by
  have h := Frame.refl [.pwr, .rings, .bezel, .loupe, .plait, .out] s
  have hP : subParts [.pwr, .rings, .bezel, .loupe, .plait, .out] [.pwr, .rings, .bezel, .loupe, .plait, .out] = true := by decide
  unfold execPl4LimitReached
  show Frame [.pwr, .rings, .bezel, .loupe, .plait, .out] _ _
  try extract_lets
  repeat' first
    | with_reducible assumption
    | exact subParts_trans (by decide) hP
    | with_reducible apply frame_plSync
    | with_reducible apply frame_logEvent
    | with_reducible apply Frame.ite <;> intro _
    | (with_reducible refine Frame.of_mk _ _ _ _ _ _ _ _ _ _ _ _ _ _ _ _ _ _ _ _ _ _ _ _ _ _ _ _ _ hP ?_ rfl ?_ ?_ ?_ ?_ ?_ ?_ ?_ ?_ ?_ ?_ ?_ ?_ ?_ ?_ ?_ ?_ ?_ ?_ ?_ ?_ ?_ ?_ ?_ ?_ ?_ ?_ ?_ ?_ <;>
         first | with_reducible exact Or.inr rfl | exact Or.inl rfl | skip
       with_reducible assumption)

theorem frame_execPl4CapLift (s : State) :
    OutFrame [.pwr, .free] s (execPl4CapLift s) := by
  have h := Frame.refl [.pwr, .free] s
  have hP : subParts [.pwr, .free] [.pwr, .free] = true := by decide
  unfold execPl4CapLift
  show Frame [.pwr, .free] _ _
  try extract_lets
  repeat' first
    | with_reducible assumption
    | exact subParts_trans (by decide) hP
    | with_reducible apply frame_plSync
    | with_reducible apply Frame.ite <;> intro _
    | (with_reducible refine Frame.of_mk _ _ _ _ _ _ _ _ _ _ _ _ _ _ _ _ _ _ _ _ _ _ _ _ _ _ _ _ _ hP ?_ rfl ?_ ?_ ?_ ?_ ?_ ?_ ?_ ?_ ?_ ?_ ?_ ?_ ?_ ?_ ?_ ?_ ?_ ?_ ?_ ?_ ?_ ?_ ?_ ?_ ?_ ?_ ?_ ?_ <;>
         first | with_reducible exact Or.inr rfl | exact Or.inl rfl | skip
       with_reducible apply frame_State_takeWord)

theorem frame_actDomainSet (domain : BitVec 4) (state : BitVec 2) (a : Act) (s : State) {P : List Part} {s0 : State} 
    (hP : subParts [.mem, .pwr, .weave, .rings, .plait, .out] P = true) (h : Frame P s0 s) : Frame P s0 (actDomainSet domain state a s) := by
  unfold actDomainSet
  try extract_lets
  repeat' first
    | with_reducible assumption
    | exact subParts_trans (by decide) hP
    | with_reducible apply frame_refuse
    | with_reducible apply frame_beginDrain
    | with_reducible apply frame_finish
    | with_reducible apply frame_startWake
    | with_reducible apply Frame.ite <;> intro _
    | (with_reducible refine Frame.of_mk _ _ _ _ _ _ _ _ _ _ _ _ _ _ _ _ _ _ _ _ _ _ _ _ _ _ _ _ _ hP ?_ rfl ?_ ?_ ?_ ?_ ?_ ?_ ?_ ?_ ?_ ?_ ?_ ?_ ?_ ?_ ?_ ?_ ?_ ?_ ?_ ?_ ?_ ?_ ?_ ?_ ?_ ?_ ?_ ?_ <;>
         first | with_reducible exact Or.inr rfl | exact Or.inl rfl | skip
       with_reducible assumption)

theorem frame_execDomainSet (d : Desc) (domain : BitVec 4) (state : BitVec 2) (s : State) :
    OutFrame [.ecc, .mem, .pwr, .weave, .rings, .bezel, .loupe, .plait, .out] s (execDomainSet d domain state s) := by
  have h := Frame.refl [.ecc, .mem, .pwr, .weave, .rings, .bezel, .loupe, .plait, .out] s
  have hP : subParts [.ecc, .mem, .pwr, .weave, .rings, .bezel, .loupe, .plait, .out] [.ecc, .mem, .pwr, .weave, .rings, .bezel, .loupe, .plait, .out] = true := by decide
  unfold execDomainSet
  show Frame [.ecc, .mem, .pwr, .weave, .rings, .bezel, .loupe, .plait, .out] _ _
  repeat' first
    | with_reducible assumption
    | exact subParts_trans (by decide) hP
    | with_reducible apply frame_accept
    | with_reducible apply frame_actDomainSet
    | intro _ _ _

theorem frame_raiseAgain (s : State) (d : Dom) {P : List Part} {s0 : State} 
    (hP : subParts [.mem, .pwr, .rings, .plait, .out] P = true) (h : Frame P s0 s) : Frame P s0 (raiseAgain s d) := by
  unfold raiseAgain
  try extract_lets
  repeat' first
    | with_reducible assumption
    | exact subParts_trans (by decide) hP
    | with_reducible apply frame_dropDrain
    | with_reducible apply frame_startWake
    | with_reducible apply Frame.ite <;> intro _

theorem frame_compatReturn (s : State) {P : List Part} {s0 : State} 
    (hP : subParts [.mem, .pwr, .rings, .plait, .out] P = true) (h : Frame P s0 s) : Frame P s0 (compatReturn s) := by
  unfold compatReturn
  try extract_lets
  repeat' first
    | with_reducible assumption
    | with_reducible apply Frame.foldl
    | with_reducible apply frame_raiseAgain
    | intro _ _ _
    | (with_reducible refine Frame.of_mk _ _ _ _ _ _ _ _ _ _ _ _ _ _ _ _ _ _ _ _ _ _ _ _ _ _ _ _ _ hP ?_ rfl ?_ ?_ ?_ ?_ ?_ ?_ ?_ ?_ ?_ ?_ ?_ ?_ ?_ ?_ ?_ ?_ ?_ ?_ ?_ ?_ ?_ ?_ ?_ ?_ ?_ ?_ ?_ ?_ <;>
         first | with_reducible exact Or.inr rfl | exact Or.inl rfl | skip
       with_reducible assumption)

theorem frame_execHostInterruptWake (s : State) :
    OutFrame [.mem, .pwr, .rings, .plait, .out] s (execHostInterruptWake s) := by
  have h := Frame.refl [.mem, .pwr, .rings, .plait, .out] s
  have hP : subParts [.mem, .pwr, .rings, .plait, .out] [.mem, .pwr, .rings, .plait, .out] = true := by decide
  unfold execHostInterruptWake
  show Frame [.mem, .pwr, .rings, .plait, .out] _ _
  repeat' first
    | with_reducible assumption
    | with_reducible apply frame_compatReturn
    | with_reducible apply Frame.ite <;> intro _

theorem frame_govTake (s : State) (above : Bool) {P : List Part} {s0 : State}
    (hP : subParts [.pwr, .rings, .bezel, .loupe, .hso, .edge, .led, .plait, .out] P = true) (h : Frame P s0 s) : Frame P s0 (govTake s above) := by
  have key : ∀ n u, Frame P s0 u →
      Frame P s0 (if n = 5 then hsoShed { u with pwr.shedFrom := 7 } 7 else if n = 6 then ledShed u else u) := by
    intro n u k
    refine Frame.ite (fun _ => ?_) (fun _ => Frame.ite (fun _ => frame_ledShed _ (subParts_trans (by decide) hP) k) (fun _ => k))
    refine frame_hsoShed _ _ (subParts_trans (by decide) hP) ?_
    (with_reducible refine Frame.of_mk _ _ _ _ _ _ _ _ _ _ _ _ _ _ _ _ _ _ _ _ _ _ _ _ _ _ _ _ _ hP ?_ rfl ?_ ?_ ?_ ?_ ?_ ?_ ?_ ?_ ?_ ?_ ?_ ?_ ?_ ?_ ?_ ?_ ?_ ?_ ?_ ?_ ?_ ?_ ?_ ?_ ?_ ?_ ?_ ?_ <;>
      first | with_reducible exact Or.inr rfl | exact Or.inl rfl | skip)
    with_reducible exact k
  unfold govTake
  refine Frame.ite (fun _ => ?_) (fun _ => Frame.ite (fun _ => h) (fun _ => ?_))
  · refine frame_hsoShed _ _ (subParts_trans (by decide) hP) ?_
    exact h.upd hP rfl (fun p hp => by cases p <;> first | exact absurd hp (by decide) | exact rfl)
  · refine key (s.pwr.govStep + 1) _ ?_
    refine frame_plSync _ (subParts_trans (by decide) hP) ?_
    refine frame_logEvent _ _ _ (subParts_trans (by decide) hP) ?_
    exact h.upd hP rfl (fun p hp => by cases p <;> first | exact absurd hp (by decide) | exact rfl)

theorem frame_govRelease (s : State) {P : List Part} {s0 : State}
    (hP : subParts [.pwr, .rings, .bezel, .loupe, .hso, .led, .plait, .out] P = true) (h : Frame P s0 s) : Frame P s0 (govRelease s) := by
  have key : ∀ n u, Frame P s0 u →
      Frame P s0 (if n = 6 then ledUnshed u else if n = 5 then hsoUnshed { u with pwr.shedFrom := 8 } else u) := by
    intro n u k
    refine Frame.ite (fun _ => frame_ledUnshed _ (subParts_trans (by decide) hP) k) (fun _ => Frame.ite (fun _ => ?_) (fun _ => k))
    refine frame_hsoUnshed _ (subParts_trans (by decide) hP) ?_
    (with_reducible refine Frame.of_mk _ _ _ _ _ _ _ _ _ _ _ _ _ _ _ _ _ _ _ _ _ _ _ _ _ _ _ _ _ hP ?_ rfl ?_ ?_ ?_ ?_ ?_ ?_ ?_ ?_ ?_ ?_ ?_ ?_ ?_ ?_ ?_ ?_ ?_ ?_ ?_ ?_ ?_ ?_ ?_ ?_ ?_ ?_ ?_ ?_ <;>
      first | with_reducible exact Or.inr rfl | exact Or.inl rfl | skip)
    with_reducible exact k
  unfold govRelease
  refine Frame.ite (fun _ => h) (fun _ => ?_)
  refine key s.pwr.govStep _ ?_
  refine frame_plSync _ (subParts_trans (by decide) hP) ?_
  refine frame_logEvent _ _ _ (subParts_trans (by decide) hP) ?_
  exact h.upd hP rfl (fun p hp => by cases p <;> first | exact absurd hp (by decide) | exact rfl)

theorem frame_execGovernorTick (estimate : BitVec 16) (junction : Int) (s : State) :
    OutFrame [.pwr, .rings, .bezel, .loupe, .hso, .edge, .led, .plait, .out] s (execGovernorTick estimate junction s) := by
  have h := Frame.refl [.pwr, .rings, .bezel, .loupe, .hso, .edge, .led, .plait, .out] s
  have hP : subParts [.pwr, .rings, .bezel, .loupe, .hso, .edge, .led, .plait, .out] [.pwr, .rings, .bezel, .loupe, .hso, .edge, .led, .plait, .out] = true := by decide
  unfold execGovernorTick
  show Frame [.pwr, .rings, .bezel, .loupe, .hso, .edge, .led, .plait, .out] _ _
  try extract_lets
  repeat' first
    | with_reducible assumption
    | exact subParts_trans (by decide) hP
    | with_reducible apply frame_govTake
    | with_reducible apply frame_govRelease
    | with_reducible apply Frame.ite <;> intro _
    | (with_reducible refine Frame.of_mk _ _ _ _ _ _ _ _ _ _ _ _ _ _ _ _ _ _ _ _ _ _ _ _ _ _ _ _ _ hP ?_ rfl ?_ ?_ ?_ ?_ ?_ ?_ ?_ ?_ ?_ ?_ ?_ ?_ ?_ ?_ ?_ ?_ ?_ ?_ ?_ ?_ ?_ ?_ ?_ ?_ ?_ ?_ ?_ ?_ <;>
         first | with_reducible exact Or.inr rfl | exact Or.inl rfl | skip
       first
         | with_reducible assumption
         | split
      )
    | extract_lets
    | dsimp +zetaDelta only

end Sys2Proof.Machine
end

