-- ==== Sys2Proof/Laws/FrameWeave.lean ====
section
/-! SUPPORT. Which parts of the state the operations of Machine/Weave.lean may change. -/

namespace Sys2Proof.Machine

set_option linter.unusedTactic false
set_option linter.unreachableTactic false

theorem frame_setSync (s : State) (st : SyncState) {P : List Part} {s0 : State} 
    (hP : subParts [.weave, .rings, .bezel, .loupe, .plait, .out] P = true) (h : Frame P s0 s) : Frame P s0 (setSync s st) := by
  unfold setSync
  try extract_lets
  repeat' first
    | with_reducible assumption
    | exact subParts_trans (by decide) hP
    | with_reducible apply frame_logEvent
    | with_reducible apply Frame.ite <;> intro _
    | (with_reducible refine Frame.of_mk _ _ _ _ _ _ _ _ _ _ _ _ _ _ _ _ _ _ _ _ _ _ _ _ _ _ _ _ _ hP ?_ rfl ?_ ?_ ?_ ?_ ?_ ?_ ?_ ?_ ?_ ?_ ?_ ?_ ?_ ?_ ?_ ?_ ?_ ?_ ?_ ?_ ?_ ?_ ?_ ?_ ?_ ?_ ?_ ?_ <;>
         first | with_reducible exact Or.inr rfl | exact Or.inl rfl | skip
       with_reducible assumption)

theorem frame_weaveStep (s : State) (offset : Int) {P : List Part} {s0 : State} 
    (hP : subParts [.mem, .pwr, .weave, .rings, .bezel, .loupe, .plait, .out] P = true) (h : Frame P s0 s) : Frame P s0 (weaveStep s offset) := by
  unfold weaveStep
  try extract_lets
  repeat' first
    | with_reducible assumption
    | exact subParts_trans (by decide) hP
    | with_reducible apply Frame.foldl
    | with_reducible apply frame_cancelLaunch
    | with_reducible apply frame_setSync
    | with_reducible apply frame_logEvent
    | intro _ _ _
    | (with_reducible refine Frame.of_mk _ _ _ _ _ _ _ _ _ _ _ _ _ _ _ _ _ _ _ _ _ _ _ _ _ _ _ _ _ hP ?_ rfl ?_ ?_ ?_ ?_ ?_ ?_ ?_ ?_ ?_ ?_ ?_ ?_ ?_ ?_ ?_ ?_ ?_ ?_ ?_ ?_ ?_ ?_ ?_ ?_ ?_ ?_ ?_ ?_ <;>
         first | with_reducible exact Or.inr rfl | exact Or.inl rfl | skip
       with_reducible assumption)
    | extract_lets
    | dsimp +zetaDelta only

theorem frame_syncRx (s : State) (offset : Int) (interval : Nat) {P : List Part} {s0 : State} 
    (hP : subParts [.mem, .pwr, .weave, .rings, .bezel, .loupe, .plait, .out] P = true) (h : Frame P s0 s) : Frame P s0 (syncRx s offset interval) := by
  unfold syncRx
  try extract_lets
  repeat' first
    | with_reducible assumption
    | exact subParts_trans (by decide) hP
    | with_reducible apply frame_weaveStep
    | with_reducible apply frame_setSync
    | with_reducible apply Frame.ite <;> intro _
    | (with_reducible refine Frame.of_mk _ _ _ _ _ _ _ _ _ _ _ _ _ _ _ _ _ _ _ _ _ _ _ _ _ _ _ _ _ hP ?_ rfl ?_ ?_ ?_ ?_ ?_ ?_ ?_ ?_ ?_ ?_ ?_ ?_ ?_ ?_ ?_ ?_ ?_ ?_ ?_ ?_ ?_ ?_ ?_ ?_ ?_ ?_ ?_ ?_ <;>
         first | with_reducible exact Or.inr rfl | exact Or.inl rfl | skip
       first
         | with_reducible assumption
         | split
      )
    | extract_lets
    | dsimp +zetaDelta only

theorem frame_execSyncTx (s : State) :
    OutFrame [.out] s (execSyncTx s) := by
  have h := Frame.refl [.out] s
  have hP : subParts [.out] [.out] = true := by decide
  unfold execSyncTx
  show Frame [.out] _ _
  repeat' first
    | with_reducible assumption
    | with_reducible apply frame_State_send
    | with_reducible apply Frame.ite <;> intro _

theorem frame_execPdelayExchange (delay : Nat) (s : State) :
    OutFrame [.weave] s (execPdelayExchange delay s) := by
  have h := Frame.refl [.weave] s
  have hP : subParts [.weave] [.weave] = true := by decide
  unfold execPdelayExchange
  show Frame [.weave] _ _
  try extract_lets
  repeat' first
    | (with_reducible refine Frame.of_mk _ _ _ _ _ _ _ _ _ _ _ _ _ _ _ _ _ _ _ _ _ _ _ _ _ _ _ _ _ hP ?_ rfl ?_ ?_ ?_ ?_ ?_ ?_ ?_ ?_ ?_ ?_ ?_ ?_ ?_ ?_ ?_ ?_ ?_ ?_ ?_ ?_ ?_ ?_ ?_ ?_ ?_ ?_ ?_ ?_ <;>
         first | with_reducible exact Or.inr rfl | exact Or.inl rfl | skip
       with_reducible assumption)

theorem frame_execSyncMissed (s : State) :
    OutFrame [.clk, .weave, .rings, .bezel, .loupe, .plait, .out] s (execSyncMissed s) := by
  have h := Frame.refl [.clk, .weave, .rings, .bezel, .loupe, .plait, .out] s
  have hP : subParts [.clk, .weave, .rings, .bezel, .loupe, .plait, .out] [.clk, .weave, .rings, .bezel, .loupe, .plait, .out] = true := by decide
  unfold execSyncMissed
  show Frame [.clk, .weave, .rings, .bezel, .loupe, .plait, .out] _ _
  try extract_lets
  repeat' first
    | with_reducible assumption
    | exact subParts_trans (by decide) hP
    | with_reducible apply frame_setSync
    | (with_reducible refine Frame.of_mk _ _ _ _ _ _ _ _ _ _ _ _ _ _ _ _ _ _ _ _ _ _ _ _ _ _ _ _ _ hP ?_ rfl ?_ ?_ ?_ ?_ ?_ ?_ ?_ ?_ ?_ ?_ ?_ ?_ ?_ ?_ ?_ ?_ ?_ ?_ ?_ ?_ ?_ ?_ ?_ ?_ ?_ ?_ ?_ ?_ <;>
         first | with_reducible exact Or.inr rfl | exact Or.inl rfl | skip
       first
         | with_reducible apply frame_State_reach
         | split
      )

theorem frame_execTimeMsgRx (wallOffset : BitVec 64) (setCount : BitVec 16) (s : State) :
    OutFrame [.weave] s (execTimeMsgRx wallOffset setCount s) := by
  have h := Frame.refl [.weave] s
  have hP : subParts [.weave] [.weave] = true := by decide
  unfold execTimeMsgRx
  show Frame [.weave] _ _
  try extract_lets
  repeat' first
    | with_reducible assumption
    | with_reducible apply Frame.ite <;> intro _
    | (with_reducible refine Frame.of_mk _ _ _ _ _ _ _ _ _ _ _ _ _ _ _ _ _ _ _ _ _ _ _ _ _ _ _ _ _ hP ?_ rfl ?_ ?_ ?_ ?_ ?_ ?_ ?_ ?_ ?_ ?_ ?_ ?_ ?_ ?_ ?_ ?_ ?_ ?_ ?_ ?_ ?_ ?_ ?_ ?_ ?_ ?_ ?_ ?_ <;>
         first | with_reducible exact Or.inr rfl | exact Or.inl rfl | skip
       with_reducible assumption)

theorem frame_actWallSet (utc : BitVec 64) (at_ : BitVec 64) (a : Act) (s : State) {P : List Part} {s0 : State} 
    (hP : subParts [.mem, .pwr, .weave, .rings, .bezel, .loupe, .plait, .out] P = true) (h : Frame P s0 s) : Frame P s0 (actWallSet utc at_ a s) := by
  unfold actWallSet
  try extract_lets
  repeat' first
    | with_reducible assumption
    | exact subParts_trans (by decide) hP
    | with_reducible apply frame_refuse
    | with_reducible apply frame_finish
    | with_reducible apply frame_logEvent
    | with_reducible apply Frame.ite <;> intro _
    | (with_reducible refine Frame.of_mk _ _ _ _ _ _ _ _ _ _ _ _ _ _ _ _ _ _ _ _ _ _ _ _ _ _ _ _ _ hP ?_ rfl ?_ ?_ ?_ ?_ ?_ ?_ ?_ ?_ ?_ ?_ ?_ ?_ ?_ ?_ ?_ ?_ ?_ ?_ ?_ ?_ ?_ ?_ ?_ ?_ ?_ ?_ ?_ ?_ <;>
         first | with_reducible exact Or.inr rfl | exact Or.inl rfl | skip
       with_reducible assumption)

theorem frame_execWallSet (d : Desc) (utc : BitVec 64) (at_ : BitVec 64) (s : State) :
    OutFrame [.ecc, .mem, .pwr, .weave, .rings, .bezel, .loupe, .plait, .out] s (execWallSet d utc at_ s) := by
  have h := Frame.refl [.ecc, .mem, .pwr, .weave, .rings, .bezel, .loupe, .plait, .out] s
  have hP : subParts [.ecc, .mem, .pwr, .weave, .rings, .bezel, .loupe, .plait, .out] [.ecc, .mem, .pwr, .weave, .rings, .bezel, .loupe, .plait, .out] = true := by decide
  unfold execWallSet
  show Frame [.ecc, .mem, .pwr, .weave, .rings, .bezel, .loupe, .plait, .out] _ _
  repeat' first
    | with_reducible assumption
    | exact subParts_trans (by decide) hP
    | with_reducible apply frame_accept
    | with_reducible apply frame_actWallSet
    | intro _ _ _

theorem frame_actCaptureArm (unit : BitVec 3) (timeout : BitVec 24) (a : Act) (s : State) {P : List Part} {s0 : State} 
    (hP : subParts [.mem, .pwr, .weave, .rings, .plait, .out] P = true) (h : Frame P s0 s) : Frame P s0 (actCaptureArm unit timeout a s) := by
  unfold actCaptureArm
  try extract_lets
  repeat' first
    | with_reducible assumption
    | exact subParts_trans (by decide) hP
    | with_reducible apply frame_refuse
    | with_reducible apply Frame.ite <;> intro _
    | (with_reducible refine Frame.of_mk _ _ _ _ _ _ _ _ _ _ _ _ _ _ _ _ _ _ _ _ _ _ _ _ _ _ _ _ _ hP ?_ rfl ?_ ?_ ?_ ?_ ?_ ?_ ?_ ?_ ?_ ?_ ?_ ?_ ?_ ?_ ?_ ?_ ?_ ?_ ?_ ?_ ?_ ?_ ?_ ?_ ?_ ?_ ?_ ?_ <;>
         first | with_reducible exact Or.inr rfl | exact Or.inl rfl | skip
       with_reducible assumption)

theorem frame_execCaptureArm (d : Desc) (unit : BitVec 3) (timeout : BitVec 24) (s : State) :
    OutFrame [.ecc, .mem, .pwr, .weave, .rings, .bezel, .loupe, .plait, .out] s (execCaptureArm d unit timeout s) := by
  have h := Frame.refl [.ecc, .mem, .pwr, .weave, .rings, .bezel, .loupe, .plait, .out] s
  have hP : subParts [.ecc, .mem, .pwr, .weave, .rings, .bezel, .loupe, .plait, .out] [.ecc, .mem, .pwr, .weave, .rings, .bezel, .loupe, .plait, .out] = true := by decide
  unfold execCaptureArm
  show Frame [.ecc, .mem, .pwr, .weave, .rings, .bezel, .loupe, .plait, .out] _ _
  repeat' first
    | with_reducible assumption
    | exact subParts_trans (by decide) hP
    | with_reducible apply frame_accept
    | with_reducible apply frame_actCaptureArm
    | intro _ _ _

theorem frame_captureUnit (s : State) (n : Nat) {P : List Part} {s0 : State} 
    (hP : subParts [.mem, .pwr, .weave, .rings, .plait, .out] P = true) (h : Frame P s0 s) : Frame P s0 (captureUnit s n) := by
  unfold captureUnit
  try extract_lets
  repeat' first
    | exact subParts_trans (by decide) hP
    | with_reducible apply frame_complete
    | (with_reducible refine Frame.of_mk _ _ _ _ _ _ _ _ _ _ _ _ _ _ _ _ _ _ _ _ _ _ _ _ _ _ _ _ _ hP ?_ rfl ?_ ?_ ?_ ?_ ?_ ?_ ?_ ?_ ?_ ?_ ?_ ?_ ?_ ?_ ?_ ?_ ?_ ?_ ?_ ?_ ?_ ?_ ?_ ?_ ?_ ?_ ?_ ?_ <;>
         first | with_reducible exact Or.inr rfl | exact Or.inl rfl | skip
       first
         | with_reducible assumption
         | split
      )
    | extract_lets
    | dsimp +zetaDelta only

theorem frame_execCaptureEdge (source : BitVec 7) (rising : Bool) (s : State) :
    OutFrame [.mem, .pwr, .weave, .rings, .plait, .out] s (execCaptureEdge source rising s) := by
  have h := Frame.refl [.mem, .pwr, .weave, .rings, .plait, .out] s
  have hP : subParts [.mem, .pwr, .weave, .rings, .plait, .out] [.mem, .pwr, .weave, .rings, .plait, .out] = true := by decide
  unfold execCaptureEdge
  show Frame [.mem, .pwr, .weave, .rings, .plait, .out] _ _
  repeat' first
    | with_reducible assumption
    | with_reducible apply Frame.foldl
    | with_reducible apply frame_captureUnit
    | with_reducible apply Frame.ite <;> intro _
    | intro _ _ _

theorem frame_execCaptureTimeout (unit : Fin 8) (s : State) :
    OutFrame [.clk, .mem, .pwr, .weave, .rings, .plait, .out] s (execCaptureTimeout unit s) := by
  have h := Frame.refl [.clk, .mem, .pwr, .weave, .rings, .plait, .out] s
  have hP : subParts [.clk, .mem, .pwr, .weave, .rings, .plait, .out] [.clk, .mem, .pwr, .weave, .rings, .plait, .out] = true := by decide
  unfold execCaptureTimeout
  show Frame [.clk, .mem, .pwr, .weave, .rings, .plait, .out] _ _
  try extract_lets
  repeat' first
    | with_reducible assumption
    | exact subParts_trans (by decide) hP
    | with_reducible apply frame_complete
    | (with_reducible refine Frame.of_mk _ _ _ _ _ _ _ _ _ _ _ _ _ _ _ _ _ _ _ _ _ _ _ _ _ _ _ _ _ hP ?_ rfl ?_ ?_ ?_ ?_ ?_ ?_ ?_ ?_ ?_ ?_ ?_ ?_ ?_ ?_ ?_ ?_ ?_ ?_ ?_ ?_ ?_ ?_ ?_ ?_ ?_ ?_ ?_ ?_ <;>
         first | with_reducible exact Or.inr rfl | exact Or.inl rfl | skip
       first
         | with_reducible apply frame_State_reach
         | split
      )

end Sys2Proof.Machine
end

