-- ==== Sys2Proof/Laws/FrameWindow.lean ====
section
/-! SUPPORT. Which parts of the state the operations of Machine/Window.lean may change. -/

namespace Sys2Proof.Machine

set_option linter.unusedTactic false
set_option linter.unreachableTactic false

theorem frame_dropAhead (s : State) (w : Nat) (off : Nat) (n : Nat) {P : List Part} {s0 : State} 
    (hP : subParts [.plait] P = true) (h : Frame P s0 s) : Frame P s0 (dropAhead s w off n) := by
  unfold dropAhead
  try extract_lets
  repeat' first
    | with_reducible assumption
    | with_reducible apply frame_State_modLink

theorem frame_windowWrite (s : State) (w : Nat) (off : Nat) (bs : List (BitVec 8)) (why : Option NpFor) {P : List Part} {s0 : State} 
    (hP : subParts [.plait, .out] P = true) (h : Frame P s0 s) : Frame P s0 (windowWrite s w off bs why) := by
  unfold windowWrite
  try extract_lets
  repeat' first
    | with_reducible assumption
    | exact subParts_trans (by decide) hP
    | with_reducible apply frame_dropAhead
    | with_reducible apply frame_plaitNp
    | with_reducible apply frame_plaitPost
    | (with_reducible refine Frame.of_mk _ _ _ _ _ _ _ _ _ _ _ _ _ _ _ _ _ _ _ _ _ _ _ _ _ _ _ _ _ hP ?_ rfl ?_ ?_ ?_ ?_ ?_ ?_ ?_ ?_ ?_ ?_ ?_ ?_ ?_ ?_ ?_ ?_ ?_ ?_ ?_ ?_ ?_ ?_ ?_ ?_ ?_ ?_ ?_ ?_ <;>
         first | with_reducible exact Or.inr rfl | exact Or.inl rfl | skip
       split)

theorem frame_windowRead (s : State) (w : Nat) (off : Nat) (n : Nat) (why : NpFor) {P : List Part} {s0 : State} 
    (hP : subParts [.plait, .out] P = true) (h : Frame P s0 s) : Frame P s0 (windowRead s w off n why) := by
  unfold windowRead
  try extract_lets
  repeat' first
    | with_reducible assumption
    | with_reducible apply frame_plaitNp
    | with_reducible apply Frame.ite <;> intro _

theorem frame_loadData (s : State) (bs : List (BitVec 8)) {P : List Part} {s0 : State} 
    (hP : subParts [.rdata] P = true) (h : Frame P s0 s) : Frame P s0 (loadData s bs) := by
  unfold loadData
  try extract_lets
  repeat' first
    | (with_reducible refine Frame.of_mk _ _ _ _ _ _ _ _ _ _ _ _ _ _ _ _ _ _ _ _ _ _ _ _ _ _ _ _ _ hP ?_ rfl ?_ ?_ ?_ ?_ ?_ ?_ ?_ ?_ ?_ ?_ ?_ ?_ ?_ ?_ ?_ ?_ ?_ ?_ ?_ ?_ ?_ ?_ ?_ ?_ ?_ ?_ ?_ ?_ <;>
         first | with_reducible exact Or.inr rfl | exact Or.inl rfl | skip
       with_reducible assumption)

theorem frame_windowStore (s : State) (hart : BitVec 2) (w : Nat) (off : Nat) (n : Nat) (data : BitVec 64) {P : List Part} {s0 : State} 
    (hP : subParts [.plait, .out] P = true) (h : Frame P s0 s) : Frame P s0 (windowStore s hart w off n data) := by
  unfold windowStore
  try extract_lets
  repeat' first
    | with_reducible assumption
    | with_reducible apply frame_windowWrite
    | with_reducible apply Frame.ite <;> intro _

theorem frame_windowLoad (s : State) (hart : BitVec 2) (w : Nat) (off : Nat) (n : Nat) {P : List Part} {s0 : State} 
    (hP : subParts [.plait, .rdata, .out] P = true) (h : Frame P s0 s) : Frame P s0 (windowLoad s hart w off n) := by
  unfold windowLoad
  try extract_lets
  repeat' first
    | with_reducible assumption
    | exact subParts_trans (by decide) hP
    | with_reducible apply frame_loadData
    | with_reducible apply frame_windowRead
    | with_reducible apply Frame.ite <;> intro _
    | (with_reducible refine Frame.of_mk _ _ _ _ _ _ _ _ _ _ _ _ _ _ _ _ _ _ _ _ _ _ _ _ _ _ _ _ _ hP ?_ rfl ?_ ?_ ?_ ?_ ?_ ?_ ?_ ?_ ?_ ?_ ?_ ?_ ?_ ?_ ?_ ?_ ?_ ?_ ?_ ?_ ?_ ?_ ?_ ?_ ?_ ?_ ?_ ?_ <;>
         first | with_reducible exact Or.inr rfl | exact Or.inl rfl | skip
       split)

theorem frame_windowAccess (s : State) (hart : BitVec 2) (w : Nat) (off : Nat) (n : Nat) (atomic : Bool) (write : Bool) (data : BitVec 64) {P : List Part} {s0 : State} 
    (hP : subParts [.sys, .pwr, .rings, .bezel, .loupe, .plait, .rdata, .out] P = true) (h : Frame P s0 s) : Frame P s0 (windowAccess s hart w off n atomic write data) := by
  unfold windowAccess
  try extract_lets
  repeat' first
    | with_reducible assumption
    | exact subParts_trans (by decide) hP
    | with_reducible apply frame_coreFault
    | with_reducible apply frame_bridgeFault
    | with_reducible apply frame_windowStore
    | with_reducible apply frame_windowLoad
    | with_reducible apply frame_startWake
    | with_reducible apply Frame.ite <;> intro _
    | (with_reducible refine Frame.of_mk _ _ _ _ _ _ _ _ _ _ _ _ _ _ _ _ _ _ _ _ _ _ _ _ _ _ _ _ _ hP ?_ rfl ?_ ?_ ?_ ?_ ?_ ?_ ?_ ?_ ?_ ?_ ?_ ?_ ?_ ?_ ?_ ?_ ?_ ?_ ?_ ?_ ?_ ?_ ?_ ?_ ?_ ?_ ?_ ?_ <;>
         first | with_reducible exact Or.inr rfl | exact Or.inl rfl | skip
       first
         | with_reducible assumption
         | split
      )

theorem frame_execWindowAccess (hart : BitVec 2) (worker : Fin 32) (offset : BitVec 25) (size : BitVec 4) (atomic : Bool) (write : Bool) (data : BitVec 64) (s : State) :
    OutFrame [.sys, .pwr, .rings, .bezel, .loupe, .plait, .rdata, .out] s (execWindowAccess hart worker offset size atomic write data s) := by
  have h := Frame.refl [.sys, .pwr, .rings, .bezel, .loupe, .plait, .rdata, .out] s
  have hP : subParts [.sys, .pwr, .rings, .bezel, .loupe, .plait, .rdata, .out] [.sys, .pwr, .rings, .bezel, .loupe, .plait, .rdata, .out] = true := by decide
  unfold execWindowAccess
  show Frame [.sys, .pwr, .rings, .bezel, .loupe, .plait, .rdata, .out] _ _
  repeat' first
    | with_reducible assumption
    | with_reducible apply frame_windowAccess
    | with_reducible apply Frame.ite <;> intro _

theorem frame_execPrefetchBufferExpiry (worker : Fin 32) (block : BitVec 19) (s : State) :
    OutFrame [.clk, .weave, .plait] s (execPrefetchBufferExpiry worker block s) := by
  have h := Frame.refl [.clk, .weave, .plait] s
  have hP : subParts [.clk, .weave, .plait] [.clk, .weave, .plait] = true := by decide
  unfold execPrefetchBufferExpiry
  show Frame [.clk, .weave, .plait] _ _
  try extract_lets
  repeat' first
    | with_reducible assumption
    | exact subParts_trans (by decide) hP
    | with_reducible apply frame_dropAhead
    | with_reducible apply frame_State_reach
    | (with_reducible refine Frame.of_mk _ _ _ _ _ _ _ _ _ _ _ _ _ _ _ _ _ _ _ _ _ _ _ _ _ _ _ _ _ hP ?_ rfl ?_ ?_ ?_ ?_ ?_ ?_ ?_ ?_ ?_ ?_ ?_ ?_ ?_ ?_ ?_ ?_ ?_ ?_ ?_ ?_ ?_ ?_ ?_ ?_ ?_ ?_ ?_ ?_ <;>
         first | with_reducible exact Or.inr rfl | exact Or.inl rfl | skip
       split)

theorem frame_copyStep (s : State) (d : Desc) (n : Nat) {P : List Part} {s0 : State} 
    (hP : subParts [.mem, .pwr, .rings, .plait, .out] P = true) (h : Frame P s0 s) : Frame P s0 (copyStep s d n) := by
  unfold copyStep
  try extract_lets
  repeat' first
    | with_reducible assumption
    | exact subParts_trans (by decide) hP
    | with_reducible apply frame_copyEnd
    | with_reducible apply frame_State_setCopy
    | with_reducible apply Frame.ite <;> intro _
    | (with_reducible refine Frame.of_mk _ _ _ _ _ _ _ _ _ _ _ _ _ _ _ _ _ _ _ _ _ _ _ _ _ _ _ _ _ hP ?_ rfl ?_ ?_ ?_ ?_ ?_ ?_ ?_ ?_ ?_ ?_ ?_ ?_ ?_ ?_ ?_ ?_ ?_ ?_ ?_ ?_ ?_ ?_ ?_ ?_ ?_ ?_ ?_ ?_ <;>
         first | with_reducible exact Or.inr rfl | exact Or.inl rfl | skip
       split)

theorem frame_copyTake (s : State) (d : Desc) (pos : Nat) (bs : List (BitVec 8)) {P : List Part} {s0 : State} 
    (hP : subParts [.ecc, .mem, .pwr, .rings, .bezel, .loupe, .plait, .out] P = true) (h : Frame P s0 s) : Frame P s0 (copyTake s d pos bs) := by
  unfold copyTake
  try extract_lets
  repeat' first
    | with_reducible assumption
    | exact subParts_trans (by decide) hP
    | with_reducible apply frame_putBytes
    | with_reducible apply frame_copyEnd
    | with_reducible apply frame_copyStep
    | with_reducible apply Frame.ite <;> intro _
    | (with_reducible refine Frame.of_mk _ _ _ _ _ _ _ _ _ _ _ _ _ _ _ _ _ _ _ _ _ _ _ _ _ _ _ _ _ hP ?_ rfl ?_ ?_ ?_ ?_ ?_ ?_ ?_ ?_ ?_ ?_ ?_ ?_ ?_ ?_ ?_ ?_ ?_ ?_ ?_ ?_ ?_ ?_ ?_ ?_ ?_ ?_ ?_ ?_ <;>
         first | with_reducible exact Or.inr rfl | exact Or.inl rfl | skip
       split)

theorem frame_copySend (s : State) (c : PCopy) (off : Nat) (pos : Nat) (n : Nat) (toWorker : Bool) {P : List Part} {s0 : State} 
    (hP : subParts [.ecc, .mem, .pwr, .rings, .bezel, .loupe, .plait, .out] P = true) (h : Frame P s0 s) : Frame P s0 (copySend s c off pos n toWorker) := by
  unfold copySend
  try extract_lets
  repeat' first
    | with_reducible assumption
    | exact subParts_trans (by decide) hP
    | with_reducible apply frame_windowWrite
    | with_reducible apply frame_State_setCopy
    | with_reducible apply frame_copyTake
    | with_reducible apply frame_windowRead
    | with_reducible apply Frame.ite <;> intro _
    | (with_reducible refine Frame.of_mk _ _ _ _ _ _ _ _ _ _ _ _ _ _ _ _ _ _ _ _ _ _ _ _ _ _ _ _ _ hP ?_ rfl ?_ ?_ ?_ ?_ ?_ ?_ ?_ ?_ ?_ ?_ ?_ ?_ ?_ ?_ ?_ ?_ ?_ ?_ ?_ ?_ ?_ ?_ ?_ ?_ ?_ ?_ ?_ ?_ <;>
         first | with_reducible exact Or.inr rfl | exact Or.inl rfl | skip
       split)

theorem frame_copyRun (toWorker : Bool) (d : Desc) (x0 : Nat) (x1 : Nat) (x2 : Nat) (x3 : Nat) (x4 : State) {P : List Part} {s0 : State} 
    (hP : subParts [.ecc, .mem, .pwr, .rings, .bezel, .loupe, .plait, .out] P = true) (h : Frame P s0 x4) : Frame P s0 (copyRun toWorker d x0 x1 x2 x3 x4) := by
  induction x0 generalizing toWorker d x1 x2 x3 x4 with
  | zero =>
    unfold copyRun
    try extract_lets
    repeat' first
      | with_reducible assumption
      | exact subParts_trans (by decide) hP
      | with_reducible apply ih
      | with_reducible apply frame_copyEnd
      | with_reducible apply frame_copySend
      | with_reducible apply Frame.ite <;> intro _
      | (with_reducible refine Frame.of_mk _ _ _ _ _ _ _ _ _ _ _ _ _ _ _ _ _ _ _ _ _ _ _ _ _ _ _ _ _ hP ?_ rfl ?_ ?_ ?_ ?_ ?_ ?_ ?_ ?_ ?_ ?_ ?_ ?_ ?_ ?_ ?_ ?_ ?_ ?_ ?_ ?_ ?_ ?_ ?_ ?_ ?_ ?_ ?_ ?_ <;>
           first | with_reducible exact Or.inr rfl | exact Or.inl rfl | skip
         split)
  | succ k ih =>
    unfold copyRun
    try extract_lets
    repeat' first
      | with_reducible assumption
      | exact subParts_trans (by decide) hP
      | with_reducible apply ih
      | with_reducible apply frame_copyEnd
      | with_reducible apply frame_copySend
      | with_reducible apply Frame.ite <;> intro _
      | (with_reducible refine Frame.of_mk _ _ _ _ _ _ _ _ _ _ _ _ _ _ _ _ _ _ _ _ _ _ _ _ _ _ _ _ _ hP ?_ rfl ?_ ?_ ?_ ?_ ?_ ?_ ?_ ?_ ?_ ?_ ?_ ?_ ?_ ?_ ?_ ?_ ?_ ?_ ?_ ?_ ?_ ?_ ?_ ?_ ?_ ?_ ?_ ?_ <;>
           first | with_reducible exact Or.inr rfl | exact Or.inl rfl | skip
         split)

theorem frame_actPlaitCopy (worker : BitVec 5) (dir : BitVec 1) (offset : BitVec 25) (a : Act) (s : State) {P : List Part} {s0 : State} 
    (hP : subParts [.ecc, .mem, .pwr, .rings, .bezel, .loupe, .plait, .out] P = true) (h : Frame P s0 s) : Frame P s0 (actPlaitCopy worker dir offset a s) := by
  unfold actPlaitCopy
  try extract_lets
  repeat' first
    | with_reducible assumption
    | exact subParts_trans (by decide) hP
    | with_reducible apply frame_refuse
    | with_reducible apply frame_finish
    | with_reducible apply frame_copyRun
    | with_reducible apply Frame.ite <;> intro _
    | (with_reducible refine Frame.of_mk _ _ _ _ _ _ _ _ _ _ _ _ _ _ _ _ _ _ _ _ _ _ _ _ _ _ _ _ _ hP ?_ rfl ?_ ?_ ?_ ?_ ?_ ?_ ?_ ?_ ?_ ?_ ?_ ?_ ?_ ?_ ?_ ?_ ?_ ?_ ?_ ?_ ?_ ?_ ?_ ?_ ?_ ?_ ?_ ?_ <;>
         first | with_reducible exact Or.inr rfl | exact Or.inl rfl | skip
       with_reducible assumption)

theorem frame_execPlaitCopy (d : Desc) (worker : BitVec 5) (dir : BitVec 1) (offset : BitVec 25) (s : State) :
    OutFrame [.ecc, .mem, .pwr, .weave, .rings, .bezel, .loupe, .plait, .out] s (execPlaitCopy d worker dir offset s) := by
  have h := Frame.refl [.ecc, .mem, .pwr, .weave, .rings, .bezel, .loupe, .plait, .out] s
  have hP : subParts [.ecc, .mem, .pwr, .weave, .rings, .bezel, .loupe, .plait, .out] [.ecc, .mem, .pwr, .weave, .rings, .bezel, .loupe, .plait, .out] = true := by decide
  unfold execPlaitCopy
  show Frame [.ecc, .mem, .pwr, .weave, .rings, .bezel, .loupe, .plait, .out] _ _
  repeat' first
    | with_reducible assumption
    | exact subParts_trans (by decide) hP
    | with_reducible apply frame_accept
    | with_reducible apply frame_actPlaitCopy
    | intro _ _ _

theorem frame_actPlaitPing (worker : BitVec 5) (a : Act) (s : State) {P : List Part} {s0 : State} 
    (hP : subParts [.mem, .pwr, .rings, .plait, .out] P = true) (h : Frame P s0 s) : Frame P s0 (actPlaitPing worker a s) := by
  unfold actPlaitPing
  repeat' first
    | with_reducible assumption
    | exact subParts_trans (by decide) hP
    | with_reducible apply frame_refuse
    | with_reducible apply frame_plaitNp
    | with_reducible apply Frame.ite <;> intro _

theorem frame_execPlaitPing (d : Desc) (worker : BitVec 5) (s : State) :
    OutFrame [.ecc, .mem, .pwr, .weave, .rings, .bezel, .loupe, .plait, .out] s (execPlaitPing d worker s) := by
  have h := Frame.refl [.ecc, .mem, .pwr, .weave, .rings, .bezel, .loupe, .plait, .out] s
  have hP : subParts [.ecc, .mem, .pwr, .weave, .rings, .bezel, .loupe, .plait, .out] [.ecc, .mem, .pwr, .weave, .rings, .bezel, .loupe, .plait, .out] = true := by decide
  unfold execPlaitPing
  show Frame [.ecc, .mem, .pwr, .weave, .rings, .bezel, .loupe, .plait, .out] _ _
  repeat' first
    | with_reducible assumption
    | exact subParts_trans (by decide) hP
    | with_reducible apply frame_accept
    | with_reducible apply frame_actPlaitPing
    | intro _ _ _

theorem frame_actPlaitDrop (worker : BitVec 5) (a : Act) (s : State) {P : List Part} {s0 : State} 
    (hP : subParts [.mem, .pwr, .rings, .bezel, .loupe, .plait, .rdata, .out] P = true) (h : Frame P s0 s) : Frame P s0 (actPlaitDrop worker a s) := by
  unfold actPlaitDrop
  repeat' first
    | with_reducible assumption
    | exact subParts_trans (by decide) hP
    | with_reducible apply frame_refuse
    | with_reducible apply frame_finish
    | with_reducible apply frame_linkDown
    | with_reducible apply Frame.ite <;> intro _

theorem frame_execPlaitDrop (d : Desc) (worker : BitVec 5) (s : State) :
    OutFrame [.ecc, .mem, .pwr, .weave, .rings, .bezel, .loupe, .plait, .rdata, .out] s (execPlaitDrop d worker s) := by
  have h := Frame.refl [.ecc, .mem, .pwr, .weave, .rings, .bezel, .loupe, .plait, .rdata, .out] s
  have hP : subParts [.ecc, .mem, .pwr, .weave, .rings, .bezel, .loupe, .plait, .rdata, .out] [.ecc, .mem, .pwr, .weave, .rings, .bezel, .loupe, .plait, .rdata, .out] = true := by decide
  unfold execPlaitDrop
  show Frame [.ecc, .mem, .pwr, .weave, .rings, .bezel, .loupe, .plait, .rdata, .out] _ _
  repeat' first
    | with_reducible assumption
    | exact subParts_trans (by decide) hP
    | with_reducible apply frame_accept
    | with_reducible apply frame_actPlaitDrop
    | intro _ _ _

end Sys2Proof.Machine
end

