-- ==== Sys2Proof/Laws/FrameHost.lean ====
section
/-! SUPPORT. Which parts of the state the operations of Machine/Host.lean may change. -/

namespace Sys2Proof.Machine

set_option linter.unusedTactic false
set_option linter.unreachableTactic false

theorem frame_cancelQueued (s : State) (e : Launch) {P : List Part} {s0 : State}
    (hP : subParts [.mem, .pwr, .weave, .rings, .cfg, .bezel, .loupe, .plait, .out] P = true) (h : Frame P s0 s) : OptFrame P s0 (cancelQueued s e) := by
  unfold cancelQueued
  split
  · exact True.intro
  · refine OptFrame.ite (fun _ => True.intro) (fun _ => ?_)
    split
    · exact frame_cancelLaunch _ _ _ (subParts_trans (by decide) hP) (frame_unsealStage _ (subParts_trans (by decide) hP) (frame_unqueue _ _ (subParts_trans (by decide) hP) h))
    · split
      · exact OptFrame.ite (fun _ => frame_fleetEnd _ _ _ _ (subParts_trans (by decide) hP) h) (fun _ => True.intro)
      · exact frame_cancelLaunch _ _ _ (subParts_trans (by decide) hP) (frame_unqueue _ _ (subParts_trans (by decide) hP) h)
    · exact frame_cancelLaunch _ _ _ (subParts_trans (by decide) hP) (frame_unqueue _ _ (subParts_trans (by decide) hP) h)

theorem frame_cancelEnds (s : State) (a : Act) (o : Option State) {P : List Part} {s0 : State}
    (hP : subParts [.mem, .pwr, .rings, .plait, .out] P = true) (h : Frame P s0 s) (k : OptFrame P s0 o) :
    Frame P s0 (cancelEnds s a o) := by
  cases o with
  | none => exact frame_refuse _ _ _ _ _ _ (subParts_trans (by decide) hP) h
  | some t => exact frame_finish _ _ _ _ _ (subParts_trans (by decide) hP) k

theorem frame_actLaunchCancel (ring : BitVec 7) (index : BitVec 12) (a : Act) (s : State) {P : List Part} {s0 : State}
    (hP : subParts [.mem, .pwr, .weave, .rings, .cfg, .bezel, .loupe, .can, .net, .plait, .out] P = true) (h : Frame P s0 s) :
    Frame P s0 (actLaunchCancel ring index a s) := by
  unfold actLaunchCancel
  split
  · exact frame_cancelEnds _ _ _ (subParts_trans (by decide) hP) h (frame_cancelQueued _ _ (subParts_trans (by decide) hP) h)
  · split
    · exact (frame_canCancel _ _ _ (subParts_trans (by decide) hP) h).getD (frame_refuse _ _ _ _ _ _ (subParts_trans (by decide) hP) h)
    · exact frame_refuse _ _ _ _ _ _ (subParts_trans (by decide) hP) h

theorem frame_execLaunchCancel (d : Desc) (ring : BitVec 7) (index : BitVec 12) (s : State) :
    OutFrame [.ecc, .mem, .pwr, .weave, .rings, .cfg, .bezel, .loupe, .can, .net, .plait, .out] s (execLaunchCancel d ring index s) := by
  have h := Frame.refl [.ecc, .mem, .pwr, .weave, .rings, .cfg, .bezel, .loupe, .can, .net, .plait, .out] s
  have hP : subParts [.ecc, .mem, .pwr, .weave, .rings, .cfg, .bezel, .loupe, .can, .net, .plait, .out] [.ecc, .mem, .pwr, .weave, .rings, .cfg, .bezel, .loupe, .can, .net, .plait, .out] = true := by decide
  unfold execLaunchCancel
  show Frame [.ecc, .mem, .pwr, .weave, .rings, .cfg, .bezel, .loupe, .can, .net, .plait, .out] _ _
  repeat' first
    | with_reducible assumption
    | exact subParts_trans (by decide) hP
    | with_reducible apply frame_accept
    | with_reducible apply frame_actLaunchCancel
    | intro _ _ _

theorem frame_blockCancel (s : State) (d : Desc) {P : List Part} {s0 : State}
    (hP : subParts [.mem, .pwr, .weave, .rings, .cfg, .edge, .led, .mtx, .vlv, .facet, .can, .plait, .upd, .out] P = true) (h : Frame P s0 s) : OptFrame P s0 (blockCancel s d) := by
  have done : ∀ u, Frame P s0 u →
      Frame P s0 (complete u d stCancelled 0 (if d.due == 0 then u.weave.time.toNat else 0) 0 0) :=
    fun u k => frame_complete _ _ _ _ _ _ _ (subParts_trans (by decide) hP) k
  unfold blockCancel
  dsimp only
  refine OptFrame.ite (fun _ => done _ (h.upd hP rfl (fun p hp => by cases p <;> first | exact absurd hp (by decide) | exact rfl))) (fun _ =>
    OptFrame.ite (fun _ => done _ (h.upd hP rfl (fun p hp => by cases p <;> first | exact absurd hp (by decide) | exact rfl))) (fun _ =>
    OptFrame.ite (fun _ => done _ (h.upd hP rfl (fun p hp => by cases p <;> first | exact absurd hp (by decide) | exact rfl))) (fun _ => ?_)))
  split
  · exact done _ (frame_dropShots _ _ (subParts_trans (by decide) hP) (h.upd hP rfl (fun p hp => by cases p <;> first | exact absurd hp (by decide) | exact rfl)))
  · refine OptFrame.ite (fun _ => done _ (h.upd hP rfl (fun p hp => by cases p <;> first | exact absurd hp (by decide) | exact rfl))) (fun _ =>
      OptFrame.ite (fun _ => done _ (frame_unsealStage _ (subParts_trans (by decide) hP) h)) (fun _ => ?_))
    split
    · exact done _ (Frame.foldl _ _ (fun _ _ k => frame_dropWait _ _ _ (subParts_trans (by decide) hP) k) (h.upd hP rfl (fun p hp => by cases p <;> first | exact absurd hp (by decide) | exact rfl)))
    · split
      · exact frame_dropWait _ _ _ (subParts_trans (by decide) hP) h
      · exact frame_tpCancel _ _ (subParts_trans (by decide) hP) h

theorem frame_actDescCancel (ring : BitVec 7) (index : BitVec 12) (a : Act) (s : State) {P : List Part} {s0 : State}
    (hP : subParts [.mem, .pwr, .weave, .rings, .cfg, .bezel, .loupe, .edge, .led, .mtx, .vlv, .facet, .can, .net, .plait, .upd, .out] P = true) (h : Frame P s0 s) :
    Frame P s0 (actDescCancel ring index a s) := by
  have later : ∀ n f, Frame P s0 (finish (s.modRing n f) a) :=
    fun n f => frame_finish _ _ _ _ _ (subParts_trans (by decide) hP) (frame_State_modRing _ _ _ (subParts_trans (by decide) hP) h)
  unfold actDescCancel
  dsimp only
  split
  · exact frame_finish _ _ _ _ _ (subParts_trans (by decide) hP) (frame_complete _ _ _ _ _ _ _ (subParts_trans (by decide) hP) (frame_State_modRing _ _ _ (subParts_trans (by decide) hP) h))
  · split
    · exact later _ _
    · split
      · exact frame_cancelEnds _ _ _ (subParts_trans (by decide) hP) h (frame_cancelQueued _ _ (subParts_trans (by decide) hP) h)
      · split
        · split
          · exact OptFrame.elim (frame_canCancel _ _ _ (subParts_trans (by decide) hP) h) (by assumption)
          · exact frame_cancelEnds _ _ _ (subParts_trans (by decide) hP) h (frame_blockCancel _ _ (subParts_trans (by decide) hP) h)
        · split
          · exact later _ _
          · exact frame_refuse _ _ _ _ _ _ (subParts_trans (by decide) hP) h

theorem frame_execDescCancel (d : Desc) (ring : BitVec 7) (index : BitVec 12) (s : State) :
    OutFrame [.ecc, .mem, .pwr, .weave, .rings, .cfg, .bezel, .loupe, .edge, .led, .mtx, .vlv, .facet, .can, .net, .plait, .upd, .out] s (execDescCancel d ring index s) := by
  have h := Frame.refl [.ecc, .mem, .pwr, .weave, .rings, .cfg, .bezel, .loupe, .edge, .led, .mtx, .vlv, .facet, .can, .net, .plait, .upd, .out] s
  have hP : subParts [.ecc, .mem, .pwr, .weave, .rings, .cfg, .bezel, .loupe, .edge, .led, .mtx, .vlv, .facet, .can, .net, .plait, .upd, .out] [.ecc, .mem, .pwr, .weave, .rings, .cfg, .bezel, .loupe, .edge, .led, .mtx, .vlv, .facet, .can, .net, .plait, .upd, .out] = true := by decide
  unfold execDescCancel
  show Frame [.ecc, .mem, .pwr, .weave, .rings, .cfg, .bezel, .loupe, .edge, .led, .mtx, .vlv, .facet, .can, .net, .plait, .upd, .out] _ _
  repeat' first
    | with_reducible assumption
    | exact subParts_trans (by decide) hP
    | with_reducible apply frame_accept
    | with_reducible apply frame_actDescCancel
    | intro _ _ _

end Sys2Proof.Machine
end

