-- ==== Sys2Proof/Laws/FrameFire.lean ====
section
/-! SUPPORT. Which parts of the state the operations of Machine/Fire.lean may change. -/

namespace Sys2Proof.Machine

set_option linter.unusedTactic false
set_option linter.unreachableTactic false

theorem frame_schedSync (s : State) {P : List Part} {s0 : State} 
    (hP : subParts [.rings, .bezel, .loupe, .can, .plait, .out] P = true) (h : Frame P s0 s) : Frame P s0 (schedSync s) := by
  unfold schedSync
  repeat' first
    | with_reducible assumption
    | with_reducible apply Frame.foldl
    | with_reducible apply frame_schedCheck
    | intro _ _ _

theorem frame_execSyncRx (offset : Int) (interval : Fin 6) (s : State) :
    OutFrame [.mem, .pwr, .weave, .rings, .bezel, .loupe, .edge, .can, .plait, .out] s (execSyncRx offset interval s) := by
  have h := Frame.refl [.mem, .pwr, .weave, .rings, .bezel, .loupe, .edge, .can, .plait, .out] s
  have hP : subParts [.mem, .pwr, .weave, .rings, .bezel, .loupe, .edge, .can, .plait, .out] [.mem, .pwr, .weave, .rings, .bezel, .loupe, .edge, .can, .plait, .out] = true := by decide
  unfold execSyncRx
  show Frame [.mem, .pwr, .weave, .rings, .bezel, .loupe, .edge, .can, .plait, .out] _ _
  repeat' first
    | with_reducible assumption
    | exact subParts_trans (by decide) hP
    | with_reducible apply Frame.foldl
    | with_reducible apply frame_schedStop
    | with_reducible apply frame_planStep
    | with_reducible apply frame_syncRx
    | with_reducible apply frame_schedSync
    | with_reducible apply Frame.ite <;> intro _
    | intro _ _ _

theorem frame_execHoldoverExpiry (s : State) :
    OutFrame [.clk, .weave, .rings, .bezel, .loupe, .can, .plait, .out] s (execHoldoverExpiry s) := by
  have h := Frame.refl [.clk, .weave, .rings, .bezel, .loupe, .can, .plait, .out] s
  have hP : subParts [.clk, .weave, .rings, .bezel, .loupe, .can, .plait, .out] [.clk, .weave, .rings, .bezel, .loupe, .can, .plait, .out] = true := by decide
  unfold execHoldoverExpiry
  show Frame [.clk, .weave, .rings, .bezel, .loupe, .can, .plait, .out] _ _
  try extract_lets
  repeat' first
    | with_reducible assumption
    | exact subParts_trans (by decide) hP
    | with_reducible apply frame_setSync
    | with_reducible apply frame_State_reach
    | with_reducible apply frame_schedSync
    | with_reducible apply frame_logEvent
    | with_reducible apply Frame.ite <;> intro _

end Sys2Proof.Machine
end

