-- ==== Sys2Proof/Laws/FramePlait.lean ====
section
/-! SUPPORT. Which parts of the state the operations of Machine/Plait.lean may change. -/

namespace Sys2Proof.Machine

set_option linter.unusedTactic false
set_option linter.unreachableTactic false

theorem frame_execMgrAnnounceTx (s : State) :
    OutFrame [.out] s (execMgrAnnounceTx s) := by
  have h := Frame.refl [.out] s
  have hP : subParts [.out] [.out] = true := by decide
  unfold execMgrAnnounceTx
  show Frame [.out] _ _
  repeat' first
    | with_reducible assumption
    | with_reducible apply frame_State_send
    | with_reducible apply Frame.ite <;> intro _

theorem frame_sendJoin (s : State) {P : List Part} {s0 : State} 
    (hP : subParts [.plait, .out] P = true) (h : Frame P s0 s) : Frame P s0 (sendJoin s) := by
  unfold sendJoin
  try extract_lets
  repeat' first
    | exact subParts_trans (by decide) hP
    | with_reducible apply frame_State_send
    | (with_reducible refine Frame.of_mk _ _ _ _ _ _ _ _ _ _ _ _ _ _ _ _ _ _ _ _ _ _ _ _ _ _ _ _ _ hP ?_ rfl ?_ ?_ ?_ ?_ ?_ ?_ ?_ ?_ ?_ ?_ ?_ ?_ ?_ ?_ ?_ ?_ ?_ ?_ ?_ ?_ ?_ ?_ ?_ ?_ ?_ ?_ ?_ ?_ <;>
         first | with_reducible exact Or.inr rfl | exact Or.inl rfl | skip
       with_reducible assumption)

theorem frame_isolate (s : State) {P : List Part} {s0 : State}
    (hP : subParts [.mem, .pwr, .rings, .bezel, .loupe, .plait, .rdata, .out] P = true) (h : Frame P s0 s) : Frame P s0 (isolate s) := by
  have key : ∀ u, Frame P s0 u → Frame P s0 (logEvent { u with plait.isolated := true } 0x0F04 []) := by
    intro u k
    refine frame_logEvent _ _ _ (subParts_trans (by decide) hP) ?_
    (with_reducible refine Frame.of_mk _ _ _ _ _ _ _ _ _ _ _ _ _ _ _ _ _ _ _ _ _ _ _ _ _ _ _ _ _ hP ?_ rfl ?_ ?_ ?_ ?_ ?_ ?_ ?_ ?_ ?_ ?_ ?_ ?_ ?_ ?_ ?_ ?_ ?_ ?_ ?_ ?_ ?_ ?_ ?_ ?_ ?_ ?_ ?_ ?_ <;>
      first | with_reducible exact Or.inr rfl | exact Or.inl rfl | skip)
    with_reducible exact k
  exact key _ (frame_leaveAll _ (subParts_trans (by decide) hP) h)

theorem frame_execMgrAnnounceRx (prio : BitVec 8) (eui : BitVec 48) (s : State) :
    OutFrame [.mem, .pwr, .weave, .rings, .bezel, .loupe, .plait, .rdata, .out, .free] s (execMgrAnnounceRx prio eui s) := by
  have h := Frame.refl [.mem, .pwr, .weave, .rings, .bezel, .loupe, .plait, .rdata, .out, .free] s
  have hP : subParts [.mem, .pwr, .weave, .rings, .bezel, .loupe, .plait, .rdata, .out, .free] [.mem, .pwr, .weave, .rings, .bezel, .loupe, .plait, .rdata, .out, .free] = true := by decide
  unfold execMgrAnnounceRx
  show Frame [.mem, .pwr, .weave, .rings, .bezel, .loupe, .plait, .rdata, .out, .free] _ _
  try extract_lets
  repeat' first
    | with_reducible assumption
    | exact subParts_trans (by decide) hP
    | with_reducible apply frame_sendJoin
    | with_reducible apply frame_isolate
    | with_reducible apply frame_logEvent
    | with_reducible apply Frame.ite <;> intro _
    | (with_reducible refine Frame.of_mk _ _ _ _ _ _ _ _ _ _ _ _ _ _ _ _ _ _ _ _ _ _ _ _ _ _ _ _ _ hP ?_ rfl ?_ ?_ ?_ ?_ ?_ ?_ ?_ ?_ ?_ ?_ ?_ ?_ ?_ ?_ ?_ ?_ ?_ ?_ ?_ ?_ ?_ ?_ ?_ ?_ ?_ ?_ ?_ ?_ <;>
         first | with_reducible exact Or.inr rfl | exact Or.inl rfl | skip
       first
         | with_reducible apply frame_State_takeWord
         | split
      )

theorem frame_joinRefuse (s : State) (w : Nat) (cause : Nat) {P : List Part} {s0 : State} 
    (hP : subParts [.rings, .bezel, .loupe, .plait, .out] P = true) (h : Frame P s0 s) : Frame P s0 (joinRefuse s w cause) := by
  unfold joinRefuse
  repeat' first
    | with_reducible assumption
    | exact subParts_trans (by decide) hP
    | with_reducible apply frame_logEvent
    | with_reducible apply frame_State_send

theorem frame_execJoinRx (worker : Fin 32) (hops : BitVec 3) (lastApplied : BitVec 8) (s : State) :
    OutFrame [.rings, .bezel, .loupe, .plait, .out] s (execJoinRx worker hops lastApplied s) := by
  have h := Frame.refl [.rings, .bezel, .loupe, .plait, .out] s
  have hP : subParts [.rings, .bezel, .loupe, .plait, .out] [.rings, .bezel, .loupe, .plait, .out] = true := by decide
  unfold execJoinRx
  show Frame [.rings, .bezel, .loupe, .plait, .out] _ _
  repeat' first
    | with_reducible assumption
    | exact subParts_trans (by decide) hP
    | with_reducible apply frame_joinRefuse
    | with_reducible apply frame_linkUpNow
    | with_reducible apply frame_State_send
    | with_reducible apply Frame.ite <;> intro _

theorem frame_execAdmitRx (s : State) :
    OutFrame [.rings, .bezel, .loupe, .plait, .out] s (execAdmitRx s) := by
  have h := Frame.refl [.rings, .bezel, .loupe, .plait, .out] s
  have hP : subParts [.rings, .bezel, .loupe, .plait, .out] [.rings, .bezel, .loupe, .plait, .out] = true := by decide
  unfold execAdmitRx
  show Frame [.rings, .bezel, .loupe, .plait, .out] _ _
  try extract_lets
  repeat' first
    | with_reducible assumption
    | with_reducible apply frame_linkUpNow
    | with_reducible apply Frame.ite <;> intro _
    | (with_reducible refine Frame.of_mk _ _ _ _ _ _ _ _ _ _ _ _ _ _ _ _ _ _ _ _ _ _ _ _ _ _ _ _ _ hP ?_ rfl ?_ ?_ ?_ ?_ ?_ ?_ ?_ ?_ ?_ ?_ ?_ ?_ ?_ ?_ ?_ ?_ ?_ ?_ ?_ ?_ ?_ ?_ ?_ ?_ ?_ ?_ ?_ ?_ <;>
         first | with_reducible exact Or.inr rfl | exact Or.inl rfl | skip
       with_reducible assumption)

theorem frame_execRefuseRx (cause : BitVec 8) (s : State) :
    OutFrame [.rings, .bezel, .loupe, .plait, .out] s (execRefuseRx cause s) := by
  have h := Frame.refl [.rings, .bezel, .loupe, .plait, .out] s
  have hP : subParts [.rings, .bezel, .loupe, .plait, .out] [.rings, .bezel, .loupe, .plait, .out] = true := by decide
  unfold execRefuseRx
  show Frame [.rings, .bezel, .loupe, .plait, .out] _ _
  try extract_lets
  repeat' first
    | with_reducible assumption
    | with_reducible apply frame_logEvent
    | with_reducible apply Frame.ite <;> intro _
    | (with_reducible refine Frame.of_mk _ _ _ _ _ _ _ _ _ _ _ _ _ _ _ _ _ _ _ _ _ _ _ _ _ _ _ _ _ hP ?_ rfl ?_ ?_ ?_ ?_ ?_ ?_ ?_ ?_ ?_ ?_ ?_ ?_ ?_ ?_ ?_ ?_ ?_ ?_ ?_ ?_ ?_ ?_ ?_ ?_ ?_ ?_ ?_ ?_ <;>
         first | with_reducible exact Or.inr rfl | exact Or.inl rfl | skip
       with_reducible assumption)

theorem frame_execJoinRetry (s : State) :
    OutFrame [.plait, .out] s (execJoinRetry s) := by
  have h := Frame.refl [.plait, .out] s
  have hP : subParts [.plait, .out] [.plait, .out] = true := by decide
  unfold execJoinRetry
  show Frame [.plait, .out] _ _
  repeat' first
    | with_reducible assumption
    | with_reducible apply frame_sendJoin
    | with_reducible apply Frame.ite <;> intro _

theorem frame_execLeaveRx (worker : Fin 32) (s : State) :
    OutFrame [.mem, .pwr, .rings, .bezel, .loupe, .plait, .rdata, .out] s (execLeaveRx worker s) := by
  have h := Frame.refl [.mem, .pwr, .rings, .bezel, .loupe, .plait, .rdata, .out] s
  have hP : subParts [.mem, .pwr, .rings, .bezel, .loupe, .plait, .rdata, .out] [.mem, .pwr, .rings, .bezel, .loupe, .plait, .rdata, .out] = true := by decide
  unfold execLeaveRx
  show Frame [.mem, .pwr, .rings, .bezel, .loupe, .plait, .rdata, .out] _ _
  repeat' first
    | with_reducible assumption
    | with_reducible apply frame_linkDown
    | with_reducible apply Frame.ite <;> intro _

theorem frame_execDeadTimeout (worker : Fin 32) (s : State) :
    OutFrame [.mem, .pwr, .rings, .bezel, .loupe, .plait, .rdata, .out] s (execDeadTimeout worker s) := by
  have h := Frame.refl [.mem, .pwr, .rings, .bezel, .loupe, .plait, .rdata, .out] s
  have hP : subParts [.mem, .pwr, .rings, .bezel, .loupe, .plait, .rdata, .out] [.mem, .pwr, .rings, .bezel, .loupe, .plait, .rdata, .out] = true := by decide
  unfold execDeadTimeout
  show Frame [.mem, .pwr, .rings, .bezel, .loupe, .plait, .rdata, .out] _ _
  repeat' first
    | with_reducible assumption
    | with_reducible apply frame_linkDown
    | with_reducible apply Frame.ite <;> intro _

theorem frame_execPlaitRetxTimeout (worker : Fin 32) (s : State) :
    OutFrame [.mem, .pwr, .rings, .bezel, .loupe, .plait, .rdata, .out] s (execPlaitRetxTimeout worker s) := by
  have h := Frame.refl [.mem, .pwr, .rings, .bezel, .loupe, .plait, .rdata, .out] s
  have hP : subParts [.mem, .pwr, .rings, .bezel, .loupe, .plait, .rdata, .out] [.mem, .pwr, .rings, .bezel, .loupe, .plait, .rdata, .out] = true := by decide
  unfold execPlaitRetxTimeout
  show Frame [.mem, .pwr, .rings, .bezel, .loupe, .plait, .rdata, .out] _ _
  try extract_lets
  repeat' first
    | with_reducible assumption
    | exact subParts_trans (by decide) hP
    | with_reducible apply Frame.foldl
    | with_reducible apply frame_linkDown
    | with_reducible apply frame_State_send
    | with_reducible apply Frame.ite <;> intro _
    | intro _ _ _
    | (with_reducible refine Frame.of_mk _ _ _ _ _ _ _ _ _ _ _ _ _ _ _ _ _ _ _ _ _ _ _ _ _ _ _ _ _ hP ?_ rfl ?_ ?_ ?_ ?_ ?_ ?_ ?_ ?_ ?_ ?_ ?_ ?_ ?_ ?_ ?_ ?_ ?_ ?_ ?_ ?_ ?_ ?_ ?_ ?_ ?_ ?_ ?_ ?_ <;>
         first | with_reducible exact Or.inr rfl | exact Or.inl rfl | skip
       with_reducible apply frame_State_modLink)

theorem frame_sendCredit (s : State) (w : Nat) {P : List Part} {s0 : State} 
    (hP : subParts [.plait, .out] P = true) (h : Frame P s0 s) : Frame P s0 (sendCredit s w) := by
  unfold sendCredit
  repeat' first
    | with_reducible assumption
    | with_reducible apply frame_plaitEmit

theorem frame_execCreditTx (worker : Fin 32) (s : State) :
    OutFrame [.plait, .out] s (execCreditTx worker s) := by
  have h := Frame.refl [.plait, .out] s
  have hP : subParts [.plait, .out] [.plait, .out] = true := by decide
  unfold execCreditTx
  show Frame [.plait, .out] _ _
  repeat' first
    | with_reducible assumption
    | with_reducible apply frame_sendCredit
    | with_reducible apply Frame.ite <;> intro _

theorem frame_execCplTimeout (worker : Fin 32) (tag : BitVec 11) (s : State) :
    OutFrame [.clk, .mem, .pwr, .weave, .rings, .bezel, .loupe, .plait, .rdata, .out] s (execCplTimeout worker tag s) := by
  have h := Frame.refl [.clk, .mem, .pwr, .weave, .rings, .bezel, .loupe, .plait, .rdata, .out] s
  have hP : subParts [.clk, .mem, .pwr, .weave, .rings, .bezel, .loupe, .plait, .rdata, .out] [.clk, .mem, .pwr, .weave, .rings, .bezel, .loupe, .plait, .rdata, .out] = true := by decide
  unfold execCplTimeout
  show Frame [.clk, .mem, .pwr, .weave, .rings, .bezel, .loupe, .plait, .rdata, .out] _ _
  try extract_lets
  repeat' first
    | with_reducible assumption
    | exact subParts_trans (by decide) hP
    | with_reducible apply frame_State_reach
    | with_reducible apply frame_State_modLink
    | with_reducible apply frame_npFail
    | (with_reducible refine Frame.of_mk _ _ _ _ _ _ _ _ _ _ _ _ _ _ _ _ _ _ _ _ _ _ _ _ _ _ _ _ _ hP ?_ rfl ?_ ?_ ?_ ?_ ?_ ?_ ?_ ?_ ?_ ?_ ?_ ?_ ?_ ?_ ?_ ?_ ?_ ?_ ?_ ?_ ?_ ?_ ?_ ?_ ?_ ?_ ?_ ?_ <;>
         first | with_reducible exact Or.inr rfl | exact Or.inl rfl | skip
       split)

theorem frame_execModeMsgTx (s : State) :
    OutFrame [.plait, .out] s (execModeMsgTx s) := by
  have h := Frame.refl [.plait, .out] s
  have hP : subParts [.plait, .out] [.plait, .out] = true := by decide
  unfold execModeMsgTx
  show Frame [.plait, .out] _ _
  repeat' first
    | with_reducible assumption
    | with_reducible apply frame_sendMode
    | with_reducible apply Frame.ite <;> intro _

theorem frame_execTunFrameRx (worker : Fin 32) (ch : Fin 10) (frame : CanFrame) (time : BitVec 64) (s : State) :
    OutFrame [.ecc, .mem, .pwr, .rings, .bezel, .loupe, .plait, .out] s (execTunFrameRx worker ch frame time s) := by
  have h := Frame.refl [.ecc, .mem, .pwr, .rings, .bezel, .loupe, .plait, .out] s
  have hP : subParts [.ecc, .mem, .pwr, .rings, .bezel, .loupe, .plait, .out] [.ecc, .mem, .pwr, .rings, .bezel, .loupe, .plait, .out] = true := by decide
  unfold execTunFrameRx
  show Frame [.ecc, .mem, .pwr, .rings, .bezel, .loupe, .plait, .out] _ _
  try extract_lets
  repeat' first
    | with_reducible assumption
    | exact subParts_trans (by decide) hP
    | with_reducible apply frame_inbound
    | with_reducible apply frame_logEvent
    | with_reducible apply Frame.ite <;> intro _
    | (with_reducible refine Frame.of_mk _ _ _ _ _ _ _ _ _ _ _ _ _ _ _ _ _ _ _ _ _ _ _ _ _ _ _ _ _ hP ?_ rfl ?_ ?_ ?_ ?_ ?_ ?_ ?_ ?_ ?_ ?_ ?_ ?_ ?_ ?_ ?_ ?_ ?_ ?_ ?_ ?_ ?_ ?_ ?_ ?_ ?_ ?_ ?_ ?_ <;>
         first | with_reducible exact Or.inr rfl | exact Or.inl rfl | skip
       first
         | with_reducible assumption
         | split
      )

theorem frame_execEthLinkChange (port : Fin 4) (up : Bool) (sqi : BitVec 4) (s : State) :
    OutFrame [.rings, .bezel, .loupe, .eth, .plait, .out] s (execEthLinkChange port up sqi s) := by
  have h := Frame.refl [.rings, .bezel, .loupe, .eth, .plait, .out] s
  have hP : subParts [.rings, .bezel, .loupe, .eth, .plait, .out] [.rings, .bezel, .loupe, .eth, .plait, .out] = true := by decide
  unfold execEthLinkChange
  show Frame [.rings, .bezel, .loupe, .eth, .plait, .out] _ _
  try extract_lets
  repeat' first
    | with_reducible assumption
    | exact subParts_trans (by decide) hP
    | with_reducible apply frame_logEvent
    | with_reducible apply Frame.ite <;> intro _
    | (with_reducible refine Frame.of_mk _ _ _ _ _ _ _ _ _ _ _ _ _ _ _ _ _ _ _ _ _ _ _ _ _ _ _ _ _ hP ?_ rfl ?_ ?_ ?_ ?_ ?_ ?_ ?_ ?_ ?_ ?_ ?_ ?_ ?_ ?_ ?_ ?_ ?_ ?_ ?_ ?_ ?_ ?_ ?_ ?_ ?_ ?_ ?_ ?_ <;>
         first | with_reducible exact Or.inr rfl | exact Or.inl rfl | skip
       with_reducible assumption)

end Sys2Proof.Machine
end

