-- ==== Sys2Proof/Laws/FrameRegWrite.lean ====
section
/-! SUPPORT. Which parts of the state the operations of Machine/RegWrite.lean may change. -/

namespace Sys2Proof.Machine

set_option linter.unusedTactic false
set_option linter.unreachableTactic false

theorem frame_mtxWrite (s : State) (off : Nat) (v : BitVec 32) {P : List Part} {s0 : State} 
    (hP : subParts [.mtx] P = true) (h : Frame P s0 s) : Frame P s0 (mtxWrite s off v) := by
  unfold mtxWrite
  try extract_lets
  repeat' first
    | with_reducible assumption
    | (with_reducible refine Frame.of_mk _ _ _ _ _ _ _ _ _ _ _ _ _ _ _ _ _ _ _ _ _ _ _ _ _ _ _ _ _ hP ?_ rfl ?_ ?_ ?_ ?_ ?_ ?_ ?_ ?_ ?_ ?_ ?_ ?_ ?_ ?_ ?_ ?_ ?_ ?_ ?_ ?_ ?_ ?_ ?_ ?_ ?_ ?_ ?_ ?_ <;>
         first | with_reducible exact Or.inr rfl | exact Or.inl rfl | skip
       first
         | with_reducible assumption
         | split
      )

end Sys2Proof.Machine
end

