-- ==== Sys2Proof/Laws/Keeps.lean ====
section
/-! SUPPORT. The relation `Keeps` and what the primitive updates of memory, time, the Bezel log and the matrix buffers do to
it; the files Laws/Keeps<n>.lean say it of every operation of the model. -/

namespace Sys2Proof.Machine

theorem Keeps.refl (s : State) : Keeps s s := ⟨rfl, Nat.le_refl _, id⟩

theorem Keeps.trans {s t u : State} (h : Keeps s t) (k : Keeps t u) : Keeps s u :=
  ⟨k.1.trans h.1, Nat.le_trans h.2.1 k.2.1, fun x => k.2.2 (h.2.2 x)⟩

/-- An update that leaves the parts that soundness names, the queue and device time. -/
theorem Keeps.of_same {s t u : State} (h : Keeps s t) (h1 : u.pending = t.pending) (h2 : u.mem = t.mem)
    (h3 : u.clk = t.clk) (h4 : u.weave.time = t.weave.time) (h5 : u.bezel.log = t.bezel.log)
    (h6 : u.mtx.bufA = t.mtx.bufA) (h7 : u.mtx.bufB = t.mtx.bufB) (h8 : u.nor.mirror = t.nor.mirror) : Keeps s u := by
  obtain ⟨a, b, c⟩ := h
  refine ⟨h1.trans a, by rw [h3]; exact b, fun x => ?_⟩
  have := c x
  unfold Sound at *
  rw [h2, h4, h5, h6, h7, h8]
  exact this

/-- A state written out: what soundness names is as in `t`. -/
theorem Keeps.of_mk {s t : State} (clk : Clock) (sys : Sys) (adc : Adc) (ecc : Ecc) (mem : Mem) (nor : Nor) (pwr : Pwr) (weave : Weave) (rings :
    Rings) (cfg : Cfg) (bezel : Bezel) (loupe : Loupe) (hso : Hso) (edge : Edge) (led : Led) (mtx : Mtx) (fio :
    Fio) (vlv : Vlv) (facet : Facet) (can : Can) (net : Net) (eth : Eth) (plait : Plait) (acc : Acc) (upd : Upd)
    (rdata : BitVec 64) (out : List Out) (free : Nat) (pending : List Instr)
    (h : Keeps s t) (h1 : pending = t.pending) (h2 : mem = t.mem) (h3 : clk = t.clk) (h4 : weave.time = t.weave.time)
    (h5 : bezel.log = t.bezel.log) (h6 : mtx.bufA = t.mtx.bufA) (h7 : mtx.bufB = t.mtx.bufB)
    (h8 : nor.mirror = t.nor.mirror) :
    Keeps s ⟨clk, sys, adc, ecc, mem, nor, pwr, weave, rings, cfg, bezel, loupe, hso, edge, led, mtx, fio, vlv, facet, can, net, eth, plait, acc, upd, rdata, out, free, pending⟩ :=
  h.of_same h1 h2 h3 h4 h5 h6 h7 h8

/-- An update of one of the parts that soundness names. -/
theorem Keeps.of_sound {s t u : State} (h : Keeps s t) (h1 : u.pending = t.pending) (h3 : t.clk.ns ≤ u.clk.ns)
    (hs : Sound t → Sound u) : Keeps s u := h.trans ⟨h1, h3, hs⟩

/-! ## Memory in its canonical form -/

theorem cellsFrom_mono {cs : List Host.Cell} {lo hi : Nat} (h : cellsFrom hi cs = true) (l : lo ≤ hi) :
    cellsFrom lo cs = true := by
  cases cs with
  | nil => rfl
  | cons c cs =>
    simp only [cellsFrom, Bool.and_eq_true, decide_eq_true_eq] at h ⊢
    exact ⟨⟨by omega, h.1.2⟩, h.2⟩

theorem cellPut_wf {cs : List Host.Cell} {lo a : Nat} (b : BitVec 8) (h : cellsFrom lo cs = true) (l : lo ≤ a) :
    cellsFrom lo (cellPut cs a b) = true := by
  induction cs generalizing lo with
  | nil =>
    unfold cellPut
    split
    · rfl
    · rename_i hb
      simp [cellsFrom, l, hb]
  | cons c cs ih =>
    obtain ⟨k, x⟩ := c
    simp only [cellsFrom, Bool.and_eq_true, decide_eq_true_eq] at h
    unfold cellPut
    split
    · rename_i hak
      split
      · simp only [cellsFrom, Bool.and_eq_true, decide_eq_true_eq]
        exact h
      · rename_i hb
        simp only [cellsFrom, Bool.and_eq_true, decide_eq_true_eq]
        refine ⟨⟨l, by simpa using hb⟩, ⟨⟨by omega, h.1.2⟩, h.2⟩⟩
    · split
      · rename_i hk
        subst hk
        split
        · exact cellsFrom_mono h.2 (by omega)
        · rename_i hb
          simp only [cellsFrom, Bool.and_eq_true, decide_eq_true_eq]
          exact ⟨⟨l, by simpa using hb⟩, h.2⟩
      · simp only [cellsFrom, Bool.and_eq_true, decide_eq_true_eq]
        exact ⟨h.1, ih h.2 (by omega)⟩

/-- A store keeps the canonical form. -/
theorem Mem.store_wf {m : Mem} (h : m.wf = true) (a : Nat) (bs : List (BitVec 8)) : (m.store a bs).wf = true := by
  induction bs generalizing m a with
  | nil => exact h
  | cons b bs ih => exact ih (m := { m with cells := cellPut m.cells a b }) (cellPut_wf b h (Nat.zero_le _)) _

@[simp] theorem Mem.clearFault_cells (m : Mem) (w : Nat) : (m.clearFault w).cells = m.cells := rfl

@[simp] theorem Mem.setFault_cells (m : Mem) (w : Nat) (f : WordFault) : (m.setFault w f).cells = m.cells := rfl

theorem Mem.clearFault_wf {m : Mem} (h : m.wf = true) (w : Nat) : (m.clearFault w).wf = true := h

theorem Mem.setFault_wf {m : Mem} (h : m.wf = true) (w : Nat) (f : WordFault) : (m.setFault w f).wf = true := h

/-- Entries left out keep the canonical form. -/
theorem cellsFrom_filter {cs : List Host.Cell} {lo : Nat} (p : Host.Cell → Bool) (h : cellsFrom lo cs = true) :
    cellsFrom lo (cs.filter p) = true := by
  induction cs generalizing lo with
  | nil => rfl
  | cons c cs ih =>
    obtain ⟨k, x⟩ := c
    simp only [cellsFrom, Bool.and_eq_true, decide_eq_true_eq] at h
    simp only [List.filter_cons]
    split
    · simp only [cellsFrom, Bool.and_eq_true, decide_eq_true_eq]
      exact ⟨h.1, ih h.2⟩
    · exact cellsFrom_mono (ih h.2) (by omega)

/-- Only the contents of memory have changed, and they are in canonical form. -/
theorem Keeps.mem {s t : State} (h : Keeps s t) (m : Mem) (hm : t.mem.wf = true → m.wf = true) :
    Keeps s { t with mem := m } :=
  h.of_sound rfl (Nat.le_refl _) (fun x => ⟨hm x.1, x.2⟩)

/-- What a byte of memory reads as after one byte has been put. -/
theorem cellAt_cellPut (cs : List Host.Cell) (lo a b : Nat) (x : BitVec 8) (h : cellsFrom lo cs = true) :
    cellAt (cellPut cs a x) b = if b = a then x else cellAt cs b := by
  have low : ∀ (cs : List Host.Cell) (lo b : Nat), cellsFrom lo cs = true → b < lo → cellAt cs b = Mem.unwritten := by
    intro cs
    induction cs with
    | nil => intros; rfl
    | cons c cs ih =>
      intro lo b h l
      obtain ⟨k, y⟩ := c
      simp only [cellsFrom, Bool.and_eq_true, decide_eq_true_eq] at h
      have hk : k ≠ b := by omega
      simp only [cellAt, hk, if_false]
      exact ih _ _ h.2 (by omega)
  induction cs generalizing lo with
  | nil =>
    unfold cellPut
    by_cases hb : b = a
    · subst hb
      split <;> simp_all [cellAt]
    · have : a ≠ b := fun e => hb e.symm
      split <;> simp [cellAt, this]
  | cons c cs ih =>
    obtain ⟨k, y⟩ := c
    simp only [cellsFrom, Bool.and_eq_true, decide_eq_true_eq] at h
    unfold cellPut
    split
    · rename_i hak
      by_cases hb : b = a
      · subst hb
        have e : cellAt ((k, y) :: cs) b = Mem.unwritten :=
          low _ k b (by simp only [cellsFrom, Bool.and_eq_true, decide_eq_true_eq]; exact ⟨⟨Nat.le_refl _, h.1.2⟩, h.2⟩) hak
        split
        · rename_i hx
          rw [e, hx]
          simp
        · simp [cellAt]
      · have : a ≠ b := fun e => hb e.symm
        split <;> simp [cellAt, this]
    · split
      · rename_i hk
        subst hk
        by_cases hb : b = a
        · subst hb
          split
          · rename_i hx
            rw [low cs (b + 1) b h.2 (by omega), hx]
            simp
          · simp [cellAt]
        · have : a ≠ b := fun e => hb e.symm
          split <;> simp [cellAt, this]
      · rename_i h1 h2
        have := ih _ h.2
        simp only [cellAt]
        by_cases hk : k = b
        · have : b ≠ a := by omega
          simp [hk, this]
        · simp only [hk, if_false]
          exact this

/-! ## Time -/

theorem tick_add (t : BitVec 64) (k : Int) (h : t.toNat % 4 = 0) : (t + BitVec.ofInt 64 (4 * k)).toNat % 4 = 0 := by
  have e : (BitVec.ofInt 64 (4 * k)).toNat % 4 = 0 := by
    rw [BitVec.toNat_ofInt]
    have : ((4 * k) % ((2 ^ 64 : Nat) : Int)) % 4 = 0 := by
      have : ((2 ^ 64 : Nat) : Int) = 4 * 2 ^ 62 := by norm_num
      rw [this]
      omega
    omega
  rw [BitVec.toNat_add]
  omega

/-- Each correction of a slew is a whole number of ticks. -/
theorem slewOver_tick (left : Int) (phase ticks : Nat) : ∃ k : Int, (slewOver left phase ticks).1 = 4 * k := by
  unfold slewOver
  dsimp only
  split
  · exact ⟨_, rfl⟩
  · exact ⟨-_, by rw [mul_neg]⟩

theorem Keeps.advance {s t : State} (h : Keeps s t) (dt : Nat) : Keeps s (t.advance dt) := by
  refine h.of_sound ?_ ?_ ?_
  · unfold State.advance; dsimp only; split <;> rfl
  · unfold State.advance; dsimp only; split <;> exact Nat.le_add_right _ _
  · intro x
    unfold State.advance
    dsimp only
    split
    · refine ⟨x.1, x.2.1, x.2.2.1, ?_, x.2.2.2.2⟩
      obtain ⟨k, hk⟩ := slewOver_tick t.weave.slew t.weave.slewTicks ((t.clk.ns + dt) / 4 - t.clk.ns / 4)
      dsimp only
      rw [hk]
      have : ((4 * ((t.clk.ns + dt) / 4 - t.clk.ns / 4) : Nat) : Int) + 4 * k
          = 4 * ((((t.clk.ns + dt) / 4 - t.clk.ns / 4 : Nat) : Int) + k) := by push_cast; ring
      rw [this]
      exact tick_add _ _ x.2.2.2.1
    · exact x

theorem Keeps.reach {s t : State} (h : Keeps s t) (n : Nat) : Keeps s (t.reach n) := by
  unfold State.reach
  split
  · exact h.advance _
  · exact h

theorem ofNat_tick (n : Nat) (h : n % 4 = 0) : (BitVec.ofNat 64 n).toNat % 4 = 0 := by
  rw [BitVec.toNat_ofNat]
  omega

/-- Only Weave time has changed, by whole ticks. -/
theorem Keeps.time {s t : State} (h : Keeps s t) (w : Weave) (hw : t.weave.time.toNat % 4 = 0 → w.time.toNat % 4 = 0) :
    Keeps s { t with weave := w } :=
  h.of_sound rfl (Nat.le_refl _) (fun x => ⟨x.1, x.2.1, x.2.2.1, hw x.2.2.2.1, x.2.2.2.2⟩)

theorem Keeps.reachWeave {s t : State} (h : Keeps s t) (n : BitVec 64) : Keeps s (t.reachWeave n) := by
  unfold State.reachWeave
  split
  · refine h.of_sound rfl (Nat.le_add_right _ _) (fun x => ⟨x.1, x.2.1, x.2.2.1, ?_, x.2.2.2.2⟩)
    apply ofNat_tick
    split <;> omega
  · exact h

theorem mask_tick (v : BitVec 64) : (v &&& ~~~3#64).toNat % 4 = 0 := by
  have h0 : (v &&& ~~~3#64).getLsbD 0 = false := by simp
  have h1 : (v &&& ~~~3#64).getLsbD 1 = false := by simp
  generalize v &&& ~~~3#64 = w at *
  simp only [BitVec.getLsbD, Nat.testBit, Nat.shiftRight_zero] at h0 h1
  simp only [Nat.one_and_eq_mod_two, Nat.shiftRight_eq_div_pow] at h0 h1
  simp at h0 h1
  omega

/-! ## Lists of operations -/

theorem Keeps.foldl {α : Type} {s t : State} (l : List α) (f : State → α → State)
    (hf : ∀ u x, Keeps s u → Keeps s (f u x)) (h : Keeps s t) : Keeps s (l.foldl f t) := by
  induction l generalizing t with
  | nil => exact h
  | cons x l ih => exact ih (hf t x h)

/-- Operations that carry a value beside the state. -/
theorem Keeps.foldl_snd {α β : Type} {s : State} (l : List α) (f : β × State → α → β × State) (t : β × State)
    (hf : ∀ r x, Keeps s r.2 → Keeps s (f r x).2) (h : Keeps s t.2) : Keeps s (l.foldl f t).2 := by
  induction l generalizing t with
  | nil => exact h
  | cons x l ih => exact ih _ (hf t x h)

/-- A choice between two operations. -/
theorem Keeps.ite {s a b : State} {c : Prop} [Decidable c] (ha : c → Keeps s a) (hb : ¬c → Keeps s b) :
    Keeps s (if c then a else b) := by
  by_cases h : c
  · rw [if_pos h]; exact ha h
  · rw [if_neg h]; exact hb h

/-- A choice between two operations that answer a value beside the state. -/
theorem Keeps.ite_snd {α : Type} {s : State} {a b : α × State} {c : Prop} [Decidable c] (ha : c → Keeps s a.2)
    (hb : ¬c → Keeps s b.2) : Keeps s (if c then a else b).2 := by
  by_cases h : c
  · rw [if_pos h]; exact ha h
  · rw [if_neg h]; exact hb h

/-- The state that an operation answers, if it answers one. -/
def OptKeeps (s : State) : Option State → Prop
  | some t => Keeps s t
  | none => True

theorem OptKeeps.elim {s t : State} {o : Option State} (h : OptKeeps s o) (e : o = some t) : Keeps s t := by
  subst e
  exact h

theorem OptKeeps.getD {s t : State} {o : Option State} (h : OptKeeps s o) (k : Keeps s t) : Keeps s (o.getD t) := by
  cases o with
  | none => exact k
  | some u => exact h

theorem OptKeeps.ite {s : State} {a b : Option State} {c : Prop} [Decidable c] (ha : c → OptKeeps s a)
    (hb : ¬c → OptKeeps s b) : OptKeeps s (if c then a else b) := by
  by_cases h : c
  · rw [if_pos h]; exact ha h
  · rw [if_neg h]; exact hb h

/-- The first answer of a list of tries. -/
theorem OptKeeps.first {α : Type} {s : State} (l : List α) (f : α → Option State) (hf : ∀ x, OptKeeps s (f x))
    (o : Option State) (h : OptKeeps s o) :
    OptKeeps s (l.foldl (fun (r : Option State) x => match r with | some t => some t | none => f x) o) := by
  induction l generalizing o with
  | nil => exact h
  | cons x l ih =>
    refine ih _ ?_
    cases o with
    | none => exact hf x
    | some t => exact h

/-- The state that an outcome carries. -/
def OutKeeps (s : State) : Host.Outcome State Fault Refusal → Prop
  | .next t => Keeps s t
  | _ => True

end Sys2Proof.Machine
end

