-- ==== Sys2Proof/Laws/KeepsOps.lean ====
section
/-! SUPPORT. What the operations of Machine/Ops.lean keep: the queue, the order of time and a sound state. -/

namespace Sys2Proof.Machine

set_option linter.unusedTactic false
set_option linter.unreachableTactic false

theorem keeps_State_takeBit (s : State) {s0 : State}  (h : Keeps s0 s) :
    Keeps s0 (State.takeBit s).2 := by
  unfold State.takeBit
  try extract_lets
  repeat' first
    | (with_reducible refine Keeps.of_mk _ _ _ _ _ _ _ _ _ _ _ _ _ _ _ _ _ _ _ _ _ _ _ _ _ _ _ _ _ ?_ rfl rfl rfl rfl rfl rfl rfl rfl
       with_reducible assumption)

theorem keeps_State_takeWord (s : State) {s0 : State}  (h : Keeps s0 s) :
    Keeps s0 (State.takeWord s).2 := by
  unfold State.takeWord
  try extract_lets
  repeat' first
    | (with_reducible refine Keeps.of_mk _ _ _ _ _ _ _ _ _ _ _ _ _ _ _ _ _ _ _ _ _ _ _ _ _ _ _ _ _ ?_ rfl rfl rfl rfl rfl rfl rfl rfl
       with_reducible assumption)

theorem keeps_State_takeNat (s : State) {s0 : State}  (h : Keeps s0 s) :
    Keeps s0 (State.takeNat s).2 := by
  unfold State.takeNat
  try extract_lets
  repeat' first
    | (with_reducible refine Keeps.of_mk _ _ _ _ _ _ _ _ _ _ _ _ _ _ _ _ _ _ _ _ _ _ _ _ _ _ _ _ _ ?_ rfl rfl rfl rfl rfl rfl rfl rfl
       with_reducible assumption)

theorem keeps_State_takeBytes (s : State) (x0 : Nat) {s0 : State}  (h : Keeps s0 s) :
    Keeps s0 (State.takeBytes s x0).2 := by
  induction x0 generalizing s with
  | zero =>
    unfold State.takeBytes
    try extract_lets
    repeat' first
      | with_reducible assumption
      | with_reducible apply ih
      | (with_reducible refine Keeps.of_mk _ _ _ _ _ _ _ _ _ _ _ _ _ _ _ _ _ _ _ _ _ _ _ _ _ _ _ _ _ ?_ rfl rfl rfl rfl rfl rfl rfl rfl
         with_reducible assumption)
  | succ k ih =>
    unfold State.takeBytes
    try extract_lets
    repeat' first
      | with_reducible assumption
      | with_reducible apply ih
      | (with_reducible refine Keeps.of_mk _ _ _ _ _ _ _ _ _ _ _ _ _ _ _ _ _ _ _ _ _ _ _ _ _ _ _ _ _ ?_ rfl rfl rfl rfl rfl rfl rfl rfl
         with_reducible assumption)

end Sys2Proof.Machine
end

