-- ==== Sys2Proof/Laws/KeepsBridge.lean ====
section
/-! SUPPORT. What the operations of Machine/Bridge.lean keep: the queue, the order of time and a sound state. -/

namespace Sys2Proof.Machine

set_option linter.unusedTactic false
set_option linter.unreachableTactic false

theorem keeps_State_send (s : State) (o : Out) {s0 : State}  (h : Keeps s0 s) :
    Keeps s0 (State.send s o) := by
  unfold State.send
  try extract_lets
  repeat' first
    | (with_reducible refine Keeps.of_mk _ _ _ _ _ _ _ _ _ _ _ _ _ _ _ _ _ _ _ _ _ _ _ _ _ _ _ _ _ ?_ rfl rfl rfl rfl rfl rfl rfl rfl
       with_reducible assumption)

theorem keeps_State_modLink (s : State) (w : Nat) (f : PLink → PLink) {s0 : State}  (h : Keeps s0 s) :
    Keeps s0 (State.modLink s w f) := by
  unfold State.modLink
  try extract_lets
  repeat' first
    | (with_reducible refine Keeps.of_mk _ _ _ _ _ _ _ _ _ _ _ _ _ _ _ _ _ _ _ _ _ _ _ _ _ _ _ _ _ ?_ rfl rfl rfl rfl rfl rfl rfl rfl
       with_reducible assumption)

theorem keeps_plaitEmit (s : State) (w : Nat) (f : PlaitFrame) {s0 : State}  (h : Keeps s0 s) :
    Keeps s0 (plaitEmit s w f) := by
  unfold plaitEmit
  try extract_lets
  repeat' first
    | with_reducible assumption
    | with_reducible apply keeps_State_modLink
    | with_reducible apply keeps_State_send

theorem keeps_plaitPumpN (s : State) (w : Nat) (x0 : Nat) {s0 : State}  (h : Keeps s0 s) :
    Keeps s0 (plaitPumpN s w x0) := by
  induction x0 generalizing s w with
  | zero =>
    unfold plaitPumpN
    try extract_lets
    repeat' first
      | with_reducible assumption
      | with_reducible apply ih
      | with_reducible apply keeps_plaitEmit
      | with_reducible apply keeps_State_modLink
      | (with_reducible refine Keeps.of_mk _ _ _ _ _ _ _ _ _ _ _ _ _ _ _ _ _ _ _ _ _ _ _ _ _ _ _ _ _ ?_ rfl rfl rfl rfl rfl rfl rfl rfl
         split)
  | succ k ih =>
    unfold plaitPumpN
    try extract_lets
    repeat' first
      | with_reducible assumption
      | with_reducible apply ih
      | with_reducible apply keeps_plaitEmit
      | with_reducible apply keeps_State_modLink
      | (with_reducible refine Keeps.of_mk _ _ _ _ _ _ _ _ _ _ _ _ _ _ _ _ _ _ _ _ _ _ _ _ _ _ _ _ _ ?_ rfl rfl rfl rfl rfl rfl rfl rfl
         split)

theorem keeps_plaitPump (s : State) (w : Nat) {s0 : State}  (h : Keeps s0 s) :
    Keeps s0 (plaitPump s w) := by
  unfold plaitPump
  repeat' first
    | with_reducible assumption
    | with_reducible apply keeps_plaitPumpN

theorem keeps_plaitSend (s : State) (w : Nat) (f : PlaitFrame) {s0 : State}  (h : Keeps s0 s) :
    Keeps s0 (plaitSend s w f) := by
  unfold plaitSend
  try extract_lets
  repeat' first
    | with_reducible assumption
    | with_reducible apply keeps_plaitPump
    | with_reducible apply keeps_State_modLink
    | with_reducible apply Keeps.ite <;> intro _

theorem keeps_plaitMsg (s : State) (w : Nat) (kind : Nat) (payload : List (BitVec 8)) (fleetId : BitVec 8) {s0 : State}  (h : Keeps s0 s) :
    Keeps s0 (plaitMsg s w kind payload fleetId) := by
  unfold plaitMsg
  repeat' first
    | with_reducible assumption
    | with_reducible apply keeps_plaitSend

theorem keeps_plaitNp (s : State) (w : Nat) (o : NpOut) (bytes : List (BitVec 8)) {s0 : State}  (h : Keeps s0 s) :
    Keeps s0 (plaitNp s w o bytes) := by
  unfold plaitNp
  try extract_lets
  repeat' first
    | with_reducible assumption
    | with_reducible apply keeps_State_modLink
    | with_reducible apply keeps_plaitSend

theorem keeps_plaitPost (s : State) (w : Nat) (addr : Nat) (bytes : List (BitVec 8)) {s0 : State}  (h : Keeps s0 s) :
    Keeps s0 (plaitPost s w addr bytes) := by
  unfold plaitPost
  try extract_lets
  repeat' first
    | with_reducible assumption
    | with_reducible apply keeps_plaitSend
    | with_reducible apply keeps_State_modLink

theorem keeps_remotePutN (s : State) (addr : Nat) (bytes : List (BitVec 8)) (x0 : Nat) {s0 : State}  (h : Keeps s0 s) :
    Keeps s0 (remotePutN s addr bytes x0) := by
  induction x0 generalizing s addr bytes with
  | zero =>
    unfold remotePutN
    repeat' first
      | with_reducible assumption
      | with_reducible apply ih
      | with_reducible apply keeps_plaitPost
      | with_reducible apply Keeps.ite <;> intro _
  | succ k ih =>
    unfold remotePutN
    repeat' first
      | with_reducible assumption
      | with_reducible apply ih
      | with_reducible apply keeps_plaitPost
      | with_reducible apply Keeps.ite <;> intro _

theorem keeps_remotePut (s : State) (addr : Nat) (bytes : List (BitVec 8)) {s0 : State}  (h : Keeps s0 s) :
    Keeps s0 (remotePut s addr bytes) := by
  unfold remotePut
  repeat' first
    | with_reducible assumption
    | with_reducible apply keeps_remotePutN

theorem keeps_forwardEvent (s : State) (code : Nat) (d0 : BitVec 32) (d1 : BitVec 32) {s0 : State}  (h : Keeps s0 s) :
    Keeps s0 (forwardEvent s code d0 d1) := by
  unfold forwardEvent
  repeat' first
    | with_reducible assumption
    | with_reducible apply keeps_plaitMsg
    | with_reducible apply Keeps.ite <;> intro _

end Sys2Proof.Machine
end

