-- ==== Sys2Proof/Laws/KeepsEvents.lean ====
section
/-! SUPPORT. What the operations of Machine/Events.lean keep: the queue, the order of time and a sound state. -/

namespace Sys2Proof.Machine

set_option linter.unusedTactic false
set_option linter.unreachableTactic false

theorem keeps_bezelAppend (s : State) (code : Nat) (d0 d1 : BitVec 32) {s0 : State} (h : Keeps s0 s) :
    Keeps s0 (bezelAppend s code d0 d1) := by
  refine h.of_sound rfl (Nat.le_refl _) (fun x => ⟨x.1, x.2.1, x.2.2.1, x.2.2.2.1, ?_, x.2.2.2.2.2⟩)
  simp only [bezelAppend, List.length_drop]
  omega

theorem keeps_raiseBlock (s : State) (b : Nat) {s0 : State}  (h : Keeps s0 s) :
    Keeps s0 (raiseBlock s b) := by
  unfold raiseBlock
  try extract_lets
  repeat' first
    | (with_reducible refine Keeps.of_mk _ _ _ _ _ _ _ _ _ _ _ _ _ _ _ _ _ _ _ _ _ _ _ _ _ _ _ _ _ ?_ rfl rfl rfl rfl rfl rfl rfl rfl
       with_reducible assumption)

theorem keeps_logBase (s : State) (code : Nat) (data : List Nat) {s0 : State}  (h : Keeps s0 s) :
    Keeps s0 (logBase s code data) := by
  unfold logBase
  try extract_lets
  repeat' first
    | with_reducible assumption
    | with_reducible apply keeps_raiseBlock
    | with_reducible apply keeps_bezelAppend
    | with_reducible apply keeps_forwardEvent
    | with_reducible apply Keeps.ite <;> intro _

theorem keeps_loupeMiss (s : State) {s0 : State}  (h : Keeps s0 s) :
    Keeps s0 (loupeMiss s) := by
  unfold loupeMiss
  try extract_lets
  repeat' first
    | (with_reducible refine Keeps.of_mk _ _ _ _ _ _ _ _ _ _ _ _ _ _ _ _ _ _ _ _ _ _ _ _ _ _ _ _ _ ?_ rfl rfl rfl rfl rfl rfl rfl rfl
       with_reducible assumption)

theorem keeps_loupeStage (s : State) (t : Nat) (r : Rec) {s0 : State}  (h : Keeps s0 s) :
    Keeps s0 (loupeStage s t r).2 := by
  unfold loupeStage
  try extract_lets
  repeat' first
    | with_reducible assumption
    | with_reducible apply keeps_loupeMiss
    | with_reducible apply keeps_logBase
    | with_reducible apply Keeps.ite <;> intro _
    | with_reducible apply Keeps.ite_snd <;> intro _
    | (with_reducible refine Keeps.of_mk _ _ _ _ _ _ _ _ _ _ _ _ _ _ _ _ _ _ _ _ _ _ _ _ _ _ _ _ _ ?_ rfl rfl rfl rfl rfl rfl rfl rfl
       first
         | with_reducible assumption
         | with_reducible apply keeps_loupeMiss
      )

theorem keeps_loupeTriggers (s : State) (code : Nat) {s0 : State}  (h : Keeps s0 s) :
    Keeps s0 (loupeTriggers s code) := by
  unfold loupeTriggers
  try extract_lets
  repeat' first
    | with_reducible assumption
    | with_reducible apply Keeps.foldl
    | with_reducible apply keeps_loupeStage
    | with_reducible apply Keeps.ite <;> intro _
    | intro _ _ _
    | (with_reducible refine Keeps.of_mk _ _ _ _ _ _ _ _ _ _ _ _ _ _ _ _ _ _ _ _ _ _ _ _ _ _ _ _ _ ?_ rfl rfl rfl rfl rfl rfl rfl rfl
       split)

theorem keeps_logEvent (s : State) (code : Nat) (data : List Nat) {s0 : State}  (h : Keeps s0 s) :
    Keeps s0 (logEvent s code data) := by
  unfold logEvent
  repeat' first
    | with_reducible assumption
    | with_reducible apply keeps_loupeTriggers
    | with_reducible apply keeps_logBase

end Sys2Proof.Machine
end

