-- ==== Sys2Proof/Laws/KeepsMemory.lean ====
section
/-! SUPPORT. What the operations of Machine/Memory.lean keep: the queue, the order of time and a sound state. -/

namespace Sys2Proof.Machine

set_option linter.unusedTactic false
set_option linter.unreachableTactic false

theorem keeps_reportUe (s : State) (w : Nat) (finder : Finder) (fold : Bool) {s0 : State}  (h : Keeps s0 s) :
    Keeps s0 (reportUe s w finder fold) := by
  unfold reportUe
  try extract_lets
  repeat' first
    | with_reducible apply keeps_logEvent
    | (with_reducible refine Keeps.of_mk _ _ _ _ _ _ _ _ _ _ _ _ _ _ _ _ _ _ _ _ _ _ _ _ _ _ _ _ _ ?_ rfl rfl rfl rfl rfl rfl rfl rfl
       with_reducible assumption)

theorem keeps_correctWord (s : State) (w : Nat) {s0 : State} (h : Keeps s0 s) : Keeps s0 (correctWord s w) :=
  h.of_sound rfl (Nat.le_refl _) id

theorem keeps_readWord (s : State) (w : Nat) (finder : Finder) {s0 : State}  (h : Keeps s0 s) :
    Keeps s0 (readWord s w finder).2 := by
  unfold readWord
  try extract_lets
  repeat' first
    | with_reducible assumption
    | with_reducible apply keeps_correctWord
    | with_reducible apply keeps_reportUe
    | (with_reducible refine Keeps.of_mk _ _ _ _ _ _ _ _ _ _ _ _ _ _ _ _ _ _ _ _ _ _ _ _ _ _ _ _ _ ?_ rfl rfl rfl rfl rfl rfl rfl rfl
       split)

theorem keeps_readWords (s : State) (x0 : List Nat) {s0 : State}  (h : Keeps s0 s) :
    Keeps s0 (readWords s x0).2 := by
  induction x0 generalizing s with
  | nil =>
    unfold readWords
    try extract_lets
    repeat' first
      | with_reducible assumption
      | with_reducible apply ih
      | with_reducible apply keeps_readWord
      | with_reducible apply Keeps.ite_snd <;> intro _
  | cons k l ih =>
    unfold readWords
    try extract_lets
    repeat' first
      | with_reducible assumption
      | with_reducible apply ih
      | with_reducible apply keeps_readWord
      | with_reducible apply Keeps.ite_snd <;> intro _

theorem keeps_readMem (s : State) (a : Nat) (n : Nat) {s0 : State}  (h : Keeps s0 s) :
    Keeps s0 (readMem s a n).2 := by
  unfold readMem
  try extract_lets
  repeat' first
    | with_reducible assumption
    | with_reducible apply keeps_readWords
    | (with_reducible refine Keeps.of_mk _ _ _ _ _ _ _ _ _ _ _ _ _ _ _ _ _ _ _ _ _ _ _ _ _ _ _ _ _ ?_ rfl rfl rfl rfl rfl rfl rfl rfl
       split)

theorem keeps_writeWord (s : State) (a : Nat) (bs : List (BitVec 8)) {s0 : State} (h : Keeps s0 s) :
    Keeps s0 (writeWord s a bs).2 := by
  unfold writeWord
  extract_lets w r
  split
  · exact h.mem _ (fun x => Mem.store_wf (Mem.clearFault_wf x _) _ _)
  · have hr : Keeps s0 r.2 := keeps_readWord s w .rmw h
    split
    · exact hr.mem _ (fun x => Mem.store_wf x _ _)
    · exact hr

theorem keeps_writeMemFrom (fuel : Nat) (s : State) (a : Nat) (bs : List (BitVec 8)) (done : Nat) {s0 : State}  (h : Keeps s0 s) :
    Keeps s0 (writeMemFrom fuel s a bs done).2 := by
  induction fuel generalizing s a bs done with
  | zero =>
    unfold writeMemFrom
    try extract_lets
    repeat' first
      | with_reducible assumption
      | with_reducible apply ih
      | with_reducible apply keeps_writeWord
      | with_reducible apply Keeps.ite_snd <;> intro _
      | (with_reducible refine Keeps.of_mk _ _ _ _ _ _ _ _ _ _ _ _ _ _ _ _ _ _ _ _ _ _ _ _ _ _ _ _ _ ?_ rfl rfl rfl rfl rfl rfl rfl rfl
         split)
  | succ k ih =>
    unfold writeMemFrom
    try extract_lets
    repeat' first
      | with_reducible assumption
      | with_reducible apply ih
      | with_reducible apply keeps_writeWord
      | with_reducible apply Keeps.ite_snd <;> intro _
      | (with_reducible refine Keeps.of_mk _ _ _ _ _ _ _ _ _ _ _ _ _ _ _ _ _ _ _ _ _ _ _ _ _ _ _ _ _ ?_ rfl rfl rfl rfl rfl rfl rfl rfl
         split)

theorem keeps_writeMem (s : State) (a : Nat) (bs : List (BitVec 8)) {s0 : State}  (h : Keeps s0 s) :
    Keeps s0 (writeMem s a bs).2 := by
  unfold writeMem
  repeat' first
    | with_reducible assumption
    | with_reducible apply keeps_writeMemFrom

theorem keeps_discardMem (s : State) {s0 : State} (h : Keeps s0 s) : Keeps s0 (discardMem s) := h.mem _ (fun _ => rfl)

end Sys2Proof.Machine
end

