-- ==== Sys2Proof/Laws/KeepsComplete.lean ====
section
/-! SUPPORT. What the operations of Machine/Complete.lean keep: the queue, the order of time and a sound state. -/

namespace Sys2Proof.Machine

set_option linter.unusedTactic false
set_option linter.unreachableTactic false

theorem keeps_State_modRing (s : State) (n : Nat) (f : Ring → Ring) {s0 : State}  (h : Keeps s0 s) :
    Keeps s0 (State.modRing s n f) := by
  unfold State.modRing
  try extract_lets
  repeat' first
    | (with_reducible refine Keeps.of_mk _ _ _ _ _ _ _ _ _ _ _ _ _ _ _ _ _ _ _ _ _ _ _ _ _ _ _ _ _ ?_ rfl rfl rfl rfl rfl rfl rfl rfl
       with_reducible assumption)

theorem keeps_startWake (s : State) (d : Dom) (target : DomState) {s0 : State}  (h : Keeps s0 s) :
    Keeps s0 (startWake s d target) := by
  unfold startWake
  try extract_lets
  repeat' first
    | with_reducible assumption
    | with_reducible apply keeps_State_modDom
    | with_reducible apply Keeps.ite <;> intro _

theorem keeps_raiseRing (s : State) (n : Nat) {s0 : State}  (h : Keeps s0 s) :
    Keeps s0 (raiseRing s n) := by
  unfold raiseRing
  try extract_lets
  repeat' first
    | with_reducible apply keeps_State_modRing
    | with_reducible apply keeps_plaitMsg
    | with_reducible apply Keeps.ite <;> intro _
    | (with_reducible refine Keeps.of_mk _ _ _ _ _ _ _ _ _ _ _ _ _ _ _ _ _ _ _ _ _ _ _ _ _ _ _ _ _ ?_ rfl rfl rfl rfl rfl rfl rfl rfl
       with_reducible assumption)

theorem keeps_moderate (s : State) (n : Nat) (irq : Bool) {s0 : State}  (h : Keeps s0 s) :
    Keeps s0 (moderate s n irq) := by
  unfold moderate
  try extract_lets
  repeat' first
    | with_reducible assumption
    | with_reducible apply keeps_State_modRing
    | with_reducible apply keeps_raiseRing
    | with_reducible apply Keeps.ite <;> intro _

theorem keeps_postEntry (s : State) (n : Nat) (e : Entry) (irq : Bool) {s0 : State} (h : Keeps s0 s) :
    Keeps s0 (postEntry s n e irq) := by
  have count : ∀ u, Keeps s0 u →
      Keeps s0 (moderate (u.modRing n (fun r => { r with written := r.written + 1 })) n irq) :=
    fun u hu => keeps_moderate _ _ _ (keeps_State_modRing _ _ _ hu)
  unfold postEntry
  extract_lets r a bs c
  refine Keeps.ite (fun _ => h) (fun _ => Keeps.ite (fun _ => Keeps.ite (fun _ => ?_) (fun _ => ?_)) (fun _ =>
    Keeps.ite (fun _ => ?_) (fun _ => Keeps.ite (fun _ => h) (fun _ => ?_))))
  · exact count _ (keeps_remotePut _ _ _ h)
  · exact h.of_same rfl rfl rfl rfl rfl rfl rfl rfl
  · exact count _ (h.mem _ (fun x => Mem.store_wf (Mem.clearFault_wf x _) _ _))
  · exact count _ (keeps_startWake _ _ _ (h.of_same rfl rfl rfl rfl rfl rfl rfl rfl))

theorem keeps_complete (s : State) (d : Desc) (status : Nat) (detail : Nat) (time : Nat) (r0 : Nat) (r1 : Nat) {s0 : State}  (h : Keeps s0 s) :
    Keeps s0 (complete s d status detail time r0 r1) := by
  unfold complete
  try extract_lets
  repeat' first
    | with_reducible assumption
    | with_reducible apply keeps_State_modRing
    | with_reducible apply keeps_postEntry
    | (with_reducible refine Keeps.of_mk _ _ _ _ _ _ _ _ _ _ _ _ _ _ _ _ _ _ _ _ _ _ _ _ _ _ _ _ _ ?_ rfl rfl rfl rfl rfl rfl rfl rfl
       split)

theorem keeps_outstand (s : State) (d : Desc) (block : Nat) (opcode : Nat) {s0 : State}  (h : Keeps s0 s) :
    Keeps s0 (outstand s d block opcode) := by
  unfold outstand
  try extract_lets
  repeat' first
    | with_reducible assumption
    | with_reducible apply keeps_State_modRing

theorem keeps_finish (s : State) (a : Act) (detail : Nat) (r0 : Nat) (r1 : Nat) {s0 : State}  (h : Keeps s0 s) :
    Keeps s0 (finish s a detail r0 r1) := by
  unfold finish
  try extract_lets
  repeat' first
    | with_reducible assumption
    | with_reducible apply keeps_complete

theorem keeps_finishAs (s : State) (a : Act) (status : Nat) (detail : Nat) (r0 : Nat) (r1 : Nat) {s0 : State}  (h : Keeps s0 s) :
    Keeps s0 (finishAs s a status detail r0 r1) := by
  unfold finishAs
  try extract_lets
  repeat' first
    | with_reducible assumption
    | with_reducible apply keeps_complete

theorem keeps_refuse (s : State) (a : Act) (status : Nat) (detail : Nat) (r0 : Nat) (r1 : Nat) {s0 : State}  (h : Keeps s0 s) :
    Keeps s0 (refuse s a status detail r0 r1) := by
  unfold refuse
  try extract_lets
  repeat' first
    | with_reducible assumption
    | with_reducible apply keeps_complete

theorem keeps_loseItem (s : State) (n : Nat) {s0 : State}  (h : Keeps s0 s) :
    Keeps s0 (loseItem s n) := by
  unfold loseItem
  try extract_lets
  repeat' first
    | with_reducible assumption
    | with_reducible apply keeps_State_modRing

theorem keeps_reportLoss (s : State) (n : Nat) {s0 : State}  (h : Keeps s0 s) :
    Keeps s0 (reportLoss s n) := by
  unfold reportLoss
  try extract_lets
  repeat' first
    | with_reducible assumption
    | with_reducible apply keeps_logEvent
    | with_reducible apply keeps_State_modRing

theorem keeps_postEvent (s : State) (n : Nat) (block : Nat) (code : Nat) (time : Nat) (d0 : Nat) (d1 : Nat) {s0 : State}  (h : Keeps s0 s) :
    Keeps s0 (postEvent s n block code time d0 d1) := by
  unfold postEvent
  try extract_lets
  repeat' first
    | with_reducible assumption
    | with_reducible apply keeps_loseItem
    | with_reducible apply keeps_reportLoss
    | with_reducible apply keeps_postEntry
    | with_reducible apply Keeps.ite <;> intro _

theorem keeps_putBytes (s : State) (ring : Fin 128) (a : Nat) (bs : List (BitVec 8)) {s0 : State}  (h : Keeps s0 s) :
    Keeps s0 (putBytes s ring a bs).2 := by
  unfold putBytes
  repeat' first
    | with_reducible assumption
    | with_reducible apply keeps_remotePut
    | with_reducible apply keeps_writeMem
    | with_reducible apply Keeps.ite_snd <;> intro _

theorem keeps_inbound (s : State) (n : Nat) (block : Nat) (detail : Nat) (time : Nat) (item : List (BitVec 8)) {s0 : State}  (h : Keeps s0 s) :
    Keeps s0 (inbound s n block detail time item) := by
  unfold inbound
  try extract_lets
  repeat' first
    | with_reducible assumption
    | with_reducible apply keeps_loseItem
    | with_reducible apply keeps_State_modRing
    | with_reducible apply keeps_putBytes
    | with_reducible apply keeps_reportLoss
    | with_reducible apply keeps_complete
    | with_reducible apply Keeps.ite <;> intro _
    | (with_reducible refine Keeps.of_mk _ _ _ _ _ _ _ _ _ _ _ _ _ _ _ _ _ _ _ _ _ _ _ _ _ _ _ _ _ ?_ rfl rfl rfl rfl rfl rfl rfl rfl
       split)

end Sys2Proof.Machine
end

