-- ==== Sys2Proof/Laws/KeepsAccept.lean ====
section
/-! SUPPORT. What the operations of Machine/Accept.lean keep: the queue, the order of time and a sound state. -/

namespace Sys2Proof.Machine

set_option linter.unusedTactic false
set_option linter.unreachableTactic false

theorem keeps_failCheck (s : State) (d : Desc) (status : Nat) (block : Nat) (opcode : Nat) {s0 : State}  (h : Keeps s0 s) :
    Keeps s0 (failCheck s d status block opcode) := by
  unfold failCheck
  try extract_lets
  repeat' first
    | with_reducible assumption
    | with_reducible apply keeps_complete

theorem keeps_runAct (s : State) (d : Desc) (c : HostCmd) (act : Act → State → State) {s0 : State} (h_act : ∀ y0 y1, Keeps s0 y1 → Keeps s0 (act y0 y1)) (h : Keeps s0 s) :
    Keeps s0 (runAct s d c act) := by
  unfold runAct
  try extract_lets
  repeat' first
    | with_reducible assumption
    | with_reducible apply h_act
    | with_reducible apply keeps_readMem
    | with_reducible apply keeps_complete
    | with_reducible apply Keeps.ite <;> intro _
    | (with_reducible refine Keeps.of_mk _ _ _ _ _ _ _ _ _ _ _ _ _ _ _ _ _ _ _ _ _ _ _ _ _ _ _ _ _ ?_ rfl rfl rfl rfl rfl rfl rfl rfl
       split)

theorem keeps_toBlock (s : State) (d : Desc) (c : HostCmd) (act : Act → State → State) {s0 : State} (h_act : ∀ y0 y1, Keeps s0 y1 → Keeps s0 (act y0 y1)) (h : Keeps s0 s) :
    Keeps s0 (toBlock s d c act) := by
  unfold toBlock
  try extract_lets
  repeat' first
    | with_reducible assumption
    | with_reducible apply keeps_runAct
    | with_reducible apply keeps_complete
    | with_reducible apply keeps_startWake
    | with_reducible apply Keeps.ite <;> intro _
    | (with_reducible refine Keeps.of_mk _ _ _ _ _ _ _ _ _ _ _ _ _ _ _ _ _ _ _ _ _ _ _ _ _ _ _ _ _ ?_ rfl rfl rfl rfl rfl rfl rfl rfl
       first
         | with_reducible assumption
         | split
      )

theorem keeps_countLate (s : State) (d : Desc) (acted : Bool) {s0 : State}  (h : Keeps s0 s) :
    Keeps s0 (countLate s d acted) := by
  unfold countLate
  try extract_lets
  repeat' first
    | with_reducible apply keeps_logEvent
    | (with_reducible refine Keeps.of_mk _ _ _ _ _ _ _ _ _ _ _ _ _ _ _ _ _ _ _ _ _ _ _ _ _ _ _ _ _ ?_ rfl rfl rfl rfl rfl rfl rfl rfl
       with_reducible assumption)

theorem keeps_cancelLaunch (s : State) (e : Launch) (status : Nat) {s0 : State}  (h : Keeps s0 s) :
    Keeps s0 (cancelLaunch s e status) := by
  unfold cancelLaunch
  try extract_lets
  repeat' first
    | with_reducible assumption
    | with_reducible apply keeps_complete
    | (with_reducible refine Keeps.of_mk _ _ _ _ _ _ _ _ _ _ _ _ _ _ _ _ _ _ _ _ _ _ _ _ _ _ _ _ _ ?_ rfl rfl rfl rfl rfl rfl rfl rfl
       split)

theorem keeps_enterQueue (s : State) (d : Desc) (c : HostCmd) (late : Bool) {s0 : State}  (h : Keeps s0 s) :
    Keeps s0 (enterQueue s d c late) := by
  unfold enterQueue
  try extract_lets
  repeat' first
    | with_reducible assumption
    | with_reducible apply keeps_cancelLaunch
    | with_reducible apply keeps_startWake
    | with_reducible apply Keeps.ite <;> intro _
    | intro _ _ _
    | (with_reducible refine Keeps.of_mk _ _ _ _ _ _ _ _ _ _ _ _ _ _ _ _ _ _ _ _ _ _ _ _ _ _ _ _ _ ?_ rfl rfl rfl rfl rfl rfl rfl rfl
       with_reducible apply Keeps.foldl)

theorem keeps_launchAccept (s : State) (d : Desc) (c : HostCmd) (admits : State → Nat) (enter : State → State) {s0 : State} (h_enter : ∀ y0, Keeps s0 y0 → Keeps s0 (enter y0)) (h : Keeps s0 s) :
    Keeps s0 (launchAccept s d c admits enter) := by
  unfold launchAccept
  try extract_lets
  repeat' first
    | with_reducible assumption
    | with_reducible apply h_enter
    | with_reducible apply keeps_complete
    | with_reducible apply keeps_logEvent
    | with_reducible apply keeps_countLate
    | with_reducible apply keeps_enterQueue
    | with_reducible apply Keeps.ite <;> intro _
    | (with_reducible refine Keeps.of_mk _ _ _ _ _ _ _ _ _ _ _ _ _ _ _ _ _ _ _ _ _ _ _ _ _ _ _ _ _ ?_ rfl rfl rfl rfl rfl rfl rfl rfl
       with_reducible assumption)

theorem keeps_acceptNow (s : State) (d : Desc) (c : HostCmd) (act : Act → State → State) (admits : State → Nat) (enter : State → State) {s0 : State} (h_act : ∀ y0 y1, Keeps s0 y1 → Keeps s0 (act y0 y1)) (h_enter : ∀ y0, Keeps s0 y0 → Keeps s0 (enter y0)) (h : Keeps s0 s) :
    Keeps s0 (acceptNow s d c act admits enter) := by
  unfold acceptNow
  try extract_lets
  repeat' first
    | with_reducible assumption
    | with_reducible apply keeps_complete
    | with_reducible apply keeps_launchAccept
    | with_reducible apply keeps_toBlock
    | with_reducible apply Keeps.ite <;> intro _

theorem keeps_acceptWith (d : Desc) (c : HostCmd) (act : Act → State → State) (admits : State → Nat) (enter : State → State) (s : State) {s0 : State} (h_act : ∀ y0 y1, Keeps s0 y1 → Keeps s0 (act y0 y1)) (h_enter : ∀ y0, Keeps s0 y0 → Keeps s0 (enter y0)) (h : Keeps s0 s) :
    Keeps s0 (acceptWith d c act admits enter s) := by
  unfold acceptWith
  try extract_lets
  repeat' first
    | with_reducible assumption
    | with_reducible apply keeps_outstand
    | with_reducible apply keeps_failCheck
    | with_reducible apply keeps_State_modRing
    | with_reducible apply keeps_complete
    | with_reducible apply keeps_acceptNow
    | with_reducible apply Keeps.ite <;> intro _

theorem keeps_accept (d : Desc) (c : HostCmd) (act : Act → State → State) (s : State) {s0 : State} (h_act : ∀ y0 y1, Keeps s0 y1 → Keeps s0 (act y0 y1)) (h : Keeps s0 s) :
    Keeps s0 (accept d c act s) := by
  unfold accept
  repeat' first
    | with_reducible assumption
    | with_reducible apply keeps_acceptWith
    | exact fun _ k => k

end Sys2Proof.Machine
end

