-- ==== Sys2Proof/Laws/KeepsPlan.lean ====
section
/-! SUPPORT. What the operations of Machine/Plan.lean keep: the queue, the order of time and a sound state. -/

namespace Sys2Proof.Machine

set_option linter.unusedTactic false
set_option linter.unreachableTactic false

theorem keeps_fixedCheck1 (frame : Nat) (atFrame : Bool) (s : State) (k : Nat) {s0 : State}  (h : Keeps s0 s) :
    Keeps s0 (fixedCheck1 frame atFrame s k) := by
  unfold fixedCheck1
  try extract_lets
  repeat' first
    | with_reducible assumption
    | with_reducible apply keeps_logEvent
    | with_reducible apply Keeps.ite <;> intro _
    | (with_reducible refine Keeps.of_mk _ _ _ _ _ _ _ _ _ _ _ _ _ _ _ _ _ _ _ _ _ _ _ _ _ _ _ _ _ ?_ rfl rfl rfl rfl rfl rfl rfl rfl
       first
         | with_reducible assumption
         | split
      )
    | extract_lets
    | dsimp +zetaDelta only

theorem keeps_fixedCheck (s : State) (frame : Nat) (atFrame : Bool) {s0 : State}  (h : Keeps s0 s) :
    Keeps s0 (fixedCheck s frame atFrame) := by
  unfold fixedCheck
  repeat' first
    | with_reducible assumption
    | with_reducible apply Keeps.foldl
    | with_reducible apply keeps_fixedCheck1
    | intro _ _ _

theorem keeps_State_modP (s : State) (i : Nat) (f : PChan → PChan) {s0 : State}  (h : Keeps s0 s) :
    Keeps s0 (State.modP s i f) := by
  unfold State.modP
  try extract_lets
  repeat' first
    | (with_reducible refine Keeps.of_mk _ _ _ _ _ _ _ _ _ _ _ _ _ _ _ _ _ _ _ _ _ _ _ _ _ _ _ _ _ ?_ rfl rfl rfl rfl rfl rfl rfl rfl
       with_reducible assumption)

theorem keeps_overPlan (s : State) (i : Nat) (slot : Nat) {s0 : State}  (h : Keeps s0 s) :
    Keeps s0 (overPlan s i slot) := by
  unfold overPlan
  try extract_lets
  repeat' first
    | with_reducible apply keeps_logEvent
    | with_reducible apply keeps_State_modP
    | with_reducible apply Keeps.ite <;> intro _
    | (with_reducible refine Keeps.of_mk _ _ _ _ _ _ _ _ _ _ _ _ _ _ _ _ _ _ _ _ _ _ _ _ _ _ _ _ _ ?_ rfl rfl rfl rfl rfl rfl rfl rfl
       with_reducible assumption)

theorem keeps_moveChan (s : State) (frame : Nat) (i : Nat) {s0 : State}  (h : Keeps s0 s) :
    Keeps s0 (moveChan s frame i) := by
  unfold moveChan
  try extract_lets
  repeat' first
    | with_reducible apply Keeps.ite <;> intro _
    | (with_reducible refine Keeps.of_mk _ _ _ _ _ _ _ _ _ _ _ _ _ _ _ _ _ _ _ _ _ _ _ _ _ _ _ _ _ ?_ rfl rfl rfl rfl rfl rfl rfl rfl
       first
         | with_reducible assumption
         | with_reducible apply keeps_State_modP
      )

theorem keeps_clearSlot (frame : Nat) (k : Nat) (slot : Nat) (x0 : Nat) (x1 : State) {s0 : State}  (h : Keeps s0 x1) :
    Keeps s0 (clearSlot frame k slot x0 x1) := by
  induction x0 generalizing frame k slot x1 with
  | zero =>
    unfold clearSlot
    try extract_lets
    repeat' first
      | with_reducible assumption
      | with_reducible apply ih
      | with_reducible apply keeps_moveChan
      | with_reducible apply Keeps.ite <;> intro _
      | (with_reducible refine Keeps.of_mk _ _ _ _ _ _ _ _ _ _ _ _ _ _ _ _ _ _ _ _ _ _ _ _ _ _ _ _ _ ?_ rfl rfl rfl rfl rfl rfl rfl rfl
         split)
  | succ k ih =>
    unfold clearSlot
    try extract_lets
    repeat' first
      | with_reducible assumption
      | with_reducible apply ih
      | with_reducible apply keeps_moveChan
      | with_reducible apply Keeps.ite <;> intro _
      | (with_reducible refine Keeps.of_mk _ _ _ _ _ _ _ _ _ _ _ _ _ _ _ _ _ _ _ _ _ _ _ _ _ _ _ _ _ ?_ rfl rfl rfl rfl rfl rfl rfl rfl
         split)

theorem keeps_clearFrame (s : State) (frame : Nat) {s0 : State}  (h : Keeps s0 s) :
    Keeps s0 (clearFrame s frame) := by
  unfold clearFrame
  try extract_lets
  repeat' first
    | with_reducible assumption
    | with_reducible apply Keeps.foldl
    | with_reducible apply keeps_clearSlot
    | with_reducible apply Keeps.ite <;> intro _
    | intro _ _ _
    | (with_reducible refine Keeps.of_mk _ _ _ _ _ _ _ _ _ _ _ _ _ _ _ _ _ _ _ _ _ _ _ _ _ _ _ _ _ ?_ rfl rfl rfl rfl rfl rfl rfl rfl
       with_reducible assumption)

theorem keeps_overCheck (s : State) (frame : Nat) {s0 : State}  (h : Keeps s0 s) :
    Keeps s0 (overCheck s frame) := by
  unfold overCheck
  try extract_lets
  repeat' first
    | with_reducible assumption
    | with_reducible apply Keeps.foldl
    | with_reducible apply keeps_overPlan
    | with_reducible apply keeps_State_modP
    | intro _ _ _
    | (with_reducible refine Keeps.of_mk _ _ _ _ _ _ _ _ _ _ _ _ _ _ _ _ _ _ _ _ _ _ _ _ _ _ _ _ _ ?_ rfl rfl rfl rfl rfl rfl rfl rfl
       split)

theorem keeps_replan (s : State) {s0 : State}  (h : Keeps s0 s) :
    Keeps s0 (replan s) := by
  unfold replan
  try extract_lets
  repeat' first
    | with_reducible assumption
    | with_reducible apply keeps_fixedCheck
    | with_reducible apply keeps_clearFrame

theorem keeps_planOn (s : State) (i : Nat) (phase : Nat) (code : Nat) (onNs : Nat) (launch : Bool) {s0 : State}  (h : Keeps s0 s) :
    Keeps s0 (planOn s i phase code onNs launch) := by
  unfold planOn
  try extract_lets
  repeat' first
    | with_reducible assumption
    | with_reducible apply keeps_State_modP

theorem keeps_planOnTime (s : State) (i : Nat) (onNs : Nat) {s0 : State}  (h : Keeps s0 s) :
    Keeps s0 (planOnTime s i onNs) := by
  unfold planOnTime
  try extract_lets
  repeat' first
    | with_reducible assumption
    | with_reducible apply keeps_State_modP

theorem keeps_planOff (s : State) (i : Nat) {s0 : State}  (h : Keeps s0 s) :
    Keeps s0 (planOff s i) := by
  unfold planOff
  try extract_lets
  repeat' first
    | with_reducible assumption
    | with_reducible apply keeps_State_modP

theorem keeps_addShot (s : State) (o : OneShot) {s0 : State}  (h : Keeps s0 s) :
    Keeps s0 (addShot s o) := by
  unfold addShot
  try extract_lets
  repeat' first
    | (with_reducible refine Keeps.of_mk _ _ _ _ _ _ _ _ _ _ _ _ _ _ _ _ _ _ _ _ _ _ _ _ _ _ _ _ _ ?_ rfl rfl rfl rfl rfl rfl rfl rfl
       with_reducible assumption)

end Sys2Proof.Machine
end

