-- ==== Sys2Proof/Laws/KeepsValveOps.lean ====
section
/-! SUPPORT. What the operations of Machine/ValveOps.lean keep: the queue, the order of time and a sound state. -/

namespace Sys2Proof.Machine

set_option linter.unusedTactic false
set_option linter.unreachableTactic false

theorem keeps_State_modVlv (s : State) (n : Nat) (f : VlvCh → VlvCh) {s0 : State}  (h : Keeps s0 s) :
    Keeps s0 (State.modVlv s n f) := by
  unfold State.modVlv
  try extract_lets
  repeat' first
    | (with_reducible refine Keeps.of_mk _ _ _ _ _ _ _ _ _ _ _ _ _ _ _ _ _ _ _ _ _ _ _ _ _ _ _ _ _ ?_ rfl rfl rfl rfl rfl rfl rfl rfl
       with_reducible assumption)

theorem keeps_State_modBank (s : State) (b : Nat) (f : VlvBank → VlvBank) {s0 : State}  (h : Keeps s0 s) :
    Keeps s0 (State.modBank s b f) := by
  unfold State.modBank
  try extract_lets
  repeat' first
    | (with_reducible refine Keeps.of_mk _ _ _ _ _ _ _ _ _ _ _ _ _ _ _ _ _ _ _ _ _ _ _ _ _ _ _ _ _ ?_ rfl rfl rfl rfl rfl rfl rfl rfl
       with_reducible assumption)

theorem keeps_State_modCtx (s : State) (n : Nat) (f : FCtx → FCtx) {s0 : State}  (h : Keeps s0 s) :
    Keeps s0 (State.modCtx s n f) := by
  unfold State.modCtx
  try extract_lets
  repeat' first
    | (with_reducible refine Keeps.of_mk _ _ _ _ _ _ _ _ _ _ _ _ _ _ _ _ _ _ _ _ _ _ _ _ _ _ _ _ _ ?_ rfl rfl rfl rfl rfl rfl rfl rfl
       with_reducible assumption)

theorem keeps_vlvEvent (s : State) (code : Nat) (n : Nat) {s0 : State}  (h : Keeps s0 s) :
    Keeps s0 (vlvEvent s code n) := by
  unfold vlvEvent
  repeat' first
    | with_reducible assumption
    | with_reducible apply keeps_logEvent

theorem keeps_multiDone (s : State) (m : VMulti) {s0 : State}  (h : Keeps s0 s) :
    Keeps s0 (multiDone s m) := by
  unfold multiDone
  try extract_lets
  repeat' first
    | with_reducible assumption
    | with_reducible apply keeps_complete

theorem keeps_multiNote (s : State) (a : Act) (f : VMulti → VMulti) {s0 : State}  (h : Keeps s0 s) :
    Keeps s0 (multiNote s a f) := by
  unfold multiNote
  try extract_lets
  repeat' first
    | with_reducible assumption
    | with_reducible apply keeps_multiDone
    | with_reducible apply Keeps.ite <;> intro _
    | (with_reducible refine Keeps.of_mk _ _ _ _ _ _ _ _ _ _ _ _ _ _ _ _ _ _ _ _ _ _ _ _ _ _ _ _ _ ?_ rfl rfl rfl rfl rfl rfl rfl rfl
       first
         | with_reducible assumption
         | split
      )

theorem keeps_startFails (s : State) (n : Nat) (st : VStart) (status : Nat) {s0 : State}  (h : Keeps s0 s) :
    Keeps s0 (startFails s n st status) := by
  unfold startFails
  try extract_lets
  repeat' first
    | with_reducible assumption
    | with_reducible apply keeps_multiNote
    | with_reducible apply keeps_refuse
    | with_reducible apply Keeps.ite <;> intro _
    | (with_reducible refine Keeps.of_mk _ _ _ _ _ _ _ _ _ _ _ _ _ _ _ _ _ _ _ _ _ _ _ _ _ _ _ _ _ ?_ rfl rfl rfl rfl rfl rfl rfl rfl
       split)

theorem keeps_startDone (s : State) (n : Nat) (st : VStart) (instant : Nat) (deferral : Nat) (detail : Nat) {s0 : State}  (h : Keeps s0 s) :
    Keeps s0 (startDone s n st instant deferral detail) := by
  unfold startDone
  try extract_lets
  repeat' first
    | with_reducible assumption
    | with_reducible apply keeps_multiNote
    | with_reducible apply keeps_complete
    | with_reducible apply Keeps.ite <;> intro _
    | (with_reducible refine Keeps.of_mk _ _ _ _ _ _ _ _ _ _ _ _ _ _ _ _ _ _ _ _ _ _ _ _ _ _ _ _ _ ?_ rfl rfl rfl rfl rfl rfl rfl rfl
       split)

theorem keeps_beginProfile (s : State) (n : Nat) (st : VStart) (deferUs : Nat) (noClaim : Bool) {s0 : State}  (h : Keeps s0 s) :
    Keeps s0 (beginProfile s n st deferUs noClaim) := by
  unfold beginProfile
  try extract_lets
  repeat' first
    | with_reducible assumption
    | with_reducible apply keeps_State_modCtx
    | with_reducible apply keeps_State_modBank
    | (with_reducible refine Keeps.of_mk _ _ _ _ _ _ _ _ _ _ _ _ _ _ _ _ _ _ _ _ _ _ _ _ _ _ _ _ _ ?_ rfl rfl rfl rfl rfl rfl rfl rfl
       with_reducible apply keeps_State_modVlv)

theorem keeps_stopRunning (s : State) (n : Nat) {s0 : State}  (h : Keeps s0 s) :
    Keeps s0 (stopRunning s n) := by
  unfold stopRunning
  try extract_lets
  repeat' first
    | with_reducible assumption
    | with_reducible apply keeps_State_modCtx

theorem keeps_boostPhase (s : State) (n : Nat) (st : Option VStart) (since : Nat) {s0 : State}  (h : Keeps s0 s) :
    Keeps s0 (boostPhase s n st since) := by
  unfold boostPhase
  try extract_lets
  repeat' first
    | with_reducible assumption
    | with_reducible apply keeps_startDone
    | with_reducible apply keeps_beginProfile
    | with_reducible apply keeps_State_modVlv
    | with_reducible apply keeps_State_modCtx
    | with_reducible apply keeps_State_modBank
    | with_reducible apply keeps_logEvent
    | with_reducible apply keeps_startFails
    | with_reducible apply keeps_stopRunning
    | with_reducible apply Keeps.ite <;> intro _
    | (with_reducible refine Keeps.of_mk _ _ _ _ _ _ _ _ _ _ _ _ _ _ _ _ _ _ _ _ _ _ _ _ _ _ _ _ _ ?_ rfl rfl rfl rfl rfl rfl rfl rfl
       split)

theorem keeps_serveClaim (x0 : Nat) (x1 : State) (x2 : Nat) {s0 : State}  (h : Keeps s0 x1) :
    Keeps s0 (serveClaim x0 x1 x2) := by
  induction x0 generalizing x1 x2 with
  | zero =>
    unfold serveClaim
    try extract_lets
    repeat' first
      | with_reducible assumption
      | with_reducible apply ih
      | with_reducible apply keeps_State_modBank
      | with_reducible apply keeps_boostPhase
      | (with_reducible refine Keeps.of_mk _ _ _ _ _ _ _ _ _ _ _ _ _ _ _ _ _ _ _ _ _ _ _ _ _ _ _ _ _ ?_ rfl rfl rfl rfl rfl rfl rfl rfl
         split)
  | succ k ih =>
    unfold serveClaim
    try extract_lets
    repeat' first
      | with_reducible assumption
      | with_reducible apply ih
      | with_reducible apply keeps_State_modBank
      | with_reducible apply keeps_boostPhase
      | (with_reducible refine Keeps.of_mk _ _ _ _ _ _ _ _ _ _ _ _ _ _ _ _ _ _ _ _ _ _ _ _ _ _ _ _ _ ?_ rfl rfl rfl rfl rfl rfl rfl rfl
         split)

theorem keeps_releaseClaim (s : State) (n : Nat) {s0 : State}  (h : Keeps s0 s) :
    Keeps s0 (releaseClaim s n) := by
  unfold releaseClaim
  try extract_lets
  repeat' first
    | with_reducible assumption
    | with_reducible apply keeps_serveClaim
    | with_reducible apply keeps_State_modBank
    | with_reducible apply Keeps.ite <;> intro _

theorem keeps_deferOut (s : State) (n : Nat) (w : VWait) {s0 : State}  (h : Keeps s0 s) :
    Keeps s0 (deferOut s n w) := by
  unfold deferOut
  try extract_lets
  repeat' first
    | with_reducible assumption
    | with_reducible apply keeps_State_modVlv
    | with_reducible apply keeps_State_modBank
    | with_reducible apply keeps_logEvent
    | with_reducible apply keeps_startDone
    | with_reducible apply keeps_beginProfile
    | with_reducible apply keeps_startFails
    | with_reducible apply keeps_State_modCtx
    | with_reducible apply keeps_stopRunning
    | with_reducible apply Keeps.ite <;> intro _
    | (with_reducible refine Keeps.of_mk _ _ _ _ _ _ _ _ _ _ _ _ _ _ _ _ _ _ _ _ _ _ _ _ _ _ _ _ _ ?_ rfl rfl rfl rfl rfl rfl rfl rfl
       split)

theorem keeps_requestClaim (s : State) (n : Nat) (st : Option VStart) {s0 : State}  (h : Keeps s0 s) :
    Keeps s0 (requestClaim s n st) := by
  unfold requestClaim
  try extract_lets
  repeat' first
    | with_reducible assumption
    | with_reducible apply keeps_startDone
    | with_reducible apply keeps_beginProfile
    | with_reducible apply keeps_boostPhase
    | with_reducible apply keeps_State_modVlv
    | with_reducible apply keeps_State_modCtx
    | with_reducible apply keeps_State_modBank
    | with_reducible apply keeps_deferOut
    | with_reducible apply Keeps.ite <;> intro _
    | (with_reducible refine Keeps.of_mk _ _ _ _ _ _ _ _ _ _ _ _ _ _ _ _ _ _ _ _ _ _ _ _ _ _ _ _ _ ?_ rfl rfl rfl rfl rfl rfl rfl rfl
       split)

theorem keeps_dropWait (s : State) (n : Nat) (status : Nat) {s0 : State}  (h : Keeps s0 s) :
    Keeps s0 (dropWait s n status) := by
  unfold dropWait
  try extract_lets
  repeat' first
    | with_reducible assumption
    | with_reducible apply keeps_State_modVlv
    | with_reducible apply keeps_State_modBank
    | with_reducible apply keeps_startFails
    | with_reducible apply keeps_State_modCtx
    | (with_reducible refine Keeps.of_mk _ _ _ _ _ _ _ _ _ _ _ _ _ _ _ _ _ _ _ _ _ _ _ _ _ _ _ _ _ ?_ rfl rfl rfl rfl rfl rfl rfl rfl
       split)

theorem keeps_endNow (s : State) (n : Nat) (st : VlvSt) (status : Nat) {s0 : State}  (h : Keeps s0 s) :
    Keeps s0 (endNow s n st status) := by
  unfold endNow
  try extract_lets
  repeat' first
    | with_reducible assumption
    | with_reducible apply keeps_dropWait
    | with_reducible apply keeps_State_modCtx
    | with_reducible apply keeps_releaseClaim
    | with_reducible apply keeps_State_modBank
    | (with_reducible refine Keeps.of_mk _ _ _ _ _ _ _ _ _ _ _ _ _ _ _ _ _ _ _ _ _ _ _ _ _ _ _ _ _ ?_ rfl rfl rfl rfl rfl rfl rfl rfl
       with_reducible apply keeps_State_modVlv)

theorem keeps_stopCtx (s : State) (n : Nat) {s0 : State}  (h : Keeps s0 s) :
    Keeps s0 (stopCtx s n) := by
  unfold stopCtx
  repeat' first
    | with_reducible assumption
    | with_reducible apply keeps_releaseClaim
    | with_reducible apply keeps_stopRunning
    | with_reducible apply keeps_endNow
    | with_reducible apply Keeps.ite <;> intro _

theorem keeps_quench (s : State) (n : Nat) {s0 : State}  (h : Keeps s0 s) :
    Keeps s0 (quench s n) := by
  unfold quench
  try extract_lets
  repeat' first
    | with_reducible assumption
    | with_reducible apply keeps_releaseClaim
    | with_reducible apply keeps_State_modCtx
    | with_reducible apply keeps_stopCtx
    | with_reducible apply Keeps.ite <;> intro _

theorem keeps_bankOff (s : State) (b : Nat) (status : Nat) {s0 : State}  (h : Keeps s0 s) :
    Keeps s0 (bankOff s b status) := by
  unfold bankOff
  try extract_lets
  repeat' first
    | with_reducible assumption
    | with_reducible apply Keeps.foldl
    | with_reducible apply keeps_dropWait
    | with_reducible apply keeps_endNow
    | with_reducible apply keeps_State_modBank
    | intro _ _ _
    | (with_reducible refine Keeps.of_mk _ _ _ _ _ _ _ _ _ _ _ _ _ _ _ _ _ _ _ _ _ _ _ _ _ _ _ _ _ ?_ rfl rfl rfl rfl rfl rfl rfl rfl
       split)

theorem keeps_startProfile (s : State) (n : Nat) (st : VStart) {s0 : State}  (h : Keeps s0 s) :
    Keeps s0 (startProfile s n st) := by
  unfold startProfile
  try extract_lets
  repeat' first
    | with_reducible assumption
    | with_reducible apply keeps_startDone
    | with_reducible apply keeps_State_modVlv
    | with_reducible apply keeps_startFails
    | with_reducible apply keeps_dropWait
    | with_reducible apply keeps_beginProfile
    | with_reducible apply keeps_requestClaim
    | with_reducible apply keeps_releaseClaim
    | with_reducible apply Keeps.ite <;> intro _
    | (with_reducible refine Keeps.of_mk _ _ _ _ _ _ _ _ _ _ _ _ _ _ _ _ _ _ _ _ _ _ _ _ _ _ _ _ _ ?_ rfl rfl rfl rfl rfl rfl rfl rfl
       split)

theorem keeps_eachVlv (s : State) (f : State → Nat → State) {s0 : State} (h_f : ∀ y0 y1, Keeps s0 y0 → Keeps s0 (f y0 y1)) (h : Keeps s0 s) :
    Keeps s0 (eachVlv s f) := by
  unfold eachVlv
  repeat' first
    | with_reducible assumption
    | with_reducible apply Keeps.foldl

theorem keeps_vlvAllOff (s : State) (status : Nat) {s0 : State}  (h : Keeps s0 s) :
    Keeps s0 (vlvAllOff s status) := by
  unfold vlvAllOff
  try extract_lets
  repeat' first
    | with_reducible assumption
    | with_reducible apply keeps_bankOff
    | with_reducible apply keeps_eachVlv
    | with_reducible apply keeps_State_modVlv
    | intro _ _ _
    | (with_reducible refine Keeps.of_mk _ _ _ _ _ _ _ _ _ _ _ _ _ _ _ _ _ _ _ _ _ _ _ _ _ _ _ _ _ ?_ rfl rfl rfl rfl rfl rfl rfl rfl
       with_reducible apply Keeps.foldl)

theorem keeps_vlvClaims (s : State) {s0 : State}  (h : Keeps s0 s) :
    Keeps s0 (vlvClaims s) := by
  unfold vlvClaims
  try extract_lets
  repeat' first
    | with_reducible assumption
    | with_reducible apply keeps_eachVlv
    | with_reducible apply keeps_stopCtx
    | with_reducible apply keeps_dropWait
    | with_reducible apply keeps_State_modVlv
    | intro _ _ _
    | (with_reducible refine Keeps.of_mk _ _ _ _ _ _ _ _ _ _ _ _ _ _ _ _ _ _ _ _ _ _ _ _ _ _ _ _ _ ?_ rfl rfl rfl rfl rfl rfl rfl rfl
       split)

theorem keeps_vlvRoad (s : State) {s0 : State}  (h : Keeps s0 s) :
    Keeps s0 (vlvRoad s) := by
  unfold vlvRoad
  try extract_lets
  repeat' first
    | with_reducible assumption
    | with_reducible apply keeps_eachVlv
    | with_reducible apply keeps_stopCtx
    | with_reducible apply keeps_dropWait
    | with_reducible apply keeps_State_modVlv
    | with_reducible apply Keeps.ite <;> intro _
    | intro _ _ _

theorem keeps_vlvHold (s : State) {s0 : State}  (h : Keeps s0 s) :
    Keeps s0 (vlvHold s) := by
  unfold vlvHold
  try extract_lets
  repeat' first
    | with_reducible assumption
    | with_reducible apply Keeps.foldl
    | with_reducible apply keeps_State_modVlv
    | with_reducible apply keeps_State_modCtx
    | with_reducible apply keeps_State_modBank
    | with_reducible apply Keeps.ite <;> intro _
    | intro _ _ _
    | (with_reducible refine Keeps.of_mk _ _ _ _ _ _ _ _ _ _ _ _ _ _ _ _ _ _ _ _ _ _ _ _ _ _ _ _ _ ?_ rfl rfl rfl rfl rfl rfl rfl rfl
       first
         | with_reducible apply keeps_eachVlv
         | with_reducible apply keeps_State_modVlv
      )

theorem keeps_vlvOrphan1 (s : State) (n : Nat) {s0 : State}  (h : Keeps s0 s) :
    Keeps s0 (vlvOrphan1 s n) := by
  unfold vlvOrphan1
  try extract_lets
  repeat' first
    | with_reducible assumption
    | with_reducible apply keeps_endNow
    | with_reducible apply keeps_State_modVlv
    | with_reducible apply keeps_State_modBank
    | with_reducible apply Keeps.ite <;> intro _
    | (with_reducible refine Keeps.of_mk _ _ _ _ _ _ _ _ _ _ _ _ _ _ _ _ _ _ _ _ _ _ _ _ _ _ _ _ _ ?_ rfl rfl rfl rfl rfl rfl rfl rfl
       split)

theorem keeps_vlvPause (s : State) {s0 : State}  (h : Keeps s0 s) :
    Keeps s0 (vlvPause s) := by
  unfold vlvPause
  try extract_lets
  repeat' first
    | with_reducible assumption
    | with_reducible apply Keeps.foldl
    | with_reducible apply keeps_eachVlv
    | with_reducible apply keeps_startDone
    | with_reducible apply keeps_State_modVlv
    | with_reducible apply keeps_bankOff
    | intro _ _ _
    | (with_reducible refine Keeps.of_mk _ _ _ _ _ _ _ _ _ _ _ _ _ _ _ _ _ _ _ _ _ _ _ _ _ _ _ _ _ ?_ rfl rfl rfl rfl rfl rfl rfl rfl
       split)

theorem keeps_vlvFrame (s : State) {s0 : State}  (h : Keeps s0 s) :
    Keeps s0 (vlvFrame s) := by
  unfold vlvFrame
  try extract_lets
  repeat' first
    | with_reducible assumption
    | with_reducible apply keeps_eachVlv
    | with_reducible apply keeps_startProfile
    | with_reducible apply keeps_State_modVlv
    | with_reducible apply Keeps.ite <;> intro _
    | intro _ _ _
    | (with_reducible refine Keeps.of_mk _ _ _ _ _ _ _ _ _ _ _ _ _ _ _ _ _ _ _ _ _ _ _ _ _ _ _ _ _ ?_ rfl rfl rfl rfl rfl rfl rfl rfl
       split)

theorem keeps_loadBank (s : State) (e : Nat) (p : Prog) (path : Nat) {s0 : State}  (h : Keeps s0 s) :
    Keeps s0 (loadBank s e p path) := by
  unfold loadBank
  try extract_lets
  repeat' first
    | with_reducible assumption
    | with_reducible apply keeps_logEvent
    | with_reducible apply keeps_stopCtx
    | with_reducible apply keeps_State_modCtx
    | with_reducible apply Keeps.ite <;> intro _
    | intro _ _ _
    | (with_reducible refine Keeps.of_mk _ _ _ _ _ _ _ _ _ _ _ _ _ _ _ _ _ _ _ _ _ _ _ _ _ _ _ _ _ ?_ rfl rfl rfl rfl rfl rfl rfl rfl
       with_reducible apply Keeps.foldl)

theorem keeps_facetCommit (s : State) (old : List Rec) (new : List Rec) {s0 : State}  (h : Keeps s0 s) :
    Keeps s0 (facetCommit s old new) := by
  unfold facetCommit
  try extract_lets
  repeat' first
    | with_reducible assumption
    | with_reducible apply Keeps.foldl
    | with_reducible apply keeps_loadBank
    | with_reducible apply Keeps.ite <;> intro _
    | intro _ _ _
    | (with_reducible refine Keeps.of_mk _ _ _ _ _ _ _ _ _ _ _ _ _ _ _ _ _ _ _ _ _ _ _ _ _ _ _ _ _ ?_ rfl rfl rfl rfl rfl rfl rfl rfl
       first
         | with_reducible assumption
         | split
      )

theorem keeps_facetReload (s : State) {s0 : State}  (h : Keeps s0 s) :
    Keeps s0 (facetReload s) := by
  unfold facetReload
  try extract_lets
  repeat' first
    | (with_reducible refine Keeps.of_mk _ _ _ _ _ _ _ _ _ _ _ _ _ _ _ _ _ _ _ _ _ _ _ _ _ _ _ _ _ ?_ rfl rfl rfl rfl rfl rfl rfl rfl
       with_reducible assumption)

end Sys2Proof.Machine
end

