-- ==== Sys2Proof/Laws/KeepsVlv.lean ====
section
/-! SUPPORT. What the operations of Machine/Vlv.lean keep: the queue, the order of time and a sound state. -/

namespace Sys2Proof.Machine

set_option linter.unusedTactic false
set_option linter.unreachableTactic false

theorem keeps_valveShot (s : State) (a : Act) {s0 : State}  (h : Keeps s0 s) :
    Keeps s0 (valveShot s a) := by
  unfold valveShot
  repeat' first
    | with_reducible assumption
    | with_reducible apply keeps_addShot
    | with_reducible apply Keeps.ite <;> intro _

theorem keeps_actVlvStart (ch : BitVec 5) (profile : BitVec 5) (arg : BitVec 16) (a : Act) (s : State) {s0 : State}  (h : Keeps s0 s) :
    Keeps s0 (actVlvStart ch profile arg a s) := by
  unfold actVlvStart
  try extract_lets
  repeat' first
    | with_reducible assumption
    | with_reducible apply keeps_refuse
    | with_reducible apply keeps_startProfile
    | with_reducible apply keeps_valveShot
    | with_reducible apply Keeps.ite <;> intro _

theorem keeps_execVlvStart (d : Desc) (ch : BitVec 5) (profile : BitVec 5) (arg : BitVec 16) (s : State) : OutKeeps s (execVlvStart d ch profile arg s) := by
  have h := Keeps.refl s
  unfold execVlvStart
  show Keeps _ _
  repeat' first
    | with_reducible assumption
    | with_reducible apply keeps_accept
    | with_reducible apply keeps_actVlvStart
    | intro _ _ _

theorem keeps_actVlvMulti (mask : BitVec 32) (profile : BitVec 5) (arg : BitVec 16) (a : Act) (s : State) {s0 : State}  (h : Keeps s0 s) :
    Keeps s0 (actVlvMulti mask profile arg a s) := by
  unfold actVlvMulti
  try extract_lets
  repeat' first
    | with_reducible assumption
    | with_reducible apply Keeps.foldl
    | with_reducible apply keeps_finish
    | with_reducible apply keeps_startFails
    | with_reducible apply keeps_startProfile
    | with_reducible apply keeps_valveShot
    | with_reducible apply Keeps.ite <;> intro _
    | intro _ _ _
    | (with_reducible refine Keeps.of_mk _ _ _ _ _ _ _ _ _ _ _ _ _ _ _ _ _ _ _ _ _ _ _ _ _ _ _ _ _ ?_ rfl rfl rfl rfl rfl rfl rfl rfl
       with_reducible assumption)

theorem keeps_execVlvMulti (d : Desc) (mask : BitVec 32) (profile : BitVec 5) (arg : BitVec 16) (s : State) : OutKeeps s (execVlvMulti d mask profile arg s) := by
  have h := Keeps.refl s
  unfold execVlvMulti
  show Keeps _ _
  repeat' first
    | with_reducible assumption
    | with_reducible apply keeps_accept
    | with_reducible apply keeps_actVlvMulti
    | intro _ _ _

theorem keeps_actVlvStop (ch : BitVec 5) (a : Act) (s : State) {s0 : State}  (h : Keeps s0 s) :
    Keeps s0 (actVlvStop ch a s) := by
  unfold actVlvStop
  try extract_lets
  repeat' first
    | with_reducible assumption
    | with_reducible apply keeps_refuse
    | with_reducible apply keeps_State_modVlv
    | with_reducible apply keeps_dropWait
    | with_reducible apply keeps_finish
    | with_reducible apply keeps_quench
    | with_reducible apply Keeps.ite <;> intro _
    | (with_reducible refine Keeps.of_mk _ _ _ _ _ _ _ _ _ _ _ _ _ _ _ _ _ _ _ _ _ _ _ _ _ _ _ _ _ ?_ rfl rfl rfl rfl rfl rfl rfl rfl
       split)

theorem keeps_execVlvStop (d : Desc) (ch : BitVec 5) (s : State) : OutKeeps s (execVlvStop d ch s) := by
  have h := Keeps.refl s
  unfold execVlvStop
  show Keeps _ _
  repeat' first
    | with_reducible assumption
    | with_reducible apply keeps_accept
    | with_reducible apply keeps_actVlvStop
    | intro _ _ _

theorem keeps_actVlvClear (ch : BitVec 5) (bank : BitVec 1) (a : Act) (s : State) {s0 : State}  (h : Keeps s0 s) :
    Keeps s0 (actVlvClear ch bank a s) := by
  unfold actVlvClear
  try extract_lets
  repeat' first
    | with_reducible assumption
    | with_reducible apply keeps_refuse
    | with_reducible apply keeps_State_modVlv
    | with_reducible apply keeps_finish
    | with_reducible apply keeps_State_modBank
    | with_reducible apply Keeps.ite <;> intro _

theorem keeps_execVlvClear (d : Desc) (ch : BitVec 5) (bank : BitVec 1) (s : State) : OutKeeps s (execVlvClear d ch bank s) := by
  have h := Keeps.refl s
  unfold execVlvClear
  show Keeps _ _
  repeat' first
    | with_reducible assumption
    | with_reducible apply keeps_accept
    | with_reducible apply keeps_actVlvClear
    | intro _ _ _

theorem keeps_actVlvRead (ch : BitVec 5) (a : Act) (s : State) {s0 : State}  (h : Keeps s0 s) :
    Keeps s0 (actVlvRead ch a s) := by
  unfold actVlvRead
  try extract_lets
  repeat' first
    | with_reducible assumption
    | with_reducible apply keeps_refuse
    | with_reducible apply keeps_finish
    | with_reducible apply Keeps.ite <;> intro _

theorem keeps_execVlvRead (d : Desc) (ch : BitVec 5) (s : State) : OutKeeps s (execVlvRead d ch s) := by
  have h := Keeps.refl s
  unfold execVlvRead
  show Keeps _ _
  repeat' first
    | with_reducible assumption
    | with_reducible apply keeps_accept
    | with_reducible apply keeps_actVlvRead
    | intro _ _ _

theorem keeps_actVlvOfftest (ch : BitVec 5) (a : Act) (s : State) {s0 : State}  (h : Keeps s0 s) :
    Keeps s0 (actVlvOfftest ch a s) := by
  unfold actVlvOfftest
  try extract_lets
  repeat' first
    | with_reducible assumption
    | with_reducible apply keeps_refuse
    | with_reducible apply keeps_State_modVlv
    | with_reducible apply Keeps.ite <;> intro _
    | (with_reducible refine Keeps.of_mk _ _ _ _ _ _ _ _ _ _ _ _ _ _ _ _ _ _ _ _ _ _ _ _ _ _ _ _ _ ?_ rfl rfl rfl rfl rfl rfl rfl rfl
       split)

theorem keeps_execVlvOfftest (d : Desc) (ch : BitVec 5) (s : State) : OutKeeps s (execVlvOfftest d ch s) := by
  have h := Keeps.refl s
  unfold execVlvOfftest
  show Keeps _ _
  repeat' first
    | with_reducible assumption
    | with_reducible apply keeps_accept
    | with_reducible apply keeps_actVlvOfftest
    | intro _ _ _

theorem keeps_execBoostWaitExpiry (ch : Fin 32) (s : State) : OutKeeps s (execBoostWaitExpiry ch s) := by
  have h := Keeps.refl s
  unfold execBoostWaitExpiry
  show Keeps _ _
  try extract_lets
  repeat' first
    | with_reducible assumption
    | with_reducible apply keeps_deferOut
    | with_reducible apply Keeps.reach
    | (with_reducible refine Keeps.of_mk _ _ _ _ _ _ _ _ _ _ _ _ _ _ _ _ _ _ _ _ _ _ _ _ _ _ _ _ _ ?_ rfl rfl rfl rfl rfl rfl rfl rfl
       split)

theorem keeps_execBankIdleTimeout (bank : Fin 8) (s : State) : OutKeeps s (execBankIdleTimeout bank s) := by
  have h := Keeps.refl s
  unfold execBankIdleTimeout
  show Keeps _ _
  try extract_lets
  repeat' first
    | with_reducible assumption
    | with_reducible apply Keeps.reach
    | with_reducible apply keeps_State_modBank
    | with_reducible apply Keeps.ite <;> intro _

theorem keeps_execBstReverseStart (s : State) : OutKeeps s (execBstReverseStart s) := by
  have h := Keeps.refl s
  unfold execBstReverseStart
  show Keeps _ _
  try extract_lets
  repeat' first
    | with_reducible assumption
    | with_reducible apply Keeps.ite <;> intro _
    | (with_reducible refine Keeps.of_mk _ _ _ _ _ _ _ _ _ _ _ _ _ _ _ _ _ _ _ _ _ _ _ _ _ _ _ _ _ ?_ rfl rfl rfl rfl rfl rfl rfl rfl
       with_reducible assumption)

theorem keeps_execBstReverseEnd (s : State) : OutKeeps s (execBstReverseEnd s) := by
  have h := Keeps.refl s
  unfold execBstReverseEnd
  show Keeps _ _
  try extract_lets
  repeat' first
    | (with_reducible refine Keeps.of_mk _ _ _ _ _ _ _ _ _ _ _ _ _ _ _ _ _ _ _ _ _ _ _ _ _ _ _ _ _ ?_ rfl rfl rfl rfl rfl rfl rfl rfl
       with_reducible assumption)

theorem keeps_execBstOvervoltage (s : State) : OutKeeps s (execBstOvervoltage s) := by
  have h := Keeps.refl s
  unfold execBstOvervoltage
  show Keeps _ _
  try extract_lets
  repeat' first
    | with_reducible assumption
    | with_reducible apply keeps_logEvent
    | with_reducible apply Keeps.ite <;> intro _
    | (with_reducible refine Keeps.of_mk _ _ _ _ _ _ _ _ _ _ _ _ _ _ _ _ _ _ _ _ _ _ _ _ _ _ _ _ _ ?_ rfl rfl rfl rfl rfl rfl rfl rfl
       with_reducible assumption)

theorem keeps_execBstCapCheck (microfarads : BitVec 12) (esr : BitVec 12) (s : State) : OutKeeps s (execBstCapCheck microfarads esr s) := by
  have h := Keeps.refl s
  unfold execBstCapCheck
  show Keeps _ _
  try extract_lets
  repeat' first
    | with_reducible assumption
    | with_reducible apply keeps_logEvent
    | with_reducible apply Keeps.ite <;> intro _
    | (with_reducible refine Keeps.of_mk _ _ _ _ _ _ _ _ _ _ _ _ _ _ _ _ _ _ _ _ _ _ _ _ _ _ _ _ _ ?_ rfl rfl rfl rfl rfl rfl rfl rfl
       with_reducible assumption)

theorem keeps_execValveChannelOvercurrent (ch : Fin 32) (s : State) : OutKeeps s (execValveChannelOvercurrent ch s) := by
  have h := Keeps.refl s
  unfold execValveChannelOvercurrent
  show Keeps _ _
  try extract_lets
  repeat' first
    | with_reducible assumption
    | with_reducible apply keeps_vlvEvent
    | with_reducible apply keeps_State_modVlv
    | with_reducible apply keeps_endNow
    | with_reducible apply Keeps.ite <;> intro _

theorem keeps_bankFault (s : State) (b : Nat) (latch : Bool) (code : Nat) {s0 : State}  (h : Keeps s0 s) :
    Keeps s0 (bankFault s b latch code) := by
  unfold bankFault
  try extract_lets
  repeat' first
    | with_reducible assumption
    | with_reducible apply Keeps.foldl
    | with_reducible apply keeps_State_modVlv
    | with_reducible apply keeps_vlvEvent
    | with_reducible apply keeps_bankOff
    | with_reducible apply keeps_State_modBank
    | with_reducible apply Keeps.ite <;> intro _
    | intro _ _ _

theorem keeps_execBankOvercurrent (bank : Fin 8) (s : State) : OutKeeps s (execBankOvercurrent bank s) := by
  have h := Keeps.refl s
  unfold execBankOvercurrent
  show Keeps _ _
  repeat' first
    | with_reducible assumption
    | with_reducible apply keeps_bankFault
    | with_reducible apply Keeps.ite <;> intro _

theorem keeps_execBankCurrentMismatch (bank : Fin 8) (s : State) : OutKeeps s (execBankCurrentMismatch bank s) := by
  have h := Keeps.refl s
  unfold execBankCurrentMismatch
  show Keeps _ _
  repeat' first
    | with_reducible assumption
    | with_reducible apply keeps_bankFault
    | with_reducible apply Keeps.ite <;> intro _

theorem keeps_execOpenCoilOn (ch : Fin 32) (s : State) : OutKeeps s (execOpenCoilOn ch s) := by
  have h := Keeps.refl s
  unfold execOpenCoilOn
  show Keeps _ _
  try extract_lets
  repeat' first
    | with_reducible assumption
    | with_reducible apply keeps_endNow
    | with_reducible apply keeps_vlvEvent
    | with_reducible apply keeps_State_modVlv
    | with_reducible apply Keeps.ite <;> intro _

theorem keeps_execValveOffTest (ch : Fin 32) (s : State) : OutKeeps s (execValveOffTest ch s) := by
  have h := Keeps.refl s
  unfold execValveOffTest
  show Keeps _ _
  try extract_lets
  repeat' first
    | with_reducible assumption
    | with_reducible apply keeps_State_modVlv
    | with_reducible apply Keeps.ite <;> intro _

theorem keeps_execValveOffTestResult (ch : Fin 32) (mv : BitVec 16) (s : State) : OutKeeps s (execValveOffTestResult ch mv s) := by
  have h := Keeps.refl s
  unfold execValveOffTestResult
  show Keeps _ _
  try extract_lets
  repeat' first
    | with_reducible assumption
    | with_reducible apply keeps_State_modVlv
    | with_reducible apply keeps_refuse
    | with_reducible apply keeps_vlvEvent
    | with_reducible apply keeps_finish
    | with_reducible apply Keeps.ite <;> intro _
    | (with_reducible refine Keeps.of_mk _ _ _ _ _ _ _ _ _ _ _ _ _ _ _ _ _ _ _ _ _ _ _ _ _ _ _ _ _ ?_ rfl rfl rfl rfl rfl rfl rfl rfl
       split)

theorem keeps_execValveDieOt (s : State) : OutKeeps s (execValveDieOt s) := by
  have h := Keeps.refl s
  unfold execValveDieOt
  show Keeps _ _
  try extract_lets
  repeat' first
    | with_reducible assumption
    | with_reducible apply Keeps.foldl
    | with_reducible apply keeps_logEvent
    | with_reducible apply keeps_bankOff
    | with_reducible apply Keeps.ite <;> intro _
    | intro _ _ _
    | (with_reducible refine Keeps.of_mk _ _ _ _ _ _ _ _ _ _ _ _ _ _ _ _ _ _ _ _ _ _ _ _ _ _ _ _ _ ?_ rfl rfl rfl rfl rfl rfl rfl rfl
       with_reducible assumption)

theorem keeps_execValveDieOtClear (s : State) : OutKeeps s (execValveDieOtClear s) := by
  have h := Keeps.refl s
  unfold execValveDieOtClear
  show Keeps _ _
  try extract_lets
  repeat' first
    | (with_reducible refine Keeps.of_mk _ _ _ _ _ _ _ _ _ _ _ _ _ _ _ _ _ _ _ _ _ _ _ _ _ _ _ _ _ ?_ rfl rfl rfl rfl rfl rfl rfl rfl
       with_reducible assumption)

end Sys2Proof.Machine
end

