-- ==== Sys2Proof/Laws/KeepsFacetEngine.lean ====
section
/-! SUPPORT. What the operations of Machine/FacetEngine.lean keep: the queue, the order of time and a sound state. -/

namespace Sys2Proof.Machine

set_option linter.unusedTactic false
set_option linter.unreachableTactic false

theorem keeps_slotDone (s : State) (n : Nat) {s0 : State}  (h : Keeps s0 s) :
    Keeps s0 (slotDone s n) := by
  unfold slotDone
  try extract_lets
  repeat' first
    | with_reducible assumption
    | with_reducible apply keeps_State_modCtx

theorem keeps_slotWait (s : State) (n : Nat) (w : FWait) {s0 : State}  (h : Keeps s0 s) :
    Keeps s0 (slotWait s n w) := by
  unfold slotWait
  try extract_lets
  repeat' first
    | with_reducible assumption
    | with_reducible apply keeps_State_modCtx

theorem keeps_setG (s : State) (n : Nat) (a : Nat) (v : BitVec 32) {s0 : State}  (h : Keeps s0 s) :
    Keeps s0 (setG s n a v) := by
  unfold setG
  try extract_lets
  repeat' first
    | with_reducible assumption
    | with_reducible apply keeps_State_modCtx

theorem keeps_setTarget (s : State) (n : Nat) (x : Nat) {s0 : State}  (h : Keeps s0 s) :
    Keeps s0 (setTarget s n x) := by
  unfold setTarget
  try extract_lets
  repeat' first
    | with_reducible assumption
    | with_reducible apply keeps_State_modCtx

theorem keeps_execFacetNop (ch : Fin 32) (s : State) : OutKeeps s (execFacetNop ch s) := by
  have h := Keeps.refl s
  unfold execFacetNop
  show Keeps _ _
  try extract_lets
  repeat' first
    | with_reducible assumption
    | with_reducible apply keeps_slotDone
    | (with_reducible refine Keeps.of_mk _ _ _ _ _ _ _ _ _ _ _ _ _ _ _ _ _ _ _ _ _ _ _ _ _ _ _ _ _ ?_ rfl rfl rfl rfl rfl rfl rfl rfl
       split)

theorem keeps_execPhase (ch : Fin 32) (s : State) : OutKeeps s (execPhase ch s) := by
  have h := Keeps.refl s
  unfold execPhase
  show Keeps _ _
  try extract_lets
  repeat' first
    | with_reducible assumption
    | with_reducible apply keeps_slotDone
    | with_reducible apply keeps_State_modCtx
    | with_reducible apply keeps_requestClaim
    | with_reducible apply keeps_releaseClaim
    | with_reducible apply keeps_State_modVlv
    | with_reducible apply Keeps.ite <;> intro _
    | (with_reducible refine Keeps.of_mk _ _ _ _ _ _ _ _ _ _ _ _ _ _ _ _ _ _ _ _ _ _ _ _ _ _ _ _ _ ?_ rfl rfl rfl rfl rfl rfl rfl rfl
       split)

theorem keeps_execSeti (ch : Fin 32) (s : State) : OutKeeps s (execSeti ch s) := by
  have h := Keeps.refl s
  unfold execSeti
  show Keeps _ _
  try extract_lets
  repeat' first
    | with_reducible assumption
    | with_reducible apply keeps_slotDone
    | with_reducible apply keeps_setTarget
    | (with_reducible refine Keeps.of_mk _ _ _ _ _ _ _ _ _ _ _ _ _ _ _ _ _ _ _ _ _ _ _ _ _ _ _ _ _ ?_ rfl rfl rfl rfl rfl rfl rfl rfl
       split)

theorem keeps_execSetr (ch : Fin 32) (s : State) : OutKeeps s (execSetr ch s) := by
  have h := Keeps.refl s
  unfold execSetr
  show Keeps _ _
  try extract_lets
  repeat' first
    | with_reducible assumption
    | with_reducible apply keeps_slotDone
    | with_reducible apply keeps_setTarget
    | (with_reducible refine Keeps.of_mk _ _ _ _ _ _ _ _ _ _ _ _ _ _ _ _ _ _ _ _ _ _ _ _ _ _ _ _ _ ?_ rfl rfl rfl rfl rfl rfl rfl rfl
       split)

theorem keeps_execFreq (ch : Fin 32) (s : State) : OutKeeps s (execFreq ch s) := by
  have h := Keeps.refl s
  unfold execFreq
  show Keeps _ _
  try extract_lets
  repeat' first
    | with_reducible assumption
    | with_reducible apply keeps_slotDone
    | with_reducible apply keeps_State_modCtx
    | (with_reducible refine Keeps.of_mk _ _ _ _ _ _ _ _ _ _ _ _ _ _ _ _ _ _ _ _ _ _ _ _ _ _ _ _ _ ?_ rfl rfl rfl rfl rfl rfl rfl rfl
       split)

theorem keeps_execWait (ch : Fin 32) (s : State) : OutKeeps s (execWait ch s) := by
  have h := Keeps.refl s
  unfold execWait
  show Keeps _ _
  try extract_lets
  repeat' first
    | with_reducible assumption
    | with_reducible apply keeps_slotWait
    | (with_reducible refine Keeps.of_mk _ _ _ _ _ _ _ _ _ _ _ _ _ _ _ _ _ _ _ _ _ _ _ _ _ _ _ _ _ ?_ rfl rfl rfl rfl rfl rfl rfl rfl
       split)

theorem keeps_execWaitr (ch : Fin 32) (s : State) : OutKeeps s (execWaitr ch s) := by
  have h := Keeps.refl s
  unfold execWaitr
  show Keeps _ _
  try extract_lets
  repeat' first
    | with_reducible assumption
    | with_reducible apply keeps_slotWait
    | (with_reducible refine Keeps.of_mk _ _ _ _ _ _ _ _ _ _ _ _ _ _ _ _ _ _ _ _ _ _ _ _ _ _ _ _ _ ?_ rfl rfl rfl rfl rfl rfl rfl rfl
       split)

theorem keeps_execWadd (ch : Fin 32) (s : State) : OutKeeps s (execWadd ch s) := by
  have h := Keeps.refl s
  unfold execWadd
  show Keeps _ _
  try extract_lets
  repeat' first
    | with_reducible assumption
    | with_reducible apply keeps_slotDone
    | with_reducible apply keeps_State_modCtx
    | (with_reducible refine Keeps.of_mk _ _ _ _ _ _ _ _ _ _ _ _ _ _ _ _ _ _ _ _ _ _ _ _ _ _ _ _ _ ?_ rfl rfl rfl rfl rfl rfl rfl rfl
       split)

theorem keeps_execWaddr (ch : Fin 32) (s : State) : OutKeeps s (execWaddr ch s) := by
  have h := Keeps.refl s
  unfold execWaddr
  show Keeps _ _
  try extract_lets
  repeat' first
    | with_reducible assumption
    | with_reducible apply keeps_slotDone
    | with_reducible apply keeps_State_modCtx
    | (with_reducible refine Keeps.of_mk _ _ _ _ _ _ _ _ _ _ _ _ _ _ _ _ _ _ _ _ _ _ _ _ _ _ _ _ _ ?_ rfl rfl rfl rfl rfl rfl rfl rfl
       split)

theorem keeps_execWaitw (ch : Fin 32) (s : State) : OutKeeps s (execWaitw ch s) := by
  have h := Keeps.refl s
  unfold execWaitw
  show Keeps _ _
  try extract_lets
  repeat' first
    | with_reducible assumption
    | with_reducible apply keeps_slotWait
    | with_reducible apply keeps_addShot
    | (with_reducible refine Keeps.of_mk _ _ _ _ _ _ _ _ _ _ _ _ _ _ _ _ _ _ _ _ _ _ _ _ _ _ _ _ _ ?_ rfl rfl rfl rfl rfl rfl rfl rfl
       split)

theorem keeps_execWaitc (ch : Fin 32) (s : State) : OutKeeps s (execWaitc ch s) := by
  have h := Keeps.refl s
  unfold execWaitc
  show Keeps _ _
  try extract_lets
  repeat' first
    | with_reducible assumption
    | with_reducible apply keeps_slotWait
    | (with_reducible refine Keeps.of_mk _ _ _ _ _ _ _ _ _ _ _ _ _ _ _ _ _ _ _ _ _ _ _ _ _ _ _ _ _ ?_ rfl rfl rfl rfl rfl rfl rfl rfl
       split)

theorem keeps_execWaits (ch : Fin 32) (s : State) : OutKeeps s (execWaits ch s) := by
  have h := Keeps.refl s
  unfold execWaits
  show Keeps _ _
  try extract_lets
  repeat' first
    | with_reducible assumption
    | with_reducible apply keeps_slotWait
    | (with_reducible refine Keeps.of_mk _ _ _ _ _ _ _ _ _ _ _ _ _ _ _ _ _ _ _ _ _ _ _ _ _ _ _ _ _ ?_ rfl rfl rfl rfl rfl rfl rfl rfl
       split)

theorem keeps_execSlopew (ch : Fin 32) (s : State) : OutKeeps s (execSlopew ch s) := by
  have h := Keeps.refl s
  unfold execSlopew
  show Keeps _ _
  try extract_lets
  repeat' first
    | with_reducible assumption
    | with_reducible apply keeps_slotDone
    | with_reducible apply keeps_State_modCtx
    | (with_reducible refine Keeps.of_mk _ _ _ _ _ _ _ _ _ _ _ _ _ _ _ _ _ _ _ _ _ _ _ _ _ _ _ _ _ ?_ rfl rfl rfl rfl rfl rfl rfl rfl
       split)

theorem keeps_execTmo (ch : Fin 32) (s : State) : OutKeeps s (execTmo ch s) := by
  have h := Keeps.refl s
  unfold execTmo
  show Keeps _ _
  try extract_lets
  repeat' first
    | with_reducible assumption
    | with_reducible apply keeps_slotDone
    | with_reducible apply keeps_State_modCtx
    | (with_reducible refine Keeps.of_mk _ _ _ _ _ _ _ _ _ _ _ _ _ _ _ _ _ _ _ _ _ _ _ _ _ _ _ _ _ ?_ rfl rfl rfl rfl rfl rfl rfl rfl
       split)

theorem keeps_execMovi (ch : Fin 32) (s : State) : OutKeeps s (execMovi ch s) := by
  have h := Keeps.refl s
  unfold execMovi
  show Keeps _ _
  try extract_lets
  repeat' first
    | with_reducible assumption
    | with_reducible apply keeps_slotDone
    | with_reducible apply keeps_setG
    | (with_reducible refine Keeps.of_mk _ _ _ _ _ _ _ _ _ _ _ _ _ _ _ _ _ _ _ _ _ _ _ _ _ _ _ _ _ ?_ rfl rfl rfl rfl rfl rfl rfl rfl
       split)

theorem keeps_execMov (ch : Fin 32) (s : State) : OutKeeps s (execMov ch s) := by
  have h := Keeps.refl s
  unfold execMov
  show Keeps _ _
  try extract_lets
  repeat' first
    | with_reducible assumption
    | with_reducible apply keeps_slotDone
    | with_reducible apply keeps_setG
    | (with_reducible refine Keeps.of_mk _ _ _ _ _ _ _ _ _ _ _ _ _ _ _ _ _ _ _ _ _ _ _ _ _ _ _ _ _ ?_ rfl rfl rfl rfl rfl rfl rfl rfl
       split)

theorem keeps_execAdd (ch : Fin 32) (s : State) : OutKeeps s (execAdd ch s) := by
  have h := Keeps.refl s
  unfold execAdd
  show Keeps _ _
  try extract_lets
  repeat' first
    | with_reducible assumption
    | with_reducible apply keeps_slotDone
    | with_reducible apply keeps_setG
    | (with_reducible refine Keeps.of_mk _ _ _ _ _ _ _ _ _ _ _ _ _ _ _ _ _ _ _ _ _ _ _ _ _ _ _ _ _ ?_ rfl rfl rfl rfl rfl rfl rfl rfl
       split)

theorem keeps_execAddi (ch : Fin 32) (s : State) : OutKeeps s (execAddi ch s) := by
  have h := Keeps.refl s
  unfold execAddi
  show Keeps _ _
  try extract_lets
  repeat' first
    | with_reducible assumption
    | with_reducible apply keeps_slotDone
    | with_reducible apply keeps_setG
    | (with_reducible refine Keeps.of_mk _ _ _ _ _ _ _ _ _ _ _ _ _ _ _ _ _ _ _ _ _ _ _ _ _ _ _ _ _ ?_ rfl rfl rfl rfl rfl rfl rfl rfl
       split)

theorem keeps_execSub (ch : Fin 32) (s : State) : OutKeeps s (execSub ch s) := by
  have h := Keeps.refl s
  unfold execSub
  show Keeps _ _
  try extract_lets
  repeat' first
    | with_reducible assumption
    | with_reducible apply keeps_slotDone
    | with_reducible apply keeps_setG
    | (with_reducible refine Keeps.of_mk _ _ _ _ _ _ _ _ _ _ _ _ _ _ _ _ _ _ _ _ _ _ _ _ _ _ _ _ _ ?_ rfl rfl rfl rfl rfl rfl rfl rfl
       split)

theorem keeps_execShf (ch : Fin 32) (s : State) : OutKeeps s (execShf ch s) := by
  have h := Keeps.refl s
  unfold execShf
  show Keeps _ _
  try extract_lets
  repeat' first
    | with_reducible assumption
    | with_reducible apply keeps_slotDone
    | with_reducible apply keeps_setG
    | (with_reducible refine Keeps.of_mk _ _ _ _ _ _ _ _ _ _ _ _ _ _ _ _ _ _ _ _ _ _ _ _ _ _ _ _ _ ?_ rfl rfl rfl rfl rfl rfl rfl rfl
       split)

theorem keeps_execLdc (ch : Fin 32) (s : State) : OutKeeps s (execLdc ch s) := by
  have h := Keeps.refl s
  unfold execLdc
  show Keeps _ _
  try extract_lets
  repeat' first
    | with_reducible assumption
    | with_reducible apply keeps_slotDone
    | with_reducible apply keeps_setG
    | (with_reducible refine Keeps.of_mk _ _ _ _ _ _ _ _ _ _ _ _ _ _ _ _ _ _ _ _ _ _ _ _ _ _ _ _ _ ?_ rfl rfl rfl rfl rfl rfl rfl rfl
       split)

theorem keeps_execRd (ch : Fin 32) (measured : BitVec 32) (s : State) : OutKeeps s (execRd ch measured s) := by
  have h := Keeps.refl s
  unfold execRd
  show Keeps _ _
  try extract_lets
  repeat' first
    | with_reducible assumption
    | with_reducible apply keeps_slotDone
    | with_reducible apply keeps_setG
    | (with_reducible refine Keeps.of_mk _ _ _ _ _ _ _ _ _ _ _ _ _ _ _ _ _ _ _ _ _ _ _ _ _ _ _ _ _ ?_ rfl rfl rfl rfl rfl rfl rfl rfl
       split)

theorem keeps_execBr (ch : Fin 32) (s : State) : OutKeeps s (execBr ch s) := by
  have h := Keeps.refl s
  unfold execBr
  show Keeps _ _
  try extract_lets
  repeat' first
    | with_reducible assumption
    | with_reducible apply keeps_slotDone
    | with_reducible apply keeps_State_modCtx
    | with_reducible apply Keeps.ite <;> intro _
    | (with_reducible refine Keeps.of_mk _ _ _ _ _ _ _ _ _ _ _ _ _ _ _ _ _ _ _ _ _ _ _ _ _ _ _ _ _ ?_ rfl rfl rfl rfl rfl rfl rfl rfl
       split)

theorem keeps_execFaultOp (ch : Fin 32) (s : State) : OutKeeps s (execFaultOp ch s) := by
  have h := Keeps.refl s
  unfold execFaultOp
  show Keeps _ _
  try extract_lets
  repeat' first
    | with_reducible assumption
    | with_reducible apply keeps_slotDone
    | with_reducible apply keeps_vlvEvent
    | with_reducible apply keeps_State_modVlv
    | with_reducible apply keeps_logEvent
    | with_reducible apply keeps_State_modCtx
    | with_reducible apply keeps_quench
    | with_reducible apply keeps_stopCtx
    | (with_reducible refine Keeps.of_mk _ _ _ _ _ _ _ _ _ _ _ _ _ _ _ _ _ _ _ _ _ _ _ _ _ _ _ _ _ ?_ rfl rfl rfl rfl rfl rfl rfl rfl
       split)

theorem keeps_execRept (ch : Fin 32) (s : State) : OutKeeps s (execRept ch s) := by
  have h := Keeps.refl s
  unfold execRept
  show Keeps _ _
  try extract_lets
  repeat' first
    | with_reducible assumption
    | with_reducible apply keeps_slotDone
    | with_reducible apply keeps_State_modCtx
    | with_reducible apply keeps_logEvent
    | with_reducible apply Keeps.ite <;> intro _
    | (with_reducible refine Keeps.of_mk _ _ _ _ _ _ _ _ _ _ _ _ _ _ _ _ _ _ _ _ _ _ _ _ _ _ _ _ _ ?_ rfl rfl rfl rfl rfl rfl rfl rfl
       split)

theorem keeps_execEndOp (ch : Fin 32) (s : State) : OutKeeps s (execEndOp ch s) := by
  have h := Keeps.refl s
  unfold execEndOp
  show Keeps _ _
  try extract_lets
  repeat' first
    | with_reducible assumption
    | with_reducible apply keeps_releaseClaim
    | with_reducible apply keeps_slotWait
    | with_reducible apply keeps_State_modCtx
    | (with_reducible refine Keeps.of_mk _ _ _ _ _ _ _ _ _ _ _ _ _ _ _ _ _ _ _ _ _ _ _ _ _ _ _ _ _ ?_ rfl rfl rfl rfl rfl rfl rfl rfl
       split)

theorem keeps_execTimeWaitEnd (ch : Fin 32) (s : State) : OutKeeps s (execTimeWaitEnd ch s) := by
  have h := Keeps.refl s
  unfold execTimeWaitEnd
  show Keeps _ _
  try extract_lets
  repeat' first
    | with_reducible assumption
    | with_reducible apply Keeps.reach
    | with_reducible apply keeps_State_modCtx
    | (with_reducible refine Keeps.of_mk _ _ _ _ _ _ _ _ _ _ _ _ _ _ _ _ _ _ _ _ _ _ _ _ _ _ _ _ _ ?_ rfl rfl rfl rfl rfl rfl rfl rfl
       split)

theorem keeps_execWeaveWaitEnd (ch : Fin 32) (s : State) : OutKeeps s (execWeaveWaitEnd ch s) := by
  have h := Keeps.refl s
  unfold execWeaveWaitEnd
  show Keeps _ _
  try extract_lets
  repeat' first
    | with_reducible assumption
    | with_reducible apply Keeps.reachWeave
    | with_reducible apply keeps_State_modCtx
    | (with_reducible refine Keeps.of_mk _ _ _ _ _ _ _ _ _ _ _ _ _ _ _ _ _ _ _ _ _ _ _ _ _ _ _ _ _ ?_ rfl rfl rfl rfl rfl rfl rfl rfl
       split)

theorem keeps_execConditionWaitMet (ch : Fin 32) (samples : List Int) (s : State) : OutKeeps s (execConditionWaitMet ch samples s) := by
  have h := Keeps.refl s
  unfold execConditionWaitMet
  show Keeps _ _
  try extract_lets
  repeat' first
    | with_reducible assumption
    | with_reducible apply keeps_State_modCtx
    | with_reducible apply Keeps.ite <;> intro _
    | (with_reducible refine Keeps.of_mk _ _ _ _ _ _ _ _ _ _ _ _ _ _ _ _ _ _ _ _ _ _ _ _ _ _ _ _ _ ?_ rfl rfl rfl rfl rfl rfl rfl rfl
       split)

theorem keeps_execConditionWaitTimeout (ch : Fin 32) (s : State) : OutKeeps s (execConditionWaitTimeout ch s) := by
  have h := Keeps.refl s
  unfold execConditionWaitTimeout
  show Keeps _ _
  try extract_lets
  repeat' first
    | with_reducible assumption
    | with_reducible apply Keeps.reach
    | with_reducible apply keeps_State_modCtx
    | (with_reducible refine Keeps.of_mk _ _ _ _ _ _ _ _ _ _ _ _ _ _ _ _ _ _ _ _ _ _ _ _ _ _ _ _ _ ?_ rfl rfl rfl rfl rfl rfl rfl rfl
       split)

theorem keeps_execContextEnd (ch : Fin 32) (s : State) : OutKeeps s (execContextEnd ch s) := by
  have h := Keeps.refl s
  unfold execContextEnd
  show Keeps _ _
  try extract_lets
  repeat' first
    | with_reducible assumption
    | with_reducible apply keeps_State_modCtx
    | with_reducible apply keeps_State_modVlv
    | with_reducible apply keeps_State_modBank
    | with_reducible apply Keeps.ite <;> intro _

theorem keeps_execRunaway (ch : Fin 32) (s : State) : OutKeeps s (execRunaway ch s) := by
  have h := Keeps.refl s
  unfold execRunaway
  show Keeps _ _
  try extract_lets
  repeat' first
    | with_reducible assumption
    | with_reducible apply keeps_logEvent
    | with_reducible apply keeps_State_modCtx
    | with_reducible apply keeps_stopCtx
    | with_reducible apply Keeps.ite <;> intro _

theorem keeps_execPeakTimeLimit (ch : Fin 32) (s : State) : OutKeeps s (execPeakTimeLimit ch s) := by
  have h := Keeps.refl s
  unfold execPeakTimeLimit
  show Keeps _ _
  try extract_lets
  repeat' first
    | with_reducible assumption
    | with_reducible apply keeps_logEvent
    | with_reducible apply keeps_State_modCtx
    | with_reducible apply Keeps.ite <;> intro _

theorem keeps_checkFails (s : State) (e : Nat) {s0 : State}  (h : Keeps s0 s) :
    Keeps s0 (checkFails s e) := by
  unfold checkFails
  try extract_lets
  repeat' first
    | with_reducible assumption
    | with_reducible apply Keeps.foldl
    | with_reducible apply keeps_logEvent
    | with_reducible apply keeps_stopCtx
    | with_reducible apply keeps_State_modCtx
    | with_reducible apply Keeps.ite <;> intro _
    | intro _ _ _
    | (with_reducible refine Keeps.of_mk _ _ _ _ _ _ _ _ _ _ _ _ _ _ _ _ _ _ _ _ _ _ _ _ _ _ _ _ _ ?_ rfl rfl rfl rfl rfl rfl rfl rfl
       with_reducible assumption)

theorem keeps_execProgramCheck (eng : Fin 8) (ok : Bool) (s : State) : OutKeeps s (execProgramCheck eng ok s) := by
  have h := Keeps.refl s
  unfold execProgramCheck
  show Keeps _ _
  try extract_lets
  repeat' first
    | with_reducible assumption
    | with_reducible apply keeps_checkFails
    | with_reducible apply Keeps.ite <;> intro _
    | (with_reducible refine Keeps.of_mk _ _ _ _ _ _ _ _ _ _ _ _ _ _ _ _ _ _ _ _ _ _ _ _ _ _ _ _ _ ?_ rfl rfl rfl rfl rfl rfl rfl rfl
       first
         | with_reducible assumption
         | split
      )

theorem keeps_actFacetLoad (mask : BitVec 8) (a : Act) (s : State) {s0 : State}  (h : Keeps s0 s) :
    Keeps s0 (actFacetLoad mask a s) := by
  unfold actFacetLoad
  try extract_lets
  repeat' first
    | with_reducible assumption
    | with_reducible apply keeps_refuse
    | with_reducible apply keeps_loadBank
    | with_reducible apply keeps_finish
    | with_reducible apply Keeps.ite <;> intro _
    | intro _ _ _
    | (with_reducible refine Keeps.of_mk _ _ _ _ _ _ _ _ _ _ _ _ _ _ _ _ _ _ _ _ _ _ _ _ _ _ _ _ _ ?_ rfl rfl rfl rfl rfl rfl rfl rfl
       first
         | with_reducible apply Keeps.foldl
         | split
      )

theorem keeps_execFacetLoad (d : Desc) (mask : BitVec 8) (s : State) : OutKeeps s (execFacetLoad d mask s) := by
  have h := Keeps.refl s
  unfold execFacetLoad
  show Keeps _ _
  repeat' first
    | with_reducible assumption
    | with_reducible apply keeps_accept
    | with_reducible apply keeps_actFacetLoad
    | intro _ _ _

theorem keeps_actFacetVerify (mask : BitVec 8) (a : Act) (s : State) {s0 : State}  (h : Keeps s0 s) :
    Keeps s0 (actFacetVerify mask a s) := by
  unfold actFacetVerify
  try extract_lets
  repeat' first
    | with_reducible assumption
    | with_reducible apply Keeps.foldl
    | with_reducible apply keeps_finish
    | with_reducible apply keeps_finishAs
    | with_reducible apply keeps_checkFails
    | with_reducible apply Keeps.ite <;> intro _
    | intro _ _ _

theorem keeps_execFacetVerify (d : Desc) (mask : BitVec 8) (s : State) : OutKeeps s (execFacetVerify d mask s) := by
  have h := Keeps.refl s
  unfold execFacetVerify
  show Keeps _ _
  repeat' first
    | with_reducible assumption
    | with_reducible apply keeps_accept
    | with_reducible apply keeps_actFacetVerify
    | intro _ _ _

theorem keeps_actFacetPeek (ch : BitVec 5) (reg : BitVec 4) (a : Act) (s : State) {s0 : State}  (h : Keeps s0 s) :
    Keeps s0 (actFacetPeek ch reg a s) := by
  unfold actFacetPeek
  repeat' first
    | with_reducible assumption
    | with_reducible apply keeps_finish

theorem keeps_execFacetPeek (d : Desc) (ch : BitVec 5) (reg : BitVec 4) (s : State) : OutKeeps s (execFacetPeek d ch reg s) := by
  have h := Keeps.refl s
  unfold execFacetPeek
  show Keeps _ _
  repeat' first
    | with_reducible assumption
    | with_reducible apply keeps_accept
    | with_reducible apply keeps_actFacetPeek
    | intro _ _ _

end Sys2Proof.Machine
end

