-- ==== Sys2Proof/Laws/KeepsFioOps.lean ====
section
/-! SUPPORT. What the operations of Machine/FioOps.lean keep: the queue, the order of time and a sound state. -/

namespace Sys2Proof.Machine

set_option linter.unusedTactic false
set_option linter.unreachableTactic false

theorem keeps_State_modFio (s : State) (n : Nat) (f : FioCh → FioCh) {s0 : State}  (h : Keeps s0 s) :
    Keeps s0 (State.modFio s n f) := by
  unfold State.modFio
  try extract_lets
  repeat' first
    | (with_reducible refine Keeps.of_mk _ _ _ _ _ _ _ _ _ _ _ _ _ _ _ _ _ _ _ _ _ _ _ _ _ _ _ _ _ ?_ rfl rfl rfl rfl rfl rfl rfl rfl
       with_reducible assumption)

theorem keeps_unheldFio (s : State) (n : Nat) {s0 : State}  (h : Keeps s0 s) :
    Keeps s0 (unheldFio s n) := by
  unfold unheldFio
  try extract_lets
  repeat' first
    | (with_reducible refine Keeps.of_mk _ _ _ _ _ _ _ _ _ _ _ _ _ _ _ _ _ _ _ _ _ _ _ _ _ _ _ _ _ ?_ rfl rfl rfl rfl rfl rfl rfl rfl
       with_reducible assumption)

theorem keeps_fioOff (s : State) (n : Nat) (st : BitVec 3) {s0 : State}  (h : Keeps s0 s) :
    Keeps s0 (fioOff s n st) := by
  unfold fioOff
  try extract_lets
  repeat' first
    | with_reducible assumption
    | with_reducible apply keeps_planOff
    | with_reducible apply keeps_State_modFio

theorem keeps_fioDrive (s : State) (n : Nat) (phase : Nat) (launch : Bool) {s0 : State}  (h : Keeps s0 s) :
    Keeps s0 (fioDrive s n phase launch) := by
  unfold fioDrive
  try extract_lets
  repeat' first
    | with_reducible assumption
    | with_reducible apply keeps_State_modFio
    | with_reducible apply keeps_fioOff
    | with_reducible apply keeps_planOff
    | with_reducible apply keeps_planOn
    | with_reducible apply Keeps.ite <;> intro _

theorem keeps_fioApply (s : State) (n : Nat) (duty : Nat) (phase : Nat) (launch : Bool) {s0 : State}  (h : Keeps s0 s) :
    Keeps s0 (fioApply s n duty phase launch) := by
  unfold fioApply
  try extract_lets
  repeat' first
    | with_reducible assumption
    | with_reducible apply keeps_unheldFio
    | with_reducible apply keeps_State_modFio
    | with_reducible apply keeps_fioOff
    | with_reducible apply keeps_fioDrive
    | with_reducible apply Keeps.ite <;> intro _

theorem keeps_eachFio (s : State) (f : State → Nat → State) {s0 : State} (h_f : ∀ y0 y1, Keeps s0 y0 → Keeps s0 (f y0 y1)) (h : Keeps s0 s) :
    Keeps s0 (eachFio s f) := by
  unfold eachFio
  repeat' first
    | with_reducible assumption
    | with_reducible apply Keeps.foldl

theorem keeps_fioIdle (s : State) (n : Nat) {s0 : State}  (h : Keeps s0 s) :
    Keeps s0 (fioIdle s n) := by
  unfold fioIdle
  try extract_lets
  repeat' first
    | with_reducible assumption
    | with_reducible apply keeps_fioOff
    | with_reducible apply keeps_unheldFio
    | with_reducible apply keeps_State_modFio

theorem keeps_fioHold (s : State) {s0 : State}  (h : Keeps s0 s) :
    Keeps s0 (fioHold s) := by
  unfold fioHold
  try extract_lets
  repeat' first
    | with_reducible assumption
    | with_reducible apply keeps_eachFio
    | with_reducible apply keeps_State_modFio
    | with_reducible apply Keeps.ite <;> intro _
    | intro _ _ _
    | (with_reducible refine Keeps.of_mk _ _ _ _ _ _ _ _ _ _ _ _ _ _ _ _ _ _ _ _ _ _ _ _ _ _ _ _ _ ?_ rfl rfl rfl rfl rfl rfl rfl rfl
       with_reducible apply keeps_State_modFio)

theorem keeps_fioPark (s : State) {s0 : State}  (h : Keeps s0 s) :
    Keeps s0 (fioPark s) := by
  unfold fioPark
  try extract_lets
  repeat' first
    | with_reducible assumption
    | with_reducible apply keeps_fioIdle
    | with_reducible apply keeps_fioHold
    | with_reducible apply Keeps.ite <;> intro _
    | intro _ _ _
    | (with_reducible refine Keeps.of_mk _ _ _ _ _ _ _ _ _ _ _ _ _ _ _ _ _ _ _ _ _ _ _ _ _ _ _ _ _ ?_ rfl rfl rfl rfl rfl rfl rfl rfl
       with_reducible apply keeps_eachFio)

theorem keeps_fioAllOff (s : State) {s0 : State}  (h : Keeps s0 s) :
    Keeps s0 (fioAllOff s) := by
  unfold fioAllOff
  try extract_lets
  repeat' first
    | with_reducible assumption
    | with_reducible apply keeps_fioIdle
    | intro _ _ _
    | (with_reducible refine Keeps.of_mk _ _ _ _ _ _ _ _ _ _ _ _ _ _ _ _ _ _ _ _ _ _ _ _ _ _ _ _ _ ?_ rfl rfl rfl rfl rfl rfl rfl rfl
       with_reducible apply keeps_eachFio)

theorem keeps_fioClaims (s : State) {s0 : State}  (h : Keeps s0 s) :
    Keeps s0 (fioClaims s) := by
  unfold fioClaims
  try extract_lets
  repeat' first
    | with_reducible assumption
    | with_reducible apply keeps_eachFio
    | with_reducible apply keeps_fioIdle
    | with_reducible apply keeps_State_modFio
    | with_reducible apply Keeps.ite <;> intro _
    | intro _ _ _

theorem keeps_fioRoad (s : State) {s0 : State}  (h : Keeps s0 s) :
    Keeps s0 (fioRoad s) := by
  unfold fioRoad
  repeat' first
    | with_reducible assumption
    | with_reducible apply keeps_eachFio
    | with_reducible apply keeps_unheldFio
    | with_reducible apply keeps_fioIdle
    | with_reducible apply Keeps.ite <;> intro _
    | intro _ _ _

theorem keeps_fioOrphan1 (s : State) (n : Nat) {s0 : State}  (h : Keeps s0 s) :
    Keeps s0 (fioOrphan1 s n) := by
  unfold fioOrphan1
  try extract_lets
  repeat' first
    | with_reducible assumption
    | with_reducible apply keeps_fioOff
    | with_reducible apply keeps_State_modFio
    | with_reducible apply Keeps.ite <;> intro _
    | (with_reducible refine Keeps.of_mk _ _ _ _ _ _ _ _ _ _ _ _ _ _ _ _ _ _ _ _ _ _ _ _ _ _ _ _ _ ?_ rfl rfl rfl rfl rfl rfl rfl rfl
       split)

theorem keeps_fioReclaim (s : State) (n : Nat) {s0 : State}  (h : Keeps s0 s) :
    Keeps s0 (fioReclaim s n) := by
  unfold fioReclaim
  try extract_lets
  repeat' first
    | with_reducible assumption
    | with_reducible apply keeps_unheldFio
    | with_reducible apply keeps_State_modFio
    | with_reducible apply keeps_State_takeNat
    | with_reducible apply keeps_planOn
    | with_reducible apply Keeps.ite <;> intro _

theorem keeps_fioPause (s : State) {s0 : State}  (h : Keeps s0 s) :
    Keeps s0 (fioPause s) := by
  unfold fioPause
  try extract_lets
  repeat' first
    | with_reducible assumption
    | with_reducible apply keeps_eachFio
    | with_reducible apply keeps_fioOff
    | with_reducible apply keeps_State_modFio
    | with_reducible apply Keeps.ite <;> intro _
    | intro _ _ _

theorem keeps_fioFrame (s : State) {s0 : State}  (h : Keeps s0 s) :
    Keeps s0 (fioFrame s) := by
  unfold fioFrame
  repeat' first
    | with_reducible assumption
    | with_reducible apply keeps_eachFio
    | with_reducible apply keeps_fioDrive
    | with_reducible apply Keeps.ite <;> intro _
    | intro _ _ _

end Sys2Proof.Machine
end

