-- ==== Sys2Proof/Laws/KeepsFio.lean ====
section
/-! SUPPORT. What the operations of Machine/Fio.lean keep: the queue, the order of time and a sound state. -/

namespace Sys2Proof.Machine

set_option linter.unusedTactic false
set_option linter.unreachableTactic false

theorem keeps_fioEnter (slot : Nat) (duty : Nat) (s : State) (n : Nat) {s0 : State}  (h : Keeps s0 s) :
    Keeps s0 (fioEnter slot duty s n) := by
  unfold fioEnter
  repeat' first
    | with_reducible assumption
    | with_reducible apply keeps_addShot
    | with_reducible apply keeps_planOn
    | with_reducible apply Keeps.ite <;> intro _

theorem keeps_fioPlan (s : State) (a : Act) (chans : List Nat) (duty : Nat) {s0 : State}  (h : Keeps s0 s) :
    Keeps s0 (fioPlan s a chans duty) := by
  unfold fioPlan
  try extract_lets
  repeat' first
    | with_reducible assumption
    | with_reducible apply Keeps.foldl
    | with_reducible apply keeps_finish
    | with_reducible apply keeps_fioApply
    | with_reducible apply keeps_fioEnter
    | with_reducible apply keeps_replan
    | with_reducible apply keeps_overPlan
    | with_reducible apply Keeps.ite <;> intro _
    | intro _ _ _
    | (with_reducible refine Keeps.of_mk _ _ _ _ _ _ _ _ _ _ _ _ _ _ _ _ _ _ _ _ _ _ _ _ _ _ _ _ _ ?_ rfl rfl rfl rfl rfl rfl rfl rfl
       first
         | with_reducible assumption
         | split
      )

theorem keeps_fioFire (s : State) (a : Act) (chans : List Nat) (duty : Nat) {s0 : State}  (h : Keeps s0 s) :
    Keeps s0 (fioFire s a chans duty) := by
  unfold fioFire
  try extract_lets
  repeat' first
    | with_reducible assumption
    | with_reducible apply Keeps.foldl
    | with_reducible apply keeps_addShot
    | with_reducible apply keeps_fioApply
    | with_reducible apply keeps_finish
    | with_reducible apply keeps_replan
    | with_reducible apply Keeps.ite <;> intro _
    | intro _ _ _

theorem keeps_actFioSet (ch : BitVec 6) (duty : BitVec 13) (a : Act) (s : State) {s0 : State}  (h : Keeps s0 s) :
    Keeps s0 (actFioSet ch duty a s) := by
  unfold actFioSet
  try extract_lets
  repeat' first
    | with_reducible assumption
    | with_reducible apply keeps_refuse
    | with_reducible apply keeps_fioFire
    | with_reducible apply keeps_fioPlan
    | with_reducible apply Keeps.ite <;> intro _

theorem keeps_execFioSet (d : Desc) (ch : BitVec 6) (duty : BitVec 13) (s : State) : OutKeeps s (execFioSet d ch duty s) := by
  have h := Keeps.refl s
  unfold execFioSet
  show Keeps _ _
  repeat' first
    | with_reducible assumption
    | with_reducible apply keeps_accept
    | with_reducible apply keeps_actFioSet
    | intro _ _ _

theorem keeps_actFioMulti (mask : BitVec 64) (duty : BitVec 13) (a : Act) (s : State) {s0 : State}  (h : Keeps s0 s) :
    Keeps s0 (actFioMulti mask duty a s) := by
  unfold actFioMulti
  try extract_lets
  repeat' first
    | with_reducible assumption
    | with_reducible apply keeps_refuse
    | with_reducible apply keeps_fioFire
    | with_reducible apply keeps_fioPlan
    | with_reducible apply Keeps.ite <;> intro _
    | (with_reducible refine Keeps.of_mk _ _ _ _ _ _ _ _ _ _ _ _ _ _ _ _ _ _ _ _ _ _ _ _ _ _ _ _ _ ?_ rfl rfl rfl rfl rfl rfl rfl rfl
       split)

theorem keeps_execFioMulti (d : Desc) (mask : BitVec 64) (duty : BitVec 13) (s : State) : OutKeeps s (execFioMulti d mask duty s) := by
  have h := Keeps.refl s
  unfold execFioMulti
  show Keeps _ _
  repeat' first
    | with_reducible assumption
    | with_reducible apply keeps_accept
    | with_reducible apply keeps_actFioMulti
    | intro _ _ _

theorem keeps_actFioClear (ch : BitVec 6) (a : Act) (s : State) {s0 : State}  (h : Keeps s0 s) :
    Keeps s0 (actFioClear ch a s) := by
  unfold actFioClear
  try extract_lets
  repeat' first
    | with_reducible assumption
    | with_reducible apply keeps_refuse
    | with_reducible apply keeps_State_modFio
    | with_reducible apply keeps_finish
    | with_reducible apply keeps_fioOff
    | with_reducible apply Keeps.ite <;> intro _

theorem keeps_execFioClear (d : Desc) (ch : BitVec 6) (s : State) : OutKeeps s (execFioClear d ch s) := by
  have h := Keeps.refl s
  unfold execFioClear
  show Keeps _ _
  repeat' first
    | with_reducible assumption
    | with_reducible apply keeps_accept
    | with_reducible apply keeps_actFioClear
    | intro _ _ _

theorem keeps_actFioRead (ch : BitVec 6) (a : Act) (s : State) {s0 : State}  (h : Keeps s0 s) :
    Keeps s0 (actFioRead ch a s) := by
  unfold actFioRead
  repeat' first
    | with_reducible assumption
    | with_reducible apply keeps_refuse
    | with_reducible apply keeps_finish
    | with_reducible apply Keeps.ite <;> intro _

theorem keeps_execFioRead (d : Desc) (ch : BitVec 6) (s : State) : OutKeeps s (execFioRead d ch s) := by
  have h := Keeps.refl s
  unfold execFioRead
  show Keeps _ _
  repeat' first
    | with_reducible assumption
    | with_reducible apply keeps_accept
    | with_reducible apply keeps_actFioRead
    | intro _ _ _

theorem keeps_execOutputCurrentLimitTrip (pin : Fin 48) (s : State) : OutKeeps s (execOutputCurrentLimitTrip pin s) := by
  have h := Keeps.refl s
  unfold execOutputCurrentLimitTrip
  show Keeps _ _
  try extract_lets
  repeat' first
    | with_reducible assumption
    | with_reducible apply keeps_logEvent
    | with_reducible apply keeps_State_modFio
    | with_reducible apply keeps_fioOff
    | with_reducible apply Keeps.ite <;> intro _

theorem keeps_execOutputRetry (pin : Fin 48) (s : State) : OutKeeps s (execOutputRetry pin s) := by
  have h := Keeps.refl s
  unfold execOutputRetry
  show Keeps _ _
  try extract_lets
  repeat' first
    | with_reducible assumption
    | with_reducible apply Keeps.reach
    | with_reducible apply keeps_State_modFio
    | with_reducible apply keeps_fioDrive
    | with_reducible apply Keeps.ite <;> intro _
    | (with_reducible refine Keeps.of_mk _ _ _ _ _ _ _ _ _ _ _ _ _ _ _ _ _ _ _ _ _ _ _ _ _ _ _ _ _ ?_ rfl rfl rfl rfl rfl rfl rfl rfl
       split)

theorem keeps_execOutputOt (pin : Fin 48) (hot : Bool) (s : State) : OutKeeps s (execOutputOt pin hot s) := by
  have h := Keeps.refl s
  unfold execOutputOt
  show Keeps _ _
  try extract_lets
  repeat' first
    | with_reducible assumption
    | with_reducible apply keeps_fioOff
    | with_reducible apply keeps_logEvent
    | with_reducible apply keeps_State_modFio
    | with_reducible apply keeps_fioDrive
    | with_reducible apply Keeps.ite <;> intro _

theorem keeps_execOutputOpenLoad (pin : Fin 48) (below : Bool) (s : State) : OutKeeps s (execOutputOpenLoad pin below s) := by
  have h := Keeps.refl s
  unfold execOutputOpenLoad
  show Keeps _ _
  try extract_lets
  repeat' first
    | with_reducible assumption
    | with_reducible apply keeps_State_modFio
    | with_reducible apply keeps_logEvent
    | with_reducible apply Keeps.ite <;> intro _

end Sys2Proof.Machine
end

