-- ==== Sys2Proof/Laws/KeepsHsoOps.lean ====
section
/-! SUPPORT. What the operations of Machine/HsoOps.lean keep: the queue, the order of time and a sound state. -/

namespace Sys2Proof.Machine

set_option linter.unusedTactic false
set_option linter.unreachableTactic false

theorem keeps_State_modHso (s : State) (ch : Nat) (f : HsoCh → HsoCh) {s0 : State}  (h : Keeps s0 s) :
    Keeps s0 (State.modHso s ch f) := by
  unfold State.modHso
  try extract_lets
  repeat' first
    | (with_reducible refine Keeps.of_mk _ _ _ _ _ _ _ _ _ _ _ _ _ _ _ _ _ _ _ _ _ _ _ _ _ _ _ _ _ ?_ rfl rfl rfl rfl rfl rfl rfl rfl
       with_reducible assumption)

theorem keeps_State_modGrp (s : State) (g : Nat) (f : HsoGrp → HsoGrp) {s0 : State}  (h : Keeps s0 s) :
    Keeps s0 (State.modGrp s g f) := by
  unfold State.modGrp
  try extract_lets
  repeat' first
    | (with_reducible refine Keeps.of_mk _ _ _ _ _ _ _ _ _ _ _ _ _ _ _ _ _ _ _ _ _ _ _ _ _ _ _ _ _ ?_ rfl rfl rfl rfl rfl rfl rfl rfl
       with_reducible assumption)

theorem keeps_unheldHso (s : State) (ch : Nat) {s0 : State}  (h : Keeps s0 s) :
    Keeps s0 (unheldHso s ch) := by
  unfold unheldHso
  try extract_lets
  repeat' first
    | (with_reducible refine Keeps.of_mk _ _ _ _ _ _ _ _ _ _ _ _ _ _ _ _ _ _ _ _ _ _ _ _ _ _ _ _ _ ?_ rfl rfl rfl rfl rfl rfl rfl rfl
       with_reducible assumption)

theorem keeps_hsoOff (s : State) (ch : Nat) (st : HsoSt) {s0 : State}  (h : Keeps s0 s) :
    Keeps s0 (hsoOff s ch st) := by
  unfold hsoOff
  try extract_lets
  repeat' first
    | with_reducible assumption
    | with_reducible apply keeps_planOff
    | with_reducible apply keeps_State_modHso

theorem keeps_endTest (s : State) (ch : Nat) {s0 : State}  (h : Keeps s0 s) :
    Keeps s0 (endTest s ch) := by
  unfold endTest
  try extract_lets
  repeat' first
    | with_reducible assumption
    | with_reducible apply keeps_refuse
    | (with_reducible refine Keeps.of_mk _ _ _ _ _ _ _ _ _ _ _ _ _ _ _ _ _ _ _ _ _ _ _ _ _ _ _ _ _ ?_ rfl rfl rfl rfl rfl rfl rfl rfl
       split)

theorem keeps_hsoTurn (s : State) (ch : Nat) (st : HsoSt) (duty : Nat) {s0 : State}  (h : Keeps s0 s) :
    Keeps s0 (hsoTurn s ch st duty) := by
  unfold hsoTurn
  try extract_lets
  repeat' first
    | with_reducible assumption
    | with_reducible apply keeps_endTest
    | with_reducible apply keeps_State_modHso

theorem keeps_hsoDrive (s : State) (ch : Nat) (phase : Nat) (launch : Bool) {s0 : State}  (h : Keeps s0 s) :
    Keeps s0 (hsoDrive s ch phase launch) := by
  unfold hsoDrive
  try extract_lets
  repeat' first
    | with_reducible assumption
    | with_reducible apply keeps_hsoOff
    | with_reducible apply keeps_State_modHso
    | with_reducible apply keeps_planOff
    | with_reducible apply keeps_hsoTurn
    | with_reducible apply keeps_planOn
    | (with_reducible refine Keeps.of_mk _ _ _ _ _ _ _ _ _ _ _ _ _ _ _ _ _ _ _ _ _ _ _ _ _ _ _ _ _ ?_ rfl rfl rfl rfl rfl rfl rfl rfl
       split)

theorem keeps_hsoApply (s : State) (ch : Nat) (st : Nat) (duty : Nat) (phase : Nat) (launch : Bool) {s0 : State}  (h : Keeps s0 s) :
    Keeps s0 (hsoApply s ch st duty phase launch) := by
  unfold hsoApply
  try extract_lets
  repeat' first
    | with_reducible assumption
    | with_reducible apply keeps_unheldHso
    | with_reducible apply keeps_State_modHso
    | with_reducible apply keeps_hsoOff
    | with_reducible apply keeps_hsoDrive
    | with_reducible apply Keeps.ite <;> intro _
    | (with_reducible refine Keeps.of_mk _ _ _ _ _ _ _ _ _ _ _ _ _ _ _ _ _ _ _ _ _ _ _ _ _ _ _ _ _ ?_ rfl rfl rfl rfl rfl rfl rfl rfl
       split)

theorem keeps_hsoEvent (s : State) (code : Nat) (ch : Nat) {s0 : State}  (h : Keeps s0 s) :
    Keeps s0 (hsoEvent s code ch) := by
  unfold hsoEvent
  repeat' first
    | with_reducible assumption
    | with_reducible apply keeps_logEvent

theorem keeps_hsoLatch (s : State) (ch : Nat) {s0 : State}  (h : Keeps s0 s) :
    Keeps s0 (hsoLatch s ch) := by
  unfold hsoLatch
  repeat' first
    | with_reducible assumption
    | with_reducible apply keeps_hsoEvent
    | with_reducible apply keeps_hsoOff

theorem keeps_hsoTrip (s : State) (ch : Nat) (kind : RetryKind) (latch : Bool) {s0 : State}  (h : Keeps s0 s) :
    Keeps s0 (hsoTrip s ch kind latch) := by
  unfold hsoTrip
  try extract_lets
  repeat' first
    | with_reducible assumption
    | with_reducible apply keeps_State_modHso
    | with_reducible apply keeps_hsoOff
    | with_reducible apply keeps_hsoLatch
    | with_reducible apply Keeps.ite <;> intro _

theorem keeps_hsoOverload (s : State) (ch : Nat) {s0 : State}  (h : Keeps s0 s) :
    Keeps s0 (hsoOverload s ch) := by
  unfold hsoOverload
  try extract_lets
  repeat' first
    | with_reducible assumption
    | with_reducible apply keeps_hsoEvent
    | with_reducible apply keeps_State_modHso
    | with_reducible apply keeps_hsoTrip

theorem keeps_hsoRetry (s : State) (ch : Nat) (count : Bool) {s0 : State}  (h : Keeps s0 s) :
    Keeps s0 (hsoRetry s ch count) := by
  unfold hsoRetry
  try extract_lets
  repeat' first
    | with_reducible assumption
    | with_reducible apply keeps_hsoEvent
    | with_reducible apply keeps_State_modHso
    | with_reducible apply keeps_hsoDrive
    | with_reducible apply Keeps.ite <;> intro _

theorem keeps_hsoClear (s : State) (ch : Nat) {s0 : State}  (h : Keeps s0 s) :
    Keeps s0 (hsoClear s ch) := by
  unfold hsoClear
  try extract_lets
  repeat' first
    | with_reducible assumption
    | with_reducible apply keeps_State_modHso
    | with_reducible apply keeps_hsoOff
    | with_reducible apply Keeps.ite <;> intro _
    | (with_reducible refine Keeps.of_mk _ _ _ _ _ _ _ _ _ _ _ _ _ _ _ _ _ _ _ _ _ _ _ _ _ _ _ _ _ ?_ rfl rfl rfl rfl rfl rfl rfl rfl
       split)

theorem keeps_eachHso (s : State) (f : State → Nat → State) {s0 : State} (h_f : ∀ y0 y1, Keeps s0 y0 → Keeps s0 (f y0 y1)) (h : Keeps s0 s) :
    Keeps s0 (eachHso s f) := by
  unfold eachHso
  repeat' first
    | with_reducible assumption
    | with_reducible apply Keeps.foldl

theorem keeps_hsoHold (s : State) {s0 : State}  (h : Keeps s0 s) :
    Keeps s0 (hsoHold s) := by
  unfold hsoHold
  try extract_lets
  repeat' first
    | with_reducible assumption
    | with_reducible apply keeps_eachHso
    | with_reducible apply keeps_State_modHso
    | with_reducible apply keeps_hsoOff
    | with_reducible apply Keeps.ite <;> intro _
    | intro _ _ _
    | (with_reducible refine Keeps.of_mk _ _ _ _ _ _ _ _ _ _ _ _ _ _ _ _ _ _ _ _ _ _ _ _ _ _ _ _ _ ?_ rfl rfl rfl rfl rfl rfl rfl rfl
       with_reducible apply keeps_State_modHso)

theorem keeps_hsoPark (s : State) {s0 : State}  (h : Keeps s0 s) :
    Keeps s0 (hsoPark s) := by
  unfold hsoPark
  repeat' first
    | with_reducible assumption
    | with_reducible apply keeps_hsoHold
    | with_reducible apply keeps_eachHso
    | with_reducible apply keeps_hsoOff
    | with_reducible apply keeps_unheldHso
    | with_reducible apply Keeps.ite <;> intro _
    | intro _ _ _

theorem keeps_hsoAllOff (s : State) {s0 : State}  (h : Keeps s0 s) :
    Keeps s0 (hsoAllOff s) := by
  unfold hsoAllOff
  repeat' first
    | with_reducible assumption
    | with_reducible apply keeps_eachHso
    | with_reducible apply keeps_hsoOff
    | intro _ _ _

theorem keeps_hsoClaims (s : State) {s0 : State}  (h : Keeps s0 s) :
    Keeps s0 (hsoClaims s) := by
  unfold hsoClaims
  try extract_lets
  repeat' first
    | with_reducible assumption
    | with_reducible apply keeps_eachHso
    | with_reducible apply keeps_hsoOff
    | with_reducible apply keeps_unheldHso
    | with_reducible apply keeps_State_modHso
    | intro _ _ _
    | (with_reducible refine Keeps.of_mk _ _ _ _ _ _ _ _ _ _ _ _ _ _ _ _ _ _ _ _ _ _ _ _ _ _ _ _ _ ?_ rfl rfl rfl rfl rfl rfl rfl rfl
       split)

theorem keeps_hsoRoad (s : State) {s0 : State}  (h : Keeps s0 s) :
    Keeps s0 (hsoRoad s) := by
  unfold hsoRoad
  try extract_lets
  repeat' first
    | with_reducible assumption
    | with_reducible apply keeps_eachHso
    | with_reducible apply keeps_unheldHso
    | with_reducible apply keeps_hsoOff
    | with_reducible apply keeps_State_modHso
    | with_reducible apply Keeps.ite <;> intro _
    | intro _ _ _

theorem keeps_hsoOrphan1 (s : State) (ch : Nat) {s0 : State}  (h : Keeps s0 s) :
    Keeps s0 (hsoOrphan1 s ch) := by
  unfold hsoOrphan1
  try extract_lets
  repeat' first
    | with_reducible assumption
    | with_reducible apply keeps_hsoOff
    | with_reducible apply keeps_State_modHso
    | with_reducible apply Keeps.ite <;> intro _
    | (with_reducible refine Keeps.of_mk _ _ _ _ _ _ _ _ _ _ _ _ _ _ _ _ _ _ _ _ _ _ _ _ _ _ _ _ _ ?_ rfl rfl rfl rfl rfl rfl rfl rfl
       split)

theorem keeps_hsoReclaim (s : State) (ch : Nat) {s0 : State}  (h : Keeps s0 s) :
    Keeps s0 (hsoReclaim s ch) := by
  unfold hsoReclaim
  try extract_lets
  repeat' first
    | with_reducible assumption
    | with_reducible apply keeps_unheldHso
    | with_reducible apply keeps_State_modHso
    | with_reducible apply keeps_hsoOff
    | with_reducible apply keeps_State_takeNat
    | with_reducible apply keeps_planOn
    | with_reducible apply Keeps.ite <;> intro _
    | (with_reducible refine Keeps.of_mk _ _ _ _ _ _ _ _ _ _ _ _ _ _ _ _ _ _ _ _ _ _ _ _ _ _ _ _ _ ?_ rfl rfl rfl rfl rfl rfl rfl rfl
       split)

theorem keeps_hsoShed (s : State) (prio : Nat) {s0 : State}  (h : Keeps s0 s) :
    Keeps s0 (hsoShed s prio) := by
  unfold hsoShed
  try extract_lets
  repeat' first
    | with_reducible assumption
    | with_reducible apply keeps_eachHso
    | with_reducible apply keeps_hsoEvent
    | with_reducible apply keeps_hsoOff
    | with_reducible apply Keeps.ite <;> intro _
    | intro _ _ _

theorem keeps_hsoUnshed (s : State) {s0 : State}  (h : Keeps s0 s) :
    Keeps s0 (hsoUnshed s) := by
  unfold hsoUnshed
  try extract_lets
  repeat' first
    | with_reducible assumption
    | with_reducible apply keeps_eachHso
    | with_reducible apply keeps_State_modHso
    | with_reducible apply Keeps.ite <;> intro _
    | intro _ _ _

theorem keeps_hsoPause (s : State) (k : Nat) {s0 : State}  (h : Keeps s0 s) :
    Keeps s0 (hsoPause s k) := by
  unfold hsoPause
  try extract_lets
  repeat' first
    | with_reducible assumption
    | with_reducible apply keeps_eachHso
    | with_reducible apply keeps_hsoOff
    | with_reducible apply keeps_State_modHso
    | with_reducible apply Keeps.ite <;> intro _
    | intro _ _ _

theorem keeps_hsoFrame (s : State) {s0 : State}  (h : Keeps s0 s) :
    Keeps s0 (hsoFrame s) := by
  unfold hsoFrame
  try extract_lets
  repeat' first
    | with_reducible assumption
    | with_reducible apply Keeps.foldl
    | with_reducible apply keeps_hsoEvent
    | with_reducible apply keeps_hsoDrive
    | with_reducible apply keeps_State_modHso
    | with_reducible apply keeps_eachHso
    | with_reducible apply Keeps.ite <;> intro _
    | intro _ _ _

theorem keeps_hsoStart (s : State) (powerOn : Bool) {s0 : State}  (h : Keeps s0 s) :
    Keeps s0 (hsoStart s powerOn) := by
  unfold hsoStart
  try extract_lets
  repeat' first
    | with_reducible assumption
    | with_reducible apply Keeps.foldl
    | with_reducible apply keeps_logEvent
    | with_reducible apply keeps_State_modGrp
    | with_reducible apply keeps_eachHso
    | with_reducible apply keeps_State_modHso
    | with_reducible apply Keeps.ite <;> intro _
    | intro _ _ _

end Sys2Proof.Machine
end

