-- ==== Sys2Proof/Laws/KeepsHso.lean ====
section
/-! SUPPORT. What the operations of Machine/Hso.lean keep: the queue, the order of time and a sound state. -/

namespace Sys2Proof.Machine

set_option linter.unusedTactic false
set_option linter.unreachableTactic false

theorem keeps_hsoEnter (slot : Nat) (st : Nat) (duty : Nat) (s : State) (ch : Nat) {s0 : State}  (h : Keeps s0 s) :
    Keeps s0 (hsoEnter slot st duty s ch) := by
  unfold hsoEnter
  try extract_lets
  repeat' first
    | with_reducible assumption
    | with_reducible apply keeps_addShot
    | with_reducible apply keeps_planOn
    | (with_reducible refine Keeps.of_mk _ _ _ _ _ _ _ _ _ _ _ _ _ _ _ _ _ _ _ _ _ _ _ _ _ _ _ _ _ ?_ rfl rfl rfl rfl rfl rfl rfl rfl
       split)

theorem keeps_hsoPlan (s : State) (a : Act) (chans : List Nat) (st : Nat) (duty : Nat) {s0 : State}  (h : Keeps s0 s) :
    Keeps s0 (hsoPlan s a chans st duty) := by
  unfold hsoPlan
  try extract_lets
  repeat' first
    | with_reducible assumption
    | with_reducible apply Keeps.foldl
    | with_reducible apply keeps_finish
    | with_reducible apply keeps_hsoApply
    | with_reducible apply keeps_hsoEnter
    | with_reducible apply keeps_replan
    | with_reducible apply keeps_overPlan
    | with_reducible apply Keeps.ite <;> intro _
    | intro _ _ _
    | (with_reducible refine Keeps.of_mk _ _ _ _ _ _ _ _ _ _ _ _ _ _ _ _ _ _ _ _ _ _ _ _ _ _ _ _ _ ?_ rfl rfl rfl rfl rfl rfl rfl rfl
       first
         | with_reducible assumption
         | split
      )

theorem keeps_hsoFire (s : State) (a : Act) (chans : List Nat) (st : Nat) (duty : Nat) {s0 : State}  (h : Keeps s0 s) :
    Keeps s0 (hsoFire s a chans st duty) := by
  unfold hsoFire
  try extract_lets
  repeat' first
    | with_reducible assumption
    | with_reducible apply Keeps.foldl
    | with_reducible apply keeps_addShot
    | with_reducible apply keeps_hsoApply
    | with_reducible apply keeps_finish
    | with_reducible apply keeps_replan
    | intro _ _ _
    | (with_reducible refine Keeps.of_mk _ _ _ _ _ _ _ _ _ _ _ _ _ _ _ _ _ _ _ _ _ _ _ _ _ _ _ _ _ ?_ rfl rfl rfl rfl rfl rfl rfl rfl
       split)

theorem keeps_actHsoSet (ch : BitVec 6) (st : BitVec 2) (duty : BitVec 13) (a : Act) (s : State) {s0 : State}  (h : Keeps s0 s) :
    Keeps s0 (actHsoSet ch st duty a s) := by
  unfold actHsoSet
  try extract_lets
  repeat' first
    | with_reducible assumption
    | with_reducible apply keeps_refuse
    | with_reducible apply keeps_finishAs
    | with_reducible apply keeps_hsoApply
    | with_reducible apply keeps_hsoFire
    | with_reducible apply keeps_hsoPlan
    | with_reducible apply Keeps.ite <;> intro _

theorem keeps_execHsoSet (d : Desc) (ch : BitVec 6) (state : BitVec 2) (duty : BitVec 13) (s : State) : OutKeeps s (execHsoSet d ch state duty s) := by
  have h := Keeps.refl s
  unfold execHsoSet
  show Keeps _ _
  repeat' first
    | with_reducible assumption
    | with_reducible apply keeps_accept
    | with_reducible apply keeps_actHsoSet
    | intro _ _ _

theorem keeps_actHsoMulti (mask : BitVec 64) (st : BitVec 2) (duty : BitVec 13) (a : Act) (s : State) {s0 : State}  (h : Keeps s0 s) :
    Keeps s0 (actHsoMulti mask st duty a s) := by
  unfold actHsoMulti
  try extract_lets
  repeat' first
    | with_reducible assumption
    | with_reducible apply Keeps.foldl
    | with_reducible apply keeps_refuse
    | with_reducible apply keeps_hsoApply
    | with_reducible apply keeps_finishAs
    | with_reducible apply keeps_hsoFire
    | with_reducible apply keeps_hsoPlan
    | with_reducible apply Keeps.ite <;> intro _
    | intro _ _ _
    | (with_reducible refine Keeps.of_mk _ _ _ _ _ _ _ _ _ _ _ _ _ _ _ _ _ _ _ _ _ _ _ _ _ _ _ _ _ ?_ rfl rfl rfl rfl rfl rfl rfl rfl
       split)

theorem keeps_execHsoMulti (d : Desc) (mask : BitVec 64) (state : BitVec 2) (duty : BitVec 13) (s : State) : OutKeeps s (execHsoMulti d mask state duty s) := by
  have h := Keeps.refl s
  unfold execHsoMulti
  show Keeps _ _
  repeat' first
    | with_reducible assumption
    | with_reducible apply keeps_accept
    | with_reducible apply keeps_actHsoMulti
    | intro _ _ _

theorem keeps_actHsoClear (ch : BitVec 6) (a : Act) (s : State) {s0 : State}  (h : Keeps s0 s) :
    Keeps s0 (actHsoClear ch a s) := by
  unfold actHsoClear
  repeat' first
    | with_reducible assumption
    | with_reducible apply keeps_refuse
    | with_reducible apply keeps_finish
    | with_reducible apply keeps_hsoClear
    | with_reducible apply Keeps.ite <;> intro _

theorem keeps_execHsoClear (d : Desc) (ch : BitVec 6) (s : State) : OutKeeps s (execHsoClear d ch s) := by
  have h := Keeps.refl s
  unfold execHsoClear
  show Keeps _ _
  repeat' first
    | with_reducible assumption
    | with_reducible apply keeps_accept
    | with_reducible apply keeps_actHsoClear
    | intro _ _ _

theorem keeps_actHsoRead (ch : BitVec 6) (a : Act) (s : State) {s0 : State}  (h : Keeps s0 s) :
    Keeps s0 (actHsoRead ch a s) := by
  unfold actHsoRead
  try extract_lets
  repeat' first
    | with_reducible assumption
    | with_reducible apply keeps_refuse
    | with_reducible apply keeps_finish
    | with_reducible apply Keeps.ite <;> intro _

theorem keeps_execHsoRead (d : Desc) (ch : BitVec 6) (s : State) : OutKeeps s (execHsoRead d ch s) := by
  have h := Keeps.refl s
  unfold execHsoRead
  show Keeps _ _
  repeat' first
    | with_reducible assumption
    | with_reducible apply keeps_accept
    | with_reducible apply keeps_actHsoRead
    | intro _ _ _

theorem keeps_actHsoOltest (ch : BitVec 6) (a : Act) (s : State) {s0 : State}  (h : Keeps s0 s) :
    Keeps s0 (actHsoOltest ch a s) := by
  unfold actHsoOltest
  try extract_lets
  repeat' first
    | with_reducible assumption
    | with_reducible apply keeps_refuse
    | with_reducible apply keeps_State_modHso
    | with_reducible apply Keeps.ite <;> intro _
    | (with_reducible refine Keeps.of_mk _ _ _ _ _ _ _ _ _ _ _ _ _ _ _ _ _ _ _ _ _ _ _ _ _ _ _ _ _ ?_ rfl rfl rfl rfl rfl rfl rfl rfl
       split)

theorem keeps_execHsoOltest (d : Desc) (ch : BitVec 6) (s : State) : OutKeeps s (execHsoOltest d ch s) := by
  have h := Keeps.refl s
  unfold execHsoOltest
  show Keeps _ _
  repeat' first
    | with_reducible assumption
    | with_reducible apply keeps_accept
    | with_reducible apply keeps_actHsoOltest
    | intro _ _ _

theorem keeps_execSoftStartStep (ch : Fin 64) (s : State) : OutKeeps s (execSoftStartStep ch s) := by
  have h := Keeps.refl s
  unfold execSoftStartStep
  show Keeps _ _
  try extract_lets
  repeat' first
    | with_reducible assumption
    | with_reducible apply keeps_planOff
    | with_reducible apply keeps_hsoTurn
    | with_reducible apply keeps_State_modHso
    | with_reducible apply keeps_planOnTime
    | with_reducible apply Keeps.ite <;> intro _

theorem keeps_execFeedMeasure (mv0 : BitVec 16) (mv1 : BitVec 16) (mv2 : BitVec 16) (bst : BitVec 16) (s : State) : OutKeeps s (execFeedMeasure mv0 mv1 mv2 bst s) := by
  have h := Keeps.refl s
  unfold execFeedMeasure
  show Keeps _ _
  try extract_lets
  repeat' first
    | with_reducible assumption
    | with_reducible apply Keeps.ite <;> intro _
    | (with_reducible refine Keeps.of_mk _ _ _ _ _ _ _ _ _ _ _ _ _ _ _ _ _ _ _ _ _ _ _ _ _ _ _ _ _ ?_ rfl rfl rfl rfl rfl rfl rfl rfl
       with_reducible assumption)

theorem keeps_execSenseUpdate (ch : Fin 64) (milliamps : Nat) (groupTenMa : BitVec 16) (groupTemp : BitVec 8) (s : State) : OutKeeps s (execSenseUpdate ch milliamps groupTenMa groupTemp s) := by
  have h := Keeps.refl s
  unfold execSenseUpdate
  show Keeps _ _
  try extract_lets
  repeat' first
    | with_reducible assumption
    | with_reducible apply keeps_State_modGrp
    | with_reducible apply keeps_State_modHso
    | with_reducible apply Keeps.ite <;> intro _

theorem keeps_execInrushWindowEnd (ch : Fin 64) (s : State) : OutKeeps s (execInrushWindowEnd ch s) := by
  have h := Keeps.refl s
  unfold execInrushWindowEnd
  show Keeps _ _
  try extract_lets
  repeat' first
    | with_reducible assumption
    | with_reducible apply Keeps.reach
    | with_reducible apply keeps_State_modHso
    | with_reducible apply Keeps.ite <;> intro _

theorem keeps_delayTurnOns (s : State) (g : Nat) {s0 : State}  (h : Keeps s0 s) :
    Keeps s0 (delayTurnOns s g) := by
  unfold delayTurnOns
  try extract_lets
  repeat' first
    | (with_reducible refine Keeps.of_mk _ _ _ _ _ _ _ _ _ _ _ _ _ _ _ _ _ _ _ _ _ _ _ _ _ _ _ _ _ ?_ rfl rfl rfl rfl rfl rfl rfl rfl
       with_reducible assumption)

theorem keeps_execFastTrip (ch : Fin 64) (s : State) : OutKeeps s (execFastTrip ch s) := by
  have h := Keeps.refl s
  unfold execFastTrip
  show Keeps _ _
  try extract_lets
  repeat' first
    | with_reducible assumption
    | with_reducible apply keeps_State_modHso
    | with_reducible apply keeps_hsoEvent
    | with_reducible apply keeps_hsoTrip
    | with_reducible apply keeps_delayTurnOns
    | with_reducible apply keeps_State_modGrp
    | with_reducible apply Keeps.ite <;> intro _

theorem keeps_execFastTripRetry (ch : Fin 64) (s : State) : OutKeeps s (execFastTripRetry ch s) := by
  have h := Keeps.refl s
  unfold execFastTripRetry
  show Keeps _ _
  try extract_lets
  repeat' first
    | with_reducible assumption
    | with_reducible apply Keeps.reach
    | with_reducible apply keeps_hsoRetry
    | with_reducible apply keeps_State_modHso
    | with_reducible apply Keeps.ite <;> intro _

theorem keeps_execFastTripHoldoffEnd (grp : Fin 8) (s : State) : OutKeeps s (execFastTripHoldoffEnd grp s) := by
  have h := Keeps.refl s
  unfold execFastTripHoldoffEnd
  show Keeps _ _
  try extract_lets
  repeat' first
    | with_reducible assumption
    | with_reducible apply Keeps.reach
    | with_reducible apply keeps_State_modGrp
    | (with_reducible refine Keeps.of_mk _ _ _ _ _ _ _ _ _ _ _ _ _ _ _ _ _ _ _ _ _ _ _ _ _ _ _ _ _ ?_ rfl rfl rfl rfl rfl rfl rfl rfl
       split)

theorem keeps_execOverloadTrip (ch : Fin 64) (s : State) : OutKeeps s (execOverloadTrip ch s) := by
  have h := Keeps.refl s
  unfold execOverloadTrip
  show Keeps _ _
  repeat' first
    | with_reducible assumption
    | with_reducible apply keeps_hsoOverload
    | with_reducible apply Keeps.ite <;> intro _

theorem keeps_execWireModelUpdate (ch : Fin 64) (meanSquare : Nat) (s : State) : OutKeeps s (execWireModelUpdate ch meanSquare s) := by
  have h := Keeps.refl s
  unfold execWireModelUpdate
  show Keeps _ _
  try extract_lets
  repeat' first
    | with_reducible assumption
    | with_reducible apply keeps_State_modHso
    | with_reducible apply keeps_hsoEvent
    | with_reducible apply keeps_hsoTrip
    | with_reducible apply keeps_hsoRetry
    | with_reducible apply keeps_State_takeBit
    | with_reducible apply Keeps.ite <;> intro _

theorem keeps_execRetryCountReset (ch : Fin 64) (s : State) : OutKeeps s (execRetryCountReset ch s) := by
  have h := Keeps.refl s
  unfold execRetryCountReset
  show Keeps _ _
  try extract_lets
  repeat' first
    | with_reducible assumption
    | with_reducible apply Keeps.reach
    | with_reducible apply keeps_State_modHso
    | with_reducible apply Keeps.ite <;> intro _

theorem keeps_execWireModelSave (s : State) : OutKeeps s (execWireModelSave s) := by
  have h := Keeps.refl s
  unfold execWireModelSave
  show Keeps _ _
  try extract_lets
  repeat' first
    | with_reducible assumption
    | with_reducible apply Keeps.ite <;> intro _
    | (with_reducible refine Keeps.of_mk _ _ _ _ _ _ _ _ _ _ _ _ _ _ _ _ _ _ _ _ _ _ _ _ _ _ _ _ _ ?_ rfl rfl rfl rfl rfl rfl rfl rfl
       with_reducible assumption)

theorem keeps_execJunctionOtTrip (ch : Fin 64) (s : State) : OutKeeps s (execJunctionOtTrip ch s) := by
  have h := Keeps.refl s
  unfold execJunctionOtTrip
  show Keeps _ _
  try extract_lets
  repeat' first
    | with_reducible assumption
    | with_reducible apply keeps_State_modHso
    | with_reducible apply keeps_hsoEvent
    | with_reducible apply keeps_hsoTrip
    | with_reducible apply Keeps.ite <;> intro _

theorem keeps_execJunctionOtClear (ch : Fin 64) (s : State) : OutKeeps s (execJunctionOtClear ch s) := by
  have h := Keeps.refl s
  unfold execJunctionOtClear
  show Keeps _ _
  try extract_lets
  repeat' first
    | with_reducible assumption
    | with_reducible apply keeps_hsoRetry
    | with_reducible apply Keeps.ite <;> intro _

theorem keeps_execOpenLoadOnDetect (ch : Fin 64) (s : State) : OutKeeps s (execOpenLoadOnDetect ch s) := by
  have h := Keeps.refl s
  unfold execOpenLoadOnDetect
  show Keeps _ _
  try extract_lets
  repeat' first
    | with_reducible assumption
    | with_reducible apply keeps_hsoEvent
    | with_reducible apply keeps_State_modHso
    | with_reducible apply Keeps.ite <;> intro _

theorem keeps_execOpenLoadOnClear (ch : Fin 64) (s : State) : OutKeeps s (execOpenLoadOnClear ch s) := by
  have h := Keeps.refl s
  unfold execOpenLoadOnClear
  show Keeps _ _
  try extract_lets
  repeat' first
    | with_reducible assumption
    | with_reducible apply keeps_State_modHso

theorem keeps_execOffStateTest (ch : Fin 64) (s : State) : OutKeeps s (execOffStateTest ch s) := by
  have h := Keeps.refl s
  unfold execOffStateTest
  show Keeps _ _
  try extract_lets
  repeat' first
    | with_reducible assumption
    | with_reducible apply keeps_State_modHso
    | with_reducible apply Keeps.ite <;> intro _

theorem keeps_execOffStateTestResult (ch : Fin 64) (mv : BitVec 16) (s : State) : OutKeeps s (execOffStateTestResult ch mv s) := by
  have h := Keeps.refl s
  unfold execOffStateTestResult
  show Keeps _ _
  try extract_lets
  repeat' first
    | with_reducible assumption
    | with_reducible apply keeps_State_modHso
    | with_reducible apply keeps_hsoEvent
    | with_reducible apply keeps_hsoOff
    | with_reducible apply keeps_finish
    | with_reducible apply Keeps.ite <;> intro _
    | (with_reducible refine Keeps.of_mk _ _ _ _ _ _ _ _ _ _ _ _ _ _ _ _ _ _ _ _ _ _ _ _ _ _ _ _ _ ?_ rfl rfl rfl rfl rfl rfl rfl rfl
       split)

theorem keeps_execShortToBatOn (ch : Fin 64) (s : State) : OutKeeps s (execShortToBatOn ch s) := by
  have h := Keeps.refl s
  unfold execShortToBatOn
  show Keeps _ _
  try extract_lets
  repeat' first
    | with_reducible assumption
    | with_reducible apply keeps_hsoEvent
    | with_reducible apply keeps_State_modHso
    | with_reducible apply keeps_hsoOff
    | with_reducible apply Keeps.ite <;> intro _

theorem keeps_execReverseFeed (grp : Fin 8) (s : State) : OutKeeps s (execReverseFeed grp s) := by
  have h := Keeps.refl s
  unfold execReverseFeed
  show Keeps _ _
  try extract_lets
  repeat' first
    | with_reducible assumption
    | with_reducible apply keeps_State_modGrp

theorem keeps_execGroupLimitHit (grp : Fin 8) (s : State) : OutKeeps s (execGroupLimitHit grp s) := by
  have h := Keeps.refl s
  unfold execGroupLimitHit
  show Keeps _ _
  try extract_lets
  repeat' first
    | with_reducible assumption
    | with_reducible apply keeps_State_modGrp
    | with_reducible apply Keeps.ite <;> intro _

theorem keeps_execGroupLimitEnd (grp : Fin 8) (s : State) : OutKeeps s (execGroupLimitEnd grp s) := by
  have h := Keeps.refl s
  unfold execGroupLimitEnd
  show Keeps _ _
  try extract_lets
  repeat' first
    | with_reducible assumption
    | with_reducible apply keeps_State_modGrp

theorem keeps_execSympatheticTag (grp : Fin 8) (s : State) : OutKeeps s (execSympatheticTag grp s) := by
  have h := Keeps.refl s
  unfold execSympatheticTag
  show Keeps _ _
  try extract_lets
  repeat' first
    | with_reducible assumption
    | with_reducible apply Keeps.foldl
    | with_reducible apply Keeps.reach
    | with_reducible apply keeps_State_modHso
    | with_reducible apply keeps_State_modGrp
    | with_reducible apply keeps_logEvent
    | with_reducible apply Keeps.ite <;> intro _
    | intro _ _ _
    | (with_reducible refine Keeps.of_mk _ _ _ _ _ _ _ _ _ _ _ _ _ _ _ _ _ _ _ _ _ _ _ _ _ _ _ _ _ ?_ rfl rfl rfl rfl rfl rfl rfl rfl
       split)

theorem keeps_execGroupLimitShed (grp : Fin 8) (s : State) : OutKeeps s (execGroupLimitShed grp s) := by
  have h := Keeps.refl s
  unfold execGroupLimitShed
  show Keeps _ _
  try extract_lets
  repeat' first
    | with_reducible assumption
    | with_reducible apply keeps_hsoOverload
    | with_reducible apply Keeps.ite <;> intro _
    | (with_reducible refine Keeps.of_mk _ _ _ _ _ _ _ _ _ _ _ _ _ _ _ _ _ _ _ _ _ _ _ _ _ _ _ _ _ ?_ rfl rfl rfl rfl rfl rfl rfl rfl
       split)

theorem keeps_execGroupOt (grp : Fin 8) (s : State) : OutKeeps s (execGroupOt grp s) := by
  have h := Keeps.refl s
  unfold execGroupOt
  show Keeps _ _
  try extract_lets
  repeat' first
    | with_reducible assumption
    | with_reducible apply keeps_hsoEvent
    | with_reducible apply keeps_State_modHso
    | with_reducible apply keeps_hsoTrip
    | (with_reducible refine Keeps.of_mk _ _ _ _ _ _ _ _ _ _ _ _ _ _ _ _ _ _ _ _ _ _ _ _ _ _ _ _ _ ?_ rfl rfl rfl rfl rfl rfl rfl rfl
       split)

theorem keeps_execGroupOtClear (grp : Fin 8) (s : State) : OutKeeps s (execGroupOtClear grp s) := by
  have h := Keeps.refl s
  unfold execGroupOtClear
  show Keeps _ _
  repeat' first
    | with_reducible assumption
    | with_reducible apply Keeps.foldl
    | with_reducible apply keeps_hsoRetry
    | with_reducible apply Keeps.ite <;> intro _
    | intro _ _ _

end Sys2Proof.Machine
end

