-- ==== Sys2Proof/Laws/KeepsLedOps.lean ====
section
/-! SUPPORT. What the operations of Machine/LedOps.lean keep: the queue, the order of time and a sound state. -/

namespace Sys2Proof.Machine

set_option linter.unusedTactic false
set_option linter.unreachableTactic false

theorem keeps_State_modLed (s : State) (n : Nat) (f : LedCh → LedCh) {s0 : State}  (h : Keeps s0 s) :
    Keeps s0 (State.modLed s n f) := by
  unfold State.modLed
  try extract_lets
  repeat' first
    | (with_reducible refine Keeps.of_mk _ _ _ _ _ _ _ _ _ _ _ _ _ _ _ _ _ _ _ _ _ _ _ _ _ _ _ _ _ ?_ rfl rfl rfl rfl rfl rfl rfl rfl
       with_reducible assumption)

theorem keeps_unheldLed (s : State) (n : Nat) {s0 : State}  (h : Keeps s0 s) :
    Keeps s0 (unheldLed s n) := by
  unfold unheldLed
  try extract_lets
  repeat' first
    | (with_reducible refine Keeps.of_mk _ _ _ _ _ _ _ _ _ _ _ _ _ _ _ _ _ _ _ _ _ _ _ _ _ _ _ _ _ ?_ rfl rfl rfl rfl rfl rfl rfl rfl
       with_reducible assumption)

theorem keeps_ledOff (s : State) (n : Nat) (st : LedSt) {s0 : State}  (h : Keeps s0 s) :
    Keeps s0 (ledOff s n st) := by
  unfold ledOff
  try extract_lets
  repeat' first
    | with_reducible assumption
    | with_reducible apply keeps_planOff
    | with_reducible apply keeps_State_modLed

theorem keeps_ledDrive (s : State) (n : Nat) (phase : Nat) (launch : Bool) {s0 : State}  (h : Keeps s0 s) :
    Keeps s0 (ledDrive s n phase launch) := by
  unfold ledDrive
  try extract_lets
  repeat' first
    | with_reducible assumption
    | with_reducible apply keeps_State_modLed
    | with_reducible apply keeps_ledOff
    | with_reducible apply keeps_planOff
    | with_reducible apply keeps_planOn
    | with_reducible apply Keeps.ite <;> intro _

theorem keeps_ledApply (s : State) (n : Nat) (iSet : Nat) (dim : Nat) (phase : Option Nat) (launch : Bool) {s0 : State}  (h : Keeps s0 s) :
    Keeps s0 (ledApply s n iSet dim phase launch) := by
  unfold ledApply
  try extract_lets
  repeat' first
    | with_reducible assumption
    | with_reducible apply keeps_unheldLed
    | with_reducible apply keeps_State_modLed
    | with_reducible apply keeps_ledOff
    | with_reducible apply keeps_ledDrive
    | with_reducible apply Keeps.ite <;> intro _
    | (with_reducible refine Keeps.of_mk _ _ _ _ _ _ _ _ _ _ _ _ _ _ _ _ _ _ _ _ _ _ _ _ _ _ _ _ _ ?_ rfl rfl rfl rfl rfl rfl rfl rfl
       split)

theorem keeps_ledLatch (s : State) (n : Nat) {s0 : State}  (h : Keeps s0 s) :
    Keeps s0 (ledLatch s n) := by
  unfold ledLatch
  repeat' first
    | with_reducible assumption
    | with_reducible apply keeps_logEvent
    | with_reducible apply keeps_ledOff

theorem keeps_eachLed (s : State) (f : State → Nat → State) {s0 : State} (h_f : ∀ y0 y1, Keeps s0 y0 → Keeps s0 (f y0 y1)) (h : Keeps s0 s) :
    Keeps s0 (eachLed s f) := by
  unfold eachLed
  repeat' first
    | with_reducible assumption
    | with_reducible apply Keeps.foldl

theorem keeps_ledAllOff (s : State) {s0 : State}  (h : Keeps s0 s) :
    Keeps s0 (ledAllOff s) := by
  unfold ledAllOff
  try extract_lets
  repeat' first
    | with_reducible assumption
    | with_reducible apply keeps_eachLed
    | with_reducible apply keeps_ledOff
    | with_reducible apply keeps_unheldLed
    | with_reducible apply keeps_State_modLed
    | intro _ _ _

theorem keeps_ledClaims (s : State) {s0 : State}  (h : Keeps s0 s) :
    Keeps s0 (ledClaims s) := by
  unfold ledClaims
  try extract_lets
  repeat' first
    | with_reducible assumption
    | with_reducible apply keeps_eachLed
    | with_reducible apply keeps_ledOff
    | with_reducible apply keeps_unheldLed
    | with_reducible apply keeps_State_modLed
    | intro _ _ _
    | (with_reducible refine Keeps.of_mk _ _ _ _ _ _ _ _ _ _ _ _ _ _ _ _ _ _ _ _ _ _ _ _ _ _ _ _ _ ?_ rfl rfl rfl rfl rfl rfl rfl rfl
       split)

theorem keeps_ledRoad (s : State) {s0 : State}  (h : Keeps s0 s) :
    Keeps s0 (ledRoad s) := by
  unfold ledRoad
  try extract_lets
  repeat' first
    | with_reducible assumption
    | with_reducible apply keeps_eachLed
    | with_reducible apply keeps_unheldLed
    | with_reducible apply keeps_ledOff
    | with_reducible apply keeps_State_modLed
    | with_reducible apply Keeps.ite <;> intro _
    | intro _ _ _

theorem keeps_ledHold (s : State) {s0 : State}  (h : Keeps s0 s) :
    Keeps s0 (ledHold s) := by
  unfold ledHold
  try extract_lets
  repeat' first
    | with_reducible assumption
    | with_reducible apply keeps_eachLed
    | with_reducible apply keeps_State_modLed
    | with_reducible apply keeps_ledOff
    | with_reducible apply Keeps.ite <;> intro _
    | intro _ _ _
    | (with_reducible refine Keeps.of_mk _ _ _ _ _ _ _ _ _ _ _ _ _ _ _ _ _ _ _ _ _ _ _ _ _ _ _ _ _ ?_ rfl rfl rfl rfl rfl rfl rfl rfl
       with_reducible apply keeps_State_modLed)

theorem keeps_ledOrphan1 (s : State) (n : Nat) {s0 : State}  (h : Keeps s0 s) :
    Keeps s0 (ledOrphan1 s n) := by
  unfold ledOrphan1
  try extract_lets
  repeat' first
    | with_reducible assumption
    | with_reducible apply keeps_ledOff
    | with_reducible apply keeps_State_modLed
    | with_reducible apply Keeps.ite <;> intro _
    | (with_reducible refine Keeps.of_mk _ _ _ _ _ _ _ _ _ _ _ _ _ _ _ _ _ _ _ _ _ _ _ _ _ _ _ _ _ ?_ rfl rfl rfl rfl rfl rfl rfl rfl
       split)

theorem keeps_ledReclaim (s : State) (n : Nat) {s0 : State}  (h : Keeps s0 s) :
    Keeps s0 (ledReclaim s n) := by
  unfold ledReclaim
  try extract_lets
  repeat' first
    | with_reducible assumption
    | with_reducible apply keeps_unheldLed
    | with_reducible apply keeps_State_modLed
    | with_reducible apply keeps_State_takeNat
    | with_reducible apply keeps_planOn
    | with_reducible apply Keeps.ite <;> intro _
    | (with_reducible refine Keeps.of_mk _ _ _ _ _ _ _ _ _ _ _ _ _ _ _ _ _ _ _ _ _ _ _ _ _ _ _ _ _ ?_ rfl rfl rfl rfl rfl rfl rfl rfl
       split)

theorem keeps_ledShed (s : State) {s0 : State}  (h : Keeps s0 s) :
    Keeps s0 (ledShed s) := by
  unfold ledShed
  try extract_lets
  repeat' first
    | with_reducible assumption
    | with_reducible apply keeps_eachLed
    | with_reducible apply keeps_logEvent
    | with_reducible apply keeps_ledOff
    | with_reducible apply Keeps.ite <;> intro _
    | intro _ _ _

theorem keeps_ledUnshed (s : State) {s0 : State}  (h : Keeps s0 s) :
    Keeps s0 (ledUnshed s) := by
  unfold ledUnshed
  try extract_lets
  repeat' first
    | with_reducible assumption
    | with_reducible apply keeps_eachLed
    | with_reducible apply keeps_State_modLed
    | with_reducible apply Keeps.ite <;> intro _
    | intro _ _ _

theorem keeps_ledPause (s : State) {s0 : State}  (h : Keeps s0 s) :
    Keeps s0 (ledPause s) := by
  unfold ledPause
  try extract_lets
  repeat' first
    | with_reducible assumption
    | with_reducible apply keeps_eachLed
    | with_reducible apply keeps_ledOff
    | with_reducible apply keeps_State_modLed
    | with_reducible apply Keeps.ite <;> intro _
    | intro _ _ _

theorem keeps_mtxDark (s : State) {s0 : State}  (h : Keeps s0 s) :
    Keeps s0 (mtxDark s) := by
  unfold mtxDark
  try extract_lets
  repeat' first
    | (with_reducible refine Keeps.of_mk _ _ _ _ _ _ _ _ _ _ _ _ _ _ _ _ _ _ _ _ _ _ _ _ _ _ _ _ _ ?_ rfl rfl rfl rfl rfl rfl rfl rfl
       with_reducible assumption)

theorem keeps_mtxDrop (s : State) (status : Nat) {s0 : State}  (h : Keeps s0 s) :
    Keeps s0 (mtxDrop s status) := by
  unfold mtxDrop
  try extract_lets
  repeat' first
    | with_reducible assumption
    | with_reducible apply keeps_refuse
    | (with_reducible refine Keeps.of_mk _ _ _ _ _ _ _ _ _ _ _ _ _ _ _ _ _ _ _ _ _ _ _ _ _ _ _ _ _ ?_ rfl rfl rfl rfl rfl rfl rfl rfl
       first
         | with_reducible assumption
         | split
      )

theorem keeps_mtxLatch (s : State) {s0 : State}  (h : Keeps s0 s) :
    Keeps s0 (mtxLatch s) := by
  unfold mtxLatch
  try extract_lets
  repeat' first
    | with_reducible apply keeps_logEvent
    | with_reducible apply keeps_mtxDark
    | (with_reducible refine Keeps.of_mk _ _ _ _ _ _ _ _ _ _ _ _ _ _ _ _ _ _ _ _ _ _ _ _ _ _ _ _ _ ?_ rfl rfl rfl rfl rfl rfl rfl rfl
       with_reducible assumption)

theorem keeps_mtxStart (s : State) {s0 : State} (h : Keeps s0 s) : Keeps s0 (mtxStart s) :=
  h.of_sound rfl (Nat.le_refl _) (fun x => ⟨x.1, rfl, rfl, x.2.2.2⟩)

theorem keeps_mtxFlip (s : State) {s0 : State}  (h : Keeps s0 s) :
    Keeps s0 (mtxFlip s) := by
  unfold mtxFlip
  try extract_lets
  repeat' first
    | (with_reducible refine Keeps.of_mk _ _ _ _ _ _ _ _ _ _ _ _ _ _ _ _ _ _ _ _ _ _ _ _ _ _ _ _ _ ?_ rfl rfl rfl rfl rfl rfl rfl rfl
       with_reducible assumption)

theorem keeps_mtxGains (s : State) {s0 : State}  (h : Keeps s0 s) :
    Keeps s0 (mtxGains s) := by
  unfold mtxGains
  try extract_lets
  repeat' first
    | (with_reducible refine Keeps.of_mk _ _ _ _ _ _ _ _ _ _ _ _ _ _ _ _ _ _ _ _ _ _ _ _ _ _ _ _ _ ?_ rfl rfl rfl rfl rfl rfl rfl rfl
       with_reducible assumption)

theorem keeps_mtxFrame (s : State) (sync : Bool) {s0 : State}  (h : Keeps s0 s) :
    Keeps s0 (mtxFrame s sync) := by
  unfold mtxFrame
  try extract_lets
  repeat' first
    | with_reducible apply keeps_finish
    | with_reducible apply keeps_mtxFlip
    | with_reducible apply keeps_mtxGains
    | with_reducible apply keeps_mtxDark
    | with_reducible apply Keeps.ite <;> intro _
    | (with_reducible refine Keeps.of_mk _ _ _ _ _ _ _ _ _ _ _ _ _ _ _ _ _ _ _ _ _ _ _ _ _ _ _ _ _ ?_ rfl rfl rfl rfl rfl rfl rfl rfl
       first
         | with_reducible assumption
         | with_reducible apply keeps_mtxGains
         | split
      )
    | extract_lets
    | dsimp +zetaDelta only

theorem keeps_mtxRoad (s : State) {s0 : State}  (h : Keeps s0 s) :
    Keeps s0 (mtxRoad s) := by
  unfold mtxRoad
  try extract_lets
  repeat' first
    | with_reducible assumption
    | with_reducible apply keeps_mtxDark
    | with_reducible apply Keeps.ite <;> intro _
    | (with_reducible refine Keeps.of_mk _ _ _ _ _ _ _ _ _ _ _ _ _ _ _ _ _ _ _ _ _ _ _ _ _ _ _ _ _ ?_ rfl rfl rfl rfl rfl rfl rfl rfl
       with_reducible assumption)

end Sys2Proof.Machine
end

