-- ==== Sys2Proof/Laws/KeepsLed.lean ====
section
/-! SUPPORT. What the operations of Machine/Led.lean keep: the queue, the order of time and a sound state. -/

namespace Sys2Proof.Machine

set_option linter.unusedTactic false
set_option linter.unreachableTactic false

theorem keeps_ledPlan (s : State) (a : Act) (chans : List Nat) (iSet : BitVec 10) (dim : BitVec 12) {s0 : State}  (h : Keeps s0 s) :
    Keeps s0 (ledPlan s a chans iSet dim) := by
  unfold ledPlan
  try extract_lets
  repeat' first
    | (with_reducible refine Keeps.of_mk _ _ _ _ _ _ _ _ _ _ _ _ _ _ _ _ _ _ _ _ _ _ _ _ _ _ _ _ _ ?_ rfl rfl rfl rfl rfl rfl rfl rfl
       with_reducible assumption)

theorem keeps_ledFire (s : State) (a : Act) (chans : List Nat) (iSet : Nat) (dim : Nat) {s0 : State}  (h : Keeps s0 s) :
    Keeps s0 (ledFire s a chans iSet dim) := by
  unfold ledFire
  try extract_lets
  repeat' first
    | with_reducible assumption
    | with_reducible apply Keeps.foldl
    | with_reducible apply keeps_addShot
    | with_reducible apply keeps_ledApply
    | with_reducible apply keeps_finish
    | with_reducible apply keeps_replan
    | with_reducible apply Keeps.ite <;> intro _
    | intro _ _ _

theorem keeps_actLedSet (ch : BitVec 4) (dim : BitVec 12) (iSet : BitVec 10) (a : Act) (s : State) {s0 : State}  (h : Keeps s0 s) :
    Keeps s0 (actLedSet ch dim iSet a s) := by
  unfold actLedSet
  try extract_lets
  repeat' first
    | with_reducible assumption
    | with_reducible apply keeps_refuse
    | with_reducible apply keeps_finishAs
    | with_reducible apply keeps_ledApply
    | with_reducible apply keeps_ledFire
    | with_reducible apply keeps_ledPlan
    | with_reducible apply Keeps.ite <;> intro _

theorem keeps_execLedSet (d : Desc) (ch : BitVec 4) (dim : BitVec 12) (iSet : BitVec 10) (s : State) : OutKeeps s (execLedSet d ch dim iSet s) := by
  have h := Keeps.refl s
  unfold execLedSet
  show Keeps _ _
  repeat' first
    | with_reducible assumption
    | with_reducible apply keeps_accept
    | with_reducible apply keeps_actLedSet
    | intro _ _ _

theorem keeps_actLedMulti (mask : BitVec 12) (iSet : BitVec 10) (dim : BitVec 12) (a : Act) (s : State) {s0 : State}  (h : Keeps s0 s) :
    Keeps s0 (actLedMulti mask iSet dim a s) := by
  unfold actLedMulti
  try extract_lets
  repeat' first
    | with_reducible assumption
    | with_reducible apply Keeps.foldl
    | with_reducible apply keeps_refuse
    | with_reducible apply keeps_finishAs
    | with_reducible apply keeps_ledApply
    | with_reducible apply keeps_ledFire
    | with_reducible apply keeps_ledPlan
    | with_reducible apply Keeps.ite <;> intro _
    | intro _ _ _
    | (with_reducible refine Keeps.of_mk _ _ _ _ _ _ _ _ _ _ _ _ _ _ _ _ _ _ _ _ _ _ _ _ _ _ _ _ _ ?_ rfl rfl rfl rfl rfl rfl rfl rfl
       split)

theorem keeps_execLedMulti (d : Desc) (mask : BitVec 12) (iSet : BitVec 10) (dim : BitVec 12) (s : State) : OutKeeps s (execLedMulti d mask iSet dim s) := by
  have h := Keeps.refl s
  unfold execLedMulti
  show Keeps _ _
  repeat' first
    | with_reducible assumption
    | with_reducible apply keeps_accept
    | with_reducible apply keeps_actLedMulti
    | intro _ _ _

theorem keeps_actLedClear (ch : BitVec 4) (a : Act) (s : State) {s0 : State}  (h : Keeps s0 s) :
    Keeps s0 (actLedClear ch a s) := by
  unfold actLedClear
  try extract_lets
  repeat' first
    | with_reducible assumption
    | with_reducible apply keeps_refuse
    | with_reducible apply keeps_State_modLed
    | with_reducible apply keeps_finish
    | with_reducible apply keeps_ledOff
    | with_reducible apply Keeps.ite <;> intro _

theorem keeps_execLedClear (d : Desc) (ch : BitVec 4) (s : State) : OutKeeps s (execLedClear d ch s) := by
  have h := Keeps.refl s
  unfold execLedClear
  show Keeps _ _
  repeat' first
    | with_reducible assumption
    | with_reducible apply keeps_accept
    | with_reducible apply keeps_actLedClear
    | intro _ _ _

theorem keeps_actLedRead (ch : BitVec 4) (a : Act) (s : State) {s0 : State}  (h : Keeps s0 s) :
    Keeps s0 (actLedRead ch a s) := by
  unfold actLedRead
  repeat' first
    | with_reducible assumption
    | with_reducible apply keeps_refuse
    | with_reducible apply keeps_finish
    | with_reducible apply Keeps.ite <;> intro _

theorem keeps_execLedRead (d : Desc) (ch : BitVec 4) (s : State) : OutKeeps s (execLedRead d ch s) := by
  have h := Keeps.refl s
  unfold execLedRead
  show Keeps _ _
  repeat' first
    | with_reducible assumption
    | with_reducible apply keeps_accept
    | with_reducible apply keeps_actLedRead
    | intro _ _ _

theorem keeps_actColourCtl (run : BitVec 1) (a : Act) (s : State) {s0 : State}  (h : Keeps s0 s) :
    Keeps s0 (actColourCtl run a s) := by
  unfold actColourCtl
  try extract_lets
  repeat' first
    | with_reducible apply keeps_finish
    | (with_reducible refine Keeps.of_mk _ _ _ _ _ _ _ _ _ _ _ _ _ _ _ _ _ _ _ _ _ _ _ _ _ _ _ _ _ ?_ rfl rfl rfl rfl rfl rfl rfl rfl
       with_reducible assumption)

theorem keeps_execColourCtl (d : Desc) (run : BitVec 1) (s : State) : OutKeeps s (execColourCtl d run s) := by
  have h := Keeps.refl s
  unfold execColourCtl
  show Keeps _ _
  repeat' first
    | with_reducible assumption
    | with_reducible apply keeps_accept
    | with_reducible apply keeps_actColourCtl
    | intro _ _ _

theorem keeps_execOpenString (ch : Fin 12) (s : State) : OutKeeps s (execOpenString ch s) := by
  have h := Keeps.refl s
  unfold execOpenString
  show Keeps _ _
  try extract_lets
  repeat' first
    | with_reducible assumption
    | with_reducible apply keeps_ledLatch
    | with_reducible apply keeps_logEvent
    | with_reducible apply keeps_State_modLed
    | with_reducible apply Keeps.ite <;> intro _

theorem keeps_execShortedLeds (ch : Fin 12) (short : Bool) (volts : BitVec 12) (s : State) : OutKeeps s (execShortedLeds ch short volts s) := by
  have h := Keeps.refl s
  unfold execShortedLeds
  show Keeps _ _
  try extract_lets
  repeat' first
    | with_reducible assumption
    | with_reducible apply keeps_State_modLed
    | with_reducible apply keeps_logEvent
    | with_reducible apply Keeps.ite <;> intro _

theorem keeps_execStringOvercurrent (ch : Fin 12) (s : State) : OutKeeps s (execStringOvercurrent ch s) := by
  have h := Keeps.refl s
  unfold execStringOvercurrent
  show Keeps _ _
  try extract_lets
  repeat' first
    | with_reducible assumption
    | with_reducible apply keeps_logEvent
    | with_reducible apply keeps_State_modLed
    | with_reducible apply keeps_ledLatch
    | with_reducible apply keeps_ledOff
    | with_reducible apply Keeps.ite <;> intro _

theorem keeps_execStringRetry (ch : Fin 12) (s : State) : OutKeeps s (execStringRetry ch s) := by
  have h := Keeps.refl s
  unfold execStringRetry
  show Keeps _ _
  try extract_lets
  repeat' first
    | with_reducible assumption
    | with_reducible apply Keeps.reach
    | with_reducible apply keeps_State_modLed
    | with_reducible apply keeps_ledDrive
    | with_reducible apply Keeps.ite <;> intro _

theorem keeps_execConverterOt (hot : Bool) (s : State) : OutKeeps s (execConverterOt hot s) := by
  have h := Keeps.refl s
  unfold execConverterOt
  show Keeps _ _
  try extract_lets
  repeat' first
    | with_reducible assumption
    | with_reducible apply keeps_eachLed
    | with_reducible apply keeps_logEvent
    | with_reducible apply keeps_State_modLed
    | with_reducible apply keeps_ledOff
    | with_reducible apply keeps_ledDrive
    | with_reducible apply Keeps.ite <;> intro _
    | intro _ _ _
    | (with_reducible refine Keeps.of_mk _ _ _ _ _ _ _ _ _ _ _ _ _ _ _ _ _ _ _ _ _ _ _ _ _ _ _ _ _ ?_ rfl rfl rfl rfl rfl rfl rfl rfl
       split)

theorem keeps_execNeighbourTest (columns : Bool) (test : Fin 94) (failed : Bool) (s : State) : OutKeeps s (execNeighbourTest columns test failed s) := by
  have h := Keeps.refl s
  unfold execNeighbourTest
  show Keeps _ _
  try extract_lets
  repeat' first
    | with_reducible assumption
    | with_reducible apply Keeps.foldl
    | with_reducible apply keeps_logEvent
    | with_reducible apply keeps_ledLatch
    | with_reducible apply keeps_State_modLed
    | with_reducible apply Keeps.ite <;> intro _
    | intro _ _ _
    | (with_reducible refine Keeps.of_mk _ _ _ _ _ _ _ _ _ _ _ _ _ _ _ _ _ _ _ _ _ _ _ _ _ _ _ _ _ ?_ rfl rfl rfl rfl rfl rfl rfl rfl
       with_reducible assumption)
    | extract_lets
    | dsimp +zetaDelta only

theorem keeps_ledGainWrite (s : State) (c : Nat) (v : BitVec 13) {s0 : State}  (h : Keeps s0 s) :
    Keeps s0 (ledGainWrite s c v) := by
  unfold ledGainWrite
  try extract_lets
  repeat' first
    | with_reducible assumption
    | with_reducible apply Keeps.ite <;> intro _
    | (with_reducible refine Keeps.of_mk _ _ _ _ _ _ _ _ _ _ _ _ _ _ _ _ _ _ _ _ _ _ _ _ _ _ _ _ _ ?_ rfl rfl rfl rfl rfl rfl rfl rfl
       with_reducible assumption)

theorem keeps_colourFail (s : State) {s0 : State}  (h : Keeps s0 s) :
    Keeps s0 (colourFail s) := by
  unfold colourFail
  try extract_lets
  repeat' first
    | with_reducible apply keeps_logEvent
    | with_reducible apply Keeps.ite <;> intro _
    | (with_reducible refine Keeps.of_mk _ _ _ _ _ _ _ _ _ _ _ _ _ _ _ _ _ _ _ _ _ _ _ _ _ _ _ _ _ ?_ rfl rfl rfl rfl rfl rfl rfl rfl
       with_reducible assumption)
    | extract_lets
    | dsimp +zetaDelta only

theorem keeps_execColourStep (ack : Bool) (s : State) : OutKeeps s (execColourStep ack s) := by
  have h := Keeps.refl s
  unfold execColourStep
  show Keeps _ _
  try extract_lets
  repeat' first
    | with_reducible assumption
    | with_reducible apply keeps_colourFail
    | with_reducible apply Keeps.ite <;> intro _
    | (with_reducible refine Keeps.of_mk _ _ _ _ _ _ _ _ _ _ _ _ _ _ _ _ _ _ _ _ _ _ _ _ _ _ _ _ _ ?_ rfl rfl rfl rfl rfl rfl rfl rfl
       with_reducible assumption)

theorem keeps_measuredXy (s : State) (m : Int × Int × Int) {s0 : State}  (h : Keeps s0 s) :
    Keeps s0 (measuredXy s m).2 := by
  unfold measuredXy
  try extract_lets
  repeat' first
    | with_reducible assumption
    | with_reducible apply keeps_State_takeNat
    | with_reducible apply Keeps.ite_snd <;> intro _

theorem keeps_execColourConvDone (ok : Bool) (c0 : BitVec 16) (c1 : BitVec 16) (c2 : BitVec 16) (s : State) : OutKeeps s (execColourConvDone ok c0 c1 c2 s) := by
  have h := Keeps.refl s
  unfold execColourConvDone
  show Keeps _ _
  try extract_lets
  repeat' first
    | with_reducible assumption
    | with_reducible apply Keeps.foldl
    | with_reducible apply keeps_logEvent
    | with_reducible apply keeps_colourFail
    | with_reducible apply Keeps.ite <;> intro _
    | intro _ _ _
    | (with_reducible refine Keeps.of_mk _ _ _ _ _ _ _ _ _ _ _ _ _ _ _ _ _ _ _ _ _ _ _ _ _ _ _ _ _ ?_ rfl rfl rfl rfl rfl rfl rfl rfl
       first
         | with_reducible assumption
         | with_reducible apply keeps_measuredXy
         | with_reducible apply keeps_State_takeNat
         | split
      )
    | extract_lets
    | dsimp only

theorem keeps_actMtxWrite (offset : BitVec 11) (a : Act) (s : State) {s0 : State} (h : Keeps s0 s) :
    Keeps s0 (actMtxWrite offset a s) := by
  have put : ∀ (l : List (Nat × BitVec 8)) (c : List Host.Cell), cellsFrom 0 c = true →
      cellsFrom 0 (l.foldl (fun c x => cellPut c (offset.toNat + x.1) x.2) c) = true := by
    intro l
    induction l with
    | nil => exact fun _ x => x
    | cons y l ih => exact fun c x => ih _ (cellPut_wf _ x (Nat.zero_le _))
  unfold actMtxWrite
  extract_lets o n p
  refine Keeps.ite (fun _ => keeps_refuse _ _ _ _ _ _ h) (fun _ => Keeps.ite (fun _ => keeps_refuse _ _ _ _ _ _ h)
    (fun _ => Keeps.ite (fun _ => keeps_refuse _ _ _ _ _ _ h) (fun _ => keeps_finish _ _ _ _ _
      (Keeps.ite (fun _ => ?_) (fun _ => ?_)))))
  · exact h.of_sound rfl (Nat.le_refl _) (fun x => ⟨x.1, put _ _ x.2.1, x.2.2⟩)
  · exact h.of_sound rfl (Nat.le_refl _) (fun x => ⟨x.1, x.2.1, put _ _ x.2.2.1, x.2.2.2⟩)

theorem keeps_execMtxWrite (d : Desc) (offset : BitVec 11) (s : State) : OutKeeps s (execMtxWrite d offset s) := by
  have h := Keeps.refl s
  unfold execMtxWrite
  show Keeps _ _
  repeat' first
    | with_reducible assumption
    | with_reducible apply keeps_accept
    | with_reducible apply keeps_actMtxWrite
    | intro _ _ _

theorem keeps_actMtxSwap (when_ : BitVec 1) (a : Act) (s : State) {s0 : State}  (h : Keeps s0 s) :
    Keeps s0 (actMtxSwap when_ a s) := by
  unfold actMtxSwap
  try extract_lets
  repeat' first
    | with_reducible assumption
    | with_reducible apply keeps_refuse
    | with_reducible apply keeps_finish
    | with_reducible apply keeps_mtxFrame
    | with_reducible apply keeps_mtxFlip
    | with_reducible apply Keeps.ite <;> intro _
    | (with_reducible refine Keeps.of_mk _ _ _ _ _ _ _ _ _ _ _ _ _ _ _ _ _ _ _ _ _ _ _ _ _ _ _ _ _ ?_ rfl rfl rfl rfl rfl rfl rfl rfl
       with_reducible assumption)

theorem keeps_execMtxSwap (d : Desc) (when_ : BitVec 1) (s : State) : OutKeeps s (execMtxSwap d when_ s) := by
  have h := Keeps.refl s
  unfold execMtxSwap
  show Keeps _ _
  repeat' first
    | with_reducible assumption
    | with_reducible apply keeps_acceptWith
    | with_reducible apply keeps_actMtxSwap
    | exact fun _ k => k
    | intro _ _ _

theorem keeps_actMtxBlank (blank : BitVec 1) (a : Act) (s : State) {s0 : State}  (h : Keeps s0 s) :
    Keeps s0 (actMtxBlank blank a s) := by
  unfold actMtxBlank
  try extract_lets
  repeat' first
    | with_reducible assumption
    | with_reducible apply keeps_refuse
    | with_reducible apply keeps_finish
    | with_reducible apply keeps_mtxDark
    | with_reducible apply Keeps.ite <;> intro _
    | (with_reducible refine Keeps.of_mk _ _ _ _ _ _ _ _ _ _ _ _ _ _ _ _ _ _ _ _ _ _ _ _ _ _ _ _ _ ?_ rfl rfl rfl rfl rfl rfl rfl rfl
       with_reducible assumption)

theorem keeps_execMtxBlank (d : Desc) (blank : BitVec 1) (s : State) : OutKeeps s (execMtxBlank d blank s) := by
  have h := Keeps.refl s
  unfold execMtxBlank
  show Keeps _ _
  repeat' first
    | with_reducible assumption
    | with_reducible apply keeps_accept
    | with_reducible apply keeps_actMtxBlank
    | intro _ _ _

theorem keeps_actMtxClear (a : Act) (s : State) {s0 : State}  (h : Keeps s0 s) :
    Keeps s0 (actMtxClear a s) := by
  unfold actMtxClear
  try extract_lets
  repeat' first
    | with_reducible assumption
    | with_reducible apply keeps_refuse
    | with_reducible apply keeps_finish
    | with_reducible apply Keeps.ite <;> intro _
    | (with_reducible refine Keeps.of_mk _ _ _ _ _ _ _ _ _ _ _ _ _ _ _ _ _ _ _ _ _ _ _ _ _ _ _ _ _ ?_ rfl rfl rfl rfl rfl rfl rfl rfl
       with_reducible assumption)

theorem keeps_execMtxClear (d : Desc) (s : State) : OutKeeps s (execMtxClear d s) := by
  have h := Keeps.refl s
  unfold execMtxClear
  show Keeps _ _
  repeat' first
    | with_reducible assumption
    | with_reducible apply keeps_accept
    | with_reducible apply keeps_actMtxClear
    | intro _ _ _

theorem keeps_execMatrixFrameStart (s : State) : OutKeeps s (execMatrixFrameStart s) := by
  have h := Keeps.refl s
  unfold execMatrixFrameStart
  show Keeps _ _
  try extract_lets
  repeat' first
    | with_reducible assumption
    | with_reducible apply keeps_mtxFrame
    | with_reducible apply Keeps.ite <;> intro _
    | (with_reducible refine Keeps.of_mk _ _ _ _ _ _ _ _ _ _ _ _ _ _ _ _ _ _ _ _ _ _ _ _ _ _ _ _ _ ?_ rfl rfl rfl rfl rfl rfl rfl rfl
       with_reducible assumption)

theorem keeps_execMxSyncEdge (rising : Bool) (s : State) : OutKeeps s (execMxSyncEdge rising s) := by
  have h := Keeps.refl s
  unfold execMxSyncEdge
  show Keeps _ _
  try extract_lets
  repeat' first
    | with_reducible assumption
    | with_reducible apply keeps_mtxFrame
    | with_reducible apply Keeps.advance
    | with_reducible apply Keeps.ite <;> intro _
    | (with_reducible refine Keeps.of_mk _ _ _ _ _ _ _ _ _ _ _ _ _ _ _ _ _ _ _ _ _ _ _ _ _ _ _ _ _ ?_ rfl rfl rfl rfl rfl rfl rfl rfl
       with_reducible assumption)

theorem keeps_execMxSyncLost (s : State) : OutKeeps s (execMxSyncLost s) := by
  have h := Keeps.refl s
  unfold execMxSyncLost
  show Keeps _ _
  try extract_lets
  repeat' first
    | with_reducible assumption
    | with_reducible apply keeps_logEvent
    | with_reducible apply Keeps.ite <;> intro _
    | (with_reducible refine Keeps.of_mk _ _ _ _ _ _ _ _ _ _ _ _ _ _ _ _ _ _ _ _ _ _ _ _ _ _ _ _ _ ?_ rfl rfl rfl rfl rfl rfl rfl rfl
       with_reducible assumption)

theorem keeps_execRowOvercurrent (row : Fin 16) (s : State) : OutKeeps s (execRowOvercurrent row s) := by
  have h := Keeps.refl s
  unfold execRowOvercurrent
  show Keeps _ _
  try extract_lets
  repeat' first
    | with_reducible assumption
    | with_reducible apply keeps_logEvent
    | with_reducible apply keeps_mtxLatch
    | with_reducible apply Keeps.ite <;> intro _
    | (with_reducible refine Keeps.of_mk _ _ _ _ _ _ _ _ _ _ _ _ _ _ _ _ _ _ _ _ _ _ _ _ _ _ _ _ _ ?_ rfl rfl rfl rfl rfl rfl rfl rfl
       with_reducible assumption)

theorem keeps_execMxVsOvercurrent (s : State) : OutKeeps s (execMxVsOvercurrent s) := by
  have h := Keeps.refl s
  unfold execMxVsOvercurrent
  show Keeps _ _
  repeat' first
    | with_reducible assumption
    | with_reducible apply keeps_mtxLatch
    | with_reducible apply Keeps.ite <;> intro _

theorem keeps_execColumnOpen (col : Fin 48) (s : State) : OutKeeps s (execColumnOpen col s) := by
  have h := Keeps.refl s
  unfold execColumnOpen
  show Keeps _ _
  try extract_lets
  repeat' first
    | with_reducible assumption
    | with_reducible apply keeps_logEvent
    | with_reducible apply Keeps.ite <;> intro _
    | (with_reducible refine Keeps.of_mk _ _ _ _ _ _ _ _ _ _ _ _ _ _ _ _ _ _ _ _ _ _ _ _ _ _ _ _ _ ?_ rfl rfl rfl rfl rfl rfl rfl rfl
       with_reducible assumption)

end Sys2Proof.Machine
end

