-- ==== Sys2Proof/Laws/KeepsEdgeCmds.lean ====
section
/-! SUPPORT. What the operations of Machine/EdgeCmds.lean keep: the queue, the order of time and a sound state. -/

namespace Sys2Proof.Machine

set_option linter.unusedTactic false
set_option linter.unreachableTactic false

theorem keeps_actEdgePin (ch : BitVec 7) (phase : BitVec 13) (a : Act) (s : State) {s0 : State}  (h : Keeps s0 s) :
    Keeps s0 (actEdgePin ch phase a s) := by
  unfold actEdgePin
  try extract_lets
  repeat' first
    | with_reducible assumption
    | with_reducible apply keeps_refuse
    | with_reducible apply keeps_finish
    | with_reducible apply keeps_replan
    | with_reducible apply keeps_State_modP
    | with_reducible apply Keeps.ite <;> intro _
    | (with_reducible refine Keeps.of_mk _ _ _ _ _ _ _ _ _ _ _ _ _ _ _ _ _ _ _ _ _ _ _ _ _ _ _ _ _ ?_ rfl rfl rfl rfl rfl rfl rfl rfl
       split)

theorem keeps_execEdgePin (d : Desc) (ch : BitVec 7) (phase : BitVec 13) (s : State) : OutKeeps s (execEdgePin d ch phase s) := by
  have h := Keeps.refl s
  unfold execEdgePin
  show Keeps _ _
  repeat' first
    | with_reducible assumption
    | with_reducible apply keeps_accept
    | with_reducible apply keeps_actEdgePin
    | intro _ _ _

theorem keeps_actEdgeUnpin (ch : BitVec 7) (a : Act) (s : State) {s0 : State}  (h : Keeps s0 s) :
    Keeps s0 (actEdgeUnpin ch a s) := by
  unfold actEdgeUnpin
  try extract_lets
  repeat' first
    | with_reducible assumption
    | with_reducible apply keeps_finish
    | with_reducible apply keeps_replan
    | with_reducible apply keeps_State_modP

theorem keeps_execEdgeUnpin (d : Desc) (ch : BitVec 7) (s : State) : OutKeeps s (execEdgeUnpin d ch s) := by
  have h := Keeps.refl s
  unfold execEdgeUnpin
  show Keeps _ _
  repeat' first
    | with_reducible assumption
    | with_reducible apply keeps_accept
    | with_reducible apply keeps_actEdgeUnpin
    | intro _ _ _

theorem keeps_dropShots (s : State) (p : Planned) {s0 : State}  (h : Keeps s0 s) :
    Keeps s0 (dropShots s p) := by
  unfold dropShots
  try extract_lets
  repeat' first
    | (with_reducible refine Keeps.of_mk _ _ _ _ _ _ _ _ _ _ _ _ _ _ _ _ _ _ _ _ _ _ _ _ _ _ _ _ _ ?_ rfl rfl rfl rfl rfl rfl rfl rfl
       with_reducible assumption)

theorem keeps_plannedTake (s : State) (p : Planned) (slot : Nat) {s0 : State}  (h : Keeps s0 s) :
    Keeps s0 (plannedTake s p slot) := by
  unfold plannedTake
  try extract_lets
  repeat' first
    | with_reducible assumption
    | with_reducible apply Keeps.foldl
    | with_reducible apply keeps_refuse
    | with_reducible apply keeps_dropShots
    | with_reducible apply keeps_finish
    | with_reducible apply keeps_hsoApply
    | with_reducible apply keeps_fioApply
    | with_reducible apply Keeps.ite <;> intro _
    | intro _ _ _
    | (with_reducible refine Keeps.of_mk _ _ _ _ _ _ _ _ _ _ _ _ _ _ _ _ _ _ _ _ _ _ _ _ _ _ _ _ _ ?_ rfl rfl rfl rfl rfl rfl rfl rfl
       first
         | with_reducible assumption
         | split
      )

theorem keeps_execPlannedSwitch (index : BitVec 7) (s : State) : OutKeeps s (execPlannedSwitch index s) := by
  have h := Keeps.refl s
  unfold execPlannedSwitch
  show Keeps _ _
  try extract_lets
  repeat' first
    | with_reducible assumption
    | with_reducible apply keeps_plannedTake
    | with_reducible apply Keeps.reachWeave
    | (with_reducible refine Keeps.of_mk _ _ _ _ _ _ _ _ _ _ _ _ _ _ _ _ _ _ _ _ _ _ _ _ _ _ _ _ _ ?_ rfl rfl rfl rfl rfl rfl rfl rfl
       split)

theorem keeps_ledTake (s : State) (p : LedPend) {s0 : State}  (h : Keeps s0 s) :
    Keeps s0 (ledTake s p) := by
  unfold ledTake
  try extract_lets
  repeat' first
    | with_reducible assumption
    | with_reducible apply Keeps.foldl
    | with_reducible apply keeps_refuse
    | with_reducible apply keeps_finish
    | with_reducible apply keeps_ledApply
    | intro _ _ _
    | (with_reducible refine Keeps.of_mk _ _ _ _ _ _ _ _ _ _ _ _ _ _ _ _ _ _ _ _ _ _ _ _ _ _ _ _ _ ?_ rfl rfl rfl rfl rfl rfl rfl rfl
       first
         | with_reducible assumption
         | split
      )

theorem keeps_retime (s : State) (i : Nat) {s0 : State}  (h : Keeps s0 s) :
    Keeps s0 (retime s i) := by
  unfold retime
  try extract_lets
  repeat' first
    | with_reducible assumption
    | with_reducible apply keeps_replan
    | with_reducible apply keeps_planOn
    | with_reducible apply Keeps.ite <;> intro _
    | (with_reducible refine Keeps.of_mk _ _ _ _ _ _ _ _ _ _ _ _ _ _ _ _ _ _ _ _ _ _ _ _ _ _ _ _ _ ?_ rfl rfl rfl rfl rfl rfl rfl rfl
       split)

theorem keeps_execPwmPeriodStart (index : BitVec 7) (s : State) : OutKeeps s (execPwmPeriodStart index s) := by
  have h := Keeps.refl s
  unfold execPwmPeriodStart
  show Keeps _ _
  try extract_lets
  repeat' first
    | with_reducible assumption
    | with_reducible apply keeps_retime
    | with_reducible apply keeps_State_modP
    | with_reducible apply keeps_plannedTake
    | with_reducible apply keeps_planOnTime
    | with_reducible apply keeps_State_modHso
    | with_reducible apply keeps_ledTake
    | with_reducible apply keeps_State_modLed
    | with_reducible apply Keeps.ite <;> intro _
    | (with_reducible refine Keeps.of_mk _ _ _ _ _ _ _ _ _ _ _ _ _ _ _ _ _ _ _ _ _ _ _ _ _ _ _ _ _ ?_ rfl rfl rfl rfl rfl rfl rfl rfl
       split)

theorem keeps_execPlannerFrameCheck (s : State) : OutKeeps s (execPlannerFrameCheck s) := by
  have h := Keeps.refl s
  unfold execPlannerFrameCheck
  show Keeps _ _
  try extract_lets
  repeat' first
    | with_reducible assumption
    | with_reducible apply keeps_overCheck
    | with_reducible apply keeps_fixedCheck
    | with_reducible apply keeps_clearFrame
    | with_reducible apply Keeps.ite <;> intro _

theorem keeps_endFrame (s : State) {s0 : State}  (h : Keeps s0 s) :
    Keeps s0 (endFrame s) := by
  unfold endFrame
  try extract_lets
  repeat' first
    | (with_reducible refine Keeps.of_mk _ _ _ _ _ _ _ _ _ _ _ _ _ _ _ _ _ _ _ _ _ _ _ _ _ _ _ _ _ ?_ rfl rfl rfl rfl rfl rfl rfl rfl
       with_reducible assumption)

theorem keeps_ledFrame (s : State) {s0 : State}  (h : Keeps s0 s) :
    Keeps s0 (ledFrame s) := by
  unfold ledFrame
  try extract_lets
  repeat' first
    | with_reducible assumption
    | with_reducible apply Keeps.foldl
    | with_reducible apply keeps_ledTake
    | with_reducible apply keeps_eachLed
    | with_reducible apply keeps_logEvent
    | with_reducible apply keeps_ledDrive
    | with_reducible apply keeps_State_modLed
    | with_reducible apply Keeps.ite <;> intro _
    | intro _ _ _

theorem keeps_strandedPeriods (s : State) {s0 : State}  (h : Keeps s0 s) :
    Keeps s0 (strandedPeriods s) := by
  unfold strandedPeriods
  repeat' first
    | with_reducible assumption
    | with_reducible apply Keeps.foldl
    | with_reducible apply keeps_plannedTake
    | intro _ _ _

theorem keeps_execPlannerFrameStart (s : State) : OutKeeps s (execPlannerFrameStart s) := by
  have h := Keeps.refl s
  unfold execPlannerFrameStart
  show Keeps _ _
  try extract_lets
  repeat' first
    | with_reducible assumption
    | with_reducible apply keeps_strandedPeriods
    | with_reducible apply keeps_vlvFrame
    | with_reducible apply keeps_fioFrame
    | with_reducible apply keeps_hsoFrame
    | with_reducible apply keeps_endFrame
    | with_reducible apply keeps_ledFrame
    | with_reducible apply Keeps.ite <;> intro _

theorem keeps_planStep (s : State) {s0 : State}  (h : Keeps s0 s) :
    Keeps s0 (planStep s) := by
  unfold planStep
  try extract_lets
  repeat' first
    | with_reducible apply keeps_logEvent
    | (with_reducible refine Keeps.of_mk _ _ _ _ _ _ _ _ _ _ _ _ _ _ _ _ _ _ _ _ _ _ _ _ _ _ _ _ _ ?_ rfl rfl rfl rfl rfl rfl rfl rfl
       with_reducible assumption)

theorem keeps_planStart (s : State) {s0 : State}  (h : Keeps s0 s) :
    Keeps s0 (planStart s) := by
  unfold planStart
  try extract_lets
  repeat' first
    | (with_reducible refine Keeps.of_mk _ _ _ _ _ _ _ _ _ _ _ _ _ _ _ _ _ _ _ _ _ _ _ _ _ _ _ _ _ ?_ rfl rfl rfl rfl rfl rfl rfl rfl
       with_reducible assumption)

end Sys2Proof.Machine
end

