-- ==== Sys2Proof/Laws/KeepsCanOps.lean ====
section
/-! SUPPORT. What the operations of Machine/CanOps.lean keep: the queue, the order of time and a sound state. -/

namespace Sys2Proof.Machine

set_option linter.unusedTactic false
set_option linter.unreachableTactic false

theorem keeps_State_modCan (s : State) (n : Nat) (f : CanCh → CanCh) {s0 : State}  (h : Keeps s0 s) :
    Keeps s0 (State.modCan s n f) := by
  unfold State.modCan
  try extract_lets
  repeat' first
    | (with_reducible refine Keeps.of_mk _ _ _ _ _ _ _ _ _ _ _ _ _ _ _ _ _ _ _ _ _ _ _ _ _ _ _ _ _ ?_ rfl rfl rfl rfl rfl rfl rfl rfl
       with_reducible assumption)

theorem keeps_schedStop (s : State) (n : Nat) (cause : Nat) {s0 : State}  (h : Keeps s0 s) :
    Keeps s0 (schedStop s n cause) := by
  unfold schedStop
  try extract_lets
  repeat' first
    | with_reducible assumption
    | with_reducible apply keeps_logEvent
    | with_reducible apply keeps_State_modCan
    | with_reducible apply Keeps.ite <;> intro _

theorem keeps_schedCheck (s : State) (n : Nat) {s0 : State}  (h : Keeps s0 s) :
    Keeps s0 (schedCheck s n) := by
  unfold schedCheck
  try extract_lets
  repeat' first
    | with_reducible assumption
    | with_reducible apply keeps_schedStop
    | with_reducible apply keeps_State_modCan
    | with_reducible apply Keeps.ite <;> intro _

theorem keeps_canSync (s : State) (n : Nat) {s0 : State}  (h : Keeps s0 s) :
    Keeps s0 (canSync s n) := by
  unfold canSync
  try extract_lets
  repeat' first
    | with_reducible assumption
    | with_reducible apply keeps_State_modCan
    | with_reducible apply keeps_schedCheck
    | with_reducible apply Keeps.ite <;> intro _

theorem keeps_txComplete (s : State) (f : TxFrame) (b : Nat) (status : Nat) {s0 : State}  (h : Keeps s0 s) :
    Keeps s0 (txComplete s f b status) := by
  unfold txComplete
  try extract_lets
  repeat' first
    | with_reducible assumption
    | with_reducible apply keeps_refuse
    | with_reducible apply keeps_complete
    | with_reducible apply Keeps.ite <;> intro _
    | (with_reducible refine Keeps.of_mk _ _ _ _ _ _ _ _ _ _ _ _ _ _ _ _ _ _ _ _ _ _ _ _ _ _ _ _ _ ?_ rfl rfl rfl rfl rfl rfl rfl rfl
       split)

theorem keeps_cancelsEnd (s : State) (f : TxFrame) (status : Nat) {s0 : State}  (h : Keeps s0 s) :
    Keeps s0 (cancelsEnd s f status) := by
  unfold cancelsEnd
  try extract_lets
  repeat' first
    | with_reducible assumption
    | with_reducible apply Keeps.foldl
    | with_reducible apply keeps_complete
    | intro _ _ _

theorem keeps_txDrop (s : State) (f : TxFrame) (b : Nat) (status : Nat) {s0 : State}  (h : Keeps s0 s) :
    Keeps s0 (txDrop s f b status) := by
  unfold txDrop
  try extract_lets
  repeat' first
    | with_reducible assumption
    | with_reducible apply keeps_cancelsEnd
    | with_reducible apply keeps_txComplete

theorem keeps_canFillN (s : State) (n : Nat) (x0 : Nat) {s0 : State}  (h : Keeps s0 s) :
    Keeps s0 (canFillN s n x0) := by
  induction x0 generalizing s n with
  | zero =>
    unfold canFillN
    try extract_lets
    repeat' first
      | with_reducible assumption
      | with_reducible apply ih
      | with_reducible apply keeps_txComplete
      | with_reducible apply keeps_State_modCan
      | (with_reducible refine Keeps.of_mk _ _ _ _ _ _ _ _ _ _ _ _ _ _ _ _ _ _ _ _ _ _ _ _ _ _ _ _ _ ?_ rfl rfl rfl rfl rfl rfl rfl rfl
         split)
  | succ k ih =>
    unfold canFillN
    try extract_lets
    repeat' first
      | with_reducible assumption
      | with_reducible apply ih
      | with_reducible apply keeps_txComplete
      | with_reducible apply keeps_State_modCan
      | (with_reducible refine Keeps.of_mk _ _ _ _ _ _ _ _ _ _ _ _ _ _ _ _ _ _ _ _ _ _ _ _ _ _ _ _ _ ?_ rfl rfl rfl rfl rfl rfl rfl rfl
         split)

theorem keeps_canFill (s : State) (n : Nat) {s0 : State}  (h : Keeps s0 s) :
    Keeps s0 (canFill s n) := by
  unfold canFill
  repeat' first
    | with_reducible assumption
    | with_reducible apply keeps_canFillN

theorem keeps_freeTb (s : State) (n : Nat) (b : Nat) {s0 : State}  (h : Keeps s0 s) :
    Keeps s0 (freeTb s n b) := by
  unfold freeTb
  try extract_lets
  repeat' first
    | with_reducible assumption
    | with_reducible apply keeps_State_modCan

theorem keeps_canQueue (s : State) (n : Nat) (f : TxFrame) (head : Bool) {s0 : State}  (h : Keeps s0 s) :
    Keeps s0 (canQueue s n f head).2 := by
  unfold canQueue
  try extract_lets
  repeat' first
    | with_reducible assumption
    | with_reducible apply keeps_canFill
    | with_reducible apply keeps_State_modCan
    | with_reducible apply Keeps.ite_snd <;> intro _

theorem keeps_canDump (s : State) (n : Nat) (status : Nat) (keep : Bool) {s0 : State}  (h : Keeps s0 s) :
    Keeps s0 (canDump s n status keep) := by
  unfold canDump
  try extract_lets
  repeat' first
    | with_reducible assumption
    | with_reducible apply Keeps.foldl
    | with_reducible apply keeps_State_modCan
    | with_reducible apply keeps_txDrop
    | intro _ _ _

theorem keeps_enterBusOff (s : State) (n : Nat) {s0 : State}  (h : Keeps s0 s) :
    Keeps s0 (enterBusOff s n) := by
  unfold enterBusOff
  try extract_lets
  repeat' first
    | with_reducible assumption
    | with_reducible apply keeps_State_modCan
    | with_reducible apply keeps_canDump
    | with_reducible apply keeps_canSync
    | with_reducible apply keeps_logEvent

theorem keeps_confine (s : State) (n : Nat) {s0 : State}  (h : Keeps s0 s) :
    Keeps s0 (confine s n) := by
  unfold confine
  try extract_lets
  repeat' first
    | with_reducible assumption
    | with_reducible apply keeps_enterBusOff
    | with_reducible apply keeps_logEvent
    | with_reducible apply keeps_State_modCan
    | with_reducible apply Keeps.ite <;> intro _

theorem keeps_endAckRun (s : State) (n : Nat) {s0 : State}  (h : Keeps s0 s) :
    Keeps s0 (endAckRun s n) := by
  unfold endAckRun
  try extract_lets
  repeat' first
    | with_reducible assumption
    | with_reducible apply keeps_State_modCan
    | with_reducible apply keeps_logEvent
    | with_reducible apply Keeps.ite <;> intro _

theorem keeps_countAck (s : State) (n : Nat) {s0 : State}  (h : Keeps s0 s) :
    Keeps s0 (countAck s n) := by
  unfold countAck
  try extract_lets
  repeat' first
    | with_reducible assumption
    | with_reducible apply keeps_State_modCan
    | with_reducible apply keeps_logEvent
    | with_reducible apply Keeps.ite <;> intro _

theorem keeps_startBackoff (s : State) (n : Nat) {s0 : State}  (h : Keeps s0 s) :
    Keeps s0 (startBackoff s n) := by
  unfold startBackoff
  try extract_lets
  repeat' first
    | with_reducible assumption
    | with_reducible apply keeps_State_modCan

theorem keeps_State_modCf (s : State) (k : Nat) (f : CanCf → CanCf) {s0 : State}  (h : Keeps s0 s) :
    Keeps s0 (State.modCf s k f) := by
  unfold State.modCf
  try extract_lets
  repeat' first
    | (with_reducible refine Keeps.of_mk _ _ _ _ _ _ _ _ _ _ _ _ _ _ _ _ _ _ _ _ _ _ _ _ _ _ _ _ _ ?_ rfl rfl rfl rfl rfl rfl rfl rfl
       with_reducible assumption)

theorem keeps_sendClaim (s : State) (k : Nat) (sa : BitVec 8) {s0 : State}  (h : Keeps s0 s) :
    Keeps s0 (sendClaim s k sa) := by
  unfold sendClaim
  try extract_lets
  repeat' first
    | with_reducible assumption
    | with_reducible apply keeps_canQueue
    | with_reducible apply Keeps.ite <;> intro _

theorem keeps_claimStart (s : State) (k : Nat) (addr : BitVec 8) {s0 : State}  (h : Keeps s0 s) :
    Keeps s0 (claimStart s k addr) := by
  unfold claimStart
  try extract_lets
  repeat' first
    | with_reducible assumption
    | with_reducible apply keeps_sendClaim
    | with_reducible apply keeps_State_modCf

theorem keeps_cannotClaim (s : State) (k : Nat) {s0 : State}  (h : Keeps s0 s) :
    Keeps s0 (cannotClaim s k) := by
  unfold cannotClaim
  try extract_lets
  repeat' first
    | with_reducible assumption
    | with_reducible apply keeps_sendClaim
    | with_reducible apply keeps_State_modCf

theorem keeps_loseAddr (s : State) (k : Nat) {s0 : State}  (h : Keeps s0 s) :
    Keeps s0 (loseAddr s k) := by
  unfold loseAddr
  try extract_lets
  repeat' first
    | with_reducible assumption
    | with_reducible apply keeps_logEvent
    | with_reducible apply keeps_claimStart
    | with_reducible apply keeps_cannotClaim
    | with_reducible apply Keeps.ite <;> intro _
    | (with_reducible refine Keeps.of_mk _ _ _ _ _ _ _ _ _ _ _ _ _ _ _ _ _ _ _ _ _ _ _ _ _ _ _ _ _ ?_ rfl rfl rfl rfl rfl rfl rfl rfl
       split)

theorem keeps_claimRx (s : State) (n : Nat) (sa : BitVec 8) (name : Nat) {s0 : State}  (h : Keeps s0 s) :
    Keeps s0 (claimRx s n sa name) := by
  unfold claimRx
  try extract_lets
  repeat' first
    | with_reducible assumption
    | with_reducible apply Keeps.foldl
    | with_reducible apply keeps_State_modCan
    | with_reducible apply keeps_sendClaim
    | with_reducible apply keeps_loseAddr
    | with_reducible apply Keeps.ite <;> intro _
    | intro _ _ _

theorem keeps_claimRequest (s : State) (n : Nat) (da : BitVec 8) {s0 : State}  (h : Keeps s0 s) :
    Keeps s0 (claimRequest s n da) := by
  unfold claimRequest
  try extract_lets
  repeat' first
    | with_reducible assumption
    | with_reducible apply Keeps.foldl
    | with_reducible apply keeps_sendClaim
    | with_reducible apply Keeps.ite <;> intro _
    | intro _ _ _

theorem keeps_claimAgain (s : State) (n : Nat) {s0 : State}  (h : Keeps s0 s) :
    Keeps s0 (claimAgain s n) := by
  unfold claimAgain
  try extract_lets
  repeat' first
    | with_reducible assumption
    | with_reducible apply Keeps.foldl
    | with_reducible apply keeps_claimStart
    | with_reducible apply Keeps.ite <;> intro _
    | intro _ _ _

theorem keeps_claimAuto (s : State) {s0 : State}  (h : Keeps s0 s) :
    Keeps s0 (claimAuto s) := by
  unfold claimAuto
  try extract_lets
  repeat' first
    | with_reducible assumption
    | with_reducible apply Keeps.foldl
    | with_reducible apply keeps_claimStart
    | with_reducible apply Keeps.ite <;> intro _
    | intro _ _ _
    | (with_reducible refine Keeps.of_mk _ _ _ _ _ _ _ _ _ _ _ _ _ _ _ _ _ _ _ _ _ _ _ _ _ _ _ _ _ ?_ rfl rfl rfl rfl rfl rfl rfl rfl
       split)

theorem keeps_eachCan (s : State) (f : State → Nat → State) {s0 : State} (h_f : ∀ y0 y1, Keeps s0 y0 → Keeps s0 (f y0 y1)) (h : Keeps s0 s) :
    Keeps s0 (eachCan s f) := by
  unfold eachCan
  repeat' first
    | with_reducible assumption
    | with_reducible apply Keeps.foldl

theorem keeps_canDrain (s : State) {s0 : State}  (h : Keeps s0 s) :
    Keeps s0 (canDrain s) := by
  unfold canDrain
  repeat' first
    | with_reducible assumption
    | with_reducible apply keeps_eachCan
    | with_reducible apply keeps_schedStop
    | with_reducible apply keeps_canDump
    | intro _ _ _

theorem keeps_canOff (s : State) {s0 : State}  (h : Keeps s0 s) :
    Keeps s0 (canOff s) := by
  unfold canOff
  try extract_lets
  repeat' first
    | with_reducible assumption
    | with_reducible apply keeps_eachCan
    | with_reducible apply keeps_canDump
    | with_reducible apply keeps_refuse
    | intro _ _ _
    | (with_reducible refine Keeps.of_mk _ _ _ _ _ _ _ _ _ _ _ _ _ _ _ _ _ _ _ _ _ _ _ _ _ _ _ _ _ ?_ rfl rfl rfl rfl rfl rfl rfl rfl
       first
         | with_reducible apply Keeps.foldl
         | split
      )

theorem keeps_canReset (s : State) {s0 : State}  (h : Keeps s0 s) :
    Keeps s0 (canReset s) := by
  unfold canReset
  try extract_lets
  repeat' first
    | (with_reducible refine Keeps.of_mk _ _ _ _ _ _ _ _ _ _ _ _ _ _ _ _ _ _ _ _ _ _ _ _ _ _ _ _ _ ?_ rfl rfl rfl rfl rfl rfl rfl rfl
       with_reducible assumption)

theorem keeps_canClaims (s : State) {s0 : State}  (h : Keeps s0 s) :
    Keeps s0 (canClaims s) := by
  unfold canClaims
  try extract_lets
  repeat' first
    | with_reducible assumption
    | with_reducible apply Keeps.foldl
    | with_reducible apply keeps_schedStop
    | with_reducible apply keeps_canDump
    | with_reducible apply keeps_canSync
    | with_reducible apply keeps_State_modCf
    | with_reducible apply Keeps.ite <;> intro _
    | intro _ _ _
    | (with_reducible refine Keeps.of_mk _ _ _ _ _ _ _ _ _ _ _ _ _ _ _ _ _ _ _ _ _ _ _ _ _ _ _ _ _ ?_ rfl rfl rfl rfl rfl rfl rfl rfl
       with_reducible apply keeps_eachCan)

end Sys2Proof.Machine
end

