-- ==== Sys2Proof/Laws/KeepsNetOps.lean ====
section
/-! SUPPORT. What the operations of Machine/NetOps.lean keep: the queue, the order of time and a sound state. -/

namespace Sys2Proof.Machine

set_option linter.unusedTactic false
set_option linter.unreachableTactic false

theorem keeps_State_modBus (s : State) (n : Nat) (f : NetBus → NetBus) {s0 : State}  (h : Keeps s0 s) :
    Keeps s0 (State.modBus s n f) := by
  unfold State.modBus
  try extract_lets
  repeat' first
    | (with_reducible refine Keeps.of_mk _ _ _ _ _ _ _ _ _ _ _ _ _ _ _ _ _ _ _ _ _ _ _ _ _ _ _ _ _ ?_ rfl rfl rfl rfl rfl rfl rfl rfl
       with_reducible assumption)

theorem keeps_setBus (s : State) (n : Nat) (st : BusSt) {s0 : State}  (h : Keeps s0 s) :
    Keeps s0 (setBus s n st) := by
  unfold setBus
  try extract_lets
  repeat' first
    | with_reducible assumption
    | with_reducible apply keeps_State_modBus
    | with_reducible apply keeps_canSync
    | with_reducible apply keeps_logEvent
    | with_reducible apply Keeps.ite <;> intro _

theorem keeps_replaceKa (s : State) (n : Nat) (f : CanFrame) {s0 : State}  (h : Keeps s0 s) :
    Keeps s0 (replaceKa s n f).2 := by
  unfold replaceKa
  try extract_lets
  repeat' first
    | with_reducible assumption
    | with_reducible apply keeps_State_modCan
    | with_reducible apply Keeps.ite_snd <;> intro _
    | (with_reducible refine Keeps.of_mk _ _ _ _ _ _ _ _ _ _ _ _ _ _ _ _ _ _ _ _ _ _ _ _ _ _ _ _ _ ?_ rfl rfl rfl rfl rfl rfl rfl rfl
       split)

theorem keeps_sendKa (s : State) (n : Nat) {s0 : State}  (h : Keeps s0 s) :
    Keeps s0 (sendKa s n) := by
  unfold sendKa
  try extract_lets
  repeat' first
    | with_reducible assumption
    | with_reducible apply keeps_State_modBus
    | with_reducible apply keeps_replaceKa
    | with_reducible apply keeps_canQueue
    | with_reducible apply keeps_logEvent
    | with_reducible apply Keeps.ite <;> intro _

theorem keeps_cancelSleep (s : State) (n : Nat) (cause : Nat) {s0 : State}  (h : Keeps s0 s) :
    Keeps s0 (cancelSleep s n cause) := by
  unfold cancelSleep
  try extract_lets
  repeat' first
    | with_reducible assumption
    | with_reducible apply keeps_setBus
    | with_reducible apply keeps_State_modBus
    | with_reducible apply keeps_logEvent
    | with_reducible apply keeps_sendKa

theorem keeps_busWoken (s : State) (n : Nat) (cause : BitVec 2) (pat : BitVec 3) (detected : Bool) {s0 : State}  (h : Keeps s0 s) :
    Keeps s0 (busWoken s n cause pat detected) := by
  unfold busWoken
  try extract_lets
  repeat' first
    | with_reducible assumption
    | with_reducible apply keeps_State_modBus
    | with_reducible apply keeps_setBus
    | with_reducible apply keeps_logEvent
    | with_reducible apply Keeps.ite <;> intro _
    | (with_reducible refine Keeps.of_mk _ _ _ _ _ _ _ _ _ _ _ _ _ _ _ _ _ _ _ _ _ _ _ _ _ _ _ _ _ ?_ rfl rfl rfl rfl rfl rfl rfl rfl
       with_reducible apply keeps_State_modBus)

theorem keeps_trackRun (s : State) (n : Nat) {s0 : State}  (h : Keeps s0 s) :
    Keeps s0 (trackRun s n) := by
  unfold trackRun
  try extract_lets
  repeat' first
    | with_reducible assumption
    | with_reducible apply keeps_State_modBus

theorem keeps_endBars (s : State) (n : Nat) (cause : Nat) {s0 : State}  (h : Keeps s0 s) :
    Keeps s0 (endBars s n cause) := by
  unfold endBars
  try extract_lets
  repeat' first
    | with_reducible assumption
    | with_reducible apply keeps_logEvent
    | with_reducible apply keeps_State_modBus
    | with_reducible apply Keeps.ite <;> intro _

theorem keeps_eachBus (s : State) (f : State → Nat → State) {s0 : State} (h_f : ∀ y0 y1, Keeps s0 y0 → Keeps s0 (f y0 y1)) (h : Keeps s0 s) :
    Keeps s0 (eachBus s f) := by
  unfold eachBus
  repeat' first
    | with_reducible assumption
    | with_reducible apply Keeps.foldl

theorem keeps_netEval (s : State) (n : Nat) {s0 : State}  (h : Keeps s0 s) :
    Keeps s0 (netEval s n) := by
  unfold netEval
  try extract_lets
  repeat' first
    | with_reducible assumption
    | with_reducible apply keeps_setBus
    | with_reducible apply keeps_State_modBus
    | with_reducible apply keeps_cancelSleep
    | with_reducible apply keeps_sendKa
    | with_reducible apply keeps_busWoken
    | with_reducible apply keeps_trackRun
    | with_reducible apply Keeps.ite <;> intro _
    | (with_reducible refine Keeps.of_mk _ _ _ _ _ _ _ _ _ _ _ _ _ _ _ _ _ _ _ _ _ _ _ _ _ _ _ _ _ ?_ rfl rfl rfl rfl rfl rfl rfl rfl
       split)

theorem keeps_netAll (s : State) {s0 : State}  (h : Keeps s0 s) :
    Keeps s0 (netAll s) := by
  unfold netAll
  repeat' first
    | with_reducible assumption
    | with_reducible apply keeps_eachBus
    | with_reducible apply keeps_netEval
    | with_reducible apply keeps_canSync
    | intro _ _ _

theorem keeps_netKl15 (s : State) {s0 : State}  (h : Keeps s0 s) :
    Keeps s0 (netKl15 s) := by
  unfold netKl15
  repeat' first
    | with_reducible assumption
    | with_reducible apply keeps_netAll
    | with_reducible apply keeps_eachBus
    | with_reducible apply keeps_endBars
    | with_reducible apply Keeps.ite <;> intro _
    | intro _ _ _

theorem keeps_countKa (s : State) (n : Nat) (key : Option (BitVec 29)) {s0 : State}  (h : Keeps s0 s) :
    Keeps s0 (countKa s n key) := by
  unfold countKa
  try extract_lets
  repeat' first
    | with_reducible assumption
    | with_reducible apply keeps_State_modBus
    | with_reducible apply keeps_setBus
    | with_reducible apply Keeps.ite <;> intro _

theorem keeps_restartGrace (s : State) (n : Nat) {s0 : State}  (h : Keeps s0 s) :
    Keeps s0 (restartGrace s n) := by
  unfold restartGrace
  try extract_lets
  repeat' first
    | with_reducible assumption
    | with_reducible apply keeps_State_modBus
    | with_reducible apply Keeps.ite <;> intro _

theorem keeps_netSeen (s : State) (n : Nat) (f : CanFrame) {s0 : State}  (h : Keeps s0 s) :
    Keeps s0 (netSeen s n f) := by
  unfold netSeen
  try extract_lets
  repeat' first
    | with_reducible assumption
    | with_reducible apply keeps_countKa
    | with_reducible apply keeps_cancelSleep
    | with_reducible apply keeps_restartGrace
    | with_reducible apply Keeps.ite <;> intro _
    | (with_reducible refine Keeps.of_mk _ _ _ _ _ _ _ _ _ _ _ _ _ _ _ _ _ _ _ _ _ _ _ _ _ _ _ _ _ ?_ rfl rfl rfl rfl rfl rfl rfl rfl
       split)

theorem keeps_netSent (s : State) (n : Nat) (kind : TxKind) (ok : Bool) {s0 : State}  (h : Keeps s0 s) :
    Keeps s0 (netSent s n kind ok) := by
  unfold netSent
  repeat' first
    | with_reducible assumption
    | with_reducible apply keeps_countKa
    | with_reducible apply keeps_restartGrace
    | with_reducible apply Keeps.ite <;> intro _

theorem keeps_busSleep (s : State) (n : Nat) {s0 : State}  (h : Keeps s0 s) :
    Keeps s0 (busSleep s n) := by
  unfold busSleep
  try extract_lets
  repeat' first
    | with_reducible assumption
    | with_reducible apply keeps_State_modBus
    | with_reducible apply keeps_setBus
    | with_reducible apply keeps_canDump

theorem keeps_netReset (s : State) (cold : Bool) {s0 : State}  (h : Keeps s0 s) :
    Keeps s0 (netReset s cold) := by
  unfold netReset
  try extract_lets
  repeat' first
    | (with_reducible refine Keeps.of_mk _ _ _ _ _ _ _ _ _ _ _ _ _ _ _ _ _ _ _ _ _ _ _ _ _ _ _ _ _ ?_ rfl rfl rfl rfl rfl rfl rfl rfl
       with_reducible assumption)

theorem keeps_netStart (s : State) (cold : Bool) {s0 : State}  (h : Keeps s0 s) :
    Keeps s0 (netStart s cold) := by
  unfold netStart
  try extract_lets
  repeat' first
    | with_reducible assumption
    | with_reducible apply keeps_eachBus
    | with_reducible apply keeps_setBus
    | with_reducible apply keeps_State_modBus
    | with_reducible apply keeps_netKl15
    | with_reducible apply Keeps.ite <;> intro _
    | intro _ _ _

end Sys2Proof.Machine
end

