-- ==== Sys2Proof/Laws/KeepsCanTp.lean ====
section
/-! SUPPORT. What the operations of Machine/CanTp.lean keep: the queue, the order of time and a sound state. -/

namespace Sys2Proof.Machine

set_option linter.unusedTactic false
set_option linter.unreachableTactic false

theorem keeps_tpFrame (s : State) (n : Nat) (prio : Nat) (pf : Nat) (da : Nat) (sa : Nat) (data : List (BitVec 8)) (session : Option Nat) {s0 : State}  (h : Keeps s0 s) :
    Keeps s0 (tpFrame s n prio pf da sa data session) := by
  unfold tpFrame
  repeat' first
    | with_reducible assumption
    | with_reducible apply keeps_canQueue
    | with_reducible apply Keeps.ite <;> intro _

theorem keeps_State_setSend (s : State) (x : TpSend) {s0 : State}  (h : Keeps s0 s) :
    Keeps s0 (State.setSend s x) := by
  unfold State.setSend
  try extract_lets
  repeat' first
    | (with_reducible refine Keeps.of_mk _ _ _ _ _ _ _ _ _ _ _ _ _ _ _ _ _ _ _ _ _ _ _ _ _ _ _ _ _ ?_ rfl rfl rfl rfl rfl rfl rfl rfl
       with_reducible assumption)

theorem keeps_tpCm (s : State) (x : TpSend) (head : List (BitVec 8)) {s0 : State}  (h : Keeps s0 s) :
    Keeps s0 (tpCm s x head) := by
  unfold tpCm
  try extract_lets
  repeat' first
    | with_reducible assumption
    | with_reducible apply keeps_tpFrame

theorem keeps_tpNext (s : State) (x : TpSend) {s0 : State}  (h : Keeps s0 s) :
    Keeps s0 (tpNext s x) := by
  unfold tpNext
  try extract_lets
  repeat' first
    | with_reducible assumption
    | with_reducible apply keeps_State_setSend
    | with_reducible apply keeps_tpFrame

theorem keeps_tpEnd (s : State) (x : TpSend) (status : Nat) (detail : Nat) (r0 : Nat) {s0 : State}  (h : Keeps s0 s) :
    Keeps s0 (tpEnd s x status detail r0) := by
  unfold tpEnd
  try extract_lets
  repeat' first
    | with_reducible apply keeps_complete
    | (with_reducible refine Keeps.of_mk _ _ _ _ _ _ _ _ _ _ _ _ _ _ _ _ _ _ _ _ _ _ _ _ _ _ _ _ _ ?_ rfl rfl rfl rfl rfl rfl rfl rfl
       first
         | with_reducible assumption
         | split
      )

theorem keeps_tpAborted (s : State) (x : TpSend) (reason : Nat) {s0 : State}  (h : Keeps s0 s) :
    Keeps s0 (tpAborted s x reason) := by
  unfold tpAborted
  repeat' first
    | with_reducible assumption
    | with_reducible apply keeps_tpEnd
    | with_reducible apply keeps_logEvent

theorem keeps_tpSendAbort (s : State) (x : TpSend) (reason : Nat) {s0 : State}  (h : Keeps s0 s) :
    Keeps s0 (tpSendAbort s x reason) := by
  unfold tpSendAbort
  repeat' first
    | with_reducible assumption
    | with_reducible apply keeps_tpCm
    | with_reducible apply Keeps.ite <;> intro _

theorem keeps_tpOpen (s : State) (x : TpSend) {s0 : State}  (h : Keeps s0 s) :
    Keeps s0 (tpOpen s x) := by
  unfold tpOpen
  try extract_lets
  repeat' first
    | with_reducible apply keeps_tpCm
    | with_reducible apply keeps_State_setSend
    | with_reducible apply Keeps.ite <;> intro _
    | (with_reducible refine Keeps.of_mk _ _ _ _ _ _ _ _ _ _ _ _ _ _ _ _ _ _ _ _ _ _ _ _ _ _ _ _ _ ?_ rfl rfl rfl rfl rfl rfl rfl rfl
       with_reducible assumption)

theorem keeps_tpRequest (s : State) (x : TpSend) {s0 : State}  (h : Keeps s0 s) :
    Keeps s0 (tpRequest s x) := by
  unfold tpRequest
  try extract_lets
  repeat' first
    | with_reducible assumption
    | with_reducible apply keeps_refuse
    | with_reducible apply keeps_logEvent
    | with_reducible apply keeps_tpOpen
    | with_reducible apply Keeps.ite <;> intro _
    | (with_reducible refine Keeps.of_mk _ _ _ _ _ _ _ _ _ _ _ _ _ _ _ _ _ _ _ _ _ _ _ _ _ _ _ _ _ ?_ rfl rfl rfl rfl rfl rfl rfl rfl
       split)

theorem keeps_tpSentOne (s : State) (id : Nat) {s0 : State}  (h : Keeps s0 s) :
    Keeps s0 (tpSentOne s id) := by
  unfold tpSentOne
  try extract_lets
  repeat' first
    | with_reducible assumption
    | with_reducible apply keeps_tpNext
    | with_reducible apply Keeps.ite <;> intro _
    | (with_reducible refine Keeps.of_mk _ _ _ _ _ _ _ _ _ _ _ _ _ _ _ _ _ _ _ _ _ _ _ _ _ _ _ _ _ ?_ rfl rfl rfl rfl rfl rfl rfl rfl
       split)

theorem keeps_tpSendRx (s : State) (x : TpSend) (b : Nat → Nat) {s0 : State}  (h : Keeps s0 s) :
    Keeps s0 (tpSendRx s x b) := by
  unfold tpSendRx
  try extract_lets
  repeat' first
    | with_reducible assumption
    | with_reducible apply keeps_tpNext
    | with_reducible apply keeps_State_setSend
    | with_reducible apply keeps_tpCm
    | with_reducible apply keeps_tpEnd
    | with_reducible apply keeps_tpAborted
    | with_reducible apply Keeps.ite <;> intro _
    | (with_reducible refine Keeps.of_mk _ _ _ _ _ _ _ _ _ _ _ _ _ _ _ _ _ _ _ _ _ _ _ _ _ _ _ _ _ ?_ rfl rfl rfl rfl rfl rfl rfl rfl
       split)

theorem keeps_State_setRecv (s : State) (x : TpRecv) {s0 : State}  (h : Keeps s0 s) :
    Keeps s0 (State.setRecv s x) := by
  unfold State.setRecv
  try extract_lets
  repeat' first
    | (with_reducible refine Keeps.of_mk _ _ _ _ _ _ _ _ _ _ _ _ _ _ _ _ _ _ _ _ _ _ _ _ _ _ _ _ _ ?_ rfl rfl rfl rfl rfl rfl rfl rfl
       with_reducible assumption)

theorem keeps_recvEnd (s : State) (x : TpRecv) {s0 : State}  (h : Keeps s0 s) :
    Keeps s0 (recvEnd s x) := by
  unfold recvEnd
  try extract_lets
  repeat' first
    | (with_reducible refine Keeps.of_mk _ _ _ _ _ _ _ _ _ _ _ _ _ _ _ _ _ _ _ _ _ _ _ _ _ _ _ _ _ ?_ rfl rfl rfl rfl rfl rfl rfl rfl
       with_reducible assumption)

theorem keeps_recvCm (s : State) (x : TpRecv) (head : List (BitVec 8)) {s0 : State}  (h : Keeps s0 s) :
    Keeps s0 (recvCm s x head) := by
  unfold recvCm
  repeat' first
    | with_reducible assumption
    | with_reducible apply keeps_tpFrame

theorem keeps_recvCts (s : State) (x : TpRecv) {s0 : State}  (h : Keeps s0 s) :
    Keeps s0 (recvCts s x) := by
  unfold recvCts
  try extract_lets
  repeat' first
    | with_reducible assumption
    | with_reducible apply keeps_State_setRecv
    | with_reducible apply keeps_recvCm
    | with_reducible apply Keeps.ite <;> intro _

theorem keeps_tpDeliver (s : State) (x : TpRecv) {s0 : State}  (h : Keeps s0 s) :
    Keeps s0 (tpDeliver s x) := by
  unfold tpDeliver
  try extract_lets
  repeat' first
    | with_reducible assumption
    | with_reducible apply Keeps.foldl
    | with_reducible apply keeps_inbound
    | with_reducible apply Keeps.ite <;> intro _
    | intro _ _ _

theorem keeps_recvData (s : State) (x : TpRecv) (seq : Nat) (bytes : List (BitVec 8)) {s0 : State}  (h : Keeps s0 s) :
    Keeps s0 (recvData s x seq bytes) := by
  unfold recvData
  try extract_lets
  repeat' first
    | with_reducible assumption
    | with_reducible apply keeps_State_setRecv
    | with_reducible apply keeps_recvCm
    | with_reducible apply keeps_tpDeliver
    | with_reducible apply keeps_recvEnd
    | with_reducible apply keeps_recvCts
    | with_reducible apply Keeps.ite <;> intro _

theorem keeps_recvOpen (s : State) (x : TpRecv) {s0 : State}  (h : Keeps s0 s) :
    Keeps s0 (recvOpen s x) := by
  unfold recvOpen
  try extract_lets
  repeat' first
    | with_reducible assumption
    | with_reducible apply keeps_logEvent
    | with_reducible apply keeps_recvCm
    | with_reducible apply keeps_State_setRecv
    | with_reducible apply keeps_recvCts
    | with_reducible apply Keeps.ite <;> intro _
    | (with_reducible refine Keeps.of_mk _ _ _ _ _ _ _ _ _ _ _ _ _ _ _ _ _ _ _ _ _ _ _ _ _ _ _ _ _ ?_ rfl rfl rfl rfl rfl rfl rfl rfl
       first
         | with_reducible assumption
         | split
      )
    | extract_lets
    | dsimp only
    | dsimp +zetaDelta only

theorem keeps_servicesRx (s : State) (n : Nat) (f : CanFrame) {s0 : State}  (h : Keeps s0 s) :
    Keeps s0 (servicesRx s n f) := by
  unfold servicesRx
  try extract_lets
  repeat' first
    | with_reducible assumption
    | with_reducible apply keeps_claimRx
    | with_reducible apply keeps_claimRequest
    | with_reducible apply keeps_recvOpen
    | with_reducible apply keeps_State_setRecv
    | with_reducible apply keeps_logEvent
    | with_reducible apply keeps_recvEnd
    | with_reducible apply keeps_tpSendRx
    | with_reducible apply keeps_recvData
    | with_reducible apply Keeps.ite <;> intro _
    | (with_reducible refine Keeps.of_mk _ _ _ _ _ _ _ _ _ _ _ _ _ _ _ _ _ _ _ _ _ _ _ _ _ _ _ _ _ ?_ rfl rfl rfl rfl rfl rfl rfl rfl
       split)
    | extract_lets
    | dsimp only
    | dsimp +zetaDelta only

theorem keeps_tpCancel (s : State) (d : Desc) {s0 : State} (h : Keeps s0 s) : OptKeeps s0 (tpCancel s d) := by
  unfold tpCancel
  generalize List.find? _ _ = o
  cases o with
  | none => exact True.intro
  | some x => exact keeps_tpEnd _ _ _ _ _ (keeps_tpSendAbort _ _ _ h)

end Sys2Proof.Machine
end

