-- ==== Sys2Proof/Laws/KeepsAccOps.lean ====
section
/-! SUPPORT. What the operations of Machine/AccOps.lean keep: the queue, the order of time and a sound state. -/

namespace Sys2Proof.Machine

set_option linter.unusedTactic false
set_option linter.unreachableTactic false

theorem keeps_State_modTok (s : State) (k : Nat) (f : AccTok → AccTok) {s0 : State}  (h : Keeps s0 s) :
    Keeps s0 (State.modTok s k f) := by
  unfold State.modTok
  try extract_lets
  repeat' first
    | (with_reducible refine Keeps.of_mk _ _ _ _ _ _ _ _ _ _ _ _ _ _ _ _ _ _ _ _ _ _ _ _ _ _ _ _ _ ?_ rfl rfl rfl rfl rfl rfl rfl rfl
       with_reducible assumption)

theorem keeps_putCopy (s : State) (zero : Bool) (ok : Bool) {s0 : State}  (h : Keeps s0 s) :
    Keeps s0 (putCopy s zero ok) := by
  unfold putCopy
  try extract_lets
  repeat' first
    | with_reducible apply Keeps.ite <;> intro _
    | (with_reducible refine Keeps.of_mk _ _ _ _ _ _ _ _ _ _ _ _ _ _ _ _ _ _ _ _ _ _ _ _ _ _ _ _ _ ?_ rfl rfl rfl rfl rfl rfl rfl rfl
       with_reducible assumption)

theorem keeps_lockBegin (s : State) (raise : Bool) {s0 : State}  (h : Keeps s0 s) :
    Keeps s0 (lockBegin s raise) := by
  unfold lockBegin
  try extract_lets
  repeat' first
    | with_reducible apply keeps_logEvent
    | (with_reducible refine Keeps.of_mk _ _ _ _ _ _ _ _ _ _ _ _ _ _ _ _ _ _ _ _ _ _ _ _ _ _ _ _ _ ?_ rfl rfl rfl rfl rfl rfl rfl rfl
       with_reducible assumption)

theorem keeps_searchEnd (s : State) (status : Nat) (r0 : Nat) (r1 : Nat) {s0 : State}  (h : Keeps s0 s) :
    Keeps s0 (searchEnd s status r0 r1) := by
  unfold searchEnd
  try extract_lets
  repeat' first
    | with_reducible assumption
    | with_reducible apply keeps_complete
    | (with_reducible refine Keeps.of_mk _ _ _ _ _ _ _ _ _ _ _ _ _ _ _ _ _ _ _ _ _ _ _ _ _ _ _ _ _ ?_ rfl rfl rfl rfl rfl rfl rfl rfl
       first
         | with_reducible assumption
         | split
      )

theorem keeps_lockOut (s : State) (raise : Bool) {s0 : State}  (h : Keeps s0 s) :
    Keeps s0 (lockOut s raise) := by
  unfold lockOut
  repeat' first
    | with_reducible assumption
    | with_reducible apply keeps_searchEnd
    | with_reducible apply keeps_lockBegin

theorem keeps_accWrite (s : State) (fails : BitVec 2) {s0 : State}  (h : Keeps s0 s) :
    Keeps s0 (accWrite s fails) := by
  unfold accWrite
  try extract_lets
  repeat' first
    | with_reducible assumption
    | with_reducible apply keeps_putCopy
    | with_reducible apply keeps_logEvent
    | with_reducible apply keeps_lockOut
    | with_reducible apply Keeps.ite <;> intro _

theorem keeps_accLoad (s : State) (powerOn : Bool) {s0 : State}  (h : Keeps s0 s) :
    Keeps s0 (accLoad s powerOn) := by
  unfold accLoad
  try extract_lets
  repeat' first
    | with_reducible assumption
    | with_reducible apply keeps_lockOut
    | with_reducible apply keeps_logEvent
    | with_reducible apply Keeps.ite <;> intro _
    | (with_reducible refine Keeps.of_mk _ _ _ _ _ _ _ _ _ _ _ _ _ _ _ _ _ _ _ _ _ _ _ _ _ _ _ _ _ ?_ rfl rfl rfl rfl rfl rfl rfl rfl
       first
         | with_reducible assumption
         | split
      )

theorem keeps_sessionEnd (s : State) {s0 : State}  (h : Keeps s0 s) :
    Keeps s0 (sessionEnd s) := by
  unfold sessionEnd
  try extract_lets
  repeat' first
    | (with_reducible refine Keeps.of_mk _ _ _ _ _ _ _ _ _ _ _ _ _ _ _ _ _ _ _ _ _ _ _ _ _ _ _ _ _ ?_ rfl rfl rfl rfl rfl rfl rfl rfl
       with_reducible assumption)

theorem keeps_searchStart (s : State) (reason : Nat) (act : Option Act) {s0 : State}  (h : Keeps s0 s) :
    Keeps s0 (searchStart s reason act) := by
  unfold searchStart
  try extract_lets
  repeat' first
    | with_reducible assumption
    | (with_reducible refine Keeps.of_mk _ _ _ _ _ _ _ _ _ _ _ _ _ _ _ _ _ _ _ _ _ _ _ _ _ _ _ _ _ ?_ rfl rfl rfl rfl rfl rfl rfl rfl
       with_reducible apply keeps_searchEnd)

theorem keeps_searchOnMode (s : State) {s0 : State}  (h : Keeps s0 s) :
    Keeps s0 (searchOnMode s) := by
  unfold searchOnMode
  repeat' first
    | with_reducible assumption
    | with_reducible apply keeps_searchStart
    | with_reducible apply Keeps.ite <;> intro _

theorem keeps_pollStart (s : State) {s0 : State}  (h : Keeps s0 s) :
    Keeps s0 (pollStart s) := by
  unfold pollStart
  try extract_lets
  repeat' first
    | with_reducible assumption
    | with_reducible apply keeps_State_takeBytes
    | with_reducible apply Keeps.ite <;> intro _
    | (with_reducible refine Keeps.of_mk _ _ _ _ _ _ _ _ _ _ _ _ _ _ _ _ _ _ _ _ _ _ _ _ _ _ _ _ _ ?_ rfl rfl rfl rfl rfl rfl rfl rfl
       with_reducible apply keeps_State_send)

theorem keeps_countFailure (s : State) (slot : Nat) (copyFails : BitVec 2) {s0 : State}  (h : Keeps s0 s) :
    Keeps s0 (countFailure s slot copyFails) := by
  unfold countFailure
  try extract_lets
  repeat' first
    | with_reducible apply keeps_logEvent
    | with_reducible apply keeps_accWrite
    | with_reducible apply keeps_lockOut
    | with_reducible apply Keeps.ite <;> intro _
    | (with_reducible refine Keeps.of_mk _ _ _ _ _ _ _ _ _ _ _ _ _ _ _ _ _ _ _ _ _ _ _ _ _ _ _ _ _ ?_ rfl rfl rfl rfl rfl rfl rfl rfl
       with_reducible assumption)

theorem keeps_takeAnswer (copyFails : BitVec 2) (r : List (Nat × Nat) × State) (a : TokenAnswer) {s0 : State}  (h : Keeps s0 r.2) :
    Keeps s0 (takeAnswer copyFails r a).2 := by
  unfold takeAnswer
  try extract_lets
  repeat' first
    | with_reducible assumption
    | with_reducible apply keeps_logEvent
    | with_reducible apply keeps_State_modTok
    | with_reducible apply keeps_countFailure
    | with_reducible apply Keeps.ite_snd <;> intro _

theorem keeps_authenticate (s : State) (l : List (Nat × Nat)) {s0 : State}  (h : Keeps s0 s) :
    Keeps s0 (authenticate s l) := by
  unfold authenticate
  try extract_lets
  repeat' first
    | with_reducible assumption
    | with_reducible apply keeps_searchEnd
    | (with_reducible refine Keeps.of_mk _ _ _ _ _ _ _ _ _ _ _ _ _ _ _ _ _ _ _ _ _ _ _ _ _ _ _ _ _ ?_ rfl rfl rfl rfl rfl rfl rfl rfl
       first
         | with_reducible apply keeps_logEvent
         | split
      )

theorem keeps_relReserve (s : State) {s0 : State}  (h : Keeps s0 s) :
    Keeps s0 (relReserve s) := by
  unfold relReserve
  try extract_lets
  repeat' first
    | with_reducible assumption
    | with_reducible apply keeps_accWrite
    | with_reducible apply Keeps.ite <;> intro _
    | (with_reducible refine Keeps.of_mk _ _ _ _ _ _ _ _ _ _ _ _ _ _ _ _ _ _ _ _ _ _ _ _ _ _ _ _ _ ?_ rfl rfl rfl rfl rfl rfl rfl rfl
       with_reducible assumption)

theorem keeps_relSend (s : State) {s0 : State}  (h : Keeps s0 s) :
    Keeps s0 (relSend s) := by
  unfold relSend
  try extract_lets
  repeat' first
    | with_reducible assumption
    | with_reducible apply keeps_netEval
    | with_reducible apply keeps_tpRequest
    | with_reducible apply keeps_canQueue
    | with_reducible apply Keeps.ite <;> intro _
    | (with_reducible refine Keeps.of_mk _ _ _ _ _ _ _ _ _ _ _ _ _ _ _ _ _ _ _ _ _ _ _ _ _ _ _ _ _ ?_ rfl rfl rfl rfl rfl rfl rfl rfl
       with_reducible apply keeps_relReserve)

theorem keeps_accReset (s : State) {s0 : State}  (h : Keeps s0 s) :
    Keeps s0 (accReset s) := by
  unfold accReset
  try extract_lets
  repeat' first
    | (with_reducible refine Keeps.of_mk _ _ _ _ _ _ _ _ _ _ _ _ _ _ _ _ _ _ _ _ _ _ _ _ _ _ _ _ _ ?_ rfl rfl rfl rfl rfl rfl rfl rfl
       with_reducible assumption)

end Sys2Proof.Machine
end

