-- ==== Sys2Proof/Laws/KeepsUpdOps.lean ====
section
/-! SUPPORT. What the operations of Machine/UpdOps.lean keep: the queue, the order of time and a sound state. -/

namespace Sys2Proof.Machine

set_option linter.unusedTactic false
set_option linter.unreachableTactic false

theorem keeps_bootPut (s : State) (r : BootRec) {s0 : State}  (h : Keeps s0 s) :
    Keeps s0 (bootPut s r) := by
  unfold bootPut
  try extract_lets
  repeat' first
    | with_reducible apply Keeps.ite <;> intro _
    | (with_reducible refine Keeps.of_mk _ _ _ _ _ _ _ _ _ _ _ _ _ _ _ _ _ _ _ _ _ _ _ _ _ _ _ _ _ ?_ rfl rfl rfl rfl rfl rfl rfl rfl
       with_reducible assumption)

theorem keeps_bootWrite (s : State) (r : BootRec) (why : BootWhy) {s0 : State}  (h : Keeps s0 s) :
    Keeps s0 (bootWrite s r why) := by
  unfold bootWrite
  try extract_lets
  repeat' first
    | (with_reducible refine Keeps.of_mk _ _ _ _ _ _ _ _ _ _ _ _ _ _ _ _ _ _ _ _ _ _ _ _ _ _ _ _ _ ?_ rfl rfl rfl rfl rfl rfl rfl rfl
       with_reducible assumption)

theorem keeps_fallbackNow (s : State) (cause : Nat) {s0 : State}  (h : Keeps s0 s) :
    Keeps s0 (fallbackNow s cause) := by
  unfold fallbackNow
  repeat' first
    | with_reducible assumption
    | with_reducible apply keeps_logEvent
    | with_reducible apply keeps_bootPut

theorem keeps_mediaFlag (s : State) (v : Bool) {s0 : State}  (h : Keeps s0 s) :
    Keeps s0 (mediaFlag s v) := by
  unfold mediaFlag
  try extract_lets
  repeat' first
    | with_reducible assumption
    | with_reducible apply keeps_bootWrite
    | with_reducible apply Keeps.ite <;> intro _

theorem keeps_bootSelect (s : State) {s0 : State}  (h : Keeps s0 s) :
    Keeps s0 (bootSelect s) := by
  unfold bootSelect
  try extract_lets
  repeat' first
    | with_reducible apply keeps_logEvent
    | with_reducible apply Keeps.ite <;> intro _
    | (with_reducible refine Keeps.of_mk _ _ _ _ _ _ _ _ _ _ _ _ _ _ _ _ _ _ _ _ _ _ _ _ _ _ _ _ _ ?_ rfl rfl rfl rfl rfl rfl rfl rfl
       first
         | with_reducible assumption
         | split
      )

theorem keeps_State_modArea (s : State) (one : Bool) (f : SetArea → SetArea) {s0 : State}  (h : Keeps s0 s) :
    Keeps s0 (State.modArea s one f) := by
  unfold State.modArea
  try extract_lets
  repeat' first
    | with_reducible apply Keeps.ite <;> intro _
    | (with_reducible refine Keeps.of_mk _ _ _ _ _ _ _ _ _ _ _ _ _ _ _ _ _ _ _ _ _ _ _ _ _ _ _ _ _ ?_ rfl rfl rfl rfl rfl rfl rfl rfl
       with_reducible assumption)

theorem keeps_settingsStart (s : State) (first : Bool) {s0 : State}  (h : Keeps s0 s) :
    Keeps s0 (settingsStart s first).2 := by
  unfold settingsStart
  try extract_lets
  repeat' first
    | with_reducible assumption
    | with_reducible apply keeps_State_modArea
    | with_reducible apply keeps_fallbackNow
    | with_reducible apply Keeps.ite_snd <;> intro _
    | (with_reducible refine Keeps.of_mk _ _ _ _ _ _ _ _ _ _ _ _ _ _ _ _ _ _ _ _ _ _ _ _ _ _ _ _ _ ?_ rfl rfl rfl rfl rfl rfl rfl rfl
       first
         | with_reducible assumption
         | with_reducible apply keeps_State_modArea
      )

theorem keeps_imageStart (s : State) (okA : Bool) (okB : Bool) {s0 : State}  (h : Keeps s0 s) :
    Keeps s0 (imageStart s okA okB).2 := by
  unfold imageStart
  try extract_lets
  repeat' first
    | with_reducible assumption
    | with_reducible apply keeps_bootSelect
    | with_reducible apply keeps_fallbackNow
    | with_reducible apply keeps_settingsStart
    | with_reducible apply Keeps.ite_snd <;> intro _
    | (with_reducible refine Keeps.of_mk _ _ _ _ _ _ _ _ _ _ _ _ _ _ _ _ _ _ _ _ _ _ _ _ _ _ _ _ _ ?_ rfl rfl rfl rfl rfl rfl rfl rfl
       with_reducible apply keeps_bootSelect)

theorem keeps_updReset (s : State) {s0 : State}  (h : Keeps s0 s) :
    Keeps s0 (updReset s) := by
  unfold updReset
  try extract_lets
  repeat' first
    | (with_reducible refine Keeps.of_mk _ _ _ _ _ _ _ _ _ _ _ _ _ _ _ _ _ _ _ _ _ _ _ _ _ _ _ _ _ ?_ rfl rfl rfl rfl rfl rfl rfl rfl
       with_reducible assumption)

end Sys2Proof.Machine
end

