-- ==== Sys2Proof/Laws/KeepsLoupeOps.lean ====
section
/-! SUPPORT. What the operations of Machine/LoupeOps.lean keep: the queue, the order of time and a sound state. -/

namespace Sys2Proof.Machine

set_option linter.unusedTactic false
set_option linter.unreachableTactic false

theorem keeps_loupeControl (s : State) {s0 : State}  (h : Keeps s0 s) :
    Keeps s0 (loupeControl s) := by
  unfold loupeControl
  try extract_lets
  repeat' first
    | (with_reducible refine Keeps.of_mk _ _ _ _ _ _ _ _ _ _ _ _ _ _ _ _ _ _ _ _ _ _ _ _ _ _ _ _ _ ?_ rfl rfl rfl rfl rfl rfl rfl rfl
       with_reducible assumption)

theorem keeps_mediaFault (s : State) {s0 : State}  (h : Keeps s0 s) :
    Keeps s0 (mediaFault s) := by
  unfold mediaFault
  try extract_lets
  repeat' first
    | with_reducible apply keeps_mediaFlag
    | (with_reducible refine Keeps.of_mk _ _ _ _ _ _ _ _ _ _ _ _ _ _ _ _ _ _ _ _ _ _ _ _ _ _ _ _ _ ?_ rfl rfl rfl rfl rfl rfl rfl rfl
       with_reducible assumption)

theorem keeps_loupeStop (s : State) {s0 : State}  (h : Keeps s0 s) :
    Keeps s0 (loupeStop s) := by
  unfold loupeStop
  try extract_lets
  repeat' first
    | with_reducible apply keeps_logEvent
    | with_reducible apply keeps_mediaFault
    | with_reducible apply keeps_loupeControl
    | (with_reducible refine Keeps.of_mk _ _ _ _ _ _ _ _ _ _ _ _ _ _ _ _ _ _ _ _ _ _ _ _ _ _ _ _ _ ?_ rfl rfl rfl rfl rfl rfl rfl rfl
       with_reducible assumption)

theorem keeps_markBad (s : State) (sector : Nat) {s0 : State}  (h : Keeps s0 s) :
    Keeps s0 (markBad s sector) := by
  unfold markBad
  try extract_lets
  repeat' first
    | with_reducible apply keeps_loupeControl
    | with_reducible apply keeps_logEvent
    | with_reducible apply keeps_mediaFault
    | with_reducible apply keeps_loupeStop
    | with_reducible apply Keeps.ite <;> intro _
    | (with_reducible refine Keeps.of_mk _ _ _ _ _ _ _ _ _ _ _ _ _ _ _ _ _ _ _ _ _ _ _ _ _ _ _ _ _ ?_ rfl rfl rfl rfl rfl rfl rfl rfl
       with_reducible assumption)

theorem keeps_loupeProgram (s : State) (x : LoupeStaged) (seq : BitVec 32) (off : Nat) (again : Bool) {s0 : State}  (h : Keeps s0 s) :
    Keeps s0 (loupeProgram s x seq off again) := by
  unfold loupeProgram
  try extract_lets
  repeat' first
    | (with_reducible refine Keeps.of_mk _ _ _ _ _ _ _ _ _ _ _ _ _ _ _ _ _ _ _ _ _ _ _ _ _ _ _ _ _ ?_ rfl rfl rfl rfl rfl rfl rfl rfl
       with_reducible assumption)

theorem keeps_setCommit (s : State) (off : Nat) (c : BitVec 32) {s0 : State}  (h : Keeps s0 s) :
    Keeps s0 (setCommit s off c) := by
  unfold setCommit
  try extract_lets
  repeat' first
    | (with_reducible refine Keeps.of_mk _ _ _ _ _ _ _ _ _ _ _ _ _ _ _ _ _ _ _ _ _ _ _ _ _ _ _ _ _ ?_ rfl rfl rfl rfl rfl rfl rfl rfl
       with_reducible assumption)

theorem keeps_loupeFull (s : State) {s0 : State}  (h : Keeps s0 s) :
    Keeps s0 (loupeFull s) := by
  unfold loupeFull
  try extract_lets
  repeat' first
    | with_reducible apply keeps_logEvent
    | (with_reducible refine Keeps.of_mk _ _ _ _ _ _ _ _ _ _ _ _ _ _ _ _ _ _ _ _ _ _ _ _ _ _ _ _ _ ?_ rfl rfl rfl rfl rfl rfl rfl rfl
       with_reducible assumption)

theorem keeps_stagedMissed (s : State) {s0 : State}  (h : Keeps s0 s) :
    Keeps s0 (stagedMissed s) := by
  unfold stagedMissed
  try extract_lets
  repeat' first
    | with_reducible assumption
    | with_reducible apply Keeps.foldl
    | with_reducible apply keeps_loupeMiss
    | intro _ _ _
    | (with_reducible refine Keeps.of_mk _ _ _ _ _ _ _ _ _ _ _ _ _ _ _ _ _ _ _ _ _ _ _ _ _ _ _ _ _ ?_ rfl rfl rfl rfl rfl rfl rfl rfl
       with_reducible assumption)

theorem keeps_loupeScan (s : State) {s0 : State}  (h : Keeps s0 s) :
    Keeps s0 (loupeScan s) := by
  unfold loupeScan
  try extract_lets
  repeat' first
    | with_reducible assumption
    | with_reducible apply Keeps.foldl
    | with_reducible apply keeps_logEvent
    | with_reducible apply keeps_setCommit
    | intro _ _ _
    | (with_reducible refine Keeps.of_mk _ _ _ _ _ _ _ _ _ _ _ _ _ _ _ _ _ _ _ _ _ _ _ _ _ _ _ _ _ ?_ rfl rfl rfl rfl rfl rfl rfl rfl
       with_reducible assumption)

theorem keeps_loupeReset (s : State) {s0 : State}  (h : Keeps s0 s) :
    Keeps s0 (loupeReset s) := by
  unfold loupeReset
  try extract_lets
  repeat' first
    | (with_reducible refine Keeps.of_mk _ _ _ _ _ _ _ _ _ _ _ _ _ _ _ _ _ _ _ _ _ _ _ _ _ _ _ _ _ ?_ rfl rfl rfl rfl rfl rfl rfl rfl
       with_reducible assumption)

end Sys2Proof.Machine
end

