-- ==== Sys2Proof/Laws/KeepsRings.lean ====
section
/-! SUPPORT. What the operations of Machine/Rings.lean keep: the queue, the order of time and a sound state. -/

namespace Sys2Proof.Machine

set_option linter.unusedTactic false
set_option linter.unreachableTactic false

theorem keeps_disableRing (s : State) (n : Nat) {s0 : State}  (h : Keeps s0 s) :
    Keeps s0 (disableRing s n) := by
  unfold disableRing
  try extract_lets
  repeat' first
    | with_reducible assumption
    | with_reducible apply Keeps.foldl
    | with_reducible apply keeps_State_modRing
    | with_reducible apply keeps_complete
    | intro _ _ _

theorem keeps_ringCfgWrite (s : State) (n : Nat) (v : BitVec 32) {s0 : State}  (h : Keeps s0 s) :
    Keeps s0 (ringCfgWrite s n v) := by
  unfold ringCfgWrite
  try extract_lets
  repeat' first
    | with_reducible assumption
    | with_reducible apply keeps_State_modRing
    | with_reducible apply keeps_disableRing
    | with_reducible apply Keeps.ite <;> intro _

theorem keeps_ringBaseWrite (s : State) (n : Nat) (v : BitVec 36) (descs : Bool) {s0 : State}  (h : Keeps s0 s) :
    Keeps s0 (ringBaseWrite s n v descs) := by
  unfold ringBaseWrite
  try extract_lets
  repeat' first
    | with_reducible assumption
    | with_reducible apply keeps_State_modRing

theorem keeps_disableAll (s : State) {s0 : State}  (h : Keeps s0 s) :
    Keeps s0 (disableAll s) := by
  unfold disableAll
  repeat' first
    | with_reducible assumption
    | with_reducible apply Keeps.foldl
    | with_reducible apply keeps_disableRing
    | with_reducible apply Keeps.ite <;> intro _
    | intro _ _ _

theorem keeps_dbCtlWrite (s : State) (v : BitVec 32) {s0 : State}  (h : Keeps s0 s) :
    Keeps s0 (dbCtlWrite s v) := by
  unfold dbCtlWrite
  try extract_lets
  repeat' first
    | with_reducible apply Keeps.ite <;> intro _
    | (with_reducible refine Keeps.of_mk _ _ _ _ _ _ _ _ _ _ _ _ _ _ _ _ _ _ _ _ _ _ _ _ _ _ _ _ _ ?_ rfl rfl rfl rfl rfl rfl rfl rfl
       with_reducible assumption)
    | extract_lets
    | dsimp +zetaDelta only

theorem keeps_dbBaseWrite (s : State) (v : BitVec 36) {s0 : State}  (h : Keeps s0 s) :
    Keeps s0 (dbBaseWrite s v) := by
  unfold dbBaseWrite
  try extract_lets
  repeat' first
    | with_reducible assumption
    | with_reducible apply Keeps.ite <;> intro _
    | (with_reducible refine Keeps.of_mk _ _ _ _ _ _ _ _ _ _ _ _ _ _ _ _ _ _ _ _ _ _ _ _ _ _ _ _ _ ?_ rfl rfl rfl rfl rfl rfl rfl rfl
       with_reducible assumption)

theorem keeps_doorbell (s : State) (n : Nat) (pi : Option (BitVec 16)) (cci : Option (BitVec 16)) {s0 : State}  (h : Keeps s0 s) :
    Keeps s0 (doorbell s n pi cci) := by
  unfold doorbell
  try extract_lets
  repeat' first
    | with_reducible assumption
    | with_reducible apply keeps_State_modRing
    | with_reducible apply keeps_logEvent
    | with_reducible apply Keeps.ite <;> intro _

theorem keeps_watchStore (s : State) (off : Nat) (size : Nat) (data : Nat) {s0 : State}  (h : Keeps s0 s) :
    Keeps s0 (watchStore s off size data) := by
  unfold watchStore
  try extract_lets
  repeat' first
    | with_reducible assumption
    | with_reducible apply keeps_doorbell
    | with_reducible apply keeps_logEvent
    | with_reducible apply Keeps.ite <;> intro _
    | (with_reducible refine Keeps.of_mk _ _ _ _ _ _ _ _ _ _ _ _ _ _ _ _ _ _ _ _ _ _ _ _ _ _ _ _ _ ?_ rfl rfl rfl rfl rfl rfl rfl rfl
       with_reducible assumption)

theorem keeps_actRxPost (a : Act) (s : State) {s0 : State}  (h : Keeps s0 s) :
    Keeps s0 (actRxPost a s) := by
  unfold actRxPost
  try extract_lets
  repeat' first
    | with_reducible assumption
    | with_reducible apply keeps_State_modRing
    | with_reducible apply keeps_refuse
    | with_reducible apply Keeps.ite <;> intro _

theorem keeps_execRxPost (d : Desc) (s : State) : OutKeeps s (execRxPost d s) := by
  have h := Keeps.refl s
  unfold execRxPost
  show Keeps _ _
  repeat' first
    | with_reducible assumption
    | with_reducible apply keeps_accept
    | with_reducible apply keeps_actRxPost
    | intro _ _ _

theorem keeps_actNop (a : Act) (s : State) {s0 : State}  (h : Keeps s0 s) :
    Keeps s0 (actNop a s) := by
  unfold actNop
  repeat' first
    | with_reducible assumption
    | with_reducible apply keeps_finish

theorem keeps_execNop (d : Desc) (s : State) : OutKeeps s (execNop d s) := by
  have h := Keeps.refl s
  unfold execNop
  show Keeps _ _
  repeat' first
    | with_reducible assumption
    | with_reducible apply keeps_accept
    | with_reducible apply keeps_actNop
    | intro _ _ _

theorem keeps_execModerationTimeout (ring : Fin 128) (s : State) : OutKeeps s (execModerationTimeout ring s) := by
  have h := Keeps.refl s
  unfold execModerationTimeout
  show Keeps _ _
  try extract_lets
  repeat' first
    | with_reducible assumption
    | with_reducible apply keeps_raiseRing
    | with_reducible apply Keeps.reach
    | with_reducible apply Keeps.ite <;> intro _

end Sys2Proof.Machine
end

