-- ==== Sys2Proof/Laws/KeepsPlaitOps.lean ====
section
/-! SUPPORT. What the operations of Machine/PlaitOps.lean keep: the queue, the order of time and a sound state. -/

namespace Sys2Proof.Machine

set_option linter.unusedTactic false
set_option linter.unreachableTactic false

theorem keeps_bridgeFault (s : State) (w : Nat) (offset : Nat) (write : Bool) (status : Nat) {s0 : State}  (h : Keeps s0 s) :
    Keeps s0 (bridgeFault s w offset write status) := by
  unfold bridgeFault
  try extract_lets
  repeat' first
    | with_reducible apply keeps_logEvent
    | (with_reducible refine Keeps.of_mk _ _ _ _ _ _ _ _ _ _ _ _ _ _ _ _ _ _ _ _ _ _ _ _ _ _ _ _ _ ?_ rfl rfl rfl rfl rfl rfl rfl rfl
       with_reducible assumption)

theorem keeps_State_setCopy (s : State) (c : PCopy) {s0 : State}  (h : Keeps s0 s) :
    Keeps s0 (State.setCopy s c) := by
  unfold State.setCopy
  try extract_lets
  repeat' first
    | (with_reducible refine Keeps.of_mk _ _ _ _ _ _ _ _ _ _ _ _ _ _ _ _ _ _ _ _ _ _ _ _ _ _ _ _ _ ?_ rfl rfl rfl rfl rfl rfl rfl rfl
       with_reducible assumption)

theorem keeps_copyEnd (s : State) (c : PCopy) (status : Nat) {s0 : State}  (h : Keeps s0 s) :
    Keeps s0 (copyEnd s c status) := by
  unfold copyEnd
  try extract_lets
  repeat' first
    | with_reducible apply keeps_State_modLink
    | with_reducible apply keeps_complete
    | (with_reducible refine Keeps.of_mk _ _ _ _ _ _ _ _ _ _ _ _ _ _ _ _ _ _ _ _ _ _ _ _ _ _ _ _ _ ?_ rfl rfl rfl rfl rfl rfl rfl rfl
       with_reducible assumption)

theorem keeps_npFail (s : State) (w : Nat) (o : NpOut) (status : Nat) {s0 : State}  (h : Keeps s0 s) :
    Keeps s0 (npFail s w o status) := by
  unfold npFail
  try extract_lets
  repeat' first
    | with_reducible assumption
    | with_reducible apply keeps_bridgeFault
    | with_reducible apply keeps_copyEnd
    | with_reducible apply keeps_refuse
    | with_reducible apply keeps_complete
    | with_reducible apply keeps_outstand
    | (with_reducible refine Keeps.of_mk _ _ _ _ _ _ _ _ _ _ _ _ _ _ _ _ _ _ _ _ _ _ _ _ _ _ _ _ _ ?_ rfl rfl rfl rfl rfl rfl rfl rfl
       split)

theorem keeps_linkDown (s : State) (w : Nat) (cause : Nat) {s0 : State}  (h : Keeps s0 s) :
    Keeps s0 (linkDown s w cause) := by
  unfold linkDown
  try extract_lets
  repeat' first
    | with_reducible assumption
    | with_reducible apply Keeps.foldl
    | with_reducible apply keeps_disableRing
    | with_reducible apply keeps_npFail
    | with_reducible apply keeps_copyEnd
    | with_reducible apply keeps_logEvent
    | with_reducible apply Keeps.ite <;> intro _
    | intro _ _ _
    | (with_reducible refine Keeps.of_mk _ _ _ _ _ _ _ _ _ _ _ _ _ _ _ _ _ _ _ _ _ _ _ _ _ _ _ _ _ ?_ rfl rfl rfl rfl rfl rfl rfl rfl
       with_reducible apply keeps_State_modLink)

theorem keeps_linkUpNow (s : State) (w : Nat) (hops : BitVec 3) (lastApplied : BitVec 8) {s0 : State}  (h : Keeps s0 s) :
    Keeps s0 (linkUpNow s w hops lastApplied) := by
  unfold linkUpNow
  try extract_lets
  repeat' first
    | with_reducible assumption
    | with_reducible apply keeps_State_modLink
    | with_reducible apply keeps_logEvent

theorem keeps_eachLink (s : State) (f : State → Nat → State) {s0 : State} (h_f : ∀ y0 y1, Keeps s0 y0 → Keeps s0 (f y0 y1)) (h : Keeps s0 s) :
    Keeps s0 (eachLink s f) := by
  unfold eachLink
  repeat' first
    | with_reducible assumption
    | with_reducible apply Keeps.foldl

theorem keeps_leaveAll (s : State) {s0 : State}  (h : Keeps s0 s) :
    Keeps s0 (leaveAll s) := by
  unfold leaveAll
  repeat' first
    | with_reducible assumption
    | with_reducible apply keeps_eachLink
    | with_reducible apply keeps_linkDown
    | with_reducible apply keeps_plaitMsg
    | with_reducible apply Keeps.ite <;> intro _
    | intro _ _ _

theorem keeps_plaitOff (s : State) {s0 : State}  (h : Keeps s0 s) :
    Keeps s0 (plaitOff s) := by
  unfold plaitOff
  try extract_lets
  repeat' first
    | with_reducible assumption
    | with_reducible apply keeps_linkDown
    | intro _ _ _
    | (with_reducible refine Keeps.of_mk _ _ _ _ _ _ _ _ _ _ _ _ _ _ _ _ _ _ _ _ _ _ _ _ _ _ _ _ _ ?_ rfl rfl rfl rfl rfl rfl rfl rfl
       with_reducible apply keeps_eachLink)

theorem keeps_plaitReset (s : State) {s0 : State}  (h : Keeps s0 s) :
    Keeps s0 (plaitReset s) := by
  unfold plaitReset
  try extract_lets
  repeat' first
    | (with_reducible refine Keeps.of_mk _ _ _ _ _ _ _ _ _ _ _ _ _ _ _ _ _ _ _ _ _ _ _ _ _ _ _ _ _ ?_ rfl rfl rfl rfl rfl rfl rfl rfl
       with_reducible assumption)

theorem keeps_sendMode (s : State) {s0 : State}  (h : Keeps s0 s) :
    Keeps s0 (sendMode s) := by
  unfold sendMode
  try extract_lets
  repeat' first
    | with_reducible assumption
    | with_reducible apply keeps_eachLink
    | with_reducible apply keeps_plaitMsg
    | with_reducible apply Keeps.ite <;> intro _
    | intro _ _ _
    | (with_reducible refine Keeps.of_mk _ _ _ _ _ _ _ _ _ _ _ _ _ _ _ _ _ _ _ _ _ _ _ _ _ _ _ _ _ ?_ rfl rfl rfl rfl rfl rfl rfl rfl
       with_reducible assumption)

end Sys2Proof.Machine
end

