-- ==== Sys2Proof/Laws/KeepsModes.lean ====
section
/-! SUPPORT. What the operations of Machine/Modes.lean keep: the queue, the order of time and a sound state. -/

namespace Sys2Proof.Machine

set_option linter.unusedTactic false
set_option linter.unreachableTactic false

theorem keeps_coreFault (s : State) (hart : BitVec 2) (addr : BitVec 36) (write : Bool) (cause : Nat) {s0 : State}  (h : Keeps s0 s) :
    Keeps s0 (coreFault s hart addr write cause) := by
  unfold coreFault
  try extract_lets
  repeat' first
    | with_reducible apply keeps_logEvent
    | (with_reducible refine Keeps.of_mk _ _ _ _ _ _ _ _ _ _ _ _ _ _ _ _ _ _ _ _ _ _ _ _ _ _ _ _ _ ?_ rfl rfl rfl rfl rfl rfl rfl rfl
       with_reducible assumption)

theorem keeps_plSync (s : State) {s0 : State}  (h : Keeps s0 s) :
    Keeps s0 (plSync s) := by
  unfold plSync
  try extract_lets
  repeat' first
    | with_reducible assumption
    | with_reducible apply Keeps.ite <;> intro _
    | (with_reducible refine Keeps.of_mk _ _ _ _ _ _ _ _ _ _ _ _ _ _ _ _ _ _ _ _ _ _ _ _ _ _ _ _ _ ?_ rfl rfl rfl rfl rfl rfl rfl rfl
       with_reducible assumption)

theorem keeps_orphanPlanned (s : State) (i : Nat) {s0 : State}  (h : Keeps s0 s) :
    Keeps s0 (orphanPlanned s i) := by
  unfold orphanPlanned
  repeat' first
    | with_reducible assumption
    | with_reducible apply keeps_hsoOrphan1
    | with_reducible apply keeps_ledOrphan1
    | with_reducible apply keeps_fioOrphan1
    | with_reducible apply Keeps.ite <;> intro _

theorem keeps_abortPlanned (s : State) (entry : Bool) {s0 : State}  (h : Keeps s0 s) :
    Keeps s0 (abortPlanned s entry) := by
  unfold abortPlanned
  try extract_lets
  repeat' first
    | with_reducible assumption
    | with_reducible apply Keeps.foldl
    | with_reducible apply keeps_refuse
    | with_reducible apply keeps_dropShots
    | with_reducible apply keeps_orphanPlanned
    | with_reducible apply Keeps.ite <;> intro _
    | intro _ _ _
    | (with_reducible refine Keeps.of_mk _ _ _ _ _ _ _ _ _ _ _ _ _ _ _ _ _ _ _ _ _ _ _ _ _ _ _ _ _ ?_ rfl rfl rfl rfl rfl rfl rfl rfl
       with_reducible assumption)

theorem keeps_abortLed (s : State) (entry : Bool) {s0 : State}  (h : Keeps s0 s) :
    Keeps s0 (abortLed s entry) := by
  unfold abortLed
  try extract_lets
  repeat' first
    | with_reducible assumption
    | with_reducible apply Keeps.foldl
    | with_reducible apply keeps_refuse
    | with_reducible apply keeps_ledOrphan1
    | with_reducible apply Keeps.ite <;> intro _
    | intro _ _ _
    | (with_reducible refine Keeps.of_mk _ _ _ _ _ _ _ _ _ _ _ _ _ _ _ _ _ _ _ _ _ _ _ _ _ _ _ _ _ ?_ rfl rfl rfl rfl rfl rfl rfl rfl
       with_reducible assumption)

theorem keeps_abortValves (s : State) (entry : Bool) {s0 : State}  (h : Keeps s0 s) :
    Keeps s0 (abortValves s entry) := by
  unfold abortValves
  try extract_lets
  repeat' first
    | with_reducible assumption
    | with_reducible apply keeps_eachVlv
    | with_reducible apply keeps_dropWait
    | with_reducible apply keeps_State_modVlv
    | with_reducible apply keeps_endNow
    | with_reducible apply keeps_vlvOrphan1
    | with_reducible apply Keeps.ite <;> intro _
    | intro _ _ _

theorem keeps_abortOuts (s : State) (d : Dom) {s0 : State}  (h : Keeps s0 s) :
    Keeps s0 (abortOuts s d) := by
  unfold abortOuts
  try extract_lets
  repeat' first
    | with_reducible assumption
    | with_reducible apply Keeps.foldl
    | with_reducible apply keeps_complete
    | intro _ _ _

theorem keeps_dropAct (s : State) (a : Act) (status : Nat) (detail : Nat) (r0 : Nat) (r1 : Nat) {s0 : State}  (h : Keeps s0 s) :
    Keeps s0 (dropAct s a status detail r0 r1) := by
  unfold dropAct
  try extract_lets
  repeat' first
    | with_reducible assumption
    | with_reducible apply keeps_complete

theorem keeps_commitAbandon (s : State) {s0 : State}  (h : Keeps s0 s) :
    Keeps s0 (commitAbandon s) := by
  unfold commitAbandon
  try extract_lets
  repeat' first
    | with_reducible assumption
    | with_reducible apply keeps_dropAct
    | with_reducible apply Keeps.ite <;> intro _
    | (with_reducible refine Keeps.of_mk _ _ _ _ _ _ _ _ _ _ _ _ _ _ _ _ _ _ _ _ _ _ _ _ _ _ _ _ _ ?_ rfl rfl rfl rfl rfl rfl rfl rfl
       first
         | with_reducible assumption
         | split
      )
    | split
    | dsimp +zetaDelta only

theorem keeps_abortWork (s : State) (d : Dom) (entry : Bool) {s0 : State}  (h : Keeps s0 s) :
    Keeps s0 (abortWork s d entry) := by
  unfold abortWork
  try extract_lets
  repeat' first
    | with_reducible assumption
    | with_reducible apply keeps_abortValves
    | with_reducible apply keeps_abortPlanned
    | with_reducible apply keeps_State_modHso
    | with_reducible apply keeps_mtxDrop
    | with_reducible apply keeps_abortLed
    | with_reducible apply keeps_canOff
    | with_reducible apply keeps_commitAbandon
    | with_reducible apply keeps_State_modRing
    | with_reducible apply keeps_searchEnd
    | with_reducible apply keeps_abortOuts
    | intro _ _ _
    | (with_reducible refine Keeps.of_mk _ _ _ _ _ _ _ _ _ _ _ _ _ _ _ _ _ _ _ _ _ _ _ _ _ _ _ _ _ ?_ rfl rfl rfl rfl rfl rfl rfl rfl
       first
         | with_reducible assumption
         | with_reducible apply Keeps.foldl
         | with_reducible apply keeps_eachHso
         | split
      )

theorem keeps_domOff (s : State) (d : Dom) {s0 : State} (h : Keeps s0 s) : Keeps s0 (domOff s d) := by
  cases d with
  | act => exact h.of_same rfl rfl rfl rfl rfl rfl rfl rfl
  | led => exact h.of_sound rfl (Nat.le_refl _) (fun x => ⟨x.1, rfl, rfl, x.2.2.2⟩)
  | can => exact keeps_canReset _ h
  | eth => exact keeps_plaitOff _ h
  | mem => exact h.mem _ (fun x => cellsFrom_filter _ x)
  | adc => exact h.of_same rfl rfl rfl rfl rfl rfl rfl rfl
  | _ => exact h

theorem keeps_domUp (s : State) (d : Dom) {s0 : State}  (h : Keeps s0 s) :
    Keeps s0 (domUp s d) := by
  unfold domUp
  repeat' first
    | with_reducible assumption
    | with_reducible apply keeps_facetReload
    | with_reducible apply Keeps.ite <;> intro _

theorem keeps_beginDrain (s : State) (d : Dom) (target : DomState) {s0 : State}  (h : Keeps s0 s) :
    Keeps s0 (beginDrain s d target) := by
  unfold beginDrain
  try extract_lets
  repeat' first
    | with_reducible assumption
    | with_reducible apply Keeps.foldl
    | with_reducible apply keeps_cancelLaunch
    | intro _ _ _
    | (with_reducible refine Keeps.of_mk _ _ _ _ _ _ _ _ _ _ _ _ _ _ _ _ _ _ _ _ _ _ _ _ _ _ _ _ _ ?_ rfl rfl rfl rfl rfl rfl rfl rfl
       first
         | with_reducible assumption
         | with_reducible apply keeps_State_modDom
      )

theorem keeps_dropStalled (s : State) (d : Dom) (status : Nat) (cause : Nat) {s0 : State}  (h : Keeps s0 s) :
    Keeps s0 (dropStalled s d status cause) := by
  unfold dropStalled
  try extract_lets
  repeat' first
    | with_reducible assumption
    | with_reducible apply Keeps.foldl
    | with_reducible apply keeps_complete
    | with_reducible apply keeps_coreFault
    | with_reducible apply keeps_refuse
    | intro _ _ _
    | (with_reducible refine Keeps.of_mk _ _ _ _ _ _ _ _ _ _ _ _ _ _ _ _ _ _ _ _ _ _ _ _ _ _ _ _ _ ?_ rfl rfl rfl rfl rfl rfl rfl rfl
       with_reducible assumption)

theorem keeps_domLower (s : State) (x : Drain) (entry : Bool) {s0 : State}  (h : Keeps s0 s) :
    Keeps s0 (domLower s x entry) := by
  unfold domLower
  try extract_lets
  repeat' first
    | with_reducible assumption
    | with_reducible apply Keeps.foldl
    | with_reducible apply keeps_domOff
    | with_reducible apply keeps_State_modDom
    | with_reducible apply keeps_finish
    | with_reducible apply Keeps.ite <;> intro _
    | intro _ _ _
    | (with_reducible refine Keeps.of_mk _ _ _ _ _ _ _ _ _ _ _ _ _ _ _ _ _ _ _ _ _ _ _ _ _ _ _ _ _ ?_ rfl rfl rfl rfl rfl rfl rfl rfl
       with_reducible apply keeps_abortWork)

theorem keeps_wdtRestart (s : State) {s0 : State}  (h : Keeps s0 s) :
    Keeps s0 (wdtRestart s) := by
  unfold wdtRestart
  try extract_lets
  repeat' first
    | (with_reducible refine Keeps.of_mk _ _ _ _ _ _ _ _ _ _ _ _ _ _ _ _ _ _ _ _ _ _ _ _ _ _ _ _ _ ?_ rfl rfl rfl rfl rfl rfl rfl rfl
       with_reducible assumption)

theorem keeps_raiseDom (s : State) (d : Dom) (t : DomState) {s0 : State}  (h : Keeps s0 s) :
    Keeps s0 (raiseDom s d t) := by
  unfold raiseDom
  try extract_lets
  repeat' first
    | with_reducible assumption
    | with_reducible apply keeps_State_modDom
    | with_reducible apply keeps_domUp
    | with_reducible apply keeps_wdtRestart
    | with_reducible apply Keeps.ite <;> intro _

theorem keeps_dropDrain (s : State) (d : Dom) {s0 : State}  (h : Keeps s0 s) :
    Keeps s0 (dropDrain s d) := by
  unfold dropDrain
  try extract_lets
  repeat' first
    | with_reducible assumption
    | with_reducible apply Keeps.foldl
    | with_reducible apply keeps_refuse
    | with_reducible apply keeps_State_modDom
    | with_reducible apply Keeps.ite <;> intro _
    | intro _ _ _
    | (with_reducible refine Keeps.of_mk _ _ _ _ _ _ _ _ _ _ _ _ _ _ _ _ _ _ _ _ _ _ _ _ _ _ _ _ _ ?_ rfl rfl rfl rfl rfl rfl rfl rfl
       with_reducible assumption)

theorem keeps_modeDomains (s : State) (m : Mode) {s0 : State}  (h : Keeps s0 s) :
    Keeps s0 (modeDomains s m) := by
  unfold modeDomains
  try extract_lets
  repeat' first
    | with_reducible assumption
    | with_reducible apply Keeps.foldl
    | with_reducible apply keeps_beginDrain
    | with_reducible apply keeps_dropStalled
    | with_reducible apply keeps_dropDrain
    | with_reducible apply keeps_State_modDom
    | with_reducible apply keeps_raiseDom
    | with_reducible apply Keeps.ite <;> intro _
    | intro _ _ _

theorem keeps_recordRegs (s : State) (bz : Option Rec) (sy : Option Rec) {s0 : State}  (h : Keeps s0 s) :
    Keeps s0 (recordRegs s bz sy) := by
  unfold recordRegs
  try extract_lets
  repeat' first
    | with_reducible assumption
    | with_reducible apply Keeps.ite <;> intro _
    | (with_reducible refine Keeps.of_mk _ _ _ _ _ _ _ _ _ _ _ _ _ _ _ _ _ _ _ _ _ _ _ _ _ _ _ _ _ ?_ rfl rfl rfl rfl rfl rfl rfl rfl
       first
         | with_reducible assumption
         | split
      )
    | extract_lets
    | dsimp +zetaDelta only

theorem keeps_setMode (s : State) (m : Mode) (cause : Nat) {s0 : State}  (h : Keeps s0 s) :
    Keeps s0 (setMode s m cause) := by
  unfold setMode
  try extract_lets
  repeat' first
    | with_reducible apply keeps_recordRegs
    | with_reducible apply keeps_logEvent
    | (with_reducible refine Keeps.of_mk _ _ _ _ _ _ _ _ _ _ _ _ _ _ _ _ _ _ _ _ _ _ _ _ _ _ _ _ _ ?_ rfl rfl rfl rfl rfl rfl rfl rfl
       with_reducible assumption)

theorem keeps_modeClaims (s : State) {s0 : State}  (h : Keeps s0 s) :
    Keeps s0 (modeClaims s) := by
  unfold modeClaims
  repeat' first
    | with_reducible assumption
    | with_reducible apply keeps_canClaims
    | with_reducible apply keeps_fioClaims
    | with_reducible apply keeps_ledClaims
    | with_reducible apply keeps_vlvClaims
    | with_reducible apply keeps_hsoClaims

theorem keeps_lightsOff (s : State) {s0 : State}  (h : Keeps s0 s) :
    Keeps s0 (lightsOff s) := by
  unfold lightsOff
  repeat' first
    | with_reducible assumption
    | with_reducible apply keeps_mtxDark
    | with_reducible apply keeps_mtxDrop
    | with_reducible apply keeps_ledAllOff

theorem keeps_modeOutputs (s : State) (m : Mode) {s0 : State}  (h : Keeps s0 s) :
    Keeps s0 (modeOutputs s m) := by
  unfold modeOutputs
  try extract_lets
  repeat' first
    | with_reducible assumption
    | with_reducible apply keeps_fioAllOff
    | with_reducible apply keeps_vlvAllOff
    | with_reducible apply keeps_lightsOff
    | with_reducible apply keeps_hsoAllOff
    | with_reducible apply keeps_fioPark
    | with_reducible apply keeps_hsoPark
    | with_reducible apply keeps_fioRoad
    | with_reducible apply keeps_vlvRoad
    | with_reducible apply keeps_mtxRoad
    | with_reducible apply keeps_ledRoad
    | with_reducible apply keeps_hsoRoad
    | (with_reducible refine Keeps.of_mk _ _ _ _ _ _ _ _ _ _ _ _ _ _ _ _ _ _ _ _ _ _ _ _ _ _ _ _ _ ?_ rfl rfl rfl rfl rfl rfl rfl rfl
       split)

theorem keeps_modeLeave (s : State) (m : Mode) {s0 : State}  (h : Keeps s0 s) :
    Keeps s0 (modeLeave s m) := by
  unfold modeLeave
  try extract_lets
  repeat' first
    | with_reducible assumption
    | with_reducible exact Keeps.refl _
    | with_reducible apply Keeps.foldl
    | with_reducible apply Keeps.foldl_snd
    | with_reducible apply keeps_leaveAll
    | with_reducible apply Keeps.ite <;> intro _
    | with_reducible apply Keeps.ite_snd <;> intro _
    | exact fun _ k => k
    | intro _ _ _
    | intro _ _
    | (with_reducible refine Keeps.of_mk _ _ _ _ _ _ _ _ _ _ _ _ _ _ _ _ _ _ _ _ _ _ _ _ _ _ _ _ _ ?_ rfl rfl rfl rfl rfl rfl rfl rfl
       first
         | with_reducible assumption
         | with_reducible exact Keeps.refl _
         | with_reducible apply Keeps.foldl
         | with_reducible apply Keeps.foldl_snd
         | with_reducible apply keeps_leaveAll
         | with_reducible apply Keeps.ite <;> intro _
         | with_reducible apply Keeps.ite_snd <;> intro _
         | split
      )
    | split
    | extract_lets
    | dsimp only
    | dsimp +zetaDelta only
    | assumption

theorem keeps_modeEntering (s : State) (m : Mode) {s0 : State}  (h : Keeps s0 s) :
    Keeps s0 (modeEntering s m) := by
  unfold modeEntering
  try extract_lets
  repeat' first
    | with_reducible assumption
    | with_reducible exact Keeps.refl _
    | with_reducible apply Keeps.foldl
    | with_reducible apply Keeps.foldl_snd
    | with_reducible apply Keeps.ite <;> intro _
    | with_reducible apply Keeps.ite_snd <;> intro _
    | exact fun _ k => k
    | intro _ _ _
    | intro _ _
    | (with_reducible refine Keeps.of_mk _ _ _ _ _ _ _ _ _ _ _ _ _ _ _ _ _ _ _ _ _ _ _ _ _ _ _ _ _ ?_ rfl rfl rfl rfl rfl rfl rfl rfl
       first
         | with_reducible assumption
         | with_reducible exact Keeps.refl _
         | with_reducible apply Keeps.foldl
         | with_reducible apply Keeps.foldl_snd
         | with_reducible apply Keeps.ite <;> intro _
         | with_reducible apply Keeps.ite_snd <;> intro _
         | split
      )
    | split
    | extract_lets
    | dsimp only
    | dsimp +zetaDelta only
    | assumption

theorem keeps_modeGuard (s : State) (m : Mode) {s0 : State}  (h : Keeps s0 s) :
    Keeps s0 (modeGuard s m) := by
  unfold modeGuard
  try extract_lets
  repeat' first
    | with_reducible assumption
    | with_reducible exact Keeps.refl _
    | with_reducible apply Keeps.foldl
    | with_reducible apply Keeps.foldl_snd
    | with_reducible apply keeps_sessionEnd
    | with_reducible apply Keeps.ite <;> intro _
    | with_reducible apply Keeps.ite_snd <;> intro _
    | exact fun _ k => k
    | intro _ _ _
    | intro _ _
    | (with_reducible refine Keeps.of_mk _ _ _ _ _ _ _ _ _ _ _ _ _ _ _ _ _ _ _ _ _ _ _ _ _ _ _ _ _ ?_ rfl rfl rfl rfl rfl rfl rfl rfl
       first
         | with_reducible assumption
         | with_reducible exact Keeps.refl _
         | with_reducible apply Keeps.foldl
         | with_reducible apply Keeps.foldl_snd
         | with_reducible apply keeps_sessionEnd
         | with_reducible apply Keeps.ite <;> intro _
         | with_reducible apply Keeps.ite_snd <;> intro _
         | split
      )
    | split
    | extract_lets
    | dsimp only
    | dsimp +zetaDelta only
    | assumption

theorem keeps_modeQueue (s : State) {s0 : State}  (h : Keeps s0 s) :
    Keeps s0 (modeQueue s) := by
  unfold modeQueue
  try extract_lets
  repeat' first
    | with_reducible assumption
    | with_reducible exact Keeps.refl _
    | with_reducible apply Keeps.foldl
    | with_reducible apply Keeps.foldl_snd
    | with_reducible apply keeps_cancelLaunch
    | with_reducible apply keeps_searchOnMode
    | with_reducible apply Keeps.ite <;> intro _
    | with_reducible apply Keeps.ite_snd <;> intro _
    | exact fun _ k => k
    | intro _ _ _
    | intro _ _
    | (with_reducible refine Keeps.of_mk _ _ _ _ _ _ _ _ _ _ _ _ _ _ _ _ _ _ _ _ _ _ _ _ _ _ _ _ _ ?_ rfl rfl rfl rfl rfl rfl rfl rfl
       first
         | with_reducible assumption
         | with_reducible exact Keeps.refl _
         | with_reducible apply Keeps.foldl
         | with_reducible apply Keeps.foldl_snd
         | with_reducible apply keeps_cancelLaunch
         | with_reducible apply keeps_searchOnMode
         | with_reducible apply Keeps.ite <;> intro _
         | with_reducible apply Keeps.ite_snd <;> intro _
         | split
      )
    | split
    | extract_lets
    | dsimp only
    | dsimp +zetaDelta only
    | assumption

theorem keeps_enterMode (s : State) (m : Mode) (cause : Nat) {s0 : State}  (h : Keeps s0 s) :
    Keeps s0 (enterMode s m cause) := by
  unfold enterMode
  try extract_lets
  repeat' first
    | with_reducible assumption
    | with_reducible apply Keeps.foldl
    | with_reducible apply keeps_modeOutputs
    | with_reducible apply keeps_modeEntering
    | with_reducible apply keeps_modeLeave
    | with_reducible apply keeps_setMode
    | with_reducible apply keeps_modeDomains
    | with_reducible apply keeps_plSync
    | with_reducible apply keeps_netAll
    | with_reducible apply keeps_sendMode
    | with_reducible apply keeps_modeQueue
    | with_reducible apply keeps_modeGuard
    | with_reducible apply Keeps.ite <;> intro _
    | intro _ _ _
    | (with_reducible refine Keeps.of_mk _ _ _ _ _ _ _ _ _ _ _ _ _ _ _ _ _ _ _ _ _ _ _ _ _ _ _ _ _ ?_ rfl rfl rfl rfl rfl rfl rfl rfl
       first
         | with_reducible apply keeps_modeClaims
         | with_reducible apply Keeps.ite <;> intro _
      )

theorem keeps_modeConditions (x0 : Nat) (x1 : State) {s0 : State}  (h : Keeps s0 x1) :
    Keeps s0 (modeConditions x0 x1) := by
  induction x0 generalizing x1 with
  | zero =>
    unfold modeConditions
    try extract_lets
    repeat' first
      | with_reducible assumption
      | with_reducible apply ih
      | with_reducible apply keeps_enterMode
      | with_reducible apply keeps_logEvent
      | with_reducible apply Keeps.ite <;> intro _
      | (with_reducible refine Keeps.of_mk _ _ _ _ _ _ _ _ _ _ _ _ _ _ _ _ _ _ _ _ _ _ _ _ _ _ _ _ _ ?_ rfl rfl rfl rfl rfl rfl rfl rfl
         split)
  | succ k ih =>
    unfold modeConditions
    try extract_lets
    repeat' first
      | with_reducible assumption
      | with_reducible apply ih
      | with_reducible apply keeps_enterMode
      | with_reducible apply keeps_logEvent
      | with_reducible apply Keeps.ite <;> intro _
      | (with_reducible refine Keeps.of_mk _ _ _ _ _ _ _ _ _ _ _ _ _ _ _ _ _ _ _ _ _ _ _ _ _ _ _ _ _ ?_ rfl rfl rfl rfl rfl rfl rfl rfl
         split)

theorem keeps_judge (s : State) {s0 : State}  (h : Keeps s0 s) :
    Keeps s0 (judge s) := by
  unfold judge
  repeat' first
    | with_reducible assumption
    | with_reducible apply keeps_modeConditions

theorem keeps_goMode (s : State) (m : Mode) (cause : Nat) {s0 : State}  (h : Keeps s0 s) :
    Keeps s0 (goMode s m cause) := by
  unfold goMode
  repeat' first
    | with_reducible assumption
    | with_reducible apply keeps_judge
    | with_reducible apply keeps_enterMode

theorem keeps_mirrorLog (s : State) {s0 : State} (h : Keeps s0 s) : Keeps s0 (mirrorLog s) := by
  unfold mirrorLog
  split
  · exact h.of_same rfl rfl rfl rfl rfl rfl rfl rfl
  · rename_i hc
    simp only [Bool.or_eq_true, decide_eq_true_eq, not_or] at hc
    refine h.of_sound rfl (Nat.le_refl _) (fun x => ⟨x.1, x.2.1, x.2.2.1, x.2.2.2.1, x.2.2.2.2.1, ?_, ?_⟩)
    · simp only [List.length_append, List.length_cons, List.length_nil]
      omega
    · intro l hl
      simp only [List.mem_append, List.mem_singleton] at hl
      rcases hl with hl | rfl
      · exact x.2.2.2.2.2.2 l hl
      · exact x.2.2.2.2.1

theorem keeps_mirrorRestore (s : State) {s0 : State} (h : Keeps s0 s) : Keeps s0 (mirrorRestore s) := by
  refine h.of_sound rfl (Nat.le_refl _) (fun x => ⟨x.1, x.2.1, x.2.2.1, x.2.2.2.1, ?_, x.2.2.2.2.2⟩)
  unfold mirrorRestore
  dsimp only
  split
  · rename_i l hl
    exact x.2.2.2.2.2.2 l (List.mem_filter.mp (List.mem_of_getLast? hl)).1
  · exact Nat.zero_le _

theorem keeps_loseRetention (s : State) {s0 : State} (h : Keeps s0 s) : Keeps s0 (loseRetention s) := by
  unfold loseRetention
  extract_lets b
  exact keeps_mirrorRestore _ (h.of_sound rfl (Nat.le_refl _)
    (fun x => ⟨x.1, x.2.1, x.2.2.1, x.2.2.2.1, Nat.zero_le _, x.2.2.2.2.2⟩))

theorem keeps_recordWeave (s : State) {s0 : State}  (h : Keeps s0 s) :
    Keeps s0 (recordWeave s) := by
  unfold recordWeave
  try extract_lets
  repeat' first
    | with_reducible assumption
    | with_reducible apply Keeps.ite <;> intro _
    | (with_reducible refine Keeps.of_mk _ _ _ _ _ _ _ _ _ _ _ _ _ _ _ _ _ _ _ _ _ _ _ _ _ _ _ _ _ ?_ rfl rfl rfl rfl rfl rfl rfl rfl
       with_reducible assumption)

theorem keeps_seedWeave (s : State) {s0 : State} (h : Keeps s0 s) : Keeps s0 (seedWeave s) := by
  unfold seedWeave
  split
  · exact h.time _ (fun _ => rfl)
  · exact h.time _ (fun _ => ofNat_tick _ (by omega))

theorem keeps_resetBlocks (s : State) (device : Bool) {s0 : State} (h : Keeps s0 s) :
    Keeps s0 (resetBlocks s device) := by
  unfold resetBlocks
  extract_lets w w0 w1 p p0 p1 c c0 c1 e q q1 s1 s2
  have h1 : Keeps s0 s1 := keeps_plaitReset _ (keeps_canReset _ (keeps_loupeReset _ h))
  refine keeps_netReset _ _ (keeps_updReset _ (keeps_accReset _ (h1.of_sound rfl (Nat.le_refl _) (fun x => ?_))))
  refine ⟨rfl, rfl, rfl, ?_, x.2.2.2.2⟩
  have e1 : s1.weave.time = s.weave.time := rfl
  cases device <;> exact e1 ▸ x.2.2.2.1

theorem keeps_startBegin (s : State) (cause : Nat) (device : Bool) {s0 : State}  (h : Keeps s0 s) :
    Keeps s0 (startBegin s cause device) := by
  unfold startBegin
  try extract_lets
  repeat' first
    | with_reducible assumption
    | with_reducible apply keeps_fioHold
    | with_reducible apply keeps_ledHold
    | with_reducible apply keeps_vlvHold
    | with_reducible apply keeps_hsoHold
    | with_reducible apply keeps_resetBlocks
    | (with_reducible refine Keeps.of_mk _ _ _ _ _ _ _ _ _ _ _ _ _ _ _ _ _ _ _ _ _ _ _ _ _ _ _ _ _ ?_ rfl rfl rfl rfl rfl rfl rfl rfl
       with_reducible apply keeps_setMode)

theorem keeps_railsUp (s : State) {s0 : State}  (h : Keeps s0 s) :
    Keeps s0 (railsUp s) := by
  unfold railsUp
  try extract_lets
  repeat' first
    | with_reducible assumption
    | with_reducible apply Keeps.foldl
    | with_reducible apply keeps_State_modDom
    | with_reducible apply Keeps.ite <;> intro _
    | intro _ _ _
    | (with_reducible refine Keeps.of_mk _ _ _ _ _ _ _ _ _ _ _ _ _ _ _ _ _ _ _ _ _ _ _ _ _ _ _ _ _ ?_ rfl rfl rfl rfl rfl rfl rfl rfl
       with_reducible apply keeps_seedWeave)

theorem keeps_nextRail (s : State) {s0 : State}  (h : Keeps s0 s) :
    Keeps s0 (nextRail s) := by
  unfold nextRail
  try extract_lets
  repeat' first
    | with_reducible apply keeps_railsUp
    | with_reducible apply Keeps.ite <;> intro _
    | (with_reducible refine Keeps.of_mk _ _ _ _ _ _ _ _ _ _ _ _ _ _ _ _ _ _ _ _ _ _ _ _ _ _ _ _ _ ?_ rfl rfl rfl rfl rfl rfl rfl rfl
       with_reducible assumption)

theorem keeps_orphanWhere (s : State) (hso : Nat → Bool) (vlv : Nat → Bool) (led : Nat → Bool) (fio : Nat → Bool) {s0 : State}  (h : Keeps s0 s) :
    Keeps s0 (orphanWhere s hso vlv led fio) := by
  unfold orphanWhere
  try extract_lets
  repeat' first
    | with_reducible assumption
    | with_reducible apply keeps_eachHso
    | with_reducible apply keeps_hsoOrphan1
    | with_reducible apply keeps_eachVlv
    | with_reducible apply keeps_vlvOrphan1
    | with_reducible apply keeps_eachLed
    | with_reducible apply keeps_ledOrphan1
    | with_reducible apply keeps_eachFio
    | with_reducible apply keeps_fioOrphan1
    | with_reducible apply Keeps.ite <;> intro _
    | intro _ _ _

theorem keeps_clearHeld (s : State) {s0 : State}  (h : Keeps s0 s) :
    Keeps s0 (clearHeld s) := by
  unfold clearHeld
  try extract_lets
  repeat' first
    | (with_reducible refine Keeps.of_mk _ _ _ _ _ _ _ _ _ _ _ _ _ _ _ _ _ _ _ _ _ _ _ _ _ _ _ _ _ ?_ rfl rfl rfl rfl rfl rfl rfl rfl
       with_reducible assumption)

theorem keeps_bezelOnlyNow (s : State) {s0 : State}  (h : Keeps s0 s) :
    Keeps s0 (bezelOnlyNow s) := by
  unfold bezelOnlyNow
  try extract_lets
  repeat' first
    | with_reducible assumption
    | with_reducible apply keeps_State_modDom
    | with_reducible apply keeps_clearHeld
    | with_reducible apply keeps_orphanWhere
    | intro _ _ _
    | (with_reducible refine Keeps.of_mk _ _ _ _ _ _ _ _ _ _ _ _ _ _ _ _ _ _ _ _ _ _ _ _ _ _ _ _ _ ?_ rfl rfl rfl rfl rfl rfl rfl rfl
       with_reducible apply Keeps.foldl)

theorem keeps_bootCount (s : State) {s0 : State}  (h : Keeps s0 s) :
    Keeps s0 (bootCount s) := by
  unfold bootCount
  try extract_lets
  repeat' first
    | with_reducible apply keeps_logEvent
    | (with_reducible refine Keeps.of_mk _ _ _ _ _ _ _ _ _ _ _ _ _ _ _ _ _ _ _ _ _ _ _ _ _ _ _ _ _ ?_ rfl rfl rfl rfl rfl rfl rfl rfl
       with_reducible assumption)

theorem keeps_startMirror (s : State) {s0 : State}  (h : Keeps s0 s) :
    Keeps s0 (startMirror s) := by
  unfold startMirror
  try extract_lets
  repeat' first
    | with_reducible assumption
    | with_reducible apply keeps_logEvent
    | with_reducible apply keeps_mirrorLog
    | with_reducible apply Keeps.ite <;> intro _
    | (with_reducible refine Keeps.of_mk _ _ _ _ _ _ _ _ _ _ _ _ _ _ _ _ _ _ _ _ _ _ _ _ _ _ _ _ _ ?_ rfl rfl rfl rfl rfl rfl rfl rfl
       first
         | with_reducible assumption
         | with_reducible apply keeps_mirrorLog
      )

theorem keeps_bezelOnlyStart (s : State) {s0 : State}  (h : Keeps s0 s) :
    Keeps s0 (bezelOnlyStart s) := by
  unfold bezelOnlyStart
  repeat' first
    | with_reducible assumption
    | with_reducible apply keeps_startMirror
    | with_reducible apply keeps_bezelOnlyNow
    | with_reducible apply keeps_bootCount

theorem keeps_enterLimp (s : State) (cause : Nat) (storm : Bool) {s0 : State}  (h : Keeps s0 s) :
    Keeps s0 (enterLimp s cause storm) := by
  unfold enterLimp
  try extract_lets
  repeat' first
    | with_reducible assumption
    | with_reducible apply Keeps.foldl
    | with_reducible apply keeps_leaveAll
    | with_reducible apply keeps_setMode
    | with_reducible apply keeps_modeDomains
    | with_reducible apply keeps_disableAll
    | with_reducible apply keeps_cancelLaunch
    | with_reducible apply keeps_clearHeld
    | with_reducible apply keeps_orphanWhere
    | with_reducible apply keeps_mtxDrop
    | with_reducible apply keeps_plSync
    | with_reducible apply keeps_netAll
    | with_reducible apply keeps_canClaims
    | with_reducible apply keeps_logEvent
    | with_reducible apply Keeps.ite <;> intro _
    | intro _ _ _
    | (with_reducible refine Keeps.of_mk _ _ _ _ _ _ _ _ _ _ _ _ _ _ _ _ _ _ _ _ _ _ _ _ _ _ _ _ _ ?_ rfl rfl rfl rfl rfl rfl rfl rfl
       first
         | with_reducible apply Keeps.foldl
         | with_reducible apply keeps_commitAbandon
         | with_reducible apply keeps_mtxDark
      )

theorem keeps_takeDetail (s : State) {s0 : State}  (h : Keeps s0 s) :
    Keeps s0 (takeDetail s).2 := by
  unfold takeDetail
  try extract_lets
  repeat' first
    | with_reducible assumption
    | with_reducible apply keeps_State_takeWord

theorem keeps_retentionSafe (s : State) (i : Nat) {s0 : State} (h : Keeps s0 s) : Keeps s0 (retentionSafe s i) := by
  unfold retentionSafe
  extract_lets src s1 b1 w1 n1 r x1 x2 p1
  have h1 : Keeps s0 s1 := keeps_logEvent _ _ _ (h.of_same rfl rfl rfl rfl rfl rfl rfl rfl)
  clear_value s1
  split
  · exact h1.of_same rfl rfl rfl rfl rfl rfl rfl rfl
  · exact h1.of_same rfl rfl rfl rfl rfl rfl rfl rfl
  · exact h1.of_same rfl rfl rfl rfl rfl rfl rfl rfl
  · exact h1.of_sound rfl (Nat.le_refl _) (fun x => ⟨x.1, x.2.1, x.2.2.1, rfl, x.2.2.2.2⟩)
  · exact h1.of_same rfl rfl rfl rfl rfl rfl rfl rfl
  · exact h1.of_same rfl rfl rfl rfl rfl rfl rfl rfl
  · exact keeps_sessionEnd _ h1
  · have hr : Keeps s0 r.2 := keeps_State_takeWord _ h1
    exact hr.of_same rfl rfl rfl rfl rfl rfl rfl rfl
  · exact h1.of_same rfl rfl rfl rfl rfl rfl rfl rfl
  · exact h1.of_sound rfl (Nat.le_refl _) (fun x => ⟨x.1, x.2.1, x.2.2.1, x.2.2.2.1, Nat.zero_le _, x.2.2.2.2.2⟩)

theorem keeps_retentionCheck (s : State) (bad : BitVec 10) {s0 : State}  (h : Keeps s0 s) :
    Keeps s0 (retentionCheck s bad) := by
  unfold retentionCheck
  repeat' first
    | with_reducible assumption
    | with_reducible apply Keeps.foldl
    | with_reducible apply keeps_retentionSafe
    | intro _ _ _

theorem keeps_deviceReset (s : State) (t : ResetType) (detail : BitVec 8) (bad : BitVec 10) {s0 : State}  (h : Keeps s0 s) :
    Keeps s0 (deviceReset s t detail bad) := by
  unfold deviceReset
  try extract_lets
  repeat' first
    | with_reducible assumption
    | with_reducible apply keeps_startBegin
    | with_reducible apply keeps_retentionCheck
    | with_reducible apply keeps_logEvent
    | with_reducible apply keeps_bezelOnlyStart
    | with_reducible apply Keeps.ite <;> intro _
    | (with_reducible refine Keeps.of_mk _ _ _ _ _ _ _ _ _ _ _ _ _ _ _ _ _ _ _ _ _ _ _ _ _ _ _ _ _ ?_ rfl rfl rfl rfl rfl rfl rfl rfl
       first
         | with_reducible apply keeps_recordWeave
         | with_reducible apply keeps_retentionCheck
      )

theorem keeps_plainReset (s : State) (t : ResetType) {s0 : State}  (h : Keeps s0 s) :
    Keeps s0 (plainReset s t) := by
  unfold plainReset
  try extract_lets
  repeat' first
    | with_reducible assumption
    | with_reducible apply keeps_takeDetail
    | with_reducible apply keeps_deviceReset

theorem keeps_abandon (s : State) (cause : Nat) {s0 : State}  (h : Keeps s0 s) :
    Keeps s0 (abandon s cause) := by
  unfold abandon
  try extract_lets
  repeat' first
    | with_reducible apply keeps_logEvent
    | with_reducible apply keeps_goMode
    | (with_reducible refine Keeps.of_mk _ _ _ _ _ _ _ _ _ _ _ _ _ _ _ _ _ _ _ _ _ _ _ _ _ _ _ _ _ ?_ rfl rfl rfl rfl rfl rfl rfl rfl
       with_reducible assumption)

theorem keeps_pointOfNoReturn (s : State) {s0 : State}  (h : Keeps s0 s) :
    Keeps s0 (pointOfNoReturn s) := by
  unfold pointOfNoReturn
  try extract_lets
  repeat' first
    | with_reducible assumption
    | with_reducible apply keeps_abandon
    | with_reducible apply keeps_discardMem
    | with_reducible apply keeps_loseRetention
    | with_reducible apply keeps_mirrorLog
    | with_reducible apply keeps_State_modDom
    | (with_reducible refine Keeps.of_mk _ _ _ _ _ _ _ _ _ _ _ _ _ _ _ _ _ _ _ _ _ _ _ _ _ _ _ _ _ ?_ rfl rfl rfl rfl rfl rfl rfl rfl
       first
         | with_reducible apply Keeps.ite <;> intro _
         | split
      )

theorem keeps_settle (x0 : Nat) (x1 : State) {s0 : State}  (h : Keeps s0 x1) :
    Keeps s0 (settle x0 x1) := by
  induction x0 generalizing x1 with
  | zero =>
    unfold settle
    try extract_lets
    repeat' first
      | with_reducible assumption
      | with_reducible apply ih
      | with_reducible apply keeps_pointOfNoReturn
      | with_reducible apply keeps_loupeControl
      | with_reducible apply keeps_stagedMissed
      | with_reducible apply keeps_recordWeave
      | with_reducible apply keeps_domLower
      | with_reducible apply Keeps.ite <;> intro _
      | (with_reducible refine Keeps.of_mk _ _ _ _ _ _ _ _ _ _ _ _ _ _ _ _ _ _ _ _ _ _ _ _ _ _ _ _ _ ?_ rfl rfl rfl rfl rfl rfl rfl rfl
         first
           | with_reducible assumption
           | with_reducible apply Keeps.ite <;> intro _
           | split
        )
  | succ k ih =>
    unfold settle
    try extract_lets
    repeat' first
      | with_reducible assumption
      | with_reducible apply ih
      | with_reducible apply keeps_pointOfNoReturn
      | with_reducible apply keeps_loupeControl
      | with_reducible apply keeps_stagedMissed
      | with_reducible apply keeps_recordWeave
      | with_reducible apply keeps_domLower
      | with_reducible apply Keeps.ite <;> intro _
      | (with_reducible refine Keeps.of_mk _ _ _ _ _ _ _ _ _ _ _ _ _ _ _ _ _ _ _ _ _ _ _ _ _ _ _ _ _ ?_ rfl rfl rfl rfl rfl rfl rfl rfl
         first
           | with_reducible assumption
           | with_reducible apply Keeps.ite <;> intro _
           | split
        )

theorem keeps_settleAll (s : State) {s0 : State}  (h : Keeps s0 s) :
    Keeps s0 (settleAll s) := by
  unfold settleAll
  repeat' first
    | with_reducible assumption
    | with_reducible apply keeps_settle

theorem keeps_wakeUp (s : State) (w : Wake) {s0 : State}  (h : Keeps s0 s) :
    Keeps s0 (wakeUp s w) := by
  unfold wakeUp
  try extract_lets
  repeat' first
    | with_reducible assumption
    | with_reducible apply keeps_abandon
    | with_reducible apply keeps_startBegin
    | with_reducible apply keeps_State_modDom
    | with_reducible apply Keeps.ite <;> intro _
    | (with_reducible refine Keeps.of_mk _ _ _ _ _ _ _ _ _ _ _ _ _ _ _ _ _ _ _ _ _ _ _ _ _ _ _ _ _ ?_ rfl rfl rfl rfl rfl rfl rfl rfl
       first
         | with_reducible assumption
         | split
      )

theorem keeps_limpNow (s : State) {s0 : State}  (h : Keeps s0 s) :
    Keeps s0 (limpNow s) := by
  unfold limpNow
  try extract_lets
  repeat' first
    | with_reducible assumption
    | with_reducible apply keeps_enterLimp
    | with_reducible apply Keeps.ite <;> intro _
    | (with_reducible refine Keeps.of_mk _ _ _ _ _ _ _ _ _ _ _ _ _ _ _ _ _ _ _ _ _ _ _ _ _ _ _ _ _ ?_ rfl rfl rfl rfl rfl rfl rfl rfl
       with_reducible assumption)

theorem keeps_escalate (s : State) (source : Nat) (detail : BitVec 8) (r : Reaction) {s0 : State}  (h : Keeps s0 s) :
    Keeps s0 (escalate s source detail r) := by
  unfold escalate
  try extract_lets
  repeat' first
    | with_reducible assumption
    | with_reducible apply keeps_logEvent
    | with_reducible apply keeps_deviceReset
    | with_reducible apply keeps_limpNow
    | (with_reducible refine Keeps.of_mk _ _ _ _ _ _ _ _ _ _ _ _ _ _ _ _ _ _ _ _ _ _ _ _ _ _ _ _ _ ?_ rfl rfl rfl rfl rfl rfl rfl rfl
       first
         | with_reducible apply keeps_logEvent
         | split
      )

end Sys2Proof.Machine
end

