-- ==== Sys2Proof/Laws/KeepsAcc.lean ====
section
/-! SUPPORT. What the operations of Machine/Acc.lean keep: the queue, the order of time and a sound state. -/

namespace Sys2Proof.Machine

set_option linter.unusedTactic false
set_option linter.unreachableTactic false

theorem keeps_pairStart (s : State) (a : Act) (slot : Nat) (serial : BitVec 32) (delivery : List (BitVec 8)) (takeover : Option (BitVec 64)) {s0 : State}  (h : Keeps s0 s) :
    Keeps s0 (pairStart s a slot serial delivery takeover) := by
  unfold pairStart
  try extract_lets
  repeat' first
    | with_reducible assumption
    | with_reducible apply keeps_State_takeBytes
    | (with_reducible refine Keeps.of_mk _ _ _ _ _ _ _ _ _ _ _ _ _ _ _ _ _ _ _ _ _ _ _ _ _ _ _ _ _ ?_ rfl rfl rfl rfl rfl rfl rfl rfl
       with_reducible apply keeps_State_send)

theorem keeps_actAccPair (slot : BitVec 3) (a : Act) (s : State) {s0 : State}  (h : Keeps s0 s) :
    Keeps s0 (actAccPair slot a s) := by
  unfold actAccPair
  try extract_lets
  repeat' first
    | with_reducible assumption
    | with_reducible apply keeps_refuse
    | with_reducible apply keeps_pairStart
    | with_reducible apply Keeps.ite <;> intro _

theorem keeps_execAccPair (d : Desc) (slot : BitVec 3) (s : State) : OutKeeps s (execAccPair d slot s) := by
  have h := Keeps.refl s
  unfold execAccPair
  show Keeps _ _
  repeat' first
    | with_reducible assumption
    | with_reducible apply keeps_accept
    | with_reducible apply keeps_actAccPair
    | intro _ _ _

theorem keeps_unpair (s : State) (k : Nat) {s0 : State}  (h : Keeps s0 s) :
    Keeps s0 (unpair s k) := by
  unfold unpair
  try extract_lets
  repeat' first
    | with_reducible assumption
    | (with_reducible refine Keeps.of_mk _ _ _ _ _ _ _ _ _ _ _ _ _ _ _ _ _ _ _ _ _ _ _ _ _ _ _ _ _ ?_ rfl rfl rfl rfl rfl rfl rfl rfl
       with_reducible apply keeps_State_modTok)

theorem keeps_actAccUnpair (slot : BitVec 3) (a : Act) (s : State) {s0 : State}  (h : Keeps s0 s) :
    Keeps s0 (actAccUnpair slot a s) := by
  unfold actAccUnpair
  repeat' first
    | with_reducible assumption
    | with_reducible apply keeps_refuse
    | with_reducible apply keeps_finish
    | with_reducible apply keeps_logEvent
    | with_reducible apply keeps_unpair
    | with_reducible apply Keeps.ite <;> intro _

theorem keeps_execAccUnpair (d : Desc) (slot : BitVec 3) (s : State) : OutKeeps s (execAccUnpair d slot s) := by
  have h := Keeps.refl s
  unfold execAccUnpair
  show Keeps _ _
  repeat' first
    | with_reducible assumption
    | with_reducible apply keeps_accept
    | with_reducible apply keeps_actAccUnpair
    | intro _ _ _

theorem keeps_actAccTakeover (a : Act) (s : State) {s0 : State}  (h : Keeps s0 s) :
    Keeps s0 (actAccTakeover a s) := by
  unfold actAccTakeover
  try extract_lets
  repeat' first
    | with_reducible assumption
    | with_reducible apply Keeps.foldl
    | with_reducible apply keeps_refuse
    | with_reducible apply keeps_unpair
    | with_reducible apply keeps_pairStart
    | with_reducible apply Keeps.ite <;> intro _
    | intro _ _ _

theorem keeps_execAccTakeover (d : Desc) (s : State) : OutKeeps s (execAccTakeover d s) := by
  have h := Keeps.refl s
  unfold execAccTakeover
  show Keeps _ _
  repeat' first
    | with_reducible assumption
    | with_reducible apply keeps_accept
    | with_reducible apply keeps_actAccTakeover
    | intro _ _ _

theorem keeps_execPairConfirm (outcome : PairOutcome) (s : State) : OutKeeps s (execPairConfirm outcome s) := by
  have h := Keeps.refl s
  unfold execPairConfirm
  show Keeps _ _
  try extract_lets
  repeat' first
    | with_reducible assumption
    | with_reducible apply keeps_refuse
    | with_reducible apply Keeps.reach
    | with_reducible apply keeps_logEvent
    | with_reducible apply keeps_finish
    | (with_reducible refine Keeps.of_mk _ _ _ _ _ _ _ _ _ _ _ _ _ _ _ _ _ _ _ _ _ _ _ _ _ _ _ _ _ ?_ rfl rfl rfl rfl rfl rfl rfl rfl
       first
         | with_reducible assumption
         | with_reducible apply keeps_State_modTok
         | with_reducible apply keeps_logEvent
         | split
      )

theorem keeps_actAccOwnerLock (lock : BitVec 1) (a : Act) (s : State) {s0 : State}  (h : Keeps s0 s) :
    Keeps s0 (actAccOwnerLock lock a s) := by
  unfold actAccOwnerLock
  try extract_lets
  repeat' first
    | with_reducible assumption
    | with_reducible apply keeps_refuse
    | with_reducible apply keeps_finish
    | with_reducible apply Keeps.ite <;> intro _
    | (with_reducible refine Keeps.of_mk _ _ _ _ _ _ _ _ _ _ _ _ _ _ _ _ _ _ _ _ _ _ _ _ _ _ _ _ _ ?_ rfl rfl rfl rfl rfl rfl rfl rfl
       with_reducible assumption)

theorem keeps_execAccOwnerLock (d : Desc) (lock : BitVec 1) (s : State) : OutKeeps s (execAccOwnerLock d lock s) := by
  have h := Keeps.refl s
  unfold execAccOwnerLock
  show Keeps _ _
  repeat' first
    | with_reducible assumption
    | with_reducible apply keeps_accept
    | with_reducible apply keeps_actAccOwnerLock
    | intro _ _ _

theorem keeps_actAccRelKey (a : Act) (s : State) {s0 : State}  (h : Keeps s0 s) :
    Keeps s0 (actAccRelKey a s) := by
  unfold actAccRelKey
  try extract_lets
  repeat' first
    | with_reducible assumption
    | with_reducible apply keeps_refuse
    | with_reducible apply keeps_finish
    | with_reducible apply keeps_accWrite
    | with_reducible apply Keeps.ite <;> intro _
    | (with_reducible refine Keeps.of_mk _ _ _ _ _ _ _ _ _ _ _ _ _ _ _ _ _ _ _ _ _ _ _ _ _ _ _ _ _ ?_ rfl rfl rfl rfl rfl rfl rfl rfl
       with_reducible assumption)

theorem keeps_execAccRelKey (d : Desc) (s : State) : OutKeeps s (execAccRelKey d s) := by
  have h := Keeps.refl s
  unfold execAccRelKey
  show Keeps _ _
  repeat' first
    | with_reducible assumption
    | with_reducible apply keeps_accept
    | with_reducible apply keeps_actAccRelKey
    | intro _ _ _

theorem keeps_actAccRead (a : Act) (s : State) {s0 : State}  (h : Keeps s0 s) :
    Keeps s0 (actAccRead a s) := by
  unfold actAccRead
  repeat' first
    | with_reducible assumption
    | with_reducible apply keeps_finish

theorem keeps_execAccRead (d : Desc) (s : State) : OutKeeps s (execAccRead d s) := by
  have h := Keeps.refl s
  unfold execAccRead
  show Keeps _ _
  repeat' first
    | with_reducible assumption
    | with_reducible apply keeps_accept
    | with_reducible apply keeps_actAccRead
    | intro _ _ _

theorem keeps_actAccSearch (reason : BitVec 2) (a : Act) (s : State) {s0 : State}  (h : Keeps s0 s) :
    Keeps s0 (actAccSearch reason a s) := by
  unfold actAccSearch
  repeat' first
    | with_reducible assumption
    | with_reducible apply keeps_refuse
    | with_reducible apply keeps_searchStart
    | with_reducible apply Keeps.ite <;> intro _

theorem keeps_execAccSearch (d : Desc) (reason : BitVec 2) (s : State) : OutKeeps s (execAccSearch d reason s) := by
  have h := Keeps.refl s
  unfold execAccSearch
  show Keeps _ _
  repeat' first
    | with_reducible assumption
    | with_reducible apply keeps_accept
    | with_reducible apply keeps_actAccSearch
    | intro _ _ _

theorem keeps_execGuardPoll (s : State) : OutKeeps s (execGuardPoll s) := by
  have h := Keeps.refl s
  unfold execGuardPoll
  show Keeps _ _
  try extract_lets
  repeat' first
    | with_reducible assumption
    | with_reducible apply keeps_pollStart
    | with_reducible apply keeps_State_modDom
    | with_reducible apply Keeps.ite <;> intro _

theorem keeps_execGuardRateChange (s : State) : OutKeeps s (execGuardRateChange s) := by
  have h := Keeps.refl s
  unfold execGuardRateChange
  show Keeps _ _
  try extract_lets
  repeat' first
    | with_reducible assumption
    | with_reducible apply keeps_logEvent
    | with_reducible apply Keeps.ite <;> intro _
    | (with_reducible refine Keeps.of_mk _ _ _ _ _ _ _ _ _ _ _ _ _ _ _ _ _ _ _ _ _ _ _ _ _ _ _ _ _ ?_ rfl rfl rfl rfl rfl rfl rfl rfl
       with_reducible apply Keeps.reach)

theorem keeps_execSearchBurst (s : State) : OutKeeps s (execSearchBurst s) := by
  have h := Keeps.refl s
  unfold execSearchBurst
  show Keeps _ _
  try extract_lets
  repeat' first
    | with_reducible assumption
    | with_reducible apply keeps_startWake
    | with_reducible apply keeps_pollStart
    | with_reducible apply Keeps.ite <;> intro _
    | (with_reducible refine Keeps.of_mk _ _ _ _ _ _ _ _ _ _ _ _ _ _ _ _ _ _ _ _ _ _ _ _ _ _ _ _ _ ?_ rfl rfl rfl rfl rfl rfl rfl rfl
       first
         | with_reducible apply Keeps.reach
         | split
      )

theorem keeps_execPollDone (answers : List TokenAnswer) (radioOk : Bool) (copyFails : BitVec 2) (s : State) : OutKeeps s (execPollDone answers radioOk copyFails s) := by
  have h := Keeps.refl s
  unfold execPollDone
  show Keeps _ _
  try extract_lets
  repeat' first
    | with_reducible assumption
    | with_reducible apply Keeps.foldl_snd
    | with_reducible apply keeps_takeAnswer
    | with_reducible apply keeps_logEvent
    | with_reducible apply keeps_authenticate
    | with_reducible apply keeps_State_modDom
    | with_reducible apply keeps_wakeUp
    | with_reducible apply keeps_pollStart
    | with_reducible apply Keeps.ite <;> intro _
    | with_reducible apply Keeps.ite_snd <;> intro _
    | intro _ _ _
    | (with_reducible refine Keeps.of_mk _ _ _ _ _ _ _ _ _ _ _ _ _ _ _ _ _ _ _ _ _ _ _ _ _ _ _ _ _ ?_ rfl rfl rfl rfl rfl rfl rfl rfl
       first
         | with_reducible assumption
         | with_reducible apply Keeps.ite <;> intro _
         | split
      )
    | extract_lets
    | dsimp +zetaDelta only

theorem keeps_execSearchExpiry (s : State) : OutKeeps s (execSearchExpiry s) := by
  have h := Keeps.refl s
  unfold execSearchExpiry
  show Keeps _ _
  try extract_lets
  repeat' first
    | with_reducible assumption
    | with_reducible apply keeps_searchEnd
    | with_reducible apply Keeps.reach
    | (with_reducible refine Keeps.of_mk _ _ _ _ _ _ _ _ _ _ _ _ _ _ _ _ _ _ _ _ _ _ _ _ _ _ _ _ _ ?_ rfl rfl rfl rfl rfl rfl rfl rfl
       split)

theorem keeps_execLockoutEnd (s : State) : OutKeeps s (execLockoutEnd s) := by
  have h := Keeps.refl s
  unfold execLockoutEnd
  show Keeps _ _
  try extract_lets
  repeat' first
    | with_reducible assumption
    | with_reducible apply keeps_accWrite
    | with_reducible apply keeps_logEvent
    | with_reducible apply keeps_searchStart
    | with_reducible apply Keeps.ite <;> intro _
    | (with_reducible refine Keeps.of_mk _ _ _ _ _ _ _ _ _ _ _ _ _ _ _ _ _ _ _ _ _ _ _ _ _ _ _ _ _ ?_ rfl rfl rfl rfl rfl rfl rfl rfl
       first
         | with_reducible apply Keeps.reach
         | split
      )

theorem keeps_execOwnerSessionExpiry (s : State) : OutKeeps s (execOwnerSessionExpiry s) := by
  have h := Keeps.refl s
  unfold execOwnerSessionExpiry
  show Keeps _ _
  try extract_lets
  repeat' first
    | with_reducible assumption
    | (with_reducible refine Keeps.of_mk _ _ _ _ _ _ _ _ _ _ _ _ _ _ _ _ _ _ _ _ _ _ _ _ _ _ _ _ _ ?_ rfl rfl rfl rfl rfl rfl rfl rfl
       first
         | with_reducible apply Keeps.reach
         | split
      )

theorem keeps_execAccessSessionEnd (s : State) : OutKeeps s (execAccessSessionEnd s) := by
  have h := Keeps.refl s
  unfold execAccessSessionEnd
  show Keeps _ _
  repeat' first
    | with_reducible assumption
    | with_reducible apply keeps_sessionEnd
    | with_reducible apply Keeps.reach
    | with_reducible apply Keeps.ite <;> intro _

theorem keeps_execReleaseTx (s : State) : OutKeeps s (execReleaseTx s) := by
  have h := Keeps.refl s
  unfold execReleaseTx
  show Keeps _ _
  try extract_lets
  repeat' first
    | with_reducible assumption
    | with_reducible apply keeps_relSend
    | with_reducible apply Keeps.reach
    | with_reducible apply Keeps.ite <;> intro _
    | (with_reducible refine Keeps.of_mk _ _ _ _ _ _ _ _ _ _ _ _ _ _ _ _ _ _ _ _ _ _ _ _ _ _ _ _ _ ?_ rfl rfl rfl rfl rfl rfl rfl rfl
       first
         | with_reducible assumption
         | split
      )

theorem keeps_execReleaseAnswerRx (counter : BitVec 32) (highest : BitVec 32) (status : BitVec 8) (tagOk : Bool) (s : State) : OutKeeps s (execReleaseAnswerRx counter highest status tagOk s) := by
  have h := Keeps.refl s
  unfold execReleaseAnswerRx
  show Keeps _ _
  try extract_lets
  repeat' first
    | with_reducible assumption
    | with_reducible apply keeps_logEvent
    | with_reducible apply keeps_relSend
    | with_reducible apply Keeps.ite <;> intro _
    | (with_reducible refine Keeps.of_mk _ _ _ _ _ _ _ _ _ _ _ _ _ _ _ _ _ _ _ _ _ _ _ _ _ _ _ _ _ ?_ rfl rfl rfl rfl rfl rfl rfl rfl
       with_reducible assumption)
    | extract_lets
    | dsimp +zetaDelta only

end Sys2Proof.Machine
end

