-- ==== Sys2Proof/Laws/KeepsCfgCheck.lean ====
section
/-! SUPPORT. What the operations of Machine/CfgCheck.lean keep: the queue, the order of time and a sound state. -/

namespace Sys2Proof.Machine

set_option linter.unusedTactic false
set_option linter.unreachableTactic false

theorem keeps_State_trial (s : State) (rs : List Rec) (m : Mode) {s0 : State}  (h : Keeps s0 s) :
    Keeps s0 (State.trial s rs m) := by
  unfold State.trial
  try extract_lets
  repeat' first
    | (with_reducible refine Keeps.of_mk _ _ _ _ _ _ _ _ _ _ _ _ _ _ _ _ _ _ _ _ _ _ _ _ _ _ _ _ _ ?_ rfl rfl rfl rfl rfl rfl rfl rfl
       with_reducible assumption)

end Sys2Proof.Machine
end

