-- ==== Sys2Proof/Laws/KeepsImage.lean ====
section
/-! SUPPORT. What the operations of Machine/Image.lean keep: the queue, the order of time and a sound state. -/

namespace Sys2Proof.Machine

set_option linter.unusedTactic false
set_option linter.unreachableTactic false

theorem keeps_imageRead (src : ImageSrc) (s : State) (off : Nat) (n : Nat) {s0 : State}  (h : Keeps s0 s) :
    Keeps s0 (imageRead src s off n).2 := by
  unfold imageRead
  try extract_lets
  repeat' first
    | with_reducible assumption
    | with_reducible apply keeps_readMem
    | (with_reducible refine Keeps.of_mk _ _ _ _ _ _ _ _ _ _ _ _ _ _ _ _ _ _ _ _ _ _ _ _ _ _ _ _ _ ?_ rfl rfl rfl rfl rfl rfl rfl rfl
       split)
    | extract_lets

theorem keeps_imageRecs (src : ImageSrc) (stop : Nat) (x0 : Nat) (x1 : State) (x2 : Nat) (x3 : List Rec) {s0 : State}  (h : Keeps s0 x1) :
    Keeps s0 (imageRecs src stop x0 x1 x2 x3).2 := by
  induction x0 generalizing src stop x1 x2 x3 with
  | zero =>
    unfold imageRecs
    try extract_lets
    repeat' first
      | with_reducible assumption
      | with_reducible apply ih
      | with_reducible apply keeps_imageRead
      | with_reducible apply Keeps.ite_snd <;> intro _
      | (with_reducible refine Keeps.of_mk _ _ _ _ _ _ _ _ _ _ _ _ _ _ _ _ _ _ _ _ _ _ _ _ _ _ _ _ _ ?_ rfl rfl rfl rfl rfl rfl rfl rfl
         split)
      | extract_lets
  | succ k ih =>
    unfold imageRecs
    try extract_lets
    repeat' first
      | with_reducible assumption
      | with_reducible apply ih
      | with_reducible apply keeps_imageRead
      | with_reducible apply Keeps.ite_snd <;> intro _
      | (with_reducible refine Keeps.of_mk _ _ _ _ _ _ _ _ _ _ _ _ _ _ _ _ _ _ _ _ _ _ _ _ _ _ _ _ _ ?_ rfl rfl rfl rfl rfl rfl rfl rfl
         split)
      | extract_lets

theorem keeps_readImage (src : ImageSrc) (limit : Nat) (s : State) {s0 : State}  (h : Keeps s0 s) :
    Keeps s0 (readImage src limit s).2 := by
  unfold readImage
  try extract_lets
  repeat' first
    | with_reducible assumption
    | with_reducible apply keeps_imageRead
    | with_reducible apply keeps_imageRecs
    | with_reducible apply Keeps.ite_snd <;> intro _
    | (with_reducible refine Keeps.of_mk _ _ _ _ _ _ _ _ _ _ _ _ _ _ _ _ _ _ _ _ _ _ _ _ _ _ _ _ _ ?_ rfl rfl rfl rfl rfl rfl rfl rfl
       split)
    | extract_lets

theorem keeps_clearStage (s : State) {s0 : State}  (h : Keeps s0 s) :
    Keeps s0 (clearStage s) := by
  unfold clearStage
  try extract_lets
  repeat' first
    | (with_reducible refine Keeps.of_mk _ _ _ _ _ _ _ _ _ _ _ _ _ _ _ _ _ _ _ _ _ _ _ _ _ _ _ _ _ ?_ rfl rfl rfl rfl rfl rfl rfl rfl
       with_reducible assumption)

end Sys2Proof.Machine
end

