-- ==== Sys2Proof/Laws/KeepsBezel.lean ====
section
/-! SUPPORT. What the operations of Machine/Bezel.lean keep: the queue, the order of time and a sound state. -/

namespace Sys2Proof.Machine

set_option linter.unusedTactic false
set_option linter.unreachableTactic false

theorem keeps_actBezelReclaim (hso : BitVec 64) (led : BitVec 12) (fioLo : BitVec 32) (fioHi : BitVec 16) (a : Act) (s : State) {s0 : State}  (h : Keeps s0 s) :
    Keeps s0 (actBezelReclaim hso led fioLo fioHi a s) := by
  unfold actBezelReclaim
  try extract_lets
  repeat' first
    | with_reducible assumption
    | with_reducible apply Keeps.foldl
    | with_reducible apply keeps_fioReclaim
    | with_reducible apply keeps_ledReclaim
    | with_reducible apply keeps_hsoReclaim
    | with_reducible apply keeps_finish
    | intro _ _ _

theorem keeps_execBezelReclaim (d : Desc) (hso : BitVec 64) (led : BitVec 12) (fioLo : BitVec 32) (fioHi : BitVec 16) (s : State) : OutKeeps s (execBezelReclaim d hso led fioLo fioHi s) := by
  have h := Keeps.refl s
  unfold execBezelReclaim
  show Keeps _ _
  repeat' first
    | with_reducible assumption
    | with_reducible apply keeps_accept
    | with_reducible apply keeps_actBezelReclaim
    | intro _ _ _

theorem keeps_actBezelLogRead (a : Act) (s : State) {s0 : State}  (h : Keeps s0 s) :
    Keeps s0 (actBezelLogRead a s) := by
  unfold actBezelLogRead
  try extract_lets
  repeat' first
    | with_reducible assumption
    | with_reducible apply keeps_refuse
    | with_reducible apply keeps_putBytes
    | with_reducible apply keeps_finishAs
    | with_reducible apply keeps_finish
    | with_reducible apply Keeps.ite <;> intro _

theorem keeps_execBezelLogRead (d : Desc) (s : State) : OutKeeps s (execBezelLogRead d s) := by
  have h := Keeps.refl s
  unfold execBezelLogRead
  show Keeps _ _
  repeat' first
    | with_reducible assumption
    | with_reducible apply keeps_accept
    | with_reducible apply keeps_actBezelLogRead
    | intro _ _ _

theorem keeps_actBezelResetReq (limp : BitVec 1) (a : Act) (s : State) {s0 : State}  (h : Keeps s0 s) :
    Keeps s0 (actBezelResetReq limp a s) := by
  unfold actBezelResetReq
  try extract_lets
  repeat' first
    | with_reducible apply keeps_finish
    | (with_reducible refine Keeps.of_mk _ _ _ _ _ _ _ _ _ _ _ _ _ _ _ _ _ _ _ _ _ _ _ _ _ _ _ _ _ ?_ rfl rfl rfl rfl rfl rfl rfl rfl
       with_reducible assumption)

theorem keeps_execBezelResetReq (d : Desc) (limp : BitVec 1) (s : State) : OutKeeps s (execBezelResetReq d limp s) := by
  have h := Keeps.refl s
  unfold execBezelResetReq
  show Keeps _ _
  repeat' first
    | with_reducible assumption
    | with_reducible apply keeps_accept
    | with_reducible apply keeps_actBezelResetReq
    | intro _ _ _

theorem keeps_execResetReqAction (s : State) : OutKeeps s (execResetReqAction s) := by
  have h := Keeps.refl s
  unfold execResetReqAction
  show Keeps _ _
  try extract_lets
  repeat' first
    | with_reducible assumption
    | with_reducible apply keeps_limpNow
    | with_reducible apply keeps_plainReset
    | with_reducible apply Keeps.ite <;> intro _
    | (with_reducible refine Keeps.of_mk _ _ _ _ _ _ _ _ _ _ _ _ _ _ _ _ _ _ _ _ _ _ _ _ _ _ _ _ _ ?_ rfl rfl rfl rfl rfl rfl rfl rfl
       first
         | with_reducible apply Keeps.reach
         | split
      )

theorem keeps_wdtExpire (s : State) (w : Nat) {s0 : State}  (h : Keeps s0 s) :
    Keeps s0 (wdtExpire s w) := by
  unfold wdtExpire
  try extract_lets
  repeat' first
    | with_reducible apply keeps_logEvent
    | with_reducible apply keeps_limpNow
    | with_reducible apply keeps_deviceReset
    | with_reducible apply Keeps.ite <;> intro _
    | (with_reducible refine Keeps.of_mk _ _ _ _ _ _ _ _ _ _ _ _ _ _ _ _ _ _ _ _ _ _ _ _ _ _ _ _ _ ?_ rfl rfl rfl rfl rfl rfl rfl rfl
       first
         | with_reducible assumption
         | with_reducible apply keeps_logEvent
         | split
      )

theorem keeps_execWatchdogExpiry (watchdog : Fin 4) (s : State) : OutKeeps s (execWatchdogExpiry watchdog s) := by
  have h := Keeps.refl s
  unfold execWatchdogExpiry
  show Keeps _ _
  try extract_lets
  repeat' first
    | with_reducible assumption
    | with_reducible apply keeps_wdtExpire
    | with_reducible apply Keeps.reach
    | with_reducible apply Keeps.ite <;> intro _
    | (with_reducible refine Keeps.of_mk _ _ _ _ _ _ _ _ _ _ _ _ _ _ _ _ _ _ _ _ _ _ _ _ _ _ _ _ _ ?_ rfl rfl rfl rfl rfl rfl rfl rfl
       split)

theorem keeps_kickWrite (s : State) (v : BitVec 32) {s0 : State}  (h : Keeps s0 s) :
    Keeps s0 (kickWrite s v) := by
  unfold kickWrite
  try extract_lets
  repeat' first
    | with_reducible assumption
    | with_reducible apply keeps_wdtExpire
    | with_reducible apply Keeps.ite <;> intro _
    | (with_reducible refine Keeps.of_mk _ _ _ _ _ _ _ _ _ _ _ _ _ _ _ _ _ _ _ _ _ _ _ _ _ _ _ _ _ ?_ rfl rfl rfl rfl rfl rfl rfl rfl
       with_reducible apply keeps_State_takeWord)

theorem keeps_execHoldWindowExpiry (s : State) : OutKeeps s (execHoldWindowExpiry s) := by
  have h := Keeps.refl s
  unfold execHoldWindowExpiry
  show Keeps _ _
  try extract_lets
  repeat' first
    | with_reducible assumption
    | with_reducible apply Keeps.reach
    | with_reducible apply keeps_orphanWhere
    | with_reducible apply keeps_logEvent
    | with_reducible apply keeps_clearHeld
    | (with_reducible refine Keeps.of_mk _ _ _ _ _ _ _ _ _ _ _ _ _ _ _ _ _ _ _ _ _ _ _ _ _ _ _ _ _ ?_ rfl rfl rfl rfl rfl rfl rfl rfl
       split)

theorem keeps_execLockstepMismatch (s : State) : OutKeeps s (execLockstepMismatch s) := by
  have h := Keeps.refl s
  unfold execLockstepMismatch
  show Keeps _ _
  repeat' first
    | with_reducible assumption
    | with_reducible apply keeps_plainReset
    | with_reducible apply keeps_logEvent

theorem keeps_execServiceCoreTrap (core : SvcCore) (s : State) : OutKeeps s (execServiceCoreTrap core s) := by
  have h := Keeps.refl s
  unfold execServiceCoreTrap
  show Keeps _ _
  try extract_lets
  repeat' first
    | with_reducible assumption
    | with_reducible apply keeps_wdtExpire
    | with_reducible apply keeps_logEvent
    | with_reducible apply keeps_takeDetail
    | with_reducible apply keeps_escalate
    | (with_reducible refine Keeps.of_mk _ _ _ _ _ _ _ _ _ _ _ _ _ _ _ _ _ _ _ _ _ _ _ _ _ _ _ _ _ ?_ rfl rfl rfl rfl rfl rfl rfl rfl
       split)

theorem keeps_limpCommand (s : State) (r : Rec) {s0 : State}  (h : Keeps s0 s) :
    Keeps s0 (limpCommand s r) := by
  unfold limpCommand
  try extract_lets
  repeat' first
    | with_reducible assumption
    | with_reducible apply keeps_hsoApply
    | with_reducible apply keeps_ledApply
    | with_reducible apply keeps_fioApply
    | with_reducible apply Keeps.ite <;> intro _
    | (with_reducible refine Keeps.of_mk _ _ _ _ _ _ _ _ _ _ _ _ _ _ _ _ _ _ _ _ _ _ _ _ _ _ _ _ _ ?_ rfl rfl rfl rfl rfl rfl rfl rfl
       split)

theorem keeps_execLimpMapTick (s : State) : OutKeeps s (execLimpMapTick s) := by
  have h := Keeps.refl s
  unfold execLimpMapTick
  show Keeps _ _
  try extract_lets
  repeat' first
    | with_reducible assumption
    | with_reducible apply keeps_limpCommand
    | with_reducible apply Keeps.ite <;> intro _
    | intro _ _ _
    | (with_reducible refine Keeps.of_mk _ _ _ _ _ _ _ _ _ _ _ _ _ _ _ _ _ _ _ _ _ _ _ _ _ _ _ _ _ ?_ rfl rfl rfl rfl rfl rfl rfl rfl
       with_reducible apply Keeps.foldl)

theorem keeps_execLimpExit (s : State) : OutKeeps s (execLimpExit s) := by
  have h := Keeps.refl s
  unfold execLimpExit
  show Keeps _ _
  try extract_lets
  repeat' first
    | with_reducible assumption
    | with_reducible apply Keeps.reach
    | with_reducible apply keeps_plainReset
    | with_reducible apply keeps_logEvent
    | with_reducible apply Keeps.ite <;> intro _

theorem keeps_execMirrorEraseDone (s : State) : OutKeeps s (execMirrorEraseDone s) := by
  have h := Keeps.refl s
  unfold execMirrorEraseDone
  refine Keeps.ite (fun _ => ?_) (fun _ => h)
  refine h.of_sound rfl (Nat.le_refl _) (fun x => ⟨x.1, x.2.1, x.2.2.1, x.2.2.2.1, x.2.2.2.2.1, Nat.zero_le _, ?_⟩)
  intro l hl
  cases hl

theorem keeps_norStop (s : State) {s0 : State}  (h : Keeps s0 s) :
    Keeps s0 (norStop s) := by
  unfold norStop
  try extract_lets
  repeat' first
    | (with_reducible refine Keeps.of_mk _ _ _ _ _ _ _ _ _ _ _ _ _ _ _ _ _ _ _ _ _ _ _ _ _ _ _ _ _ ?_ rfl rfl rfl rfl rfl rfl rfl rfl
       with_reducible assumption)

theorem keeps_execSupplyLoss (holdUpLeft : Bool) (s : State) : OutKeeps s (execSupplyLoss holdUpLeft s) := by
  have h := Keeps.refl s
  unfold execSupplyLoss
  show Keeps _ _
  try extract_lets
  repeat' first
    | with_reducible assumption
    | with_reducible apply keeps_norStop
    | with_reducible apply keeps_logEvent
    | with_reducible apply keeps_clearHeld
    | with_reducible apply keeps_vlvAllOff
    | with_reducible apply keeps_fioAllOff
    | with_reducible apply keeps_lightsOff
    | with_reducible apply keeps_hsoAllOff
    | with_reducible apply keeps_mirrorLog
    | (with_reducible refine Keeps.of_mk _ _ _ _ _ _ _ _ _ _ _ _ _ _ _ _ _ _ _ _ _ _ _ _ _ _ _ _ _ ?_ rfl rfl rfl rfl rfl rfl rfl rfl
       first
         | with_reducible apply keeps_clearHeld
         | with_reducible apply Keeps.ite <;> intro _
      )

theorem keeps_execSupplyReturn (s : State) : OutKeeps s (execSupplyReturn s) := by
  have h := Keeps.refl s
  unfold execSupplyReturn
  show Keeps _ _
  try extract_lets
  repeat' first
    | with_reducible assumption
    | with_reducible apply keeps_plainReset
    | with_reducible apply Keeps.ite <;> intro _
    | (with_reducible refine Keeps.of_mk _ _ _ _ _ _ _ _ _ _ _ _ _ _ _ _ _ _ _ _ _ _ _ _ _ _ _ _ _ ?_ rfl rfl rfl rfl rfl rfl rfl rfl
       first
         | with_reducible assumption
         | split
      )

end Sys2Proof.Machine
end

