-- ==== Sys2Proof/Laws/KeepsCan.lean ====
section
/-! SUPPORT. What the operations of Machine/Can.lean keep: the queue, the order of time and a sound state. -/

namespace Sys2Proof.Machine

set_option linter.unusedTactic false
set_option linter.unreachableTactic false

theorem keeps_actCanTx (ch : BitVec 4) (fmt : BitVec 2) (brs : BitVec 1) (ide : BitVec 1) (rtr : BitVec 1) (cf : BitVec 3) (useCf : BitVec 1) (rtrDlc : BitVec 4) (id : BitVec 29) (sdt : BitVec 8) (vcid : BitVec 8) (sec : BitVec 1) (af : BitVec 32) (a : Act) (s : State) {s0 : State}  (h : Keeps s0 s) :
    Keeps s0 (actCanTx ch fmt brs ide rtr cf useCf rtrDlc id sdt vcid sec af a s) := by
  unfold actCanTx
  try extract_lets
  repeat' first
    | with_reducible assumption
    | with_reducible apply keeps_refuse
    | with_reducible apply keeps_canQueue
    | with_reducible apply keeps_netEval
    | with_reducible apply Keeps.ite <;> intro _

theorem keeps_execCanTx (d : Desc) (ch : BitVec 4) (fmt : BitVec 2) (brs : BitVec 1) (ide : BitVec 1) (rtr : BitVec 1) (cf : BitVec 3) (useCf : BitVec 1) (rtrDlc : BitVec 4) (id : BitVec 29) (sdt : BitVec 8) (vcid : BitVec 8) (sec : BitVec 1) (af : BitVec 32) (s : State) : OutKeeps s (execCanTx d ch fmt brs ide rtr cf useCf rtrDlc id sdt vcid sec af s) := by
  have h := Keeps.refl s
  unfold execCanTx
  show Keeps _ _
  repeat' first
    | with_reducible assumption
    | with_reducible apply keeps_accept
    | with_reducible apply keeps_actCanTx
    | intro _ _ _

theorem keeps_actCanTpTx (ch : BitVec 4) (cf : BitVec 3) (da : BitVec 8) (prio : BitVec 3) (pgn : BitVec 18) (a : Act) (s : State) {s0 : State}  (h : Keeps s0 s) :
    Keeps s0 (actCanTpTx ch cf da prio pgn a s) := by
  unfold actCanTpTx
  repeat' first
    | with_reducible assumption
    | with_reducible apply keeps_refuse
    | with_reducible apply keeps_netEval
    | with_reducible apply keeps_tpRequest
    | with_reducible apply Keeps.ite <;> intro _

theorem keeps_execCanTpTx (d : Desc) (ch : BitVec 4) (cf : BitVec 3) (da : BitVec 8) (prio : BitVec 3) (pgn : BitVec 18) (s : State) : OutKeeps s (execCanTpTx d ch cf da prio pgn s) := by
  have h := Keeps.refl s
  unfold execCanTpTx
  show Keeps _ _
  repeat' first
    | with_reducible assumption
    | with_reducible apply keeps_accept
    | with_reducible apply keeps_actCanTpTx
    | intro _ _ _

theorem keeps_actCanMode (ch : BitVec 4) (listen : BitVec 1) (unmute : BitVec 1) (a : Act) (s : State) {s0 : State}  (h : Keeps s0 s) :
    Keeps s0 (actCanMode ch listen unmute a s) := by
  unfold actCanMode
  try extract_lets
  repeat' first
    | with_reducible assumption
    | with_reducible apply keeps_refuse
    | with_reducible apply keeps_State_modCan
    | with_reducible apply keeps_finish
    | with_reducible apply keeps_netEval
    | with_reducible apply keeps_canSync
    | with_reducible apply Keeps.ite <;> intro _

theorem keeps_execCanMode (d : Desc) (ch : BitVec 4) (listen : BitVec 1) (unmute : BitVec 1) (s : State) : OutKeeps s (execCanMode d ch listen unmute s) := by
  have h := Keeps.refl s
  unfold execCanMode
  show Keeps _ _
  repeat' first
    | with_reducible assumption
    | with_reducible apply keeps_accept
    | with_reducible apply keeps_actCanMode
    | intro _ _ _

theorem keeps_actCanRecover (ch : BitVec 4) (a : Act) (s : State) {s0 : State}  (h : Keeps s0 s) :
    Keeps s0 (actCanRecover ch a s) := by
  unfold actCanRecover
  try extract_lets
  repeat' first
    | with_reducible assumption
    | with_reducible apply keeps_refuse
    | with_reducible apply keeps_finish
    | with_reducible apply keeps_State_modCan
    | with_reducible apply Keeps.ite <;> intro _

theorem keeps_execCanRecover (d : Desc) (ch : BitVec 4) (s : State) : OutKeeps s (execCanRecover d ch s) := by
  have h := Keeps.refl s
  unfold execCanRecover
  show Keeps _ _
  repeat' first
    | with_reducible assumption
    | with_reducible apply keeps_accept
    | with_reducible apply keeps_actCanRecover
    | intro _ _ _

theorem keeps_actCanTtWrite (ch : BitVec 4) (fmt : BitVec 2) (brs : BitVec 1) (ide : BitVec 1) (slot : BitVec 5) (clear : BitVec 1) (id : BitVec 29) (a : Act) (s : State) {s0 : State}  (h : Keeps s0 s) :
    Keeps s0 (actCanTtWrite ch fmt brs ide slot clear id a s) := by
  unfold actCanTtWrite
  try extract_lets
  repeat' first
    | with_reducible assumption
    | with_reducible apply keeps_refuse
    | with_reducible apply keeps_finish
    | with_reducible apply keeps_State_modCan
    | with_reducible apply Keeps.ite <;> intro _

theorem keeps_execCanTtWrite (d : Desc) (ch : BitVec 4) (fmt : BitVec 2) (brs : BitVec 1) (ide : BitVec 1) (slot : BitVec 5) (clear : BitVec 1) (id : BitVec 29) (s : State) : OutKeeps s (execCanTtWrite d ch fmt brs ide slot clear id s) := by
  have h := Keeps.refl s
  unfold execCanTtWrite
  show Keeps _ _
  repeat' first
    | with_reducible assumption
    | with_reducible apply keeps_accept
    | with_reducible apply keeps_actCanTtWrite
    | intro _ _ _

theorem keeps_actCanAc (cf : BitVec 3) (act : BitVec 2) (addr : BitVec 8) (a : Act) (s : State) {s0 : State}  (h : Keeps s0 s) :
    Keeps s0 (actCanAc cf act addr a s) := by
  unfold actCanAc
  try extract_lets
  repeat' first
    | with_reducible assumption
    | with_reducible apply keeps_refuse
    | with_reducible apply keeps_State_modCf
    | with_reducible apply keeps_claimStart
    | with_reducible apply keeps_cannotClaim
    | with_reducible apply keeps_logEvent
    | with_reducible apply keeps_finish
    | with_reducible apply keeps_netEval
    | with_reducible apply Keeps.ite <;> intro _
    | (with_reducible refine Keeps.of_mk _ _ _ _ _ _ _ _ _ _ _ _ _ _ _ _ _ _ _ _ _ _ _ _ _ _ _ _ _ ?_ rfl rfl rfl rfl rfl rfl rfl rfl
       split)

theorem keeps_execCanAc (d : Desc) (cf : BitVec 3) (act : BitVec 2) (addr : BitVec 8) (s : State) : OutKeeps s (execCanAc d cf act addr s) := by
  have h := Keeps.refl s
  unfold execCanAc
  show Keeps _ _
  repeat' first
    | with_reducible assumption
    | with_reducible apply keeps_accept
    | with_reducible apply keeps_actCanAc
    | intro _ _ _

theorem keeps_actCanRead (ch : BitVec 4) (a : Act) (s : State) {s0 : State}  (h : Keeps s0 s) :
    Keeps s0 (actCanRead ch a s) := by
  unfold actCanRead
  repeat' first
    | with_reducible assumption
    | with_reducible apply keeps_refuse
    | with_reducible apply keeps_finish
    | with_reducible apply Keeps.ite <;> intro _

theorem keeps_execCanRead (d : Desc) (ch : BitVec 4) (s : State) : OutKeeps s (execCanRead d ch s) := by
  have h := Keeps.refl s
  unfold execCanRead
  show Keeps _ _
  repeat' first
    | with_reducible assumption
    | with_reducible apply keeps_accept
    | with_reducible apply keeps_actCanRead
    | intro _ _ _

theorem keeps_canCancelOn (s : State) (d c : Desc) (n : Nat) {s0 : State} (h : Keeps s0 s) :
    OptKeeps s0 (canCancelOn s d c n) := by
  have ok : ∀ u, Keeps s0 u → Keeps s0 (netEval (complete u c stOk 0 u.weave.time.toNat 0 0) n) :=
    fun u k => keeps_netEval _ _ (keeps_complete _ _ _ _ _ _ _ k)
  unfold canCancelOn
  extract_lets x f
  split
  · exact ok _ (keeps_txComplete _ _ _ _ (keeps_State_modCan _ _ _ h))
  · split
    · exact True.intro
    · refine OptKeeps.ite (fun _ => keeps_State_modCan _ _ _ h) (fun _ => ?_)
      split
      · exact ok _ (keeps_canFill _ _ (keeps_txComplete _ _ _ _ (keeps_freeTb _ _ _ h)))
      · exact True.intro

theorem keeps_canCancel (s : State) (d c : Desc) {s0 : State} (h : Keeps s0 s) : OptKeeps s0 (canCancel s d c) :=
  OptKeeps.first _ _ (fun n => keeps_canCancelOn s d c n h) none True.intro

theorem keeps_execCanSofCommit (ch : Fin 10) (s : State) : OutKeeps s (execCanSofCommit ch s) := by
  have h := Keeps.refl s
  unfold execCanSofCommit
  show Keeps _ _
  try extract_lets
  repeat' first
    | with_reducible assumption
    | with_reducible apply Keeps.reachWeave
    | with_reducible apply keeps_State_modCan
    | with_reducible apply Keeps.ite <;> intro _
    | (with_reducible refine Keeps.of_mk _ _ _ _ _ _ _ _ _ _ _ _ _ _ _ _ _ _ _ _ _ _ _ _ _ _ _ _ _ ?_ rfl rfl rfl rfl rfl rfl rfl rfl
       split)

theorem keeps_measureDelay (s : State) (n : Nat) (f : CanFrame) (delay : BitVec 7) {s0 : State}  (h : Keeps s0 s) :
    Keeps s0 (measureDelay s n f delay) := by
  unfold measureDelay
  try extract_lets
  repeat' first
    | with_reducible assumption
    | with_reducible apply keeps_State_modCan
    | with_reducible apply Keeps.ite <;> intro _

theorem keeps_afterFrame (s : State) (n : Nat) {s0 : State}  (h : Keeps s0 s) :
    Keeps s0 (afterFrame s n) := by
  unfold afterFrame
  repeat' first
    | with_reducible assumption
    | with_reducible apply keeps_netEval
    | with_reducible apply keeps_canSync

theorem keeps_execCanTxSuccess (ch : Fin 10) (loopDelay : BitVec 7) (s : State) : OutKeeps s (execCanTxSuccess ch loopDelay s) := by
  have h := Keeps.refl s
  unfold execCanTxSuccess
  show Keeps _ _
  try extract_lets
  repeat' first
    | with_reducible assumption
    | with_reducible apply keeps_measureDelay
    | with_reducible apply keeps_freeTb
    | with_reducible apply keeps_State_modCan
    | with_reducible apply keeps_confine
    | with_reducible apply keeps_endAckRun
    | with_reducible apply keeps_State_send
    | with_reducible apply keeps_txComplete
    | with_reducible apply keeps_cancelsEnd
    | with_reducible apply keeps_tpSentOne
    | with_reducible apply keeps_afterFrame
    | with_reducible apply keeps_canFill
    | with_reducible apply keeps_netSent
    | with_reducible apply Keeps.ite <;> intro _
    | (with_reducible refine Keeps.of_mk _ _ _ _ _ _ _ _ _ _ _ _ _ _ _ _ _ _ _ _ _ _ _ _ _ _ _ _ _ ?_ rfl rfl rfl rfl rfl rfl rfl rfl
       split)

theorem keeps_afterAttempt (s : State) (n : Nat) (b : Nat) (f : TxFrame) (gone : Option Nat) {s0 : State}  (h : Keeps s0 s) :
    Keeps s0 (afterAttempt s n b f gone) := by
  unfold afterAttempt
  try extract_lets
  repeat' first
    | with_reducible assumption
    | with_reducible apply keeps_State_modCan
    | with_reducible apply keeps_cancelsEnd
    | with_reducible apply keeps_txComplete
    | with_reducible apply keeps_freeTb
    | with_reducible apply Keeps.ite <;> intro _
    | (with_reducible refine Keeps.of_mk _ _ _ _ _ _ _ _ _ _ _ _ _ _ _ _ _ _ _ _ _ _ _ _ _ _ _ _ _ ?_ rfl rfl rfl rfl rfl rfl rfl rfl
       split)

theorem keeps_execCanTxError (ch : Fin 10) (code : BitVec 3) (dominant : Bool) (loopDelay : BitVec 7) (s : State) : OutKeeps s (execCanTxError ch code dominant loopDelay s) := by
  have h := Keeps.refl s
  unfold execCanTxError
  show Keeps _ _
  try extract_lets
  repeat' first
    | with_reducible assumption
    | with_reducible apply keeps_measureDelay
    | with_reducible apply keeps_State_modCan
    | with_reducible apply keeps_countAck
    | with_reducible apply keeps_startBackoff
    | with_reducible apply keeps_afterAttempt
    | with_reducible apply keeps_afterFrame
    | with_reducible apply keeps_canFill
    | with_reducible apply keeps_confine
    | with_reducible apply keeps_netSent
    | with_reducible apply Keeps.ite <;> intro _
    | (with_reducible refine Keeps.of_mk _ _ _ _ _ _ _ _ _ _ _ _ _ _ _ _ _ _ _ _ _ _ _ _ _ _ _ _ _ ?_ rfl rfl rfl rfl rfl rfl rfl rfl
       split)

theorem keeps_execCanArbLost (ch : Fin 10) (s : State) : OutKeeps s (execCanArbLost ch s) := by
  have h := Keeps.refl s
  unfold execCanArbLost
  show Keeps _ _
  try extract_lets
  repeat' first
    | with_reducible assumption
    | with_reducible apply keeps_afterFrame
    | with_reducible apply keeps_canFill
    | with_reducible apply keeps_afterAttempt
    | (with_reducible refine Keeps.of_mk _ _ _ _ _ _ _ _ _ _ _ _ _ _ _ _ _ _ _ _ _ _ _ _ _ _ _ _ _ ?_ rfl rfl rfl rfl rfl rfl rfl rfl
       split)

theorem keeps_tunnelFrame (s : State) (n : Nat) (f : CanFrame) (sof : BitVec 64) {s0 : State}  (h : Keeps s0 s) :
    Keeps s0 (tunnelFrame s n f sof) := by
  unfold tunnelFrame
  try extract_lets
  repeat' first
    | with_reducible assumption
    | with_reducible apply keeps_State_send
    | with_reducible apply Keeps.ite <;> intro _
    | (with_reducible refine Keeps.of_mk _ _ _ _ _ _ _ _ _ _ _ _ _ _ _ _ _ _ _ _ _ _ _ _ _ _ _ _ _ ?_ rfl rfl rfl rfl rfl rfl rfl rfl
       with_reducible assumption)

theorem keeps_filterFrame (s : State) (n : Nat) (f : CanFrame) (sof : BitVec 64) {s0 : State}  (h : Keeps s0 s) :
    Keeps s0 (filterFrame s n f sof) := by
  unfold filterFrame
  try extract_lets
  repeat' first
    | with_reducible assumption
    | with_reducible apply keeps_State_modCan
    | with_reducible apply keeps_tunnelFrame
    | with_reducible apply keeps_inbound
    | with_reducible apply Keeps.ite <;> intro _
    | (with_reducible refine Keeps.of_mk _ _ _ _ _ _ _ _ _ _ _ _ _ _ _ _ _ _ _ _ _ _ _ _ _ _ _ _ _ ?_ rfl rfl rfl rfl rfl rfl rfl rfl
       split)

theorem keeps_expectSeen (s : State) (n : Nat) (f : CanFrame) (sof : BitVec 64) {s0 : State}  (h : Keeps s0 s) :
    Keeps s0 (expectSeen s n f sof) := by
  unfold expectSeen
  try extract_lets
  repeat' first
    | with_reducible assumption
    | with_reducible apply keeps_State_modCan
    | with_reducible apply Keeps.ite <;> intro _
    | (with_reducible refine Keeps.of_mk _ _ _ _ _ _ _ _ _ _ _ _ _ _ _ _ _ _ _ _ _ _ _ _ _ _ _ _ _ ?_ rfl rfl rfl rfl rfl rfl rfl rfl
       split)

theorem keeps_speedFrame (s : State) (n : Nat) (f : CanFrame) {s0 : State}  (h : Keeps s0 s) :
    Keeps s0 (speedFrame s n f) := by
  unfold speedFrame
  try extract_lets
  repeat' first
    | with_reducible assumption
    | with_reducible apply Keeps.ite <;> intro _
    | (with_reducible refine Keeps.of_mk _ _ _ _ _ _ _ _ _ _ _ _ _ _ _ _ _ _ _ _ _ _ _ _ _ _ _ _ _ ?_ rfl rfl rfl rfl rfl rfl rfl rfl
       first
         | with_reducible assumption
         | split
      )

theorem keeps_recvOk (s : State) (n : Nat) {s0 : State}  (h : Keeps s0 s) :
    Keeps s0 (recvOk s n) := by
  unfold recvOk
  try extract_lets
  repeat' first
    | with_reducible assumption
    | with_reducible apply keeps_State_takeNat
    | with_reducible apply keeps_State_modCan
    | with_reducible apply Keeps.ite <;> intro _

theorem keeps_execCanFrameRx (ch : Fin 10) (frame : CanFrame) (sof : BitVec 64) (s : State) : OutKeeps s (execCanFrameRx ch frame sof s) := by
  have h := Keeps.refl s
  unfold execCanFrameRx
  show Keeps _ _
  try extract_lets
  repeat' first
    | with_reducible assumption
    | with_reducible apply keeps_confine
    | with_reducible apply keeps_recvOk
    | with_reducible apply keeps_endAckRun
    | with_reducible apply keeps_expectSeen
    | with_reducible apply keeps_netSeen
    | with_reducible apply keeps_filterFrame
    | with_reducible apply keeps_speedFrame
    | with_reducible apply keeps_netEval
    | with_reducible apply keeps_servicesRx
    | with_reducible apply Keeps.ite <;> intro _

theorem keeps_execCanRxError (ch : Fin 10) (code : BitVec 3) (dominant : Bool) (s : State) : OutKeeps s (execCanRxError ch code dominant s) := by
  have h := Keeps.refl s
  unfold execCanRxError
  show Keeps _ _
  try extract_lets
  repeat' first
    | with_reducible assumption
    | with_reducible apply keeps_confine
    | with_reducible apply keeps_State_modCan
    | with_reducible apply Keeps.ite <;> intro _

theorem keeps_execProtocolException (_ch : Fin 10) (s : State) : OutKeeps s (execProtocolException _ch s) := by
  have h := Keeps.refl s
  unfold execProtocolException
  show Keeps _ _
  repeat' first
    | with_reducible assumption

theorem keeps_execBusOffWaitExpiry (ch : Fin 10) (s : State) : OutKeeps s (execBusOffWaitExpiry ch s) := by
  have h := Keeps.refl s
  unfold execBusOffWaitExpiry
  show Keeps _ _
  try extract_lets
  repeat' first
    | with_reducible assumption
    | with_reducible apply Keeps.reach
    | with_reducible apply keeps_State_modCan
    | with_reducible apply Keeps.ite <;> intro _

theorem keeps_execBusOffRecovered (ch : Fin 10) (s : State) : OutKeeps s (execBusOffRecovered ch s) := by
  have h := Keeps.refl s
  unfold execBusOffRecovered
  show Keeps _ _
  try extract_lets
  repeat' first
    | with_reducible assumption
    | with_reducible apply keeps_State_modCan
    | with_reducible apply keeps_netEval
    | with_reducible apply keeps_claimAgain
    | with_reducible apply keeps_canSync
    | with_reducible apply keeps_logEvent
    | with_reducible apply Keeps.ite <;> intro _

theorem keeps_execAloneBackoffExpiry (ch : Fin 10) (s : State) : OutKeeps s (execAloneBackoffExpiry ch s) := by
  have h := Keeps.refl s
  unfold execAloneBackoffExpiry
  show Keeps _ _
  try extract_lets
  repeat' first
    | with_reducible assumption
    | with_reducible apply Keeps.reach
    | with_reducible apply keeps_State_modCan
    | (with_reducible refine Keeps.of_mk _ _ _ _ _ _ _ _ _ _ _ _ _ _ _ _ _ _ _ _ _ _ _ _ _ _ _ _ _ ?_ rfl rfl rfl rfl rfl rfl rfl rfl
       split)

theorem keeps_execTxdTimeout (ch : Fin 10) (s : State) : OutKeeps s (execTxdTimeout ch s) := by
  have h := Keeps.refl s
  unfold execTxdTimeout
  show Keeps _ _
  try extract_lets
  repeat' first
    | with_reducible assumption
    | with_reducible apply keeps_logEvent
    | with_reducible apply keeps_State_modCan

theorem keeps_muteChannel (s : State) (n : Nat) (cause : Nat) {s0 : State}  (h : Keeps s0 s) :
    Keeps s0 (muteChannel s n cause) := by
  unfold muteChannel
  try extract_lets
  repeat' first
    | with_reducible assumption
    | with_reducible apply keeps_State_modCan
    | with_reducible apply keeps_netEval
    | with_reducible apply keeps_canSync
    | with_reducible apply keeps_logEvent
    | with_reducible apply keeps_canDump

theorem keeps_execChannelMute (ch : Fin 10) (s : State) : OutKeeps s (execChannelMute ch s) := by
  have h := Keeps.refl s
  unfold execChannelMute
  show Keeps _ _
  try extract_lets
  repeat' first
    | with_reducible assumption
    | with_reducible apply keeps_muteChannel
    | with_reducible apply Keeps.reach
    | with_reducible apply Keeps.ite <;> intro _

theorem keeps_openWindow (s : State) (n : Nat) (r : Rec) (k : Nat) (w : Nat) {s0 : State}  (h : Keeps s0 s) :
    Keeps s0 (openWindow s n r k w) := by
  unfold openWindow
  try extract_lets
  repeat' first
    | with_reducible assumption
    | with_reducible apply Keeps.reachWeave
    | with_reducible apply keeps_State_modCan

theorem keeps_closeWindow (s : State) (n : Nat) (r : Rec) (began : Bool) {s0 : State}  (h : Keeps s0 s) :
    Keeps s0 (closeWindow s n r began) := by
  unfold closeWindow
  try extract_lets
  repeat' first
    | with_reducible assumption
    | with_reducible apply keeps_State_modCan
    | with_reducible apply keeps_logEvent
    | with_reducible apply keeps_schedStop
    | with_reducible apply Keeps.ite <;> intro _

theorem keeps_execSchedWindowOpen (ch : Fin 10) (s : State) : OutKeeps s (execSchedWindowOpen ch s) := by
  have h := Keeps.refl s
  unfold execSchedWindowOpen
  show Keeps _ _
  try extract_lets
  repeat' first
    | with_reducible assumption
    | with_reducible apply keeps_schedCheck
    | with_reducible apply keeps_closeWindow
    | with_reducible apply keeps_openWindow
    | with_reducible apply keeps_State_modCan
    | with_reducible apply keeps_logEvent
    | with_reducible apply Keeps.reachWeave
    | with_reducible apply Keeps.ite <;> intro _
    | (with_reducible refine Keeps.of_mk _ _ _ _ _ _ _ _ _ _ _ _ _ _ _ _ _ _ _ _ _ _ _ _ _ _ _ _ _ ?_ rfl rfl rfl rfl rfl rfl rfl rfl
       split)

theorem keeps_execSchedLateMax (ch : Fin 10) (s : State) : OutKeeps s (execSchedLateMax ch s) := by
  have h := Keeps.refl s
  unfold execSchedLateMax
  show Keeps _ _
  try extract_lets
  repeat' first
    | with_reducible assumption
    | with_reducible apply Keeps.reachWeave
    | with_reducible apply keeps_State_modCan
    | with_reducible apply Keeps.ite <;> intro _
    | (with_reducible refine Keeps.of_mk _ _ _ _ _ _ _ _ _ _ _ _ _ _ _ _ _ _ _ _ _ _ _ _ _ _ _ _ _ ?_ rfl rfl rfl rfl rfl rfl rfl rfl
       split)

theorem keeps_execSchedWindowClose (ch : Fin 10) (began : Bool) (s : State) : OutKeeps s (execSchedWindowClose ch began s) := by
  have h := Keeps.refl s
  unfold execSchedWindowClose
  show Keeps _ _
  try extract_lets
  repeat' first
    | with_reducible assumption
    | with_reducible apply keeps_closeWindow
    | with_reducible apply Keeps.reachWeave
    | with_reducible apply Keeps.ite <;> intro _
    | (with_reducible refine Keeps.of_mk _ _ _ _ _ _ _ _ _ _ _ _ _ _ _ _ _ _ _ _ _ _ _ _ _ _ _ _ _ ?_ rfl rfl rfl rfl rfl rfl rfl rfl
       split)

theorem keeps_execAddressClaimTimeout (cf : Fin 8) (s : State) : OutKeeps s (execAddressClaimTimeout cf s) := by
  have h := Keeps.refl s
  unfold execAddressClaimTimeout
  show Keeps _ _
  try extract_lets
  repeat' first
    | with_reducible assumption
    | with_reducible apply keeps_State_modCf
    | with_reducible apply keeps_netEval
    | with_reducible apply keeps_logEvent
    | with_reducible apply Keeps.ite <;> intro _

theorem keeps_tpSendTimer (s : State) (x : TpSend) {s0 : State}  (h : Keeps s0 s) :
    Keeps s0 (tpSendTimer s x) := by
  unfold tpSendTimer
  try extract_lets
  repeat' first
    | with_reducible assumption
    | with_reducible apply Keeps.reach
    | with_reducible apply keeps_tpNext
    | with_reducible apply keeps_tpEnd
    | with_reducible apply keeps_logEvent
    | with_reducible apply keeps_tpSendAbort
    | with_reducible apply Keeps.ite <;> intro _
    | (with_reducible refine Keeps.of_mk _ _ _ _ _ _ _ _ _ _ _ _ _ _ _ _ _ _ _ _ _ _ _ _ _ _ _ _ _ ?_ rfl rfl rfl rfl rfl rfl rfl rfl
       split)

theorem keeps_execTpTimer (sending : Bool) (session : Fin 32) (s : State) : OutKeeps s (execTpTimer sending session s) := by
  have h := Keeps.refl s
  unfold execTpTimer
  show Keeps _ _
  try extract_lets
  repeat' first
    | with_reducible assumption
    | with_reducible apply keeps_netEval
    | with_reducible apply keeps_tpSendTimer
    | with_reducible apply keeps_recvCm
    | with_reducible apply keeps_logEvent
    | with_reducible apply keeps_recvEnd
    | with_reducible apply Keeps.ite <;> intro _
    | (with_reducible refine Keeps.of_mk _ _ _ _ _ _ _ _ _ _ _ _ _ _ _ _ _ _ _ _ _ _ _ _ _ _ _ _ _ ?_ rfl rfl rfl rfl rfl rfl rfl rfl
       split)

end Sys2Proof.Machine
end

