-- ==== Sys2Proof/Laws/KeepsCfg.lean ====
section
/-! SUPPORT. What the operations of Machine/Cfg.lean keep: the queue, the order of time and a sound state. -/

namespace Sys2Proof.Machine

set_option linter.unusedTactic false
set_option linter.unreachableTactic false

theorem keeps_actConfigStage (a : Act) (s : State) {s0 : State}  (h : Keeps s0 s) :
    Keeps s0 (actConfigStage a s) := by
  unfold actConfigStage
  try extract_lets
  repeat' first
    | with_reducible assumption
    | with_reducible apply keeps_refuse
    | with_reducible apply keeps_finish
    | with_reducible apply Keeps.ite <;> intro _
    | (with_reducible refine Keeps.of_mk _ _ _ _ _ _ _ _ _ _ _ _ _ _ _ _ _ _ _ _ _ _ _ _ _ _ _ _ _ ?_ rfl rfl rfl rfl rfl rfl rfl rfl
       first
         | with_reducible assumption
         | split
      )
    | extract_lets
    | dsimp only

theorem keeps_execConfigStage (d : Desc) (s : State) : OutKeeps s (execConfigStage d s) := by
  have h := Keeps.refl s
  unfold execConfigStage
  show Keeps _ _
  repeat' first
    | with_reducible assumption
    | with_reducible apply keeps_accept
    | with_reducible apply keeps_actConfigStage
    | intro _ _ _

theorem keeps_actConfigLoad (a : Act) (s : State) {s0 : State}  (h : Keeps s0 s) :
    Keeps s0 (actConfigLoad a s) := by
  unfold actConfigLoad
  try extract_lets
  repeat' first
    | with_reducible assumption
    | with_reducible apply keeps_refuse
    | with_reducible apply keeps_readImage
    | with_reducible apply keeps_finish
    | with_reducible apply Keeps.ite <;> intro _
    | (with_reducible refine Keeps.of_mk _ _ _ _ _ _ _ _ _ _ _ _ _ _ _ _ _ _ _ _ _ _ _ _ _ _ _ _ _ ?_ rfl rfl rfl rfl rfl rfl rfl rfl
       first
         | with_reducible apply keeps_readImage
         | split
      )

theorem keeps_execConfigLoad (d : Desc) (s : State) : OutKeeps s (execConfigLoad d s) := by
  have h := Keeps.refl s
  unfold execConfigLoad
  show Keeps _ _
  repeat' first
    | with_reducible assumption
    | with_reducible apply keeps_accept
    | with_reducible apply keeps_actConfigLoad
    | intro _ _ _

theorem keeps_actStageDiscard (a : Act) (s : State) {s0 : State}  (h : Keeps s0 s) :
    Keeps s0 (actStageDiscard a s) := by
  unfold actStageDiscard
  repeat' first
    | with_reducible assumption
    | with_reducible apply keeps_refuse
    | with_reducible apply keeps_finish
    | with_reducible apply keeps_clearStage
    | with_reducible apply Keeps.ite <;> intro _

theorem keeps_execStageDiscard (d : Desc) (s : State) : OutKeeps s (execStageDiscard d s) := by
  have h := Keeps.refl s
  unfold execStageDiscard
  show Keeps _ _
  repeat' first
    | with_reducible assumption
    | with_reducible apply keeps_accept
    | with_reducible apply keeps_actStageDiscard
    | intro _ _ _

theorem keeps_actConfigExport (a : Act) (s : State) {s0 : State}  (h : Keeps s0 s) :
    Keeps s0 (actConfigExport a s) := by
  unfold actConfigExport
  try extract_lets
  repeat' first
    | with_reducible assumption
    | with_reducible apply keeps_refuse
    | with_reducible apply keeps_putBytes
    | with_reducible apply keeps_finish
    | with_reducible apply Keeps.ite <;> intro _

theorem keeps_execConfigExport (d : Desc) (s : State) : OutKeeps s (execConfigExport d s) := by
  have h := Keeps.refl s
  unfold execConfigExport
  show Keeps _ _
  repeat' first
    | with_reducible assumption
    | with_reducible apply keeps_accept
    | with_reducible apply keeps_actConfigExport
    | intro _ _ _

theorem keeps_stagedWrite (s : State) (addr : Nat) (b : Nat) (t : Nat) (i : Nat) (dflt : List (BitVec 32)) (w : Nat) (mask : BitVec 32) (v : BitVec 32) {s0 : State}  (h : Keeps s0 s) :
    Keeps s0 (stagedWrite s addr b t i dflt w mask v) := by
  unfold stagedWrite
  try extract_lets
  repeat' first
    | with_reducible apply keeps_logEvent
    | with_reducible apply Keeps.ite <;> intro _
    | (with_reducible refine Keeps.of_mk _ _ _ _ _ _ _ _ _ _ _ _ _ _ _ _ _ _ _ _ _ _ _ _ _ _ _ _ _ ?_ rfl rfl rfl rfl rfl rfl rfl rfl
       with_reducible assumption)

theorem keeps_stageRecords (s : State) {s0 : State}  (h : Keeps s0 s) :
    Keeps s0 (stageRecords s) := by
  unfold stageRecords
  try extract_lets
  repeat' first
    | with_reducible assumption
    | with_reducible exact Keeps.refl _
    | with_reducible apply Keeps.foldl
    | with_reducible apply Keeps.foldl_snd
    | with_reducible apply Keeps.ite <;> intro _
    | with_reducible apply Keeps.ite_snd <;> intro _
    | exact fun _ k => k
    | intro _ _ _
    | intro _ _
    | (with_reducible refine Keeps.of_mk _ _ _ _ _ _ _ _ _ _ _ _ _ _ _ _ _ _ _ _ _ _ _ _ _ _ _ _ _ ?_ rfl rfl rfl rfl rfl rfl rfl rfl
       first
         | with_reducible assumption
         | with_reducible exact Keeps.refl _
         | with_reducible apply Keeps.foldl
         | with_reducible apply Keeps.foldl_snd
         | with_reducible apply Keeps.ite <;> intro _
         | with_reducible apply Keeps.ite_snd <;> intro _
         | split
      )
    | split
    | extract_lets
    | dsimp only
    | dsimp +zetaDelta only
    | assumption

theorem keeps_stageApplied (s : State) {s0 : State}  (h : Keeps s0 s) :
    Keeps s0 (stageApplied s) := by
  unfold stageApplied
  try extract_lets
  repeat' first
    | with_reducible assumption
    | with_reducible exact Keeps.refl _
    | with_reducible apply Keeps.foldl
    | with_reducible apply Keeps.foldl_snd
    | with_reducible apply keeps_clearStage
    | with_reducible apply keeps_stageRecords
    | with_reducible apply keeps_logEvent
    | with_reducible apply Keeps.ite <;> intro _
    | with_reducible apply Keeps.ite_snd <;> intro _
    | exact fun _ k => k
    | intro _ _ _
    | intro _ _
    | (with_reducible refine Keeps.of_mk _ _ _ _ _ _ _ _ _ _ _ _ _ _ _ _ _ _ _ _ _ _ _ _ _ _ _ _ _ ?_ rfl rfl rfl rfl rfl rfl rfl rfl
       first
         | with_reducible assumption
         | with_reducible exact Keeps.refl _
         | with_reducible apply Keeps.foldl
         | with_reducible apply Keeps.foldl_snd
         | with_reducible apply keeps_clearStage
         | with_reducible apply keeps_stageRecords
         | with_reducible apply keeps_logEvent
         | with_reducible apply Keeps.ite <;> intro _
         | with_reducible apply Keeps.ite_snd <;> intro _
         | split
      )
    | split
    | extract_lets
    | dsimp only
    | dsimp +zetaDelta only
    | assumption

theorem keeps_orphansAnew (s : State) {s0 : State}  (h : Keeps s0 s) :
    Keeps s0 (orphansAnew s) := by
  unfold orphansAnew
  try extract_lets
  repeat' first
    | with_reducible assumption
    | with_reducible exact Keeps.refl _
    | with_reducible apply Keeps.foldl
    | with_reducible apply Keeps.foldl_snd
    | with_reducible apply Keeps.ite <;> intro _
    | with_reducible apply Keeps.ite_snd <;> intro _
    | exact fun _ k => k
    | intro _ _ _
    | intro _ _
    | (with_reducible refine Keeps.of_mk _ _ _ _ _ _ _ _ _ _ _ _ _ _ _ _ _ _ _ _ _ _ _ _ _ _ _ _ _ ?_ rfl rfl rfl rfl rfl rfl rfl rfl
       first
         | with_reducible assumption
         | with_reducible exact Keeps.refl _
         | with_reducible apply Keeps.foldl
         | with_reducible apply Keeps.foldl_snd
         | with_reducible apply Keeps.ite <;> intro _
         | with_reducible apply Keeps.ite_snd <;> intro _
         | split
      )
    | split
    | extract_lets
    | dsimp only
    | dsimp +zetaDelta only
    | assumption

theorem keeps_applyStage (s : State) {s0 : State} (h : Keeps s0 s) : Keeps s0 (applyStage s) := by
  have k : Keeps s0 (stageApplied s) := keeps_stageApplied _ h
  exact keeps_plSync _ (keeps_netAll _ (keeps_modeClaims _ (keeps_facetCommit _ _ _ (keeps_orphansAnew _
    (keeps_recordRegs _ _ _ (Keeps.ite (fun _ => keeps_logEvent _ _ _ k) (fun _ => k)))))))

theorem keeps_startPersist (s : State) (a : Option Act) {s0 : State}  (h : Keeps s0 s) :
    Keeps s0 (startPersist s a) := by
  unfold startPersist
  try extract_lets
  repeat' first
    | (with_reducible refine Keeps.of_mk _ _ _ _ _ _ _ _ _ _ _ _ _ _ _ _ _ _ _ _ _ _ _ _ _ _ _ _ _ ?_ rfl rfl rfl rfl rfl rfl rfl rfl
       with_reducible assumption)

theorem keeps_execPersistDone (ok : Bool) (s : State) : OutKeeps s (execPersistDone ok s) := by
  have h := Keeps.refl s
  unfold execPersistDone
  show Keeps _ _
  try extract_lets
  repeat' first
    | with_reducible assumption
    | with_reducible apply keeps_finish
    | with_reducible apply keeps_logEvent
    | with_reducible apply keeps_finishAs
    | with_reducible apply Keeps.ite <;> intro _
    | (with_reducible refine Keeps.of_mk _ _ _ _ _ _ _ _ _ _ _ _ _ _ _ _ _ _ _ _ _ _ _ _ _ _ _ _ _ ?_ rfl rfl rfl rfl rfl rfl rfl rfl
       first
         | with_reducible assumption
         | with_reducible apply Keeps.ite <;> intro _
         | split
      )
    | extract_lets
    | dsimp +zetaDelta only

theorem keeps_sealStage (s : State) (a : Act) (persist : Bool) (fleet : Bool) {s0 : State}  (h : Keeps s0 s) :
    Keeps s0 (sealStage s a persist fleet) := by
  unfold sealStage
  try extract_lets
  repeat' first
    | (with_reducible refine Keeps.of_mk _ _ _ _ _ _ _ _ _ _ _ _ _ _ _ _ _ _ _ _ _ _ _ _ _ _ _ _ _ ?_ rfl rfl rfl rfl rfl rfl rfl rfl
       with_reducible assumption)

theorem keeps_unsealStage (s : State) {s0 : State}  (h : Keeps s0 s) :
    Keeps s0 (unsealStage s) := by
  unfold unsealStage
  try extract_lets
  repeat' first
    | (with_reducible refine Keeps.of_mk _ _ _ _ _ _ _ _ _ _ _ _ _ _ _ _ _ _ _ _ _ _ _ _ _ _ _ _ _ ?_ rfl rfl rfl rfl rfl rfl rfl rfl
       with_reducible assumption)

theorem keeps_commitApply (s : State) (c : Commit) {s0 : State}  (h : Keeps s0 s) :
    Keeps s0 (commitApply s c) := by
  unfold commitApply
  try extract_lets
  repeat' first
    | with_reducible assumption
    | with_reducible apply keeps_dropAct
    | with_reducible apply keeps_unsealStage
    | with_reducible apply keeps_applyStage
    | with_reducible apply keeps_startPersist
    | with_reducible apply keeps_finish
    | with_reducible apply Keeps.ite <;> intro _

theorem keeps_actCommit (persist : BitVec 1) (a : Act) (s : State) {s0 : State}  (h : Keeps s0 s) :
    Keeps s0 (actCommit persist a s) := by
  unfold actCommit
  try extract_lets
  repeat' first
    | with_reducible assumption
    | with_reducible apply keeps_commitApply
    | with_reducible apply keeps_refuse
    | with_reducible apply keeps_sealStage
    | with_reducible apply Keeps.ite <;> intro _
    | (with_reducible refine Keeps.of_mk _ _ _ _ _ _ _ _ _ _ _ _ _ _ _ _ _ _ _ _ _ _ _ _ _ _ _ _ _ ?_ rfl rfl rfl rfl rfl rfl rfl rfl
       first
         | with_reducible assumption
         | split
      )

theorem keeps_execCommit (d : Desc) (persist : BitVec 1) (s : State) : OutKeeps s (execCommit d persist s) :=
  keeps_acceptWith _ _ _ _ _ _ (fun _ _ k => keeps_actCommit _ _ _ k) (fun _ k => keeps_sealStage _ _ _ _ k) (Keeps.refl s)

theorem keeps_unqueue (s : State) (d : Desc) {s0 : State}  (h : Keeps s0 s) :
    Keeps s0 (unqueue s d) := by
  unfold unqueue
  try extract_lets
  repeat' first
    | (with_reducible refine Keeps.of_mk _ _ _ _ _ _ _ _ _ _ _ _ _ _ _ _ _ _ _ _ _ _ _ _ _ _ _ _ _ ?_ rfl rfl rfl rfl rfl rfl rfl rfl
       with_reducible assumption)

theorem keeps_reportFail (s : State) (f : Fail) {s0 : State}  (h : Keeps s0 s) :
    Keeps s0 (reportFail s f) := by
  unfold reportFail
  try extract_lets
  repeat' first
    | with_reducible apply keeps_logEvent
    | (with_reducible refine Keeps.of_mk _ _ _ _ _ _ _ _ _ _ _ _ _ _ _ _ _ _ _ _ _ _ _ _ _ _ _ _ _ ?_ rfl rfl rfl rfl rfl rfl rfl rfl
       with_reducible assumption)

theorem keeps_judgeStage (s : State) {s0 : State} (h : Keeps s0 s) : Keeps s0 (judgeStage s).2 := by
  have read : ∀ a n, Keeps s0 (readImage (.mem a) n s).2 := fun a n => keeps_readImage _ _ _ h
  unfold judgeStage
  extract_lets r
  have hr : Keeps s0 r.2 := by
    show Keeps s0 (Prod.snd (match s.cfg.load with
      | some (a, n) => if n = 0 then _ else _
      | none => _))
    split
    · rename_i a n _
      refine Keeps.ite_snd (fun _ => h) (fun _ => ?_)
      have := read a n
      split
      · rename_i e u hu
        rw [hu] at this
        exact this
      · rename_i m u hu
        rw [hu] at this
        exact this.of_same rfl rfl rfl rfl rfl rfl rfl rfl
    · exact h
  split
  · exact hr
  · split <;> exact hr

theorem keeps_fleetMsg (s : State) (w : Nat) (id : BitVec 8) (kind : Nat) (more : List (BitVec 8)) {s0 : State}  (h : Keeps s0 s) :
    Keeps s0 (fleetMsg s w id kind more) := by
  unfold fleetMsg
  repeat' first
    | with_reducible assumption
    | with_reducible apply keeps_plaitMsg

theorem keeps_fleetAbortAll (s : State) (f : Fleet) (cause : Nat) {s0 : State}  (h : Keeps s0 s) :
    Keeps s0 (fleetAbortAll s f cause) := by
  unfold fleetAbortAll
  try extract_lets
  repeat' first
    | with_reducible assumption
    | with_reducible apply Keeps.foldl
    | with_reducible apply keeps_fleetMsg
    | with_reducible apply keeps_unsealStage
    | with_reducible apply keeps_logEvent
    | intro _ _ _
    | (with_reducible refine Keeps.of_mk _ _ _ _ _ _ _ _ _ _ _ _ _ _ _ _ _ _ _ _ _ _ _ _ _ _ _ _ _ ?_ rfl rfl rfl rfl rfl rfl rfl rfl
       with_reducible apply Keeps.ite <;> intro _)

theorem keeps_fleetEnd (s : State) (f : Fleet) (cause : Nat) (status : Nat) {s0 : State}  (h : Keeps s0 s) :
    Keeps s0 (fleetEnd s f cause status) := by
  unfold fleetEnd
  try extract_lets
  repeat' first
    | with_reducible assumption
    | with_reducible apply keeps_dropAct
    | with_reducible apply keeps_unqueue
    | (with_reducible refine Keeps.of_mk _ _ _ _ _ _ _ _ _ _ _ _ _ _ _ _ _ _ _ _ _ _ _ _ _ _ _ _ _ ?_ rfl rfl rfl rfl rfl rfl rfl rfl
       with_reducible apply keeps_fleetAbortAll)

theorem keeps_fleetVoted (s : State) (f : Fleet) {s0 : State}  (h : Keeps s0 s) :
    Keeps s0 (fleetVoted s f) := by
  unfold fleetVoted
  try extract_lets
  repeat' first
    | with_reducible assumption
    | with_reducible apply keeps_fleetEnd
    | with_reducible apply keeps_fleetMsg
    | with_reducible apply Keeps.ite <;> intro _
    | intro _ _ _
    | (with_reducible refine Keeps.of_mk _ _ _ _ _ _ _ _ _ _ _ _ _ _ _ _ _ _ _ _ _ _ _ _ _ _ _ _ _ ?_ rfl rfl rfl rfl rfl rfl rfl rfl
       with_reducible apply Keeps.foldl)

theorem keeps_fleetEnter (d : Desc) (mask : BitVec 32) (persist : Bool) (s : State) {s0 : State}  (h : Keeps s0 s) :
    Keeps s0 (fleetEnter d mask persist s) := by
  unfold fleetEnter
  try extract_lets
  repeat' first
    | with_reducible assumption
    | with_reducible apply Keeps.foldl
    | with_reducible apply keeps_sealStage
    | with_reducible apply keeps_fleetMsg
    | with_reducible apply keeps_fleetVoted
    | with_reducible apply Keeps.ite <;> intro _
    | intro _ _ _
    | (with_reducible refine Keeps.of_mk _ _ _ _ _ _ _ _ _ _ _ _ _ _ _ _ _ _ _ _ _ _ _ _ _ _ _ _ _ ?_ rfl rfl rfl rfl rfl rfl rfl rfl
       with_reducible apply keeps_State_takeWord)

theorem keeps_fleetApplyOwn (s : State) (f : Fleet) {s0 : State}  (h : Keeps s0 s) :
    Keeps s0 (fleetApplyOwn s f) := by
  unfold fleetApplyOwn
  try extract_lets
  repeat' first
    | with_reducible assumption
    | with_reducible apply keeps_startPersist
    | with_reducible apply Keeps.ite <;> intro _
    | (with_reducible refine Keeps.of_mk _ _ _ _ _ _ _ _ _ _ _ _ _ _ _ _ _ _ _ _ _ _ _ _ _ _ _ _ _ ?_ rfl rfl rfl rfl rfl rfl rfl rfl
       with_reducible apply keeps_applyStage)

theorem keeps_actFleetCommit (a : Act) (s : State) {s0 : State}  (h : Keeps s0 s) :
    Keeps s0 (actFleetCommit a s) := by
  unfold actFleetCommit
  try extract_lets
  repeat' first
    | with_reducible assumption
    | with_reducible apply keeps_fleetApplyOwn
    | with_reducible apply Keeps.ite <;> intro _
    | (with_reducible refine Keeps.of_mk _ _ _ _ _ _ _ _ _ _ _ _ _ _ _ _ _ _ _ _ _ _ _ _ _ _ _ _ _ ?_ rfl rfl rfl rfl rfl rfl rfl rfl
       first
         | with_reducible assumption
         | split
      )

theorem keeps_execFleetCommit (d : Desc) (mask : BitVec 32) (persist : BitVec 1) (s : State) :
    OutKeeps s (execFleetCommit d mask persist s) :=
  keeps_acceptWith _ _ _ _ _ _ (fun _ _ k => keeps_actFleetCommit _ _ k)
    (fun _ k => keeps_fleetEnter _ _ _ _ k) (Keeps.refl s)

theorem keeps_actFleetAbort (a : Act) (s : State) {s0 : State}  (h : Keeps s0 s) :
    Keeps s0 (actFleetAbort a s) := by
  unfold actFleetAbort
  try extract_lets
  repeat' first
    | with_reducible assumption
    | with_reducible apply keeps_refuse
    | with_reducible apply keeps_finish
    | with_reducible apply keeps_fleetEnd
    | with_reducible apply Keeps.ite <;> intro _
    | (with_reducible refine Keeps.of_mk _ _ _ _ _ _ _ _ _ _ _ _ _ _ _ _ _ _ _ _ _ _ _ _ _ _ _ _ _ ?_ rfl rfl rfl rfl rfl rfl rfl rfl
       split)

theorem keeps_execFleetAbort (d : Desc) (s : State) : OutKeeps s (execFleetAbort d s) := by
  have h := Keeps.refl s
  unfold execFleetAbort
  show Keeps _ _
  repeat' first
    | with_reducible assumption
    | with_reducible apply keeps_accept
    | with_reducible apply keeps_actFleetAbort
    | intro _ _ _

theorem keeps_fleetNo (s : State) (f : Fleet) (w : Nat) (detail : BitVec 16) {s0 : State}  (h : Keeps s0 s) :
    Keeps s0 (fleetNo s f w detail) := by
  unfold fleetNo
  try extract_lets
  repeat' first
    | with_reducible assumption
    | with_reducible apply keeps_fleetAbortAll

theorem keeps_fleetVote (s : State) (w : Nat) (yes : Bool) (detail : BitVec 16) {s0 : State}  (h : Keeps s0 s) :
    Keeps s0 (fleetVote s w yes detail) := by
  unfold fleetVote
  try extract_lets
  repeat' first
    | with_reducible assumption
    | with_reducible apply keeps_fleetVoted
    | with_reducible apply keeps_fleetNo
    | with_reducible apply Keeps.ite <;> intro _
    | (with_reducible refine Keeps.of_mk _ _ _ _ _ _ _ _ _ _ _ _ _ _ _ _ _ _ _ _ _ _ _ _ _ _ _ _ _ ?_ rfl rfl rfl rfl rfl rfl rfl rfl
       first
         | with_reducible assumption
         | split
      )

theorem keeps_execFleetVoteRx (worker : Fin 32) (yes : Bool) (detail : BitVec 16) (s : State) : OutKeeps s (execFleetVoteRx worker yes detail s) := by
  have h := Keeps.refl s
  unfold execFleetVoteRx
  show Keeps _ _
  repeat' first
    | with_reducible assumption
    | with_reducible apply keeps_fleetVote

theorem keeps_execFleetVoteTimeout (s : State) : OutKeeps s (execFleetVoteTimeout s) := by
  have h := Keeps.refl s
  unfold execFleetVoteTimeout
  show Keeps _ _
  try extract_lets
  repeat' first
    | with_reducible assumption
    | with_reducible apply keeps_fleetAbortAll
    | with_reducible apply Keeps.ite <;> intro _
    | (with_reducible refine Keeps.of_mk _ _ _ _ _ _ _ _ _ _ _ _ _ _ _ _ _ _ _ _ _ _ _ _ _ _ _ _ _ ?_ rfl rfl rfl rfl rfl rfl rfl rfl
       split)

theorem keeps_fleetOutcome (s : State) (f : Fleet) {s0 : State}  (h : Keeps s0 s) :
    Keeps s0 (fleetOutcome s f) := by
  unfold fleetOutcome
  try extract_lets
  repeat' first
    | with_reducible apply keeps_finish
    | with_reducible apply keeps_finishAs
    | with_reducible apply keeps_dropAct
    | with_reducible apply Keeps.ite <;> intro _
    | (with_reducible refine Keeps.of_mk _ _ _ _ _ _ _ _ _ _ _ _ _ _ _ _ _ _ _ _ _ _ _ _ _ _ _ _ _ ?_ rfl rfl rfl rfl rfl rfl rfl rfl
       first
         | with_reducible assumption
         | split
      )
    | extract_lets
    | dsimp +zetaDelta only

theorem keeps_execFleetCommitDue (s : State) : OutKeeps s (execFleetCommitDue s) := by
  have h := Keeps.refl s
  unfold execFleetCommitDue
  show Keeps _ _
  try extract_lets
  repeat' first
    | with_reducible assumption
    | with_reducible apply Keeps.reachWeave
    | with_reducible apply keeps_fleetApplyOwn
    | with_reducible apply keeps_unqueue
    | with_reducible apply keeps_fleetAbortAll
    | with_reducible apply keeps_fleetOutcome
    | with_reducible apply Keeps.ite <;> intro _
    | (with_reducible refine Keeps.of_mk _ _ _ _ _ _ _ _ _ _ _ _ _ _ _ _ _ _ _ _ _ _ _ _ _ _ _ _ _ ?_ rfl rfl rfl rfl rfl rfl rfl rfl
       first
         | with_reducible apply Keeps.reachWeave
         | split
      )

theorem keeps_execFleetApplyRetx (s : State) : OutKeeps s (execFleetApplyRetx s) := by
  have h := Keeps.refl s
  unfold execFleetApplyRetx
  show Keeps _ _
  try extract_lets
  repeat' first
    | with_reducible assumption
    | with_reducible apply Keeps.foldl
    | with_reducible apply keeps_fleetMsg
    | with_reducible apply Keeps.ite <;> intro _
    | intro _ _ _
    | (with_reducible refine Keeps.of_mk _ _ _ _ _ _ _ _ _ _ _ _ _ _ _ _ _ _ _ _ _ _ _ _ _ _ _ _ _ ?_ rfl rfl rfl rfl rfl rfl rfl rfl
       first
         | with_reducible assumption
         | split
      )

theorem keeps_workerEvent (s : State) (w : Nat) (block : Nat) (code : Nat) (d0 : Nat) (d1 : Nat) {s0 : State}  (h : Keeps s0 s) :
    Keeps s0 (workerEvent s w block code d0 d1) := by
  unfold workerEvent
  try extract_lets
  repeat' first
    | with_reducible assumption
    | with_reducible apply keeps_postEvent
    | with_reducible apply Keeps.ite <;> intro _
    | (with_reducible refine Keeps.of_mk _ _ _ _ _ _ _ _ _ _ _ _ _ _ _ _ _ _ _ _ _ _ _ _ _ _ _ _ _ ?_ rfl rfl rfl rfl rfl rfl rfl rfl
       split)

theorem keeps_fleetAck (s : State) (w : Nat) (late : Bool) {s0 : State}  (h : Keeps s0 s) :
    Keeps s0 (fleetAck s w late) := by
  unfold fleetAck
  try extract_lets
  repeat' first
    | with_reducible assumption
    | with_reducible apply keeps_workerEvent
    | with_reducible apply Keeps.ite <;> intro _
    | (with_reducible refine Keeps.of_mk _ _ _ _ _ _ _ _ _ _ _ _ _ _ _ _ _ _ _ _ _ _ _ _ _ _ _ _ _ ?_ rfl rfl rfl rfl rfl rfl rfl rfl
       first
         | with_reducible assumption
         | with_reducible apply Keeps.ite <;> intro _
         | split
      )

theorem keeps_execFleetApplyAckRx (worker : Fin 32) (late : Bool) (s : State) : OutKeeps s (execFleetApplyAckRx worker late s) := by
  have h := Keeps.refl s
  unfold execFleetApplyAckRx
  show Keeps _ _
  repeat' first
    | with_reducible assumption
    | with_reducible apply keeps_fleetAck

theorem keeps_fleetPrepare (s : State) (id : BitVec 8) (persist : Bool) {s0 : State}  (h : Keeps s0 s) :
    Keeps s0 (fleetPrepare s id persist) := by
  unfold fleetPrepare
  try extract_lets
  repeat' first
    | with_reducible assumption
    | with_reducible apply keeps_fleetMsg
    | with_reducible apply keeps_sealStage
    | with_reducible apply Keeps.ite <;> intro _
    | (with_reducible refine Keeps.of_mk _ _ _ _ _ _ _ _ _ _ _ _ _ _ _ _ _ _ _ _ _ _ _ _ _ _ _ _ _ ?_ rfl rfl rfl rfl rfl rfl rfl rfl
       with_reducible assumption)

theorem keeps_execFleetPrepareRx (id : BitVec 8) (persist : Bool) (s : State) : OutKeeps s (execFleetPrepareRx id persist s) := by
  have h := Keeps.refl s
  unfold execFleetPrepareRx
  show Keeps _ _
  repeat' first
    | with_reducible assumption
    | with_reducible apply keeps_fleetPrepare

theorem keeps_fleetApply (s : State) (id : BitVec 8) (due : BitVec 64) {s0 : State}  (h : Keeps s0 s) :
    Keeps s0 (fleetApply s id due) := by
  unfold fleetApply
  try extract_lets
  repeat' first
    | with_reducible assumption
    | with_reducible apply keeps_logEvent
    | with_reducible apply keeps_fleetMsg
    | with_reducible apply Keeps.ite <;> intro _
    | (with_reducible refine Keeps.of_mk _ _ _ _ _ _ _ _ _ _ _ _ _ _ _ _ _ _ _ _ _ _ _ _ _ _ _ _ _ ?_ rfl rfl rfl rfl rfl rfl rfl rfl
       with_reducible assumption)

theorem keeps_execFleetApplyRx (id : BitVec 8) (due : BitVec 64) (s : State) : OutKeeps s (execFleetApplyRx id due s) := by
  have h := Keeps.refl s
  unfold execFleetApplyRx
  show Keeps _ _
  repeat' first
    | with_reducible assumption
    | with_reducible apply keeps_fleetApply

theorem keeps_actFleetApply (s : State) {s0 : State}  (h : Keeps s0 s) :
    Keeps s0 (actFleetApply s) := by
  unfold actFleetApply
  try extract_lets
  repeat' first
    | with_reducible assumption
    | with_reducible apply keeps_startPersist
    | with_reducible apply Keeps.ite <;> intro _
    | (with_reducible refine Keeps.of_mk _ _ _ _ _ _ _ _ _ _ _ _ _ _ _ _ _ _ _ _ _ _ _ _ _ _ _ _ _ ?_ rfl rfl rfl rfl rfl rfl rfl rfl
       with_reducible apply keeps_applyStage)

theorem keeps_fleetAbort (s : State) (id : BitVec 8) {s0 : State}  (h : Keeps s0 s) :
    Keeps s0 (fleetAbort s id) := by
  unfold fleetAbort
  try extract_lets
  repeat' first
    | with_reducible assumption
    | with_reducible apply keeps_logEvent
    | with_reducible apply keeps_unsealStage
    | with_reducible apply Keeps.ite <;> intro _
    | (with_reducible refine Keeps.of_mk _ _ _ _ _ _ _ _ _ _ _ _ _ _ _ _ _ _ _ _ _ _ _ _ _ _ _ _ _ ?_ rfl rfl rfl rfl rfl rfl rfl rfl
       with_reducible assumption)

theorem keeps_execFleetAbortRx (id : BitVec 8) (s : State) : OutKeeps s (execFleetAbortRx id s) := by
  have h := Keeps.refl s
  unfold execFleetAbortRx
  show Keeps _ _
  repeat' first
    | with_reducible assumption
    | with_reducible apply keeps_fleetAbort

theorem keeps_execFleetHoldExpiry (s : State) : OutKeeps s (execFleetHoldExpiry s) := by
  have h := Keeps.refl s
  unfold execFleetHoldExpiry
  show Keeps _ _
  try extract_lets
  repeat' first
    | with_reducible assumption
    | with_reducible apply keeps_logEvent
    | with_reducible apply Keeps.ite <;> intro _
    | (with_reducible refine Keeps.of_mk _ _ _ _ _ _ _ _ _ _ _ _ _ _ _ _ _ _ _ _ _ _ _ _ _ _ _ _ _ ?_ rfl rfl rfl rfl rfl rfl rfl rfl
       with_reducible apply keeps_clearStage)

theorem keeps_commitFail (s : State) (c : Commit) (v : Verdict) {s0 : State}  (h : Keeps s0 s) :
    Keeps s0 (commitFail s c v) := by
  unfold commitFail
  try extract_lets
  repeat' first
    | with_reducible assumption
    | with_reducible apply keeps_unqueue
    | with_reducible apply keeps_unsealStage
    | with_reducible apply keeps_dropAct
    | with_reducible apply keeps_reportFail
    | (with_reducible refine Keeps.of_mk _ _ _ _ _ _ _ _ _ _ _ _ _ _ _ _ _ _ _ _ _ _ _ _ _ _ _ _ _ ?_ rfl rfl rfl rfl rfl rfl rfl rfl
       split)

theorem keeps_commitPass (s : State) (c : Commit) {s0 : State}  (h : Keeps s0 s) :
    Keeps s0 (commitPass s c) := by
  unfold commitPass
  try extract_lets
  repeat' first
    | with_reducible apply Keeps.ite <;> intro _
    | (with_reducible refine Keeps.of_mk _ _ _ _ _ _ _ _ _ _ _ _ _ _ _ _ _ _ _ _ _ _ _ _ _ _ _ _ _ ?_ rfl rfl rfl rfl rfl rfl rfl rfl
       with_reducible assumption)
    | extract_lets
    | dsimp +zetaDelta only

theorem keeps_fleetChecked (s : State) (c : Commit) (v : Verdict) {s0 : State}  (h : Keeps s0 s) :
    Keeps s0 (fleetChecked s c v) := by
  unfold fleetChecked
  try extract_lets
  repeat' first
    | with_reducible assumption
    | with_reducible apply keeps_reportFail
    | with_reducible apply keeps_fleetVote
    | with_reducible apply keeps_fleetMsg
    | with_reducible apply keeps_unsealStage
    | (with_reducible refine Keeps.of_mk _ _ _ _ _ _ _ _ _ _ _ _ _ _ _ _ _ _ _ _ _ _ _ _ _ _ _ _ _ ?_ rfl rfl rfl rfl rfl rfl rfl rfl
       first
         | with_reducible assumption
         | split
      )

theorem keeps_execCommitCheckDone (s : State) : OutKeeps s (execCommitCheckDone s) := by
  have h := Keeps.refl s
  unfold execCommitCheckDone
  show Keeps _ _
  try extract_lets
  repeat' first
    | with_reducible assumption
    | with_reducible apply keeps_judgeStage
    | with_reducible apply keeps_fleetChecked
    | with_reducible apply keeps_commitPass
    | with_reducible apply keeps_commitFail
    | with_reducible apply Keeps.ite <;> intro _
    | (with_reducible refine Keeps.of_mk _ _ _ _ _ _ _ _ _ _ _ _ _ _ _ _ _ _ _ _ _ _ _ _ _ _ _ _ _ ?_ rfl rfl rfl rfl rfl rfl rfl rfl
       split)

theorem keeps_execTakeoverExpiry (s : State) : OutKeeps s (execTakeoverExpiry s) := by
  have h := Keeps.refl s
  unfold execTakeoverExpiry
  show Keeps _ _
  try extract_lets
  repeat' first
    | with_reducible assumption
    | with_reducible apply Keeps.ite <;> intro _
    | (with_reducible refine Keeps.of_mk _ _ _ _ _ _ _ _ _ _ _ _ _ _ _ _ _ _ _ _ _ _ _ _ _ _ _ _ _ ?_ rfl rfl rfl rfl rfl rfl rfl rfl
       with_reducible apply Keeps.reach)

end Sys2Proof.Machine
end

