-- ==== Sys2Proof/Laws/KeepsLoupe.lean ====
section
/-! SUPPORT. What the operations of Machine/Loupe.lean keep: the queue, the order of time and a sound state. -/

namespace Sys2Proof.Machine

set_option linter.unusedTactic false
set_option linter.unreachableTactic false

theorem keeps_landed (s : State) {s0 : State}  (h : Keeps s0 s) :
    Keeps s0 (landed s) := by
  unfold landed
  repeat' first
    | with_reducible assumption
    | with_reducible apply keeps_settleAll
    | with_reducible apply Keeps.ite <;> intro _

theorem keeps_execLoupeHoldoffEnd (trigger : Fin 64) (s : State) : OutKeeps s (execLoupeHoldoffEnd trigger s) := by
  have h := Keeps.refl s
  unfold execLoupeHoldoffEnd
  show Keeps _ _
  try extract_lets
  repeat' first
    | (with_reducible refine Keeps.of_mk _ _ _ _ _ _ _ _ _ _ _ _ _ _ _ _ _ _ _ _ _ _ _ _ _ _ _ _ _ ?_ rfl rfl rfl rfl rfl rfl rfl rfl
       with_reducible assumption)

theorem keeps_execRecordLand (s : State) : OutKeeps s (execRecordLand s) := by
  have h := Keeps.refl s
  unfold execRecordLand
  show Keeps _ _
  try extract_lets
  repeat' first
    | with_reducible assumption
    | with_reducible apply keeps_loupeFull
    | with_reducible apply keeps_loupeProgram
    | with_reducible apply Keeps.ite <;> intro _
    | (with_reducible refine Keeps.of_mk _ _ _ _ _ _ _ _ _ _ _ _ _ _ _ _ _ _ _ _ _ _ _ _ _ _ _ _ _ ?_ rfl rfl rfl rfl rfl rfl rfl rfl
       first
         | with_reducible assumption
         | split
      )

theorem keeps_landFails (s : State) (seq : BitVec 32) {s0 : State}  (h : Keeps s0 s) :
    Keeps s0 (landFails s seq) := by
  unfold landFails
  try extract_lets
  repeat' first
    | with_reducible apply keeps_landed
    | with_reducible apply keeps_loupeMiss
    | (with_reducible refine Keeps.of_mk _ _ _ _ _ _ _ _ _ _ _ _ _ _ _ _ _ _ _ _ _ _ _ _ _ _ _ _ _ ?_ rfl rfl rfl rfl rfl rfl rfl rfl
       with_reducible assumption)

theorem keeps_verifyFails (s : State) (x : LoupeStaged) (r : LoupeRec) (again : Bool) {s0 : State}  (h : Keeps s0 s) :
    Keeps s0 (verifyFails s x r again) := by
  unfold verifyFails
  try extract_lets
  repeat' first
    | with_reducible assumption
    | with_reducible apply keeps_markBad
    | with_reducible apply keeps_setCommit
    | with_reducible apply keeps_landFails
    | with_reducible apply keeps_loupeStop
    | with_reducible apply keeps_loupeProgram
    | with_reducible apply keeps_loupeFull
    | with_reducible apply Keeps.ite <;> intro _
    | (with_reducible refine Keeps.of_mk _ _ _ _ _ _ _ _ _ _ _ _ _ _ _ _ _ _ _ _ _ _ _ _ _ _ _ _ _ ?_ rfl rfl rfl rfl rfl rfl rfl rfl
       split)

theorem keeps_execRecordCommit (verified : Bool) (s : State) : OutKeeps s (execRecordCommit verified s) := by
  have h := Keeps.refl s
  unfold execRecordCommit
  show Keeps _ _
  try extract_lets
  repeat' first
    | with_reducible assumption
    | with_reducible apply keeps_landed
    | with_reducible apply keeps_setCommit
    | with_reducible apply keeps_verifyFails
    | with_reducible apply Keeps.ite <;> intro _
    | (with_reducible refine Keeps.of_mk _ _ _ _ _ _ _ _ _ _ _ _ _ _ _ _ _ _ _ _ _ _ _ _ _ _ _ _ _ ?_ rfl rfl rfl rfl rfl rfl rfl rfl
       first
         | with_reducible assumption
         | split
      )

theorem keeps_execLoupeControlTick (s : State) : OutKeeps s (execLoupeControlTick s) := by
  have h := Keeps.refl s
  unfold execLoupeControlTick
  show Keeps _ _
  repeat' first
    | with_reducible assumption
    | with_reducible apply keeps_loupeControl
    | with_reducible apply Keeps.ite <;> intro _

theorem keeps_execLoupeLandingBound (s : State) : OutKeeps s (execLoupeLandingBound s) := by
  have h := Keeps.refl s
  unfold execLoupeLandingBound
  show Keeps _ _
  try extract_lets
  repeat' first
    | with_reducible assumption
    | with_reducible apply keeps_settleAll
    | with_reducible apply keeps_stagedMissed
    | with_reducible apply Keeps.ite <;> intro _
    | (with_reducible refine Keeps.of_mk _ _ _ _ _ _ _ _ _ _ _ _ _ _ _ _ _ _ _ _ _ _ _ _ _ _ _ _ _ ?_ rfl rfl rfl rfl rfl rfl rfl rfl
       with_reducible assumption)

theorem keeps_actLoupeClear (lastSeq : BitVec 32) (a : Act) (s : State) {s0 : State}  (h : Keeps s0 s) :
    Keeps s0 (actLoupeClear lastSeq a s) := by
  unfold actLoupeClear
  try extract_lets
  repeat' first
    | with_reducible assumption
    | with_reducible apply keeps_refuse
    | with_reducible apply keeps_logEvent
    | with_reducible apply keeps_loupeControl
    | with_reducible apply keeps_mediaFlag
    | with_reducible apply Keeps.ite <;> intro _
    | (with_reducible refine Keeps.of_mk _ _ _ _ _ _ _ _ _ _ _ _ _ _ _ _ _ _ _ _ _ _ _ _ _ _ _ _ _ ?_ rfl rfl rfl rfl rfl rfl rfl rfl
       with_reducible assumption)

theorem keeps_execLoupeClear (d : Desc) (lastSeq : BitVec 32) (s : State) : OutKeeps s (execLoupeClear d lastSeq s) := by
  have h := Keeps.refl s
  unfold execLoupeClear
  show Keeps _ _
  repeat' first
    | with_reducible assumption
    | with_reducible apply keeps_accept
    | with_reducible apply keeps_actLoupeClear
    | intro _ _ _

theorem keeps_clearEnds (s : State) {s0 : State}  (h : Keeps s0 s) :
    Keeps s0 (clearEnds s) := by
  unfold clearEnds
  try extract_lets
  repeat' first
    | with_reducible assumption
    | with_reducible apply Keeps.foldl
    | with_reducible apply keeps_finish
    | intro _ _ _
    | (with_reducible refine Keeps.of_mk _ _ _ _ _ _ _ _ _ _ _ _ _ _ _ _ _ _ _ _ _ _ _ _ _ _ _ _ _ ?_ rfl rfl rfl rfl rfl rfl rfl rfl
       first
         | with_reducible assumption
         | split
      )

theorem keeps_execClearSectorErased (ok : Bool) (s : State) : OutKeeps s (execClearSectorErased ok s) := by
  have h := Keeps.refl s
  unfold execClearSectorErased
  show Keeps _ _
  try extract_lets
  repeat' first
    | with_reducible assumption
    | with_reducible apply keeps_clearEnds
    | with_reducible apply keeps_markBad
    | with_reducible apply Keeps.ite <;> intro _
    | (with_reducible refine Keeps.of_mk _ _ _ _ _ _ _ _ _ _ _ _ _ _ _ _ _ _ _ _ _ _ _ _ _ _ _ _ _ ?_ rfl rfl rfl rfl rfl rfl rfl rfl
       first
         | with_reducible assumption
         | split
      )
    | extract_lets
    | dsimp only

theorem keeps_actLoupeRead (offset : BitVec 25) (a : Act) (s : State) {s0 : State}  (h : Keeps s0 s) :
    Keeps s0 (actLoupeRead offset a s) := by
  unfold actLoupeRead
  try extract_lets
  repeat' first
    | with_reducible assumption
    | with_reducible apply keeps_refuse
    | with_reducible apply keeps_putBytes
    | with_reducible apply keeps_finishAs
    | with_reducible apply keeps_finish
    | with_reducible apply Keeps.ite <;> intro _
    | (with_reducible refine Keeps.of_mk _ _ _ _ _ _ _ _ _ _ _ _ _ _ _ _ _ _ _ _ _ _ _ _ _ _ _ _ _ ?_ rfl rfl rfl rfl rfl rfl rfl rfl
       with_reducible apply keeps_putBytes)

theorem keeps_execLoupeRead (d : Desc) (offset : BitVec 25) (s : State) : OutKeeps s (execLoupeRead d offset s) := by
  have h := Keeps.refl s
  unfold execLoupeRead
  show Keeps _ _
  repeat' first
    | with_reducible assumption
    | with_reducible apply keeps_accept
    | with_reducible apply keeps_actLoupeRead
    | intro _ _ _

theorem keeps_actLoupeMark (trig : BitVec 6) (a : Act) (s : State) {s0 : State}  (h : Keeps s0 s) :
    Keeps s0 (actLoupeMark trig a s) := by
  unfold actLoupeMark
  try extract_lets
  repeat' first
    | with_reducible assumption
    | with_reducible apply keeps_refuse
    | with_reducible apply keeps_loupeStage
    | with_reducible apply keeps_finish
    | with_reducible apply Keeps.ite <;> intro _
    | (with_reducible refine Keeps.of_mk _ _ _ _ _ _ _ _ _ _ _ _ _ _ _ _ _ _ _ _ _ _ _ _ _ _ _ _ _ ?_ rfl rfl rfl rfl rfl rfl rfl rfl
       split)

theorem keeps_execLoupeMark (d : Desc) (trig : BitVec 6) (s : State) : OutKeeps s (execLoupeMark d trig s) := by
  have h := Keeps.refl s
  unfold execLoupeMark
  show Keeps _ _
  repeat' first
    | with_reducible assumption
    | with_reducible apply keeps_accept
    | with_reducible apply keeps_actLoupeMark
    | intro _ _ _

end Sys2Proof.Machine
end

