-- ==== Sys2Proof/Laws/KeepsSysEcc.lean ====
section
/-! SUPPORT. What the operations of Machine/SysEcc.lean keep: the queue, the order of time and a sound state. -/

namespace Sys2Proof.Machine

set_option linter.unusedTactic false
set_option linter.unreachableTactic false

theorem keeps_execOvpBegin (pair : Fin 3) (s : State) : OutKeeps s (execOvpBegin pair s) := by
  have h := Keeps.refl s
  unfold execOvpBegin
  show Keeps _ _
  try extract_lets
  repeat' first
    | with_reducible assumption
    | with_reducible apply keeps_logEvent
    | with_reducible apply keeps_hsoPause
    | with_reducible apply keeps_ledPause
    | with_reducible apply keeps_vlvPause
    | with_reducible apply keeps_fioPause
    | with_reducible apply Keeps.ite <;> intro _
    | (with_reducible refine Keeps.of_mk _ _ _ _ _ _ _ _ _ _ _ _ _ _ _ _ _ _ _ _ _ _ _ _ _ _ _ _ _ ?_ rfl rfl rfl rfl rfl rfl rfl rfl
       first
         | with_reducible assumption
         | split
      )

theorem keeps_execOvpEnd (pair : Fin 3) (s : State) : OutKeeps s (execOvpEnd pair s) := by
  have h := Keeps.refl s
  unfold execOvpEnd
  show Keeps _ _
  try extract_lets
  repeat' first
    | with_reducible assumption
    | with_reducible apply keeps_logEvent
    | with_reducible apply Keeps.ite <;> intro _
    | (with_reducible refine Keeps.of_mk _ _ _ _ _ _ _ _ _ _ _ _ _ _ _ _ _ _ _ _ _ _ _ _ _ _ _ _ _ ?_ rfl rfl rfl rfl rfl rfl rfl rfl
       with_reducible assumption)

theorem keeps_execSysvMismatch (meanMv : BitVec 16) (s : State) : OutKeeps s (execSysvMismatch meanMv s) := by
  have h := Keeps.refl s
  unfold execSysvMismatch
  show Keeps _ _
  try extract_lets
  repeat' first
    | with_reducible assumption
    | with_reducible apply keeps_logEvent
    | with_reducible apply Keeps.ite <;> intro _
    | (with_reducible refine Keeps.of_mk _ _ _ _ _ _ _ _ _ _ _ _ _ _ _ _ _ _ _ _ _ _ _ _ _ _ _ _ _ ?_ rfl rfl rfl rfl rfl rfl rfl rfl
       with_reducible assumption)

theorem keeps_execPlateSensorFault (raw : Int) (s : State) : OutKeeps s (execPlateSensorFault raw s) := by
  have h := Keeps.refl s
  unfold execPlateSensorFault
  show Keeps _ _
  try extract_lets
  repeat' first
    | with_reducible assumption
    | with_reducible apply keeps_logEvent
    | with_reducible apply Keeps.ite <;> intro _
    | (with_reducible refine Keeps.of_mk _ _ _ _ _ _ _ _ _ _ _ _ _ _ _ _ _ _ _ _ _ _ _ _ _ _ _ _ _ ?_ rfl rfl rfl rfl rfl rfl rfl rfl
       with_reducible assumption)

theorem keeps_execPlateSensorRecover (reading : Int) (s : State) : OutKeeps s (execPlateSensorRecover reading s) := by
  have h := Keeps.refl s
  unfold execPlateSensorRecover
  show Keeps _ _
  try extract_lets
  repeat' first
    | with_reducible assumption
    | with_reducible apply Keeps.ite <;> intro _
    | (with_reducible refine Keeps.of_mk _ _ _ _ _ _ _ _ _ _ _ _ _ _ _ _ _ _ _ _ _ _ _ _ _ _ _ _ _ ?_ rfl rfl rfl rfl rfl rfl rfl rfl
       with_reducible assumption)

theorem keeps_execRefFault (v5aMv : BitVec 13) (s : State) : OutKeeps s (execRefFault v5aMv s) := by
  have h := Keeps.refl s
  unfold execRefFault
  show Keeps _ _
  try extract_lets
  repeat' first
    | with_reducible assumption
    | with_reducible apply keeps_logEvent
    | with_reducible apply Keeps.ite <;> intro _
    | (with_reducible refine Keeps.of_mk _ _ _ _ _ _ _ _ _ _ _ _ _ _ _ _ _ _ _ _ _ _ _ _ _ _ _ _ _ ?_ rfl rfl rfl rfl rfl rfl rfl rfl
       with_reducible assumption)

theorem keeps_execScrubWord (s : State) : OutKeeps s (execScrubWord s) := by
  have h := Keeps.refl s
  unfold execScrubWord
  show Keeps _ _
  try extract_lets
  repeat' first
    | with_reducible assumption
    | with_reducible apply keeps_logEvent
    | with_reducible apply Keeps.ite <;> intro _
    | (with_reducible refine Keeps.of_mk _ _ _ _ _ _ _ _ _ _ _ _ _ _ _ _ _ _ _ _ _ _ _ _ _ _ _ _ _ ?_ rfl rfl rfl rfl rfl rfl rfl rfl
       with_reducible apply keeps_readWord)

theorem keeps_actEccInject (addr : BitVec 64) (kind : BitVec 2) (a : Act) (s : State) {s0 : State} (h : Keeps s0 s) :
    Keeps s0 (actEccInject addr kind a s) := by
  unfold actEccInject
  extract_lets w r
  have hr : Keeps s0 r.2 := keeps_readWord _ _ _ h
  refine Keeps.ite (fun _ => keeps_refuse _ _ _ _ _ _ h) (fun _ => Keeps.ite (fun _ => ?_) (fun _ =>
    keeps_refuse _ _ _ _ _ _ hr))
  exact keeps_finish _ _ _ _ _ (hr.mem _ (fun x => x))

theorem keeps_execEccInject (d : Desc) (addr : BitVec 64) (kind : BitVec 2) (s : State) : OutKeeps s (execEccInject d addr kind s) := by
  have h := Keeps.refl s
  unfold execEccInject
  show Keeps _ _
  repeat' first
    | with_reducible assumption
    | with_reducible apply keeps_accept
    | with_reducible apply keeps_actEccInject
    | intro _ _ _

theorem keeps_execCorrectableReport (s : State) : OutKeeps s (execCorrectableReport s) := by
  have h := Keeps.refl s
  unfold execCorrectableReport
  show Keeps _ _
  try extract_lets
  repeat' first
    | with_reducible assumption
    | with_reducible apply keeps_logEvent
    | with_reducible apply Keeps.ite <;> intro _
    | (with_reducible refine Keeps.of_mk _ _ _ _ _ _ _ _ _ _ _ _ _ _ _ _ _ _ _ _ _ _ _ _ _ _ _ _ _ ?_ rfl rfl rfl rfl rfl rfl rfl rfl
       with_reducible assumption)

end Sys2Proof.Machine
end

