-- ==== Sys2Proof/Laws/KeepsUpd.lean ====
section
/-! SUPPORT. What the operations of Machine/Upd.lean keep: the queue, the order of time and a sound state. -/

namespace Sys2Proof.Machine

set_option linter.unusedTactic false
set_option linter.unreachableTactic false

theorem keeps_updRefuse (s : State) (a : Act) (n : Nat) {s0 : State}  (h : Keeps s0 s) :
    Keeps s0 (updRefuse s a n) := by
  unfold updRefuse
  try extract_lets
  repeat' first
    | with_reducible apply keeps_refuse
    | with_reducible apply keeps_logEvent
    | (with_reducible refine Keeps.of_mk _ _ _ _ _ _ _ _ _ _ _ _ _ _ _ _ _ _ _ _ _ _ _ _ _ _ _ _ _ ?_ rfl rfl rfl rfl rfl rfl rfl rfl
       with_reducible assumption)

theorem keeps_updMode (s : State) (m : Mode) {s0 : State}  (h : Keeps s0 s) :
    Keeps s0 (updMode s m) := by
  unfold updMode
  try extract_lets
  repeat' first
    | with_reducible assumption
    | with_reducible apply keeps_State_takeWord
    | with_reducible apply keeps_goMode

theorem keeps_dropLanding (s : State) (status : Nat) {s0 : State}  (h : Keeps s0 s) :
    Keeps s0 (dropLanding s status) := by
  unfold dropLanding
  try extract_lets
  repeat' first
    | with_reducible assumption
    | with_reducible apply Keeps.foldl
    | with_reducible apply keeps_refuse
    | intro _ _ _
    | (with_reducible refine Keeps.of_mk _ _ _ _ _ _ _ _ _ _ _ _ _ _ _ _ _ _ _ _ _ _ _ _ _ _ _ _ _ ?_ rfl rfl rfl rfl rfl rfl rfl rfl
       with_reducible assumption)

theorem keeps_dropVerify (s : State) (status : Nat) {s0 : State}  (h : Keeps s0 s) :
    Keeps s0 (dropVerify s status) := by
  unfold dropVerify
  try extract_lets
  repeat' first
    | with_reducible assumption
    | with_reducible apply keeps_refuse
    | (with_reducible refine Keeps.of_mk _ _ _ _ _ _ _ _ _ _ _ _ _ _ _ _ _ _ _ _ _ _ _ _ _ _ _ _ _ ?_ rfl rfl rfl rfl rfl rfl rfl rfl
       first
         | with_reducible assumption
         | split
      )

theorem keeps_updStage (s : State) {s0 : State}  (h : Keeps s0 s) :
    Keeps s0 (updStage s) := by
  unfold updStage
  try extract_lets
  repeat' first
    | (with_reducible refine Keeps.of_mk _ _ _ _ _ _ _ _ _ _ _ _ _ _ _ _ _ _ _ _ _ _ _ _ _ _ _ _ _ ?_ rfl rfl rfl rfl rfl rfl rfl rfl
       with_reducible assumption)

theorem keeps_actUpdBegin (a : Act) (s : State) {s0 : State}  (h : Keeps s0 s) :
    Keeps s0 (actUpdBegin a s) := by
  unfold actUpdBegin
  try extract_lets
  repeat' first
    | with_reducible assumption
    | with_reducible apply keeps_updRefuse
    | with_reducible apply keeps_refuse
    | with_reducible apply keeps_dropLanding
    | with_reducible apply keeps_logEvent
    | with_reducible apply keeps_updMode
    | with_reducible apply keeps_finish
    | with_reducible apply keeps_updStage
    | with_reducible apply keeps_bootWrite
    | with_reducible apply Keeps.ite <;> intro _
    | (with_reducible refine Keeps.of_mk _ _ _ _ _ _ _ _ _ _ _ _ _ _ _ _ _ _ _ _ _ _ _ _ _ _ _ _ _ ?_ rfl rfl rfl rfl rfl rfl rfl rfl
       first
         | with_reducible apply keeps_dropVerify
         | with_reducible apply keeps_logEvent
      )

theorem keeps_execUpdBegin (d : Desc) (s : State) : OutKeeps s (execUpdBegin d s) := by
  have h := Keeps.refl s
  unfold execUpdBegin
  show Keeps _ _
  repeat' first
    | with_reducible assumption
    | with_reducible apply keeps_accept
    | with_reducible apply keeps_actUpdBegin
    | intro _ _ _

theorem keeps_actUpdBlock (index : BitVec 10) (a : Act) (s : State) {s0 : State}  (h : Keeps s0 s) :
    Keeps s0 (actUpdBlock index a s) := by
  unfold actUpdBlock
  try extract_lets
  repeat' first
    | with_reducible assumption
    | with_reducible apply keeps_refuse
    | with_reducible apply keeps_finish
    | with_reducible apply Keeps.ite <;> intro _
    | (with_reducible refine Keeps.of_mk _ _ _ _ _ _ _ _ _ _ _ _ _ _ _ _ _ _ _ _ _ _ _ _ _ _ _ _ _ ?_ rfl rfl rfl rfl rfl rfl rfl rfl
       first
         | with_reducible assumption
         | split
      )

theorem keeps_execUpdBlock (d : Desc) (index : BitVec 10) (s : State) : OutKeeps s (execUpdBlock d index s) := by
  have h := Keeps.refl s
  unfold execUpdBlock
  show Keeps _ _
  repeat' first
    | with_reducible assumption
    | with_reducible apply keeps_accept
    | with_reducible apply keeps_actUpdBlock
    | intro _ _ _

theorem keeps_bankPut (s : State) (i : Nat) (bs : List (BitVec 8)) {s0 : State}  (h : Keeps s0 s) :
    Keeps s0 (bankPut s i bs) := by
  unfold bankPut
  try extract_lets
  repeat' first
    | with_reducible apply Keeps.ite <;> intro _
    | (with_reducible refine Keeps.of_mk _ _ _ _ _ _ _ _ _ _ _ _ _ _ _ _ _ _ _ _ _ _ _ _ _ _ _ _ _ ?_ rfl rfl rfl rfl rfl rfl rfl rfl
       with_reducible assumption)

theorem keeps_execUpdBlockLanded (s : State) : OutKeeps s (execUpdBlockLanded s) := by
  have h := Keeps.refl s
  unfold execUpdBlockLanded
  show Keeps _ _
  try extract_lets
  repeat' first
    | with_reducible assumption
    | with_reducible apply keeps_bankPut
    | with_reducible apply keeps_finish
    | with_reducible apply keeps_updStage
    | with_reducible apply keeps_refuse
    | with_reducible apply keeps_logEvent
    | with_reducible apply Keeps.ite <;> intro _
    | (with_reducible refine Keeps.of_mk _ _ _ _ _ _ _ _ _ _ _ _ _ _ _ _ _ _ _ _ _ _ _ _ _ _ _ _ _ ?_ rfl rfl rfl rfl rfl rfl rfl rfl
       first
         | with_reducible assumption
         | with_reducible apply keeps_bankPut
         | split
      )

theorem keeps_actUpdVerify (a : Act) (s : State) {s0 : State}  (h : Keeps s0 s) :
    Keeps s0 (actUpdVerify a s) := by
  unfold actUpdVerify
  try extract_lets
  repeat' first
    | with_reducible assumption
    | with_reducible apply keeps_refuse
    | with_reducible apply Keeps.ite <;> intro _
    | (with_reducible refine Keeps.of_mk _ _ _ _ _ _ _ _ _ _ _ _ _ _ _ _ _ _ _ _ _ _ _ _ _ _ _ _ _ ?_ rfl rfl rfl rfl rfl rfl rfl rfl
       first
         | with_reducible assumption
         | split
      )

theorem keeps_execUpdVerify (d : Desc) (s : State) : OutKeeps s (execUpdVerify d s) := by
  have h := Keeps.refl s
  unfold execUpdVerify
  show Keeps _ _
  repeat' first
    | with_reducible assumption
    | with_reducible apply keeps_accept
    | with_reducible apply keeps_actUpdVerify
    | intro _ _ _

theorem keeps_execUpdVerifyDone (s : State) : OutKeeps s (execUpdVerifyDone s) := by
  have h := Keeps.refl s
  unfold execUpdVerifyDone
  show Keeps _ _
  try extract_lets
  repeat' first
    | with_reducible assumption
    | with_reducible apply keeps_finish
    | with_reducible apply keeps_refuse
    | with_reducible apply Keeps.ite <;> intro _
    | (with_reducible refine Keeps.of_mk _ _ _ _ _ _ _ _ _ _ _ _ _ _ _ _ _ _ _ _ _ _ _ _ _ _ _ _ _ ?_ rfl rfl rfl rfl rfl rfl rfl rfl
       first
         | with_reducible assumption
         | with_reducible apply keeps_logEvent
         | split
      )

theorem keeps_actUpdActivate (accDef : BitVec 1) (a : Act) (s : State) {s0 : State}  (h : Keeps s0 s) :
    Keeps s0 (actUpdActivate accDef a s) := by
  unfold actUpdActivate
  try extract_lets
  repeat' first
    | with_reducible assumption
    | with_reducible apply keeps_updRefuse
    | with_reducible apply keeps_bootWrite
    | with_reducible apply keeps_refuse
    | with_reducible apply Keeps.ite <;> intro _
    | (with_reducible refine Keeps.of_mk _ _ _ _ _ _ _ _ _ _ _ _ _ _ _ _ _ _ _ _ _ _ _ _ _ _ _ _ _ ?_ rfl rfl rfl rfl rfl rfl rfl rfl
       first
         | with_reducible assumption
         | split
      )

theorem keeps_execUpdActivate (d : Desc) (accDef : BitVec 1) (s : State) : OutKeeps s (execUpdActivate d accDef s) := by
  have h := Keeps.refl s
  unfold execUpdActivate
  show Keeps _ _
  repeat' first
    | with_reducible assumption
    | with_reducible apply keeps_accept
    | with_reducible apply keeps_actUpdActivate
    | intro _ _ _

theorem keeps_actUpdConfirm (a : Act) (s : State) {s0 : State}  (h : Keeps s0 s) :
    Keeps s0 (actUpdConfirm a s) := by
  unfold actUpdConfirm
  try extract_lets
  repeat' first
    | with_reducible assumption
    | with_reducible apply keeps_bootWrite
    | with_reducible apply keeps_refuse
    | with_reducible apply Keeps.ite <;> intro _

theorem keeps_execUpdConfirm (d : Desc) (s : State) : OutKeeps s (execUpdConfirm d s) := by
  have h := Keeps.refl s
  unfold execUpdConfirm
  show Keeps _ _
  repeat' first
    | with_reducible assumption
    | with_reducible apply keeps_accept
    | with_reducible apply keeps_actUpdConfirm
    | intro _ _ _

theorem keeps_updReboot (s : State) {s0 : State}  (h : Keeps s0 s) :
    Keeps s0 (updReboot s) := by
  unfold updReboot
  repeat' first
    | with_reducible assumption
    | with_reducible apply keeps_plainReset
    | with_reducible apply keeps_leaveAll
    | with_reducible apply Keeps.ite <;> intro _

theorem keeps_execBootRecordWritten (s : State) : OutKeeps s (execBootRecordWritten s) := by
  have h := Keeps.refl s
  unfold execBootRecordWritten
  show Keeps _ _
  try extract_lets
  repeat' first
    | with_reducible assumption
    | with_reducible apply keeps_bootPut
    | with_reducible apply keeps_finish
    | with_reducible apply keeps_updStage
    | with_reducible apply keeps_logEvent
    | with_reducible apply keeps_updReboot
    | (with_reducible refine Keeps.of_mk _ _ _ _ _ _ _ _ _ _ _ _ _ _ _ _ _ _ _ _ _ _ _ _ _ _ _ _ _ ?_ rfl rfl rfl rfl rfl rfl rfl rfl
       first
         | with_reducible assumption
         | with_reducible apply keeps_bootPut
         | split
      )

theorem keeps_execActivationReset (s : State) : OutKeeps s (execActivationReset s) := by
  have h := Keeps.refl s
  unfold execActivationReset
  show Keeps _ _
  try extract_lets
  repeat' first
    | with_reducible assumption
    | with_reducible apply keeps_updReboot
    | with_reducible apply keeps_logEvent
    | (with_reducible refine Keeps.of_mk _ _ _ _ _ _ _ _ _ _ _ _ _ _ _ _ _ _ _ _ _ _ _ _ _ _ _ _ _ ?_ rfl rfl rfl rfl rfl rfl rfl rfl
       first
         | with_reducible apply Keeps.reach
         | split
      )

theorem keeps_timeMark (s : State) {s0 : State}  (h : Keeps s0 s) :
    Keeps s0 (timeMark s) := by
  unfold timeMark
  try extract_lets
  repeat' first
    | (with_reducible refine Keeps.of_mk _ _ _ _ _ _ _ _ _ _ _ _ _ _ _ _ _ _ _ _ _ _ _ _ _ _ _ _ _ ?_ rfl rfl rfl rfl rfl rfl rfl rfl
       with_reducible assumption)

theorem keeps_markEnd (s : State) {s0 : State}  (h : Keeps s0 s) :
    Keeps s0 (markEnd s) := by
  unfold markEnd
  repeat' first
    | with_reducible assumption
    | with_reducible apply keeps_bootWrite
    | with_reducible apply Keeps.ite <;> intro _

theorem keeps_execTrialTimeMark (s : State) : OutKeeps s (execTrialTimeMark s) := by
  have h := Keeps.refl s
  unfold execTrialTimeMark
  show Keeps _ _
  repeat' first
    | with_reducible assumption
    | with_reducible apply keeps_markEnd
    | with_reducible apply keeps_timeMark
    | with_reducible apply Keeps.reach
    | with_reducible apply Keeps.ite <;> intro _

theorem keeps_actUpdAbort (keep : BitVec 1) (a : Act) (s : State) {s0 : State}  (h : Keeps s0 s) :
    Keeps s0 (actUpdAbort keep a s) := by
  unfold actUpdAbort
  try extract_lets
  repeat' first
    | with_reducible assumption
    | with_reducible apply keeps_dropVerify
    | with_reducible apply keeps_dropLanding
    | with_reducible apply keeps_finish
    | with_reducible apply keeps_updMode
    | with_reducible apply Keeps.ite <;> intro _
    | (with_reducible refine Keeps.of_mk _ _ _ _ _ _ _ _ _ _ _ _ _ _ _ _ _ _ _ _ _ _ _ _ _ _ _ _ _ ?_ rfl rfl rfl rfl rfl rfl rfl rfl
       first
         | with_reducible apply keeps_dropVerify
         | with_reducible apply Keeps.ite <;> intro _
      )

theorem keeps_execUpdAbort (d : Desc) (keep : BitVec 1) (s : State) : OutKeeps s (execUpdAbort d keep s) := by
  have h := Keeps.refl s
  unfold execUpdAbort
  show Keeps _ _
  repeat' first
    | with_reducible assumption
    | with_reducible apply keeps_accept
    | with_reducible apply keeps_actUpdAbort
    | intro _ _ _

theorem keeps_actUpdOemKey (a : Act) (s : State) {s0 : State}  (h : Keeps s0 s) :
    Keeps s0 (actUpdOemKey a s) := by
  unfold actUpdOemKey
  try extract_lets
  repeat' first
    | with_reducible assumption
    | with_reducible apply keeps_refuse
    | with_reducible apply keeps_finish
    | with_reducible apply Keeps.ite <;> intro _
    | (with_reducible refine Keeps.of_mk _ _ _ _ _ _ _ _ _ _ _ _ _ _ _ _ _ _ _ _ _ _ _ _ _ _ _ _ _ ?_ rfl rfl rfl rfl rfl rfl rfl rfl
       with_reducible assumption)

theorem keeps_execUpdOemKey (d : Desc) (s : State) : OutKeeps s (execUpdOemKey d s) := by
  have h := Keeps.refl s
  unfold execUpdOemKey
  show Keeps _ _
  repeat' first
    | with_reducible assumption
    | with_reducible apply keeps_accept
    | with_reducible apply keeps_actUpdOemKey
    | intro _ _ _

theorem keeps_setWriteNow (key : BitVec 16) (a : Act) (s : State) {s0 : State}  (h : Keeps s0 s) :
    Keeps s0 (setWriteNow key a s) := by
  unfold setWriteNow
  try extract_lets
  repeat' first
    | with_reducible assumption
    | with_reducible apply keeps_refuse
    | with_reducible apply keeps_finish
    | with_reducible apply keeps_State_modArea
    | with_reducible apply Keeps.ite <;> intro _

theorem keeps_actSetWrite (key : BitVec 16) (a : Act) (s : State) {s0 : State}  (h : Keeps s0 s) :
    Keeps s0 (actSetWrite key a s) := by
  unfold actSetWrite
  try extract_lets
  repeat' first
    | with_reducible assumption
    | with_reducible apply keeps_setWriteNow
    | with_reducible apply Keeps.ite <;> intro _
    | (with_reducible refine Keeps.of_mk _ _ _ _ _ _ _ _ _ _ _ _ _ _ _ _ _ _ _ _ _ _ _ _ _ _ _ _ _ ?_ rfl rfl rfl rfl rfl rfl rfl rfl
       with_reducible assumption)

theorem keeps_execSetWrite (d : Desc) (key : BitVec 16) (s : State) : OutKeeps s (execSetWrite d key s) := by
  have h := Keeps.refl s
  unfold execSetWrite
  show Keeps _ _
  repeat' first
    | with_reducible assumption
    | with_reducible apply keeps_accept
    | with_reducible apply keeps_actSetWrite
    | intro _ _ _

theorem keeps_setReadNow (key : BitVec 16) (a : Act) (s : State) {s0 : State}  (h : Keeps s0 s) :
    Keeps s0 (setReadNow key a s) := by
  unfold setReadNow
  try extract_lets
  repeat' first
    | with_reducible assumption
    | with_reducible apply keeps_refuse
    | with_reducible apply keeps_putBytes
    | with_reducible apply keeps_finish
    | with_reducible apply Keeps.ite <;> intro _
    | (with_reducible refine Keeps.of_mk _ _ _ _ _ _ _ _ _ _ _ _ _ _ _ _ _ _ _ _ _ _ _ _ _ _ _ _ _ ?_ rfl rfl rfl rfl rfl rfl rfl rfl
       split)

theorem keeps_actSetRead (key : BitVec 16) (a : Act) (s : State) {s0 : State}  (h : Keeps s0 s) :
    Keeps s0 (actSetRead key a s) := by
  unfold actSetRead
  try extract_lets
  repeat' first
    | with_reducible assumption
    | with_reducible apply keeps_setReadNow
    | with_reducible apply Keeps.ite <;> intro _
    | (with_reducible refine Keeps.of_mk _ _ _ _ _ _ _ _ _ _ _ _ _ _ _ _ _ _ _ _ _ _ _ _ _ _ _ _ _ ?_ rfl rfl rfl rfl rfl rfl rfl rfl
       with_reducible assumption)

theorem keeps_execSetRead (d : Desc) (key : BitVec 16) (s : State) : OutKeeps s (execSetRead d key s) := by
  have h := Keeps.refl s
  unfold execSetRead
  show Keeps _ _
  repeat' first
    | with_reducible assumption
    | with_reducible apply keeps_accept
    | with_reducible apply keeps_actSetRead
    | intro _ _ _

theorem keeps_execSettingsMigrationDone (s : State) : OutKeeps s (execSettingsMigrationDone s) := by
  have h := Keeps.refl s
  unfold execSettingsMigrationDone
  show Keeps _ _
  try extract_lets
  repeat' first
    | with_reducible assumption
    | with_reducible apply Keeps.foldl
    | with_reducible apply keeps_setWriteNow
    | with_reducible apply keeps_setReadNow
    | with_reducible apply Keeps.ite <;> intro _
    | intro _ _ _
    | (with_reducible refine Keeps.of_mk _ _ _ _ _ _ _ _ _ _ _ _ _ _ _ _ _ _ _ _ _ _ _ _ _ _ _ _ _ ?_ rfl rfl rfl rfl rfl rfl rfl rfl
       first
         | with_reducible apply keeps_State_modArea
         | with_reducible apply keeps_logEvent
         | split
      )

end Sys2Proof.Machine
end

