-- ==== Sys2Proof/Laws/KeepsNet.lean ====
section
/-! SUPPORT. What the operations of Machine/Net.lean keep: the queue, the order of time and a sound state. -/

namespace Sys2Proof.Machine

set_option linter.unusedTactic false
set_option linter.unreachableTactic false

theorem keeps_execKeepAliveTx (bus : Fin 10) (s : State) : OutKeeps s (execKeepAliveTx bus s) := by
  have h := Keeps.refl s
  unfold execKeepAliveTx
  show Keeps _ _
  try extract_lets
  repeat' first
    | with_reducible assumption
    | with_reducible apply keeps_sendKa
    | with_reducible apply Keeps.reach
    | with_reducible apply Keeps.ite <;> intro _

theorem keeps_execSleepTimeout (bus : Fin 10) (s : State) : OutKeeps s (execSleepTimeout bus s) := by
  have h := Keeps.refl s
  unfold execSleepTimeout
  show Keeps _ _
  try extract_lets
  repeat' first
    | with_reducible assumption
    | with_reducible apply keeps_netEval
    | with_reducible apply Keeps.reach
    | with_reducible apply keeps_State_modBus
    | with_reducible apply keeps_trackRun
    | with_reducible apply keeps_setBus
    | with_reducible apply Keeps.ite <;> intro _
    | (with_reducible refine Keeps.of_mk _ _ _ _ _ _ _ _ _ _ _ _ _ _ _ _ _ _ _ _ _ _ _ _ _ _ _ _ _ ?_ rfl rfl rfl rfl rfl rfl rfl rfl
       split)

theorem keeps_execGraceExpiry (bus : Fin 10) (idle : Bool) (s : State) : OutKeeps s (execGraceExpiry bus idle s) := by
  have h := Keeps.refl s
  unfold execGraceExpiry
  show Keeps _ _
  try extract_lets
  repeat' first
    | with_reducible assumption
    | with_reducible apply Keeps.reach
    | with_reducible apply keeps_judge
    | with_reducible apply keeps_busSleep
    | with_reducible apply keeps_restartGrace
    | with_reducible apply Keeps.ite <;> intro _

theorem keeps_busDetect (s : State) (n : Nat) (cause : BitVec 2) (pat : BitVec 3) {s0 : State}  (h : Keeps s0 s) :
    Keeps s0 (busDetect s n cause pat) := by
  unfold busDetect
  try extract_lets
  repeat' first
    | with_reducible assumption
    | with_reducible apply keeps_cancelSleep
    | with_reducible apply keeps_busWoken
    | with_reducible apply keeps_judge
    | with_reducible apply keeps_wakeUp
    | with_reducible apply Keeps.ite <;> intro _
    | (with_reducible refine Keeps.of_mk _ _ _ _ _ _ _ _ _ _ _ _ _ _ _ _ _ _ _ _ _ _ _ _ _ _ _ _ _ ?_ rfl rfl rfl rfl rfl rfl rfl rfl
       split)

theorem keeps_execBusWake (bus : Fin 10) (signal : WakeSignal) (s : State) : OutKeeps s (execBusWake bus signal s) := by
  have h := Keeps.refl s
  unfold execBusWake
  show Keeps _ _
  try extract_lets
  repeat' first
    | with_reducible assumption
    | with_reducible apply keeps_State_modBus
    | with_reducible apply keeps_busDetect
    | with_reducible apply Keeps.ite <;> intro _
    | (with_reducible refine Keeps.of_mk _ _ _ _ _ _ _ _ _ _ _ _ _ _ _ _ _ _ _ _ _ _ _ _ _ _ _ _ _ ?_ rfl rfl rfl rfl rfl rfl rfl rfl
       split)

theorem keeps_execSelectiveDetectorDecode (bus : Fin 10) (frame : Option CanFrame) (s : State) : OutKeeps s (execSelectiveDetectorDecode bus frame s) := by
  have h := Keeps.refl s
  unfold execSelectiveDetectorDecode
  show Keeps _ _
  try extract_lets
  repeat' first
    | with_reducible assumption
    | with_reducible apply keeps_State_modBus
    | with_reducible apply keeps_busDetect
    | with_reducible apply Keeps.ite <;> intro _
    | (with_reducible refine Keeps.of_mk _ _ _ _ _ _ _ _ _ _ _ _ _ _ _ _ _ _ _ _ _ _ _ _ _ _ _ _ _ ?_ rfl rfl rfl rfl rfl rfl rfl rfl
       split)

theorem keeps_execSourceBar (bus : Fin 10) (s : State) : OutKeeps s (execSourceBar bus s) := by
  have h := Keeps.refl s
  unfold execSourceBar
  show Keeps _ _
  try extract_lets
  repeat' first
    | with_reducible assumption
    | with_reducible apply Keeps.reach
    | with_reducible apply keeps_State_modBus
    | with_reducible apply keeps_logEvent
    | with_reducible apply Keeps.ite <;> intro _
    | (with_reducible refine Keeps.of_mk _ _ _ _ _ _ _ _ _ _ _ _ _ _ _ _ _ _ _ _ _ _ _ _ _ _ _ _ _ ?_ rfl rfl rfl rfl rfl rfl rfl rfl
       split)

theorem keeps_actNetHold (mask : BitVec 10) (hold : BitVec 1) (a : Act) (s : State) {s0 : State}  (h : Keeps s0 s) :
    Keeps s0 (actNetHold mask hold a s) := by
  unfold actNetHold
  try extract_lets
  repeat' first
    | with_reducible assumption
    | with_reducible apply Keeps.foldl
    | with_reducible apply keeps_refuse
    | with_reducible apply keeps_finish
    | with_reducible apply keeps_netAll
    | with_reducible apply keeps_State_modBus
    | with_reducible apply Keeps.ite <;> intro _
    | intro _ _ _

theorem keeps_execNetHold (d : Desc) (mask : BitVec 10) (hold : BitVec 1) (s : State) : OutKeeps s (execNetHold d mask hold s) := by
  have h := Keeps.refl s
  unfold execNetHold
  show Keeps _ _
  repeat' first
    | with_reducible assumption
    | with_reducible apply keeps_accept
    | with_reducible apply keeps_actNetHold
    | intro _ _ _

theorem keeps_actNetWake (mask : BitVec 10) (a : Act) (s : State) {s0 : State}  (h : Keeps s0 s) :
    Keeps s0 (actNetWake mask a s) := by
  unfold actNetWake
  try extract_lets
  repeat' first
    | with_reducible assumption
    | with_reducible apply Keeps.foldl
    | with_reducible apply keeps_refuse
    | with_reducible apply keeps_netEval
    | with_reducible apply keeps_State_modBus
    | with_reducible apply keeps_finish
    | with_reducible apply Keeps.ite <;> intro _
    | intro _ _ _

theorem keeps_execNetWake (d : Desc) (mask : BitVec 10) (s : State) : OutKeeps s (execNetWake d mask s) := by
  have h := Keeps.refl s
  unfold execNetWake
  show Keeps _ _
  repeat' first
    | with_reducible assumption
    | with_reducible apply keeps_accept
    | with_reducible apply keeps_actNetWake
    | intro _ _ _

theorem keeps_actNetBarClear (mask : BitVec 10) (a : Act) (s : State) {s0 : State}  (h : Keeps s0 s) :
    Keeps s0 (actNetBarClear mask a s) := by
  unfold actNetBarClear
  repeat' first
    | with_reducible assumption
    | with_reducible apply Keeps.foldl
    | with_reducible apply keeps_finish
    | with_reducible apply keeps_endBars
    | intro _ _ _

theorem keeps_execNetBarClear (d : Desc) (mask : BitVec 10) (s : State) : OutKeeps s (execNetBarClear d mask s) := by
  have h := Keeps.refl s
  unfold execNetBarClear
  show Keeps _ _
  repeat' first
    | with_reducible assumption
    | with_reducible apply keeps_accept
    | with_reducible apply keeps_actNetBarClear
    | intro _ _ _

theorem keeps_actNetRead (ch : BitVec 4) (a : Act) (s : State) {s0 : State}  (h : Keeps s0 s) :
    Keeps s0 (actNetRead ch a s) := by
  unfold actNetRead
  repeat' first
    | with_reducible assumption
    | with_reducible apply keeps_finish

theorem keeps_execNetRead (d : Desc) (ch : BitVec 4) (s : State) : OutKeeps s (execNetRead d ch s) := by
  have h := Keeps.refl s
  unfold execNetRead
  show Keeps _ _
  repeat' first
    | with_reducible assumption
    | with_reducible apply keeps_accept
    | with_reducible apply keeps_actNetRead
    | intro _ _ _

end Sys2Proof.Machine
end

