-- ==== Sys2Proof/Laws/KeepsPower.lean ====
section
/-! SUPPORT. What the operations of Machine/Power.lean keep: the queue, the order of time and a sound state. -/

namespace Sys2Proof.Machine

set_option linter.unusedTactic false
set_option linter.unreachableTactic false

theorem keeps_execPowerOn (role : BitVec 2) (s : State) : OutKeeps s (execPowerOn role s) := by
  unfold execPowerOn
  extract_lets cut slots
  refine keeps_mirrorRestore _ ((Keeps.refl s).of_sound rfl (Nat.le_refl _)
    (fun x => ⟨rfl, rfl, rfl, rfl, Nat.zero_le _, ?_, ?_⟩))
  · have : slots.length = s.nor.mirror.length := by simp [slots]
    exact this ▸ x.2.2.2.2.2.1
  · intro l hl
    obtain ⟨y, hy, rfl⟩ := List.mem_map.mp hl
    split
    · exact Nat.zero_le _
    · obtain ⟨k, hk⟩ := y
      exact x.2.2.2.2.2.2 _ (List.fst_mem_of_mem_zipIdx hy)

theorem keeps_execResetNAsserted (lowNs : Nat) (s : State) : OutKeeps s (execResetNAsserted lowNs s) := by
  have h := Keeps.refl s
  unfold execResetNAsserted
  show Keeps _ _
  try extract_lets
  repeat' first
    | with_reducible assumption
    | with_reducible apply keeps_State_takeBit
    | with_reducible apply Keeps.ite <;> intro _
    | (with_reducible refine Keeps.of_mk _ _ _ _ _ _ _ _ _ _ _ _ _ _ _ _ _ _ _ _ _ _ _ _ _ _ _ _ _ ?_ rfl rfl rfl rfl rfl rfl rfl rfl
       with_reducible apply keeps_plainReset)

theorem keeps_execResetNReleased (s : State) : OutKeeps s (execResetNReleased s) := by
  have h := Keeps.refl s
  unfold execResetNReleased
  show Keeps _ _
  try extract_lets
  repeat' first
    | (with_reducible refine Keeps.of_mk _ _ _ _ _ _ _ _ _ _ _ _ _ _ _ _ _ _ _ _ _ _ _ _ _ _ _ _ _ ?_ rfl rfl rfl rfl rfl rfl rfl rfl
       with_reducible assumption)

theorem keeps_execDeviceReset (typ : ResetType) (detail : BitVec 8) (retBad : BitVec 10) (s : State) : OutKeeps s (execDeviceReset typ detail retBad s) := by
  have h := Keeps.refl s
  unfold execDeviceReset
  show Keeps _ _
  repeat' first
    | with_reducible assumption
    | with_reducible apply keeps_deviceReset

theorem keeps_execRailPowerGood (rail : Fin 6) (s : State) : OutKeeps s (execRailPowerGood rail s) := by
  have h := Keeps.refl s
  unfold execRailPowerGood
  show Keeps _ _
  try extract_lets
  repeat' first
    | with_reducible assumption
    | with_reducible apply keeps_nextRail
    | with_reducible apply Keeps.ite <;> intro _
    | (with_reducible refine Keeps.of_mk _ _ _ _ _ _ _ _ _ _ _ _ _ _ _ _ _ _ _ _ _ _ _ _ _ _ _ _ _ ?_ rfl rfl rfl rfl rfl rfl rfl rfl
       with_reducible assumption)

theorem keeps_railOutcome (s : State) (r : Nat) {s0 : State}  (h : Keeps s0 s) :
    Keeps s0 (railOutcome s r) := by
  unfold railOutcome
  try extract_lets
  repeat' first
    | with_reducible assumption
    | with_reducible apply keeps_State_modDom
    | with_reducible apply keeps_bezelOnlyStart
    | with_reducible apply keeps_nextRail
    | with_reducible apply Keeps.ite <;> intro _
    | (with_reducible refine Keeps.of_mk _ _ _ _ _ _ _ _ _ _ _ _ _ _ _ _ _ _ _ _ _ _ _ _ _ _ _ _ _ ?_ rfl rfl rfl rfl rfl rfl rfl rfl
       with_reducible assumption)

theorem keeps_execRailTimeout (rail : Fin 6) (s : State) : OutKeeps s (execRailTimeout rail s) := by
  have h := Keeps.refl s
  unfold execRailTimeout
  show Keeps _ _
  try extract_lets
  repeat' first
    | with_reducible assumption
    | with_reducible apply keeps_logEvent
    | with_reducible apply keeps_railOutcome
    | with_reducible apply Keeps.ite <;> intro _
    | (with_reducible refine Keeps.of_mk _ _ _ _ _ _ _ _ _ _ _ _ _ _ _ _ _ _ _ _ _ _ _ _ _ _ _ _ _ ?_ rfl rfl rfl rfl rfl rfl rfl rfl
       with_reducible assumption)

theorem keeps_execRailPowerGoodLost (rail : Fin 6) (s : State) : OutKeeps s (execRailPowerGoodLost rail s) := by
  have h := Keeps.refl s
  unfold execRailPowerGoodLost
  show Keeps _ _
  repeat' first
    | with_reducible assumption
    | with_reducible apply keeps_plainReset
    | with_reducible apply Keeps.ite <;> intro _

theorem keeps_execKl30LowHold (s : State) : OutKeeps s (execKl30LowHold s) := by
  have h := Keeps.refl s
  unfold execKl30LowHold
  show Keeps _ _
  try extract_lets
  repeat' first
    | with_reducible assumption
    | with_reducible apply Keeps.ite <;> intro _
    | (with_reducible refine Keeps.of_mk _ _ _ _ _ _ _ _ _ _ _ _ _ _ _ _ _ _ _ _ _ _ _ _ _ _ _ _ _ ?_ rfl rfl rfl rfl rfl rfl rfl rfl
       with_reducible assumption)

theorem keeps_execKl30LRecovery (s : State) : OutKeeps s (execKl30LRecovery s) := by
  have h := Keeps.refl s
  unfold execKl30LRecovery
  show Keeps _ _
  try extract_lets
  repeat' first
    | (with_reducible refine Keeps.of_mk _ _ _ _ _ _ _ _ _ _ _ _ _ _ _ _ _ _ _ _ _ _ _ _ _ _ _ _ _ ?_ rfl rfl rfl rfl rfl rfl rfl rfl
       with_reducible assumption)

theorem keeps_execCrystalRunning (s : State) : OutKeeps s (execCrystalRunning s) := by
  have h := Keeps.refl s
  unfold execCrystalRunning
  show Keeps _ _
  try extract_lets
  repeat' first
    | with_reducible assumption
    | with_reducible apply Keeps.ite <;> intro _
    | (with_reducible refine Keeps.of_mk _ _ _ _ _ _ _ _ _ _ _ _ _ _ _ _ _ _ _ _ _ _ _ _ _ _ _ _ _ ?_ rfl rfl rfl rfl rfl rfl rfl rfl
       with_reducible assumption)

theorem keeps_execCrystalTimeout (s : State) : OutKeeps s (execCrystalTimeout s) := by
  have h := Keeps.refl s
  unfold execCrystalTimeout
  show Keeps _ _
  try extract_lets
  repeat' first
    | with_reducible assumption
    | with_reducible apply keeps_logEvent
    | with_reducible apply Keeps.ite <;> intro _
    | (with_reducible refine Keeps.of_mk _ _ _ _ _ _ _ _ _ _ _ _ _ _ _ _ _ _ _ _ _ _ _ _ _ _ _ _ _ ?_ rfl rfl rfl rfl rfl rfl rfl rfl
       with_reducible assumption)

theorem keeps_execRcTrim (s : State) : OutKeeps s (execRcTrim s) := by
  have h := Keeps.refl s
  unfold execRcTrim
  show Keeps _ _
  try extract_lets
  repeat' first
    | with_reducible assumption
    | with_reducible apply keeps_netAll
    | with_reducible apply keeps_logEvent
    | with_reducible apply Keeps.ite <;> intro _
    | (with_reducible refine Keeps.of_mk _ _ _ _ _ _ _ _ _ _ _ _ _ _ _ _ _ _ _ _ _ _ _ _ _ _ _ _ _ ?_ rfl rfl rfl rfl rfl rfl rfl rfl
       with_reducible assumption)

theorem keeps_execKl15On (s : State) : OutKeeps s (execKl15On s) := by
  have h := Keeps.refl s
  unfold execKl15On
  show Keeps _ _
  try extract_lets
  repeat' first
    | with_reducible apply keeps_netKl15
    | with_reducible apply keeps_judge
    | with_reducible apply keeps_wakeUp
    | with_reducible apply Keeps.ite <;> intro _
    | (with_reducible refine Keeps.of_mk _ _ _ _ _ _ _ _ _ _ _ _ _ _ _ _ _ _ _ _ _ _ _ _ _ _ _ _ _ ?_ rfl rfl rfl rfl rfl rfl rfl rfl
       with_reducible assumption)

theorem keeps_execKl15Off (s : State) : OutKeeps s (execKl15Off s) := by
  have h := Keeps.refl s
  unfold execKl15Off
  show Keeps _ _
  try extract_lets
  repeat' first
    | with_reducible apply keeps_judge
    | with_reducible apply keeps_netKl15
    | (with_reducible refine Keeps.of_mk _ _ _ _ _ _ _ _ _ _ _ _ _ _ _ _ _ _ _ _ _ _ _ _ _ _ _ _ _ ?_ rfl rfl rfl rfl rfl rfl rfl rfl
       with_reducible assumption)

theorem keeps_execWakePinAsserted (pin : Fin 4) (s : State) : OutKeeps s (execWakePinAsserted pin s) := by
  have h := Keeps.refl s
  unfold execWakePinAsserted
  show Keeps _ _
  try extract_lets
  repeat' first
    | with_reducible apply keeps_judge
    | with_reducible apply keeps_wakeUp
    | (with_reducible refine Keeps.of_mk _ _ _ _ _ _ _ _ _ _ _ _ _ _ _ _ _ _ _ _ _ _ _ _ _ _ _ _ _ ?_ rfl rfl rfl rfl rfl rfl rfl rfl
       with_reducible assumption)

theorem keeps_execWakePinReleased (pin : Fin 4) (s : State) : OutKeeps s (execWakePinReleased pin s) := by
  have h := Keeps.refl s
  unfold execWakePinReleased
  show Keeps _ _
  try extract_lets
  repeat' first
    | with_reducible apply keeps_judge
    | (with_reducible refine Keeps.of_mk _ _ _ _ _ _ _ _ _ _ _ _ _ _ _ _ _ _ _ _ _ _ _ _ _ _ _ _ _ ?_ rfl rfl rfl rfl rfl rfl rfl rfl
       with_reducible assumption)

theorem keeps_execLateWakeLatch (wake : Wake) (s : State) : OutKeeps s (execLateWakeLatch wake s) := by
  have h := Keeps.refl s
  unfold execLateWakeLatch
  show Keeps _ _
  try extract_lets
  repeat' first
    | with_reducible assumption
    | with_reducible apply Keeps.ite <;> intro _
    | (with_reducible refine Keeps.of_mk _ _ _ _ _ _ _ _ _ _ _ _ _ _ _ _ _ _ _ _ _ _ _ _ _ _ _ _ _ ?_ rfl rfl rfl rfl rfl rfl rfl rfl
       with_reducible assumption)

theorem keeps_execRegulatorsOff (s : State) : OutKeeps s (execRegulatorsOff s) := by
  have h := Keeps.refl s
  unfold execRegulatorsOff
  show Keeps _ _
  try extract_lets
  repeat' first
    | with_reducible assumption
    | with_reducible apply keeps_startBegin
    | with_reducible apply keeps_State_modDom
    | with_reducible apply Keeps.ite <;> intro _
    | (with_reducible refine Keeps.of_mk _ _ _ _ _ _ _ _ _ _ _ _ _ _ _ _ _ _ _ _ _ _ _ _ _ _ _ _ _ ?_ rfl rfl rfl rfl rfl rfl rfl rfl
       first
         | with_reducible assumption
         | split
      )
    | extract_lets
    | dsimp +zetaDelta only

theorem keeps_execGuardExpiry (s : State) : OutKeeps s (execGuardExpiry s) := by
  have h := Keeps.refl s
  unfold execGuardExpiry
  show Keeps _ _
  try extract_lets
  repeat' first
    | with_reducible assumption
    | with_reducible apply keeps_State_modDom
    | with_reducible apply keeps_modeOutputs
    | with_reducible apply keeps_setMode
    | with_reducible apply Keeps.ite <;> intro _
    | (with_reducible refine Keeps.of_mk _ _ _ _ _ _ _ _ _ _ _ _ _ _ _ _ _ _ _ _ _ _ _ _ _ _ _ _ _ ?_ rfl rfl rfl rfl rfl rfl rfl rfl
       with_reducible apply Keeps.reach)

theorem keeps_actModeSet (target : BitVec 4) (a : Act) (s : State) {s0 : State}  (h : Keeps s0 s) :
    Keeps s0 (actModeSet target a s) := by
  unfold actModeSet
  try extract_lets
  repeat' first
    | with_reducible assumption
    | with_reducible apply keeps_refuse
    | with_reducible apply keeps_finish
    | with_reducible apply keeps_goMode
    | with_reducible apply Keeps.ite <;> intro _

theorem keeps_execModeSet (d : Desc) (target : BitVec 4) (s : State) : OutKeeps s (execModeSet d target s) := by
  have h := Keeps.refl s
  unfold execModeSet
  show Keeps _ _
  repeat' first
    | with_reducible assumption
    | with_reducible apply keeps_accept
    | with_reducible apply keeps_actModeSet
    | intro _ _ _

theorem keeps_plRequest (s : State) (level : Nat) {s0 : State}  (h : Keeps s0 s) :
    Keeps s0 (plRequest s level) := by
  unfold plRequest
  try extract_lets
  repeat' first
    | with_reducible apply keeps_plSync
    | (with_reducible refine Keeps.of_mk _ _ _ _ _ _ _ _ _ _ _ _ _ _ _ _ _ _ _ _ _ _ _ _ _ _ _ _ _ ?_ rfl rfl rfl rfl rfl rfl rfl rfl
       with_reducible assumption)

theorem keeps_actPerfSet (level : BitVec 3) (a : Act) (s : State) {s0 : State}  (h : Keeps s0 s) :
    Keeps s0 (actPerfSet level a s) := by
  unfold actPerfSet
  try extract_lets
  repeat' first
    | with_reducible assumption
    | with_reducible apply keeps_plRequest
    | with_reducible apply keeps_finishAs
    | with_reducible apply keeps_finish
    | with_reducible apply Keeps.ite <;> intro _

theorem keeps_execPerfSet (d : Desc) (level : BitVec 3) (s : State) : OutKeeps s (execPerfSet d level s) := by
  have h := Keeps.refl s
  unfold execPerfSet
  show Keeps _ _
  repeat' first
    | with_reducible assumption
    | with_reducible apply keeps_accept
    | with_reducible apply keeps_actPerfSet
    | intro _ _ _

theorem keeps_execPlChangeDone (s : State) : OutKeeps s (execPlChangeDone s) := by
  have h := Keeps.refl s
  unfold execPlChangeDone
  show Keeps _ _
  try extract_lets
  repeat' first
    | (with_reducible refine Keeps.of_mk _ _ _ _ _ _ _ _ _ _ _ _ _ _ _ _ _ _ _ _ _ _ _ _ _ _ _ _ _ ?_ rfl rfl rfl rfl rfl rfl rfl rfl
       with_reducible assumption)

theorem keeps_execPl4LimitReached (s : State) : OutKeeps s (execPl4LimitReached s) := by
  have h := Keeps.refl s
  unfold execPl4LimitReached
  show Keeps _ _
  try extract_lets
  repeat' first
    | with_reducible assumption
    | with_reducible apply keeps_plSync
    | with_reducible apply keeps_logEvent
    | with_reducible apply Keeps.ite <;> intro _
    | (with_reducible refine Keeps.of_mk _ _ _ _ _ _ _ _ _ _ _ _ _ _ _ _ _ _ _ _ _ _ _ _ _ _ _ _ _ ?_ rfl rfl rfl rfl rfl rfl rfl rfl
       with_reducible assumption)

theorem keeps_execPl4CapLift (s : State) : OutKeeps s (execPl4CapLift s) := by
  have h := Keeps.refl s
  unfold execPl4CapLift
  show Keeps _ _
  try extract_lets
  repeat' first
    | with_reducible assumption
    | with_reducible apply keeps_plSync
    | with_reducible apply Keeps.ite <;> intro _
    | (with_reducible refine Keeps.of_mk _ _ _ _ _ _ _ _ _ _ _ _ _ _ _ _ _ _ _ _ _ _ _ _ _ _ _ _ _ ?_ rfl rfl rfl rfl rfl rfl rfl rfl
       with_reducible apply keeps_State_takeWord)

theorem keeps_actDomainSet (domain : BitVec 4) (state : BitVec 2) (a : Act) (s : State) {s0 : State}  (h : Keeps s0 s) :
    Keeps s0 (actDomainSet domain state a s) := by
  unfold actDomainSet
  try extract_lets
  repeat' first
    | with_reducible assumption
    | with_reducible apply keeps_refuse
    | with_reducible apply keeps_beginDrain
    | with_reducible apply keeps_finish
    | with_reducible apply keeps_startWake
    | with_reducible apply Keeps.ite <;> intro _
    | (with_reducible refine Keeps.of_mk _ _ _ _ _ _ _ _ _ _ _ _ _ _ _ _ _ _ _ _ _ _ _ _ _ _ _ _ _ ?_ rfl rfl rfl rfl rfl rfl rfl rfl
       with_reducible assumption)

theorem keeps_execDomainSet (d : Desc) (domain : BitVec 4) (state : BitVec 2) (s : State) : OutKeeps s (execDomainSet d domain state s) := by
  have h := Keeps.refl s
  unfold execDomainSet
  show Keeps _ _
  repeat' first
    | with_reducible assumption
    | with_reducible apply keeps_accept
    | with_reducible apply keeps_actDomainSet
    | intro _ _ _

theorem keeps_actNeedSet (need : BitVec 1) (source : BitVec 3) (a : Act) (s : State) {s0 : State}  (h : Keeps s0 s) :
    Keeps s0 (actNeedSet need source a s) := by
  unfold actNeedSet
  try extract_lets
  repeat' first
    | with_reducible apply keeps_judge
    | with_reducible apply keeps_netAll
    | with_reducible apply keeps_finish
    | (with_reducible refine Keeps.of_mk _ _ _ _ _ _ _ _ _ _ _ _ _ _ _ _ _ _ _ _ _ _ _ _ _ _ _ _ _ ?_ rfl rfl rfl rfl rfl rfl rfl rfl
       with_reducible assumption)

theorem keeps_execNeedSet (d : Desc) (need : BitVec 1) (source : BitVec 3) (s : State) : OutKeeps s (execNeedSet d need source s) := by
  have h := Keeps.refl s
  unfold execNeedSet
  show Keeps _ _
  repeat' first
    | with_reducible assumption
    | with_reducible apply keeps_accept
    | with_reducible apply keeps_actNeedSet
    | intro _ _ _

theorem keeps_markQuiet (s : State) (d : Dom) {s0 : State}  (h : Keeps s0 s) :
    Keeps s0 (markQuiet s d) := by
  unfold markQuiet
  try extract_lets
  repeat' first
    | (with_reducible refine Keeps.of_mk _ _ _ _ _ _ _ _ _ _ _ _ _ _ _ _ _ _ _ _ _ _ _ _ _ _ _ _ _ ?_ rfl rfl rfl rfl rfl rfl rfl rfl
       with_reducible assumption)

theorem keeps_execDrainQuiescent (dom : Dom) (s : State) : OutKeeps s (execDrainQuiescent dom s) := by
  have h := Keeps.refl s
  unfold execDrainQuiescent
  show Keeps _ _
  repeat' first
    | with_reducible assumption
    | with_reducible apply keeps_settleAll
    | with_reducible apply keeps_markQuiet

theorem keeps_execDrainBoundExpiry (dom : Dom) (s : State) : OutKeeps s (execDrainBoundExpiry dom s) := by
  have h := Keeps.refl s
  unfold execDrainBoundExpiry
  show Keeps _ _
  repeat' first
    | with_reducible assumption
    | with_reducible apply keeps_settleAll
    | with_reducible apply keeps_markQuiet
    | with_reducible apply keeps_logEvent
    | with_reducible apply keeps_abortWork
    | with_reducible apply Keeps.ite <;> intro _

theorem keeps_raiseAgain (s : State) (d : Dom) {s0 : State}  (h : Keeps s0 s) :
    Keeps s0 (raiseAgain s d) := by
  unfold raiseAgain
  try extract_lets
  repeat' first
    | with_reducible assumption
    | with_reducible apply keeps_dropDrain
    | with_reducible apply keeps_startWake
    | with_reducible apply Keeps.ite <;> intro _

theorem keeps_compatReturn (s : State) {s0 : State}  (h : Keeps s0 s) :
    Keeps s0 (compatReturn s) := by
  unfold compatReturn
  try extract_lets
  repeat' first
    | with_reducible assumption
    | with_reducible apply Keeps.foldl
    | with_reducible apply keeps_raiseAgain
    | intro _ _ _
    | (with_reducible refine Keeps.of_mk _ _ _ _ _ _ _ _ _ _ _ _ _ _ _ _ _ _ _ _ _ _ _ _ _ _ _ _ _ ?_ rfl rfl rfl rfl rfl rfl rfl rfl
       with_reducible assumption)

theorem keeps_compatLower (t : DomState) (s : State) (d : Dom) {s0 : State}  (h : Keeps s0 s) :
    Keeps s0 (compatLower t s d) := by
  unfold compatLower
  try extract_lets
  repeat' first
    | with_reducible assumption
    | with_reducible apply keeps_beginDrain
    | with_reducible apply Keeps.ite <;> intro _
    | (with_reducible refine Keeps.of_mk _ _ _ _ _ _ _ _ _ _ _ _ _ _ _ _ _ _ _ _ _ _ _ _ _ _ _ _ _ ?_ rfl rfl rfl rfl rfl rfl rfl rfl
       with_reducible assumption)

theorem keeps_compatRefuse (s : State) {s0 : State}  (h : Keeps s0 s) :
    Keeps s0 (compatRefuse s) := by
  unfold compatRefuse
  try extract_lets
  repeat' first
    | with_reducible apply keeps_logEvent
    | (with_reducible refine Keeps.of_mk _ _ _ _ _ _ _ _ _ _ _ _ _ _ _ _ _ _ _ _ _ _ _ _ _ _ _ _ _ ?_ rfl rfl rfl rfl rfl rfl rfl rfl
       with_reducible assumption)

theorem keeps_compatReq (s : State) (v : Nat) {s0 : State}  (h : Keeps s0 s) :
    Keeps s0 (compatReq s v) := by
  unfold compatReq
  try extract_lets
  repeat' first
    | with_reducible assumption
    | with_reducible apply Keeps.foldl
    | with_reducible apply keeps_compatReturn
    | with_reducible apply keeps_plRequest
    | with_reducible apply keeps_compatLower
    | with_reducible apply keeps_compatRefuse
    | with_reducible apply keeps_judge
    | with_reducible apply keeps_netAll
    | with_reducible apply keeps_goMode
    | with_reducible apply Keeps.ite <;> intro _
    | intro _ _ _
    | (with_reducible refine Keeps.of_mk _ _ _ _ _ _ _ _ _ _ _ _ _ _ _ _ _ _ _ _ _ _ _ _ _ _ _ _ _ ?_ rfl rfl rfl rfl rfl rfl rfl rfl
       first
         | with_reducible assumption
         | split
      )
    | extract_lets
    | dsimp +zetaDelta only

theorem keeps_execHostInterruptWake (s : State) : OutKeeps s (execHostInterruptWake s) := by
  have h := Keeps.refl s
  unfold execHostInterruptWake
  show Keeps _ _
  repeat' first
    | with_reducible assumption
    | with_reducible apply keeps_compatReturn
    | with_reducible apply Keeps.ite <;> intro _

theorem keeps_govTake (s : State) (above : Bool) {s0 : State}  (h : Keeps s0 s) :
    Keeps s0 (govTake s above) := by
  unfold govTake
  try extract_lets
  repeat' first
    | with_reducible assumption
    | with_reducible apply keeps_hsoShed
    | with_reducible apply keeps_logEvent
    | with_reducible apply keeps_plSync
    | with_reducible apply keeps_ledShed
    | with_reducible apply Keeps.ite <;> intro _
    | (with_reducible refine Keeps.of_mk _ _ _ _ _ _ _ _ _ _ _ _ _ _ _ _ _ _ _ _ _ _ _ _ _ _ _ _ _ ?_ rfl rfl rfl rfl rfl rfl rfl rfl
       first
         | with_reducible assumption
         | with_reducible apply keeps_plSync
      )

theorem keeps_govRelease (s : State) {s0 : State}  (h : Keeps s0 s) :
    Keeps s0 (govRelease s) := by
  unfold govRelease
  try extract_lets
  repeat' first
    | with_reducible assumption
    | with_reducible apply keeps_logEvent
    | with_reducible apply keeps_plSync
    | with_reducible apply keeps_ledUnshed
    | with_reducible apply keeps_hsoUnshed
    | with_reducible apply Keeps.ite <;> intro _
    | (with_reducible refine Keeps.of_mk _ _ _ _ _ _ _ _ _ _ _ _ _ _ _ _ _ _ _ _ _ _ _ _ _ _ _ _ _ ?_ rfl rfl rfl rfl rfl rfl rfl rfl
       first
         | with_reducible assumption
         | with_reducible apply keeps_plSync
      )

theorem keeps_execGovernorTick (estimate : BitVec 16) (junction : Int) (s : State) : OutKeeps s (execGovernorTick estimate junction s) := by
  have h := Keeps.refl s
  unfold execGovernorTick
  show Keeps _ _
  try extract_lets
  repeat' first
    | with_reducible apply keeps_govTake
    | with_reducible apply keeps_govRelease
    | with_reducible apply Keeps.ite <;> intro _
    | (with_reducible refine Keeps.of_mk _ _ _ _ _ _ _ _ _ _ _ _ _ _ _ _ _ _ _ _ _ _ _ _ _ _ _ _ _ ?_ rfl rfl rfl rfl rfl rfl rfl rfl
       first
         | with_reducible assumption
         | split
      )
    | extract_lets
    | dsimp +zetaDelta only

end Sys2Proof.Machine
end

