-- ==== Sys2Proof/Laws/KeepsWeave.lean ====
section
/-! SUPPORT. What the operations of Machine/Weave.lean keep: the queue, the order of time and a sound state. -/

namespace Sys2Proof.Machine

set_option linter.unusedTactic false
set_option linter.unreachableTactic false

theorem keeps_setSync (s : State) (st : SyncState) {s0 : State}  (h : Keeps s0 s) :
    Keeps s0 (setSync s st) := by
  unfold setSync
  try extract_lets
  repeat' first
    | with_reducible assumption
    | with_reducible apply keeps_logEvent
    | with_reducible apply Keeps.ite <;> intro _
    | (with_reducible refine Keeps.of_mk _ _ _ _ _ _ _ _ _ _ _ _ _ _ _ _ _ _ _ _ _ _ _ _ _ _ _ _ _ ?_ rfl rfl rfl rfl rfl rfl rfl rfl
       with_reducible assumption)

theorem keeps_weaveStep (s : State) (offset : Int) {s0 : State} (h : Keeps s0 s) : Keeps s0 (weaveStep s offset) := by
  unfold weaveStep
  extract_lets cut src s1 now keep src2 s2
  have h1 : Keeps s0 s1 :=
    h.of_sound rfl (Nat.le_refl _) (fun x => ⟨x.1, x.2.1, x.2.2.1, mask_tick _, x.2.2.2.2⟩)
  have h2 : Keeps s0 s2 := Keeps.foldl _ _ (fun _ _ k => keeps_cancelLaunch _ _ _ k)
    (h1.of_same rfl rfl rfl rfl rfl rfl rfl rfl)
  exact keeps_setSync _ _ (keeps_logEvent _ _ _ h2)

theorem keeps_syncRx (s : State) (offset : Int) (interval : Nat) {s0 : State}  (h : Keeps s0 s) :
    Keeps s0 (syncRx s offset interval) := by
  unfold syncRx
  try extract_lets
  repeat' first
    | with_reducible apply keeps_weaveStep
    | with_reducible apply keeps_setSync
    | with_reducible apply Keeps.ite <;> intro _
    | (with_reducible refine Keeps.of_mk _ _ _ _ _ _ _ _ _ _ _ _ _ _ _ _ _ _ _ _ _ _ _ _ _ _ _ _ _ ?_ rfl rfl rfl rfl rfl rfl rfl rfl
       first
         | with_reducible assumption
         | split
      )
    | extract_lets
    | dsimp +zetaDelta only

theorem keeps_execSyncTx (s : State) : OutKeeps s (execSyncTx s) := by
  have h := Keeps.refl s
  unfold execSyncTx
  show Keeps _ _
  repeat' first
    | with_reducible assumption
    | with_reducible apply keeps_State_send
    | with_reducible apply Keeps.ite <;> intro _

theorem keeps_execPdelayExchange (delay : Nat) (s : State) : OutKeeps s (execPdelayExchange delay s) := by
  have h := Keeps.refl s
  unfold execPdelayExchange
  show Keeps _ _
  try extract_lets
  repeat' first
    | (with_reducible refine Keeps.of_mk _ _ _ _ _ _ _ _ _ _ _ _ _ _ _ _ _ _ _ _ _ _ _ _ _ _ _ _ _ ?_ rfl rfl rfl rfl rfl rfl rfl rfl
       with_reducible assumption)

theorem keeps_execSyncMissed (s : State) : OutKeeps s (execSyncMissed s) := by
  have h := Keeps.refl s
  unfold execSyncMissed
  show Keeps _ _
  try extract_lets
  repeat' first
    | with_reducible assumption
    | with_reducible apply keeps_setSync
    | (with_reducible refine Keeps.of_mk _ _ _ _ _ _ _ _ _ _ _ _ _ _ _ _ _ _ _ _ _ _ _ _ _ _ _ _ _ ?_ rfl rfl rfl rfl rfl rfl rfl rfl
       first
         | with_reducible apply Keeps.reach
         | split
      )

theorem keeps_execTimeMsgRx (wallOffset : BitVec 64) (setCount : BitVec 16) (s : State) : OutKeeps s (execTimeMsgRx wallOffset setCount s) := by
  have h := Keeps.refl s
  unfold execTimeMsgRx
  show Keeps _ _
  try extract_lets
  repeat' first
    | with_reducible assumption
    | with_reducible apply Keeps.ite <;> intro _
    | (with_reducible refine Keeps.of_mk _ _ _ _ _ _ _ _ _ _ _ _ _ _ _ _ _ _ _ _ _ _ _ _ _ _ _ _ _ ?_ rfl rfl rfl rfl rfl rfl rfl rfl
       with_reducible assumption)

theorem keeps_actWallSet (utc : BitVec 64) (at_ : BitVec 64) (a : Act) (s : State) {s0 : State}  (h : Keeps s0 s) :
    Keeps s0 (actWallSet utc at_ a s) := by
  unfold actWallSet
  try extract_lets
  repeat' first
    | with_reducible assumption
    | with_reducible apply keeps_refuse
    | with_reducible apply keeps_finish
    | with_reducible apply keeps_logEvent
    | with_reducible apply Keeps.ite <;> intro _
    | (with_reducible refine Keeps.of_mk _ _ _ _ _ _ _ _ _ _ _ _ _ _ _ _ _ _ _ _ _ _ _ _ _ _ _ _ _ ?_ rfl rfl rfl rfl rfl rfl rfl rfl
       with_reducible assumption)

theorem keeps_execWallSet (d : Desc) (utc : BitVec 64) (at_ : BitVec 64) (s : State) : OutKeeps s (execWallSet d utc at_ s) := by
  have h := Keeps.refl s
  unfold execWallSet
  show Keeps _ _
  repeat' first
    | with_reducible assumption
    | with_reducible apply keeps_accept
    | with_reducible apply keeps_actWallSet
    | intro _ _ _

theorem keeps_actCaptureArm (unit : BitVec 3) (timeout : BitVec 24) (a : Act) (s : State) {s0 : State}  (h : Keeps s0 s) :
    Keeps s0 (actCaptureArm unit timeout a s) := by
  unfold actCaptureArm
  try extract_lets
  repeat' first
    | with_reducible assumption
    | with_reducible apply keeps_refuse
    | with_reducible apply Keeps.ite <;> intro _
    | (with_reducible refine Keeps.of_mk _ _ _ _ _ _ _ _ _ _ _ _ _ _ _ _ _ _ _ _ _ _ _ _ _ _ _ _ _ ?_ rfl rfl rfl rfl rfl rfl rfl rfl
       with_reducible assumption)

theorem keeps_execCaptureArm (d : Desc) (unit : BitVec 3) (timeout : BitVec 24) (s : State) : OutKeeps s (execCaptureArm d unit timeout s) := by
  have h := Keeps.refl s
  unfold execCaptureArm
  show Keeps _ _
  repeat' first
    | with_reducible assumption
    | with_reducible apply keeps_accept
    | with_reducible apply keeps_actCaptureArm
    | intro _ _ _

theorem keeps_captureUnit (s : State) (n : Nat) {s0 : State}  (h : Keeps s0 s) :
    Keeps s0 (captureUnit s n) := by
  unfold captureUnit
  try extract_lets
  repeat' first
    | with_reducible apply keeps_complete
    | (with_reducible refine Keeps.of_mk _ _ _ _ _ _ _ _ _ _ _ _ _ _ _ _ _ _ _ _ _ _ _ _ _ _ _ _ _ ?_ rfl rfl rfl rfl rfl rfl rfl rfl
       first
         | with_reducible assumption
         | split
      )
    | extract_lets
    | dsimp +zetaDelta only

theorem keeps_execCaptureEdge (source : BitVec 7) (rising : Bool) (s : State) : OutKeeps s (execCaptureEdge source rising s) := by
  have h := Keeps.refl s
  unfold execCaptureEdge
  show Keeps _ _
  repeat' first
    | with_reducible assumption
    | with_reducible apply Keeps.foldl
    | with_reducible apply keeps_captureUnit
    | with_reducible apply Keeps.ite <;> intro _
    | intro _ _ _

theorem keeps_execCaptureTimeout (unit : Fin 8) (s : State) : OutKeeps s (execCaptureTimeout unit s) := by
  have h := Keeps.refl s
  unfold execCaptureTimeout
  show Keeps _ _
  try extract_lets
  repeat' first
    | with_reducible assumption
    | with_reducible apply keeps_complete
    | (with_reducible refine Keeps.of_mk _ _ _ _ _ _ _ _ _ _ _ _ _ _ _ _ _ _ _ _ _ _ _ _ _ _ _ _ _ ?_ rfl rfl rfl rfl rfl rfl rfl rfl
       first
         | with_reducible apply Keeps.reach
         | split
      )

theorem keeps_latchTime (s : State) {s0 : State}  (h : Keeps s0 s) :
    Keeps s0 (latchTime s) := by
  unfold latchTime
  try extract_lets
  repeat' first
    | (with_reducible refine Keeps.of_mk _ _ _ _ _ _ _ _ _ _ _ _ _ _ _ _ _ _ _ _ _ _ _ _ _ _ _ _ _ ?_ rfl rfl rfl rfl rfl rfl rfl rfl
       with_reducible assumption)

theorem keeps_latchWall (s : State) {s0 : State}  (h : Keeps s0 s) :
    Keeps s0 (latchWall s) := by
  unfold latchWall
  try extract_lets
  repeat' first
    | (with_reducible refine Keeps.of_mk _ _ _ _ _ _ _ _ _ _ _ _ _ _ _ _ _ _ _ _ _ _ _ _ _ _ _ _ _ ?_ rfl rfl rfl rfl rfl rfl rfl rfl
       with_reducible assumption)

theorem keeps_latchCapture (s : State) (n : Nat) {s0 : State}  (h : Keeps s0 s) :
    Keeps s0 (latchCapture s n) := by
  unfold latchCapture
  try extract_lets
  repeat' first
    | (with_reducible refine Keeps.of_mk _ _ _ _ _ _ _ _ _ _ _ _ _ _ _ _ _ _ _ _ _ _ _ _ _ _ _ _ _ ?_ rfl rfl rfl rfl rfl rfl rfl rfl
       with_reducible assumption)

end Sys2Proof.Machine
end

