-- ==== Sys2Proof/Laws/KeepsRegWrite.lean ====
section
/-! SUPPORT. What the operations of Machine/RegWrite.lean keep: the queue, the order of time and a sound state. -/

namespace Sys2Proof.Machine

set_option linter.unusedTactic false
set_option linter.unreachableTactic false

theorem keeps_sysWrite (s : State) (addr : Nat) (off : Nat) (v : BitVec 32) {s0 : State}  (h : Keeps s0 s) :
    Keeps s0 (sysWrite s addr off v) := by
  unfold sysWrite
  try extract_lets
  repeat' first
    | with_reducible assumption
    | with_reducible apply keeps_stagedWrite
    | (with_reducible refine Keeps.of_mk _ _ _ _ _ _ _ _ _ _ _ _ _ _ _ _ _ _ _ _ _ _ _ _ _ _ _ _ _ ?_ rfl rfl rfl rfl rfl rfl rfl rfl
       first
         | with_reducible assumption
         | split
      )

theorem keeps_pwrWrite (s : State) (off : Nat) (v : BitVec 32) {s0 : State}  (h : Keeps s0 s) :
    Keeps s0 (pwrWrite s off v) := by
  unfold pwrWrite
  try extract_lets
  repeat' first
    | with_reducible assumption
    | with_reducible apply keeps_plRequest
    | with_reducible apply keeps_plSync
    | with_reducible apply keeps_compatReq
    | (with_reducible refine Keeps.of_mk _ _ _ _ _ _ _ _ _ _ _ _ _ _ _ _ _ _ _ _ _ _ _ _ _ _ _ _ _ ?_ rfl rfl rfl rfl rfl rfl rfl rfl
       first
         | with_reducible assumption
         | split
      )

theorem keeps_weaveWrite (s : State) (addr : Nat) (off : Nat) (v : BitVec 32) {s0 : State}  (h : Keeps s0 s) :
    Keeps s0 (weaveWrite s addr off v) := by
  unfold weaveWrite
  try extract_lets
  repeat' first
    | with_reducible assumption
    | with_reducible apply keeps_stagedWrite
    | with_reducible apply Keeps.ite <;> intro _
    | (with_reducible refine Keeps.of_mk _ _ _ _ _ _ _ _ _ _ _ _ _ _ _ _ _ _ _ _ _ _ _ _ _ _ _ _ _ ?_ rfl rfl rfl rfl rfl rfl rfl rfl
       first
         | with_reducible assumption
         | split
      )

theorem keeps_ringWrite1 (s : State) (n : Nat) (off : Nat) (v : BitVec 32) {s0 : State}  (h : Keeps s0 s) :
    Keeps s0 (ringWrite1 s n off v) := by
  unfold ringWrite1
  try extract_lets
  repeat' first
    | with_reducible assumption
    | with_reducible apply keeps_ringBaseWrite
    | with_reducible apply keeps_ringCfgWrite
    | with_reducible apply keeps_State_modRing
    | (with_reducible refine Keeps.of_mk _ _ _ _ _ _ _ _ _ _ _ _ _ _ _ _ _ _ _ _ _ _ _ _ _ _ _ _ _ ?_ rfl rfl rfl rfl rfl rfl rfl rfl
       split)

theorem keeps_ringWrite (s : State) (off : Nat) (v : BitVec 32) {s0 : State}  (h : Keeps s0 s) :
    Keeps s0 (ringWrite s off v) := by
  unfold ringWrite
  try extract_lets
  repeat' first
    | with_reducible assumption
    | with_reducible apply keeps_ringWrite1
    | with_reducible apply keeps_dbBaseWrite
    | with_reducible apply keeps_dbCtlWrite
    | with_reducible apply Keeps.ite <;> intro _
    | (with_reducible refine Keeps.of_mk _ _ _ _ _ _ _ _ _ _ _ _ _ _ _ _ _ _ _ _ _ _ _ _ _ _ _ _ _ ?_ rfl rfl rfl rfl rfl rfl rfl rfl
       first
         | with_reducible assumption
         | split
      )

theorem keeps_cfgWrite (s : State) (off : Nat) (v : BitVec 32) {s0 : State}  (h : Keeps s0 s) :
    Keeps s0 (cfgWrite s off v) := by
  unfold cfgWrite
  try extract_lets
  repeat' first
    | with_reducible assumption
    | (with_reducible refine Keeps.of_mk _ _ _ _ _ _ _ _ _ _ _ _ _ _ _ _ _ _ _ _ _ _ _ _ _ _ _ _ _ ?_ rfl rfl rfl rfl rfl rfl rfl rfl
       first
         | with_reducible assumption
         | split
      )

theorem keeps_hsoWrite (s : State) (off : Nat) (v : BitVec 32) {s0 : State}  (h : Keeps s0 s) :
    Keeps s0 (hsoWrite s off v) := by
  unfold hsoWrite
  try extract_lets
  repeat' first
    | with_reducible assumption
    | with_reducible apply Keeps.ite <;> intro _
    | (with_reducible refine Keeps.of_mk _ _ _ _ _ _ _ _ _ _ _ _ _ _ _ _ _ _ _ _ _ _ _ _ _ _ _ _ _ ?_ rfl rfl rfl rfl rfl rfl rfl rfl
       with_reducible assumption)

theorem keeps_edgeWrite (s : State) (addr : Nat) (off : Nat) (v : BitVec 32) {s0 : State}  (h : Keeps s0 s) :
    Keeps s0 (edgeWrite s addr off v) := by
  unfold edgeWrite
  try extract_lets
  repeat' first
    | with_reducible assumption
    | with_reducible apply keeps_stagedWrite
    | (with_reducible refine Keeps.of_mk _ _ _ _ _ _ _ _ _ _ _ _ _ _ _ _ _ _ _ _ _ _ _ _ _ _ _ _ _ ?_ rfl rfl rfl rfl rfl rfl rfl rfl
       first
         | with_reducible assumption
         | split
      )

theorem keeps_vlvWrite (s : State) (addr : Nat) (off : Nat) (v : BitVec 32) {s0 : State}  (h : Keeps s0 s) :
    Keeps s0 (vlvWrite s addr off v) := by
  unfold vlvWrite
  try extract_lets
  repeat' first
    | with_reducible assumption
    | with_reducible apply keeps_stagedWrite
    | with_reducible apply Keeps.ite <;> intro _
    | (with_reducible refine Keeps.of_mk _ _ _ _ _ _ _ _ _ _ _ _ _ _ _ _ _ _ _ _ _ _ _ _ _ _ _ _ _ ?_ rfl rfl rfl rfl rfl rfl rfl rfl
       first
         | with_reducible assumption
         | split
      )

theorem keeps_facetWrite (s : State) (off : Nat) (v : BitVec 32) {s0 : State}  (h : Keeps s0 s) :
    Keeps s0 (facetWrite s off v) := by
  unfold facetWrite
  try extract_lets
  repeat' first
    | with_reducible assumption
    | with_reducible apply Keeps.ite <;> intro _
    | (with_reducible refine Keeps.of_mk _ _ _ _ _ _ _ _ _ _ _ _ _ _ _ _ _ _ _ _ _ _ _ _ _ _ _ _ _ ?_ rfl rfl rfl rfl rfl rfl rfl rfl
       with_reducible assumption)

theorem keeps_ledWrite (s : State) (off : Nat) (v : BitVec 32) {s0 : State}  (h : Keeps s0 s) :
    Keeps s0 (ledWrite s off v) := by
  unfold ledWrite
  try extract_lets
  repeat' first
    | with_reducible assumption
    | with_reducible apply keeps_ledGainWrite
    | with_reducible apply Keeps.ite <;> intro _
    | (with_reducible refine Keeps.of_mk _ _ _ _ _ _ _ _ _ _ _ _ _ _ _ _ _ _ _ _ _ _ _ _ _ _ _ _ _ ?_ rfl rfl rfl rfl rfl rfl rfl rfl
       first
         | with_reducible assumption
         | split
      )

theorem keeps_mtxWrite (s : State) (off : Nat) (v : BitVec 32) {s0 : State}  (h : Keeps s0 s) :
    Keeps s0 (mtxWrite s off v) := by
  unfold mtxWrite
  try extract_lets
  repeat' first
    | with_reducible assumption
    | (with_reducible refine Keeps.of_mk _ _ _ _ _ _ _ _ _ _ _ _ _ _ _ _ _ _ _ _ _ _ _ _ _ _ _ _ _ ?_ rfl rfl rfl rfl rfl rfl rfl rfl
       first
         | with_reducible assumption
         | split
      )

theorem keeps_fioWrite (s : State) (off : Nat) (v : BitVec 32) {s0 : State}  (h : Keeps s0 s) :
    Keeps s0 (fioWrite s off v) := by
  unfold fioWrite
  try extract_lets
  repeat' first
    | with_reducible assumption
    | with_reducible apply Keeps.ite <;> intro _
    | (with_reducible refine Keeps.of_mk _ _ _ _ _ _ _ _ _ _ _ _ _ _ _ _ _ _ _ _ _ _ _ _ _ _ _ _ _ ?_ rfl rfl rfl rfl rfl rfl rfl rfl
       with_reducible assumption)

theorem keeps_canWrite (s : State) (addr : Nat) (off : Nat) (v : BitVec 32) {s0 : State}  (h : Keeps s0 s) :
    Keeps s0 (canWrite s addr off v) := by
  unfold canWrite
  try extract_lets
  repeat' first
    | with_reducible assumption
    | with_reducible apply keeps_stagedWrite
    | with_reducible apply Keeps.ite <;> intro _
    | (with_reducible refine Keeps.of_mk _ _ _ _ _ _ _ _ _ _ _ _ _ _ _ _ _ _ _ _ _ _ _ _ _ _ _ _ _ ?_ rfl rfl rfl rfl rfl rfl rfl rfl
       split)

theorem keeps_netWrite (s : State) (off : Nat) (v : BitVec 32) {s0 : State}  (h : Keeps s0 s) :
    Keeps s0 (netWrite s off v) := by
  unfold netWrite
  try extract_lets
  repeat' first
    | with_reducible assumption
    | with_reducible apply Keeps.ite <;> intro _
    | (with_reducible refine Keeps.of_mk _ _ _ _ _ _ _ _ _ _ _ _ _ _ _ _ _ _ _ _ _ _ _ _ _ _ _ _ _ ?_ rfl rfl rfl rfl rfl rfl rfl rfl
       with_reducible assumption)

theorem keeps_ethWrite (s : State) (addr : Nat) (off : Nat) (v : BitVec 32) {s0 : State}  (h : Keeps s0 s) :
    Keeps s0 (ethWrite s addr off v) := by
  unfold ethWrite
  try extract_lets
  repeat' first
    | with_reducible assumption
    | with_reducible apply keeps_stagedWrite
    | (with_reducible refine Keeps.of_mk _ _ _ _ _ _ _ _ _ _ _ _ _ _ _ _ _ _ _ _ _ _ _ _ _ _ _ _ _ ?_ rfl rfl rfl rfl rfl rfl rfl rfl
       split)

theorem keeps_plaitWrite (s : State) (addr : Nat) (off : Nat) (v : BitVec 32) {s0 : State}  (h : Keeps s0 s) :
    Keeps s0 (plaitWrite s addr off v) := by
  unfold plaitWrite
  try extract_lets
  repeat' first
    | with_reducible assumption
    | with_reducible apply keeps_stagedWrite
    | with_reducible apply keeps_State_modLink
    | with_reducible apply Keeps.ite <;> intro _
    | (with_reducible refine Keeps.of_mk _ _ _ _ _ _ _ _ _ _ _ _ _ _ _ _ _ _ _ _ _ _ _ _ _ _ _ _ _ ?_ rfl rfl rfl rfl rfl rfl rfl rfl
       first
         | with_reducible assumption
         | split
      )

theorem keeps_accRegWrite (s : State) (off : Nat) (v : BitVec 32) {s0 : State}  (h : Keeps s0 s) :
    Keeps s0 (accRegWrite s off v) := by
  unfold accRegWrite
  try extract_lets
  repeat' first
    | with_reducible assumption
    | with_reducible apply Keeps.ite <;> intro _
    | (with_reducible refine Keeps.of_mk _ _ _ _ _ _ _ _ _ _ _ _ _ _ _ _ _ _ _ _ _ _ _ _ _ _ _ _ _ ?_ rfl rfl rfl rfl rfl rfl rfl rfl
       with_reducible assumption)

theorem keeps_wdtCfgWrite (s : State) (v : BitVec 32) {s0 : State}  (h : Keeps s0 s) :
    Keeps s0 (wdtCfgWrite s v) := by
  unfold wdtCfgWrite
  try extract_lets
  repeat' first
    | with_reducible apply keeps_wdtRestart
    | with_reducible apply Keeps.ite <;> intro _
    | (with_reducible refine Keeps.of_mk _ _ _ _ _ _ _ _ _ _ _ _ _ _ _ _ _ _ _ _ _ _ _ _ _ _ _ _ _ ?_ rfl rfl rfl rfl rfl rfl rfl rfl
       with_reducible assumption)

theorem keeps_holdWrite (s : State) (v : BitVec 32) {s0 : State}  (h : Keeps s0 s) :
    Keeps s0 (holdWrite s v) := by
  unfold holdWrite
  try extract_lets
  repeat' first
    | (with_reducible refine Keeps.of_mk _ _ _ _ _ _ _ _ _ _ _ _ _ _ _ _ _ _ _ _ _ _ _ _ _ _ _ _ _ ?_ rfl rfl rfl rfl rfl rfl rfl rfl
       with_reducible assumption)

theorem keeps_bezelWrite (s : State) (off : Nat) (v : BitVec 32) {s0 : State}  (h : Keeps s0 s) :
    Keeps s0 (bezelWrite s off v) := by
  unfold bezelWrite
  try extract_lets
  repeat' first
    | with_reducible assumption
    | with_reducible apply keeps_plainReset
    | with_reducible apply keeps_holdWrite
    | with_reducible apply keeps_wdtCfgWrite
    | with_reducible apply keeps_kickWrite
    | with_reducible apply Keeps.ite <;> intro _
    | (with_reducible refine Keeps.of_mk _ _ _ _ _ _ _ _ _ _ _ _ _ _ _ _ _ _ _ _ _ _ _ _ _ _ _ _ _ ?_ rfl rfl rfl rfl rfl rfl rfl rfl
       first
         | with_reducible assumption
         | split
      )

theorem keeps_eccWrite (s : State) (off : Nat) (v : BitVec 32) {s0 : State}  (h : Keeps s0 s) :
    Keeps s0 (eccWrite s off v) := by
  unfold eccWrite
  try extract_lets
  repeat' first
    | with_reducible assumption
    | with_reducible apply Keeps.ite <;> intro _
    | (with_reducible refine Keeps.of_mk _ _ _ _ _ _ _ _ _ _ _ _ _ _ _ _ _ _ _ _ _ _ _ _ _ _ _ _ _ ?_ rfl rfl rfl rfl rfl rfl rfl rfl
       first
         | with_reducible assumption
         | split
      )

theorem keeps_regWrite (s : State) (addr : Nat) (v : BitVec 32) {s0 : State} (h : Keeps s0 s) :
    Keeps s0 (regWrite s addr v) := by
  unfold regWrite
  extract_lets off
  clear_value off
  generalize blockOfAddr addr = b
  split
  · exact keeps_sysWrite _ _ _ _ h
  · exact keeps_pwrWrite _ _ _ h
  · exact keeps_weaveWrite _ _ _ _ h
  · exact keeps_ringWrite _ _ _ h
  · exact keeps_cfgWrite _ _ _ h
  · exact keeps_hsoWrite _ _ _ h
  · exact keeps_edgeWrite _ _ _ _ h
  · exact keeps_vlvWrite _ _ _ _ h
  · exact keeps_facetWrite _ _ _ h
  · exact keeps_ledWrite _ _ _ h
  · exact keeps_mtxWrite _ _ _ h
  · exact keeps_fioWrite _ _ _ h
  · exact keeps_canWrite _ _ _ _ h
  · exact keeps_netWrite _ _ _ h
  · exact keeps_ethWrite _ _ _ _ h
  · exact keeps_plaitWrite _ _ _ _ h
  · exact keeps_accRegWrite _ _ _ h
  · exact keeps_bezelWrite _ _ _ h
  · exact keeps_eccWrite _ _ _ h
  · exact h

theorem keeps_readLatch (s : State) (addr : Nat) {s0 : State}  (h : Keeps s0 s) :
    Keeps s0 (readLatch s addr) := by
  unfold readLatch
  repeat' first
    | with_reducible assumption
    | with_reducible apply keeps_latchTime
    | with_reducible apply keeps_latchWall
    | with_reducible apply keeps_latchCapture
    | with_reducible apply Keeps.ite <;> intro _

theorem keeps_regLoad (s : State) (addr : Nat) {s0 : State}  (h : Keeps s0 s) :
    Keeps s0 (regLoad s addr).2 := by
  unfold regLoad
  repeat' first
    | with_reducible assumption
    | with_reducible apply keeps_readLatch

end Sys2Proof.Machine
end

