-- ==== Sys2Proof/Laws/KeepsWindow.lean ====
section
/-! SUPPORT. What the operations of Machine/Window.lean keep: the queue, the order of time and a sound state. -/

namespace Sys2Proof.Machine

set_option linter.unusedTactic false
set_option linter.unreachableTactic false

theorem keeps_dropAhead (s : State) (w : Nat) (off : Nat) (n : Nat) {s0 : State}  (h : Keeps s0 s) :
    Keeps s0 (dropAhead s w off n) := by
  unfold dropAhead
  try extract_lets
  repeat' first
    | with_reducible assumption
    | with_reducible apply keeps_State_modLink

theorem keeps_holdAhead (s : State) (w : Nat) (off : Nat) (bs : List (BitVec 8)) {s0 : State}  (h : Keeps s0 s) :
    Keeps s0 (holdAhead s w off bs) := by
  unfold holdAhead
  try extract_lets
  repeat' first
    | with_reducible assumption
    | with_reducible apply keeps_State_modLink

theorem keeps_windowWrite (s : State) (w : Nat) (off : Nat) (bs : List (BitVec 8)) (why : Option NpFor) {s0 : State}  (h : Keeps s0 s) :
    Keeps s0 (windowWrite s w off bs why) := by
  unfold windowWrite
  try extract_lets
  repeat' first
    | with_reducible assumption
    | with_reducible apply keeps_dropAhead
    | with_reducible apply keeps_plaitNp
    | with_reducible apply keeps_plaitPost
    | (with_reducible refine Keeps.of_mk _ _ _ _ _ _ _ _ _ _ _ _ _ _ _ _ _ _ _ _ _ _ _ _ _ _ _ _ _ ?_ rfl rfl rfl rfl rfl rfl rfl rfl
       split)

theorem keeps_windowRead (s : State) (w : Nat) (off : Nat) (n : Nat) (why : NpFor) {s0 : State}  (h : Keeps s0 s) :
    Keeps s0 (windowRead s w off n why) := by
  unfold windowRead
  try extract_lets
  repeat' first
    | with_reducible assumption
    | with_reducible apply keeps_plaitNp
    | with_reducible apply Keeps.ite <;> intro _

theorem keeps_loadData (s : State) (bs : List (BitVec 8)) {s0 : State}  (h : Keeps s0 s) :
    Keeps s0 (loadData s bs) := by
  unfold loadData
  try extract_lets
  repeat' first
    | (with_reducible refine Keeps.of_mk _ _ _ _ _ _ _ _ _ _ _ _ _ _ _ _ _ _ _ _ _ _ _ _ _ _ _ _ _ ?_ rfl rfl rfl rfl rfl rfl rfl rfl
       with_reducible assumption)

theorem keeps_windowStore (s : State) (hart : BitVec 2) (w : Nat) (off : Nat) (n : Nat) (data : BitVec 64) {s0 : State}  (h : Keeps s0 s) :
    Keeps s0 (windowStore s hart w off n data) := by
  unfold windowStore
  try extract_lets
  repeat' first
    | with_reducible assumption
    | with_reducible apply keeps_windowWrite
    | with_reducible apply Keeps.ite <;> intro _

theorem keeps_windowLoad (s : State) (hart : BitVec 2) (w : Nat) (off : Nat) (n : Nat) {s0 : State}  (h : Keeps s0 s) :
    Keeps s0 (windowLoad s hart w off n) := by
  unfold windowLoad
  try extract_lets
  repeat' first
    | with_reducible assumption
    | with_reducible apply keeps_loadData
    | with_reducible apply keeps_windowRead
    | with_reducible apply Keeps.ite <;> intro _
    | (with_reducible refine Keeps.of_mk _ _ _ _ _ _ _ _ _ _ _ _ _ _ _ _ _ _ _ _ _ _ _ _ _ _ _ _ _ ?_ rfl rfl rfl rfl rfl rfl rfl rfl
       split)

theorem keeps_windowAccess (s : State) (hart : BitVec 2) (w : Nat) (off : Nat) (n : Nat) (atomic : Bool) (write : Bool) (data : BitVec 64) {s0 : State}  (h : Keeps s0 s) :
    Keeps s0 (windowAccess s hart w off n atomic write data) := by
  unfold windowAccess
  try extract_lets
  repeat' first
    | with_reducible assumption
    | with_reducible apply keeps_coreFault
    | with_reducible apply keeps_bridgeFault
    | with_reducible apply keeps_windowStore
    | with_reducible apply keeps_windowLoad
    | with_reducible apply keeps_startWake
    | with_reducible apply Keeps.ite <;> intro _
    | (with_reducible refine Keeps.of_mk _ _ _ _ _ _ _ _ _ _ _ _ _ _ _ _ _ _ _ _ _ _ _ _ _ _ _ _ _ ?_ rfl rfl rfl rfl rfl rfl rfl rfl
       first
         | with_reducible assumption
         | split
      )

theorem keeps_execWindowAccess (hart : BitVec 2) (worker : Fin 32) (offset : BitVec 25) (size : BitVec 4) (atomic : Bool) (write : Bool) (data : BitVec 64) (s : State) : OutKeeps s (execWindowAccess hart worker offset size atomic write data s) := by
  have h := Keeps.refl s
  unfold execWindowAccess
  show Keeps _ _
  repeat' first
    | with_reducible assumption
    | with_reducible apply keeps_windowAccess
    | with_reducible apply Keeps.ite <;> intro _

theorem keeps_execPrefetchBufferExpiry (worker : Fin 32) (block : BitVec 19) (s : State) : OutKeeps s (execPrefetchBufferExpiry worker block s) := by
  have h := Keeps.refl s
  unfold execPrefetchBufferExpiry
  show Keeps _ _
  try extract_lets
  repeat' first
    | with_reducible assumption
    | with_reducible apply keeps_dropAhead
    | with_reducible apply Keeps.reach
    | (with_reducible refine Keeps.of_mk _ _ _ _ _ _ _ _ _ _ _ _ _ _ _ _ _ _ _ _ _ _ _ _ _ _ _ _ _ ?_ rfl rfl rfl rfl rfl rfl rfl rfl
       split)

theorem keeps_copyStep (s : State) (d : Desc) (n : Nat) {s0 : State}  (h : Keeps s0 s) :
    Keeps s0 (copyStep s d n) := by
  unfold copyStep
  try extract_lets
  repeat' first
    | with_reducible assumption
    | with_reducible apply keeps_copyEnd
    | with_reducible apply keeps_State_setCopy
    | with_reducible apply Keeps.ite <;> intro _
    | (with_reducible refine Keeps.of_mk _ _ _ _ _ _ _ _ _ _ _ _ _ _ _ _ _ _ _ _ _ _ _ _ _ _ _ _ _ ?_ rfl rfl rfl rfl rfl rfl rfl rfl
       split)

theorem keeps_copyTake (s : State) (d : Desc) (pos : Nat) (bs : List (BitVec 8)) {s0 : State}  (h : Keeps s0 s) :
    Keeps s0 (copyTake s d pos bs) := by
  unfold copyTake
  try extract_lets
  repeat' first
    | with_reducible assumption
    | with_reducible apply keeps_putBytes
    | with_reducible apply keeps_copyEnd
    | with_reducible apply keeps_copyStep
    | with_reducible apply Keeps.ite <;> intro _
    | (with_reducible refine Keeps.of_mk _ _ _ _ _ _ _ _ _ _ _ _ _ _ _ _ _ _ _ _ _ _ _ _ _ _ _ _ _ ?_ rfl rfl rfl rfl rfl rfl rfl rfl
       split)

theorem keeps_copySend (s : State) (c : PCopy) (off : Nat) (pos : Nat) (n : Nat) (toWorker : Bool) {s0 : State}  (h : Keeps s0 s) :
    Keeps s0 (copySend s c off pos n toWorker) := by
  unfold copySend
  try extract_lets
  repeat' first
    | with_reducible assumption
    | with_reducible apply keeps_windowWrite
    | with_reducible apply keeps_State_setCopy
    | with_reducible apply keeps_copyTake
    | with_reducible apply keeps_windowRead
    | with_reducible apply Keeps.ite <;> intro _
    | (with_reducible refine Keeps.of_mk _ _ _ _ _ _ _ _ _ _ _ _ _ _ _ _ _ _ _ _ _ _ _ _ _ _ _ _ _ ?_ rfl rfl rfl rfl rfl rfl rfl rfl
       split)

theorem keeps_copyRun (toWorker : Bool) (d : Desc) (x0 : Nat) (x1 : Nat) (x2 : Nat) (x3 : Nat) (x4 : State) {s0 : State}  (h : Keeps s0 x4) :
    Keeps s0 (copyRun toWorker d x0 x1 x2 x3 x4) := by
  induction x0 generalizing toWorker d x1 x2 x3 x4 with
  | zero =>
    unfold copyRun
    try extract_lets
    repeat' first
      | with_reducible assumption
      | with_reducible apply ih
      | with_reducible apply keeps_copyEnd
      | with_reducible apply keeps_copySend
      | with_reducible apply Keeps.ite <;> intro _
      | (with_reducible refine Keeps.of_mk _ _ _ _ _ _ _ _ _ _ _ _ _ _ _ _ _ _ _ _ _ _ _ _ _ _ _ _ _ ?_ rfl rfl rfl rfl rfl rfl rfl rfl
         split)
  | succ k ih =>
    unfold copyRun
    try extract_lets
    repeat' first
      | with_reducible assumption
      | with_reducible apply ih
      | with_reducible apply keeps_copyEnd
      | with_reducible apply keeps_copySend
      | with_reducible apply Keeps.ite <;> intro _
      | (with_reducible refine Keeps.of_mk _ _ _ _ _ _ _ _ _ _ _ _ _ _ _ _ _ _ _ _ _ _ _ _ _ _ _ _ _ ?_ rfl rfl rfl rfl rfl rfl rfl rfl
         split)

theorem keeps_actPlaitCopy (worker : BitVec 5) (dir : BitVec 1) (offset : BitVec 25) (a : Act) (s : State) {s0 : State}  (h : Keeps s0 s) :
    Keeps s0 (actPlaitCopy worker dir offset a s) := by
  unfold actPlaitCopy
  try extract_lets
  repeat' first
    | with_reducible assumption
    | with_reducible apply keeps_refuse
    | with_reducible apply keeps_finish
    | with_reducible apply keeps_copyRun
    | with_reducible apply Keeps.ite <;> intro _
    | (with_reducible refine Keeps.of_mk _ _ _ _ _ _ _ _ _ _ _ _ _ _ _ _ _ _ _ _ _ _ _ _ _ _ _ _ _ ?_ rfl rfl rfl rfl rfl rfl rfl rfl
       with_reducible assumption)

theorem keeps_execPlaitCopy (d : Desc) (worker : BitVec 5) (dir : BitVec 1) (offset : BitVec 25) (s : State) : OutKeeps s (execPlaitCopy d worker dir offset s) := by
  have h := Keeps.refl s
  unfold execPlaitCopy
  show Keeps _ _
  repeat' first
    | with_reducible assumption
    | with_reducible apply keeps_accept
    | with_reducible apply keeps_actPlaitCopy
    | intro _ _ _

theorem keeps_actPlaitPing (worker : BitVec 5) (a : Act) (s : State) {s0 : State}  (h : Keeps s0 s) :
    Keeps s0 (actPlaitPing worker a s) := by
  unfold actPlaitPing
  repeat' first
    | with_reducible assumption
    | with_reducible apply keeps_refuse
    | with_reducible apply keeps_plaitNp
    | with_reducible apply Keeps.ite <;> intro _

theorem keeps_execPlaitPing (d : Desc) (worker : BitVec 5) (s : State) : OutKeeps s (execPlaitPing d worker s) := by
  have h := Keeps.refl s
  unfold execPlaitPing
  show Keeps _ _
  repeat' first
    | with_reducible assumption
    | with_reducible apply keeps_accept
    | with_reducible apply keeps_actPlaitPing
    | intro _ _ _

theorem keeps_actPlaitDrop (worker : BitVec 5) (a : Act) (s : State) {s0 : State}  (h : Keeps s0 s) :
    Keeps s0 (actPlaitDrop worker a s) := by
  unfold actPlaitDrop
  repeat' first
    | with_reducible assumption
    | with_reducible apply keeps_refuse
    | with_reducible apply keeps_finish
    | with_reducible apply keeps_linkDown
    | with_reducible apply Keeps.ite <;> intro _

theorem keeps_execPlaitDrop (d : Desc) (worker : BitVec 5) (s : State) : OutKeeps s (execPlaitDrop d worker s) := by
  have h := Keeps.refl s
  unfold execPlaitDrop
  show Keeps _ _
  repeat' first
    | with_reducible assumption
    | with_reducible apply keeps_accept
    | with_reducible apply keeps_actPlaitDrop
    | intro _ _ _

end Sys2Proof.Machine
end

