-- ==== Sys2Proof/Laws/KeepsHost.lean ====
section
/-! SUPPORT. What the operations of Machine/Host.lean keep: the queue, the order of time and a sound state. -/

namespace Sys2Proof.Machine

set_option linter.unusedTactic false
set_option linter.unreachableTactic false

theorem keeps_cancelQueued (s : State) (e : Launch) {s0 : State} (h : Keeps s0 s) : OptKeeps s0 (cancelQueued s e) := by
  unfold cancelQueued
  split
  · exact True.intro
  · refine OptKeeps.ite (fun _ => True.intro) (fun _ => ?_)
    split
    · exact keeps_cancelLaunch _ _ _ (keeps_unsealStage _ (keeps_unqueue _ _ h))
    · split
      · exact OptKeeps.ite (fun _ => keeps_fleetEnd _ _ _ _ h) (fun _ => True.intro)
      · exact keeps_cancelLaunch _ _ _ (keeps_unqueue _ _ h)
    · exact keeps_cancelLaunch _ _ _ (keeps_unqueue _ _ h)

theorem keeps_cancelEnds (s : State) (a : Act) (o : Option State) {s0 : State} (h : Keeps s0 s) (k : OptKeeps s0 o) :
    Keeps s0 (cancelEnds s a o) := by
  cases o with
  | none => exact keeps_refuse _ _ _ _ _ _ h
  | some t => exact keeps_finish _ _ _ _ _ k

theorem keeps_actLaunchCancel (ring : BitVec 7) (index : BitVec 12) (a : Act) (s : State) {s0 : State} (h : Keeps s0 s) :
    Keeps s0 (actLaunchCancel ring index a s) := by
  unfold actLaunchCancel
  split
  · exact keeps_cancelEnds _ _ _ h (keeps_cancelQueued _ _ h)
  · split
    · exact (keeps_canCancel _ _ _ h).getD (keeps_refuse _ _ _ _ _ _ h)
    · exact keeps_refuse _ _ _ _ _ _ h

theorem keeps_execLaunchCancel (d : Desc) (ring : BitVec 7) (index : BitVec 12) (s : State) : OutKeeps s (execLaunchCancel d ring index s) := by
  have h := Keeps.refl s
  unfold execLaunchCancel
  show Keeps _ _
  repeat' first
    | with_reducible assumption
    | with_reducible apply keeps_accept
    | with_reducible apply keeps_actLaunchCancel
    | intro _ _ _

theorem keeps_blockCancel (s : State) (d : Desc) {s0 : State} (h : Keeps s0 s) : OptKeeps s0 (blockCancel s d) := by
  have done : ∀ u, Keeps s0 u →
      Keeps s0 (complete u d stCancelled 0 (if d.due == 0 then u.weave.time.toNat else 0) 0 0) :=
    fun u k => keeps_complete _ _ _ _ _ _ _ k
  unfold blockCancel
  dsimp only
  refine OptKeeps.ite (fun _ => done _ (h.of_same rfl rfl rfl rfl rfl rfl rfl rfl)) (fun _ =>
    OptKeeps.ite (fun _ => done _ (h.of_same rfl rfl rfl rfl rfl rfl rfl rfl)) (fun _ =>
    OptKeeps.ite (fun _ => done _ (h.of_same rfl rfl rfl rfl rfl rfl rfl rfl)) (fun _ => ?_)))
  split
  · exact done _ (keeps_dropShots _ _ (h.of_same rfl rfl rfl rfl rfl rfl rfl rfl))
  · refine OptKeeps.ite (fun _ => done _ (h.of_same rfl rfl rfl rfl rfl rfl rfl rfl)) (fun _ =>
      OptKeeps.ite (fun _ => done _ (keeps_unsealStage _ h)) (fun _ => ?_))
    split
    · exact done _ (Keeps.foldl _ _ (fun _ _ k => keeps_dropWait _ _ _ k) (h.of_same rfl rfl rfl rfl rfl rfl rfl rfl))
    · split
      · exact keeps_dropWait _ _ _ h
      · exact keeps_tpCancel _ _ h

theorem keeps_actDescCancel (ring : BitVec 7) (index : BitVec 12) (a : Act) (s : State) {s0 : State} (h : Keeps s0 s) :
    Keeps s0 (actDescCancel ring index a s) := by
  have later : ∀ n f, Keeps s0 (finish (s.modRing n f) a) :=
    fun n f => keeps_finish _ _ _ _ _ (keeps_State_modRing _ _ _ h)
  unfold actDescCancel
  dsimp only
  split
  · exact keeps_finish _ _ _ _ _ (keeps_complete _ _ _ _ _ _ _ (keeps_State_modRing _ _ _ h))
  · split
    · exact later _ _
    · split
      · exact keeps_cancelEnds _ _ _ h (keeps_cancelQueued _ _ h)
      · split
        · split
          · exact OptKeeps.elim (keeps_canCancel _ _ _ h) (by assumption)
          · exact keeps_cancelEnds _ _ _ h (keeps_blockCancel _ _ h)
        · split
          · exact later _ _
          · exact keeps_refuse _ _ _ _ _ _ h

theorem keeps_execDescCancel (d : Desc) (ring : BitVec 7) (index : BitVec 12) (s : State) : OutKeeps s (execDescCancel d ring index s) := by
  have h := Keeps.refl s
  unfold execDescCancel
  show Keeps _ _
  repeat' first
    | with_reducible assumption
    | with_reducible apply keeps_accept
    | with_reducible apply keeps_actDescCancel
    | intro _ _ _

theorem keeps_actHost (x0 : HostCmd) (x1 : Act) (x2 : State) {s0 : State}  (h : Keeps s0 x2) :
    Keeps s0 (actHost x0 x1 x2) := by
  unfold actHost
  repeat' first
    | with_reducible assumption
    | with_reducible apply keeps_actModeSet
    | with_reducible apply keeps_actPerfSet
    | with_reducible apply keeps_actDomainSet
    | with_reducible apply keeps_actNeedSet
    | with_reducible apply keeps_actWallSet
    | with_reducible apply keeps_actCaptureArm
    | with_reducible apply keeps_actLaunchCancel
    | with_reducible apply keeps_actRxPost
    | with_reducible apply keeps_actDescCancel
    | with_reducible apply keeps_actNop
    | with_reducible apply keeps_actConfigStage
    | with_reducible apply keeps_actConfigLoad
    | with_reducible apply keeps_actStageDiscard
    | with_reducible apply keeps_actCommit
    | with_reducible apply keeps_actFleetCommit
    | with_reducible apply keeps_actFleetAbort
    | with_reducible apply keeps_actConfigExport
    | with_reducible apply keeps_actHsoSet
    | with_reducible apply keeps_actHsoMulti
    | with_reducible apply keeps_actHsoClear
    | with_reducible apply keeps_actHsoRead
    | with_reducible apply keeps_actHsoOltest
    | with_reducible apply keeps_actEdgePin
    | with_reducible apply keeps_actEdgeUnpin
    | with_reducible apply keeps_actVlvStart
    | with_reducible apply keeps_actVlvMulti
    | with_reducible apply keeps_actVlvStop
    | with_reducible apply keeps_actVlvClear
    | with_reducible apply keeps_actVlvRead
    | with_reducible apply keeps_actVlvOfftest
    | with_reducible apply keeps_actFacetLoad
    | with_reducible apply keeps_actFacetVerify
    | with_reducible apply keeps_actFacetPeek
    | with_reducible apply keeps_actLedSet
    | with_reducible apply keeps_actLedMulti
    | with_reducible apply keeps_actLedClear
    | with_reducible apply keeps_actLedRead
    | with_reducible apply keeps_actColourCtl
    | with_reducible apply keeps_actMtxWrite
    | with_reducible apply keeps_actMtxSwap
    | with_reducible apply keeps_actMtxBlank
    | with_reducible apply keeps_actMtxClear
    | with_reducible apply keeps_actFioSet
    | with_reducible apply keeps_actFioMulti
    | with_reducible apply keeps_actFioClear
    | with_reducible apply keeps_actFioRead
    | with_reducible apply keeps_actCanTx
    | with_reducible apply keeps_actCanTpTx
    | with_reducible apply keeps_actCanMode
    | with_reducible apply keeps_actCanRecover
    | with_reducible apply keeps_actCanTtWrite
    | with_reducible apply keeps_actCanAc
    | with_reducible apply keeps_actCanRead
    | with_reducible apply keeps_actNetHold
    | with_reducible apply keeps_actNetWake
    | with_reducible apply keeps_actNetBarClear
    | with_reducible apply keeps_actNetRead
    | with_reducible apply keeps_actPlaitCopy
    | with_reducible apply keeps_actPlaitPing
    | with_reducible apply keeps_actPlaitDrop
    | with_reducible apply keeps_actAccPair
    | with_reducible apply keeps_actAccUnpair
    | with_reducible apply keeps_actAccTakeover
    | with_reducible apply keeps_actAccOwnerLock
    | with_reducible apply keeps_actAccSearch
    | with_reducible apply keeps_actAccRead
    | with_reducible apply keeps_actAccRelKey
    | with_reducible apply keeps_actBezelReclaim
    | with_reducible apply keeps_actBezelLogRead
    | with_reducible apply keeps_actBezelResetReq
    | with_reducible apply keeps_actLoupeRead
    | with_reducible apply keeps_actLoupeClear
    | with_reducible apply keeps_actLoupeMark
    | with_reducible apply keeps_actUpdBegin
    | with_reducible apply keeps_actUpdBlock
    | with_reducible apply keeps_actUpdVerify
    | with_reducible apply keeps_actUpdActivate
    | with_reducible apply keeps_actUpdConfirm
    | with_reducible apply keeps_actUpdAbort
    | with_reducible apply keeps_actUpdOemKey
    | with_reducible apply keeps_actSetWrite
    | with_reducible apply keeps_actSetRead
    | with_reducible apply keeps_actEccInject
    | (with_reducible refine Keeps.of_mk _ _ _ _ _ _ _ _ _ _ _ _ _ _ _ _ _ _ _ _ _ _ _ _ _ _ _ _ _ ?_ rfl rfl rfl rfl rfl rfl rfl rfl
       split)

theorem keeps_enterHost (d : Desc) (x0 : HostCmd) (x1 : State) {s0 : State}  (h : Keeps s0 x1) :
    Keeps s0 (enterHost d x0 x1) := by
  unfold enterHost
  repeat' first
    | with_reducible assumption
    | with_reducible apply keeps_sealStage
    | with_reducible apply keeps_fleetEnter
    | (with_reducible refine Keeps.of_mk _ _ _ _ _ _ _ _ _ _ _ _ _ _ _ _ _ _ _ _ _ _ _ _ _ _ _ _ _ ?_ rfl rfl rfl rfl rfl rfl rfl rfl
       split)
    | assumption

theorem keeps_acceptHost (d : Desc) (c : HostCmd) (s : State) {s0 : State} (h : Keeps s0 s) :
    Keeps s0 (acceptHost d c s) :=
  keeps_acceptWith _ _ _ _ _ _ (fun a _ k => keeps_actHost c a _ k) (fun _ k => keeps_enterHost d c _ k) h

theorem keeps_acceptLater (s : State) (d : Desc) (c : HostCmd) {s0 : State} (h : Keeps s0 s) :
    Keeps s0 (acceptLater s d c) := by
  have h1 : Keeps s0 (outstand s d c.block c.opcode) := keeps_outstand _ _ _ _ h
  refine Keeps.ite (fun _ => keeps_complete _ _ _ _ _ _ _ (keeps_State_modRing _ _ _ h1)) (fun _ => ?_)
  exact keeps_acceptNow _ _ _ _ _ _ (fun a _ k => keeps_actHost c a _ k) (fun _ k => keeps_enterHost d c _ k) h1

theorem keeps_releaseRing (n : Nat) (x0 : Nat) (x1 : State) {s0 : State}  (h : Keeps s0 x1) :
    Keeps s0 (releaseRing n x0 x1) := by
  induction x0 generalizing n x1 with
  | zero =>
    unfold releaseRing
    try extract_lets
    repeat' first
      | with_reducible assumption
      | with_reducible apply ih
      | with_reducible apply keeps_acceptLater
      | with_reducible apply keeps_State_modRing
      | with_reducible apply Keeps.ite <;> intro _
      | (with_reducible refine Keeps.of_mk _ _ _ _ _ _ _ _ _ _ _ _ _ _ _ _ _ _ _ _ _ _ _ _ _ _ _ _ _ ?_ rfl rfl rfl rfl rfl rfl rfl rfl
         split)
  | succ k ih =>
    unfold releaseRing
    try extract_lets
    repeat' first
      | with_reducible assumption
      | with_reducible apply ih
      | with_reducible apply keeps_acceptLater
      | with_reducible apply keeps_State_modRing
      | with_reducible apply Keeps.ite <;> intro _
      | (with_reducible refine Keeps.of_mk _ _ _ _ _ _ _ _ _ _ _ _ _ _ _ _ _ _ _ _ _ _ _ _ _ _ _ _ _ ?_ rfl rfl rfl rfl rfl rfl rfl rfl
         split)

theorem keeps_releaseAll (s : State) {s0 : State}  (h : Keeps s0 s) :
    Keeps s0 (releaseAll s) := by
  unfold releaseAll
  repeat' first
    | with_reducible assumption
    | with_reducible apply Keeps.foldl
    | with_reducible apply keeps_releaseRing
    | with_reducible apply Keeps.ite <;> intro _
    | intro _ _ _

theorem keeps_fetchFails (s : State) (d : Desc) (status : Nat) (block : Nat) (opcode : Nat) {s0 : State}  (h : Keeps s0 s) :
    Keeps s0 (fetchFails s d status block opcode) := by
  unfold fetchFails
  repeat' first
    | with_reducible assumption
    | with_reducible apply keeps_failCheck
    | with_reducible apply keeps_outstand

theorem keeps_fetchPayload (s : State) (d : Desc) (c : HostCmd) {s0 : State}  (h : Keeps s0 s) :
    Keeps s0 (fetchPayload s d c) := by
  unfold fetchPayload
  try extract_lets
  repeat' first
    | with_reducible assumption
    | with_reducible apply keeps_plaitNp

theorem keeps_takeDesc (s : State) (ring : Fin 128) (index : BitVec 16) (bs : List (BitVec 8)) {s0 : State}  (h : Keeps s0 s) :
    Keeps s0 (takeDesc s ring index bs) := by
  unfold takeDesc
  try extract_lets
  repeat' first
    | with_reducible assumption
    | with_reducible apply keeps_logEvent
    | with_reducible apply keeps_fetchFails
    | with_reducible apply keeps_fetchPayload
    | with_reducible apply keeps_acceptHost
    | with_reducible apply Keeps.ite <;> intro _
    | (with_reducible refine Keeps.of_mk _ _ _ _ _ _ _ _ _ _ _ _ _ _ _ _ _ _ _ _ _ _ _ _ _ _ _ _ _ ?_ rfl rfl rfl rfl rfl rfl rfl rfl
       split)

theorem keeps_fetchOne (s : State) (prio : Nat) (ring : Fin 128) {s0 : State}  (h : Keeps s0 s) :
    Keeps s0 (fetchOne s prio ring) := by
  unfold fetchOne
  try extract_lets
  repeat' first
    | with_reducible assumption
    | with_reducible apply keeps_startWake
    | with_reducible apply keeps_State_modRing
    | with_reducible apply keeps_plaitNp
    | with_reducible apply keeps_readMem
    | with_reducible apply keeps_logEvent
    | with_reducible apply keeps_fetchFails
    | with_reducible apply keeps_takeDesc
    | with_reducible apply Keeps.ite <;> intro _
    | (with_reducible refine Keeps.of_mk _ _ _ _ _ _ _ _ _ _ _ _ _ _ _ _ _ _ _ _ _ _ _ _ _ _ _ _ _ ?_ rfl rfl rfl rfl rfl rfl rfl rfl
       first
         | with_reducible assumption
         | split
      )

theorem keeps_execDescriptorFetch (s : State) : OutKeeps s (execDescriptorFetch s) := by
  have h := Keeps.refl s
  unfold execDescriptorFetch
  show Keeps _ _
  try extract_lets
  repeat' first
    | with_reducible assumption
    | with_reducible apply keeps_releaseAll
    | with_reducible apply keeps_fetchOne
    | (with_reducible refine Keeps.of_mk _ _ _ _ _ _ _ _ _ _ _ _ _ _ _ _ _ _ _ _ _ _ _ _ _ _ _ _ _ ?_ rfl rfl rfl rfl rfl rfl rfl rfl
       split)

end Sys2Proof.Machine
end

