-- ==== Sys2Proof/Laws/KeepsFire.lean ====
section
/-! SUPPORT. What the operations of Machine/Fire.lean keep: the queue, the order of time and a sound state. -/

namespace Sys2Proof.Machine

set_option linter.unusedTactic false
set_option linter.unreachableTactic false

theorem keeps_mixPayload (s : State) (a : Nat) (old : List (BitVec 8)) (new : List (BitVec 8)) (x0 : Nat) {s0 : State}  (h : Keeps s0 s) :
    Keeps s0 (mixPayload s a old new x0).2 := by
  induction x0 generalizing s a old new with
  | zero =>
    unfold mixPayload
    try extract_lets
    repeat' first
      | with_reducible assumption
      | with_reducible apply ih
      | with_reducible apply keeps_State_takeBit
      | with_reducible apply Keeps.ite_snd <;> intro _
  | succ k ih =>
    unfold mixPayload
    try extract_lets
    repeat' first
      | with_reducible assumption
      | with_reducible apply ih
      | with_reducible apply keeps_State_takeBit
      | with_reducible apply Keeps.ite_snd <;> intro _

theorem keeps_launchPayload (s : State) (e : Launch) (d : Desc) (c : HostCmd) {s0 : State}  (h : Keeps s0 s) :
    Keeps s0 (launchPayload s e d c).2 := by
  unfold launchPayload
  try extract_lets
  repeat' first
    | with_reducible assumption
    | with_reducible apply keeps_readMem
    | with_reducible apply keeps_mixPayload
    | with_reducible apply Keeps.ite_snd <;> intro _
    | (with_reducible refine Keeps.of_mk _ _ _ _ _ _ _ _ _ _ _ _ _ _ _ _ _ _ _ _ _ _ _ _ _ _ _ _ _ ?_ rfl rfl rfl rfl rfl rfl rfl rfl
       split)

theorem keeps_launchAct (s : State) (e : Launch) (d : Desc) (c : HostCmd) (late : Bool) {s0 : State}  (h : Keeps s0 s) :
    Keeps s0 (launchAct s e d c late) := by
  unfold launchAct
  try extract_lets
  repeat' first
    | with_reducible assumption
    | with_reducible apply keeps_launchPayload
    | with_reducible apply keeps_complete
    | with_reducible apply keeps_actHost
    | (with_reducible refine Keeps.of_mk _ _ _ _ _ _ _ _ _ _ _ _ _ _ _ _ _ _ _ _ _ _ _ _ _ _ _ _ _ ?_ rfl rfl rfl rfl rfl rfl rfl rfl
       split)

theorem keeps_fireEntry (s : State) (e : Launch) {s0 : State}  (h : Keeps s0 s) :
    Keeps s0 (fireEntry s e) := by
  unfold fireEntry
  try extract_lets
  repeat' first
    | with_reducible assumption
    | with_reducible apply keeps_actFleetApply
    | with_reducible apply keeps_launchAct
    | with_reducible apply keeps_complete
    | with_reducible apply keeps_startWake
    | with_reducible apply Keeps.ite <;> intro _
    | (with_reducible refine Keeps.of_mk _ _ _ _ _ _ _ _ _ _ _ _ _ _ _ _ _ _ _ _ _ _ _ _ _ _ _ _ _ ?_ rfl rfl rfl rfl rfl rfl rfl rfl
       first
         | with_reducible assumption
         | split
      )

theorem keeps_fireTick (s : State) {s0 : State}  (h : Keeps s0 s) :
    Keeps s0 (fireTick s) := by
  unfold fireTick
  try extract_lets
  repeat' first
    | with_reducible assumption
    | with_reducible apply Keeps.foldl
    | with_reducible apply keeps_fireEntry
    | intro _ _ _
    | (with_reducible refine Keeps.of_mk _ _ _ _ _ _ _ _ _ _ _ _ _ _ _ _ _ _ _ _ _ _ _ _ _ _ _ _ _ ?_ rfl rfl rfl rfl rfl rfl rfl rfl
       first
         | with_reducible apply Keeps.reachWeave
         | split
      )

theorem keeps_execLaunchFire (s : State) : OutKeeps s (execLaunchFire s) := by
  have h := Keeps.refl s
  unfold execLaunchFire
  show Keeps _ _
  repeat' first
    | with_reducible assumption
    | with_reducible apply keeps_fireTick
    | with_reducible apply Keeps.ite <;> intro _

theorem keeps_fireWaiting (s : State) (dom : Dom) {s0 : State}  (h : Keeps s0 s) :
    Keeps s0 (fireWaiting s dom) := by
  unfold fireWaiting
  try extract_lets
  repeat' first
    | with_reducible assumption
    | with_reducible apply Keeps.foldl
    | with_reducible apply keeps_countLate
    | with_reducible apply keeps_launchAct
    | with_reducible apply keeps_complete
    | with_reducible apply Keeps.ite <;> intro _
    | intro _ _ _
    | (with_reducible refine Keeps.of_mk _ _ _ _ _ _ _ _ _ _ _ _ _ _ _ _ _ _ _ _ _ _ _ _ _ _ _ _ _ ?_ rfl rfl rfl rfl rfl rfl rfl rfl
       first
         | with_reducible assumption
         | split
      )

theorem keeps_schedSync (s : State) {s0 : State}  (h : Keeps s0 s) :
    Keeps s0 (schedSync s) := by
  unfold schedSync
  repeat' first
    | with_reducible assumption
    | with_reducible apply Keeps.foldl
    | with_reducible apply keeps_schedCheck
    | intro _ _ _

theorem keeps_execSyncRx (offset : Int) (interval : Fin 6) (s : State) : OutKeeps s (execSyncRx offset interval s) := by
  have h := Keeps.refl s
  unfold execSyncRx
  show Keeps _ _
  repeat' first
    | with_reducible assumption
    | with_reducible apply Keeps.foldl
    | with_reducible apply keeps_schedStop
    | with_reducible apply keeps_planStep
    | with_reducible apply keeps_syncRx
    | with_reducible apply keeps_schedSync
    | with_reducible apply Keeps.ite <;> intro _
    | intro _ _ _

theorem keeps_execHoldoverExpiry (s : State) : OutKeeps s (execHoldoverExpiry s) := by
  have h := Keeps.refl s
  unfold execHoldoverExpiry
  show Keeps _ _
  try extract_lets
  repeat' first
    | with_reducible assumption
    | with_reducible apply keeps_setSync
    | with_reducible apply Keeps.reach
    | with_reducible apply keeps_schedSync
    | with_reducible apply keeps_logEvent
    | with_reducible apply Keeps.ite <;> intro _

end Sys2Proof.Machine
end

