-- ==== Sys2Proof/Laws/KeepsPlaitBus.lean ====
section
/-! SUPPORT. What the operations of Machine/PlaitBus.lean keep: the queue, the order of time and a sound state. -/

namespace Sys2Proof.Machine

set_option linter.unusedTactic false
set_option linter.unreachableTactic false

theorem keeps_regsWrite (s : State) (a : Nat) (x0 : List (BitVec 32)) {s0 : State}  (h : Keeps s0 s) :
    Keeps s0 (regsWrite s a x0) := by
  induction x0 generalizing s a with
  | nil =>
    unfold regsWrite
    repeat' first
      | with_reducible assumption
      | with_reducible apply ih
      | with_reducible apply keeps_regWrite
  | cons k l ih =>
    unfold regsWrite
    repeat' first
      | with_reducible assumption
      | with_reducible apply ih
      | with_reducible apply keeps_regWrite

theorem keeps_regsRead (s : State) (a : Nat) (x0 : Nat) {s0 : State}  (h : Keeps s0 s) :
    Keeps s0 (regsRead s a x0).2 := by
  induction x0 generalizing s a with
  | zero =>
    unfold regsRead
    try extract_lets
    repeat' first
      | with_reducible assumption
      | with_reducible apply ih
      | with_reducible apply keeps_regLoad
  | succ k ih =>
    unfold regsRead
    try extract_lets
    repeat' first
      | with_reducible assumption
      | with_reducible apply ih
      | with_reducible apply keeps_regLoad

theorem keeps_watchLocal (s : State) (a : Nat) (n : Nat) (data : Nat) {s0 : State}  (h : Keeps s0 s) :
    Keeps s0 (watchLocal s a n data) := by
  unfold watchLocal
  try extract_lets
  repeat' first
    | with_reducible assumption
    | with_reducible apply keeps_watchStore
    | with_reducible apply Keeps.ite <;> intro _

theorem keeps_workerWrite (s : State) (off : Nat) (bs : List (BitVec 8)) {s0 : State}  (h : Keeps s0 s) :
    Keeps s0 (workerWrite s off bs).2 := by
  unfold workerWrite
  try extract_lets
  repeat' first
    | with_reducible assumption
    | with_reducible apply keeps_regsWrite
    | with_reducible apply keeps_writeMem
    | with_reducible apply keeps_watchLocal
    | with_reducible apply Keeps.ite_snd <;> intro _
    | (with_reducible refine Keeps.of_mk _ _ _ _ _ _ _ _ _ _ _ _ _ _ _ _ _ _ _ _ _ _ _ _ _ _ _ _ _ ?_ rfl rfl rfl rfl rfl rfl rfl rfl
       split)

theorem keeps_workerRead (s : State) (off : Nat) (n : Nat) (pref : Bool) {s0 : State}  (h : Keeps s0 s) :
    Keeps s0 (workerRead s off n pref).2 := by
  unfold workerRead
  try extract_lets
  repeat' first
    | with_reducible assumption
    | with_reducible apply keeps_logEvent
    | with_reducible apply keeps_regsRead
    | with_reducible apply keeps_readMem
    | with_reducible apply Keeps.ite_snd <;> intro _
    | (with_reducible refine Keeps.of_mk _ _ _ _ _ _ _ _ _ _ _ _ _ _ _ _ _ _ _ _ _ _ _ _ _ _ _ _ _ ?_ rfl rfl rfl rfl rfl rfl rfl rfl
       split)
    | extract_lets

theorem keeps_managerWrite (s : State) (w : Nat) (a : Nat) (bs : List (BitVec 8)) {s0 : State}  (h : Keeps s0 s) :
    Keeps s0 (managerWrite s w a bs).2 := by
  unfold managerWrite
  try extract_lets
  repeat' first
    | with_reducible assumption
    | with_reducible apply keeps_logEvent
    | with_reducible apply keeps_writeMem
    | with_reducible apply Keeps.ite_snd <;> intro _

theorem keeps_managerRead (s : State) (w : Nat) (a : Nat) (n : Nat) {s0 : State}  (h : Keeps s0 s) :
    Keeps s0 (managerRead s w a n).2 := by
  unfold managerRead
  try extract_lets
  repeat' first
    | with_reducible assumption
    | with_reducible apply keeps_logEvent
    | with_reducible apply keeps_readMem
    | with_reducible apply Keeps.ite_snd <;> intro _
    | (with_reducible refine Keeps.of_mk _ _ _ _ _ _ _ _ _ _ _ _ _ _ _ _ _ _ _ _ _ _ _ _ _ _ _ _ _ ?_ rfl rfl rfl rfl rfl rfl rfl rfl
       split)

theorem keeps_request (s : State) (w : Nat) (f : PlaitFrame) (fail : Option Nat) {s0 : State}  (h : Keeps s0 s) :
    Keeps s0 (request s w f fail).2 := by
  unfold request
  try extract_lets
  repeat' first
    | with_reducible assumption
    | with_reducible apply keeps_workerRead
    | with_reducible apply keeps_workerWrite
    | with_reducible apply keeps_managerRead
    | with_reducible apply keeps_managerWrite
    | with_reducible apply Keeps.ite_snd <;> intro _
    | (with_reducible refine Keeps.of_mk _ _ _ _ _ _ _ _ _ _ _ _ _ _ _ _ _ _ _ _ _ _ _ _ _ _ _ _ _ ?_ rfl rfl rfl rfl rfl rfl rfl rfl
       split)

theorem keeps_takePosted (s : State) (w : Nat) (f : PlaitFrame) (fail : Option Nat) {s0 : State}  (h : Keeps s0 s) :
    Keeps s0 (takePosted s w f fail) := by
  unfold takePosted
  try extract_lets
  repeat' first
    | with_reducible assumption
    | with_reducible apply keeps_request
    | with_reducible apply keeps_logEvent
    | with_reducible apply Keeps.ite <;> intro _
    | (with_reducible refine Keeps.of_mk _ _ _ _ _ _ _ _ _ _ _ _ _ _ _ _ _ _ _ _ _ _ _ _ _ _ _ _ _ ?_ rfl rfl rfl rfl rfl rfl rfl rfl
       with_reducible apply keeps_request)

theorem keeps_takeNp (s : State) (w : Nat) (f : PlaitFrame) (fail : Option Nat) {s0 : State}  (h : Keeps s0 s) :
    Keeps s0 (takeNp s w f fail) := by
  unfold takeNp
  try extract_lets
  repeat' first
    | with_reducible assumption
    | with_reducible apply keeps_request
    | with_reducible apply keeps_plaitSend

theorem keeps_pingDone (s : State) (w : Nat) (o : NpOut) (a : Act) {s0 : State}  (h : Keeps s0 s) :
    Keeps s0 (pingDone s w o a) := by
  unfold pingDone
  try extract_lets
  repeat' first
    | with_reducible assumption
    | with_reducible apply keeps_finish
    | with_reducible apply keeps_State_modLink

theorem keeps_cplDone (s : State) (w : Nat) (o : NpOut) (bs : List (BitVec 8)) {s0 : State}  (h : Keeps s0 s) :
    Keeps s0 (cplDone s w o bs) := by
  unfold cplDone
  try extract_lets
  repeat' first
    | with_reducible assumption
    | with_reducible apply keeps_loadData
    | with_reducible apply keeps_windowWrite
    | with_reducible apply keeps_windowRead
    | with_reducible apply keeps_copyStep
    | with_reducible apply keeps_copyTake
    | with_reducible apply keeps_pingDone
    | with_reducible apply keeps_takeDesc
    | with_reducible apply keeps_fetchPayload
    | with_reducible apply keeps_acceptHost
    | with_reducible apply Keeps.ite <;> intro _
    | (with_reducible refine Keeps.of_mk _ _ _ _ _ _ _ _ _ _ _ _ _ _ _ _ _ _ _ _ _ _ _ _ _ _ _ _ _ ?_ rfl rfl rfl rfl rfl rfl rfl rfl
       split)

theorem keeps_takeCpl (s : State) (w : Nat) (f : PlaitFrame) {s0 : State}  (h : Keeps s0 s) :
    Keeps s0 (takeCpl s w f) := by
  unfold takeCpl
  try extract_lets
  repeat' first
    | with_reducible assumption
    | with_reducible apply keeps_State_modLink
    | with_reducible apply keeps_npFail
    | with_reducible apply keeps_cplDone
    | with_reducible apply keeps_holdAhead
    | with_reducible apply Keeps.ite <;> intro _
    | (with_reducible refine Keeps.of_mk _ _ _ _ _ _ _ _ _ _ _ _ _ _ _ _ _ _ _ _ _ _ _ _ _ _ _ _ _ ?_ rfl rfl rfl rfl rfl rfl rfl rfl
       split)

theorem keeps_kl15Mgr (s : State) (on : Bool) {s0 : State}  (h : Keeps s0 s) :
    Keeps s0 (kl15Mgr s on) := by
  unfold kl15Mgr
  try extract_lets
  repeat' first
    | with_reducible apply keeps_netKl15
    | with_reducible apply keeps_judge
    | with_reducible apply keeps_wakeUp
    | with_reducible apply Keeps.ite <;> intro _
    | (with_reducible refine Keeps.of_mk _ _ _ _ _ _ _ _ _ _ _ _ _ _ _ _ _ _ _ _ _ _ _ _ _ _ _ _ _ ?_ rfl rfl rfl rfl rfl rfl rfl rfl
       first
         | with_reducible assumption
         | with_reducible apply keeps_netKl15
      )

theorem keeps_takeDoorbell (s : State) (bs : List (BitVec 8)) {s0 : State}  (h : Keeps s0 s) :
    Keeps s0 (takeDoorbell s bs) := by
  unfold takeDoorbell
  try extract_lets
  repeat' first
    | with_reducible assumption
    | with_reducible apply keeps_writeMem
    | with_reducible apply keeps_watchLocal
    | with_reducible apply Keeps.ite <;> intro _

theorem keeps_workerMsg (s : State) (f : PlaitFrame) {s0 : State}  (h : Keeps s0 s) :
    Keeps s0 (workerMsg s f) := by
  unfold workerMsg
  try extract_lets
  repeat' first
    | with_reducible assumption
    | with_reducible apply keeps_takeDoorbell
    | with_reducible apply keeps_fleetPrepare
    | with_reducible apply keeps_fleetApply
    | with_reducible apply keeps_fleetAbort
    | with_reducible apply keeps_kl15Mgr
    | with_reducible apply keeps_linkDown
    | (with_reducible refine Keeps.of_mk _ _ _ _ _ _ _ _ _ _ _ _ _ _ _ _ _ _ _ _ _ _ _ _ _ _ _ _ _ ?_ rfl rfl rfl rfl rfl rfl rfl rfl
       split)
    | dsimp +zetaDelta only

theorem keeps_managerMsg (s : State) (w : Nat) (f : PlaitFrame) {s0 : State}  (h : Keeps s0 s) :
    Keeps s0 (managerMsg s w f) := by
  unfold managerMsg
  try extract_lets
  repeat' first
    | with_reducible assumption
    | with_reducible apply keeps_workerEvent
    | with_reducible apply keeps_raiseBlock
    | with_reducible apply keeps_State_modLink
    | with_reducible apply keeps_fleetVote
    | with_reducible apply keeps_fleetAck
    | with_reducible apply keeps_linkDown
    | with_reducible apply Keeps.ite <;> intro _
    | (with_reducible refine Keeps.of_mk _ _ _ _ _ _ _ _ _ _ _ _ _ _ _ _ _ _ _ _ _ _ _ _ _ _ _ _ _ ?_ rfl rfl rfl rfl rfl rfl rfl rfl
       split)
    | extract_lets
    | dsimp +zetaDelta only

theorem keeps_freeCredits (s : State) (w : Nat) (f : PlaitFrame) {s0 : State}  (h : Keeps s0 s) :
    Keeps s0 (freeCredits s w f) := by
  unfold freeCredits
  try extract_lets
  repeat' first
    | with_reducible assumption
    | with_reducible apply keeps_State_modLink

theorem keeps_npsFail (s : State) (w : Nat) (tag : BitVec 11) (st : Nat) {s0 : State}  (h : Keeps s0 s) :
    Keeps s0 (npsFail s w tag st) := by
  unfold npsFail
  try extract_lets
  repeat' first
    | with_reducible assumption
    | with_reducible apply keeps_npFail
    | with_reducible apply keeps_State_modLink
    | (with_reducible refine Keeps.of_mk _ _ _ _ _ _ _ _ _ _ _ _ _ _ _ _ _ _ _ _ _ _ _ _ _ _ _ _ _ ?_ rfl rfl rfl rfl rfl rfl rfl rfl
       split)

theorem keeps_takeFrame (s : State) (w : Nat) (f : PlaitFrame) (fail : Option Nat) {s0 : State}  (h : Keeps s0 s) :
    Keeps s0 (takeFrame s w f fail) := by
  unfold takeFrame
  try extract_lets
  repeat' first
    | with_reducible assumption
    | with_reducible apply keeps_freeCredits
    | with_reducible apply keeps_takePosted
    | with_reducible apply keeps_takeNp
    | with_reducible apply keeps_npsFail
    | with_reducible apply keeps_takeCpl
    | with_reducible apply keeps_workerMsg
    | with_reducible apply keeps_managerMsg
    | with_reducible apply Keeps.ite <;> intro _
    | (with_reducible refine Keeps.of_mk _ _ _ _ _ _ _ _ _ _ _ _ _ _ _ _ _ _ _ _ _ _ _ _ _ _ _ _ _ ?_ rfl rfl rfl rfl rfl rfl rfl rfl
       split)

theorem keeps_takeHeld (w : Nat) (x0 : Nat) (x1 : State) {s0 : State}  (h : Keeps s0 x1) :
    Keeps s0 (takeHeld w x0 x1) := by
  induction x0 generalizing w x1 with
  | zero =>
    unfold takeHeld
    try extract_lets
    repeat' first
      | with_reducible assumption
      | with_reducible apply ih
      | with_reducible apply keeps_State_modLink
      | with_reducible apply keeps_takeFrame
      | with_reducible apply keeps_startWake
      | (with_reducible refine Keeps.of_mk _ _ _ _ _ _ _ _ _ _ _ _ _ _ _ _ _ _ _ _ _ _ _ _ _ _ _ _ _ ?_ rfl rfl rfl rfl rfl rfl rfl rfl
         split)
  | succ k ih =>
    unfold takeHeld
    try extract_lets
    repeat' first
      | with_reducible assumption
      | with_reducible apply ih
      | with_reducible apply keeps_State_modLink
      | with_reducible apply keeps_takeFrame
      | with_reducible apply keeps_startWake
      | (with_reducible refine Keeps.of_mk _ _ _ _ _ _ _ _ _ _ _ _ _ _ _ _ _ _ _ _ _ _ _ _ _ _ _ _ _ ?_ rfl rfl rfl rfl rfl rfl rfl rfl
         split)

theorem keeps_takeInbound (s : State) (w : Nat) (f : PlaitFrame) {s0 : State}  (h : Keeps s0 s) :
    Keeps s0 (takeInbound s w f) := by
  unfold takeInbound
  try extract_lets
  repeat' first
    | with_reducible assumption
    | with_reducible apply keeps_State_modLink
    | with_reducible apply keeps_takeHeld

theorem keeps_retryHeld (s : State) {s0 : State}  (h : Keeps s0 s) :
    Keeps s0 (retryHeld s) := by
  unfold retryHeld
  repeat' first
    | with_reducible assumption
    | with_reducible apply keeps_eachLink
    | with_reducible apply keeps_plaitPump
    | with_reducible apply keeps_takeHeld
    | with_reducible apply Keeps.ite <;> intro _
    | intro _ _ _

theorem keeps_heldWakeFail (s : State) (dom : Dom) {s0 : State}  (h : Keeps s0 s) :
    Keeps s0 (heldWakeFail s dom) := by
  unfold heldWakeFail
  try extract_lets
  repeat' first
    | with_reducible assumption
    | with_reducible apply keeps_eachLink
    | with_reducible apply keeps_takeFrame
    | with_reducible apply keeps_State_modLink
    | with_reducible apply keeps_plaitPump
    | with_reducible apply keeps_takeHeld
    | with_reducible apply Keeps.ite <;> intro _
    | intro _ _ _
    | (with_reducible refine Keeps.of_mk _ _ _ _ _ _ _ _ _ _ _ _ _ _ _ _ _ _ _ _ _ _ _ _ _ _ _ _ _ ?_ rfl rfl rfl rfl rfl rfl rfl rfl
       split)

end Sys2Proof.Machine
end

