-- ==== Sys2Proof/Laws/KeepsPlait.lean ====
section
/-! SUPPORT. What the operations of Machine/Plait.lean keep: the queue, the order of time and a sound state. -/

namespace Sys2Proof.Machine

set_option linter.unusedTactic false
set_option linter.unreachableTactic false

theorem keeps_execMgrAnnounceTx (s : State) : OutKeeps s (execMgrAnnounceTx s) := by
  have h := Keeps.refl s
  unfold execMgrAnnounceTx
  show Keeps _ _
  repeat' first
    | with_reducible assumption
    | with_reducible apply keeps_State_send
    | with_reducible apply Keeps.ite <;> intro _

theorem keeps_sendJoin (s : State) {s0 : State}  (h : Keeps s0 s) :
    Keeps s0 (sendJoin s) := by
  unfold sendJoin
  try extract_lets
  repeat' first
    | with_reducible apply keeps_State_send
    | (with_reducible refine Keeps.of_mk _ _ _ _ _ _ _ _ _ _ _ _ _ _ _ _ _ _ _ _ _ _ _ _ _ _ _ _ _ ?_ rfl rfl rfl rfl rfl rfl rfl rfl
       with_reducible assumption)

theorem keeps_isolate (s : State) {s0 : State}  (h : Keeps s0 s) :
    Keeps s0 (isolate s) := by
  unfold isolate
  try extract_lets
  repeat' first
    | with_reducible assumption
    | with_reducible apply keeps_logEvent
    | (with_reducible refine Keeps.of_mk _ _ _ _ _ _ _ _ _ _ _ _ _ _ _ _ _ _ _ _ _ _ _ _ _ _ _ _ _ ?_ rfl rfl rfl rfl rfl rfl rfl rfl
       with_reducible apply keeps_leaveAll)

theorem keeps_execMgrAnnounceRx (prio : BitVec 8) (eui : BitVec 48) (s : State) : OutKeeps s (execMgrAnnounceRx prio eui s) := by
  have h := Keeps.refl s
  unfold execMgrAnnounceRx
  show Keeps _ _
  try extract_lets
  repeat' first
    | with_reducible assumption
    | with_reducible apply keeps_sendJoin
    | with_reducible apply keeps_isolate
    | with_reducible apply keeps_logEvent
    | with_reducible apply Keeps.ite <;> intro _
    | (with_reducible refine Keeps.of_mk _ _ _ _ _ _ _ _ _ _ _ _ _ _ _ _ _ _ _ _ _ _ _ _ _ _ _ _ _ ?_ rfl rfl rfl rfl rfl rfl rfl rfl
       first
         | with_reducible apply keeps_State_takeWord
         | split
      )

theorem keeps_joinRefuse (s : State) (w : Nat) (cause : Nat) {s0 : State}  (h : Keeps s0 s) :
    Keeps s0 (joinRefuse s w cause) := by
  unfold joinRefuse
  repeat' first
    | with_reducible assumption
    | with_reducible apply keeps_logEvent
    | with_reducible apply keeps_State_send

theorem keeps_execJoinRx (worker : Fin 32) (hops : BitVec 3) (lastApplied : BitVec 8) (s : State) : OutKeeps s (execJoinRx worker hops lastApplied s) := by
  have h := Keeps.refl s
  unfold execJoinRx
  show Keeps _ _
  repeat' first
    | with_reducible assumption
    | with_reducible apply keeps_joinRefuse
    | with_reducible apply keeps_linkUpNow
    | with_reducible apply keeps_State_send
    | with_reducible apply Keeps.ite <;> intro _

theorem keeps_execAdmitRx (s : State) : OutKeeps s (execAdmitRx s) := by
  have h := Keeps.refl s
  unfold execAdmitRx
  show Keeps _ _
  try extract_lets
  repeat' first
    | with_reducible assumption
    | with_reducible apply keeps_linkUpNow
    | with_reducible apply Keeps.ite <;> intro _
    | (with_reducible refine Keeps.of_mk _ _ _ _ _ _ _ _ _ _ _ _ _ _ _ _ _ _ _ _ _ _ _ _ _ _ _ _ _ ?_ rfl rfl rfl rfl rfl rfl rfl rfl
       with_reducible assumption)

theorem keeps_execRefuseRx (cause : BitVec 8) (s : State) : OutKeeps s (execRefuseRx cause s) := by
  have h := Keeps.refl s
  unfold execRefuseRx
  show Keeps _ _
  try extract_lets
  repeat' first
    | with_reducible assumption
    | with_reducible apply keeps_logEvent
    | with_reducible apply Keeps.ite <;> intro _
    | (with_reducible refine Keeps.of_mk _ _ _ _ _ _ _ _ _ _ _ _ _ _ _ _ _ _ _ _ _ _ _ _ _ _ _ _ _ ?_ rfl rfl rfl rfl rfl rfl rfl rfl
       with_reducible assumption)

theorem keeps_execJoinRetry (s : State) : OutKeeps s (execJoinRetry s) := by
  have h := Keeps.refl s
  unfold execJoinRetry
  show Keeps _ _
  repeat' first
    | with_reducible assumption
    | with_reducible apply keeps_sendJoin
    | with_reducible apply Keeps.ite <;> intro _

theorem keeps_execLeaveRx (worker : Fin 32) (s : State) : OutKeeps s (execLeaveRx worker s) := by
  have h := Keeps.refl s
  unfold execLeaveRx
  show Keeps _ _
  repeat' first
    | with_reducible assumption
    | with_reducible apply keeps_linkDown
    | with_reducible apply Keeps.ite <;> intro _

theorem keeps_execDeadTimeout (worker : Fin 32) (s : State) : OutKeeps s (execDeadTimeout worker s) := by
  have h := Keeps.refl s
  unfold execDeadTimeout
  show Keeps _ _
  repeat' first
    | with_reducible assumption
    | with_reducible apply keeps_linkDown
    | with_reducible apply Keeps.ite <;> intro _

theorem keeps_execPlaitRetxTimeout (worker : Fin 32) (s : State) : OutKeeps s (execPlaitRetxTimeout worker s) := by
  have h := Keeps.refl s
  unfold execPlaitRetxTimeout
  show Keeps _ _
  try extract_lets
  repeat' first
    | with_reducible assumption
    | with_reducible apply Keeps.foldl
    | with_reducible apply keeps_linkDown
    | with_reducible apply keeps_State_send
    | with_reducible apply Keeps.ite <;> intro _
    | intro _ _ _
    | (with_reducible refine Keeps.of_mk _ _ _ _ _ _ _ _ _ _ _ _ _ _ _ _ _ _ _ _ _ _ _ _ _ _ _ _ _ ?_ rfl rfl rfl rfl rfl rfl rfl rfl
       with_reducible apply keeps_State_modLink)

theorem keeps_sendCredit (s : State) (w : Nat) {s0 : State}  (h : Keeps s0 s) :
    Keeps s0 (sendCredit s w) := by
  unfold sendCredit
  repeat' first
    | with_reducible assumption
    | with_reducible apply keeps_plaitEmit

theorem keeps_execCreditTx (worker : Fin 32) (s : State) : OutKeeps s (execCreditTx worker s) := by
  have h := Keeps.refl s
  unfold execCreditTx
  show Keeps _ _
  repeat' first
    | with_reducible assumption
    | with_reducible apply keeps_sendCredit
    | with_reducible apply Keeps.ite <;> intro _

theorem keeps_ackTake (s : State) (w : Nat) (ack : BitVec 12) {s0 : State}  (h : Keeps s0 s) :
    Keeps s0 (ackTake s w ack) := by
  unfold ackTake
  try extract_lets
  repeat' first
    | with_reducible assumption
    | with_reducible apply Keeps.foldl
    | with_reducible apply keeps_State_modLink
    | with_reducible apply keeps_copyStep
    | with_reducible apply keeps_State_setCopy
    | with_reducible apply Keeps.ite <;> intro _
    | intro _ _ _

theorem keeps_execReliableFrameRx (worker : Fin 32) (frame : PlaitFrame) (s : State) : OutKeeps s (execReliableFrameRx worker frame s) := by
  have h := Keeps.refl s
  unfold execReliableFrameRx
  show Keeps _ _
  try extract_lets
  repeat' first
    | with_reducible assumption
    | with_reducible apply keeps_ackTake
    | with_reducible apply keeps_State_modLink
    | with_reducible apply keeps_plaitPump
    | with_reducible apply keeps_sendCredit
    | with_reducible apply keeps_takeInbound
    | with_reducible apply Keeps.ite <;> intro _

theorem keeps_execCplTimeout (worker : Fin 32) (tag : BitVec 11) (s : State) : OutKeeps s (execCplTimeout worker tag s) := by
  have h := Keeps.refl s
  unfold execCplTimeout
  show Keeps _ _
  try extract_lets
  repeat' first
    | with_reducible assumption
    | with_reducible apply Keeps.reach
    | with_reducible apply keeps_State_modLink
    | with_reducible apply keeps_npFail
    | (with_reducible refine Keeps.of_mk _ _ _ _ _ _ _ _ _ _ _ _ _ _ _ _ _ _ _ _ _ _ _ _ _ _ _ _ _ ?_ rfl rfl rfl rfl rfl rfl rfl rfl
       split)

theorem keeps_execModeMsgTx (s : State) : OutKeeps s (execModeMsgTx s) := by
  have h := Keeps.refl s
  unfold execModeMsgTx
  show Keeps _ _
  repeat' first
    | with_reducible assumption
    | with_reducible apply keeps_sendMode
    | with_reducible apply Keeps.ite <;> intro _

theorem keeps_execKl15MgrHoldExpiry (s : State) : OutKeeps s (execKl15MgrHoldExpiry s) := by
  have h := Keeps.refl s
  unfold execKl15MgrHoldExpiry
  show Keeps _ _
  try extract_lets
  repeat' first
    | with_reducible assumption
    | with_reducible apply keeps_kl15Mgr
    | with_reducible apply Keeps.ite <;> intro _
    | (with_reducible refine Keeps.of_mk _ _ _ _ _ _ _ _ _ _ _ _ _ _ _ _ _ _ _ _ _ _ _ _ _ _ _ _ _ ?_ rfl rfl rfl rfl rfl rfl rfl rfl
       first
         | with_reducible apply Keeps.reach
         | split
      )

theorem keeps_execTunFrameRx (worker : Fin 32) (ch : Fin 10) (frame : CanFrame) (time : BitVec 64) (s : State) : OutKeeps s (execTunFrameRx worker ch frame time s) := by
  have h := Keeps.refl s
  unfold execTunFrameRx
  show Keeps _ _
  try extract_lets
  repeat' first
    | with_reducible assumption
    | with_reducible apply keeps_inbound
    | with_reducible apply keeps_logEvent
    | with_reducible apply Keeps.ite <;> intro _
    | (with_reducible refine Keeps.of_mk _ _ _ _ _ _ _ _ _ _ _ _ _ _ _ _ _ _ _ _ _ _ _ _ _ _ _ _ _ ?_ rfl rfl rfl rfl rfl rfl rfl rfl
       first
         | with_reducible assumption
         | split
      )

theorem keeps_execEthLinkChange (port : Fin 4) (up : Bool) (sqi : BitVec 4) (s : State) : OutKeeps s (execEthLinkChange port up sqi s) := by
  have h := Keeps.refl s
  unfold execEthLinkChange
  show Keeps _ _
  try extract_lets
  repeat' first
    | with_reducible assumption
    | with_reducible apply keeps_logEvent
    | with_reducible apply Keeps.ite <;> intro _
    | (with_reducible refine Keeps.of_mk _ _ _ _ _ _ _ _ _ _ _ _ _ _ _ _ _ _ _ _ _ _ _ _ _ _ _ _ _ ?_ rfl rfl rfl rfl rfl rfl rfl rfl
       with_reducible assumption)

end Sys2Proof.Machine
end

