-- ==== Sys2Proof/Laws/KeepsCoreAccess.lean ====
section
/-! SUPPORT. What the operations of Machine/CoreAccess.lean keep: the queue, the order of time and a sound state. -/

namespace Sys2Proof.Machine

set_option linter.unusedTactic false
set_option linter.unreachableTactic false

theorem keeps_stallCore (s : State) (x : CoreAcc) (d : Dom) {s0 : State}  (h : Keeps s0 s) :
    Keeps s0 (stallCore s x d) := by
  unfold stallCore
  try extract_lets
  repeat' first
    | with_reducible apply keeps_startWake
    | (with_reducible refine Keeps.of_mk _ _ _ _ _ _ _ _ _ _ _ _ _ _ _ _ _ _ _ _ _ _ _ _ _ _ _ _ _ ?_ rfl rfl rfl rfl rfl rfl rfl rfl
       with_reducible assumption)

theorem keeps_coreReach (s : State) (x : CoreAcc) (d : Dom) (go : State → State) {s0 : State} (h_go : ∀ y0, Keeps s0 y0 → Keeps s0 (go y0)) (h : Keeps s0 s) :
    Keeps s0 (coreReach s x d go) := by
  unfold coreReach
  try extract_lets
  repeat' first
    | with_reducible assumption
    | with_reducible apply h_go
    | with_reducible apply keeps_stallCore
    | with_reducible apply keeps_coreFault
    | (with_reducible refine Keeps.of_mk _ _ _ _ _ _ _ _ _ _ _ _ _ _ _ _ _ _ _ _ _ _ _ _ _ _ _ _ _ ?_ rfl rfl rfl rfl rfl rfl rfl rfl
       split)

theorem keeps_watchRemote (s : State) (a : Nat) (n : Nat) {s0 : State}  (h : Keeps s0 s) :
    Keeps s0 (watchRemote s a n) := by
  unfold watchRemote
  try extract_lets
  repeat' first
    | with_reducible assumption
    | with_reducible apply keeps_plaitMsg
    | with_reducible apply keeps_logEvent
    | with_reducible apply Keeps.ite <;> intro _
    | (with_reducible refine Keeps.of_mk _ _ _ _ _ _ _ _ _ _ _ _ _ _ _ _ _ _ _ _ _ _ _ _ _ _ _ _ _ ?_ rfl rfl rfl rfl rfl rfl rfl rfl
       with_reducible assumption)

theorem keeps_coreMem (x : CoreAcc) (s : State) {s0 : State}  (h : Keeps s0 s) :
    Keeps s0 (coreMem x s) := by
  unfold coreMem
  try extract_lets
  repeat' first
    | with_reducible assumption
    | with_reducible apply keeps_writeMem
    | with_reducible apply keeps_coreFault
    | with_reducible apply keeps_watchRemote
    | with_reducible apply keeps_watchLocal
    | with_reducible apply keeps_readMem
    | with_reducible apply keeps_loadData
    | with_reducible apply Keeps.ite <;> intro _
    | (with_reducible refine Keeps.of_mk _ _ _ _ _ _ _ _ _ _ _ _ _ _ _ _ _ _ _ _ _ _ _ _ _ _ _ _ _ ?_ rfl rfl rfl rfl rfl rfl rfl rfl
       split)

theorem keeps_coreReg (x : CoreAcc) (s : State) {s0 : State}  (h : Keeps s0 s) :
    Keeps s0 (coreReg x s) := by
  unfold coreReg
  try extract_lets
  repeat' first
    | with_reducible assumption
    | with_reducible apply keeps_regWrite
    | with_reducible apply keeps_regLoad
    | with_reducible apply keeps_loadData
    | with_reducible apply Keeps.ite <;> intro _

theorem keeps_coreGo (s : State) (x : CoreAcc) {s0 : State}  (h : Keeps s0 s) :
    Keeps s0 (coreGo s x) := by
  unfold coreGo
  try extract_lets
  repeat' first
    | with_reducible assumption
    | with_reducible apply keeps_coreReach
    | with_reducible apply keeps_coreReg
    | with_reducible apply keeps_coreFault
    | with_reducible apply keeps_coreMem
    | with_reducible apply keeps_windowAccess
    | with_reducible apply Keeps.ite <;> intro _
    | intro _ _

theorem keeps_coreAccess (s : State) (x : CoreAcc) {s0 : State}  (h : Keeps s0 s) :
    Keeps s0 (coreAccess s x) := by
  unfold coreAccess
  repeat' first
    | with_reducible assumption
    | with_reducible apply keeps_coreGo
    | with_reducible apply Keeps.ite <;> intro _

theorem keeps_storeReg (s : State) (hart : BitVec 2) (addr : Nat) (v : BitVec 32) {s0 : State}  (h : Keeps s0 s) :
    Keeps s0 (storeReg s hart addr v) := by
  unfold storeReg
  repeat' first
    | with_reducible assumption
    | with_reducible apply keeps_coreAccess

theorem keeps_loadReg (s : State) (hart : BitVec 2) (addr : Nat) {s0 : State}  (h : Keeps s0 s) :
    Keeps s0 (loadReg s hart addr) := by
  unfold loadReg
  repeat' first
    | with_reducible assumption
    | with_reducible apply keeps_coreAccess

theorem keeps_execCoreAccess (hart : BitVec 2) (addr : BitVec 36) (size : BitVec 2) (write : Bool) (data : BitVec 64) (s : State) : OutKeeps s (execCoreAccess hart addr size write data s) := by
  have h := Keeps.refl s
  unfold execCoreAccess
  show Keeps _ _
  repeat' first
    | with_reducible assumption
    | with_reducible apply keeps_coreAccess

theorem keeps_execRegisterWrite (hart : BitVec 2) (addr : BitVec 36) (value : BitVec 32) (s : State) : OutKeeps s (execRegisterWrite hart addr value s) := by
  have h := Keeps.refl s
  unfold execRegisterWrite
  show Keeps _ _
  repeat' first
    | with_reducible assumption
    | with_reducible apply keeps_storeReg

theorem keeps_execStagedRegisterWrite (hart : BitVec 2) (addr : BitVec 36) (value : BitVec 32) (s : State) : OutKeeps s (execStagedRegisterWrite hart addr value s) := by
  have h := Keeps.refl s
  unfold execStagedRegisterWrite
  show Keeps _ _
  repeat' first
    | with_reducible assumption
    | with_reducible apply keeps_storeReg

theorem keeps_execPlReqWrite (hart : BitVec 2) (value : BitVec 32) (s : State) : OutKeeps s (execPlReqWrite hart value s) := by
  have h := Keeps.refl s
  unfold execPlReqWrite
  show Keeps _ _
  repeat' first
    | with_reducible assumption
    | with_reducible apply keeps_storeReg

theorem keeps_execCompatRun (hart : BitVec 2) (s : State) : OutKeeps s (execCompatRun hart s) := by
  have h := Keeps.refl s
  unfold execCompatRun
  show Keeps _ _
  repeat' first
    | with_reducible assumption
    | with_reducible apply keeps_storeReg

theorem keeps_execCompatIdle (hart : BitVec 2) (s : State) : OutKeeps s (execCompatIdle hart s) := by
  have h := Keeps.refl s
  unfold execCompatIdle
  show Keeps _ _
  repeat' first
    | with_reducible assumption
    | with_reducible apply keeps_storeReg

theorem keeps_execCompatSleep (hart : BitVec 2) (s : State) : OutKeeps s (execCompatSleep hart s) := by
  have h := Keeps.refl s
  unfold execCompatSleep
  show Keeps _ _
  repeat' first
    | with_reducible assumption
    | with_reducible apply keeps_storeReg

theorem keeps_execCompatDeepsleep (hart : BitVec 2) (s : State) : OutKeeps s (execCompatDeepsleep hart s) := by
  have h := Keeps.refl s
  unfold execCompatDeepsleep
  show Keeps _ _
  repeat' first
    | with_reducible assumption
    | with_reducible apply keeps_storeReg

theorem keeps_execCompatOff (hart : BitVec 2) (s : State) : OutKeeps s (execCompatOff hart s) := by
  have h := Keeps.refl s
  unfold execCompatOff
  show Keeps _ _
  repeat' first
    | with_reducible assumption
    | with_reducible apply keeps_storeReg

theorem keeps_execWeaveTimeRead (hart : BitVec 2) (s : State) : OutKeeps s (execWeaveTimeRead hart s) := by
  have h := Keeps.refl s
  unfold execWeaveTimeRead
  show Keeps _ _
  repeat' first
    | with_reducible assumption
    | with_reducible apply keeps_loadReg

theorem keeps_execWallOffsetRead (hart : BitVec 2) (s : State) : OutKeeps s (execWallOffsetRead hart s) := by
  have h := Keeps.refl s
  unfold execWallOffsetRead
  show Keeps _ _
  repeat' first
    | with_reducible assumption
    | with_reducible apply keeps_loadReg

theorem keeps_execCaptureRead (hart : BitVec 2) (unit : Fin 8) (s : State) : OutKeeps s (execCaptureRead hart unit s) := by
  have h := Keeps.refl s
  unfold execCaptureRead
  show Keeps _ _
  repeat' first
    | with_reducible assumption
    | with_reducible apply keeps_loadReg

theorem keeps_execRingEnable (hart : BitVec 2) (ring : Fin 128) (value : BitVec 32) (s : State) : OutKeeps s (execRingEnable hart ring value s) := by
  have h := Keeps.refl s
  unfold execRingEnable
  show Keeps _ _
  repeat' first
    | with_reducible assumption
    | with_reducible apply keeps_storeReg

theorem keeps_execRingDisable (hart : BitVec 2) (ring : Fin 128) (value : BitVec 32) (s : State) : OutKeeps s (execRingDisable hart ring value s) := by
  have h := Keeps.refl s
  unfold execRingDisable
  show Keeps _ _
  repeat' first
    | with_reducible assumption
    | with_reducible apply keeps_storeReg

theorem keeps_execDoorbellBlockRegister (hart : BitVec 2) (value : BitVec 32) (s : State) : OutKeeps s (execDoorbellBlockRegister hart value s) := by
  have h := Keeps.refl s
  unfold execDoorbellBlockRegister
  show Keeps _ _
  repeat' first
    | with_reducible assumption
    | with_reducible apply keeps_storeReg

theorem keeps_execDoorbellStore (hart : BitVec 2) (offset : BitVec 10) (size : BitVec 2) (data : BitVec 64) (s : State) : OutKeeps s (execDoorbellStore hart offset size data s) := by
  have h := Keeps.refl s
  unfold execDoorbellStore
  show Keeps _ _
  repeat' first
    | with_reducible assumption
    | with_reducible apply keeps_coreAccess
    | with_reducible apply Keeps.ite <;> intro _

theorem keeps_execLedGainWrite (hart : BitVec 2) (gain : Fin 3) (value : BitVec 32) (s : State) : OutKeeps s (execLedGainWrite hart gain value s) := by
  have h := Keeps.refl s
  unfold execLedGainWrite
  show Keeps _ _
  repeat' first
    | with_reducible assumption
    | with_reducible apply keeps_storeReg

theorem keeps_execSoftwareResetKey (hart : BitVec 2) (value : BitVec 32) (s : State) : OutKeeps s (execSoftwareResetKey hart value s) := by
  have h := Keeps.refl s
  unfold execSoftwareResetKey
  show Keeps _ _
  repeat' first
    | with_reducible assumption
    | with_reducible apply keeps_storeReg

theorem keeps_execWatchdogKick (hart : BitVec 2) (value : BitVec 32) (s : State) : OutKeeps s (execWatchdogKick hart value s) := by
  have h := Keeps.refl s
  unfold execWatchdogKick
  show Keeps _ _
  repeat' first
    | with_reducible assumption
    | with_reducible apply keeps_storeReg

theorem keeps_execRemoteDoorbellRegister (hart : BitVec 2) (value : BitVec 32) (s : State) : OutKeeps s (execRemoteDoorbellRegister hart value s) := by
  have h := Keeps.refl s
  unfold execRemoteDoorbellRegister
  show Keeps _ _
  repeat' first
    | with_reducible assumption
    | with_reducible apply keeps_storeReg

theorem keeps_execRemoteDoorbellStore (hart : BitVec 2) (offset : BitVec 12) (size : BitVec 2) (data : BitVec 64) (s : State) : OutKeeps s (execRemoteDoorbellStore hart offset size data s) := by
  have h := Keeps.refl s
  unfold execRemoteDoorbellStore
  show Keeps _ _
  repeat' first
    | with_reducible assumption
    | with_reducible apply keeps_coreAccess
    | with_reducible apply Keeps.ite <;> intro _

theorem keeps_landWrites (s : State) {s0 : State} (h : Keeps s0 s) : Keeps s0 (landWrites s) :=
  Keeps.foldl _ _ (fun _ _ k => k.mem _ (fun x => Mem.store_wf (Mem.clearFault_wf x _) _ _))
    (h.of_same rfl rfl rfl rfl rfl rfl rfl rfl)

theorem keeps_stalledGo (s : State) (x : Stalled) {s0 : State}  (h : Keeps s0 s) :
    Keeps s0 (stalledGo s x) := by
  unfold stalledGo
  try extract_lets
  repeat' first
    | with_reducible assumption
    | with_reducible apply keeps_complete
    | with_reducible apply keeps_State_modRing
    | with_reducible apply keeps_toBlock
    | with_reducible apply keeps_actHost
    | with_reducible apply Keeps.ite <;> intro _
    | intro _ _ _

theorem keeps_readyGo (s : State) (dom : Dom) {s0 : State}  (h : Keeps s0 s) :
    Keeps s0 (readyGo s dom) := by
  unfold readyGo
  try extract_lets
  repeat' first
    | with_reducible assumption
    | with_reducible apply Keeps.foldl
    | with_reducible apply keeps_landWrites
    | with_reducible apply keeps_coreAccess
    | with_reducible apply keeps_stalledGo
    | with_reducible apply keeps_retryHeld
    | with_reducible apply keeps_fireWaiting
    | with_reducible apply Keeps.ite <;> intro _
    | intro _ _ _
    | (with_reducible refine Keeps.of_mk _ _ _ _ _ _ _ _ _ _ _ _ _ _ _ _ _ _ _ _ _ _ _ _ _ _ _ _ _ ?_ rfl rfl rfl rfl rfl rfl rfl rfl
       with_reducible assumption)

theorem keeps_raisedDone (s : State) (dom : Dom) {s0 : State}  (h : Keeps s0 s) :
    Keeps s0 (raisedDone s dom) := by
  unfold raisedDone
  try extract_lets
  repeat' first
    | with_reducible assumption
    | with_reducible apply Keeps.foldl
    | with_reducible apply keeps_finish
    | intro _ _ _
    | (with_reducible refine Keeps.of_mk _ _ _ _ _ _ _ _ _ _ _ _ _ _ _ _ _ _ _ _ _ _ _ _ _ _ _ _ _ ?_ rfl rfl rfl rfl rfl rfl rfl rfl
       with_reducible assumption)

theorem keeps_domWoken (s : State) (dom : Dom) (t : DomState) {s0 : State}  (h : Keeps s0 s) :
    Keeps s0 (domWoken s dom t) := by
  unfold domWoken
  try extract_lets
  repeat' first
    | with_reducible assumption
    | with_reducible apply keeps_domUp
    | with_reducible apply keeps_wdtRestart
    | with_reducible apply keeps_State_modDom
    | with_reducible apply Keeps.ite <;> intro _

theorem keeps_execDomainReady (dom : Dom) (s : State) : OutKeeps s (execDomainReady dom s) := by
  have h := Keeps.refl s
  unfold execDomainReady
  show Keeps _ _
  try extract_lets
  repeat' first
    | with_reducible assumption
    | with_reducible apply keeps_raisedDone
    | with_reducible apply keeps_domWoken
    | with_reducible apply keeps_readyGo
    | with_reducible apply keeps_startWake
    | with_reducible apply Keeps.ite <;> intro _
    | (with_reducible refine Keeps.of_mk _ _ _ _ _ _ _ _ _ _ _ _ _ _ _ _ _ _ _ _ _ _ _ _ _ _ _ _ _ ?_ rfl rfl rfl rfl rfl rfl rfl rfl
       split)

theorem keeps_execDomainWakeTimeout (dom : Dom) (s : State) : OutKeeps s (execDomainWakeTimeout dom s) := by
  have h := Keeps.refl s
  unfold execDomainWakeTimeout
  show Keeps _ _
  try extract_lets
  repeat' first
    | with_reducible assumption
    | with_reducible apply Keeps.foldl
    | with_reducible apply keeps_logEvent
    | with_reducible apply keeps_cancelLaunch
    | with_reducible apply keeps_heldWakeFail
    | with_reducible apply keeps_escalate
    | with_reducible apply Keeps.ite <;> intro _
    | intro _ _ _
    | (with_reducible refine Keeps.of_mk _ _ _ _ _ _ _ _ _ _ _ _ _ _ _ _ _ _ _ _ _ _ _ _ _ _ _ _ _ ?_ rfl rfl rfl rfl rfl rfl rfl rfl
       first
         | with_reducible apply Keeps.foldl
         | with_reducible apply keeps_State_modDom
         | with_reducible apply keeps_dropStalled
      )

end Sys2Proof.Machine
end

