-- ==== Sys2Proof/Laws/KeepsFioIn.lean ====
section
/-! SUPPORT. What the operations of Machine/FioIn.lean keep: the queue, the order of time and a sound state. -/

namespace Sys2Proof.Machine

set_option linter.unusedTactic false
set_option linter.unreachableTactic false

theorem keeps_fioReport (s : State) (n : Nat) (st : BitVec 3) {s0 : State}  (h : Keeps s0 s) :
    Keeps s0 (fioReport s n st) := by
  unfold fioReport
  try extract_lets
  repeat' first
    | with_reducible assumption
    | with_reducible apply keeps_State_modFio
    | with_reducible apply keeps_logEvent
    | with_reducible apply keeps_judge
    | with_reducible apply keeps_netAll
    | with_reducible apply Keeps.ite <;> intro _
    | (with_reducible refine Keeps.of_mk _ _ _ _ _ _ _ _ _ _ _ _ _ _ _ _ _ _ _ _ _ _ _ _ _ _ _ _ _ ?_ rfl rfl rfl rfl rfl rfl rfl rfl
       with_reducible apply Keeps.ite <;> intro _)

theorem keeps_execInputFilteredChange (pin : Fin 48) (level : Bool) (s : State) : OutKeeps s (execInputFilteredChange pin level s) := by
  have h := Keeps.refl s
  unfold execInputFilteredChange
  show Keeps _ _
  try extract_lets
  repeat' first
    | with_reducible assumption
    | with_reducible apply keeps_State_modFio
    | with_reducible apply keeps_fioReport
    | with_reducible apply Keeps.ite <;> intro _

theorem keeps_execInputDebounce (pin : Fin 48) (s : State) : OutKeeps s (execInputDebounce pin s) := by
  have h := Keeps.refl s
  unfold execInputDebounce
  show Keeps _ _
  try extract_lets
  repeat' first
    | with_reducible assumption
    | with_reducible apply keeps_fioReport
    | with_reducible apply Keeps.reach
    | with_reducible apply Keeps.ite <;> intro _

theorem keeps_execWireBreakMeasure (pin : Fin 48) (microamps : Nat) (s : State) : OutKeeps s (execWireBreakMeasure pin microamps s) := by
  have h := Keeps.refl s
  unfold execWireBreakMeasure
  show Keeps _ _
  try extract_lets
  repeat' first
    | with_reducible assumption
    | with_reducible apply keeps_State_modFio
    | with_reducible apply keeps_logEvent
    | with_reducible apply keeps_fioReport
    | with_reducible apply Keeps.ite <;> intro _

theorem keeps_execFioWakeStrobe (level : BitVec 16) (s : State) : OutKeeps s (execFioWakeStrobe level s) := by
  have h := Keeps.refl s
  unfold execFioWakeStrobe
  show Keeps _ _
  try extract_lets
  repeat' first
    | with_reducible assumption
    | with_reducible apply Keeps.foldl
    | with_reducible apply keeps_logEvent
    | with_reducible apply keeps_wakeUp
    | with_reducible apply Keeps.ite <;> intro _
    | intro _ _ _
    | (with_reducible refine Keeps.of_mk _ _ _ _ _ _ _ _ _ _ _ _ _ _ _ _ _ _ _ _ _ _ _ _ _ _ _ _ _ ?_ rfl rfl rfl rfl rfl rfl rfl rfl
       first
         | with_reducible assumption
         | split
      )
    | extract_lets
    | dsimp +zetaDelta only

end Sys2Proof.Machine
end

