-- ==== Sys2Proof/Laws/KeepsIdle.lean ====
section
/-! SUPPORT. What the operations of Machine/Idle.lean keep: the queue, the order of time and a sound state. -/

namespace Sys2Proof.Machine

set_option linter.unusedTactic false
set_option linter.unreachableTactic false

theorem keeps_idle (s : State) {s0 : State}  (h : Keeps s0 s) :
    Keeps s0 (idle s) := by
  unfold idle
  try extract_lets
  repeat' first
    | with_reducible assumption
    | with_reducible apply keeps_retryHeld
    | (with_reducible refine Keeps.of_mk _ _ _ _ _ _ _ _ _ _ _ _ _ _ _ _ _ _ _ _ _ _ _ _ _ _ _ _ _ ?_ rfl rfl rfl rfl rfl rfl rfl rfl
       with_reducible apply Keeps.advance)

end Sys2Proof.Machine
end

