-- ==== Sys2Proof/Laws/KeepsStart.lean ====
section
/-! SUPPORT. What the operations of Machine/Start.lean keep: the queue, the order of time and a sound state. -/

namespace Sys2Proof.Machine

set_option linter.unusedTactic false
set_option linter.unreachableTactic false

theorem keeps_copyCheck (s : State) (copy : Nat) (c : Option Image) {s0 : State}  (h : Keeps s0 s) :
    Keeps s0 (copyCheck s copy c).2 := by
  unfold copyCheck
  try extract_lets
  repeat' first
    | with_reducible assumption
    | with_reducible apply keeps_logEvent
    | (with_reducible refine Keeps.of_mk _ _ _ _ _ _ _ _ _ _ _ _ _ _ _ _ _ _ _ _ _ _ _ _ _ _ _ _ _ ?_ rfl rfl rfl rfl rfl rfl rfl rfl
       split)

theorem keeps_loadConfig (s : State) {s0 : State}  (h : Keeps s0 s) :
    Keeps s0 (loadConfig s) := by
  unfold loadConfig
  try extract_lets
  repeat' first
    | with_reducible assumption
    | with_reducible apply keeps_copyCheck
    | with_reducible apply keeps_logEvent
    | with_reducible apply Keeps.ite <;> intro _
    | (with_reducible refine Keeps.of_mk _ _ _ _ _ _ _ _ _ _ _ _ _ _ _ _ _ _ _ _ _ _ _ _ _ _ _ _ _ ?_ rfl rfl rfl rfl rfl rfl rfl rfl
       first
         | with_reducible apply keeps_copyCheck
         | split
      )
    | extract_lets
    | dsimp +zetaDelta only

theorem keeps_startSysv (s : State) {s0 : State}  (h : Keeps s0 s) :
    Keeps s0 (startSysv s) := by
  unfold startSysv
  try extract_lets
  repeat' first
    | with_reducible apply Keeps.ite <;> intro _
    | (with_reducible refine Keeps.of_mk _ _ _ _ _ _ _ _ _ _ _ _ _ _ _ _ _ _ _ _ _ _ _ _ _ _ _ _ _ ?_ rfl rfl rfl rfl rfl rfl rfl rfl
       with_reducible assumption)

theorem keeps_startAntennas (s : State) (bad : BitVec 4) {s0 : State}  (h : Keeps s0 s) :
    Keeps s0 (startAntennas s bad) := by
  unfold startAntennas
  try extract_lets
  repeat' first
    | with_reducible assumption
    | with_reducible apply Keeps.foldl
    | with_reducible apply keeps_logEvent
    | with_reducible apply Keeps.ite <;> intro _
    | intro _ _ _
    | (with_reducible refine Keeps.of_mk _ _ _ _ _ _ _ _ _ _ _ _ _ _ _ _ _ _ _ _ _ _ _ _ _ _ _ _ _ ?_ rfl rfl rfl rfl rfl rfl rfl rfl
       with_reducible assumption)

theorem keeps_startBlocks (s : State) {s0 : State}  (h : Keeps s0 s) :
    Keeps s0 (startBlocks s) := by
  unfold startBlocks
  try extract_lets
  repeat' first
    | with_reducible assumption
    | with_reducible apply keeps_accLoad
    | with_reducible apply keeps_loupeScan
    | with_reducible apply keeps_mtxStart
    | with_reducible apply keeps_facetReload
    | with_reducible apply keeps_hsoStart

theorem keeps_startMode (s : State) {s0 : State}  (h : Keeps s0 s) :
    Keeps s0 (startMode s) := by
  unfold startMode
  try extract_lets
  repeat' first
    | with_reducible assumption
    | with_reducible apply keeps_enterLimp
    | with_reducible apply keeps_logEvent
    | with_reducible apply keeps_goMode
    | with_reducible apply Keeps.ite <;> intro _

theorem keeps_startBezel (s : State) (bad : BitVec 10) {s0 : State}  (h : Keeps s0 s) :
    Keeps s0 (startBezel s bad) := by
  unfold startBezel
  try extract_lets
  repeat' first
    | with_reducible assumption
    | with_reducible apply keeps_retentionCheck
    | with_reducible apply keeps_bootCount

theorem keeps_startRun (s : State) (antBad : BitVec 4) (bad : BitVec 10) {s0 : State}  (h : Keeps s0 s) :
    Keeps s0 (startRun s antBad bad) := by
  unfold startRun
  try extract_lets
  repeat' first
    | with_reducible assumption
    | with_reducible apply keeps_startSysv
    | with_reducible apply keeps_loadConfig
    | with_reducible apply keeps_retentionCheck
    | with_reducible apply keeps_startMode
    | with_reducible apply keeps_logEvent
    | with_reducible apply keeps_recordRegs
    | with_reducible apply keeps_startMirror
    | with_reducible apply keeps_claimAuto
    | with_reducible apply keeps_netStart
    | with_reducible apply keeps_startAntennas
    | with_reducible apply Keeps.ite <;> intro _
    | (with_reducible refine Keeps.of_mk _ _ _ _ _ _ _ _ _ _ _ _ _ _ _ _ _ _ _ _ _ _ _ _ _ _ _ _ _ ?_ rfl rfl rfl rfl rfl rfl rfl rfl
       first
         | with_reducible apply keeps_startBlocks
         | with_reducible apply keeps_wdtRestart
      )
    | extract_lets
    | dsimp +zetaDelta only

theorem keeps_execStartComplete (bankAOk : Bool) (bankBOk : Bool) (antBad : BitVec 4) (retBad : BitVec 10) (s : State) : OutKeeps s (execStartComplete bankAOk bankBOk antBad retBad s) := by
  have h := Keeps.refl s
  unfold execStartComplete
  show Keeps _ _
  try extract_lets
  repeat' first
    | with_reducible assumption
    | with_reducible apply keeps_imageStart
    | with_reducible apply keeps_startBezel
    | with_reducible apply keeps_startRun
    | with_reducible apply keeps_startMirror
    | with_reducible apply keeps_bezelOnlyNow
    | with_reducible apply Keeps.ite <;> intro _

end Sys2Proof.Machine
end

