-- ==== Sys2Proof/Tests/Slice0.lean ====
section
/-! SUPPORT. The model's own tests: descriptors that break a check, words written out, single steps checked against the
spec's worked examples, and for each statement with hypotheses a state and operands that meet them. -/

namespace Sys2Proof.Tests
open Sys2Proof Sys2Proof.Machine
set_option Elab.async false

/-! ## Small states -/

/-- Run, every domain On, the running configuration not empty. -/
def up : State := { State.reset with
  pwr.mode := .run, pwr.dom := Vector.replicate 12 { st := .on }, cfg.empty := false }

/-- A NOP descriptor's 64 bytes, CRC and all. -/
def testNop : List (BitVec 8) := [3#8, 3#8] ++ List.replicate 58 0#8 ++ bytesOf 4 (crc32c ([3#8, 3#8] ++ List.replicate 58 0#8)).toNat

/-- A configuration record for every mode. -/
def rc (b t i : Nat) (body : List (BitVec 32)) : Rec := { block := b, typ := t, inst := i, modes := 0xFFF, body := body }

/-- `up` with these records running. -/
def upW (rs : List Rec) : State := { up with cfg.recs := rs }

/-- `up` with ring 0 changed, and with ring 1 changed. -/
def ring0 (f : Ring → Ring) : State := up.modRing 0 f
def ring1 (f : Ring → Ring) : State := up.modRing 1 f

/-- `up` as a worker and as a manager. -/
def wk : State := { up with pwr.strap := 1 }
def mg : State := { up with pwr.strap := 2 }

/-- `up` with bytes at 0x1000 in host memory, and a descriptor whose payload they are. -/
def upM (bs : List (BitVec 8)) : State := { up with mem := up.mem.store 0x1000 bs }
def dM (n : Nat) : Desc := { payAddr := 0x1000, payLen := BitVec.ofNat 24 n }

/-- One record's bytes; an image without records. -/
def oneRec : List (BitVec 8) := recBytes (rc 6 3 0 [0x408])
def oneImage : Image := { format := 1 }

/-- HSO_LOAD of channel 8 with these words, feeds at 12 V, and that channel changed. -/
def upH (body : List (BitVec 32)) (f : HsoCh → HsoCh) : State :=
  State.modHso { upW [rc 5 1 8 body] with hso.vfeed := Vector.replicate 3 12000 } 8 f

/-- The value of a computation that succeeds. -/
def okVal {ε α : Type} (e : Except ε α) (d : α) : α := match e with | .ok a => a | .error _ => d
theorem ok_of {ε α : Type} (e : Except ε α) (d : α) (h : e.toBool = true) : e = .ok (okVal e d) := by
  cases e with
  | ok a => rfl
  | error x => simp [Except.toBool] at h
theorem pair_of {ε α σ : Type} (p : Except ε α × σ) (d : α) (h : p.1.toBool = true) : p = (.ok (okVal p.1 d), p.2) :=
  Prod.ext (ok_of p.1 d h) rfl

/-- FIO pin 47 with this FIO_CFG record, feeds at 12 V, and that pin changed. -/
def upF (body : List (BitVec 32)) (f : FioCh → FioCh) : State :=
  State.modFio { upW [rc 11 1 47 body] with hso.vfeed := Vector.replicate 3 12000 } 47 f

/-- Channel 31's context executes at PC 0 a program that begins with this word. -/
def upE (w : BitVec 32) (f : FCtx → FCtx) : State :=
  State.modCtx { up with facet.eng := vmod up.facet.eng 7 (fun e => { e with bank0 := some { words := [w] } }) } 31
    (fun c => f { c with wait := .executing })

/-- Valve channel 31 with its record, a valid profile 0 with these flags, BST_CTRL on, feeds at 12 V, and that channel changed. -/
def upV (flags : BitVec 32) (f : VlvCh → VlvCh) : State :=
  State.modVlv { upW [rc 7 2 31 [0x03FF0000, 0x7FF, 0, 0, 0, 0], rc 7 3 0 [0x01000000, 300, 0]] with
    hso.vfeed := Vector.replicate 3 12000,
    facet.eng := vmod up.facet.eng 7 (fun e => { e with bank0 := some { words := [0x80000000, flags] } }) } 31 f

/-- A program image of 64 words with no profile, as FACET_LOAD's payload; its PCRC is proved in quarters. -/
def progHead : List (BitVec 8) := bytesOf 4 0x46455443 ++ bytesOf 4 64 ++ bytesOf 4 64
def oneProg : List (BitVec 8) := progHead ++ bytesOf 4 556488786 ++ List.replicate 256 0
theorem crc_head : progHead.foldl crcByte 0xFFFFFFFF#32 = 495277278#32 := by decide +kernel
theorem crc_q1 : (List.replicate 64 0#8).foldl crcByte 495277278#32 = 3281732220#32 := by decide +kernel
theorem crc_q2 : (List.replicate 64 0#8).foldl crcByte 3281732220#32 = 2654164506#32 := by decide +kernel
theorem crc_q3 : (List.replicate 64 0#8).foldl crcByte 2654164506#32 = 1151778906#32 := by decide +kernel
theorem crc_q4 : (List.replicate 64 0#8).foldl crcByte 1151778906#32 = 3738478509#32 := by decide +kernel
theorem oneProg_crc : imageCrc oneProg = 556488786#32 := by
  have h : oneProg.take 12 ++ oneProg.drop 16 = progHead ++ (List.replicate 64 0#8 ++ (List.replicate 64 0#8
      ++ (List.replicate 64 0#8 ++ List.replicate 64 0#8))) := by decide +kernel
  unfold imageCrc crc32c
  rw [h, List.foldl_append, List.foldl_append, List.foldl_append, List.foldl_append, crc_head, crc_q1, crc_q2, crc_q3, crc_q4]
  decide
theorem oneProg_parses : (progParse oneProg).isRight = true := by
  unfold progParse
  simp only [oneProg_crc]
  decide +kernel
theorem oneProg_read : payloadOf (upM oneProg) (dM 272) (.facetLoad 0x80) = oneProg := by decide +kernel
theorem inr_of {α β : Type} (x : α ⊕ β) (d : β) (h : x.isRight = true) : x = .inr (x.elim (fun _ => d) id) := by
  cases x with
  | inl a => simp at h
  | inr b => rfl

/-- LED string 11 with its record, feeds at 12 V, and that string changed. -/
def upL (body : List (BitVec 32)) (f : LedCh → LedCh) : State :=
  let s := { upW [rc 9 1 11 body] with hso.vfeed := Vector.replicate 3 12000 }
  { s with led.ch := vmod s.led.ch 11 f }

/-- The matrix with its record. -/
def upX (body : List (BitVec 32)) : State := upW [rc 10 1 0 body]

/-- CAN channel 9, enabled with these control bits and awake, in normal mode, with more records, and changed. -/
def upC (ctrl : BitVec 32) (more : List Rec) (f : CanCh → CanCh) : State :=
  let s := upW (rc 12 1 9 [ctrl ||| 1, 0x04894403, 0, 0] :: more)
  { s with can.ch := vmod s.can.ch 9 (fun c => f { c with xcvr := 0 }) }

/-- A frame that a CAN_TX placed in transmit buffer 0 and that is on the bus. -/
def txF : TxFrame := { kind := .host {} none }
def onBusF (c : CanCh) : CanCh := { c with tb := vset c.tb 0 (some txF), onBus := some 0 }

/-- A CAN_SCHED record: one cycle of 1 ms with one window, a message of slot 0. -/
def sched1 : Rec := rc 12 3 9 [0x400, 1000, 0, 100, 0, 1]

/-- Bus 9 with its NET_BUS record, its channel awake, and that bus changed. -/
def upN (body : List (BitVec 32)) (more : List Rec) (f : NetBus → NetBus) : State :=
  (upC 0 (rc 13 1 9 body :: more) id).modBus 9 f

/-- A worker and a manager with these configuration records, and with link `w` UP and changed. -/
def wkL (rs : List Rec) (w : Nat) (f : PLink → PLink) : State := { wk with cfg.recs := rs }.modLink w (fun l => f { l with up := true })
def mgL (rs : List Rec) (w : Nat) (f : PLink → PLink) : State := { mg with cfg.recs := rs }.modLink w (fun l => f { l with up := true })

/-- PLAIT_WORKER of worker 31 whose pages have this attribute. -/
def rec31 (a : BitVec 32) : Rec := rc 15 2 31 [a, 0x1000, 0x10, 0]

theorem eui_other : Config.eui + 1 ≠ Config.eui := fun h => by
  have h2 : (Config.eui + 1) - Config.eui = 0 := by rw [h]; exact BitVec.sub_self _
  rw [BitVec.add_comm, BitVec.add_sub_cancel] at h2
  exact absurd h2 (by decide)
theorem role_mg : mg.role = .manager := by decide +kernel
theorem eth_mg : mg.isOn .eth = true := by decide +kernel

/-- The access service on, with antenna 0 in use and its zone up to 200 cm. -/
def upA (mode : Mode) (f : Acc → Acc) : State :=
  let s := upW [rc 16 1 0 [0x3C2007, 0], rc 16 2 0 [0x00C80000]]
  { s with pwr.mode := mode, acc := f { s.acc with antOk := 1, tok := vset s.acc.tok 7 { paired := true } } }

/-- The manifest of an image of 16 zero bytes, its signatures zero. -/
def mft : List (BitVec 8) :=
  bytesOf 4 0x464D5848 ++ bytesOf 2 1 ++ bytesOf 2 0 ++ bytesOf 4 0 ++ bytesOf 4 0x09600041 ++ bytesOf 2 1 ++ bytesOf 2 1 ++ bytesOf 4 16
    ++ bytesOf 2 1 ++ List.replicate 38 0 ++ bytesOf 2 1 ++ List.replicate 30 0
    ++ bytesOf 4 (crc32c (List.replicate 16 0)).toNat ++ List.replicate 64 0

/-- A standing machine in this mode with the manifest at 0x1000, feeds at 12 V, and its update state changed. -/
def upU (mode : Mode) (n : Nor) (f : Upd → Upd) : State :=
  { upM mft with pwr.mode := mode, hso.vfeed := Vector.replicate 3 12000, nor := n, upd := f { up.upd with speed := 0 } }
theorem mft_read : payloadOf (upU .run {} id) (dM 164) .updBegin = mft := by decide +kernel

/-- A settings area that is full. -/
def fullItems : List (BitVec 16 × List (BitVec 8)) := List.replicate 256 (5, List.replicate 4096 0)
def upFull : State := { up with nor.area0.items := fullItems }
theorem storeBytes_replicate (n : Nat) (k : BitVec 16) (v : List (BitVec 8)) : storeBytes (List.replicate n (k, v)) = n * v.length := by
  induction n with
  | zero => simp [storeBytes]
  | succ n h =>
    simp only [storeBytes, List.map_replicate] at h ⊢
    rw [List.replicate_succ, List.sum_cons, h, Nat.succ_mul, Nat.add_comm]
theorem fullItems_bytes : 1048576 < storeBytes fullItems + [0#8].length := by
  rw [fullItems, storeBytes_replicate, List.length_replicate]
  decide
theorem replicate_kept (n : Nat) (k q : BitVec 16) (v : List (BitVec 8)) (h : k ≠ q) :
    (List.replicate n (k, v)).filter (fun x => x.1 != q) = List.replicate n (k, v) :=
  List.filter_replicate_of_pos (by simpa using h)
theorem fullItems_kept : fullItems = (upFull.area upFull.upd.boot.sarea).items.filter (fun x => x.1 != 0xFFFF) := by
  have h : upFull.area upFull.upd.boot.sarea = upFull.nor.area0 := rfl
  have h2 : upFull.nor.area0.items = fullItems := rfl
  rw [h, h2, fullItems, replicate_kept _ _ _ _ (by decide)]

/-! ## Descriptors that break a check -/

/-- Operands out of their ranges and payload lengths that break an opcode's rule, one for each check of `operandsOk`. -/
theorem test_wf_refuses_operands_of_ranges :
    (HostCmd.modeSet 12).operandsOk {} = false ∧ (HostCmd.perfSet 5).operandsOk {} = false ∧
    (HostCmd.domainSet 12 0).operandsOk {} = false ∧ (HostCmd.captureArm 0 0).operandsOk {} = false ∧
    HostCmd.rxPost.operandsOk { payAddr := 16, payLen := 64 } = false ∧ HostCmd.rxPost.operandsOk { payLen := 31 } = false ∧
    (HostCmd.hsoSet 0 2 4097).operandsOk {} = false ∧ (HostCmd.hsoMulti 1 2 4097).operandsOk {} = false ∧
    (HostCmd.eccInject 0 3).operandsOk {} = false ∧ (HostCmd.eccInject 16 0).operandsOk {} = false ∧
    (HostCmd.eccInject 0x78000000 0).operandsOk {} = false ∧ (HostCmd.eccInject 0x80700000 0).operandsOk {} = false := by
  decide +kernel

theorem test_wf_refuses_operands_of_channels :
    (HostCmd.fioSet 48 0).operandsOk {} = false ∧ (HostCmd.fioSet 0 4097).operandsOk {} = false ∧
    (HostCmd.fioMulti (2 ^ 48) 0).operandsOk {} = false ∧ (HostCmd.fioMulti 1 4097).operandsOk {} = false ∧
    (HostCmd.fioClear 48).operandsOk {} = false ∧ (HostCmd.fioRead 48).operandsOk {} = false ∧
    (HostCmd.ledSet 12 0 0).operandsOk {} = false ∧ (HostCmd.ledClear 12).operandsOk {} = false ∧
    (HostCmd.ledRead 12).operandsOk {} = false ∧ (HostCmd.canTx 10 0 0 0 0 0 0 0 0 0 0 0 0).operandsOk {} = false ∧
    (HostCmd.canTx 0 3 0 0 0 0 0 0 0 0 0 0 0).operandsOk {} = false ∧ (HostCmd.canTpTx 10 0 0 0 0).operandsOk {} = false ∧
    (HostCmd.canMode 10 0 0).operandsOk {} = false ∧ (HostCmd.canRecover 10).operandsOk {} = false ∧
    (HostCmd.canTtWrite 10 0 0 0 0 0 0).operandsOk {} = false ∧ (HostCmd.canTtWrite 0 3 0 0 0 0 0).operandsOk {} = false ∧
    (HostCmd.canAc 0 3 0).operandsOk {} = false ∧ (HostCmd.canRead 10).operandsOk {} = false ∧
    (HostCmd.netRead 10).operandsOk {} = false := by
  decide +kernel

theorem test_wf_refuses_payload_lengths :
    (HostCmd.accPair 1).operandsOk { payLen := 19 } = false ∧ HostCmd.accTakeover.operandsOk { payLen := 20 } = false ∧
    HostCmd.accRelKey.operandsOk { payLen := 16 } = false ∧ (HostCmd.accSearch 0).operandsOk {} = false ∧
    (HostCmd.accSearch 3).operandsOk {} = false ∧ (HostCmd.loupeRead 0).operandsOk { payLen := 65537 } = false ∧
    HostCmd.updOemKey.operandsOk { payLen := 63 } = false ∧ (HostCmd.setWrite 0).operandsOk { payLen := 4097 } = false := by
  decide +kernel

/-- A due time where the table admits none, MODE_SET's (R50) and MTX_SWAP's among them, and none where one is required. -/
theorem test_wf_refuses_due_times :
    HostCmd.nop.dueOk { due := 4 } = false ∧ (HostCmd.modeSet 9).dueOk { due := 4 } = false ∧
    (HostCmd.mtxSwap 1).dueOk { due := 4 } = false ∧ (HostCmd.fleetCommit 0 0).dueOk {} = false ∧
    HostCmd.nop.wf { due := 4 } = false := by
  decide +kernel

/-- The same checks take what lies at the ends of the ranges. -/
theorem test_wf_takes_range_ends :
    (HostCmd.modeSet 8).wf { due := 4 } = true ∧ (HostCmd.hsoSet 63 2 4096).wf { due := 4 } = true ∧
    HostCmd.rxPost.wf { payAddr := 32, payLen := 32 } = true ∧ (HostCmd.eccInject 0x806FFFE0 2).wf {} = true ∧
    (HostCmd.canTx 9 2 0 0 0 0 0 0 0 0 0 0 0).wf {} = true ∧ (HostCmd.accSearch 2).wf {} = true := by
  decide +kernel

/-! ## Words written out -/

/-- No row of the table gives bits, so no word spells a command. -/
theorem test_no_table_word_spells_a_command : decodeTableWord 32 0x00000701 = none := rfl

/-- Instructions of the seed-clutch program, as Table 9.12 writes them out. -/
theorem test_facet_words_of_table_9_12 :
    facetDecode 0x10000014 = some (.freq 20) ∧ facetDecode 0x30000010 = some (.slopew 16) ∧
    facetDecode 0x04000223 = some (.phase 3 2 8) ∧ facetDecode 0x08001770 = some (.seti 6000) ∧
    facetDecode 0x140F4240 = some (.wait 1000000) ∧ facetDecode 0x340007D0 = some (.tmo 2000) ∧
    facetDecode 0x280009C4 = some (.waitc 2500 0 false false 0) ∧
    facetDecode 0x2C10C000 = some (.waits 0 3 true false 0) ∧ facetDecode 0x64000000 = some .endp := by
  decide +kernel

/-- Instructions of the spray-nozzle program, as Table 9.15 writes them out. -/
theorem test_facet_words_of_table_9_15 :
    facetDecode 0x3CC00000 = some (.mov 3 0) ∧ facetDecode 0x44C3E890 = some (.addi 3 (-6000)) ∧
    facetDecode 0x18C00000 = some (.waitr 3) ∧ facetDecode 0x1C0186A0 = some (.wadd 100000) ∧
    facetDecode 0x24000000 = some .waitw := by
  decide +kernel

/-- The check value of R156. -/
theorem test_crc_check_value : crc32c [0x31, 0x32, 0x33, 0x34, 0x35, 0x36, 0x37, 0x38, 0x39] = 0xE3069283 := by decide +kernel

/-! ## Single steps -/

/-- The state after a step; the state before it where there is none. -/
def after (i : Instr) (s : State) : State := match exec i s with | .next t => t | _ => s

/-- Ring 9 of the example of chapter 4. -/
def ring9 : State :=
  State.modRing { up with rings.dbReg := true, rings.dbBase := 0x8000FC00 } 9 (fun r => { r with
    dbase := 0x80010000, cbase := 0x80010400, enable := true, pi := 40, cci := 30, fetch := 40, written := 34 })

/-- A PI of 47 passes CCI 30 by more than 16 entries and halts the ring; 46 does not (example of chapter 4, R151). -/
theorem test_doorbell_overrun_halts :
    ((after (.doorbellStore 0 0x48 2 47) ring9).ringN 9).halt = true ∧
    ((after (.doorbellStore 0 0x48 2 46) ring9).ringN 9).halt = false ∧
    ((after (.doorbellStore 0 0x48 2 46) ring9).ringN 9).pi = 46 := by
  decide +kernel

/-- The thirty-fifth completion of a ring of 16 goes to slot 2 with PHASE 1 (example of chapter 4, Table 4.6). -/
theorem test_completion_slot_and_phase :
    ((after (.nop { ring := 9, index := 39 }) ring9).mem.bytes 0x80010440 8) = bytesOf 4 0x89030300 ++ bytesOf 4 7 ∧
    ((after (.nop { ring := 9, index := 39 }) ring9).ringN 9).written = 35 := by
  decide +kernel

/-- A 2-byte load of a worker's register page is SIZE_UNSUPPORTED; HSO_SENSE_12 of worker 3 lies at offset 0x501C8 (example
of chapter 21, R530). -/
theorem test_window_refuses_halfword_of_a_register :
    (after (.windowAccess 0 3 0x501C8 2 false false 0) (mgL [] 3 id)).plait.errStatus.toNat = stSizeUnsupported ∧
    (after (.windowAccess 0 3 0x501C8 2 false false 0) (mgL [] 3 id)).plait.errAddr = 0x501C8 := by
  decide +kernel

/-- The fifth failure within 10 min, at 8 min, begins a lock-out of 10 min and LEVEL becomes 1 (Table 15.4). -/
theorem test_fifth_failure_locks_out :
    (after (.pollDone [{ slot := 7, d0 := 100, correct := false }] true 0) { upA .run (fun a => { a with
        polling := true, fails := [0, 120 * sec, 240 * sec, 360 * sec] }) with clk.ns := 480 * sec }).acc.lock
      = some (480 * sec, 1080 * sec) ∧
    (after (.pollDone [{ slot := 7, d0 := 100, correct := false }] true 0) { upA .run (fun a => { a with
        polling := true, fails := [0, 120 * sec, 240 * sec, 360 * sec] }) with clk.ns := 480 * sec }).acc.level = 1 := by
  decide +kernel

/-- A NOP from a queue of two leaves the second command waiting. -/
theorem test_step_takes_the_front :
    (match step { up with pending := [.kl15On, .kl15Off] } with | .next t => t.pending | _ => []) = [.kl15Off] := by
  decide +kernel

/-- Reset holds no command, and a word that spells none leaves the state as it is. -/
theorem test_fetch_word_of_no_bits : State.reset.withFetchWord 8 3 = State.reset ∧ State.reset.pending = [] := ⟨rfl, rfl⟩

/-! ## What the hypotheses of the statements are met by -/

theorem test_StepRunsTheFront_hypotheses_met :
    (∃ (s : State) (c : Instr) (rest : List Instr), s.pending = c :: rest) :=
  ⟨{ up with pending := [.nop {}] }, .nop {}, [], by decide +kernel⟩

theorem test_EmptyQueueTicks_hypotheses_met :
    (∃ (s : State), s.pending = []) ∧
    (∃ (s : State), s.pending = [] ∧ s.timRuns = true ∧ s.weave.slew = 0 ∧ s.plait.link.toList.all (fun l =>
      l.held.isEmpty) = true) ∧
    (∃ (s : State), s.pending = [] ∧ s.timRuns = false ∧ s.plait.link.toList.all (fun l => l.held.isEmpty) = true) :=
  ⟨⟨up, by decide +kernel⟩,
   ⟨up, by decide +kernel⟩,
   ⟨State.reset, by decide +kernel⟩⟩

theorem test_StepsKeepStatesSound_hypotheses_met :
    (∃ (s : State) (t : State), step s = .next t ∧ Sound s) :=
  ⟨up, idle up, rfl, by unfold Sound; decide +kernel⟩

theorem test_StoresReadBack_hypotheses_met :
    (∃ (a : Nat) (bs : List (BitVec 8)) (x : Nat), (x < a ∨ a + bs.length ≤ x)) ∧
    (∃ (m : Mem), m.wf = true) ∧
    (∃ (m : Mem) (n : Mem), m.wf = true ∧ n.wf = true ∧ (∀ a, m.byte a = n.byte a)) :=
  ⟨⟨5, [1#8], 4, by decide +kernel⟩,
   ⟨{}, by decide +kernel⟩,
   ⟨{}, {}, by decide, by decide, fun _ => rfl⟩⟩

theorem test_GivenDescriptorsAreTakenUp_hypotheses_met :
    (∃ (i : Instr) (d : Desc) (c : HostCmd), hostOf i = some (d, c)) ∧
    (∃ (s : State) (ring : Fin 128) (bs : List (BitVec 8)) (c : HostCmd), crc32c (bs.take 60) = wordAt bs 15 ∧
      HostCmd.parse (bits (wordAt bs 0).toNat 8 8) (bits (wordAt bs 0).toNat 0 8) (fun k => (wordAt bs (4 +
      k)).toNat) = some c ∧ reservedOk bs c = true ∧ (s.ringN ring).remote = false) ∧
    (∃ (i : Instr) (d : Desc) (c : HostCmd) (s : State), hostOf i = some (d, c) ∧ Ready s d c = true) :=
  ⟨⟨.nop {}, {}, .nop, by decide +kernel⟩,
   ⟨up, 0, testNop, .nop, by decide +kernel⟩,
   ⟨.nop {}, {}, .nop, up, by decide +kernel⟩⟩

theorem test_RefusedDescriptorsComplete_hypotheses_met :
    (∃ (i : Instr) (d : Desc) (c : HostCmd) (s : State), hostOf i = some (d, c) ∧ (c.wf d = false ∨ stateWf s d c =
      false)) ∧
    (∃ (i : Instr) (d : Desc) (c : HostCmd) (s : State), hostOf i = some (d, c) ∧ c.wf d = true ∧ stateWf s d c =
      true ∧ d.payLen ≠ 0 ∧ hostRange d.payAddr.toNat d.payLen.toNat = false) ∧
    (∃ (i : Instr) (d : Desc) (c : HostCmd) (s : State), hostOf i = some (d, c) ∧ c.wf d = true ∧ stateWf s d c =
      true ∧ payloadReady s d c = true ∧ (s.ringN d.ring).outs = [] ∧ (s.ringN d.ring).held = [] ∧ (s.ringN
      d.ring).cancels = [] ∧ (s.domCtl (blockDom c.block)).closed = true) ∧
    (∃ (i : Instr) (d : Desc) (c : HostCmd) (s : State), hostOf i = some (d, c) ∧ c.wf d = true ∧ stateWf s d c =
      true ∧ payloadReady s d c = true ∧ (s.ringN d.ring).outs = [] ∧ (s.ringN d.ring).held = [] ∧ (s.ringN
      d.ring).cancels = [] ∧ (s.domCtl (blockDom c.block)).closed = false ∧ (s.entryNow (blockDom c.block) = .off ∨
      s.blockDisabled c.block = true)) ∧
    (∃ (i : Instr) (d : Desc) (c : HostCmd) (s : State), hostOf i = some (d, c) ∧ c.wf d = true ∧ stateWf s d c =
      true ∧ payloadReady s d c = true ∧ (s.ringN d.ring).outs = [] ∧ (s.ringN d.ring).held = [] ∧ (s.ringN
      d.ring).cancels = [] ∧ (s.domCtl (blockDom c.block)).closed = false ∧ s.entryNow (blockDom c.block) ≠ .off ∧
      s.blockDisabled c.block = false ∧ d.due = 0 ∧ d.syncReq = true ∧ s.synced = false) ∧
    (∃ (i : Instr) (d : Desc) (c : HostCmd) (s : State) (o : Outst), hostOf i = some (d, c) ∧ c.wf d = true ∧ stateWf
      s d c = true ∧ payloadReady s d c = true ∧ (s.ringN d.ring).outs = [o] ∧ o.d.index ≠ d.index ∧ (s.ringN
      d.ring).held = [] ∧ (s.ringN d.ring).cancels = [] ∧ d.fence = true) ∧
    (∃ (i : Instr) (d : Desc) (c : HostCmd) (s : State), hostOf i = some (d, c) ∧ c.wf d = true ∧ stateWf s d c =
      true ∧ payloadReady s d c = true ∧ (s.ringN d.ring).outs = [] ∧ (s.ringN d.ring).cancels = [d.index]) :=
  ⟨⟨.hsoSet {} 5 1 4097, {}, .hsoSet 5 1 4097, up, by decide +kernel⟩,
   ⟨.configStage { payAddr := 0x77FFFFC1, payLen := 64 }, { payAddr := 0x77FFFFC1, payLen := 64 }, .configStage, up, by decide +kernel⟩,
   ⟨.hsoSet {} 63 1 0, {}, .hsoSet 63 1 0, { up with pwr.dom := up.pwr.dom.set 3 { st := .on, closed := true } }, by decide +kernel⟩,
   ⟨.hsoSet {} 63 1 0, {}, .hsoSet 63 1 0, { up with cfg.empty := true }, by decide +kernel⟩,
   ⟨.hsoSet { syncReq := true } 63 1 0, { syncReq := true }, .hsoSet 63 1 0, { up with weave.sync := .lost }, by decide +kernel⟩,
   ⟨.nop { fence := true, index := 1 }, { fence := true, index := 1 }, .nop, (up.modRing 0 (fun r => { r with outs := [{ d := {}, block := 3, opcode := 3 }] })), { d := {}, block := 3, opcode := 3 }, by decide +kernel⟩,
   ⟨.nop {}, {}, .nop, (up.modRing 0 (fun r => { r with cancels := [0] })), by decide +kernel⟩⟩

theorem test_LaunchesWaitForTheirTick_hypotheses_met :
    (∃ (i : Instr) (d : Desc) (c : HostCmd) (s : State), hostOf i = some (d, c) ∧ c.wf d = true ∧ payloadReady s d c
      = true ∧ stateWf s d c = true ∧ (s.ringN d.ring).outs = [] ∧ (s.ringN d.ring).held = [] ∧ (s.ringN
      d.ring).cancels = [] ∧ s.weave.queue = [] ∧ (s.domCtl (blockDom c.block)).closed = false ∧ s.entryNow (blockDom
      c.block) ≠ .off ∧ s.blockDisabled c.block = false ∧ s.isOn (blockDom c.block) = true ∧ d.due ≠ 0 ∧ (d.syncReq =
      true → s.synced = true) ∧ c.block ≠ 4 ∧ admitHost d c (taken s d c) = stOk ∧ s.weave.time.toNat + 50000 ≤
      d.due.toNat ∧ d.due.toNat ≤ s.weave.time.toNat + 600000000000) ∧
    (∃ (i : Instr) (d : Desc) (c : HostCmd) (s : State), hostOf i = some (d, c) ∧ c.wf d = true ∧ payloadReady s d c
      = true ∧ stateWf s d c = true ∧ (s.ringN d.ring).outs = [] ∧ (s.ringN d.ring).held = [] ∧ (s.ringN
      d.ring).cancels = [] ∧ (s.domCtl (blockDom c.block)).closed = false ∧ s.entryNow (blockDom c.block) ≠ .off ∧
      s.blockDisabled c.block = false ∧ d.due ≠ 0 ∧ d.syncReq = true ∧ s.synced = false) ∧
    (∃ (i : Instr) (d : Desc) (c : HostCmd) (s : State), hostOf i = some (d, c) ∧ c.wf d = true ∧ payloadReady s d c
      = true ∧ stateWf s d c = true ∧ (s.ringN d.ring).outs = [] ∧ (s.ringN d.ring).held = [] ∧ (s.ringN
      d.ring).cancels = [] ∧ (s.domCtl (blockDom c.block)).closed = false ∧ s.entryNow (blockDom c.block) ≠ .off ∧
      s.blockDisabled c.block = false ∧ d.due ≠ 0 ∧ d.syncReq = false ∧ s.weave.time.toNat + 600000000000 <
      d.due.toNat) ∧
    (∃ (i : Instr) (d : Desc) (c : HostCmd) (s : State), hostOf i = some (d, c) ∧ c.wf d = true ∧ payloadReady s d c
      = true ∧ stateWf s d c = true ∧ (s.ringN d.ring).outs = [] ∧ (s.ringN d.ring).held = [] ∧ (s.ringN
      d.ring).cancels = [] ∧ (s.domCtl (blockDom c.block)).closed = false ∧ s.entryNow (blockDom c.block) ≠ .off ∧
      s.blockDisabled c.block = false ∧ d.due ≠ 0 ∧ d.syncReq = false ∧ 1024 ≤ s.weave.queue.length ∧ d.due.toNat ≤
      s.weave.time.toNat + 600000000000) ∧
    (∃ (i : Instr) (d : Desc) (c : HostCmd) (s : State), hostOf i = some (d, c) ∧ c.wf d = true ∧ payloadReady s d c
      = true ∧ stateWf s d c = true ∧ (s.ringN d.ring).outs = [] ∧ (s.ringN d.ring).held = [] ∧ (s.ringN
      d.ring).cancels = [] ∧ s.weave.queue.length < 1024 ∧ (s.domCtl (blockDom c.block)).closed = false ∧ s.entryNow
      (blockDom c.block) ≠ .off ∧ s.blockDisabled c.block = false ∧ d.due ≠ 0 ∧ d.syncReq = false ∧ c.block ≠ 4 ∧
      admitHost d c (taken s d c) = stOk ∧ d.due.toNat < s.weave.time.toNat + 50000 ∧ d.lateExec = false) :=
  ⟨⟨.hsoSet { due := 50000 } 63 1 0, { due := 50000 }, .hsoSet 63 1 0, up, by decide +kernel⟩,
   ⟨.hsoSet { due := 50000, syncReq := true } 63 1 0, { due := 50000, syncReq := true }, .hsoSet 63 1 0, { up with weave.sync := .lost }, by decide +kernel⟩,
   ⟨.hsoSet { due := 600000000001 } 63 1 0, { due := 600000000001 }, .hsoSet 63 1 0, up, by decide +kernel⟩,
   ⟨.hsoSet { due := 600000000000 } 63 1 0, { due := 600000000000 }, .hsoSet 63 1 0, { up with weave.queue := List.replicate 1024 {} }, by decide +kernel⟩,
   ⟨.hsoSet { due := 49999 } 63 1 0, { due := 49999 }, .hsoSet 63 1 0, up, by decide +kernel⟩⟩

theorem test_CompletionsAreWrittenIntoTheRing_hypotheses_met :
    (∃ (s : State) (d : Desc), Ready s d .nop = true) ∧
    (∃ (s : State) (d : Desc) (a : Nat), Ready s d .nop = true ∧ s.isOn .svc = true ∧ (s.ringN d.ring).remote = false
      ∧ a = (s.ringN d.ring).cbase.toNat + (s.ringN d.ring).written.toNat % (s.ringN d.ring).n * 32 ∧ 0x80000000 ≤ a) :=
  ⟨⟨up, {}, by decide +kernel⟩,
   ⟨(up.modRing 0 (fun r => { r with cbase := 0x80001000, written := 3 })), {}, 0x80001060, by decide +kernel⟩⟩

theorem test_EventsLeaveTheirTraces_hypotheses_met :
    (∃ (s : State) (code : Nat), s.isOn .svc = true ∧ code / 256 < 32) ∧
    (∃ (s : State) (code : Nat), s.isOn .bezel = true ∧ code < 65536 ∧ (code / 256 = 0x11 ∨ code / 256 = 0x01) ∧
      s.bezel.log.length ≤ 31) ∧
    (∃ (s : State), s.bezel.log.length ≤ 32) :=
  ⟨⟨up, 0, by decide +kernel⟩,
   ⟨up, 0x11FF, by decide +kernel⟩,
   ⟨up, by decide +kernel⟩⟩

theorem test_EveryCommandChangesOnlyItsParts_hypotheses_met :
    (∃ (i : Instr) (s : State) (t : State), exec i s = .next t) :=
  ⟨.crystalRunning, { up with pwr.crystal := .waiting }, { up with pwr.crystal := .running }, rfl⟩

theorem test_PowerOnResetsAndWakesBeginStart_hypotheses_met :
    (∃ (s : State), s.bezel.mirrorErasing = false) ∧
    (∃ (s : State) (n : Nat), 10000 ≤ n ∧ s.pwr.mode ≠ .storage) ∧
    (∃ (n : Nat), n < 1000) ∧
    (∃ (s : State), s.pwr.mode ≠ .storage ∧ s.pwr.mode ≠ .limp) ∧
    (∃ (s : State), s.pwr.mode = .start) ∧
    (∃ (s : State), s.pwr.mode = .park ∧ s.pwr.entering = false ∧ s.pwr.regsFalling = false ∧ s.role = .standalone) ∧
    (∃ (s : State), s.pwr.mode = .limp ∨ s.pwr.mode = .service ∨ s.pwr.mode = .update ∨ s.pwr.mode = .start) ∧
    (∃ (s : State), s.pwr.mode = .guard ∧ s.pwr.entering = false ∧ s.pwr.regsFalling = false) ∧
    (∃ (s : State) (w : Wake), s.pwr.regsFalling = true ∧ s.wakeArmed w = true ∧ s.pwr.latched = none) ∧
    (∃ (s : State) (w : Wake), s.pwr.regsFalling = true ∧ s.pwr.latched = some w) ∧
    (∃ (s : State), s.pwr.regsFalling = true ∧ s.pwr.latched = none) ∧
    (∃ (s : State), s.pwr.mode = .guard ∧ s.pwr.entering = false) :=
  ⟨⟨State.reset, by decide +kernel⟩,
   ⟨up, 10000, by decide +kernel⟩,
   ⟨999, by decide +kernel⟩,
   ⟨up, by decide +kernel⟩,
   ⟨State.reset, by decide +kernel⟩,
   ⟨{ up with pwr.mode := .park }, by decide +kernel⟩,
   ⟨{ up with pwr.mode := .limp, pwr.kl15 := true, pwr.wake := 15 }, by decide +kernel⟩,
   ⟨{ up with pwr.mode := .guard }, by decide +kernel⟩,
   ⟨{ up with pwr.mode := .park, pwr.regsFalling := true }, .pin 3, by decide +kernel⟩,
   ⟨{ up with pwr.mode := .park, pwr.regsFalling := true, pwr.latched := some (.pin 3) }, .pin 3, by decide +kernel⟩,
   ⟨{ up with pwr.mode := .park, pwr.regsFalling := true }, by decide +kernel⟩,
   ⟨{ up with pwr.mode := .guard }, by decide +kernel⟩⟩

theorem test_StartBringsUpRails_hypotheses_met :
    (∃ (s : State) (rail : Fin 6), s.startRail rail = true ∧ rail.val < 5) ∧
    (∃ (s : State), s.startRail 5 = true) ∧
    (∃ (s : State) (rail : Fin 6), s.startRail rail = true ∧ s.pwr.lowHold = false ∧ s.pwr.railTries < 3) ∧
    (∃ (s : State) (rail : Fin 6), s.startRail rail = true ∧ s.pwr.lowHold = false ∧ 3 ≤ s.pwr.railTries ∧ 2 ≤
      rail.val ∧ rail.val < 5) ∧
    (∃ (s : State) (rail : Fin 6), s.startRail rail = true ∧ s.pwr.lowHold = false ∧ 3 ≤ s.pwr.railTries ∧ rail.val <
      2) ∧
    (∃ (s : State) (rail : Fin 6), s.railUp rail = true ∧ s.pwr.mode ≠ .storage ∧ s.pwr.mode ≠ .limp) ∧
    (∃ (s : State), s.pwr.crystal = .waiting) ∧
    (∃ (s : State), s.pwr.rcClock = true) ∧
    (∃ (s : State) (a : Bool) (b : Bool) (bad : BitVec 10), s.startReady = true ∧ (imageStart (startBezel s bad) a
      b).1 = true) ∧
    (∃ (s : State) (a : Bool) (b : Bool) (bad : BitVec 10), s.startReady = true ∧ (imageStart (startBezel s bad) a
      b).1 = false) ∧
    (∃ (s : State), s.startReady = false) :=
  ⟨⟨State.reset, 0, by decide +kernel⟩,
   ⟨{ State.reset with pwr.rail := 5 }, by decide +kernel⟩,
   ⟨{ State.reset with pwr.rail := 5, pwr.railTries := 2 }, 5, by decide +kernel⟩,
   ⟨{ State.reset with pwr.rail := 4, pwr.railTries := 3 }, 4, by decide +kernel⟩,
   ⟨{ State.reset with pwr.railTries := 3 }, 0, by decide +kernel⟩,
   ⟨up, 5, by decide +kernel⟩,
   ⟨{ up with pwr.crystal := .waiting }, by decide +kernel⟩,
   ⟨{ up with pwr.rcClock := true }, by decide +kernel⟩,
   ⟨{ State.reset with pwr.rail := 6, pwr.crystal := .running }, true, false, 0, by decide +kernel⟩,
   ⟨{ State.reset with pwr.rail := 6, pwr.crystal := .failed }, false, false, 0, by decide +kernel⟩,
   ⟨up, by decide +kernel⟩⟩

theorem test_ModesAndLevelsAreSet_hypotheses_met :
    (∃ (s : State) (d : Desc) (m : BitVec 4), Ready s d (.modeSet m) = true ∧ modeSetStatus s m.toNat = stOk) ∧
    (∃ (s : State) (d : Desc) (m : BitVec 4), Ready s d (.modeSet m) = true ∧ modeSetStatus s m.toNat ≠ stOk) ∧
    (∃ (s : State), (s.pwr.mode = .run ∨ s.pwr.mode = .road) ∧ s.kl15On = true ∧ s.pwr.rcClock = false ∧ s.synced =
      true) ∧
    (∃ (s : State), s.pwr.mode = .run ∨ s.pwr.mode = .field) ∧
    (∃ (s : State), s.pwr.mode = .accessory ∧ s.kl15On = false ∧ s.pwr.wake.getLsbD 0 = true) ∧
    (∃ (s : State) (d : Desc) (n : BitVec 1) (x : BitVec 3), Ready s d (.needSet n x) = true) ∧
    (∃ (s : State) (d : Desc) (l : BitVec 3), Ready s d (.perfSet l) = true ∧ l.toNat ≤ s.plCap) ∧
    (∃ (s : State) (d : Desc) (l : BitVec 3), Ready s d (.perfSet l) = true ∧ s.plCap < l.toNat) ∧
    (∃ (s : State), s.plEffective = 4) ∧
    (∃ (s : State), s.pwr.pl4Capped = true ∧ s.pwr.pl4OnMax ≠ 0) ∧
    (∃ (s : State) (j : Int), s.pwr.govStep = 0 ∧ 140 < j) ∧
    (∃ (s : State) (e : BitVec 16) (j : Int) (n : Nat) (u : Nat), s.pwr.govStep = n + 1 ∧ n < 4 ∧ e.toNat * 10 <
      s.govLimit * 9 ∧ j < 125 ∧ s.pwr.underSince = some u ∧ u + 10 * sec ≤ s.clk.ns) ∧
    (∃ (s : State), (s.pwr.idleOn = true ∨ s.pwr.sleepOn = true)) ∧
    (∃ (s : State), s.pwr.idleOn = true ∧ s.pwr.compatLowered = []) ∧
    (∃ (s : State), s.isOn .host = true ∧ s.isOn .svc = true) ∧
    (∃ (s : State), s.isOn .host = true ∧ s.isOn .svc = true ∧ s.weave.queue = []) ∧
    (∃ (s : State), s.isOn .host = true ∧ s.isOn .svc = true ∧ s.isOn .mem = true ∧ s.weave.queue = []) ∧
    (∃ (s : State), s.isOn .host = true ∧ s.isOn .svc = true ∧ s.kl15On = false) ∧
    (∃ (s : State), s.isOn .host = true ∧ s.isOn .svc = true ∧ s.kl15On = true) ∧
    (∃ (s : State), s.isOn .host = true ∧ s.isOn .svc = true ∧ modeSetStatus s 0 = stOk) ∧
    (∃ (s : State), s.isOn .host = true ∧ s.isOn .svc = true ∧ modeSetStatus s 0 ≠ stOk) :=
  ⟨⟨up, {}, 8, by decide +kernel⟩,
   ⟨up, {}, 0, by decide +kernel⟩,
   ⟨{ up with pwr.kl15 := true }, by decide +kernel⟩,
   ⟨{ up with pwr.mode := .field }, by decide +kernel⟩,
   ⟨{ up with pwr.mode := .accessory, pwr.wake := 1 }, by decide +kernel⟩,
   ⟨up, {}, 0, 0, by decide +kernel⟩,
   ⟨up, {}, 0, by decide +kernel⟩,
   ⟨{ up with pwr.pl4Capped := true }, {}, 4, by decide +kernel⟩,
   ⟨{ up with pwr.plReq := 4 }, by decide +kernel⟩,
   ⟨{ up with pwr.pl4Capped := true }, by decide +kernel⟩,
   ⟨up, 141, by decide +kernel⟩,
   ⟨{ up with pwr.govStep := 4, pwr.underSince := some 0, clk.ns := 10000000000 }, 0, 124, 3, 0, rfl, by decide, by simp only [State.govLimit]; split; decide +kernel; exact Nat.lt_of_lt_of_le (by decide) (Nat.mul_le_mul_right 9 (Nat.le_max_left _ _)), by decide, rfl, by decide⟩,
   ⟨{ up with pwr.idleOn := true }, by decide +kernel⟩,
   ⟨{ up with pwr.idleOn := true }, by decide +kernel⟩,
   ⟨up, by decide +kernel⟩,
   ⟨up, by decide +kernel⟩,
   ⟨up, by decide +kernel⟩,
   ⟨up, by decide +kernel⟩,
   ⟨{ up with pwr.kl15 := true }, by decide +kernel⟩,
   ⟨{ up with pwr.mode := .accessory }, by decide +kernel⟩,
   ⟨up, by decide +kernel⟩⟩

theorem test_DomainsAreLoweredAndRaised_hypotheses_met :
    (∃ (s : State) (d : Desc) (n : BitVec 4) (st : BitVec 2), Ready s d (.domainSet n st) = true ∧ n.toNat < 10 ∧
      domStOf st.toNat = s.domSt (domOf n.toNat) ∧ (domStOf st.toNat).num ≤ (s.entryNow (domOf n.toNat)).num) ∧
    (∃ (s : State) (d : Desc) (n : BitVec 4) (st : BitVec 2), Ready s d (.domainSet n st) = true ∧ (10 ≤ n.toNat ∨
      (s.entryNow (domOf n.toNat)).num < (domStOf st.toNat).num)) ∧
    (∃ (s : State) (d : Desc) (n : BitVec 4) (st : BitVec 2), Ready s d (.domainSet n st) = true ∧ n.toNat < 10 ∧
      (s.domSt (domOf n.toNat)).num < (domStOf st.toNat).num ∧ (domStOf st.toNat).num ≤ (s.entryNow (domOf
      n.toNat)).num ∧ (s.domCtl (domOf n.toNat)).dead = false ∧ (s.domCtl (domOf n.toNat)).waking = none) ∧
    (∃ (s : State) (d : Desc) (n : BitVec 4) (st : BitVec 2), Ready s d (.domainSet n st) = true ∧ n.toNat < 10 ∧
      (domStOf st.toNat).num < (s.domSt (domOf n.toNat)).num ∧ (domStOf st.toNat).num ≤ (s.entryNow (domOf
      n.toNat)).num ∧ s.holdsLaunch (domOf n.toNat) = false) ∧
    (∃ (s : State) (d : Desc) (n : BitVec 4) (st : BitVec 2), Ready s d (.domainSet n st) = true ∧ n.toNat < 10 ∧
      (domStOf st.toNat).num < (s.domSt (domOf n.toNat)).num ∧ (domStOf st.toNat).num ≤ (s.entryNow (domOf
      n.toNat)).num ∧ s.holdsLaunch (domOf n.toNat) = true) ∧
    (∃ (s : State), s.weave.queue = []) ∧
    (∃ (s : State) (x : Drain), s.pwr.drains = [x] ∧ s.pwr.entering = false) ∧
    (∃ (s : State) (x : Drain), s.pwr.drains = [x] ∧ x.quiet = false ∧ s.pwr.entering = false) ∧
    (∃ (s : State) (d : Dom), s.pwr.drains.all (fun x => x.dom != d) = true) ∧
    (∃ (s : State) (dom : Dom), (s.domCtl dom).waking = some .on) ∧
    (∃ (s : State) (dom : Dom) (t : DomState), (s.domCtl dom).waking = some t ∧ t ≠ .on ∧ s.pwr.domWaits = [] ∧
      s.awaited dom = false) ∧
    (∃ (s : State) (dom : Dom), (s.domCtl dom).waking = none) ∧
    (∃ (s : State) (dom : Dom) (x : DomState), (s.domCtl dom).waking = some x ∧ (s.domCtl dom).fails < 2 ∧
      s.pwr.stalled = [] ∧ s.pwr.stalledCore = [] ∧ s.pwr.domWaits = [] ∧ s.weave.queue = [] ∧ dom ≠ .mem ∧
      s.plait.link.toList.all (fun l => l.held.isEmpty) = true) ∧
    (∃ (s : State) (x : DomState), (s.domCtl .eth).waking = some x ∧ 2 ≤ (s.domCtl .eth).fails ∧ s.pwr.stalled = [] ∧
      s.pwr.stalledCore = [] ∧ s.pwr.domWaits = [] ∧ s.weave.queue = [] ∧ s.plait.link.toList.all (fun l =>
      l.held.isEmpty) = true) :=
  ⟨⟨up, {}, 3, 3, by decide +kernel⟩,
   ⟨up, {}, 10, 0, by decide +kernel⟩,
   ⟨{ up with pwr.dom := up.pwr.dom.set 9 { st := .gated } }, {}, 9, 3, by decide +kernel⟩,
   ⟨up, {}, 9, 1, by decide +kernel⟩,
   ⟨{ up with weave.queue := [{ host := some ({}, .nop) }] }, {}, 1, 0, by decide +kernel⟩,
   ⟨up, by decide +kernel⟩,
   ⟨{ up with pwr.drains := [{ dom := .act, target := .gated }] }, { dom := .act, target := .gated }, by decide +kernel⟩,
   ⟨{ up with pwr.drains := [{ dom := .act, target := .gated }] }, { dom := .act, target := .gated }, by decide +kernel⟩,
   ⟨up, .led, by decide +kernel⟩,
   ⟨{ up with pwr.dom := up.pwr.dom.set 3 { st := .gated, waking := some .on } }, .act, by decide +kernel⟩,
   ⟨{ up with pwr.dom := up.pwr.dom.set 3 { st := .off, waking := some .ret } }, .act, .ret, by decide +kernel⟩,
   ⟨up, .led, by decide +kernel⟩,
   ⟨{ up with pwr.dom := up.pwr.dom.set 8 { st := .gated, waking := some .on, fails := 1 } }, .sec, .on, by decide +kernel⟩,
   ⟨{ up with pwr.dom := up.pwr.dom.set 6 { st := .gated, waking := some .on, fails := 2 } }, .on, by decide +kernel⟩⟩

theorem test_CoresReadAndWrite_hypotheses_met :
    (∃ (s : State) (a : BitVec 36), s.isOn .host = true ∧ regBase ≤ a.toNat ∧ a.toNat < 0xA0160000 ∧ a.toNat % 4 = 0
      ∧ s.isOn (blockDom (blockOfAddr a.toNat)) = true) ∧
    (∃ (s : State) (v : BitVec 32), s.isOn .host = true ∧ s.isOn .act = true ∧ s.stageLocked = false ∧ stageBytes
      (stageAdd s.cfg.stage { s.stagedBase 6 3 0 [0x408] with body := (s.stagedBase 6 3 0 [0x408]).body.set 0 (((s.stagedBase 6 3 0 [0x408]).body.getD 0 0 &&& ~~~0xF3F) ||| (v &&& 0xF3F)) })
      ≤ 48 * 1024) ∧
    (∃ (s : State) (a : BitVec 36), s.isOn .host = true ∧ s.isOn .act = true ∧ s.stageLocked = true ∧ a = 0xA0060000) ∧
    (∃ (s : State), s.isOn .host = true ∧ s.isOn .led = true ∧ s.led.run = false) ∧
    (∃ (s : State), s.isOn .host = true ∧ s.isOn .led = true ∧ s.led.run = true) ∧
    (∃ (s : State) (v : BitVec 32), s.isOn .host = true ∧ s.isOn .bezel = true ∧ v.toNat % 65536 = 0x0B1E ∧
      s.pwr.mode ≠ .storage) ∧
    (∃ (s : State) (v : BitVec 32), s.isOn .host = true ∧ s.isOn .bezel = true ∧ v.toNat % 65536 ≠ 0x0B1E) ∧
    (∃ (s : State) (v : BitVec 32), s.isOn .host = true ∧ s.isOn .bezel = true ∧ s.bezel.wdtEn = true ∧ v.setWidth 16
      = s.bezel.wdtNext ∧ s.bezel.kickAt = none) ∧
    (∃ (s : State), s.isOn .host = true ∧ s.isOn .svc = true ∧ anyRing s = false) ∧
    (∃ (s : State) (v : BitVec 32), s.isOn .host = true ∧ s.isOn .svc = true ∧ anyRing s = true ∧ v.getLsbD 0 ≠
      s.rings.dbReg) ∧
    (∃ (s : State), s.isOn .host = true ∧ s.isOn .eth = true) ∧
    (∃ (s : State), s.isOn .host = true ∧ s.isOn .act = true) ∧
    (∃ (s : State) (o : BitVec 10) (z : BitVec 2), s.rings.dbReg = true ∧ s.plait.rdbReg = false ∧ s.isOn .host =
      true ∧ s.isOn .svc = true ∧ s.isOn .mem = true ∧ s.mem.bad = [] ∧ hostRange s.rings.dbBase.toNat 1024 = true ∧
      s.rings.dbBase.toNat % 1024 = 0 ∧ (z = 3 ∨ z = 2) ∧ o.toNat % 2 ^ z.toNat = 0) ∧
    (∃ (s : State) (n : Fin 128), (s.ringN n).enable = true ∧ (s.ringN n).cls ≠ 2 ∧ (s.ringN n).halt = false) ∧
    (∃ (s : State) (o : BitVec 12) (z : BitVec 2), s.plait.rdbReg = true ∧ s.rings.dbReg = false ∧ s.isOn .host =
      true ∧ s.isOn .svc = true ∧ s.isOn .mem = true ∧ s.mem.bad = [] ∧ hostRange s.plait.rdb.toNat 4096 = true ∧
      s.plait.rdb.toNat % 4096 = 0 ∧ (z = 3 ∨ z = 2) ∧ o.toNat % 2 ^ z.toNat = 0) ∧
    (∃ (s : State) (a : BitVec 36), s.isOn .host = true ∧ s.isOn .svc = true ∧ s.isOn .mem = true ∧ s.mem.bad = [] ∧
      s.rings.dbReg = false ∧ s.plait.rdbReg = false ∧ hostRange a.toNat 8 = true) ∧
    (∃ (s : State) (a : BitVec 36), s.isOn .host = true ∧ s.isOn .svc = true ∧ s.isOn .mem = true ∧ s.mem.bad = [] ∧
      hostRange a.toNat 8 = true) ∧
    (∃ (s : State) (a : BitVec 36), s.isOn .host = true ∧ 0x80800000 ≤ a.toNat ∧ a.toNat < 0xA0000000) ∧
    (∃ (s : State) (a : BitVec 36), s.isOn .host = true ∧ regBase ≤ a.toNat ∧ a.toNat < 0xA0160000 ∧ a.toNat % 4 ≠ 0) :=
  ⟨⟨up, 0xA015FFFC, by decide +kernel⟩,
   ⟨up, 0, by decide +kernel⟩,
   ⟨{ up with cfg.stageSt := .sealed }, 0xA0060000, by decide +kernel⟩,
   ⟨up, by decide +kernel⟩,
   ⟨{ up with led.run := true }, by decide +kernel⟩,
   ⟨up, 0x0B1E, by decide +kernel⟩,
   ⟨up, 0x0B1F, by decide +kernel⟩,
   ⟨{ up with bezel.wdtEn := true, bezel.wdtNext := 5 }, 5, by decide +kernel⟩,
   ⟨up, by decide +kernel⟩,
   ⟨(up.modRing 127 (fun r => { r with enable := true })), 1, by decide +kernel⟩,
   ⟨up, by decide +kernel⟩,
   ⟨up, by decide +kernel⟩,
   ⟨{ up with rings.dbReg := true, rings.dbBase := 0x806FFC00 }, 1016, 3, by decide +kernel⟩,
   ⟨up.modRing 5 (fun r => { r with enable := true }), 5, by decide +kernel⟩,
   ⟨{ up with plait.rdbReg := true, plait.rdb := 0x806FF000 }, 4092, 2, by decide +kernel⟩,
   ⟨up, 0x77FFFFF8, by decide +kernel⟩,
   ⟨up, 0x806FFFF8, by decide +kernel⟩,
   ⟨up, 0x9FFFFFFF, by decide +kernel⟩,
   ⟨up, 0xA015FFFF, by decide +kernel⟩⟩

theorem test_BezelHoldsAndSupervises_hypotheses_met :
    (∃ (s : State) (d : Desc) (h : BitVec 64) (l : BitVec 12) (f : BitVec 32) (g : BitVec 16), Ready s d
      (.bezelReclaim h l f g) = true) ∧
    (∃ (s : State) (d : Desc), Ready s d .bezelLogRead = true ∧ d.payLen.toNat < 1024) ∧
    (∃ (s : State) (d : Desc), Ready s d .bezelLogRead = true ∧ 1024 ≤ d.payLen.toNat ∧ s.bezel.log.length ≤ 32 ∧
      (s.ringN d.ring).remote = false ∧ s.mem.bad = []) ∧
    (∃ (s : State) (d : Desc) (x : BitVec 1), Ready s d (.bezelResetReq x) = true) ∧
    (∃ (s : State), s.bezel.resetReq = none) ∧
    (∃ (s : State) (t : Nat), s.bezel.resetReq = some (t, false) ∧ s.pwr.mode = .run) ∧
    (∃ (s : State) (t : Nat), s.bezel.resetReq = some (t, true) ∧ s.pwr.mode = .run) ∧
    (∃ (s : State) (t : Nat), s.bezel.holdEnd = some t) ∧
    (∃ (s : State), s.bezel.holdEnd = none) ∧
    (∃ (s : State), s.pwr.mode = .limp ∧ s.isOn .svc = true) ∧
    (∃ (s : State), s.pwr.mode ≠ .limp ∨ s.isOn .svc = false) ∧
    (∃ (s : State), s.pwr.mode = .limp ∧ s.kl15On = false ∧ s.busesAsleep = true) ∧
    (∃ (s : State), s.pwr.mode ≠ .limp ∨ s.kl15On = true ∨ s.busesAsleep = false) ∧
    (∃ (s : State), s.bezel.mirrorErasing = true) ∧
    (∃ (s : State), s.wdtRuns = true ∧ s.bezel.wdtAction = false ∧ s.pwr.mode = .run) ∧
    (∃ (s : State), s.wdtRuns = true ∧ s.bezel.wdtAction = true ∧ s.pwr.mode = .run) ∧
    (∃ (s : State) (w : Fin 4), (w.val = 1 ∨ w.val = 2) ∧ s.isOn .svc = true ∧ s.pwr.mode = .run) ∧
    (∃ (s : State), s.isOn .sec = true ∧ s.bezel.wdt3At = none) ∧
    (∃ (s : State) (x : Nat), s.isOn .sec = true ∧ s.bezel.wdt3At = some x ∧ s.clk.ns < x + 600 * sec ∧ s.pwr.mode =
      .run) ∧
    (∃ (s : State), s.wdtRuns = false) ∧
    (∃ (s : State), s.isOn .svc = false) ∧
    (∃ (s : State), s.isOn .sec = false) ∧
    (∃ (s : State), s.pwr.mode = .run) ∧
    (∃ (s : State), s.bezel.wdt3At = none) ∧
    (∃ (s : State) (c : SvcCore), c ≠ .kc ∧ s.pwr.mode = .run) ∧
    (∃ (s : State), s.pwr.supplyLost = true ∧ s.pwr.mode = .run) ∧
    (∃ (s : State), s.pwr.supplyLost = true ∧ s.pwr.mode = .park ∧ s.pwr.entering = false) ∧
    (∃ (s : State), s.pwr.supplyLost = false) :=
  ⟨⟨up, {}, 0, 0, 0, 0, by decide +kernel⟩,
   ⟨up, {}, by decide +kernel⟩,
   ⟨up, { payAddr := 0x806FFC00, payLen := 1024 }, by decide +kernel⟩,
   ⟨up, {}, 0, by decide +kernel⟩,
   ⟨up, by decide +kernel⟩,
   ⟨{ up with bezel.resetReq := some (1, false) }, 1, by decide +kernel⟩,
   ⟨{ up with bezel.resetReq := some (1, true) }, 1, by decide +kernel⟩,
   ⟨{ up with bezel.holdEnd := some 1 }, 1, by decide +kernel⟩,
   ⟨up, by decide +kernel⟩,
   ⟨{ up with pwr.mode := .limp }, by decide +kernel⟩,
   ⟨up, by decide +kernel⟩,
   ⟨{ up with pwr.mode := .limp, net.bus := Vector.replicate 10 { st := .asleep } }, by decide +kernel⟩,
   ⟨up, by decide +kernel⟩,
   ⟨{ up with bezel.mirrorErasing := true }, by decide +kernel⟩,
   ⟨{ up with bezel.wdtEn := true }, by decide +kernel⟩,
   ⟨{ up with bezel.wdtEn := true, bezel.wdtAction := true }, by decide +kernel⟩,
   ⟨up, 2, by decide +kernel⟩,
   ⟨up, by decide +kernel⟩,
   ⟨{ up with bezel.wdt3At := some 1 }, 1, by decide +kernel⟩,
   ⟨up, by decide +kernel⟩,
   ⟨up.modDom .svc (fun c => { c with st := .off }), by decide +kernel⟩,
   ⟨up.modDom .sec (fun c => { c with st := .off }), by decide +kernel⟩,
   ⟨up, by decide +kernel⟩,
   ⟨up, by decide +kernel⟩,
   ⟨up, .sc0, by decide +kernel⟩,
   ⟨{ up with pwr.supplyLost := true }, by decide +kernel⟩,
   ⟨{ up with pwr.supplyLost := true, pwr.mode := .park }, by decide +kernel⟩,
   ⟨up, by decide +kernel⟩⟩

theorem test_TimeFollowsAndCaptures_hypotheses_met :
    (∃ (s : State), s.role = .manager) ∧
    (∃ (s : State), s.role ≠ .manager) ∧
    (∃ (s : State) (x : Int), s.role = .worker ∧ s.weave.sync ≠ .free ∧ s.timRuns = true ∧ 50000 < x.natAbs) ∧
    (∃ (s : State) (x : Int), s.role = .worker ∧ s.weave.sync = .locked ∧ s.timRuns = true ∧ x.natAbs ≤ 500) ∧
    (∃ (s : State) (x : Int), s.role = .worker ∧ s.weave.sync = .acquiring ∧ s.timRuns = true ∧ x.natAbs ≤
      s.weave.lockTh.toNat * 4 ∧ x.natAbs ≤ 50000 ∧ s.weave.lockRun = 15) ∧
    (∃ (s : State) (x : Int), s.role = .worker ∧ s.weave.sync = .lost ∧ s.timRuns = true ∧ x.natAbs ≤ 50000) ∧
    (∃ (s : State), (s.role ≠ .worker ∨ s.weave.sync = .free ∨ s.timRuns = false)) ∧
    (∃ (s : State), s.weave.sync = .locked) ∧
    (∃ (s : State), s.weave.sync ≠ .locked) ∧
    (∃ (s : State), s.weave.sync = .holdover) ∧
    (∃ (s : State), s.weave.sync ≠ .holdover) ∧
    (∃ (s : State), s.role = .worker ∧ s.weave.wallSource = true) ∧
    (∃ (s : State), (s.role ≠ .worker ∨ s.weave.wallSource = false)) ∧
    (∃ (s : State) (d : Desc) (utc : BitVec 64) (w : BitVec 64), Ready s d (.wallSet utc w) = true ∧ (s.role ≠
      .worker ∨ s.weave.wallSource = false)) ∧
    (∃ (s : State) (d : Desc) (utc : BitVec 64) (w : BitVec 64), Ready s d (.wallSet utc w) = true ∧ s.role = .worker
      ∧ s.weave.wallSource = true) ∧
    (∃ (s : State) (d : Desc) (u : BitVec 3) (x : BitVec 24), Ready s d (.captureArm u x) = true ∧ capSource s
      u.toNat ≠ 0) ∧
    (∃ (s : State) (d : Desc) (u : BitVec 3) (x : BitVec 24), Ready s d (.captureArm u x) = true ∧ capSource s
      u.toNat = 0) ∧
    (∃ (s : State) (x : BitVec 7) (up : Bool) (n : Fin 8), s.timRuns = true ∧ x ≠ 0 ∧ capSource s n = x.toNat ∧
      capTakes s n up = true ∧ ((∀ m : Fin 8, m ≠ n → capSource s m ≠ x.toNat)) ∧ s.weave.armed.all (fun y => y.unit
      != n.val) = true) ∧
    (∃ (s : State) (x : BitVec 7) (up : Bool) (n : Fin 8) (y : Armed), s.timRuns = true ∧ x ≠ 0 ∧ capSource s n =
      x.toNat ∧ capTakes s n up = true ∧ ((∀ m : Fin 8, m ≠ n → capSource s m ≠ x.toNat)) ∧ s.weave.armed = [y] ∧
      y.unit = n.val) ∧
    (∃ (s : State) (x : BitVec 7), (∀ m : Fin 8, capSource s m ≠ x.toNat)) ∧
    (∃ (s : State), s.timRuns = false) ∧
    (∃ (s : State) (n : Fin 8) (y : Armed), s.weave.armed = [y] ∧ y.unit = n.val) ∧
    (∃ (s : State) (n : Fin 8), s.weave.armed.all (fun y => y.unit != n.val) = true) :=
  ⟨⟨mg, by decide +kernel⟩,
   ⟨up, by decide +kernel⟩,
   ⟨{ wk with weave.sync := .locked }, 50001, by decide +kernel⟩,
   ⟨{ wk with weave.sync := .locked }, -500, by decide +kernel⟩,
   ⟨{ wk with weave.sync := .acquiring, weave.lockRun := 15 }, 100, by decide +kernel⟩,
   ⟨{ wk with weave.sync := .lost }, 50000, by decide +kernel⟩,
   ⟨up, by decide +kernel⟩,
   ⟨{ wk with weave.sync := .locked }, by decide +kernel⟩,
   ⟨up, by decide +kernel⟩,
   ⟨{ wk with weave.sync := .holdover }, by decide +kernel⟩,
   ⟨up, by decide +kernel⟩,
   ⟨{ wk with weave.wallSource := true }, by decide +kernel⟩,
   ⟨up, by decide +kernel⟩,
   ⟨up, {}, 0, 0, by decide +kernel⟩,
   ⟨{ wk with weave.wallSource := true }, {}, 0, 0, by decide +kernel⟩,
   ⟨upW [rc 2 1 7 [0x3F]], {}, 7, 1, by decide +kernel⟩,
   ⟨up, {}, 0, 1, by decide +kernel⟩,
   ⟨upW [rc 2 1 7 [0x3F]], 0x3F, true, 7, by decide +kernel⟩,
   ⟨{ upW [rc 2 1 7 [0x3F]] with weave.armed := [{ unit := 7 }] }, 0x3F, true, 7, { unit := 7 }, by decide +kernel⟩,
   ⟨up, 1, by decide +kernel⟩,
   ⟨State.reset, by decide +kernel⟩,
   ⟨{ up with weave.armed := [{ unit := 7 }] }, 7, { unit := 7 }, by decide +kernel⟩,
   ⟨up, 0, by decide +kernel⟩⟩

theorem test_LaunchesFireOrAreCancelled_hypotheses_met :
    (∃ (s : State) (e : Launch) (d : Desc) (c : HostCmd), s.timRuns = true ∧ s.weave.queue = [e] ∧ e.host = some (d,
      c) ∧ e.waiting = false ∧ s.weave.time.toNat < e.fire.toNat ∧ e.fire.toNat % 4 = 0 ∧ s.weave.lastFire = none ∧
      s.isOn (blockDom c.block) = true ∧ d.payLen = 0) ∧
    (∃ (s : State) (e : Launch) (d : Desc) (c : HostCmd), s.timRuns = true ∧ s.weave.queue = [e] ∧ e.host = some (d,
      c) ∧ e.waiting = false ∧ s.weave.time.toNat < e.fire.toNat ∧ e.fire.toNat % 4 = 0 ∧ s.weave.lastFire = none ∧
      s.isOn (blockDom c.block) = false ∧ s.entryNow (blockDom c.block) = .off) ∧
    (∃ (s : State) (e : Launch) (d : Desc) (c : HostCmd), s.timRuns = true ∧ s.weave.queue = [e] ∧ e.host = some (d,
      c) ∧ e.waiting = false ∧ s.weave.time.toNat < e.fire.toNat ∧ e.fire.toNat % 4 = 0 ∧ s.weave.lastFire = none ∧
      s.isOn (blockDom c.block) = false ∧ s.entryNow (blockDom c.block) ≠ .off ∧ (s.domCtl (blockDom c.block)).dead =
      false ∧ (s.domCtl (blockDom c.block)).waking = none) ∧
    (∃ (s : State) (t : BitVec 64), s.weave.time.toNat < t.toNat ∧ t.toNat % 4 = 0) ∧
    (∃ (s : State), (s.timRuns = false ∨ s.weave.queue = [])) ∧
    (∃ (s : State) (d : Desc) (r : BitVec 7) (x : BitVec 12) (e : Launch) (d' : Desc), Ready s d (.launchCancel r x)
      = true ∧ s.weave.queue = [e] ∧ e.host = some (d', .nop) ∧ e.waiting = false ∧ s.weave.time.toNat < e.fire.toNat
      ∧ d'.ring.val = r.toNat ∧ (s.ringN r.toNat).slot d'.index = x.toNat) ∧
    (∃ (s : State) (d : Desc) (r : BitVec 7) (x : BitVec 12), Ready s d (.launchCancel r x) = true ∧ s.weave.queue =
      [] ∧ (s.ringN r.toNat).outs = [] ∧ r.toNat ≠ d.ring.val) ∧
    (∃ (s : State) (d : Desc) (r : BitVec 7) (x : BitVec 12) (y : Desc), Ready s d (.descCancel r x) = true ∧ r.toNat
      ≠ d.ring.val ∧ (s.ringN r.toNat).posted = [y] ∧ (s.ringN r.toNat).slot y.index = x.toNat) ∧
    (∃ (s : State) (d : Desc) (r : BitVec 7) (x : BitVec 12), Ready s d (.descCancel r x) = true ∧ r.toNat ≠
      d.ring.val ∧ (s.ringN r.toNat).posted = [] ∧ (s.ringN r.toNat).held = [] ∧ s.pwr.stalled = [] ∧ s.weave.queue =
      [] ∧ (s.ringN r.toNat).outs = [] ∧ (s.ringN r.toNat).pi = (s.ringN r.toNat).fetch) ∧
    (∃ (s : State) (d : Desc) (r : BitVec 7) (x : BitVec 12) (i : BitVec 16), Ready s d (.descCancel r x) = true ∧
      r.toNat ≠ d.ring.val ∧ (s.ringN r.toNat).posted = [] ∧ (s.ringN r.toNat).held = [] ∧ s.pwr.stalled = [] ∧
      s.weave.queue = [] ∧ (s.ringN r.toNat).outs = [] ∧ (s.ringN r.toNat).submitted x.toNat = some i) :=
  ⟨⟨{ up with weave.queue := [{ host := some ({}, .nop), fire := 4 }] }, { host := some ({}, .nop), fire := 4 }, {}, .nop, by decide +kernel⟩,
   ⟨{ up with weave.queue := [{ host := some ({}, .ledSet 1 1 0), fire := 4 }], pwr.dom := up.pwr.dom.set 4 { st := .off }, pwr.mode := .start }, { host := some ({}, .ledSet 1 1 0), fire := 4 }, {}, .ledSet 1 1 0, by decide +kernel⟩,
   ⟨{ up with weave.queue := [{ host := some ({}, .ledSet 1 1 0), fire := 4 }], pwr.dom := up.pwr.dom.set 4 { st := .gated } }, { host := some ({}, .ledSet 1 1 0), fire := 4 }, {}, .ledSet 1 1 0, by decide +kernel⟩,
   ⟨up, 400, by decide +kernel⟩,
   ⟨up, by decide +kernel⟩,
   ⟨{ up with weave.queue := [{ host := some ({}, .nop), fire := 4 }] }, { index := 1 }, 0, 0, { host := some ({}, .nop), fire := 4 }, {}, by decide +kernel⟩,
   ⟨up, {}, 1, 0, by decide +kernel⟩,
   ⟨ring1 (fun r => { r with posted := [{}] }), {}, 1, 0, {}, by decide +kernel⟩,
   ⟨up, {}, 1, 0, by decide +kernel⟩,
   ⟨ring1 (fun r => { r with pi := 1 }), {}, 1, 0, 0, by decide +kernel⟩⟩

theorem test_RingsAreSetUpAndFetch_hypotheses_met :
    (∃ (s : State), s.isOn .host = true ∧ s.isOn .svc = true) ∧
    (∃ (s : State) (n : Fin 128) (v : BitVec 32) (r : Ring), v.getLsbD 0 = true ∧ (s.ringN n).enable = false ∧
      (s.ringN n).outs = [] ∧ r = { s.ringN n with cls := v.extractLsb' 1 2, remote := v.getLsbD 3, size := v.extractLsb' 4 4, prio := v.extractLsb' 8 2, hart := v.extractLsb' 10 2, targetS := v.getLsbD 12 }
      ∧ enableOk s n r = true) ∧
    (∃ (s : State) (n : Fin 128) (v : BitVec 32) (r : Ring), v.getLsbD 0 = true ∧ (s.ringN n).enable = false ∧
      (s.ringN n).outs = [] ∧ r = { s.ringN n with cls := v.extractLsb' 1 2, remote := v.getLsbD 3, size := v.extractLsb' 4 4, prio := v.extractLsb' 8 2, hart := v.extractLsb' 10 2, targetS := v.getLsbD 12 }
      ∧ enableOk s n r = false) ∧
    (∃ (s : State) (r : Ring), (r.size.toNat < 4 ∨ 12 < r.size.toNat ∨ r.cls = 3 ∨ s.rings.dbReg = false)) ∧
    (∃ (s : State) (n : Fin 128) (v : BitVec 32), v.getLsbD 0 = false ∧ (s.ringN n).enable = true ∧ (s.ringN
      n).posted = []) ∧
    (∃ (s : State) (n : Fin 128) (v : BitVec 32) (d : Desc), v.getLsbD 0 = false ∧ (s.ringN n).enable = true ∧
      (s.ringN n).posted = [d]) ∧
    (∃ (s : State) (n : Fin 128), (s.ringN n).unsignalled = 0) ∧
    (∃ (s : State) (n : Fin 128), (s.ringN n).unsignalled ≠ 0 ∧ (s.ringN n).remote = false) ∧
    (∃ (s : State) (d : Desc), Ready s d .rxPost = true ∧ (s.ringN d.ring).enable = true) ∧
    (∃ (s : State) (d : Desc), Ready s d .rxPost = true ∧ (s.ringN d.ring).enable = false) ∧
    (∃ (s : State), ((∀ n : Fin 128, (s.ringN n).held = [] ∧ s.fetchable n = false))) ∧
    (∃ (s : State) (r : Fin 128) (a : Nat), (∀ n : Fin 128, (s.ringN n).held = []) ∧ s.fetchable r = true ∧ ((∀ n :
      Fin 128, n ≠ r → s.fetchable n = false)) ∧ (s.ringN r).remote = false ∧ a = (s.ringN r).dbase.toNat + (s.ringN
      r).slot (s.ringN r).fetch * 64 ∧ 0x80000000 ≤ a ∧ (wordSpan a 64).all (fun w => s.mem.faultOf w == none) =
      true) :=
  ⟨⟨up, by decide +kernel⟩,
   ⟨{ ring0 (fun r => { r with dbase := 0x80001000, cbase := 0x80002000 }) with rings.dbReg := true, rings.dbBase := 0x80000000 }, 0, 0x41, { dbase := 0x80001000, cbase := 0x80002000, size := 4 }, by decide +kernel⟩,
   ⟨up, 0, 0x41, { size := 4 }, by decide +kernel⟩,
   ⟨up, { size := 13 }, by decide +kernel⟩,
   ⟨ring0 (fun r => { r with enable := true }), 0, 0, by decide +kernel⟩,
   ⟨ring0 (fun r => { r with enable := true, posted := [{}] }), 0, 0, {}, by decide +kernel⟩,
   ⟨up, 0, by decide +kernel⟩,
   ⟨ring0 (fun r => { r with unsignalled := 1 }), 0, by decide +kernel⟩,
   ⟨ring0 (fun r => { r with cls := 1, enable := true }), { payLen := 32 }, by decide +kernel⟩,
   ⟨ring0 (fun r => { r with cls := 1 }), { payLen := 32 }, by decide +kernel⟩,
   ⟨up, by decide +kernel⟩,
   ⟨ring0 (fun r => { r with enable := true, pi := 1, dbase := 0x80000000 }), 0, 0x80000000, by decide +kernel⟩⟩

theorem test_StageHoldsNewSettings_hypotheses_met :
    (∃ (s : State) (d : Desc) (rs : List Rec) (t : State), Ready s d .configStage = true ∧ s.stageLocked = false ∧
      stageRecs ((payloadOf s d .configStage).length + 1) (payloadOf s d .configStage) [] = .ok rs ∧ stageBytes
      (rs.foldl stageAdd s.cfg.stage) ≤ 48 * 1024 ∧ t = { taken s d .configStage with cfg.stage := rs.foldl stageAdd s.cfg.stage }) ∧
    (∃ (s : State) (d : Desc) (e : Nat), Ready s d .configStage = true ∧ s.stageLocked = false ∧ stageRecs
      ((payloadOf s d .configStage).length + 1) (payloadOf s d .configStage) [] = .error e) ∧
    (∃ (s : State) (d : Desc) (rs : List Rec), Ready s d .configStage = true ∧ s.stageLocked = false ∧ stageRecs
      ((payloadOf s d .configStage).length + 1) (payloadOf s d .configStage) [] = .ok rs ∧ 48 * 1024 < stageBytes
      (rs.foldl stageAdd s.cfg.stage)) ∧
    (∃ (s : State) (d : Desc), s.stageLocked = true ∧ Ready s d .configStage = true) ∧
    (∃ (s : State) (d : Desc), s.stageLocked = true ∧ Ready s d .configLoad = true) ∧
    (∃ (s : State) (d : Desc), s.stageLocked = true ∧ Ready s d .stageDiscard = true) ∧
    (∃ (s : State) (d : Desc) (m : Image) (u : State), Ready s d .configLoad = true ∧ s.stageLocked = false ∧
      (s.ringN d.ring).remote = false ∧ readImage (.mem d.payAddr.toNat) d.payLen.toNat (taken s d .configLoad) =
      (.ok m, u) ∧ (u.ringN d.ring).remote = false ∧ (u.foreign m = false ∨ u.cfg.takeover = true)) ∧
    (∃ (s : State) (d : Desc) (m : Image) (u : State), Ready s d .configLoad = true ∧ s.stageLocked = false ∧
      (s.ringN d.ring).remote = false ∧ readImage (.mem d.payAddr.toNat) d.payLen.toNat (taken s d .configLoad) =
      (.ok m, u) ∧ u.foreign m = true ∧ u.cfg.takeover = false) ∧
    (∃ (s : State) (d : Desc) (e : ImageFail) (u : State), Ready s d .configLoad = true ∧ s.stageLocked = false ∧
      (s.ringN d.ring).remote = false ∧ readImage (.mem d.payAddr.toNat) d.payLen.toNat (taken s d .configLoad) =
      (.error e, u)) ∧
    (∃ (s : State) (d : Desc), Ready s d .stageDiscard = true ∧ s.stageLocked = false) ∧
    (∃ (s : State) (d : Desc) (bs : List (BitVec 8)), Ready s d .configExport = true ∧ (s.ringN d.ring).remote =
      false ∧ s.mem.bad = [] ∧ bs = Image.bytes { fielded := true, seq := s.runSeq, machineId := s.cfg.machineId, recs := s.cfg.recs }
      ∧ bs.length ≤ d.payLen.toNat) ∧
    (∃ (s : State) (d : Desc) (bs : List (BitVec 8)), Ready s d .configExport = true ∧ bs = Image.bytes { fielded := true, seq := s.runSeq, machineId := s.cfg.machineId, recs := s.cfg.recs }
      ∧ d.payLen.toNat < bs.length) ∧
    (∃ (s : State), s.cfg.takeover = true) ∧
    (∃ (s : State), s.cfg.takeover = false) :=
  ⟨⟨upM oneRec, dM 20, okVal (stageRecs ((payloadOf (upM oneRec) (dM 20) .configStage).length + 1) (payloadOf (upM oneRec) (dM 20) .configStage) []) [], _, by decide +kernel, by decide, ok_of _ _ (by decide +kernel), by decide +kernel, rfl⟩,
   ⟨upM [1#8], dM 1, imageFormat, by decide +kernel, by decide, by rfl⟩,
   ⟨{ upM oneRec with cfg.stage := List.replicate 2048 (rc 5 1 0 [0, 0]) }, dM 20, okVal (stageRecs ((payloadOf (upM oneRec) (dM 20) .configStage).length + 1) (payloadOf (upM oneRec) (dM 20) .configStage) []) [], by decide +kernel, by decide, ok_of (stageRecs ((payloadOf (upM oneRec) (dM 20) .configStage).length + 1) (payloadOf (upM oneRec) (dM 20) .configStage) []) [] (by decide +kernel), by decide +kernel⟩,
   ⟨{ up with cfg.stageSt := .sealed }, {}, by decide +kernel⟩,
   ⟨{ up with cfg.stageSt := .sealed }, {}, by decide +kernel⟩,
   ⟨{ up with cfg.stageSt := .sealed }, {}, by decide +kernel⟩,
   ⟨upM (Image.bytes oneImage), dM 68, okVal (readImage (.mem (dM 68).payAddr.toNat) (dM 68).payLen.toNat (taken (upM (Image.bytes oneImage)) (dM 68) .configLoad)).1 {}, (readImage (.mem (dM 68).payAddr.toNat) (dM 68).payLen.toNat (taken (upM (Image.bytes oneImage)) (dM 68) .configLoad)).2, by decide +kernel, by decide, by decide, pair_of (readImage (.mem (dM 68).payAddr.toNat) (dM 68).payLen.toNat (taken (upM (Image.bytes oneImage)) (dM 68) .configLoad)) {} (by decide +kernel), by decide +kernel, by decide +kernel⟩,
   ⟨upM (Image.bytes { oneImage with machineId := 1 }), dM 68, okVal (readImage (.mem (dM 68).payAddr.toNat) (dM 68).payLen.toNat (taken (upM (Image.bytes { oneImage with machineId := 1 })) (dM 68) .configLoad)).1 {}, (readImage (.mem (dM 68).payAddr.toNat) (dM 68).payLen.toNat (taken (upM (Image.bytes { oneImage with machineId := 1 })) (dM 68) .configLoad)).2, by decide +kernel, by decide, by decide, pair_of (readImage (.mem (dM 68).payAddr.toNat) (dM 68).payLen.toNat (taken (upM (Image.bytes { oneImage with machineId := 1 })) (dM 68) .configLoad)) {} (by decide +kernel), by decide +kernel, by decide +kernel⟩,
   ⟨up, dM 68, ⟨imageFormat, 0⟩, taken up (dM 68) .configLoad, by decide +kernel, by decide, by decide, by rfl⟩,
   ⟨up, {}, by decide +kernel⟩,
   ⟨up, dM 68, Image.bytes { fielded := true }, by decide +kernel⟩,
   ⟨up, dM 67, Image.bytes { fielded := true }, by decide +kernel⟩,
   ⟨{ up with cfg.takeover := true }, by decide +kernel⟩,
   ⟨up, by decide +kernel⟩⟩

theorem test_CommitsApplyTheStage_hypotheses_met :
    (∃ (s : State) (d : Desc) (p : BitVec 1), Ready s d (.commit p) = true ∧ commitAdmit (p == 1) s = stOk) ∧
    (∃ (s : State) (d : Desc) (p : BitVec 1), Ready s d (.commit p) = true ∧ commitAdmit (p == 1) s ≠ stOk) ∧
    (∃ (s : State) (c : Commit), s.cfg.commit = some c ∧ c.checking = true ∧ c.fleet = false ∧ s.cfg.load = none ∧
      checkAll s s.effective = none ∧ c.act.d.due = 0) ∧
    (∃ (s : State) (c : Commit) (f : Fail), s.cfg.commit = some c ∧ c.checking = true ∧ c.fleet = false ∧ s.cfg.load
      = none ∧ checkAll s s.effective = some f) ∧
    (∃ (s : State), s.cfg.commit = none) ∧
    (∃ (s : State) (c : Commit) (a : Act), a.fired = true ∧ s.cfg.commit = some c ∧ c.checking = false ∧ c.persist =
      false ∧ s.commitMode s.cfg.load.isSome = true) ∧
    (∃ (s : State) (c : Commit) (a : Act), a.fired = true ∧ s.cfg.commit = some c ∧ c.checking = false ∧ s.commitMode
      s.cfg.load.isSome = false) ∧
    (∃ (s : State), s.cfg.persisting = true ∧ s.cfg.loaded ≠ 1 ∧ s.cfg.persistAct = none ∧
      s.cfg.persistImage.bytes.length ≤ 1048576) ∧
    (∃ (s : State), s.cfg.persisting = true ∧ s.cfg.loaded = 1 ∧ s.cfg.persistAct = none ∧
      s.cfg.persistImage.bytes.length ≤ 1048576) ∧
    (∃ (s : State) (a : Act), s.cfg.persisting = true ∧ s.cfg.loaded = 1 ∧ s.cfg.persistAct = some a ∧
      s.cfg.persistImage.bytes.length ≤ 1048576) ∧
    (∃ (s : State), s.cfg.persisting = true ∧ s.cfg.persistAct = none) ∧
    (∃ (s : State), s.cfg.persisting = false) :=
  ⟨⟨up, {}, 0, by decide +kernel⟩,
   ⟨{ up with cfg.stageSt := .sealed }, {}, 0, by decide +kernel⟩,
   ⟨{ up with cfg.commit := some { checking := true } }, { checking := true }, by decide +kernel⟩,
   ⟨{ upW [{ rc 5 1 8 [0] with rsvd := true }] with cfg.commit := some { checking := true } }, { checking := true }, (checkAll { upW [{ rc 5 1 8 [0] with rsvd := true }] with cfg.commit := some { checking := true } } (State.effective { upW [{ rc 5 1 8 [0] with rsvd := true }] with cfg.commit := some { checking := true } })).get (by decide +kernel), rfl, rfl, rfl, rfl, (Option.some_get _).symm⟩,
   ⟨up, by decide +kernel⟩,
   ⟨{ up with cfg.commit := some {} }, {}, { fired := true }, by decide +kernel⟩,
   ⟨{ up with cfg.commit := some {}, pwr.mode := .update }, {}, { fired := true }, by decide +kernel⟩,
   ⟨{ up with cfg.persisting := true }, by decide +kernel⟩,
   ⟨{ up with cfg.persisting := true, cfg.loaded := 1 }, by decide +kernel⟩,
   ⟨{ up with cfg.persisting := true, cfg.loaded := 1, cfg.persistAct := some {} }, {}, by decide +kernel⟩,
   ⟨{ up with cfg.persisting := true }, by decide +kernel⟩,
   ⟨up, by decide +kernel⟩⟩

theorem test_FleetCommitsAtTheManager_hypotheses_met :
    (∃ (s : State) (d : Desc) (m : BitVec 32) (p : BitVec 1), (HostCmd.fleetCommit m p).wf d = true ∧ d.payLen = 0 ∧
      (s.ringN d.ring).outs = [] ∧ (s.ringN d.ring).held = [] ∧ (s.ringN d.ring).cancels = [] ∧ s.weave.queue = [] ∧
      (s.domCtl .svc).closed = false ∧ s.entryNow .svc ≠ .off ∧ s.isOn .svc = true ∧ d.syncReq = false ∧
      s.weave.time.toNat + 50000 ≤ d.due.toNat ∧ d.due.toNat ≤ s.weave.time.toNat + 600000000000 ∧ fleetAdmit d m (p
      == 1) s = stOk ∧ m ≠ 0) ∧
    (∃ (s : State) (d : Desc), Ready s d .fleetAbort = true ∧ s.cfg.fleet = none) ∧
    (∃ (s : State) (d : Desc) (f : Fleet), Ready s d .fleetAbort = true ∧ s.cfg.fleet = some f ∧ s.cfg.fleetPhase =
      2) ∧
    (∃ (s : State) (d : Desc) (f : Fleet), Ready s d .fleetAbort = true ∧ s.cfg.fleet = some f ∧ s.cfg.fleetPhase =
      1) ∧
    (∃ (s : State) (w : Fin 32) (f : Fleet), s.cfg.fleet = some f ∧ s.cfg.fleetPhase = 1 ∧ f.mask.getLsbD w = true ∧
      setBit s.cfg.yes w true &&& f.mask ≠ f.mask) ∧
    (∃ (s : State) (w : Fin 32) (f : Fleet), s.cfg.fleet = some f ∧ s.cfg.fleetPhase = 1 ∧ f.mask.getLsbD w = true ∧
      setBit s.cfg.yes w true &&& f.mask = f.mask ∧ s.weave.time.toNat + 2000000 ≤ f.due.toNat) ∧
    (∃ (s : State) (w : Fin 32) (f : Fleet), s.cfg.fleet = some f ∧ s.cfg.fleetPhase = 1 ∧ f.mask.getLsbD w = true) ∧
    (∃ (s : State), s.cfg.fleet = none) ∧
    (∃ (s : State) (f : Fleet), s.cfg.fleet = some f ∧ s.cfg.fleetPhase = 1) ∧
    (∃ (s : State), s.cfg.fleetPhase ≠ 1) ∧
    (∃ (s : State) (w : Fin 32) (f : Fleet), s.cfg.fleet = some f ∧ s.cfg.fleetPhase = 2 ∧ f.mask.getLsbD w = true ∧
      f.completed = false) ∧
    (∃ (s : State), s.cfg.fleetPhase ≠ 2) ∧
    (∃ (s : State) (f : Fleet), s.cfg.fleet = some f ∧ s.cfg.fleetPhase = 2 ∧ s.weave.time.toNat ≤ f.due.toNat +
      s.fleetHoldNs) ∧
    (∃ (s : State) (f : Fleet), s.cfg.fleet = some f ∧ f.completed = false ∧ s.inQueue f.act.d = false ∧
      s.cfg.fleetPhase = 2 ∧ f.mask.getLsbD 0 = false ∧ s.cfg.ack &&& f.mask = f.mask) ∧
    (∃ (s : State) (f : Fleet), s.cfg.fleet = some f ∧ f.completed = false ∧ s.inQueue f.act.d = false ∧
      s.cfg.fleetPhase = 2 ∧ f.mask.getLsbD 0 = false ∧ s.cfg.ack &&& f.mask ≠ f.mask) :=
  ⟨⟨mg, { due := 600000000000 }, 3, 0, by decide +kernel⟩,
   ⟨up, {}, by decide +kernel⟩,
   ⟨{ mg with cfg.fleet := some {}, cfg.fleetPhase := 2 }, {}, {}, by decide +kernel⟩,
   ⟨{ mg with cfg.fleet := some {}, cfg.fleetPhase := 1 }, {}, {}, by decide +kernel⟩,
   ⟨{ mg with cfg.fleet := some { mask := 0x80000002 }, cfg.fleetPhase := 1 }, 31, { mask := 0x80000002 }, by decide +kernel⟩,
   ⟨{ mg with cfg.fleet := some { mask := 0x80000002, due := 2000000 }, cfg.fleetPhase := 1, cfg.yes := 2 }, 31, { mask := 0x80000002, due := 2000000 }, by decide +kernel⟩,
   ⟨{ mg with cfg.fleet := some { mask := 0x80000002 }, cfg.fleetPhase := 1 }, 31, { mask := 0x80000002 }, by decide +kernel⟩,
   ⟨up, by decide +kernel⟩,
   ⟨{ mg with cfg.fleet := some {}, cfg.fleetPhase := 1 }, {}, by decide +kernel⟩,
   ⟨up, by decide +kernel⟩,
   ⟨{ mg with cfg.fleet := some { mask := 0x80000002 }, cfg.fleetPhase := 2 }, 31, { mask := 0x80000002 }, by decide +kernel⟩,
   ⟨up, by decide +kernel⟩,
   ⟨{ mg with cfg.fleet := some {}, cfg.fleetPhase := 2 }, {}, by decide +kernel⟩,
   ⟨{ mg with cfg.fleet := some { mask := 2 }, cfg.fleetPhase := 2, cfg.ack := 2 }, { mask := 2 }, by decide +kernel⟩,
   ⟨{ mg with cfg.fleet := some { mask := 2 }, cfg.fleetPhase := 2 }, { mask := 2 }, by decide +kernel⟩⟩

theorem test_FleetCommitsAtAWorker_hypotheses_met :
    (∃ (s : State), s.stageLocked = false) ∧
    (∃ (s : State), s.stageLocked = true) ∧
    (∃ (s : State) (id : BitVec 8) (due : BitVec 64), s.cfg.fleetPhase = 4 ∧ s.cfg.fleetId = id ∧ s.weave.time.toNat
      ≤ due.toNat) ∧
    (∃ (s : State) (id : BitVec 8) (due : BitVec 64), s.cfg.fleetPhase = 4 ∧ s.cfg.fleetId = id ∧ due.toNat <
      s.weave.time.toNat) ∧
    (∃ (s : State) (id : BitVec 8), s.cfg.fleetPhase = 5 ∧ s.cfg.fleetId = id) ∧
    (∃ (s : State), s.cfg.fleetPhase = 5 ∧ s.cfg.fleetPersist = false) ∧
    (∃ (s : State) (id : BitVec 8), (s.cfg.fleetPhase = 4 ∨ s.cfg.fleetPhase = 5) ∧ s.cfg.fleetId = id) ∧
    (∃ (s : State) (id : BitVec 8), s.cfg.fleetId ≠ id) ∧
    (∃ (s : State), s.cfg.fleetPhase = 4) ∧
    (∃ (s : State), s.cfg.fleetPhase ≠ 4) ∧
    (∃ (s : State) (c : Commit), s.cfg.commit = some c ∧ c.checking = true ∧ c.fleet = true ∧ s.cfg.load = none ∧
      s.cfg.fleet = none ∧ checkAll s s.effective = none) :=
  ⟨⟨up, by decide +kernel⟩,
   ⟨{ wk with cfg.stageSt := .sealed }, by decide +kernel⟩,
   ⟨{ wk with cfg.fleetPhase := 4, cfg.fleetId := 7 }, 7, 0, by decide +kernel⟩,
   ⟨{ wk with cfg.fleetPhase := 4, cfg.fleetId := 7, weave.time := 4 }, 7, 3, by decide +kernel⟩,
   ⟨{ wk with cfg.fleetPhase := 5, cfg.fleetId := 7 }, 7, by decide +kernel⟩,
   ⟨{ wk with cfg.fleetPhase := 5 }, by decide +kernel⟩,
   ⟨{ wk with cfg.fleetPhase := 5, cfg.fleetId := 7 }, 7, by decide +kernel⟩,
   ⟨up, 1, by decide +kernel⟩,
   ⟨{ wk with cfg.fleetPhase := 4 }, by decide +kernel⟩,
   ⟨up, by decide +kernel⟩,
   ⟨{ up with cfg.commit := some { checking := true, fleet := true } }, { checking := true, fleet := true }, by decide +kernel⟩⟩

theorem test_HighSideChannelsAreSwitched_hypotheses_met :
    (∃ (s : State) (d : Desc) (ch : BitVec 6) (st : BitVec 2) (du : BitVec 13), Ready s d (.hsoSet ch st du) = true ∧
      hsoCheck s ch.toNat st.toNat du.toNat ≠ stOk) ∧
    (∃ (s : State) (d : Desc) (ch : BitVec 6) (du : BitVec 13), Ready s d (.hsoSet ch 0 du) = true ∧ hsoCheck s
      ch.toNat 0 du.toNat = stOk ∧ (s.hsoCh ch.toNat).st = .off) ∧
    (∃ (s : State) (d : Desc) (ch : BitVec 6) (du : BitVec 13), Ready s d (.hsoSet ch 1 du) = true ∧ hsoCheck s
      ch.toNat 1 du.toNat = stOk ∧ (s.hsoCh ch.toNat).st = .off ∧ s.paused (pairOf ch.toNat) = false) ∧
    (∃ (s : State) (d : Desc) (ch : BitVec 6) (du : BitVec 13), Ready s d (.hsoSet ch 1 du) = true ∧ hsoCheck s
      ch.toNat 1 du.toNat = stOk ∧ (s.hsoCh ch.toNat).st = .shed) ∧
    (∃ (s : State) (a : Act) (ch : BitVec 6) (du : BitVec 13), a.fired = true ∧ hsoCheck s ch.toNat 1 du.toNat = stOk
      ∧ (s.hsoCh ch.toNat).st = .off ∧ s.paused (pairOf ch.toNat) = false) ∧
    (∃ (s : State) (d : Desc) (m : BitVec 64) (st : BitVec 2) (du : BitVec 13) (ch : Nat) (x : Nat), Ready s d
      (.hsoMulti m st du) = true ∧ hsoFirstBad s (maskList m) st.toNat du.toNat = some (ch, x)) ∧
    (∃ (s : State) (d : Desc) (m : BitVec 64) (du : BitVec 13), Ready s d (.hsoMulti m 1 du) = true ∧ m ≠ 0 ∧
      hsoFirstBad s (maskList m) 1 du.toNat = none ∧ ((∀ ch ∈ maskList m, (s.hsoCh ch).st = .off ∧ s.paused (pairOf
      ch) = false))) ∧
    (∃ (s : State) (d : Desc) (ch : BitVec 6), Ready s d (.hsoClear ch) = true ∧ s.hsoBarred ch.toNat = false) ∧
    (∃ (s : State) (ch : Fin 64), (s.hsoCh ch).st = .latched) ∧
    (∃ (s : State) (d : Desc) (ch : BitVec 6), Ready s d (.hsoRead ch) = true ∧ s.hsoBarred ch.toNat = false) ∧
    (∃ (s : State) (d : Desc) (ch : BitVec 6), Ready s d (.hsoOltest ch) = true ∧ s.hsoBarred ch.toNat = false ∧
      (s.hsoCh ch.toNat).isOn = false ∧ s.hsoTestBand ch.toNat = true ∧ (s.hsoCh ch.toNat).test = none) ∧
    (∃ (s : State) (d : Desc) (ch : BitVec 6), s.hsoBarred ch.toNat = true ∧ Ready s d (.hsoClear ch) = true) ∧
    (∃ (s : State) (d : Desc) (ch : BitVec 6), s.hsoBarred ch.toNat = true ∧ Ready s d (.hsoRead ch) = true) ∧
    (∃ (s : State) (d : Desc) (ch : BitVec 6), s.hsoBarred ch.toNat = true ∧ Ready s d (.hsoOltest ch) = true) :=
  ⟨⟨up, {}, 0, 0, 0, by decide +kernel⟩,
   ⟨upH [0, 0, 0, 0, 0, 0] (fun c => c), {}, 8, 4096, by decide +kernel⟩,
   ⟨upH [0, 0, 0, 0, 0, 0] (fun c => c), {}, 8, 4096, by decide +kernel⟩,
   ⟨upH [0, 0, 0, 0, 0, 0] (fun c => { c with st := .shed }), {}, 8, 0, by decide +kernel⟩,
   ⟨upH [0, 0, 0, 0, 0, 0] (fun c => c), { fired := true }, 8, 0, by decide +kernel⟩,
   ⟨up, {}, 0x8000000000000000, 1, 0, 63, stRefusedState, by decide +kernel⟩,
   ⟨upH [0, 0, 0, 0, 0, 0] (fun c => c), {}, 0x100, 0, by decide +kernel⟩,
   ⟨upH [0, 0, 0, 0, 0, 0] (fun c => c), {}, 8, by decide +kernel⟩,
   ⟨up.modHso 3 (fun c => { c with st := .latched }), 3, by decide +kernel⟩,
   ⟨upH [0, 0, 0, 0, 0, 0] (fun c => c), {}, 8, by decide +kernel⟩,
   ⟨upH [0, 0, 0, 0, 0, 0] (fun c => c), {}, 8, by decide +kernel⟩,
   ⟨up, {}, 0, by decide +kernel⟩,
   ⟨up, {}, 0, by decide +kernel⟩,
   ⟨up, {}, 0, by decide +kernel⟩⟩

theorem test_HighSideRampsTripsAndRetries_hypotheses_met :
    (∃ (s : State) (ch : Fin 64), (s.hsoCh ch).st = .soft ∧ (s.hsoCh ch).soft < 63) ∧
    (∃ (s : State) (ch : Fin 64), (s.hsoCh ch).st = .soft ∧ (s.hsoCh ch).soft = 63 ∧ (s.hsoCh ch).cmdDuty ≠ 4096) ∧
    (∃ (s : State) (ch : Fin 64), (s.hsoCh ch).st = .soft ∧ (s.hsoCh ch).soft = 63 ∧ (s.hsoCh ch).cmdDuty = 4096) ∧
    (∃ (s : State) (ch : Fin 64), (s.hsoCh ch).st ≠ .soft) ∧
    (∃ (s : State), s.isOn .act = true) ∧
    (∃ (s : State), s.isOn .act = false) ∧
    (∃ (s : State) (ch : Fin 64), s.isOn .act = true ∧ (s.hsoCh ch).isOn = true) ∧
    (∃ (s : State) (ch : Fin 64), s.isOn .act = true ∧ (s.hsoCh ch).isOn = false) ∧
    (∃ (s : State) (ch : Fin 64), (s.hsoCh ch).inrush = true) ∧
    (∃ (s : State) (ch : Fin 64), (s.hsoCh ch).inrush = false) ∧
    (∃ (s : State) (ch : Fin 64), (s.hsoCh ch).isOn = false) ∧
    (∃ (s : State) (ch : Fin 64), (s.hsoCh ch).isOn = true ∧ s.isOn .act = true ∧ (s.hsoCh ch).fastRetryAt = none) ∧
    (∃ (s : State) (ch : Fin 64) (x : Nat), (s.hsoCh ch).isOn = true ∧ s.isOn .act = true ∧ (s.hsoCh ch).fastRetryAt
      = some x ∧ s.clk.ns ≤ x + 1000000000) ∧
    (∃ (s : State) (ch : Fin 64), (s.hsoCh ch).st = .retry ∧ (s.hsoCh ch).kind = .fast) ∧
    (∃ (s : State) (ch : Fin 64), (hsoEffect (s.hsoCh ch).cmdSt.toNat (s.hsoCh ch).cmdDuty.toNat) = 1 ∧
      s.pwr.shedFrom = 8 ∧ s.paused (groupPair (hsoGroup ch)) = false) ∧
    (∃ (s : State) (ch : Fin 64), (s.hsoCh ch).kind ≠ .fast) ∧
    (∃ (s : State) (ch : Fin 64), (s.hsoCh ch).isOn = true ∧ s.isOn .act = true ∧ (s.hsoCh ch).retries ≠ 3) ∧
    (∃ (s : State) (ch : Fin 64), (s.hsoCh ch).isOn = true ∧ s.isOn .act = true ∧ (s.hsoCh ch).retries = 3) ∧
    (∃ (s : State) (ch : Fin 64) (q : Nat) (u : State), s.isOn .act = true ∧ s.hsoField ch 2 20 1 = 1 ∧ (s.hsoCh
      ch).isOn = true ∧ u = s.modHso ch (fun c => { c with dt := wireStep c.dt q (s.hsoField ch 2 0 4) }) ∧
      u.wireTemp ch < (s.hsoField ch 2 4 8 : Int) * 1000000000) ∧
    (∃ (s : State) (ch : Fin 64) (q : Nat) (u : State), s.isOn .act = true ∧ s.hsoField ch 2 20 1 = 1 ∧ (s.hsoCh
      ch).isOn = true ∧ (s.hsoCh ch).retries ≠ 3 ∧ u = s.modHso ch (fun c => { c with dt := wireStep c.dt q (s.hsoField ch 2 0 4) })
      ∧ (s.hsoField ch 2 4 8 : Int) * 1000000000 ≤ u.wireTemp ch) ∧
    (∃ (s : State) (ch : Fin 64), s.isOn .act = true ∧ s.hsoField ch 2 20 1 = 0 ∧ (s.hsoCh ch).st = .retry ∧ (s.hsoCh
      ch).kind = .wire) ∧
    (∃ (s : State) (ch : Fin 64), (s.hsoCh ch).isOn = true) ∧
    (∃ (s : State) (ch : Fin 64), (s.hsoCh ch).isOn = true ∧ s.isOn .act = true ∧ (s.hsoCh ch).otTrips = []) ∧
    (∃ (s : State) (ch : Fin 64) (a : Nat) (b : Nat) (c : Nat), (s.hsoCh ch).isOn = true ∧ s.isOn .act = true ∧
      (s.hsoCh ch).otTrips = [a, b, c] ∧ s.clk.ns < a + 60 * sec ∧ s.clk.ns < b + 60 * sec ∧ s.clk.ns < c + 60 * sec) ∧
    (∃ (s : State) (ch : Fin 64), (s.hsoCh ch).st = .retry ∧ (s.hsoCh ch).kind = .ot) ∧
    (∃ (s : State) (ch : Fin 64), (s.hsoCh ch).kind ≠ .ot) :=
  ⟨⟨upH [0, 0, 0, 0, 0, 0] (fun c => { c with st := .soft, soft := 62 }), 8, by decide +kernel⟩,
   ⟨upH [0, 0, 0, 0, 0, 0] (fun c => { c with st := .soft, soft := 63, cmdDuty := 4095 }), 8, by decide +kernel⟩,
   ⟨upH [0, 0, 0, 0, 0, 0] (fun c => { c with st := .soft, soft := 63, cmdDuty := 4096 }), 8, by decide +kernel⟩,
   ⟨up, 0, by decide +kernel⟩,
   ⟨up, by decide +kernel⟩,
   ⟨State.reset, by decide +kernel⟩,
   ⟨upH [0, 0, 0, 0, 0, 0] (fun c => { c with st := .on }), 8, by decide +kernel⟩,
   ⟨up, 0, by decide +kernel⟩,
   ⟨upH [0, 0, 0, 0, 0, 0] (fun c => { c with inrush := true }), 8, by decide +kernel⟩,
   ⟨up, 0, by decide +kernel⟩,
   ⟨up, 0, by decide +kernel⟩,
   ⟨upH [0, 0, 0, 0, 0, 0] (fun c => { c with st := .on }), 8, by decide +kernel⟩,
   ⟨{ upH [0, 0, 0, 0, 0, 0] (fun c => { c with st := .on, fastRetryAt := some 0 }) with clk.ns := 1000000000 }, 8, 0, by decide +kernel⟩,
   ⟨upH [0, 0, 0, 0, 0, 0] (fun c => { c with st := .retry, kind := .fast }), 8, by decide +kernel⟩,
   ⟨upH [0, 0, 0, 0, 0, 0] (fun c => { c with cmdSt := 1 }), 8, by decide +kernel⟩,
   ⟨upH [0, 0, 0, 0, 0, 0] (fun c => { c with kind := .ot }), 8, by decide +kernel⟩,
   ⟨upH [0, 0, 0, 0, 0, 0] (fun c => { c with st := .on, retries := 2 }), 8, by decide +kernel⟩,
   ⟨upH [0, 0, 0, 0, 0, 0] (fun c => { c with st := .on, retries := 3 }), 8, by decide +kernel⟩,
   ⟨{ upH [0, 0, 0x100FF0, 0, 0, 0] (fun c => { c with st := .on }) with adc.subst := true }, 8, 0, _, by decide +kernel, by decide +kernel, by decide +kernel, rfl, (show ∀ n < 256, signed 16 (BitVec.ofInt 16 (((n : Nat) - 50 : Int) * 100)).toNat * 10000000 + 0 < 255 * 1000000000 by decide +kernel) _ (Nat.mod_lt _ (by decide))⟩,
   ⟨{ upH [0, 0, 0x100000, 0, 0, 0] (fun c => { c with st := .on, dt := 1000000000000 }) with adc.subst := true }, 8, 0, _, by decide +kernel, by decide +kernel, by decide +kernel, by decide +kernel, rfl, (show ∀ n < 256, (0 : Int) ≤ signed 16 (BitVec.ofInt 16 (((n : Nat) - 50 : Int) * 100)).toNat * 10000000 + ((wireStep 1000000000000 0 0 : Nat) : Int) by decide +kernel) _ (Nat.mod_lt _ (by decide))⟩,
   ⟨upH [0, 0, 0, 0, 0, 0] (fun c => { c with st := .retry, kind := .wire }), 8, by decide +kernel⟩,
   ⟨upH [0, 0, 0, 0, 0, 0] (fun c => { c with st := .pwm }), 8, by decide +kernel⟩,
   ⟨upH [0, 0, 0, 0, 0, 0] (fun c => { c with st := .on }), 8, by decide +kernel⟩,
   ⟨{ upH [0, 0, 0, 0, 0, 0] (fun c => { c with st := .on, otTrips := [1, 2, 3] }) with clk.ns := 60000000000 }, 8, 1, 2, 3, by decide +kernel⟩,
   ⟨upH [0, 0, 0, 0, 0, 0] (fun c => { c with st := .retry, kind := .ot }), 8, by decide +kernel⟩,
   ⟨up, 0, by decide +kernel⟩⟩

theorem test_HighSideDiagnosticsAndGroups_hypotheses_met :
    (∃ (s : State) (ch : Fin 64), s.hsoField ch 3 0 12 ≠ 0 ∧ (s.hsoCh ch).isOn = true ∧ (s.hsoCh ch).olOn = false) ∧
    (∃ (s : State) (ch : Fin 64), s.hsoField ch 3 0 12 = 0) ∧
    (∃ (s : State) (ch : Fin 64), s.isOn .act = true ∧ s.hsoField ch 3 12 1 = 1 ∧ (s.hsoCh ch).isOn = false ∧
      (s.hsoCh ch).test = none ∧ s.hsoTestBand ch = true) ∧
    (∃ (s : State) (ch : Fin 64), (s.hsoField ch 3 12 1 = 0 ∨ (s.hsoCh ch).isOn = true)) ∧
    (∃ (s : State) (ch : Fin 64), (s.hsoCh ch).test = none) ∧
    (∃ (s : State) (ch : Fin 64) (mv : BitVec 16) (a : Act), (s.hsoCh ch).test = some (some a) ∧ (s.hsoCh ch).st =
      .off ∧ mv.toNat ≤ 2000) ∧
    (∃ (s : State) (ch : Fin 64) (mv : BitVec 16), (s.hsoCh ch).test = some none ∧ (s.hsoCh ch).st = .off ∧ 2000 <
      mv.toNat ∧ mv.toNat ≤ 6000) ∧
    (∃ (s : State) (ch : Fin 64) (mv : BitVec 16), (s.hsoCh ch).test = some none ∧ (s.hsoCh ch).st = .off ∧ 6000 <
      mv.toNat) ∧
    (∃ (s : State) (ch : Fin 64), (s.hsoCh ch).isOn = true) ∧
    (∃ (s : State) (g : Fin 8), s.isOn .act = true ∧ (vget s.hso.grp g).hit = none) ∧
    (∃ (s : State) (g : Fin 8), (vget s.hso.grp g).hit.isSome = true) ∧
    (∃ (s : State) (g : Fin 8) (h : GrpHit), (vget s.hso.grp g).hit = some h ∧ h.tagged = true) ∧
    (∃ (s : State) (g : Fin 8) (h : GrpHit), (vget s.hso.grp g).hit = some h ∧ h.tagged = false) ∧
    (∃ (s : State) (g : Fin 8) (h : GrpHit), (vget s.hso.grp g).hit = some h ∧ h.tagged = false ∧ h.ended = false ∧
      (vget s.hso.grp g).lastFast = none) ∧
    (∃ (s : State) (g : Fin 8) (h : GrpHit) (x : Nat) (c : Nat), (vget s.hso.grp g).hit = some h ∧ h.tagged = false ∧
      h.ended = false ∧ (vget s.hso.grp g).lastFast = some (x, c) ∧ x ≤ h.at_ + 100 * us ∧ h.at_ ≤ x + 100 * us) ∧
    (∃ (s : State) (g : Fin 8), (vget s.hso.grp g).hit = none) ∧
    (∃ (s : State) (g : Fin 8) (h : GrpHit) (ch : Nat), (vget s.hso.grp g).hit = some h ∧ h.tagged = true ∧ h.symp =
      false ∧ s.worst g true = some ch) ∧
    (∃ (s : State) (g : Fin 8) (h : GrpHit), (vget s.hso.grp g).hit = some h ∧ h.symp = true) ∧
    (∃ (s : State) (g : Fin 8) (x : Nat), (vget s.hso.grp g).holdoff = some x) ∧
    (∃ (s : State) (g : Fin 8), (vget s.hso.grp g).holdoff = none) ∧
    (∃ (s : State) (g : Fin 8) (ch : Nat), s.worst g false = some ch ∧ s.isOn .act = true ∧ (s.hsoCh ch).retries ≠ 3) ∧
    (∃ (s : State) (g : Fin 8), s.worst g false = none) ∧
    (∃ (s : State) (g : Fin 8) (ch : Nat), ch ∈ groupChans g ∧ (s.hsoCh ch).st = .retry ∧ (s.hsoCh ch).kind =
      .groupOt ∧ ((∀ m ∈ groupChans g, m ≠ ch → (s.hsoCh m).st ≠ .retry))) ∧
    (∃ (s : State) (g : Fin 8), (∀ m ∈ groupChans g, (s.hsoCh m).kind ≠ .groupOt)) :=
  ⟨⟨upH [0, 0, 0, 0xFFF, 0, 0] (fun c => { c with st := .on }), 8, by decide +kernel⟩,
   ⟨up, 0, by decide +kernel⟩,
   ⟨upH [0, 0, 0, 0x1000, 0, 0] (fun c => c), 8, by decide +kernel⟩,
   ⟨up, 0, by decide +kernel⟩,
   ⟨up, 0, by decide +kernel⟩,
   ⟨upH [0, 0, 0, 0, 0, 0] (fun c => { c with test := some (some {}) }), 8, 2000, {}, by decide +kernel⟩,
   ⟨upH [0, 0, 0, 0, 0, 0] (fun c => { c with test := some none }), 8, 2001, by decide +kernel⟩,
   ⟨upH [0, 0, 0, 0, 0, 0] (fun c => { c with test := some none }), 8, 6001, by decide +kernel⟩,
   ⟨upH [0, 0, 0, 0, 0, 0] (fun c => { c with st := .on }), 8, by decide +kernel⟩,
   ⟨up, 0, by decide +kernel⟩,
   ⟨(up.modGrp 7 (fun x => { x with hit := some {} })), 7, by decide +kernel⟩,
   ⟨(up.modGrp 7 (fun x => { x with hit := some { tagged := true } })), 7, { tagged := true }, by decide +kernel⟩,
   ⟨up.modGrp 7 (fun g => { g with hit := some { at_ := 0 } }), 7, { at_ := 0 }, by decide +kernel⟩,
   ⟨(up.modGrp 7 (fun x => { x with hit := some {} })), 7, {}, by decide +kernel⟩,
   ⟨(up.modGrp 7 (fun x => { x with hit := some { at_ := 100000 }, lastFast := some (0, 56) })), 7, { at_ := 100000 }, 0, 56, by decide +kernel⟩,
   ⟨up, 0, by decide +kernel⟩,
   ⟨(upH [1, 0, 0, 0, 0, 0x10] (fun c => { c with st := .on })).modGrp 1 (fun x => { x with hit := some { tagged := true } }), 1, { tagged := true }, 8, by decide +kernel⟩,
   ⟨(up.modGrp 7 (fun x => { x with hit := some { symp := true } })), 7, { symp := true }, by decide +kernel⟩,
   ⟨(up.modGrp 7 (fun x => { x with holdoff := some 5000000 })), 7, 5000000, by decide +kernel⟩,
   ⟨up, 0, by decide +kernel⟩,
   ⟨upH [1, 0, 0, 0, 0, 0x10] (fun c => { c with st := .on }), 1, 8, by decide +kernel⟩,
   ⟨up, 0, by decide +kernel⟩,
   ⟨upH [0, 0, 0, 0, 0, 0] (fun c => { c with st := .retry, kind := .groupOt }), 1, 8, by decide +kernel⟩,
   ⟨up, 0, by decide +kernel⟩⟩

theorem test_EdgesArePlanned_hypotheses_met :
    (∃ (s : State) (d : Desc) (ch : BitVec 7) (ph : BitVec 13) (code : Nat), Ready s d (.edgePin ch ph) = true ∧
      s.periodCode ch.toNat = some code ∧ ph.toNat < periodSlots code ∧ (vget s.edge.ch ch.toNat).active = false) ∧
    (∃ (s : State) (d : Desc) (ch : BitVec 7) (ph : BitVec 13), Ready s d (.edgePin ch ph) = true ∧ s.periodCode
      ch.toNat = none) ∧
    (∃ (s : State) (d : Desc) (ch : BitVec 7) (ph : BitVec 13) (code : Nat), Ready s d (.edgePin ch ph) = true ∧
      s.periodCode ch.toNat = some code ∧ periodSlots code ≤ ph.toNat) ∧
    (∃ (s : State) (d : Desc) (ch : BitVec 7), Ready s d (.edgeUnpin ch) = true) ∧
    (∃ (s : State) (i : BitVec 7) (p : Planned), s.edge.pending = [p] ∧ p.atPeriod = false ∧ p.chans = [i.toNat] ∧
      i.toNat < 64 ∧ hsoCheck s i.toNat p.st.toNat p.duty.toNat = stOk ∧ p.st = 1 ∧ (s.hsoCh i.toNat).st = .off ∧
      s.paused (pairOf i.toNat) = false ∧ slotStart p.slot < 2 ^ 64) ∧
    (∃ (s : State) (i : BitVec 7) (p : Planned) (x : Nat), s.edge.pending = [p] ∧ p.atPeriod = false ∧ p.chans =
      [i.toNat] ∧ i.toNat < 64 ∧ hsoCheck s i.toNat p.st.toNat p.duty.toNat = x ∧ x ≠ stOk) ∧
    (∃ (s : State), s.edge.pending = []) ∧
    (∃ (s : State) (i : BitVec 7), ((76 ≤ i.toNat ∧ i.toNat < 80) ∨ s.isOn (if 64 ≤ i.toNat ∧ i.toNat < 76 then .led
      else .act) = false)) ∧
    (∃ (s : State) (i : BitVec 7) (ph : BitVec 13), i.toNat < 64 ∧ s.isOn .act = true ∧ s.periodCode i.toNat = some
      (vget s.edge.ch i.toNat).period.toNat ∧ (vget s.edge.ch i.toNat).host = some ph ∧ (vget s.edge.ch
      i.toNat).launch = false ∧ s.edge.pending = [] ∧ s.hsoLamp i.toNat = false) ∧
    (∃ (s : State) (i : BitVec 7) (p : Planned), i.toNat < 64 ∧ s.isOn .act = true ∧ s.periodCode i.toNat = some
      (vget s.edge.ch i.toNat).period.toNat ∧ (vget s.edge.ch i.toNat).host = none ∧ s.edge.pending = [p] ∧
      p.atPeriod = true ∧ p.chans = [i.toNat] ∧ s.hsoLamp i.toNat = false) ∧
    (∃ (s : State), s.isOn .act = false) ∧
    (∃ (s : State), s.isOn .act = true) ∧
    (∃ (s : State), s.isOn .act = true ∧ s.isOn .led = false) ∧
    (∃ (s : State), s.isOn .act = true ∧ s.isOn .led = true) :=
  ⟨⟨upH [0, 0, 0, 0, 0, 0] (fun c => c), {}, 8, 8191, 7, by decide +kernel⟩,
   ⟨up, {}, 0, 0, by decide +kernel⟩,
   ⟨upH [0, 0, 0, 0, 4, 0] (fun c => c), {}, 8, 512, 3, by decide +kernel⟩,
   ⟨up, {}, 0, by decide +kernel⟩,
   ⟨{ upH [0, 0, 0, 0, 0, 0] (fun c => c) with edge.pending := [{ chans := [8], st := 1 }] }, 8, { chans := [8], st := 1 }, by decide +kernel⟩,
   ⟨{ up with edge.pending := [{ chans := [8], st := 1 }] }, 8, { chans := [8], st := 1 }, stRefusedState, by decide +kernel⟩,
   ⟨up, by decide +kernel⟩,
   ⟨up, 79, by decide +kernel⟩,
   ⟨{ upH [0, 0, 0, 0, 0, 0] (fun c => c) with edge.ch := vmod up.edge.ch 8 (fun c => { c with period := 7, host := some 5 }) }, 8, 5, by decide +kernel⟩,
   ⟨{ upH [0, 0, 0, 0, 0, 0] (fun c => c) with edge.ch := vmod up.edge.ch 8 (fun c => { c with period := 7 }), edge.pending := [{ chans := [8], atPeriod := true }] }, 8, { chans := [8], atPeriod := true }, by decide +kernel⟩,
   ⟨State.reset, by decide +kernel⟩,
   ⟨up, by decide +kernel⟩,
   ⟨{ up with pwr.dom := up.pwr.dom.set 4 { st := .gated } }, by decide +kernel⟩,
   ⟨up, by decide +kernel⟩⟩

theorem test_FieldOutputsAreDriven_hypotheses_met :
    (∃ (s : State) (d : Desc) (ch : BitVec 6) (du : BitVec 13), Ready s d (.fioSet ch du) = true ∧ fioCheck s
      ch.toNat du.toNat ≠ stOk) ∧
    (∃ (s : State) (d : Desc) (ch : BitVec 6), Ready s d (.fioSet ch 0) = true ∧ fioCheck s ch.toNat 0 = stOk ∧
      (s.fioCh ch.toNat).duty = 0) ∧
    (∃ (s : State) (d : Desc) (ch : BitVec 6), Ready s d (.fioSet ch 4096) = true ∧ fioCheck s ch.toNat 4096 = stOk ∧
      (s.fioCh ch.toNat).duty = 0 ∧ (s.fioCh ch.toNat).retryAt = none ∧ (s.fioCh ch.toNat).hot = false ∧ s.paused 2 =
      false) ∧
    (∃ (s : State) (d : Desc) (m : BitVec 64) (du : BitVec 13), Ready s d (.fioMulti m du) = true ∧ ((maskList m).map
      (fun n => (n, fioCheck s n du.toNat))).find? (fun x => x.2 != stOk) = none ∧ (∀ n ∈ maskList m, fioStill s n
      du.toNat = false) ∧ 2 ≤ (maskList m).length) ∧
    (∃ (s : State) (d : Desc) (m : BitVec 64) (du : BitVec 13) (n : Nat) (x : Nat), Ready s d (.fioMulti m du) = true
      ∧ ((maskList m).map (fun n => (n, fioCheck s n du.toNat))).find? (fun x => x.2 != stOk) = some (n, x)) ∧
    (∃ (s : State) (d : Desc) (ch : BitVec 6), Ready s d (.fioClear ch) = true ∧ s.fioBarred ch.toNat = false ∧
      (s.fioCh ch.toNat).outSt = 5) ∧
    (∃ (s : State) (d : Desc) (ch : BitVec 6), Ready s d (.fioClear ch) = true ∧ s.fioBarred ch.toNat = false ∧
      (s.fioCh ch.toNat).outSt ≠ 5) ∧
    (∃ (s : State) (d : Desc) (ch : BitVec 6), Ready s d (.fioRead ch) = true ∧ s.fioBarred ch.toNat = false) ∧
    (∃ (s : State) (d : Desc) (ch : BitVec 6), s.fioBarred ch.toNat = true ∧ Ready s d (.fioClear ch) = true) ∧
    (∃ (s : State) (d : Desc) (ch : BitVec 6), s.fioBarred ch.toNat = true ∧ Ready s d (.fioRead ch) = true) ∧
    (∃ (s : State) (n : Fin 48), (s.fioCh n).duty = 0) ∧
    (∃ (s : State) (n : Fin 48), (s.fioCh n).duty ≠ 0 ∧ s.isOn .act = true ∧ (s.fioCh n).trips < 2) ∧
    (∃ (s : State) (n : Fin 48), (s.fioCh n).duty ≠ 0 ∧ s.isOn .act = true ∧ 2 ≤ (s.fioCh n).trips) ∧
    (∃ (s : State) (n : Fin 48) (x : Nat), (s.fioCh n).retryAt = some x ∧ s.paused 2 = false ∧ (s.fioCh n).cmdDuty ≠
      0) ∧
    (∃ (s : State) (n : Fin 48), (s.fioCh n).retryAt = none) ∧
    (∃ (s : State) (n : Fin 48), (s.fioCh n).duty ≠ 0) ∧
    (∃ (s : State) (n : Fin 48), (s.fioCh n).hot = true ∧ s.paused 2 = false ∧ (s.fioCh n).cmdDuty ≠ 0) ∧
    (∃ (s : State) (n : Fin 48), (s.fioCh n).hot = false) ∧
    (∃ (s : State) (n : Fin 48), (s.fioCh n).duty ≠ 0 ∧ s.fioField n 0 24 1 = 1 ∧ (s.fioCh n).openLoad = false) :=
  ⟨⟨up, {}, 0, 0, by decide +kernel⟩,
   ⟨upF [2, 0] (fun c => c), {}, 47, by decide +kernel⟩,
   ⟨upF [2, 0] (fun c => c), {}, 47, by decide +kernel⟩,
   ⟨{ upF [2, 0] (fun c => c) with cfg.recs := [rc 11 1 47 [2, 0], rc 11 1 46 [2, 0]] }, {}, 0xC00000000000, 4096, by decide +kernel⟩,
   ⟨up, {}, 0x800000000000, 1, 47, stRefusedState, by decide +kernel⟩,
   ⟨upF [2, 0] (fun c => { c with outSt := 5 }), {}, 47, by decide +kernel⟩,
   ⟨upF [0x02] id, {}, 47, by decide +kernel⟩,
   ⟨upF [2, 0] (fun c => c), {}, 47, by decide +kernel⟩,
   ⟨up, {}, 0, by decide +kernel⟩,
   ⟨up, {}, 0, by decide +kernel⟩,
   ⟨up, 0, by decide +kernel⟩,
   ⟨upF [2, 0] (fun c => { c with duty := 1, trips := 1 }), 47, by decide +kernel⟩,
   ⟨upF [2, 0] (fun c => { c with duty := 1, trips := 2 }), 47, by decide +kernel⟩,
   ⟨upF [2, 0] (fun c => { c with retryAt := some 5, cmdDuty := 1 }), 47, 5, by decide +kernel⟩,
   ⟨up, 0, by decide +kernel⟩,
   ⟨upF [2, 0] (fun c => { c with duty := 1 }), 47, by decide +kernel⟩,
   ⟨upF [2, 0] (fun c => { c with hot := true, cmdDuty := 1 }), 47, by decide +kernel⟩,
   ⟨up, 0, by decide +kernel⟩,
   ⟨upF [0x1000002, 0] (fun c => { c with duty := 1 }), 47, by decide +kernel⟩⟩

theorem test_FieldInputsAreReported_hypotheses_met :
    (∃ (s : State) (n : Fin 48), s.fioIsIn n = false) ∧
    (∃ (s : State) (n : Fin 48), s.fioIsIn n = true ∧ s.fioField n 0 4 1 = 0 ∧ s.fioField n 0 8 8 = 0) ∧
    (∃ (s : State) (n : Fin 48), s.fioIsIn n = true ∧ s.fioField n 0 8 8 ≠ 0) ∧
    (∃ (s : State) (n : Fin 48), s.fioIsIn n = true ∧ s.fioField n 0 4 1 = 0) ∧
    (∃ (s : State) (n : Fin 48), s.fioIsIn n = true ∧ s.fioField n 0 4 1 = 1 ∧ (s.fioCh n).band = 4) ∧
    (∃ (s : State) (n : Nat) (x : BitVec 3), (s.fioCh n).inSt = x) ∧
    (∃ (s : State) (n : Fin 48) (x : BitVec 3), (s.fioCh n).inSt ≠ x ∧ s.fioField n 0 7 1 = 0 ∧ s.recField 19 1 0 0 0
      2 0 ≠ 2) ∧
    (∃ (s : State) (n : Fin 48) (x : BitVec 3), (s.fioCh n).inSt ≠ x ∧ s.fioField n 0 7 1 = 1 ∧ s.recField 19 1 0 0 0
      2 0 ≠ 2) ∧
    (∃ (s : State) (n : Fin 48) (m : Nat), s.fioIsIn n = true ∧ s.fioField n 0 4 1 = 1 ∧ s.bandsRun = true ∧ m < 150
      ∧ (s.fioCh n).band ≠ 2) ∧
    (∃ (s : State) (n : Fin 48) (m : Nat), s.fioIsIn n = true ∧ s.fioField n 0 4 1 = 1 ∧ s.bandsRun = true ∧ m < 150
      ∧ (s.fioCh n).band = 2 ∧ (s.fioCh n).inSt ≠ 2 ∧ (s.fioCh n).bandAt + 10 * ms ≤ s.clk.ns) ∧
    (∃ (s : State) (n : Fin 16) (l : BitVec 16), s.pwr.mode = .park ∧ s.pwr.entering = false ∧ s.pwr.regsFalling =
      false ∧ s.fio.armed.getLsbD n = true ∧ s.fio.strobed.getLsbD n = true ∧ l.getLsbD n = (s.fioField n 0 6 1 ==
      1)) ∧
    (∃ (s : State), s.fio.strobed = 0 ∧ (s.pwr.mode = .park ∨ s.pwr.mode = .guard)) ∧
    (∃ (s : State), s.pwr.mode ≠ .park ∧ s.pwr.mode ≠ .guard) :=
  ⟨⟨up, 0, by decide +kernel⟩,
   ⟨upF [1, 0] (fun c => c), 47, by decide +kernel⟩,
   ⟨upF [0x101, 0] (fun c => c), 47, by decide +kernel⟩,
   ⟨upF [1, 0] (fun c => c), 47, by decide +kernel⟩,
   ⟨upF [0x11, 0] (fun c => { c with band := 4 }), 47, by decide +kernel⟩,
   ⟨up, 0, 0, by decide +kernel⟩,
   ⟨upF [1, 0] (fun c => c), 47, 1, by decide +kernel⟩,
   ⟨upF [0x81, 0] (fun c => c), 47, 1, by decide +kernel⟩,
   ⟨upF [0x11, 0] (fun c => c), 47, 149, by decide +kernel⟩,
   ⟨{ upF [0x11, 0] (fun c => { c with band := 2 }) with clk.ns := 10000000 }, 47, 149, by decide +kernel⟩,
   ⟨{ upW [rc 11 1 15 [0x41, 0]] with pwr.mode := .park, fio.armed := 0x8000, fio.strobed := 0x8000 }, 15, 0x8000, by decide +kernel⟩,
   ⟨{ up with pwr.mode := .guard }, by decide +kernel⟩,
   ⟨up, by decide +kernel⟩⟩

theorem test_ValveChannelsStartAndStop_hypotheses_met :
    (∃ (s : State) (d : Desc) (ch : BitVec 5) (pr : BitVec 5) (x : BitVec 16), Ready s d (.vlvStart ch pr x) = true ∧
      startCheck s ch.toNat pr.toNat ≠ stOk) ∧
    (∃ (s : State) (d : Desc) (ch : BitVec 5) (pr : BitVec 5) (x : BitVec 16) (p : Profile), Ready s d (.vlvStart ch
      pr x) = true ∧ startCheck s ch.toNat pr.toNat = stOk ∧ p = (s.progOf ch.toNat (vget s.facet.eng (ch.toNat /
      4)).active).profile pr.toNat ∧ p.boostEn = false ∧ s.paused 2 = false ∧ (s.vlvCh ch.toNat).wait = none ∧
      (s.vlvBank (ch.toNat / 4)).claim ≠ some ch.toNat ∧ (s.fctx ch.toNat).wait = .idle) ∧
    (∃ (s : State) (d : Desc) (ch : BitVec 5) (pr : BitVec 5) (x : BitVec 16) (p : Profile), Ready s d (.vlvStart ch
      pr x) = true ∧ startCheck s ch.toNat pr.toNat = stOk ∧ p = (s.progOf ch.toNat (vget s.facet.eng (ch.toNat /
      4)).active).profile pr.toNat ∧ p.boostEn = true ∧ s.paused 2 = false ∧ (s.vlvCh ch.toNat).wait = none ∧
      (s.vlvBank (ch.toNat / 4)).claim = none ∧ (s.vlvBank (ch.toNat / 4)).queue = [] ∧ bstReady s = true) ∧
    (∃ (s : State) (d : Desc) (ch : BitVec 5) (pr : BitVec 5) (x : BitVec 16) (p : Profile), Ready s d (.vlvStart ch
      pr x) = true ∧ startCheck s ch.toNat pr.toNat = stOk ∧ p = (s.progOf ch.toNat (vget s.facet.eng (ch.toNat /
      4)).active).profile pr.toNat ∧ p.boostEn = true ∧ p.fallback = false ∧ s.paused 2 = false ∧ (s.vlvCh
      ch.toNat).wait = none ∧ (s.vlvBank (ch.toNat / 4)).claim = none ∧ (s.vlvBank (ch.toNat / 4)).queue = [] ∧
      bstReady s = false) ∧
    (∃ (s : State) (d : Desc) (ch : BitVec 5) (pr : BitVec 5) (x : BitVec 16) (p : Profile) (n : Nat), Ready s d
      (.vlvStart ch pr x) = true ∧ startCheck s ch.toNat pr.toNat = stOk ∧ p = (s.progOf ch.toNat (vget s.facet.eng
      (ch.toNat / 4)).active).profile pr.toNat ∧ p.boostEn = true ∧ s.paused 2 = false ∧ (s.vlvCh ch.toNat).wait =
      none ∧ (s.vlvBank (ch.toNat / 4)).claim = some n ∧ n ≠ ch.toNat ∧ deferMax s ≠ 0) ∧
    (∃ (s : State) (d : Desc) (m : BitVec 32) (pr : BitVec 5) (x : BitVec 16) (n : Nat), Ready s d (.vlvMulti m pr x)
      = true ∧ maskList m = [n] ∧ s.vlv.multis = [] ∧ startCheck s n pr.toNat ≠ stOk) ∧
    (∃ (s : State) (d : Desc) (m : BitVec 32) (pr : BitVec 5) (x : BitVec 16) (n : Nat) (p : Profile), Ready s d
      (.vlvMulti m pr x) = true ∧ maskList m = [n] ∧ s.vlv.multis = [] ∧ startCheck s n pr.toNat = stOk ∧ p =
      (s.progOf n (vget s.facet.eng (n / 4)).active).profile pr.toNat ∧ p.boostEn = false ∧ s.paused 2 = false ∧
      (s.vlvCh n).wait = none ∧ (s.vlvBank (n / 4)).claim ≠ some n) ∧
    (∃ (s : State) (d : Desc) (ch : BitVec 5), Ready s d (.vlvStop ch) = true ∧ s.vlvBarred ch.toNat = false ∧
      (s.vlvCh ch.toNat).wait = none ∧ s.vlvActive ch.toNat = true ∧ (s.runProfile ch.toNat).quenchEn = false ∧
      (s.vlvBank (ch.toNat / 4)).claim ≠ some ch.toNat) ∧
    (∃ (s : State) (d : Desc) (ch : BitVec 5), Ready s d (.vlvStop ch) = true ∧ s.vlvBarred ch.toNat = false ∧
      (s.vlvCh ch.toNat).wait = none ∧ s.vlvActive ch.toNat = true ∧ (s.runProfile ch.toNat).quenchEn = true ∧
      (s.vlvBank (ch.toNat / 4)).claim ≠ some ch.toNat) ∧
    (∃ (s : State) (d : Desc) (ch : BitVec 5) (b : BitVec 1), Ready s d (.vlvClear ch b) = true ∧ s.vlvBarred
      ch.toNat = false ∧ (s.vlvCh ch.toNat).st = .latched) ∧
    (∃ (s : State) (d : Desc) (ch : BitVec 5), Ready s d (.vlvRead ch) = true ∧ s.vlvBarred ch.toNat = false) ∧
    (∃ (s : State) (d : Desc) (ch : BitVec 5), Ready s d (.vlvOfftest ch) = true ∧ s.vlvBarred ch.toNat = false ∧
      s.vlvTestable ch.toNat = true ∧ (s.vlvCh ch.toNat).test = none) ∧
    (∃ (s : State) (d : Desc) (ch : BitVec 5), s.vlvBarred ch.toNat = true ∧ Ready s d (.vlvStop ch) = true) ∧
    (∃ (s : State) (d : Desc) (ch : BitVec 5) (b : BitVec 1), s.vlvBarred ch.toNat = true ∧ Ready s d (.vlvClear ch
      b) = true) ∧
    (∃ (s : State) (d : Desc) (ch : BitVec 5), s.vlvBarred ch.toNat = true ∧ Ready s d (.vlvRead ch) = true) ∧
    (∃ (s : State) (d : Desc) (ch : BitVec 5), s.vlvBarred ch.toNat = true ∧ Ready s d (.vlvOfftest ch) = true) ∧
    (∃ (s : State) (ch : Fin 32), (s.vlvCh ch).wait = none) ∧
    (∃ (s : State) (ch : Fin 32) (w : VWait) (x : VStart) (a : Act), (s.vlvCh ch).wait = some w ∧ w.start = some x ∧
      x.act = some a ∧ x.multi = false ∧ ((s.progOf ch (vget s.facet.eng (ch / 4)).active).profile
      x.profile.toNat).fallback = false) ∧
    (∃ (s : State) (ch : Fin 32) (w : VWait) (x : VStart) (a : Act), (s.vlvCh ch).wait = some w ∧ w.start = some x ∧
      x.act = some a ∧ x.multi = false ∧ ((s.progOf ch (vget s.facet.eng (ch / 4)).active).profile
      x.profile.toNat).fallback = true) ∧
    (∃ (s : State) (b : Fin 8), (s.vlvBank b).closed = true ∧ ((∀ n ∈ bankChans b, s.vlvActive n = false ∧ (s.vlvCh
      n).heldI = 0))) ∧
    (∃ (s : State) (b : Fin 8) (n : Nat), n ∈ bankChans b ∧ s.vlvActive n = true) :=
  ⟨⟨up, {}, 0, 0, 0, by decide +kernel⟩,
   ⟨upV 0 (fun c => c), {}, 31, 0, 0, { valid := true }, by decide +kernel⟩,
   ⟨{ upV 1 (fun c => c) with vlv.bst := 65535 }, {}, 31, 0, 0, { valid := true, boostEn := true }, by decide +kernel⟩,
   ⟨upV 1 (fun c => c), {}, 31, 0, 0, { valid := true, boostEn := true }, by decide +kernel⟩,
   ⟨(upV 1 (fun c => c)).modBank 7 (fun b => { b with claim := some 28 }), {}, 31, 0, 0, { valid := true, boostEn := true }, 28, by decide +kernel⟩,
   ⟨up, {}, 0x80000000, 0, 0, 31, by decide +kernel⟩,
   ⟨upV 0 (fun c => c), {}, 0x80000000, 0, 0, 31, { valid := true }, by decide +kernel⟩,
   ⟨(upV 0 (fun c => c)).modCtx 31 (fun c => { c with wait := .executing }), {}, 31, by decide +kernel⟩,
   ⟨(upV 4 (fun c => c)).modCtx 31 (fun c => { c with wait := .executing }), {}, 31, by decide +kernel⟩,
   ⟨upV 0 (fun c => { c with st := .latched }), {}, 31, 0, by decide +kernel⟩,
   ⟨upV 0 (fun c => c), {}, 31, by decide +kernel⟩,
   ⟨upV 0 (fun c => c), {}, 31, by decide +kernel⟩,
   ⟨up, {}, 0, by decide +kernel⟩,
   ⟨up, {}, 0, 0, by decide +kernel⟩,
   ⟨up, {}, 0, by decide +kernel⟩,
   ⟨up, {}, 0, by decide +kernel⟩,
   ⟨up, 0, by decide +kernel⟩,
   ⟨upV 0 (fun c => { c with wait := some { start := some { act := some {} } } }), 31, { start := some { act := some {} } }, { act := some {} }, {}, by decide +kernel⟩,
   ⟨upV 3 (fun c => { c with wait := some { start := some { act := some {} } } }), 31, { start := some { act := some {} } }, { act := some {} }, {}, by decide +kernel⟩,
   ⟨(upV 0 (fun c => c)).modBank 7 (fun b => { b with closed := true }), 7, by decide +kernel⟩,
   ⟨(upV 0 (fun c => c)).modCtx 31 (fun c => { c with wait := .executing }), 7, 31, by decide +kernel⟩⟩

theorem test_BoostRailAndValveFaults_hypotheses_met :
    (∃ (s : State), s.converterOn = true) ∧
    (∃ (s : State), s.converterOn = false) ∧
    (∃ (s : State), s.isOn .act = true) ∧
    (∃ (s : State), s.isOn .act = false) ∧
    (∃ (s : State) (c : BitVec 12) (e : BitVec 12), bstEnabled s = true ∧ s.isOn .act = true ∧ 250 ≤ c.toNat ∧
      c.toNat ≤ 3000 ∧ e.toNat ≤ 1000) ∧
    (∃ (s : State) (c : BitVec 12) (e : BitVec 12), bstEnabled s = true ∧ s.isOn .act = true ∧ (c.toNat < 250 ∨ 3000
      < c.toNat ∨ 1000 < e.toNat)) ∧
    (∃ (s : State), bstEnabled s = false) ∧
    (∃ (s : State) (ch : Fin 32), s.vlvActive ch = false ∧ (s.vlvCh ch).heldI = 0) ∧
    (∃ (s : State) (ch : Fin 32), s.vlvActive ch = true ∧ (s.vlvCh ch).ocAt = none) ∧
    (∃ (s : State) (ch : Fin 32) (x : Nat), s.vlvActive ch = true ∧ (s.vlvCh ch).ocAt = some x ∧ s.clk.ns ≤ x + sec) ∧
    (∃ (s : State) (ch : Fin 32), (s.vlvCh ch).wait = none ∧ (s.vlvBank (ch / 4)).claim ≠ some ch.val) ∧
    (∃ (s : State) (b : Fin 8), (s.vlvBank b).closed = false) ∧
    (∃ (s : State) (b : Fin 8), (s.vlvBank b).closed = true ∧ (s.vlvBank b).ocAt = none) ∧
    (∃ (s : State) (b : Fin 8) (x : Nat), (s.vlvBank b).closed = true ∧ (s.vlvBank b).ocAt = some x ∧ s.clk.ns ≤ x +
      sec) ∧
    (∃ (s : State) (b : Fin 8), (s.vlvBank b).closed = true) ∧
    (∃ (s : State) (ch : Fin 32), s.vlvField ch 1 0 10 ≠ 0 ∧ s.vlvActive ch = true ∧ 9000 ≤ (vget s.hso.vfeed
      2).toNat) ∧
    (∃ (s : State) (ch : Fin 32), (s.vlvField ch 1 0 10 = 0 ∨ s.vlvActive ch = false)) ∧
    (∃ (s : State) (ch : Fin 32), s.isOn .act = true ∧ s.vlvField ch 1 10 1 = 1 ∧ s.vlvTestable ch = true ∧ (s.vlvCh
      ch).test = none) ∧
    (∃ (s : State) (ch : Fin 32), s.vlvTestable ch = false) ∧
    (∃ (s : State) (ch : Fin 32), (s.vlvCh ch).test = none) ∧
    (∃ (s : State) (ch : Fin 32) (mv : BitVec 16) (a : Act), (s.vlvCh ch).test = some (some a) ∧ s.vlvActive ch =
      false ∧ (s.vlvCh ch).st = .inactive ∧ mv.toNat ≤ 2000) ∧
    (∃ (s : State) (ch : Fin 32) (a : Act), (s.vlvCh ch).test = some (some a) ∧ s.vlvActive ch = true) ∧
    (∃ (s : State) (ch : Fin 32) (mv : BitVec 16), (s.vlvCh ch).test = some none ∧ s.vlvActive ch = false ∧ (s.vlvCh
      ch).st = .inactive ∧ 2000 < mv.toNat ∧ mv.toNat ≤ 6000) ∧
    (∃ (s : State) (ch : Fin 32) (mv : BitVec 16), (s.vlvCh ch).test = some none ∧ s.vlvActive ch = false ∧ (s.vlvCh
      ch).st = .inactive ∧ 6000 < mv.toNat) ∧
    (∃ (s : State), s.vlv.hot = true) ∧
    (∃ (s : State), s.vlv.hot = false) :=
  ⟨⟨upV 0 (fun c => c), by decide +kernel⟩,
   ⟨up, by decide +kernel⟩,
   ⟨up, by decide +kernel⟩,
   ⟨State.reset, by decide +kernel⟩,
   ⟨upV 0 (fun c => c), 250, 1000, by decide +kernel⟩,
   ⟨upV 0 (fun c => c), 3001, 1000, by decide +kernel⟩,
   ⟨up, by decide +kernel⟩,
   ⟨up, 0, by decide +kernel⟩,
   ⟨(upV 0 (fun c => c)).modCtx 31 (fun c => { c with wait := .executing }), 31, by decide +kernel⟩,
   ⟨{ (upV 0 (fun c => { c with ocAt := some 0 })).modCtx 31 (fun c => { c with wait := .executing }) with clk.ns := 1000000000 }, 31, 0, by decide +kernel⟩,
   ⟨upV 0 (fun c => c), 31, by decide +kernel⟩,
   ⟨up, 0, by decide +kernel⟩,
   ⟨(upV 0 (fun c => c)).modBank 7 (fun b => { b with closed := true }), 7, by decide +kernel⟩,
   ⟨{ (upV 0 (fun c => c)).modBank 7 (fun b => { b with closed := true, ocAt := some 0 }) with clk.ns := 1000000000 }, 7, 0, by decide +kernel⟩,
   ⟨(upV 0 (fun c => c)).modBank 7 (fun b => { b with closed := true }), 7, by decide +kernel⟩,
   ⟨(upV 0 (fun c => c)).modCtx 31 (fun c => { c with wait := .executing }), 31, by decide +kernel⟩,
   ⟨up, 0, by decide +kernel⟩,
   ⟨upV 0 (fun c => c), 31, by decide +kernel⟩,
   ⟨up, 0, by decide +kernel⟩,
   ⟨up, 0, by decide +kernel⟩,
   ⟨upV 0 (fun c => { c with test := some (some {}) }), 31, 2000, {}, by decide +kernel⟩,
   ⟨(upV 0 (fun c => { c with test := some (some {}) })).modCtx 31 (fun c => { c with wait := .executing }), 31, {}, by decide +kernel⟩,
   ⟨upV 0 (fun c => { c with test := some none }), 31, 2001, by decide +kernel⟩,
   ⟨upV 0 (fun c => { c with test := some none }), 31, 6001, by decide +kernel⟩,
   ⟨{ up with vlv.hot := true }, by decide +kernel⟩,
   ⟨up, by decide +kernel⟩⟩

theorem test_FacetInstructionsCompute_hypotheses_met :
    (∃ (s : State) (ch : Fin 32), (s.fctx ch).wait = .executing ∧ (s.vlvCh ch).wait = none ∧ (s.fctx ch).run < 256 ∧
      s.isOn .act = true) ∧
    (∃ (s : State) (ch : Fin 32), ((s.fctx ch).wait ≠ .executing ∨ (s.vlvCh ch).wait ≠ none ∨ 256 ≤ (s.fctx ch).run ∨
      s.isOn .act = false)) ∧
    (∃ (a : Nat) (b : Nat), a < 16 ∧ b < 16 ∧ b ≠ a) ∧
    (∃ (ch : Fin 32) (m : Fin 32) (a : Nat), a < 16 ∧ m ≠ ch) ∧
    (∃ (a : Nat), a < 16) ∧
    (∃ (s : State) (ch : Fin 32), nextOp s ch = some .nop) ∧
    (∃ (s : State) (ch : Fin 32) (a : Nat) (k : BitVec 32), nextOp s ch = some (.movi a k)) ∧
    (∃ (s : State) (ch : Fin 32) (a : Nat) (b : Nat), nextOp s ch = some (.mov a b)) ∧
    (∃ (s : State) (ch : Fin 32) (a : Nat) (b : Nat), nextOp s ch = some (.add a b)) ∧
    (∃ (s : State) (ch : Fin 32) (a : Nat) (k : BitVec 32), nextOp s ch = some (.addi a k)) ∧
    (∃ (s : State) (ch : Fin 32) (a : Nat) (b : Nat), nextOp s ch = some (.sub a b)) ∧
    (∃ (s : State) (ch : Fin 32) (a : Nat) (n : Nat), nextOp s ch = some (.shf a n false)) ∧
    (∃ (s : State) (ch : Fin 32) (a : Nat) (n : Nat), nextOp s ch = some (.shf a n true)) ∧
    (∃ (s : State) (ch : Fin 32) (a : Nat) (x : Nat), nextOp s ch = some (.ldc a x)) ∧
    (∃ (s : State) (ch : Fin 32) (a : Nat) (x : Nat), nextOp s ch = some (.rd a x)) ∧
    (∃ (s : State) (ch : Fin 32) (a : Nat) (b : Nat) (c : Nat) (x : BitVec 10), nextOp s ch = some (.br a b c x) ∧
      brTaken s ch a b c = true) ∧
    (∃ (s : State) (ch : Fin 32) (a : Nat) (b : Nat) (c : Nat) (x : BitVec 10), nextOp s ch = some (.br a b c x) ∧
      brTaken s ch a b c = false) ∧
    (∃ (s : State) (ch : Fin 32), nextOp s ch = none) :=
  ⟨⟨(upE 0x0 (fun c => { c with run := 255 })), 31, by decide +kernel⟩,
   ⟨up, 0, by decide +kernel⟩,
   ⟨15, 14, by decide +kernel⟩,
   ⟨31, 30, 15, by decide +kernel⟩,
   ⟨0, by decide +kernel⟩,
   ⟨(upE 0x0 (fun c => c)), 31, by decide +kernel⟩,
   ⟨(upE 0x3bffffff (fun c => c)), 31, 15, -1, by decide +kernel⟩,
   ⟨(upE 0x3ff80000 (fun c => c)), 31, 15, 14, by decide +kernel⟩,
   ⟨(upE 0x43fc0000 (fun c => c)), 31, 15, 15, by decide +kernel⟩,
   ⟨(upE 0x4403ffff (fun c => c)), 31, 0, -1, by decide +kernel⟩,
   ⟨(upE 0x4bc00000 (fun c => c)), 31, 15, 0, by decide +kernel⟩,
   ⟨(upE 0x4fc0001f (fun c => c)), 31, 15, 31, by decide +kernel⟩,
   ⟨(upE 0x4fc0003f (fun c => c)), 31, 15, 31, by decide +kernel⟩,
   ⟨(upE 0x53c003ff (fun c => c)), 31, 15, 1023, by decide +kernel⟩,
   ⟨(upE 0x57c00008 (fun c => c)), 31, 15, 8, by decide +kernel⟩,
   ⟨(upE 0x584883ff (fun c => c)), 31, 1, 2, 1, 1023, by decide +kernel⟩,
   ⟨(upE 0x584903ff (fun c => c)), 31, 1, 2, 2, 1023, by decide +kernel⟩,
   ⟨up, 0, by decide +kernel⟩⟩

theorem test_FacetDrivesAndWaits_hypotheses_met :
    (∃ (s : State) (ch : Fin 32) (ph : Nat) (dc : BitVec 2) (mx : BitVec 4), nextOp s ch = some (.phase ph dc mx) ∧ 2
      ≤ ph ∧ ph ≤ 5 ∧ (s.vlvBank (ch / 4)).claim ≠ some ch.val) ∧
    (∃ (s : State) (ch : Fin 32) (ph : Nat) (dc : BitVec 2) (mx : BitVec 4), nextOp s ch = some (.phase ph dc mx) ∧ 2
      ≤ ph ∧ ph ≤ 5 ∧ (s.vlvBank (ch / 4)).claim = some ch.val ∧ (s.vlvBank (ch / 4)).queue = []) ∧
    (∃ (s : State) (ch : Fin 32) (dc : BitVec 2) (mx : BitVec 4), nextOp s ch = some (.phase 1 dc mx) ∧ (s.fctx
      ch).settled = true) ∧
    (∃ (s : State) (ch : Fin 32) (dc : BitVec 2) (mx : BitVec 4), nextOp s ch = some (.phase 1 dc mx) ∧ (s.fctx
      ch).settled = false ∧ (s.vlvBank (ch / 4)).claim = none ∧ (s.vlvBank (ch / 4)).queue = [] ∧ bstReady s = true) ∧
    (∃ (s : State) (ch : Fin 32) (dc : BitVec 2) (mx : BitVec 4) (n : Nat), nextOp s ch = some (.phase 1 dc mx) ∧
      (s.fctx ch).settled = false ∧ (s.vlvBank (ch / 4)).claim = some n ∧ n ≠ ch.val ∧ deferMax s ≠ 0) ∧
    (∃ (s : State) (ch : Fin 32) (i : Nat), nextOp s ch = some (.seti i)) ∧
    (∃ (s : State) (ch : Fin 32) (a : Nat), nextOp s ch = some (.setr a)) ∧
    (∃ (s : State) (ch : Fin 32), (s.fctx ch).peak = false) ∧
    (∃ (s : State) (ch : Fin 32), (s.fctx ch).peak = true) ∧
    (∃ (s : State) (ch : Fin 32) (k : BitVec 7), nextOp s ch = some (.freq k)) ∧
    (∃ (s : State) (ch : Fin 32) (k : BitVec 7), nextOp s ch = some (.slopew k)) ∧
    (∃ (s : State) (ch : Fin 32) (k : BitVec 22), nextOp s ch = some (.tmo k)) ∧
    (∃ (s : State) (ch : Fin 32) (k : Nat), nextOp s ch = some (.wadd k)) ∧
    (∃ (s : State) (ch : Fin 32) (a : Nat), nextOp s ch = some (.waddr a)) ∧
    (∃ (s : State) (ch : Fin 32) (k : Nat), nextOp s ch = some (.wait k)) ∧
    (∃ (s : State) (ch : Fin 32) (a : Nat), nextOp s ch = some (.waitr a)) ∧
    (∃ (s : State) (ch : Fin 32), nextOp s ch = some .waitw) ∧
    (∃ (s : State) (ch : Fin 32) (i : Nat) (n : Nat) (b : Bool) (a : Nat), nextOp s ch = some (.waitc i n b false a)) ∧
    (∃ (s : State) (ch : Fin 32) (i : Nat) (n : Nat) (b : Bool) (a : Nat), nextOp s ch = some (.waits i n b false a)) ∧
    (∃ (s : State) (ch : Fin 32) (i : Nat) (n : Nat) (b : Bool) (a : Nat), nextOp s ch = some (.waitc i n b true a)) ∧
    (∃ (s : State) (ch : Fin 32) (i : Nat) (n : Nat) (b : Bool) (a : Nat), nextOp s ch = some (.waits i n b true a)) ∧
    (∃ (s : State) (ch : Fin 32) (x : Nat), (s.fctx ch).wait = .time x) ∧
    (∃ (s : State) (ch : Fin 32), (s.fctx ch).wait = .weave) ∧
    (∃ (s : State) (ch : Fin 32) (x : Nat) (y : Int) (n : Nat) (b : Bool) (l : List Int), ((s.fctx ch).wait =
      .current x y n b ∨ (s.fctx ch).wait = .slope x y n b) ∧ samplesMeet l y n b = true) ∧
    (∃ (s : State) (ch : Fin 32) (x : Nat) (y : Int) (n : Nat) (b : Bool) (l : List Int), ((s.fctx ch).wait =
      .current x y n b ∨ (s.fctx ch).wait = .slope x y n b) ∧ samplesMeet l y n b = false) ∧
    (∃ (s : State) (ch : Fin 32) (x : Nat) (y : Int) (n : Nat) (b : Bool), ((s.fctx ch).wait = .current x y n b ∨
      (s.fctx ch).wait = .slope x y n b)) ∧
    (∃ (s : State) (ch : Fin 32), (s.fctx ch).wait = .idle) :=
  ⟨⟨(upE 0x40003e5 (fun c => c)), 31, 5, 2, 15, by decide +kernel⟩,
   ⟨(upE 0x40003e5 (fun c => c)).modBank 7 (fun b => { b with claim := some 31 }), 31, 5, 2, 15, by decide +kernel⟩,
   ⟨(upE 0x4000001 (fun c => { c with settled := true })), 31, 0, 0, by decide +kernel⟩,
   ⟨{ (upE 0x4000001 (fun c => c)) with vlv.bst := 65535 }, 31, 0, 0, by decide +kernel⟩,
   ⟨(upE 0x4000001 (fun c => c)).modBank 7 (fun b => { b with claim := some 28 }), 31, 0, 0, 28, by decide +kernel⟩,
   ⟨(upE 0x8002ee0 (fun c => c)), 31, 12000, by decide +kernel⟩,
   ⟨(upE 0xfc00000 (fun c => c)), 31, 15, by decide +kernel⟩,
   ⟨up, 31, by decide +kernel⟩,
   ⟨upE 0x0 (fun c => { c with peak := true }), 31, by decide +kernel⟩,
   ⟨(upE 0x10000064 (fun c => c)), 31, 100, by decide +kernel⟩,
   ⟨(upE 0x30000040 (fun c => c)), 31, 64, by decide +kernel⟩,
   ⟨(upE 0x34000001 (fun c => c)), 31, 1, by decide +kernel⟩,
   ⟨(upE 0x1c3fffff (fun c => c)), 31, 0x3FFFFF, by decide +kernel⟩,
   ⟨(upE 0x23c00000 (fun c => c)), 31, 15, by decide +kernel⟩,
   ⟨(upE 0x14000001 (fun c => c)), 31, 1, by decide +kernel⟩,
   ⟨(upE 0x1bc00000 (fun c => c)), 31, 15, by decide +kernel⟩,
   ⟨(upE 0x24000000 (fun c => c)), 31, by decide +kernel⟩,
   ⟨(upE 0x28110005 (fun c => c)), 31, 5, 4, true, 0, by decide +kernel⟩,
   ⟨(upE 0x2c03c005 (fun c => c)), 31, 5, 15, false, 0, by decide +kernel⟩,
   ⟨(upE 0x2bf10005 (fun c => c)), 31, 5, 4, true, 15, by decide +kernel⟩,
   ⟨upE 0x2ff10005 (fun c => c), 31, 5, 4, true, 15, by decide +kernel⟩,
   ⟨up.modCtx 31 (fun c => { c with wait := .time 7 }), 31, 7, by decide +kernel⟩,
   ⟨up.modCtx 31 (fun c => { c with wait := .weave }), 31, by decide +kernel⟩,
   ⟨up.modCtx 31 (fun c => { c with wait := .current 7 5 1 false }), 31, 7, 5, 1, false, [5], by decide +kernel⟩,
   ⟨up.modCtx 31 (fun c => { c with wait := .slope 7 5 1 true }), 31, 7, 5, 1, true, [6], by decide +kernel⟩,
   ⟨up.modCtx 31 (fun c => { c with wait := .slope 7 5 1 true }), 31, 7, 5, 1, true, by decide +kernel⟩,
   ⟨up, 0, by decide +kernel⟩⟩

theorem test_FacetFaultsAndPrograms_hypotheses_met :
    (∃ (s : State) (ch : Fin 32) (c : BitVec 8), nextOp s ch = some (.fault 1 0 c)) ∧
    (∃ (s : State) (ch : Fin 32) (c : BitVec 8), nextOp s ch = some (.fault 2 0 c)) ∧
    (∃ (s : State) (ch : Fin 32) (c : BitVec 8), nextOp s ch = some (.fault 0 2 c) ∧ (s.vlvBank (ch / 4)).claim ≠
      some ch.val) ∧
    (∃ (s : State) (ch : Fin 32) (c : BitVec 8), nextOp s ch = some (.fault 0 1 c)) ∧
    (∃ (s : State) (ch : Fin 32) (a : Nat), nextOp s ch = some (.rept a false)) ∧
    (∃ (s : State) (ch : Fin 32) (a : Nat), nextOp s ch = some (.rept a true)) ∧
    (∃ (s : State) (ch : Fin 32), nextOp s ch = some .endp ∧ (s.vlvBank (ch / 4)).claim ≠ some ch.val) ∧
    (∃ (s : State) (ch : Fin 32), nextOp s ch = none) ∧
    (∃ (s : State) (ch : Fin 32), (s.fctx ch).wait = .ending) ∧
    (∃ (s : State) (ch : Fin 32), (s.fctx ch).wait ≠ .ending) ∧
    (∃ (s : State) (ch : Fin 32), 256 ≤ (s.fctx ch).run ∧ (s.fctx ch).wait = .executing ∧ (s.vlvBank (ch / 4)).claim
      ≠ some ch.val) ∧
    (∃ (s : State) (ch : Fin 32), (s.fctx ch).run < 256) ∧
    (∃ (s : State) (ch : Fin 32), s.vlvActive ch = true ∧ 3000 < (s.fctx ch).target.toNat) ∧
    (∃ (s : State) (ch : Fin 32), (s.fctx ch).target.toNat ≤ 3000) ∧
    (∃ (s : State) (e : Fin 8) (p : Prog), (vget s.facet.eng e).bankOf (vget s.facet.eng e).active = some p ∧ s.isOn
      .act = true ∧ p.crc = p.pcrc) ∧
    (∃ (s : State) (e : Fin 8) (p : Prog), (vget s.facet.eng e).bankOf (vget s.facet.eng e).active = some p ∧ s.isOn
      .act = true ∧ (vget s.facet.eng e).fault = false ∧ (∀ n ∈ bankChans e, s.vlvActive n = false)) ∧
    (∃ (s : State), s.isOn .act = false) ∧
    (∃ (s : State) (d : Desc) (m : BitVec 8) (c : Nat) (x : Nat), Ready s d (.facetLoad m) = true ∧ s.upd.boot.trial
      = false ∧ progParse (payloadOf s d (.facetLoad m)) = .inl (c, x)) ∧
    (∃ (s : State) (d : Desc) (m : BitVec 8) (p : Prog) (e : Nat), Ready s d (.facetLoad m) = true ∧ s.upd.boot.trial
      = false ∧ progParse (payloadOf s d (.facetLoad m)) = .inr p ∧ maskList m = [e] ∧ ctxOnBank s e (!(vget
      s.facet.eng e).active) = false) ∧
    (∃ (s : State) (d : Desc) (m : BitVec 8), Ready s d (.facetLoad m) = true ∧ s.upd.boot.trial = true) ∧
    (∃ (s : State) (d : Desc) (m : BitVec 8) (p : Prog) (e : Nat), Ready s d (.facetVerify m) = true ∧ maskList m =
      [e] ∧ (vget s.facet.eng e).fault = false ∧ (vget s.facet.eng e).bankOf (vget s.facet.eng e).active = some p ∧
      p.crc = p.pcrc) ∧
    (∃ (s : State) (d : Desc) (m : BitVec 8) (p : Prog) (e : Nat), Ready s d (.facetVerify m) = true ∧ maskList m =
      [e] ∧ (vget s.facet.eng e).fault = false ∧ (vget s.facet.eng e).bankOf (vget s.facet.eng e).active = some p ∧
      p.crc ≠ p.pcrc) ∧
    (∃ (s : State) (d : Desc) (ch : BitVec 5) (r : BitVec 4), Ready s d (.facetPeek ch r) = true) :=
  ⟨⟨(upE 0x5c00ff01 (fun c => c)), 31, 255, by decide +kernel⟩,
   ⟨(upE 0x5c00ff02 (fun c => c)), 31, 255, by decide +kernel⟩,
   ⟨(upE 0x5c00ff20 (fun c => c)), 31, 255, by decide +kernel⟩,
   ⟨upE 0x5c00ff10 (fun c => c), 31, 255, by decide +kernel⟩,
   ⟨(upE 0x63c00000 (fun c => c)), 31, 15, by decide +kernel⟩,
   ⟨(upE 0x63c00001 (fun c => c)), 31, 15, by decide +kernel⟩,
   ⟨(upE 0x64000000 (fun c => c)), 31, by decide +kernel⟩,
   ⟨up, 0, by decide +kernel⟩,
   ⟨up.modCtx 31 (fun c => { c with wait := .ending }), 31, by decide +kernel⟩,
   ⟨up, 0, by decide +kernel⟩,
   ⟨(upE 0x0 (fun c => { c with run := 256 })), 31, by decide +kernel⟩,
   ⟨up, 0, by decide +kernel⟩,
   ⟨(upE 0x0 (fun c => { c with target := 3001 })), 31, by decide +kernel⟩,
   ⟨up, 0, by decide +kernel⟩,
   ⟨{ up with facet.eng := vmod up.facet.eng 7 (fun e => { e with bank0 := some { pcrc := ({} : Prog).crc } }) }, 7, { pcrc := ({} : Prog).crc }, by decide +kernel⟩,
   ⟨{ up with facet.eng := vmod up.facet.eng 7 (fun e => { e with bank0 := some {} }) }, 7, {}, by decide +kernel⟩,
   ⟨State.reset, by decide +kernel⟩,
   ⟨up, {}, 0x80, 1, 0, by decide +kernel⟩,
   ⟨upM oneProg, dM 272, 0x80, (progParse oneProg).elim (fun _ => {}) id, 7, by decide +kernel, by decide +kernel, (congrArg progParse oneProg_read).trans (inr_of (progParse oneProg) {} oneProg_parses), by decide +kernel, by decide +kernel⟩,
   ⟨{ up with upd.boot.trial := true }, {}, 0x80, by decide +kernel⟩,
   ⟨{ up with facet.eng := vmod up.facet.eng 7 (fun e => { e with bank0 := some { pcrc := ({} : Prog).crc } }) }, {}, 0x80, { pcrc := ({} : Prog).crc }, 7, by decide +kernel⟩,
   ⟨{ up with facet.eng := vmod up.facet.eng 7 (fun e => { e with bank0 := some {} }) }, {}, 0x80, {}, 7, by decide +kernel⟩,
   ⟨up, {}, 0, 0, by decide +kernel⟩⟩

theorem test_LedStringsAreCommanded_hypotheses_met :
    (∃ (s : State) (d : Desc) (ch : BitVec 4) (dim : BitVec 12) (i : BitVec 10), Ready s d (.ledSet ch dim i) = true
      ∧ ledCheck s ch.toNat i.toNat dim.toNat ≠ stOk) ∧
    (∃ (s : State) (d : Desc) (ch : BitVec 4) (dim : BitVec 12) (i : BitVec 10), Ready s d (.ledSet ch dim i) = true
      ∧ ledCheck s ch.toNat i.toNat dim.toNat = stOk ∧ (s.ledCh ch.toNat).st ≠ .shed) ∧
    (∃ (s : State) (d : Desc) (ch : BitVec 4) (dim : BitVec 12) (i : BitVec 10), Ready s d (.ledSet ch dim i) = true
      ∧ ledCheck s ch.toNat i.toNat dim.toNat = stOk ∧ (s.ledCh ch.toNat).st = .shed) ∧
    (∃ (s : State) (a : Act) (ch : BitVec 4) (i : BitVec 10), a.fired = true ∧ ledCheck s ch.toNat i.toNat 4095 =
      stOk ∧ (s.ledCh ch.toNat).st = .off ∧ (s.ledCh ch.toNat).hot = false ∧ s.paused 1 = false) ∧
    (∃ (s : State) (d : Desc) (m : BitVec 12) (i : BitVec 10) (dim : BitVec 12) (n : Nat) (x : Nat), Ready s d
      (.ledMulti m i dim) = true ∧ n ∈ maskList m ∧ ledCheck s n i.toNat dim.toNat = x ∧ x ≠ stOk ∧ ((∀ k ∈ maskList
      m, k < n → ledCheck s k i.toNat dim.toNat = stOk))) ∧
    (∃ (s : State) (d : Desc) (m : BitVec 12) (i : BitVec 10) (dim : BitVec 12), Ready s d (.ledMulti m i dim) = true
      ∧ ((∀ k ∈ maskList m, ledCheck s k i.toNat dim.toNat = stOk ∧ (s.ledCh k).st ≠ .shed))) ∧
    (∃ (s : State) (d : Desc) (m : BitVec 12) (i : BitVec 10) (dim : BitVec 12) (n : Nat) (l : List Nat), Ready s d
      (.ledMulti m i dim) = true ∧ (∀ k ∈ maskList m, ledCheck s k i.toNat dim.toNat = stOk) ∧ (maskList m).filter
      (fun k => (s.ledCh k).st == .shed) = n :: l) ∧
    (∃ (s : State) (d : Desc) (ch : BitVec 4), Ready s d (.ledClear ch) = true ∧ ch.toNat < 12 ∧ s.ledBarred ch.toNat
      = false) ∧
    (∃ (s : State) (d : Desc) (ch : BitVec 4), Ready s d (.ledRead ch) = true ∧ ch.toNat < 12 ∧ s.ledBarred ch.toNat
      = false) ∧
    (∃ (s : State) (d : Desc) (ch : BitVec 4), (12 ≤ ch.toNat ∨ s.ledBarred ch.toNat = true) ∧ Ready s d (.ledClear
      ch) = true) ∧
    (∃ (s : State) (d : Desc) (ch : BitVec 4), (12 ≤ ch.toNat ∨ s.ledBarred ch.toNat = true) ∧ Ready s d (.ledRead
      ch) = true) ∧
    (∃ (s : State) (d : Desc), Ready s d (.colourCtl 1) = true) ∧
    (∃ (s : State) (d : Desc), Ready s d (.colourCtl 0) = true) :=
  ⟨⟨up, {}, 0, 0, 0, by decide +kernel⟩,
   ⟨upL [1000, 0, 0] (fun c => c), {}, 11, 4095, 1000, by decide +kernel⟩,
   ⟨upL [1000, 0, 0] (fun c => { c with st := .shed }), {}, 11, 4095, 50, by decide +kernel⟩,
   ⟨upL [1000, 0, 0] (fun c => c), { fired := true }, 11, 1000, by decide +kernel⟩,
   ⟨up, {}, 0x800, 50, 0, 11, stRefusedState, by decide +kernel⟩,
   ⟨up, {}, 0, 0, 0, by decide +kernel⟩,
   ⟨upL [1000, 0, 0] (fun c => { c with st := .shed }), {}, 0x800, 50, 0, 11, [], by decide +kernel⟩,
   ⟨upL [1000, 0, 0] (fun c => c), {}, 11, by decide +kernel⟩,
   ⟨upL [1000, 0, 0] (fun c => c), {}, 11, by decide +kernel⟩,
   ⟨up, {}, 0, by decide +kernel⟩,
   ⟨up, {}, 0, by decide +kernel⟩,
   ⟨up, {}, by decide +kernel⟩,
   ⟨up, {}, by decide +kernel⟩⟩

theorem test_LedStringsTripRetryAndKeepColour_hypotheses_met :
    (∃ (s : State) (ch : Fin 12), (s.ledCh ch).isOn = false) ∧
    (∃ (s : State) (ch : Fin 12), (s.ledCh ch).isOn = true) ∧
    (∃ (s : State) (ch : Fin 12), (s.ledCh ch).isOn = true ∧ s.ledField ch 1 0 9 ≠ 0 ∧ (s.ledCh ch).shortLed = false) ∧
    (∃ (s : State) (ch : Fin 12), (s.ledCh ch).isOn = true ∧ (s.ledCh ch).ocAt.all (fun x => decide (x + sec <
      s.clk.ns)) = true) ∧
    (∃ (s : State) (ch : Fin 12) (x : Nat), (s.ledCh ch).isOn = true ∧ (s.ledCh ch).ocAt = some x ∧ s.clk.ns ≤ x +
      sec) ∧
    (∃ (s : State) (ch : Fin 12), (s.ledCh ch).st ≠ .retry) ∧
    (∃ (s : State) (ch : Fin 12) (x : Nat), (s.ledCh ch).st = .retry ∧ (s.ledCh ch).ocAt = some x ∧ s.paused 1 =
      false ∧ (s.ledCh ch).cmdDim ≠ 0) ∧
    (∃ (s : State) (ch : Fin 12), (s.ledCh ch).st = .retry ∧ s.paused 1 = true) ∧
    (∃ (s : State) (k : Fin 94), k.val < 34 ∧ (∀ n ∈ nbrStrings k, s.ledField n 1 19 1 ≠ 0)) ∧
    (∃ (s : State) (k : Fin 94), k.val < 34 ∧ (∀ n ∈ nbrStrings k, s.ledField n 1 19 1 ≠ 0) ∧ vget s.led.nbrFails k <
      2) ∧
    (∃ (s : State) (k : Fin 94), k.val < 34 ∧ (∀ n ∈ nbrStrings k, s.ledField n 1 19 1 ≠ 0) ∧ vget s.led.nbrFails k =
      2 ∧ (∃ n ∈ nbrStrings k, (s.ledCh n).st ≠ .latched)) ∧
    (∃ (s : State) (k : Fin 94), (∃ n ∈ nbrStrings k, s.ledField n 1 19 1 = 0)) ∧
    (∃ (s : State), s.mtxField 0 16 1 = 0) ∧
    (∃ (s : State), s.mtxField 0 16 1 = 1) ∧
    (∃ (s : State) (k : Fin 94), s.mtxField 0 16 1 = 1 ∧ vget s.mtx.nbrFails k = 2 ∧ s.mtx.nbr.getLsbD (k.val / 2) =
      false) ∧
    (∃ (s : State), s.led.run = true ∧ s.isOn .led = true ∧ colourHeld s = false ∧ (s.rec? 9 2 0).isSome = true) ∧
    (∃ (s : State), s.led.run = true ∧ s.isOn .led = true ∧ colourHeld s = false ∧ (s.rec? 9 2 0).isSome = true ∧
      s.led.failed < 2) ∧
    (∃ (s : State), s.led.run = true ∧ s.isOn .led = true ∧ colourHeld s = false ∧ (s.rec? 9 2 0).isSome = true ∧
      s.led.failed = 2 ∧ s.led.sensorFail = false) ∧
    (∃ (s : State), (s.led.run = false ∨ s.isOn .led = false ∨ colourHeld s = true ∨ s.rec? 9 2 0 = none)) ∧
    (∃ (s : State), s.led.converting = false) ∧
    (∃ (s : State), s.led.converting = true ∧ s.led.failed < 2) ∧
    (∃ (s : State) (c0 : BitVec 16) (c1 : BitVec 16) (c2 : BitVec 16) (r : Rec) (m : Int × Int × Int),
      s.led.converting = true ∧ s.rec? 9 2 0 = some r ∧ m = colourXyz r c0.toNat c1.toNat c2.toNat) :=
  ⟨⟨up, 0, by decide +kernel⟩,
   ⟨upL [1000, 0, 0] (fun c => { c with st := .on }), 11, by decide +kernel⟩,
   ⟨upL [1000, 511, 0] (fun c => { c with st := .on }), 11, by decide +kernel⟩,
   ⟨upL [1000, 0, 0] (fun c => { c with st := .on }), 11, by decide +kernel⟩,
   ⟨{ upL [1000, 0, 0] (fun c => { c with st := .on, ocAt := some 0 }) with clk.ns := 1000000000 }, 11, 0, by decide +kernel⟩,
   ⟨up, 0, by decide +kernel⟩,
   ⟨upL [1000, 0, 0] (fun c => { c with st := .retry, ocAt := some 0, cmdDim := 1 }), 11, 0, by decide +kernel⟩,
   ⟨{ upL [1000, 0, 0] (fun c => { c with st := .retry }) with sys.ovp := 2 }, 11, by decide +kernel⟩,
   ⟨upL [1000, 0x80000, 0] (fun c => c), 11, by decide +kernel⟩,
   ⟨upL [1000, 0x80000, 0] (fun c => c), 11, by decide +kernel⟩,
   ⟨{ upL [1000, 0x80000, 0] (fun c => c) with led.nbrFails := vset up.led.nbrFails 11 2 }, 11, by decide +kernel⟩,
   ⟨up, 0, by decide +kernel⟩,
   ⟨up, by decide +kernel⟩,
   ⟨upX [0x10000, 0, 0], by decide +kernel⟩,
   ⟨{ upX [0x10000, 0, 0] with mtx.nbrFails := vset up.mtx.nbrFails 93 2 }, 93, by decide +kernel⟩,
   ⟨{ up with cfg.recs := [rc 9 2 0 (List.replicate 16 0)], led.run := true, mtx.blank := false }, by decide +kernel⟩,
   ⟨{ up with cfg.recs := [rc 9 2 0 (List.replicate 16 0)], led.run := true, led.failed := 1, mtx.blank := false }, by decide +kernel⟩,
   ⟨{ up with cfg.recs := [rc 9 2 0 (List.replicate 16 0)], led.run := true, led.failed := 2, mtx.blank := false }, by decide +kernel⟩,
   ⟨up, by decide +kernel⟩,
   ⟨up, by decide +kernel⟩,
   ⟨{ up with led.converting := true, led.failed := 1 }, by decide +kernel⟩,
   ⟨{ up with cfg.recs := [rc 9 2 0 (List.replicate 16 0)], led.converting := true }, 0, 0, 0, rc 9 2 0 (List.replicate 16 0), (0, 0, 0), by decide +kernel⟩⟩

theorem test_MatrixIsCommanded_hypotheses_met :
    (∃ (s : State) (d : Desc) (o : BitVec 11), Ready s d (.mtxWrite o) = true ∧ s.mtxBarred = false ∧ o.toNat % 8 = 0
      ∧ d.payLen.toNat % 8 = 0 ∧ o.toNat + d.payLen.toNat ≤ 2048 ∧ swapPending s = false) ∧
    (∃ (s : State) (d : Desc) (o : BitVec 11), Ready s d (.mtxWrite o) = true ∧ s.mtxBarred = false ∧ (o.toNat % 8 ≠
      0 ∨ d.payLen.toNat % 8 ≠ 0 ∨ 2048 < o.toNat + d.payLen.toNat)) ∧
    (∃ (s : State) (d : Desc) (o : BitVec 11), Ready s d (.mtxWrite o) = true ∧ s.mtxBarred = false ∧ o.toNat % 8 = 0
      ∧ d.payLen.toNat % 8 = 0 ∧ o.toNat + d.payLen.toNat ≤ 2048 ∧ swapPending s = true) ∧
    (∃ (s : State) (d : Desc) (w : BitVec 1), Ready s d (.mtxSwap w) = true ∧ swapCheck w s ≠ stOk) ∧
    (∃ (s : State) (d : Desc) (w : BitVec 1), Ready s d (.mtxSwap w) = true ∧ swapCheck w s = stOk) ∧
    (∃ (s : State) (a : Act) (w : BitVec 1), a.fired = true ∧ swapCheck w s = stOk) ∧
    (∃ (s : State) (d : Desc), Ready s d (.mtxBlank 1) = true ∧ s.mtxBarred = false) ∧
    (∃ (s : State) (d : Desc), Ready s d (.mtxBlank 0) = true ∧ s.mtxBarred = false) ∧
    (∃ (s : State) (d : Desc), Ready s d .mtxClear = true ∧ s.mtxBarred = false) ∧
    (∃ (s : State) (d : Desc) (o : BitVec 11), s.mtxBarred = true ∧ Ready s d (.mtxWrite o) = true) ∧
    (∃ (s : State) (d : Desc) (b : BitVec 1), s.mtxBarred = true ∧ Ready s d (.mtxBlank b) = true) ∧
    (∃ (s : State) (d : Desc), s.mtxBarred = true ∧ Ready s d .mtxClear = true) :=
  ⟨⟨upX [0, 0, 0], { payLen := 8 }, 2040, by decide +kernel⟩,
   ⟨upX [0, 0, 0], { payLen := 8 }, 2044, by decide +kernel⟩,
   ⟨{ upX [0, 0, 0] with mtx.armed := some ({}, false) }, { payLen := 8 }, 2040, by decide +kernel⟩,
   ⟨up, {}, 0, by decide +kernel⟩,
   ⟨upX [0, 0, 0], {}, 0, by decide +kernel⟩,
   ⟨upX [0x400, 0, 0], { fired := true }, 1, by decide +kernel⟩,
   ⟨upX [0, 0, 0], {}, by decide +kernel⟩,
   ⟨upX [0, 0, 0], {}, by decide +kernel⟩,
   ⟨upX [0, 0, 0], {}, by decide +kernel⟩,
   ⟨up, {}, 0, by decide +kernel⟩,
   ⟨up, {}, 0, by decide +kernel⟩,
   ⟨up, {}, by decide +kernel⟩⟩

theorem test_MatrixFramesAndTrips_hypotheses_met :
    (∃ (s : State), (s.isOn .led = false ∨ s.rec? 10 1 0 = none)) ∧
    (∃ (s : State), s.isOn .led = true ∧ (s.rec? 10 1 0).isSome = true ∧ s.mtxField 0 10 2 = 1 ∧ s.mtx.syncLost =
      false) ∧
    (∃ (s : State), s.isOn .led = true ∧ (s.rec? 10 1 0).isSome = true ∧ (s.mtxField 0 10 2 ≠ 1 ∨ s.mtx.syncLost =
      true)) ∧
    (∃ (s : State), s.mtxRuns = true) ∧
    (∃ (s : State) (a : Act), s.mtx.armed = some (a, false)) ∧
    (∃ (s : State) (a : Act), s.mtx.armed = some (a, true)) ∧
    (∃ (s : State) (r : Bool), s.isOn .led = false ∨ s.mtxField 0 10 2 ≠ 1 ∨ r ≠ (s.mtxField 0 12 1 == 0) ∨
      s.mtx.syncAt.any (fun x => decide (s.clk.ns < x + 1250000)) = true) ∧
    (∃ (s : State) (r : Bool), s.isOn .led = true ∧ s.mtxField 0 10 2 = 1 ∧ r = (s.mtxField 0 12 1 == 0) ∧
      s.mtx.syncAt.all (fun x => decide (x + 1250000 ≤ s.clk.ns)) = true) ∧
    (∃ (s : State), s.isOn .led = true ∧ s.mtxField 0 10 2 = 1 ∧ s.mtx.syncLost = false) ∧
    (∃ (s : State), (s.isOn .led = false ∨ s.mtxField 0 10 2 ≠ 1 ∨ s.mtx.syncLost = true)) ∧
    (∃ (s : State) (r : Fin 16), (s.mtx.blank = true ∨ s.mtx.rowNow.getLsbD r = true)) ∧
    (∃ (s : State) (r : Fin 16), s.mtx.blank = false ∧ s.mtx.rowNow.getLsbD r = false ∧ vget s.mtx.rowRun r < 2) ∧
    (∃ (s : State) (r : Fin 16), s.mtx.blank = false ∧ s.mtx.rowNow.getLsbD r = false ∧ 2 ≤ vget s.mtx.rowRun r) ∧
    (∃ (s : State), s.mtx.blank = true) ∧
    (∃ (s : State), s.mtx.blank = false) ∧
    (∃ (s : State) (c : Fin 48), (s.mtx.blank = true ∨ s.mtx.isOpen.getLsbD c = true)) ∧
    (∃ (s : State) (c : Fin 48), s.mtx.blank = false ∧ s.mtx.isOpen.getLsbD c = false) :=
  ⟨⟨up, by decide +kernel⟩,
   ⟨upX [0x400, 0, 0], by decide +kernel⟩,
   ⟨upX [0, 0, 0], by decide +kernel⟩,
   ⟨upX [0, 0, 0], by decide +kernel⟩,
   ⟨{ upX [0, 0, 0] with mtx.armed := some ({}, false) }, {}, by decide +kernel⟩,
   ⟨{ upX [0, 0, 0] with mtx.armed := some ({}, true) }, {}, by decide +kernel⟩,
   ⟨State.reset, true, by decide +kernel⟩,
   ⟨upX [0x400, 0, 0], true, by decide +kernel⟩,
   ⟨upX [0x400, 0, 0], by decide +kernel⟩,
   ⟨up, by decide +kernel⟩,
   ⟨up, 0, by decide +kernel⟩,
   ⟨{ up with mtx.blank := false, mtx.rowRun := vset up.mtx.rowRun 15 1 }, 15, by decide +kernel⟩,
   ⟨{ up with mtx.blank := false, mtx.rowRun := vset up.mtx.rowRun 15 2 }, 15, by decide +kernel⟩,
   ⟨up, by decide +kernel⟩,
   ⟨{ up with mtx.blank := false }, by decide +kernel⟩,
   ⟨up, 0, by decide +kernel⟩,
   ⟨{ up with mtx.blank := false }, 47, by decide +kernel⟩⟩

theorem test_CanFramesAreQueued_hypotheses_met :
    (∃ (s : State) (d : Desc) (ch : BitVec 4) (fmt : BitVec 2) (brs : BitVec 1) (ide : BitVec 1) (rtr : BitVec 1) (cf
      : BitVec 3) (uc : BitVec 1) (dl : BitVec 4) (id : BitVec 29) (sdt : BitVec 8) (vcid : BitVec 8) (sec : BitVec
      1) (af : BitVec 32) (c : HostCmd) (n : Nat), c = .canTx ch fmt brs ide rtr cf uc dl id sdt vcid sec af ∧ n =
      ch.toNat ∧ Ready s d c = true ∧ (s.canAway n = true ∨ (s.canCh n).listen = true ∨ s.canRcBars n = true)) ∧
    (∃ (s : State) (d : Desc) (ch : BitVec 4) (fmt : BitVec 2) (brs : BitVec 1) (ide : BitVec 1) (rtr : BitVec 1) (cf
      : BitVec 3) (uc : BitVec 1) (dl : BitVec 4) (id : BitVec 29) (sdt : BitVec 8) (vcid : BitVec 8) (sec : BitVec
      1) (af : BitVec 32) (c : HostCmd) (n : Nat), c = .canTx ch fmt brs ide rtr cf uc dl id sdt vcid sec af ∧ n =
      ch.toNat ∧ Ready s d c = true ∧ s.canAway n = false ∧ (s.canCh n).listen = false ∧ s.canRcBars n = false ∧ 2 ≤
      (s.canCh n).conf.toNat) ∧
    (∃ (s : State) (d : Desc) (ch : BitVec 4) (fmt : BitVec 2) (brs : BitVec 1) (ide : BitVec 1) (rtr : BitVec 1) (cf
      : BitVec 3) (uc : BitVec 1) (dl : BitVec 4) (id : BitVec 29) (sdt : BitVec 8) (vcid : BitVec 8) (sec : BitVec
      1) (af : BitVec 32) (c : HostCmd) (n : Nat), c = .canTx ch fmt brs ide rtr cf uc dl id sdt vcid sec af ∧ n =
      ch.toNat ∧ Ready s d c = true ∧ s.canAway n = false ∧ (s.canCh n).listen = false ∧ s.canRcBars n = false ∧
      (s.canCh n).conf.toNat < 2 ∧ (s.canCh n).muted = true) ∧
    (∃ (s : State) (d : Desc) (ch : BitVec 4) (fmt : BitVec 2) (brs : BitVec 1) (ide : BitVec 1) (rtr : BitVec 1) (cf
      : BitVec 3) (uc : BitVec 1) (dl : BitVec 4) (id : BitVec 29) (sdt : BitVec 8) (vcid : BitVec 8) (sec : BitVec
      1) (af : BitVec 32) (c : HostCmd) (n : Nat), c = .canTx ch fmt brs ide rtr cf uc dl id sdt vcid sec af ∧ n =
      ch.toNat ∧ Ready s d c = true ∧ s.canAway n = false ∧ (s.canCh n).listen = false ∧ s.canRcBars n = false ∧
      (s.canCh n).conf.toNat < 2 ∧ (s.canCh n).muted = false ∧ (s.fmtAllowed n fmt.toNat = false ∨ dlcOf fmt.toNat
      (payloadOf s d c).length = none)) ∧
    (∃ (s : State) (d : Desc) (ch : BitVec 4) (fmt : BitVec 2) (brs : BitVec 1) (ide : BitVec 1) (rtr : BitVec 1) (cf
      : BitVec 3) (uc : BitVec 1) (dl : BitVec 4) (id : BitVec 29) (sdt : BitVec 8) (vcid : BitVec 8) (sec : BitVec
      1) (af : BitVec 32) (c : HostCmd) (n : Nat) (f : CanFrame), c = .canTx ch fmt brs ide rtr cf uc dl id sdt vcid
      sec af ∧ n = ch.toNat ∧ f = ({ id := id, ide := ide == 1, rtr := rtr == 1, fmt := fmt, brs := brs == 1, sdt := sdt, vcid := vcid, sec := sec == 1, af := af, data := payloadOf s d c, dlc := BitVec.ofNat 4 (if rtr = 1 then dl.toNat else (dlcOf fmt.toNat (payloadOf s d c).length).getD 0) }
      : CanFrame) ∧ Ready s d c = true ∧ s.canAway n = false ∧ (s.canCh n).listen = false ∧ s.canRcBars n = false ∧
      (s.canCh n).conf.toNat < 2 ∧ (s.canCh n).muted = false ∧ s.fmtAllowed n fmt.toNat = true ∧ (dlcOf fmt.toNat
      (payloadOf s d c).length).isSome = true ∧ badFields f (uc == 1) dl.toNat (payloadOf s d c).length = true) ∧
    (∃ (s : State) (d : Desc) (ch : BitVec 4) (fmt : BitVec 2) (brs : BitVec 1) (ide : BitVec 1) (rtr : BitVec 1) (cf
      : BitVec 3) (uc : BitVec 1) (dl : BitVec 4) (id : BitVec 29) (sdt : BitVec 8) (vcid : BitVec 8) (sec : BitVec
      1) (af : BitVec 32) (c : HostCmd) (n : Nat) (f : CanFrame), c = .canTx ch fmt brs ide rtr cf uc dl id sdt vcid
      sec af ∧ n = ch.toNat ∧ f = ({ id := id, ide := ide == 1, rtr := rtr == 1, fmt := fmt, brs := brs == 1, sdt := sdt, vcid := vcid, sec := sec == 1, af := af, data := payloadOf s d c, dlc := BitVec.ofNat 4 (if rtr = 1 then dl.toNat else (dlcOf fmt.toNat (payloadOf s d c).length).getD 0) }
      : CanFrame) ∧ Ready s d c = true ∧ s.canAway n = false ∧ (s.canCh n).listen = false ∧ s.canRcBars n = false ∧
      (s.canCh n).conf.toNat < 2 ∧ (s.canCh n).muted = false ∧ s.fmtAllowed n fmt.toNat = true ∧ (dlcOf fmt.toNat
      (payloadOf s d c).length).isSome = true ∧ badFields f (uc == 1) dl.toNat (payloadOf s d c).length = false ∧ 64
      ≤ (s.canCh n).queue.length) ∧
    (∃ (s : State) (d : Desc) (ch : BitVec 4) (fmt : BitVec 2) (brs : BitVec 1) (ide : BitVec 1) (rtr : BitVec 1) (cf
      : BitVec 3) (uc : BitVec 1) (dl : BitVec 4) (id : BitVec 29) (sdt : BitVec 8) (vcid : BitVec 8) (sec : BitVec
      1) (af : BitVec 32) (c : HostCmd) (n : Nat) (f : CanFrame), c = .canTx ch fmt brs ide rtr cf uc dl id sdt vcid
      sec af ∧ n = ch.toNat ∧ f = ({ id := id, ide := ide == 1, rtr := rtr == 1, fmt := fmt, brs := brs == 1, sdt := sdt, vcid := vcid, sec := sec == 1, af := af, data := payloadOf s d c, dlc := BitVec.ofNat 4 (if rtr = 1 then dl.toNat else (dlcOf fmt.toNat (payloadOf s d c).length).getD 0) }
      : CanFrame) ∧ Ready s d c = true ∧ s.canAway n = false ∧ (s.canCh n).listen = false ∧ s.canRcBars n = false ∧
      (s.canCh n).conf.toNat < 2 ∧ (s.canCh n).muted = false ∧ s.fmtAllowed n fmt.toNat = true ∧ (dlcOf fmt.toNat
      (payloadOf s d c).length).isSome = true ∧ badFields f (uc == 1) dl.toNat (payloadOf s d c).length = false ∧
      (s.canCh n).queue.length < 64) ∧
    (∃ (s : State) (n : Nat) (b : Nat) (f : TxFrame) (g : TxFrame), (s.canCh n).queue = [f] ∧ s.freeBuf n = some b ∧
      s.resolve f = some g) ∧
    (∃ (f : TxFrame) (a : Act) (k : Option Nat), f.kind = .host a k ∧ f.attempts ≠ 0) ∧
    (∃ (s : State) (d : Desc) (ch : BitVec 4) (cf : BitVec 3) (da : BitVec 8) (pr : BitVec 3) (pgn : BitVec 18) (c :
      HostCmd), c = .canTpTx ch cf da pr pgn ∧ Ready s d c = true ∧ s.canAway ch.toNat = true) ∧
    (∃ (s : State) (d : Desc) (ch : BitVec 4) (cf : BitVec 3) (da : BitVec 8) (pr : BitVec 3) (pgn : BitVec 18) (c :
      HostCmd), c = .canTpTx ch cf da pr pgn ∧ Ready s d c = true ∧ s.canAway ch.toNat = false ∧ (payloadOf s d
      c).length < 9) ∧
    (∃ (s : State) (d : Desc) (ch : BitVec 4) (cf : BitVec 3) (da : BitVec 8) (pr : BitVec 3) (pgn : BitVec 18) (c :
      HostCmd), c = .canTpTx ch cf da pr pgn ∧ Ready s d c = true ∧ s.canAway ch.toNat = false ∧ 9 ≤ (payloadOf s d
      c).length ∧ (s.cfAddr cf.toNat = none ∨ (vget s.can.cf cf.toNat).ch ≠ ch)) ∧
    (∃ (s : State) (d : Desc) (ch : BitVec 4) (cf : BitVec 3) (da : BitVec 8) (pr : BitVec 3) (pgn : BitVec 18) (c :
      HostCmd), c = .canTpTx ch cf da pr pgn ∧ Ready s d c = true ∧ s.canAway ch.toNat = false ∧ da = 0xFF ∧ 1785 <
      (payloadOf s d c).length ∧ (s.cfAddr cf.toNat).isSome = true ∧ (vget s.can.cf cf.toNat).ch = ch) ∧
    (∃ (s : State) (d : Desc) (ch : BitVec 4) (cf : BitVec 3) (da : BitVec 8) (pr : BitVec 3) (pgn : BitVec 18) (c :
      HostCmd), c = .canTpTx ch cf da pr pgn ∧ Ready s d c = true ∧ s.canAway ch.toNat = false ∧ 9 ≤ (payloadOf s d
      c).length ∧ (s.cfAddr cf.toNat).isSome = true ∧ (vget s.can.cf cf.toNat).ch = ch ∧ (da ≠ 0xFF ∨ (payloadOf s d
      c).length ≤ 1785) ∧ 16 ≤ s.can.tpSend.length) ∧
    (∃ (s : State) (d : Desc) (ch : BitVec 4) (cf : BitVec 3) (da : BitVec 8) (pr : BitVec 3) (pgn : BitVec 18) (c :
      HostCmd), c = .canTpTx ch cf da pr pgn ∧ Ready s d c = true ∧ s.canAway ch.toNat = false ∧ 9 ≤ (payloadOf s d
      c).length ∧ (s.cfAddr cf.toNat).isSome = true ∧ (vget s.can.cf cf.toNat).ch = ch ∧ (da ≠ 0xFF ∨ (payloadOf s d
      c).length ≤ 1785) ∧ s.can.tpSend.length < 16) :=
  ⟨⟨up, {}, 9, 0, 0, 1, 0, 0, 0, 0, 0x1FFFFFFF, 0, 0, 0, 0, .canTx 9 0 0 1 0 0 0 0 0x1FFFFFFF 0 0 0 0, 9, by decide +kernel⟩,
   ⟨upC 0 [] (fun c => { c with conf := 2 }), {}, 9, 0, 0, 1, 0, 0, 0, 0, 0x1FFFFFFF, 0, 0, 0, 0, .canTx 9 0 0 1 0 0 0 0 0x1FFFFFFF 0 0 0 0, 9, by decide +kernel⟩,
   ⟨upC 0 [] (fun c => { c with muted := true }), {}, 9, 0, 0, 1, 0, 0, 0, 0, 0x1FFFFFFF, 0, 0, 0, 0, .canTx 9 0 0 1 0 0 0 0 0x1FFFFFFF 0 0 0 0, 9, by decide +kernel⟩,
   ⟨upC 0 [] (fun c => c), {}, 9, 2, 0, 0, 0, 0, 0, 0, 0x1FFFFFFF, 0, 0, 0, 0, .canTx 9 2 0 0 0 0 0 0 0x1FFFFFFF 0 0 0 0, 9, by decide +kernel⟩,
   ⟨upC 0 [] (fun c => c), {}, 9, 0, 1, 1, 0, 0, 0, 0, 0x1FFFFFFF, 0, 0, 0, 0, .canTx 9 0 1 1 0 0 0 0 0x1FFFFFFF 0 0 0 0, 9, { id := 0x1FFFFFFF, ide := true, brs := true }, by decide +kernel⟩,
   ⟨upC 0 [] (fun c => { c with queue := List.replicate 64 txF }), {}, 9, 0, 0, 1, 0, 0, 0, 0, 0x1FFFFFFF, 0, 0, 0, 0, .canTx 9 0 0 1 0 0 0 0 0x1FFFFFFF 0 0 0 0, 9, { id := 0x1FFFFFFF, ide := true }, by decide +kernel⟩,
   ⟨upC 0 [] (fun c => { c with queue := List.replicate 63 txF }), {}, 9, 0, 0, 1, 0, 0, 0, 0, 0x1FFFFFFF, 0, 0, 0, 0, .canTx 9 0 0 1 0 0 0 0 0x1FFFFFFF 0 0 0 0, 9, { id := 0x1FFFFFFF, ide := true }, by decide +kernel⟩,
   ⟨upC 0 [] (fun c => { c with queue := [txF] }), 9, 0, txF, txF, by decide +kernel⟩,
   ⟨{ kind := .host {} none, attempts := 1 }, {}, none, by decide +kernel⟩,
   ⟨up, {}, 9, 7, 0, 7, 0x3FFFF, .canTpTx 9 7 0 7 0x3FFFF, by decide +kernel⟩,
   ⟨upC 0 [] (fun c => c), { payLen := 8 }, 9, 7, 0, 7, 0x3FFFF, .canTpTx 9 7 0 7 0x3FFFF, by decide +kernel⟩,
   ⟨upC 0 [] (fun c => c), { payLen := 9 }, 9, 7, 0, 7, 0x3FFFF, .canTpTx 9 7 0 7 0x3FFFF, by decide +kernel⟩,
   ⟨{ upC 0 [] (fun c => c) with can.cf := vmod up.can.cf 7 (fun f => { f with st := 2, ch := 9 }) }, { payLen := 1786 }, 9, 7, 0xFF, 7, 0x3FFFF, .canTpTx 9 7 0xFF 7 0x3FFFF, by decide +kernel⟩,
   ⟨{ upC 0 [] (fun c => c) with can.cf := vmod up.can.cf 7 (fun f => { f with st := 2, ch := 9 }), can.tpSend := List.replicate 16 {} }, { payLen := 9 }, 9, 7, 0, 7, 0x3FFFF, .canTpTx 9 7 0 7 0x3FFFF, by decide +kernel⟩,
   ⟨{ upC 0 [] (fun c => c) with can.cf := vmod up.can.cf 7 (fun f => { f with st := 2, ch := 9 }), can.tpSend := List.replicate 15 {} }, { payLen := 9 }, 9, 7, 0xFF, 7, 0x3FFFF, .canTpTx 9 7 0xFF 7 0x3FFFF, by decide +kernel⟩⟩

theorem test_CanChannelsAreCommanded_hypotheses_met :
    (∃ (s : State) (d : Desc) (ch : BitVec 4) (l : BitVec 1) (u : BitVec 1), s.canEnabled ch.toNat = false ∧ Ready s
      d (.canMode ch l u) = true) ∧
    (∃ (s : State) (d : Desc) (ch : BitVec 4) (l : BitVec 1) (x : BitVec 1), ch.toNat < 10 ∧ s.canEnabled ch.toNat =
      true ∧ Ready s d (.canMode ch l x) = true) ∧
    (∃ (s : State) (d : Desc) (ch : BitVec 4), s.canEnabled ch.toNat = true ∧ (s.canCh ch.toNat).conf = 2 ∧ s.canF
      ch.toNat 4 1 = 0 ∧ Ready s d (.canRecover ch) = true) ∧
    (∃ (s : State) (d : Desc) (ch : BitVec 4), (s.canEnabled ch.toNat = false ∨ (s.canCh ch.toNat).conf ≠ 2 ∨ s.canF
      ch.toNat 4 1 = 1) ∧ Ready s d (.canRecover ch) = true) ∧
    (∃ (s : State) (d : Desc) (ch : BitVec 4) (fmt : BitVec 2) (brs : BitVec 1) (ide : BitVec 1) (sl : BitVec 5) (cl
      : BitVec 1) (id : BitVec 29) (c : HostCmd), c = .canTtWrite ch fmt brs ide sl cl id ∧ Ready s d c = true ∧
      (s.canAway ch.toNat = true ∨ (s.canCh ch.toNat).listen = true ∨ s.canRcBars ch.toNat = true)) ∧
    (∃ (s : State) (d : Desc) (ch : BitVec 4) (fmt : BitVec 2) (brs : BitVec 1) (ide : BitVec 1) (sl : BitVec 5) (id
      : BitVec 29) (c : HostCmd), c = .canTtWrite ch fmt brs ide sl 1 id ∧ Ready s d c = true ∧ s.canAway ch.toNat =
      false ∧ (s.canCh ch.toNat).listen = false ∧ s.canRcBars ch.toNat = false) ∧
    (∃ (s : State) (d : Desc) (ch : BitVec 4) (fmt : BitVec 2) (brs : BitVec 1) (ide : BitVec 1) (sl : BitVec 5) (id
      : BitVec 29) (c : HostCmd) (l : Nat), c = .canTtWrite ch fmt brs ide sl 0 id ∧ Ready s d c = true ∧ s.canAway
      ch.toNat = false ∧ (s.canCh ch.toNat).listen = false ∧ s.canRcBars ch.toNat = false ∧ fmt ≠ 2 ∧ s.fmtAllowed
      ch.toNat fmt.toNat = true ∧ ((brs = 1 → fmt = 1)) ∧ dlcOf fmt.toNat (payloadOf s d c).length = some l) ∧
    (∃ (s : State) (d : Desc) (ch : BitVec 4) (fmt : BitVec 2) (brs : BitVec 1) (ide : BitVec 1) (sl : BitVec 5) (id
      : BitVec 29) (c : HostCmd), c = .canTtWrite ch fmt brs ide sl 0 id ∧ Ready s d c = true ∧ s.canAway ch.toNat =
      false ∧ (s.canCh ch.toNat).listen = false ∧ s.canRcBars ch.toNat = false ∧ (fmt = 2 ∨ s.fmtAllowed ch.toNat
      fmt.toNat = false ∨ (brs = 1 ∧ fmt ≠ 1) ∨ dlcOf fmt.toNat (payloadOf s d c).length = none)) ∧
    (∃ (s : State) (d : Desc) (cf : BitVec 3) (act : BitVec 2) (ad : BitVec 8), s.rec? 12 4 cf.toNat = none ∧ Ready s
      d (.canAc cf act ad) = true) ∧
    (∃ (s : State) (d : Desc) (cf : BitVec 3) (act : BitVec 2) (ad : BitVec 8) (r : Rec), s.rec? 12 4 cf.toNat = some
      r ∧ s.canAway (r.f 2 24 4) = true ∧ Ready s d (.canAc cf act ad) = true) ∧
    (∃ (s : State) (d : Desc) (cf : BitVec 3) (act : BitVec 2) (ad : BitVec 8) (r : Rec), s.rec? 12 4 cf.toNat = some
      r ∧ s.canAway (r.f 2 24 4) = false ∧ Ready s d (.canAc cf act ad) = true) ∧
    (∃ (s : State) (d : Desc) (ch : BitVec 4), s.canEnabled ch.toNat = true ∧ Ready s d (.canRead ch) = true) ∧
    (∃ (s : State) (d : Desc) (ch : BitVec 4), s.canEnabled ch.toNat = false ∧ Ready s d (.canRead ch) = true) :=
  ⟨⟨up, {}, 0, 0, 0, by decide +kernel⟩,
   ⟨upC 0 [] (fun c => c), {}, 9, 1, 1, by decide +kernel⟩,
   ⟨upC 0 [] (fun c => { c with conf := 2 }), {}, 9, by decide +kernel⟩,
   ⟨up, {}, 0, by decide +kernel⟩,
   ⟨up, {}, 9, 0, 0, 0, 31, 0, 0x7FF, .canTtWrite 9 0 0 0 31 0 0x7FF, by decide +kernel⟩,
   ⟨upC 0 [] (fun c => c), {}, 9, 0, 0, 0, 31, 0x7FF, .canTtWrite 9 0 0 0 31 1 0x7FF, by decide +kernel⟩,
   ⟨upC 0 [] (fun c => c), { payLen := 8 }, 9, 0, 0, 0, 31, 0x7FF, .canTtWrite 9 0 0 0 31 0 0x7FF, 8, by decide +kernel⟩,
   ⟨upC 0 [] (fun c => c), {}, 9, 2, 0, 0, 31, 0x7FF, .canTtWrite 9 2 0 0 31 0 0x7FF, by decide +kernel⟩,
   ⟨up, {}, 0, 0, 0, by decide +kernel⟩,
   ⟨upW [rc 12 4 7 [0, 0, 0x09000000]], {}, 7, 0, 0, rc 12 4 7 [0, 0, 0x09000000], by decide +kernel⟩,
   ⟨upC 0 [rc 12 4 7 [0, 0, 0x09000000]] (fun c => c), {}, 7, 0, 0, rc 12 4 7 [0, 0, 0x09000000], by decide +kernel⟩,
   ⟨upC 0 [] (fun c => c), {}, 9, by decide +kernel⟩,
   ⟨up, {}, 0, by decide +kernel⟩⟩

theorem test_CanFramesOnTheBus_hypotheses_met :
    (∃ (s : State) (ch : Fin 10), s.canIdle ch = false) ∧
    (∃ (s : State) (ch : Fin 10) (b : Nat), s.canIdle ch = true ∧ s.startable ch ≠ [] ∧ s.firstOf ch (s.startable ch)
      = some b) ∧
    (∃ (s : State) (ch : Fin 10), s.canIdle ch = true ∧ s.startable ch = [] ∧ s.nextRipe ch = none) ∧
    (∃ (s : State) (ch : Fin 10), s.onWire ch = none) ∧
    (∃ (s : State) (ch : Fin 10) (b : Nat) (f : TxFrame) (a : Act) (k : Option Nat), s.onWire ch = some (b, f) ∧
      f.kind = .host a k ∧ f.cancels = []) ∧
    (∃ (s : State) (ch : Fin 10) (b : Nat) (f : TxFrame), s.onWire ch = some (b, f)) ∧
    (∃ (s : State) (ch : Fin 10) (b : Nat) (f : TxFrame), s.onWire ch = some (b, f) ∧ (s.canCh ch).ackRun = 31 ∧
      (s.canCh ch).alone = false) ∧
    (∃ (s : State) (ch : Fin 10) (b : Nat) (f : TxFrame) (a : Act) (k : Option Nat), s.onWire ch = some (b, f) ∧
      f.kind = .host a k ∧ f.cancels = [] ∧ b < 3 ∧ (s.canCh ch).sched = false ∧ (s.canCh ch).tec + 8 ≤ 255 ∧
      f.attempts < s.retryMax ch f) ∧
    (∃ (s : State) (ch : Fin 10) (b : Nat) (f : TxFrame) (a : Act) (k : Option Nat), s.onWire ch = some (b, f) ∧
      f.kind = .host a k ∧ f.cancels = [] ∧ s.retryMax ch f ≤ f.attempts) ∧
    (∃ (s : State) (ch : Fin 10) (b : Nat) (f : TxFrame) (a : Act) (k : Option Nat), s.onWire ch = some (b, f) ∧
      f.kind = .host a k ∧ f.cancels = [] ∧ b < 3 ∧ (s.canCh ch).sched = false) ∧
    (∃ (s : State) (ch : Fin 10) (f : CanFrame), (s.canHears ch = false ∨ (f.fmt = 1 ∧ s.canF ch 2 1 = 0) ∨ (f.fmt =
      2 ∧ s.canF ch 3 1 = 0))) ∧
    (∃ (s : State) (ch : Fin 10) (f : CanFrame), s.canHears ch = true ∧ f.fmt = 0 ∧ (s.canCh ch).tec ≤ 255) ∧
    (∃ (s : State) (ch : Fin 10) (f : CanFrame), s.canHears ch = true ∧ f.fmt = 0) ∧
    (∃ (s : State) (n : Nat) (f : CanFrame) (i : Nat) (r : Rec), i < 32 ∧ s.rec? 12 2 (32 * n + i) = some r ∧
      filterTakes r f = true ∧ r.f 2 7 1 = 0 ∧ (∀ j, j < i → (s.rec? 12 2 (32 * n + j)).all (fun q => !filterTakes q
      f) = true)) ∧
    (∃ (s : State) (n : Nat) (f : CanFrame), (∀ j : Fin 32, (s.rec? 12 2 (32 * n + j)).all (fun q => !filterTakes q
      f) = true)) ∧
    (∃ (s : State) (ch : Fin 10), s.canHears ch = false) ∧
    (∃ (s : State) (ch : Fin 10), s.canHears ch = true ∧ (s.canCh ch).tec ≤ 255) :=
  ⟨⟨up, 0, by decide +kernel⟩,
   ⟨upC 0 [] (fun c => { c with tb := vset c.tb 0 (some txF) }), 9, 0, by decide +kernel⟩,
   ⟨upC 0 [] (fun c => c), 9, by decide +kernel⟩,
   ⟨up, 0, by decide +kernel⟩,
   ⟨upC 0 [] onBusF, 9, 0, txF, {}, none, by decide +kernel⟩,
   ⟨upC 0 [] onBusF, 9, 0, txF, by decide +kernel⟩,
   ⟨upC 0 [] (fun c => { onBusF c with ackRun := 31 }), 9, 0, txF, by decide +kernel⟩,
   ⟨upC 0x100 [] (fun c => { onBusF c with tec := 247 }), 9, 0, txF, {}, none, by decide +kernel⟩,
   ⟨upC 0 [] onBusF, 9, 0, txF, {}, none, by decide +kernel⟩,
   ⟨upC 0 [] onBusF, 9, 0, txF, {}, none, by decide +kernel⟩,
   ⟨upC 0 [] (fun c => c), 9, { fmt := 2 }, by decide +kernel⟩,
   ⟨upC 0 [] (fun c => { c with tec := 255 }), 9, {}, by decide +kernel⟩,
   ⟨upC 0 [] (fun c => c), 9, {}, by decide +kernel⟩,
   ⟨upC 0 [rc 12 2 288 [0, 0, 0]] (fun c => c), 9, {}, 0, rc 12 2 288 [0, 0, 0], by decide +kernel⟩,
   ⟨up, 9, {}, by decide +kernel⟩,
   ⟨up, 0, by decide +kernel⟩,
   ⟨upC 0 [] (fun c => { c with tec := 255 }), 9, by decide +kernel⟩⟩

theorem test_CanRecoveryAndSchedule_hypotheses_met :
    (∃ (s : State) (ch : Fin 10), ((s.canCh ch).conf ≠ 2 ∨ s.canF ch 4 1 = 0)) ∧
    (∃ (s : State) (ch : Fin 10), (s.canCh ch).conf = 2 ∧ s.canF ch 4 1 = 1) ∧
    (∃ (s : State) (ch : Fin 10), (s.canCh ch).conf ≠ 3) ∧
    (∃ (s : State) (ch : Fin 10), (s.canCh ch).conf = 3) ∧
    (∃ (s : State) (ch : Fin 10), (s.canCh ch).backoff = none) ∧
    (∃ (s : State) (ch : Fin 10) (x : Nat), (s.canCh ch).backoff = some x) ∧
    (∃ (s : State) (ch : Fin 10) (a : Nat) (b : Nat) (z : Nat) (l : List Nat), (s.canCh ch).txdAt = a :: b :: z :: l
      ∧ a ≤ z + sec) ∧
    (∃ (s : State) (ch : Fin 10), txdThrice (s.canCh ch) = false ∧ (s.canCh ch).onBus.isSome = true) ∧
    (∃ (s : State) (ch : Fin 10), txdThrice (s.canCh ch) = false ∧ (s.canCh ch).onBus = none) ∧
    (∃ (s : State) (ch : Fin 10), s.schedRec ch = none) ∧
    (∃ (s : State) (ch : Fin 10) (r : Rec) (k : Nat), s.schedRec ch = some r ∧ (s.canCh ch).sched = false ∧
      s.schedMay ch = true ∧ s.schedTimed ch = true ∧ k = nextMatrix r (s.schedRows ch) s.weave.time.toNat) ∧
    (∃ (s : State) (ch : Fin 10) (r : Rec), s.schedRec ch = some r ∧ (s.canCh ch).sched = false ∧ (s.schedMay ch =
      false ∨ s.schedTimed ch = false)) ∧
    (∃ (s : State) (ch : Fin 10) (r : Rec) (x : Nat × Nat), s.schedRec ch = some r ∧ (s.canCh ch).sched = true ∧
      s.schedMay ch = true ∧ s.schedTimed ch = true ∧ (s.canCh ch).windowOpen = false ∧ x = nextWindow r (s.canCh
      ch).cycle (s.canCh ch).window) ∧
    (∃ (s : State) (ch : Fin 10) (r : Rec), s.schedRec ch = some r ∧ (s.canCh ch).sched = true ∧ s.schedMay ch =
      false) ∧
    (∃ (s : State) (ch : Fin 10) (r : Rec), s.schedRec ch = some r ∧ (s.canCh ch).sched = true ∧ (s.canCh
      ch).windowOpen = true ∧ (s.openCell ch r).1 = 1 ∧ (s.canCh ch).onBus ≠ some 2) ∧
    (∃ (s : State) (ch : Fin 10) (r : Rec), s.schedRec ch = some r ∧ ((s.canCh ch).sched = false ∨ (s.canCh
      ch).windowOpen = false)) ∧
    (∃ (s : State) (ch : Fin 10) (r : Rec), s.schedRec ch = some r ∧ (s.canCh ch).sched = true ∧ (s.canCh
      ch).windowOpen = true ∧ (s.canCh ch).windowDone = false ∧ (s.canCh ch).onBus = none) ∧
    (∃ (s : State) (k : Fin 8), (vget s.can.cf k).st ≠ 1) ∧
    (∃ (s : State) (k : Fin 8), (vget s.can.cf k).st = 1) ∧
    (∃ (s : State) (k : Fin 32), s.sendOf k = none) ∧
    (∃ (s : State) (k : Fin 32), s.can.tpRecv.find? (fun y => y.id == k.val) = none) ∧
    (∃ (s : State) (k : Fin 32) (x : TpSend), s.sendOf k = some x ∧ x.wait = .packet ∧ x.sent < x.upTo) ∧
    (∃ (s : State) (k : Fin 32) (x : TpSend), s.sendOf k = some x ∧ x.wait = .packet ∧ x.upTo ≤ x.sent) ∧
    (∃ (s : State) (k : Fin 32) (x : TpSend), s.sendOf k = some x ∧ x.wait = .peer) ∧
    (∃ (x : TpSend) (a : Act), x.act = some a) ∧
    (∃ (s : State) (k : Fin 32) (y : TpRecv), s.can.tpRecv.find? (fun y => y.id == k.val) = some y) :=
  ⟨⟨up, 0, by decide +kernel⟩,
   ⟨upC 0x10 [] (fun c => { c with conf := 2 }), 9, by decide +kernel⟩,
   ⟨up, 0, by decide +kernel⟩,
   ⟨upC 0 [] (fun c => { c with conf := 3 }), 9, by decide +kernel⟩,
   ⟨up, 0, by decide +kernel⟩,
   ⟨upC 0 [] (fun c => { c with backoff := some 7 }), 9, 7, by decide +kernel⟩,
   ⟨upC 0 [] (fun c => { c with txdAt := [1000000000, 0, 0] }), 9, 1000000000, 0, 0, [], by decide +kernel⟩,
   ⟨upC 0 [] (fun c => { c with onBus := some 0 }), 9, by decide +kernel⟩,
   ⟨up, 0, by decide +kernel⟩,
   ⟨up, 0, by decide +kernel⟩,
   ⟨upC 0 [sched1] (fun c => c), 9, sched1, nextMatrix sched1 1 0, by decide +kernel⟩,
   ⟨upC 0 [sched1] (fun c => { c with conf := 2 }), 9, sched1, by decide +kernel⟩,
   ⟨upC 0 [sched1] (fun c => { c with sched := true }), 9, sched1, (1, 0), by decide +kernel⟩,
   ⟨upC 0 [sched1] (fun c => { c with sched := true, conf := 2 }), 9, sched1, by decide +kernel⟩,
   ⟨upC 0 [sched1] (fun c => { c with sched := true, windowOpen := true }), 9, sched1, by decide +kernel⟩,
   ⟨upC 0 [sched1] (fun c => { c with sched := true }), 9, sched1, by decide +kernel⟩,
   ⟨upC 0 [sched1] (fun c => { c with sched := true, windowOpen := true }), 9, sched1, by decide +kernel⟩,
   ⟨up, 0, by decide +kernel⟩,
   ⟨{ up with can.cf := vmod up.can.cf 7 (fun f => { f with st := 1 }) }, 7, by decide +kernel⟩,
   ⟨up, 0, by decide +kernel⟩,
   ⟨up, 0, by decide +kernel⟩,
   ⟨{ up with can.tpSend := [{ id := 31, wait := .packet, upTo := 1 }] }, 31, { id := 31, wait := .packet, upTo := 1 }, by decide +kernel⟩,
   ⟨{ up with can.tpSend := [{ id := 31, wait := .packet, sent := 1, upTo := 1 }] }, 31, { id := 31, wait := .packet, sent := 1, upTo := 1 }, by decide +kernel⟩,
   ⟨{ up with can.tpSend := [{ id := 31, act := some {} }] }, 31, { id := 31, act := some {} }, by decide +kernel⟩,
   ⟨{ id := 31, act := some {} }, {}, by decide +kernel⟩,
   ⟨{ up with can.tpRecv := [{ id := 31 }] }, 31, { id := 31 }, by decide +kernel⟩⟩

theorem test_BusesAgreeToSleep_hypotheses_met :
    (∃ (s : State) (n : Fin 10), (s.netRuns = false ∨ s.netHas n = false ∨ (s.netBus n).need = false ∨ s.busUp n =
      false)) ∧
    (∃ (s : State) (n : Fin 10), s.netRuns = true ∧ s.netHas n = true ∧ (s.netBus n).need = true ∧ s.busUp n = true ∧
      (s.netF n 3 30 1 = 0 ∨ s.canListens n = true)) ∧
    (∃ (s : State) (n : Fin 10), s.netRuns = true ∧ s.netHas n = true ∧ (s.netBus n).need = true ∧ s.busUp n = true ∧
      s.netF n 3 30 1 = 1 ∧ s.canListens n = false ∧ (s.canCh n).conf.toNat < 2 ∧ (s.canCh n).queue.length < 64) ∧
    (∃ (s : State) (n : Fin 10), (s.netRuns = false ∨ s.netHas n = false ∨ s.busSt n ≠ .awake)) ∧
    (∃ (s : State) (n : Fin 10), (s.netBus n).wakeUntil = none ∧ (s.netBus n).need = true) ∧
    (∃ (s : State) (n : Fin 10) (k : Nat), s.netRuns = true ∧ s.netHas n = true ∧ s.busSt n = .awake ∧ (s.netBus
      n).wakeUntil = none ∧ (s.netBus n).need = false ∧ (s.netBus n).lastKa = some k) ∧
    (∃ (s : State) (n : Fin 10) (x : Nat), s.netRuns = true ∧ s.netHas n = true ∧ s.busSt n = .awake ∧ (s.netBus
      n).wakeUntil = some x) ∧
    (∃ (s : State) (n : Fin 10), (s.netRuns = false ∨ s.busSt n ≠ .ready)) ∧
    (∃ (s : State) (n : Fin 10), s.netRuns = true ∧ s.busSt n = .ready ∧ (s.canCh n).onBus = none) ∧
    (∃ (s : State) (n : Fin 10) (i : Bool), s.netRuns = true ∧ s.busSt n = .ready ∧ (i = false ∨ (s.canCh
      n).onBus.isSome = true)) ∧
    (∃ (s : State) (n : Fin 10), (s.netRuns = false ∨ s.netF n 0 24 8 = 0 ∨ soleHold s n = none)) ∧
    (∃ (s : State) (n : Fin 10) (k : BitVec 29) (a : Nat), s.netRuns = true ∧ s.netF n 0 24 8 ≠ 0 ∧ soleHold s n =
      some (k, a)) :=
  ⟨⟨up, 0, by decide +kernel⟩,
   ⟨upN [0, 0, 0, 0, 0] [] (fun b => { b with need := true }), 9, by decide +kernel⟩,
   ⟨upN [0x010A020A, 0x80000000, 0, 0x40000000, 0x800] [] (fun b => { b with need := true }), 9, by decide +kernel⟩,
   ⟨up, 0, by decide +kernel⟩,
   ⟨upN [0x010A020A, 0x80000000, 0, 0x40000000, 0x800] [] (fun b => { b with need := true }), 9, by decide +kernel⟩,
   ⟨upN [0x010A020A, 0x80000000, 0, 0x40000000, 0x800] [] (fun b => { b with lastKa := some 0 }), 9, 0, by decide +kernel⟩,
   ⟨upN [0x010A020A, 0x80000000, 0, 0x40000000, 0x800] [] (fun b => { b with wakeUntil := some 7 }), 9, 7, by decide +kernel⟩,
   ⟨up, 0, by decide +kernel⟩,
   ⟨upN [0x010A020A, 0x80000000, 0, 0x40000000, 0x800] [] (fun b => { b with st := .ready }), 9, by decide +kernel⟩,
   ⟨(upN [0x010A020A, 0x80000000, 0, 0x40000000, 0x800] [] (fun b => { b with st := .ready })).modCan 9 onBusF, 9, true, by decide +kernel⟩,
   ⟨up, 0, by decide +kernel⟩,
   ⟨upN [0x010A020A, 0x80000000, 0, 0x40000000, 0x800] [] (fun b => { b with runAt := some 3, srcs := [{ key := 5, last := 3, since := 3 }] }), 9, 5, 3, by decide +kernel⟩⟩

theorem test_BusesWakeAndAreCommanded_hypotheses_met :
    (∃ (b : NetBus) (r : Rec), b.armBus = some r ∧ r.f 1 30 2 = 0) ∧
    (∃ (b : NetBus) (r : Rec), b.armBus = some r ∧ r.f 1 30 2 = 1) ∧
    (∃ (b : NetBus) (r : Rec) (f : CanFrame), b.armBus = some r ∧ r.f 1 30 2 = 2 ∧ ((srcKey r f ∈ b.bars ∨ f.fmt = 2
      ∨ ∀ p ∈ b.armPats, patMatches p.2 f = false))) ∧
    (∃ (b : NetBus) (r : Rec) (f : CanFrame) (p : Nat × Rec), b.armBus = some r ∧ r.f 1 30 2 = 2 ∧ f.fmt ≠ 2 ∧ srcKey
      r f ∉ b.bars ∧ p ∈ b.armPats ∧ patMatches p.2 f = true) ∧
    (∃ (b : NetBus) (r : Rec), b.armBus = some r ∧ r.f 1 30 2 = 2 ∧ r.f 4 8 8 ≤ b.errs + 1) ∧
    (∃ (b : NetBus) (r : Rec), b.armBus = some r ∧ r.f 1 30 2 = 2 ∧ b.errs + 1 < r.f 4 8 8) ∧
    (∃ (b : NetBus) (r : Rec) (f : CanFrame), b.armBus = some r ∧ r.f 1 30 2 = 2 ∧ f.fmt = 0) ∧
    (∃ (s : State) (n : Fin 10), s.busSt n ≠ .asleep) ∧
    (∃ (s : State) (n : Fin 10) (x : WakeSignal), s.busSt n = .asleep ∧ ((detect (s.netBus n) x).1 = none ∨
      s.pwr.mode = .storage)) ∧
    (∃ (s : State) (n : Fin 10) (x : WakeSignal) (c : BitVec 2) (p : BitVec 3), s.busSt n = .asleep ∧ s.pwr.mode ≠
      .storage ∧ (detect (s.netBus n) x).1 = some (c, p)) ∧
    (∃ (s : State) (n : Fin 10), s.busSt n = .asleep) ∧
    (∃ (s : State) (n : Fin 10), (s.busSt n = .awake ∨ s.busSt n = .standby)) ∧
    (∃ (s : State) (n : Fin 10) (r : Rec), s.busSt n = .asleep ∧ (s.netBus n).armBus = some r ∧ r.f 1 30 2 ≠ 2) ∧
    (∃ (s : State) (n : Fin 10) (f : Option CanFrame) (r : Rec), s.busSt n = .asleep ∧ (s.netBus n).armBus = some r ∧
      r.f 1 30 2 = 2 ∧ (selective (s.netBus n) f).1 = none) ∧
    (∃ (s : State) (n : Fin 10) (f : Option CanFrame) (r : Rec) (c : BitVec 2) (p : BitVec 3), s.busSt n = .asleep ∧
      (s.netBus n).armBus = some r ∧ r.f 1 30 2 = 2 ∧ (selective (s.netBus n) f).1 = some (c, p) ∧ s.pwr.mode ≠
      .storage) ∧
    (∃ (s : State) (n : Fin 10), s.busSt n = .ready ∧ s.netF n 1 30 2 ≠ 2) ∧
    (∃ (s : State) (n : Fin 10), s.busSt n = .ready ∧ s.netF n 1 30 2 = 2) ∧
    (∃ (s : State) (d : Desc) (m : BitVec 10) (h : BitVec 1), s.namesStandby m = true ∧ Ready s d (.netHold m h) =
      true) ∧
    (∃ (s : State) (d : Desc) (m : BitVec 10), s.namesStandby m = true ∧ Ready s d (.netWake m) = true) ∧
    (∃ (s : State) (d : Desc) (m : BitVec 10) (h : BitVec 1), Ready s d (.netHold m h) = true ∧ s.namesStandby m =
      false) ∧
    (∃ (s : State) (d : Desc) (m : BitVec 10), Ready s d (.netWake m) = true ∧ s.namesStandby m = false ∧ (∀ n ∈
      maskList m, s.busSt n ≠ .asleep)) ∧
    (∃ (s : State) (d : Desc) (m : BitVec 10) (n : Nat), Ready s d (.netWake m) = true ∧ s.namesStandby m = false ∧
      (maskList m).filter (fun k => s.busSt k == .asleep) = [n] ∧ s.netRuns = true ∧ s.netHas n = true ∧ s.canEnabled
      n = true ∧ 0 < s.netSleep n) ∧
    (∃ (s : State) (d : Desc) (m : BitVec 10), Ready s d (.netBarClear m) = true) ∧
    (∃ (s : State) (d : Desc) (ch : BitVec 4), Ready s d (.netRead ch) = true) :=
  ⟨⟨{ armBus := some (rc 13 1 9 [0, 0, 0, 0x1FFFFFFF, 0x800]) }, rc 13 1 9 [0, 0, 0, 0x1FFFFFFF, 0x800], by decide +kernel⟩,
   ⟨{ armBus := some (rc 13 1 9 [0, 0x40000000, 0, 0x1FFFFFFF, 0x800]) }, rc 13 1 9 [0, 0x40000000, 0, 0x1FFFFFFF, 0x800], by decide +kernel⟩,
   ⟨{ armBus := some (rc 13 1 9 [0, 0x80000000, 0, 0x1FFFFFFF, 0x800]), bars := [0] }, rc 13 1 9 [0, 0x80000000, 0, 0x1FFFFFFF, 0x800], {}, by decide +kernel⟩,
   ⟨{ armBus := some (rc 13 1 9 [0, 0x80000000, 0, 0x1FFFFFFF, 0x800]), bars := [0], armPats := [(7, rc 13 2 79 [5, 0, 0, 0, 0, 0, 0])] }, rc 13 1 9 [0, 0x80000000, 0, 0x1FFFFFFF, 0x800], { id := 5 }, (7, rc 13 2 79 [5, 0, 0, 0, 0, 0, 0]), by decide +kernel⟩,
   ⟨{ armBus := some (rc 13 1 9 [0, 0x80000000, 0, 0x1FFFFFFF, 0x800]), errs := 7 }, rc 13 1 9 [0, 0x80000000, 0, 0x1FFFFFFF, 0x800], by decide +kernel⟩,
   ⟨{ armBus := some (rc 13 1 9 [0, 0x80000000, 0, 0x1FFFFFFF, 0x800]), errs := 6 }, rc 13 1 9 [0, 0x80000000, 0, 0x1FFFFFFF, 0x800], by decide +kernel⟩,
   ⟨{ armBus := some (rc 13 1 9 [0, 0x80000000, 0, 0x1FFFFFFF, 0x800]) }, rc 13 1 9 [0, 0x80000000, 0, 0x1FFFFFFF, 0x800], {}, by decide +kernel⟩,
   ⟨up, 0, by decide +kernel⟩,
   ⟨upN [0x010A020A, 0x80000000, 0, 0x40000000, 0x800] [] (fun b => { b with st := .asleep }), 9, .edge, by decide +kernel⟩,
   ⟨upN [0x010A020A, 0x80000000, 0, 0x40000000, 0x800] [] (fun b => { b with st := .asleep, armBus := some (rc 13 1 9 [0, 0x40000000, 0, 0, 0]) }), 9, .edge, 1, 0, by decide +kernel⟩,
   ⟨upN [0x010A020A, 0x80000000, 0, 0x40000000, 0x800] [] (fun b => { b with st := .asleep }), 9, by decide +kernel⟩,
   ⟨up, 0, by decide +kernel⟩,
   ⟨upN [0x010A020A, 0x80000000, 0, 0x40000000, 0x800] [] (fun b => { b with st := .asleep, armBus := some (rc 13 1 9 [0, 0x40000000, 0, 0, 0]) }), 9, rc 13 1 9 [0, 0x40000000, 0, 0, 0], by decide +kernel⟩,
   ⟨upN [0x010A020A, 0x80000000, 0, 0x40000000, 0x800] [] (fun b => { b with st := .asleep, armBus := some (rc 13 1 9 [0, 0x80000000, 0, 0, 0x800]) }), 9, none, rc 13 1 9 [0, 0x80000000, 0, 0, 0x800], by decide +kernel⟩,
   ⟨upN [0x010A020A, 0x80000000, 0, 0x40000000, 0x800] [] (fun b => { b with st := .asleep, armBus := some (rc 13 1 9 [0, 0x80000000, 0, 0, 0]) }), 9, none, rc 13 1 9 [0, 0x80000000, 0, 0, 0], 2, 0, by decide +kernel⟩,
   ⟨upN [0, 0x40000000, 0, 0, 0] [] (fun b => { b with st := .ready }), 9, by decide +kernel⟩,
   ⟨upN [0x010A020A, 0x80000000, 0, 0x40000000, 0x800] [] (fun b => { b with st := .ready }), 9, by decide +kernel⟩,
   ⟨upN [0x010A020A, 0x80000000, 0, 0x40000000, 0x800] [] (fun b => { b with st := .standby }), {}, 0x200, 0, by decide +kernel⟩,
   ⟨upN [0x010A020A, 0x80000000, 0, 0x40000000, 0x800] [] (fun b => { b with st := .standby }), {}, 0x200, by decide +kernel⟩,
   ⟨up, {}, 0, 0, by decide +kernel⟩,
   ⟨up, {}, 0, by decide +kernel⟩,
   ⟨upN [0x010A020A, 0x80000000, 0, 0x40000000, 0x800] [] (fun b => { b with st := .asleep }), {}, 0x201, 9, by decide +kernel⟩,
   ⟨up, {}, 0, by decide +kernel⟩,
   ⟨up, {}, 0, by decide +kernel⟩⟩

theorem test_FleetsFormAndDissolve_hypotheses_met :
    (∃ (s : State), s.role = .manager ∧ s.isOn .eth = true ∧ s.plaitPort = true) ∧
    (∃ (s : State), (s.role ≠ .manager ∨ s.isOn .eth = false ∨ s.plaitPort = false)) ∧
    (∃ (s : State) (e : BitVec 48), (s.isOn .eth = false ∨ s.role = .standalone ∨ (s.role = .manager ∧ e =
      Config.eui))) ∧
    (∃ (s : State), s.isOn .eth = true ∧ s.role = .worker ∧ (s.linkUp 0 = true ∨ s.plait.joining = true ∨
      s.plait.refused = true)) ∧
    (∃ (s : State), s.isOn .eth = true ∧ s.role = .worker ∧ s.linkUp 0 = false ∧ s.plait.joining = false ∧
      s.plait.refused = false) ∧
    (∃ (s : State) (p : BitVec 8) (e : BitVec 48), s.isOn .eth = true ∧ s.role = .manager ∧ e ≠ Config.eui ∧
      (s.plaitPrio < p.toNat ∨ (s.plaitPrio = p.toNat ∧ e.toNat < Config.eui.toNat))) ∧
    (∃ (s : State) (p : BitVec 8) (e : BitVec 48), s.isOn .eth = true ∧ s.role = .manager ∧ e ≠ Config.eui ∧ p.toNat
      ≤ s.plaitPrio ∧ ((s.plaitPrio = p.toNat → Config.eui.toNat ≤ e.toNat))) ∧
    (∃ (s : State), (s.role ≠ .manager ∨ s.isOn .eth = false)) ∧
    (∃ (s : State) (w : Fin 32), s.role = .manager ∧ s.isOn .eth = true ∧ (s.plaitRec 2 w) = none) ∧
    (∃ (s : State) (w : Fin 32), s.role = .manager ∧ s.isOn .eth = true ∧ (s.plaitRec 2 w).isSome = true ∧ s.linkUp w
      = true) ∧
    (∃ (s : State) (w : Fin 32) (h : BitVec 3), s.role = .manager ∧ s.isOn .eth = true ∧ (s.plaitRec 2 w).isSome =
      true ∧ s.linkUp w = false ∧ 6 < h.toNat) ∧
    (∃ (s : State) (w : Fin 32) (h : BitVec 3), s.role = .manager ∧ s.isOn .eth = true ∧ (s.plaitRec 2 w).isSome =
      true ∧ s.linkUp w = false ∧ h.toNat ≤ 6) ∧
    (∃ (s : State), s.role = .worker ∧ s.isOn .eth = true ∧ s.plait.joining = true ∧ s.linkUp 0 = false) ∧
    (∃ (s : State), (s.role ≠ .worker ∨ s.isOn .eth = false ∨ s.plait.joining = false)) ∧
    (∃ (s : State), s.role = .worker ∧ s.isOn .eth = true ∧ s.plait.joining = true) ∧
    (∃ (s : State), s.role = .worker ∧ s.isOn .eth = true ∧ s.plait.refused = true ∧ s.linkUp 0 = false) ∧
    (∃ (s : State), (s.role ≠ .worker ∨ s.isOn .eth = false ∨ s.plait.refused = false ∨ s.linkUp 0 = true)) ∧
    (∃ (s : State) (w : Fin 32), (s.isOn .eth = false ∨ s.linkUp w = false)) ∧
    (∃ (s : State), s.isOn .eth = true) ∧
    (∃ (s : State) (d : Desc) (w : BitVec 5), s.role ≠ .manager ∧ Ready s d (.plaitDrop w) = true) ∧
    (∃ (s : State) (d : Desc) (w : BitVec 5), s.role = .manager ∧ Ready s d (.plaitDrop w) = true) ∧
    (∃ (s : State) (w : Fin 32), s.linkUp w = true) ∧
    (∃ (s : State) (w : Fin 32), s.linkUp w = true ∧ s.role ≠ .worker) ∧
    (∃ (s : State) (w : Fin 32) (n : Fin 16), s.linkUp w = true ∧ s.role = .worker ∧ (s.ringN n).remote = true) ∧
    (∃ (s : State) (w : Fin 32), s.linkUp w = true ∧ s.role = .worker) ∧
    (∃ (s : State), (s.isOn .eth = false ∨ s.role ≠ .manager)) ∧
    (∃ (s : State), s.isOn .eth = true ∧ s.role = .manager) ∧
    (∃ (s : State), (s.plait.kl15DownAt = none ∨ s.role ≠ .worker ∨ s.linkUp 0 = true)) ∧
    (∃ (s : State) (x : Nat), s.plait.kl15DownAt = some x ∧ s.role = .worker ∧ s.linkUp 0 = false) :=
  ⟨⟨{ mg with cfg.recs := [rc 14 1 3 [8]] }, by decide +kernel⟩,
   ⟨up, by decide +kernel⟩,
   ⟨up, 0, by decide +kernel⟩,
   ⟨{ wk with plait.refused := true }, by decide +kernel⟩,
   ⟨wk, by decide +kernel⟩,
   ⟨mg, 1, Config.eui + 1, by decide +kernel, by decide +kernel, eui_other, Or.inl (by decide +kernel)⟩,
   ⟨{ mg with cfg.recs := [rc 15 1 0 [0x100, 0, 0, 0]] }, 0, Config.eui + 1, by decide +kernel, by decide +kernel, eui_other, by decide +kernel, fun h => absurd h (by decide +kernel)⟩,
   ⟨up, by decide +kernel⟩,
   ⟨mg, 31, by decide +kernel⟩,
   ⟨mgL [rec31 0] 31 (fun l => l), 31, by decide +kernel⟩,
   ⟨{ mg with cfg.recs := [rec31 0] }, 31, 7, by decide +kernel⟩,
   ⟨{ mg with cfg.recs := [rec31 0] }, 31, 6, by decide +kernel⟩,
   ⟨{ wk with plait.joining := true }, by decide +kernel⟩,
   ⟨up, by decide +kernel⟩,
   ⟨{ wk with plait.joining := true }, by decide +kernel⟩,
   ⟨{ wk with plait.refused := true }, by decide +kernel⟩,
   ⟨up, by decide +kernel⟩,
   ⟨up, 0, by decide +kernel⟩,
   ⟨up, by decide +kernel⟩,
   ⟨upW [rec31 0], {}, 31, by decide +kernel⟩,
   ⟨mgL [rec31 0] 31 (fun l => l), {}, 31, by decide +kernel⟩,
   ⟨mgL [rec31 0] 31 (fun l => l), 31, by decide +kernel⟩,
   ⟨mgL [rec31 0] 31 (fun l => l), 31, by decide +kernel⟩,
   ⟨(wkL [] 0 (fun l => l)).modRing 15 (fun r => { r with remote := true }), 0, 15, by decide +kernel⟩,
   ⟨wkL [] 0 (fun l => l), 0, by decide +kernel⟩,
   ⟨up, by decide +kernel⟩,
   ⟨mg, by decide +kernel⟩,
   ⟨up, by decide +kernel⟩,
   ⟨{ wk with plait.kl15DownAt := some 7 }, 7, by decide +kernel⟩⟩

theorem test_LinksCarryFrames_hypotheses_met :
    (∃ (s : State) (w : Fin 32), (s.isOn .eth = false ∨ s.linkUp w = false ∨ (s.plink w).unacked = [])) ∧
    (∃ (s : State) (w : Fin 32), s.isOn .eth = true ∧ s.linkUp w = true ∧ (s.plink w).unacked ≠ [] ∧ s.plaitLink 1 ≤
      (s.plink w).resends) ∧
    (∃ (s : State) (w : Fin 32), s.isOn .eth = true ∧ s.linkUp w = true ∧ (s.plink w).unacked ≠ [] ∧ (s.plink
      w).resends < s.plaitLink 1) ∧
    (∃ (s : State) (w : Fin 32), (s.isOn .eth = false ∨ s.linkUp w = false)) ∧
    (∃ (s : State) (w : Fin 32), s.isOn .eth = true ∧ s.linkUp w = true) ∧
    (∃ (s : State) (w : Fin 32) (f : PlaitFrame), frameGood s w f = false) ∧
    (∃ (s : State) (w : Fin 32) (f : PlaitFrame) (u : State), s.isOn .eth = true ∧ s.linkUp w = true ∧ frameGood s w
      f = true ∧ u = (ackTake s w f.ack).modLink w (creditTake f) ∧ f.cls = 4) ∧
    (∃ (s : State) (w : Fin 32) (f : PlaitFrame) (u : State), s.isOn .eth = true ∧ s.linkUp w = true ∧ frameGood s w
      f = true ∧ u = (ackTake s w f.ack).modLink w (creditTake f) ∧ f.cls ≠ 4 ∧ f.seq ≠ (s.plink w).rxSeq) ∧
    (∃ (s : State) (w : Fin 32) (f : PlaitFrame) (u : State), s.isOn .eth = true ∧ s.linkUp w = true ∧ frameGood s w
      f = true ∧ u = (ackTake s w f.ack).modLink w (creditTake f) ∧ f.cls ≠ 4 ∧ f.seq = (s.plink w).rxSeq) ∧
    (∃ (s : State) (w : Fin 32) (g : BitVec 11), (s.plink w).nps.find? (fun o => o.tag == g) = none) ∧
    (∃ (s : State) (w : Fin 32) (g : BitVec 11) (o : NpOut) (h : BitVec 2) (n : Nat) (wr : Bool), (s.plink
      w).nps.find? (fun o => o.tag == g) = some o ∧ o.why = .core h n wr) ∧
    (∃ (s : State) (w : Fin 32) (g : BitVec 11) (o : NpOut) (a : Act), (s.plink w).nps.find? (fun o => o.tag == g) =
      some o ∧ o.why = .ping a) ∧
    (∃ (s : State) (w : Nat) (a : Nat) (bs : List (BitVec 8)), hlOk s w a bs.length = false) ∧
    (∃ (s : State) (w : Nat) (a : Nat) (n : Nat), hlOk s w a n = false) ∧
    (∃ (s : State) (off : Nat) (n : Nat) (a : Nat), busFits off n = true ∧ windowTarget s off = .inr a ∧ regBase ≤ a
      ∧ anySensitive a n = true) ∧
    (∃ (off : Nat) (bs : List (BitVec 8)), busFits off bs.length = false) ∧
    (∃ (off : Nat) (bs : List (BitVec 8)), busFits off bs.length = true ∧ reservedPage off = true) ∧
    (∃ (s : State), (s.role ≠ .manager ∨ s.isOn .eth = false)) ∧
    (∃ (s : State) (w : Fin 32) (ch : Fin 10) (r : Rec), s.role = .manager ∧ s.isOn .eth = true ∧ s.plaitRec 4 (16 *
      w.val + ch.val) = some r) ∧
    (∃ (s : State) (w : Fin 32) (ch : Fin 10), s.role = .manager ∧ s.isOn .eth = true ∧ s.plaitRec 4 (16 * w.val +
      ch.val) = none) ∧
    (∃ (s : State) (p : Fin 4) (u : Bool), (s.isOn .eth = false ∨ (u = true ∧ s.recField 14 1 p 0 0 1 0 = 0))) ∧
    (∃ (s : State) (p : Fin 4), s.isOn .eth = true ∧ (vget s.eth.port p).link = true) ∧
    (∃ (s : State) (p : Fin 4), s.isOn .eth = true ∧ s.recField 14 1 p 0 0 1 0 = 1 ∧ (vget s.eth.port p).link =
      false) ∧
    (∃ (s : State) (p : Fin 4), s.isOn .eth = true ∧ s.recField 14 1 p 0 0 1 0 = 1 ∧ (vget s.eth.port p).link = true) :=
  ⟨⟨up, 0, by decide +kernel⟩,
   ⟨mgL [rec31 0] 31 (fun l => { l with unacked := [{}], resends := 8 }), 31, by decide +kernel⟩,
   ⟨mgL [rec31 0] 31 (fun l => { l with unacked := [{}], resends := 7 }), 31, by decide +kernel⟩,
   ⟨up, 0, by decide +kernel⟩,
   ⟨mgL [rec31 0] 31 (fun l => l), 31, by decide +kernel⟩,
   ⟨mg, 31, { good := false }, by decide +kernel⟩,
   ⟨mgL [rec31 0] 31 (fun l => l), 31, { cls := 4, src := 31, seq := 0 }, (ackTake (mgL [rec31 0] 31 (fun l => l)) 31 0).modLink 31 (creditTake { cls := 4, src := 31, seq := 0 }), by decide +kernel, by decide +kernel, by decide +kernel, rfl, by decide +kernel⟩,
   ⟨mgL [rec31 0] 31 (fun l => l), 31, { cls := 0, src := 31, seq := 1 }, (ackTake (mgL [rec31 0] 31 (fun l => l)) 31 0).modLink 31 (creditTake { cls := 0, src := 31, seq := 1 }), by decide +kernel, by decide +kernel, by decide +kernel, rfl, by decide +kernel, by decide +kernel⟩,
   ⟨mgL [rec31 0] 31 (fun l => l), 31, { cls := 0, src := 31, seq := 0 }, (ackTake (mgL [rec31 0] 31 (fun l => l)) 31 0).modLink 31 (creditTake { cls := 0, src := 31, seq := 0 }), by decide +kernel, by decide +kernel, by decide +kernel, rfl, by decide +kernel, by decide +kernel⟩,
   ⟨up, 0, 0, by decide +kernel⟩,
   ⟨mgL [rec31 0] 31 (fun l => { l with nps := [{ tag := 5, why := .core 3 8 true }] }), 31, 5, { tag := 5, why := .core 3 8 true }, 3, 8, true, by decide +kernel⟩,
   ⟨mgL [rec31 0] 31 (fun l => { l with nps := [{ tag := 5, why := .ping {} }] }), 31, 5, { tag := 5, why := .ping {} }, {}, by decide +kernel⟩,
   ⟨mgL [rec31 0] 31 (fun l => l), 31, 0, [0], by decide +kernel⟩,
   ⟨mgL [rec31 0] 31 (fun l => l), 31, 0, 256, by decide +kernel⟩,
   ⟨wk, 0x20060, 4, regBase + 0x20060, by decide +kernel⟩,
   ⟨0x15FFFF, [0], by decide +kernel⟩,
   ⟨0x7FFFFF, [0], by decide +kernel⟩,
   ⟨up, by decide +kernel⟩,
   ⟨{ mg with cfg.recs := [rc 15 4 505 [0]] }, 31, 9, rc 15 4 505 [0], by decide +kernel⟩,
   ⟨mg, 31, 9, by decide +kernel⟩,
   ⟨up, 3, true, by decide +kernel⟩,
   ⟨{ up with eth.port := vset up.eth.port 3 { link := true } }, 3, by decide +kernel⟩,
   ⟨upW [rc 14 1 3 [1]], 3, by decide +kernel⟩,
   ⟨{ upW [rc 14 1 3 [1]] with eth.port := vset up.eth.port 3 { link := true } }, 3, by decide +kernel⟩⟩

theorem test_WindowsAreReached_hypotheses_met :
    (∃ (s : State), s.isOn .host = false) ∧
    (∃ (s : State) (w : Fin 32), s.isOn .host = true ∧ (s.role ≠ .manager ∨ w.val = 0)) ∧
    (∃ (s : State) (w : Fin 32), s.isOn .host = true ∧ s.role = .manager ∧ w.val ≠ 0 ∧ s.linkUp w = false) ∧
    (∃ (s : State) (w : Fin 32) (o : BitVec 25) (z : BitVec 4) (a : Bool), s.isOn .host = true ∧ s.role = .manager ∧
      w.val ≠ 0 ∧ s.linkUp w = true ∧ windowSizeOk o.toNat z.toNat a = false) ∧
    (∃ (s : State) (w : Fin 32) (o : BitVec 25) (z : BitVec 4) (a : Bool), s.isOn .host = true ∧ s.role = .manager ∧
      w.val ≠ 0 ∧ s.linkUp w = true ∧ windowSizeOk o.toNat z.toNat a = true ∧ reservedPage o.toNat = true) ∧
    (∃ (s : State) (w : Fin 32) (o : BitVec 25) (z : BitVec 4), s.isOn .host = true ∧ s.role = .manager ∧ w.val ≠ 0 ∧
      s.linkUp w = true ∧ windowSizeOk o.toNat z.toNat false = true ∧ reservedPage o.toNat = false ∧ s.isOn .eth =
      true ∧ (regPage o.toNat = false ∨ z ≠ 8) ∧ pageAttr s w (o.toNat / 65536) = 0) ∧
    (∃ (s : State) (w : Fin 32) (o : BitVec 25) (z : BitVec 4), s.isOn .host = true ∧ s.role = .manager ∧ w.val ≠ 0 ∧
      s.linkUp w = true ∧ windowSizeOk o.toNat z.toNat false = true ∧ reservedPage o.toNat = false ∧ s.isOn .eth =
      true ∧ (regPage o.toNat = false ∨ z ≠ 8) ∧ pageAttr s w (o.toNat / 65536) = 1) ∧
    (∃ (s : State) (w : Fin 32) (o : BitVec 25) (z : BitVec 4), s.isOn .host = true ∧ s.role = .manager ∧ w.val ≠ 0 ∧
      s.linkUp w = true ∧ windowSizeOk o.toNat z.toNat false = true ∧ reservedPage o.toNat = false ∧ s.isOn .eth =
      true ∧ (regPage o.toNat = false ∨ z ≠ 8) ∧ pageAttr s w (o.toNat / 65536) = 4 ∧ z = 1) ∧
    (∃ (s : State) (w : Fin 32) (o : BitVec 25) (z : BitVec 4), s.isOn .host = true ∧ s.role = .manager ∧ w.val ≠ 0 ∧
      s.linkUp w = true ∧ windowSizeOk o.toNat z.toNat false = true ∧ reservedPage o.toNat = false ∧ s.isOn .eth =
      true ∧ (regPage o.toNat = false ∨ z ≠ 8) ∧ pageAttr s w (o.toNat / 65536) = 2 ∧ s.heldBlock w o.toNat = none) ∧
    (∃ (s : State) (w : Fin 32) (o : BitVec 25) (z : BitVec 4) (b : ReadAhead), s.isOn .host = true ∧ s.role =
      .manager ∧ w.val ≠ 0 ∧ s.linkUp w = true ∧ windowSizeOk o.toNat z.toNat false = true ∧ reservedPage o.toNat =
      false ∧ s.isOn .eth = true ∧ (regPage o.toNat = false ∨ z ≠ 8) ∧ pageAttr s w (o.toNat / 65536) = 2 ∧
      s.heldBlock w o.toNat = some b ∧ b.bytes.length = 64) ∧
    (∃ (s : State) (w : Fin 32) (b : BitVec 19), s.heldBlock w (b.toNat * 64) = none) ∧
    (∃ (s : State) (w : Fin 32) (b : BitVec 19) (x : ReadAhead), s.heldBlock w (b.toNat * 64) = some x) ∧
    (∃ (s : State) (d : Desc) (w : BitVec 5) (dir : BitVec 1) (o : BitVec 25) (c : HostCmd), c = .plaitCopy w dir o ∧
      Ready s d c = true ∧ s.role ≠ .manager) ∧
    (∃ (s : State) (d : Desc) (w : BitVec 5) (dir : BitVec 1) (o : BitVec 25) (c : HostCmd), c = .plaitCopy w dir o ∧
      Ready s d c = true ∧ s.role = .manager ∧ 0x2000000 < o.toNat + d.payLen.toNat) ∧
    (∃ (s : State) (d : Desc) (w : BitVec 5) (dir : BitVec 1) (o : BitVec 25) (c : HostCmd), c = .plaitCopy w dir o ∧
      Ready s d c = true ∧ s.role = .manager ∧ o.toNat + d.payLen.toNat ≤ 0x2000000 ∧ s.linkUp w.toNat = false) ∧
    (∃ (s : State) (d : Desc) (w : BitVec 5) (dir : BitVec 1) (o : BitVec 25) (c : HostCmd), c = .plaitCopy w dir o ∧
      Ready s d c = true ∧ s.role = .manager ∧ o.toNat + d.payLen.toNat ≤ 0x2000000 ∧ s.linkUp w.toNat = true ∧
      d.payLen = 0) ∧
    (∃ (s : State) (d : Desc) (w : BitVec 5) (dir : BitVec 1) (o : BitVec 25) (c : HostCmd), c = .plaitCopy w dir o ∧
      Ready s d c = true ∧ s.role = .manager ∧ o.toNat % 65536 + d.payLen.toNat ≤ 65536 ∧ s.linkUp w.toNat = true ∧
      d.payLen ≠ 0 ∧ d.payLen.toNat ≤ 256 ∧ reservedPage o.toNat = false ∧ regPage o.toNat = false ∧ pageAttr s
      w.toNat (o.toNat / 65536) = 0 ∧ s.copyOf d = none) ∧
    (∃ (s : State) (d : Desc) (n : Nat) (c : PCopy), s.copyOf d = some c ∧ c.done + n < c.len) ∧
    (∃ (s : State) (d : Desc) (n : Nat) (c : PCopy), s.copyOf d = some c ∧ c.len ≤ c.done + n) ∧
    (∃ (s : State) (d : Desc) (w : BitVec 5), Ready s d (.plaitPing w) = true ∧ s.role ≠ .manager) ∧
    (∃ (s : State) (d : Desc) (w : BitVec 5), Ready s d (.plaitPing w) = true ∧ s.role = .manager ∧ s.linkUp w.toNat
      = false) ∧
    (∃ (s : State) (d : Desc) (w : BitVec 5), Ready s d (.plaitPing w) = true ∧ s.role = .manager ∧ s.linkUp w.toNat
      = true) ∧
    (∃ (o : NpOut) (a : Act), o.why = .ping a) :=
  ⟨⟨.reset, by decide +kernel⟩,
   ⟨up, 0, by decide +kernel⟩,
   ⟨mg, 31, by decide +kernel⟩,
   ⟨mgL [rec31 0] 31 (fun l => l), 31, 0x8FFFF9, 8, false, by decide +kernel⟩,
   ⟨mgL [rec31 0] 31 (fun l => l), 31, 0x7FFFF8, 8, false, by decide +kernel⟩,
   ⟨mgL [rec31 0] 31 (fun l => l), 31, 0x8FFFF8, 8, by decide +kernel⟩,
   ⟨mgL [rec31 0x10] 31 (fun l => l), 31, 0x8FFFF8, 8, by decide +kernel⟩,
   ⟨mgL [rec31 0x40] 31 (fun l => l), 31, 0xEFFFFF, 1, by decide +kernel⟩,
   ⟨mgL [rec31 0x20] 31 (fun l => l), 31, 0x8FFFF8, 8, by decide +kernel⟩,
   ⟨mgL [rec31 0x20] 31 (fun l => { l with ahead := [{ block := 0x8FFFF8 / 64, bytes := List.replicate 64 9 }] }), 31, 0x8FFFF8, 8, { block := 0x8FFFF8 / 64, bytes := List.replicate 64 9 }, by decide +kernel⟩,
   ⟨up, 0, 0, by decide +kernel⟩,
   ⟨mgL [rec31 0] 31 (fun l => { l with ahead := [{ block := 0x7FFFF }] }), 31, 0x7FFFF, { block := 0x7FFFF }, by decide +kernel⟩,
   ⟨upW [rec31 0], {}, 31, 1, 0x1FFFFFF, .plaitCopy 31 1 0x1FFFFFF, by decide +kernel⟩,
   ⟨{ mg with cfg.recs := [rec31 0] }, { payLen := 2 }, 31, 1, 0x1FFFFFF, .plaitCopy 31 1 0x1FFFFFF, by decide +kernel⟩,
   ⟨{ mg with cfg.recs := [rec31 0] }, { payLen := 1 }, 31, 1, 0x1FFFFFF, .plaitCopy 31 1 0x1FFFFFF, by decide +kernel⟩,
   ⟨mgL [rec31 0] 31 (fun l => l), {}, 31, 1, 0x1FFFFFF, .plaitCopy 31 1 0x1FFFFFF, by decide +kernel⟩,
   ⟨mgL [rec31 0] 31 (fun l => l), dM 256, 31, 0, 0x1FFFF00, .plaitCopy 31 0 0x1FFFF00, by decide +kernel⟩,
   ⟨{ up with plait.copies := [{ act := { d := { ring := 127 } }, worker := 31, len := 16, done := 0 }] }, { ring := 127 }, 15, { act := { d := { ring := 127 } }, worker := 31, len := 16, done := 0 }, by decide +kernel⟩,
   ⟨{ up with plait.copies := [{ act := { d := { ring := 127 } }, worker := 31, len := 16, done := 0 }] }, { ring := 127 }, 16, { act := { d := { ring := 127 } }, worker := 31, len := 16, done := 0 }, by decide +kernel⟩,
   ⟨upW [rec31 0], {}, 31, by decide +kernel⟩,
   ⟨{ mg with cfg.recs := [rec31 0] }, {}, 31, by decide +kernel⟩,
   ⟨mgL [rec31 0] 31 (fun l => l), {}, 31, by decide +kernel⟩,
   ⟨{ why := .ping {} }, {}, by decide +kernel⟩⟩

theorem test_TokensArePaired_hypotheses_met :
    (∃ (s : State) (d : Desc) (k : BitVec 3) (c : HostCmd), c = .accPair k ∧ Ready s d c = true ∧ (s.onTrial = true ∨
      s.accOn = false ∨ s.acc.pairing.isSome = true)) ∧
    (∃ (s : State) (d : Desc) (k : BitVec 3) (c : HostCmd), c = .accPair k ∧ Ready s d c = true ∧ s.onTrial = false ∧
      s.accOn = true ∧ s.acc.pairing = none ∧ s.lockedOut = true) ∧
    (∃ (s : State) (d : Desc) (k : BitVec 3) (c : HostCmd), c = .accPair k ∧ Ready s d c = true ∧ s.onTrial = false ∧
      s.accOn = true ∧ s.acc.pairing = none ∧ s.lockedOut = false ∧ ((k = 0 ∧ (s.pwr.mode ≠ .service ∨ s.ownerPaired
      = true)) ∨ (k ≠ 0 ∧ s.ownerSession = false))) ∧
    (∃ (s : State) (d : Desc) (k : BitVec 3) (c : HostCmd), c = .accPair k ∧ Ready s d c = true ∧ s.onTrial = false ∧
      s.accOn = true ∧ s.acc.pairing = none ∧ s.lockedOut = false ∧ k ≠ 0 ∧ s.ownerSession = true ∧ (s.tok
      k.toNat).paired = true) ∧
    (∃ (s : State) (d : Desc) (k : BitVec 3) (c : HostCmd), c = .accPair k ∧ Ready s d c = true ∧ s.onTrial = false ∧
      s.accOn = true ∧ s.acc.pairing = none ∧ s.lockedOut = false ∧ ((k = 0 ∧ s.pwr.mode = .service) ∨ (k ≠ 0 ∧
      s.ownerSession = true)) ∧ (s.tok k.toNat).paired = false) ∧
    (∃ (s : State), s.acc.pairing = none) ∧
    (∃ (s : State) (p : AccPairing), s.acc.pairing = some p) ∧
    (∃ (s : State) (p : AccPairing), s.acc.pairing = some p ∧ p.slot < 8) ∧
    (∃ (s : State) (d : Desc) (k : BitVec 3) (c : HostCmd), c = .accUnpair k ∧ Ready s d c = true ∧ s.onTrial = true) ∧
    (∃ (s : State) (d : Desc) (k : BitVec 3) (c : HostCmd), c = .accUnpair k ∧ Ready s d c = true ∧ s.onTrial = false
      ∧ k = 0) ∧
    (∃ (s : State) (d : Desc) (k : BitVec 3) (c : HostCmd), c = .accUnpair k ∧ Ready s d c = true ∧ s.onTrial = false
      ∧ k ≠ 0 ∧ s.ownerSession = false) ∧
    (∃ (s : State) (d : Desc) (k : BitVec 3) (c : HostCmd), c = .accUnpair k ∧ Ready s d c = true ∧ s.onTrial = false
      ∧ k ≠ 0 ∧ s.ownerSession = true) ∧
    (∃ (s : State) (d : Desc), Ready s d .accTakeover = true ∧ (s.onTrial = true ∨ s.accOn = false ∨
      s.acc.pairing.isSome = true)) ∧
    (∃ (s : State) (d : Desc), Ready s d .accTakeover = true ∧ s.onTrial = false ∧ s.accOn = true ∧ s.acc.pairing =
      none ∧ s.lockedOut = true) ∧
    (∃ (s : State) (d : Desc), Ready s d .accTakeover = true ∧ s.onTrial = false ∧ s.accOn = true ∧ s.acc.pairing =
      none ∧ s.lockedOut = false ∧ (s.pwr.mode ≠ .service ∨ s.ownerPaired = true)) ∧
    (∃ (s : State) (d : Desc), Ready s d .accTakeover = true ∧ s.onTrial = false ∧ s.accOn = true ∧ s.acc.pairing =
      none ∧ s.lockedOut = false ∧ s.pwr.mode = .service ∧ s.ownerPaired = false) ∧
    (∃ (s : State) (d : Desc) (b : BitVec 1) (c : HostCmd), c = .accOwnerLock b ∧ Ready s d c = true ∧ s.onTrial =
      true) ∧
    (∃ (s : State) (d : Desc) (b : BitVec 1) (c : HostCmd), c = .accOwnerLock b ∧ Ready s d c = true ∧ s.onTrial =
      false ∧ s.ownerSession = false) ∧
    (∃ (s : State) (d : Desc) (b : BitVec 1) (c : HostCmd), c = .accOwnerLock b ∧ Ready s d c = true ∧ s.onTrial =
      false ∧ s.ownerSession = true) ∧
    (∃ (s : State) (d : Desc), Ready s d .accRelKey = true ∧ (s.onTrial = true ∨ s.pwr.mode ≠ .service)) ∧
    (∃ (s : State) (d : Desc), Ready s d .accRelKey = true ∧ s.onTrial = false ∧ s.pwr.mode = .service ∧
      s.ownerSession = false) ∧
    (∃ (s : State) (d : Desc), Ready s d .accRelKey = true ∧ s.onTrial = false ∧ s.pwr.mode = .service ∧
      s.ownerSession = true) ∧
    (∃ (s : State) (d : Desc), Ready s d .accRead = true) :=
  ⟨⟨{ up with upd.boot.trial := true }, dM 20, 7, .accPair 7, by decide +kernel⟩,
   ⟨upA .run (fun a => { a with lock := some (0, 1) }), dM 20, 7, .accPair 7, by decide +kernel⟩,
   ⟨upA .run (fun a => a), dM 20, 7, .accPair 7, by decide +kernel⟩,
   ⟨upA .run (fun a => { a with ownerUntil := some 7 }), dM 20, 7, .accPair 7, by decide +kernel⟩,
   ⟨upA .run (fun a => { a with ownerUntil := some 7 }), dM 20, 6, .accPair 6, by decide +kernel⟩,
   ⟨up, by decide +kernel⟩,
   ⟨upA .run (fun a => { a with pairing := some { slot := 7, serial := 5 } }), { slot := 7, serial := 5 }, by decide +kernel⟩,
   ⟨upA .run (fun a => { a with pairing := some { slot := 7, serial := 5 } }), { slot := 7, serial := 5 }, by decide +kernel⟩,
   ⟨{ up with upd.boot.trial := true }, {}, 7, .accUnpair 7, by decide +kernel⟩,
   ⟨up, {}, 0, .accUnpair 0, by decide +kernel⟩,
   ⟨upA .run (fun a => a), {}, 7, .accUnpair 7, by decide +kernel⟩,
   ⟨upA .run (fun a => { a with ownerUntil := some 7 }), {}, 7, .accUnpair 7, by decide +kernel⟩,
   ⟨{ up with upd.boot.trial := true }, dM 28, by decide +kernel⟩,
   ⟨upA .run (fun a => { a with lock := some (0, 1) }), dM 28, by decide +kernel⟩,
   ⟨upA .run (fun a => a), dM 28, by decide +kernel⟩,
   ⟨upA .service (fun a => a), dM 28, by decide +kernel⟩,
   ⟨{ up with upd.boot.trial := true }, {}, 1, .accOwnerLock 1, by decide +kernel⟩,
   ⟨up, {}, 1, .accOwnerLock 1, by decide +kernel⟩,
   ⟨upA .run (fun a => { a with ownerUntil := some 7 }), {}, 1, .accOwnerLock 1, by decide +kernel⟩,
   ⟨up, dM 20, by decide +kernel⟩,
   ⟨upA .service (fun a => a), dM 20, by decide +kernel⟩,
   ⟨upA .service (fun a => { a with ownerUntil := some 7 }), dM 20, by decide +kernel⟩,
   ⟨up, {}, by decide +kernel⟩⟩

theorem test_TokensArePolledAndLockedOut_hypotheses_met :
    (∃ (s : State) (d : Desc) (r : BitVec 2) (c : HostCmd), c = .accSearch r ∧ Ready s d c = true ∧ (s.accOn = false
      ∨ (s.pwr.mode ≠ .service ∧ (r ≠ 2 ∨ searchMode s.pwr.mode = false)))) ∧
    (∃ (s : State) (d : Desc) (r : BitVec 2) (c : HostCmd), c = .accSearch r ∧ Ready s d c = true ∧ s.accOn = true ∧
      (s.pwr.mode = .service ∨ (r = 2 ∧ searchMode s.pwr.mode = true)) ∧ s.lockedOut = true) ∧
    (∃ (s : State) (d : Desc) (r : BitVec 2) (c : HostCmd), c = .accSearch r ∧ Ready s d c = true ∧ s.accOn = true ∧
      (s.pwr.mode = .service ∨ (r = 2 ∧ searchMode s.pwr.mode = true)) ∧ s.lockedOut = false) ∧
    (∃ (s : State), s.pwr.mode = .guard ∧ s.pwr.entering = false ∧ s.accOn = true ∧ s.lockedOut = false ∧ s.kcRuns =
      true) ∧
    (∃ (s : State), (s.pwr.mode ≠ .guard ∨ s.pwr.entering = true ∨ s.accOn = false ∨ s.lockedOut = true ∨ s.kcRuns =
      false)) ∧
    (∃ (s : State), (s.pwr.mode ≠ .guard ∨ s.acc.slow = true)) ∧
    (∃ (s : State), s.pwr.mode = .guard ∧ s.acc.slow = false) ∧
    (∃ (s : State), s.acc.search = none) ∧
    (∃ (s : State) (x : AccSearch), s.acc.search = some x) ∧
    (∃ (s : State) (x : AccSearch) (a : Act), s.acc.search = some x ∧ x.act = some a) ∧
    (∃ (s : State) (x : AccSearch), s.acc.search = some x ∧ x.act = none) ∧
    (∃ (s : State), s.acc.polling = false) ∧
    (∃ (s : State), s.acc.polling = true ∧ s.pwr.mode ≠ .guard ∧ s.acc.search = none) ∧
    (∃ (s : State) (x : AccSearch), s.acc.polling = true ∧ s.pwr.mode ≠ .guard ∧ s.acc.search = some x) ∧
    (∃ (s : State) (a : TokenAnswer), s.acc.polling = true ∧ s.pwr.mode ≠ .guard ∧ s.acc.search = none ∧ (s.tok
      a.slot).paired = false) ∧
    (∃ (s : State) (a : TokenAnswer), s.acc.polling = true ∧ s.pwr.mode ≠ .guard ∧ s.acc.search = none ∧ (s.tok
      a.slot).paired = true ∧ s.isolated a = false) ∧
    (∃ (s : State) (a : TokenAnswer), s.acc.polling = true ∧ s.pwr.mode ≠ .guard ∧ s.acc.search = none ∧ (s.tok
      a.slot).paired = true ∧ s.isolated a = true ∧ s.inZone a = false) ∧
    (∃ (s : State) (a : TokenAnswer), s.acc.polling = true ∧ s.pwr.mode ≠ .guard ∧ s.acc.search = none ∧ (s.tok
      a.slot).paired = true ∧ s.isolated a = true ∧ s.inZone a = true ∧ s.ants.contains (s.accField 0 6 2) = true ∧
      a.correct = true) ∧
    (∃ (s : State) (a : TokenAnswer) (f : BitVec 2) (l : List Nat), s.acc.polling = true ∧ s.pwr.mode ≠ .guard ∧
      s.acc.search = none ∧ (s.tok a.slot).paired = true ∧ s.isolated a = true ∧ s.inZone a = true ∧ s.ants.contains
      (s.accField 0 6 2) = true ∧ a.correct = false ∧ f = 0 ∧ l = s.acc.fails.filter (fun x => s.clk.ns < x + 600 *
      sec) ++ [s.clk.ns]) ∧
    (∃ (s : State) (a : TokenAnswer), s.acc.polling = true ∧ s.pwr.mode = .guard ∧ (s.tok a.slot).paired = true ∧
      s.isolated a = true ∧ s.inZone a = true ∧ s.ants.contains (s.accField 0 6 2) = true ∧ a.correct = true) ∧
    (∃ (s : State), s.acc.lock = none) ∧
    (∃ (s : State) (a : Nat) (b : Nat), s.acc.lock = some (a, b)) ∧
    (∃ (s : State), s.acc.ownerUntil = none) ∧
    (∃ (s : State) (x : Nat), s.acc.ownerUntil = some x) ∧
    (∃ (s : State), (s.acc.session = none ∨ s.kl15On = true)) ∧
    (∃ (s : State), s.acc.session.isSome = true ∧ s.kl15On = false) ∧
    (∃ (s : State), s.relHolds = false) ∧
    (∃ (s : State), s.relHolds = true) ∧
    (∃ (s : State), s.relHolds = false) :=
  ⟨⟨upA .run (fun a => a), {}, 1, .accSearch 1, by decide +kernel⟩,
   ⟨upA .run (fun a => { a with lock := some (0, 1) }), {}, 2, .accSearch 2, by decide +kernel⟩,
   ⟨upA .run (fun a => a), {}, 2, .accSearch 2, by decide +kernel⟩,
   ⟨upA .guard (fun a => a), by decide +kernel⟩,
   ⟨up, by decide +kernel⟩,
   ⟨up, by decide +kernel⟩,
   ⟨upA .guard (fun a => a), by decide +kernel⟩,
   ⟨up, by decide +kernel⟩,
   ⟨upA .run (fun a => { a with search := some { reason := 2, left := 4 } }), { reason := 2, left := 4 }, by decide +kernel⟩,
   ⟨upA .run (fun a => { a with search := some { act := some {} } }), { act := some {} }, {}, by decide +kernel⟩,
   ⟨upA .run (fun a => { a with search := some { reason := 2, left := 4 } }), { reason := 2, left := 4 }, by decide +kernel⟩,
   ⟨up, by decide +kernel⟩,
   ⟨upA .run (fun a => { a with polling := true, search := none }), by decide +kernel⟩,
   ⟨upA .run (fun a => { a with polling := true, search := some { reason := 2, left := 4 } }), { reason := 2, left := 4 }, by decide +kernel⟩,
   ⟨upA .run (fun a => { a with polling := true, search := none }), { slot := 6 }, by decide +kernel⟩,
   ⟨upA .run (fun a => { a with polling := true, search := none }), { slot := 7, sts := 0xE }, by decide +kernel⟩,
   ⟨upA .run (fun a => { a with polling := true, search := none }), { slot := 7, d0 := 201 }, by decide +kernel⟩,
   ⟨upA .run (fun a => { a with polling := true, search := none }), { slot := 7, d0 := 200 }, by decide +kernel⟩,
   ⟨upA .run (fun a => { a with polling := true, search := none, fails := [0, 0, 0, 0] }), { slot := 7, d0 := 200, correct := false }, 0, [0, 0, 0, 0, 0], by decide +kernel⟩,
   ⟨upA .guard (fun a => { a with polling := true, search := none }), { slot := 7, d0 := 200 }, by decide +kernel⟩,
   ⟨up, by decide +kernel⟩,
   ⟨upA .run (fun a => { a with lock := some (0, 600) }), 0, 600, by decide +kernel⟩,
   ⟨up, by decide +kernel⟩,
   ⟨upA .run (fun a => { a with ownerUntil := some 7 }), 7, by decide +kernel⟩,
   ⟨up, by decide +kernel⟩,
   ⟨upA .run (fun a => { a with session := some 7 }), by decide +kernel⟩,
   ⟨up, by decide +kernel⟩,
   ⟨{ upA .run (fun a => { a with session := some 7, keys := vset a.keys 8 (some []), tok := vset (vset a.tok 0 { paired := true }) 7 { paired := true } }) with pwr.kl15 := true }, by decide +kernel⟩,
   ⟨up, by decide +kernel⟩⟩

theorem test_LoupeRecordsAndClears_hypotheses_met :
    (∃ (s : State), (s.loupe.staged = [] ∨ s.mayLand = false)) ∧
    (∃ (s : State) (x : LoupeStaged) (l : List LoupeStaged), s.loupe.staged = x :: l ∧ s.mayLand = true ∧ loupePlace
      s (loupeSize x.words.length) = none) ∧
    (∃ (s : State) (x : LoupeStaged) (l : List LoupeStaged) (o : Nat), s.loupe.staged = x :: l ∧ s.mayLand = true ∧
      loupePlace s (loupeSize x.words.length) = some o ∧ s.loupe.clearing = true ∧ s.loupe.eraseFront ≤ o / 65536) ∧
    (∃ (s : State) (x : LoupeStaged) (l : List LoupeStaged) (o : Nat), s.loupe.staged = x :: l ∧ s.mayLand = true ∧
      loupePlace s (loupeSize x.words.length) = some o ∧ (s.loupe.clearing = false ∨ o / 65536 < s.loupe.eraseFront)) ∧
    (∃ (s : State) (n : Nat) (o : Nat), n ≤ 65536 ∧ loupePlace s n = some o) ∧
    (∃ (s : State), s.loupe.programming = none) ∧
    (∃ (s : State) (x : LoupeStaged) (r : LoupeRec) (g : Bool), s.loupe.programming = some (x, r, g) ∧
      s.loupe.lastLanding = false) ∧
    (∃ (s : State) (x : LoupeStaged) (r : LoupeRec) (j : Nat), s.loupe.programming = some (x, r, false) ∧ r.off /
      65536 < 510 ∧ s.loupe.fault = false ∧ (maskList (setBit s.loupe.bad (r.off / 65536) true)).length < 32 ∧
      goodSector (setBit s.loupe.bad (r.off / 65536) true) (r.off / 65536 + 1) = some j) ∧
    (∃ (s : State) (x : LoupeStaged) (r : LoupeRec), s.loupe.programming = some (x, r, true) ∧ s.loupe.lastLanding =
      false) ∧
    (∃ (s : State), s.isOn .svc = true ∧ s.loupe.missed ≠ s.nor.loupe.missed) ∧
    (∃ (s : State), (s.isOn .svc = false ∨ s.loupe.missed = s.nor.loupe.missed)) ∧
    (∃ (s : State), s.loupe.lastLanding = false) ∧
    (∃ (s : State), s.loupe.lastLanding = true) ∧
    (∃ (s : State) (d : Desc) (x : BitVec 32), Ready s d (.loupeClear x) = true ∧ (x ≠ seqPrev s.loupe.nextSeq ∨
      s.loupe.programming.isSome = true ∨ s.loupe.scanning = true)) ∧
    (∃ (s : State) (d : Desc) (x : BitVec 32), Ready s d (.loupeClear x) = true ∧ x = seqPrev s.loupe.nextSeq ∧
      s.loupe.programming = none ∧ s.loupe.scanning = false) ∧
    (∃ (s : State), (s.loupe.clearing = false ∨ s.isOn .svc = false)) ∧
    (∃ (s : State) (k : Nat) (j : Nat), s.loupe.clearing = true ∧ s.isOn .svc = true ∧ goodSector s.loupe.bad
      s.loupe.eraseFront = some k ∧ goodSector s.loupe.bad (k + 1) = some j) ∧
    (∃ (s : State) (k : Nat) (a : Act), s.loupe.clearing = true ∧ s.isOn .svc = true ∧ goodSector s.loupe.bad
      s.loupe.eraseFront = some k ∧ goodSector s.loupe.bad (k + 1) = none ∧ s.loupe.clearActs = [a]) ∧
    (∃ (s : State) (d : Desc) (o : BitVec 25), Ready s d (.loupeRead o) = true ∧ (o.toNat % 32 ≠ 0 ∨ d.payLen.toNat %
      32 ≠ 0 ∨ 510 * 65536 ≤ o.toNat)) ∧
    (∃ (s : State) (d : Desc) (o : BitVec 25) (n : Nat), Ready s d (.loupeRead o) = true ∧ o.toNat % 32 = 0 ∧
      d.payLen.toNat % 32 = 0 ∧ o.toNat < 510 * 65536 ∧ (s.ringN d.ring).remote = false ∧ s.mem.bad = [] ∧ n = min
      d.payLen.toNat (510 * 65536 - o.toNat) ∧ s.loupe.mediaNew = false) ∧
    (∃ (s : State) (d : Desc) (o : BitVec 25) (n : Nat), Ready s d (.loupeRead o) = true ∧ o.toNat % 32 = 0 ∧
      d.payLen.toNat % 32 = 0 ∧ o.toNat < 510 * 65536 ∧ (s.ringN d.ring).remote = false ∧ s.mem.bad = [] ∧ n = min
      d.payLen.toNat (510 * 65536 - o.toNat) ∧ s.loupe.mediaNew = true) ∧
    (∃ (s : State) (d : Desc) (k : BitVec 6), Ready s d (.loupeMark k) = true ∧ ((∀ r, s.rec? 18 1 k.toNat = some r →
      r.f 1 8 2 ≠ 1))) ∧
    (∃ (s : State) (d : Desc) (k : BitVec 6) (r : Rec), Ready s d (.loupeMark k) = true ∧ s.rec? 18 1 k.toNat = some
      r ∧ r.f 1 8 2 = 1 ∧ s.loupe.holdoff.getLsbD k.toNat = true) ∧
    (∃ (s : State) (d : Desc) (k : BitVec 6) (r : Rec), Ready s d (.loupeMark k) = true ∧ s.rec? 18 1 k.toNat = some
      r ∧ r.f 1 8 2 = 1 ∧ s.loupe.holdoff.getLsbD k.toNat = false ∧ (s.loupe.full = true ∨ s.loupe.fault = true)) ∧
    (∃ (s : State) (d : Desc) (k : BitVec 6) (r : Rec), Ready s d (.loupeMark k) = true ∧ s.rec? 18 1 k.toNat = some
      r ∧ r.f 1 8 2 = 1 ∧ s.loupe.holdoff.getLsbD k.toNat = false ∧ s.loupe.full = false ∧ s.loupe.fault = false ∧
      stagedBytes s.loupe.staged + 160 ≤ 65536) :=
  ⟨⟨up, by decide +kernel⟩,
   ⟨{ up with loupe := { up.loupe with scanning := false, staged := [{}], writeOff := 33423360 } }, {}, [], by decide +kernel⟩,
   ⟨{ up with loupe := { up.loupe with scanning := false, staged := [{}], clearing := true, eraseFront := 0 } }, {}, [], 0, by decide +kernel⟩,
   ⟨{ up with loupe := { up.loupe with scanning := false, staged := [{}], writeOff := 65534 } }, {}, [], 65536, by decide +kernel⟩,
   ⟨up, 0, 0, by decide +kernel⟩,
   ⟨up, by decide +kernel⟩,
   ⟨{ up with loupe := { up.loupe with scanning := false, programming := some ({}, {}, true) } }, {}, {}, true, by decide +kernel⟩,
   ⟨{ up with loupe := { up.loupe with scanning := false, programming := some ({}, {}, false) } }, {}, {}, 1, by decide +kernel⟩,
   ⟨{ up with loupe := { up.loupe with scanning := false, programming := some ({}, {}, true) } }, {}, {}, by decide +kernel⟩,
   ⟨{ up with loupe := { up.loupe with scanning := false, missed := 1 } }, by decide +kernel⟩,
   ⟨up, by decide +kernel⟩,
   ⟨up, by decide +kernel⟩,
   ⟨{ up with loupe := { up.loupe with scanning := false, lastLanding := true } }, by decide +kernel⟩,
   ⟨up, {}, 0, by decide +kernel⟩,
   ⟨{ up with loupe := { up.loupe with scanning := false, nextSeq := 0 } }, {}, 0xFFFFFFFE, by decide +kernel⟩,
   ⟨up, by decide +kernel⟩,
   ⟨{ up with loupe := { up.loupe with scanning := false, clearing := true, eraseFront := 508 } }, 508, 509, by decide +kernel⟩,
   ⟨{ up with loupe := { up.loupe with scanning := false, clearing := true, eraseFront := 509, clearActs := [{}] } }, 509, {}, by decide +kernel⟩,
   ⟨up, {}, 33423360, by decide +kernel⟩,
   ⟨up, {}, 0, 0, by decide +kernel⟩,
   ⟨{ up with loupe := { up.loupe with scanning := false, mediaNew := true } }, { payAddr := 0x1000, payLen := 64 }, 33423328, 32, by decide +kernel⟩,
   ⟨up, {}, 0, by decide +kernel⟩,
   ⟨{ upW [rc 18 1 63 [0, 0x10100]] with loupe.holdoff := 0x8000000000000000 }, {}, 63, rc 18 1 63 [0, 0x10100], by decide +kernel⟩,
   ⟨{ upW [rc 18 1 63 [0, 0x10100]] with loupe.full := true }, {}, 63, rc 18 1 63 [0, 0x10100], by decide +kernel⟩,
   ⟨upW [rc 18 1 63 [0, 0x10100]], {}, 63, rc 18 1 63 [0, 0x10100], by decide +kernel⟩⟩

theorem test_ImagesAreInstalled_hypotheses_met :
    (∃ (s : State) (d : Desc) (n : Nat), Ready s d .updBegin = true ∧ updCondition s true = n ∧ n ≠ 0) ∧
    (∃ (s : State) (d : Desc), Ready s d .updBegin = true ∧ updCondition s true = 0 ∧ manifestOk (payloadOf s d
      .updBegin) = false) ∧
    (∃ (s : State) (d : Desc) (m : List (BitVec 8)), Ready s d .updBegin = true ∧ updCondition s true = 0 ∧ payloadOf
      s d .updBegin = m ∧ manifestOk m = true ∧ s.pwr.mode = .update ∧ s.nor.manifest = some m ∧ s.upd.verifying =
      none) ∧
    (∃ (s : State) (d : Desc) (m : List (BitVec 8)), Ready s d .updBegin = true ∧ updCondition s true = 0 ∧ payloadOf
      s d .updBegin = m ∧ manifestOk m = true ∧ s.pwr.mode = .update ∧ s.nor.manifest ≠ some m) ∧
    (∃ (s : State) (d : Desc) (m : List (BitVec 8)), Ready s d .updBegin = true ∧ updCondition s true = 0 ∧ payloadOf
      s d .updBegin = m ∧ manifestOk m = true ∧ s.pwr.mode = .run) ∧
    (∃ (s : State) (d : Desc) (i : BitVec 10), Ready s d (.updBlock i) = true ∧ s.pwr.mode ≠ .update) ∧
    (∃ (s : State) (d : Desc) (i : BitVec 10), Ready s d (.updBlock i) = true ∧ s.pwr.mode = .update ∧ s.nor.manifest
      = none) ∧
    (∃ (s : State) (d : Desc) (i : BitVec 10) (m : List (BitVec 8)), Ready s d (.updBlock i) = true ∧ s.pwr.mode =
      .update ∧ s.nor.manifest = some m ∧ (mBlocks m ≤ i.toNat ∨ (payloadOf s d (.updBlock i)).length ≠ blockLen m
      i.toNat)) ∧
    (∃ (s : State) (d : Desc) (i : BitVec 10) (m : List (BitVec 8)), Ready s d (.updBlock i) = true ∧ s.pwr.mode =
      .update ∧ s.nor.manifest = some m ∧ i.toNat < mBlocks m ∧ (payloadOf s d (.updBlock i)).length = blockLen m
      i.toNat ∧ i.toNat ∈ s.nor.landed) ∧
    (∃ (s : State) (d : Desc) (i : BitVec 10) (m : List (BitVec 8)), Ready s d (.updBlock i) = true ∧ s.pwr.mode =
      .update ∧ s.nor.manifest = some m ∧ i.toNat < mBlocks m ∧ (payloadOf s d (.updBlock i)).length = blockLen m
      i.toNat ∧ i.toNat ∉ s.nor.landed) ∧
    (∃ (s : State), (s.upd.landing = [] ∨ s.nor.manifest = none)) ∧
    (∃ (s : State) (a : Act) (i : Nat) (l : List (Act × Nat)) (m : List (BitVec 8)), s.upd.landing = (a, i) :: l ∧
      s.nor.manifest = some m ∧ (crc32c a.payload).toNat = leAt m (96 + 4 * i) 4) ∧
    (∃ (s : State) (a : Act) (i : Nat) (l : List (Act × Nat)) (m : List (BitVec 8)), s.upd.landing = (a, i) :: l ∧
      s.nor.manifest = some m ∧ (crc32c a.payload).toNat ≠ leAt m (96 + 4 * i) 4) ∧
    (∃ (s : State) (d : Desc), Ready s d .updVerify = true ∧ s.nor.manifest = none) ∧
    (∃ (s : State) (d : Desc) (m : List (BitVec 8)) (i : Nat), Ready s d .updVerify = true ∧ s.nor.manifest = some m
      ∧ i < mBlocks m ∧ i ∉ s.nor.landed ∧ ((∀ j, j < i → j ∈ s.nor.landed))) ∧
    (∃ (s : State) (d : Desc), Ready s d .updVerify = true ∧ s.allLanded = true ∧ s.upd.verifying.isSome = true) ∧
    (∃ (s : State) (d : Desc), Ready s d .updVerify = true ∧ s.allLanded = true ∧ s.upd.verifying = none) ∧
    (∃ (s : State), (s.upd.verifying = none ∨ s.nor.manifest = none)) ∧
    (∃ (s : State) (a : Act) (m : List (BitVec 8)), s.upd.verifying = some a ∧ s.nor.manifest = some m) ∧
    (∃ (s : State) (d : Desc) (x : BitVec 1), Ready s d (.updActivate x) = true ∧ (s.upd.verified = false ∨
      s.nor.manifest = none)) ∧
    (∃ (s : State) (d : Desc) (x : BitVec 1) (m : List (BitVec 8)) (n : Nat), Ready s d (.updActivate x) = true ∧
      s.upd.verified = true ∧ s.nor.manifest = some m ∧ updCondition s false = n ∧ n ≠ 0) ∧
    (∃ (s : State) (d : Desc) (x : BitVec 1) (m : List (BitVec 8)), Ready s d (.updActivate x) = true ∧
      s.upd.verified = true ∧ s.nor.manifest = some m ∧ updCondition s false = 0) ∧
    (∃ (s : State), s.upd.writes = []) ∧
    (∃ (s : State) (w : BootWrite) (l : List BootWrite) (a : Act) (m : List (BitVec 8)), s.upd.writes = w :: l ∧
      w.why = .begin_ a m) ∧
    (∃ (s : State) (w : BootWrite) (l : List BootWrite) (a : Act), s.upd.writes = w :: l ∧ w.why = .activate a) ∧
    (∃ (s : State) (w : BootWrite) (l : List BootWrite) (a : Act), s.upd.writes = w :: l ∧ w.why = .confirm a) ∧
    (∃ (s : State) (w : BootWrite) (l : List BootWrite), s.upd.writes = w :: l ∧ w.why = .fallback) ∧
    (∃ (s : State) (w : BootWrite) (l : List BootWrite), s.upd.writes = w :: l ∧ w.why = .media) ∧
    (∃ (s : State), s.upd.activateAt = none) ∧
    (∃ (s : State) (x : Nat), s.upd.activateAt = some x) :=
  ⟨⟨{ upU .update {} (fun u => u) with hso.vfeed := vset (Vector.replicate 3 12000) 2 11799 }, dM 164, 5, by decide +kernel⟩,
   ⟨upU .update {} (fun u => u), dM 163, by decide +kernel⟩,
   ⟨upU .update { manifest := some mft } (fun u => u), dM 164, mft, by decide +kernel⟩,
   ⟨upU .update {} (fun u => u), dM 164, mft, by decide +kernel⟩,
   ⟨upU .run {} (fun u => u), dM 164, mft, by decide +kernel⟩,
   ⟨up, {}, 0, by decide +kernel⟩,
   ⟨upU .update {} (fun u => u), dM 16, 0, by decide +kernel⟩,
   ⟨upU .update { manifest := some mft } (fun u => u), dM 16, 1, mft, by decide +kernel⟩,
   ⟨upU .update { manifest := some mft, landed := [0] } (fun u => u), dM 16, 0, mft, by decide +kernel⟩,
   ⟨upU .update { manifest := some mft } (fun u => u), dM 16, 0, mft, by decide +kernel⟩,
   ⟨up, by decide +kernel⟩,
   ⟨upU .update { manifest := some mft } (fun u => { u with landing := [({ payload := List.replicate 16 0 }, 0)] }), { payload := List.replicate 16 0 }, 0, [], mft, by decide +kernel⟩,
   ⟨upU .update { manifest := some mft } (fun u => { u with landing := [({ payload := List.replicate 16 1 }, 0)] }), { payload := List.replicate 16 1 }, 0, [], mft, by decide +kernel⟩,
   ⟨up, {}, by decide +kernel⟩,
   ⟨upU .update { manifest := some mft } (fun u => u), {}, mft, 0, by decide +kernel, by decide +kernel, by decide +kernel, by decide +kernel, fun j h => absurd h (Nat.not_lt_zero j)⟩,
   ⟨upU .update { manifest := some mft, landed := [0] } (fun u => { u with verifying := some {} }), {}, by decide +kernel⟩,
   ⟨upU .update { manifest := some mft, landed := [0] } (fun u => u), {}, by decide +kernel⟩,
   ⟨up, by decide +kernel⟩,
   ⟨upU .update { manifest := some mft, landed := [0] } (fun u => { u with verifying := some {} }), {}, mft, by decide +kernel⟩,
   ⟨up, {}, 0, by decide +kernel⟩,
   ⟨upU .run { manifest := some mft, landed := [0] } (fun u => { u with verified := true }), {}, 1, mft, 1, by decide +kernel⟩,
   ⟨upU .update { manifest := some mft, landed := [0] } (fun u => { u with verified := true }), {}, 1, mft, by decide +kernel⟩,
   ⟨up, by decide +kernel⟩,
   ⟨upU .update {} (fun u => { u with writes := [{ why := .begin_ {} mft }] }), { why := .begin_ {} mft }, [], {}, mft, by decide +kernel⟩,
   ⟨upU .update {} (fun u => { u with writes := [{ why := .activate {} }] }), { why := .activate {} }, [], {}, by decide +kernel⟩,
   ⟨upU .update {} (fun u => { u with writes := [{ why := .confirm {} }] }), { why := .confirm {} }, [], {}, by decide +kernel⟩,
   ⟨upU .update {} (fun u => { u with writes := [{ why := .fallback }] }), { why := .fallback }, [], by decide +kernel⟩,
   ⟨upU .update {} (fun u => { u with writes := [{ why := .media }] }), { why := .media }, [], by decide +kernel⟩,
   ⟨up, by decide +kernel⟩,
   ⟨upU .update {} (fun u => { u with activateAt := some 7 }), 7, by decide +kernel⟩⟩

theorem test_TrialsEndAndSettingsAreKept_hypotheses_met :
    (∃ (s : State) (d : Desc), Ready s d .updConfirm = true ∧ (s.onTrial = false ∨ s.lastBoot.trial = false)) ∧
    (∃ (s : State) (d : Desc), Ready s d .updConfirm = true ∧ s.onTrial = true ∧ s.lastBoot.trial = true) ∧
    (∃ (s : State), (s.onTrial = false ∨ s.lastBoot.trial = false ∨ s.isOn .svc = false)) ∧
    (∃ (s : State), s.onTrial = true ∧ s.lastBoot.trial = true ∧ s.isOn .svc = true) ∧
    (∃ (s : State) (d : Desc) (k : BitVec 1), Ready s d (.updAbort k) = true ∧ s.pwr.mode ≠ .update ∧ s.upd.landing =
      [] ∧ s.upd.verifying = none) ∧
    (∃ (s : State) (d : Desc) (k : BitVec 1), Ready s d (.updAbort k) = true ∧ s.pwr.mode = .update) ∧
    (∃ (s : State) (d : Desc), Ready s d .updOemKey = true ∧ (s.onTrial = true ∨ s.pwr.mode ≠ .service)) ∧
    (∃ (s : State) (d : Desc), Ready s d .updOemKey = true ∧ s.onTrial = false ∧ s.pwr.mode = .service ∧ (vget
      s.acc.keys 9).isSome = true) ∧
    (∃ (s : State) (d : Desc), Ready s d .updOemKey = true ∧ s.onTrial = false ∧ s.pwr.mode = .service ∧ vget
      s.acc.keys 9 = none) ∧
    (∃ (s : State) (d : Desc) (k : BitVec 16), s.upd.migrating = true ∧ Ready s d (.setWrite k) = true) ∧
    (∃ (s : State) (d : Desc) (k : BitVec 16), s.upd.migrating = true ∧ Ready s d (.setRead k) = true) ∧
    (∃ (s : State) (d : Desc) (k : BitVec 16) (v : List (BitVec 8)) (rest : List (BitVec 16 × List (BitVec 8))),
      Ready s d (.setWrite k) = true ∧ s.upd.migrating = false ∧ v = payloadOf s d (.setWrite k) ∧ rest = (s.area
      s.upd.boot.sarea).items.filter (fun x => x.1 != k) ∧ 1048576 < storeBytes rest + v.length) ∧
    (∃ (s : State) (d : Desc) (k : BitVec 16) (v : List (BitVec 8)) (rest : List (BitVec 16 × List (BitVec 8))),
      Ready s d (.setWrite k) = true ∧ s.upd.migrating = false ∧ v = payloadOf s d (.setWrite k) ∧ rest = (s.area
      s.upd.boot.sarea).items.filter (fun x => x.1 != k) ∧ storeBytes rest + v.length ≤ 1048576) ∧
    (∃ (s : State) (d : Desc) (k : BitVec 16), Ready s d (.setRead k) = true ∧ s.upd.migrating = false ∧ (s.area
      s.upd.boot.sarea).items.find? (fun x => x.1 == k) = none) ∧
    (∃ (s : State) (d : Desc) (k : BitVec 16) (q : BitVec 16) (v : List (BitVec 8)), Ready s d (.setRead k) = true ∧
      s.upd.migrating = false ∧ (s.area s.upd.boot.sarea).items.find? (fun x => x.1 == k) = some (q, v) ∧ (s.ringN
      d.ring).remote = false ∧ s.mem.bad = []) ∧
    (∃ (s : State), s.upd.migrating = false) ∧
    (∃ (s : State), s.upd.migrating = true ∧ s.upd.setWaits = []) :=
  ⟨⟨up, {}, by decide +kernel⟩,
   ⟨{ up with upd.boot.trial := true }, {}, by decide +kernel⟩,
   ⟨up, by decide +kernel⟩,
   ⟨{ up with upd.boot.trial := true }, by decide +kernel⟩,
   ⟨up, {}, 0, by decide +kernel⟩,
   ⟨upU .update {} (fun u => u), {}, 1, by decide +kernel⟩,
   ⟨up, dM 64, by decide +kernel⟩,
   ⟨{ up with pwr.mode := .service, acc.keys := vset up.acc.keys 9 (some []) }, dM 64, by decide +kernel⟩,
   ⟨{ up with pwr.mode := .service }, dM 64, by decide +kernel⟩,
   ⟨{ up with upd.migrating := true }, {}, 0xFFFF, by decide +kernel⟩,
   ⟨{ up with upd.migrating := true }, {}, 0xFFFF, by decide +kernel⟩,
   ⟨upFull, dM 1, 0xFFFF, [0#8], fullItems, by decide +kernel, by decide +kernel, by decide +kernel, fullItems_kept, fullItems_bytes⟩,
   ⟨{ up with nor.area0.items := [(0xFFFF, [1])] }, dM 1, 0xFFFF, [0], [], by decide +kernel⟩,
   ⟨up, {}, 0, by decide +kernel⟩,
   ⟨{ up with nor.area0.items := [(5, [7])] }, {}, 5, 5, [7], by decide +kernel⟩,
   ⟨up, by decide +kernel⟩,
   ⟨{ up with upd.migrating := true }, by decide +kernel⟩⟩

theorem test_SupplyAndMemoryFaultsAreReported_hypotheses_met :
    (∃ (s : State) (p : Fin 3), s.paused p = true) ∧
    (∃ (s : State) (p : Fin 3), s.paused p = false) ∧
    (∃ (s : State) (v : BitVec 16), ((if s.sys.sysv then 18000 ≤ v.toNat ∧ v.toNat ≤ 32000 else 9000 ≤ v.toNat ∧
      v.toNat ≤ 16000))) ∧
    (∃ (s : State) (v : BitVec 16), (¬ (if s.sys.sysv then 18000 ≤ v.toNat ∧ v.toNat ≤ 32000 else 9000 ≤ v.toNat ∧
      v.toNat ≤ 16000)) ∧ s.kl15On = true ∧ s.sys.mismatch = false) ∧
    (∃ (s : State) (v : BitVec 16), (¬ (if s.sys.sysv then 18000 ≤ v.toNat ∧ v.toNat ≤ 32000 else 9000 ≤ v.toNat ∧
      v.toNat ≤ 16000)) ∧ (s.kl15On = false ∨ s.sys.mismatch = true)) ∧
    (∃ (s : State) (x : Int), s.isOn .adc = true ∧ s.adc.plateFault = false ∧ (x < -5000 ∨ 15000 < x)) ∧
    (∃ (s : State) (x : Int), (s.isOn .adc = false ∨ s.adc.plateFault = true ∨ (-5000 ≤ x ∧ x ≤ 15000))) ∧
    (∃ (x : Int), -5000 ≤ x ∧ x ≤ 15000) ∧
    (∃ (x : Int), (x < -5000 ∨ 15000 < x)) ∧
    (∃ (v : BitVec 13), 4750 ≤ v.toNat ∧ v.toNat ≤ 5250) ∧
    (∃ (s : State) (v : BitVec 13), (v.toNat < 4750 ∨ 5250 < v.toNat) ∧ s.isOn .adc = true ∧ s.adc.refFault = false) ∧
    (∃ (s : State) (v : BitVec 13), (v.toNat < 4750 ∨ 5250 < v.toNat) ∧ (s.isOn .adc = false ∨ s.adc.refFault =
      true)) ∧
    (∃ (s : State), s.ecc.scrubEn = false) ∧
    (∃ (s : State), s.ecc.scrubEn = true ∧ s.ecc.pos.toNat < dramWords ∧ s.isOn .mem = false) ∧
    (∃ (s : State), s.ecc.scrubEn = true ∧ s.ecc.pos.toNat < dramWords ∧ s.isOn .mem = true ∧ s.mem.faultOf
      s.ecc.pos.toNat = none) ∧
    (∃ (s : State), s.ecc.scrubEn = true ∧ s.ecc.pos.toNat < dramWords ∧ s.isOn .mem = true ∧ s.mem.faultOf
      s.ecc.pos.toNat = some .single) ∧
    (∃ (s : State), s.ecc.scrubEn = true ∧ s.ecc.pos.toNat < dramWords ∧ s.isOn .mem = true ∧ s.mem.faultOf
      s.ecc.pos.toNat = some .double) ∧
    (∃ (s : State), s.ecc.scrubEn = true ∧ s.ecc.pos.toNat + 1 = dramWords + 262144 ∧ s.isOn .svc = true ∧
      s.mem.faultOf (scrubAt s.ecc.pos.toNat) = none) ∧
    (∃ (s : State) (d : Desc) (a : BitVec 64) (k : BitVec 2), Ready s d (.eccInject a k) = true ∧ s.pwr.mode ≠
      .service) ∧
    (∃ (s : State) (d : Desc) (a : BitVec 64) (k : BitVec 2), Ready s d (.eccInject a k) = true ∧ s.pwr.mode =
      .service ∧ s.mem.faultOf (a.toNat / 32) = none) ∧
    (∃ (s : State) (d : Desc) (a : BitVec 64) (k : BitVec 2), Ready s d (.eccInject a k) = true ∧ s.pwr.mode =
      .service ∧ (s.mem.faultOf (a.toNat / 32) = some .double ∨ s.mem.faultOf (a.toNat / 32) = some .fold)) ∧
    (∃ (s : State), s.ecc.ceSince = 0 ∨ s.ecc.ceReported.any (fun x => s.clk.ns < x + 1000000000) = true) ∧
    (∃ (s : State), s.ecc.ceSince ≠ 0 ∧ s.ecc.ceReported.all (fun x => x + 1000000000 ≤ s.clk.ns) = true) :=
  ⟨⟨{ up with sys.ovp := 4 }, 2, by decide +kernel⟩,
   ⟨up, 0, by decide +kernel⟩,
   ⟨up, 9000, by decide +kernel⟩,
   ⟨{ up with pwr.kl15 := true }, 8999, by decide +kernel⟩,
   ⟨up, 0, by decide +kernel⟩,
   ⟨up, -5001, by decide +kernel⟩,
   ⟨up, 0, by decide +kernel⟩,
   ⟨0, by decide +kernel⟩,
   ⟨15001, by decide +kernel⟩,
   ⟨5250, by decide +kernel⟩,
   ⟨up, 0, by decide +kernel⟩,
   ⟨{ up with adc.refFault := true }, 5251, by decide +kernel⟩,
   ⟨{ up with ecc.scrubEn := false }, by decide +kernel⟩,
   ⟨up.modDom .mem (fun x => { x with st := .off }), by decide +kernel⟩,
   ⟨up, by decide +kernel⟩,
   ⟨{ up with mem.bad := [(0, .single)] }, by decide +kernel⟩,
   ⟨{ up with mem.bad := [(0, .double)] }, by decide +kernel⟩,
   ⟨{ up with ecc.pos := 0x3C3FFFF }, by decide +kernel⟩,
   ⟨up, {}, 0, 0, by decide +kernel⟩,
   ⟨{ up with pwr.mode := .service }, {}, 0x806FFFE0, 2, by decide +kernel⟩,
   ⟨{ up with pwr.mode := .service, mem.bad := [(0x4037FFF, .double)] }, {}, 0x806FFFE0, 2, by decide +kernel⟩,
   ⟨up, by decide +kernel⟩,
   ⟨{ up with ecc.ceSince := 1 }, by decide +kernel⟩⟩

theorem test_TriggersRecordWhatMatches_hypotheses_met :
    (∃ (s : State) (code : Nat) (t : Nat) (r : Rec), s.isOn .svc = true ∧ code / 256 ≠ 0x12 ∧ t < 64 ∧ s.rec? 18 1 t
      = some r ∧ (∀ k : Fin 64, k.val ≠ t → s.rec? 18 1 k = none)) ∧
    (∃ (s : State) (code : Nat), s.isOn .svc = true ∧ code / 256 ≠ 0x12) ∧
    (∃ (code : Nat), 0x1200 ≤ code ∧ code ≤ 0x12FF) ∧
    (∃ (s : State) (d : Desc) (k : BitVec 6), Ready s d (.loupeMark k) = true) ∧
    (∃ (s : State) (n : Nat) (r : Rec), s.rec? 18 2 n = some r) :=
  ⟨⟨upW [rc 18 1 63 [0xFF000100, 0]], 0x133, 63, rc 18 1 63 [0xFF000100, 0], by decide +kernel⟩,
   ⟨up, 0, by decide +kernel⟩,
   ⟨0x12FF, by decide +kernel⟩,
   ⟨up, {}, 0, by decide +kernel⟩,
   ⟨upW [rc 18 2 30 [0]], 30, rc 18 2 30 [0], by decide +kernel⟩⟩

theorem test_WorkerIrqsReachTheHost_hypotheses_met :
    (∃ (s : State) (w : Nat) (f : PlaitFrame), w < 32 ∧ s.role = .manager ∧ f.cls = 3 ∧ f.kind = 1) ∧
    (∃ (s : State) (w : Fin 32) (f : PlaitFrame), s.role = .manager ∧ s.isOn .eth = true ∧ s.linkUp w = true ∧
      frameGood s w f = true ∧ f.cls = 3 ∧ f.kind = 1 ∧ f.seq = (s.plink w).rxSeq ∧ (s.plink w).held = [] ∧
      s.plait.copies = []) :=
  ⟨⟨mg, 31, { cls := 3, kind := 1, src := 31, len := 4, payload := [15, 0, 0, 0] }, by decide +kernel⟩,
   ⟨mgL [rec31 0] 31 id, 31, { cls := 3, kind := 1, src := 31, len := 4, payload := [15, 0, 0, 0] }, by decide +kernel⟩⟩

theorem test_NearestTokenIsUsed_hypotheses_met :
    (∃ (l : List (Nat × Nat)) (x : Nat × Nat), bestToken l = some x) ∧
    (∃ l : List (Nat × Nat), l ≠ []) ∧
    (∃ (l : List (Nat × Nat)) (k n : Nat), bestToken l = some (k, n)) :=
  ⟨⟨[(3, 70), (2, 40), (1, 40)], (1, 40), by decide⟩,
   ⟨[(0, 5)], by decide⟩,
   ⟨[(3, 70), (2, 40), (1, 40)], 1, 40, by decide⟩⟩

end Sys2Proof.Tests
end

section
/-! PROOFS. The CRC-32C of R156 (chapter 4). -/

namespace Sys2Proof.Machine

/-- A byte enters the low end of the register and takes eight bit steps, so its least significant bit goes first
(R156). -/
theorem crcByte_eq_iterate_crcBit (c : BitVec 32) (b : BitVec 8) :
    crcByte c b = crcBit^[8] (c ^^^ b.setWidth 32) := rfl

/-- The check value of R156, over the ASCII bytes "123456789". -/
theorem crc32c_digits_1_to_9 :
    crc32c [0x31, 0x32, 0x33, 0x34, 0x35, 0x36, 0x37, 0x38, 0x39] = 0xE3069283 := by
  decide +kernel

/-- Settles O7: the check value is computed over its nine digits, the bit step and the fold over the bytes are those of
the model's definitions, and a byte is eight bit steps, which the fold over `List.range 8` counts. -/
theorem crcIsTheSpecs : Obligations.CrcIsTheSpecs := by
  unfold Obligations.CrcIsTheSpecs
  refine ⟨crc32c_digits_1_to_9, fun c => ?bit, fun c b => ?byte, fun bs => ?bytes⟩
  case bit => rfl
  case byte => rw [crcByte_eq_iterate_crcBit, List.foldl_const, List.length_range]
  case bytes => rfl

end Sys2Proof.Machine
end

section
/-! PROOFS. What a bridge link keeps while it sends and takes acknowledgements and credits, and the IRQ message of a
worker at the manager (R516, R523, R546; chapter 14). -/

namespace Sys2Proof.Machine

/-! ## One link of the state -/

theorem plink_modLink_same {w : Nat} (hw : w < 32) (s : State) (g : PLink → PLink) :
    (s.modLink w g).plink w = g (s.plink w) := vget_vmod_same s.plait.link w g hw

theorem modLink_modLink (s : State) (w : Nat) (g h : PLink → PLink) :
    (s.modLink w g).modLink w h = s.modLink w (fun l => h (g l)) := by
  simp only [State.modLink, vmod_vmod]

theorem vmod_eq_self {α : Type} {n : Nat} [Inhabited α] {v : Vector α n} {i : Nat} {g : α → α}
    (h : g (vget v i) = vget v i) : vmod v i g = v := by
  rw [vmod, h]
  apply Vector.ext
  intro j hj
  by_cases hij : i = j
  · subst hij
    simp [vset, vget, List.getD, hj]
  · simp [vset, hij]

theorem modLink_eq_self {s : State} {w : Nat} {g : PLink → PLink} (h : g (s.plink w) = s.plink w) :
    s.modLink w g = s := by
  rw [State.modLink, vmod_eq_self h]

theorem plink_send (s : State) (o : Out) (w : Nat) : (s.send o).plink w = s.plink w := rfl

/-! ## The receiving side of a link -/

/-- What a link holds of the frames received on it: the pending bits of its IRQs, the SEQ it expects next and the
transactions held. -/
def PLink.received (l : PLink) : BitVec 16 × BitVec 12 × List PlaitFrame := (l.rpend, l.rxSeq, l.held)

theorem PLink.received_eq_iff {l : PLink} {p : BitVec 16} {q : BitVec 12} {fs : List PlaitFrame} :
    l.received = (p, q, fs) ↔ l.rpend = p ∧ l.rxSeq = q ∧ l.held = fs := by
  simp only [PLink.received, Prod.mk.injEq]

theorem plaitEmit_received {w : Nat} (hw : w < 32) (s : State) (f : PlaitFrame) :
    ((plaitEmit s w f).plink w).received = (s.plink w).received := by
  rw [plaitEmit, plink_send, plink_modLink_same hw]
  split <;> rfl

theorem plaitPumpN_received {w : Nat} (hw : w < 32) (s : State) (n : Nat) :
    ((plaitPumpN s w n).plink w).received = (s.plink w).received := by
  induction n generalizing s with
  | zero => rfl
  | succ n ih =>
    unfold plaitPumpN
    split
    · rfl
    · rw [ih, plaitEmit_received hw, plink_modLink_same hw]
      rfl

theorem plaitPump_received {w : Nat} (hw : w < 32) (s : State) :
    ((plaitPump s w).plink w).received = (s.plink w).received := plaitPumpN_received hw s _

theorem plaitPump_rings (s : State) (w : Nat) : (plaitPump s w).rings = s.rings :=
  (frame_plaitPump s w (P := [.plait, .out]) (by decide) (Frame.refl _ s)).2 .rings (by decide)

/-- While no PLAIT_COPY runs, an ACK changes the sending side of its link alone (R516). -/
theorem ackTake_eq_modLink {s : State} (hc : s.plait.copies = []) (w : Nat) (ack : BitVec 12) :
    ∃ g : PLink → PLink, ackTake s w ack = s.modLink w g ∧ ∀ l, (g l).received = l.received := by
  unfold ackTake
  extract_lets l rest gone acked s'
  have hc' : s'.plait.copies = [] := hc
  split
  · exact ⟨id, (modLink_eq_self rfl).symm, fun _ => rfl⟩
  · rw [hc', List.filter_nil, List.foldl_nil]
    exact ⟨_, rfl, fun _ => rfl⟩

theorem freeCredits_received {w : Nat} (hw : w < 32) (s : State) (f : PlaitFrame) :
    ((freeCredits s w f).plink w).received = (s.plink w).received := by
  rw [freeCredits, plink_modLink_same hw]
  split <;> rfl

/-! ## An inbound transaction -/

/-- A message to a manager waits for no domain. -/
theorem frameReach_message {s : State} {f : PlaitFrame} (hr : s.role = .manager) (hcls : f.cls = 3) (w : Nat) :
    frameReach s w f = .now := by
  simp [frameReach, hr, hcls]

/-- On a link that holds nothing, a transaction that waits for no domain takes effect at once. -/
theorem takeInbound_of_now {s : State} {w : Nat} {f : PlaitFrame} (hw : w < 32) (hheld : (s.plink w).held = [])
    (hnow : frameReach (s.modLink w (fun l => { l with held := l.held ++ [f] })) w f = .now) :
    takeInbound s w f = takeFrame s w f none := by
  have hjoin : ((s.modLink w (fun l => { l with held := l.held ++ [f] })).plink w).held = [f] := by
    rw [plink_modLink_same hw, hheld, List.nil_append]
  have hleave : (s.modLink w (fun l => { l with held := l.held ++ [f] })).modLink w
      (fun l => { l with held := [] }) = s := by
    rw [modLink_modLink]
    exact modLink_eq_self (by rw [← hheld])
  simp only [takeInbound, hjoin, List.length_singleton, takeHeld, hnow, hleave]

theorem takeInbound_message {s : State} {w : Nat} {f : PlaitFrame} (hw : w < 32) (hr : s.role = .manager)
    (hcls : f.cls = 3) (hheld : (s.plink w).held = []) : takeInbound s w f = takeFrame s w f none :=
  takeInbound_of_now hw hheld (frameReach_message (s := s.modLink w _) hr hcls w)

/-! ## The IRQ message -/

theorem takeFrame_irq {s : State} {f : PlaitFrame} (hr : s.role = .manager) (hcls : f.cls = 3) (hkind : f.kind = 1)
    (w : Nat) : takeFrame s w f none = raiseBlock ((freeCredits s w f).modLink w
      (fun l => { l with rpend := setBit l.rpend (ofBytes (f.payload.take 1) % 16) true })) 15 := by
  have hr' : (freeCredits s w f).role = .manager := hr
  simp [takeFrame, managerMsg, hr', hcls, hkind]

theorem takeFrame_irq_received {s : State} {w : Nat} {f : PlaitFrame} (hw : w < 32) (hr : s.role = .manager)
    (hcls : f.cls = 3) (hkind : f.kind = 1) : ((takeFrame s w f none).plink w).received =
      (setBit (s.plink w).rpend (ofBytes (f.payload.take 1) % 16) true, (s.plink w).rxSeq, (s.plink w).held) := by
  obtain ⟨hrpend, hseq, hheld⟩ := PLink.received_eq_iff.mp (freeCredits_received hw s f)
  rw [takeFrame_irq hr hcls hkind, ← hrpend, ← hseq, ← hheld]
  exact congrArg PLink.received (plink_modLink_same hw (freeCredits s w f) _)

theorem takeFrame_irq_rings {s : State} {f : PlaitFrame} (hr : s.role = .manager) (hcls : f.cls = 3)
    (hkind : f.kind = 1) (w : Nat) :
    (takeFrame s w f none).rings = { s.rings with blkPend := setBit s.rings.blkPend 15 true } := by
  rw [takeFrame_irq hr hcls hkind]
  rfl

/-! ## The frame received -/

/-- While no PLAIT_COPY runs, the frame that is next in order joins a link whose receiving side is as it was, but that it
now expects the SEQ after it; frames that waited for credits leave behind it (R515, R516, R523). -/
theorem exec_reliableFrameRx_in_order {s : State} {w : Fin 32} {f : PlaitFrame} (heth : s.isOn .eth = true)
    (hup : s.linkUp w = true) (hgood : frameGood s w f = true) (hcls : f.cls ≠ 4) (hseq : f.seq = (s.plink w).rxSeq)
    (hcopies : s.plait.copies = []) :
    ∃ g : PLink → PLink, exec (.reliableFrameRx w f) s = .next (plaitPump (takeInbound (s.modLink w g) w f) w) ∧
      (g (s.plink w)).received = ((s.plink w).rpend, (s.plink w).rxSeq + 1, (s.plink w).held) := by
  obtain ⟨g, hack, hg⟩ := ackTake_eq_modLink hcopies w f.ack
  obtain ⟨hrpend, hrxSeq, hheld⟩ := PLink.received_eq_iff.mp (hg (s.plink w))
  have hcls' : ¬ f.cls = 4#4 := hcls
  have hnext : ((s.modLink w (fun l => creditTake f (g l))).plink w).rxSeq = f.seq := by
    rw [plink_modLink_same w.isLt, hseq, ← hrxSeq]
    rfl
  refine ⟨fun l => { creditTake f (g l) with rxSeq := (creditTake f (g l)).rxSeq + 1 }, ?runs, ?side⟩
  case runs =>
    simp [exec, execReliableFrameRx, heth, hup, hgood, hack, hnext, hcls', modLink_modLink]
  case side =>
    rw [← hrpend, ← hrxSeq, ← hheld]
    rfl

/-- Settles O59: at the manager the message sets the ring's bit in its link and raises the vector; received next in order
on a link that holds nothing, it takes effect at once, its header changes the sending side of the link alone, and the
frames sent behind it leave the bit, the SEQ and the vector. -/
theorem workerIrqsReachTheHost : Obligations.WorkerIrqsReachTheHost := by
  unfold Obligations.WorkerIrqsReachTheHost
  refine ⟨fun s w f hw hr hcls hkind => ⟨_, rfl, ?taken, takeFrame_irq_rings hr hcls hkind w⟩,
    fun s w f hr heth hup hgood hcls hkind hseq hheld hcopies => ?received⟩
  case taken => exact (PLink.received_eq_iff.mp (takeFrame_irq_received hw hr hcls hkind)).1
  case received =>
    obtain ⟨g, hrun, hside⟩ := exec_reliableFrameRx_in_order heth hup hgood (by rw [hcls]; decide) hseq hcopies
    rw [← plink_modLink_same w.isLt s g] at hside
    obtain ⟨hrpend, hrxSeq, hheld'⟩ := PLink.received_eq_iff.mp hside
    have hr' : (s.modLink w g).role = .manager := hr
    rw [takeInbound_message w.isLt hr' hcls (hheld'.trans hheld)] at hrun
    have htaken := (plaitPump_received w.isLt _).trans (takeFrame_irq_received w.isLt hr' hcls hkind)
    rw [hrpend, hrxSeq] at htaken
    obtain ⟨hbit, hexpected, -⟩ := PLink.received_eq_iff.mp htaken
    refine ⟨_, hrun, hbit, hexpected, ?vector⟩
    rw [plaitPump_rings, takeFrame_irq_rings hr' hcls hkind]
    rfl

end Sys2Proof.Machine
end

section
/-! PROOFS. The token that a poll uses (R560), and what an authentication leaves (R561, R567; chapter 15). -/

namespace Sys2Proof.Machine

/-! ## The nearest token -/

/-- The rank of a token, a pairing slot and a distance: its distance first, then its slot (R560). -/
def tokenRank (x : Nat × Nat) : Nat ×ₗ Nat := toLex (x.2, x.1)

theorem tokenRank_le_iff {x y : Nat × Nat} :
    tokenRank x ≤ tokenRank y ↔ x.2 < y.2 ∨ (x.2 = y.2 ∧ x.1 ≤ y.1) := Prod.Lex.toLex_le_toLex

theorem tokenRank_lt_iff {x y : Nat × Nat} :
    tokenRank x < tokenRank y ↔ x.2 < y.2 ∨ (x.2 = y.2 ∧ x.1 < y.1) := Prod.Lex.toLex_lt_toLex

theorem bestToken_eq_argmin (l : List (Nat × Nat)) : bestToken l = l.argmin tokenRank := by
  unfold bestToken List.argmin
  congr 1
  funext b x
  cases b with
  | none => rfl
  | some y => simp only [List.argAux, tokenRank_lt_iff]

theorem bestToken_mem {l : List (Nat × Nat)} {x : Nat × Nat} (h : bestToken l = some x) : x ∈ l := by
  rw [bestToken_eq_argmin] at h
  exact List.argmin_mem h

theorem bestToken_rank_le {l : List (Nat × Nat)} {x y : Nat × Nat} (h : bestToken l = some x) (hy : y ∈ l) :
    tokenRank x ≤ tokenRank y := by
  rw [bestToken_eq_argmin] at h
  exact List.le_of_mem_argmin hy h

theorem bestToken_isSome_iff {l : List (Nat × Nat)} : (bestToken l).isSome = true ↔ l ≠ [] := by
  rw [bestToken_eq_argmin, Option.isSome_iff_ne_none, Ne, List.argmin_eq_none]

/-! ## The authentication -/

theorem logEvent_frame (s : State) (code : Nat) (data : List Nat) : Frame logParts s (logEvent s code data) :=
  frame_logEvent s code data (by decide) (Frame.refl logParts s)

theorem logEvent_clk (s : State) (code : Nat) (data : List Nat) : (logEvent s code data).clk = s.clk :=
  (logEvent_frame s code data).2 .clk (by decide)

theorem logEvent_acc (s : State) (code : Nat) (data : List Nat) : (logEvent s code data).acc = s.acc :=
  (logEvent_frame s code data).2 .acc (by decide)

/-- The event that an authentication logs leaves the access unit and the clock, so the session, the owner session and
LEVEL follow from the state before it (R560, R561, R554 with log entry 76, R567). -/
theorem authenticate_of_bestToken {s : State} {l : List (Nat × Nat)} {k n : Nat} (h : bestToken l = some (k, n)) :
    authenticate s l = searchEnd { logEvent s 0x1001 [k, n] with
      acc.session := some (s.acc.session.getD k),
      acc.ownerUntil := if l.any (fun x => x.1 == 0) then some (s.clk.ns + 60 * sec) else s.acc.ownerUntil,
      acc.level := if s.acc.lockEnded then 0 else s.acc.level, acc.lockEnded := false } stOk k n := by
  simp only [authenticate, h, logEvent_acc, logEvent_clk]
  cases s.acc.session with
  | none => rfl
  | some x => rfl

/-- Settles O52: `bestToken` is the least of the tokens in the order of distance and then slot, and the authentication
logs that token's slot and distance before it opens the session and ends the search. -/
theorem nearestTokenIsUsed : Obligations.NearestTokenIsUsed := by
  unfold Obligations.NearestTokenIsUsed
  refine ⟨fun l x h => ⟨bestToken_mem h, fun y hy => ?nearest⟩, fun l hl => ?used, fun s l k n h => ?acts⟩
  case nearest => exact tokenRank_le_iff.mp (bestToken_rank_le h hy)
  case used => exact bestToken_isSome_iff.mpr hl
  case acts => exact ⟨_, rfl, authenticate_of_bestToken h⟩

end Sys2Proof.Machine
end
